-- ==== Sys2Proof/Syntax.lean ====
section
/-! DEFINITION. The commands of the block: one constructor of Instr for each row of spec/opcode_table.json, and the types of
their operands. A unit number is bounded by its type (R3). -/
namespace Sys2Proof

/-- The address of a 64-byte line: physical address bits [51:6]. -/
abbrev LineAddr := BitVec 46

/-- The states in which a cache, or a peer socket, holds a line (R158). -/
inductive St
  | I | S | E | O | M
deriving DecidableEq, Repr

/-- A unit that sends or receives a message (R3, R166). A hart stands for itself where it sends a request through
memory type NC or IO, an AMO on the home path or a CBO (R97, R170). -/
inductive Agent
  | tile (n : Fin 256)
  | die (d : Fin 16)
  | hart (h : Fin 1024)
  | home (s : Fin 4)
  | chan (c : Fin 24)
  | group (g : Fin 32)
  | cxl (g : Fin 32)
  | peer (p : Fin 4)
  | phlox (e : Fin 8)
  | lark (k : Fin 4)
  | fox
  | weir
  | iommu
deriving DecidableEq, Repr

/-- The operations of an AMO (A, Zabha, Zacas). -/
inductive AmoOp
  | swap | add | xor | and | or | min | max | minu | maxu | cas
deriving DecidableEq, Repr

/-- What an AtomH carries (R167, R182): operation, log2 of the size in bytes, byte offset in the line, operand, compare
operand, and the recalled dirty data of the requesting socket, if any. -/
structure Atom where
  op : AmoOp
  lg : Nat
  off : Nat
  a : BitVec 128
  b : BitVec 128
  recalled : Option (LineData × Bool)
deriving DecidableEq, Repr

/-- The messages of R167. -/
inductive MsgKind
  | rdS | rdX | upg | claim | rdOnce | wrLine | wrPart | atomH | cboC | cboF | cboI
  | evC | evM | evO | wbKeep
  | snpS | snpX | snpInv | snpCln | snpCur | stashOffer
  | rsp | gntE | gntM | ack | evAck | done | stashAcc | stashDec
  | datS | datE | datM | datSnp | datCur | datAtom | datStash
  | mRd | mWr | mDat | mAck
deriving DecidableEq, Repr

/-- A message: its kind, sender, receiver and line, and the fields that its kind uses; the others are 0. `la` is the
channel-local address that the decoder gave a memory request (R22, R230), and 1 in a snoop of the peer snoop table and its answer
(R181); `who` is the hart for which a die asks (R527). `num` and `intact` are of a packet that arrives: its end-to-end number, and whether its
check value is right (R34, R206, R207); of a message in flight they are not used. -/
structure Msg where
  kind : MsgKind
  src : Agent
  dst : Agent
  line : LineAddr
  st : St := .I
  data : LineData := 0
  poison : Bool := false
  mask : BitVec 64 := 0
  way : Fin 16 := 0
  dir : Fin 4 := 0
  stash : Option Agent := none
  atom : Option Atom := none
  la : Nat := 0
  who : Option (Fin 1024) := none
  num : BitVec 12 := 0
  intact : Bool := true
deriving DecidableEq, Repr

/-- Who sends a register access or a request (R10, R352, R391 to R394, R412): a hart, a Larkspur core, an agent on a
port of a link group, a Phlox function, Foxglove, or a peer socket. -/
inductive Requester
  | hart (h : Fin 1024)
  | lark (k : Fin 4)
  | group (g : Fin 32) (port : Fin 8)
  | phlox (f : Fin 256)
  | fox
  | peer (p : Fin 4)
deriving DecidableEq, Repr

/-- The part of a register that a write names (R495, R497): all 8 bytes, the lower or upper 4, or a 1- or 2-byte
access, which has no effect. -/
inductive Half
  | full | low | high | small
deriving DecidableEq, Repr

/-- The register that a load writes or a store reads: x, f, or element `e` of a vector register. -/
inductive Dest
  | x (r : Fin 32)
  | f (r : Fin 32)
  | v (r : Fin 32) (e : Fin 32)
deriving DecidableEq, Repr

/-- An ordinary access, or an access of the H extension made as if at V = 1 (HLV, HSV) or HLVX. -/
inductive MemForm
  | plain | hlv | hlvx
deriving DecidableEq, Repr

/-- The three CSR operations. -/
inductive CsrOp
  | rw | rs | rc
deriving DecidableEq, Repr

/-- The source of a CSR instruction: rs1, or the 5-bit immediate. -/
inductive CsrSrc
  | reg (r : Fin 32)
  | imm (u : BitVec 5)
deriving DecidableEq, Repr

/-- An operation that retires in its token (R36, R55): an instruction of the RISC-V extensions of R55 without a row of its own that writes an
integer register and goes on, or transfers control; one of the floating-point extensions with its result and exception flags; one of the vector
extensions, which leaves vector registers, a scalar result, saturation and flags; vset{i}vl{i} with the values it leaves in vl and vtype; ECALL,
EBREAK; a word of custom-0 or custom-1 (R74); or another encoding that raises an illegal-instruction exception (R55). The values are those that
RISC-V gives. -/
inductive SlotOp
  | compute (rd : Fin 32) (v : Word)
  | jump (rd : Fin 32) (link : Bool) (target : Word)
  | fp (rd : Dest) (v : Word) (flags : BitVec 5)
  | vec (vs : List (Fin 32 × BitVec 256)) (rd : Option (Dest × Word)) (sat : Bool) (flags : BitVec 5)
  | vset (rd : Fin 32) (vl vtype : Word)
  | ecall
  | ebreak
  | custom (w : BitVec 32)
  | illegal
deriving DecidableEq, Repr

/-- What a slot of a token carries (R36, R485): an operation that retires with the token, or one whose instruction is a command of its own or
that waits, and that retires or is discarded in a later token. -/
inductive SlotUse
  | run (h : Fin 4) (op : SlotOp)
  | issue (h : Fin 4)
deriving DecidableEq, Repr

/-- A hardware prefetch (R133): of the L1D stride prefetcher or the L2 stream prefetcher, for ownership or reading, after an access to one line,
of another. -/
structure Ahead where
  stride : Bool
  own : Bool
  after : LineAddr
  line : LineAddr
deriving DecidableEq, Repr

/-- An occurrence count of a token: the hart that made the contribution, the event code and the number (R479). -/
structure Contrib where
  hart : Fin 4
  event : BitVec 16
  n : Nat
deriving DecidableEq, Repr

/-- What happens at a core in one token beside the operations of its slots: whether the hart that has the fetch opportunity fetches at its pc
(R62, R64); the harts whose issued operations retire, or are discarded; those at which a misprediction or flush is detected, and those
that hold an operation waiting for operands, a pipe or a physical register (R486); how many slots the current limiter withholds (R436); parity
errors of the core by hart, and whether the value was to be used (R467); hardware prefetches; and the occurrences of events that nothing else of
the model tells (R484). -/
structure Token where
  fetch : Bool
  ends : List (Fin 4 × Bool)
  found : List (Fin 4)
  held : List (Fin 4)
  limit : Nat
  parity : List (Fin 4 × Bool)
  ahead : List Ahead
  counts : List Contrib
deriving DecidableEq, Repr

/-- An occurrence count of a tick in an uncore block, named by its block instance base (R489, R490). -/
structure UContrib where
  base : BitVec 40
  event : BitVec 16
  n : Nat
deriving DecidableEq, Repr

/-- Why a die is reset (R216): a request, its link going down (R198), or a die-scope error with its event code and the
quadrant or slice that found it (R469). -/
inductive DieCause
  | request (q : Requester)
  | link
  | scope (unit : Fin 4) (event : BitVec 16)
deriving DecidableEq, Repr

/-- A request from an agent behind a port (R315, R336): its group and port, routing ID, PASID and privilege, whether its
address is translated already, the address, the IDE stream that protects it (R322) and whether its integrity check passes
(R323). -/
structure IoReq where
  g : Fin 32
  port : Fin 8
  rid : BitVec 16
  pasid : Option (BitVec 20)
  priv : Bool
  translated : Bool
  addr : Word
  stream : Option (Fin 16)
  intact : Bool
deriving DecidableEq, Repr

/-- What start reads from outside (R397, R401, R366, R416): for each image slot a read error (1 in discovery, 2 in the image)
and the bytes that it holds, the pipelines that fail their known-answer tests, as FOX.KAT shows them, and whether the identity
key passes its test. -/
structure StartEnv where
  errA : Fin 3
  errB : Fin 3
  slotA : List Byte
  slotB : List Byte
  kat : Word
  idOk : Bool
deriving DecidableEq, Repr

/-- What Weir measures at the end of a window (R427): the highest Tj of an IOD sensor, the IOD power, package power over the
window and over the latest 1 ms, and VCORE power over that 1 ms, in W. -/
structure WeirMeas where
  iodTj : BitVec 16
  iod : Nat
  pkg : Nat
  run : Nat
  vcore : Nat
deriving DecidableEq, Repr

/-- A trap that a hart takes: its cause, whether it is an interrupt, and its value. -/
structure TrapCause where
  cause : BitVec 6
  intr : Bool
  tval : Word
deriving DecidableEq, Repr

/-- The commands. Each constructor names its row of the table and the rule that governs it. -/
inductive Instr
  /-- REGISTER_WRITE (R497): A write to a register that has no row of its own is applied field by field at the block's register ordering point under its access codes. -/
  | registerWrite (q : Requester) (a : BitVec 40) (half : Half) (v : Word)
  /-- TOKEN_PASS (R36): A core's issue stage completes one issue opportunity of six slots and the per-token counters advance. -/
  | tokenPass (n : Fin 256) (slots : List SlotUse) (t : Token)
  /-- LOAD (R23): A hart executes a load, which is checked, looked up in L1D and, on a miss, sent down the load path. -/
  | load (h : Fin 1024) (rd : Dest) (rs1 : Fin 32) (imm : BitVec 12) (lg : Fin 4) (uns : Bool) (form : MemForm)
  /-- STORE (R26): A hart executes a store, which holds a store-queue entry and on retirement moves into the store merging buffer or goes to its device target. -/
  | store (h : Fin 1024) (rs2 : Dest) (rs1 : Fin 32) (imm : BitVec 12) (lg : Fin 4) (form : MemForm)
  /-- SMB_IDLE_TIMEOUT (R130): A merging-buffer entry unwritten for 64 tokens of its core starts to drain. -/
  | smbIdleTimeout (n : Fin 256) (k : Fin 16)
  /-- AMO (R89): A hart executes an AMO, on the native path in L1D or on the home path as AtomH. -/
  | amo (h : Fin 1024) (op : AmoOp) (lg : Fin 5) (rd : Fin 32) (rs1 : Fin 32) (rs2 : Fin 32) (aq : Bool) (rl : Bool)
  /-- LR (R528): A hart executes LR, reading the line and taking a reservation on its set. -/
  | lr (h : Fin 1024) (lg : Fin 4) (rd : Fin 32) (rs1 : Fin 32) (aq : Bool) (rl : Bool)
  /-- SC (R528): A hart executes SC, which succeeds only while its reservation holds, upgrading to ownership if needed. -/
  | sc (h : Fin 1024) (lg : Fin 4) (rd : Fin 32) (rs1 : Fin 32) (rs2 : Fin 32) (aq : Bool) (rl : Bool)
  /-- LR_SNOOP_DELAY_END (R186): 128 tokens after a successful LR the tile stops delaying its answers to snoops of the reserved line. -/
  | lrSnoopDelayEnd (h : Fin 1024)
  /-- FENCE (R187): A hart executes FENCE or FENCE.TSO and orders its accesses as RISC-V defines. -/
  | fence (h : Fin 1024) (pred : BitVec 4) (succ : BitVec 4) (tso : Bool)
  /-- FENCE_I (R58): A hart executes FENCE.I and fetches every later instruction again from the coherent hierarchy. -/
  | fenceI (h : Fin 1024)
  /-- WFI (R59): A hart executes WFI and parks, traps at once, or parks with a time limit according to its mode and TW/VTW. -/
  | wfi (h : Fin 1024)
  /-- WFI_LIMIT_EXPIRY (R59): The U-mode or VU-mode WFI or WRS.NTO limit expires and the instruction raises an illegal- or virtual-instruction exception. -/
  | wfiLimitExpiry (h : Fin 1024)
  /-- WRS_NTO (R59): A hart executes WRS.NTO and parks until its reservation set is lost or the WFI condition holds. -/
  | wrsNto (h : Fin 1024)
  /-- WRS_STO (R59): A hart executes WRS.STO and parks as WRS.NTO with a short delay-line timeout. -/
  | wrsSto (h : Fin 1024)
  /-- WRS_STO_TIMEOUT (R59): The 0.5 µs to 2 µs limit of WRS.STO expires and the instruction completes. -/
  | wrsStoTimeout (h : Fin 1024)
  /-- PAUSE (R59): A hart executes PAUSE and takes no fetch opportunity for 32 tokens or until the WFI condition holds. -/
  | pause (h : Fin 1024)
  /-- PAUSE_END (R59): 32 tokens of the core pass after a PAUSE and the hart becomes eligible for fetch again. -/
  | pauseEnd (h : Fin 1024)
  /-- SEED_READ (R60): A hart reads the seed CSR and receives 16 bits from the entropy pool with ES16, or WAIT. -/
  | seedRead (h : Fin 1024) (rd : Fin 32) (write : Bool)
  /-- DW_PARK (R81): A hart executes DW.PARK and parks until an interrupt, wake, line monitor, deadline or time loss, reporting the conditions in rd. -/
  | dwPark (h : Fin 1024) (rd : Fin 32) (rs1 : Fin 32) (imm : BitVec 12)
  /-- DW_WAKE (R86): A hart executes DW.WAKE and sends a wake to the named hart's IMSIC file, subject to the world rule. -/
  | dwWake (h : Fin 1024) (rd : Fin 32) (rs1 : Fin 32) (imm : BitVec 12)
  /-- DW_KEYSW (R109): A hart executes DW.KEYSW, swapping sdwkey with rs1 as its mode permits. -/
  | dwKeysw (h : Fin 1024) (rd : Fin 32) (rs1 : Fin 32) (imm : BitVec 12)
  /-- SDWKEY_WRITE (R110): A CSR write of sdwkey changes key rights for every later access without a fence. -/
  | sdwkeyWrite (h : Fin 1024) (rd : Fin 32) (op : CsrOp) (src : CsrSrc)
  /-- REACH_CSR_WRITE (R104): A write to sdwrva, sdwrpa or sdwrattr is applied whole, or left unchanged if invalid, for every later access. -/
  | reachCsrWrite (h : Fin 1024) (k : Fin 3) (j : Fin 8) (rd : Fin 32) (op : CsrOp) (src : CsrSrc)
  /-- MDWHAR_WRITE (R88): A write to mdwhar sets a home-path AMO range, or leaves the CSR unchanged if LOG2SZ is out of range. -/
  | mdwharWrite (h : Fin 1024) (j : Fin 4) (rd : Fin 32) (op : CsrOp) (src : CsrSrc)
  /-- PMP_CSR_WRITE (R123): A write to pmpcfg, pmpaddr or mseccfg is applied with the implementation's WARL and lock rules. -/
  | pmpCsrWrite (h : Fin 1024) (c : BitVec 12) (rd : Fin 32) (op : CsrOp) (src : CsrSrc)
  /-- SFENCE_VMA (R116): A hart executes SFENCE.VMA and removes its own translation entries within the named scope. -/
  | sfenceVma (h : Fin 1024) (rs1 : Fin 32) (rs2 : Fin 32)
  /-- HFENCE_VVMA (R116): A hart executes HFENCE.VVMA and removes its entries of the current VMID within the named scope. -/
  | hfenceVvma (h : Fin 1024) (rs1 : Fin 32) (rs2 : Fin 32)
  /-- HFENCE_GVMA (R116): A hart executes HFENCE.GVMA and removes its V = 1 entries within the named scope. -/
  | hfenceGvma (h : Fin 1024) (rs1 : Fin 32) (rs2 : Fin 32)
  /-- SINVAL_VMA (R118): A hart executes SINVAL.VMA, removing the entries SFENCE.VMA would, ordered only against other Svinval instructions. -/
  | sinvalVma (h : Fin 1024) (rs1 : Fin 32) (rs2 : Fin 32)
  /-- HINVAL_VVMA (R118): A hart executes HINVAL.VVMA, removing the entries HFENCE.VVMA would. -/
  | hinvalVvma (h : Fin 1024) (rs1 : Fin 32) (rs2 : Fin 32)
  /-- HINVAL_GVMA (R118): A hart executes HINVAL.GVMA, removing the entries HFENCE.GVMA would. -/
  | hinvalGvma (h : Fin 1024) (rs1 : Fin 32) (rs2 : Fin 32)
  /-- SFENCE_W_INVAL (R118): A hart executes SFENCE.W.INVAL, which completes when its earlier stores are visible. -/
  | sfenceWInval (h : Fin 1024)
  /-- SFENCE_INVAL_IR (R118): A hart executes SFENCE.INVAL.IR, holding later walks and accesses until earlier invalidations complete. -/
  | sfenceInvalIr (h : Fin 1024)
  /-- CBO_CLEAN (R139): A hart executes CBO.CLEAN, sent to the home as CboC so that memory holds any dirty data. -/
  | cboClean (h : Fin 1024) (rs1 : Fin 32)
  /-- CBO_FLUSH (R139): A hart executes CBO.FLUSH, sent to the home as CboF so that memory holds the data and no cache holds the line. -/
  | cboFlush (h : Fin 1024) (rs1 : Fin 32)
  /-- CBO_INVAL (R142): A hart executes CBO.INVAL, sent to the home as CboI so that no cache holds the line and dirty data is discarded. -/
  | cboInval (h : Fin 1024) (rs1 : Fin 32)
  /-- CBO_ZERO (R139): A hart executes CBO.ZERO, gaining the line in M with zero bytes through Claim. -/
  | cboZero (h : Fin 1024) (rs1 : Fin 32)
  /-- PREFETCH_R (R133): A hart executes PREFETCH.R, a hint to fill L2 for reading if a miss register is free. -/
  | prefetchR (h : Fin 1024) (rs1 : Fin 32) (imm : BitVec 12)
  /-- PREFETCH_W (R133): A hart executes PREFETCH.W, a hint to fill L2 with ownership if a miss register is free. -/
  | prefetchW (h : Fin 1024) (rs1 : Fin 32) (imm : BitVec 12)
  /-- PREFETCH_I (R133): A hart executes PREFETCH.I, a hint to fill L2 and L1I if a miss register is free. -/
  | prefetchI (h : Fin 1024) (rs1 : Fin 32) (imm : BitVec 12)
  /-- DW_CMORNG (R143): A hart executes DW.CMORNG, applying clean, invalidate or flush to up to 64 lines of one page and returning the next address. -/
  | dwCmorng (h : Fin 1024) (rd : Fin 32) (rs1 : Fin 32) (rs2 : Fin 32) (f7 : BitVec 7)
  /-- DW_SWOP (R145): A hart executes DW.SWOP on one named set and way of L1, L2 or L3. -/
  | dwSwop (h : Fin 1024) (rd : Fin 32) (rs1 : Fin 32) (imm : BitVec 12)
  /-- MRET (R468): A hart executes MRET, which also clears EIP when EIPMODE = 3. -/
  | mret (h : Fin 1024)
  /-- SRET (R468): A hart executes SRET, which also clears EIP in HS- or S-mode when EIPMODE = 1. -/
  | sret (h : Fin 1024)
  /-- MNRET (R468): A hart executes MNRET, which also clears EIP when EIPMODE = 2. -/
  | mnret (h : Fin 1024)
  /-- IMSIC_CLAIM (R71): A claim through topei returns and clears the highest-priority pending enabled identity. -/
  | imsicClaim (h : Fin 1024) (file : Fin 3) (rd : Fin 32)
  /-- IMSIC_SET_PENDING (R70): A 32-bit write of identity i to a file page sets i pending in that IMSIC file. -/
  | imsicSetPending (q : Requester) (a : BitVec 40) (v : BitVec 32)
  /-- HART_RELEASE (R67): A write of RUN to CORECTL.HART.START releases a held hart at VEC in M-mode, waking its tile if gated. -/
  | hartRelease (q : Requester) (h : Fin 1024) (v : Word)
  /-- DW_GATEIN (R384): A hart executes DW.GATEIN, which after its checks saves the caller, switches the core if needed and enters the enclave thread. -/
  | dwGatein (h : Fin 1024) (rd : Fin 32) (rs1 : Fin 32) (rs2 : Fin 32) (f7 : BitVec 7)
  /-- CORE_SWITCH_DONE (R388): The core switch completes and the core's harts issue again. -/
  | coreSwitchDone (n : Fin 256)
  /-- DW_GATEOUT (R385): An enclave hart executes DW.GATEOUT, clearing its registers and returning to the caller with ST_OK. -/
  | dwGateout (h : Fin 1024) (rd : Fin 32) (rs1 : Fin 32) (imm : BitVec 12)
  /-- INTERRUPTED_DEPARTURE (R386): A trap at a non-zero enclave ID saves the thread state, suspends the thread and returns to the caller with ST_DEPARTED before taking the trap. -/
  | interruptedDeparture (h : Fin 1024) (t : TrapCause)
  /-- DEBUG_HALT_REQUEST (R390): A debug halt request takes effect, or is deferred to the next enclave exit without the secure right. -/
  | debugHaltRequest (h : Fin 1024)
  /-- TIMEBASE_TICK (R48): The IOD receives a REFCLK period, increments TBASE.COUNT and sends a tick on every tick stream. -/
  | timebaseTick (u : List UContrib)
  /-- TICK (R50): A compute die's timebase receiver receives a tick transition and advances the die's copy of time. -/
  | tick (d : Fin 16) (u : List UContrib)
  /-- SYNC_WORD (R50): An intact sync word completes at tick C + 72 and the receiver checks its copy against it. -/
  | syncWord (d : Fin 16) (c : Word)
  /-- TICK_STREAM_LOSS (R51): The receiver's delay-line timer expires without a tick, freezing time and setting LOST and TIME_INVALID. -/
  | tickStreamLoss (d : Fin 16)
  /-- TICK_LOSS_REPORT (R221): A die's tick-loss report reaches the IOD over the sideband, which repairs onto the spare pair or stops the stream. -/
  | tickLossReport (d : Fin 16)
  /-- TMON_WINDOW_END (R44): A 1,024-tick measurement window ends and LAPS, TOKENS and TJ take their new values. -/
  | tmonWindowEnd (n : Fin 256) (laps : BitVec 16) (tj : BitVec 16) (v : BitVec 10)
  /-- CLRMAX (R45): A write of 1 to TMON.TEMP.CLRMAX sets TJMAX to the present TJ. -/
  | clrmax (q : Requester) (n : Fin 256)
  /-- DROOP_CLR (R46): A write of 1 to TMON.DROOP.CLR sets VMIN to VNOW and DCOUNT to 0. -/
  | droopClr (q : Requester) (n : Fin 256)
  /-- DROOP_EXCURSION (R46): VCORE at a tile falls below THRESH and DCOUNT increments. -/
  | droopExcursion (n : Fin 256) (v : BitVec 10)
  /-- REFCLK_VALID (R406): REFCLK becomes present and in band, REFOK reads 1 and the waiting start proceeds. -/
  | refclkValid (env : StartEnv)
  /-- REFCLK_LOSS (R54): The IOD's detector window expires with REFCLK absent or out of band; the timebase holds, clocked interfaces stop and FATAL is raised. -/
  | refclkLoss
  /-- RDS (R170): A read-permission request is ordered at its home and served with snoops of the owner and data granted S or E. -/
  | rds (m : Msg)
  /-- RDX (R170): An ownership-with-data request is ordered at its home, which invalidates other copies and grants E or M. -/
  | rdx (m : Msg)
  /-- UPG (R176): An ownership request from an S or O holder is granted without data, or served as RdX if its copy was invalidated. -/
  | upg (m : Msg)
  /-- CLAIM (R170): An ownership-without-data request invalidates every holder and grants M. -/
  | claim (m : Msg)
  /-- RDONCE (R170): A read of the current value without caching snoops the owner with SnpCur and returns DatCur. -/
  | rdonce (m : Msg)
  /-- WRLINE (R170): A full-line write invalidates every holder and writes memory, or installs the line by stash. -/
  | wrline (m : Msg)
  /-- WRPART (R176): A masked write merges its bytes over the current line and writes the result or stashes it. -/
  | wrpart (m : Msg)
  /-- ATOMH (R182): An AMO on the home path recalls the line from every cache, performs the operation, writes memory and returns the old value. -/
  | atomh (m : Msg)
  /-- CBOC (R170): CBO.CLEAN at the home cleans the owner with SnpCln and writes any dirty data. -/
  | cboc (m : Msg)
  /-- CBOF (R170): CBO.FLUSH at the home recalls every copy and writes any dirty data. -/
  | cbof (m : Msg)
  /-- CBOI (R170): CBO.INVAL at the home invalidates every copy, discarding dirty data. -/
  | cboi (m : Msg)
  /-- EVC (R172): A clean eviction notice from an L2 clears the tile's core-valid bit. -/
  | evc (m : Msg)
  /-- EVM (R171): An eviction of a dirty M line is written if the sender still owns it, otherwise discarded, and acknowledged. -/
  | evm (m : Msg)
  /-- EVO (R171): An eviction of an O line is written if the sender still owns it, otherwise discarded, and acknowledged. -/
  | evo (m : Msg)
  /-- WBKEEP (R171): A writeback keeping a clean copy is written if the sender still owns the line and acknowledged. -/
  | wbkeep (m : Msg)
  /-- SNPS (R169): A holder answers a snoop to keep at most a read copy, returning dirty data. -/
  | snps (m : Msg)
  /-- SNPX (R169): A holder answers an invalidating snoop, returning dirty data. -/
  | snpx (m : Msg)
  /-- SNPINV (R169): A holder invalidates its copy without returning data. -/
  | snpinv (m : Msg)
  /-- SNPCLN (R169): A holder makes its copy clean, returning dirty data. -/
  | snpcln (m : Msg)
  /-- SNPCUR (R169): A holder returns dirty data and changes nothing. -/
  | snpcur (m : Msg)
  /-- STASHOFFER (R177): A target quadrant accepts or declines an offered written line. -/
  | stashoffer (m : Msg)
  /-- RSP (R170): A snoop answer without data reaches the snooper, which records the holder's new state. -/
  | rsp (m : Msg)
  /-- GNTE (R170): An ownership grant without data installs the requester's copy in E. -/
  | gnte (m : Msg)
  /-- GNTM (R170): An ownership grant without data installs the requester's copy in M. -/
  | gntm (m : Msg)
  /-- ACK (R161): The requester's acknowledgement of a grant completes the head of the line's queue at the home. -/
  | ack (m : Msg)
  /-- EVACK (R171): The home's acceptance or discard of an eviction frees the victim buffer entry. -/
  | evack (m : Msg)
  /-- DONE (R187): The home reports that an operation without a grant is globally visible. -/
  | done (m : Msg)
  /-- STASHACC (R177): An accepted stash offer makes the home write the filter entry and send DatStash. -/
  | stashacc (m : Msg)
  /-- STASHDEC (R177): A declined stash offer makes the home write the line to DRAM. -/
  | stashdec (m : Msg)
  /-- DATS (R170): Data granted in S fills the requester's caches and completes merged requests. -/
  | dats (m : Msg)
  /-- DATE (R170): Data granted in E fills the requester's caches. -/
  | date (m : Msg)
  /-- DATM (R170): Data granted in M fills the requester's caches. -/
  | datm (m : Msg)
  /-- DATSNP (R169): A snoop answer with dirty data reaches the snooper and supersedes memory data. -/
  | datsnp (m : Msg)
  /-- DATCUR (R170): Data for an RdOnce reaches the requester. -/
  | datcur (m : Msg)
  /-- DATATOM (R182): The old value of a home-path AMO reaches the requesting hart. -/
  | datatom (m : Msg)
  /-- DATSTASH (R177): Stash data is installed in M in the target L3 and L2, which then returns Ack. -/
  | datstash (m : Msg)
  /-- MRD (R240): A memory channel accepts a read of a line and its directory into a tracker. -/
  | mrd (m : Msg)
  /-- MWR (R240): A memory channel accepts a write of a line and its directory, encrypts and encodes it. -/
  | mwr (m : Msg)
  /-- MDAT (R170): DRAM data, directory and poison reach the home slice. -/
  | mdat (m : Msg)
  /-- MACK (R161): A channel's write acknowledgement reaches the home and may complete the line's queue head. -/
  | mack (m : Msg)
  /-- PARTWAYS_WRITE (R148): A write to L3.PARTWAYS is applied, or ignored under the freeze or way rule. -/
  | partwaysWrite (q : Requester) (d : Fin 16) (p : Fin 16) (half : Half) (v : Word)
  /-- WAYLOCK_WRITE (R149): A write to L3.WAYLOCK locks or unlocks ways, subject to the way and freeze rules. -/
  | waylockWrite (q : Requester) (d : Fin 16) (half : Half) (v : Word)
  /-- WAYOWNER_WRITE (R149): A write to L3.WAYOWNER changes way owners, subject to the way and freeze rules. -/
  | wayownerWrite (q : Requester) (d : Fin 16) (half : Half) (v : Word)
  /-- LOCK_SWEEP_DONE (R151): The lock sweep has visited every set and SWEEP clears. -/
  | lockSweepDone (d : Fin 16)
  /-- L2_DISABLE (R154): A write of DISABLE = 1 starts the clean sweep before the L2 is disabled. -/
  | l2Disable (q : Requester) (n : Fin 256)
  /-- L2_DISABLE_DONE (R155): The L2 disable sweep ends; CACHE_DISABLE_PENDING clears and DISABLED is set. -/
  | l2DisableDone (n : Fin 256)
  /-- L2_ENABLE (R154): A write of DISABLE = 0 to a disabled L2 enables it empty. -/
  | l2Enable (q : Requester) (n : Fin 256)
  /-- L3_QUADRANT_DISABLE (R154): A write of a QDISABLE bit starts the clean sweep before the quadrant is disabled. -/
  | l3QuadrantDisable (q : Requester) (d : Fin 16) (k : Fin 4)
  /-- L3_QUADRANT_DISABLE_DONE (R155): A quadrant's disable sweep ends and its DISABLED bit is set. -/
  | l3QuadrantDisableDone (d : Fin 16) (k : Fin 4)
  /-- L3_QUADRANT_ENABLE (R154): Clearing a QDISABLE bit of a disabled quadrant enables it empty. -/
  | l3QuadrantEnable (q : Requester) (d : Fin 16) (k : Fin 4)
  /-- RILL_FLIT (R197): A Rill receiver accepts a flit with right CRC and expected sequence number, or rejects it and asks for a retry. -/
  | rillFlit (d : Fin 16) (up : Bool) (payload : List (BitVec 64)) (header : BitVec 64) (crc : BitVec 64)
  /-- RILL_RETRY_REQUEST (R197): A sideband retry request makes the sender resend every flit from the rejected one. -/
  | rillRetryRequest (d : Fin 16) (up : Bool) (seq : BitVec 12)
  /-- RILL_LANE_STALL (R194): A lane's delay-line timer expires without a completed word and the lane declares a stall. -/
  | rillLaneStall (d : Fin 16) (up : Bool) (lanes : BitVec 18)
  /-- RILL_RETRAIN_DONE (R198): The retrain ends and traffic resumes from the first unacknowledged flit. -/
  | rillRetrainDone (d : Fin 16)
  /-- FAULTMAP_WRITE (R199): A write setting bits of RLINK.FAULTMAP marks units faulty, moving sidebands, tick pairs or starting a retrain. -/
  | faultmapWrite (q : Requester) (d : Fin 16) (half : Half) (v : Word)
  /-- CHK_DATA (R208): A write of CHK.DATA feeds eight bytes into the running CRC while TEST = 1. -/
  | chkData (q : Requester) (die : Fin 17) (stop : BitVec 8) (v : Word)
  /-- CHK_DATAN (R208): A write of CHK.DATAN feeds N bytes into the running CRC while TEST = 1. -/
  | chkDatan (q : Requester) (die : Fin 17) (stop : BitVec 8) (v : Word)
  /-- TILE_RESET (R215): An accepted RLINK.RESET request of KIND 1 stops the named tiles and returns them to reset values. -/
  | tileReset (q : Requester) (d : Fin 16) (tiles : BitVec 16)
  /-- TILE_RESET_DONE (R215): The quadrants finish the tile's transactions and poisoning, and the tile reset completes with ST_OK. -/
  | tileResetDone (d : Fin 16)
  /-- DIE_RESET (R216): A die reset, requested or caused by link loss or a die-scope error, asserts the reset wires and fences the die. -/
  | dieReset (d : Fin 16) (cause : DieCause)
  /-- DIE_RESET_SWEEP_DONE (R216): The fenced sweep ends, event 0x0B02 is logged, STATE becomes 0 and rejoin begins. -/
  | dieResetSweepDone (d : Fin 16)
  /-- DIE_SELF_TEST_DONE (R220): The link self-test of a joining die completes and the map exchange starts. -/
  | dieSelfTestDone (d : Fin 16) (map : Word)
  /-- LINK_TRAINING_DONE (R201): The two ends have agreed a lane map and trained at their widths. -/
  | linkTrainingDone (d : Fin 16) (map : Word)
  /-- JOIN_REQUEST (R220): A die's join request with its BASELINE_ID reaches the IOD, which resets sequence state, sends POLY and sets STATE 3. -/
  | joinRequest (d : Fin 16) (baseline : Word)
  /-- ADMIT (R220): A write of RLINK.CTL.ADMIT unfences the joining die, locks its RWL fields and sets STATE 4. -/
  | admitDie (q : Requester) (d : Fin 16)
  /-- REJOIN_STEP_TIMEOUT (R220): A rejoin step fails or passes its bound, the reset wires are asserted again and STATE becomes 7. -/
  | rejoinStepTimeout (d : Fin 16)
  /-- REJOIN_RETRY (R220): 10 s after a join failure the next rejoin attempt starts from step 1. -/
  | rejoinRetry (d : Fin 16)
  /-- CHANNEL_START (R227): A write of MC.CTL.RUN starts the channel's DDR-5 power-up, or is rejected if delays or mode register 0 are missing. -/
  | channelStart (q : Requester) (c : Fin 24) (half : Half) (v : Word)
  /-- CHANNEL_POWERUP_DONE (R227): The DDR-5 power-up ends and the channel reads sensors, issues MRSEQ writes and ZQ calibration. -/
  | channelPowerupDone (c : Fin 24) (ok : Bool) (t : List (Option Int))
  /-- CHANNEL_INIT_DONE (R227): The mode register phase ends, refresh starts and trackers accept MRQ with INIT = 3. -/
  | channelInitDone (c : Fin 24) (ok : Bool)
  /-- ILV_SET_ENABLE (R229): A write of ILV.SET.EN = 1 enables the set if the five conditions hold, else records the cause. -/
  | ilvSetEnable (q : Requester) (j : Fin 16)
  /-- ILV_SET_DISABLE (R229): A write of ILV.SET.EN = 0 disables the set at once. -/
  | ilvSetDisable (q : Requester) (j : Fin 16)
  /-- DIMM_THERMAL_POLL (R234): Every 1 ms the channel reads its DIMM thermal sensors and decides the temperature band. -/
  | dimmThermalPoll (c : Fin 24) (t : List (Option Int))
  /-- BAND_SWITCH_WINDOW (R235): The channel stops new commands, issues REFab to every rank and applies the new band's delay set. -/
  | bandSwitchWindow (c : Fin 24)
  /-- BAND_SWITCH_RESUME (R235): tRFC of the switch window ends and the channel resumes issuing commands. -/
  | bandSwitchResume (c : Fin 24)
  /-- REFRESH_INTERVAL_END (R238): A subchannel's refresh interval ends and a refresh is issued or postponed under OWED. -/
  | refreshIntervalEnd (c : Fin 24) (sub : Fin 2) (waits : Bool)
  /-- OWED_REFRESH_ISSUE (R238): With no request waiting, owed refreshes issue back to back until OWED = 0. -/
  | owedRefreshIssue (c : Fin 24) (sub : Fin 2)
  /-- MR4_POLL (R238): Every 100,000 ticks the channel polls mode register 4 and enters or leaves the doubled-refresh band. -/
  | mr4Poll (c : Fin 24) (doubled : Bool)
  /-- SELF_REFRESH_IDLE_TIMEOUT (R239): After IDLE ticks without work the channel issues owed refreshes and SRE, setting STATUS.SR. -/
  | selfRefreshIdleTimeout (c : Fin 24)
  /-- SELF_REFRESH_EXIT (R239): After SRMIN from SRE the channel issues self-refresh exit and serves waiting requests after tXS. -/
  | selfRefreshExit (c : Fin 24)
  /-- SCRUB_READ (R248): Patrol scrub reads the next line, decodes it and writes back a corrected line. -/
  | scrubRead (c : Fin 24)
  /-- DIMM_ALERT (R249): A DIMM asserts ALERT# and the channel replays recent writes and activates, failing after eight successive alerts. -/
  | dimmAlert (c : Fin 24) (dimm : Fin 2) (again : Bool)
  /-- DOORBELL (R256): A write of a queue's TAIL adds pending entries if it fits the ring, else sets DBERR. -/
  | doorbell (q : Requester) (f : Fin 256) (j : Fin 32) (half : Half) (v : Word)
  /-- QUEUE_ENABLE (R257): A write of CFG.EN = 1 to a bound slot resumes fetching from HEAD, or is rejected if unbound. -/
  | queueEnable (q : Requester) (f : Fin 256) (j : Fin 32) (v : Word)
  /-- QUEUE_DISABLE (R257): A write of CFG.EN = 0 stops fetching while admitted jobs run on. -/
  | queueDisable (q : Requester) (f : Fin 256) (j : Fin 32) (v : Word)
  /-- DESCRIPTOR_FETCH (R258): An engine reads the next 128-byte descriptor of an enabled queue with pending entries and advances HEAD. -/
  | descriptorFetch (qi : Fin 1024)
  /-- JOB_ADMISSION (R261): An engine admits a job into a free context under ring order, ORDER, shares and staging-buffer limits. -/
  | jobAdmission (qi : Fin 1024)
  /-- NOP (R254): A NOP job writes only its completion record. -/
  | nop (e : Fin 8) (x : Fin 256)
  /-- COPY (R268): A COPY job copies SRC_LEN bytes to DST with optional CRC compute, append or compare. -/
  | copy (e : Fin 8) (x : Fin 256)
  /-- FILL (R269): A FILL job writes DST_LEN bytes of the repeating 8-byte pattern. -/
  | fill (e : Fin 8) (x : Fin 256)
  /-- CRC (R270): A CRC job computes a CRC over the source and reports, appends or compares it. -/
  | crc (e : Fin 8) (x : Fin 256)
  /-- COMPRESS (R275): A COMPRESS job compresses its input into a stream segment, saving stream state when EOS = 0. -/
  | compress (e : Fin 8) (x : Fin 256)
  /-- DECOMPRESS (R277): A DECOMPRESS job decompresses and verifies its input, saving stream state when EOS = 0. -/
  | decompress (e : Fin 8) (x : Fin 256)
  /-- GCM_ENC (R285): A GCM_ENC job encrypts in a staging buffer under an IV from the slot's invocation counter and reports the tag. -/
  | gcmEnc (e : Fin 8) (x : Fin 256)
  /-- GCM_DEC (R286): A GCM_DEC job checks the tag and decrypts only on a match. -/
  | gcmDec (e : Fin 8) (x : Fin 256)
  /-- XTS_ENC (R284): An XTS_ENC job encrypts its data units with successive tweaks. -/
  | xtsEnc (e : Fin 8) (x : Fin 256)
  /-- XTS_DEC (R284): An XTS_DEC job decrypts its data units with successive tweaks. -/
  | xtsDec (e : Fin 8) (x : Fin 256)
  /-- CIPHER_RELEASE_START (R287): A cipher job's staged output starts release, ordered at the key-slot admission point against erases. -/
  | cipherReleaseStart (e : Fin 8) (x : Fin 256)
  /-- JOB_COMPLETION (R264): After every output write is visible the engine writes the 64-byte completion record. -/
  | jobCompletion (e : Fin 8) (x : Fin 256)
  /-- PHLOX_CAP_WINDOW_END (R299): A 1,024-tick window ends and each function's bytes-moved count on each engine restarts. -/
  | phloxCapWindowEnd
  /-- QUEUE_BIND (R294): A QBIND write setting VALID binds a queue to a function slot and engine, or is rejected with a cause. -/
  | queueBind (q : Requester) (qi : Fin 1024) (half : Half) (v : Word)
  /-- QUEUE_UNBIND (R295): A QBIND write clearing VALID or changing FN or SLOT unbinds an idle queue. -/
  | queueUnbind (q : Requester) (qi : Fin 1024) (half : Half) (v : Word)
  /-- QUEUE_MOVE (R296): A QBIND write changing only ENG sets MOVING and stops fetching on the old engine. -/
  | queueMove (q : Requester) (qi : Fin 1024) (half : Half) (v : Word)
  /-- QUEUE_MOVE_DONE (R296): INFLIGHT reaches 0, the new engine fetches from HEAD and MOVING clears. -/
  | queueMoveDone (qi : Fin 1024)
  /-- SHARE_WRITE (R297): A write of FN.SHARE sets context, buffer and bandwidth shares, or is rejected with a cause. -/
  | shareWrite (q : Requester) (f : Fin 256) (half : Half) (v : Word)
  /-- FUNCTION_RESET (R303): FN.RESET.GO or a Function Level Reset squashes unstarted jobs and stops started ones of the function. -/
  | functionReset (q : Requester) (f : Fin 256) (flr : Bool)
  /-- FUNCTION_RESET_DONE (R303): Drained jobs write ST_ABORTED records, the function's registers reset and BUSY clears. -/
  | functionResetDone (f : Fin 256)
  /-- G_CFG_WRITE (R308): A write of G.CFG sets a group's personality and ports, or is ignored if a condition fails, and EN starts training. -/
  | gCfgWrite (q : Requester) (g : Fin 32) (half : Half) (v : Word)
  /-- PORT_TRAINED (R310): A port or socket link finishes training and reports up. -/
  | portTrained (g : Fin 32) (port : Fin 8) (rate : Fin 7) (width : Fin 17)
  /-- PERST_DEASSERT (R518): 100 ms after EN is written, the group's PERST# is deasserted. -/
  | perstDeassert (g : Fin 32)
  /-- GROUP_WAKE (R518): A device asserts WAKE# and the group wakes its ports as the standard defines. -/
  | groupWake (g : Fin 32) (port : Fin 8)
  /-- PCIE_COMPLETION (R314): A completion for an outbound non-posted request returns data or ends the access in error. -/
  | pcieCompletion (g : Fin 32) (tag : Nat) (ok : Bool) (ep : Bool) (data : Nat)
  /-- COMPLETION_TIMEOUT (R321): An outbound request's 2^CTO-tick completion timeout expires and the access ends under R314. -/
  | completionTimeout (g : Fin 32) (tag : Nat)
  /-- INBOUND_MEMORY_READ (R315): An inbound memory read is translated and becomes RdOnce per line, its completion ordered after earlier posted writes. -/
  | inboundMemoryRead (x : IoReq) (len : BitVec 13) (tag : BitVec 14)
  /-- INBOUND_MEMORY_WRITE (R315): An inbound memory write is translated and becomes WrLine or WrPart per line, with any stash hint. -/
  | inboundMemoryWrite (x : IoReq) (len : BitVec 13) (en : Nat) (data : Nat) (ep : Bool) (hint : Option (BitVec 16 × BitVec 2))
  /-- INBOUND_ATOMICOP (R315): An inbound FetchAdd, Swap or CAS becomes AtomH, or receives UR. -/
  | inboundAtomicop (x : IoReq) (op : AmoOp) (lg : Fin 5) (a : BitVec 128) (b : BitVec 128) (tag : BitVec 14)
  /-- INBOUND_MSI (R339): A device MSI is translated and sets its identity pending after the device's earlier posted writes. -/
  | inboundMsi (x : IoReq) (data : BitVec 32)
  /-- ASSERT_INTX (R318): An Assert_INTx message is passed to its APLIC source after earlier posted writes. -/
  | assertIntx (g : Fin 32) (port : Fin 8) (rid : BitVec 16) (n : Fin 4)
  /-- PTM_REQUEST (R320): A PTM request is answered with TBASE.COUNT × 10 ns, or not at all while REFOK = 0. -/
  | ptmRequest (g : Fin 32) (port : Fin 8)
  /-- RDSHARED (R326): A CXL.cache RdShared from a coherent device becomes RdS at the home. -/
  | rdshared (g : Fin 32) (rid : BitVec 16) (l : LineAddr)
  /-- RDOWN (R326): A CXL.cache RdOwn becomes RdX at the home. -/
  | rdown (g : Fin 32) (rid : BitVec 16) (l : LineAddr)
  /-- RDOWNNODATA (R326): A CXL.cache RdOwnNoData becomes Claim at the home. -/
  | rdownnodata (g : Fin 32) (rid : BitVec 16) (l : LineAddr)
  /-- RDCURR (R326): A CXL.cache RdCurr becomes RdOnce at the home. -/
  | rdcurr (g : Fin 32) (rid : BitVec 16) (l : LineAddr)
  /-- ITOMWR (R326): A CXL.cache ItoMWr becomes WrLine at the home. -/
  | itomwr (g : Fin 32) (rid : BitVec 16) (l : LineAddr) (data : LineData) (poison : Bool)
  /-- WRCUR (R326): A CXL.cache WrCur becomes WrLine at the home. -/
  | wrcur (g : Fin 32) (rid : BitVec 16) (l : LineAddr) (data : LineData) (poison : Bool)
  /-- CLEANEVICT (R326): A CXL.cache CleanEvict becomes EvC at the home. -/
  | cleanevict (g : Fin 32) (rid : BitVec 16) (l : LineAddr)
  /-- DIRTYEVICT (R326): A CXL.cache DirtyEvict becomes EvM at the home. -/
  | dirtyevict (g : Fin 32) (rid : BitVec 16) (l : LineAddr) (data : LineData) (poison : Bool)
  /-- CXL_MEM_RESPONSE (R327): An S2M response returns CXL memory data, or a non-existent-memory response. -/
  | cxlMemResponse (g : Fin 32) (l : LineAddr) (write : Bool) (exist : Bool) (data : LineData) (poison : Bool) (dir : Fin 4)
  /-- SOCKET_LINK_JOIN (R332): The two ends of a socket link exchange IDs, PEER and BASELINE_ID, and agree keys if ENC, or refuse the join. -/
  | socketLinkJoin (g : Fin 32) (id : Fin 4) (peer : Fin 4) (baseline : Word) (enc : Bool) (diren : Bool) (keyOk : Bool)
  /-- SOCKET_JOIN_RETRY (R332): 1 s after a refused join the socket link tries to join again. -/
  | socketJoinRetry (g : Fin 32)
  /-- SOCKET_LINK_FLIT (R333): A socket link flit is received, retried on error or authentication failure, and its lane failures trigger a retrain. -/
  | socketLinkFlit (g : Fin 32) (ok : Bool) (auth : Bool) (lanes : Fin 17)
  /-- SOCKET_LINK_RETRAIN_TIMEOUT (R333): A socket link that cannot retrain within 100 ms, or is below ×4, fails with FATAL. -/
  | socketLinkRetrainTimeout (g : Fin 32)
  /-- PEER_FATAL_NOTICE (R472): A FATAL notice from a peer socket raises FATAL with event 0x0706. -/
  | peerFatalNotice (p : Fin 4)
  /-- QUERY (R354): Foxglove reports a key slot in the response and changes nothing. -/
  | query (w : Fin 3)
  /-- KEY_LOAD (R354): Foxglove loads a key from the key buffer into the slot, setting COUNTER and HARD for GCM. -/
  | keyLoad (w : Fin 3)
  /-- KEY_GEN (R354): Foxglove fills the slot from the DRBG, optionally exporting or sealing the key. -/
  | keyGen (w : Fin 3)
  /-- KEY_ERASE (R354): Foxglove makes the slot EMPTY at every admission point that holds it. -/
  | keyErase (w : Fin 3)
  /-- UNSEAL_LOAD (R359): Foxglove checks a sealed blob's epoch, world and tag and loads its key into the slot. -/
  | unsealLoad (w : Fin 3)
  /-- ASSIGN (R354): Foxglove sets the OWNER of a Phlox key slot. -/
  | assign (w : Fin 3)
  /-- MEAS_EXTEND (R415): Foxglove extends a permitted measurement register with a 64-byte digest. -/
  | measExtend (w : Fin 3)
  /-- ERT_WRITE (R380): The secure monitor's command rewrites an enclave range table entry, invalidating translations and sweeping caches. -/
  | ertWrite (w : Fin 3)
  /-- ERT_SWEEP_DONE (R380): The home slices finish the range sweep and ERT_WRITE ends with ST_OK. -/
  | ertSweepDone
  /-- ENC_SET (R381): The secure monitor's command moves an enclave between FREE, BUILD and READY or clears TLOST bits. -/
  | encSet (w : Fin 3)
  /-- ENCLAVE_FREE_SWEEP_DONE (R381): The sweep that discards a freed enclave's lines completes and ENC_SET ends. -/
  | enclaveFreeSweepDone
  /-- REKEYQ_READ (R361): An 8-byte read of FOX.REKEYQ returns and removes the oldest slot that crossed its threshold. -/
  | rekeyqRead (q : Requester)
  /-- ENTROPY_HEALTH_FAILURE (R343): A noise source fails a health test, is taken out of use and raises a class B or A alarm. -/
  | entropyHealthFailure (src : Fin 2)
  /-- ENTROPY_SOURCE_RETURN (R343): A failed source passes 1,024 consecutive samples and returns to use. -/
  | entropySourceReturn (src : Fin 2)
  /-- DRBG_RESEED (R345): Every 1 ms the DRBG reseeds from 384 pool bits. -/
  | drbgReseed
  /-- MASK_RESEED (R362): At least once per 1,024 ticks each mask generator reseeds and slot shares are re-randomised. -/
  | maskReseed
  /-- MESH_PATTERN_RENEW (R367): Every 1,024 ticks the DRBG sets a new pattern on the active mesh. -/
  | meshPatternRenew
  /-- ALARM (R367): An alarm source's condition is detected and handled as class A or B. -/
  | alarm (src : Fin 8) (detail : BitVec 32)
  /-- CLASS_B_REPEAT (R368): A persisting class B condition writes a further entry every 1 s. -/
  | classBRepeat (src : Fin 8) (detail : BitVec 32)
  /-- WDOG_KICK (R395): A write of SEC.WDOG.KICK by the monitor restarts the watchdog count, or is refused from others. -/
  | wdogKick (q : Requester)
  /-- WATCHDOG_EXPIRY (R395): The watchdog count reaches 0, sets FIRED and starts a warm reset. -/
  | watchdogExpiry (env : StartEnv)
  /-- PORST_ASSERT (R514): PORST# asserted for 1 µs or more cold-resets the package. -/
  | porstAssert
  /-- PORST_DEASSERT (R513): PORST# is deasserted, the straps are sampled and cold start step 1 begins. -/
  | porstDeassert (sel : Bool) (addr : Fin 4)
  /-- FOXGLOVE_READY (R406): Foxglove firmware reports ready after applying FABRIC and POWER, and Foxglove releases the Larkspur cores. -/
  | foxgloveReady
  /-- FOXFW_READY_TIMEOUT (R410): Foxglove firmware is not ready within 100 ms and the attempt fails with cause 0xA. -/
  | foxfwReadyTimeout
  /-- DRAMRDY (R412): Management firmware writes DRAMRDY and Foxglove begins creating the secure monitor. -/
  | dramrdy (q : Requester)
  /-- MONITOR_READY (R406): Foxglove finishes loading MONFW, makes the monitor READY and any deferred boot-hart RUN takes effect. -/
  | monitorReady
  /-- MFAIL (R412): Management firmware writes MFAIL and the start attempt fails with cause 0xB. -/
  | mfail (q : Requester) (code : BitVec 8)
  /-- FAILURE_FRAME_END (R411): The four-nibble failure frame ends and the next attempt begins or the round wait starts. -/
  | failureFrameEnd (env : StartEnv)
  /-- START_ROUND_WAIT_END (R410): The 1 s wait between rounds ends and a new round of attempts begins. -/
  | startRoundWaitEnd (env : StartEnv)
  /-- START_STEP10_TIMEOUT (R410): Step 10 is not reached within 60 s of step 8 and the attempt fails with cause 0xC. -/
  | startStep10Timeout
  /-- WARM_RESET (R407): A write of FOX.START.WARM starts a warm reset and warm start, unless ERR.FATAL.COLD = 1. -/
  | warmReset (q : Requester) (env : StartEnv)
  /-- CONFIGURATION_LOCK (R413): A write of FOX.CFGLOCK.LOCK sets the lock, clears the image store and programs SVN fuses if ADVANCE. -/
  | configurationLock (q : Requester)
  /-- GET_VERSION (R418): The SPDM responder answers GET_VERSION with version 1.2. -/
  | getVersion
  /-- GET_CAPABILITIES (R418): The SPDM responder reports its capabilities. -/
  | getCapabilities
  /-- NEGOTIATE_ALGORITHMS (R418): The SPDM responder negotiates RSASSA-PSS 4096 and SHA-512. -/
  | negotiateAlgorithms
  /-- GET_DIGESTS (R418): The SPDM responder returns the digest of certificate slot 0. -/
  | getDigests
  /-- GET_CERTIFICATE (R418): The SPDM responder returns the slot 0 certificate chain in chunks. -/
  | getCertificate (slot : Fin 8) (off : BitVec 16) (len : BitVec 16)
  /-- CHALLENGE (R418): The SPDM responder signs a challenge with the identity key, or reports not ready. -/
  | challenge (slot : Fin 8) (nonce : BitVec 256)
  /-- GET_MEASUREMENTS (R418): The SPDM responder returns signed measurements, BASELINE_ID or FOX.START. -/
  | getMeasurements (op : BitVec 8) (sign : Bool) (nonce : BitVec 256)
  /-- SPDM_UNSUPPORTED_REQUEST (R418): Any other SPDM request receives ERROR UnsupportedRequest. -/
  | spdmUnsupportedRequest (code : BitVec 8)
  /-- TAP_UPDATE_IR (R423): A TAP instruction is selected, acting as BYPASS and raising alarm source 4 if its right is not granted. -/
  | tapUpdateIr (ir : BitVec 8)
  /-- FOXTOKEN (R421): An Update-DR of FOXTOKEN appends one byte of an unlock token. -/
  | foxtoken (b : Byte)
  /-- DMI_ACCESS (R420): A DMI access through the TAP reaches the debug module of the harts or Larkspur cores if granted. -/
  | dmiAccess (write : Bool) (a : BitVec 32) (data : BitVec 32)
  /-- WEIR_WINDOW_END (R427): At each window end Weir takes its measurements and applies thermal, power and floor decisions. -/
  | weirWindowEnd (m : WeirMeas)
  /-- WRITE_VOLTAGE (R435): Weir sends an AVSBus Write Voltage moving the set-point by at most 5 mV. -/
  | writeVoltage (ok : Bool)
  /-- AVS_WRITE_TIMEOUT (R435): 50 µs after a Write Voltage without a done status Weir treats the write as complete. -/
  | avsWriteTimeout
  /-- READ_VOLTAGE (R435): Weir reads VCORE over AVSBus, retrying on CRC error or no response. -/
  | readVoltage (v : Option (BitVec 10))
  /-- READ_CURRENT (R435): Weir reads VCORE current over AVSBus. -/
  | readCurrent (j : Option (BitVec 9))
  /-- READ_STATUS (R435): Weir reads the regulator status over AVSBus. -/
  | readStatus (st : Option Bool)
  /-- METERED_STEP_FORM (R437): 100 ns after its first request a metered step forms with its dI and, if large, announces SPATE. -/
  | meteredStepForm (recent : Nat)
  /-- METERED_STEP_RAMP_START (R438): The lead ends and the step's domains start their 250 ns ramps in ascending order. -/
  | meteredStepRampStart
  /-- METERED_STEP_RAMP_END (R437): The step's last ramp ends, SPATE returns to 00 and the next step may form. -/
  | meteredStepRampEnd
  /-- PARK_HINT_TIMEOUT (R443): Every eligible hart of a HINT 0 tile stays parked for 50 µs and the tile may be gated. -/
  | parkHintTimeout (n : Fin 256)
  /-- DOMAIN_GATE (R426): Weir starts gating an eligible domain by cleaning it (STATE 2). -/
  | domainGate (dom : Fin 404)
  /-- DOMAIN_SWITCH_OPEN (R426): Cleaning ends, the power switch opens and the domain is gated with zero admission. -/
  | domainSwitchOpen (dom : Fin 404)
  /-- GATEHOLD (R444): A DOMCMD GATEHOLD holds an idle domain gated, or is refused. -/
  | gatehold (q : Requester) (dom : BitVec 9)
  /-- RELEASE (R444): A DOMCMD RELEASE removes a hold so the domain follows R425. -/
  | release (q : Requester) (dom : BitVec 9)
  /-- CLKSTOP (R444): A DOMCMD CLKSTOP stops the clocks of an idle channel or group with power kept. -/
  | clkstop (q : Requester) (dom : BitVec 9)
  /-- BOUND_WRITE (R442): A write of WEIR.BOUND sets PCEIL, TJLIM and POLICY from the next window, or is ignored if out of range. -/
  | boundWrite (q : Requester) (half : Half) (v : Word)
  /-- TILE_BROWNOUT_HALT (R450): A tile reading VCORE below 0.48 V stops issuing and logs a CE. -/
  | tileBrownoutHalt (n : Fin 256) (v : BitVec 10)
  /-- TILE_BROWNOUT_RESUME (R450): After VCORE stays at or above 0.50 V for 1 µs the halted tile resumes. -/
  | tileBrownoutResume (n : Fin 256) (v : BitVec 10)
  /-- ALL_TILES_HALTED_100MS (R450): Every online tile has stayed halted for 100 ms and a UCR record is logged. -/
  | allTilesHalted100ms
  /-- VCORE_COLLAPSE (R451): VCORE below 0.40 V at a die loses its always-on state and resets the die with cause LINK. -/
  | vcoreCollapse (d : Fin 16)
  /-- RAIL_OUT_OF_RANGE (R452): VIOD or a SerDes rail out of range for over 1 µs asserts FATAL# and holds the IOD blocks in reset. -/
  | railOutOfRange
  /-- THERMTRIP (R432): A sensor at 110 °C asserts THERMTRIP#, stops every tile and raises FATAL. -/
  | thermtrip
  /-- VRHOT_ASSERT (R433): VRHOT# is asserted and Weir cuts admissions to 75 % by caps within 20 µs. -/
  | vrhotAssert
  /-- VRHOT_DEASSERT (R433): VRHOT# is deasserted and Weir lifts the ceiling as metered increases. -/
  | vrhotDeassert
  /-- RING_POP (R457): A write of ERR.RINGPOP.POP removes the oldest ring entry. -/
  | ringPop (q : Requester) (die : Fin 17)
  /-- SNOOP_RESPONSE_TIMEOUT (R469): A home slice waits 10 ms for a die's snoop answer and resets the die as a die-scope error. -/
  | snoopResponseTimeout (d : Fin 16) (l : LineAddr)
  /-- FATALWARM_EXPIRY (R473): FATALWARM's delay after FATAL expires and a warm reset starts unless COLD = 1. -/
  | fatalwarmExpiry (env : StartEnv)
  /-- CSR_WRITE (R121): A hart writes a CSR such as satp, hgatp, mdwctl, sdwprio, sdwkeycfg, menvcfg, mhpmevent, mcountinhibit or mdwerr, with that CSR's own write rules. -/
  | csrWrite (h : Fin 1024) (c : BitVec 12) (rd : Fin 32) (op : CsrOp) (src : CsrSrc)
  /-- PORT_LINK_DOWN (R341): A PCIe or CXL root port leaves L0 by surprise down or hot-plug removal, clears its PORTUP bit and raises its group's APLIC source. -/
  | portLinkDown (g : Fin 32) (port : Fin 8)
  /-- DEASSERT_INTX (R341): A Deassert_INTx message from a device lowers its level-sensitive APLIC source. -/
  | deassertIntx (g : Fin 32) (port : Fin 8) (n : Fin 4)
  /-- ATS_TRANSLATION_REQUEST (R336): A device's ATS translation request is translated by the IOMMU and answered with a translation completion. -/
  | atsTranslationRequest (x : IoReq) (noWrite : Bool)
  /-- PAGE_REQUEST (R336): A device's PRI page request message is received and queued by the IOMMU. -/
  | pageRequest (x : IoReq) (rd : Bool) (wr : Bool) (last : Bool) (prgi : BitVec 9)
  /-- IOD_DOMAIN_WAKE_DONE (R440): The 2 µs wake ramp of a gated IOD domain ends, and the requests waiting for it are served. -/
  | iodDomainWakeDone (dom : Fin 404)
  /-- ALWAYS_ON_RAIL_UP (R513): VAON enters its range at power-up, and within 100 µs the alarm unit and THERMTRIP# comparators become active with the fuse-selected classes. -/
  | alwaysOnRailUp
  /-- VPLL_OUT_OF_RANGE (R512): VPLL leaves its operating range, and the derived clocks are judged lost as for REFCLK loss. -/
  | vpllOutOfRange
  /-- DIMM_ALERT_END (R249): A DIMM's ALERT# ends, and the channel replays the writes and activates of the 128 commands before the alert. -/
  | dimmAlertEnd (c : Fin 24) (dimm : Fin 2)
deriving DecidableEq, Repr

end Sys2Proof
end

