-- ==== Sys2Proof/Decode.lean ====
section
/-! DEFINITION. Commands that a word of bits spells: none. The rows of spec/opcode_table.json give no bits. -/
namespace Sys2Proof

/-- The command that a word spells by the table's bits: the table gives no row any bits, so no word spells one. -/
def decodeTableWord (_nbits _w : Nat) : Option Instr := none

end Sys2Proof
end

