-- ==== Sys2Proof/Config.lean ====
section
/-! DEFINITION. What an implementation fixes and the values that the manual leaves open: constants with no body, so
that no proof can see what they are. -/
namespace Sys2Proof.Config

/-- Raw fuse bits by the window offset of the register that shows them. -/
opaque fuseBits : Nat → BitVec 64

/-- The fuse value of the register at a window offset. ID.STEPPING.STEP counts from 0x01 upward (R502). -/
def fuse (off : Nat) : BitVec 64 :=
  if off = 0x1000000008 ∧ fuseBits off &&& 0xFF = 0 then 1 else fuseBits off

/-- A value that the manual leaves open, one for each count of the machine's own counter (State.free). -/
opaque freeValue : Nat → BitVec 512

/-- The process code of a tile as shipped, before it is brought into 19 to 48 (R38). -/
opaque processCode : Nat → Nat

/-- The SEED fuse (R346). -/
opaque seed : BitVec 256

/-- RSAKEYHASH[k] (R396). -/
opaque rsaKeyHash : Nat → BitVec 512

/-- MLKEYHASH[k] (R396). -/
opaque mlKeyHash : Nat → BitVec 512

/-- KEYREVOKE (R396). -/
opaque keyRevoke : BitVec 4

/-- MLDSA_REQ (R396). -/
opaque mldsaReq : Bool

/-- IDHINT (R396). -/
opaque idHint : BitVec 48

/-- DBGKEYHASH (R396). -/
opaque dbgKeyHash : BitVec 512

/-- DBGMLHASH (R396). -/
opaque dbgMlHash : BitVec 512

/-- DBGDISABLE (R396). -/
opaque dbgDisable : Bool

/-- The bytes of CERTSTORE (R396, R417). -/
opaque certByte : Nat → BitVec 8

/-- The 64-byte digest of Foxglove's ROM (R414). -/
opaque romDigest : BitVec 512

/-- Verification of ML-DSA-87 (FIPS 204) with an empty context: public key, signature, message (R400). -/
opaque mldsaVerify : List (BitVec 8) → List (BitVec 8) → List (BitVec 8) → Bool

end Sys2Proof.Config
end

