-- ==== Sys2Proof/Machine/Crypto.lean ====
section
/-! DEFINITION. The algorithms that the spec names: AES-256 with GCM and XTS (R284 to R286, R358), SHA-512 and HMAC-SHA-512 with the
counter mode of SP 800-108 (R347), CRCs (R270), Adler-32. Bytes are lists, the first byte first. -/
namespace Sys2Proof.Machine

/-- A number as n bytes, the least significant first. -/
def bytesLE (n v : Nat) : List Byte := (List.range n).map fun i => BitVec.ofNat 8 (v / 256 ^ i)

/-- A number as n bytes, the most significant first. -/
def bytesBE (n v : Nat) : List Byte := (bytesLE n v).reverse

/-- Bytes as a number, the first byte least significant. -/
def natLE (bs : List Byte) : Nat := bs.foldr (fun b a => b.toNat + 256 * a) 0

/-- Bytes as a number, the first byte most significant. -/
def natBE (bs : List Byte) : Nat := bs.foldl (fun a b => 256 * a + b.toNat) 0

/-- XOR of two byte lists, as long as the shorter. -/
def xorBytes (a b : List Byte) : List Byte := (a.zip b).map fun p => p.1 ^^^ p.2

/-! ### AES-256 (FIPS 197) -/

/-- Multiplication by x in GF(2^8). -/
def xtime (b : Byte) : Byte := (b <<< 1) ^^^ (if b.getLsbD 7 then 0x1B else 0)

/-- Multiplication in GF(2^8). -/
def aesMul (a b : Byte) : Byte :=
  ((List.range 8).foldl (fun (p : Byte × Byte) i => (if b.getLsbD i then p.1 ^^^ p.2 else p.1, xtime p.2)) (0, a)).1

/-- The inverse in GF(2^8): a^254. -/
def aesInv (a : Byte) : Byte :=
  ((List.range 7).foldl (fun (p : Byte × Byte) _ => let q := aesMul p.2 p.2; (aesMul p.1 q, q)) (1, a)).1

/-- The S-box. -/
def sbox (a : Byte) : Byte :=
  let b := aesInv a
  b ^^^ b.rotateLeft 1 ^^^ b.rotateLeft 2 ^^^ b.rotateLeft 3 ^^^ b.rotateLeft 4 ^^^ 0x63

/-- The inverse S-box. -/
def sboxInv (a : Byte) : Byte := aesInv (a.rotateLeft 1 ^^^ a.rotateLeft 3 ^^^ a.rotateLeft 6 ^^^ 0x05)

/-- Fifteen round keys of 16 bytes, from 32 bytes of key: word i from words i - 1 and i - 8, newest last. -/
def aesExpand : Nat → List (List Byte) → List (List Byte)
  | 0, ws => ws
  | n + 1, ws =>
    let i := ws.length
    let prev := ws.getD (i - 1) []
    let t := if i % 8 = 0 then
        let s := ((prev.drop 1) ++ prev.take 1).map sbox
        xorBytes s [(List.range (i / 8 - 1)).foldl (fun b _ => xtime b) 1, 0, 0, 0]
      else if i % 8 = 4 then prev.map sbox else prev
    aesExpand n (ws ++ [xorBytes (ws.getD (i - 8) []) t])

/-- The round keys of a key. -/
def aesKeys (key : List Byte) : List (List Byte) :=
  let ws := aesExpand 52 ((List.range 8).map fun i => (key.drop (4 * i)).take 4)
  (List.range 15).map fun k => ((ws.drop (4 * k)).take 4).flatten

/-- MixColumns, or its inverse, by the first row of its matrix. -/
def mixColumns (row : List Byte) (s : List Byte) : List Byte :=
  (List.range 16).map fun i =>
    (List.range 4).foldl (fun a k => a ^^^ aesMul (row.getD ((k + 4 - i % 4) % 4) 0) (s.getD (i / 4 * 4 + k) 0)) 0

/-- ShiftRows, by 4 for encryption and 12 for its inverse. -/
def shiftRows (k : Nat) (s : List Byte) : List Byte := (List.range 16).map fun i => s.getD ((i + k * (i % 4)) % 16) 0

/-- Encrypt a block of 16 bytes. -/
def aesEnc (key block : List Byte) : List Byte :=
  let ks := aesKeys key
  let s := (List.range 13).foldl (fun s i => xorBytes (mixColumns [2, 3, 1, 1] (shiftRows 4 (s.map sbox))) (ks.getD (i + 1) []))
    (xorBytes block (ks.getD 0 []))
  xorBytes (shiftRows 4 (s.map sbox)) (ks.getD 14 [])

/-- Decrypt a block of 16 bytes. -/
def aesDec (key block : List Byte) : List Byte :=
  let ks := aesKeys key
  let s := (List.range 13).foldl (fun s i => mixColumns [14, 11, 13, 9] (xorBytes ((shiftRows 12 s).map sboxInv) (ks.getD (13 - i) [])))
    (xorBytes block (ks.getD 14 []))
  xorBytes ((shiftRows 12 s).map sboxInv) (ks.getD 0 [])

/-- Pieces of 16 bytes, the last perhaps shorter. -/
def blocks16 (bs : List Byte) : List (List Byte) := (List.range ((bs.length + 15) / 16)).map fun i => (bs.drop (16 * i)).take 16

/-! ### GCM (SP 800-38D) and XTS (IEEE 1619) -/

/-- The product in GF(2^128) as GCM numbers its bits. -/
def gcmMul (x y : Nat) : Nat :=
  ((List.range 128).foldl (fun (p : Nat × Nat) i =>
    (if natBit x (127 - i) then p.1 ^^^ p.2 else p.1, if p.2 % 2 = 1 then (p.2 / 2) ^^^ (0xE1 * 2 ^ 120) else p.2 / 2)) (0, y)).1

/-- GHASH over padded pieces. -/
def ghash (h : Nat) (bs : List (List Byte)) : Nat :=
  bs.foldl (fun a b => gcmMul (a ^^^ natBE ((b ++ List.replicate 16 0).take 16)) h) 0

/-- Counter-mode encryption from counter block number `n` of a 12-byte IV. -/
def gcmCtr (key iv : List Byte) (n : Nat) (bs : List Byte) : List Byte :=
  ((blocks16 bs).zipIdx.map fun p => xorBytes p.1 (aesEnc key (iv ++ bytesBE 4 (n + p.2)))).flatten

/-- The tag of AAD and ciphertext. -/
def gcmTag (key iv aad ct : List Byte) : List Byte :=
  let h := natBE (aesEnc key (List.replicate 16 0))
  let s := ghash h (blocks16 aad ++ blocks16 ct ++ [bytesBE 8 (aad.length * 8) ++ bytesBE 8 (ct.length * 8)])
  xorBytes (bytesBE 16 s) (aesEnc key (iv ++ bytesBE 4 1))

/-- Multiplication of an XTS tweak by x. -/
def xtsNext (t : List Byte) : List Byte :=
  let v := natLE t * 2
  bytesLE 16 (if 2 ^ 128 ≤ v then (v - 2 ^ 128) ^^^ 0x87 else v)

/-- The blocks of one data unit under the XTS cipher `f`, from a tweak. -/
def xtsBlocks (f : List Byte → List Byte) : List Byte → List (List Byte) → List (List Byte)
  | _, [] => []
  | t, b :: bs => xorBytes (f (xorBytes b t)) t :: xtsBlocks f (xtsNext t) bs

/-- One data unit under XTS-AES-256: `key` is key 1 then key 2, `n` the data-unit number. -/
def xtsUnit (enc : Bool) (key : List Byte) (n : Nat) (bs : List Byte) : List Byte :=
  let f := if enc then aesEnc (key.take 32) else aesDec (key.take 32)
  (xtsBlocks f (aesEnc (key.drop 32) (bytesLE 16 n)) (blocks16 bs)).flatten

/-! ### SHA-512 (FIPS 180-4) -/

/-- The first primes. -/
def primes (n : Nat) : List Nat :=
  ((List.range 500).filter fun p => decide (2 ≤ p) && (List.range p).all fun k => decide (k < 2) || p % k != 0).take n

/-- The largest x below 2^n whose k-th power is at most v. -/
def rootBelow (k v : Nat) : Nat → Nat
  | 0 => 0
  | n + 1 =>
    let hi := rootBelow k (v / 2 ^ k) n * 2
    if (hi + 1) ^ k ≤ v then hi + 1 else hi

/-- The initial hash value. -/
def sha512Init : List Word := (primes 8).map fun p => BitVec.ofNat 64 (rootBelow 2 (p * 2 ^ 128) 68)

/-- The round constants. -/
def sha512K : List Word := (primes 80).map fun p => BitVec.ofNat 64 (rootBelow 3 (p * 2 ^ 192) 68)

/-- The message schedule, newest word last. -/
def sha512Sched : Nat → List Word → List Word
  | 0, ws => ws
  | n + 1, ws =>
    let i := ws.length
    let w (k : Nat) : Word := ws.getD (i - k) 0
    let a := w 15
    let b := w 2
    let s0 := a.rotateRight 1 ^^^ a.rotateRight 8 ^^^ (a >>> 7)
    let s1 := b.rotateRight 19 ^^^ b.rotateRight 61 ^^^ (b >>> 6)
    sha512Sched n (ws ++ [w 16 + s0 + w 7 + s1])

/-- One round on the eight working variables. -/
def sha512Round (v : List Word) (kw : Word) : List Word :=
  match v with
  | [a, b, c, d, e, f, g, h] =>
    let s1 := e.rotateRight 14 ^^^ e.rotateRight 18 ^^^ e.rotateRight 41
    let t1 := h + s1 + ((e &&& f) ^^^ (~~~ e &&& g)) + kw
    let s0 := a.rotateRight 28 ^^^ a.rotateRight 34 ^^^ a.rotateRight 39
    let t2 := s0 + ((a &&& b) ^^^ (a &&& c) ^^^ (b &&& c))
    [t1 + t2, a, b, c, d + t1, e, f, g]
  | _ => v

/-- SHA-512 of bytes. -/
def sha512 (m : List Byte) : List Byte :=
  let p := m ++ [0x80] ++ List.replicate ((239 - m.length % 128) % 128) 0 ++ bytesBE 16 (m.length * 8)
  let n := p.length / 128
  let out := (List.range n).foldl (fun h i =>
    let ws := (List.range 16).map fun k => BitVec.ofNat 64 (natBE ((p.drop (128 * i + 8 * k)).take 8))
    let s := sha512Sched 64 ws
    let v := ((s.zip sha512K).foldl (fun v x => sha512Round v (x.1 + x.2)) h)
    (h.zip v).map fun q => q.1 + q.2) sha512Init
  (out.map fun w => bytesBE 8 w.toNat).flatten

/-- HMAC-SHA-512 (RFC 2104). -/
def hmac512 (key m : List Byte) : List Byte :=
  let k := if 128 < key.length then sha512 key else key
  let k := (k ++ List.replicate 128 0).take 128
  sha512 (k.map (· ^^^ 0x5C) ++ sha512 (k.map (· ^^^ 0x36) ++ m))

/-! ### Checks -/

/-- A value reflected in w bits. -/
def reflect (w v : Nat) : Nat := (List.range w).foldl (fun a i => if natBit v i then a + 2 ^ (w - 1 - i) else a) 0

/-- One bit into a CRC register of width w: the direct form, or the reflected one (R270). -/
def crcStep (w poly : Nat) (refl : Bool) (run : Nat) (b : Bool) : Nat :=
  if refl then
    let x := natBit run 0 != b
    (run / 2) ^^^ (if x then reflect w poly else 0)
  else
    let x := natBit run (w - 1) != b
    (run * 2 % 2 ^ w) ^^^ (if x then poly else 0)

/-- A byte into a CRC register, by its least significant bit first where `refl`. -/
def crcFeed (w poly : Nat) (refl : Bool) (run : Nat) (b : Byte) : Nat :=
  (List.range 8).foldl (fun r i => crcStep w poly refl r (b.getLsbD (if refl then i else 7 - i))) run

/-- The check value of a register (R270). -/
def crcOut (w : Nat) (refin refout inv : Bool) (run : Nat) : Nat :=
  let v := if refin != refout then reflect w run else run
  if inv then v ^^^ (2 ^ w - 1) else v

/-- CRC-32 as gzip uses it, over bytes from a running check. -/
def crc32 (start : Nat) (bs : List Byte) : Nat :=
  bs.foldl (fun r b => crcFeed 32 0x04C11DB7 true r b) (start ^^^ 0xFFFFFFFF) ^^^ 0xFFFFFFFF

/-- Adler-32 over bytes from a running check. -/
def adler32 (start : Nat) (bs : List Byte) : Nat :=
  let p := bs.foldl (fun (p : Nat × Nat) b => let a := (p.1 + b.toNat) % 65521; (a, (p.2 + a) % 65521)) (start % 65536, start / 65536)
  p.2 * 65536 + p.1

end Sys2Proof.Machine
end

