-- ==== Sys2Proof/Machine/Inflate.lean ====
section
/-! DEFINITION. Decoding of a DEFLATE, zlib or gzip stream (R273, R277, RFC 1950 to 1952). -/
namespace Sys2Proof.Machine

/-- Input as one number with its length in bits. -/
structure Bits where
  v : Nat
  n : Nat
deriving DecidableEq, Repr

/-- A decoder's state: the bit position and the output so far, newest byte first. -/
structure Inf where
  pos : Nat
  out : List Byte
deriving DecidableEq, Repr

/-- Bad stream (0x12) or out of input (0x17). -/
abbrev Res (α : Type) := Except Nat α

/-- Take k bits. -/
def Bits.take (b : Bits) (pos k : Nat) : Res (Nat × Nat) :=
  if b.n < pos + k then .error 0x17 else .ok (b.v / 2 ^ pos % 2 ^ k, pos + k)

/-- A Huffman code: how many codes each length has, and the symbols by length and then by value. -/
structure Huff where
  counts : List Nat
  syms : List Nat
deriving DecidableEq, Repr

/-- The code of a list of lengths; none where it is over-subscribed, or incomplete with more than one code. -/
def mkHuff (lens : List Nat) : Option Huff :=
  let counts := (List.range 16).map fun k => if k = 0 then 0 else (lens.filter (· == k)).length
  let left : Option Nat := (counts.drop 1).foldl (fun a c => a.bind fun x => if x * 2 < c then none else some (x * 2 - c)) (some 1)
  let syms := ((List.range 15).map fun k => (lens.zipIdx.filter fun p => p.1 == k + 1).map (·.2)).flatten
  match left with
  | none => none
  | some l => if l = 0 ∨ syms.length ≤ 1 then some { counts := counts, syms := syms } else none

/-- Decode one symbol: code, first code and index of the present length. -/
def Huff.walk (h : Huff) (b : Bits) : List Nat → Nat → Nat → Nat → Nat → Res (Nat × Nat)
  | [], _, _, _, _ => .error 0x12
  | c :: cs, pos, code, first, index =>
    match b.take pos 1 with
    | .error e => .error e
    | .ok (x, pos) =>
      let code := code + x
      if code < first + c then .ok (h.syms.getD (index + (code - first)) 0, pos)
      else Huff.walk h b cs pos (code * 2) ((first + c) * 2) (index + c)

/-- The next symbol. -/
def Huff.next (h : Huff) (b : Bits) (pos : Nat) : Res (Nat × Nat) := h.walk b (h.counts.drop 1) pos 0 0 0

/-- Base and extra bits of length symbol 257 + i. -/
def lenBase (i : Nat) : Nat × Nat :=
  if i < 8 then (3 + i, 0) else if i = 28 then (258, 0) else (3 + (4 + i % 4) * 2 ^ (i / 4 - 1), i / 4 - 1)

/-- Base and extra bits of a distance symbol. -/
def distBase (i : Nat) : Nat × Nat := if i < 4 then (1 + i, 0) else (1 + (2 + i % 2) * 2 ^ (i / 2 - 1), i / 2 - 1)

/-- Copy `n` bytes from a distance back. -/
def copyBack (d : Nat) : Nat → List Byte → List Byte
  | 0, out => out
  | n + 1, out => copyBack d n (out.getD (d - 1) 0 :: out)

/-- The symbols of a block up to its end. -/
def infCodes (b : Bits) (lit dist : Huff) : Nat → Inf → Res Inf
  | 0, _ => .error 0x17
  | fuel + 1, s =>
    match lit.next b s.pos with
    | .error e => .error e
    | .ok (sym, pos) =>
      if sym < 256 then infCodes b lit dist fuel { pos := pos, out := BitVec.ofNat 8 sym :: s.out }
      else if sym = 256 then .ok { s with pos := pos }
      else if 286 ≤ sym then .error 0x12
      else
        let lb := lenBase (sym - 257)
        match b.take pos lb.2 with
        | .error e => .error e
        | .ok (x, pos) => match dist.next b pos with
          | .error e => .error e
          | .ok (ds, pos) =>
            if 30 ≤ ds then .error 0x12
            else
              let db := distBase ds
              match b.take pos db.2 with
              | .error e => .error e
              | .ok (y, pos) =>
                let d := db.1 + y
                if s.out.length < d then .error 0x12
                else infCodes b lit dist fuel { pos := pos, out := copyBack d (lb.1 + x) s.out }

/-- The code lengths of a dynamic block. -/
def infLens (b : Bits) (cl : Huff) (total : Nat) : Nat → Nat → List Nat → Res (List Nat × Nat)
  | 0, _, _ => .error 0x12
  | fuel + 1, pos, ls =>
    if total ≤ ls.length then (if ls.length = total then .ok (ls, pos) else .error 0x12)
    else match cl.next b pos with
      | .error e => .error e
      | .ok (sym, pos) =>
        if sym < 16 then infLens b cl total fuel pos (ls ++ [sym])
        else
          let p := if sym = 16 then (2, 3) else if sym = 17 then (3, 3) else (7, 11)
          match b.take pos p.1 with
          | .error e => .error e
          | .ok (x, pos) =>
            if sym = 16 ∧ ls = [] then .error 0x12
            else infLens b cl total fuel pos (ls ++ List.replicate (p.2 + x) (if sym = 16 then ls.getLastD 0 else 0))

/-- The order of code-length code lengths. -/
def clOrder : List Nat := [16, 17, 18, 0, 8, 7, 9, 6, 10, 5, 11, 4, 12, 3, 13, 2, 14, 1, 15]

/-- The codes of a dynamic block. -/
def infDynamic (b : Bits) (pos : Nat) : Res (Huff × Huff × Nat) := do
  let (nl, pos) ← b.take pos 5
  let (nd, pos) ← b.take pos 5
  let (nc, pos) ← b.take pos 4
  let (cls, pos) ← (List.range (nc + 4)).foldlM (fun (p : List Nat × Nat) _ => do
    let (x, pos) ← b.take p.2 3
    pure (p.1 ++ [x], pos)) (([] : List Nat), pos)
  let lens := (List.range 19).map fun s => (((clOrder.take cls.length).zip cls).find? fun p => p.1 == s).elim 0 (·.2)
  match mkHuff lens with
  | none => .error 0x12
  | some cl =>
    let (ls, pos) ← infLens b cl (nl + 257 + nd + 1) 400 pos []
    if 286 < nl + 257 ∨ 30 < nd + 1 ∨ ls.getD 256 0 = 0 then .error 0x12
    else match mkHuff (ls.take (nl + 257)), mkHuff (ls.drop (nl + 257)) with
      | some l, some d => .ok (l, d, pos)
      | _, _ => .error 0x12

/-- The fixed codes. -/
def fixedLens : List Nat := List.replicate 144 8 ++ List.replicate 112 9 ++ List.replicate 24 7 ++ List.replicate 8 8

/-- The blocks of a DEFLATE stream (RFC 1951). -/
def inflate (b : Bits) : Nat → Inf → Res Inf
  | 0, _ => .error 0x17
  | fuel + 1, s => do
    let (fin, pos) ← b.take s.pos 1
    let (ty, pos) ← b.take pos 2
    let s ← (match ty with
      | 0 => do
        let pos := (pos + 7) / 8 * 8
        let (len, pos) ← b.take pos 16
        let (nlen, pos) ← b.take pos 16
        if len + nlen ≠ 65535 then .error 0x12
        else
          let (x, pos) ← b.take pos (8 * len)
          pure { pos := pos, out := (bytesLE len x).reverse ++ s.out }
      | 1 => (match mkHuff fixedLens, mkHuff (List.replicate 32 5) with
        | some l, some d => infCodes b l d b.n { s with pos := pos }
        | _, _ => .error 0x12)
      | 2 => do
        let (l, d, pos) ← infDynamic b pos
        infCodes b l d b.n { s with pos := pos }
      | _ => (.error 0x12 : Res Inf))
    if fin = 1 then pure s else inflate b fuel s

/-- A DEFLATE stream from a byte of the input: its output and the byte after it. -/
def inflateAt (b : Bits) (byte : Nat) : Res (List Byte × Nat) :=
  match inflate b b.n { pos := byte * 8, out := [] } with
  | .error e => .error e
  | .ok s => .ok (s.out.reverse, (s.pos + 7) / 8)

/-- A zlib stream (RFC 1950). -/
def unzlib (bs : List Byte) (b : Bits) : Res (List Byte × Nat) := do
  let (cmf, _) ← b.take 0 8
  let (flg, _) ← b.take 8 8
  if cmf % 16 ≠ 8 ∨ 7 < cmf / 16 ∨ (cmf * 256 + flg) % 31 ≠ 0 then .error 0x12
  else if natBit flg 5 then .error 0x13
  else
    let (out, n) ← inflateAt b 2
    let (_, _) ← b.take (8 * n) 32
    if natBE ((bs.drop n).take 4) = adler32 1 out then pure (out, n + 4) else .error 0x06

/-- Skip a zero-terminated string from a byte of the input. -/
def skipZ (bs : List Byte) (n : Nat) : Res Nat :=
  match (bs.drop n).findIdx? (· == 0) with
  | some k => .ok (n + k + 1)
  | none => .error 0x17

/-- The byte after a gzip header at byte `n`. -/
def gzHeader (bs : List Byte) (b : Bits) (n : Nat) : Res Nat := do
  let (h, _) ← b.take (8 * n) 32
  let (_, _) ← b.take (8 * n) 80
  let flg := h / 2 ^ 24
  if h % 2 ^ 24 ≠ 0x088B1F ∨ natBits flg 7 5 ≠ 0 then .error 0x12
  else
    let p := n + 10
    let p ← (if natBit flg 2 then do
      let (x, _) ← b.take (8 * p) 16
      let (_, _) ← b.take (8 * (p + 2)) (8 * x)
      pure (p + 2 + x) else pure p : Res Nat)
    let p ← (if natBit flg 3 then skipZ bs p else pure p)
    let p ← (if natBit flg 4 then skipZ bs p else pure p)
    if natBit flg 1 then do
      let (x, _) ← b.take (8 * p) 16
      if x = crc32 0 ((bs.drop n).take (p - n)) % 65536 then pure (p + 2) else .error 0x12
    else pure p

/-- The members of a gzip stream (RFC 1952) from byte `n`: another one follows where its magic number does. -/
def gunzip (bs : List Byte) (b : Bits) : Nat → Nat → List Byte → Res (List Byte × Nat)
  | 0, _, _ => .error 0x17
  | fuel + 1, n, acc => do
    let p ← gzHeader bs b n
    let (out, q) ← inflateAt b p
    let (x, _) ← b.take (8 * q) 64
    if x % 2 ^ 32 ≠ crc32 0 out ∨ x / 2 ^ 32 ≠ out.length % 2 ^ 32 then .error 0x06
    else
      let acc := acc ++ out
      let q := q + 8
      if natLE ((bs.drop q).take 2) = 0x8B1F ∧ q + 2 ≤ bs.length then gunzip bs b fuel q acc else pure (acc, q)

end Sys2Proof.Machine
end

