-- ==== Sys2Proof/Machine/Zstd.lean ====
section
/-! DEFINITION. Decompression of a whole Zstandard stream (R273, RFC 8878), and XXH64, its content checksum. A malformed block is a bad
stream (0x12), input that ends early is truncated (0x17), a window above the limit or a dictionary is unsupported (0x13), and a checksum
that differs is a mismatch (0x06). -/
namespace Sys2Proof.Machine

/-! ### XXH64 -/

def xxP1 : Word := 0x9E3779B185EBCA87
def xxP2 : Word := 0xC2B2AE3D27D4EB4F
def xxP3 : Word := 0x165667B19E3779F9
def xxP4 : Word := 0x85EBCA77C2B2AE63
def xxP5 : Word := 0x27D4EB2F165667C5

/-- The little-endian word of a byte string's first bytes. -/
def leWord (bs : List Byte) : Word := BitVec.ofNat 64 (natLE bs)

/-- One lane takes eight bytes. -/
def xxRound (acc w : Word) : Word := (acc + w * xxP2).rotateLeft 31 * xxP1

/-- One lane joins the others. -/
def xxMerge (h v : Word) : Word := (h ^^^ xxRound 0 v) * xxP1 + xxP4

/-- The tail of less than 32 bytes. -/
def xxTail : Nat → Word → List Byte → Word
  | 0, h, _ => h
  | k + 1, h, bs =>
    if bs.isEmpty then h
    else if 8 ≤ bs.length then xxTail k ((h ^^^ xxRound 0 (leWord (bs.take 8))).rotateLeft 27 * xxP1 + xxP4) (bs.drop 8)
    else if 4 ≤ bs.length then xxTail k ((h ^^^ (leWord (bs.take 4) * xxP1)).rotateLeft 23 * xxP2 + xxP3) (bs.drop 4)
    else xxTail k ((h ^^^ (leWord (bs.take 1) * xxP5)).rotateLeft 11 * xxP1) (bs.drop 1)

/-- The four lanes over whole 32-byte pieces, and what is left. -/
def xxLanes : Nat → Word × Word × Word × Word → List Byte → (Word × Word × Word × Word) × List Byte
  | 0, v, bs => (v, bs)
  | k + 1, (a, b, c, d), bs =>
    if bs.length < 32 then ((a, b, c, d), bs)
    else
      let w (i : Nat) : Word := leWord ((bs.drop (8 * i)).take 8)
      xxLanes k (xxRound a (w 0), xxRound b (w 1), xxRound c (w 2), xxRound d (w 3)) (bs.drop 32)

/-- XXH64 with seed 0. -/
def xxh64 (bs : List Byte) : Word :=
  let z := xxLanes (bs.length / 32) (xxP1 + xxP2, xxP2, 0, 0 - xxP1) bs
  let h : Word :=
    if bs.length < 32 then xxP5
    else
      let (a, b, c, d) := z.1
      xxMerge (xxMerge (xxMerge (xxMerge (a.rotateLeft 1 + b.rotateLeft 7 + c.rotateLeft 12 + d.rotateLeft 18) a) b) c) d
  let h := xxTail 32 (h + BitVec.ofNat 64 bs.length) z.2
  let h := (h ^^^ (h >>> 33)) * xxP2
  let h := (h ^^^ (h >>> 29)) * xxP3
  h ^^^ (h >>> 32)

/-! ### Bit streams that are read backwards -/

/-- A backward bit stream: its bits as a number, and how many are left; negative once more were read than there are. -/
structure Back where
  v : Nat
  left : Int
deriving DecidableEq, Repr

/-- A backward stream over bytes: the highest set bit of the last byte marks its end. -/
def mkBack (bs : List Byte) : Res Back :=
  match bs.getLast? with
  | none => .error 0x12
  | some b => if b = 0 then .error 0x12 else .ok { v := natLE bs, left := Nat.log2 (natLE bs) }

/-- The next k bits, without taking them; past the end they are 0. -/
def Back.peek (b : Back) (k : Nat) : Nat :=
  let l := b.left.toNat
  if k ≤ l then b.v / 2 ^ (l - k) % 2 ^ k else b.v % 2 ^ l * 2 ^ (k - l)

/-- Take k bits. -/
def Back.take (b : Back) (k : Nat) : Nat × Back := (b.peek k, { b with left := b.left - k })

/-! ### FSE tables -/

/-- An entry of a decoding table: symbol, bits to read, and the base of the next state. -/
structure FseCell where
  sym : Nat
  nb : Nat
  base : Nat
deriving DecidableEq, Repr, Inhabited

/-- A decoding table with its accuracy. -/
structure Fse where
  al : Nat
  cells : List FseCell
deriving DecidableEq, Repr, Inhabited

/-- Zeros repeated after a probability of 0: two bits at a time, 3 going on. -/
def fseZeros (b : Bits) : Nat → Nat → List Int → Res (List Int × Nat)
  | 0, _, _ => .error 0x12
  | k + 1, pos, ps =>
    match b.take pos 2 with
    | .error e => .error e
    | .ok (n, pos) => if n = 3 then fseZeros b k pos (List.replicate 3 0 ++ ps) else .ok (List.replicate n 0 ++ ps, pos)

/-- The probabilities of a table's description, newest first, until the rest is 0. -/
def fseProbs (b : Bits) : Nat → Nat → Nat → List Int → Res (List Int × Nat)
  | 0, _, _, _ => .error 0x12
  | k + 1, pos, rest, ps =>
    if rest = 0 then .ok (ps, pos)
    else
      let bits := Nat.log2 (rest + 1) + 1
      let v := b.v / 2 ^ pos % 2 ^ bits
      let low := v % 2 ^ (bits - 1)
      let thr := 2 ^ bits - 1 - (rest + 1)
      let (x, n) : Nat × Nat := if low < thr then (low, bits - 1) else if 2 ^ (bits - 1) ≤ v then (v - thr, bits) else (v, bits)
      let p : Int := (x : Int) - 1
      if b.n < pos + n then .error 0x12
      else
        let use := p.natAbs
        if rest < use then .error 0x12
        else if p = 0 then match fseZeros b (b.n + 1) (pos + n) (0 :: ps) with
          | .error e => .error e
          | .ok (ps, pos) => fseProbs b k pos rest ps
        else fseProbs b k (pos + n) (rest - use) (p :: ps)

/-- The places of the symbols in a table: each takes its probability's number of places, a step apart, below the symbols of probability -1. -/
def fsePlace (size high step : Nat) (s : Nat) : Nat → Nat → List Nat → List Nat × Nat
  | 0, pos, t => (t, pos)
  | n + 1, pos, t =>
    let skip : Nat := ((List.range size).foldl (fun q _ => if high ≤ q then (q + step) % size else q) ((pos + step) % size))
    fsePlace size high step s n skip (t.set pos s)

/-- Numbers the places of each symbol from its probability upwards. -/
def fseCells (al size : Nat) : List Nat → List Nat → List FseCell
  | [], _ => []
  | s :: ss, next =>
    let x := next.getD s 1
    let nb := al - Nat.log2 x
    { sym := s, nb := nb, base := x * 2 ^ nb - size } :: fseCells al size ss (next.set s (x + 1))

/-- The decoding table of a list of probabilities. -/
def mkFse (al : Nat) (ps : List Int) : Fse :=
  let size := 2 ^ al
  let step := size / 2 + size / 8 + 3
  let rare := (ps.zipIdx.filter fun p => p.1 == -1).map (·.2)
  let t := (rare.zipIdx.foldl (fun (t : List Nat) p => t.set (size - 1 - p.2) p.1) (List.replicate size 0))
  let t := (ps.zipIdx.foldl (fun (z : List Nat × Nat) p => fsePlace size (size - rare.length) step p.2 p.1.toNat z.2 z.1) (t, 0)).1
  { al := al, cells := fseCells al size t (ps.map fun p => if p = -1 then 1 else p.toNat) }

/-- A table's description at the front of bytes: the table and the bytes that it takes. -/
def readFse (bs : List Byte) (maxAl maxSym : Nat) : Res (Fse × Nat) :=
  let b : Bits := { v := natLE bs, n := 8 * bs.length }
  match b.take 0 4 with
  | .error _ => .error 0x12
  | .ok (a, pos) =>
    let al := a + 5
    if maxAl < al then .error 0x12
    else match fseProbs b (maxSym + 2) pos (2 ^ al) [] with
      | .error _ => .error 0x12
      | .ok (ps, pos) => if maxSym + 1 < ps.length then .error 0x12 else .ok (mkFse al ps.reverse, (pos + 7) / 8)

/-- The cell of a state. -/
def Fse.at (f : Fse) (s : Nat) : FseCell := f.cells.getD s default

/-- A state's successor. -/
def Fse.step (f : Fse) (s : Nat) (b : Back) : Nat × Back :=
  let c := f.at s
  let z := b.take c.nb
  (c.base + z.1, z.2)

/-! ### Huffman trees -/

/-- Two interleaved states give the weights until the stream is used up. -/
def fseWeights (f : Fse) : Nat → Nat → Nat → Back → List Nat → Res (List Nat)
  | 0, _, _, _, _ => .error 0x12
  | k + 1, s1, s2, b, ws =>
    let ws := (f.at s1).sym :: ws
    let z := f.step s1 b
    if z.2.left < 0 then .ok ((f.at s2).sym :: ws) else fseWeights f k s2 z.1 z.2 ws

/-- The decoding table of a Huffman tree: for each value of the longest code, its symbol and length. -/
structure HufTree where
  bits : Nat
  cells : List (Nat × Nat)
deriving DecidableEq, Repr, Inhabited

/-- The tree of a list of weights, the last of which the others determine. -/
def mkHuf (ws : List Nat) : Res HufTree :=
  let sum := ws.foldl (fun a w => if w = 0 then a else a + 2 ^ (w - 1)) 0
  if sum = 0 ∨ ws.any (11 < ·) then .error 0x12
  else
    let bits := Nat.log2 sum + 1
    let left := 2 ^ bits - sum
    if 11 < bits ∨ 2 ^ Nat.log2 left ≠ left then .error 0x12
    else
      let ws := ws ++ [Nat.log2 left + 1]
      let cells := ((List.range bits).map fun i =>
        ((ws.zipIdx.filter fun p => p.1 == i + 1).map fun p => List.replicate (2 ^ i) (p.2, bits - i)).flatten).flatten
      .ok { bits := bits, cells := cells }

/-- A tree's description at the front of bytes, and the bytes that it takes. -/
def readHuf (bs : List Byte) : Res (HufTree × Nat) :=
  match bs with
  | [] => .error 0x12
  | h :: rest =>
    if 128 ≤ h.toNat then
      let n := h.toNat - 127
      let len := (n + 1) / 2
      if rest.length < len then .error 0x12
      else
        let ws := (List.range n).map fun i =>
          let x := (rest.getD (i / 2) 0).toNat
          if i % 2 = 0 then x / 16 else x % 16
        (mkHuf ws).map fun t => (t, 1 + len)
    else if rest.length < h.toNat then .error 0x12
    else do
      let part := rest.take h.toNat
      let (f, n) ← readFse part 6 11
      let b ← mkBack (part.drop n)
      let (s1, b) := b.take f.al
      let (s2, b) := b.take f.al
      if b.left < 0 then .error 0x12
      else
        let ws ← fseWeights f 255 s1 s2 b []
        let t ← mkHuf ws.reverse
        pure (t, 1 + h.toNat)

/-- n symbols of a Huffman stream, newest first on what stands before; the stream is used up exactly. -/
def hufSyms (t : HufTree) : Nat → Back → List Byte → Res (List Byte)
  | 0, b, out => if b.left = 0 then .ok out else .error 0x12
  | n + 1, b, out =>
    let c := t.cells.getD (b.peek t.bits) default
    let b := { b with left := b.left - c.2 }
    if b.left < 0 then .error 0x12 else hufSyms t n b (BitVec.ofNat 8 c.1 :: out)

/-- A stream of n symbols over bytes. -/
def hufStream (t : HufTree) (n : Nat) (bs : List Byte) : Res (List Byte) := do
  let b ← mkBack bs
  let out ← hufSyms t n b []
  pure out.reverse

/-! ### Blocks -/

/-- What a frame carries from block to block: the tree and tables of the latest block, the repeat offsets, and the frame's output, newest
first. -/
structure ZState where
  tree : Option HufTree := none
  ll : Option Fse := none
  of_ : Option Fse := none
  ml : Option Fse := none
  rep : Nat × Nat × Nat := (1, 4, 8)
  out : List Byte := []
deriving DecidableEq, Repr

/-- The literals section at the front of a block: the literals, the bytes that it takes, and the tree for later blocks. -/
def zLiterals (z : ZState) (bs : List Byte) (maxBlock : Nat) : Res (List Byte × Nat × Option HufTree) :=
  match bs with
  | [] => .error 0x12
  | h :: _ =>
    let ty := h.toNat % 4
    let sf := h.toNat / 4 % 4
    if ty < 2 then
      let hl := if sf = 1 then 2 else if sf = 3 then 3 else 1
      let n := natLE (bs.take hl) / (if hl = 1 then 8 else 16)
      let used := if ty = 0 then n else 1
      if bs.length < hl + used ∨ maxBlock < n then .error 0x12
      else .ok (if ty = 0 then (bs.drop hl).take n else List.replicate n (bs.getD hl 0), hl + used, z.tree)
    else
      let hl := if sf < 2 then 3 else sf + 2
      let w := if sf < 2 then 10 else if sf = 2 then 14 else 18
      let v := natLE (bs.take hl) / 16
      let n := v % 2 ^ w
      let c := v / 2 ^ w % 2 ^ w
      let body := (bs.drop hl).take c
      if bs.length < hl + c ∨ maxBlock < n then .error 0x12
      else do
        let (t, skip) ← (if ty = 2 then readHuf body else match z.tree with
          | some t => .ok (t, 0)
          | none => .error 0x12 : Res (HufTree × Nat))
        let body := body.drop skip
        if sf = 0 then
          let out ← hufStream t n body
          pure (out, hl + c, some t)
        else
          let size (i : Nat) : Nat := natLE ((body.drop (2 * i)).take 2)
          let q := (n + 3) / 4
          let rest := body.drop 6
          if body.length < 6 ∨ rest.length < size 0 + size 1 + size 2 ∨ n < 3 * q then .error 0x12
          else
            let a ← hufStream t q (rest.take (size 0))
            let b ← hufStream t q ((rest.drop (size 0)).take (size 1))
            let c' ← hufStream t q ((rest.drop (size 0 + size 1)).take (size 2))
            let d ← hufStream t (n - 3 * q) (rest.drop (size 0 + size 1 + size 2))
            pure (a ++ b ++ c' ++ d, hl + c, some t)

/-- Base and extra bits of a literals-length code. -/
def llBase (c : Nat) : Nat × Nat :=
  if c < 16 then (c, 0) else if c < 20 then (16 + 2 * (c - 16), 1) else if c < 22 then (24 + 4 * (c - 20), 2) else if c < 24 then (32 + 8 * (c - 22), 3)
  else if c = 24 then (48, 4) else (2 ^ (c - 19), c - 19)

/-- Base and extra bits of a match-length code. -/
def mlBase (c : Nat) : Nat × Nat :=
  if c < 32 then (3 + c, 0) else if c < 36 then (35 + 2 * (c - 32), 1) else if c < 38 then (43 + 4 * (c - 36), 2) else if c < 40 then (51 + 8 * (c - 38), 3)
  else if c < 42 then (67 + 16 * (c - 40), 4) else if c = 42 then (99, 5) else (3 + 2 ^ (c - 36), c - 36)

/-- The predefined distributions. -/
def llProbs : List Int :=
  [4, 3, 2, 2, 2, 2, 2, 2, 2, 2, 2, 2, 2, 1, 1, 1, 2, 2, 2, 2, 2, 2, 2, 2, 2, 3, 2, 1, 1, 1, 1, 1, -1, -1, -1, -1]
def mlProbs : List Int := [1, 4, 3, 2, 2, 2, 2, 2, 2] ++ List.replicate 37 1 ++ List.replicate 7 (-1)
def ofProbs : List Int := [1, 1, 1, 1, 1, 1, 2, 2, 2] ++ List.replicate 15 1 ++ List.replicate 5 (-1)

/-- The table of one code by its mode: predefined, one symbol, described, or the latest one; and the bytes that it takes. -/
def zTable (mode : Nat) (bs : List Byte) (pre : Fse) (maxAl maxSym : Nat) (last : Option Fse) : Res (Fse × Nat) :=
  match mode with
  | 0 => .ok (pre, 0)
  | 1 => match bs with
    | [] => .error 0x12
    | b :: _ => if maxSym < b.toNat then .error 0x12 else .ok ({ al := 0, cells := [{ sym := b.toNat, nb := 0, base := 0 }] }, 1)
  | 2 => readFse bs maxAl maxSym
  | _ => match last with
    | some f => .ok (f, 0)
    | none => .error 0x12

/-- An offset value with the repeat offsets (RFC 8878, 3.1.1.5): the offset, 0 for none, and the repeat offsets after it. -/
def zOffset (v ll : Nat) (rep : Nat × Nat × Nat) : Nat × Nat × Nat × Nat :=
  let (a, b, c) := rep
  if 3 < v then (v - 3, v - 3, a, b)
  else match v - 1 + (if ll = 0 then 1 else 0) with
    | 0 => (a, a, b, c)
    | 1 => (b, b, a, c)
    | 2 => (c, c, a, b)
    | _ => (a - 1, a - 1, a, b)

/-- The sequences of a block, one after another: literals, then a match. -/
def zSeqs (ll of_ ml : Fse) (window : Nat) : Nat → Nat → Nat → Nat → Back → List Byte → ZState → Res (List Byte × ZState)
  | 0, _, _, _, b, lits, z => if b.left = 0 then .ok (lits, z) else .error 0x12
  | n + 1, sl, so, sm, b, lits, z =>
    let oc := (of_.at so).sym
    let lc := llBase (ll.at sl).sym
    let mc := mlBase (ml.at sm).sym
    let x := b.take oc
    let y := x.2.take mc.2
    let w := y.2.take lc.2
    let lit := lc.1 + w.1
    let len := mc.1 + y.1
    let o := zOffset (2 ^ oc + x.1) lit z.rep
    let b := w.2
    let (sl, b) := if n = 0 then (sl, b) else ll.step sl b
    let (sm, b) := if n = 0 then (sm, b) else ml.step sm b
    let (so, b) := if n = 0 then (so, b) else of_.step so b
    if b.left < 0 ∨ lits.length < lit then .error 0x12
    else
      let out := (lits.take lit).reverse ++ z.out
      if o.1 = 0 ∨ out.length < o.1 ∨ window < o.1 then .error 0x12
      else zSeqs ll of_ ml window n sl so sm b (lits.drop lit) { z with out := copyBack o.1 len out, rep := o.2 }

/-- A compressed block. -/
def zBlock (z : ZState) (bs : List Byte) (window maxBlock : Nat) : Res ZState := do
  let (lits, used, tree) ← zLiterals z bs maxBlock
  let z := { z with tree := tree }
  let before := z.out.length
  let bs := bs.drop used
  match bs with
  | [] => .error 0x12
  | h :: _ =>
    let (n, hl) : Nat × Nat :=
      if h.toNat < 128 then (h.toNat, 1)
      else if h.toNat < 255 then ((h.toNat - 128) * 256 + (bs.getD 1 0).toNat, 2)
      else (natLE ((bs.drop 1).take 2) + 0x7F00, 3)
    if n = 0 then (if bs.length = 1 then .ok { z with out := lits.reverse ++ z.out } else .error 0x12)
    else if bs.length < hl + 1 then .error 0x12
    else
      let modes := (bs.getD hl 0).toNat
      if modes % 4 ≠ 0 then .error 0x12
      else
        let bs := bs.drop (hl + 1)
        let (ll, n1) ← zTable (modes / 64) bs (mkFse 6 llProbs) 9 35 z.ll
        let bs := bs.drop n1
        let (of_, n2) ← zTable (modes / 16 % 4) bs (mkFse 5 ofProbs) 8 31 z.of_
        let bs := bs.drop n2
        let (ml, n3) ← zTable (modes / 4 % 4) bs (mkFse 6 mlProbs) 9 52 z.ml
        let b ← mkBack (bs.drop n3)
        let (sl, b) := b.take ll.al
        let (so, b) := b.take of_.al
        let (sm, b) := b.take ml.al
        if b.left < 0 then .error 0x12
        else
          let (lits, z) ← zSeqs ll of_ ml window n sl so sm b lits { z with ll := some ll, of_ := some of_, ml := some ml }
          let z := { z with out := lits.reverse ++ z.out }
          if maxBlock < z.out.length - before then .error 0x12 else pure z

/-- The blocks of a frame from a place of the input: the output and the place after the last block. -/
def zBlocks (bs : List Byte) (window maxBlock : Nat) : Nat → Nat → ZState → Res (List Byte × Nat)
  | 0, _, _ => .error 0x17
  | k + 1, p, z =>
    let hd := natLE ((bs.drop p).take 3)
    if bs.length < p + 3 then .error 0x17
    else
      let ty := hd / 2 % 4
      let n := hd / 8
      let used := if ty = 1 then 1 else n
      if ty = 3 ∨ maxBlock < n then .error 0x12
      else if bs.length < p + 3 + used then .error 0x17
      else
        let body := (bs.drop (p + 3)).take used
        match (match ty with
          | 0 => .ok { z with out := body.reverse ++ z.out }
          | 1 => .ok { z with out := List.replicate n (body.getD 0 0) ++ z.out }
          | _ => zBlock z body window maxBlock : Res ZState) with
        | .error e => .error e
        | .ok z => if hd % 2 = 1 then .ok (z.out.reverse, p + 3 + used) else zBlocks bs window maxBlock k (p + 3 + used) z

/-- A frame whose magic number stands at a place of the input: its output and the place after it. -/
def zFrame (bs : List Byte) (p limit : Nat) : Res (List Byte × Nat) :=
  let d := (bs.getD (p + 4) 0).toNat
  let single := natBit d 5
  let idLen := [0, 1, 2, 4].getD (d % 4) 0
  let fcsLen := if d / 64 = 0 then (if single then 1 else 0) else 2 ^ (d / 64)
  let w := if single then 0 else 1
  let hl := 5 + w + idLen + fcsLen
  if bs.length < p + 5 then .error 0x17
  else if natBit d 3 then .error 0x12
  else if bs.length < p + hl then .error 0x17
  else
    let wd := (bs.getD (p + 5) 0).toNat
    let id := natLE ((bs.drop (p + 5 + w)).take idLen)
    let fcs := natLE ((bs.drop (p + 5 + w + idLen)).take fcsLen) + (if fcsLen = 2 then 256 else 0)
    let window := if single then fcs else 2 ^ (10 + wd / 8) + 2 ^ (10 + wd / 8) / 8 * (wd % 8)
    if id ≠ 0 ∨ limit < window then .error 0x13
    else match zBlocks bs window (min window 131072) (bs.length + 1) (p + hl) {} with
      | .error e => .error e
      | .ok (out, q) =>
        if fcsLen ≠ 0 ∧ out.length ≠ fcs then .error 0x12
        else if !natBit d 2 then .ok (out, q)
        else if bs.length < q + 4 then .error 0x17
        else if natLE ((bs.drop q).take 4) = (xxh64 out).toNat % 2 ^ 32 then .ok (out, q + 4) else .error 0x06

/-- The frames of a stream, one after another; `any` says that one has ended. -/
def unzstd (bs : List Byte) (limit : Nat) : Nat → Nat → Bool → List Byte → Res (List Byte × Nat)
  | 0, p, _, acc => .ok (acc, p)
  | k + 1, p, any, acc =>
    let m := natLE ((bs.drop p).take 4)
    if bs.length < p + 4 then (if any then .ok (acc, p) else .error 0x17)
    else if m = 0xFD2FB528 then match zFrame bs p limit with
      | .error e => .error e
      | .ok (out, q) => unzstd bs limit k q true (acc ++ out)
    else if m / 16 = 0x184D2A5 then
      let n := natLE ((bs.drop (p + 4)).take 4)
      if bs.length < p + 8 ∨ bs.length < p + 8 + n then .error 0x17 else unzstd bs limit k (p + 8 + n) true acc
    else if any then .ok (acc, p) else .error 0x12

end Sys2Proof.Machine
end

