-- ==== Sys2Proof/Machine/Codec.lean ====
section
/-! DEFINITION. The codec of a Phlox engine (R273 to R282): decompression of a stream that one job holds whole, the headers, trailers and
checks that the spec states of a compressed stream, and what the spec leaves to the unit itself as constants without a value. -/
namespace Sys2Proof.Machine

/-- How a decompression ends: a status of R266, the output, the source bytes used, whether the stream's end was reached, and the
engine state for the next job. -/
structure Decoded where
  status : Nat
  out : List Byte := []
  used : Nat := 0
  ended : Bool := false
  state : List Byte := []
deriving DecidableEq, Repr, Inhabited

/-- The coded blocks that the compressor chooses (R274): bytes, HELD, and engine state, by format, level, window, stream state, EOS and input. -/
opaque Config.compress : Nat → Nat → Nat → Option (List Byte) → Bool → List Byte → List Byte × Nat × List Byte

/-- FLEVEL of a zlib header by LEVEL (R273). -/
opaque Config.flevel : Nat → Nat

/-- Which of the lengths that fit a Zstandard frame's content size field takes, by level and content size. -/
opaque Config.sizeField : Nat → Nat → Nat

/-- The decompressor on a stream that is split over jobs: by format, window, stream state, EOS and input. -/
opaque Config.decompress : Nat → Nat → Option (List Byte) → Bool → List Byte → Decoded

/-- The running content check of a Zstandard stream that is split over jobs, by stream state and further bytes. -/
opaque Config.zstdCheck : List Byte → List Byte → Nat

/-- The decompressor (R273, R277, R279): a stream that one job holds whole is decoded here, a split one by the unit. -/
def decompress (fmt wlog : Nat) (state : Option (List Byte)) (eos : Bool) (bs : List Byte) : Decoded :=
  if state.isNone && eos then
    let b : Bits := { v := natLE bs, n := 8 * bs.length }
    match (match fmt with
      | 0 => inflateAt b 0
      | 1 => unzlib bs b
      | 2 => gunzip bs b (bs.length + 1) 0 []
      | _ => unzstd bs (min (2 ^ 23) (2 ^ wlog)) (bs.length + 1) 0 false [] : Res (List Byte × Nat)) with
    | .error e => { status := e }
    | .ok (out, n) => { status := 0, out := out, used := n, ended := true }
  else
    let d := Config.decompress fmt wlog state eos bs
    let d := if d.status ∈ [0x00, 0x06, 0x12, 0x13, 0x16, 0x17] then d else { d with status := 0x12 }
    let d := if !eos ∧ d.status = 0x17 then { d with status := 0x12 } else d
    { d with used := if eos then min d.used bs.length else bs.length, ended := d.ended || eos }

/-- The running check of a format over further uncompressed bytes, from the check so far (R264, R278); none for raw DEFLATE. -/
def formatCheck (fmt : Nat) (state : Option (List Byte)) (bs : List Byte) : Nat :=
  let old := natLE ((state.getD []).drop 24 |>.take 8)
  match fmt with
  | 0 => 0
  | 1 => adler32 (if state.isSome then old % 2 ^ 32 else 1) bs
  | 2 => crc32 (if state.isSome then old % 2 ^ 32 else 0) bs
  | _ => match state with
    | none => (xxh64 bs).toNat
    | some st => Config.zstdCheck st bs % 2 ^ 64

/-- The compressor's output bound (R275). -/
def compressBound (fmt n : Nat) : Nat :=
  let raw := n + 5 * ((n + 65535) / 65535) + 8
  match fmt with
  | 0 => raw
  | 1 => raw + 6
  | 2 => raw + 18
  | _ => n + 3 * ((n + 131072) / 131072) + 30

/-- The header of a zlib stream (R273). -/
def zlibHeader (level : Nat) : List Byte :=
  let flg := Config.flevel level % 4 * 64
  [0x78, BitVec.ofNat 8 (flg + (31 - (0x7800 + flg) % 31))]

/-- The header of a gzip stream (R273). -/
def gzipHeader : List Byte := [0x1F, 0x8B, 8, 0, 0, 0, 0, 0, 0, 0xFF]

/-- The header of a Zstandard frame (R273): a content checksum, the window 2^WLOG, and the content size where one job holds the stream. -/
def zstdHeader (level wlog : Nat) (size : Option Nat) : List Byte :=
  let window : Byte := BitVec.ofNat 8 ((wlog - 10) * 8)
  [0x28, 0xB5, 0x2F, 0xFD] ++ match size with
  | none => [0x04, window]
  | some n =>
    let fits := (if 256 ≤ n ∧ n < 65792 then [1] else []) ++ (if n < 2 ^ 32 then [2] else []) ++ [3]
    let k := fits.getD (Config.sizeField level n % fits.length) 3
    [BitVec.ofNat 8 (0x04 + 64 * k), window] ++ bytesLE (2 ^ k) (if k = 1 then n - 256 else n)

/-- The header that a stream's first job writes. -/
def compressHeader (fmt level wlog : Nat) (eos : Bool) (n : Nat) : List Byte :=
  match fmt with
  | 0 => []
  | 1 => zlibHeader level
  | 2 => gzipHeader
  | _ => zstdHeader level wlog (if eos then some n else none)

/-- The trailer that a stream's last job writes, over the whole stream's input (R273, R276). -/
def compressTrailer (fmt : Nat) (state : Option (List Byte)) (bs : List Byte) : List Byte :=
  let check := formatCheck fmt state bs
  match fmt with
  | 0 => []
  | 1 => (bytesLE 4 check).reverse
  | 2 => bytesLE 4 check ++ bytesLE 4 (natLE ((state.getD []).drop 8 |>.take 8) + bs.length)
  | _ => bytesLE 4 check

/-- The compressor (R273 to R276, R279): the header with SOS, the coded blocks, the trailer with EOS, never above the bound of R275. -/
def compress (fmt level wlog : Nat) (state : Option (List Byte)) (eos : Bool) (bs : List Byte) : List Byte × Nat × List Byte :=
  let c := Config.compress fmt level wlog state eos bs
  let held := natLE ((state.getD []).drop 44 |>.take 4)
  let head := if state.isNone then compressHeader fmt level wlog eos bs.length else []
  let tail := if eos then compressTrailer fmt state bs else []
  let room := compressBound fmt (bs.length + held) - head.length - tail.length
  (head ++ c.1.take room ++ tail, c.2.1 % 131073, c.2.2)

end Sys2Proof.Machine
end

