-- ==== Sys2Proof/Machine/RegMap.lean ====
section
/-! DEFINITION. The register map of the window (R492 to R496, R505) and the fields of every register definition, from
the field tables of the chapters. A register is named by its window offset; an index in the middle of a name stands in
the argument list of its definition. Package tiles are numbered 0 to 255 (R3). -/
namespace Sys2Proof.Machine

/-- What software may do to a field (the first code of R6). A field whose only code is RWS is read-only to software:
RWS says what a reset does and no code lets software write it (DEDUCED, log entry 5). -/
inductive Kind
  | rw | ro | wo | w1c | w1s
deriving DecidableEq, Repr

/-- An access code of R6, with the conditions of R7: `q` the block must be idle, `l` the configuration lock must be
clear, `s` the field keeps its value through every reset but cold. -/
structure Access where
  kind : Kind
  q : Bool
  l : Bool
  s : Bool
deriving DecidableEq, Repr

/-- One field of a register: its bits, its access code and its reset value, none where the table reads 'fuse'. -/
structure Field where
  name : String
  hi : Nat
  lo : Nat
  acc : Access
  rst : Option Nat
deriving DecidableEq, Repr

/-- A register: its window offset, its implemented bits (every other bit is RSV and reads 0, R6) and its reset value. -/
structure Reg where
  off : Nat
  mask : BitVec 64
  rst : BitVec 64

/-- One field of one register. -/
structure FRef where
  reg : Reg
  hi : Nat
  lo : Nat

/-- RWL. -/
def Access.rwl : Access := ⟨.rw, false, true, false⟩
/-- RO. -/
def Access.ro : Access := ⟨.ro, false, false, false⟩
/-- WO. -/
def Access.wo : Access := ⟨.wo, false, false, false⟩
/-- W1C+RWS. -/
def Access.w1cRws : Access := ⟨.w1c, false, false, true⟩
/-- RWS. -/
def Access.rws : Access := ⟨.ro, false, false, true⟩
/-- W1C. -/
def Access.w1c : Access := ⟨.w1c, false, false, false⟩
/-- RWQ. -/
def Access.rwq : Access := ⟨.rw, true, false, false⟩
/-- W1S. -/
def Access.w1s : Access := ⟨.w1s, false, false, false⟩
/-- RW. -/
def Access.rw : Access := ⟨.rw, false, false, false⟩
/-- W1S+RWL. -/
def Access.w1sRwl : Access := ⟨.w1s, false, true, false⟩
/-- W1S+RWS. -/
def Access.w1sRws : Access := ⟨.w1s, false, false, true⟩
/-- RO+RWS. -/
def Access.roRws : Access := ⟨.ro, false, false, true⟩
/-- RWQ+RWL. -/
def Access.rwqRwl : Access := ⟨.rw, true, true, false⟩
/-- RW+RWL. -/
def Access.rwRwl : Access := ⟨.rw, false, true, false⟩
/-- RW+RWS. -/
def Access.rwRws : Access := ⟨.rw, false, false, true⟩

/-- The register definitions of the package, one name per definition of the index R505. -/
inductive RegName
  | SAD_RANGE_BASE
  | SAD_RANGE_LIMIT
  | TMON_PROC
  | TMON_TEMP
  | TMON_DROOP
  | TMON_RATE
  | TBASE_COUNT
  | TBASE_STAT
  | TBRX_STATUS
  | HART_START
  | HART_STAT
  | CORECTL_STATUS
  | L3_PARTRANGE_BASE
  | L3_PARTRANGE_LIMIT
  | L3_PARTWAYS
  | L3_WAYLOCK
  | L3_WAYOWNER
  | L2CTL_CTL
  | L2CTL_STATUS
  | L3_CTL
  | L3_STATUS
  | HOME_CFG
  | HOME_TRKSTAT
  | RLINK_FAULTMAP
  | RILL_FAULTMAP
  | FABRIC_CHKCFG
  | FABRIC_COPY
  | CHK_CTL
  | CHK_RUN
  | CHK_DATA
  | CHK_DATAN
  | RLINK_STAT
  | RLINK_ERRCNT
  | RLINK_RESET
  | RLINK_CTL
  | MC_GEOM
  | MC_CTL
  | MC_MRSEQ
  | ILV_SET_BASE
  | ILV_SET_CFG
  | ILV_STATUS
  | MC_DLY
  | MC_CADLY
  | MC_BANDCTL
  | MC_REFCTL
  | MC_SCRUB
  | MC_STATUS
  | MC_CECNT
  | Q_BASE
  | Q_CFG
  | Q_TAIL
  | Q_QSTAT
  | ENG_STAT
  | PHLOX_VFCFG
  | PHLOX_FNWORLD
  | PHLOX_MGRSTAT
  | PHLOX_QBIND
  | FN_SHARE
  | FN_USE
  | FN_RESET
  | G_CFG
  | G_STAT
  | G_CTO
  | G_IDESTAT
  | SOCK_CFG
  | FOX_TRNG_STAT
  | FOX_SEAL
  | MBX_ADDR
  | MBX_STAT
  | FOX_REKEYQ
  | FOX_KAT
  | ALARM_STAT
  | ALARM_POLICY
  | ALARM_LOG_TICK
  | ALARM_LOG_INFO
  | SEC_CFG
  | SEC_GRPWORLD
  | SEC_IDRANGE
  | SEC_DENY
  | SEC_SRCWORLD
  | WDOG_CTL
  | WDOG_KICK
  | ERT_BASE
  | ERT_LIMIT
  | ENC_STAT
  | ENC_ENTRY
  | ENC_TSB
  | FOX_START
  | FOX_CFGLOCK
  | FOX_MEAS
  | DEVID_LO
  | DEVID_HI
  | DEVID_STAT
  | DOM_STAT
  | WEIR_CFG
  | WEIR_BOUND
  | WEIR_STAT
  | WEIR_EVT
  | WEIR_EVTEN
  | WEIR_DOMCMD
  | WEIR_TILE_REQ
  | EB_STAT
  | EB_REC
  | ERR_RINGSTAT
  | ERR_RINGPOP
  | ERR_CFG
  | ERR_RING
  | ERR_SUMMARY
  | ERR_FATAL
  | ARR_CECNT
  | ARR_FLIP
  | ARR_FLIPD
  | ARR_ADDR
  | PMU_CTL
  | PMU_MSI
  | PMU_EVT
  | PMU_CNT
  | ID_BASELINE
  | ID_STEPPING
  | ID_FEATURE_AVAIL
  | ID_FEATURE_LOCK
deriving DecidableEq, Repr

/-- A family of registers: one definition at a base, with an instance count and a stride for each index. -/
structure Family where
  name : RegName
  base : Nat
  dims : List (Nat × Nat)
  fields : List Field
deriving DecidableEq, Repr

/-- SAD.RANGE[n].BASE: R19 of 01_package_organisation.md. -/
def fields_SAD_RANGE_BASE : List Field := [⟨"EN", 63, 63, .rwl, some 0⟩, ⟨"KIND", 62, 61, .rwl, some 0⟩, ⟨"TARGET", 60, 56, .rwl, some 0⟩, ⟨"BASE", 47, 30, .rwl, some 0⟩]
/-- SAD.RANGE[n].LIMIT: R19 of 01_package_organisation.md. -/
def fields_SAD_RANGE_LIMIT : List Field := [⟨"LIMIT", 47, 30, .rwl, some 0⟩]
/-- TMON.PROC: R44 of 02_self_timed_operation.md. -/
def fields_TMON_PROC : List Field := [⟨"PVALID", 31, 31, .ro, some 0⟩, ⟨"PCODE", 29, 24, .ro, some 0⟩, ⟨"LAPS", 15, 0, .ro, some 0⟩]
/-- TMON.TEMP: R45 of 02_self_timed_operation.md. -/
def fields_TMON_TEMP : List Field := [⟨"CLRMAX", 32, 32, .wo, some 0⟩, ⟨"TJMAX", 31, 16, .ro, some 0⟩, ⟨"TJ", 15, 0, .ro, some 0⟩]
/-- TMON.DROOP: R46 of 02_self_timed_operation.md. -/
def fields_TMON_DROOP : List Field := [⟨"CLR", 63, 63, .wo, some 0⟩, ⟨"THRESH", 57, 48, .ro, some 0⟩, ⟨"DCOUNT", 47, 32, .ro, some 0⟩, ⟨"VNOW", 25, 16, .ro, some 0⟩, ⟨"VMIN", 9, 0, .ro, some 1023⟩]
/-- TMON.RATE: R46 of 02_self_timed_operation.md. -/
def fields_TMON_RATE : List Field := [⟨"CAP", 47, 32, .ro, some 65535⟩, ⟨"TOKENS", 15, 0, .ro, some 0⟩]
/-- TBASE.COUNT: R48 of 02_self_timed_operation.md. -/
def fields_TBASE_COUNT : List Field := [⟨"COUNT", 63, 0, .ro, some 0⟩]
/-- TBASE.STAT: R48 of 02_self_timed_operation.md. -/
def fields_TBASE_STAT : List Field := [⟨"DIE_LOST", 31, 16, .ro, some 0⟩, ⟨"REFLOSS", 1, 1, .w1cRws, some 0⟩, ⟨"REFOK", 0, 0, .ro, some 0⟩]
/-- TBRX.STATUS: R50 of 02_self_timed_operation.md. -/
def fields_TBRX_STATUS : List Field := [⟨"LOSS_CNT", 31, 16, .rws, some 0⟩, ⟨"SLIP", 2, 2, .w1c, some 0⟩, ⟨"TIME_INVALID", 1, 1, .w1c, some 1⟩, ⟨"LOST", 0, 0, .ro, some 1⟩]
/-- CORECTL.HART[h].START: R66 of 03_cores_and_harts.md. -/
def fields_HART_START : List Field := [⟨"VEC", 51, 2, .rwq, some 0⟩, ⟨"RUN", 0, 0, .w1s, some 0⟩]
/-- CORECTL.HART[h].STAT: R68 of 03_cores_and_harts.md. -/
def fields_HART_STAT : List Field := [⟨"EID_ZERO", 7, 4, .ro, some 0⟩, ⟨"STATE", 3, 0, .ro, some 0⟩]
/-- CORECTL.STATUS: R68 of 03_cores_and_harts.md. -/
def fields_CORECTL_STATUS : List Field := [⟨"CFG_REJECT", 0, 0, .w1c, some 0⟩]
/-- L3.PARTRANGE[n].BASE: R147 of 05_cache_hierarchy.md. -/
def fields_L3_PARTRANGE_BASE : List Field := [⟨"EN", 63, 63, .rw, some 0⟩, ⟨"PART", 60, 57, .rw, some 0⟩, ⟨"BASE", 51, 21, .rw, some 0⟩]
/-- L3.PARTRANGE[n].LIMIT: R147 of 05_cache_hierarchy.md. -/
def fields_L3_PARTRANGE_LIMIT : List Field := [⟨"LIMIT", 51, 21, .rw, some 0⟩]
/-- L3.PARTWAYS[p]: R148 of 05_cache_hierarchy.md. -/
def fields_L3_PARTWAYS : List Field := [⟨"FROZEN", 63, 63, .w1sRwl, some 0⟩, ⟨"WAYS", 15, 0, .rw, some 65535⟩]
/-- L3.WAYLOCK: R149 of 05_cache_hierarchy.md. -/
def fields_L3_WAYLOCK : List Field := [⟨"LOCK", 15, 0, .rwq, some 0⟩]
/-- L3.WAYOWNER: R149 of 05_cache_hierarchy.md. -/
def fields_L3_WAYOWNER : List Field := [⟨"OWNER0", 3, 0, .rwq, some 0⟩, ⟨"OWNER1", 7, 4, .rwq, some 0⟩, ⟨"OWNER2", 11, 8, .rwq, some 0⟩, ⟨"OWNER3", 15, 12, .rwq, some 0⟩, ⟨"OWNER4", 19, 16, .rwq, some 0⟩, ⟨"OWNER5", 23, 20, .rwq, some 0⟩, ⟨"OWNER6", 27, 24, .rwq, some 0⟩, ⟨"OWNER7", 31, 28, .rwq, some 0⟩, ⟨"OWNER8", 35, 32, .rwq, some 0⟩, ⟨"OWNER9", 39, 36, .rwq, some 0⟩, ⟨"OWNER10", 43, 40, .rwq, some 0⟩, ⟨"OWNER11", 47, 44, .rwq, some 0⟩, ⟨"OWNER12", 51, 48, .rwq, some 0⟩, ⟨"OWNER13", 55, 52, .rwq, some 0⟩, ⟨"OWNER14", 59, 56, .rwq, some 0⟩, ⟨"OWNER15", 63, 60, .rwq, some 0⟩]
/-- L2CTL.CTL: R153 of 05_cache_hierarchy.md. -/
def fields_L2CTL_CTL : List Field := [⟨"L2PF", 2, 2, .rw, some 1⟩, ⟨"L1PF", 1, 1, .rw, some 1⟩, ⟨"DISABLE", 0, 0, .rwq, some 0⟩]
/-- L2CTL.STATUS: R153 of 05_cache_hierarchy.md. -/
def fields_L2CTL_STATUS : List Field := [⟨"CFG_REJECT", 2, 2, .w1c, some 0⟩, ⟨"DISABLED", 1, 1, .ro, some 0⟩, ⟨"CACHE_DISABLE_PENDING", 0, 0, .ro, some 0⟩]
/-- L3.CTL: R153 of 05_cache_hierarchy.md. -/
def fields_L3_CTL : List Field := [⟨"QDISABLE", 3, 0, .rwq, some 0⟩]
/-- L3.STATUS: R153 of 05_cache_hierarchy.md. -/
def fields_L3_STATUS : List Field := [⟨"FROZEN_WR", 10, 10, .w1c, some 0⟩, ⟨"CFG_REJECT", 9, 9, .w1c, some 0⟩, ⟨"SWEEP", 8, 8, .ro, some 0⟩, ⟨"DISABLED", 7, 4, .ro, some 0⟩, ⟨"CACHE_DISABLE_PENDING", 3, 0, .ro, some 0⟩]
/-- HOME.CFG: R164 of 06_coherence_and_confluence.md. -/
def fields_HOME_CFG : List Field := [⟨"EGRANT", 1, 1, .rwl, some 1⟩, ⟨"DIREN", 0, 0, .rwl, some 0⟩]
/-- HOME[s].TRKSTAT: R165 of 06_coherence_and_confluence.md. -/
def fields_HOME_TRKSTAT : List Field := [⟨"WAITED", 63, 63, .w1c, some 0⟩, ⟨"IOUSE", 59, 48, .ro, some 0⟩, ⟨"PEERUSE", 43, 32, .ro, some 0⟩, ⟨"EVCUSE", 25, 16, .ro, some 0⟩, ⟨"INUSE", 13, 0, .ro, some 0⟩]
/-- RLINK[d].FAULTMAP: R199 of 07_rill_die_links.md. -/
def fields_RLINK_FAULTMAP : List Field := [⟨"RSTB", 63, 63, .w1sRws, some 0⟩, ⟨"RSTA", 62, 62, .w1sRws, some 0⟩, ⟨"SBDNS", 61, 61, .w1sRws, some 0⟩, ⟨"SBDNP", 60, 60, .w1sRws, some 0⟩, ⟨"SBUPS", 59, 59, .w1sRws, some 0⟩, ⟨"SBUPP", 58, 58, .w1sRws, some 0⟩, ⟨"TICKS", 57, 57, .w1sRws, some 0⟩, ⟨"TICKP", 56, 56, .w1sRws, some 0⟩, ⟨"DN", 49, 32, .w1sRws, some 0⟩, ⟨"UP", 17, 0, .w1sRws, some 0⟩]
/-- RILL.FAULTMAP: R199 of 07_rill_die_links.md. -/
def fields_RILL_FAULTMAP : List Field := [⟨"RSTB", 63, 63, .ro, some 0⟩, ⟨"RSTA", 62, 62, .ro, some 0⟩, ⟨"SBDNS", 61, 61, .ro, some 0⟩, ⟨"SBDNP", 60, 60, .ro, some 0⟩, ⟨"SBUPS", 59, 59, .ro, some 0⟩, ⟨"SBUPP", 58, 58, .ro, some 0⟩, ⟨"TICKS", 57, 57, .ro, some 0⟩, ⟨"TICKP", 56, 56, .ro, some 0⟩, ⟨"DN", 49, 32, .ro, some 0⟩, ⟨"UP", 17, 0, .ro, some 0⟩]
/-- FABRIC.CHKCFG: R204 of 07_rill_die_links.md. -/
def fields_FABRIC_CHKCFG : List Field := [⟨"POLY", 1, 0, .ro, some 0⟩]
/-- FABRIC.CHKCFG (die copy): R204 of 07_rill_die_links.md. -/
def fields_FABRIC_COPY : List Field := [⟨"POLY", 1, 0, .ro, some 0⟩]
/-- CHK.CTL: R208 of 07_rill_die_links.md. -/
def fields_CHK_CTL : List Field := [⟨"CFG_REJECT", 1, 1, .w1c, some 0⟩, ⟨"TEST", 0, 0, .rwq, some 0⟩]
/-- CHK.RUN: R208 of 07_rill_die_links.md. -/
def fields_CHK_RUN : List Field := [⟨"RUN", 31, 0, .rwq, some 0⟩]
/-- CHK.DATA: R208 of 07_rill_die_links.md. -/
def fields_CHK_DATA : List Field := [⟨"DATA", 63, 0, .wo, some 0⟩]
/-- CHK.DATAN: R208 of 07_rill_die_links.md. -/
def fields_CHK_DATAN : List Field := [⟨"BYTES", 63, 8, .wo, some 0⟩, ⟨"N", 2, 0, .wo, some 0⟩]
/-- RLINK[d].STAT: R210 of 07_rill_die_links.md. -/
def fields_RLINK_STAT : List Field := [⟨"JOINS", 63, 48, .rws, some 0⟩, ⟨"LASTCAUSE", 35, 32, .rws, some 0⟩, ⟨"UPW", 23, 19, .ro, some 0⟩, ⟨"DNW", 18, 14, .ro, some 0⟩, ⟨"TICKSPARE", 11, 11, .ro, some 0⟩, ⟨"CFG_REJECT", 10, 10, .w1c, some 0⟩, ⟨"STATE", 3, 0, .ro, some 0⟩]
/-- RLINK[d].ERRCNT: R210 of 07_rill_die_links.md. -/
def fields_RLINK_ERRCNT : List Field := [⟨"MSIDROP", 63, 48, .rws, some 0⟩, ⟨"RETRAINS", 47, 32, .rws, some 0⟩, ⟨"REPLAYS", 31, 0, .rws, some 0⟩]
/-- RLINK[d].RESET: R210 of 07_rill_die_links.md. -/
def fields_RLINK_RESET : List Field := [⟨"GO", 63, 63, .wo, some 0⟩, ⟨"BUSY", 62, 62, .ro, some 0⟩, ⟨"KIND", 57, 56, .rw, some 0⟩, ⟨"ST", 23, 16, .ro, some 0⟩, ⟨"TILES", 15, 0, .rw, some 0⟩]
/-- RLINK[d].CTL: R210 of 07_rill_die_links.md. -/
def fields_RLINK_CTL : List Field := [⟨"ADMIT", 0, 0, .w1s, some 0⟩]
/-- MC[c].GEOM: R224 of 08_memory_controllers.md. -/
def fields_MC_GEOM : List Field := [⟨"RATE", 10, 8, .rwqRwl, some 0⟩, ⟨"DPC", 5, 5, .rwqRwl, some 0⟩, ⟨"HEIGHT", 4, 3, .rwqRwl, some 0⟩, ⟨"RANKS", 2, 2, .rwqRwl, some 0⟩, ⟨"DENS", 1, 0, .rwqRwl, some 0⟩]
/-- MC[c].CTL: R225 of 08_memory_controllers.md. -/
def fields_MC_CTL : List Field := [⟨"RFMODE", 5, 4, .rwqRwl, some 0⟩, ⟨"DLYVALID", 3, 1, .rwqRwl, some 0⟩, ⟨"RUN", 0, 0, .w1sRwl, some 0⟩]
/-- MC[c].MRSEQ[n]: R226 of 08_memory_controllers.md. -/
def fields_MC_MRSEQ : List Field := [⟨"V", 63, 63, .rwqRwl, some 0⟩, ⟨"SCMASK", 35, 34, .rwqRwl, some 0⟩, ⟨"CSMASK", 33, 30, .rwqRwl, some 0⟩, ⟨"PDA", 29, 29, .rwqRwl, some 0⟩, ⟨"DEV", 28, 25, .rwqRwl, some 0⟩, ⟨"MRNUM", 15, 8, .rwqRwl, some 0⟩, ⟨"VAL", 7, 0, .rwqRwl, some 0⟩]
/-- ILV.SET[i].BASE: R228 of 08_memory_controllers.md. -/
def fields_ILV_SET_BASE : List Field := [⟨"EN", 63, 63, .rwRwl, some 0⟩, ⟨"BASE", 47, 30, .rwqRwl, some 0⟩]
/-- ILV.SET[i].CFG: R228 of 08_memory_controllers.md. -/
def fields_ILV_SET_CFG : List Field := [⟨"CHMASK", 63, 40, .rwqRwl, some 0⟩, ⟨"GRAIN", 36, 32, .rwqRwl, some 8⟩, ⟨"LOCALBASE", 24, 16, .rwqRwl, some 0⟩, ⟨"SIZE", 13, 0, .rwqRwl, some 0⟩]
/-- ILV.STATUS: R228 of 08_memory_controllers.md. -/
def fields_ILV_STATUS : List Field := [⟨"CAUSE", 15, 12, .ro, some 0⟩, ⟨"SET", 11, 8, .ro, some 0⟩, ⟨"CFG_REJECT", 0, 0, .w1c, some 0⟩]
/-- MC[c].DLY[b][s][k][n]: R232 of 08_memory_controllers.md. -/
def fields_MC_DLY : List Field := [⟨"RVREF", 51, 44, .rwqRwl, some 128⟩, ⟨"RDQ", 43, 36, .rwqRwl, some 0⟩, ⟨"RGATE", 35, 24, .rwqRwl, some 0⟩, ⟨"WDQ", 23, 12, .rwqRwl, some 0⟩, ⟨"WDQS", 11, 0, .rwqRwl, some 0⟩]
/-- MC[c].CADLY[b][s][m]: R232 of 08_memory_controllers.md. -/
def fields_MC_CADLY : List Field := [⟨"CS1", 47, 36, .rwqRwl, some 0⟩, ⟨"CS0", 35, 24, .rwqRwl, some 0⟩, ⟨"CA", 23, 12, .rwqRwl, some 0⟩, ⟨"CK", 11, 0, .rwqRwl, some 0⟩]
/-- MC[c].BANDCTL: R233 of 08_memory_controllers.md. -/
def fields_MC_BANDCTL : List Field := [⟨"HYST", 19, 16, .rwqRwl, some 3⟩, ⟨"HIGH", 15, 8, .rwqRwl, some 70⟩, ⟨"LOW", 7, 0, .rwqRwl, some 45⟩]
/-- MC[c].REFCTL: R237 of 08_memory_controllers.md. -/
def fields_MC_REFCTL : List Field := [⟨"IDLE", 63, 40, .rwqRwl, some 10000⟩, ⟨"TRFC", 39, 30, .rwqRwl, some 410⟩, ⟨"SRMIN", 29, 18, .rwqRwl, some 100⟩, ⟨"PPEN", 0, 0, .rwqRwl, some 1⟩]
/-- MC[c].SCRUB: R248 of 08_memory_controllers.md. -/
def fields_MC_SCRUB : List Field := [⟨"POS", 63, 24, .ro, some 0⟩, ⟨"PERIOD", 15, 8, .rw, some 24⟩, ⟨"EN", 0, 0, .rw, some 0⟩]
/-- MC[c].STATUS: R251 of 08_memory_controllers.md. -/
def fields_MC_STATUS : List Field := [⟨"SR", 16, 16, .ro, some 0⟩, ⟨"OWEDB", 14, 12, .ro, some 0⟩, ⟨"OWEDA", 10, 8, .ro, some 0⟩, ⟨"DREF", 7, 7, .ro, some 0⟩, ⟨"BAND", 6, 5, .ro, some 0⟩, ⟨"INIT", 4, 1, .ro, some 0⟩, ⟨"CFG_REJECT", 0, 0, .w1c, some 0⟩]
/-- MC[c].CECNT[r]: R252 of 08_memory_controllers.md. -/
def fields_MC_CECNT : List Field := [⟨"LASTDEV", 39, 36, .rws, some 0⟩, ⟨"COUNT", 31, 0, .w1cRws, some 0⟩]
/-- PHLOX.FN[f].Q[j].BASE: R255 of 09_phlox_data_engines.md. -/
def fields_Q_BASE : List Field := [⟨"BASE", 63, 12, .rwq, some 0⟩]
/-- PHLOX.FN[f].Q[j].CFG: R255 of 09_phlox_data_engines.md. -/
def fields_Q_CFG : List Field := [⟨"EN", 63, 63, .rw, some 0⟩, ⟨"BOUND", 62, 62, .ro, some 0⟩, ⟨"ENG", 10, 8, .ro, some 0⟩, ⟨"LOG2N", 4, 0, .rwq, some 6⟩]
/-- PHLOX.FN[f].Q[j].TAIL: R255 of 09_phlox_data_engines.md. -/
def fields_Q_TAIL : List Field := [⟨"TAIL", 15, 0, .rw, some 0⟩]
/-- PHLOX.FN[f].Q[j].QSTAT: R255 of 09_phlox_data_engines.md. -/
def fields_Q_QSTAT : List Field := [⟨"DBERR", 63, 63, .w1c, some 0⟩, ⟨"CFG_REJECT", 62, 62, .w1c, some 0⟩, ⟨"LOSTCOMP", 61, 61, .w1c, some 0⟩, ⟨"INFLIGHT", 40, 32, .ro, some 0⟩, ⟨"HEAD", 15, 0, .ro, some 0⟩]
/-- PHLOX.ENG[e].STAT: R289 of 09_phlox_data_engines.md. -/
def fields_ENG_STAT : List Field := [⟨"JOBS", 63, 32, .ro, some 0⟩, ⟨"BUFUSE", 20, 16, .ro, some 0⟩, ⟨"CTXUSE", 8, 0, .ro, some 0⟩]
/-- PHLOX.VFCFG: R293 of 10_engine_sharing.md. -/
def fields_PHLOX_VFCFG : List Field := [⟨"VFEN", 8, 8, .rwl, some 0⟩, ⟨"NUMVF", 7, 0, .rwl, some 0⟩]
/-- PHLOX.FNWORLD[k]: R293 of 10_engine_sharing.md. -/
def fields_PHLOX_FNWORLD : List Field := [⟨"SEC", 63, 0, .rwl, some 0⟩]
/-- PHLOX.MGRSTAT: R293 of 10_engine_sharing.md. -/
def fields_PHLOX_MGRSTAT : List Field := [⟨"CAUSE", 11, 8, .ro, some 0⟩, ⟨"DENIED", 1, 1, .w1c, some 0⟩, ⟨"CFG_REJECT", 0, 0, .w1c, some 0⟩]
/-- PHLOX.QBIND[q]: R293 of 10_engine_sharing.md. -/
def fields_PHLOX_QBIND : List Field := [⟨"VALID", 63, 63, .rw, some 0⟩, ⟨"MOVING", 62, 62, .ro, some 0⟩, ⟨"ENG", 18, 16, .rw, some 0⟩, ⟨"SLOT", 12, 8, .rw, some 0⟩, ⟨"FN", 7, 0, .rw, some 0⟩]
/-- PHLOX.FN[f].SHARE: R297 of 10_engine_sharing.md. -/
def fields_FN_SHARE : List Field := [⟨"CAP", 63, 48, .rw, some 0⟩, ⟨"WEIGHT", 47, 40, .rw, some 16⟩, ⟨"BUFMAX", 36, 32, .rw, some 16⟩, ⟨"CTXMAX", 24, 16, .rw, some 256⟩, ⟨"CTXMIN", 8, 0, .rw, some 0⟩]
/-- PHLOX.FN[f].USE: R301 of 10_engine_sharing.md. -/
def fields_FN_USE : List Field := [⟨"BYTES", 63, 32, .ro, some 0⟩, ⟨"QUEUES", 21, 16, .ro, some 0⟩, ⟨"CTX", 11, 0, .ro, some 0⟩]
/-- PHLOX.FN[f].RESET: R302 of 10_engine_sharing.md. -/
def fields_FN_RESET : List Field := [⟨"GO", 63, 63, .wo, some 0⟩, ⟨"BUSY", 62, 62, .ro, some 0⟩, ⟨"ST", 23, 16, .ro, some 0⟩]
/-- G[g].CFG: R307 of 11_external_link_groups.md. -/
def fields_G_CFG : List Field := [⟨"EN", 63, 63, .rwl, some 0⟩, ⟨"PERS", 62, 60, .rwl, some 0⟩, ⟨"MAXGEN", 59, 56, .rwl, some 0⟩, ⟨"PEER", 55, 54, .rwl, some 0⟩, ⟨"PORTW", 47, 24, .rwl, some 0⟩, ⟨"ENC", 3, 3, .rwl, some 0⟩, ⟨"EXPORT", 2, 2, .rwl, some 0⟩, ⟨"COH", 1, 1, .rwl, some 0⟩, ⟨"TPHEN", 0, 0, .rw, some 0⟩]
/-- G[g].STAT: R310 of 11_external_link_groups.md. -/
def fields_G_STAT : List Field := [⟨"PORTUP", 47, 40, .ro, some 0⟩, ⟨"STATE", 39, 36, .ro, some 0⟩, ⟨"RATE", 35, 32, .ro, some 0⟩, ⟨"WIDTH", 31, 27, .ro, some 0⟩, ⟨"CFG_REJECT", 0, 0, .w1c, some 0⟩]
/-- G[g].CTO: R321 of 11_external_link_groups.md. -/
def fields_G_CTO : List Field := [⟨"CTO", 5, 0, .rw, some 22⟩]
/-- G[g].IDESTAT: R324 of 11_external_link_groups.md. -/
def fields_G_IDESTAT : List Field := [⟨"REKEY", 47, 32, .ro, some 0⟩, ⟨"FAILED", 31, 16, .w1c, some 0⟩, ⟨"SECURE", 15, 0, .ro, some 0⟩]
/-- SOCK.CFG: R334 of 11_external_link_groups.md. -/
def fields_SOCK_CFG : List Field := [⟨"ID", 1, 0, .rwl, some 0⟩]
/-- FOX.TRNG.STAT: R345 of 12_keys_and_cipher_engines.md. -/
def fields_FOX_TRNG_STAT : List Field := [⟨"FAILS1", 47, 32, .roRws, some 0⟩, ⟨"FAILS0", 31, 16, .roRws, some 0⟩, ⟨"DRBGOK", 2, 2, .ro, some 0⟩, ⟨"SRC1OK", 1, 1, .ro, some 0⟩, ⟨"SRC0OK", 0, 0, .ro, some 0⟩]
/-- FOX.SEAL: R347 of 12_keys_and_cipher_engines.md. -/
def fields_FOX_SEAL : List Field := [⟨"EXHAUSTED", 8, 8, .ro, some 0⟩, ⟨"EPOCH", 5, 0, .ro, some 0⟩]
/-- FOX.MBX[w].ADDR: R351 of 12_keys_and_cipher_engines.md. -/
def fields_MBX_ADDR : List Field := [⟨"ADDR", 51, 7, .rwq, some 0⟩]
/-- FOX.MBX[w].STAT: R351 of 12_keys_and_cipher_engines.md. -/
def fields_MBX_STAT : List Field := [⟨"COUNT", 63, 32, .ro, some 0⟩, ⟨"ST", 23, 16, .ro, some 0⟩, ⟨"BUSY", 1, 1, .ro, some 0⟩, ⟨"CFG_REJECT", 0, 0, .w1c, some 0⟩]
/-- FOX.REKEYQ: R361 of 12_keys_and_cipher_engines.md. -/
def fields_FOX_REKEYQ : List Field := [⟨"EMPTY", 63, 63, .ro, some 1⟩, ⟨"OVF", 62, 62, .w1c, some 0⟩, ⟨"INDEX", 15, 0, .ro, some 0⟩]
/-- FOX.KAT: R366 of 12_keys_and_cipher_engines.md. -/
def fields_FOX_KAT : List Field := [⟨"PFAIL", 63, 56, .ro, some 0⟩, ⟨"GFAIL", 55, 24, .ro, some 0⟩, ⟨"MCFAIL", 23, 0, .ro, some 0⟩]
/-- FOX.ALARM.STAT: R371 of 12_keys_and_cipher_engines.md. -/
def fields_ALARM_STAT : List Field := [⟨"NEXT", 18, 16, .roRws, some 0⟩, ⟨"CLASSA", 8, 8, .roRws, some 0⟩, ⟨"SEEN", 7, 1, .w1cRws, some 0⟩]
/-- FOX.ALARM.POLICY: R371 of 12_keys_and_cipher_engines.md. -/
def fields_ALARM_POLICY : List Field := [⟨"SEALERASE", 3, 3, .ro, none⟩, ⟨"DEBUG_A", 2, 2, .ro, none⟩, ⟨"TEMP_A", 1, 1, .ro, none⟩, ⟨"SUPPLY_A", 0, 0, .ro, none⟩]
/-- FOX.ALARM.LOG[n].TICK: R371 of 12_keys_and_cipher_engines.md. -/
def fields_ALARM_LOG_TICK : List Field := [⟨"TICK", 63, 0, .roRws, some 0⟩]
/-- FOX.ALARM.LOG[n].INFO: R371 of 12_keys_and_cipher_engines.md. -/
def fields_ALARM_LOG_INFO : List Field := [⟨"DETAIL", 63, 32, .roRws, some 0⟩, ⟨"CLASSA", 8, 8, .roRws, some 0⟩, ⟨"SOURCE", 7, 0, .roRws, some 0⟩]
/-- SEC.CFG: R373 of 13_isolated_worlds.md. -/
def fields_SEC_CFG : List Field := [⟨"MONVALID", 7, 7, .ro, some 0⟩, ⟨"MONEID", 6, 0, .ro, some 0⟩]
/-- SEC.GRPWORLD: R391 of 13_isolated_worlds.md. -/
def fields_SEC_GRPWORLD : List Field := [⟨"SEC", 31, 0, .rwl, some 0⟩]
/-- SEC.IDRANGE: R391 of 13_isolated_worlds.md. -/
def fields_SEC_IDRANGE : List Field := [⟨"HI", 43, 32, .rwl, some 0⟩, ⟨"LO", 11, 0, .rwl, some 0⟩]
/-- SEC.DENY: R393 of 13_isolated_worlds.md. -/
def fields_SEC_DENY : List Field := [⟨"COUNT", 63, 32, .rws, some 0⟩, ⟨"KIND", 31, 24, .ro, some 0⟩, ⟨"DIE", 20, 16, .ro, some 0⟩, ⟨"WHO", 15, 0, .ro, some 0⟩]
/-- SEC.SRCWORLD[k]: R391 of 13_isolated_worlds.md. -/
def fields_SEC_SRCWORLD : List Field := [⟨"SEC", 63, 0, .rwl, some 0⟩]
/-- SEC.WDOG.CTL: R395 of 13_isolated_worlds.md. -/
def fields_WDOG_CTL : List Field := [⟨"FIRED", 32, 32, .w1cRws, some 0⟩, ⟨"PERIOD", 31, 0, .ro, some 0⟩]
/-- SEC.WDOG.KICK: R395 of 13_isolated_worlds.md. -/
def fields_WDOG_KICK : List Field := [⟨"KICK", 0, 0, .wo, some 0⟩]
/-- SEC.ERT[n].BASE: R374 of 13_isolated_worlds.md. -/
def fields_ERT_BASE : List Field := [⟨"EN", 63, 63, .ro, some 0⟩, ⟨"EID", 62, 56, .ro, some 0⟩, ⟨"PART", 55, 52, .ro, some 0⟩, ⟨"BASE", 51, 21, .ro, some 0⟩]
/-- SEC.ERT[n].LIMIT: R374 of 13_isolated_worlds.md. -/
def fields_ERT_LIMIT : List Field := [⟨"LIMIT", 51, 21, .ro, some 0⟩]
/-- SEC.ENC[e].STAT: R377 of 13_isolated_worlds.md. -/
def fields_ENC_STAT : List Field := [⟨"STATE", 63, 62, .ro, some 0⟩, ⟨"NTHR", 51, 48, .ro, some 0⟩, ⟨"TLOST", 47, 32, .ro, some 0⟩, ⟨"TSUSP", 31, 16, .ro, some 0⟩, ⟨"TBUSY", 15, 0, .ro, some 0⟩]
/-- SEC.ENC[e].ENTRY: R377 of 13_isolated_worlds.md. -/
def fields_ENC_ENTRY : List Field := [⟨"ENTRY", 63, 0, .ro, some 0⟩]
/-- SEC.ENC[e].TSB: R377 of 13_isolated_worlds.md. -/
def fields_ENC_TSB : List Field := [⟨"TSB", 51, 12, .ro, some 0⟩]
/-- FOX.START: R412 of 14_start_image_and_identity.md. -/
def fields_FOX_START : List Field := [⟨"ATTEMPTS", 63, 48, .roRws, some 0⟩, ⟨"MCODE", 47, 40, .rw, some 0⟩, ⟨"WARM", 34, 34, .w1s, some 0⟩, ⟨"DRAMRDY", 33, 33, .w1s, some 0⟩, ⟨"MFAIL", 32, 32, .w1s, some 0⟩, ⟨"PREFB", 10, 10, .rwRws, some 0⟩, ⟨"SLOTB", 9, 9, .ro, some 0⟩, ⟨"CAUSE", 7, 4, .ro, some 0⟩, ⟨"STEP", 3, 0, .ro, some 0⟩]
/-- FOX.CFGLOCK: R413 of 14_start_image_and_identity.md. -/
def fields_FOX_CFGLOCK : List Field := [⟨"LOCK", 0, 0, .w1s, some 0⟩]
/-- FOX.MEAS[n].W[k]: R414 of 14_start_image_and_identity.md. -/
def fields_FOX_MEAS : List Field := [⟨"W", 63, 0, .ro, some 0⟩]
/-- FOX.DEVID.LO: R417 of 14_start_image_and_identity.md. -/
def fields_DEVID_LO : List Field := [⟨"ID", 63, 0, .ro, some 0⟩]
/-- FOX.DEVID.HI: R417 of 14_start_image_and_identity.md. -/
def fields_DEVID_HI : List Field := [⟨"ID", 63, 0, .ro, some 0⟩]
/-- FOX.DEVID.STAT: R417 of 14_start_image_and_identity.md. -/
def fields_DEVID_STAT : List Field := [⟨"VALID", 0, 0, .ro, some 0⟩]
/-- WEIR.DOM[D].STAT: R424 of 15_weir_governor_and_supply.md. -/
def fields_DOM_STAT : List Field := [⟨"GATES", 63, 32, .roRws, some 0⟩, ⟨"HOLD", 8, 8, .ro, some 0⟩, ⟨"STATE", 2, 0, .ro, some 3⟩]
/-- WEIR.CFG: R441 of 15_weir_governor_and_supply.md. -/
def fields_WEIR_CFG : List Field := [⟨"TLR", 63, 44, .ro, some 1838⟩, ⟨"AVSRAIL", 43, 40, .ro, some 0⟩, ⟨"VMAX", 39, 30, .ro, some 950⟩, ⟨"VMIN", 29, 20, .ro, some 600⟩, ⟨"PCEILMAX", 19, 10, .ro, some 600⟩, ⟨"SLEW", 9, 0, .ro, some 390⟩]
/-- WEIR.BOUND: R442 of 15_weir_governor_and_supply.md. -/
def fields_WEIR_BOUND : List Field := [⟨"POLICY", 25, 25, .rw, some 0⟩, ⟨"TJLIM", 23, 16, .rw, some 100⟩, ⟨"PCEIL", 9, 0, .rw, some 600⟩]
/-- WEIR.STAT: R445 of 15_weir_governor_and_supply.md. -/
def fields_WEIR_STAT : List Field := [⟨"CFG_REJECT", 63, 63, .w1c, some 0⟩, ⟨"SPATE", 62, 61, .ro, some 0⟩, ⟨"AVSOK", 60, 60, .ro, some 0⟩, ⟨"PWR", 59, 48, .ro, some 0⟩, ⟨"IREAD", 47, 39, .ro, some 0⟩, ⟨"VREAD", 38, 29, .ro, some 0⟩, ⟨"VSET", 28, 19, .ro, some 0⟩, ⟨"HOTTJ", 15, 0, .ro, some 0⟩]
/-- WEIR.EVT: R445 of 15_weir_governor_and_supply.md. -/
def fields_WEIR_EVT : List Field := [⟨"DOMDONE", 7, 7, .w1c, some 0⟩, ⟨"IODHOT", 6, 6, .w1c, some 0⟩, ⟨"HALT", 5, 5, .w1c, some 0⟩, ⟨"AVSERR", 4, 4, .w1c, some 0⟩, ⟨"VRHOT", 3, 3, .w1c, some 0⟩, ⟨"CEIL", 2, 2, .w1c, some 0⟩, ⟨"THERM", 1, 1, .w1c, some 0⟩, ⟨"FLOORMISS", 0, 0, .w1c, some 0⟩]
/-- WEIR.EVTEN: R445 of 15_weir_governor_and_supply.md. -/
def fields_WEIR_EVTEN : List Field := [⟨"FLOORMISS", 0, 0, .rw, some 0⟩, ⟨"THERM", 1, 1, .rw, some 0⟩, ⟨"CEIL", 2, 2, .rw, some 0⟩, ⟨"VRHOT", 3, 3, .rw, some 0⟩, ⟨"AVSERR", 4, 4, .rw, some 0⟩, ⟨"HALT", 5, 5, .rw, some 0⟩, ⟨"IODHOT", 6, 6, .rw, some 0⟩, ⟨"DOMDONE", 7, 7, .rw, some 0⟩]
/-- WEIR.DOMCMD: R444 of 15_weir_governor_and_supply.md. -/
def fields_WEIR_DOMCMD : List Field := [⟨"GO", 63, 63, .wo, some 0⟩, ⟨"BUSY", 62, 62, .ro, some 0⟩, ⟨"OP", 57, 56, .rw, some 0⟩, ⟨"ST", 23, 16, .ro, some 0⟩, ⟨"DOM", 8, 0, .rw, some 0⟩]
/-- WEIR.TILE[n].REQ: R443 of 15_weir_governor_and_supply.md. -/
def fields_WEIR_TILE_REQ : List Field := [⟨"HINT", 17, 16, .rw, some 0⟩, ⟨"FLOOR", 15, 0, .rw, some 0⟩]
/-- ERRBANK.STAT: R455 of 16_errors_and_integrity.md. -/
def fields_EB_STAT : List Field := [⟨"OVF", 10, 8, .w1cRws, some 0⟩, ⟨"V", 2, 0, .w1cRws, some 0⟩]
/-- ERRBANK.REC[i].W[k]: R455 of 16_errors_and_integrity.md. -/
def fields_EB_REC : List Field := [⟨"W", 63, 0, .roRws, some 0⟩]
/-- ERR.RINGSTAT: R457 of 16_errors_and_integrity.md. -/
def fields_ERR_RINGSTAT : List Field := [⟨"LOST", 63, 48, .roRws, some 0⟩, ⟨"COUNT", 20, 16, .roRws, some 0⟩, ⟨"TAIL", 3, 0, .roRws, some 0⟩]
/-- ERR.RINGPOP: R457 of 16_errors_and_integrity.md. -/
def fields_ERR_RINGPOP : List Field := [⟨"POP", 0, 0, .wo, some 0⟩]
/-- ERR.CFG: R457 of 16_errors_and_integrity.md. -/
def fields_ERR_CFG : List Field := [⟨"FATALWARM", 23, 16, .rwl, some 0⟩, ⟨"INJEN", 8, 8, .rwl, some 0⟩, ⟨"EVTUCR", 2, 2, .rw, some 1⟩, ⟨"EVTUCNA", 1, 1, .rw, some 1⟩, ⟨"EVTCE", 0, 0, .rw, some 0⟩]
/-- ERR.RING[i].W[k]: R457 of 16_errors_and_integrity.md. -/
def fields_ERR_RING : List Field := [⟨"W", 63, 0, .roRws, some 0⟩]
/-- ERR.SUMMARY: R457 of 16_errors_and_integrity.md. -/
def fields_ERR_SUMMARY : List Field := [⟨"RING", 16, 0, .ro, some 0⟩]
/-- ERR.FATAL: R472 of 16_errors_and_integrity.md. -/
def fields_ERR_FATAL : List Field := [⟨"V", 63, 63, .roRws, some 0⟩, ⟨"COLD", 62, 62, .roRws, some 0⟩, ⟨"DIE", 36, 32, .roRws, some 0⟩, ⟨"EVENT", 15, 0, .roRws, some 0⟩]
/-- ARR[a].CECNT: R460 of 16_errors_and_integrity.md. -/
def fields_ARR_CECNT : List Field := [⟨"COUNT", 31, 0, .w1cRws, some 0⟩]
/-- ARR[a].FLIP: R474 of 16_errors_and_integrity.md. -/
def fields_ARR_FLIP : List Field := [⟨"ARM", 63, 63, .rw, some 0⟩, ⟨"CMASK", 8, 0, .rw, some 0⟩]
/-- ARR[a].FLIPD: R474 of 16_errors_and_integrity.md. -/
def fields_ARR_FLIPD : List Field := [⟨"DMASK", 63, 0, .rw, some 0⟩]
/-- ARR[a].ADDR[j]: R460 of 16_errors_and_integrity.md. -/
def fields_ARR_ADDR : List Field := [⟨"V", 63, 63, .roRws, some 0⟩, ⟨"CNT", 62, 56, .roRws, some 0⟩, ⟨"KIND", 55, 55, .roRws, some 0⟩, ⟨"LOC", 51, 6, .roRws, some 0⟩]
/-- PMU.CTL: R488 of 17_performance_monitoring.md. -/
def fields_PMU_CTL : List Field := [⟨"OVF", 11, 8, .w1c, some 0⟩, ⟨"FRZOVF", 1, 1, .rw, some 0⟩, ⟨"EN", 0, 0, .rw, some 0⟩]
/-- PMU.MSI: R488 of 17_performance_monitoring.md. -/
def fields_PMU_MSI : List Field := [⟨"EN", 63, 63, .rw, some 0⟩, ⟨"HART", 41, 32, .rw, some 0⟩, ⟨"FILE", 18, 16, .rw, some 0⟩, ⟨"IDENT", 10, 0, .rw, some 0⟩]
/-- PMU.EVT[i]: R488 of 17_performance_monitoring.md. -/
def fields_PMU_EVT : List Field := [⟨"EDGE", 24, 24, .rw, some 0⟩, ⟨"THRESH", 23, 16, .rw, some 0⟩, ⟨"EVENT", 15, 0, .rw, some 0⟩]
/-- PMU.CNT[i]: R488 of 17_performance_monitoring.md. -/
def fields_PMU_CNT : List Field := [⟨"COUNT", 63, 0, .rw, some 0⟩]
/-- ID.BASELINE: R502 of 18_register_map.md. -/
def fields_ID_BASELINE : List Field := [⟨"PART", 63, 32, .ro, some 37462⟩, ⟨"BASE", 31, 16, .ro, some 1⟩]
/-- ID.STEPPING: R502 of 18_register_map.md. -/
def fields_ID_STEPPING : List Field := [⟨"STEP", 7, 0, .ro, none⟩]
/-- ID.FEATURE_AVAIL: R503 of 18_register_map.md. -/
def fields_ID_FEATURE_AVAIL : List Field := [⟨"AVAIL", 63, 0, .ro, none⟩]
/-- ID.FEATURE_LOCK: R503 of 18_register_map.md. -/
def fields_ID_FEATURE_LOCK : List Field := [⟨"LOCKED", 63, 63, .ro, some 1⟩]

/-- Rows 0 to 11 of the register map (R492 to R496 and the offsets of each chapter). -/
def families0 : List Family := [
  ⟨.SAD_RANGE_BASE, 0x1000040000, [(32, 0x10)], fields_SAD_RANGE_BASE⟩,
  ⟨.SAD_RANGE_LIMIT, 0x1000040008, [(32, 0x10)], fields_SAD_RANGE_LIMIT⟩,
  ⟨.TMON_PROC, 0x300000, [(16, 0x100000000), (16, 0x1000000)], fields_TMON_PROC⟩,
  ⟨.TMON_TEMP, 0x300008, [(16, 0x100000000), (16, 0x1000000)], fields_TMON_TEMP⟩,
  ⟨.TMON_DROOP, 0x300010, [(16, 0x100000000), (16, 0x1000000)], fields_TMON_DROOP⟩,
  ⟨.TMON_RATE, 0x300018, [(16, 0x100000000), (16, 0x1000000)], fields_TMON_RATE⟩,
  ⟨.TBASE_COUNT, 0x1000020000, [], fields_TBASE_COUNT⟩,
  ⟨.TBASE_STAT, 0x1000020008, [], fields_TBASE_STAT⟩,
  ⟨.TBRX_STATUS, 0x10020000, [(16, 0x100000000)], fields_TBRX_STATUS⟩,
  ⟨.HART_START, 0x0, [(16, 0x100000000), (16, 0x1000000), (4, 0x10)], fields_HART_START⟩,
  ⟨.HART_STAT, 0x8, [(16, 0x100000000), (16, 0x1000000), (4, 0x10)], fields_HART_STAT⟩,
  ⟨.CORECTL_STATUS, 0x40, [(16, 0x100000000), (16, 0x1000000)], fields_CORECTL_STATUS⟩]
/-- Rows 12 to 23 of the register map (R492 to R496 and the offsets of each chapter). -/
def families1 : List Family := [
  ⟨.L3_PARTRANGE_BASE, 0x10000200, [(16, 0x100000000), (8, 0x10)], fields_L3_PARTRANGE_BASE⟩,
  ⟨.L3_PARTRANGE_LIMIT, 0x10000208, [(16, 0x100000000), (8, 0x10)], fields_L3_PARTRANGE_LIMIT⟩,
  ⟨.L3_PARTWAYS, 0x10000100, [(16, 0x100000000), (16, 0x8)], fields_L3_PARTWAYS⟩,
  ⟨.L3_WAYLOCK, 0x10000010, [(16, 0x100000000)], fields_L3_WAYLOCK⟩,
  ⟨.L3_WAYOWNER, 0x10000018, [(16, 0x100000000)], fields_L3_WAYOWNER⟩,
  ⟨.L2CTL_CTL, 0x400000, [(16, 0x100000000), (16, 0x1000000)], fields_L2CTL_CTL⟩,
  ⟨.L2CTL_STATUS, 0x400008, [(16, 0x100000000), (16, 0x1000000)], fields_L2CTL_STATUS⟩,
  ⟨.L3_CTL, 0x10000000, [(16, 0x100000000)], fields_L3_CTL⟩,
  ⟨.L3_STATUS, 0x10000008, [(16, 0x100000000)], fields_L3_STATUS⟩,
  ⟨.HOME_CFG, 0x10000a0000, [], fields_HOME_CFG⟩,
  ⟨.HOME_TRKSTAT, 0x10000a0100, [(4, 0x10)], fields_HOME_TRKSTAT⟩,
  ⟨.RLINK_FAULTMAP, 0x10000b0010, [(16, 0x1000)], fields_RLINK_FAULTMAP⟩]
/-- Rows 24 to 35 of the register map (R492 to R496 and the offsets of each chapter). -/
def families2 : List Family := [
  ⟨.RILL_FAULTMAP, 0x10010000, [(16, 0x100000000)], fields_RILL_FAULTMAP⟩,
  ⟨.FABRIC_CHKCFG, 0x1000010000, [], fields_FABRIC_CHKCFG⟩,
  ⟨.FABRIC_COPY, 0x10030000, [(16, 0x100000000)], fields_FABRIC_COPY⟩,
  ⟨.CHK_CTL, 0x500000, [(16, 0x100000000), (16, 0x1000000)], fields_CHK_CTL⟩,
  ⟨.CHK_CTL, 0x10220ff0, [(16, 0x100000000), (6, 0x2000)], fields_CHK_CTL⟩,
  ⟨.CHK_CTL, 0x1000100ff0, [(4, 0x2000)], fields_CHK_CTL⟩,
  ⟨.CHK_CTL, 0x1000120ff0, [(40, 0x2000)], fields_CHK_CTL⟩,
  ⟨.CHK_CTL, 0x1000180ff0, [(40, 0x2000)], fields_CHK_CTL⟩,
  ⟨.CHK_CTL, 0x10001e0ff0, [(10, 0x2000)], fields_CHK_CTL⟩,
  ⟨.CHK_RUN, 0x500008, [(16, 0x100000000), (16, 0x1000000)], fields_CHK_RUN⟩,
  ⟨.CHK_RUN, 0x10220ff8, [(16, 0x100000000), (6, 0x2000)], fields_CHK_RUN⟩,
  ⟨.CHK_RUN, 0x1000100ff8, [(4, 0x2000)], fields_CHK_RUN⟩]
/-- Rows 36 to 47 of the register map (R492 to R496 and the offsets of each chapter). -/
def families3 : List Family := [
  ⟨.CHK_RUN, 0x1000120ff8, [(40, 0x2000)], fields_CHK_RUN⟩,
  ⟨.CHK_RUN, 0x1000180ff8, [(40, 0x2000)], fields_CHK_RUN⟩,
  ⟨.CHK_RUN, 0x10001e0ff8, [(10, 0x2000)], fields_CHK_RUN⟩,
  ⟨.CHK_DATA, 0x500010, [(16, 0x100000000), (16, 0x1000000)], fields_CHK_DATA⟩,
  ⟨.CHK_DATA, 0x10221000, [(16, 0x100000000), (6, 0x2000)], fields_CHK_DATA⟩,
  ⟨.CHK_DATA, 0x1000101000, [(4, 0x2000)], fields_CHK_DATA⟩,
  ⟨.CHK_DATA, 0x1000121000, [(40, 0x2000)], fields_CHK_DATA⟩,
  ⟨.CHK_DATA, 0x1000181000, [(40, 0x2000)], fields_CHK_DATA⟩,
  ⟨.CHK_DATA, 0x10001e1000, [(10, 0x2000)], fields_CHK_DATA⟩,
  ⟨.CHK_DATAN, 0x500018, [(16, 0x100000000), (16, 0x1000000)], fields_CHK_DATAN⟩,
  ⟨.CHK_DATAN, 0x10221008, [(16, 0x100000000), (6, 0x2000)], fields_CHK_DATAN⟩,
  ⟨.CHK_DATAN, 0x1000101008, [(4, 0x2000)], fields_CHK_DATAN⟩]
/-- Rows 48 to 59 of the register map (R492 to R496 and the offsets of each chapter). -/
def families4 : List Family := [
  ⟨.CHK_DATAN, 0x1000121008, [(40, 0x2000)], fields_CHK_DATAN⟩,
  ⟨.CHK_DATAN, 0x1000181008, [(40, 0x2000)], fields_CHK_DATAN⟩,
  ⟨.CHK_DATAN, 0x10001e1008, [(10, 0x2000)], fields_CHK_DATAN⟩,
  ⟨.RLINK_STAT, 0x10000b0000, [(16, 0x1000)], fields_RLINK_STAT⟩,
  ⟨.RLINK_ERRCNT, 0x10000b0008, [(16, 0x1000)], fields_RLINK_ERRCNT⟩,
  ⟨.RLINK_RESET, 0x10000b0018, [(16, 0x1000)], fields_RLINK_RESET⟩,
  ⟨.RLINK_CTL, 0x10000b0020, [(16, 0x1000)], fields_RLINK_CTL⟩,
  ⟨.MC_GEOM, 0x1000200010, [(24, 0x10000)], fields_MC_GEOM⟩,
  ⟨.MC_CTL, 0x1000200000, [(24, 0x10000)], fields_MC_CTL⟩,
  ⟨.MC_MRSEQ, 0x1000200100, [(24, 0x10000), (64, 0x8)], fields_MC_MRSEQ⟩,
  ⟨.ILV_SET_BASE, 0x1000050000, [(16, 0x20)], fields_ILV_SET_BASE⟩,
  ⟨.ILV_SET_CFG, 0x1000050008, [(16, 0x20)], fields_ILV_SET_CFG⟩]
/-- Rows 60 to 71 of the register map (R492 to R496 and the offsets of each chapter). -/
def families5 : List Family := [
  ⟨.ILV_STATUS, 0x1000050200, [], fields_ILV_STATUS⟩,
  ⟨.MC_DLY, 0x1000201000, [(24, 0x10000), (3, 0x280), (2, 0x140), (4, 0x50), (10, 0x8)], fields_MC_DLY⟩,
  ⟨.MC_CADLY, 0x1000201800, [(24, 0x10000), (3, 0x20), (2, 0x10), (2, 0x8)], fields_MC_CADLY⟩,
  ⟨.MC_BANDCTL, 0x1000200028, [(24, 0x10000)], fields_MC_BANDCTL⟩,
  ⟨.MC_REFCTL, 0x1000200018, [(24, 0x10000)], fields_MC_REFCTL⟩,
  ⟨.MC_SCRUB, 0x1000200030, [(24, 0x10000)], fields_MC_SCRUB⟩,
  ⟨.MC_STATUS, 0x1000200008, [(24, 0x10000)], fields_MC_STATUS⟩,
  ⟨.MC_CECNT, 0x1000202000, [(24, 0x10000), (16, 0x8)], fields_MC_CECNT⟩,
  ⟨.Q_BASE, 0x1000900000, [(256, 0x1000), (32, 0x80)], fields_Q_BASE⟩,
  ⟨.Q_CFG, 0x1000900008, [(256, 0x1000), (32, 0x80)], fields_Q_CFG⟩,
  ⟨.Q_TAIL, 0x1000900010, [(256, 0x1000), (32, 0x80)], fields_Q_TAIL⟩,
  ⟨.Q_QSTAT, 0x1000900018, [(256, 0x1000), (32, 0x80)], fields_Q_QSTAT⟩]
/-- Rows 72 to 83 of the register map (R492 to R496 and the offsets of each chapter). -/
def families6 : List Family := [
  ⟨.ENG_STAT, 0x1000800000, [(8, 0x100)], fields_ENG_STAT⟩,
  ⟨.PHLOX_VFCFG, 0x1000800908, [], fields_PHLOX_VFCFG⟩,
  ⟨.PHLOX_FNWORLD, 0x1000800a00, [(4, 0x8)], fields_PHLOX_FNWORLD⟩,
  ⟨.PHLOX_MGRSTAT, 0x1000800900, [], fields_PHLOX_MGRSTAT⟩,
  ⟨.PHLOX_QBIND, 0x1000802000, [(1024, 0x8)], fields_PHLOX_QBIND⟩,
  ⟨.FN_SHARE, 0x1000804000, [(256, 0x10)], fields_FN_SHARE⟩,
  ⟨.FN_USE, 0x1000806000, [(256, 0x8)], fields_FN_USE⟩,
  ⟨.FN_RESET, 0x1000804008, [(256, 0x10)], fields_FN_RESET⟩,
  ⟨.G_CFG, 0x1000400000, [(32, 0x10000)], fields_G_CFG⟩,
  ⟨.G_STAT, 0x1000400008, [(32, 0x10000)], fields_G_STAT⟩,
  ⟨.G_CTO, 0x1000400010, [(32, 0x10000)], fields_G_CTO⟩,
  ⟨.G_IDESTAT, 0x1000400018, [(32, 0x10000)], fields_G_IDESTAT⟩]
/-- Rows 84 to 95 of the register map (R492 to R496 and the offsets of each chapter). -/
def families7 : List Family := [
  ⟨.SOCK_CFG, 0x1000030000, [], fields_SOCK_CFG⟩,
  ⟨.FOX_TRNG_STAT, 0x1000070200, [], fields_FOX_TRNG_STAT⟩,
  ⟨.FOX_SEAL, 0x1000070410, [], fields_FOX_SEAL⟩,
  ⟨.MBX_ADDR, 0x1000070100, [(3, 0x20)], fields_MBX_ADDR⟩,
  ⟨.MBX_STAT, 0x1000070108, [(3, 0x20)], fields_MBX_STAT⟩,
  ⟨.FOX_REKEYQ, 0x1000070420, [], fields_FOX_REKEYQ⟩,
  ⟨.FOX_KAT, 0x1000070400, [], fields_FOX_KAT⟩,
  ⟨.ALARM_STAT, 0x1000070300, [], fields_ALARM_STAT⟩,
  ⟨.ALARM_POLICY, 0x1000070308, [], fields_ALARM_POLICY⟩,
  ⟨.ALARM_LOG_TICK, 0x1000070380, [(8, 0x10)], fields_ALARM_LOG_TICK⟩,
  ⟨.ALARM_LOG_INFO, 0x1000070388, [(8, 0x10)], fields_ALARM_LOG_INFO⟩,
  ⟨.SEC_CFG, 0x1000080000, [], fields_SEC_CFG⟩]
/-- Rows 96 to 107 of the register map (R492 to R496 and the offsets of each chapter). -/
def families8 : List Family := [
  ⟨.SEC_GRPWORLD, 0x1000080008, [], fields_SEC_GRPWORLD⟩,
  ⟨.SEC_IDRANGE, 0x1000080010, [], fields_SEC_IDRANGE⟩,
  ⟨.SEC_DENY, 0x1000080018, [], fields_SEC_DENY⟩,
  ⟨.SEC_SRCWORLD, 0x1000080020, [(4, 0x8)], fields_SEC_SRCWORLD⟩,
  ⟨.WDOG_CTL, 0x1000080100, [], fields_WDOG_CTL⟩,
  ⟨.WDOG_KICK, 0x1000080108, [], fields_WDOG_KICK⟩,
  ⟨.ERT_BASE, 0x1000081000, [(128, 0x10)], fields_ERT_BASE⟩,
  ⟨.ERT_LIMIT, 0x1000081008, [(128, 0x10)], fields_ERT_LIMIT⟩,
  ⟨.ENC_STAT, 0x1000082020, [(64, 0x20)], fields_ENC_STAT⟩,
  ⟨.ENC_ENTRY, 0x1000082028, [(64, 0x20)], fields_ENC_ENTRY⟩,
  ⟨.ENC_TSB, 0x1000082030, [(64, 0x20)], fields_ENC_TSB⟩,
  ⟨.FOX_START, 0x1000070500, [], fields_FOX_START⟩]
/-- Rows 108 to 119 of the register map (R492 to R496 and the offsets of each chapter). -/
def families9 : List Family := [
  ⟨.FOX_CFGLOCK, 0x1000070508, [], fields_FOX_CFGLOCK⟩,
  ⟨.FOX_MEAS, 0x1000070600, [(16, 0x40), (8, 0x8)], fields_FOX_MEAS⟩,
  ⟨.DEVID_LO, 0x1000070a00, [], fields_DEVID_LO⟩,
  ⟨.DEVID_HI, 0x1000070a08, [], fields_DEVID_HI⟩,
  ⟨.DEVID_STAT, 0x1000070a10, [], fields_DEVID_STAT⟩,
  ⟨.DOM_STAT, 0x1000092000, [(404, 0x8)], fields_DOM_STAT⟩,
  ⟨.WEIR_CFG, 0x1000090000, [], fields_WEIR_CFG⟩,
  ⟨.WEIR_BOUND, 0x1000090008, [], fields_WEIR_BOUND⟩,
  ⟨.WEIR_STAT, 0x1000090010, [], fields_WEIR_STAT⟩,
  ⟨.WEIR_EVT, 0x1000090018, [], fields_WEIR_EVT⟩,
  ⟨.WEIR_EVTEN, 0x1000090020, [], fields_WEIR_EVTEN⟩,
  ⟨.WEIR_DOMCMD, 0x1000090028, [], fields_WEIR_DOMCMD⟩]
/-- Rows 120 to 131 of the register map (R492 to R496 and the offsets of each chapter). -/
def families10 : List Family := [
  ⟨.WEIR_TILE_REQ, 0x1000091000, [(256, 0x8)], fields_WEIR_TILE_REQ⟩,
  ⟨.EB_STAT, 0x600e00, [(16, 0x100000000), (16, 0x1000000)], fields_EB_STAT⟩,
  ⟨.EB_STAT, 0x10001e00, [(16, 0x100000000), (4, 0x1000)], fields_EB_STAT⟩,
  ⟨.EB_STAT, 0x10010e00, [(16, 0x100000000)], fields_EB_STAT⟩,
  ⟨.EB_STAT, 0x10020e00, [(16, 0x100000000)], fields_EB_STAT⟩,
  ⟨.EB_STAT, 0x10000a1e00, [(4, 0x1000)], fields_EB_STAT⟩,
  ⟨.EB_STAT, 0x10000b0e00, [(16, 0x1000)], fields_EB_STAT⟩,
  ⟨.EB_STAT, 0x1000200e00, [(24, 0x10000)], fields_EB_STAT⟩,
  ⟨.EB_STAT, 0x1000400e00, [(32, 0x10000)], fields_EB_STAT⟩,
  ⟨.EB_STAT, 0x1000040e00, [], fields_EB_STAT⟩,
  ⟨.EB_STAT, 0x1000060e00, [], fields_EB_STAT⟩,
  ⟨.EB_STAT, 0x1000800e00, [], fields_EB_STAT⟩]
/-- Rows 132 to 143 of the register map (R492 to R496 and the offsets of each chapter). -/
def families11 : List Family := [
  ⟨.EB_STAT, 0x1000070e00, [], fields_EB_STAT⟩,
  ⟨.EB_STAT, 0x1000090e00, [], fields_EB_STAT⟩,
  ⟨.EB_STAT, 0x1000080e00, [], fields_EB_STAT⟩,
  ⟨.EB_REC, 0x600e40, [(16, 0x100000000), (16, 0x1000000), (3, 0x40), (8, 0x8)], fields_EB_REC⟩,
  ⟨.EB_REC, 0x10001e40, [(16, 0x100000000), (4, 0x1000), (3, 0x40), (8, 0x8)], fields_EB_REC⟩,
  ⟨.EB_REC, 0x10010e40, [(16, 0x100000000), (3, 0x40), (8, 0x8)], fields_EB_REC⟩,
  ⟨.EB_REC, 0x10020e40, [(16, 0x100000000), (3, 0x40), (8, 0x8)], fields_EB_REC⟩,
  ⟨.EB_REC, 0x10000a1e40, [(4, 0x1000), (3, 0x40), (8, 0x8)], fields_EB_REC⟩,
  ⟨.EB_REC, 0x10000b0e40, [(16, 0x1000), (3, 0x40), (8, 0x8)], fields_EB_REC⟩,
  ⟨.EB_REC, 0x1000200e40, [(24, 0x10000), (3, 0x40), (8, 0x8)], fields_EB_REC⟩,
  ⟨.EB_REC, 0x1000400e40, [(32, 0x10000), (3, 0x40), (8, 0x8)], fields_EB_REC⟩,
  ⟨.EB_REC, 0x1000040e40, [(3, 0x40), (8, 0x8)], fields_EB_REC⟩]
/-- Rows 144 to 155 of the register map (R492 to R496 and the offsets of each chapter). -/
def families12 : List Family := [
  ⟨.EB_REC, 0x1000060e40, [(3, 0x40), (8, 0x8)], fields_EB_REC⟩,
  ⟨.EB_REC, 0x1000800e40, [(3, 0x40), (8, 0x8)], fields_EB_REC⟩,
  ⟨.EB_REC, 0x1000070e40, [(3, 0x40), (8, 0x8)], fields_EB_REC⟩,
  ⟨.EB_REC, 0x1000090e40, [(3, 0x40), (8, 0x8)], fields_EB_REC⟩,
  ⟨.EB_REC, 0x1000080e40, [(3, 0x40), (8, 0x8)], fields_EB_REC⟩,
  ⟨.ERR_RINGSTAT, 0x10100000, [(16, 0x100000000)], fields_ERR_RINGSTAT⟩,
  ⟨.ERR_RINGSTAT, 0x10000c0000, [], fields_ERR_RINGSTAT⟩,
  ⟨.ERR_RINGPOP, 0x10100008, [(16, 0x100000000)], fields_ERR_RINGPOP⟩,
  ⟨.ERR_RINGPOP, 0x10000c0008, [], fields_ERR_RINGPOP⟩,
  ⟨.ERR_CFG, 0x10100010, [(16, 0x100000000)], fields_ERR_CFG⟩,
  ⟨.ERR_CFG, 0x10000c0010, [], fields_ERR_CFG⟩,
  ⟨.ERR_RING, 0x10100400, [(16, 0x100000000), (16, 0x40), (8, 0x8)], fields_ERR_RING⟩]
/-- Rows 156 to 167 of the register map (R492 to R496 and the offsets of each chapter). -/
def families13 : List Family := [
  ⟨.ERR_RING, 0x10000c0400, [(16, 0x40), (8, 0x8)], fields_ERR_RING⟩,
  ⟨.ERR_SUMMARY, 0x10000c0018, [], fields_ERR_SUMMARY⟩,
  ⟨.ERR_FATAL, 0x10000c0020, [], fields_ERR_FATAL⟩,
  ⟨.ARR_CECNT, 0x10110000, [(16, 0x100000000), (141, 0x80)], fields_ARR_CECNT⟩,
  ⟨.ARR_CECNT, 0x10000d0000, [(153, 0x80)], fields_ARR_CECNT⟩,
  ⟨.ARR_FLIP, 0x10110008, [(16, 0x100000000), (141, 0x80)], fields_ARR_FLIP⟩,
  ⟨.ARR_FLIP, 0x10000d0008, [(153, 0x80)], fields_ARR_FLIP⟩,
  ⟨.ARR_FLIPD, 0x10110010, [(16, 0x100000000), (141, 0x80)], fields_ARR_FLIPD⟩,
  ⟨.ARR_FLIPD, 0x10000d0010, [(153, 0x80)], fields_ARR_FLIPD⟩,
  ⟨.ARR_ADDR, 0x10110040, [(16, 0x100000000), (141, 0x80), (8, 0x8)], fields_ARR_ADDR⟩,
  ⟨.ARR_ADDR, 0x10000d0040, [(153, 0x80), (8, 0x8)], fields_ARR_ADDR⟩,
  ⟨.PMU_CTL, 0x10001d00, [(16, 0x100000000), (4, 0x1000)], fields_PMU_CTL⟩]
/-- Rows 168 to 179 of the register map (R492 to R496 and the offsets of each chapter). -/
def families14 : List Family := [
  ⟨.PMU_CTL, 0x10000a1d00, [(4, 0x1000)], fields_PMU_CTL⟩,
  ⟨.PMU_CTL, 0x1000200d00, [(24, 0x10000)], fields_PMU_CTL⟩,
  ⟨.PMU_CTL, 0x1000400d00, [(32, 0x10000)], fields_PMU_CTL⟩,
  ⟨.PMU_CTL, 0x10010d00, [(16, 0x100000000)], fields_PMU_CTL⟩,
  ⟨.PMU_CTL, 0x10000b0d00, [(16, 0x1000)], fields_PMU_CTL⟩,
  ⟨.PMU_CTL, 0x1000800d00, [], fields_PMU_CTL⟩,
  ⟨.PMU_MSI, 0x10001d08, [(16, 0x100000000), (4, 0x1000)], fields_PMU_MSI⟩,
  ⟨.PMU_MSI, 0x10000a1d08, [(4, 0x1000)], fields_PMU_MSI⟩,
  ⟨.PMU_MSI, 0x1000200d08, [(24, 0x10000)], fields_PMU_MSI⟩,
  ⟨.PMU_MSI, 0x1000400d08, [(32, 0x10000)], fields_PMU_MSI⟩,
  ⟨.PMU_MSI, 0x10010d08, [(16, 0x100000000)], fields_PMU_MSI⟩,
  ⟨.PMU_MSI, 0x10000b0d08, [(16, 0x1000)], fields_PMU_MSI⟩]
/-- Rows 180 to 191 of the register map (R492 to R496 and the offsets of each chapter). -/
def families15 : List Family := [
  ⟨.PMU_MSI, 0x1000800d08, [], fields_PMU_MSI⟩,
  ⟨.PMU_EVT, 0x10001d20, [(16, 0x100000000), (4, 0x1000), (4, 0x10)], fields_PMU_EVT⟩,
  ⟨.PMU_EVT, 0x10000a1d20, [(4, 0x1000), (4, 0x10)], fields_PMU_EVT⟩,
  ⟨.PMU_EVT, 0x1000200d20, [(24, 0x10000), (4, 0x10)], fields_PMU_EVT⟩,
  ⟨.PMU_EVT, 0x1000400d20, [(32, 0x10000), (4, 0x10)], fields_PMU_EVT⟩,
  ⟨.PMU_EVT, 0x10010d20, [(16, 0x100000000), (4, 0x10)], fields_PMU_EVT⟩,
  ⟨.PMU_EVT, 0x10000b0d20, [(16, 0x1000), (4, 0x10)], fields_PMU_EVT⟩,
  ⟨.PMU_EVT, 0x1000800d20, [(4, 0x10)], fields_PMU_EVT⟩,
  ⟨.PMU_CNT, 0x10001d28, [(16, 0x100000000), (4, 0x1000), (4, 0x10)], fields_PMU_CNT⟩,
  ⟨.PMU_CNT, 0x10000a1d28, [(4, 0x1000), (4, 0x10)], fields_PMU_CNT⟩,
  ⟨.PMU_CNT, 0x1000200d28, [(24, 0x10000), (4, 0x10)], fields_PMU_CNT⟩,
  ⟨.PMU_CNT, 0x1000400d28, [(32, 0x10000), (4, 0x10)], fields_PMU_CNT⟩]
/-- Rows 192 to 198 of the register map (R492 to R496 and the offsets of each chapter). -/
def families16 : List Family := [
  ⟨.PMU_CNT, 0x10010d28, [(16, 0x100000000), (4, 0x10)], fields_PMU_CNT⟩,
  ⟨.PMU_CNT, 0x10000b0d28, [(16, 0x1000), (4, 0x10)], fields_PMU_CNT⟩,
  ⟨.PMU_CNT, 0x1000800d28, [(4, 0x10)], fields_PMU_CNT⟩,
  ⟨.ID_BASELINE, 0x1000000000, [], fields_ID_BASELINE⟩,
  ⟨.ID_STEPPING, 0x1000000008, [], fields_ID_STEPPING⟩,
  ⟨.ID_FEATURE_AVAIL, 0x1000000010, [], fields_ID_FEATURE_AVAIL⟩,
  ⟨.ID_FEATURE_LOCK, 0x1000000018, [], fields_ID_FEATURE_LOCK⟩]
/-- Every register family of the window. -/
def families : List Family := families0 ++ families1 ++ families2 ++ families3 ++ families4 ++ families5 ++ families6 ++ families7 ++ families8 ++ families9 ++ families10 ++ families11 ++ families12 ++ families13 ++ families14 ++ families15 ++ families16

/-- The offset of compute die d's space (R5, R493). -/
def dieBase (d : Nat) : Nat := d * 0x100000000

/-- The offset of package tile n's space (R5): die n / 16, tile n mod 16. -/
def tileBase (n : Nat) : Nat := n / 16 * 0x100000000 + n % 16 * 0x1000000

/-- The offset of the ERR block of die d, 16 for the IOD (R493, R494). -/
def errBase (d : Nat) : Nat := if d = 16 then 0x10000C0000 else d * 0x100000000 + 0x10100000

/-- A check unit that software can exercise (R208, R496): a tile's, a stop 16 to 21 of a compute die, or a stop of
the IOD by its number of R205. -/
inductive ChkUnit
  | tile (n : Nat)
  | die (d n : Nat)
  | iod (n : Nat)
deriving DecidableEq, Repr

/-- The offset of register k (CTL, RUN, DATA, DATAN) of a check unit (R208, R496). -/
def ChkUnit.off (u : ChkUnit) (k : Nat) : Nat :=
  let o := match k with
    | 0 => 0xFF0
    | 1 => 0xFF8
    | 2 => 0x1000
    | _ => 0x1008
  match u with
  | .tile n => tileBase n + 0x500000 + k * 8
  | .die d n => dieBase d + 0x10200000 + n * 0x2000 + o
  | .iod n => 0x1000100000 + n * 0x2000 + o

/-- SAD.RANGE[n].BASE (R19). -/
def SAD_RANGE_BASE (n : Nat) : Reg := ⟨0x1000040000 + n * 0x10, 0xff00ffffc0000000, 0x0⟩
def SAD_RANGE_BASE_EN (n : Nat) : FRef := ⟨(SAD_RANGE_BASE n), 63, 63⟩
def SAD_RANGE_BASE_KIND (n : Nat) : FRef := ⟨(SAD_RANGE_BASE n), 62, 61⟩
def SAD_RANGE_BASE_TARGET (n : Nat) : FRef := ⟨(SAD_RANGE_BASE n), 60, 56⟩
def SAD_RANGE_BASE_BASE (n : Nat) : FRef := ⟨(SAD_RANGE_BASE n), 47, 30⟩
/-- SAD.RANGE[n].LIMIT (R19). -/
def SAD_RANGE_LIMIT (n : Nat) : Reg := ⟨0x1000040008 + n * 0x10, 0xffffc0000000, 0x0⟩
def SAD_RANGE_LIMIT_LIMIT (n : Nat) : FRef := ⟨(SAD_RANGE_LIMIT n), 47, 30⟩
/-- TMON.PROC (R44). -/
def TMON_PROC (n : Nat) : Reg := ⟨tileBase n + 0x300000, 0xbf00ffff, 0x0⟩
def TMON_PROC_PVALID (n : Nat) : FRef := ⟨(TMON_PROC n), 31, 31⟩
def TMON_PROC_PCODE (n : Nat) : FRef := ⟨(TMON_PROC n), 29, 24⟩
def TMON_PROC_LAPS (n : Nat) : FRef := ⟨(TMON_PROC n), 15, 0⟩
/-- TMON.TEMP (R45). -/
def TMON_TEMP (n : Nat) : Reg := ⟨tileBase n + 0x300008, 0x1ffffffff, 0x0⟩
def TMON_TEMP_CLRMAX (n : Nat) : FRef := ⟨(TMON_TEMP n), 32, 32⟩
def TMON_TEMP_TJMAX (n : Nat) : FRef := ⟨(TMON_TEMP n), 31, 16⟩
def TMON_TEMP_TJ (n : Nat) : FRef := ⟨(TMON_TEMP n), 15, 0⟩
/-- TMON.DROOP (R46). -/
def TMON_DROOP (n : Nat) : Reg := ⟨tileBase n + 0x300010, 0x83ffffff03ff03ff, 0x3ff⟩
def TMON_DROOP_CLR (n : Nat) : FRef := ⟨(TMON_DROOP n), 63, 63⟩
def TMON_DROOP_THRESH (n : Nat) : FRef := ⟨(TMON_DROOP n), 57, 48⟩
def TMON_DROOP_DCOUNT (n : Nat) : FRef := ⟨(TMON_DROOP n), 47, 32⟩
def TMON_DROOP_VNOW (n : Nat) : FRef := ⟨(TMON_DROOP n), 25, 16⟩
def TMON_DROOP_VMIN (n : Nat) : FRef := ⟨(TMON_DROOP n), 9, 0⟩
/-- TMON.RATE (R46). -/
def TMON_RATE (n : Nat) : Reg := ⟨tileBase n + 0x300018, 0xffff0000ffff, 0xffff00000000⟩
def TMON_RATE_CAP (n : Nat) : FRef := ⟨(TMON_RATE n), 47, 32⟩
def TMON_RATE_TOKENS (n : Nat) : FRef := ⟨(TMON_RATE n), 15, 0⟩
/-- TBASE.COUNT (R48). -/
def TBASE_COUNT : Reg := ⟨0x1000020000, 0xffffffffffffffff, 0x0⟩
def TBASE_COUNT_COUNT : FRef := ⟨TBASE_COUNT, 63, 0⟩
/-- TBASE.STAT (R48). -/
def TBASE_STAT : Reg := ⟨0x1000020008, 0xffff0003, 0x0⟩
def TBASE_STAT_DIE_LOST : FRef := ⟨TBASE_STAT, 31, 16⟩
def TBASE_STAT_REFLOSS : FRef := ⟨TBASE_STAT, 1, 1⟩
def TBASE_STAT_REFOK : FRef := ⟨TBASE_STAT, 0, 0⟩
/-- TBRX.STATUS (R50). -/
def TBRX_STATUS (d : Nat) : Reg := ⟨0x10020000 + d * 0x100000000, 0xffff0007, 0x3⟩
def TBRX_STATUS_LOSS_CNT (d : Nat) : FRef := ⟨(TBRX_STATUS d), 31, 16⟩
def TBRX_STATUS_SLIP (d : Nat) : FRef := ⟨(TBRX_STATUS d), 2, 2⟩
def TBRX_STATUS_TIME_INVALID (d : Nat) : FRef := ⟨(TBRX_STATUS d), 1, 1⟩
def TBRX_STATUS_LOST (d : Nat) : FRef := ⟨(TBRX_STATUS d), 0, 0⟩
/-- CORECTL.HART[h].START (R66). -/
def HART_START (n h : Nat) : Reg := ⟨tileBase n + 0x0 + h * 0x10, 0xffffffffffffd, 0x0⟩
def HART_START_VEC (n h : Nat) : FRef := ⟨(HART_START n h), 51, 2⟩
def HART_START_RUN (n h : Nat) : FRef := ⟨(HART_START n h), 0, 0⟩
/-- CORECTL.HART[h].STAT (R68). -/
def HART_STAT (n h : Nat) : Reg := ⟨tileBase n + 0x8 + h * 0x10, 0xff, 0x0⟩
def HART_STAT_EID_ZERO (n h : Nat) : FRef := ⟨(HART_STAT n h), 7, 4⟩
def HART_STAT_STATE (n h : Nat) : FRef := ⟨(HART_STAT n h), 3, 0⟩
/-- CORECTL.STATUS (R68). -/
def CORECTL_STATUS (n : Nat) : Reg := ⟨tileBase n + 0x40, 0x1, 0x0⟩
def CORECTL_STATUS_CFG_REJECT (n : Nat) : FRef := ⟨(CORECTL_STATUS n), 0, 0⟩
/-- L3.PARTRANGE[n].BASE (R147). -/
def L3_PARTRANGE_BASE (d n : Nat) : Reg := ⟨0x10000200 + d * 0x100000000 + n * 0x10, 0x9e0fffffffe00000, 0x0⟩
def L3_PARTRANGE_BASE_EN (d n : Nat) : FRef := ⟨(L3_PARTRANGE_BASE d n), 63, 63⟩
def L3_PARTRANGE_BASE_PART (d n : Nat) : FRef := ⟨(L3_PARTRANGE_BASE d n), 60, 57⟩
def L3_PARTRANGE_BASE_BASE (d n : Nat) : FRef := ⟨(L3_PARTRANGE_BASE d n), 51, 21⟩
/-- L3.PARTRANGE[n].LIMIT (R147). -/
def L3_PARTRANGE_LIMIT (d n : Nat) : Reg := ⟨0x10000208 + d * 0x100000000 + n * 0x10, 0xfffffffe00000, 0x0⟩
def L3_PARTRANGE_LIMIT_LIMIT (d n : Nat) : FRef := ⟨(L3_PARTRANGE_LIMIT d n), 51, 21⟩
/-- L3.PARTWAYS[p] (R148). -/
def L3_PARTWAYS (d p : Nat) : Reg := ⟨0x10000100 + d * 0x100000000 + p * 0x8, 0x800000000000ffff, 0xffff⟩
def L3_PARTWAYS_FROZEN (d p : Nat) : FRef := ⟨(L3_PARTWAYS d p), 63, 63⟩
def L3_PARTWAYS_WAYS (d p : Nat) : FRef := ⟨(L3_PARTWAYS d p), 15, 0⟩
/-- L3.WAYLOCK (R149). -/
def L3_WAYLOCK (d : Nat) : Reg := ⟨0x10000010 + d * 0x100000000, 0xffff, 0x0⟩
def L3_WAYLOCK_LOCK (d : Nat) : FRef := ⟨(L3_WAYLOCK d), 15, 0⟩
/-- L3.WAYOWNER (R149). -/
def L3_WAYOWNER (d : Nat) : Reg := ⟨0x10000018 + d * 0x100000000, 0xffffffffffffffff, 0x0⟩
def L3_WAYOWNER_OWNER0 (d : Nat) : FRef := ⟨(L3_WAYOWNER d), 3, 0⟩
def L3_WAYOWNER_OWNER1 (d : Nat) : FRef := ⟨(L3_WAYOWNER d), 7, 4⟩
def L3_WAYOWNER_OWNER2 (d : Nat) : FRef := ⟨(L3_WAYOWNER d), 11, 8⟩
def L3_WAYOWNER_OWNER3 (d : Nat) : FRef := ⟨(L3_WAYOWNER d), 15, 12⟩
def L3_WAYOWNER_OWNER4 (d : Nat) : FRef := ⟨(L3_WAYOWNER d), 19, 16⟩
def L3_WAYOWNER_OWNER5 (d : Nat) : FRef := ⟨(L3_WAYOWNER d), 23, 20⟩
def L3_WAYOWNER_OWNER6 (d : Nat) : FRef := ⟨(L3_WAYOWNER d), 27, 24⟩
def L3_WAYOWNER_OWNER7 (d : Nat) : FRef := ⟨(L3_WAYOWNER d), 31, 28⟩
def L3_WAYOWNER_OWNER8 (d : Nat) : FRef := ⟨(L3_WAYOWNER d), 35, 32⟩
def L3_WAYOWNER_OWNER9 (d : Nat) : FRef := ⟨(L3_WAYOWNER d), 39, 36⟩
def L3_WAYOWNER_OWNER10 (d : Nat) : FRef := ⟨(L3_WAYOWNER d), 43, 40⟩
def L3_WAYOWNER_OWNER11 (d : Nat) : FRef := ⟨(L3_WAYOWNER d), 47, 44⟩
def L3_WAYOWNER_OWNER12 (d : Nat) : FRef := ⟨(L3_WAYOWNER d), 51, 48⟩
def L3_WAYOWNER_OWNER13 (d : Nat) : FRef := ⟨(L3_WAYOWNER d), 55, 52⟩
def L3_WAYOWNER_OWNER14 (d : Nat) : FRef := ⟨(L3_WAYOWNER d), 59, 56⟩
def L3_WAYOWNER_OWNER15 (d : Nat) : FRef := ⟨(L3_WAYOWNER d), 63, 60⟩
/-- L2CTL.CTL (R153). -/
def L2CTL_CTL (n : Nat) : Reg := ⟨tileBase n + 0x400000, 0x7, 0x6⟩
def L2CTL_CTL_L2PF (n : Nat) : FRef := ⟨(L2CTL_CTL n), 2, 2⟩
def L2CTL_CTL_L1PF (n : Nat) : FRef := ⟨(L2CTL_CTL n), 1, 1⟩
def L2CTL_CTL_DISABLE (n : Nat) : FRef := ⟨(L2CTL_CTL n), 0, 0⟩
/-- L2CTL.STATUS (R153). -/
def L2CTL_STATUS (n : Nat) : Reg := ⟨tileBase n + 0x400008, 0x7, 0x0⟩
def L2CTL_STATUS_CFG_REJECT (n : Nat) : FRef := ⟨(L2CTL_STATUS n), 2, 2⟩
def L2CTL_STATUS_DISABLED (n : Nat) : FRef := ⟨(L2CTL_STATUS n), 1, 1⟩
def L2CTL_STATUS_CACHE_DISABLE_PENDING (n : Nat) : FRef := ⟨(L2CTL_STATUS n), 0, 0⟩
/-- L3.CTL (R153). -/
def L3_CTL (d : Nat) : Reg := ⟨0x10000000 + d * 0x100000000, 0xf, 0x0⟩
def L3_CTL_QDISABLE (d : Nat) : FRef := ⟨(L3_CTL d), 3, 0⟩
/-- L3.STATUS (R153). -/
def L3_STATUS (d : Nat) : Reg := ⟨0x10000008 + d * 0x100000000, 0x7ff, 0x0⟩
def L3_STATUS_FROZEN_WR (d : Nat) : FRef := ⟨(L3_STATUS d), 10, 10⟩
def L3_STATUS_CFG_REJECT (d : Nat) : FRef := ⟨(L3_STATUS d), 9, 9⟩
def L3_STATUS_SWEEP (d : Nat) : FRef := ⟨(L3_STATUS d), 8, 8⟩
def L3_STATUS_DISABLED (d : Nat) : FRef := ⟨(L3_STATUS d), 7, 4⟩
def L3_STATUS_CACHE_DISABLE_PENDING (d : Nat) : FRef := ⟨(L3_STATUS d), 3, 0⟩
/-- HOME.CFG (R164). -/
def HOME_CFG : Reg := ⟨0x10000a0000, 0x3, 0x2⟩
def HOME_CFG_EGRANT : FRef := ⟨HOME_CFG, 1, 1⟩
def HOME_CFG_DIREN : FRef := ⟨HOME_CFG, 0, 0⟩
/-- HOME[s].TRKSTAT (R165). -/
def HOME_TRKSTAT (s : Nat) : Reg := ⟨0x10000a0100 + s * 0x10, 0x8fff0fff03ff3fff, 0x0⟩
def HOME_TRKSTAT_WAITED (s : Nat) : FRef := ⟨(HOME_TRKSTAT s), 63, 63⟩
def HOME_TRKSTAT_IOUSE (s : Nat) : FRef := ⟨(HOME_TRKSTAT s), 59, 48⟩
def HOME_TRKSTAT_PEERUSE (s : Nat) : FRef := ⟨(HOME_TRKSTAT s), 43, 32⟩
def HOME_TRKSTAT_EVCUSE (s : Nat) : FRef := ⟨(HOME_TRKSTAT s), 25, 16⟩
def HOME_TRKSTAT_INUSE (s : Nat) : FRef := ⟨(HOME_TRKSTAT s), 13, 0⟩
/-- RLINK[d].FAULTMAP (R199). -/
def RLINK_FAULTMAP (d : Nat) : Reg := ⟨0x10000b0010 + d * 0x1000, 0xff03ffff0003ffff, 0x0⟩
def RLINK_FAULTMAP_RSTB (d : Nat) : FRef := ⟨(RLINK_FAULTMAP d), 63, 63⟩
def RLINK_FAULTMAP_RSTA (d : Nat) : FRef := ⟨(RLINK_FAULTMAP d), 62, 62⟩
def RLINK_FAULTMAP_SBDNS (d : Nat) : FRef := ⟨(RLINK_FAULTMAP d), 61, 61⟩
def RLINK_FAULTMAP_SBDNP (d : Nat) : FRef := ⟨(RLINK_FAULTMAP d), 60, 60⟩
def RLINK_FAULTMAP_SBUPS (d : Nat) : FRef := ⟨(RLINK_FAULTMAP d), 59, 59⟩
def RLINK_FAULTMAP_SBUPP (d : Nat) : FRef := ⟨(RLINK_FAULTMAP d), 58, 58⟩
def RLINK_FAULTMAP_TICKS (d : Nat) : FRef := ⟨(RLINK_FAULTMAP d), 57, 57⟩
def RLINK_FAULTMAP_TICKP (d : Nat) : FRef := ⟨(RLINK_FAULTMAP d), 56, 56⟩
def RLINK_FAULTMAP_DN (d : Nat) : FRef := ⟨(RLINK_FAULTMAP d), 49, 32⟩
def RLINK_FAULTMAP_UP (d : Nat) : FRef := ⟨(RLINK_FAULTMAP d), 17, 0⟩
/-- RILL.FAULTMAP (R199). -/
def RILL_FAULTMAP (d : Nat) : Reg := ⟨0x10010000 + d * 0x100000000, 0xff03ffff0003ffff, 0x0⟩
def RILL_FAULTMAP_RSTB (d : Nat) : FRef := ⟨(RILL_FAULTMAP d), 63, 63⟩
def RILL_FAULTMAP_RSTA (d : Nat) : FRef := ⟨(RILL_FAULTMAP d), 62, 62⟩
def RILL_FAULTMAP_SBDNS (d : Nat) : FRef := ⟨(RILL_FAULTMAP d), 61, 61⟩
def RILL_FAULTMAP_SBDNP (d : Nat) : FRef := ⟨(RILL_FAULTMAP d), 60, 60⟩
def RILL_FAULTMAP_SBUPS (d : Nat) : FRef := ⟨(RILL_FAULTMAP d), 59, 59⟩
def RILL_FAULTMAP_SBUPP (d : Nat) : FRef := ⟨(RILL_FAULTMAP d), 58, 58⟩
def RILL_FAULTMAP_TICKS (d : Nat) : FRef := ⟨(RILL_FAULTMAP d), 57, 57⟩
def RILL_FAULTMAP_TICKP (d : Nat) : FRef := ⟨(RILL_FAULTMAP d), 56, 56⟩
def RILL_FAULTMAP_DN (d : Nat) : FRef := ⟨(RILL_FAULTMAP d), 49, 32⟩
def RILL_FAULTMAP_UP (d : Nat) : FRef := ⟨(RILL_FAULTMAP d), 17, 0⟩
/-- FABRIC.CHKCFG (R204). -/
def FABRIC_CHKCFG : Reg := ⟨0x1000010000, 0x3, 0x0⟩
def FABRIC_CHKCFG_POLY : FRef := ⟨FABRIC_CHKCFG, 1, 0⟩
/-- FABRIC.CHKCFG (die copy) (R204). -/
def FABRIC_COPY (d : Nat) : Reg := ⟨0x10030000 + d * 0x100000000, 0x3, 0x0⟩
def FABRIC_COPY_POLY (d : Nat) : FRef := ⟨(FABRIC_COPY d), 1, 0⟩
/-- CHK.CTL (R208). -/
def CHK_CTL (u : ChkUnit) : Reg := ⟨u.off 0, 0x3, 0x0⟩
def CHK_CTL_CFG_REJECT (u : ChkUnit) : FRef := ⟨(CHK_CTL u), 1, 1⟩
def CHK_CTL_TEST (u : ChkUnit) : FRef := ⟨(CHK_CTL u), 0, 0⟩
/-- CHK.RUN (R208). -/
def CHK_RUN (u : ChkUnit) : Reg := ⟨u.off 1, 0xffffffff, 0x0⟩
def CHK_RUN_RUN (u : ChkUnit) : FRef := ⟨(CHK_RUN u), 31, 0⟩
/-- CHK.DATA (R208). -/
def CHK_DATA (u : ChkUnit) : Reg := ⟨u.off 2, 0xffffffffffffffff, 0x0⟩
def CHK_DATA_DATA (u : ChkUnit) : FRef := ⟨(CHK_DATA u), 63, 0⟩
/-- CHK.DATAN (R208). -/
def CHK_DATAN (u : ChkUnit) : Reg := ⟨u.off 3, 0xffffffffffffff07, 0x0⟩
def CHK_DATAN_BYTES (u : ChkUnit) : FRef := ⟨(CHK_DATAN u), 63, 8⟩
def CHK_DATAN_N (u : ChkUnit) : FRef := ⟨(CHK_DATAN u), 2, 0⟩
/-- RLINK[d].STAT (R210). -/
def RLINK_STAT (d : Nat) : Reg := ⟨0x10000b0000 + d * 0x1000, 0xffff000f00ffcc0f, 0x0⟩
def RLINK_STAT_JOINS (d : Nat) : FRef := ⟨(RLINK_STAT d), 63, 48⟩
def RLINK_STAT_LASTCAUSE (d : Nat) : FRef := ⟨(RLINK_STAT d), 35, 32⟩
def RLINK_STAT_UPW (d : Nat) : FRef := ⟨(RLINK_STAT d), 23, 19⟩
def RLINK_STAT_DNW (d : Nat) : FRef := ⟨(RLINK_STAT d), 18, 14⟩
def RLINK_STAT_TICKSPARE (d : Nat) : FRef := ⟨(RLINK_STAT d), 11, 11⟩
def RLINK_STAT_CFG_REJECT (d : Nat) : FRef := ⟨(RLINK_STAT d), 10, 10⟩
def RLINK_STAT_STATE (d : Nat) : FRef := ⟨(RLINK_STAT d), 3, 0⟩
/-- RLINK[d].ERRCNT (R210). -/
def RLINK_ERRCNT (d : Nat) : Reg := ⟨0x10000b0008 + d * 0x1000, 0xffffffffffffffff, 0x0⟩
def RLINK_ERRCNT_MSIDROP (d : Nat) : FRef := ⟨(RLINK_ERRCNT d), 63, 48⟩
def RLINK_ERRCNT_RETRAINS (d : Nat) : FRef := ⟨(RLINK_ERRCNT d), 47, 32⟩
def RLINK_ERRCNT_REPLAYS (d : Nat) : FRef := ⟨(RLINK_ERRCNT d), 31, 0⟩
/-- RLINK[d].RESET (R210). -/
def RLINK_RESET (d : Nat) : Reg := ⟨0x10000b0018 + d * 0x1000, 0xc300000000ffffff, 0x0⟩
def RLINK_RESET_GO (d : Nat) : FRef := ⟨(RLINK_RESET d), 63, 63⟩
def RLINK_RESET_BUSY (d : Nat) : FRef := ⟨(RLINK_RESET d), 62, 62⟩
def RLINK_RESET_KIND (d : Nat) : FRef := ⟨(RLINK_RESET d), 57, 56⟩
def RLINK_RESET_ST (d : Nat) : FRef := ⟨(RLINK_RESET d), 23, 16⟩
def RLINK_RESET_TILES (d : Nat) : FRef := ⟨(RLINK_RESET d), 15, 0⟩
/-- RLINK[d].CTL (R210). -/
def RLINK_CTL (d : Nat) : Reg := ⟨0x10000b0020 + d * 0x1000, 0x1, 0x0⟩
def RLINK_CTL_ADMIT (d : Nat) : FRef := ⟨(RLINK_CTL d), 0, 0⟩
/-- MC[c].GEOM (R224). -/
def MC_GEOM (c : Nat) : Reg := ⟨0x1000200010 + c * 0x10000, 0x73f, 0x0⟩
def MC_GEOM_RATE (c : Nat) : FRef := ⟨(MC_GEOM c), 10, 8⟩
def MC_GEOM_DPC (c : Nat) : FRef := ⟨(MC_GEOM c), 5, 5⟩
def MC_GEOM_HEIGHT (c : Nat) : FRef := ⟨(MC_GEOM c), 4, 3⟩
def MC_GEOM_RANKS (c : Nat) : FRef := ⟨(MC_GEOM c), 2, 2⟩
def MC_GEOM_DENS (c : Nat) : FRef := ⟨(MC_GEOM c), 1, 0⟩
/-- MC[c].CTL (R225). -/
def MC_CTL (c : Nat) : Reg := ⟨0x1000200000 + c * 0x10000, 0x3f, 0x0⟩
def MC_CTL_RFMODE (c : Nat) : FRef := ⟨(MC_CTL c), 5, 4⟩
def MC_CTL_DLYVALID (c : Nat) : FRef := ⟨(MC_CTL c), 3, 1⟩
def MC_CTL_RUN (c : Nat) : FRef := ⟨(MC_CTL c), 0, 0⟩
/-- MC[c].MRSEQ[n] (R226). -/
def MC_MRSEQ (c n : Nat) : Reg := ⟨0x1000200100 + c * 0x10000 + n * 0x8, 0x8000000ffe00ffff, 0x0⟩
def MC_MRSEQ_V (c n : Nat) : FRef := ⟨(MC_MRSEQ c n), 63, 63⟩
def MC_MRSEQ_SCMASK (c n : Nat) : FRef := ⟨(MC_MRSEQ c n), 35, 34⟩
def MC_MRSEQ_CSMASK (c n : Nat) : FRef := ⟨(MC_MRSEQ c n), 33, 30⟩
def MC_MRSEQ_PDA (c n : Nat) : FRef := ⟨(MC_MRSEQ c n), 29, 29⟩
def MC_MRSEQ_DEV (c n : Nat) : FRef := ⟨(MC_MRSEQ c n), 28, 25⟩
def MC_MRSEQ_MRNUM (c n : Nat) : FRef := ⟨(MC_MRSEQ c n), 15, 8⟩
def MC_MRSEQ_VAL (c n : Nat) : FRef := ⟨(MC_MRSEQ c n), 7, 0⟩
/-- ILV.SET[i].BASE (R228). -/
def ILV_SET_BASE (i : Nat) : Reg := ⟨0x1000050000 + i * 0x20, 0x8000ffffc0000000, 0x0⟩
def ILV_SET_BASE_EN (i : Nat) : FRef := ⟨(ILV_SET_BASE i), 63, 63⟩
def ILV_SET_BASE_BASE (i : Nat) : FRef := ⟨(ILV_SET_BASE i), 47, 30⟩
/-- ILV.SET[i].CFG (R228). -/
def ILV_SET_CFG (i : Nat) : Reg := ⟨0x1000050008 + i * 0x20, 0xffffff1f01ff3fff, 0x800000000⟩
def ILV_SET_CFG_CHMASK (i : Nat) : FRef := ⟨(ILV_SET_CFG i), 63, 40⟩
def ILV_SET_CFG_GRAIN (i : Nat) : FRef := ⟨(ILV_SET_CFG i), 36, 32⟩
def ILV_SET_CFG_LOCALBASE (i : Nat) : FRef := ⟨(ILV_SET_CFG i), 24, 16⟩
def ILV_SET_CFG_SIZE (i : Nat) : FRef := ⟨(ILV_SET_CFG i), 13, 0⟩
/-- ILV.STATUS (R228). -/
def ILV_STATUS : Reg := ⟨0x1000050200, 0xff01, 0x0⟩
def ILV_STATUS_CAUSE : FRef := ⟨ILV_STATUS, 15, 12⟩
def ILV_STATUS_SET : FRef := ⟨ILV_STATUS, 11, 8⟩
def ILV_STATUS_CFG_REJECT : FRef := ⟨ILV_STATUS, 0, 0⟩
/-- MC[c].DLY[b][s][k][n] (R232). -/
def MC_DLY (c b s k n : Nat) : Reg := ⟨0x1000201000 + c * 0x10000 + b * 0x280 + s * 0x140 + k * 0x50 + n * 0x8, 0xfffffffffffff, 0x8000000000000⟩
def MC_DLY_RVREF (c b s k n : Nat) : FRef := ⟨(MC_DLY c b s k n), 51, 44⟩
def MC_DLY_RDQ (c b s k n : Nat) : FRef := ⟨(MC_DLY c b s k n), 43, 36⟩
def MC_DLY_RGATE (c b s k n : Nat) : FRef := ⟨(MC_DLY c b s k n), 35, 24⟩
def MC_DLY_WDQ (c b s k n : Nat) : FRef := ⟨(MC_DLY c b s k n), 23, 12⟩
def MC_DLY_WDQS (c b s k n : Nat) : FRef := ⟨(MC_DLY c b s k n), 11, 0⟩
/-- MC[c].CADLY[b][s][m] (R232). -/
def MC_CADLY (c b s m : Nat) : Reg := ⟨0x1000201800 + c * 0x10000 + b * 0x20 + s * 0x10 + m * 0x8, 0xffffffffffff, 0x0⟩
def MC_CADLY_CS1 (c b s m : Nat) : FRef := ⟨(MC_CADLY c b s m), 47, 36⟩
def MC_CADLY_CS0 (c b s m : Nat) : FRef := ⟨(MC_CADLY c b s m), 35, 24⟩
def MC_CADLY_CA (c b s m : Nat) : FRef := ⟨(MC_CADLY c b s m), 23, 12⟩
def MC_CADLY_CK (c b s m : Nat) : FRef := ⟨(MC_CADLY c b s m), 11, 0⟩
/-- MC[c].BANDCTL (R233). -/
def MC_BANDCTL (c : Nat) : Reg := ⟨0x1000200028 + c * 0x10000, 0xfffff, 0x3462d⟩
def MC_BANDCTL_HYST (c : Nat) : FRef := ⟨(MC_BANDCTL c), 19, 16⟩
def MC_BANDCTL_HIGH (c : Nat) : FRef := ⟨(MC_BANDCTL c), 15, 8⟩
def MC_BANDCTL_LOW (c : Nat) : FRef := ⟨(MC_BANDCTL c), 7, 0⟩
/-- MC[c].REFCTL (R237). -/
def MC_REFCTL (c : Nat) : Reg := ⟨0x1000200018 + c * 0x10000, 0xfffffffffffc0001, 0x27106681900001⟩
def MC_REFCTL_IDLE (c : Nat) : FRef := ⟨(MC_REFCTL c), 63, 40⟩
def MC_REFCTL_TRFC (c : Nat) : FRef := ⟨(MC_REFCTL c), 39, 30⟩
def MC_REFCTL_SRMIN (c : Nat) : FRef := ⟨(MC_REFCTL c), 29, 18⟩
def MC_REFCTL_PPEN (c : Nat) : FRef := ⟨(MC_REFCTL c), 0, 0⟩
/-- MC[c].SCRUB (R248). -/
def MC_SCRUB (c : Nat) : Reg := ⟨0x1000200030 + c * 0x10000, 0xffffffffff00ff01, 0x1800⟩
def MC_SCRUB_POS (c : Nat) : FRef := ⟨(MC_SCRUB c), 63, 24⟩
def MC_SCRUB_PERIOD (c : Nat) : FRef := ⟨(MC_SCRUB c), 15, 8⟩
def MC_SCRUB_EN (c : Nat) : FRef := ⟨(MC_SCRUB c), 0, 0⟩
/-- MC[c].STATUS (R251). -/
def MC_STATUS (c : Nat) : Reg := ⟨0x1000200008 + c * 0x10000, 0x177ff, 0x0⟩
def MC_STATUS_SR (c : Nat) : FRef := ⟨(MC_STATUS c), 16, 16⟩
def MC_STATUS_OWEDB (c : Nat) : FRef := ⟨(MC_STATUS c), 14, 12⟩
def MC_STATUS_OWEDA (c : Nat) : FRef := ⟨(MC_STATUS c), 10, 8⟩
def MC_STATUS_DREF (c : Nat) : FRef := ⟨(MC_STATUS c), 7, 7⟩
def MC_STATUS_BAND (c : Nat) : FRef := ⟨(MC_STATUS c), 6, 5⟩
def MC_STATUS_INIT (c : Nat) : FRef := ⟨(MC_STATUS c), 4, 1⟩
def MC_STATUS_CFG_REJECT (c : Nat) : FRef := ⟨(MC_STATUS c), 0, 0⟩
/-- MC[c].CECNT[r] (R252). -/
def MC_CECNT (c r : Nat) : Reg := ⟨0x1000202000 + c * 0x10000 + r * 0x8, 0xf0ffffffff, 0x0⟩
def MC_CECNT_LASTDEV (c r : Nat) : FRef := ⟨(MC_CECNT c r), 39, 36⟩
def MC_CECNT_COUNT (c r : Nat) : FRef := ⟨(MC_CECNT c r), 31, 0⟩
/-- PHLOX.FN[f].Q[j].BASE (R255). -/
def Q_BASE (f j : Nat) : Reg := ⟨0x1000900000 + f * 0x1000 + j * 0x80, 0xfffffffffffff000, 0x0⟩
def Q_BASE_BASE (f j : Nat) : FRef := ⟨(Q_BASE f j), 63, 12⟩
/-- PHLOX.FN[f].Q[j].CFG (R255). -/
def Q_CFG (f j : Nat) : Reg := ⟨0x1000900008 + f * 0x1000 + j * 0x80, 0xc00000000000071f, 0x6⟩
def Q_CFG_EN (f j : Nat) : FRef := ⟨(Q_CFG f j), 63, 63⟩
def Q_CFG_BOUND (f j : Nat) : FRef := ⟨(Q_CFG f j), 62, 62⟩
def Q_CFG_ENG (f j : Nat) : FRef := ⟨(Q_CFG f j), 10, 8⟩
def Q_CFG_LOG2N (f j : Nat) : FRef := ⟨(Q_CFG f j), 4, 0⟩
/-- PHLOX.FN[f].Q[j].TAIL (R255). -/
def Q_TAIL (f j : Nat) : Reg := ⟨0x1000900010 + f * 0x1000 + j * 0x80, 0xffff, 0x0⟩
def Q_TAIL_TAIL (f j : Nat) : FRef := ⟨(Q_TAIL f j), 15, 0⟩
/-- PHLOX.FN[f].Q[j].QSTAT (R255). -/
def Q_QSTAT (f j : Nat) : Reg := ⟨0x1000900018 + f * 0x1000 + j * 0x80, 0xe00001ff0000ffff, 0x0⟩
def Q_QSTAT_DBERR (f j : Nat) : FRef := ⟨(Q_QSTAT f j), 63, 63⟩
def Q_QSTAT_CFG_REJECT (f j : Nat) : FRef := ⟨(Q_QSTAT f j), 62, 62⟩
def Q_QSTAT_LOSTCOMP (f j : Nat) : FRef := ⟨(Q_QSTAT f j), 61, 61⟩
def Q_QSTAT_INFLIGHT (f j : Nat) : FRef := ⟨(Q_QSTAT f j), 40, 32⟩
def Q_QSTAT_HEAD (f j : Nat) : FRef := ⟨(Q_QSTAT f j), 15, 0⟩
/-- PHLOX.ENG[e].STAT (R289). -/
def ENG_STAT (e : Nat) : Reg := ⟨0x1000800000 + e * 0x100, 0xffffffff001f01ff, 0x0⟩
def ENG_STAT_JOBS (e : Nat) : FRef := ⟨(ENG_STAT e), 63, 32⟩
def ENG_STAT_BUFUSE (e : Nat) : FRef := ⟨(ENG_STAT e), 20, 16⟩
def ENG_STAT_CTXUSE (e : Nat) : FRef := ⟨(ENG_STAT e), 8, 0⟩
/-- PHLOX.VFCFG (R293). -/
def PHLOX_VFCFG : Reg := ⟨0x1000800908, 0x1ff, 0x0⟩
def PHLOX_VFCFG_VFEN : FRef := ⟨PHLOX_VFCFG, 8, 8⟩
def PHLOX_VFCFG_NUMVF : FRef := ⟨PHLOX_VFCFG, 7, 0⟩
/-- PHLOX.FNWORLD[k] (R293). -/
def PHLOX_FNWORLD (k : Nat) : Reg := ⟨0x1000800a00 + k * 0x8, 0xffffffffffffffff, 0x0⟩
def PHLOX_FNWORLD_SEC (k : Nat) : FRef := ⟨(PHLOX_FNWORLD k), 63, 0⟩
/-- PHLOX.MGRSTAT (R293). -/
def PHLOX_MGRSTAT : Reg := ⟨0x1000800900, 0xf03, 0x0⟩
def PHLOX_MGRSTAT_CAUSE : FRef := ⟨PHLOX_MGRSTAT, 11, 8⟩
def PHLOX_MGRSTAT_DENIED : FRef := ⟨PHLOX_MGRSTAT, 1, 1⟩
def PHLOX_MGRSTAT_CFG_REJECT : FRef := ⟨PHLOX_MGRSTAT, 0, 0⟩
/-- PHLOX.QBIND[q] (R293). -/
def PHLOX_QBIND (q : Nat) : Reg := ⟨0x1000802000 + q * 0x8, 0xc000000000071fff, 0x0⟩
def PHLOX_QBIND_VALID (q : Nat) : FRef := ⟨(PHLOX_QBIND q), 63, 63⟩
def PHLOX_QBIND_MOVING (q : Nat) : FRef := ⟨(PHLOX_QBIND q), 62, 62⟩
def PHLOX_QBIND_ENG (q : Nat) : FRef := ⟨(PHLOX_QBIND q), 18, 16⟩
def PHLOX_QBIND_SLOT (q : Nat) : FRef := ⟨(PHLOX_QBIND q), 12, 8⟩
def PHLOX_QBIND_FN (q : Nat) : FRef := ⟨(PHLOX_QBIND q), 7, 0⟩
/-- PHLOX.FN[f].SHARE (R297). -/
def FN_SHARE (f : Nat) : Reg := ⟨0x1000804000 + f * 0x10, 0xffffff1f01ff01ff, 0x101001000000⟩
def FN_SHARE_CAP (f : Nat) : FRef := ⟨(FN_SHARE f), 63, 48⟩
def FN_SHARE_WEIGHT (f : Nat) : FRef := ⟨(FN_SHARE f), 47, 40⟩
def FN_SHARE_BUFMAX (f : Nat) : FRef := ⟨(FN_SHARE f), 36, 32⟩
def FN_SHARE_CTXMAX (f : Nat) : FRef := ⟨(FN_SHARE f), 24, 16⟩
def FN_SHARE_CTXMIN (f : Nat) : FRef := ⟨(FN_SHARE f), 8, 0⟩
/-- PHLOX.FN[f].USE (R301). -/
def FN_USE (f : Nat) : Reg := ⟨0x1000806000 + f * 0x8, 0xffffffff003f0fff, 0x0⟩
def FN_USE_BYTES (f : Nat) : FRef := ⟨(FN_USE f), 63, 32⟩
def FN_USE_QUEUES (f : Nat) : FRef := ⟨(FN_USE f), 21, 16⟩
def FN_USE_CTX (f : Nat) : FRef := ⟨(FN_USE f), 11, 0⟩
/-- PHLOX.FN[f].RESET (R302). -/
def FN_RESET (f : Nat) : Reg := ⟨0x1000804008 + f * 0x10, 0xc000000000ff0000, 0x0⟩
def FN_RESET_GO (f : Nat) : FRef := ⟨(FN_RESET f), 63, 63⟩
def FN_RESET_BUSY (f : Nat) : FRef := ⟨(FN_RESET f), 62, 62⟩
def FN_RESET_ST (f : Nat) : FRef := ⟨(FN_RESET f), 23, 16⟩
/-- G[g].CFG (R307). -/
def G_CFG (g : Nat) : Reg := ⟨0x1000400000 + g * 0x10000, 0xffc0ffffff00000f, 0x0⟩
def G_CFG_EN (g : Nat) : FRef := ⟨(G_CFG g), 63, 63⟩
def G_CFG_PERS (g : Nat) : FRef := ⟨(G_CFG g), 62, 60⟩
def G_CFG_MAXGEN (g : Nat) : FRef := ⟨(G_CFG g), 59, 56⟩
def G_CFG_PEER (g : Nat) : FRef := ⟨(G_CFG g), 55, 54⟩
def G_CFG_PORTW (g : Nat) : FRef := ⟨(G_CFG g), 47, 24⟩
def G_CFG_ENC (g : Nat) : FRef := ⟨(G_CFG g), 3, 3⟩
def G_CFG_EXPORT (g : Nat) : FRef := ⟨(G_CFG g), 2, 2⟩
def G_CFG_COH (g : Nat) : FRef := ⟨(G_CFG g), 1, 1⟩
def G_CFG_TPHEN (g : Nat) : FRef := ⟨(G_CFG g), 0, 0⟩
/-- G[g].STAT (R310). -/
def G_STAT (g : Nat) : Reg := ⟨0x1000400008 + g * 0x10000, 0xfffff8000001, 0x0⟩
def G_STAT_PORTUP (g : Nat) : FRef := ⟨(G_STAT g), 47, 40⟩
def G_STAT_STATE (g : Nat) : FRef := ⟨(G_STAT g), 39, 36⟩
def G_STAT_RATE (g : Nat) : FRef := ⟨(G_STAT g), 35, 32⟩
def G_STAT_WIDTH (g : Nat) : FRef := ⟨(G_STAT g), 31, 27⟩
def G_STAT_CFG_REJECT (g : Nat) : FRef := ⟨(G_STAT g), 0, 0⟩
/-- G[g].CTO (R321). -/
def G_CTO (g : Nat) : Reg := ⟨0x1000400010 + g * 0x10000, 0x3f, 0x16⟩
def G_CTO_CTO (g : Nat) : FRef := ⟨(G_CTO g), 5, 0⟩
/-- G[g].IDESTAT (R324). -/
def G_IDESTAT (g : Nat) : Reg := ⟨0x1000400018 + g * 0x10000, 0xffffffffffff, 0x0⟩
def G_IDESTAT_REKEY (g : Nat) : FRef := ⟨(G_IDESTAT g), 47, 32⟩
def G_IDESTAT_FAILED (g : Nat) : FRef := ⟨(G_IDESTAT g), 31, 16⟩
def G_IDESTAT_SECURE (g : Nat) : FRef := ⟨(G_IDESTAT g), 15, 0⟩
/-- SOCK.CFG (R334). -/
def SOCK_CFG : Reg := ⟨0x1000030000, 0x3, 0x0⟩
def SOCK_CFG_ID : FRef := ⟨SOCK_CFG, 1, 0⟩
/-- FOX.TRNG.STAT (R345). -/
def FOX_TRNG_STAT : Reg := ⟨0x1000070200, 0xffffffff0007, 0x0⟩
def FOX_TRNG_STAT_FAILS1 : FRef := ⟨FOX_TRNG_STAT, 47, 32⟩
def FOX_TRNG_STAT_FAILS0 : FRef := ⟨FOX_TRNG_STAT, 31, 16⟩
def FOX_TRNG_STAT_DRBGOK : FRef := ⟨FOX_TRNG_STAT, 2, 2⟩
def FOX_TRNG_STAT_SRC1OK : FRef := ⟨FOX_TRNG_STAT, 1, 1⟩
def FOX_TRNG_STAT_SRC0OK : FRef := ⟨FOX_TRNG_STAT, 0, 0⟩
/-- FOX.SEAL (R347). -/
def FOX_SEAL : Reg := ⟨0x1000070410, 0x13f, 0x0⟩
def FOX_SEAL_EXHAUSTED : FRef := ⟨FOX_SEAL, 8, 8⟩
def FOX_SEAL_EPOCH : FRef := ⟨FOX_SEAL, 5, 0⟩
/-- FOX.MBX[w].ADDR (R351). -/
def MBX_ADDR (m : Nat) : Reg := ⟨0x1000070100 + m * 0x20, 0xfffffffffff80, 0x0⟩
def MBX_ADDR_ADDR (m : Nat) : FRef := ⟨(MBX_ADDR m), 51, 7⟩
/-- FOX.MBX[w].STAT (R351). -/
def MBX_STAT (m : Nat) : Reg := ⟨0x1000070108 + m * 0x20, 0xffffffff00ff0003, 0x0⟩
def MBX_STAT_COUNT (m : Nat) : FRef := ⟨(MBX_STAT m), 63, 32⟩
def MBX_STAT_ST (m : Nat) : FRef := ⟨(MBX_STAT m), 23, 16⟩
def MBX_STAT_BUSY (m : Nat) : FRef := ⟨(MBX_STAT m), 1, 1⟩
def MBX_STAT_CFG_REJECT (m : Nat) : FRef := ⟨(MBX_STAT m), 0, 0⟩
/-- FOX.REKEYQ (R361). -/
def FOX_REKEYQ : Reg := ⟨0x1000070420, 0xc00000000000ffff, 0x8000000000000000⟩
def FOX_REKEYQ_EMPTY : FRef := ⟨FOX_REKEYQ, 63, 63⟩
def FOX_REKEYQ_OVF : FRef := ⟨FOX_REKEYQ, 62, 62⟩
def FOX_REKEYQ_INDEX : FRef := ⟨FOX_REKEYQ, 15, 0⟩
/-- FOX.KAT (R366). -/
def FOX_KAT : Reg := ⟨0x1000070400, 0xffffffffffffffff, 0x0⟩
def FOX_KAT_PFAIL : FRef := ⟨FOX_KAT, 63, 56⟩
def FOX_KAT_GFAIL : FRef := ⟨FOX_KAT, 55, 24⟩
def FOX_KAT_MCFAIL : FRef := ⟨FOX_KAT, 23, 0⟩
/-- FOX.ALARM.STAT (R371). -/
def ALARM_STAT : Reg := ⟨0x1000070300, 0x701fe, 0x0⟩
def ALARM_STAT_NEXT : FRef := ⟨ALARM_STAT, 18, 16⟩
def ALARM_STAT_CLASSA : FRef := ⟨ALARM_STAT, 8, 8⟩
def ALARM_STAT_SEEN : FRef := ⟨ALARM_STAT, 7, 1⟩
/-- FOX.ALARM.POLICY (R371). -/
def ALARM_POLICY : Reg := ⟨0x1000070308, 0xf, Config.fuse (0x1000070308)⟩
def ALARM_POLICY_SEALERASE : FRef := ⟨ALARM_POLICY, 3, 3⟩
def ALARM_POLICY_DEBUG_A : FRef := ⟨ALARM_POLICY, 2, 2⟩
def ALARM_POLICY_TEMP_A : FRef := ⟨ALARM_POLICY, 1, 1⟩
def ALARM_POLICY_SUPPLY_A : FRef := ⟨ALARM_POLICY, 0, 0⟩
/-- FOX.ALARM.LOG[n].TICK (R371). -/
def ALARM_LOG_TICK (n : Nat) : Reg := ⟨0x1000070380 + n * 0x10, 0xffffffffffffffff, 0x0⟩
def ALARM_LOG_TICK_TICK (n : Nat) : FRef := ⟨(ALARM_LOG_TICK n), 63, 0⟩
/-- FOX.ALARM.LOG[n].INFO (R371). -/
def ALARM_LOG_INFO (n : Nat) : Reg := ⟨0x1000070388 + n * 0x10, 0xffffffff000001ff, 0x0⟩
def ALARM_LOG_INFO_DETAIL (n : Nat) : FRef := ⟨(ALARM_LOG_INFO n), 63, 32⟩
def ALARM_LOG_INFO_CLASSA (n : Nat) : FRef := ⟨(ALARM_LOG_INFO n), 8, 8⟩
def ALARM_LOG_INFO_SOURCE (n : Nat) : FRef := ⟨(ALARM_LOG_INFO n), 7, 0⟩
/-- SEC.CFG (R373). -/
def SEC_CFG : Reg := ⟨0x1000080000, 0xff, 0x0⟩
def SEC_CFG_MONVALID : FRef := ⟨SEC_CFG, 7, 7⟩
def SEC_CFG_MONEID : FRef := ⟨SEC_CFG, 6, 0⟩
/-- SEC.GRPWORLD (R391). -/
def SEC_GRPWORLD : Reg := ⟨0x1000080008, 0xffffffff, 0x0⟩
def SEC_GRPWORLD_SEC : FRef := ⟨SEC_GRPWORLD, 31, 0⟩
/-- SEC.IDRANGE (R391). -/
def SEC_IDRANGE : Reg := ⟨0x1000080010, 0xfff00000fff, 0x0⟩
def SEC_IDRANGE_HI : FRef := ⟨SEC_IDRANGE, 43, 32⟩
def SEC_IDRANGE_LO : FRef := ⟨SEC_IDRANGE, 11, 0⟩
/-- SEC.DENY (R393). -/
def SEC_DENY : Reg := ⟨0x1000080018, 0xffffffffff1fffff, 0x0⟩
def SEC_DENY_COUNT : FRef := ⟨SEC_DENY, 63, 32⟩
def SEC_DENY_KIND : FRef := ⟨SEC_DENY, 31, 24⟩
def SEC_DENY_DIE : FRef := ⟨SEC_DENY, 20, 16⟩
def SEC_DENY_WHO : FRef := ⟨SEC_DENY, 15, 0⟩
/-- SEC.SRCWORLD[k] (R391). -/
def SEC_SRCWORLD (k : Nat) : Reg := ⟨0x1000080020 + k * 0x8, 0xffffffffffffffff, 0x0⟩
def SEC_SRCWORLD_SEC (k : Nat) : FRef := ⟨(SEC_SRCWORLD k), 63, 0⟩
/-- SEC.WDOG.CTL (R395). -/
def WDOG_CTL : Reg := ⟨0x1000080100, 0x1ffffffff, 0x0⟩
def WDOG_CTL_FIRED : FRef := ⟨WDOG_CTL, 32, 32⟩
def WDOG_CTL_PERIOD : FRef := ⟨WDOG_CTL, 31, 0⟩
/-- SEC.WDOG.KICK (R395). -/
def WDOG_KICK : Reg := ⟨0x1000080108, 0x1, 0x0⟩
def WDOG_KICK_KICK : FRef := ⟨WDOG_KICK, 0, 0⟩
/-- SEC.ERT[n].BASE (R374). -/
def ERT_BASE (n : Nat) : Reg := ⟨0x1000081000 + n * 0x10, 0xffffffffffe00000, 0x0⟩
def ERT_BASE_EN (n : Nat) : FRef := ⟨(ERT_BASE n), 63, 63⟩
def ERT_BASE_EID (n : Nat) : FRef := ⟨(ERT_BASE n), 62, 56⟩
def ERT_BASE_PART (n : Nat) : FRef := ⟨(ERT_BASE n), 55, 52⟩
def ERT_BASE_BASE (n : Nat) : FRef := ⟨(ERT_BASE n), 51, 21⟩
/-- SEC.ERT[n].LIMIT (R374). -/
def ERT_LIMIT (n : Nat) : Reg := ⟨0x1000081008 + n * 0x10, 0xfffffffe00000, 0x0⟩
def ERT_LIMIT_LIMIT (n : Nat) : FRef := ⟨(ERT_LIMIT n), 51, 21⟩
/-- SEC.ENC[e].STAT (R377). -/
def ENC_STAT (e : Nat) : Reg := ⟨0x1000082000 + e * 0x20, 0xc00fffffffffffff, 0x0⟩
def ENC_STAT_STATE (e : Nat) : FRef := ⟨(ENC_STAT e), 63, 62⟩
def ENC_STAT_NTHR (e : Nat) : FRef := ⟨(ENC_STAT e), 51, 48⟩
def ENC_STAT_TLOST (e : Nat) : FRef := ⟨(ENC_STAT e), 47, 32⟩
def ENC_STAT_TSUSP (e : Nat) : FRef := ⟨(ENC_STAT e), 31, 16⟩
def ENC_STAT_TBUSY (e : Nat) : FRef := ⟨(ENC_STAT e), 15, 0⟩
/-- SEC.ENC[e].ENTRY (R377). -/
def ENC_ENTRY (e : Nat) : Reg := ⟨0x1000082008 + e * 0x20, 0xffffffffffffffff, 0x0⟩
def ENC_ENTRY_ENTRY (e : Nat) : FRef := ⟨(ENC_ENTRY e), 63, 0⟩
/-- SEC.ENC[e].TSB (R377). -/
def ENC_TSB (e : Nat) : Reg := ⟨0x1000082010 + e * 0x20, 0xffffffffff000, 0x0⟩
def ENC_TSB_TSB (e : Nat) : FRef := ⟨(ENC_TSB e), 51, 12⟩
/-- FOX.START (R412). -/
def FOX_START : Reg := ⟨0x1000070500, 0xffffff07000006ff, 0x0⟩
def FOX_START_ATTEMPTS : FRef := ⟨FOX_START, 63, 48⟩
def FOX_START_MCODE : FRef := ⟨FOX_START, 47, 40⟩
def FOX_START_WARM : FRef := ⟨FOX_START, 34, 34⟩
def FOX_START_DRAMRDY : FRef := ⟨FOX_START, 33, 33⟩
def FOX_START_MFAIL : FRef := ⟨FOX_START, 32, 32⟩
def FOX_START_PREFB : FRef := ⟨FOX_START, 10, 10⟩
def FOX_START_SLOTB : FRef := ⟨FOX_START, 9, 9⟩
def FOX_START_CAUSE : FRef := ⟨FOX_START, 7, 4⟩
def FOX_START_STEP : FRef := ⟨FOX_START, 3, 0⟩
/-- FOX.CFGLOCK (R413). -/
def FOX_CFGLOCK : Reg := ⟨0x1000070508, 0x1, 0x0⟩
def FOX_CFGLOCK_LOCK : FRef := ⟨FOX_CFGLOCK, 0, 0⟩
/-- FOX.MEAS[n].W[k] (R414). -/
def FOX_MEAS (n k : Nat) : Reg := ⟨0x1000070600 + n * 0x40 + k * 0x8, 0xffffffffffffffff, 0x0⟩
def FOX_MEAS_W (n k : Nat) : FRef := ⟨(FOX_MEAS n k), 63, 0⟩
/-- FOX.DEVID.LO (R417). -/
def DEVID_LO : Reg := ⟨0x1000070a00, 0xffffffffffffffff, 0x0⟩
def DEVID_LO_ID : FRef := ⟨DEVID_LO, 63, 0⟩
/-- FOX.DEVID.HI (R417). -/
def DEVID_HI : Reg := ⟨0x1000070a08, 0xffffffffffffffff, 0x0⟩
def DEVID_HI_ID : FRef := ⟨DEVID_HI, 63, 0⟩
/-- FOX.DEVID.STAT (R417). -/
def DEVID_STAT : Reg := ⟨0x1000070a10, 0x1, 0x0⟩
def DEVID_STAT_VALID : FRef := ⟨DEVID_STAT, 0, 0⟩
/-- WEIR.DOM[D].STAT (R424). -/
def DOM_STAT (D : Nat) : Reg := ⟨0x1000092000 + D * 0x8, 0xffffffff00000107, 0x3⟩
def DOM_STAT_GATES (D : Nat) : FRef := ⟨(DOM_STAT D), 63, 32⟩
def DOM_STAT_HOLD (D : Nat) : FRef := ⟨(DOM_STAT D), 8, 8⟩
def DOM_STAT_STATE (D : Nat) : FRef := ⟨(DOM_STAT D), 2, 0⟩
/-- WEIR.CFG (R441). -/
def WEIR_CFG : Reg := ⟨0x1000090000, 0xffffffffffffffff, 0x72e0eda5896186⟩
def WEIR_CFG_TLR : FRef := ⟨WEIR_CFG, 63, 44⟩
def WEIR_CFG_AVSRAIL : FRef := ⟨WEIR_CFG, 43, 40⟩
def WEIR_CFG_VMAX : FRef := ⟨WEIR_CFG, 39, 30⟩
def WEIR_CFG_VMIN : FRef := ⟨WEIR_CFG, 29, 20⟩
def WEIR_CFG_PCEILMAX : FRef := ⟨WEIR_CFG, 19, 10⟩
def WEIR_CFG_SLEW : FRef := ⟨WEIR_CFG, 9, 0⟩
/-- WEIR.BOUND (R442). -/
def WEIR_BOUND : Reg := ⟨0x1000090008, 0x2ff03ff, 0x640258⟩
def WEIR_BOUND_POLICY : FRef := ⟨WEIR_BOUND, 25, 25⟩
def WEIR_BOUND_TJLIM : FRef := ⟨WEIR_BOUND, 23, 16⟩
def WEIR_BOUND_PCEIL : FRef := ⟨WEIR_BOUND, 9, 0⟩
/-- WEIR.STAT (R445). -/
def WEIR_STAT : Reg := ⟨0x1000090010, 0xfffffffffff8ffff, 0x0⟩
def WEIR_STAT_CFG_REJECT : FRef := ⟨WEIR_STAT, 63, 63⟩
def WEIR_STAT_SPATE : FRef := ⟨WEIR_STAT, 62, 61⟩
def WEIR_STAT_AVSOK : FRef := ⟨WEIR_STAT, 60, 60⟩
def WEIR_STAT_PWR : FRef := ⟨WEIR_STAT, 59, 48⟩
def WEIR_STAT_IREAD : FRef := ⟨WEIR_STAT, 47, 39⟩
def WEIR_STAT_VREAD : FRef := ⟨WEIR_STAT, 38, 29⟩
def WEIR_STAT_VSET : FRef := ⟨WEIR_STAT, 28, 19⟩
def WEIR_STAT_HOTTJ : FRef := ⟨WEIR_STAT, 15, 0⟩
/-- WEIR.EVT (R445). -/
def WEIR_EVT : Reg := ⟨0x1000090018, 0xff, 0x0⟩
def WEIR_EVT_DOMDONE : FRef := ⟨WEIR_EVT, 7, 7⟩
def WEIR_EVT_IODHOT : FRef := ⟨WEIR_EVT, 6, 6⟩
def WEIR_EVT_HALT : FRef := ⟨WEIR_EVT, 5, 5⟩
def WEIR_EVT_AVSERR : FRef := ⟨WEIR_EVT, 4, 4⟩
def WEIR_EVT_VRHOT : FRef := ⟨WEIR_EVT, 3, 3⟩
def WEIR_EVT_CEIL : FRef := ⟨WEIR_EVT, 2, 2⟩
def WEIR_EVT_THERM : FRef := ⟨WEIR_EVT, 1, 1⟩
def WEIR_EVT_FLOORMISS : FRef := ⟨WEIR_EVT, 0, 0⟩
/-- WEIR.EVTEN (R445). -/
def WEIR_EVTEN : Reg := ⟨0x1000090020, 0xff, 0x0⟩
def WEIR_EVTEN_FLOORMISS : FRef := ⟨WEIR_EVTEN, 0, 0⟩
def WEIR_EVTEN_THERM : FRef := ⟨WEIR_EVTEN, 1, 1⟩
def WEIR_EVTEN_CEIL : FRef := ⟨WEIR_EVTEN, 2, 2⟩
def WEIR_EVTEN_VRHOT : FRef := ⟨WEIR_EVTEN, 3, 3⟩
def WEIR_EVTEN_AVSERR : FRef := ⟨WEIR_EVTEN, 4, 4⟩
def WEIR_EVTEN_HALT : FRef := ⟨WEIR_EVTEN, 5, 5⟩
def WEIR_EVTEN_IODHOT : FRef := ⟨WEIR_EVTEN, 6, 6⟩
def WEIR_EVTEN_DOMDONE : FRef := ⟨WEIR_EVTEN, 7, 7⟩
/-- WEIR.DOMCMD (R444). -/
def WEIR_DOMCMD : Reg := ⟨0x1000090028, 0xc300000000ff01ff, 0x0⟩
def WEIR_DOMCMD_GO : FRef := ⟨WEIR_DOMCMD, 63, 63⟩
def WEIR_DOMCMD_BUSY : FRef := ⟨WEIR_DOMCMD, 62, 62⟩
def WEIR_DOMCMD_OP : FRef := ⟨WEIR_DOMCMD, 57, 56⟩
def WEIR_DOMCMD_ST : FRef := ⟨WEIR_DOMCMD, 23, 16⟩
def WEIR_DOMCMD_DOM : FRef := ⟨WEIR_DOMCMD, 8, 0⟩
/-- WEIR.TILE[n].REQ (R443). -/
def WEIR_TILE_REQ (n : Nat) : Reg := ⟨0x1000091000 + n * 0x8, 0x3ffff, 0x0⟩
def WEIR_TILE_REQ_HINT (n : Nat) : FRef := ⟨(WEIR_TILE_REQ n), 17, 16⟩
def WEIR_TILE_REQ_FLOOR (n : Nat) : FRef := ⟨(WEIR_TILE_REQ n), 15, 0⟩
/-- ERRBANK.STAT (R455). -/
def EB_STAT (b : Nat) : Reg := ⟨b, 0x707, 0x0⟩
def EB_STAT_OVF (b : Nat) : FRef := ⟨(EB_STAT b), 10, 8⟩
def EB_STAT_V (b : Nat) : FRef := ⟨(EB_STAT b), 2, 0⟩
/-- ERRBANK.REC[i].W[k] (R455). -/
def EB_REC (b i k : Nat) : Reg := ⟨b + 0x40 + i * 0x40 + k * 8, 0xffffffffffffffff, 0x0⟩
def EB_REC_W (b i k : Nat) : FRef := ⟨(EB_REC b i k), 63, 0⟩
/-- ERR.RINGSTAT (R457). -/
def ERR_RINGSTAT (d : Nat) : Reg := ⟨errBase d + 0x0, 0xffff0000001f000f, 0x0⟩
def ERR_RINGSTAT_LOST (d : Nat) : FRef := ⟨(ERR_RINGSTAT d), 63, 48⟩
def ERR_RINGSTAT_COUNT (d : Nat) : FRef := ⟨(ERR_RINGSTAT d), 20, 16⟩
def ERR_RINGSTAT_TAIL (d : Nat) : FRef := ⟨(ERR_RINGSTAT d), 3, 0⟩
/-- ERR.RINGPOP (R457). -/
def ERR_RINGPOP (d : Nat) : Reg := ⟨errBase d + 0x8, 0x1, 0x0⟩
def ERR_RINGPOP_POP (d : Nat) : FRef := ⟨(ERR_RINGPOP d), 0, 0⟩
/-- ERR.CFG (R457). -/
def ERR_CFG (d : Nat) : Reg := ⟨errBase d + 0x10, 0xff0107, 0x6⟩
def ERR_CFG_FATALWARM (d : Nat) : FRef := ⟨(ERR_CFG d), 23, 16⟩
def ERR_CFG_INJEN (d : Nat) : FRef := ⟨(ERR_CFG d), 8, 8⟩
def ERR_CFG_EVTUCR (d : Nat) : FRef := ⟨(ERR_CFG d), 2, 2⟩
def ERR_CFG_EVTUCNA (d : Nat) : FRef := ⟨(ERR_CFG d), 1, 1⟩
def ERR_CFG_EVTCE (d : Nat) : FRef := ⟨(ERR_CFG d), 0, 0⟩
/-- ERR.RING[i].W[k] (R457). -/
def ERR_RING (d i k : Nat) : Reg := ⟨errBase d + 0x400 + i * 0x40 + k * 8, 0xffffffffffffffff, 0x0⟩
def ERR_RING_W (d i k : Nat) : FRef := ⟨(ERR_RING d i k), 63, 0⟩
/-- ERR.SUMMARY (R457). -/
def ERR_SUMMARY : Reg := ⟨0x10000c0018, 0x1ffff, 0x0⟩
def ERR_SUMMARY_RING : FRef := ⟨ERR_SUMMARY, 16, 0⟩
/-- ERR.FATAL (R472). -/
def ERR_FATAL : Reg := ⟨0x10000c0020, 0xc000001f0000ffff, 0x0⟩
def ERR_FATAL_V : FRef := ⟨ERR_FATAL, 63, 63⟩
def ERR_FATAL_COLD : FRef := ⟨ERR_FATAL, 62, 62⟩
def ERR_FATAL_DIE : FRef := ⟨ERR_FATAL, 36, 32⟩
def ERR_FATAL_EVENT : FRef := ⟨ERR_FATAL, 15, 0⟩
/-- ARR[a].CECNT (R460). -/
def ARR_CECNT (d a : Nat) : Reg := ⟨errBase d + 0x10000 + a * 0x80 + 0x0, 0xffffffff, 0x0⟩
def ARR_CECNT_COUNT (d a : Nat) : FRef := ⟨(ARR_CECNT d a), 31, 0⟩
/-- ARR[a].FLIP (R474). -/
def ARR_FLIP (d a : Nat) : Reg := ⟨errBase d + 0x10000 + a * 0x80 + 0x8, 0x80000000000001ff, 0x0⟩
def ARR_FLIP_ARM (d a : Nat) : FRef := ⟨(ARR_FLIP d a), 63, 63⟩
def ARR_FLIP_CMASK (d a : Nat) : FRef := ⟨(ARR_FLIP d a), 8, 0⟩
/-- ARR[a].FLIPD (R474). -/
def ARR_FLIPD (d a : Nat) : Reg := ⟨errBase d + 0x10000 + a * 0x80 + 0x10, 0xffffffffffffffff, 0x0⟩
def ARR_FLIPD_DMASK (d a : Nat) : FRef := ⟨(ARR_FLIPD d a), 63, 0⟩
/-- ARR[a].ADDR[j] (R460). -/
def ARR_ADDR (d a j : Nat) : Reg := ⟨errBase d + 0x10040 + a * 0x80 + j * 8, 0xff8fffffffffffc0, 0x0⟩
def ARR_ADDR_V (d a j : Nat) : FRef := ⟨(ARR_ADDR d a j), 63, 63⟩
def ARR_ADDR_CNT (d a j : Nat) : FRef := ⟨(ARR_ADDR d a j), 62, 56⟩
def ARR_ADDR_KIND (d a j : Nat) : FRef := ⟨(ARR_ADDR d a j), 55, 55⟩
def ARR_ADDR_LOC (d a j : Nat) : FRef := ⟨(ARR_ADDR d a j), 51, 6⟩
/-- PMU.CTL (R488). -/
def PMU_CTL (b : Nat) : Reg := ⟨b + 0xd00, 0xf03, 0x0⟩
def PMU_CTL_OVF (b : Nat) : FRef := ⟨(PMU_CTL b), 11, 8⟩
def PMU_CTL_FRZOVF (b : Nat) : FRef := ⟨(PMU_CTL b), 1, 1⟩
def PMU_CTL_EN (b : Nat) : FRef := ⟨(PMU_CTL b), 0, 0⟩
/-- PMU.MSI (R488). -/
def PMU_MSI (b : Nat) : Reg := ⟨b + 0xd08, 0x800003ff000707ff, 0x0⟩
def PMU_MSI_EN (b : Nat) : FRef := ⟨(PMU_MSI b), 63, 63⟩
def PMU_MSI_HART (b : Nat) : FRef := ⟨(PMU_MSI b), 41, 32⟩
def PMU_MSI_FILE (b : Nat) : FRef := ⟨(PMU_MSI b), 18, 16⟩
def PMU_MSI_IDENT (b : Nat) : FRef := ⟨(PMU_MSI b), 10, 0⟩
/-- PMU.EVT[i] (R488). -/
def PMU_EVT (b i : Nat) : Reg := ⟨b + 0xd20 + i * 0x10, 0x1ffffff, 0x0⟩
def PMU_EVT_EDGE (b i : Nat) : FRef := ⟨(PMU_EVT b i), 24, 24⟩
def PMU_EVT_THRESH (b i : Nat) : FRef := ⟨(PMU_EVT b i), 23, 16⟩
def PMU_EVT_EVENT (b i : Nat) : FRef := ⟨(PMU_EVT b i), 15, 0⟩
/-- PMU.CNT[i] (R488). -/
def PMU_CNT (b i : Nat) : Reg := ⟨b + 0xd28 + i * 0x10, 0xffffffffffffffff, 0x0⟩
def PMU_CNT_COUNT (b i : Nat) : FRef := ⟨(PMU_CNT b i), 63, 0⟩
/-- ID.BASELINE (R502). -/
def ID_BASELINE : Reg := ⟨0x1000000000, 0xffffffffffff0000, 0x925600010000⟩
def ID_BASELINE_PART : FRef := ⟨ID_BASELINE, 63, 32⟩
def ID_BASELINE_BASE : FRef := ⟨ID_BASELINE, 31, 16⟩
/-- ID.STEPPING (R502). -/
def ID_STEPPING : Reg := ⟨0x1000000008, 0xff, Config.fuse (0x1000000008)⟩
def ID_STEPPING_STEP : FRef := ⟨ID_STEPPING, 7, 0⟩
/-- ID.FEATURE_AVAIL (R503). -/
def ID_FEATURE_AVAIL : Reg := ⟨0x1000000010, 0xffffffffffffffff, Config.fuse (0x1000000010)⟩
def ID_FEATURE_AVAIL_AVAIL : FRef := ⟨ID_FEATURE_AVAIL, 63, 0⟩
/-- ID.FEATURE_LOCK (R503). -/
def ID_FEATURE_LOCK : Reg := ⟨0x1000000018, 0x8000000000000000, 0x8000000000000000⟩
def ID_FEATURE_LOCK_LOCKED : FRef := ⟨ID_FEATURE_LOCK, 63, 63⟩

/-- The indices at which offset `r` (counted from a family's base) lies on a register of the family. -/
def dimIndex : List (Nat × Nat) → Nat → Option (List Nat)
  | [], r => if r = 0 then some [] else none
  | (c, s) :: ds, r => if r / s < c then (dimIndex ds (r % s)).map (r / s :: ·) else none

/-- The register at an 8-byte aligned window offset: its family and its indices. -/
def findReg (off : Nat) : Option (Family × List Nat) :=
  families.findSome? fun f => if f.base ≤ off then (dimIndex f.dims (off - f.base)).map (f, ·) else none

/-- The implemented bits of a register with these fields. -/
def fieldsMask (fs : List Field) : BitVec 64 :=
  fs.foldl (fun m f => m ||| (BitVec.ofNat 64 (2 ^ (f.hi - f.lo + 1) - 1) <<< f.lo)) 0

/-- The reset value of the register at `off` with these fields; a field that reads 'fuse' takes the fuse's value. -/
def fieldsRst (off : Nat) (fs : List Field) : BitVec 64 :=
  fs.foldl (fun m f =>
    let fm := BitVec.ofNat 64 (2 ^ (f.hi - f.lo + 1) - 1) <<< f.lo
    m ||| (match f.rst with
      | some v => BitVec.ofNat 64 v <<< f.lo
      | none => Config.fuse off &&& fm)) 0

/-- The register of a family at an offset. -/
def Family.reg (f : Family) (off : Nat) : Reg := ⟨off, fieldsMask f.fields, fieldsRst off f.fields⟩

end Sys2Proof.Machine
end

