-- ==== Sys2Proof/Machine/Sparse.lean ====
section
/-! DEFINITION. Sparse stores: lists of (key, value) pairs with strictly rising keys. An unlisted key holds nothing, or
the default that its reader names; a write of the default removes the entry, so that equal stores are equal lists. -/
namespace Sys2Proof.Machine

/-- A finite map from numbers, in rising order of keys. -/
abbrev Sparse (α : Type) := List (Nat × α)

/-- The value listed at a key, if any. -/
def Sparse.find? {α : Type} : Sparse α → Nat → Option α
  | [], _ => none
  | (j, v) :: m, k => if k = j then some v else Sparse.find? m k

/-- The store with `v` listed at `k`. -/
def Sparse.put {α : Type} : Sparse α → Nat → α → Sparse α
  | [], k, v => [(k, v)]
  | (j, w) :: m, k, v =>
    if k < j then (k, v) :: (j, w) :: m
    else if k = j then (k, v) :: m
    else (j, w) :: Sparse.put m k v

/-- The store with nothing listed at `k`. -/
def Sparse.del {α : Type} : Sparse α → Nat → Sparse α
  | [], _ => []
  | (j, w) :: m, k => if k = j then Sparse.del m k else (j, w) :: Sparse.del m k

/-- List a value, or nothing, at `k`. -/
def Sparse.upd {α : Type} (m : Sparse α) (k : Nat) : Option α → Sparse α
  | some v => m.put k v
  | none => m.del k

/-- The value at `k` where an unlisted key holds `d`. -/
def Sparse.get {α : Type} (d : α) (m : Sparse α) (k : Nat) : α := (m.find? k).getD d

/-- What a write of `v` lists where an unlisted key holds `d`: nothing when `v` is `d`. -/
def listed {α : Type} [DecidableEq α] (d v : α) : Option α := if v = d then none else some v

/-- The keys rise strictly. -/
def Sparse.wf {α : Type} : Sparse α → Bool
  | [] => true
  | [_] => true
  | (j, _) :: (k, v) :: m => decide (j < k) && Sparse.wf ((k, v) :: m)

/-- The keys rise strictly, and no entry holds what an unlisted key holds. -/
def Sparse.canon {α : Type} [DecidableEq α] (d : α) (m : Sparse α) : Bool := m.wf && m.all fun e => decide (e.2 ≠ d)

end Sys2Proof.Machine
end

