-- ==== Sys2Proof/Machine/State.lean ====
section
/-! DEFINITION. The state of the block: plain data, everything the spec gives the machine. A register of the window is
held in `regs` by its offset and nowhere else; an unlisted register, hart, tile, slot or line reads as it does after
reset. -/
namespace Sys2Proof.Machine

/-- Privilege modes of a hart (R59, R79); `s` is HS-mode when the H extension distinguishes it. -/
inductive Mode
  | m | s | u | vs | vu | debug
deriving DecidableEq, Repr

/-- What a hart does (R68): held, running, parked, halted in Debug Mode, halted by FATAL. -/
inductive HRun
  | held | running | parked | debug | fatal
deriving DecidableEq, Repr

/-- Which instruction parked a hart (R59, R81). -/
inductive ParkKind
  | wfi | wrsNto | wrsSto | dwPark
deriving DecidableEq, Repr

/-- A park in progress (R80, R81): its instruction, destination, depth, line monitor, deadline and the offset added to
time for the comparison; `ended` holds the conditions that ended it while its tile was gated, until the tile has woken. -/
structure Park where
  kind : ParkKind
  rd : Nat
  depth : Nat
  mon : Bool
  deadline : Option Word
  delta : Word
  ended : Option Nat := none
deriving DecidableEq, Repr

/-- One leaf translation or non-leaf PTE that a hart has cached (R111): its tags, the span it covers (log2), the virtual
page base, and what it maps. For a two-stage entry `gpa` is the guest physical page. `mode` and `gmode` are the modes of satp or vsatp and of
hgatp under which it was made (R121), and `slg` and `glg` the spans of the leaf PTEs that it was made from (R120).
`gstage` marks a G-stage PTE, for which `va` is a guest physical address. -/
structure TlbEntry where
  leaf : Bool
  v : Bool
  glob : Bool
  asid : Nat
  vmid : Nat
  lg : Nat
  va : Nat
  pa : Nat
  gpa : Nat
  perm : BitVec 8
  gperm : BitVec 8
  pbmt : Nat
  key : Nat
  fetch : Bool
  gstage : Bool
  mode : Nat := 0
  gmode : Nat := 0
  slg : Nat := 12
  glg : Nat := 12
deriving DecidableEq, Repr

/-- The bytes of an access that lie in one line: their place in the line and in the value. -/
structure Part where
  line : LineAddr
  off : Nat
  len : Nat
  pos : Nat
deriving DecidableEq, Repr

/-- What an access does with its bytes. -/
inductive MemOp
  | load (rd : Dest) (uns : Bool)
  | lr (rd : Nat)
  | sc (rd : Nat) (v : BitVec 128)
  | amo (rd : Nat) (op : AmoOp) (a b : BitVec 128)
deriving DecidableEq, Repr

/-- An access in progress: its operation, log2 of its size, the parts still to be read, the bytes gathered, the mask of the
bytes forwarded from the hart's own stores (R27), and its virtual address. -/
structure Acc where
  op : MemOp
  lg : Nat
  parts : List Part
  got : BitVec 128 := 0
  fwd : Nat := 0
  va : Word
deriving DecidableEq, Repr

/-- What an instruction does once the hart's earlier stores are visible: it retires, accesses its line (R130), sends an AMO to the
home (R90) or CBOs (R141), acts on a slot (R145), or wakes a hart (R86). -/
inductive Next
  | retire
  | line (a : Acc)
  | home (a : Acc)
  | cbo (k : MsgKind) (lines : List LineAddr) (rd : Option (Nat × Word))
  | swop (op level set way rd : Nat)
  | wake (target rd : Nat)
deriving DecidableEq, Repr

/-- Where the decoder sends a memory-region address (R21). -/
inductive Target
  | dram (chan la : Nat)
  | peer (p : Nat)
  | cxl (g : Nat)
  | none_
deriving DecidableEq, Repr

/-- Why a hart waits within an instruction: for a line (R23), for its home (R90, R97), for a device (R187), for its own
stores, those to some lines or all, to become visible (R130, R187), for the homes of CBOs (R141) or of a store of memory type IO
(R97), for a slot that a DW.SWOP names, or for the home to accept the line that it wrote (R145). -/
inductive Wait
  | line (a : Acc)
  | home (a : Acc)
  | device (a : Acc)
  | drain (lines : Option (List LineAddr)) (next : Next)
  | cbo (lines : List LineAddr) (rd : Option (Nat × Word))
  | swop (op level set way rd : Nat)
  | written (l : LineAddr) (rd v : Nat)
deriving DecidableEq, Repr

/-- What a gate keeps of the caller (R384): pc, mode, the destination of DW.GATEIN and the saved registers. -/
structure Caller where
  pc : Word
  mode : Mode
  rd : Nat
  xs : List Word
deriving DecidableEq, Repr

/-- A hart (R55 to R92, R374). `wait` says what an instruction in progress waits for, `ncOut` which NC and IO stores have not
been acknowledged (R129), `edge` bit i - 3 whether the condition of counter i held in the last token that passed (R480). `dbgPend` says that
it is to halt with the cause `dbgCause`; `trigs` holds tdata1 and tdata2 of its debug triggers, and `trigPend` one that fires before the next
instruction (R56). `noMem` is a line that its walk or fetch asked for and no memory has (R527). `lag` is by how much the fetch opportunities that
the hart has received since it became eligible fall short of its share, in units of 1/144403552893600, and `dry` the tokens since the latest of
them (R64); `issued` counts its operations in the reorder window (R62), `recover` says that it recovers from a misprediction or a flush (R486), and
`tally` holds the occurrences of events since the last token, by code (R479). -/
structure Hart where
  run : HRun := .held
  mode : Mode := .m
  pc : Word := 0
  wait : Option Wait := none
  ncOut : List LineAddr := []
  park : Option Park := none
  wake : Bool := false
  pause : Bool := false
  resv : Option LineAddr := none
  lrDelay : Option LineAddr := none
  eid : Nat := 0
  thread : Nat := 0
  saved : Option Caller := none
  dbgPend : Bool := false
  dbgCause : Nat := 3
  trigs : Sparse (Word × Word) := []
  trigPend : Option Nat := none
  edge : BitVec 8 := 0
  tlb : List TlbEntry := []
  noMem : Option LineAddr := none
  lag : Int := 0
  dry : Nat := 0
  issued : Nat := 0
  recover : Bool := false
  tally : Sparse Nat := []
deriving DecidableEq, Repr

/-- An IMSIC file (R69, R71): identities pending and enabled (bit i for identity i), delivery and threshold. -/
structure Imsic where
  pend : BitVec 2048 := 0
  enab : BitVec 2048 := 0
  delivery : Word := 0
  thresh : Word := 0
deriving DecidableEq, Repr

/-- An injected code error in a stored word (R474, R475): the word or byte index and the flipped data and check bits. -/
structure Flip where
  idx : Nat
  d : BitVec 64
  c : BitVec 9
deriving DecidableEq, Repr

/-- A slot of an L1I or L1D; its data is that of the L2 copy (R128). -/
structure L1Slot where
  line : LineAddr
  flip : Option Flip := none
  tagFlip : Bool := false
deriving DecidableEq, Repr

/-- A slot of an L2 (R125, R158). -/
structure L2Slot where
  line : LineAddr
  st : St
  data : LineData
  poison : Bool := false
  flip : Option Flip := none
  tagFlip : Bool := false
deriving DecidableEq, Repr

/-- A slot of an L3 (R125, R126, R147): core-valid bits, partition, 2-bit re-reference value. -/
structure L3Slot where
  line : LineAddr
  st : St
  cv : BitVec 16
  part : Nat
  data : LineData
  poison : Bool := false
  rrpv : Nat := 2
  flip : Option Flip := none
  tagFlip : Bool := false
  cvFlip : Bool := false
deriving DecidableEq, Repr

/-- A merging-buffer entry (R129); `zero` marks one that CBO.ZERO made, which asks for ownership without data (R139). -/
structure SmbEntry where
  hart : Nat
  line : LineAddr
  data : LineData
  mask : BitVec 64
  draining : Bool := false
  zero : Bool := false
  flip : Option Flip := none
deriving DecidableEq, Repr

/-- A store that holds a store-queue entry while the merging buffer is full (R26); `draining` marks one whose hart waits for it. -/
structure SqEntry where
  hart : Nat
  line : LineAddr
  data : LineData
  mask : BitVec 64
  zero : Bool := false
  draining : Bool := false
deriving DecidableEq, Repr

/-- What waits for a line at a tile (R132): the access of a hart, the drain of a hart's merging-buffer entry, a hart's fetch,
a hart's walk (R113), or nothing, for a prefetch that fills L2, or L1I too, or one of the stride prefetcher, which fills L1D (R133). -/
inductive Want
  | hart (h : Nat)
  | drain (h : Nat)
  | fetch (h : Nat)
  | walk (h : Nat)
  | prefetch (l1i : Bool)
  | stride
deriving DecidableEq, Repr

/-- A miss register of a tile's L2 (R132): the permission asked for (ownership or read, Claim for ownership without
data), whether its request has gone out, and what waits. -/
structure MissReg where
  line : LineAddr
  own : Bool
  claim : Bool := false
  sent : Bool := false
  hw : Bool := false
  want : List Want := []
deriving DecidableEq, Repr

/-- A line in a victim buffer (R127, R174). -/
structure Victim where
  line : LineAddr
  st : St
  data : LineData
  poison : Bool
  surrendered : Bool := false
  keep : Bool := false
  flip : Option Flip := none
deriving DecidableEq, Repr

/-- A tile: its core enclave ID, merging buffer, store queue, miss registers, L2 victim buffer, whether it is halted for low
voltage (R450), whether a core switch is in progress (R388), the tokens of the present measurement window (R44), and whether
its harts have stayed parked for 50 µs (R443); `stash` holds the L2 ways named for accepted stash offers (R153). `below` says that VCORE was
below the droop threshold when last read (R46), `window` is the time at which the present window began (R44), `dealt` the hart that received the
last empty slot (R485), and `tally` holds the occurrences of the tile's own events since the last token (R479). -/
structure Tile where
  ceid : Nat := 0
  smb : List SmbEntry := []
  sq : List SqEntry := []
  miss : List MissReg := []
  vict : List Victim := []
  halted : Bool := false
  switching : Bool := false
  tokens : Nat := 0
  idle : Bool := false
  stash : List (LineAddr × Nat) := []
  below : Bool := false
  window : Word := 0
  dealt : Nat := 3
  tally : Sparse Nat := []
deriving DecidableEq, Repr

/-- A miss register of an L3 quadrant (R132): the way named, the request sent, the tiles that wait with the request of each,
and the partition that its line belongs to (R147); `alloc` is false for one that a disabled quadrant serves (R156), and `placed` while
it waits for a slot or for the victim buffer (R134, R150). -/
structure QMiss where
  line : LineAddr
  way : Nat
  kind : MsgKind
  tiles : List (Nat × MsgKind)
  alloc : Bool := true
  part : Nat := 0
  placed : Bool := true
deriving DecidableEq, Repr

/-- An L3 quadrant: miss registers, victim buffer, and tile requests that wait for a register, a slot, the victim buffer, or
a tile that delays its answer (R132, R150, R186). -/
structure Quad where
  miss : List QMiss := []
  vict : List Victim := []
  waiting : List (Nat × LineAddr × MsgKind) := []
deriving DecidableEq, Repr

/-- Where a request in a line's queue stands (R161, R170): waiting for its turn; for snoop answers and memory; for the
requester's Ack; for a memory write; for a stash answer; for a peer socket (R180), or for it to accept this socket's dirty data
first; for an entry of a device filter (R183). -/
inductive Phase
  | queued | snooping | waitAck | waitMAck | waitStash | waitPeer | waitPut | waitRecall
deriving DecidableEq, Repr

/-- The states a snoop-filter entry records (R158): S, O or X, and I, which is listed only where an error is stored with it (R475); an absent
entry is I. -/
inductive FSt
  | S | O | X | I
deriving DecidableEq, Repr

/-- A request or eviction in a line's queue at its home (R161): where the decoder sent it when it was ordered (R22), the agents still
to answer its snoops, whether memory is still to answer, what both have returned, how the requester's filter entry stood, and the answer
of a peer socket (R180). `own` marks an operation of the slice itself: the data of a line that a device filter gave up (R183), or the write
of a line that a fenced die owned (R217); `recalling` is the line that a request
waits for one to give up (R183), and `flip` an injected error in its tracker (R475). -/
structure HReq where
  msg : Msg
  to_ : Target
  phase : Phase := .queued
  snooped : List Agent := []
  needMem : Bool := false
  mem : Option (LineData × Bool × Fin 4) := none
  dirty : Option (LineData × Bool) := none
  answers : List (Agent × St) := []
  discardedO : Bool := false
  held : Option FSt := none
  grant : Option MsgKind := none
  own : Bool := false
  recalling : Option LineAddr := none
  flip : Option Flip := none
deriving DecidableEq, Repr

/-- A snoop-filter entry (R162), with an injected code error (R475). -/
structure FEntry where
  line : LineAddr
  st : FSt
  flip : Option Flip := none
deriving DecidableEq, Repr

/-- A peer snoop being served by a proxy (R181): the snoop, the local holders still to answer, and what they returned. -/
structure PeerSnoop where
  msg : Msg
  left : List Agent
  dirty : Option (LineData × Bool) := none
  states : List St := []
deriving DecidableEq, Repr

/-- A home slice: shadow entries (die, line, state; R163), device-filter entries in order of grant (group, line, state; R183), peer
snoops being served (R181), and the lines of directory writes that no request waits for (R179). -/
structure Slice where
  shadow : List (Nat × LineAddr × FSt) := []
  devs : List (Nat × LineAddr × St) := []
  peerSnoops : List PeerSnoop := []
  loose : List LineAddr := []
deriving DecidableEq, Repr

/-- A written DRAM line (R241, R245): its data as written, the key and tweak address it was encrypted under, directory,
poison, and the errors in its stored symbols, by coefficient. A line never written since power-up is not listed (R247). -/
structure DLine where
  data : LineData
  dir : Nat := 0
  poison : Bool := false
  key : BitVec 512 := 0
  tweak : Nat := 0
  err : List (Nat × BitVec 16) := []
deriving DecidableEq, Repr

/-- A key slot (R349): STATE, TYPE, key, GEN, COUNTER, LIMLOG of HARD, OWNER, and whether the present loading has entered
the rekey queue (R360). -/
structure KeySlot where
  loaded : Bool := false
  type : Nat := 0
  key : BitVec 512 := 0
  gen : Nat := 0
  counter : Nat := 0
  limlog : Nat := 0
  owner : Nat := 0xFFFF
  crossed : Bool := false
deriving DecidableEq, Repr

/-- A memory channel beside its registers: messages held while the channel issues nothing (R235, R239, R249), each with its key slot as it stood at acceptance (R246), the band that a
switch window waits for and whether one is open (R235), successive failed reads of each thermal sensor (R234), whether a rank
reports doubled refresh (R238), replays in succession, and whether an alert lasts (R249). -/
structure Chan where
  held : List (Msg × KeySlot) := []
  target : Option Nat := none
  window : Bool := false
  silent : List Nat := []
  mr4 : Bool := false
  replays : Nat := 0
  alert : Bool := false
deriving DecidableEq, Repr

/-- The timebase receiver of a compute die (R48 to R53): its copy of the count, increments to withhold, and while LOST
the last intact sync word with the ticks counted since the tick that brought its last bit. -/
structure TbRx where
  time : Word := 0
  withhold : Nat := 0
  relock : Option (Word × Nat) := none
deriving DecidableEq, Repr

/-- A direction of a Rill or socket link at its receiver (R195 to R197, R529): the expected sequence number, the number that
a retry request asked the sender to resend from, the rejections in succession with each lane's count among them, and the
lanes that showed code violations with their times. Of a Rill link also the retry request on its way on the sideband, the flit up to
which the sender's flits are acknowledged, the logical lane of the next word, the levels of the lanes' acknowledge wires, and each
lane's stalls (R192, R194, R195). -/
structure LinkDir where
  exp : BitVec 12 := 0
  asked : Option (BitVec 12) := none
  acked : Option (BitVec 12) := none
  pos : Nat := 0
  acks : BitVec 18 := 0
  stalls : List (Nat × Nat) := []
  resend : Option (BitVec 12) := none
  fails : Nat := 0
  counts : List (Nat × Nat) := []
  viol : List (Nat × Nat) := []
deriving DecidableEq, Repr

/-- What the IOD and its links keep for a compute die: whether an interrupt write was discarded since it went offline and
is still to be recorded (1) or has been (2) (R218), the lines that a reset has poisoned (R216), the tiles under reset and
the lines poisoned for each (R215), whether the next join raises the online event (R220), whether training has ended
(R220), whether its RWL fields are writable after a die reset (R219), and the two link directions. -/
structure Die where
  drop : Nat := 0
  poisoned : Nat := 0
  tileRst : List (Nat × Nat) := []
  late : Bool := false
  trained : Bool := false
  opened : Bool := false
  up : LinkDir := {}
  dn : LinkDir := {}
deriving DecidableEq, Repr

/-- One domain of the APLIC (R341, AIA): domaincfg.IE, the pending and enabled sources, the input levels, and the last
value written to genmsi. -/
structure AplicDom where
  ie : Bool := false
  pend : BitVec 256 := 0
  enab : BitVec 256 := 0
  level : BitVec 256 := 0
  genmsi : BitVec 32 := 0
deriving DecidableEq, Repr

/-- sourcecfg and target of one source in one domain of the APLIC (AIA): delegated, source mode, and the target's hart
index, guest index and identity. -/
structure AplicSrc where
  deleg : Bool := false
  sm : Nat := 0
  hart : Nat := 0
  guest : Nat := 0
  eiid : Nat := 0
deriving DecidableEq, Repr

/-- An entry of the IOTLB (R336): its device and process, the tags of its address spaces, the span it covers (log2), and
what it maps; bits 0 to 3 of `perm` are R, W, X and U. -/
structure IoTlb where
  did : Nat
  pid : Option Nat
  gscid : Nat
  pscid : Nat
  glob : Bool
  lg : Nat
  iova : Nat
  gpa : Nat
  pa : Nat
  perm : Nat
deriving DecidableEq, Repr

/-- The IOMMU (R336): its registers as 32-bit words by offset / 4, the cached device contexts by device ID and process
contexts by device and process ID, the IOTLB, and the vectors whose message waits behind a mask. -/
structure Iommu where
  regs : Sparse (BitVec 32) := []
  ddc : List (Nat × List Word) := []
  pdc : List (Nat × Nat × Word × Word) := []
  tlb : List IoTlb := []
  waits : Nat := 0
deriving DecidableEq, Repr

/-- What a link group holds back until earlier posted writes of its requester are visible (R30, R318, R339): a posted write
with its number, a read with the lines still to come and those it has, an AtomicOp, a set-pending write, or a message of a
legacy interrupt. -/
inductive InAct
  | write (n : Nat) (m : Msg)
  | read (tag addr len : Nat) (left : List LineAddr) (got : List (LineAddr × LineData × Bool))
  | atom (tag : Nat) (m : Msg)
  | msi (q : Requester) (h file i : Nat)
  | peerMsi (p : Nat) (off : Nat) (i : Nat)
  | intx (port n : Nat) (up : Bool)
deriving DecidableEq, Repr

/-- An inbound item: its requester and port, the posted writes it waits for, by number, and whether its requests have gone out. -/
structure InItem where
  rid : Nat
  port : Nat := 0
  deps : List Nat
  sent : Bool := false
  act : InAct
deriving DecidableEq, Repr

/-- An outbound non-posted request: its tag, port and address, the hart that waits for it, or the group and tag of the inbound
request that it carries on (R313, R314, R321). -/
structure OutReq where
  tag : Nat
  port : Nat
  addr : Nat
  h : Option Nat := none
  back : Option (Nat × Nat) := none
deriving DecidableEq, Repr

/-- A link group beside its registers: the memory writes in its posted buffer by port, the numbers of their parts, first and one past the last,
and bytes (R321), posted writes not yet visible with their number, requester and line, those of them that have gone
to their homes with their line, in order, what waits for them, outbound non-posted requests, the numbers used, successive authentication failures of a socket link's flit (R334),
whether the peer's directory is on (R332), the key set that each IDE stream, or the socket link, uses (bit n; R351), the
streams that have left Secure and are not keyed again (R323), and the legacy interrupts that ports assert (bit port × 4 + n). -/
structure Group where
  buf : List (Nat × Nat × Nat × Nat) := []
  posted : List (Nat × Nat × LineAddr) := []
  asked : List (Nat × LineAddr) := []
  held : List InItem := []
  outs : List OutReq := []
  seq : Nat := 0
  fails : Nat := 0
  peerDir : Bool := false
  kset : Nat := 0
  insec : Nat := 0
  intx : Nat := 0
deriving DecidableEq, Repr

/-- A Phlox job in a context (R261 to R267): its queue, function and slot, descriptor, whether it has started (R303), its
result once known, the key taken at admission with its slot's GEN (R287), the invocation value taken (R285), its staged output
with the release of it, whether its key was erased before release, whether its function's reset stops it, and what its
completion record reports; the announced bytes that count for R300 before they move. -/
structure Job where
  q : Nat
  f : Nat
  j : Nat
  desc : BitVec 1024
  started : Bool := false
  status : Option Nat := none
  key : Option KeySlot := none
  ctr : Nat := 0
  staged : Option (List Byte) := none
  released : Bool := false
  erased : Bool := false
  aborted : Bool := false
  ssb : List Byte := []
  flags : Nat := 0
  inDone : Nat := 0
  outDone : Nat := 0
  aux : Nat := 0
  check : Nat := 0
  gtag : Nat := 0
  toll : Nat := 0
deriving DecidableEq, Repr

/-- A command that ends with a sweep of the home slices (R380, R381): its mailbox, block, notification, and the ranges of
lines to be discarded and to be written out, first and last. -/
structure FoxSweep where
  w : Nat
  blk : Nat
  op : Nat
  drop : List (Nat × Nat) := []
  flush : List (Nat × Nat) := []
deriving DecidableEq, Repr

/-- Foxglove beside its registers: submitted commands in order with mailbox and block (R353), which free value the first of them draws, the rekey queue (R361), the
sweep in progress, whether a class A alarm has stopped it (R369), how often every slot's GEN has advanced at once (R349, R369), the programmed bits of the SVN and SEALEPOCH fuses, the image store
(R401), slots that failed in this round, and what start waits for: 0 nothing, 1 REFOK, 2 the end of a failure frame, 3 the
end of a round (R410); whether Foxglove firmware is ready and whether step 9 has made the monitor's entries and key (R406), the run of the boot hart that waits for step 9 (R406), the
instruction register of the TAP, nonce, rights, token bytes, attempts and result of debug unlock, and the time of the latest
alarm of source 4 (R420 to R423). -/
structure Fox where
  cmds : List (Nat × Nat × Requester) := []
  draw : Nat := 0
  rekey : List Nat := []
  sweep : Option FoxSweep := none
  stopped : Bool := false
  gens : Nat := 0
  svn : Nat := 0
  epoch : Nat := 0
  image : Option (List Byte) := none
  failed : Nat := 0
  waits : Nat := 1
  warm : Bool := false
  ready : Bool := false
  made : Bool := false
  boot : Option Nat := none
  ir : BitVec 8 := 1
  nonce : BitVec 256 := 0
  rights : BitVec 4 := 0
  token : List Byte := []
  attempts : Nat := 0
  result : Nat := 0
  lastDbg : Option Nat := none
deriving DecidableEq, Repr

/-- A request of a metered step (R437): a wake of a domain, a raise of a tile's cap, of the set-point in mV, or the lifting of
the VRHOT# ceiling. -/
inductive StepReq
  | wake (dom : Nat)
  | cap (n v : Nat)
  | set (mv : Nat)
  | lift
deriving DecidableEq, Repr

/-- Weir beside its registers: the bounds in force while a write of BOUND waits for the end of its window (R442), the phase of
the present metered step (0 none, 2 lead, 3 ramping), its requests and those of the next one (R437), the set-point chosen at
the last window end, in mV, and the highest one that a step has admitted, the AVSBus write in progress, the retries of this
window and whether this failure period is recorded (R435), the ceiling of the sum of admissions under VRHOT#, in units of
1/30,000 A (R433), the IOD power of the last window, in W, the domain of the GATEHOLD in progress (R444), whether a halt
of this window is recorded (R450), and the count at which the present window began (R427). -/
structure Weir where
  bound : Option Word := none
  phase : Nat := 0
  step : List StepReq := []
  next : List StepReq := []
  target : Nat := 0
  allow : Nat := 0
  avs : Option Nat := none
  retries : Nat := 0
  failing : Bool := false
  vrhot : Option Nat := none
  iod : Nat := 0
  hold : Option Nat := none
  haltSeen : Bool := false
  window : Nat := 0
deriving DecidableEq, Repr

/-- For what an agent without a cache accesses memory in a command that is sent again while an access is under way: a walk of a hart, a
fetch of type NC of one, the save block of one, the descriptor of a queue, the admission of its job, a job by engine × 256 + context, the end of one, an inbound
transaction by group, requester and address, the IOMMU's queues, a mailbox, or a sweep. -/
inductive Reader
  | walk (h : Nat)
  | fetch (h : Nat)
  | gate (h : Nat)
  | descriptor (q : Nat)
  | admission (q : Nat)
  | job (k : Nat)
  | ending (k : Nat)
  | inbound (g rid a : Nat)
  | iommu
  | mailbox (w : Nat)
  | sweep
deriving DecidableEq, Repr

/-- A write of an agent without a cache: data, byte mask, poison and stash target; or the operation on cached copies that Foxglove's sweep
asks for (R380). -/
structure Wr where
  data : LineData
  mask : BitVec 64
  poison : Bool := false
  stash : Option Agent := none
  cbo : Option MsgKind := none
deriving DecidableEq, Repr

/-- An access of an agent without a cache to one line: what it is for, the agent that sends it, the write if it is one, and the answer. -/
structure Op where
  key : Reader
  who : Agent
  line : LineAddr
  wr : Option Wr := none
  got : Option (LineData × Bool) := none
deriving DecidableEq, Repr

/-- What a command has found while it ran: what its accesses are for and who sends them, the accesses that it needs and does not have, those for which it has used an answer, and
whether it can go on without the first. -/
structure Need where
  key : Reader := .iommu
  who : Agent := .iommu
  asks : List Op := []
  used : List Reader := []
  stuck : Bool := false
deriving DecidableEq, Repr

/-- Why a command has no effect to model and stops the block. -/
inductive Fault
  /-- Raised by no command: every error the spec describes is an effect on the state. Safe. -/
  | none_
deriving DecidableEq, Repr

/-- Why a command is refused. -/
inductive Refusal
  /-- exec's arm of a command that has no meaning yet. Safe: nothing is claimed of it. -/
  | notModelled (mnemonic : String)
deriving DecidableEq, Repr

/-- Output pins and sampled straps: FATAL# and THERMTRIP# asserted, STATUS[3:0], SPATE[1:0], PERST# of each link group
asserted, PORST# held, and the management straps (R411, R432, R438, R472, R510, R518). `frame` is the failure frame that
STATUS[3:0] shows, nibble after nibble (R411), and `iodHeld` whether the IOD blocks not on VAON are held in reset (R452). -/
structure Pins where
  fatal : Bool := false
  thermtrip : Bool := false
  status : Nat := 0
  frame : List Nat := []
  spate : Nat := 0
  perst : BitVec 32 := BitVec.allOnes 32
  porst : Bool := true
  iodHeld : Bool := false
  mgmtSel : Bool := false
  mgmtAddr : Nat := 0
deriving DecidableEq, Repr

/-- What leaves the block and is held nowhere in it. -/
inductive Out
  /-- a FATAL notice on the coherent link to a peer socket (R472) -/
  | fatalNotice (p : Fin 4)
  /-- a completion or response sent outside, with its data -/
  | reply (dst : Agent) (ok : Bool) (data : LineData)
  /-- an outbound request to a device: group, port, tag for a non-posted one, write, address and data (R313) -/
  | pcie (g port : Nat) (tag : Option Nat) (write : Bool) (addr data : Nat)
  /-- a completion to a device: group, tag, success, poison and data (R315, R317) -/
  | completion (g tag : Nat) (ok ep : Bool) (data : Nat)
  /-- an ATS translation completion (R336): the status (0 success, 1 UR, 4 CA), the address and the permissions -/
  | ats (g status pa : Nat) (r w : Bool)
  /-- a page request group response (R336) -/
  | prgResponse (g prgi code : Nat)
  /-- an ATS invalidation request (R336): the device, process and payload -/
  | atsInval (did pid payload : Nat)
  /-- a PTM response with the time in ns (R320) -/
  | ptm (g port ns : Nat)
  /-- a write to an IMSIC page of a peer socket (R340) -/
  | peerMsi (p off i : Nat)
  /-- a command on AVSBus with its value (R435) -/
  | avs (cmd v : Nat)
  /-- an SPDM response: its code and bytes (R418) -/
  | spdm (code : Nat) (body : List Byte)
  /-- a DMI access to the debug module of the Larkspur cores (R420) -/
  | dmi (write : Bool) (a data : Nat)
  /-- what the data register of the TAP instruction now selected captures (R420, R423, R511) -/
  | tap (ir : BitVec 8) (v : Nat)
deriving DecidableEq, Repr

/-- The block. -/
structure State where
  /-- commands waiting, first in first out -/
  pending : List Instr := []
  /-- window registers by offset (R492); an unlisted one reads its reset value -/
  regs : Sparse (Word) := []
  /-- harts by hart ID (R3) -/
  harts : Sparse (Hart) := []
  /-- integer registers, key hart × 32 + register -/
  xs : Sparse (Word) := []
  /-- floating-point registers, key hart × 32 + register -/
  fs : Sparse (Word) := []
  /-- vector registers, key hart × 32 + register -/
  vs : Sparse (BitVec 256) := []
  /-- CSRs, key hart × 4096 + number; an unlisted one reads its reset value -/
  csrs : Sparse (Word) := []
  /-- IMSIC files, key hart × 8 + file: 0 machine, 1 supervisor, 2 to 5 guest files 1 to 4 (R69) -/
  imsic : Sparse (Imsic) := []
  /-- L1I slots, key (tile × 64 + set) × 16 + way -/
  l1i : Sparse (L1Slot) := []
  /-- L1D slots, key (tile × 64 + set) × 16 + way -/
  l1d : Sparse (L1Slot) := []
  /-- L2 slots, key (tile × 2048 + set) × 8 + way -/
  l2 : Sparse (L2Slot) := []
  /-- L3 slots, key ((die × 4 + quadrant) × 8192 + set) × 16 + way -/
  l3 : Sparse (L3Slot) := []
  /-- tree pseudo-LRU bits of a set: L1I keys from 0, L1D from 2^20, L2 from 2^21 -/
  plru : Sparse (Nat) := []
  /-- tiles by package number -/
  tiles : Sparse (Tile) := []
  /-- L3 quadrants, key die × 4 + quadrant -/
  quads : Sparse (Quad) := []
  /-- packets that a stop has accepted from another in a class, modulo 4,096, key (source × 8192 + destination) × 8 + class, stops by number (R206) -/
  seqs : Sparse (Nat) := []
  /-- per-line queues of the home slices by line (R161), head first -/
  lineq : Sparse (List HReq) := []
  /-- home slices -/
  slices : Sparse (Slice) := []
  /-- snoop-filter entries, by the key of their L3 slot (R162) -/
  filt : Sparse (FEntry) := []
  /-- ring limits of R458: key twice the bank base, plus 1 for refusals; one more than the time of the latest copy -/
  limits : Sparse (Nat) := []
  /-- APLIC domains: 0 machine, 1 supervisor (R341) -/
  aplic : Sparse (AplicDom) := []
  /-- APLIC sourcecfg and target, key domain × 256 + source (R341) -/
  aplicSrc : Sparse (AplicSrc) := []
  /-- written DRAM lines, key channel × 2^40 + line of the channel-local address (R230) -/
  dram : Sparse (DLine) := []
  /-- memory channels -/
  chans : Sparse (Chan) := []
  /-- key slots by slot ID (R348) -/
  keys : Sparse (KeySlot) := []
  /-- timebase receivers by compute die -/
  tbrx : Sparse (TbRx) := []
  /-- what the IOD keeps for each compute die -/
  dies : Sparse (Die) := []
  /-- uncore counter blocks by base: bit i set where the condition of counter i held in the last tick (R480, R489) -/
  pmuEdge : Sparse (Nat) := []
  /-- link groups -/
  groups : Sparse (Group) := []
  /-- root-port configuration registers written, by ECAM offset / 4 (R312) -/
  ecam : Sparse (BitVec 32) := []
  /-- MSI-X pages of the Phlox functions, key function × 512 + offset / 8 (R292); the mask bit of an entry is held inverted -/
  msix : Sparse (Word) := []
  /-- Phlox jobs by engine × 256 + context (R261) -/
  jobs : Sparse (Job) := []
  /-- the descriptor read and not yet admitted, by QBIND index (R258) -/
  fetched : Sparse (BitVec 1024) := []
  /-- bytes moved in the present window, key engine × 256 + function (R299) -/
  moved : Sparse (Nat) := []
  /-- bytes moved by a Phlox function on all engines (R301) -/
  fnBytes : Sparse (Nat) := []
  /-- bytes moved over weight for the shares of an engine, key engine × 257 + function; function 256 is the least of the last admission (R300) -/
  lead : Sparse (Nat) := []
  /-- the slot after the one that a function last had admitted on an engine, key engine × 256 + function (R300) -/
  slotTurn : Sparse (Nat) := []
  /-- by how much the process code of a tile has fallen, by package number (R38); no reset changes it -/
  aged : Sparse (Nat) := []
  /-- the IOMMU (R336) -/
  iommu : Iommu := {}
  /-- Foxglove (R342 to R423) -/
  fox : Fox := {}
  /-- Weir (R424 to R452) -/
  weir : Weir := {}
  /-- ticks left of the secure watchdog while it counts (R395) -/
  wdog : Option Nat := none
  /-- output pins and the straps sampled (R506 to R515) -/
  pins : Pins := {}
  /-- messages in flight, oldest first (R166) -/
  net : List Msg := []
  /-- accesses under way of agents without a cache, and their answers (R23, R28, R31) -/
  ops : List Op := []
  /-- what the present command still needs of other agents; empty between commands; the model's own field -/
  need : Need := {}
  /-- harts whose park or delivery conditions a command has touched; empty between commands; the model's own field -/
  poke : List Nat := []
  /-- what has left the block, newest first; the model's own field -/
  out : List Out := []
  /-- how many free values have been used; the model's own field -/
  free : Nat := 0
deriving DecidableEq, Repr

/-- The block right after reset: nothing listed, so that every register, hart, tile and die is at its reset value
(the values that log entry 4 names where the spec gives none). -/
def State.reset : State := {}

end Sys2Proof.Machine
end

