-- ==== Sys2Proof/Machine/Act.lean ====
section
/-! DEFINITION. The primitive changes of the state, and runs: what a command does is a sequence of primitive changes, and
the type of a run says so. No primitive change touches the queue of waiting commands. -/
namespace Sys2Proof.Machine

/-- One primitive change: write a key of a store, or replace a plain field. A store whose unlisted keys hold nothing takes a value or
nothing; a write of the value that an unlisted key holds removes the entry. -/
inductive Act
  | regs (k : Nat) (v : Option (Word))
  | harts (k : Nat) (v : Hart)
  | xs (k : Nat) (v : Word)
  | fs (k : Nat) (v : Word)
  | vs (k : Nat) (v : BitVec 256)
  | csrs (k : Nat) (v : Option (Word))
  | imsic (k : Nat) (v : Imsic)
  | l1i (k : Nat) (v : Option (L1Slot))
  | l1d (k : Nat) (v : Option (L1Slot))
  | l2 (k : Nat) (v : Option (L2Slot))
  | l3 (k : Nat) (v : Option (L3Slot))
  | plru (k : Nat) (v : Nat)
  | tiles (k : Nat) (v : Tile)
  | quads (k : Nat) (v : Quad)
  | seqs (k : Nat) (v : Nat)
  | lineq (k : Nat) (v : List HReq)
  | slices (k : Nat) (v : Slice)
  | filt (k : Nat) (v : Option (FEntry))
  | limits (k : Nat) (v : Nat)
  | aplic (k : Nat) (v : AplicDom)
  | aplicSrc (k : Nat) (v : AplicSrc)
  | dram (k : Nat) (v : Option (DLine))
  | chans (k : Nat) (v : Chan)
  | keys (k : Nat) (v : KeySlot)
  | tbrx (k : Nat) (v : TbRx)
  | dies (k : Nat) (v : Die)
  | pmuEdge (k : Nat) (v : Nat)
  | groups (k : Nat) (v : Group)
  | ecam (k : Nat) (v : BitVec 32)
  | msix (k : Nat) (v : Word)
  | jobs (k : Nat) (v : Option (Job))
  | fetched (k : Nat) (v : Option (BitVec 1024))
  | moved (k : Nat) (v : Nat)
  | fnBytes (k : Nat) (v : Nat)
  | lead (k : Nat) (v : Nat)
  | slotTurn (k : Nat) (v : Nat)
  | aged (k : Nat) (v : Nat)
  | iommu (v : Iommu)
  | fox (v : Fox)
  | weir (v : Weir)
  | wdog (v : Option Nat)
  | pins (v : Pins)
  | net (v : List Msg)
  | ops (v : List Op)
  | need (v : Need)
  | poke (v : List Nat)
  | out (v : List Out)
  | free (v : Nat)

/-- A primitive change applied. -/
def Act.apply : Act → State → State
  | .regs k v, s => { s with regs := s.regs.upd k v }
  | .harts k v, s => { s with harts := s.harts.upd k (listed {} v) }
  | .xs k v, s => { s with xs := s.xs.upd k (listed 0 v) }
  | .fs k v, s => { s with fs := s.fs.upd k (listed 0 v) }
  | .vs k v, s => { s with vs := s.vs.upd k (listed 0 v) }
  | .csrs k v, s => { s with csrs := s.csrs.upd k v }
  | .imsic k v, s => { s with imsic := s.imsic.upd k (listed {} v) }
  | .l1i k v, s => { s with l1i := s.l1i.upd k v }
  | .l1d k v, s => { s with l1d := s.l1d.upd k v }
  | .l2 k v, s => { s with l2 := s.l2.upd k v }
  | .l3 k v, s => { s with l3 := s.l3.upd k v }
  | .plru k v, s => { s with plru := s.plru.upd k (listed 0 v) }
  | .tiles k v, s => { s with tiles := s.tiles.upd k (listed {} v) }
  | .quads k v, s => { s with quads := s.quads.upd k (listed {} v) }
  | .seqs k v, s => { s with seqs := s.seqs.upd k (listed 0 v) }
  | .lineq k v, s => { s with lineq := s.lineq.upd k (listed [] v) }
  | .slices k v, s => { s with slices := s.slices.upd k (listed {} v) }
  | .filt k v, s => { s with filt := s.filt.upd k v }
  | .limits k v, s => { s with limits := s.limits.upd k (listed 0 v) }
  | .aplic k v, s => { s with aplic := s.aplic.upd k (listed {} v) }
  | .aplicSrc k v, s => { s with aplicSrc := s.aplicSrc.upd k (listed {} v) }
  | .dram k v, s => { s with dram := s.dram.upd k v }
  | .chans k v, s => { s with chans := s.chans.upd k (listed {} v) }
  | .keys k v, s => { s with keys := s.keys.upd k (listed {} v) }
  | .tbrx k v, s => { s with tbrx := s.tbrx.upd k (listed {} v) }
  | .dies k v, s => { s with dies := s.dies.upd k (listed {} v) }
  | .pmuEdge k v, s => { s with pmuEdge := s.pmuEdge.upd k (listed 0 v) }
  | .groups k v, s => { s with groups := s.groups.upd k (listed {} v) }
  | .ecam k v, s => { s with ecam := s.ecam.upd k (listed 0 v) }
  | .msix k v, s => { s with msix := s.msix.upd k (listed 0 v) }
  | .jobs k v, s => { s with jobs := s.jobs.upd k v }
  | .fetched k v, s => { s with fetched := s.fetched.upd k v }
  | .moved k v, s => { s with moved := s.moved.upd k (listed 0 v) }
  | .fnBytes k v, s => { s with fnBytes := s.fnBytes.upd k (listed 0 v) }
  | .lead k v, s => { s with lead := s.lead.upd k (listed 0 v) }
  | .slotTurn k v, s => { s with slotTurn := s.slotTurn.upd k (listed 0 v) }
  | .aged k v, s => { s with aged := s.aged.upd k (listed 0 v) }
  | .iommu v, s => { s with iommu := v }
  | .fox v, s => { s with fox := v }
  | .weir v, s => { s with weir := v }
  | .wdog v, s => { s with wdog := v }
  | .pins v, s => { s with pins := v }
  | .net v, s => { s with net := v }
  | .ops v, s => { s with ops := v }
  | .need v, s => { s with need := v }
  | .poke v, s => { s with poke := v }
  | .out v, s => { s with out := v }
  | .free v, s => { s with free := v }

/-- A list of primitive changes applied in order. -/
def replay : List Act → State → State
  | [], s => s
  | a :: as, s => replay as (a.apply s)

/-- `s` comes from `s0` by primitive changes. -/
def Reach (s0 s : State) : Prop := ∃ as : List Act, s = replay as s0

theorem replay_append (as bs : List Act) (s : State) : replay (as ++ bs) s = replay bs (replay as s) := by
  induction as generalizing s with
  | nil => rfl
  | cons a as ih => exact ih (a.apply s)

theorem Reach.refl (s : State) : Reach s s := ⟨[], rfl⟩

theorem Reach.act {s0 s : State} (h : Reach s0 s) (a : Act) : Reach s0 (a.apply s) := by
  obtain ⟨as, rfl⟩ := h
  exact ⟨as ++ [a], by rw [replay_append]; rfl⟩

/-- The state as a command that began at `s0` has left it so far. -/
abbrev Run (s0 : State) := { s : State // Reach s0 s }

/-- Nothing done yet. -/
def Run.start (s0 : State) : Run s0 := ⟨s0, Reach.refl s0⟩

variable {s0 : State}

/-- One more primitive change. -/
def Run.act (r : Run s0) (a : Act) : Run s0 := ⟨a.apply r.1, r.2.act a⟩

/-- The command ends here, with the next state. -/
def Run.finish (r : Run s0) : Host.Outcome State Fault Refusal := .next r.1

/-- Read: harts by hart ID (R3). -/
def State.hart (s : State) (k : Nat) : Hart := s.harts.get {} k
/-- Read: harts by hart ID (R3). -/
def Run.hart (r : Run s0) (k : Nat) : Hart := r.1.hart k
/-- Write: harts by hart ID (R3). -/
def Run.setHart (r : Run s0) (k : Nat) (v : Hart) : Run s0 := r.act (.harts k v)
/-- Change: harts by hart ID (R3). -/
def Run.modHart (r : Run s0) (k : Nat) (f : Hart → Hart) : Run s0 := r.setHart k (f (r.hart k))
/-- Read: integer registers, key hart × 32 + register. -/
def State.x (s : State) (k : Nat) : Word := s.xs.get 0 k
/-- Read: integer registers, key hart × 32 + register. -/
def Run.x (r : Run s0) (k : Nat) : Word := r.1.x k
/-- Write: integer registers, key hart × 32 + register. -/
def Run.setX (r : Run s0) (k : Nat) (v : Word) : Run s0 := r.act (.xs k v)
/-- Change: integer registers, key hart × 32 + register. -/
def Run.modX (r : Run s0) (k : Nat) (f : Word → Word) : Run s0 := r.setX k (f (r.x k))
/-- Read: floating-point registers, key hart × 32 + register. -/
def State.f (s : State) (k : Nat) : Word := s.fs.get 0 k
/-- Read: floating-point registers, key hart × 32 + register. -/
def Run.f (r : Run s0) (k : Nat) : Word := r.1.f k
/-- Write: floating-point registers, key hart × 32 + register. -/
def Run.setF (r : Run s0) (k : Nat) (v : Word) : Run s0 := r.act (.fs k v)
/-- Change: floating-point registers, key hart × 32 + register. -/
def Run.modF (r : Run s0) (k : Nat) (f : Word → Word) : Run s0 := r.setF k (f (r.f k))
/-- Read: vector registers, key hart × 32 + register. -/
def State.v (s : State) (k : Nat) : BitVec 256 := s.vs.get 0 k
/-- Read: vector registers, key hart × 32 + register. -/
def Run.v (r : Run s0) (k : Nat) : BitVec 256 := r.1.v k
/-- Write: vector registers, key hart × 32 + register. -/
def Run.setV (r : Run s0) (k : Nat) (v : BitVec 256) : Run s0 := r.act (.vs k v)
/-- Change: vector registers, key hart × 32 + register. -/
def Run.modV (r : Run s0) (k : Nat) (f : BitVec 256 → BitVec 256) : Run s0 := r.setV k (f (r.v k))
/-- Read: IMSIC files, key hart × 8 + file: 0 machine, 1 supervisor, 2 to 5 guest files 1 to 4 (R69). -/
def State.file (s : State) (k : Nat) : Imsic := s.imsic.get {} k
/-- Read: IMSIC files, key hart × 8 + file: 0 machine, 1 supervisor, 2 to 5 guest files 1 to 4 (R69). -/
def Run.file (r : Run s0) (k : Nat) : Imsic := r.1.file k
/-- Write: IMSIC files, key hart × 8 + file: 0 machine, 1 supervisor, 2 to 5 guest files 1 to 4 (R69). -/
def Run.setFile (r : Run s0) (k : Nat) (v : Imsic) : Run s0 := r.act (.imsic k v)
/-- Change: IMSIC files, key hart × 8 + file: 0 machine, 1 supervisor, 2 to 5 guest files 1 to 4 (R69). -/
def Run.modFile (r : Run s0) (k : Nat) (f : Imsic → Imsic) : Run s0 := r.setFile k (f (r.file k))
/-- Read: L1I slots, key (tile × 64 + set) × 16 + way. -/
def State.l1iSlot (s : State) (k : Nat) : Option (L1Slot) := s.l1i.find? k
/-- Read: L1I slots, key (tile × 64 + set) × 16 + way. -/
def Run.l1iSlot (r : Run s0) (k : Nat) : Option (L1Slot) := r.1.l1iSlot k
/-- Write: L1I slots, key (tile × 64 + set) × 16 + way. -/
def Run.setL1iSlot (r : Run s0) (k : Nat) (v : Option (L1Slot)) : Run s0 := r.act (.l1i k v)
/-- Read: L1D slots, key (tile × 64 + set) × 16 + way. -/
def State.l1dSlot (s : State) (k : Nat) : Option (L1Slot) := s.l1d.find? k
/-- Read: L1D slots, key (tile × 64 + set) × 16 + way. -/
def Run.l1dSlot (r : Run s0) (k : Nat) : Option (L1Slot) := r.1.l1dSlot k
/-- Write: L1D slots, key (tile × 64 + set) × 16 + way. -/
def Run.setL1dSlot (r : Run s0) (k : Nat) (v : Option (L1Slot)) : Run s0 := r.act (.l1d k v)
/-- Read: L2 slots, key (tile × 2048 + set) × 8 + way. -/
def State.l2Slot (s : State) (k : Nat) : Option (L2Slot) := s.l2.find? k
/-- Read: L2 slots, key (tile × 2048 + set) × 8 + way. -/
def Run.l2Slot (r : Run s0) (k : Nat) : Option (L2Slot) := r.1.l2Slot k
/-- Write: L2 slots, key (tile × 2048 + set) × 8 + way. -/
def Run.setL2Slot (r : Run s0) (k : Nat) (v : Option (L2Slot)) : Run s0 := r.act (.l2 k v)
/-- Read: L3 slots, key ((die × 4 + quadrant) × 8192 + set) × 16 + way. -/
def State.l3Slot (s : State) (k : Nat) : Option (L3Slot) := s.l3.find? k
/-- Read: L3 slots, key ((die × 4 + quadrant) × 8192 + set) × 16 + way. -/
def Run.l3Slot (r : Run s0) (k : Nat) : Option (L3Slot) := r.1.l3Slot k
/-- Write: L3 slots, key ((die × 4 + quadrant) × 8192 + set) × 16 + way. -/
def Run.setL3Slot (r : Run s0) (k : Nat) (v : Option (L3Slot)) : Run s0 := r.act (.l3 k v)
/-- Read: tree pseudo-LRU bits of a set: L1I keys from 0, L1D from 2^20, L2 from 2^21. -/
def State.plruBits (s : State) (k : Nat) : Nat := s.plru.get 0 k
/-- Read: tree pseudo-LRU bits of a set: L1I keys from 0, L1D from 2^20, L2 from 2^21. -/
def Run.plruBits (r : Run s0) (k : Nat) : Nat := r.1.plruBits k
/-- Write: tree pseudo-LRU bits of a set: L1I keys from 0, L1D from 2^20, L2 from 2^21. -/
def Run.setPlruBits (r : Run s0) (k : Nat) (v : Nat) : Run s0 := r.act (.plru k v)
/-- Change: tree pseudo-LRU bits of a set: L1I keys from 0, L1D from 2^20, L2 from 2^21. -/
def Run.modPlruBits (r : Run s0) (k : Nat) (f : Nat → Nat) : Run s0 := r.setPlruBits k (f (r.plruBits k))
/-- Read: tiles by package number. -/
def State.tile (s : State) (k : Nat) : Tile := s.tiles.get {} k
/-- Read: tiles by package number. -/
def Run.tile (r : Run s0) (k : Nat) : Tile := r.1.tile k
/-- Write: tiles by package number. -/
def Run.setTile (r : Run s0) (k : Nat) (v : Tile) : Run s0 := r.act (.tiles k v)
/-- Change: tiles by package number. -/
def Run.modTile (r : Run s0) (k : Nat) (f : Tile → Tile) : Run s0 := r.setTile k (f (r.tile k))
/-- Read: L3 quadrants, key die × 4 + quadrant. -/
def State.quad (s : State) (k : Nat) : Quad := s.quads.get {} k
/-- Read: L3 quadrants, key die × 4 + quadrant. -/
def Run.quad (r : Run s0) (k : Nat) : Quad := r.1.quad k
/-- Write: L3 quadrants, key die × 4 + quadrant. -/
def Run.setQuad (r : Run s0) (k : Nat) (v : Quad) : Run s0 := r.act (.quads k v)
/-- Change: L3 quadrants, key die × 4 + quadrant. -/
def Run.modQuad (r : Run s0) (k : Nat) (f : Quad → Quad) : Run s0 := r.setQuad k (f (r.quad k))
/-- Read: packets that a stop has accepted from another in a class, modulo 4,096, key (source × 8192 + destination) × 8 + class, stops by number (R206). -/
def State.seq (s : State) (k : Nat) : Nat := s.seqs.get 0 k
/-- Read: packets that a stop has accepted from another in a class, modulo 4,096, key (source × 8192 + destination) × 8 + class, stops by number (R206). -/
def Run.seq (r : Run s0) (k : Nat) : Nat := r.1.seq k
/-- Write: packets that a stop has accepted from another in a class, modulo 4,096, key (source × 8192 + destination) × 8 + class, stops by number (R206). -/
def Run.setSeq (r : Run s0) (k : Nat) (v : Nat) : Run s0 := r.act (.seqs k v)
/-- Change: packets that a stop has accepted from another in a class, modulo 4,096, key (source × 8192 + destination) × 8 + class, stops by number (R206). -/
def Run.modSeq (r : Run s0) (k : Nat) (f : Nat → Nat) : Run s0 := r.setSeq k (f (r.seq k))
/-- Read: per-line queues of the home slices by line (R161), head first. -/
def State.queue (s : State) (k : Nat) : List HReq := s.lineq.get [] k
/-- Read: per-line queues of the home slices by line (R161), head first. -/
def Run.queue (r : Run s0) (k : Nat) : List HReq := r.1.queue k
/-- Write: per-line queues of the home slices by line (R161), head first. -/
def Run.setQueue (r : Run s0) (k : Nat) (v : List HReq) : Run s0 := r.act (.lineq k v)
/-- Change: per-line queues of the home slices by line (R161), head first. -/
def Run.modQueue (r : Run s0) (k : Nat) (f : List HReq → List HReq) : Run s0 := r.setQueue k (f (r.queue k))
/-- Read: home slices. -/
def State.slice (s : State) (k : Nat) : Slice := s.slices.get {} k
/-- Read: home slices. -/
def Run.slice (r : Run s0) (k : Nat) : Slice := r.1.slice k
/-- Write: home slices. -/
def Run.setSlice (r : Run s0) (k : Nat) (v : Slice) : Run s0 := r.act (.slices k v)
/-- Change: home slices. -/
def Run.modSlice (r : Run s0) (k : Nat) (f : Slice → Slice) : Run s0 := r.setSlice k (f (r.slice k))
/-- Read: snoop-filter entries, by the key of their L3 slot (R162). -/
def State.filtEntry (s : State) (k : Nat) : Option (FEntry) := s.filt.find? k
/-- Read: snoop-filter entries, by the key of their L3 slot (R162). -/
def Run.filtEntry (r : Run s0) (k : Nat) : Option (FEntry) := r.1.filtEntry k
/-- Write: snoop-filter entries, by the key of their L3 slot (R162). -/
def Run.setFiltEntry (r : Run s0) (k : Nat) (v : Option (FEntry)) : Run s0 := r.act (.filt k v)
/-- Read: ring limits of R458: key twice the bank base, plus 1 for refusals; one more than the time of the latest copy. -/
def State.limit (s : State) (k : Nat) : Nat := s.limits.get 0 k
/-- Read: ring limits of R458: key twice the bank base, plus 1 for refusals; one more than the time of the latest copy. -/
def Run.limit (r : Run s0) (k : Nat) : Nat := r.1.limit k
/-- Write: ring limits of R458: key twice the bank base, plus 1 for refusals; one more than the time of the latest copy. -/
def Run.setLimit (r : Run s0) (k : Nat) (v : Nat) : Run s0 := r.act (.limits k v)
/-- Change: ring limits of R458: key twice the bank base, plus 1 for refusals; one more than the time of the latest copy. -/
def Run.modLimit (r : Run s0) (k : Nat) (f : Nat → Nat) : Run s0 := r.setLimit k (f (r.limit k))
/-- Read: APLIC domains: 0 machine, 1 supervisor (R341). -/
def State.aplicDom (s : State) (k : Nat) : AplicDom := s.aplic.get {} k
/-- Read: APLIC domains: 0 machine, 1 supervisor (R341). -/
def Run.aplicDom (r : Run s0) (k : Nat) : AplicDom := r.1.aplicDom k
/-- Write: APLIC domains: 0 machine, 1 supervisor (R341). -/
def Run.setAplicDom (r : Run s0) (k : Nat) (v : AplicDom) : Run s0 := r.act (.aplic k v)
/-- Change: APLIC domains: 0 machine, 1 supervisor (R341). -/
def Run.modAplicDom (r : Run s0) (k : Nat) (f : AplicDom → AplicDom) : Run s0 := r.setAplicDom k (f (r.aplicDom k))
/-- Read: APLIC sourcecfg and target, key domain × 256 + source (R341). -/
def State.aplicCfg (s : State) (k : Nat) : AplicSrc := s.aplicSrc.get {} k
/-- Read: APLIC sourcecfg and target, key domain × 256 + source (R341). -/
def Run.aplicCfg (r : Run s0) (k : Nat) : AplicSrc := r.1.aplicCfg k
/-- Write: APLIC sourcecfg and target, key domain × 256 + source (R341). -/
def Run.setAplicCfg (r : Run s0) (k : Nat) (v : AplicSrc) : Run s0 := r.act (.aplicSrc k v)
/-- Change: APLIC sourcecfg and target, key domain × 256 + source (R341). -/
def Run.modAplicCfg (r : Run s0) (k : Nat) (f : AplicSrc → AplicSrc) : Run s0 := r.setAplicCfg k (f (r.aplicCfg k))
/-- Read: written DRAM lines, key channel × 2^40 + line of the channel-local address (R230). -/
def State.dline (s : State) (k : Nat) : Option (DLine) := s.dram.find? k
/-- Read: written DRAM lines, key channel × 2^40 + line of the channel-local address (R230). -/
def Run.dline (r : Run s0) (k : Nat) : Option (DLine) := r.1.dline k
/-- Write: written DRAM lines, key channel × 2^40 + line of the channel-local address (R230). -/
def Run.setDline (r : Run s0) (k : Nat) (v : Option (DLine)) : Run s0 := r.act (.dram k v)
/-- Read: memory channels. -/
def State.chan (s : State) (k : Nat) : Chan := s.chans.get {} k
/-- Read: memory channels. -/
def Run.chan (r : Run s0) (k : Nat) : Chan := r.1.chan k
/-- Write: memory channels. -/
def Run.setChan (r : Run s0) (k : Nat) (v : Chan) : Run s0 := r.act (.chans k v)
/-- Change: memory channels. -/
def Run.modChan (r : Run s0) (k : Nat) (f : Chan → Chan) : Run s0 := r.setChan k (f (r.chan k))
/-- Read: key slots by slot ID (R348). -/
def State.key (s : State) (k : Nat) : KeySlot := s.keys.get {} k
/-- Read: key slots by slot ID (R348). -/
def Run.key (r : Run s0) (k : Nat) : KeySlot := r.1.key k
/-- Write: key slots by slot ID (R348). -/
def Run.setKey (r : Run s0) (k : Nat) (v : KeySlot) : Run s0 := r.act (.keys k v)
/-- Change: key slots by slot ID (R348). -/
def Run.modKey (r : Run s0) (k : Nat) (f : KeySlot → KeySlot) : Run s0 := r.setKey k (f (r.key k))
/-- Read: timebase receivers by compute die. -/
def State.rx (s : State) (k : Nat) : TbRx := s.tbrx.get {} k
/-- Read: timebase receivers by compute die. -/
def Run.rx (r : Run s0) (k : Nat) : TbRx := r.1.rx k
/-- Write: timebase receivers by compute die. -/
def Run.setRx (r : Run s0) (k : Nat) (v : TbRx) : Run s0 := r.act (.tbrx k v)
/-- Change: timebase receivers by compute die. -/
def Run.modRx (r : Run s0) (k : Nat) (f : TbRx → TbRx) : Run s0 := r.setRx k (f (r.rx k))
/-- Read: what the IOD keeps for each compute die. -/
def State.die (s : State) (k : Nat) : Die := s.dies.get {} k
/-- Read: what the IOD keeps for each compute die. -/
def Run.die (r : Run s0) (k : Nat) : Die := r.1.die k
/-- Write: what the IOD keeps for each compute die. -/
def Run.setDie (r : Run s0) (k : Nat) (v : Die) : Run s0 := r.act (.dies k v)
/-- Change: what the IOD keeps for each compute die. -/
def Run.modDie (r : Run s0) (k : Nat) (f : Die → Die) : Run s0 := r.setDie k (f (r.die k))
/-- Read: uncore counter blocks by base: bit i set where the condition of counter i held in the last tick (R480, R489). -/
def State.pmuLast (s : State) (k : Nat) : Nat := s.pmuEdge.get 0 k
/-- Read: uncore counter blocks by base: bit i set where the condition of counter i held in the last tick (R480, R489). -/
def Run.pmuLast (r : Run s0) (k : Nat) : Nat := r.1.pmuLast k
/-- Write: uncore counter blocks by base: bit i set where the condition of counter i held in the last tick (R480, R489). -/
def Run.setPmuLast (r : Run s0) (k : Nat) (v : Nat) : Run s0 := r.act (.pmuEdge k v)
/-- Change: uncore counter blocks by base: bit i set where the condition of counter i held in the last tick (R480, R489). -/
def Run.modPmuLast (r : Run s0) (k : Nat) (f : Nat → Nat) : Run s0 := r.setPmuLast k (f (r.pmuLast k))
/-- Read: link groups. -/
def State.grp (s : State) (k : Nat) : Group := s.groups.get {} k
/-- Read: link groups. -/
def Run.grp (r : Run s0) (k : Nat) : Group := r.1.grp k
/-- Write: link groups. -/
def Run.setGrp (r : Run s0) (k : Nat) (v : Group) : Run s0 := r.act (.groups k v)
/-- Change: link groups. -/
def Run.modGrp (r : Run s0) (k : Nat) (f : Group → Group) : Run s0 := r.setGrp k (f (r.grp k))
/-- Read: root-port configuration registers written, by ECAM offset / 4 (R312). -/
def State.ecamReg (s : State) (k : Nat) : BitVec 32 := s.ecam.get 0 k
/-- Read: root-port configuration registers written, by ECAM offset / 4 (R312). -/
def Run.ecamReg (r : Run s0) (k : Nat) : BitVec 32 := r.1.ecamReg k
/-- Write: root-port configuration registers written, by ECAM offset / 4 (R312). -/
def Run.setEcamReg (r : Run s0) (k : Nat) (v : BitVec 32) : Run s0 := r.act (.ecam k v)
/-- Change: root-port configuration registers written, by ECAM offset / 4 (R312). -/
def Run.modEcamReg (r : Run s0) (k : Nat) (f : BitVec 32 → BitVec 32) : Run s0 := r.setEcamReg k (f (r.ecamReg k))
/-- Read: MSI-X pages of the Phlox functions, key function × 512 + offset / 8 (R292); the mask bit of an entry is held inverted. -/
def State.msixWord (s : State) (k : Nat) : Word := s.msix.get 0 k
/-- Read: MSI-X pages of the Phlox functions, key function × 512 + offset / 8 (R292); the mask bit of an entry is held inverted. -/
def Run.msixWord (r : Run s0) (k : Nat) : Word := r.1.msixWord k
/-- Write: MSI-X pages of the Phlox functions, key function × 512 + offset / 8 (R292); the mask bit of an entry is held inverted. -/
def Run.setMsixWord (r : Run s0) (k : Nat) (v : Word) : Run s0 := r.act (.msix k v)
/-- Change: MSI-X pages of the Phlox functions, key function × 512 + offset / 8 (R292); the mask bit of an entry is held inverted. -/
def Run.modMsixWord (r : Run s0) (k : Nat) (f : Word → Word) : Run s0 := r.setMsixWord k (f (r.msixWord k))
/-- Read: Phlox jobs by engine × 256 + context (R261). -/
def State.job (s : State) (k : Nat) : Option (Job) := s.jobs.find? k
/-- Read: Phlox jobs by engine × 256 + context (R261). -/
def Run.job (r : Run s0) (k : Nat) : Option (Job) := r.1.job k
/-- Write: Phlox jobs by engine × 256 + context (R261). -/
def Run.setJob (r : Run s0) (k : Nat) (v : Option (Job)) : Run s0 := r.act (.jobs k v)
/-- Read: the descriptor read and not yet admitted, by QBIND index (R258). -/
def State.fetched_ (s : State) (k : Nat) : Option (BitVec 1024) := s.fetched.find? k
/-- Read: the descriptor read and not yet admitted, by QBIND index (R258). -/
def Run.fetched (r : Run s0) (k : Nat) : Option (BitVec 1024) := r.1.fetched_ k
/-- Write: the descriptor read and not yet admitted, by QBIND index (R258). -/
def Run.setFetched (r : Run s0) (k : Nat) (v : Option (BitVec 1024)) : Run s0 := r.act (.fetched k v)
/-- Read: bytes moved in the present window, key engine × 256 + function (R299). -/
def State.moved_ (s : State) (k : Nat) : Nat := s.moved.get 0 k
/-- Read: bytes moved in the present window, key engine × 256 + function (R299). -/
def Run.moved (r : Run s0) (k : Nat) : Nat := r.1.moved_ k
/-- Write: bytes moved in the present window, key engine × 256 + function (R299). -/
def Run.setMoved (r : Run s0) (k : Nat) (v : Nat) : Run s0 := r.act (.moved k v)
/-- Change: bytes moved in the present window, key engine × 256 + function (R299). -/
def Run.modMoved (r : Run s0) (k : Nat) (f : Nat → Nat) : Run s0 := r.setMoved k (f (r.moved k))
/-- Read: bytes moved by a Phlox function on all engines (R301). -/
def State.fnBytes_ (s : State) (k : Nat) : Nat := s.fnBytes.get 0 k
/-- Read: bytes moved by a Phlox function on all engines (R301). -/
def Run.fnBytes (r : Run s0) (k : Nat) : Nat := r.1.fnBytes_ k
/-- Write: bytes moved by a Phlox function on all engines (R301). -/
def Run.setFnBytes (r : Run s0) (k : Nat) (v : Nat) : Run s0 := r.act (.fnBytes k v)
/-- Change: bytes moved by a Phlox function on all engines (R301). -/
def Run.modFnBytes (r : Run s0) (k : Nat) (f : Nat → Nat) : Run s0 := r.setFnBytes k (f (r.fnBytes k))
/-- Read: bytes moved over weight for the shares of an engine, key engine × 257 + function; function 256 is the least of the last admission (R300). -/
def State.leadOf (s : State) (k : Nat) : Nat := s.lead.get 0 k
/-- Read: bytes moved over weight for the shares of an engine, key engine × 257 + function; function 256 is the least of the last admission (R300). -/
def Run.leadOf (r : Run s0) (k : Nat) : Nat := r.1.leadOf k
/-- Write: bytes moved over weight for the shares of an engine, key engine × 257 + function; function 256 is the least of the last admission (R300). -/
def Run.setLeadOf (r : Run s0) (k : Nat) (v : Nat) : Run s0 := r.act (.lead k v)
/-- Change: bytes moved over weight for the shares of an engine, key engine × 257 + function; function 256 is the least of the last admission (R300). -/
def Run.modLeadOf (r : Run s0) (k : Nat) (f : Nat → Nat) : Run s0 := r.setLeadOf k (f (r.leadOf k))
/-- Read: the slot after the one that a function last had admitted on an engine, key engine × 256 + function (R300). -/
def State.slotTurn_ (s : State) (k : Nat) : Nat := s.slotTurn.get 0 k
/-- Read: the slot after the one that a function last had admitted on an engine, key engine × 256 + function (R300). -/
def Run.slotTurn (r : Run s0) (k : Nat) : Nat := r.1.slotTurn_ k
/-- Write: the slot after the one that a function last had admitted on an engine, key engine × 256 + function (R300). -/
def Run.setSlotTurn (r : Run s0) (k : Nat) (v : Nat) : Run s0 := r.act (.slotTurn k v)
/-- Change: the slot after the one that a function last had admitted on an engine, key engine × 256 + function (R300). -/
def Run.modSlotTurn (r : Run s0) (k : Nat) (f : Nat → Nat) : Run s0 := r.setSlotTurn k (f (r.slotTurn k))
/-- Read: by how much the process code of a tile has fallen, by package number (R38); no reset changes it. -/
def State.aged_ (s : State) (k : Nat) : Nat := s.aged.get 0 k
/-- Read: by how much the process code of a tile has fallen, by package number (R38); no reset changes it. -/
def Run.aged (r : Run s0) (k : Nat) : Nat := r.1.aged_ k
/-- Write: by how much the process code of a tile has fallen, by package number (R38); no reset changes it. -/
def Run.setAged (r : Run s0) (k : Nat) (v : Nat) : Run s0 := r.act (.aged k v)
/-- Change: by how much the process code of a tile has fallen, by package number (R38); no reset changes it. -/
def Run.modAged (r : Run s0) (k : Nat) (f : Nat → Nat) : Run s0 := r.setAged k (f (r.aged k))

/-- A free value: a value the spec leaves open, new at each use. -/
def Run.fresh (r : Run s0) : Run s0 × BitVec 512 := (r.act (.free (r.1.free + 1)), Config.freeValue r.1.free)

/-- Send a message. -/
def Run.send (r : Run s0) (m : Msg) : Run s0 := r.act (.net (r.1.net ++ [m]))
/-- Something leaves the block. -/
def Run.emit (r : Run s0) (o : Out) : Run s0 := r.act (.out (o :: r.1.out))

end Sys2Proof.Machine
end

