-- ==== Sys2Proof/Machine/Regs.lean ====
section
/-! DEFINITION. Registers of the window and CSRs as the commands read and write them: fields, counters, time. -/
namespace Sys2Proof.Machine

variable {s0 : State}

/-- The bits [hi:lo] of a 64-bit word. -/
def fieldMask (hi lo : Nat) : Word := BitVec.ofNat 64 (2 ^ (hi - lo + 1) - 1) <<< lo

/-- Bits [hi:lo] of a word as a number. -/
def Word.bits (w : Word) (hi lo : Nat) : Nat := (w >>> lo).toNat % 2 ^ (hi - lo + 1)

/-- A word with bits [hi:lo] replaced. -/
def Word.setBits (w : Word) (hi lo v : Nat) : Word :=
  (w &&& ~~~ fieldMask hi lo) ||| ((BitVec.ofNat 64 v <<< lo) &&& fieldMask hi lo)

/-- The value of a register in a state: reserved bits read 0 (R6, R8). -/
def State.reg (s : State) (g : Reg) : Word := s.regs.get g.rst g.off &&& g.mask

/-- The value of a field in a state. -/
def State.fld (s : State) (f : FRef) : Nat := Word.bits (s.reg f.reg) f.hi f.lo

/-- The value of a register. -/
def Run.reg (r : Run s0) (g : Reg) : Word := r.1.reg g

/-- Hardware writes a register; its reserved bits stay 0. -/
def Run.setReg (r : Run s0) (g : Reg) (v : Word) : Run s0 := r.act (.regs g.off (listed g.rst (v &&& g.mask)))

/-- The value of a field. -/
def Run.fld (r : Run s0) (f : FRef) : Nat := r.1.fld f

/-- A field is not 0. -/
def Run.on (r : Run s0) (f : FRef) : Bool := r.fld f != 0

/-- Hardware writes a field. -/
def Run.setFld (r : Run s0) (f : FRef) (v : Nat) : Run s0 :=
  r.setReg f.reg (Word.setBits (r.reg f.reg) f.hi f.lo v)

/-- The largest value of a field. -/
def FRef.top (f : FRef) : Nat := 2 ^ (f.hi - f.lo + 1) - 1

/-- Add to a field that saturates. -/
def Run.addSat (r : Run s0) (f : FRef) (n : Nat) : Run s0 := r.setFld f (min (r.fld f + n) f.top)

/-- Add to a field that wraps. -/
def Run.addWrap (r : Run s0) (f : FRef) (n : Nat) : Run s0 := r.setFld f (r.fld f + n)

/-- Set bit i of a field. -/
def Run.setBit (r : Run s0) (f : FRef) (i : Nat) (b : Bool) : Run s0 :=
  r.setFld f (natSetBits (r.fld f) i i (if b then 1 else 0))

/-- Bit i of a field. -/
def Run.bit (r : Run s0) (f : FRef) (i : Nat) : Bool := natBit (r.fld f) i

/-- The master count (R48). -/
def Run.count (r : Run s0) : Nat := r.fld TBASE_COUNT_COUNT

/-- A compute die is online: its ring is at STATE 4, or at STATE 5, retraining while online (R210, R218). -/
def State.online (s : State) (d : Nat) : Bool := s.fld (RLINK_STAT_STATE d) == 4 || s.fld (RLINK_STAT_STATE d) == 5

/-- A compute die is online. -/
def Run.online (r : Run s0) (d : Nat) : Bool := r.1.online d

/-- The time of a die's clock: a compute die's copy, or the master count for the IOD, 16 (R49, R454). -/
def Run.dieTime (r : Run s0) (d : Nat) : Nat := if d = 16 then r.count else (r.rx d).time.toNat

/-- The bits of the sticky fields of a register (RWS, R500). -/
def stickyMask (fs : List Field) : Word := fieldsMask (fs.filter fun f => f.acc.s)

/-- Registers whose offset `p` names take their reset values; sticky fields keep theirs unless the reset is cold (R500). -/
def Run.resetRegs (r : Run s0) (p : Nat → Bool) (cold : Bool) : Run s0 :=
  r.1.regs.foldl (fun r e =>
    if !p e.1 then r
    else match findReg e.1 with
      | some (f, _) =>
        let g := f.reg e.1
        let k := if cold then 0 else stickyMask f.fields
        r.setReg g ((e.2 &&& k) ||| (g.rst &&& ~~~ k))
      | none => r) r

/-- The die of a package tile, and its number within the die (R3). -/
def dieOf (n : Nat) : Nat := n / 16

/-- The package tile of a hart (R3). -/
def tileOf (h : Nat) : Nat := h / 4

/-- Note that a hart's park or delivery conditions may have changed. -/
def Run.pokeHart (r : Run s0) (h : Nat) : Run s0 := if h ∈ r.1.poke then r else r.act (.poke (r.1.poke ++ [h]))

end Sys2Proof.Machine
end

