-- ==== Sys2Proof/Machine/Aplic.lean ====
section
/-! DEFINITION. Set-pending at an IMSIC file (R70, R71) and the APLIC that turns wires into such writes (R341). The layout of
an APLIC domain's registers is that of the AIA (PRESUMED, log entry 6). -/
namespace Sys2Proof.Machine

variable {s0 : State}

/-- Identity i becomes pending in a file of a hart, unless i is 0 or above 2,047 (R70). -/
def Run.setPending (r : Run s0) (h file i : Nat) : Run s0 :=
  if i = 0 ∨ 2047 < i then r
  else (r.modFile (h * 8 + file) fun f => { f with pend := f.pend ||| (1#2048 <<< i) }).pokeHart h

/-- The hart and file of an IMSIC page at an offset of the compute-die space (R69): 0 machine, 1 supervisor, 2 to 5 guest. -/
def imsicPage (off : Nat) : Option (Nat × Nat) :=
  let n := off / 2 ^ 32 * 16 + off % 2 ^ 32 / 2 ^ 24
  let x := off % 2 ^ 24
  if 2 ^ 36 ≤ off ∨ 16 ≤ off % 2 ^ 32 / 2 ^ 24 then none
  else if 0x200000 ≤ x ∧ x < 0x204000 then some (n * 4 + (x - 0x200000) / 0x1000, 0)
  else if 0x280000 ≤ x ∧ x < 0x2A0000 ∧ x % 0x8000 / 0x1000 ≤ 4 then some (n * 4 + (x - 0x280000) / 0x8000, x % 0x8000 / 0x1000 + 1)
  else none

/-- SEC.DENY records a refusal (R393): its kind and the requester's die and number. -/
def Run.secDeny (r : Run s0) (kind die who : Nat) : Run s0 :=
  (((r.addSat SEC_DENY_COUNT 1).setFld SEC_DENY_KIND kind).setFld SEC_DENY_DIE die).setFld SEC_DENY_WHO who

/-- An identity is reserved for the secure world (R391). -/
def Run.idReserved (r : Run s0) (i : Nat) : Bool :=
  let lo := r.fld SEC_IDRANGE_LO
  lo != 0 && decide (lo ≤ i) && decide (i ≤ r.fld SEC_IDRANGE_HI)

/-- An interrupt write of a requester whose world is given reaches a file of a hart. A normal-world write of a reserved
identity has no effect (R393); one to a hart on an offline die is discarded and counted (R218), and is still to be
recorded when it is the first of its offline period. -/
def Run.msiTo (r : Run s0) (secure : Bool) (die who : Nat) (h file i : Nat) : Run s0 :=
  let d := dieOf (tileOf h)
  if !secure && r.idReserved i then r.secDeny 2 die who
  else if r.online d then r.setPending h file i
  else (r.addSat (RLINK_ERRCNT_MSIDROP d) 1).modDie d fun x => { x with drop := max x.drop 1 }

/-- A source belongs to the secure world (R391). -/
def Run.srcSecure (r : Run s0) (n : Nat) : Bool := r.bit (SEC_SRCWORLD_SEC (n / 64)) (n % 64)

/-- The domain in which a source is active: the supervisor domain when the machine domain delegates it. -/
def Run.aplicActive (r : Run s0) (n : Nat) : Nat := if (r.aplicCfg n).deleg then 1 else 0

/-- Send the MSI of a source that is pending and enabled in a domain whose IE is 1, and clear its pending bit (AIA). -/
def Run.aplicDeliver (r : Run s0) (dom n : Nat) : Run s0 :=
  let a := r.aplicDom dom
  let c := r.aplicCfg (dom * 256 + n)
  if a.ie && a.pend.getLsbD n && a.enab.getLsbD n then
    let r := r.setAplicDom dom { a with pend := a.pend &&& ~~~ (1#256 <<< n) }
    let p := r.fresh
    p.1.msiTo (r.srcSecure n) 16 (if r.srcSecure n then 0 else p.2.toNat % 65536) c.hart (if dom = 0 then 0 else c.guest + 1) c.eiid
  else r

/-- A source becomes pending in the domain where it is active, and is delivered when enabled. -/
def Run.aplicPend (r : Run s0) (n : Nat) : Run s0 :=
  let dom := r.aplicActive n
  if (r.aplicCfg (dom * 256 + n)).sm = 0 then r
  else (r.modAplicDom dom fun a => { a with pend := a.pend ||| (1#256 <<< n) }).aplicDeliver dom n

/-- An edge on an Edge1 source: pending when the source mode is Edge1 (4); a detached or inactive source ignores it. -/
def Run.aplicEdge (r : Run s0) (n : Nat) : Run s0 :=
  if (r.aplicCfg (r.aplicActive n * 256 + n)).sm = 4 then r.aplicPend n else r

/-- The wire of a level source changes. A source in a Level1 mode (6) becomes pending when its wire rises and stops being
pending when it falls; one in Edge1 mode (4) becomes pending at the rise, in Edge0 mode (5) at the fall. -/
def Run.aplicLevel (r : Run s0) (n : Nat) (up : Bool) : Run s0 :=
  let dom := r.aplicActive n
  let was := (r.aplicDom 0).level.getLsbD n
  let bit := 1#256 <<< n
  let r := r.modAplicDom 0 fun a => { a with level := if up then a.level ||| bit else a.level &&& ~~~ bit }
  let sm := (r.aplicCfg (dom * 256 + n)).sm
  if sm = 6 then
    if up then (if was then r else r.aplicPend n)
    else r.modAplicDom dom fun a => { a with pend := a.pend &&& ~~~ bit }
  else if sm = 7 then
    if up then r.modAplicDom dom fun a => { a with pend := a.pend &&& ~~~ bit }
    else if was then r.aplicPend n else r
  else if sm = 4 ∧ up ∧ ¬ was then r.aplicPend n
  else if sm = 5 ∧ ¬ up ∧ was then r.aplicPend n
  else r

end Sys2Proof.Machine
end

