-- ==== Sys2Proof/Machine/Errors.lean ====
section
/-! DEFINITION. Error records, banks, rings, corrected-error counters and FATAL (R453 to R461, R470 to R473). -/
namespace Sys2Proof.Machine

variable {s0 : State}

/-- The error banks (R455). -/
inductive Bank
  | tile (n : Nat)
  | l3 (d q : Nat)
  | rill (d : Nat)
  | tbrx (d : Nat)
  | home (s : Nat)
  | rlink (d : Nat)
  | mc (c : Nat)
  | grp (g : Nat)
  | sad | iommu
  | phlox (e : Option Nat)
  | fox | weir | sec
deriving DecidableEq, Repr

/-- The window offset of a bank (R455, with the blocks of R493 and R494). -/
def Bank.base : Bank → Nat
  | .tile n => tileBase n + 0x600E00
  | .l3 d q => dieBase d + 0x10001E00 + q * 0x1000
  | .rill d => dieBase d + 0x10010E00
  | .tbrx d => dieBase d + 0x10020E00
  | .home s => 0x10000A1E00 + s * 0x1000
  | .rlink d => 0x10000B0E00 + d * 0x1000
  | .mc c => 0x1000200E00 + c * 0x10000
  | .grp g => 0x1000400E00 + g * 0x10000
  | .sad => 0x1000040E00
  | .iommu => 0x1000060E00
  | .phlox _ => 0x1000800E00
  | .fox => 0x1000070E00
  | .weir => 0x1000090E00
  | .sec => 0x1000080E00

/-- The die of a bank, 16 for the IOD. -/
def Bank.die : Bank → Nat
  | .tile n => n / 16
  | .l3 d _ => d
  | .rill d => d
  | .tbrx d => d
  | _ => 16

/-- The stop number of a bank (R455, R205). -/
def Bank.stop : Bank → Nat
  | .tile n => n % 16
  | .l3 _ q => 16 + q
  | .rill _ => 20
  | .tbrx _ => 21
  | .home s => s
  | .rlink d => 16 + d
  | .mc c => 32 + c
  | .grp g => 64 + g
  | .sad => 121
  | .iommu => 120
  | .phlox e => 96 + e.getD 0
  | .fox => 112
  | .weir => 113
  | .sec => 112

/-- The class of a record (R11, R454). -/
inductive Cls
  | ce | ucna | ucr | fatal
deriving DecidableEq, Repr

/-- The class code of R454. -/
def Cls.code : Cls → Nat
  | .ce => 0
  | .ucna => 1
  | .ucr => 2
  | .fatal => 3

/-- The content of a record that its event gives (R454); `sub` is 0xFFFF for none, DETAIL is bytes 32 to 63. -/
structure Rec where
  event : Nat
  cls : Cls
  addr : Option Nat := none
  req : Option (Nat × Nat) := none
  sub : Nat := 0xFFFF
  syn : Nat := 0
  poisoned : Bool := false
  dieScope : Bool := false
  detail : BitVec 256 := 0
deriving DecidableEq, Repr

/-- Bytes lo to lo + n - 1 of DETAIL, counted from byte 32. -/
def detailBytes (lo n v : Nat) : BitVec 256 := BitVec.ofNat 256 (v % 256 ^ n) <<< (8 * (lo - 32))

/-- The requester fields of R454: REQKIND and REQ. -/
def Requester.rec : Requester → Nat × Nat
  | .hart h => (1, h.val)
  | .group g p => (2, g.val * 16 + p.val)
  | .phlox f => (3, f.val)
  | .fox => (4, 0)
  | .lark k => (5, k.val)
  | .peer p => (6, p.val)

/-- The requester fields of R454 for the sender of a message. -/
def Agent.rec : Agent → Option (Nat × Nat)
  | .hart h => some (1, h.val)
  | .tile n => some (1, n.val * 4)
  | .group g => some (2, g.val * 16)
  | .phlox e => some (3, e.val)
  | .fox => some (4, 0)
  | .lark k => some (5, k.val)
  | .peer p => some (6, p.val)
  | .cxl g => some (7, g.val)
  | _ => none

/-- The die's time is invalid (R51): FLAGS bit 2. -/
def Run.timeInv (r : Run s0) (d : Nat) : Bool := d < 16 && r.on (TBRX_STATUS_LOST d)

/-- The eight words of a record with COUNT 1 at the present time (R454). -/
def Run.recWords (r : Run s0) (b : Bank) (x : Rec) : List Word :=
  let d := b.die
  let flags := (if x.addr.isSome then 1 else 0) + (if x.req.isSome then 2 else 0) + (if r.timeInv d then 4 else 0)
    + (if x.poisoned then 8 else 0) + (if x.dieScope then 16 else 0)
  let w0 := x.event + x.cls.code * 2 ^ 16 + flags * 2 ^ 24 + (d * 256 + b.stop) * 2 ^ 32 + x.sub * 2 ^ 48
  let w3 := (x.req.getD (0, 0)).2 + (x.req.getD (0, 0)).1 * 2 ^ 16 + x.syn * 2 ^ 24 + 2 ^ 32
  [BitVec.ofNat 64 w0, BitVec.ofNat 64 (r.dieTime d), BitVec.ofNat 64 (x.addr.getD 0), BitVec.ofNat 64 w3,
   x.detail.extractLsb' 0 64, x.detail.extractLsb' 64 64, x.detail.extractLsb' 128 64, x.detail.extractLsb' 192 64]

/-- Write the words of a record from word k on. -/
def Run.putWords (r : Run s0) (f : Nat → Reg) : Nat → List Word → Run s0
  | _, [] => r
  | k, w :: ws => Run.putWords (r.setReg (f k) w) f (k + 1) ws

/-- A ring entry by its index (R457). -/
def Run.ringEntry (r : Run s0) (d i : Nat) : List Word := (List.range 8).map fun k => r.reg (ERR_RING d i k)

/-- The class of a ring entry. -/
def entryClass (e : List Word) : Nat := Word.bits (e.headD 0) 23 16

/-- The entries of a ring from oldest to newest. -/
def Run.ringList (r : Run s0) (d : Nat) : List (List Word) :=
  (List.range (r.fld (ERR_RINGSTAT_COUNT d))).map fun i => r.ringEntry d ((r.fld (ERR_RINGSTAT_TAIL d) + i) % 16)

/-- Write ring entries in age order from index `t` upward, modulo 16. -/
def Run.putRing (r : Run s0) (d : Nat) : Nat → List (List Word) → Run s0
  | _, [] => r
  | t, e :: es => Run.putRing (r.putWords (fun k => ERR_RING d (t % 16) k) 0 e) d (t + 1) es

/-- The ring's entry raises source 145 when its class is enabled in the CFG of the ring's own die (R457). -/
def Run.ringRaise (r : Run s0) (d cls : Nat) : Run s0 :=
  if (cls = 0 ∧ r.on (ERR_CFG_EVTCE d)) ∨ (cls = 1 ∧ r.on (ERR_CFG_EVTUCNA d)) ∨ (cls = 2 ∧ r.on (ERR_CFG_EVTUCR d))
  then r.aplicEdge 145 else r

/-- What a record of class `cls` replaces in a full ring, oldest first (R457): nothing for a CE; the oldest CE or UCNA entry
for a UCNA or UCR; the oldest entry that is not FATAL for a FATAL. -/
def ringVictim (cls : Nat) (es : List (List Word)) : Option Nat :=
  if cls = 0 then none
  else if cls = 3 then es.findIdx? fun e => entryClass e != 3
  else es.findIdx? fun e => entryClass e < 2

/-- A record enters its die's ring (R457). -/
def Run.ringPush (r : Run s0) (d : Nat) (ws : List Word) : Run s0 :=
  let cls := entryClass ws
  let n := r.fld (ERR_RINGSTAT_COUNT d)
  let t := r.fld (ERR_RINGSTAT_TAIL d)
  let r := r.setBit ERR_SUMMARY_RING d true
  if n < 16 then
    let r := r.putWords (fun k => ERR_RING d ((t + n) % 16) k) 0 ws
    (r.setFld (ERR_RINGSTAT_COUNT d) (n + 1)).ringRaise d cls
  else
    let es := r.ringList d
    let r := r.addSat (ERR_RINGSTAT_LOST d) 1
    match ringVictim cls es with
    | none => r
    | some i => (r.putRing d t (es.eraseIdx i ++ [ws])).ringRaise d cls

/-- At most once in 100,000,000 ticks for each bank: may a copy go to the ring now (R458), and then note the time. A copy of a CE that names
an array is noted too. -/
def Run.limitTake (r : Run s0) (key now : Nat) : Run s0 × Bool :=
  let last := r.limit key
  if last = 0 ∨ last + 100000000 ≤ now + 1 then (r.setLimit key (now + 1), true) else (r, false)

/-- Write a slot of a bank: a valid slot that is replaced sets its OVF (R456). -/
def Run.putSlot (r : Run s0) (b : Bank) (i : Nat) (ws : List Word) : Run s0 :=
  let v := r.fld (EB_STAT_V b.base)
  let r := if natBit v i then r.setBit (EB_STAT_OVF b.base) i true else r
  (r.setBit (EB_STAT_V b.base) i true).putWords (fun k => EB_REC b.base i k) 0 ws

/-- The slot of a class (R456). -/
def Cls.slot : Cls → Nat
  | .ce => 0
  | .ucna => 1
  | .ucr => 1
  | .fatal => 2

/-- The words that make two records a repeat: EVENT, STOP, SUB and ADDR (R456). -/
def sameEvent (a b : List Word) : Bool :=
  let key (ws : List Word) := (Word.bits (ws.headD 0) 15 0, Word.bits (ws.headD 0) 63 32, ws.getD 2 0)
  key a == key b

/-- Write a record to its bank and, where R457 and R458 let it, to its die's ring. `ring` says whether a CE took a new
entry of its array's table. A repeat only counts (R456). -/
def Run.logRec (r : Run s0) (b : Bank) (x : Rec) (ring : Option Bool := none) : Run s0 :=
  let ws := r.recWords b x
  let i := x.cls.slot
  let valid := natBit (r.fld (EB_STAT_V b.base)) i
  let old := (List.range 8).map fun k => r.reg (EB_REC b.base i k)
  if valid && sameEvent old ws then
    let c := Word.bits (old.getD 3 0) 63 32
    let r := r.setReg (EB_REC b.base i 3) (Word.setBits (old.getD 3 0) 63 32 (min (c + 1) 0xFFFFFFFF))
    r.setReg (EB_REC b.base i 1) (ws.getD 1 0)
  else
    let keeps := (x.cls = .ucna ∧ valid ∧ entryClass old = 2) ∨ (x.cls = .fatal ∧ valid)
    let r := if keeps then r else r.putSlot b i ws
    let now := r.dieTime b.die
    let p : Run s0 × Bool :=
      if x.event = 0x0903 then r.limitTake (b.base * 2 + 1) now
      else match x.cls, ring with
        | .ce, some new => (if new then r.setLimit (b.base * 2) (now + 1) else r, new)
        | .ce, none => r.limitTake (b.base * 2) now
        | _, _ => (r, true)
    if p.2 then p.1.ringPush b.die ws else p.1

/-- A refusal under R10 is recorded: event 0x0903 in the block's bank. -/
def Run.logDenied (r : Run s0) (b : Bank) (q : Requester) : Run s0 :=
  r.logRec b { event := 0x0903, cls := .ucna, req := some (Requester.rec q) }

/-- The index of the entry of an array's address table that an error at (kind, loc) takes: the same location, else the
first invalid entry, else the entry of lowest CNT, lowest j among equals (R461); and whether it is a new entry. -/
def Run.ceEntry (r : Run s0) (d a kind loc : Nat) : Nat × Bool :=
  let e (j : Nat) := (r.on (ARR_ADDR_V d a j), r.fld (ARR_ADDR_KIND d a j), r.fld (ARR_ADDR_LOC d a j), r.fld (ARR_ADDR_CNT d a j))
  let js := List.range 8
  match js.find? fun j => (e j).1 && (e j).2.1 == kind && (e j).2.2.1 == loc with
  | some j => (j, false)
  | none => match js.find? fun j => !(e j).1 with
    | some j => (j, true)
    | none => (js.foldl (fun b j => if (e j).2.2.2 < (e b).2.2.2 then j else b) 0, true)

/-- A corrected error in array instance `a` of die `d` (R461): COUNT and the address table; answers whether it took a new
entry. `kind` 0 gives a line address in `loc`, 1 a way and set. -/
def Run.countCe (r : Run s0) (d a kind loc : Nat) : Run s0 × Bool :=
  let p := r.ceEntry d a kind loc
  let j := p.1
  let cnt := if p.2 then 1 else min (r.fld (ARR_ADDR_CNT d a j) + 1) 127
  let r := r.addSat (ARR_CECNT_COUNT d a) 1
  let w := Word.setBits (Word.setBits (Word.setBits (Word.setBits 0 63 63 1) 62 56 cnt) 55 55 kind) 51 6 loc
  (r.setReg (ARR_ADDR d a j) w, p.2)

/-- A corrected error of an array, counted and recorded in a bank (R458, R461). -/
def Run.logCe (r : Run s0) (b : Bank) (d a kind loc : Nat) (x : Rec) : Run s0 :=
  let p := r.countCe d a kind loc
  p.1.logRec b { x with sub := a } (some p.2)

/-- The FATAL causes that need a cold reset (R471). -/
def fatalCold (event : Nat) : Bool :=
  event == 0x0604 || event == 0x0705 || event == 0x0A00 || event == 0x0A01 || event == 0x0A02

/-- Halt every hart of an online compute die: it reads STATE 5 until a reset (R472 step 3). A held hart stays held, as
does every hart that the state does not list. -/
def Run.haltAll (r : Run s0) : Run s0 :=
  r.1.harts.foldl (fun r p =>
    if r.online (dieOf (tileOf p.1)) && p.2.run != .held then
      (r.modHart p.1 fun t => { t with run := .fatal }).setFld (HART_STAT_STATE (tileOf p.1) (p.1 % 4)) 5
    else r) r

/-- FATAL (R472): the cause is ordered and recorded, FATAL# is asserted, harts stop, coherent peers are notified, and every
running channel puts its DRAM into self-refresh. -/
def Run.fatal (r : Run s0) (b : Bank) (x : Rec) : Run s0 :=
  let r := if r.on (ERR_FATAL_V) then r
    else (((r.setFld ERR_FATAL_V 1).setFld ERR_FATAL_DIE b.die).setFld ERR_FATAL_EVENT x.event)
  let r := if fatalCold x.event then r.setFld ERR_FATAL_COLD 1 else r
  let r := r.logRec b { x with cls := .fatal }
  let r := r.act (.pins { r.1.pins with fatal := true, status := 0xC })
  let r := r.setFld FOX_START_STEP 0xC
  let r := r.haltAll
  let r := (List.range 32).foldl (fun r g =>
    if (r.fld (G_CFG_PERS g) == 3 || r.fld (G_CFG_PERS g) == 4) && (r.fld (G_STAT_STATE g) == 4 || r.fld (G_STAT_STATE g) == 5)
    then r.emit (.fatalNotice (Fin.ofNat 4 (r.fld (G_CFG_PEER g)))) else r) r
  (List.range 24).foldl (fun r c => if r.fld (MC_STATUS_INIT c) == 3 then r.setFld (MC_STATUS_SR c) 1 else r) r

end Sys2Proof.Machine
end

