-- ==== Sys2Proof/Machine/Arrays.lean ====
section
/-! DEFINITION. The cache arrays of tiles and compute dies: indexing, lookup, replacement, the array codes with injected
errors, and the removal of lines with their inclusion rules (R125 to R137, R150, R474, R475). -/
namespace Sys2Proof

/-- A state in which the holder answers for the line. -/
def St.dirty (s : St) : Bool := s == .M || s == .O

/-- The state code of DETAIL byte 38. -/
def St.code : St → Nat
  | .I => 0
  | .S => 1
  | .E => 2
  | .O => 3
  | .M => 4

/-- The merged state of a die's line after a tile returned dirty data: M, or O where the L3 was in O (R158, R169). -/
def St.withDirty : St → St
  | .O => .O
  | _ => .M

end Sys2Proof

namespace Sys2Proof.Machine

variable {s0 : State}

/-- The quadrant, and home slice, of a line: the exclusive OR of the 23 two-bit fields of PA[51:6] (R126, R160). -/
def quadOf (l : LineAddr) : Nat := (List.range 23).foldl (fun a j => a ^^^ (l.toNat / 4 ^ j % 4)) 0

/-- The home slice of a line (R160). -/
def homeOf (l : LineAddr) : Agent := .home (Fin.ofNat 4 (quadOf l))

/-- The key of an L2 slot (R125). -/
def l2Key (n : Nat) (l : LineAddr) (w : Nat) : Nat := (n * 2048 + l.toNat % 2048) * 8 + w

/-- The key of an L1 slot (R125). -/
def l1Key (n : Nat) (l : LineAddr) (w : Nat) : Nat := (n * 64 + l.toNat % 64) * 16 + w

/-- The key of an L3 slot and of its snoop-filter entry (R125, R162). -/
def l3Key (d : Nat) (l : LineAddr) (w : Nat) : Nat := ((d * 4 + quadOf l) * 8192 + l.toNat % 8192) * 16 + w

/-- The 512-bit mask of the bytes whose mask bit is 1. -/
def byteMask (m : BitVec 64) : LineData :=
  (List.range 64).foldl (fun a i => if m.getLsbD i then a ||| (0xFF#512 <<< (8 * i)) else a) 0

/-- The line with the masked bytes replaced. -/
def mergeBytes (old new : LineData) (m : BitVec 64) : LineData :=
  let k := byteMask m
  (old &&& ~~~ k) ||| (new &&& k)

/-- Point the tree of a set away from way w (tree pseudo-LRU of 2^lg ways; PRESUMED form, log entry 7). -/
def plruTouch (lg bits w : Nat) : Nat :=
  ((List.range lg).foldl (fun (p : Nat × Nat) k =>
    let b := w / 2 ^ (lg - 1 - k) % 2
    (natSetBits p.1 p.2 p.2 (1 - b), 2 * p.2 + b)) (bits, 1)).1

/-- The way that the tree points at. -/
def plruVictim (lg bits : Nat) : Nat :=
  ((List.range lg).foldl (fun (p : Nat × Nat) _ =>
    let b := if natBit bits p.2 then 1 else 0
    (2 * p.1 + b, 2 * p.2 + b)) (0, 1)).1

/-- Use of a way points the set's tree away from it. -/
def Run.l2Touch (r : Run s0) (n : Nat) (l : LineAddr) (w : Nat) : Run s0 :=
  r.modPlruBits (2 ^ 21 + n * 2048 + l.toNat % 2048) fun b => plruTouch 3 b w

/-- The L2 slot that holds a line. -/
def Run.l2Find (r : Run s0) (n : Nat) (l : LineAddr) : Option (Nat × L2Slot) :=
  (List.range 8).findSome? fun w => match r.l2Slot (l2Key n l w) with
    | some s => if s.line = l ∧ s.st ≠ .I then some (w, s) else none
    | none => none

/-- The L3 slot of a die that holds a line. -/
def Run.l3Find (r : Run s0) (d : Nat) (l : LineAddr) : Option (Nat × L3Slot) :=
  (List.range 16).findSome? fun w => match r.l3Slot (l3Key d l w) with
    | some s => if s.line = l ∧ s.st ≠ .I then some (w, s) else none
    | none => none

/-- The L1D way that holds a line. -/
def Run.l1dFind (r : Run s0) (n : Nat) (l : LineAddr) : Option Nat :=
  (List.range 16).find? fun w => (r.l1dSlot (l1Key n l w)).map (·.line) == some l

/-- The L1I way that holds a line. -/
def Run.l1iFind (r : Run s0) (n : Nat) (l : LineAddr) : Option Nat :=
  (List.range 16).find? fun w => (r.l1iSlot (l1Key n l w)).map (·.line) == some l

/-- The state of a line in a tile's L2. -/
def Run.l2St (r : Run s0) (n : Nat) (l : LineAddr) : St := ((r.l2Find n l).map (·.2.st)).getD .I

/-- The state of a line in a die's L3. -/
def Run.l3St (r : Run s0) (d : Nat) (l : LineAddr) : St := ((r.l3Find d l).map (·.2.st)).getD .I

/-- Remove a line from the L1I and L1D of a tile. -/
def Run.l1Drop (r : Run s0) (n : Nat) (l : LineAddr) : Run s0 :=
  let r := match r.l1dFind n l with
    | some w => r.setL1dSlot (l1Key n l w) none
    | none => r
  match r.l1iFind n l with
    | some w => r.setL1iSlot (l1Key n l w) none
    | none => r

/-- The armed masks of an array instance, taken by its first write: ARM clears (R474, R475). -/
def Run.armTake (r : Run s0) (d a : Nat) : Run s0 × Option (BitVec 64 × BitVec 9) :=
  if r.on (ARR_FLIP_ARM d a) then
    (r.setFld (ARR_FLIP_ARM d a) 0, some (r.reg (ARR_FLIPD d a), BitVec.ofNat 9 (r.fld (ARR_FLIP_CMASK d a))))
  else (r, none)

/-- How many bits are set. -/
def ones {w : Nat} (v : BitVec w) : Nat := (List.range w).foldl (fun n i => if v.getLsbD i then n + 1 else n) 0

/-- The flip that a write of `d` data and `c` check bits stores at codeword `idx`, if its masks reach the codeword. -/
def mkFlip (idx dw cw : Nat) (m : Option (BitVec 64 × BitVec 9)) : Option Flip :=
  match m with
  | none => none
  | some (dm, cm) =>
    let d := dm &&& BitVec.ofNat 64 (2 ^ dw - 1)
    let c := cm &&& BitVec.ofNat 9 (2 ^ cw - 1)
    if d = 0 ∧ c = 0 then none else some ⟨idx, d, c⟩

/-- The core-valid bits of an L3 slot are written: a write of the tag, state and core-valid array that injection may corrupt, by a parity
error in what it writes (R137, R475). -/
def Run.cvWrite (r : Run s0) (d w : Nat) (s : L3Slot) (cv : BitVec 16) : Run s0 :=
  if cv = s.cv then r
  else
    let p := r.armTake d (128 + quadOf s.line * 3 + 1)
    p.1.setL3Slot (l3Key d s.line w) (some { s with cv := cv, cvFlip := s.cvFlip || (mkFlip 0 16 1 p.2).isSome })

/-- What a SEC-DED codeword with flipped bits decodes to: SYNCLASS 1 a data bit corrected, 2 a check bit corrected,
3 uncorrectable (R454, R462). More than two flipped bits are taken as uncorrectable (DESIGN CHOICE, log entry 8). -/
def Flip.synclass (f : Flip) : Nat := if ones f.d + ones f.c = 1 then (if ones f.d = 1 then 1 else 2) else 3

/-- DETAIL of a cache array: set, way, word, syndrome (a free value: the spec gives no code matrix), voted state. -/
def arrayDetail (set way word syn st : Nat) : BitVec 256 :=
  detailBytes 32 2 set ||| detailBytes 34 1 way ||| detailBytes 35 1 word ||| detailBytes 36 2 syn ||| detailBytes 38 1 st

/-- A buffer that has no event of its own is written and read once (R461, R475): a corrected error in it counts, at its line. For one that
cannot be corrected the spec gives no response (DESIGN CHOICE, log entry 107). -/
def Run.bufferPass (r : Run s0) (d a : Nat) (l : Option LineAddr) : Run s0 :=
  let p := r.armTake d a
  match mkFlip 0 64 8 p.2, l with
  | none, _ => p.1
  | some f, some l => if f.synclass = 3 then p.1 else (p.1.countCe d a 0 l.toNat).1
  | some f, none => if f.synclass = 3 then p.1 else (p.1.countCe d a 1 0).1

/-- Clear a tile's core-valid bit of a line (R172), as the core-valid array is written (R475). -/
def Run.cvClear (r : Run s0) (d : Nat) (l : LineAddr) (t : Nat) : Run s0 :=
  match r.l3Find d l with
  | some (w, s) => r.cvWrite d w s (s.cv &&& ~~~ (1#16 <<< t))
  | none => r

/-- A tile's clean line is given up: its L1 copies, its slot and its core-valid bit. -/
def Run.l2Forget (r : Run s0) (n : Nat) (l : LineAddr) : Run s0 :=
  match r.l2Find n l with
  | some (w, _) => ((r.l1Drop n l).setL2Slot (l2Key n l w) none).cvClear (dieOf n) l (n % 16)
  | none => r

/-- An L2 line is read: an error stored in it is corrected, or the clean line invalidated, to be fetched again from the L3, or the dirty
line poisoned (R135, R462). -/
def Run.l2Check (r : Run s0) (n : Nat) (l : LineAddr) : Run s0 :=
  match r.l2Find n l with
  | none => r
  | some (w, s) => match s.flip with
    | none => r
    | some f =>
      let p := r.fresh
      let syn := f.synclass
      let x : Rec := { event := 0x0110, cls := .ce, addr := some (l.toNat * 64), syn := syn,
                       detail := arrayDetail (l.toNat % 2048) w f.idx (p.2.toNat % 65536) s.st.code }
      let a := n % 16 * 8 + 5
      if syn ≠ 3 then
        (p.1.setL2Slot (l2Key n l w) (some { s with flip := none })).logCe (.tile n) (dieOf n) a 0 l.toNat x
      else if s.st.dirty then
        ((p.1.l1Drop n l).setL2Slot (l2Key n l w) (some { s with flip := none, poison := true })).logRec (.tile n)
          { x with event := 0x0112, cls := .ucna, sub := a, poisoned := true }
      else (p.1.l2Forget n l).logCe (.tile n) (dieOf n) a 0 l.toNat { x with event := 0x0111 }

/-- An L3 line is read: an error stored in it is corrected, or the dirty line poisoned, or the clean line invalidated, to be fetched again
through its home (R135). The tiles that its core-valid bits name have been recalled before. -/
def Run.l3Check (r : Run s0) (d : Nat) (l : LineAddr) : Run s0 :=
  match r.l3Find d l with
  | none => r
  | some (w, s) => match s.flip with
    | none => r
    | some f =>
      let p := r.fresh
      let q := quadOf l
      let syn := f.synclass
      let a := 128 + q * 3
      let x : Rec := { event := 0x0200, cls := .ce, addr := some (l.toNat * 64), syn := syn,
                       detail := arrayDetail (q * 8192 + l.toNat % 8192) w f.idx (p.2.toNat % 65536) s.st.code }
      if syn = 3 && s.st.dirty then
        (p.1.setL3Slot (l3Key d l w) (some { s with flip := none, poison := true })).logRec (.l3 d q)
          { x with event := 0x0201, cls := .ucna, sub := a, poisoned := true }
      else
        let r := p.1.setL3Slot (l3Key d l w) (if syn = 3 then none else some { s with flip := none })
        r.logCe (.l3 d q) d a 0 l.toNat x

/-- An L3 line is clean and a stored error in it cannot be corrected: reading it invalidates it on the die (R135). -/
def Run.l3Broken (r : Run s0) (d : Nat) (l : LineAddr) : Bool :=
  match r.l3Find d l with
  | some (_, s) => !s.st.dirty && (s.flip.any fun f => f.synclass == 3)
  | none => false

/-- A victim-buffer line is read: corrected, or written out poisoned (R135). -/
def Run.victCheck (r : Run s0) (b : Bank) (a : Nat) (ce ucna : Nat) (v : Victim) : Run s0 × Victim :=
  match v.flip with
  | none => (r, v)
  | some f =>
    let p := r.fresh
    let x : Rec := { event := ce, cls := .ce, addr := some (v.line.toNat * 64), syn := f.synclass,
                     detail := arrayDetail 0 0 f.idx (p.2.toNat % 65536) v.st.code }
    if f.synclass ≠ 3 then (p.1.logCe b b.die a 0 v.line.toNat x, { v with flip := none })
    else (p.1.logRec b { x with event := ucna, cls := .ucna, sub := a, poisoned := true }, { v with flip := none, poison := true })

/-- The core-valid bits of a die's line name tile t. -/
def L3Slot.names (s : L3Slot) (t : Nat) : Bool := s.cv.getLsbD t

/-- Poison every line of die d that records tile t as owner and lies in L2 set `set` (R136), in the L3 and in the tile's other ways,
which keep their core-valid bits. -/
def Run.poisonOwned (r : Run s0) (d t set : Nat) : Run s0 :=
  r.1.l3.foldl (fun r p =>
    if p.1 / 16 / 8192 / 4 = d ∧ p.2.line.toNat % 2048 = set ∧ (p.2.st = .E ∨ p.2.st = .M) ∧ p.2.cv = 1#16 <<< t then
      match r.l2Find (d * 16 + t) p.2.line with
      | some (w, s) => ((r.l1Drop (d * 16 + t) s.line).setL2Slot (l2Key (d * 16 + t) s.line w) (some { s with poison := true })).setL3Slot p.1 (some { p.2 with poison := true, st := .M })
      | none => r.setL3Slot p.1 (some { p.2 with poison := true, st := .M, cv := 0 })
    else r) r

/-- The tags of an L2 set are read: a slot with an address-parity error is invalidated with its L1 copies; if its state was
M the line address is lost and the die's quadrants poison what the tile may have owned (R136). -/
def Run.l2TagCheck (r : Run s0) (n : Nat) (l : LineAddr) : Run s0 :=
  (List.range 8).foldl (fun r w => match r.l2Slot (l2Key n l w) with
    | none => r
    | some s => if !s.tagFlip then r else
      let r := (r.l1Drop n s.line).setL2Slot (l2Key n l w) none
      let set := l.toNat % 2048
      let x : Rec := { event := 0x0110, cls := .ce, syn := 4, detail := arrayDetail set w 0 0 s.st.code }
      let a := n % 16 * 8 + 6
      if s.st.dirty then
        (r.poisonOwned (dieOf n) (n % 16) set).logRec (.tile n) { x with event := 0x0113, cls := .ucna, sub := a, poisoned := true }
      else r.logCe (.tile n) (dieOf n) a 1 (w * 2 ^ 26 + set) x) r

/-- The L2 is read for a line: tags, then data (R135, R136). -/
def Run.l2Look (r : Run s0) (n : Nat) (l : LineAddr) : Run s0 := (r.l2TagCheck n l).l2Check n l

/-- The tags of an L3 set are read: an address-parity error is repaired from the snoop filter, and a core-valid parity error
sets all 16 bits; a CE each (R137). -/
def Run.l3TagCheck (r : Run s0) (d : Nat) (l : LineAddr) : Run s0 :=
  (List.range 16).foldl (fun r w => match r.l3Slot (l3Key d l w) with
    | none => r
    | some s => if !s.tagFlip && !s.cvFlip then r else
      let q := quadOf l
      let x : Rec := { event := 0x0200, cls := .ce, syn := 4, detail := arrayDetail (q * 8192 + l.toNat % 8192) w 0 0 s.st.code }
      (r.setL3Slot (l3Key d l w) (some { s with tagFlip := false, cvFlip := false, cv := if s.cvFlip then BitVec.allOnes 16 else s.cv })).logCe
        (.l3 d q) d (128 + q * 3 + 1) 1 (w * 2 ^ 26 + l.toNat % 8192) x) r

/-- Put a line into a slot of an L2, as hardware writes the data and tag arrays (injection takes the first such write). -/
def Run.l2Write (r : Run s0) (n : Nat) (w : Nat) (s : L2Slot) (idx : Nat) (tag : Bool) : Run s0 :=
  let d := dieOf n
  let p := r.armTake d (n % 16 * 8 + 5)
  let flip := match mkFlip idx 64 8 p.2 with
    | some f => some f
    | none => s.flip
  let q := if tag then p.1.armTake d (n % 16 * 8 + 6) else (p.1, none)
  q.1.setL2Slot (l2Key n s.line w) (some { s with flip := flip, tagFlip := s.tagFlip || (mkFlip 0 64 9 q.2).isSome })

/-- Put a line into a slot of an L3. -/
def Run.l3Write (r : Run s0) (d : Nat) (w : Nat) (s : L3Slot) (tag : Bool) : Run s0 :=
  let q := quadOf s.line
  let p := r.armTake d (128 + q * 3)
  let flip := match mkFlip 0 64 8 p.2 with
    | some f => some f
    | none => s.flip
  let t := if tag then p.1.armTake d (128 + q * 3 + 1) else (p.1, none)
  t.1.setL3Slot (l3Key d s.line w) (some { s with flip := flip, tagFlip := s.tagFlip || (mkFlip 0 64 9 t.2).isSome })

/-- The dirty line of a tile, in its L2 or its L2 victim buffer, with any code error found. -/
def Run.tileDirty (r : Run s0) (n : Nat) (l : LineAddr) : Run s0 × Option (LineData × Bool) :=
  let r := r.l2Check n l
  match r.l2Find n l with
  | some (_, s) => (r, if s.st = .M then some (s.data, s.poison) else none)
  | none => match (r.tile n).vict.find? (fun v => v.line = l ∧ ¬ v.surrendered) with
    | some v =>
      let p := r.victCheck (.tile n) (n % 16 * 8 + 7) 0x0110 0x0112 v
      (p.1, some (p.2.data, p.2.poison))
    | none => (r, none)

/-- Mark the victim-buffer entry of a line surrendered (R174). -/
def surrender (l : LineAddr) (vs : List Victim) : List Victim :=
  vs.map fun v => if v.line = l then { v with surrendered := true } else v

end Sys2Proof.Machine
end

