-- ==== Sys2Proof/Machine/Memory.lean ====
section
/-! DEFINITION. Physical memory: the address map, the system address decoder, the interleave sets, the mapping within a
channel, the DRAM code, inline encryption, and reads and writes of DRAM lines (R16 to R22, R228 to R246). -/
namespace Sys2Proof.Machine

variable {s0 : State}

/-- The regions of the address map (R16). -/
inductive Region
  | lowIo | memory | highIo | reserved | window | beyond
deriving DecidableEq, Repr

/-- The region of a physical address (R16); 2^52 and above is no address. -/
def regionOf (a : Nat) : Region :=
  if a < 0x80000000 then .lowIo
  else if a < 0x1000000000000 then .memory
  else if a < 0x8000000000000 then .highIo
  else if a < 0xFFF0000000000 then .reserved
  else if a < 0x10000000000000 then .window
  else .beyond

/-- A device region (R17). -/
def Region.device : Region → Bool
  | .lowIo | .highIo | .window => true
  | _ => false

/-- The enabled SAD range of lowest n that contains an address and is not a KIND 1 range naming this socket (R21). -/
def Run.sadMatch (r : Run s0) (a : Nat) : Option Nat :=
  let u := a / 2 ^ 30
  (List.range 32).find? fun n =>
    r.on (SAD_RANGE_BASE_EN n) && decide (r.fld (SAD_RANGE_BASE_BASE n) ≤ u) && decide (u ≤ r.fld (SAD_RANGE_LIMIT_LIMIT n))
    && !(r.fld (SAD_RANGE_BASE_KIND n) == 1 && r.fld (SAD_RANGE_BASE_TARGET n) == r.fld SOCK_CFG_ID)

/-- The bits set in the low n bits of a mask, in rising order. -/
def setBits (n m : Nat) : List Nat := (List.range n).filter (natBit m)

/-- An interleave set decodes an address (R230): the channel and the channel-local address. -/
def Run.ilvDecode (r : Run s0) (i a : Nat) : Option (Nat × Nat) :=
  let base := r.fld (ILV_SET_BASE_BASE i) * 2 ^ 30
  let size := r.fld (ILV_SET_CFG_SIZE i) * 2 ^ 30
  let chs := setBits 24 (r.fld (ILV_SET_CFG_CHMASK i))
  let g := 2 ^ r.fld (ILV_SET_CFG_GRAIN i)
  let o := a - base
  if a < base ∨ size ≤ o ∨ chs.length = 0 then none
  else
    let chunk := o / g
    (chs[chunk % chs.length]?).map fun c =>
      (c, r.fld (ILV_SET_CFG_LOCALBASE i) * 2 ^ 30 + chunk / chs.length * g + o % g)

/-- A link group carries CXL memory: its personality is CXL (2) and it is enabled (R21, R303). -/
def Run.carriesCxl (r : Run s0) (g : Nat) : Bool := r.fld (G_CFG_PERS g) == 2 && r.on (G_CFG_EN g)

/-- The decoder's answer for a memory-region address (R21). -/
def Run.decode (r : Run s0) (a : Nat) : Target :=
  match r.sadMatch a with
  | none => .none_
  | some n =>
    let t := r.fld (SAD_RANGE_BASE_TARGET n)
    match r.fld (SAD_RANGE_BASE_KIND n) with
    | 0 => if r.on (ILV_SET_BASE_EN t) then match r.ilvDecode t a with
        | some (c, la) => .dram c la
        | none => .none_
      else .none_
    | 1 => .peer t
    | 2 => if r.carriesCxl t then .cxl t else .none_
    | _ => .none_

/-- The decoder's answer for a line. -/
def Run.decodeLine (r : Run s0) (l : LineAddr) : Target := r.decode (l.toNat * 64)

/-- The enabled entry of the enclave range table that holds an address: its index (R375). -/
def Run.ertOf (r : Run s0) (a : Nat) : Option Nat :=
  (List.range 128).find? fun n => r.on (ERT_BASE_EN n) &&
    decide (r.fld (ERT_BASE_BASE n) ≤ a / 2 ^ 21) && decide (a / 2 ^ 21 ≤ r.fld (ERT_LIMIT_LIMIT n))

/-- The enclave whose range holds an address, or 0. -/
def Run.enclaveOf (r : Run s0) (a : Nat) : Nat := ((r.ertOf a).map fun n => r.fld (ERT_BASE_EID n)).getD 0

/-- A location in DRAM (R231). -/
structure Loc where
  sub : Nat
  dimm : Nat
  cs : Nat
  cid : Nat
  bg : Nat
  bank : Nat
  row : Nat
  col : Nat
deriving DecidableEq, Repr

/-- A channel-local address mapped to DRAM by the channel's geometry (R231). -/
def Run.locate (r : Run s0) (c la : Nat) : Loc :=
  let h := r.fld (MC_GEOM_HEIGHT c)
  let k := r.fld (MC_GEOM_RANKS c)
  let d := r.fld (MC_GEOM_DPC c)
  let row := la / 2 ^ (19 + h + k + d) % 2 ^ (16 + r.fld (MC_GEOM_DENS c))
  { sub := la / 64 % 2, cid := la / 2 ^ 19 % 2 ^ h, cs := la / 2 ^ (19 + h) % 2 ^ k, dimm := la / 2 ^ (19 + h + k) % 2 ^ d,
    row := row, bg := (la / 2 ^ 9 % 8) ^^^ (row % 8), bank := (la / 2 ^ 12 % 4) ^^^ (row / 8 % 4),
    col := la / 2 ^ 7 % 4 * 16 + la / 2 ^ 14 % 32 * 64 }

/-- The logical rank of a location (R252). -/
def Loc.rank (x : Loc) : Nat := (x.dimm * 2 + x.cs) * 4 + x.cid

/-- The capacity of a channel in bytes (R224). -/
def Run.capacity (r : Run s0) (c : Nat) : Nat :=
  2 ^ (19 + 16 + r.fld (MC_GEOM_DENS c) + r.fld (MC_GEOM_RANKS c) + r.fld (MC_GEOM_HEIGHT c)) * (r.fld (MC_GEOM_DPC c) + 1)

/-- DETAIL of a memory channel's record (R454). -/
def Loc.detail (x : Loc) (dev : Nat) (scrub : Bool) : BitVec 256 :=
  detailBytes 32 1 x.sub ||| detailBytes 33 1 x.dimm ||| detailBytes 34 1 x.cs ||| detailBytes 35 1 x.cid
  ||| detailBytes 36 1 x.bg ||| detailBytes 37 1 x.bank ||| detailBytes 38 4 x.row ||| detailBytes 42 2 x.col
  ||| detailBytes 44 1 dev ||| detailBytes 45 1 (if scrub then 1 else 0)

/-- Twice an element of GF(2^16) over x^16 + x^12 + x^3 + x + 1 (R241). -/
def gfDouble (a : Nat) : Nat := if a < 32768 then 2 * a else ((2 * a) ^^^ 0x1100B) % 65536

/-- Product in GF(2^16). -/
def gfMul (a b : Nat) : Nat :=
  ((List.range 16).foldl (fun (p : Nat × Nat) i => (if natBit b i then p.1 ^^^ p.2 else p.1, gfDouble p.2)) (0, a)).1

/-- Power in GF(2^16). -/
def gfPow (a : Nat) : Nat → Nat
  | 0 => 1
  | n + 1 => gfMul a (gfPow a n)

/-- Inverse in GF(2^16): the power 2^16 - 2, as the product of the squarings of a from a^2 to a^(2^15). -/
def gfInv (a : Nat) : Nat :=
  ((List.range 15).foldl (fun (p : Nat × Nat) _ => let q := gfMul p.2 p.2; (gfMul p.1 q, q)) (1, a)).1

/-- Syndrome i of an error pattern: the sum of e_j α^(ij) over its coefficients (R241). -/
def syndrome (err : List (Nat × BitVec 16)) (i : Nat) : Nat :=
  err.foldl (fun s p => s ^^^ gfMul p.2.toNat (gfPow 2 (i * p.1))) 0

/-- The coefficients of device k's four symbols (R241). -/
def deviceCoeffs (k : Nat) : List Nat :=
  if k < 8 then [8 + 4 * k, 9 + 4 * k, 10 + 4 * k, 11 + 4 * k] else if k = 8 then [0, 1, 2, 3] else [4, 5, 6, 7]

/-- One elimination step: make every other row 0 in the pivot row's first column and drop that column. -/
def eliminate : List (List Nat) → Option (List (List Nat) × List Nat)
  | rows =>
    match rows.findIdx? fun w => w.headD 0 != 0 with
    | none => none
    | some i =>
      let p := rows.getD i []
      let inv := gfInv (p.headD 0)
      let p := p.map (gfMul inv)
      some ((rows.eraseIdx i).map fun w => (w.zip p).tail.map fun x => x.1 ^^^ gfMul (w.headD 0) x.2, p)

/-- Solve linear equations over GF(2^16), each row the coefficients and then the right side: the values of the n
unknowns, or none where a remaining equation fails. -/
def gfSolve : Nat → List (List Nat) → Option (List Nat)
  | 0, rows => if rows.all fun w => w.headD 0 == 0 then some [] else none
  | n + 1, rows =>
    match eliminate rows with
    | none => none
    | some (rest, p) =>
      match gfSolve n rest with
      | none => none
      | some ys =>
        let v := ((p.tail.zip ys).foldl (fun s x => s ^^^ gfMul x.1 x.2) 0) ^^^ p.getLastD 0
        some (v :: ys)

/-- Treat device k's symbols as erasures: the error values that give all seven syndromes, if any (R242). -/
def solveDevice (syn : List Nat) (k : Nat) : Option (List Nat) :=
  gfSolve 4 ((List.range 7).map fun i => (deviceCoeffs k).map (fun j => gfPow 2 (i * j)) ++ [syn.getD i 0])

/-- What the channel finds in a read (R242, R243): clean, corrected in a device, or uncorrectable. -/
inductive Code
  | clean | corrected (dev : Nat) | bad
deriving DecidableEq, Repr

/-- The sum of the error values listed for a coefficient. -/
def errAt (err : List (Nat × BitVec 16)) (j : Nat) : BitVec 16 :=
  err.foldl (fun s p => if p.1 = j then s ^^^ p.2 else s) 0

/-- Decode an error pattern (R242): exactly one device explains the syndromes, and after its correction the pattern's
remainder is the decoded line's difference from what was written. -/
def decodeErr (err : List (Nat × BitVec 16)) : Code × List (Nat × BitVec 16) :=
  let syn := (List.range 7).map (syndrome err)
  if syn.all (· == 0) then (.clean, err)
  else match (List.range 10).filterMap fun k => (solveDevice syn k).map fun ys => (k, ys) with
    | [(k, ys)] =>
      let rest := err ++ ((deviceCoeffs k).zip ys).map fun p => (p.1, BitVec.ofNat 16 p.2)
      if (errAt rest 7).toNat / 8 = 0 then (.corrected k, rest) else (.bad, err)
    | _ => (.bad, err)

/-- The pattern with one nonzero entry for each coefficient. -/
def errNorm (err : List (Nat × BitVec 16)) : List (Nat × BitVec 16) :=
  (List.range 40).filterMap fun j => let e := errAt err j; if e = 0 then none else some (j, e)

/-- The key of a line in the DRAM store. -/
def dramKey (c la : Nat) : Nat := c * 2 ^ 40 + la / 64

/-- The memory key slot of an address (R246). -/
def Run.memSlot (r : Run s0) (a : Nat) : KeySlot := r.key (r.enclaveOf a)

/-- The stored line of a location. A line never written since power-up holds an unpredictable one (R247): its data and
metadata are free, and whether it decodes cleanly, after correction or not at all is free. -/
def Run.dramStored (r : Run s0) (c la : Nat) : Run s0 × DLine × Bool :=
  match r.dline (dramKey c la) with
  | some d => (r, d, true)
  | none =>
    let p := r.fresh
    let q := p.1.fresh
    let e : List (Nat × BitVec 16) := (List.range 40).map fun j => (j, q.2.extractLsb' (j % 32 * 16) 16)
    let pick := (q.2.extractLsb' 0 2).toNat
    let err := if pick = 0 then [] else if pick = 1 then [(8, 1)] else errNorm e
    (q.1, { data := p.2, dir := (q.2.extractLsb' 2 2).toNat, poison := q.2.getLsbD 4, key := (r.memSlot 0).key, err := err }, false)

/-- Log a channel's record. `sys` is the system address, none for a scrub read (R250). -/
def Run.mcLog (r : Run s0) (c la : Nat) (event : Nat) (cls : Cls) (sys : Option Nat) (syn dev : Nat) (poisoned : Bool := false) : Run s0 :=
  r.logRec (.mc c) { event := event, cls := cls, addr := sys, syn := syn, poisoned := poisoned,
                     detail := (r.locate c la).detail dev sys.isNone }

/-- A corrected read is counted in its rank (R252) and logged (R243). -/
def Run.mcCorrected (r : Run s0) (c la : Nat) (sys : Option Nat) (dev : Nat) : Run s0 :=
  let k := (r.locate c la).rank
  let r := (r.addSat (MC_CECNT_COUNT c k) 1).setFld (MC_CECNT_LASTDEV c k) dev
  r.mcLog c la 0x0600 .ce sys (if dev < 8 then 7 else 6) dev

/-- What a read that decodes as `x` gives, none where it is uncorrectable: a corrected line is written back (R243). -/
def Run.dramTry (r : Run s0) (c la : Nat) (sys : Option Nat) (d : DLine) (x : Code × List (Nat × BitVec 16)) : Option (Run s0 × DLine) :=
  let fixed : DLine := { d with err := errNorm x.2 }
  match x.1 with
  | .clean => some (r, d)
  | .corrected k => some ((r.mcCorrected c la sys k).setDline (dramKey c la) (some fixed), fixed)
  | .bad => none

/-- The line as the DRAM code leaves it, its error response taken (R242 to R244): an uncorrectable read is done once more, and a right second
one makes the first a transient error; else the line is written back poisoned with directory X. What was written reads the same at the second
read; what was not, as it may (R247). -/
def Run.dramCode (r : Run s0) (c la : Nat) (sys : Option Nat) : Run s0 × DLine :=
  let p := r.dramStored c la
  match p.1.dramTry c la sys p.2.1 (decodeErr p.2.1.err) with
  | some x => x
  | none =>
    let q := p.1.dramStored c la
    match (q.1.mcLog c la 0x0600 .ce sys 5 0xFF).dramTry c la sys q.2.1 (decodeErr q.2.1.err) with
    | some x => x
    | none =>
      let b : DLine := { data := 0, dir := 2, poison := true }
      ((q.1.mcLog c la 0x0601 .ucna sys 3 0xFF true).setDline (dramKey c la) (some b), b)

/-- A channel reads a line for its home under a key slot (R240 to R246): data, poison and directory. A line whose key differs from the slot's
decrypts to a free value, as does one whose cells differ from what was written by an undetected pattern. -/
def Run.dramRead (r : Run s0) (c la a : Nat) (k : KeySlot) : Run s0 × LineData × Bool × Nat :=
  let p := r.dramCode c la (some (a / 64 * 64))
  let r := p.1
  let d := p.2
  if d.poison then (r, 0, true, d.dir)
  else
    if !k.loaded then (r.mcLog c la 0x0602 .ucna (some (a / 64 * 64)) 0 0xFF true, 0, true, d.dir)
    else if k.key = d.key ∧ d.tweak = a / 64 ∧ d.err.isEmpty then (r, d.data, false, d.dir)
    else
      let q := r.fresh
      (q.1, q.2, false, d.dir)

/-- A channel writes a line for its home under a key slot: encrypted and encoded, or poisoned with data zero (R245, R246). -/
def Run.dramWrite (r : Run s0) (c la a : Nat) (data : LineData) (poison : Bool) (dir : Nat) (k : KeySlot) : Run s0 :=
  if poison ∨ !k.loaded then r.setDline (dramKey c la) (some { data := 0, dir := dir, poison := true })
  else r.setDline (dramKey c la) (some { data := data, dir := dir, key := k.key, tweak := a / 64 })

/-- The non-existent-memory record of the decoder (R21). -/
def Run.logNoMemory (r : Run s0) (a : Nat) (req : Option (Nat × Nat)) : Run s0 :=
  r.logRec .sad { event := 0x0700, cls := .ucna, addr := some (a / 64 * 64), req := req }

end Sys2Proof.Machine
end

