-- ==== Sys2Proof/Machine/Hart.lean ====
section
/-! DEFINITION. The registers and CSRs of a hart: the standard ones (PRESUMED layout and reset values, log entry 6) and the
Dorwyn ones, as instructions and traps read and write them (R55, R56, R75 to R78, R88, R99, R105, R465, R374). -/
namespace Sys2Proof.Machine

variable {s0 : State}

/-- An integer register: x0 reads 0. -/
def Run.xr (r : Run s0) (h i : Nat) : Word := if i = 0 then 0 else r.x (h * 32 + i)

/-- Write an integer register: x0 discards. -/
def Run.setXr (r : Run s0) (h i : Nat) (v : Word) : Run s0 := if i = 0 then r else r.setX (h * 32 + i) v

/-- The write mask and reset value of a plain CSR; none for a number that is not one. Fields outside the mask are
read-only. CSRs with rules of their own stand in `readCsr` and `writeCsr`. -/
def csrInfo (n : Nat) : Option (Word × Word) :=
  if n = 0x300 then some (0xC0007E7FAA, 0xA00000000)
  else if n = 0x301 then some (0, 0x8000000000B411AF)
  else if n = 0x302 then some (0x1F0B7FF, 0)
  else if n = 0x303 then some (0x2222, 0x1444)
  else if n = 0x304 then some (0x3EEE, 0)
  else if n = 0x305 ∨ n = 0x105 ∨ n = 0x205 then some (0xFFFFFFFFFFFFFFFD, 0)
  else if n = 0x306 ∨ n = 0x106 ∨ n = 0x606 then some (0xFFFFFFFF, 0)
  else if n = 0x30A then some (0xC0000003000000F1, 0)
  else if n = 0x10A then some (0x3000000F1, 0)
  else if n = 0x60A then some (0xC0000003000000F1, 0)
  else if n = 0x320 then some (0xFFFFFFFD, 0)
  else if 0x323 ≤ n ∧ n ≤ 0x32A then some (0xFC00000003FFFFFF, 0)
  else if 0x32B ≤ n ∧ n ≤ 0x33F then some (0, 0)
  else if n = 0x340 ∨ n = 0x140 ∨ n = 0x240 ∨ n = 0x740 then some (BitVec.allOnes 64, 0)
  else if n = 0x341 ∨ n = 0x141 ∨ n = 0x241 ∨ n = 0x741 then some (0xFFFFFFFFFFFFFFFE, 0)
  else if n = 0x342 ∨ n = 0x142 ∨ n = 0x242 ∨ n = 0x742 then some (BitVec.allOnes 64, 0)
  else if n = 0x343 ∨ n = 0x143 ∨ n = 0x243 ∨ n = 0x34A ∨ n = 0x34B ∨ n = 0x643 ∨ n = 0x64A then some (BitVec.allOnes 64, 0)
  else if n = 0x344 then some (0x2222, 0)
  else if n = 0x350 ∨ n = 0x150 ∨ n = 0x250 then some (0xFFFF, 0)
  else if n = 0x308 ∨ n = 0x309 then some (0x2202, 0)
  else if 0x30C ≤ n ∧ n ≤ 0x30F then some (0xDF00000000000003, 0)
  else if 0x60C ≤ n ∧ n ≤ 0x60F then some (0xDF00000000000003, 0)
  else if 0x10C ≤ n ∧ n ≤ 0x10F then some (0x3, 0)
  else if n = 0x744 then some (0x1888, 0)
  else if n = 0x747 then some (0x300000307, 0)
  else if 0x3A0 ≤ n ∧ n ≤ 0x3AE ∧ n % 2 = 0 then some (0x9F9F9F9F9F9F9F9F, 0)
  else if 0x3B0 ≤ n ∧ n ≤ 0x3EF then some (0x3FFFFFFFFFFFF, 0)
  else if n = 0xB00 ∨ n = 0xB02 ∨ (0xB03 ≤ n ∧ n ≤ 0xB0A) then some (BitVec.allOnes 64, 0)
  else if 0xB0B ≤ n ∧ n ≤ 0xB1F then some (0, 0)
  else if n = 0x7A0 then some (7, 0)
  else if n = 0x7A1 ∨ n = 0x7A2 ∨ n = 0x7A3 then some (0, 0)
  else if n = 0x7A4 then some (0, 0x1008078)
  else if n = 0x7A5 then some (0x88, 0)
  else if n = 0x7A8 ∨ n = 0x6A8 ∨ n = 0x5A8 then some (0xFFFF, 0)
  else if n = 0x7B0 then some (0x3BC27, 0x40000003)
  else if n = 0x7B1 then some (0xFFFFFFFFFFFFFFFE, 0)
  else if n = 0x7B2 ∨ n = 0x7B3 then some (BitVec.allOnes 64, 0)
  else if n = 0x14D ∨ n = 0x24D then some (BitVec.allOnes 64, 0)
  else if n = 0x180 ∨ n = 0x280 then some (0xFFFFFFFFFFFFFFFF, 0)
  else if n = 0x200 then some (0xC6722, 0x200000000)
  else if n = 0x204 then some (0x2222, 0)
  else if n = 0x600 then some (0x300000073F3C0, 0x200000000)
  else if n = 0x602 then some (0xB1FF, 0)
  else if n = 0x603 then some (0x444, 0)
  else if n = 0x605 then some (BitVec.allOnes 64, 0)
  else if n = 0x607 then some (0x1E, 0)
  else if n = 0x608 then some (0x2000, 0)
  else if n = 0x609 then some (0x40000FFF00003FF, 0)
  else if n = 0x645 then some (0x444, 0)
  else if n = 0x646 ∨ n = 0x647 then some (BitVec.allOnes 64, 0)
  else if n = 0x680 then some (0xF3FFFFFFFFFFFFFF, 0)
  else if n = 0x003 then some (0xFF, 0)
  else if n = 0x008 then some (0xFF, 0)
  else if n = 0x009 then some (1, 0)
  else if n = 0x00A then some (3, 0)
  else if n = 0xC20 then some (0, 0)
  else if n = 0xC21 then some (0, 0x8000000000000000)
  else if n = 0xC22 then some (0, 32)
  else if n = 0xF11 then some (0, 0xD17)
  else if n = 0xF12 then some (0, 0x8000000000009256)
  else if n = 0xF13 then some (0, 0x925600010000)
  else if n = 0xF15 then some (0, 0)
  else if n = 0x7C0 then some (0, 0x7F)
  else if n = 0x7C1 then some (0x317, 0x300)
  else if 0x7C4 ≤ n ∧ n ≤ 0x7C7 then some (0x83FFFFFFFFFFF000, 0xC0000000000000)
  else if n = 0x7E0 then some (0, 0)
  else if n = 0x7E1 then some (0, 0)
  else if n = 0x7E2 then some (0xFFFFFFFFFFFFFFFC, 0)
  else if n = 0x5C0 then some (3, 1)
  else if n = 0x5C1 then some (7, 0)
  else if n = 0x5C8 then some (0x7777777777777777, 0)
  else if n = 0x5C9 then some (0xFFFF0003, 0)
  else if n = 0x5CA then some (0x10F, 0)
  else if 0x5D0 ≤ n ∧ n ≤ 0x5D7 then some (0xFFFFFFFFFFE00000, 0)
  else if 0x5D8 ≤ n ∧ n ≤ 0x5DF then some (0xFFFFFFFE00000, 0)
  else if 0x5E0 ≤ n ∧ n ≤ 0x5E7 then some (0xFEFC0000FFFF003E, 0x54000000000000)
  else if n = 0x5F0 then some (0, 0x4F3B466)
  else none

/-- The stored value of a CSR. -/
def State.csr (s : State) (h n : Nat) : Word :=
  (s.csrs.find? (h * 4096 + n)).getD (match csrInfo n with
    | some p => p.2
    | none => 0)

/-- The stored value of a CSR. -/
def Run.csr (r : Run s0) (h n : Nat) : Word := r.1.csr h n

/-- Hardware writes a CSR; its reset value is not listed. -/
def Run.setCsr (r : Run s0) (h n : Nat) (v : Word) : Run s0 :=
  r.act (.csrs (h * 4096 + n) (listed (match csrInfo n with
    | some p => p.2
    | none => 0) v))

/-- A field of a CSR. -/
def Run.cf (r : Run s0) (h n hi lo : Nat) : Nat := Word.bits (r.csr h n) hi lo

/-- A bit of a CSR. -/
def Run.cb (r : Run s0) (h n i : Nat) : Bool := (r.csr h n).getLsbD i

/-- Hardware writes a field of a CSR. -/
def Run.setCf (r : Run s0) (h n hi lo v : Nat) : Run s0 := r.setCsr h n (Word.setBits (r.csr h n) hi lo v)

/-- A mode with V = 1. -/
def Mode.virt : Mode → Bool
  | .vs | .vu => true
  | _ => false

/-- Whether a mode is user mode, virtual or not. -/
def Mode.user : Mode → Bool
  | .u | .vu => true
  | _ => false

/-- The privilege code of a mode. -/
def Mode.prv : Mode → Nat
  | .u | .vu => 0
  | .s | .vs => 1
  | .m | .debug => 3

/-- The mode with a privilege code and V. -/
def Mode.ofPrv (p : Nat) (v : Bool) : Mode :=
  if p = 3 then .m else if p = 1 then (if v then .vs else .s) else (if v then .vu else .u)

/-! ### Debug triggers (R56; Sdtrig) -/

/-- tdata1 and tdata2 of a trigger that is off. -/
def trigOff : Word × Word := (0xF000000000000000, 0)

/-- tdata1 and tdata2 of trigger i of a hart; tdata3 reads 0. -/
def Run.trig (r : Run s0) (h i : Nat) : Word × Word := Sparse.get trigOff (r.hart h).trigs i

/-- Set tdata1 and tdata2 of trigger i of a hart. -/
def Run.setTrig (r : Run s0) (h i : Nat) (v : Word × Word) : Run s0 :=
  r.modHart h fun t => { t with trigs := t.trigs.upd i (listed trigOff v) }

/-- The type of a trigger. -/
def trigType (t : Word × Word) : Nat := Word.bits t.1 63 60

/-- ACTION of a trigger: 0 a breakpoint exception, 1 Debug Mode. -/
def trigAction (t : Word × Word) : Nat := if trigType t = 6 then Word.bits t.1 15 12 else Word.bits t.1 5 0

/-- The value that a write leaves in tdata1: types 3 to 6 with the fields that a trigger has, any other is off. DMODE is written in Debug Mode
alone, and action 1 needs it. -/
def legalTdata1 (v : Word) (dbg : Bool) : Word :=
  let dm : Word := if dbg then v &&& (1#64 <<< 59) else 0
  let keep (mask : Word) (hi lo : Nat) : Word :=
    let w := (v &&& (0xF000000000000000 ||| mask)) ||| dm
    if Word.bits v hi lo = 0 ∨ (Word.bits v hi lo = 1 ∧ dm ≠ 0) then w else Word.setBits w hi lo 0
  match Word.bits v 63 60 with
  | 6 =>
    let w := keep 0x3C7F7DF 15 12
    let w := if Word.bits w 18 16 ∈ [0, 1, 2, 3, 5] then w else Word.setBits w 18 16 0
    if Word.bits w 10 7 < 4 then w else Word.setBits w 10 7 0
  | 3 => keep 0x7FFFFFF 5 0
  | 4 => keep 0x400000000001EFF 5 0
  | 5 => keep 0x400000000001AFF 5 0
  | _ => trigOff.1 ||| dm

/-- A write of tdata1 or tdata2 of the trigger that tselect names; one with DMODE set changes in Debug Mode alone. -/
def Run.writeTrig (r : Run s0) (h n : Nat) (v : Word) : Run s0 :=
  let i := r.cf h 0x7A0 2 0
  let t := r.trig h i
  let dbg := (r.hart h).mode == .debug
  if t.1.getLsbD 59 && !dbg then r
  else r.setTrig h i (if n = 0x7A1 then (legalTdata1 v dbg, t.2) else (t.1, v))

/-- Whether a trigger is enabled in a mode. -/
def trigMode (t : Word × Word) (md : Mode) : Bool :=
  let ty := trigType t
  match md with
  | .m => t.1.getLsbD (if ty = 6 then 6 else 9)
  | .s => t.1.getLsbD (if ty = 6 then 4 else 7)
  | .u => t.1.getLsbD (if ty = 6 then 3 else 6)
  | .vs => t.1.getLsbD (if ty = 6 then 24 else if ty = 3 then 26 else 12)
  | .vu => t.1.getLsbD (if ty = 6 then 23 else if ty = 3 then 25 else 11)
  | .debug => false

/-- A trigger may act: a breakpoint exception in M-mode needs tcontrol.MTE, Debug Mode at a nonzero enclave ID the rights HART and SECURE
(R390). -/
def Run.trigMay (r : Run s0) (h : Nat) (t : Word × Word) : Bool :=
  let x := r.hart h
  if trigAction t = 0 then x.mode != .m || r.cb h 0x7A5 3
  else x.eid == 0 || (r.1.fox.rights.getLsbD 0 && r.1.fox.rights.getLsbD 1)

/-- The n bytes at va match an mcontrol6 trigger. -/
def trigAddr (t : Word × Word) (va n : Nat) : Bool :=
  let a := t.2.toNat
  let napot := (t.2 ^^^ (t.2 + 1)).toNat
  (match Word.bits t.1 18 16 with
    | 0 => true
    | 5 => n == 8
    | k => n == 2 ^ (k - 1)) &&
  (match Word.bits t.1 10 7 with
    | 0 => decide (va ≤ a ∧ a < va + n)
    | 1 => (List.range n).any fun b => (va + b) ||| napot == a ||| napot
    | 2 => decide (a < va + n)
    | _ => decide (va < a))

/-- The first mcontrol6 trigger that an access of n bytes at va meets: k is 0 for a load, 1 for a store, 2 for a fetch. -/
def Run.trigHit (r : Run s0) (h k va n : Nat) : Option Nat :=
  let x := r.hart h
  if x.trigs.isEmpty then none
  else (List.range 8).find? fun i =>
    let t := r.trig h i
    trigType t == 6 && t.1.getLsbD k && trigMode t x.mode && r.trigMay h t && trigAddr t va n

/-- A hart is to halt with a cause, unless a halt is due already. -/
def Run.dueHalt (r : Run s0) (h cause : Nat) : Run s0 :=
  if (r.hart h).dbgPend then r else (r.modHart h fun t => { t with dbgPend := true, dbgCause := cause }).pokeHart h

/-- Trigger i fires before the next instruction. -/
def Run.dueTrig (r : Run s0) (h i : Nat) : Run s0 :=
  if trigAction (r.trig h i) = 1 then r.dueHalt h 2 else (r.modHart h fun t => { t with trigPend := some i }).pokeHart h

/-- The icount triggers of a hart count an instruction; one that comes to 0 fires. -/
def Run.icount (r : Run s0) (h : Nat) : Run s0 :=
  let x := r.hart h
  if x.trigs.isEmpty then r
  else (List.range 8).foldl (fun r i =>
    let t := r.trig h i
    let c := Word.bits t.1 23 10
    if trigType t == 3 && c != 0 && trigMode t x.mode && r.trigMay h t then
      let r := r.setTrig h i (Word.setBits t.1 23 10 (c - 1), t.2)
      if c = 1 then r.dueTrig h i else r
    else r) r

/-- A hart single-steps (dcsr.STEP). -/
def Run.stepping (r : Run s0) (h : Nat) : Bool := r.cb h 0x7B0 2 && (r.hart h).mode != .debug

/-- The time of a hart's die, or that time plus htimedelta at V = 1. -/
def Run.hartTime (r : Run s0) (h : Nat) (v : Bool) : Word :=
  BitVec.ofNat 64 (r.dieTime (dieOf (tileOf h))) + (if v then r.csr h 0x605 else 0)

/-- The highest-priority identity pending and enabled in an IMSIC file, the lowest number (R71), below its threshold where that is not 0
(AIA); 0 for none. -/
def Run.topId (r : Run s0) (h f : Nat) : Nat :=
  let x := r.file (h * 8 + f)
  let p := x.pend &&& x.enab
  let i := if p = 0 then 0 else ((List.range 2048).find? fun i => p.getLsbD i).getD 0
  if x.thresh = 0 ∨ i < x.thresh.toNat then i else 0

/-- A file signals its hart: delivery is on and an identity stands at its top. -/
def Run.fileSignals (r : Run s0) (h f : Nat) : Bool := (r.file (h * 8 + f)).delivery == 1 && r.topId h f != 0

/-- hgeip: guest files that signal. -/
def Run.hgeip (r : Run s0) (h : Nat) : Word :=
  (List.range 4).foldl (fun a f => if r.fileSignals h (f + 2) then a ||| (2#64 <<< f) else a) 0

/-- mip: the software bits, the IMSIC's signals, stimecmp and vstimecmp, and hvip (standard, R55). -/
def Run.mip (r : Run s0) (h : Nat) : Word :=
  let bit (b : Bool) (i : Nat) : Word := if b then 1#64 <<< i else 0
  let vgein := r.cf h 0x600 17 12
  (if r.cb h 0x30A 63 then r.csr h 0x344 &&& ~~~ 0x20 else r.csr h 0x344) ||| r.csr h 0x645 ||| bit (r.fileSignals h 0) 11 ||| bit (r.fileSignals h 1) 9
  ||| bit (r.cb h 0x30A 63 && decide (r.csr h 0x14D ≤ r.hartTime h false)) 5
  ||| bit (r.cb h 0x60A 63 && decide (r.csr h 0x24D ≤ r.hartTime h true)) 6
  ||| bit (vgein != 0 && (r.hgeip h).getLsbD vgein) 10
  ||| bit ((r.hgeip h &&& r.csr h 0x607) != 0) 12

/-- WFI resumes: an interrupt is pending and locally enabled, whatever the global enables (R59). -/
def Run.wfiHolds (r : Run s0) (h : Nat) : Bool := (r.mip h &&& r.csr h 0x304) != 0

/-- The IMSIC registers that an indirect select reaches (AIA): eidelivery, eithreshold, eip and eie words. -/
def Run.readIndirect (r : Run s0) (h f sel : Nat) : Word :=
  let x := r.file (h * 8 + f)
  if sel = 0x70 then x.delivery
  else if sel = 0x72 then x.thresh
  else if 0x80 ≤ sel ∧ sel ≤ 0xBF then x.pend.extractLsb' ((sel - 0x80) / 2 * 64) 64
  else if 0xC0 ≤ sel ∧ sel ≤ 0xFF then x.enab.extractLsb' ((sel - 0xC0) / 2 * 64) 64
  else 0

/-- Write 64 bits of a 2,048-bit set; identity 0 does not exist. -/
def setWord (v : BitVec 2048) (i : Nat) (w : Word) : BitVec 2048 :=
  ((v &&& ~~~ ((BitVec.allOnes 64).zeroExtend 2048 <<< (64 * i))) ||| (w.zeroExtend 2048 <<< (64 * i))) &&& ~~~ 1

/-- Write an IMSIC register by an indirect select. -/
def Run.writeIndirect (r : Run s0) (h f sel : Nat) (v : Word) : Run s0 :=
  let k := h * 8 + f
  let r := if sel = 0x70 then r.modFile k fun x => { x with delivery := v &&& 1 }
    else if sel = 0x72 then r.modFile k fun x => { x with thresh := v &&& 0x7FF }
    else if 0x80 ≤ sel ∧ sel ≤ 0xBF then r.modFile k fun x => { x with pend := setWord x.pend ((sel - 0x80) / 2) v }
    else if 0xC0 ≤ sel ∧ sel ≤ 0xFF then r.modFile k fun x => { x with enab := setWord x.enab ((sel - 0xC0) / 2) v }
    else r
  r.pokeHart h

/-- The IMSIC file of xtopei and xireg: 0 machine, 1 supervisor, and the guest file that VGEIN selects. -/
def Run.guestFile (r : Run s0) (h : Nat) : Nat := r.cf h 0x600 17 12 + 1

/-- The supervisor number that a number means at V = 1: the VS CSR of the same place. -/
def vsAlias (n : Nat) : Nat :=
  if n ∈ [0x100, 0x104, 0x105, 0x140, 0x141, 0x142, 0x143, 0x144, 0x14D, 0x150, 0x151, 0x15C, 0x180] then n + 0x100
  else if n = 0xDB0 then 0xEB0 else n

/-- Whether a CSR number exists (R55, R75). -/
def csrExists (n : Nat) : Bool :=
  (csrInfo n).isSome || n ∈ [0x001, 0x002, 0x00F, 0x015, 0x100, 0x104, 0x144, 0x151, 0x15C, 0x244, 0x251, 0x25C, 0x351, 0x35C,
    0x604, 0x644, 0xC01, 0xDA0, 0xDB0, 0xE12, 0xEB0, 0xF14, 0xFB0, 0x7F0] || (0xC00 ≤ n && n ≤ 0xC1F)

/-- The bits of sstatus within mstatus. -/
def sstatusMask : Word := 0x80000003000DE762

/-- mstatus as it reads: SD summarises FS and VS. -/
def Run.mstatus (r : Run s0) (h : Nat) : Word :=
  let w := r.csr h 0x300
  if Word.bits w 14 13 = 3 ∨ Word.bits w 10 9 = 3 then w ||| 0x8000000000000000 else w

/-- xtopi of a mode: the major interrupt of highest priority that is pending and enabled, with priority 1. -/
def topi (p : Word) : Word :=
  match [11, 3, 7, 9, 1, 5, 12, 10, 2, 6, 13].find? fun i => p.getLsbD i with
  | some i => BitVec.ofNat 64 (i * 65536 + 1)
  | none => 0

/-- pmpcfg of entry i. -/
def Run.pmpcfg (r : Run s0) (h i : Nat) : Nat := r.cf h (0x3A0 + i / 8 * 2) (i % 8 * 8 + 7) (i % 8 * 8)

/-- pmpaddr[i] as it reads: bits [9:0] are 0 for OFF and TOR, bits [8:0] ones for NAPOT (R123). -/
def Run.pmpaddr (r : Run s0) (h i : Nat) : Nat :=
  let a := (r.csr h (0x3B0 + i)).toNat
  if natBits (r.pmpcfg h i) 4 3 = 3 then natSetBits a 8 0 0x1FF else natSetBits a 9 0 0

/-- Read a CSR by its number. -/
def Run.readCsr (r : Run s0) (h n : Nat) : Word :=
  if n = 0x001 then r.csr h 3 &&& 0x1F
  else if n = 0x002 then r.csr h 3 >>> 5
  else if n = 0x00F then (r.csr h 9) ||| (r.csr h 10 <<< 1)
  else if n = 0x300 then r.mstatus h
  else if n = 0x100 then r.mstatus h &&& sstatusMask
  else if n = 0x104 then r.csr h 0x304 &&& r.csr h 0x303
  else if n = 0x144 then r.mip h &&& r.csr h 0x303
  else if n = 0x204 then (r.csr h 0x304 &&& r.csr h 0x603) >>> 1
  else if n = 0x244 then (r.mip h &&& r.csr h 0x603) >>> 1
  else if n = 0x344 then r.mip h
  else if n = 0x604 then r.csr h 0x304 &&& 0x1444
  else if n = 0x644 then r.mip h &&& 0x1444
  else if n = 0x351 then r.readIndirect h 0 (r.csr h 0x350).toNat
  else if n = 0x151 then r.readIndirect h 1 (r.csr h 0x150).toNat
  else if n = 0x251 then r.readIndirect h (r.guestFile h) (r.csr h 0x250).toNat
  else if n = 0x35C then BitVec.ofNat 64 (r.topId h 0 * 65537)
  else if n = 0x15C then BitVec.ofNat 64 (r.topId h 1 * 65537)
  else if n = 0x25C then BitVec.ofNat 64 (r.topId h (r.guestFile h) * 65537)
  else if n = 0xFB0 then topi (r.mip h &&& r.csr h 0x304 &&& ~~~ r.csr h 0x303)
  else if n = 0xDB0 then topi (r.mip h &&& r.csr h 0x304 &&& r.csr h 0x303 &&& ~~~ r.csr h 0x603)
  else if n = 0xEB0 then topi ((r.mip h &&& r.csr h 0x304 &&& r.csr h 0x603) >>> 1)
  else if n = 0xE12 then r.hgeip h
  else if n = 0xC01 then r.hartTime h (r.hart h).mode.virt
  else if n = 0xDA0 then (List.range 8).foldl (fun a i => if r.cb h (0x323 + i) 63 then a ||| (8#64 <<< i) else a) 0
  else if 0xC00 ≤ n ∧ n ≤ 0xC1F then r.csr h (n - 0x100)
  else if n = 0xF14 then BitVec.ofNat 64 h
  else if 0x3B0 ≤ n ∧ n ≤ 0x3EF then BitVec.ofNat 64 (r.pmpaddr h (n - 0x3B0))
  else if n = 0x7A1 then (r.trig h (r.cf h 0x7A0 2 0)).1
  else if n = 0x7A2 then (r.trig h (r.cf h 0x7A0 2 0)).2
  else if n = 0x7F0 then BitVec.ofNat 64 ((r.tile (tileOf h)).ceid * 256 + (r.hart h).eid)
  else r.csr h n

/-- The value that a write leaves in a plain CSR: masked bits change. -/
def legal (mask old v : Word) : Word := (old &&& ~~~ mask) ||| (v &&& mask)

/-- satp and vsatp: a write whose MODE is not Bare, Sv39, Sv48 or Sv57 changes nothing. -/
def legalSatp (old v : Word) : Word := if Word.bits v 63 60 ∈ [0, 8, 9, 10] then v else old

/-- PMP entry i is locked: L = 1, and mseccfg.RLB = 0 (R123). -/
def Run.pmpLocked (r : Run s0) (h i : Nat) : Bool := natBit (r.pmpcfg h i) 7 && !r.cb h 0x747 2

/-- Write the eight pmpcfg bytes of a CSR: locked entries keep theirs, NA4 becomes OFF, R = 0 with W = 1 is reserved while
MML = 0 and keeps the old byte, and under MML with RLB = 0 a write that would add a locked executable rule is ignored
(R123, Smepmp). -/
def Run.writePmpcfg (r : Run s0) (h n : Nat) (v : Word) : Run s0 :=
  (List.range 8).foldl (fun r j =>
    let i := (n - 0x3A0) / 2 * 8 + j
    let b := Word.bits v (j * 8 + 7) (j * 8)
    let b := natSetBits b 6 5 0
    let b := if natBits b 4 3 = 2 then natSetBits b 4 3 0 else b
    let mml := r.cb h 0x747 0
    let addsX := mml && !r.cb h 0x747 2 && natBit b 7 && natBits b 2 0 != 7 && (natBit b 2 || natBits b 2 0 == 2)
    if r.pmpLocked h i ∨ (¬ mml ∧ natBits b 1 0 = 2) ∨ addsX then r
    else r.setCf h (0x3A0 + i / 8 * 2) (i % 8 * 8 + 7) (i % 8 * 8) b) r

/-- Write pmpaddr[i] unless it is locked, itself or by a locked TOR entry above it (R123). The bits that A fixes keep what they hold. -/
def Run.writePmpaddr (r : Run s0) (h i : Nat) (v : Word) : Run s0 :=
  let above := i < 63 ∧ r.pmpLocked h (i + 1) ∧ natBits (r.pmpcfg h (i + 1)) 4 3 = 1
  if r.pmpLocked h i ∨ above then r else r.setCsr h (0x3B0 + i) (legal (if natBits (r.pmpcfg h i) 4 3 = 3 then 0x3FFFFFFFFFE00 else 0x3FFFFFFFFFC00) (r.csr h (0x3B0 + i)) v)

/-- Write xenvcfg: a reserved CBIE of 2 leaves the field (R138). -/
def legalEnvcfg (mask old v : Word) : Word :=
  let w := legal mask old v
  let w := if Word.bits v 5 4 = 2 then Word.setBits w 5 4 (Word.bits old 5 4) else w
  if Word.bits v 33 32 = 1 then Word.setBits w 33 32 (Word.bits old 33 32) else w

/-- Write hstatus: a reserved HUPMM of 1 leaves the field (R56). -/
def legalHstatus (old v : Word) : Word :=
  let w := legal 0x300000073F3C0 old v
  if Word.bits v 49 48 = 1 then Word.setBits w 49 48 (Word.bits old 49 48) else w

/-- Write mstatus: a reserved MPP of 2 leaves the field. -/
def legalMstatus (old v : Word) : Word :=
  let w := legal 0xC0007E7FAA old v
  if Word.bits v 12 11 = 2 then Word.setBits w 12 11 (Word.bits old 12 11) else w

/-- Write mdwhar[n]: LOG2SZ outside 12 to 48 leaves the CSR (R88). -/
def legalHar (old v : Word) : Word :=
  if 12 ≤ Word.bits v 57 52 ∧ Word.bits v 57 52 ≤ 48 then v &&& 0x83FFFFFFFFFFF000 else old

/-- Write sdwrattr[n]: MT 3, LOG2SZ outside 21 to 46, or W without R leaves the CSR (R100). -/
def legalAttr (old v : Word) : Word :=
  if Word.bits v 62 61 = 3 ∨ Word.bits v 55 50 < 21 ∨ 46 < Word.bits v 55 50 ∨ (v.getLsbD 2 ∧ ¬ v.getLsbD 1) then old
  else v &&& 0xFEFC0000FFFF003E

/-- mseccfg: MML and MMWP stick once set; RLB cannot be set while an entry is locked and RLB is 0 (Smepmp, R123). -/
def Run.legalMseccfg (r : Run s0) (h : Nat) (v : Word) : Word :=
  let old := r.csr h 0x747
  let w := legal 0x300000307 old v ||| (old &&& 3)
  if !old.getLsbD 2 && (List.range 64).any (fun i => natBit (r.pmpcfg h i) 7) then w &&& ~~~ 4 else w

/-- The hart event codes (R484). -/
def hartEvents : List Nat := [0x0001, 0x0002, 0x0003, 0x0004, 0x0005, 0x0006, 0x0007, 0x0008, 0x0009, 0x000A, 0x000B, 0x0010, 0x0011, 0x0020,
  0x0021, 0x0022, 0x0023, 0x0024, 0x0025, 0x0026, 0x0030, 0x0031, 0x0032, 0x0033, 0x0034, 0x0040, 0x0041, 0x0042, 0x0043, 0x0044, 0x0050,
  0x0051, 0x0052, 0x0060, 0x0061]

/-- Write mhpmevent: an event code that R484 does not list writes 0 (R478). -/
def legalEvent (v : Word) : Word :=
  let w := v &&& 0xFC00000003FFFFFF
  if Word.bits w 15 0 ∈ hartEvents then w else Word.setBits w 15 0 0

/-- Write a CSR by its number, as a permitted instruction does. -/
def Run.writeCsr (r : Run s0) (h n : Nat) (v : Word) : Run s0 :=
  let r :=
    if n = 0x001 then r.setCf h 3 4 0 (v.toNat % 32)
    else if n = 0x002 then r.setCf h 3 7 5 (v.toNat % 8)
    else if n = 0x00F then (r.setCsr h 9 (v &&& 1)).setCsr h 10 ((v >>> 1) &&& 3)
    else if n = 0x300 then r.setCsr h 0x300 (legalMstatus (r.csr h 0x300) v)
    else if n = 0x100 then r.setCsr h 0x300 (legal (sstatusMask &&& 0xC0007E7FAA) (r.csr h 0x300) v)
    else if n = 0x104 then r.setCsr h 0x304 (legal (r.csr h 0x303 &&& 0x3EEE) (r.csr h 0x304) v)
    else if n = 0x144 then r.setCsr h 0x344 (legal (r.csr h 0x303 &&& 0x2002) (r.csr h 0x344) v)
    else if n = 0x204 then r.setCsr h 0x304 (legal (r.csr h 0x603 &&& 0x444) (r.csr h 0x304) (v <<< 1))
    else if n = 0x244 then r.setCsr h 0x645 (legal (r.csr h 0x603 &&& 0x4) (r.csr h 0x645) (v <<< 1))
    else if n = 0x344 then r.setCsr h 0x344 (legal 0x2222 (r.csr h 0x344) v)
    else if n = 0x604 then r.setCsr h 0x304 (legal 0x1444 (r.csr h 0x304) v)
    else if n = 0x644 then r.setCsr h 0x645 (legal 0x4 (r.csr h 0x645) v)
    else if n = 0x351 then r.writeIndirect h 0 (r.csr h 0x350).toNat v
    else if n = 0x151 then r.writeIndirect h 1 (r.csr h 0x150).toNat v
    else if n = 0x251 then r.writeIndirect h (r.guestFile h) (r.csr h 0x250).toNat v
    else if n = 0x180 then r.setCsr h n (legalSatp (r.csr h n) v)
    else if n = 0x280 then r.setCsr h n (legalSatp (r.csr h n) v)
    else if n = 0x680 then r.setCsr h n (legalSatp (r.csr h n) (v &&& 0xF3FFFFFFFFFFFFFC ||| (v &&& 3)))
    else if n = 0x30A ∨ n = 0x60A then r.setCsr h n (legalEnvcfg 0xC0000003000000F1 (r.csr h n) v)
    else if n = 0x600 then r.setCsr h n (legalHstatus (r.csr h n) v)
    else if n = 0x10A then r.setCsr h n (legalEnvcfg 0x3000000F1 (r.csr h n) v)
    else if 0x3A0 ≤ n ∧ n ≤ 0x3AE then r.writePmpcfg h n v
    else if 0x3B0 ≤ n ∧ n ≤ 0x3EF then r.writePmpaddr h (n - 0x3B0) v
    else if n = 0x747 then r.setCsr h n (r.legalMseccfg h v)
    else if 0x323 ≤ n ∧ n ≤ 0x32A then r.setCsr h n (legalEvent v)
    else if 0x7C4 ≤ n ∧ n ≤ 0x7C7 then r.setCsr h n (legalHar (r.csr h n) v)
    else if 0x5E0 ≤ n ∧ n ≤ 0x5E7 then r.setCsr h n (legalAttr (r.csr h n) v)
    else if n = 0x7A1 ∨ n = 0x7A2 then r.writeTrig h n v
    else if n = 0x7E0 then (if v.getLsbD 63 then (r.setCf h n 63 63 0).setCf h n 57 56 0 else r)
    else match csrInfo n with
      | some p => r.setCsr h n (legal p.1 (r.csr h n) v)
      | none => r
  r.pokeHart h

/-- Every CSR of a hart takes its reset value (R67). -/
def Run.resetCsrs (r : Run s0) (h : Nat) : Run s0 :=
  r.1.csrs.foldl (fun r p => if p.1 / 4096 = h then r.act (.csrs p.1 none) else r) r

/-- The registers and IMSIC state of a hart go back to what they are after reset. -/
def Run.clearRegs (r : Run s0) (h : Nat) : Run s0 :=
  (List.range 32).foldl (fun r i => ((r.setX (h * 32 + i) 0).setF (h * 32 + i) 0).setV (h * 32 + i) 0) r

/-- The counters of a hart advance: its core is at CEID 0 with no switch in progress (R481), and it is not in Debug Mode with
STOPCOUNT set (R477). -/
def Run.counting (r : Run s0) (h : Nat) : Bool :=
  let n := r.tile (tileOf h)
  n.ceid == 0 && !n.switching && !((r.hart h).mode == .debug && r.cb h 0x7B0 10)

/-- Occurrences of an event at a hart, for the next token (R479). -/
def Run.tally (r : Run s0) (h ev k : Nat) : Run s0 :=
  if k = 0 then r else r.modHart h fun t => { t with tally := t.tally.upd ev (some (Sparse.get 0 t.tally ev + k)) }

/-- An event of a tile's own occurs once (R479). -/
def Run.tallyTile (r : Run s0) (n ev : Nat) : Run s0 :=
  r.modTile n fun t => { t with tally := t.tally.upd ev (some (Sparse.get 0 t.tally ev + 1)) }

/-- minstret counts an instruction unless inhibited, the pc moves on (R39), and the hart may take what waits for it. -/
def Run.moveOn (r : Run s0) (h : Nat) : Run s0 :=
  let r := if r.cb h 0x320 2 || !r.counting h then r else r.setCsr h 0xB02 (r.csr h 0xB02 + 1)
  ((r.modHart h fun t => { t with pc := t.pc + 4, wait := none }).tally h 0x0002 1).pokeHart h

/-- An instruction retires; its hart's triggers and single-stepping (R56) see it. -/
def Run.retire (r : Run s0) (h : Nat) : Run s0 :=
  let r := (r.moveOn h).icount h
  if r.stepping h then r.dueHalt h 4 else r

/-- Show a hart's state in its STAT register (R68). -/
def Run.showHart (r : Run s0) (h : Nat) : Run s0 :=
  let t := r.hart h
  let code := match t.run with
    | .held => 0
    | .running => 1
    | .parked => 2
    | .debug => 4
    | .fatal => 5
  (r.setFld (HART_STAT_STATE (tileOf h) (h % 4)) code).setFld (HART_STAT_EID_ZERO (tileOf h) (h % 4)) (if t.eid = 0 then 0 else 1)

/-- Change what a hart does, and show it. -/
def Run.setRun (r : Run s0) (h : Nat) (x : HRun) : Run s0 := (r.modHart h fun t => { t with run := x }).showHart h

/-- The power domain of a tile is on (R424). -/
def Run.tileOn (r : Run s0) (n : Nat) : Bool := r.fld (DOM_STAT_STATE (n / 16 * 21 + n % 16)) == 0

/-- A hart that executes: it runs, or executes the program buffer in Debug Mode, waits for nothing, its tile is on and not halted,
and no core switch is in progress. -/
def Run.ready (r : Run s0) (h : Nat) : Bool :=
  let t := r.hart h
  let n := r.tile (tileOf h)
  (t.run == .running || t.run == .debug) && t.wait.isNone && !t.pause && r.tileOn (tileOf h) && !n.halted && !n.switching

end Sys2Proof.Machine
end

