-- ==== Sys2Proof/Machine/Coherent.lean ====
section
/-! DEFINITION. What a home slice sees of a line without acting: message classes, stops, trackers and filter entries; reservations;
and the accesses of agents that have no cache: engines, the IOMMU, Foxglove, save blocks, and the walkers, whose reads go through a
tile (R23, R24, R28, R31, R113, R162 to R167, R189, R528). -/
namespace Sys2Proof.Machine

variable {s0 : State}

/-! ### Messages and their way -/

/-- The class of a message (R166): 0 REQ, 1 EVC, 2 SNP, 3 RSP, 4 DAT, 5 MRQ, 6 MRS. -/
def msgClass : MsgKind → Nat
  | .rdS | .rdX | .upg | .claim | .rdOnce | .wrLine | .wrPart | .atomH | .cboC | .cboF | .cboI => 0
  | .evC | .evM | .evO | .wbKeep => 1
  | .snpS | .snpX | .snpInv | .snpCln | .snpCur | .stashOffer => 2
  | .rsp | .gntE | .gntM | .ack | .evAck | .done | .stashAcc | .stashDec => 3
  | .datS | .datE | .datM | .datSnp | .datCur | .datAtom | .datStash => 4
  | .mRd | .mWr => 5
  | .mDat | .mAck => 6

/-- An agent outside the package: a peer socket or a CXL device, of whose messages none is in flight here. -/
def Agent.outer : Agent → Bool
  | .peer _ => true
  | .cxl _ => true
  | _ => false

/-- The stop at which an agent's messages for a line enter and leave the fabric (R205). -/
def stopOf (a : Agent) (l : LineAddr) : Option ChkUnit :=
  match a with
  | .tile n => some (.tile n)
  | .hart h => some (.tile (h / 4))
  | .die d => some (.die d (16 + quadOf l))
  | .home s => some (.iod s)
  | .chan c => some (.iod (32 + c))
  | .group g => some (.iod (64 + g))
  | .cxl g => some (.iod (64 + g))
  | .phlox e => some (.iod (96 + e))
  | .fox => some (.iod 112)
  | .weir => some (.iod 113)
  | .lark k => some (.iod (114 + k))
  | .iommu => some (.iod 120)
  | .peer _ => none

/-- Two messages take the same way: from one stop to one stop in one class. Agents outside the package are ways of their own. -/
def sameWay (x m : Msg) : Bool :=
  let end_ (a : Agent) (l : LineAddr) : Option ChkUnit × Option Agent := (stopOf a l, if Agent.outer a then some a else none)
  decide (end_ x.src x.line = end_ m.src m.line) && decide (end_ x.dst x.line = end_ m.dst m.line) && decide (msgClass x.kind = msgClass m.kind)

/-- A message has its turn: no earlier one of its class goes the same way (R166, R196). -/
def Run.turn (r : Run s0) (m : Msg) : Bool := (r.1.net.find? fun x => sameWay x m) == some m

/-- A stop is under test, and sends no message (R208). -/
def Run.stopTests (r : Run s0) (a : Agent) (l : LineAddr) : Bool :=
  match stopOf a l with
  | some u => r.on (CHK_CTL_TEST u)
  | none => false

/-- The number of a stop (R205). -/
def ChkUnit.stop : ChkUnit → Nat
  | .tile n => n / 16 * 256 + n % 16
  | .die d k => d * 256 + k
  | .iod k => 4096 + k

/-- The end-to-end sequence that a message belongs to (R206): its two stops and its class. Agents outside the package have none. -/
def seqKey (m : Msg) : Option Nat :=
  match stopOf m.src m.line, stopOf m.dst m.line with
  | some a, some b => if Agent.outer m.src || Agent.outer m.dst then none else some ((a.stop * 8192 + b.stop) * 8 + msgClass m.kind)
  | _, _ => none

/-- Take a message out of flight, where it is there: its receiver expects the next number of its sequence (R206). Senders number the
packets of a sequence in order, so that the oldest one in flight has the number expected. -/
def Run.take (r : Run s0) (m : Msg) : Run s0 :=
  let x := r.act (.net (r.1.net.erase m))
  match seqKey m with
  | some k => if r.1.net.contains m then x.setSeq k ((r.1.seq k + 1) % 4096) else x
  | none => x

/-- The bank of the block at a stop (R455). A stop without a bank of its own records in that of SEC (DESIGN CHOICE, log entry 95). -/
def stopBank : ChkUnit → Bank
  | .tile n => .tile n
  | .die d k => if k < 20 then .l3 d (k - 16) else if k = 20 then .rill d else .tbrx d
  | .iod k =>
    if k < 4 then .home k else if k < 32 then .rlink (k - 16) else if k < 56 then .mc (k - 32) else if k < 96 then .grp (k - 64)
    else if k < 112 then .phlox (some (k - 96)) else if k = 112 then .fox else if k = 113 then .weir else if k = 120 then .iommu
    else if k = 121 then .sad else .sec

/-! ### Trackers -/

/-- The pool of a tracker (R189): 0 evictions, 1 peer requests, 2 requests of I/O agents, the IOMMU, engines and CXL devices, 3 all
other. -/
def pool (m : Msg) : Nat :=
  if msgClass m.kind = 1 then 0
  else match m.src with
    | .peer _ => 1
    | .group _ => 2
    | .phlox _ => 2
    | .iommu => 2
    | .cxl _ => 2
    | _ => 3

/-- A tracker is free for a message at a slice (R189). -/
def Run.trackerFree (r : Run s0) (s : Nat) (m : Msg) : Bool :=
  let peer := r.fld (HOME_TRKSTAT_PEERUSE s)
  let shared := r.fld (HOME_TRKSTAT_INUSE s) - r.fld (HOME_TRKSTAT_EVCUSE s) - min peer 512
  match pool m with
  | 0 => r.fld (HOME_TRKSTAT_EVCUSE s) < 512
  | 1 => peer < 512 || (peer < 2048 && shared < 7168)
  | 2 => r.fld (HOME_TRKSTAT_IOUSE s) < 2048 && shared < 7168
  | _ => shared < 7168

/-! ### Filter entries -/

/-- A power domain is gated (R424). -/
def Run.gated (r : Run s0) (dom : Nat) : Bool := r.fld (DOM_STAT_STATE dom) == 3

/-- The states that the entries of a die show for a line, main and shadow (R162, R163). -/
def Run.filtAll (r : Run s0) (d : Nat) (l : LineAddr) : List FSt :=
  ((List.range 16).filterMap fun w => (r.filtEntry (l3Key d l w)).bind fun e => if e.line = l then some e.st else none)
  ++ (r.slice (quadOf l)).shadow.filterMap fun e => if e.1 = d ∧ e.2.1 = l then some e.2.2 else none

/-- What the filter shows of a die for a line; none for I. Where the entry of a copy that the die has dropped stands beside that of a
newer copy (R162), the entry that shows more counts (DESIGN CHOICE, log entry 89). A gated quarter shows I (R160). -/
def Run.filtOf (r : Run s0) (d : Nat) (l : LineAddr) : Option FSt :=
  if r.gated (400 + quadOf l) then none
  else
    let es := r.filtAll d l
    if .X ∈ es then some .X else if .O ∈ es then some .O else if .S ∈ es then some .S else none

/-- The filter entry of a die's slot is written with a line and a state, none for I: a write that injection may corrupt (R475). -/
def Run.filtWrite (r : Run s0) (d : Nat) (l : LineAddr) (w : Nat) (x : Option FSt) : Run s0 :=
  let p := r.armTake 16 (quadOf l * 16 + d)
  p.1.setFiltEntry (l3Key d l w) (match mkFlip 0 35 9 p.2 with
    | some f => some ⟨l, x.getD .I, some f⟩
    | none => x.map fun st => ⟨l, st, none⟩)

/-- A filter entry is read with an error stored in it (R162, R459, R461): it is corrected, or the error is FATAL (R471). -/
def Run.filtFound (r : Run s0) (k : Nat) (e : FEntry) (f : Flip) : Run s0 :=
  let s := quadOf e.line
  let a := s * 16 + k / 16 / 8192 / 4
  let p := r.fresh
  let x : Rec := { event := 0x0500, cls := .ce, syn := f.synclass, detail := arrayDetail (s * 8192 + e.line.toNat % 8192) (k % 16) 0 (p.2.toNat % 65536) 0 }
  let r := p.1.setFiltEntry k (if e.st = .I then none else some { e with flip := none })
  if f.synclass = 3 then r.fatal (.home s) { x with event := 0x0501, cls := .fatal, sub := a }
  else r.logCe (.home s) 16 a 1 (k % 16 * 2 ^ 26 + e.line.toNat % 8192) x

/-- The filter is consulted for a line: the entries of the line's set are read (R162). -/
def Run.filtCheck (r : Run s0) (l : LineAddr) : Run s0 :=
  r.1.filt.foldl (fun r e => match e.2.flip with
    | some f => if e.1 / 16 % 32768 = l3Key 0 l 0 / 16 ∧ ¬ r.gated (400 + quadOf l) then r.filtFound e.1 e.2 f else r
    | none => r) r

/-- The filter's entries of a die for a line take a state; none clears them. -/
def Run.setFilt (r : Run s0) (d : Nat) (l : LineAddr) (x : Option FSt) : Run s0 :=
  let r := (List.range 16).foldl (fun r w => if (r.filtEntry (l3Key d l w)).any fun e => e.line = l ∧ e.st ≠ .I then
    r.filtWrite d l w x else r) r
  if (r.slice (quadOf l)).shadow.any fun e => e.1 == d && e.2.1 == l then
    r.modSlice (quadOf l) fun s => { s with shadow := s.shadow.filterMap fun e =>
      if e.1 = d ∧ e.2.1 = l then (x.map fun st => (e.1, e.2.1, st)) else some e }
  else r

/-! ### Reservations -/

/-- The reservations that a predicate of harts names are lost, where they are on a line. -/
def Run.loseOf (r : Run s0) (l : LineAddr) (f : Nat → Bool) : Run s0 :=
  r.1.harts.foldl (fun r p =>
    if p.2.resv = some l ∧ f p.1 = true then (r.modHart p.1 fun t => { t with resv := none, lrDelay := none }).pokeHart p.1 else r) r

/-- An agent writes to a line: the reservations on it are lost (R528). -/
def Run.loseResv (r : Run s0) (l : LineAddr) : Run s0 := r.loseOf l fun _ => true

/-- A line comes back written by an agent that may have written it at any time since it was granted: the reservations of the harts whose
tiles do not hold it are lost (R528; DEDUCED, log entry 90). A tile that holds it has held it since, so that nothing was written. -/
def Run.loseAway (r : Run s0) (l : LineAddr) : Run s0 := r.loseOf l fun h => (r.l2Find (tileOf h) l).isNone

/-- A hart of a tile delays snoops of a line (R186). -/
def Run.lrDelayed (r : Run s0) (n : Nat) (l : LineAddr) : Bool :=
  (List.range 4).any fun i => (r.hart (n * 4 + i)).lrDelay == some l

/-- A tile loses its copies of a line. -/
def Run.tileDrop (r : Run s0) (n : Nat) (l : LineAddr) : Run s0 :=
  let r := r.l1Drop n l
  match r.l2Find n l with
  | some (w, _) => r.setL2Slot (l2Key n l w) none
  | none => r

/-- The bytes of a natural number as `n` bytes placed in a line at byte `o`. -/
def lineBytes (o n v : Nat) : LineData := BitVec.ofNat 512 (v % 256 ^ n * 256 ^ o)

/-- The mask of `n` bytes from byte `o`. -/
def spanMask (o n : Nat) : BitVec 64 := BitVec.ofNat 64 ((2 ^ n - 1) * 2 ^ o)

/-! ### Accesses of agents without a cache

Each is a RdOnce, WrLine or WrPart that takes its place in the line's queue (R161). Where nothing else is in progress for the line and no
copy of it stands outside its DRAM, nothing can come between its messages, and it is done at once with the effect that they have. Else its
message is sent, and the command has no other effect and is sent again, until the answers of all that it needs are there (DESIGN CHOICE,
log entry 91). -/

/-- The domain of a memory channel (R424). -/
def domChan (c : Nat) : Nat := 336 + c

/-- A channel issues nothing: it is not running, its domain is not on, its DRAM is in self-refresh, a switch window is open, or
an alert lasts (R235, R239, R249, R425). -/
def Run.chanHolds (r : Run s0) (c : Nat) : Bool :=
  r.fld (MC_STATUS_INIT c) != 3 || r.on (MC_STATUS_SR c) || (r.chan c).window || (r.chan c).alert || r.on (DOM_STAT_STATE (domChan c))

/-- No request or eviction for a line is in progress or in flight. -/
def Run.quiet (r : Run s0) (l : LineAddr) : Bool := (r.queue l.toNat).isEmpty && !r.1.net.any (·.line = l)

/-- The DRAM of a line that an agent's access reaches at once: nothing is in progress for it, no copy of it is shown, its channel serves it
now, and every stop on its way sends. -/
def Run.atOnce (r : Run s0) (a : Agent) (l : LineAddr) : Option (Nat × Nat) :=
  match r.decodeLine l with
  | .dram c la =>
    let s := quadOf l
    let lone := r.quiet l && !(r.slice s).devs.any (·.2.1 = l) && (List.range 16).all fun d => (r.filtAll d l).isEmpty
    let peers := r.on HOME_CFG_DIREN && !(r.dline (dramKey c la)).any fun x => x.dir == 0 && x.err.isEmpty
    let sends := !r.stopTests a l && !r.stopTests (homeOf l) l && !r.stopTests (.chan (Fin.ofNat 24 c)) l
    if lone && !peers && sends && !r.1.pins.fatal && regionOf (l.toNat * 64) == .memory && !r.chanHolds c && (r.chan c).held.isEmpty
      && r.trackerFree s { kind := .rdOnce, src := a, dst := homeOf l, line := l } then some (c, la) else none
  | _ => none

/-- What the accesses of the present command are for, and who sends them. -/
def Run.accessing (r : Run s0) (k : Reader) (a : Agent) : Run s0 := r.act (.need { r.1.need with key := k, who := a })

/-- The command cannot go on. -/
def Run.stick (r : Run s0) : Run s0 := r.act (.need { r.1.need with stuck := true })

/-- The command cannot go on past this point while one of its accesses is not done (R31, R32). -/
def Run.settleUp (r : Run s0) : Run s0 := if r.1.need.asks.isEmpty then r else r.stick

/-- The answer to an access of the present command. -/
def Run.answered (r : Run s0) (a : Agent) (l : LineAddr) (w : Option Wr) : Option (LineData × Bool) :=
  (r.1.ops.find? fun o => o.key = r.1.need.key ∧ o.who = a ∧ o.line = l ∧ o.wr = w).bind (·.got)

/-- The present command uses an answer: those of its key are gone when it has had its effect. -/
def Run.uses (r : Run s0) : Run s0 :=
  if r.1.need.key ∈ r.1.need.used then r else r.act (.need { r.1.need with used := r.1.need.key :: r.1.need.used })

/-- The present command needs an access. -/
def Run.asks (r : Run s0) (a : Agent) (l : LineAddr) (w : Option Wr) : Run s0 :=
  r.act (.need { r.1.need with asks := r.1.need.asks ++ [{ key := r.1.need.key, who := a, line := l, wr := w }] })

/-- An agent reads a line (R24): its value and poison. -/
def Run.rdLine (r : Run s0) (a : Agent) (l : LineAddr) : Run s0 × LineData × Bool :=
  if r.1.need.stuck then (r, 0, false)
  else match r.answered a l none with
    | some x => (r.uses, x.1, x.2)
    | none => match r.atOnce a l with
      | some (c, la) =>
        let p := r.dramRead c la (l.toNat * 64) (r.memSlot (l.toNat * 64))
        (p.1, p.2.1, p.2.2.1)
      | none => (r.asks a l none, 0, false)

/-- A write of an agent reaches the line's DRAM (R28, R170, R176): reservations are lost and the merged line is in memory. A poisoned
current line stays poisoned unless every byte is written. -/
def Run.wrMem (r : Run s0) (c la : Nat) (l : LineAddr) (w : Wr) : Run s0 :=
  let r := r.loseResv l
  let full := w.mask == BitVec.allOnes 64
  let k := r.memSlot (l.toNat * 64)
  let p : Run s0 × LineData × Bool × Nat := if full && !r.on HOME_CFG_DIREN then (r, 0, false, 0) else r.dramRead c la (l.toNat * 64) k
  p.1.dramWrite c la (l.toNat * 64) (mergeBytes p.2.1 w.data w.mask) (w.poison || (!full && p.2.2.1)) 0 k

/-- An agent writes bytes of a line (R28). -/
def Run.wrLine (r : Run s0) (a : Agent) (l : LineAddr) (w : Wr) : Run s0 :=
  if r.1.need.stuck then r
  else if (r.answered a l (some w)).isSome then r.uses
  else match r.atOnce a l, w.stash, w.cbo with
    | some (c, la), none, none => r.wrMem c la l w
    | _, _, _ => r.asks a l (some w)

/-- An agent reads `n` bytes within one line at a physical address, and the line's poison. -/
def Run.rdBytes (r : Run s0) (a n : Nat) (who : Agent) : Run s0 × Nat × Bool :=
  let p := r.rdLine who (BitVec.ofNat 46 (a / 64))
  (p.1, (p.2.1 >>> (8 * (a % 64))).toNat % 256 ^ n, p.2.2)

/-- An agent writes `n` bytes within one line at a physical address. -/
def Run.wrBytes (r : Run s0) (a n v : Nat) (who : Agent) : Run s0 :=
  r.wrLine who (BitVec.ofNat 46 (a / 64)) { data := lineBytes (a % 64) n v, mask := spanMask (a % 64) n }

/-- Read a span of bytes, little-endian, and whether any line of it is poisoned. Structural in the number of lines. -/
def Run.rdSpan (r : Run s0) (a n : Nat) (who : Agent) : Nat → Run s0 × Nat × Bool
  | 0 => (r, 0, false)
  | fuel + 1 =>
    let k := min n (64 - a % 64)
    if n = 0 then (r, 0, false) else
    let p := r.rdBytes a k who
    let q := Run.rdSpan p.1 (a + k) (n - k) who fuel
    (q.1, p.2.1 + q.2.1 * 256 ^ k, p.2.2 || q.2.2)

/-- Write a span of bytes, little-endian. -/
def Run.wrSpan (r : Run s0) (a n v : Nat) (who : Agent) : Nat → Run s0
  | 0 => r
  | fuel + 1 =>
    let k := min n (64 - a % 64)
    if n = 0 then r else Run.wrSpan (r.wrBytes a k v who) (a + k) (n - k) (v / 256 ^ k) who fuel

/-- The accesses under way that a predicate names are given up; their answers, when they come, go nowhere. -/
def Run.dropOps (r : Run s0) (f : Op → Bool) : Run s0 := if r.1.ops.any f then r.act (.ops (r.1.ops.filter fun o => !f o)) else r

/-- A walk of a hart reads 8 bytes through the tile's L2 (R113): from its copy, else from an answer that came for the walk, else from
the line's DRAM (it need not fill a cache). -/
def Run.walkRead (r : Run s0) (h a : Nat) : Run s0 × Nat × Bool :=
  let n := tileOf h
  let l : LineAddr := BitVec.ofNat 46 (a / 64)
  let part (d : LineData) : Nat := (d >>> (8 * (a % 64))).toNat % 256 ^ 8
  if r.1.need.stuck then (r, 0, false)
  else
    let r := r.l2Look n l
    match r.l2Find n l with
    | some (w, s) => (r.l2Touch n l w, part s.data, s.poison)
    | none =>
      let r := r.accessing (.walk h) (.tile (Fin.ofNat 256 n))
      let p := r.rdLine (.tile (Fin.ofNat 256 n)) l
      (p.1.settleUp, part p.2.1, p.2.2)

end Sys2Proof.Machine
end

