-- ==== Sys2Proof/Machine/Trap.lean ====
section
/-! DEFINITION. Leaving an enclave, taking a trap and returning from one (R385 to R387, R464, R468, R106). The standard parts
of trap entry and return are PRESUMED from the RISC-V privileged architecture (log entry 6). -/
namespace Sys2Proof.Machine

variable {s0 : State}

/-- An exception or interrupt: its cause, the values of xtval, xtval2 and xtinst, the key of a key fault (R106), and
whether the access was at V = 1. -/
structure Exc where
  cause : Nat
  intr : Bool := false
  tval : Word := 0
  tval2 : Word := 0
  tinst : Nat := 0
  key : Option Nat := none
  v : Bool := false
deriving DecidableEq, Repr

/-- Status codes that these operations write (R10, with the chapters' own). -/
def stOk : Nat := 0x00
def stBusy : Nat := 0x01
def stDenied : Nat := 0x02
def stAborted : Nat := 0x04
def stDeparted : Nat := 0x1C

/-- The saved set of R384: x1 to x4, x8, x9 and x18 to x27. -/
def savedSet : List Nat := [1, 2, 3, 4, 8, 9, 18, 19, 20, 21, 22, 23, 24, 25, 26, 27]

/-- Every general, floating-point and vector register, fcsr and the vector CSRs are zero (R384, R385). -/
def Run.zeroContext (r : Run s0) (h : Nat) : Run s0 :=
  let r := r.clearRegs h
  [0x003, 0x008, 0x009, 0x00A, 0xC20, 0xC21].foldl (fun r n => r.setCsr h n 0) r

/-- Change bits of an enclave's thread masks: bit t of TLOST, TSUSP or TBUSY. -/
def Run.setThread (r : Run s0) (f : Nat → FRef) (e t : Nat) (b : Bool) : Run s0 := r.setBit (f e) t b

/-- The physical address of a thread's save block (R377). -/
def Run.tsbAddr (r : Run s0) (e t : Nat) : Nat := r.fld (ENC_TSB_TSB e) * 4096 + t * 4096

/-- The 64-bit words of a thread save block (R386). -/
def Run.contextWord (r : Run s0) (h k : Nat) : Word :=
  if k = 0 then (r.hart h).pc
  else if k < 32 then r.x (h * 32 + k)
  else if k < 64 then r.f (h * 32 + (k - 32))
  else if k = 64 then r.csr h 0x003
  else if k = 65 then r.csr h 0x008
  else if k = 66 then r.csr h 0xC20
  else if k = 67 then r.csr h 0xC21
  else if 128 ≤ k ∧ k < 256 then (r.v (h * 32 + (k - 128) / 4)).extractLsb' (64 * ((k - 128) % 4)) 64
  else 0

/-- Line i of a thread save block as it is written. -/
def Run.contextLine (r : Run s0) (h i : Nat) : LineData :=
  (List.range 8).foldl (fun a j => a ||| ((r.contextWord h (i * 8 + j)).zeroExtend 512 <<< (64 * j))) 0

/-- A line of a save block is written: at once, or by a WrLine under way, until whose end no hart reloads the line. -/
def Run.saveLine (r : Run s0) (h : Nat) (l : LineAddr) (data : LineData) : Run s0 :=
  let a : Agent := .hart (Fin.ofNat 1024 h)
  let w : Wr := { data := data, mask := BitVec.allOnes 64 }
  match r.atOnce a l with
  | some (c, la) => r.wrMem c la l w
  | none => (r.act (.ops (r.1.ops ++ [{ key := .gate h, who := a, line := l, wr := some w }]))).send
      { kind := .wrLine, src := a, dst := homeOf l, line := l, data := data, mask := BitVec.allOnes 64 }

/-- Write a thread's state to its save block (R386 step 1). -/
def Run.saveContext (r : Run s0) (h : Nat) : Run s0 :=
  let t := r.hart h
  let a := r.tsbAddr t.eid t.thread
  let lines := (List.range 64).map fun i => (i, r.contextLine h i)
  lines.foldl (fun r p => r.saveLine h (BitVec.ofNat 46 (a / 64 + p.1)) p.2) r

/-- Put a word of a thread save block back (R384). -/
def Run.putContextWord (r : Run s0) (h k : Nat) (w : Word) : Run s0 :=
  if k = 0 then r.modHart h fun t => { t with pc := w }
  else if k < 32 then r.setX (h * 32 + k) w
  else if k < 64 then r.setF (h * 32 + (k - 32)) w
  else if k = 64 then r.setCsr h 0x003 w
  else if k = 65 then r.setCsr h 0x008 w
  else if k = 66 then r.setCsr h 0xC20 w
  else if k = 67 then r.setCsr h 0xC21 w
  else if 128 ≤ k ∧ k < 256 then
    r.modV (h * 32 + (k - 128) / 4) fun v =>
      let s := 64 * ((k - 128) % 4)
      (v &&& ~~~ ((BitVec.allOnes 64).zeroExtend 256 <<< s)) ||| (w.zeroExtend 256 <<< s)
  else r

/-- A line of a save block is still on its way to its home. -/
def Run.saving (r : Run s0) (l : LineAddr) : Bool :=
  r.1.ops.any fun o => o.line == l && o.wr.isSome && o.got.isNone && match o.key with
    | .gate _ => true
    | _ => false

/-- The lines of a thread's save block that hold state are read, each with its poison (R384). -/
def Run.readContext (r : Run s0) (h e t : Nat) : Run s0 × List (LineAddr × LineData × Bool) :=
  let a := r.tsbAddr e t
  let p := (List.range 32).foldl (fun (p : Run s0 × List (LineAddr × LineData × Bool)) i =>
    let l : LineAddr := BitVec.ofNat 46 (a / 64 + i)
    let x := (if p.1.saving l then p.1.stick else p.1).rdLine (.hart (Fin.ofNat 1024 h)) l
    (x.1, p.2 ++ [(l, x.2)])) (r.accessing (.gate h) (.hart (Fin.ofNat 1024 h)), [])
  (p.1.settleUp, p.2)

/-- A thread's state is reloaded from the lines of its save block. -/
def Run.loadContext (r : Run s0) (h : Nat) (ls : List (LineAddr × LineData × Bool)) : Run s0 :=
  ls.zipIdx.foldl (fun r p =>
    (List.range 8).foldl (fun r j => r.putContextWord h (p.2 * 8 + j) (p.1.2.1.extractLsb' (64 * j) 64)) r) r

/-- The hart leaves its enclave (R385 steps 2 to 6): the caller's saved set comes back, rd takes a status, x11 a value. -/
def Run.restoreCaller (r : Run s0) (h st : Nat) (x11 : Word) : Run s0 :=
  match (r.hart h).saved with
  | none => r
  | some c =>
    let r := r.zeroContext h
    let r := (savedSet.zip c.xs).foldl (fun r p => r.setXr h p.1 p.2) r
    let r := (r.setXr h 11 x11).setXr h c.rd (BitVec.ofNat 64 st)
    (r.modHart h fun t => { t with eid := 0, thread := 0, saved := none, pc := c.pc, mode := c.mode, wait := none, tlb := [] }).showHart h

/-- An interrupted departure without its trap (R386 steps 1 to 3). -/
def Run.depart (r : Run s0) (h : Nat) : Run s0 :=
  let t := r.hart h
  let r := (r.saveContext h).setThread ENC_STAT_TSUSP t.eid t.thread true
  (r.setThread ENC_STAT_TBUSY t.eid t.thread false).restoreCaller h stDeparted 0

/-- The core switch of a tile begins (R388): nothing of the core issues until it is done. -/
def Run.startSwitch (r : Run s0) (n ceid : Nat) : Run s0 := r.modTile n fun t => { t with ceid := ceid, switching := true }

/-- Every other hart of the core at an enclave ID takes a forced exit, and the core switch to 0 begins (R387). -/
def Run.leaveCore (r : Run s0) (n e : Nat) : Run s0 :=
  let r := (List.range 4).foldl (fun r i =>
    let h := n * 4 + i
    if (r.hart h).eid = e ∧ e ≠ 0 then ((r.modHart h fun t => { t with park := none, run := if t.run = .parked then .running else t.run }).depart h).showHart h else r) r
  r.startSwitch n 0

/-- Privilege rank of a mode for delegation. -/
def Run.delegated (r : Run s0) (h : Nat) (md : Mode) (x : Exc) : Mode :=
  if md = .m ∨ md = .debug then .m
  else
    let d := if x.intr then r.cb h 0x303 x.cause else r.cb h 0x302 x.cause
    let v := if x.intr then r.cb h 0x603 x.cause else r.cb h 0x602 x.cause
    if !d then .m else if md.virt && v then .vs else .s

/-- Causes whose xtval is an address. -/
def addressCause (c : Nat) : Bool := c ∈ [0, 1, 3, 4, 5, 6, 7, 12, 13, 15, 20, 21, 23, 24]

/-- The handler's address for a trap vector CSR. -/
def vectorPc (tvec : Word) (x : Exc) : Word :=
  let base := tvec &&& ~~~ 3
  if x.intr ∧ tvec.getLsbD 0 then base + BitVec.ofNat 64 (4 * x.cause) else base

/-- The cause register's value. -/
def Exc.code (x : Exc) : Word := BitVec.ofNat 64 (x.cause + if x.intr then 2 ^ 63 else 0)

/-- Trap entry in the mode that takes it: saved pc, cause and values, previous mode and enables, and the handler's pc, which
is the RNMI exception handler's for an exception in M-mode while mnstatus.NMIE is 0 (Smrnmi, R465). -/
def Run.enter (r : Run s0) (h : Nat) (md : Mode) (epc : Word) (x : Exc) : Run s0 :=
  let gva := if (md.virt || x.v) && !x.intr && addressCause x.cause then 1 else 0
  let v := if md.virt then 1 else 0
  match r.delegated h md x with
  | .vs =>
    let x := if x.intr then { x with cause := x.cause - 1 } else x
    let s := r.csr h 0x200
    let s := Word.setBits (Word.setBits (Word.setBits s 5 5 (Word.bits s 1 1)) 1 1 0) 8 8 md.prv
    let r := (((r.setCsr h 0x200 s).setCsr h 0x241 epc).setCsr h 0x242 x.code).setCsr h 0x243 x.tval
    r.modHart h fun t => { t with mode := .vs, pc := vectorPc (r.csr h 0x205) x }
  | .s =>
    let s := r.csr h 0x300
    let s := Word.setBits (Word.setBits (Word.setBits s 5 5 (Word.bits s 1 1)) 1 1 0) 8 8 md.prv
    let hs := r.csr h 0x600
    let hs := Word.setBits (Word.setBits hs 7 7 v) 6 6 gva
    let hs := if md.virt then Word.setBits hs 8 8 md.prv else hs
    let r := ((((r.setCsr h 0x300 s).setCsr h 0x600 hs).setCsr h 0x141 epc).setCsr h 0x142 x.code).setCsr h 0x143 x.tval
    let r := (r.setCsr h 0x643 x.tval2).setCsr h 0x64A (BitVec.ofNat 64 x.tinst)
    r.modHart h fun t => { t with mode := .s, pc := vectorPc (r.csr h 0x105) x }
  | _ =>
    let s := r.csr h 0x300
    let s := Word.setBits (Word.setBits (Word.setBits s 7 7 (Word.bits s 3 3)) 3 3 0) 12 11 md.prv
    let s := Word.setBits (Word.setBits s 39 39 v) 38 38 gva
    let r := (((r.setCsr h 0x300 s).setCsr h 0x341 epc).setCsr h 0x342 x.code).setCsr h 0x343 x.tval
    let r := (r.setCsr h 0x34B x.tval2).setCsr h 0x34A (BitVec.ofNat 64 x.tinst)
    let pc := if md = .m ∧ !r.cb h 0x744 3 then (r.csr h 0x7E2 &&& ~~~ 3) + 0x100 else vectorPc (r.csr h 0x305) x
    let r := r.setCf h 0x7A5 7 7 (r.cf h 0x7A5 3 3)
    (r.setCf h 0x7A5 3 3 0).modHart h fun t => { t with mode := .m, pc := pc }

/-- A page fault at V = 0 writes sdwkeyflt (R106). -/
def Run.noteKeyFault (r : Run s0) (h : Nat) (x : Exc) : Run s0 :=
  if !x.intr && !x.v && x.cause ∈ [12, 13, 15] then
    r.setCsr h 0x5CA (match x.key with
      | some k => BitVec.ofNat 64 (256 + k)
      | none => 0)
  else r

/-- What a trap from an enclave shows outside it (R386 step 4). -/
def Exc.outside (x : Exc) : Exc :=
  { x with tval := if !x.intr && x.cause ∈ [1, 5, 7, 12, 13, 15] then x.tval &&& ~~~ 0xFFF else 0, tval2 := 0, tinst := 0 }

/-- The itrigger or etrigger that a trap from a mode meets fires before the handler's first instruction; single-stepping halts there. -/
def Run.trapTriggers (r : Run s0) (h : Nat) (md : Mode) (x : Exc) : Run s0 :=
  let r := if (r.hart h).trigs.isEmpty then r
    else match (List.range 8).find? (fun i =>
        let t := r.trig h i
        trigType t == (if x.intr then 4 else 5) && t.2.getLsbD x.cause && trigMode t md && r.trigMay h t) with
      | some i => r.dueTrig h i
      | none => r
  if r.stepping h then r.dueHalt h 4 else r

/-- Take a trap. Reservations and the delay of R186 end (R528); at a nonzero enclave ID the hart first departs (R386), and
the core switch begins. In Debug Mode an exception only ends the instruction (R466). -/
def Run.trap (r : Run s0) (h : Nat) (x : Exc) : Run s0 :=
  let t := r.hart h
  let r := (r.dropOps fun o => o.key == .walk h || o.key == .fetch h).noteKeyFault h x
  if t.mode = .debug then r.modHart h fun t => { t with wait := none }
  else
    let r := r.modHart h fun t => { t with resv := none, lrDelay := none, wait := none, noMem := none }
    if t.eid ≠ 0 then
      let e := t.eid
      let r := r.depart h
      let r := r.enter h (r.hart h).mode (r.hart h).pc x.outside
      ((r.leaveCore (tileOf h) e).pokeHart h).trapTriggers h t.mode x.outside
    else ((r.enter h t.mode t.pc x).pokeHart h).trapTriggers h t.mode x

/-- An illegal-instruction exception. -/
def Run.illegal (r : Run s0) (h : Nat) : Run s0 := r.trap h { cause := 2 }

/-- A virtual-instruction exception. -/
def Run.virtInstr (r : Run s0) (h : Nat) : Run s0 := r.trap h { cause := 22 }

/-- Trigger i fires at an address, before the instruction: its hit bit is set, and the hart is to halt or takes a breakpoint exception. -/
def Run.fire (r : Run s0) (h i : Nat) (va : Word) : Run s0 :=
  let t := r.trig h i
  let b := if trigType t = 6 then 22 else if trigType t = 3 then 24 else 58
  let r := r.setTrig h i (Word.setBits t.1 b b 1, t.2)
  if trigAction t = 1 then r.dueHalt h 2 else r.trap h { cause := 3, tval := va, v := (r.hart h).mode.virt }

/-- EBREAK: Debug Mode if dcsr says so for the mode, unless an enclave forbids it (R390); else a breakpoint exception. -/
def Run.ebreak (r : Run s0) (h : Nat) : Run s0 :=
  let t := r.hart h
  let on : Bool := match t.mode with
    | .m => r.cb h 0x7B0 15
    | .s => r.cb h 0x7B0 13
    | .u => r.cb h 0x7B0 12
    | .vs => r.cb h 0x7B0 17
    | .vu => r.cb h 0x7B0 16
    | .debug => false
  if on && (t.eid == 0 || (r.1.fox.rights.getLsbD 0 && r.1.fox.rights.getLsbD 1)) then r.dueHalt h 1
  else r.trap h { cause := 3, tval := t.pc, v := t.mode.virt }

/-- EIP clears at a return from the mode that took it (R468). -/
def Run.clearEip (r : Run s0) (h mode : Nat) : Run s0 :=
  if r.cf h 0x7E0 57 56 = mode then (r.setCf h 0x7E0 63 63 0).setCf h 0x7E0 57 56 0 else r

/-- A hart consumes poison (R464, R466, R468): mdwerr and mdwerraddr are written, event 0x0103 recorded and cause 24 taken;
FATAL with 0x0101 when an error is in progress. -/
def Run.consume (r : Run s0) (h src : Nat) (l : LineAddr) (va : Word) : Run s0 :=
  let t := r.hart h
  let log (r : Run s0) (cls : Cls) (ev : Nat) : Run s0 :=
    r.logRec (.tile (tileOf h)) { event := ev, cls := cls, addr := some (l.toNat * 64), req := some (1, h) }
  if t.mode = .debug then (log r .ucr 0x0103).modHart h fun t => { t with wait := none }
  else if r.cb h 0x7E0 63 then
    (r.fatal (.tile (tileOf h)) { event := 0x0101, cls := .fatal, addr := some (l.toNat * 64), req := some (1, h) })
  else
    let taker := if t.eid ≠ 0 then r.delegated h ((t.saved.map (·.mode)).getD t.mode) { cause := 24 } else r.delegated h t.mode { cause := 24 }
    let w := Word.setBits (Word.setBits (Word.setBits (Word.setBits 0 63 63 1) 57 56 (if taker = .s then 1 else 3)) 51 48 src) 15 0 0x0103
    let r := (r.setCsr h 0x7E0 w).setCsr h 0x7E1 (Word.setBits (Word.setBits 0 63 63 1) 51 6 l.toNat)
    (log r .ucr 0x0103).trap h { cause := 24, tval := va }

end Sys2Proof.Machine
end

