-- ==== Sys2Proof/Machine/Translate.lean ====
section
/-! DEFINITION. Translation and protection: the checks of R93 in their order, walks, translation entries, reach registers, keys,
PMP and enclave ranges (R93 to R124, R375). -/
namespace Sys2Proof.Machine

variable {s0 : State}

/-- What an access is, for the checks: fetch, load (and LR), store (and SC, AMO, CBO.ZERO), or a CBO.CLEAN or
CBO.FLUSH, which needs read or write permission, counts as a load for keys, and faults as a store, or a CBO.INVAL, which counts as
a store for keys (R140). -/
inductive Acs
  | fetch | load | store | clean | inval
deriving DecidableEq, Repr

/-- The page-fault cause of an access. -/
def Acs.pageFault : Acs → Nat
  | .fetch => 12
  | .load => 13
  | _ => 15

/-- The access-fault cause of an access. -/
def Acs.accessFault : Acs → Nat
  | .fetch => 1
  | .load => 5
  | _ => 7

/-- The guest-page-fault cause of an access. -/
def Acs.guestFault : Acs → Nat
  | .fetch => 20
  | .load => 21
  | _ => 23

/-- How an access ends its checks: a physical address and memory type (0 PMA, 1 NC, 2 IO), an exception, or poison consumed by
the walk. -/
inductive Tr
  | ok (pa mt : Nat)
  | exc (x : Exc)
  | poison (l : LineAddr)
deriving DecidableEq, Repr

/-- The bytes [lo, hi) that PMP entry i names (R123). -/
def Run.pmpRange (r : Run s0) (h i : Nat) : Nat × Nat :=
  let c := natBits (r.pmpcfg h i) 4 3
  let a := (r.csr h (0x3B0 + i)).toNat
  if c = 1 then (if i = 0 then 0 else natSetBits (r.csr h (0x3AF + i)).toNat 9 0 0 * 4, natSetBits a 9 0 0 * 4)
  else if c = 3 then
    let a := natSetBits a 8 0 0x1FF
    let k := ((List.range 51).find? fun j => !natBit a j).getD 51
    (a / 2 ^ (k + 1) * 2 ^ (k + 1) * 4, (a / 2 ^ (k + 1) + 1) * 2 ^ (k + 1) * 4)
  else (0, 0)

/-- The rights of a pmpcfg byte for M-mode or a lower mode (Smepmp). -/
def pmpRights (mml : Bool) (b : Nat) (m : Bool) : Bool × Bool × Bool :=
  let l := natBit b 7
  let rd := natBit b 0
  let w := natBit b 1
  let x := natBit b 2
  if !mml then (if m && !l then (true, true, true) else (rd, w, x))
  else if l && rd && w && x then (true, false, false)
  else if w && !rd then
    if l then (m && x, false, true) else (true, m || x, false)
  else if l = m then (rd, w, x) else (false, false, false)

/-- PMP permits an access of `size` bytes at the privilege of `m` (M-mode) or below (R123, R124). -/
def Run.pmpOk (r : Run s0) (h : Nat) (m : Bool) (acc : Acs) (a size : Nat) : Bool :=
  let mml := r.cb h 0x747 0
  let hit := (List.range 64).find? fun i => let p := r.pmpRange h i; decide (p.1 < a + size) && decide (a < p.2)
  match hit with
  | none => m && !r.cb h 0x747 1 && !(mml && acc == .fetch)
  | some i =>
    let p := r.pmpRange h i
    let q := pmpRights mml (r.pmpcfg h i) m
    decide (p.1 ≤ a) && decide (a + size ≤ p.2) &&
      (match acc with
        | .fetch => q.2.2
        | .load => q.1
        | .store => q.2.1
        | .clean | .inval => q.1 || q.2.1)

/-- The enclave range table permits a hart's access (R375). -/
def Run.ertOk (r : Run s0) (h : Nat) (acc : Acs) (a : Nat) : Bool :=
  let e := r.enclaveOf a
  let eid := (r.hart h).eid
  if e = 0 then eid == 0 || acc != .fetch
  else eid == e || (eid != 0 && eid == r.fld SEC_CFG_MONEID && r.fld (ENC_STAT_STATE e) == 1 && acc != .fetch)

/-- Checks 8 and 9 of R93: the address is below 2^52, PMP, the region and the enclave ranges allow the access. -/
def Run.physOk (r : Run s0) (h : Nat) (m : Bool) (acc : Acs) (a size : Nat) : Bool :=
  let g := regionOf a
  g != .beyond && g != .reserved && !(g.device && acc == .fetch) && r.pmpOk h m acc a size && r.ertOk h acc a

/-- What translation works with: the access, its effective privilege and V, whether it is HLVX, and its xtinst. -/
structure Ctx where
  h : Nat
  acc : Acs
  prv : Nat
  v : Bool
  hlvx : Bool := false
  tinst : Nat := 0
  va : Word
deriving DecidableEq, Repr

/-- An exception of the access with its virtual address. -/
def Ctx.exc (c : Ctx) (cause : Nat) (key : Option Nat := none) : Exc := { cause := cause, tval := c.va, tinst := if cause ∈ [20, 21, 23] then c.tinst else 0, key := key, v := c.v }

/-- A guest-page fault with its guest physical address (R98). -/
def Ctx.guest (c : Ctx) (gpa : Nat) (tinst : Nat) : Exc :=
  { cause := c.acc.guestFault, tval := c.va, tval2 := BitVec.ofNat 64 (gpa / 4), tinst := if c.acc = .fetch ∧ tinst ≠ 0x3000 then 0 else tinst, v := true }

/-- Levels of an address-translation mode: 3, 4 or 5; 0 for Bare. -/
def levelsOf (mode : Nat) : Nat := if mode = 8 then 3 else if mode = 9 then 4 else if mode = 10 then 5 else 0

/-- A walk's answer: a leaf PTE with log2 of its span and the address that it gives, an exception or poison. -/
inductive Walk
  | leaf (pte lg pa : Nat)
  | exc (x : Exc)
  | poison (l : LineAddr)
deriving DecidableEq, Repr

/-- How a PTE reads (R95, R108): a fault, the next table, or a leaf with its span. -/
inductive PteKind
  | fault | next (table : Nat) | leaf (lg : Nat)
deriving DecidableEq, Repr

/-- Classify a PTE at a level. `keys` lets bits [60:57] of a leaf hold a key; `g` marks the G-stage, whose leaves may be NAPOT and carry PBMT as
others do, since the H extension reserves neither (R95; DEDUCED, log entry 96). -/
def pteKind (p level : Nat) (keys g : Bool) : PteKind :=
  let ppn := natBits p 53 10
  let leaf := natBits p 3 1 ≠ 0
  let hi := if keys ∧ leaf then natBits p 56 54 else natBits p 60 54
  if !natBit p 0 ∨ (natBit p 2 ∧ ¬ natBit p 1) ∨ hi ≠ 0 ∨ natBits p 62 61 = 3 then .fault
  else if !leaf then
    if natBits p 63 61 ≠ 0 ∨ natBits p 7 6 ≠ 0 ∨ natBit p 4 ∨ level = 0 then .fault else .next (ppn * 4096)
  else if natBit p 63 then
    if level = 0 ∧ natBits ppn 3 0 = 8 ∧ (!g ∨ natBit p 4) then .leaf 16 else .fault
  else if ppn % 2 ^ (9 * level) ≠ 0 ∨ (g ∧ !natBit p 4) then .fault
  else .leaf (12 + 9 * level)

/-- Read a PTE at a physical address (R113, R115): its value, an access fault, or poison. -/
def Run.readPte (r : Run s0) (c : Ctx) (a : Nat) : Run s0 × Sum Nat Walk :=
  if regionOf a ≠ .memory ∨ !r.pmpOk c.h false .load a 8 ∨ !r.ertOk c.h .load a then (r, .inr (.exc (c.exc c.acc.accessFault)))
  else match r.decode a with
    | .none_ => (r.logNoMemory a (some (1, c.h)), .inr (.exc (c.exc c.acc.accessFault)))
    | _ =>
      if (r.hart c.h).noMem = some (BitVec.ofNat 46 (a / 64)) then (r.modHart c.h fun t => { t with noMem := none }, .inr (.exc (c.exc c.acc.accessFault)))
      else
      let p := (r.tally c.h 0x0043 1).walkRead c.h (a / 8 * 8)
      if p.2.2 then (p.1, .inr (.poison (BitVec.ofNat 46 (a / 64)))) else (p.1, .inl p.2.1)

/-- The physical address within a leaf's span. -/
def leafPa (pte lg va : Nat) : Nat := natBits pte 53 10 * 4096 / 2 ^ lg * 2 ^ lg + va % 2 ^ lg

/-- The walk-cache entry of a hart for a table (R111), made under a mode (R121). -/
def Run.walkCached (r : Run s0) (h : Nat) (g v : Bool) (mode asid vmid lg va : Nat) : Option Nat :=
  ((r.hart h).tlb.find? fun e => !e.leaf && e.gstage == g && e.v == v && (if g then e.gmode else e.mode) == mode && e.asid == asid && e.vmid == vmid
    && e.lg == lg && e.va == va / 2 ^ lg).map (·.pa)

/-- How many leaf translations, or non-leaf PTEs, the structures of a core hold (R111). -/
def tlbRoom (leaf : Bool) : Nat := if leaf then 64 + 96 + 4096 else 64

/-- Make a translation entry or walk-cache entry (R111). Another one of its core may be replaced, and must be where the structures are full; which
one is a free value, as is whether one is while there is room (R119; log entry 29). -/
def Run.addTlb (r : Run s0) (h : Nat) (e : TlbEntry) : Run s0 :=
  let p := r.fresh
  let all := (List.range 4).flatMap fun i =>
    let k := tileOf h * 4 + i
    ((r.hart k).tlb.filter (·.leaf == e.leaf)).map fun x => (k, x)
  let r := if p.2.getLsbD 0 || decide (tlbRoom e.leaf ≤ all.length) then (match all[(p.2 >>> 1).toNat % all.length]? with
    | some x => p.1.modHart x.1 fun t => { t with tlb := t.tlb.erase x.2 }
    | none => p.1) else p.1
  r.modHart h fun t => { t with tlb := e :: t.tlb }

/-- A G-stage walk of a guest physical address from level `n - 1` at a table (R95 to R98). `top` marks the root, whose index
has two bits more. `imp` is the xtinst of a fault. -/
def Run.gWalk (r : Run s0) (c : Ctx) (gpa : Nat) (imp : Nat) : Nat → Nat → Bool → Run s0 × Walk
  | 0, _, _ => (r, .exc (c.guest gpa imp))
  | n + 1, table, top =>
    let idx := gpa / 2 ^ (12 + 9 * n) % (if top then 2048 else 512)
    let a := table + idx * 8
    if 2 ^ 52 ≤ a then (r, .exc (c.exc c.acc.accessFault))
    else
      let p := r.readPte c a
      match p.2 with
      | .inr w => (p.1, w)
      | .inl pte =>
        match pteKind pte n false true with
        | .fault => (p.1, .exc (c.guest gpa imp))
        | .leaf lg => (p.1, .leaf pte lg (leafPa pte lg gpa))
        | .next t =>
          let lg := 12 + 9 * n
          let e : TlbEntry := { leaf := false, v := true, glob := false, asid := 0, vmid := p.1.cf c.h 0x680 57 44, lg := lg, va := gpa / 2 ^ lg, pa := t, gpa := 0, perm := 0, gperm := 0, pbmt := 0, key := 0, fetch := false, gstage := true, gmode := p.1.cf c.h 0x680 63 60 }
          Run.gWalk (p.1.addTlb c.h e) c gpa imp n t false

/-- Translate a guest physical address: the leaf, under the current hgatp. -/
def Run.gTranslate (r : Run s0) (c : Ctx) (gpa : Nat) (imp : Nat) : Run s0 × Walk :=
  let mode := r.cf c.h 0x680 63 60
  let n := levelsOf mode
  if n = 0 then (r, .leaf 0xDF 12 gpa)
  else if 2 ^ (14 + 9 * n) ≤ gpa then (r, .exc (c.guest gpa imp))
  else match (List.range n).findSome? fun i => if i = 0 then none else (r.walkCached c.h true true mode 0 (r.cf c.h 0x680 57 44) (12 + 9 * i) gpa).map fun t => (i, t) with
    | some (i, t) => r.gWalk c gpa imp i t false
    | none => r.gWalk c gpa imp n (r.cf c.h 0x680 43 0 * 4096 / 16384 * 16384) true

/-- A G-stage leaf permits an access (R94): R, W, X, U, A and D; implicit reads need R. -/
def gOk (pte : Nat) (acc : Acs) (hlvx mxr : Bool) : Bool :=
  natBit pte 6 && (match acc with
    | .fetch => natBit pte 3
    | .load => if hlvx then natBit pte 3 else natBit pte 1 || (mxr && natBit pte 3)
    | .store => natBit pte 2 && natBit pte 7
    | .clean | .inval => natBit pte 1 || natBit pte 2 || (mxr && natBit pte 3))

/-- A single-stage or VS-stage walk of a virtual address from level `n - 1` (R94 to R98, R113, R115). A VS-stage PTE's address
is a guest physical address, translated first. -/
def Run.sWalk (r : Run s0) (c : Ctx) (mode asid vmid : Nat) (keys : Bool) : Nat → Nat → Run s0 × Walk
  | 0, _ => (r, .exc (c.exc c.acc.pageFault))
  | n + 1, table =>
    let lg := 12 + 9 * n
    let va := c.va.toNat
    let a := table + va / 2 ^ lg % 512 * 8
    let g : Run s0 × Sum Nat Walk := if c.v then
        let p := r.gTranslate c a 0x3000
        match p.2 with
        | .leaf pte _ pa => if gOk pte .load false false then (p.1, .inl pa) else (p.1, .inr (.exc (c.guest a 0x3000)))
        | w => (p.1, .inr w)
      else (r, .inl a)
    match g.2 with
    | .inr w => (g.1, w)
    | .inl a =>
      if 2 ^ 52 ≤ a then (g.1, .exc (c.exc c.acc.accessFault))
      else
        let p := g.1.readPte c a
        match p.2 with
        | .inr w => (p.1, w)
        | .inl pte =>
          match pteKind pte n keys false with
          | .fault => (p.1, .exc (c.exc c.acc.pageFault))
          | .leaf k => (p.1, .leaf pte k (leafPa pte k va))
          | .next t =>
            let r := p.1.addTlb c.h { leaf := false, v := c.v, glob := false, asid := asid, vmid := vmid, lg := lg, va := va / 2 ^ lg, pa := t, gpa := 0, perm := 0, gperm := 0, pbmt := 0, key := 0, fetch := false, gstage := false, mode := mode }
            Run.sWalk r c mode asid vmid keys n t

/-- Begin a walk at the deepest cached table (R111). -/
def Run.walkFrom (r : Run s0) (c : Ctx) (mode asid vmid : Nat) (keys : Bool) (n root : Nat) : Run s0 × Walk :=
  match (List.range n).findSome? fun i => if i = 0 then none else (r.walkCached c.h false c.v mode asid vmid (12 + 9 * i) c.va.toNat).map fun t => (i, t) with
  | some (i, t) => r.sWalk c mode asid vmid keys i t
  | none => r.sWalk c mode asid vmid keys n root

/-- SUM and MXR in force for an effective V. -/
def Run.sumMxr (r : Run s0) (h : Nat) (v : Bool) : Bool × Bool :=
  if v then (r.cb h 0x200 18, r.cb h 0x200 19 || r.cb h 0x300 19) else (r.cb h 0x300 18, r.cb h 0x300 19)

/-- R, W, X and U of a leaf or reach register permit an access at a privilege (R93 checks 5 and 6). `p` holds bits 1 R, 2 W,
3 X, 4 U. -/
def permOk (p : Nat) (acc : Acs) (prv : Nat) (sum mxr hlvx : Bool) : Bool :=
  let u := natBit p 4
  let who := if prv = 0 then u else !u || (sum && acc != .fetch)
  who && (match acc with
    | .fetch => natBit p 3
    | .load => if hlvx then natBit p 3 else natBit p 1 || (mxr && natBit p 3)
    | .store => natBit p 2
    | .clean | .inval => natBit p 1 || natBit p 2 || (mxr && natBit p 3))

/-- Check 7: the key's rights deny the access (R107). -/
def Run.keyDenied (r : Run s0) (h : Nat) (acc : Acs) (k : Nat) : Bool :=
  let w := r.csr h 0x5C8
  match acc with
  | .fetch => w.getLsbD (4 * k + 2)
  | .load => w.getLsbD (4 * k)
  | .clean => w.getLsbD (4 * k)
  | .store | .inval => w.getLsbD (4 * k) || w.getLsbD (4 * k + 1)

/-- The reach register that an address hits: the lowest (R101). -/
def Run.reachHit (r : Run s0) (h : Nat) (va : Nat) : Option Nat :=
  (List.range 8).find? fun n =>
    let a := r.csr h (0x5E0 + n)
    let lg := Word.bits a 55 50
    a.getLsbD 63 && va / 2 ^ lg == (r.csr h (0x5D0 + n)).toNat / 2 ^ lg
      && (a.getLsbD 5 || Word.bits a 31 16 == r.cf h 0x180 59 44)

/-- Pointer masking with the PMLEN in force (R93 check 1): PMM 2 is 7 bits, 3 is 16; Bare zero-extends. HLV and HSV take henvcfg.PMM at VS
privilege, and at VU hstatus.HUPMM from U-mode and else senvcfg.PMM; HLVX is not masked (Ssnpm; PRESUMED, log entry 6). -/
def Run.maskPointer (r : Run s0) (h : Nat) (prv : Nat) (v hlv hlvx bare : Bool) (va : Word) : Word :=
  let pmm := if hlvx then 0
    else if hlv then (if prv = 1 then r.cf h 0x60A 33 32 else if (r.hart h).mode = .u then r.cf h 0x600 49 48 else r.cf h 0x10A 33 32)
    else if prv = 3 then r.cf h 0x747 33 32
    else if prv = 1 then (if v then r.cf h 0x60A 33 32 else r.cf h 0x30A 33 32)
    else r.cf h 0x10A 33 32
  let k := if pmm = 2 then 7 else if pmm = 3 then 16 else 0
  if k = 0 ∨ (r.sumMxr h v).2 then va
  else if bare ∨ prv = 3 then (va <<< k) >>> k
  else (va <<< k).sshiftRight k

/-- The entry of a hart for a virtual address under the current modes and identifiers (R111, R121). -/
def Run.tlbHit (r : Run s0) (h : Nat) (v : Bool) (mode gmode asid vmid va : Nat) : Option TlbEntry :=
  (r.hart h).tlb.find? fun e => e.leaf && e.v == v && e.mode == mode && (!v || e.gmode == gmode) && (e.glob || e.asid == asid) && (!v || e.vmid == vmid) && e.va == va / 2 ^ e.lg

/-- Checks 8 and 9, then the answer. -/
def Run.finishTr (r : Run s0) (c : Ctx) (pa mt size : Nat) : Run s0 × Tr :=
  if r.physOk c.h (c.prv == 3) c.acc pa size then (r, .ok pa mt) else (r, .exc (c.exc c.acc.accessFault))

/-- Use a translation entry: permissions, keys, and the physical checks (R93 checks 5 and 7 to 9). -/
def Run.useEntry (r : Run s0) (c : Ctx) (e : TlbEntry) (size : Nat) : Run s0 × Tr :=
  let s := r.sumMxr c.h c.v
  let p := e.perm.toNat
  let gpa := e.gpa + c.va.toNat % 2 ^ e.lg
  let a := natBit p 6 && (c.acc != .store || natBit p 7)
  if !permOk p c.acc c.prv s.1 s.2 c.hlvx || !a then (r, .exc (c.exc c.acc.pageFault))
  else if c.v && !gOk e.gperm.toNat c.acc c.hlvx (r.cb c.h 0x300 19) then (r, .exc (c.guest gpa c.tinst))
  else if !c.v && r.keyDenied c.h c.acc e.key then (r, .exc (c.exc c.acc.pageFault (some e.key)))
  else r.finishTr c (e.pa + c.va.toNat % 2 ^ e.lg) e.pbmt size

/-- Translate and check one access (R93). `ex` is the effective privilege, `v` the effective V, `hlv` an HLV or HSV. -/
def Run.translate (r : Run s0) (h : Nat) (acc : Acs) (prv : Nat) (v hlv hlvx : Bool) (tinst : Nat) (va0 : Word) (size : Nat) : Run s0 × Tr :=
  let atp := if v then r.csr h 0x280 else r.csr h 0x180
  let n := if prv = 3 then 0 else levelsOf (Word.bits atp 63 60)
  let va := if acc = .fetch then va0 else r.maskPointer h prv v hlv hlvx (n = 0) va0
  let c : Ctx := { h := h, acc := acc, prv := prv, v := v, hlvx := hlvx, tinst := tinst, va := va }
  if prv = 3 then r.finishTr c va.toNat 0 size
  else if n = 0 ∧ !v then r.finishTr c va.toNat 0 size
  else
    let width := 12 + 9 * n
    let canon := n = 0 ∨ (va.toNat / 2 ^ (width - 1) = 0 ∨ va.toNat / 2 ^ (width - 1) = 2 ^ (65 - width) - 1)
    if !canon then (r, .exc (c.exc acc.pageFault))
    else match (if v then none else r.reachHit h va.toNat) with
      | some k =>
        let r := r.tally h 0x0044 1
        let a := r.csr h (0x5E0 + k)
        let lg := Word.bits a 55 50
        let s := r.sumMxr h v
        if !permOk a.toNat acc prv s.1 s.2 hlvx then (r, .exc (c.exc acc.pageFault))
        else if r.keyDenied h acc (Word.bits a 60 57) then (r, .exc (c.exc acc.pageFault (some (Word.bits a 60 57))))
        else r.finishTr c ((r.csr h (0x5D8 + k)).toNat / 2 ^ lg * 2 ^ lg + va.toNat % 2 ^ lg) (Word.bits a 62 61) size
      | none =>
        let asid := Word.bits atp 59 44
        let vmid := if v then r.cf h 0x680 57 44 else 0
        let mode := Word.bits atp 63 60
        let gmode := if v then r.cf h 0x680 63 60 else 0
        match r.tlbHit h v mode gmode asid vmid va.toNat with
        | some e => r.useEntry c e size
        | none =>
          let keys := !v && r.cb h 0x5C9 0
          let p : Run s0 × Walk := if n = 0 then (r, .leaf 0xDF 12 va.toNat)
            else (r.tally h 0x0042 1).walkFrom c mode asid vmid keys n (Word.bits atp 43 0 * 4096)
          match p.2 with
          | .exc x => (p.1, .exc x)
          | .poison l => (p.1, .poison l)
          | .leaf pte lg ipa =>
            let key := if keys then natBits pte 60 57 else 0
            let u := if n = 0 then natSetBits pte 4 4 (if prv = 0 then 1 else 0) else pte
            if !v then
              let e : TlbEntry := { leaf := true, v := false, glob := natBit pte 5, mode := mode, slg := lg, asid := asid, vmid := 0, lg := lg, va := va.toNat / 2 ^ lg, pa := leafPa pte lg 0, gpa := 0, perm := BitVec.ofNat 8 u, gperm := 0, pbmt := natBits pte 62 61, key := key, fetch := acc == .fetch, gstage := false }
              (p.1.addTlb h e).useEntry c e size
            else
              let s := r.sumMxr h v
              let a := natBit u 6 && (acc != .store || natBit u 7)
              if !permOk u acc prv s.1 s.2 hlvx || !a then (p.1, .exc (c.exc acc.pageFault))
              else
                let g := p.1.gTranslate c ipa tinst
                match g.2 with
                | .exc x => (g.1, .exc x)
                | .poison l => (g.1, .poison l)
                | .leaf gp glg pa =>
                  let k := min lg glg
                  let e : TlbEntry := { leaf := true, v := true, glob := n != 0 && natBit pte 5, asid := asid, vmid := vmid, lg := k, va := va.toNat / 2 ^ k, mode := mode, gmode := gmode, slg := lg, glg := glg, pa := pa / 2 ^ k * 2 ^ k, gpa := ipa / 2 ^ k * 2 ^ k, perm := BitVec.ofNat 8 u, gperm := BitVec.ofNat 8 gp, pbmt := if natBits pte 62 61 = 0 then natBits gp 62 61 else natBits pte 62 61, key := 0, fetch := acc == .fetch, gstage := false }
                  (if n = 0 then g.1 else g.1.addTlb h e).useEntry c e size

/-- The effective privilege and V of an explicit data access: MPRV in M-mode, SPVP for HLV and HSV (R124). -/
def Run.effective (r : Run s0) (h : Nat) (hlv : Bool) : Nat × Bool :=
  let md := (r.hart h).mode
  if hlv then (r.cf h 0x600 8 8, true)
  else if (md = .m ∨ md = .debug) ∧ r.cb h 0x300 17 ∧ (md = .m ∨ r.cb h 0x7B0 4) then (r.cf h 0x300 12 11, r.cb h 0x300 39 && r.cf h 0x300 12 11 != 3)
  else (md.prv, md.virt)

/-- Remove entries of a hart that a predicate names (R112, R116). -/
def Run.dropTlb (r : Run s0) (h : Nat) (f : TlbEntry → Bool) : Run s0 :=
  (r.modHart h fun t => { t with tlb := t.tlb.filter fun e => !f e }).dropOps fun o => o.key == .walk h || o.key == .fetch h

end Sys2Proof.Machine
end

