-- ==== Sys2Proof/Machine/Tile.lean ====
section
/-! DEFINITION. Tiles and their L3 quadrants: merging buffers, miss registers, the quadrant's service of its tiles, evictions,
snoops and stash offers at a die (R23, R26, R127 to R137, R147 to R156, R169, R172 to R177). A transaction between a tile and
its quadrant that waits for nothing outside the die is one action (DESIGN CHOICE, log entry 9). -/
namespace Sys2Proof.Machine

variable {s0 : State}

/-- What is to be done next within a die, in order. -/
inductive Todo
  | launch (n : Nat) (l : LineAddr)
  | quad (n : Nat) (l : LineAddr) (k : MsgKind)
  | serve (n : Nat) (l : LineAddr)
  | hart (h : Nat)
  | smb (n : Nat)
  | retry (q : Nat)
  | release (d : Nat) (l : LineAddr)
deriving DecidableEq, Repr

/-- The domain of a tile (R424). -/
def domTile (n : Nat) : Nat := n / 16 * 21 + n % 16

/-- The domain of an L3 quadrant (R424). -/
def domQuad (d q : Nat) : Nat := d * 21 + 16 + q

/-- The L2 of a tile is disabled (R156). -/
def Run.l2Off (r : Run s0) (n : Nat) : Bool := r.on (L2CTL_STATUS_DISABLED n)

/-- The quadrant of a line on a die is disabled, or its disable is pending: it allocates nothing (R155, R156). -/
def Run.l3Off (r : Run s0) (d : Nat) (l : LineAddr) : Bool :=
  r.bit (L3_STATUS_DISABLED d) (quadOf l) || r.bit (L3_STATUS_CACHE_DISABLE_PENDING d) (quadOf l)

/-- The home of a die's L3 line receives it with WbKeep; the slot stays dirty, with the line in the victim buffer, until the home has
acknowledged it (R145, R171). -/
def Run.keepOut (r : Run s0) (d w : Nat) (s : L3Slot) : Run s0 :=
  let st : St := if s.st = .O then .S else .E
  let r := r.modQuad (d * 4 + quadOf s.line) fun x =>
    { x with vict := x.vict ++ [{ line := s.line, st := st, data := s.data, poison := s.poison, keep := true }] }
  r.send { kind := .wbKeep, src := .die (Fin.ofNat 16 d), dst := homeOf s.line, line := s.line, way := Fin.ofNat 16 w, data := s.data, poison := s.poison, st := st }

/-- A WbKeep of a line no longer makes its slot clean: the slot's state or data has changed meanwhile (R171). -/
def Run.keepStale (r : Run s0) (d : Nat) (l : LineAddr) : Run s0 :=
  if (r.quad (d * 4 + quadOf l)).vict.any fun v => v.line = l ∧ v.keep = true ∧ ¬ v.surrendered then
    r.modQuad (d * 4 + quadOf l) fun x => { x with vict := x.vict.map fun v => if v.line = l ∧ v.keep = true then { v with surrendered := true } else v }
  else r

/-- Data that a tile returns enters the die's L3 (R158, R172). -/
def Run.l3TakeDirty (r : Run s0) (d : Nat) (l : LineAddr) (data : LineData) (poison : Bool) : Run s0 :=
  match r.l3Find d l with
  | some (w, s) => (r.l3Write d w { s with st := s.st.withDirty, data := data, poison := poison, flip := none } false).keepStale d l
  | none => r

/-- Deliver a tile's EvM or EvC for a line to its quadrant (R172): the core-valid bit clears, dirty data enters the L3, and the
victim-buffer entry is freed. While the quadrant's disable is pending the line is written on, so that it stays clean (R155). -/
def Run.tileEvict (r : Run s0) (m : Msg) (n : Nat) : Run s0 :=
  let d := dieOf n
  let r := (r.take m).cvClear d m.line (n % 16)
  if m.kind = .evM then
    let held := ((r.tile n).vict.find? fun v => v.line = m.line).map (·.surrendered)
    let r := if held = some false then r.l3TakeDirty d m.line m.data m.poison else r
    let q := r.quad (d * 4 + quadOf m.line)
    let r := if held = some false ∧ r.bit (L3_STATUS_CACHE_DISABLE_PENDING d) (quadOf m.line) ∧ q.vict.length < 32 ∧ !q.vict.any (·.line = m.line) then
        (match r.l3Find d m.line with
          | some (w, s) => if s.cv = 0 then r.keepOut d w s else r
          | none => r) else r
    r.modTile n fun t => { t with vict := t.vict.filter (·.line ≠ m.line) }
  else r

/-- A tile's eviction of a line that is still in flight to its quadrant is delivered now. -/
def Run.flushEv (r : Run s0) (n : Nat) (l : LineAddr) : Run s0 :=
  match r.1.net.find? fun m => (m.kind = .evM ∨ m.kind = .evC) ∧ m.src = .tile (Fin.ofNat 256 n) ∧ m.line = l with
  | some m => r.tileEvict m n
  | none => r

/-- Every eviction of a line in flight within a die is delivered (R174). -/
def Run.flushDie (r : Run s0) (d : Nat) (l : LineAddr) : Run s0 := (List.range 16).foldl (fun r t => r.flushEv (d * 16 + t) l) r

/-- An L2 slot is vacated: L1 copies are invalidated first, a dirty line enters the victim buffer and EvM leaves, a clean one
is notified with EvC (R127). A full victim buffer sends its oldest line first. -/
def Run.l2Evict (r : Run s0) (n w : Nat) (s : L2Slot) : Run s0 :=
  let r := r.l2Check n s.line
  let s := ((r.l2Slot (l2Key n s.line w))).getD { s with st := .I }
  let r := (r.l1Drop n s.line).setL2Slot (l2Key n s.line w) none
  let m : Msg := { kind := .evC, src := .tile (Fin.ofNat 256 n), dst := .die (Fin.ofNat 16 (dieOf n)), line := s.line }
  if s.st = .M then
    let r := if 16 ≤ (r.tile n).vict.length then match (r.tile n).vict.head? with
      | some v => r.flushEv n v.line
      | none => r else r
    let a := n % 16 * 8 + 7
    let p := r.armTake (dieOf n) a
    let v : Victim := { line := s.line, st := .M, data := s.data, poison := s.poison, flip := mkFlip 0 64 8 p.2 }
    let q := p.1.victCheck (.tile n) a 0x0110 0x0112 v
    (q.1.modTile n fun t => { t with vict := t.vict ++ [q.2] }).send { m with kind := .evM, data := q.2.data, poison := q.2.poison }
  else if s.st = .I then r else r.send m

/-- A way of a line's L2 set is named for an accepted stash of another line, or its line has a request in flight (R153). -/
def Run.l2Taken (r : Run s0) (n : Nat) (l : LineAddr) (w : Nat) : Bool :=
  (r.tile n).stash.any (fun x => x.1 ≠ l ∧ l2Key n x.1 x.2 = l2Key n l w) || match r.l2Slot (l2Key n l w) with
    | some s => (r.tile n).miss.any (·.line = s.line)
    | none => false

/-- Choose an L2 way for a line: the one that its stash offer named, an empty one, else the tree's victim, else the first way that is
not taken. -/
def Run.l2Pick (r : Run s0) (n : Nat) (l : LineAddr) : Nat :=
  let v := plruVictim 3 (r.plruBits (2 ^ 21 + n * 2048 + l.toNat % 2048))
  let free := (List.range 8).filter fun w => !r.l2Taken n l w
  match (r.tile n).stash.find? fun x => x.1 = l with
  | some x => x.2
  | none => match free.find? fun w => (r.l2Slot (l2Key n l w)).isNone with
    | some w => w
    | none => if v ∈ free then v else free.headD v

/-- A tile's L2 receives a line, or a state for the copy it holds. -/
def Run.l2Fill (r : Run s0) (n : Nat) (l : LineAddr) (st : St) (data : LineData) (poison : Bool) : Run s0 :=
  match r.l2Find n l with
  | some (w, s) => (r.setL2Slot (l2Key n l w) (some { s with st := st, data := data, poison := poison, flip := none })).l2Touch n l w
  | none =>
    let w := r.l2Pick n l
    let r := match r.l2Slot (l2Key n l w) with
      | some s => r.l2Evict n w s
      | none => r
    (r.l2Write n w { line := l, st := st, data := data, poison := poison } 0 true).l2Touch n l w

/-- A load or fetch fills its L1 (R128); a disabled L2 or quadrant lets none be allocated (R156). -/
def Run.l1Fill (r : Run s0) (n : Nat) (l : LineAddr) (inst : Bool) : Run s0 :=
  if r.l2Off n || r.l3Off (dieOf n) l then r
  else
    let base := (if inst then 0 else 2 ^ 20) + n * 64 + l.toNat % 64
    let get (r : Run s0) (w : Nat) := if inst then r.l1iSlot (l1Key n l w) else r.l1dSlot (l1Key n l w)
    let hit := if inst then r.l1iFind n l else r.l1dFind n l
    let w := match hit with
      | some w => w
      | none => ((List.range 16).find? fun w => (get r w).isNone).getD (plruVictim 4 (r.plruBits base))
    let r := r.modPlruBits base fun b => plruTouch 4 b w
    if hit.isSome then r
    else
      let a := n % 16 * 8 + (if inst then 0 else 2)
      let p := r.armTake (dieOf n) a
      let q := p.1.armTake (dieOf n) (a + 1)
      let s : L1Slot := { line := l, flip := mkFlip (0 : Nat) (if inst then 32 else 8) (if inst then 1 else 5) p.2, tagFlip := (mkFlip 0 64 9 q.2).isSome }
      if inst then q.1.setL1iSlot (l1Key n l w) (some s) else q.1.setL1dSlot (l1Key n l w) (some s)

/-- The L1D is read for a line: a stored error is corrected, or the copy invalidated and loaded again from L2 (R135). -/
def Run.l1dCheck (r : Run s0) (n : Nat) (l : LineAddr) : Run s0 :=
  match r.l1dFind n l with
  | none => r
  | some w => match r.l1dSlot (l1Key n l w) with
    | none => r
    | some s =>
      let a := n % 16 * 8 + 2
      let x : Rec := { event := 0x0110, cls := .ce, addr := some (l.toNat * 64), detail := arrayDetail (l.toNat % 64) w 0 0 0 }
      if s.tagFlip then
        (r.setL1dSlot (l1Key n l w) none).logCe (.tile n) (dieOf n) (a + 1) 1 (w * 2 ^ 26 + l.toNat % 64) { x with event := 0x0111, addr := none, syn := 4 }
      else match s.flip with
        | none => r
        | some f =>
          if f.synclass = 3 then (r.setL1dSlot (l1Key n l w) none).logCe (.tile n) (dieOf n) a 0 l.toNat { x with event := 0x0111, syn := 3 }
          else (r.setL1dSlot (l1Key n l w) (some { s with flip := none })).logCe (.tile n) (dieOf n) a 0 l.toNat { x with syn := f.synclass }

/-- The L1I is read for a line: a copy with a parity error is invalidated, to be fetched again from L2 (R135). Parity sees an odd number of
flipped bits. -/
def Run.l1iCheck (r : Run s0) (n : Nat) (l : LineAddr) : Run s0 :=
  match r.l1iFind n l with
  | none => r
  | some w => match r.l1iSlot (l1Key n l w) with
    | none => r
    | some s =>
      let a := n % 16 * 8
      let bad := s.flip.any fun f => decide ((ones f.d + ones f.c) % 2 = 1)
      let x : Rec := { event := 0x0111, cls := .ce, syn := 4, detail := arrayDetail (l.toNat % 64) w ((s.flip.map (·.idx)).getD 0) 0 0 }
      if s.tagFlip then (r.setL1iSlot (l1Key n l w) none).logCe (.tile n) (dieOf n) (a + 1) 1 (w * 2 ^ 26 + l.toNat % 64) x
      else if bad then (r.setL1iSlot (l1Key n l w) none).logCe (.tile n) (dieOf n) a 0 l.toNat { x with addr := some (l.toNat * 64) }
      else r

/-- A store's bytes enter the L1D copy of its line with new check bits (R128, R131, R475), and the L1I copy is invalidated (R58). -/
def Run.l1Store (r : Run s0) (n : Nat) (l : LineAddr) (mask : BitVec 64) : Run s0 :=
  let r := match r.l1iFind n l with
    | some w => r.setL1iSlot (l1Key n l w) none
    | none => r
  match r.l1dFind n l with
  | none => r
  | some w => match r.l1dSlot (l1Key n l w) with
    | none => r
    | some s =>
      let p := r.armTake (dieOf n) (n % 16 * 8 + 2)
      let f := match mkFlip (((List.range 64).find? fun i => mask.getLsbD i).getD 0) 8 5 p.2 with
        | some f => some f
        | none => s.flip.filter fun g => !mask.getLsbD g.idx
      p.1.setL1dSlot (l1Key n l w) (some { s with flip := f })

/-- A store writes bytes at the L2 ordering point (R26): the line becomes M, the tile's L1 copies follow (R58, R128), reservations on it
are lost (R528), and while a disable is pending the line is written on to the L3 and stays clean (R155). -/
def Run.l2Store (r : Run s0) (n : Nat) (l : LineAddr) (data : LineData) (mask : BitVec 64) (zero : Bool) (poison : Bool) : Run s0 :=
  match r.l2Find n l with
  | none => r
  | some (w, s) =>
    let d := mergeBytes s.data data mask
    let bad := (s.poison && !zero) || poison
    let r := (r.loseResv l).l1Store n l mask
    let r := if bad && !s.poison then r.l1Drop n l else r
    let i := (((List.range 64).find? fun i => mask.getLsbD i).getD 0) / 8
    if r.on (L2CTL_STATUS_CACHE_DISABLE_PENDING n) then
      (r.l2Write n w { s with data := d, poison := bad, st := .E } i false).l3TakeDirty (dieOf n) l d bad
    else r.l2Write n w { s with data := d, poison := bad, st := .M } i false

/-- Whether a tile's L2 holds a line with the permission asked for. -/
def Run.l2Has (r : Run s0) (n : Nat) (l : LineAddr) (own : Bool) : Bool :=
  match r.l2St n l with
  | .M => true
  | .E => true
  | .I => false
  | _ => !own

/-- The hart that a want is for. -/
def Want.who : Want → Option Nat
  | .hart h | .drain h | .fetch h | .walk h => some h
  | .prefetch _ | .stride => none

/-- Something waits for a line at a tile (R132): it joins the line's miss register or takes one, a primary miss of its hart (R484). -/
def Run.miss (r : Run s0) (n : Nat) (l : LineAddr) (own claim : Bool) (w : Want) : Run s0 :=
  let new := !(r.tile n).miss.any (·.line = l)
  let r := match w.who with
    | some h => if new then (if r.l2Off n then (r.tally h 0x0023 1).tally h 0x0026 1 else r.tally h 0x0023 1) else r
    | none => r
  r.modTile n fun t =>
    if t.miss.any (·.line = l) then
      { t with miss := t.miss.map fun m => if m.line = l ∧ w ∉ m.want then { m with want := m.want ++ [w] } else m }
    else { t with miss := t.miss ++ [{ line := l, own := own, claim := claim, want := [w] }] }

/-- The lines for which a tile's L1I holds a miss register (R132): those that a fetch or PREFETCH.I waits for. -/
def Run.l1iMisses (r : Run s0) (n : Nat) : List LineAddr :=
  ((r.tile n).miss.filter fun m => m.want.any fun w => match w with
    | .fetch _ => true
    | .prefetch i => i
    | _ => false).map (·.line)

/-- A miss register of a tile's L1I is free for a line, or holds it (R134). -/
def Run.l1iRoom (r : Run s0) (n : Nat) (l : LineAddr) : Bool := decide (l ∈ r.l1iMisses n ∨ (r.l1iMisses n).length < 8)

/-- The permission that what waits at a miss register needs in all. -/
def MissReg.needsOwn (r : Run s0) (m : MissReg) : Bool :=
  m.want.any fun w => match w with
    | .hart h => (match (r.hart h).wait with
        | some (.line a) => (match a.op with
            | .load _ _ => false
            | .lr _ => false
            | _ => true)
        | _ => false)
    | .drain _ => true
    | .prefetch _ | .stride => m.own
    | _ => false

/-- Send the request of a tile's miss register to the quadrant; at most 48 are out at once (R134). -/
def Run.doLaunch (r : Run s0) (n : Nat) (l : LineAddr) : Run s0 × List Todo :=
  let t := r.tile n
  match t.miss.find? (·.line = l) with
  | none => (r, [])
  | some m =>
    if m.sent || 48 ≤ (t.miss.filter (·.sent)).length then (r, [])
    else
      let r := r.flushEv n l
      let r := r.modTile n fun t => { t with miss := t.miss.map fun x => if x.line = l then { x with sent := true } else x }
      let k : MsgKind := if !m.own then .rdS else if r.l2St n l = .S then .upg else if m.claim then .claim else .rdX
      (r, [.quad n l k])

/-- The bytes that a hart's own stores give a part of an access (R27): merging-buffer entries, then the store queue. -/
def Run.forward (r : Run s0) (h : Nat) (p : Part) : Nat × Nat :=
  let t := r.tile (tileOf h)
  let lay (acc : Nat × Nat) (data : LineData) (mask : BitVec 64) : Nat × Nat :=
    (List.range p.len).foldl (fun a k =>
      if mask.getLsbD (p.off + k) then
        (natSetBits a.1 (8 * (p.pos + k) + 7) (8 * (p.pos + k)) (data.extractLsb' (8 * (p.off + k)) 8).toNat, natSetBits a.2 (p.pos + k) (p.pos + k) 1)
      else a) acc
  let a := t.smb.foldl (fun a e => if e.hart = h ∧ e.line = p.line then lay a e.data e.mask else a) (0, 0)
  t.sq.foldl (fun a e => if e.hart = h ∧ e.line = p.line then lay a e.data e.mask else a) a

/-- The bytes of a part read from a line, those already forwarded kept. -/
def gather (got : BitVec 128) (fwd : Nat) (p : Part) (data : LineData) : BitVec 128 :=
  BitVec.ofNat 128 ((List.range p.len).foldl (fun a k =>
    if natBit fwd (p.pos + k) then a
    else natSetBits a (8 * (p.pos + k) + 7) (8 * (p.pos + k)) (data.extractLsb' (8 * (p.off + k)) 8).toNat) got.toNat)

/-- A part's bytes were all forwarded. -/
def Part.covered (p : Part) (fwd : Nat) : Bool := (List.range p.len).all fun k => natBit fwd (p.pos + k)

/-- A value of 2^lg bytes, sign-extended to 64 bits unless unsigned. -/
def extend (v : BitVec 128) (lg : Nat) (uns : Bool) : Word :=
  let n := v.toNat % 256 ^ 2 ^ lg
  if !uns && lg < 3 && natBit n (8 * 2 ^ lg - 1) then BitVec.ofNat 64 (n + (2 ^ 64 - 2 ^ (8 * 2 ^ lg))) else BitVec.ofNat 64 n

/-- Write the destination of a load: an x register extended, an f register NaN-boxed, a vector element. -/
def Run.writeDest (r : Run s0) (h : Nat) (rd : Dest) (v : BitVec 128) (lg : Nat) (uns : Bool) : Run s0 :=
  match rd with
  | .x i => r.setXr h i (extend v lg uns)
  | .f i => r.setF (h * 32 + i) (if lg < 3 then BitVec.ofNat 64 (v.toNat % 256 ^ 2 ^ lg + (2 ^ 64 - 2 ^ (8 * 2 ^ lg))) else v.truncate 64)
  | .v i e => r.modV (h * 32 + i) fun o =>
      let w := 8 * 2 ^ lg
      let s := e.val * w % 256
      (o &&& ~~~ (((BitVec.allOnes 256) >>> (256 - w)) <<< s)) ||| (((v.zeroExtend 256 <<< (256 - w)) >>> (256 - w)) <<< s)

/-- An AMO's result in memory (A, Zabha, Zacas): operation on the old value of 2^lg bytes, operand and compare operand. -/
def amoResult (op : AmoOp) (lg : Nat) (old a b : BitVec 128) : BitVec 128 :=
  let m := 256 ^ 2 ^ lg
  let o := old.toNat % m
  let x := a.toNat % m
  let sgn (n : Nat) : Int := if natBit n (8 * 2 ^ lg - 1) then (n : Int) - m else n
  BitVec.ofNat 128 (match op with
    | .swap => x
    | .add => (o + x) % m
    | .xor => o ^^^ x
    | .and => o &&& x
    | .or => o ||| x
    | .min => if sgn o ≤ sgn x then o else x
    | .max => if sgn o ≤ sgn x then x else o
    | .minu => min o x
    | .maxu => max o x
    | .cas => if o = b.toNat % m then x else o)

/-- An AMO writes its destination: sign-extended; the 128-bit AMOCAS writes an even-odd pair. -/
def Run.writeAmo (r : Run s0) (h rd lg : Nat) (old : BitVec 128) : Run s0 :=
  if lg = 4 then (if rd = 0 then r else (r.setXr h rd (old.extractLsb' 0 64)).setXr h (rd + 1) (old.extractLsb' 64 64))
  else r.setXr h rd (extend old lg false)

/-- mdwerr.SRC of an access (R463). -/
def MemOp.src : MemOp → Nat
  | .load (.v _ _) _ => 4
  | .amo _ _ _ _ => 1
  | _ => 0

/-- A hart reserves a line (R528), and its tile delays snoops of it (R186). -/
def Run.reserve (r : Run s0) (h : Nat) (l : LineAddr) : Run s0 := r.modHart h fun t => { t with resv := some l, lrDelay := some l }

/-- An access has gathered every byte it reads: its destination is written and it retires. -/
def Run.finishAcc (r : Run s0) (h : Nat) (a : Acc) (l : LineAddr) : Run s0 :=
  match a.op with
  | .load rd uns => (r.writeDest h rd a.got a.lg uns).retire h
  | .lr rd => ((r.setXr h rd (extend a.got a.lg false)).reserve h l).retire h
  | _ => r

/-- The permission that an access needs on its line. -/
def MemOp.owns : MemOp → Bool
  | .sc _ _ => true
  | .amo _ _ _ _ => true
  | _ => false

/-- The first part of a hart's access is performed on its line, which the L2 holds with the permission needed. A load that hits in L1D
reads it alone; any other access reads the L2, which may give the line up (R135, R475). -/
def Run.perform (r : Run s0) (n h : Nat) (a : Acc) (p : Part) (rest : List Part) : Run s0 × List Todo :=
  let r := r.l1dCheck n p.line
  let held := (r.l1dFind n p.line).isSome
  let r := if (r.l1dFind n p.line).isSome && !a.op.owns then r else r.l2Look n p.line
  match r.l2Find n p.line with
  | none => (r.miss n p.line a.op.owns false (.hart h), [.launch n p.line])
  | some (w, s) =>
    let r := r.l2Touch n p.line w
    let reads := !p.covered a.fwd
    match a.op with
    | .sc rd v =>
      if (r.hart h).resv = some p.line then
        let data := lineBytes p.off p.len v.toNat
        let r := r.l2Store n p.line data (spanMask p.off p.len) false false
        (((r.setXr h rd 0).modHart h fun t => { t with resv := none, lrDelay := none }).retire h, [])
      else ((((r.setXr h rd 1).modHart h fun t => { t with resv := none, lrDelay := none }).tally h 0x0052 1).retire h, [])
    | .amo rd op x y =>
      if s.poison then (r.consume h 1 p.line a.va, [])
      else
        let old := gather 0 0 p s.data
        let v := amoResult op a.lg old x y
        let r := r.l2Store n p.line (lineBytes p.off p.len v.toNat) (spanMask p.off p.len) false false
        (((r.writeAmo h rd a.lg old).tally h 0x0050 1).retire h, [])
    | _ =>
      if s.poison && reads then (r.consume h a.op.src p.line a.va, [])
      else
        let r := (if held then r else r.tally h 0x0021 1).l1Fill n p.line false
        let a := { a with got := gather a.got a.fwd p s.data, parts := rest }
        match rest with
        | [] => (r.finishAcc h a p.line, [])
        | _ => (r.modHart h fun t => { t with wait := some (.line a) }, [.hart h])

/-- A hart has a store in its queue, merging buffer, or on its way to the home (R187), to one of some lines or to any. -/
def Run.storesLeft (r : Run s0) (h : Nat) (ls : Option (List LineAddr)) : Bool :=
  let t := r.tile (tileOf h)
  let named (l : LineAddr) : Bool := match ls with
    | none => true
    | some ls => decide (l ∈ ls)
  t.smb.any (fun e => e.hart == h && named e.line) || t.sq.any (fun e => e.hart == h && named e.line) || (r.hart h).ncOut.any named

/-- The merging-buffer entry is read for its drain: errors of its codes are corrected, or the line is poisoned (R135). -/
def Run.smbCheck (r : Run s0) (n : Nat) (e : SmbEntry) : Run s0 × Bool :=
  match e.flip with
  | none => (r, false)
  | some f =>
    let a := n % 16 * 8 + 4
    let x : Rec := { event := 0x0110, cls := .ce, addr := some (e.line.toNat * 64), syn := f.synclass, detail := arrayDetail 0 0 f.idx 0 0 }
    if f.synclass = 3 then (r.logRec (.tile n) { x with event := 0x0112, cls := .ucna, sub := a, poisoned := true }, true)
    else (r.logCe (.tile n) (dieOf n) a 0 e.line.toNat x, false)

/-- Drain an entry whose line the L2 owns, once the L2 has been read for it: its bytes are written and the entry freed (R26 step 4). -/
def Run.drainEntry (r : Run s0) (n : Nat) (e : SmbEntry) : Run s0 :=
  let p := r.smbCheck n e
  let r := p.1.l2Store n e.line e.data e.mask e.zero p.2
  r.modTile n fun t => { t with smb := t.smb.filter fun x => !(x.hart == e.hart && x.line == e.line) }

/-- A store's bytes enter the merging buffer: the entry of the same hart for the line, or a new one (R26, R129). An entry with all
its bytes starts to drain (R130); an armed injection is taken by the write (R474). -/
def Run.smbPut (r : Run s0) (n : Nat) (e : SqEntry) : Run s0 :=
  let p := r.armTake (dieOf n) (n % 16 * 8 + 4)
  let f := mkFlip (((List.range 64).find? fun i => e.mask.getLsbD i).getD 0) 8 5 p.2
  p.1.modTile n fun t =>
    if t.smb.any fun x => x.hart == e.hart && x.line == e.line then
      { t with smb := t.smb.map fun x => if x.hart = e.hart ∧ x.line = e.line then
          let m := x.mask ||| e.mask
          { x with data := mergeBytes x.data e.data e.mask, mask := m, zero := x.zero || e.zero,
                   draining := x.draining || e.draining || m == BitVec.allOnes 64,
                   flip := if f.isSome then f else x.flip.filter fun g => !e.mask.getLsbD g.idx } else x }
    else { t with smb := t.smb ++ [{ hart := e.hart, line := e.line, data := e.data, mask := e.mask, zero := e.zero,
                                     draining := e.draining || e.mask == BitVec.allOnes 64, flip := f }] }

/-- The merging buffer takes a store of a hart for a line: into its entry, or into a free one. -/
def Tile.takes (t : Tile) (e : SqEntry) : Bool := t.smb.any (fun x => x.hart == e.hart && x.line == e.line) || decide (t.smb.length < 16)

/-- Draining entries go on: those whose line is owned are written, the others ask for ownership; then queued stores move in, and
while none can the oldest entry drains (R130). -/
def Run.doSmb (r : Run s0) (n : Nat) : Run s0 × List Todo :=
  let es := (r.tile n).smb.filter (·.draining)
  let p := es.foldl (fun (p : Run s0 × List Todo) e =>
    let r := p.1.l2Look n e.line
    if r.l2Has n e.line true then (r.drainEntry n e, p.2 ++ [.hart e.hart])
    else (r.miss n e.line true e.zero (.drain e.hart), p.2 ++ [.launch n e.line])) (r, [])
  let t := p.1.tile n
  match t.sq, t.smb with
  | [], _ => p
  | e :: q, smb =>
    if t.takes e then ((p.1.modTile n fun t => { t with sq := q }).smbPut n e, p.2 ++ [.smb n])
    else match smb with
      | x :: xs => if x.draining then p else (p.1.modTile n fun t => { t with smb := { x with draining := true } :: xs }, p.2 ++ [.smb n])
      | [] => p

/-- A fetch's line has come (R128, R135): the L1I is filled. The fetch itself, and what it meets in a poisoned line (R25), is the hart's
next one. -/
def Run.fetched_ (r : Run s0) (n : Nat) (l : LineAddr) : Run s0 :=
  let r := r.l2Look n l
  match r.l2Find n l with
  | some (_, s) => if s.poison then r else r.l1Fill n l true
  | none => r

/-- A hart's walk has its line (R113): the answer waits for the command that walks. -/
def Run.walked (r : Run s0) (n h : Nat) (l : LineAddr) : Run s0 :=
  let r := r.l2Look n l
  match r.l2Find n l with
  | some (_, s) => r.act (.ops (r.1.ops.map fun o => if o.key = .walk h ∧ o.line = l ∧ o.got = none then { o with got := some (s.data, s.poison) } else o))
  | none => r

/-- A line has arrived at a tile: what waits for it is served in order; what still lacks ownership asks for it as an upgrade
(R132). A disabled L2 then gives the line up (R156). -/
def Run.doServe (r : Run s0) (n : Nat) (l : LineAddr) : Run s0 × List Todo :=
  match (r.tile n).miss.find? (·.line = l) with
  | none => (r, [])
  | some m =>
    let r := r.modTile n fun t => { t with miss := t.miss.filter (·.line ≠ l) }
    let p := m.want.foldl (fun (p : Run s0 × List Todo × List Want) w =>
      match w with
      | .prefetch i => (if i then p.1.l1Fill n l true else p.1, p.2.1, p.2.2)
      | .stride => (p.1.l1Fill n l false, p.2.1, p.2.2)
      | .fetch _ => (p.1.fetched_ n l, p.2.1, p.2.2)
      | .walk h => (p.1.walked n h l, p.2.1, p.2.2)
      | .drain h =>
        match (p.1.tile n).smb.find? fun e => e.hart == h && e.line == l with
        | none => p
        | some e =>
          let r := p.1.l2Look n l
          if r.l2Has n l true then (r.drainEntry n e, p.2.1 ++ [.hart h, .smb n], p.2.2) else (r, p.2.1, p.2.2 ++ [w])
      | .hart h =>
        match (p.1.hart h).wait with
        | some (.line a) => match a.parts with
          | q :: rest => if q.line = l then
              if p.1.l2Has n l a.op.owns then
                let x := p.1.perform n h a q rest
                (x.1, p.2.1 ++ x.2, p.2.2)
              else (p.1, p.2.1, p.2.2 ++ [w])
            else p
          | [] => p
        | _ => p) (r, [], [])
    let r := p.1
    let again := if p.2.2.isEmpty then r
      else r.modTile n fun t => { t with miss := t.miss ++ [{ line := l, own := true, claim := false, want := p.2.2 }] }
    let next := (again.tile n).miss.filterMap fun x => if x.sent then none else some (Todo.launch n x.line)
    let free := if p.2.2.isEmpty && (again.l2Off n || again.on (L2CTL_STATUS_CACHE_DISABLE_PENDING n)) then match again.l2Find n l with
      | some (w, s) => again.l2Evict n w s |>.flushEv n l
      | none => again else again
    (free, p.2.1 ++ next)

/-- The tiles of a die that a line's core-valid bits name, except one. -/
def namedTiles (cv : BitVec 16) (but : Option Nat) : List Nat := (List.range 16).filter fun t => cv.getLsbD t && but != some t

/-- A tile is snooped (R169): what its L2 does, and its dirty data. -/
def Run.snoopTile (r : Run s0) (n : Nat) (l : LineAddr) (k : MsgKind) : Run s0 × Option (LineData × Bool) :=
  let r := (r.tallyTile n 0x0060).l2Look n l
  match r.l2Find n l with
  | none => (r, none)
  | some (w, s) =>
    let dirty := if s.st = .M then some (s.data, s.poison) else none
    match k with
    | .snpS => ((r.setL2Slot (l2Key n l w) (some { s with st := .S })), dirty)
    | .snpCln => ((r.setL2Slot (l2Key n l w) (some { s with st := if s.st = .M then .E else s.st })), dirty)
    | .snpCur => (r, dirty)
    | .snpInv => (r.tileDrop n l, none)
    | _ => (r.tileDrop n l, dirty)

/-- A quadrant snoops tiles and takes their dirty data into its line (R169, R172); tiles that lose the line lose their
core-valid bit. -/
def Run.snoopTiles (r : Run s0) (d : Nat) (l : LineAddr) (k : MsgKind) (ts : List Nat) : Run s0 :=
  ts.foldl (fun r t =>
    let p := r.snoopTile (d * 16 + t) l k
    let r := match p.2 with
      | some x => p.1.l3TakeDirty d l x.1 x.2
      | none => p.1
    if (r.l2Find (d * 16 + t) l).isNone then r.cvClear d l t else r) r

/-- The partition of an address in a die's L3 (R147, R390). -/
def Run.partOf (r : Run s0) (d : Nat) (a : Nat) : Nat :=
  match r.ertOf a with
  | some n => r.fld (ERT_BASE_PART n)
  | none =>
    match (List.range 8).find? fun n => r.on (L3_PARTRANGE_BASE_EN d n) && decide (r.fld (L3_PARTRANGE_BASE_BASE d n) ≤ a / 2 ^ 21)
        && decide (a / 2 ^ 21 ≤ r.fld (L3_PARTRANGE_LIMIT_LIMIT d n)) with
    | none => 0
    | some n =>
      let p := r.fld (L3_PARTRANGE_BASE_PART d n)
      if (List.range 128).any fun e => r.on (ERT_BASE_EN e) && r.fld (ERT_BASE_PART e) == p then 0 else p

/-- OWNER[w] of a die's L3 (R149). -/
def Run.wayOwner (r : Run s0) (d w : Nat) : Nat := Word.bits (r.reg (L3_WAYOWNER d)) (4 * w + 3) (4 * w)

/-- A slot of a line's set has a request in flight: a miss register of the quadrant names it, or its line is being written back with
WbKeep. -/
def Run.slotBusy (r : Run s0) (d : Nat) (l : LineAddr) (w : Nat) : Bool :=
  let q := r.quad (d * 4 + quadOf l)
  q.miss.any (fun m => m.placed && l3Key d m.line m.way == l3Key d l w) || match r.l3Slot (l3Key d l w) with
    | some s => q.vict.any fun v => v.line = s.line ∧ v.keep = true
    | none => false

/-- A tile that a slot's core-valid bits name delays its answer to a recall (R186). -/
def Run.recallWaits (r : Run s0) (d : Nat) (s : L3Slot) : Bool := (namedTiles s.cv none).any fun t => r.lrDelayed (d * 16 + t) s.line

/-- A line leaves an L3: tiles are recalled first, and a dirty line enters the victim buffer and EvM or EvO leaves (R127); a
clean one is dropped without a message (R162). Answers the state of a dirty victim, else I. -/
def Run.l3Evict (r : Run s0) (d w : Nat) (s : L3Slot) : Run s0 × St :=
  let l := s.line
  let r := r.flushDie d l
  let s := (r.l3Slot (l3Key d l w)).getD s
  let r := r.snoopTiles d l .snpX (namedTiles s.cv none)
  let r := r.l3Check d l
  let s := (r.l3Slot (l3Key d l w)).getD { s with st := .I }
  let r := r.setL3Slot (l3Key d l w) none
  if s.st.dirty then
    let a := 128 + quadOf l * 3 + 2
    let p := r.armTake d a
    let v : Victim := { line := l, st := s.st, data := s.data, poison := s.poison, flip := mkFlip 0 64 8 p.2 }
    let q := p.1.victCheck (.l3 d (quadOf l)) a 0x0200 0x0201 v
    let r := q.1.modQuad (d * 4 + quadOf l) fun x => { x with vict := x.vict ++ [q.2] }
    (r.send { kind := if s.st = .O then .evO else .evM, src := .die (Fin.ofNat 16 d), dst := .home (Fin.ofNat 4 (quadOf l)), line := l,
              data := q.2.data, poison := q.2.poison, st := s.st }, s.st)
  else (r, .I)

/-- Choose the L3 way of a line of partition p (R150): an empty way locked to p, an empty unlocked way of p's WAYS, else by
replacement; `clean` restricts replacement to clean lines (R153). -/
def Run.l3Pick (r : Run s0) (d : Nat) (l : LineAddr) (p : Nat) (clean : Bool) : Option Nat :=
  let lock := r.fld (L3_WAYLOCK_LOCK d)
  let ways := r.fld (L3_PARTWAYS_WAYS d p)
  let ws := (List.range 16).filter fun w => !r.slotBusy d l w
  let empty := ws.filter fun w => (r.l3Slot (l3Key d l w)).isNone
  match empty.find? fun w => natBit lock w && r.wayOwner d w == p with
  | some w => some w
  | none => match empty.find? fun w => natBit ways w && !natBit lock w with
    | some w => some w
    | none =>
      let c := ws.filter fun w => natBit ways w && !natBit lock w && (match r.l3Slot (l3Key d l w) with
        | some s => !(clean && (s.st.dirty || (namedTiles s.cv none).any fun t => r.l2St (d * 16 + t) s.line == .M))
        | none => false)
      let age (w : Nat) := ((r.l3Slot (l3Key d l w)).map (·.rrpv)).getD 0
      match c with
      | [] => none
      | w :: _ => some (c.foldl (fun b x => if age b < age x then x else b) w)

/-- Lines of a set age until one reaches 3 (2-bit re-reference prediction; PRESUMED form, log entry 7). -/
def Run.l3Age (r : Run s0) (d : Nat) (l : LineAddr) (by_ : Nat) : Run s0 :=
  if by_ = 0 then r else
  (List.range 16).foldl (fun r w => match r.l3Slot (l3Key d l w) with
    | some s => r.setL3Slot (l3Key d l w) (some { s with rrpv := min 3 (s.rrpv + by_) })
    | none => r) r

/-- A hit makes a line near. -/
def Run.l3Touch (r : Run s0) (d : Nat) (l : LineAddr) : Run s0 :=
  match r.l3Find d l with
  | some (w, s) => if s.rrpv = 0 then r else r.setL3Slot (l3Key d l w) (some { s with rrpv := 0 })
  | none => r

/-- A tile's request waits at its quadrant's input. -/
def Run.quadWait (r : Run s0) (q n : Nat) (l : LineAddr) (k : MsgKind) : Run s0 :=
  r.modQuad q fun x => if (n, l, k) ∈ x.waiting then x else { x with waiting := x.waiting ++ [(n, l, k)] }

/-- The hart for which a tile first asked for a line, for the decoder's record (R527). -/
def Run.asker (r : Run s0) (n : Nat) (l : LineAddr) : Option (Fin 1024) :=
  match (r.tile n).miss.find? (·.line = l) with
  | none => none
  | some m => m.want.findSome? fun w => w.who.map fun h => Fin.ofNat 1024 h

/-- Change the miss register of a line. -/
def Run.modMiss (r : Run s0) (qk : Nat) (l : LineAddr) (f : QMiss → QMiss) : Run s0 :=
  r.modQuad qk fun x => { x with miss := x.miss.map fun m => if m.line = l then f m else m }

/-- A die's request for a line goes to its home, with the way it names and, for a slot whose line went to the victim buffer, that
line's state (R162, R163; DEDUCED, log entry 10). -/
def Run.quadSend (r : Run s0) (d : Nat) (x : QMiss) (w : Nat) (st : St) : Run s0 :=
  let who := x.tiles.findSome? fun p => r.asker p.1 x.line
  (r.modMiss (d * 4 + quadOf x.line) x.line fun m => { m with way := w, placed := true }).send
    { kind := x.kind, src := .die (Fin.ofNat 16 d), dst := homeOf x.line, line := x.line, way := Fin.ofNat 16 w, st := st, who := who }

/-- A miss register that has no slot yet looks for one (R134, R150): it waits while only slots with requests in flight remain, while the victim
buffer has no room for a dirty victim, or while a tile delays the victim's recall (R127, R186). -/
def Run.quadPlace (r : Run s0) (d : Nat) (x : QMiss) : Run s0 :=
  let l := x.line
  let qk := d * 4 + quadOf l
  let pick := if x.alloc then r.l3Pick d l x.part false else (List.range 16).find? fun w => !r.slotBusy d l w
  match pick with
  | none => r
  | some w => match r.l3Slot (l3Key d l w) with
    | none => r.quadSend d x w .I
    | some s =>
      if 32 ≤ (r.quad qk).vict.length ∨ r.recallWaits d s then r
      else
        let e := (r.l3Age d l (3 - s.rrpv)).l3Evict d w s
        e.1.quadSend d x w e.2

/-- A tile's request that needs the home takes a miss register (R132, R134); the partition of its line is decided now (R147). One that needs
a register while none is free waits at the quadrant's input. -/
def Run.quadMiss (r : Run s0) (d n : Nat) (l : LineAddr) (k kind : MsgKind) : Run s0 :=
  let qk := d * 4 + quadOf l
  if 128 ≤ (r.quad qk).miss.length then r.quadWait qk n l k
  else
    let x : QMiss := { line := l, way := 0, kind := kind, tiles := [(n, k)], alloc := !r.l3Off d l, part := r.partOf d (l.toNat * 64), placed := false }
    let r := r.modQuad qk fun q => { q with miss := q.miss ++ [x] }
    match r.l3Find d l with
    | some (w, _) => r.quadSend d x w .I
    | none => r.quadPlace d x

/-- A quadrant serves a request of a tile (R172). For a line that it holds in O it asks with Upg, so that the data it answers for is kept
(R175, R181). -/
def Run.doQuad (r : Run s0) (n : Nat) (l : LineAddr) (k : MsgKind) : Run s0 × List Todo :=
  let d := dieOf n
  let t := n % 16
  let qk := d * 4 + quadOf l
  if (r.quad qk).miss.any (·.line = l) then
    (r.modMiss qk l fun m => { m with tiles := m.tiles ++ [(n, k)] }, [])
  else if (r.quad qk).vict.any (·.line = l) then (r.quadWait qk n l k, [])
  else
    let r := (r.flushDie d l).l3TagCheck d l
    let named := match r.l3Find d l with
      | some (_, s) => namedTiles s.cv none
      | none => []
    let broken := r.l3Broken d l
    if broken && named.any (fun o => r.lrDelayed (d * 16 + o) l) then (r.quadWait qk n l k, [])
    else
    let r := (if broken then r.snoopTiles d l .snpX named else r).l3Check d l
    match r.l3Find d l with
    | none => (r.quadMiss d n l k (if k = .upg then .rdX else k), [])
    | some (_, s) =>
      let others := namedTiles s.cv (some t)
      let excl := s.st = .E ∨ s.st = .M
      if k = .rdS then
        if excl ∧ others.any (fun o => r.lrDelayed (d * 16 + o) l) then (r.quadWait qk n l k, [])
        else
          let r := if excl then r.snoopTiles d l .snpS (others.filter fun o => r.l2Has (d * 16 + o) l true) else r
          match (r.l3Touch d l).l3Find d l with
          | none => (r, [])
          | some (w, s) =>
            let st : St := if (namedTiles s.cv (some t)).isEmpty ∧ (s.st = .E ∨ s.st = .M) then .E else .S
            let r := (r.l3Touch d l).cvWrite d w { s with rrpv := 0 } (s.cv ||| (1#16 <<< t))
            (r.l2Fill n l st s.data s.poison, [.serve n l, .release d l])
      else if excl then
        if others.any fun o => r.lrDelayed (d * 16 + o) l then (r.quadWait qk n l k, [])
        else
          let r := r.snoopTiles d l .snpX others
          match r.l3Find d l with
          | none => (r, [])
          | some (w, s) =>
            let r := (r.l3Touch d l).cvWrite d w { s with rrpv := 0 } (1#16 <<< t)
            let r := if k = .claim then r.l2Fill n l .M 0 false else r.l2Fill n l .E s.data s.poison
            (r, [.serve n l, .release d l])
      else (r.quadMiss d n l k (if k = .rdX ∧ s.st = .O then .upg else k), [])

/-- How a DW.SWOP goes on: it waits for the slot, is done with a value for rd, or waits until the home has the line. -/
inductive Swop
  | wait
  | value (v : Nat)
  | sent (l : LineAddr)
deriving DecidableEq, Repr

/-- DW.SWOP acts on one slot (R144, R145), unless the slot or its victim buffer is taken or a tile delays its answer (R186). A clean of
an L3 slot writes its line with WbKeep (R171). -/
def Run.swop (r : Run s0) (h op level set way : Nat) : Run s0 × Swop :=
  let n := tileOf h
  let d := dieOf n
  if level = 0 then
    if 64 ≤ set ∨ 16 ≤ way then (r, .value 2)
    else
      let k := (n * 64 + set) * 16 + way
      (if op = 0 then r else (r.setL1iSlot k none).setL1dSlot k none, .value 0)
  else if level = 1 then
    if 2048 ≤ set ∨ 8 ≤ way then (r, .value 2)
    else
      let k := (n * 2048 + set) * 8 + way
      match r.l2Slot k with
      | none => (r, .value 0)
      | some s =>
        let r := r.l2Look n s.line
        match r.l2Slot k with
        | none => (r, .value 0)
        | some s =>
          let rd := if s.st = .M then 1 else 0
          if op ≠ 0 then ((r.l2Evict n way s).flushEv n s.line, .value rd)
          else if s.st = .M then ((r.setL2Slot k (some { s with st := .E })).l3TakeDirty d s.line s.data s.poison, .value 1)
          else (r, .value 0)
  else if 16 ≤ way then (r, .value 2)
  else
    let q := set / 8192
    let k := ((d * 4 + q) * 8192 + set % 8192) * 16 + way
    match r.l3Slot k with
    | none => (r, .value 0)
    | some s =>
      let l := s.line
      let v := (r.quad (d * 4 + q)).vict
      if r.slotBusy d l way || v.any (·.line = l) || decide (32 ≤ v.length) || r.recallWaits d s then (r, .wait)
      else
        let r := (r.flushDie d l).l3TagCheck d l
        match r.l3Slot k with
        | none => (r, .value 0)
        | some s =>
          if op ≠ 0 then
            let e := r.l3Evict d way s
            (e.1, if e.2.dirty then .sent l else .value 0)
          else
            let r := r.snoopTiles d l .snpCln (namedTiles s.cv none)
            let r := match r.l3Slot k with
              | some s => if s.st.dirty then r.l3Check d l else r
              | none => r
            match r.l3Slot k with
            | none => (r, .value 0)
            | some s => if s.st.dirty then (r.keepOut d way s, .sent l) else (r, .value 0)

/-- A DW.WAKE is ordered at its target (R86, R87): rd is 0 when it is delivered. -/
def Run.wake (r : Run s0) (h target rd : Nat) : Run s0 :=
  let t := r.hart h
  let ok := decide (target < 1024) && r.online (dieOf (tileOf target)) && (t.mode == .m || t.mode == .debug || (r.hart target).eid == t.eid)
  let r := if ok then (r.modHart target fun x => { x with wake := true }).pokeHart target else r
  (r.setXr h rd (if ok then 0 else 1)).retire h

/-- The message that asks a home for an AMO (R90, R182). -/
def atomMsg (h : Nat) (a : Acc) (p : Part) (op : AmoOp) (x y : BitVec 128) : Msg :=
  { kind := .atomH, src := .hart (Fin.ofNat 1024 h), dst := homeOf p.line, line := p.line, atom := some ⟨op, a.lg, p.off, x, y, none⟩ }

/-- The hart's earlier stores are visible: its instruction goes on. -/
def Run.goOn (r : Run s0) (h : Nat) (x : Next) : Run s0 × List Todo :=
  match x with
  | .retire => (r.retire h, [])
  | .line a => (r.modHart h fun t => { t with wait := some (.line a) }, [.hart h])
  | .home a =>
    match a.op, a.parts with
    | .amo _ op x y, p :: _ => ((r.modHart h fun t => { t with wait := some (.home a) }).send (atomMsg h a p op x y), [])
    | _, _ => (r, [])
  | .cbo k ls rd =>
    (ls.foldl (fun r l => r.send { kind := k, src := .hart (Fin.ofNat 1024 h), dst := homeOf l, line := l })
      (r.modHart h fun t => { t with wait := some (.cbo ls rd) }), [])
  | .swop op level set way rd => (r.modHart h fun t => { t with wait := some (.swop op level set way rd) }, [.hart h])
  | .wake target rd => (r.wake h target rd, [])

/-- A hart that waits goes on where it can. An SC whose reservation is lost fails (R528). -/
def Run.doHart (r : Run s0) (h : Nat) : Run s0 × List Todo :=
  let n := tileOf h
  match (r.hart h).wait with
  | some (.line a) =>
    match a.parts with
    | [] => (r, [])
    | p :: rest =>
      let lost : Option Nat := match a.op with
        | .sc rd _ => if (r.hart h).resv = some p.line then none else some rd
        | _ => none
      let needsLine : Bool := match a.op with
        | .load _ _ => false
        | _ => true
      match lost with
      | some rd => (((r.setXr h rd 1).modHart h fun t => { t with resv := none, lrDelay := none }).retire h, [])
      | none =>
        if p.covered a.fwd && !needsLine then
          match rest with
          | [] => ((r.finishAcc h { a with parts := [] } p.line), [])
          | _ => (r.modHart h fun t => { t with wait := some (.line { a with parts := rest }) }, [.hart h])
        else if r.l2Has n p.line a.op.owns then r.perform n h a p rest
        else (r.miss n p.line a.op.owns false (.hart h), [.launch n p.line])
  | some (.drain ls x) => if r.storesLeft h ls then (r, []) else r.goOn h x
  | some (.swop op level set way rd) =>
    let p := r.swop h op level set way
    match p.2 with
    | .value v => ((p.1.setXr h rd (BitVec.ofNat 64 v)).retire h, [])
    | .sent l => (p.1.modHart h fun t => { t with wait := some (.written l rd 1) }, [])
    | .wait => (p.1, [])
  | _ => (r, [])

/-- Requests that wait at a quadrant try again: the miss registers without a slot in order, those at its input, the DW.SWOPs of its die,
and the lines that a quadrant which is off has still to give up. -/
def Run.doRetry (r : Run s0) (q : Nat) : Run s0 × List Todo :=
  let w := (r.quad q).waiting
  let r := if w.isEmpty then r else r.modQuad q fun x => { x with waiting := [] }
  let r := (r.quad q).miss.foldl (fun r x => if x.placed then r else r.quadPlace (q / 4) x) r
  let hs := r.1.harts.filterMap fun p => if dieOf (tileOf p.1) = q / 4 then match p.2.wait with
      | some (.swop _ _ _ _ _) => some (Todo.hart p.1)
      | _ => none
    else none
  let off := r.bit (L3_STATUS_DISABLED (q / 4)) (q % 4) || r.bit (L3_STATUS_CACHE_DISABLE_PENDING (q / 4)) (q % 4)
  let ls := if off then r.1.l3.filterMap fun e => if e.1 / 16 / 8192 = q then some (Todo.release (q / 4) e.2.line) else none else []
  (r, (w.map fun x => .quad x.1 x.2.1 x.2.2) ++ hs ++ ls)

/-- A disabled quadrant, or one whose disable is pending, gives up a line that no request of the die needs any more (R155, R156), once the
victim buffer has room and no tile delays the recall. -/
def Run.doRelease (r : Run s0) (d : Nat) (l : LineAddr) : Run s0 × List Todo :=
  let q := r.quad (d * 4 + quadOf l)
  if !r.l3Off d l || q.miss.any (·.line = l) || q.vict.any (·.line = l) || decide (32 ≤ q.vict.length) then (r, [])
  else match r.l3Find d l with
    | none => (r, [])
    | some (w, s) => if r.recallWaits d s then (r, []) else ((r.l3Evict d w s).1, [])

/-- Do what is to be done, and what follows from it, in order. -/
def Run.drive (r : Run s0) : Nat → List Todo → Run s0
  | 0, _ => r
  | _ + 1, [] => r
  | k + 1, t :: ts =>
    let p : Run s0 × List Todo := match t with
      | .launch n l => r.doLaunch n l
      | .quad n l m => r.doQuad n l m
      | .serve n l => r.doServe n l
      | .hart h => r.doHart h
      | .smb n => r.doSmb n
      | .retry q => r.doRetry q
      | .release d l => r.doRelease d l
    Run.drive p.1 k (p.2 ++ ts)

/-- A bound on what one command can set off within a die; no command comes near it. -/
def driveBound : Nat := 20000

/-- Do the list. -/
def Run.go (r : Run s0) (ts : List Todo) : Run s0 := r.drive driveBound ts

/-- A tile as a drain of the entries that a predicate names begins. -/
def Tile.drain (t : Tile) (p : Nat → LineAddr → Bool) : Tile :=
  { t with smb := t.smb.map fun e => if p e.hart e.line then { e with draining := true } else e,
           sq := t.sq.map fun e => if p e.hart e.line then { e with draining := true } else e }

/-- Begin to drain the store-queue and merging-buffer entries that a predicate names. -/
def Run.drainTile (r : Run s0) (n : Nat) (p : Nat → LineAddr → Bool) : Run s0 :=
  if (r.tile n).smb.isEmpty && (r.tile n).sq.isEmpty then r else (r.modTile n fun t => t.drain p).go [.smb n]

/-- Begin to drain every entry of a hart (R130). -/
def Run.startDrain (r : Run s0) (h : Nat) : Run s0 := r.drainTile (tileOf h) fun k _ => k == h

/-- Begin to drain the entries of a hart for some lines (R90, R141). -/
def Run.startDrainOf (r : Run s0) (h : Nat) (ls : List LineAddr) : Run s0 := r.drainTile (tileOf h) fun k l => k == h && decide (l ∈ ls)

/-- A home has answered Done to a hart, or found no memory for a store or CBO (R141, R170, R527): the store is acknowledged, or the CBOs
have one line less to wait for. -/
def Run.hartDone (r : Run s0) (h : Nat) (l : LineAddr) : Run s0 :=
  let t := r.hart h
  if l ∈ t.ncOut then (r.modHart h fun t => { t with ncOut := t.ncOut.erase l }).go [.hart h]
  else match t.wait with
    | some (.cbo ls rd) =>
      let ls := ls.erase l
      if ls.isEmpty then (match rd with
        | some p => r.setXr h p.1 p.2
        | none => r).retire h
      else r.modHart h fun t => { t with wait := some (.cbo ls rd) }
    | _ => r

/-- A grant reaches a die (R170, R172): its L3 holds the line, the home gets its Ack, and the tiles that wait are served. -/
def Run.dieGrant (r : Run s0) (d : Nat) (m : Msg) : Run s0 :=
  let qk := d * 4 + quadOf m.line
  match (r.quad qk).miss.find? (·.line = m.line) with
  | none => r
  | some x =>
    let held := r.l3Find d m.line
    let st : St := match m.kind with
      | .datS => .S
      | .datE => .E
      | .gntE => .E
      | _ => .M
    let part := x.part
    let slot : L3Slot := match m.kind, held with
      | .gntE, some (_, s) => { s with st := st }
      | .gntM, some (_, s) => { s with st := st }
      | .gntM, none => { line := m.line, st := st, cv := 0, part := part, data := 0 }
      | .gntE, none => { line := m.line, st := st, cv := 0, part := part, data := 0 }
      | _, some (_, s) => { s with st := st, data := m.data, poison := m.poison, flip := none }
      | _, none => { line := m.line, st := st, cv := 0, part := part, data := m.data, poison := m.poison }
    let w := (held.map (·.1)).getD x.way
    let r := r.modQuad qk fun q => { q with miss := q.miss.filter (·.line ≠ m.line) }
    let r := r.l3Write d w slot held.isNone
    let r := r.send { kind := .ack, src := .die (Fin.ofNat 16 d), dst := homeOf m.line, line := m.line }
    r.go (x.tiles.map (fun p => .quad p.1 m.line p.2) ++ [.release d m.line, .retry qk])

/-- The state and answer that R169 gives for a snoop in a state. -/
def snoopNext (k : MsgKind) (s : St) : St :=
  match k, s with
  | .snpS, .I => .I
  | .snpS, .S => .S
  | .snpS, .E => .S
  | .snpS, _ => .O
  | .snpCln, .O => .S
  | .snpCln, .M => .E
  | .snpCln, s => s
  | .snpCur, s => s
  | _, _ => .I

/-- A snoop answers with data in a state (R169). -/
def snoopData (k : MsgKind) (s : St) : Bool := s.dirty && k != .snpInv

/-- A die answers a snoop from a home (R169, R173, R174). It is left in flight while a tile that it would reach delays its
answer (R186), and behind a request of the die that waits for such a tile (R173). -/
def Run.dieSnoop (r : Run s0) (d : Nat) (m : Msg) : Run s0 :=
  let l := m.line
  let delayed := (List.range 16).any fun t => r.lrDelayed (d * 16 + t) l && r.l2St (d * 16 + t) l != .I
  if delayed && (m.kind != .snpCur || (r.quad (d * 4 + quadOf l)).waiting.any (·.2.1 = l)) then r
  else
    let r := (r.take m).flushDie d l
    let ans (st : St) (x : Option (LineData × Bool)) : Msg :=
      { kind := if x.isSome then .datSnp else .rsp, src := .die (Fin.ofNat 16 d), dst := m.src, line := l, st := st,
        data := (x.map (·.1)).getD 0, poison := (x.map (·.2)).getD false, la := m.la }
    let r := r.l3TagCheck d l
    match r.l3Find d l with
    | some (w, s) =>
      let ts := namedTiles s.cv none
      let ts := if m.kind = .snpX ∨ m.kind = .snpInv then ts else if s.st = .E ∨ s.st = .M then ts else []
      let r := r.snoopTiles d l m.kind ts
      let s := (r.l3Slot (l3Key d l w)).getD s
      let r := if snoopData m.kind s.st then r.l3Check d l else r
      let s := (r.l3Slot (l3Key d l w)).getD s
      let st := snoopNext m.kind s.st
      let r := if st = s.st then r else r.keepStale d l
      let r := if st = .I then r.setL3Slot (l3Key d l w) none else r.setL3Slot (l3Key d l w) (some { s with st := st })
      r.send (ans st (if snoopData m.kind s.st then some (s.data, s.poison) else none))
    | none =>
      let qk := d * 4 + quadOf l
      match (r.quad qk).vict.find? fun v => v.line = l ∧ ¬ v.surrendered ∧ v.keep = false with
      | some v =>
        let st := snoopNext m.kind v.st
        let r := r.modQuad qk fun q => { q with vict := q.vict.map fun x => if x.line = l then { x with st := st, surrendered := st == .I } else x }
        r.send (ans st (if snoopData m.kind v.st then some (v.data, v.poison) else none))
      | none => r.send (ans .I none)

/-- The L2 way that a stash of a line takes (R153): an empty one, or one whose line is clean and has no request in flight. -/
def Run.l2StashWay (r : Run s0) (n : Nat) (l : LineAddr) : Option Nat :=
  let ws := (List.range 8).filter fun w => !r.l2Taken n l w
  match ws.find? fun w => (r.l2Slot (l2Key n l w)).isNone with
  | some w => some w
  | none =>
    let c := ws.filter fun w => (r.l2Slot (l2Key n l w)).any (·.st != .M)
    let v := plruVictim 3 (r.plruBits (2 ^ 21 + n * 2048 + l.toNat % 2048))
    if v ∈ c then some v else c.head?

/-- A die answers a stash offer (R153, R177): it names a way, which stays reserved with the way of the tile's L2, or declines. -/
def Run.dieStash (r : Run s0) (d : Nat) (m : Msg) : Run s0 :=
  let l := m.line
  let qk := d * 4 + quadOf l
  let r := r.take m
  let reply (k : MsgKind) (w : Nat) (st : St) : Msg :=
    { kind := k, src := .die (Fin.ofNat 16 d), dst := m.src, line := l, way := Fin.ofNat 16 w, st := st }
  let tile : Option Nat := match m.stash with
    | some (.tile n) => some n
    | _ => none
  let tileOk := tile.all fun n => !r.l2Off n && !r.on (L2CTL_STATUS_CACHE_DISABLE_PENDING n) && !r.gated (domTile n) && (r.l2StashWay n l).isSome
  let part := r.partOf d (l.toNat * 64)
  let pick := if (r.quad qk).miss.any (·.line = l) || decide (128 ≤ (r.quad qk).miss.length) || r.l3Off d l || !tileOk || !r.online d || r.gated (domQuad d (quadOf l)) then none
    else r.l3Pick d l part true
  match pick with
  | none => r.send (reply .stashDec 0 .I)
  | some w =>
    if (r.l3Slot (l3Key d l w)).any fun s => r.recallWaits d s then r.send (reply .stashDec 0 .I)
    else
      let r := match r.l3Slot (l3Key d l w) with
        | some s => (r.l3Evict d w s).1
        | none => r
      let r := match tile with
        | some n => (match r.l2StashWay n l with
          | some v => r.modTile n fun t => { t with stash := t.stash ++ [(l, v)] }
          | none => r)
        | none => r
      (r.modQuad qk fun x => { x with miss := x.miss ++ [{ line := l, way := w, kind := .stashOffer, tiles := [], part := part }] }).send (reply .stashAcc w .I)

/-- Stash data reaches a die (R177): the line is installed in M, in the tile's L2 too when that is the target and still enabled, and
acknowledged. A quadrant that has been disabled since gives it up (R156). -/
def Run.dieStashData (r : Run s0) (d : Nat) (m : Msg) : Run s0 :=
  let l := m.line
  let qk := d * 4 + quadOf l
  match (r.quad qk).miss.find? (·.line = l) with
  | none => r
  | some x =>
    let tile : Option Nat := match m.stash with
      | some (.tile n) => if r.l2Off n || r.on (L2CTL_STATUS_CACHE_DISABLE_PENDING n) || r.gated (domTile n) then none else some n
      | _ => none
    let cv : BitVec 16 := match tile with
      | some n => 1#16 <<< (n % 16)
      | none => 0
    let r := r.modQuad qk fun q => { q with miss := q.miss.filter (·.line ≠ l) }
    let r := r.l3Write d x.way { line := l, st := .M, cv := cv, part := x.part, data := m.data, poison := m.poison } true
    let r := match tile with
      | some n => r.l2Fill n l .M m.data m.poison
      | none => r
    let r := match m.stash with
      | some (.tile n) => if (r.tile n).stash.isEmpty then r else r.modTile n fun t => { t with stash := t.stash.filter (·.1 ≠ l) }
      | _ => r
    let r := r.send { kind := .ack, src := .die (Fin.ofNat 16 d), dst := m.src, line := l }
    r.go (x.tiles.map (fun p => .quad p.1 l p.2) ++ [.release d l, .retry qk])

/-- The home has accepted or discarded a die's eviction (R171): the oldest victim-buffer entry of the line is freed. A line written with
WbKeep is clean from now on, unless its slot has changed since; the DW.SWOPs that wait for the line retire. -/
def Run.dieEvAck (r : Run s0) (d : Nat) (l : LineAddr) : Run s0 :=
  let qk := d * 4 + quadOf l
  let v := (r.quad qk).vict.find? (·.line = l)
  let r := r.modQuad qk fun q => { q with vict := q.vict.eraseP (·.line = l) }
  let r := if v.any fun v => v.keep && !v.surrendered then (match r.l3Find d l with
      | some (w, s) => r.setL3Slot (l3Key d l w) (some { s with st := if s.st = .O then .S else if s.st = .M then .E else s.st })
      | none => r) else r
  let r := r.1.harts.foldl (fun r p => match p.2.wait with
    | some (.written k rd x) => if k = l ∧ dieOf (tileOf p.1) = d then (r.setXr p.1 rd (BitVec.ofNat 64 x)).retire p.1 else r
    | _ => r) r
  r.go [.release d l, .retry qk]

/-- The delay of R186 ends for a hart: requests that waited for its tile try again. -/
def Run.endDelay (r : Run s0) (h : Nat) : Run s0 :=
  match (r.hart h).lrDelay with
  | none => r
  | some l => (r.modHart h fun t => { t with lrDelay := none }).go [.retry (dieOf (tileOf h) * 4 + quadOf l)]

/-- What a tile asked for does not exist (R527): loads, LRs, AMOs and SCs that wait raise their access fault, a walk or a fetch finds that it
has none, and the bytes of stores are discarded. -/
def Run.tileNoMemory (r : Run s0) (n : Nat) (l : LineAddr) : Run s0 :=
  match (r.tile n).miss.find? (·.line = l) with
  | none => r
  | some m =>
    let r := r.modTile n fun t => { t with miss := t.miss.filter (·.line ≠ l) }
    let r := m.want.foldl (fun r w => match w with
      | .hart h => (match (r.hart h).wait with
          | some (.line a) => r.trap h { cause := if a.op.owns then 7 else 5, tval := a.va }
          | _ => r)
      | .drain h => r.modTile n fun t => { t with smb := t.smb.filter fun e => !(e.hart == h && e.line == l) }
      | .fetch h | .walk h => r.modHart h fun t => { t with noMem := some l }
      | .prefetch _ | .stride => r) r
    r.go (m.want.filterMap fun w => match w with
      | .drain h => some (Todo.hart h)
      | _ => none)

/-- A request of a die met no memory (R21, R527). -/
def Run.dieNoMemory (r : Run s0) (d : Nat) (l : LineAddr) : Run s0 :=
  let qk := d * 4 + quadOf l
  match (r.quad qk).miss.find? (·.line = l) with
  | none => r
  | some x =>
    let r := r.modQuad qk fun q => { q with miss := q.miss.filter (·.line ≠ l) }
    let r := x.tiles.foldl (fun r p => r.tileNoMemory p.1 l) r
    r.go ([.retry qk, .smb (d * 16)] ++ x.tiles.map fun p => .smb p.1)

end Sys2Proof.Machine
end

