-- ==== Sys2Proof/Machine/Worlds.lean ====
section
/-! DEFINITION. The world of a requester and the refusals that follow from it (R10, R372, R392 to R394). -/
namespace Sys2Proof.Machine

variable {s0 : State}

/-- The configuration lock is set (R499). -/
def Run.locked (r : Run s0) : Bool := r.on FOX_CFGLOCK_LOCK

/-- A link group belongs to the secure world (R391). -/
def Run.groupSecure (r : Run s0) (g : Nat) : Bool := r.bit SEC_GRPWORLD_SEC g

/-- A Phlox function belongs to the secure world (R293). -/
def Run.fnSecure (r : Run s0) (f : Nat) : Bool := r.bit (PHLOX_FNWORLD_SEC (f / 64)) (f % 64)

/-- A requester belongs to the secure world (R372). -/
def Run.secure (r : Run s0) : Requester → Bool
  | .hart h => (r.hart h).eid != 0
  | .group g _ => r.groupSecure g
  | .phlox f => r.fnSecure f
  | .fox => true
  | .lark _ => false
  | .peer _ => false

/-- A requester belongs to the normal world (R372): Larkspur cores only after the configuration lock. -/
def Run.normal (r : Run s0) : Requester → Bool
  | .lark _ => r.locked
  | q => !r.secure q

/-- A hart at MONEID, the secure monitor's enclave ID (R373). -/
def Run.isMonitor (r : Run s0) : Requester → Bool
  | .hart h => r.on SEC_CFG_MONVALID && (r.hart h).eid == r.fld SEC_CFG_MONEID
  | _ => false

/-- A requester that is M-mode software, at enclave ID 0 or not. -/
def Run.isMMode (r : Run s0) : Requester → Bool
  | .hart h => (r.hart h).mode == .m || (r.hart h).mode == .debug
  | _ => false

/-- Management firmware. -/
def isLark : Requester → Bool
  | .lark _ => true
  | _ => false

/-- SEC.DENY records a refusal and its requester (R393). The number of a requester that the register does not provide for is
a free value. -/
def Run.denyBy (r : Run s0) (kind : Nat) : Requester → Run s0
  | .hart h => r.secDeny kind (h.val / 64) h.val
  | .group g p => r.secDeny kind 16 (g.val * 16 + p.val)
  | .phlox f => r.secDeny kind 16 f.val
  | _ => let p := r.fresh; p.1.secDeny kind 16 (p.2.toNat % 65536)

/-- A request is refused as R10 states for ST_DENIED, and recorded in SEC.DENY. -/
def Run.refuse (r : Run s0) (kind : Nat) (q : Requester) : Run s0 := (r.denyBy kind q).logDenied .sec q

/-- An interrupt write of a requester (R70, R393). -/
def Run.msiBy (r : Run s0) (q : Requester) (h file i : Nat) : Run s0 :=
  match q with
  | .hart t => r.msiTo (r.secure q) (t.val / 64) t.val h file i
  | .group g p => r.msiTo (r.secure q) 16 (g.val * 16 + p.val) h file i
  | .phlox f => r.msiTo (r.secure q) 16 f.val h file i
  | _ => let p := r.fresh; p.1.msiTo (p.1.secure q) 16 (p.2.toNat % 65536) h file i

end Sys2Proof.Machine
end

