-- ==== Sys2Proof/Machine/GroupIn.lean ====
section
/-! DEFINITION. Inbound items of a link group: their order behind earlier posted writes of the same requester, and the
answers of the homes (R30, R315, R316, R318, R339). -/
namespace Sys2Proof.Machine

variable {s0 : State}

/-- The bytes of a completion: `len` bytes from an address out of the lines read, and whether any line is poisoned (R317). -/
def readData (addr len : Nat) (got : List (LineAddr × LineData × Bool)) : Nat × Bool :=
  (got.foldl (fun a x =>
    let b := x.1.toNat * 64
    if b ≤ addr then a + (x.2.1.toNat / 256 ^ (addr - b)) % 256 ^ (min len (b + 64 - addr))
    else a + x.2.1.toNat % 256 ^ (addr + len - b) * 256 ^ (b - addr)) 0, got.any (·.2.2))

/-- A legacy interrupt of a port is asserted or deasserted (R341): source g × 4 + n' + 1 is high as long as any port of the group
asserts an interrupt that is delivered as n'. -/
def Run.intxWire (r : Run s0) (g port n : Nat) (up : Bool) : Run s0 :=
  let now := natSetBits (r.grp g).intx (port * 4 + n) (port * 4 + n) (if up then 1 else 0)
  let k := (n + port) % 4
  (r.modGrp g fun t => { t with intx := now }).aplicLevel (g * 4 + k + 1) ((List.range 8).any fun p => natBit now (p * 4 + (k + 8 - p) % 4))

/-- An inbound item whose earlier posted writes are visible acts: its messages go out, its interrupt is delivered. What it still
waits for, if anything. -/
def Run.inStart (r : Run s0) (g : Nat) (x : InItem) : Run s0 × Option InItem :=
  match x.act with
  | .write n m => ((r.modGrp g fun t => { t with asked := t.asked ++ [(n, m.line)] }).send m, none)
  | .read tag _ _ [] _ => (r.emit (.completion g tag true false 0), none)
  | .read _ _ _ left _ =>
    (left.foldl (fun r l => r.send { kind := .rdOnce, src := .group (Fin.ofNat 32 g), dst := .home (Fin.ofNat 4 (quadOf l)), line := l }) r,
     some { x with sent := true })
  | .atom _ m => (r.send m, some { x with sent := true })
  | .msi q h f i => (r.msiBy q h f i, none)
  | .peerMsi p off i => (r.emit (.peerMsi (Fin.ofNat 4 p) off i), none)
  | .intx port n up => (r.intxWire g port n up, none)

/-- An item takes one of the group's 512 read trackers (R321). -/
def InItem.tracked (x : InItem) : Bool :=
  match x.act with
  | .read _ _ _ _ _ | .atom _ _ => true
  | _ => false

/-- The items of a group that wait for nothing act, oldest first, while read trackers last (R321). -/
def Run.groupGo (r : Run s0) (g : Nat) : Run s0 :=
  let p := (r.grp g).held.foldl (fun (p : Run s0 × List InItem × Nat) x =>
    if x.deps.isEmpty && !x.sent && (!x.tracked || decide (p.2.2 < 512)) then
      let y := p.1.inStart g x
      (y.1, p.2.1 ++ y.2.toList, p.2.2 + if x.tracked then 1 else 0)
    else (p.1, p.2.1 ++ [x], p.2.2)) (r, [], ((r.grp g).held.filter (·.sent)).length)
  let p : Run s0 × List InItem := (p.1, p.2.1)
  p.1.modGrp g fun t => { t with held := p.2 }

/-- The posted write to a line that left first is visible, or has ended (R30). -/
def Run.postedDone (r : Run s0) (g : Nat) (l : LineAddr) : Run s0 :=
  match (r.grp g).asked.find? (·.2 = l) with
  | some w =>
    (r.modGrp g fun t => { t with asked := t.asked.erase w, posted := t.posted.filter (·.1 ≠ w.1),
                                  held := t.held.map fun x => { x with deps := x.deps.erase w.1 } }).groupGo g
  | none => r

/-- An item reads a line, or its AtomicOp is on it, and it has asked its home. -/
def InItem.asks (x : InItem) (l : LineAddr) : Bool :=
  x.sent && match x.act with
    | .read _ _ _ left _ => decide (l ∈ left)
    | .atom _ m => m.line == l
    | _ => false

/-- A home's answer reaches a link group: a posted write is visible, a line of a read has come, or an AtomicOp is done. -/
def Run.groupArrive (r : Run s0) (g : Nat) (m : Msg) : Run s0 :=
  if m.kind = .done then r.postedDone g m.line
  else match (r.grp g).held.find? fun x => x.asks m.line with
    | none => r
    | some x =>
      match x.act with
      | .read tag addr len left got =>
        let left := left.erase m.line
        let got := got ++ [(m.line, m.data, m.poison)]
        let y := { x with act := .read tag addr len left got }
        let r := r.modGrp g fun t => { t with held := if left.isEmpty then t.held.erase x else t.held.map fun z => if z = x then y else z }
        if left.isEmpty then
          let d := readData addr len got
          (r.emit (.completion g tag true d.2 d.1)).groupGo g
        else r
      | .atom tag _ =>
        ((r.modGrp g fun t => { t with held := t.held.erase x }).emit (.completion g tag true m.poison (m.data.toNat % 2 ^ 128))).groupGo g
      | _ => r

/-- A home refuses a group's message (R21, R316): a posted write is discarded, anything else receives UR. -/
def Run.groupRefused (r : Run s0) (g : Nat) (m : Msg) : Run s0 :=
  if m.kind = .wrLine ∨ m.kind = .wrPart then r.postedDone g m.line
  else match (r.grp g).held.find? fun x => x.asks m.line with
    | none => r
    | some x =>
      let r := r.modGrp g fun t => { t with held := t.held.erase x }
      match x.act with
      | .read tag _ _ _ _ => (r.emit (.completion g tag false false 0)).groupGo g
      | .atom tag _ => (r.emit (.completion g tag false false 0)).groupGo g
      | _ => r

end Sys2Proof.Machine
end

