-- ==== Sys2Proof/Machine/Home.lean ====
section
/-! DEFINITION. Home slices: the order of requests for a line, snoops by the filter and the directory, grants, memory
reads and writes, stash offers, the proxy of a peer's lines, and the peer snoop table (R15, R160 to R183, R189). -/
namespace Sys2Proof.Machine

variable {s0 : State}

/-- A message that a CXL device sends without a command of its own: an answer to a snoop (R326). -/
def Agent.mayAnswer (m : Msg) : Bool :=
  match m.src with
  | .cxl _ => msgClass m.kind == 3 || msgClass m.kind == 4
  | _ => true

/-- The compute die that an agent is on. -/
def Agent.onDie : Agent → Option Nat
  | .tile n => some (n.val / 16)
  | .die d => some d.val
  | .hart h => some (h.val / 64)
  | _ => none

/-- The Rill link that a message crosses, by its die. -/
def linkOf (m : Msg) : Option Nat :=
  match Agent.onDie m.src, Agent.onDie m.dst with
  | some a, some b => if a = b then none else some a
  | some a, none => some a
  | none, b => b

/-- A message can pass: none leaves a stop under test (R208), and none crosses a link that is not at STATE 4, since a retrain pauses both
directions (R198) and a fenced die receives nothing (R217). -/
def Run.passes (r : Run s0) (m : Msg) : Bool :=
  !r.stopTests m.src m.line && (match linkOf m with
    | some d => r.fld (RLINK_STAT_STATE d) == 4
    | none => true)

/-- A message arrives: it can pass, and is in flight and has its turn, or comes from outside. -/
def Run.arrives (r : Run s0) (m : Msg) : Bool := r.passes m && ((Agent.outer m.src && Agent.mayAnswer m) || r.turn m)

/-- The number by which a packet is behind the one that its destination expects (R207). -/
def Run.behind (r : Run s0) (k : Nat) (m : Msg) : Nat := (r.1.seq k + 4096 - m.num.toNat) % 4096

/-- Take or free a tracker (R165). -/
def Run.trackers (r : Run s0) (s : Nat) (m : Msg) (up : Bool) : Run s0 :=
  let bump (r : Run s0) (f : FRef) : Run s0 := r.setFld f (if up then r.fld f + 1 else r.fld f - 1)
  let r := bump r (HOME_TRKSTAT_INUSE s)
  match pool m with
  | 0 => bump r (HOME_TRKSTAT_EVCUSE s)
  | 1 => bump r (HOME_TRKSTAT_PEERUSE s)
  | 2 => bump r (HOME_TRKSTAT_IOUSE s)
  | _ => r

/-- The filter's state for a holder's state (R158). -/
def filtSt : St → Option FSt
  | .I => none
  | .S => some .S
  | .O => some .O
  | _ => some .X

/-- The state that a CXL device's copy is left in (R169, R183). -/
def Run.setDev (r : Run s0) (g : Nat) (l : LineAddr) (st : St) : Run s0 :=
  r.modSlice (quadOf l) fun s =>
    if st = .I then { s with devs := s.devs.filter fun e => !(e.1 == g && e.2.1 == l) }
    else { s with devs := s.devs.map fun e => if e.1 = g ∧ e.2.1 = l then (g, l, st) else e }

/-- The state granted to a CXL device; the device filter keeps its entries in order of grant (R183). -/
def Run.grantDev (r : Run s0) (g : Nat) (l : LineAddr) (st : St) : Run s0 :=
  r.modSlice (quadOf l) fun s => { s with devs := s.devs.filter (fun e => !(e.1 == g && e.2.1 == l)) ++ [(g, l, st)] }

/-- Peer sockets that a coherent link enables (R170): socket personalities 3 and 4 in state 4 or 5. -/
def Run.peersOn (r : Run s0) : List Nat :=
  ((List.range 32).filter fun g => (r.fld (G_CFG_PERS g) == 3 || r.fld (G_CFG_PERS g) == 4) && (r.fld (G_STAT_STATE g) == 4 || r.fld (G_STAT_STATE g) == 5)).map
    (fun g => r.fld (G_CFG_PEER g)) |>.dedup

/-- An owner of a line (R170). -/
def FSt.owns : FSt → Bool
  | .S | .I => false
  | _ => true

/-- The snoop that the home sends an owner, and a sharer, for a request (R170); none where it sends none. -/
def ownerSnoop : MsgKind → Option MsgKind
  | .rdS => some .snpS
  | .rdX | .upg | .wrPart | .atomH | .cboF => some .snpX
  | .claim | .wrLine | .cboI => some .snpInv
  | .rdOnce => some .snpCur
  | .cboC => some .snpCln
  | _ => none

/-- The snoop for a sharer (R170). -/
def sharerSnoop : MsgKind → Option MsgKind
  | .rdX | .upg | .wrPart | .atomH | .cboF | .claim | .wrLine | .cboI => some .snpInv
  | _ => none

/-- The snoop for a peer by the directory's value: 1 S, 2 or 3 X (R170). -/
def peerSnoop (k : MsgKind) (dir : Nat) : Option MsgKind :=
  if dir = 0 then none else if dir = 1 then sharerSnoop k else match k with
    | .claim => some .snpInv
    | k => ownerSnoop k

/-- A request whose own die is not snooped (R170). -/
def sparesOwn : MsgKind → Bool
  | .rdS | .rdX | .upg | .claim => true
  | _ => false

/-- The request needs memory's data (R170). -/
def needsData (q : HReq) : Bool :=
  match q.msg.kind with
  | .rdS | .rdX | .rdOnce | .atomH => true
  | .upg => q.held.isNone
  | .wrPart => q.msg.mask != BitVec.allOnes 64
  | _ => false

/-- Replace the head of a line's queue. -/
def Run.setHead (r : Run s0) (l : LineAddr) (q : HReq) : Run s0 := r.setQueue l.toNat (q :: (r.queue l.toNat).tail)

/-- The home reads a line from memory: MRd to its channel, or to the group of CXL memory. -/
def Run.askMem (r : Run s0) (l : LineAddr) (t : Target) : Run s0 :=
  match t with
  | .dram c la => r.send { kind := .mRd, src := homeOf l, dst := .chan (Fin.ofNat 24 c), line := l, la := la }
  | .cxl g => r.send { kind := .mRd, src := homeOf l, dst := .cxl (Fin.ofNat 32 g), line := l }
  | _ => r

/-- The home writes a line with its directory: DIREN = 0 makes it L (R164). -/
def Run.putMem (r : Run s0) (l : LineAddr) (t : Target) (data : LineData) (poison : Bool) (dir : Nat) : Run s0 :=
  let dir := if r.on HOME_CFG_DIREN then dir else 0
  let m : Msg := { kind := .mWr, src := homeOf l, dst := .chan 0, line := l, data := data, poison := poison, dir := Fin.ofNat 4 dir }
  match t with
  | .dram c la => r.send { m with dst := .chan (Fin.ofNat 24 c), la := la }
  | .cxl g => r.send { m with dst := .cxl (Fin.ofNat 32 g) }
  | _ => r

/-- The directory value after a request (R179), from the value read, the peers' answers and what was granted. -/
def dirAfter (q : HReq) (old : Nat) (grantE : Bool) : Nat :=
  let old := if old = 3 then 2 else old
  let peers := q.answers.filterMap fun a => match a.1 with
    | .peer _ => some a.2
    | _ => none
  match q.msg.src, q.msg.kind with
  | .peer _, .rdS => if grantE then 2 else if .O ∈ peers then 2 else 1
  | .peer _, .rdX | .peer _, .upg | .peer _, .claim => 2
  | .peer _, .evM => 0
  | .peer _, .evO => 1
  | .peer _, .wbKeep => if q.msg.st = .E then 2 else 1
  | _, .rdS => if peers.isEmpty then old else if .O ∈ peers then 2 else if .S ∈ peers then 1 else if peers.all (· == .I) then 0 else old
  | _, .cboC => if peers.any fun s => s == .S || s == .E || s == .O then 1 else old
  | _, .rdOnce => old
  | _, .evM | _, .evO | _, .wbKeep => old
  | _, _ => 0

/-- A reply without data goes to whoever sent the request; the slice's own operation has none. -/
def Run.reply (r : Run s0) (l : LineAddr) (q : HReq) (k : MsgKind) : Run s0 :=
  if q.own then r else r.send { kind := k, src := homeOf l, dst := q.msg.src, line := l }

/-- The grant to a requester is recorded where its copy is tracked (R162, R183). -/
def Run.noteGrant (r : Run s0) (l : LineAddr) (a : Agent) (way : Nat) (st : St) : Run s0 :=
  match a with
  | .die d => match filtSt st with
    | some f => r.filtWrite d l way (some f)
    | none => r
  | .cxl g => r.grantDev g l st
  | _ => r

/-- The head leaves its queue and its tracker is freed; an operation of the slice itself has none. -/
def Run.popHead (r : Run s0) (l : LineAddr) : Run s0 :=
  match r.queue l.toNat with
  | [] => r
  | q :: rest => if q.own then r.setQueue l.toNat rest else (r.setQueue l.toNat rest).trackers (quadOf l) q.msg false

/-- A grant goes out, and the request waits for its Ack (R161, R170). -/
def Run.grantTo (r : Run s0) (l : LineAddr) (q : HReq) (k : MsgKind) (st : St) (data : LineData) (poison : Bool) : Run s0 :=
  ((r.noteGrant l q.msg.src q.msg.way st).send { kind := k, src := homeOf l, dst := q.msg.src, line := l, data := data, poison := poison, way := q.msg.way }).setHead
    l { q with phase := .waitAck }

/-- A directory change with no other write (R179), for whose acknowledgement the request does not wait. -/
def Run.rewriteDir (r : Run s0) (l : LineAddr) (q : HReq) (dir : Nat) : Run s0 :=
  match q.mem with
  | some m => if r.on HOME_CFG_DIREN ∧ dir ≠ m.2.2.val then
      (r.modSlice (quadOf l) fun s => { s with loose := s.loose ++ [l] }).putMem l q.to_ m.1 m.2.1 dir else r
  | none => r

/-- Some agent other than the requester still holds the line (R170). -/
def Run.otherHolder (r : Run s0) (l : LineAddr) (q : HReq) (dir : Nat) : Bool :=
  (List.range 16).any (fun d => q.msg.src != .die (Fin.ofNat 16 d) && (r.filtOf d l).isSome)
  || (r.slice (quadOf l)).devs.any (fun e => e.2.1 == l && q.msg.src != .cxl (Fin.ofNat 32 e.1))
  || (r.on HOME_CFG_DIREN && (dir == 1 || q.answers.any fun a => (match a.1 with
        | .peer _ => a.2 != .I
        | _ => false)))

/-- A write at the home goes to a stash target or to memory (R28, R177). -/
def Run.finishWrite (r : Run s0) (l : LineAddr) (q : HReq) (data : LineData) (poison : Bool) : Run s0 :=
  let q := { q with dirty := some (data, poison) }
  let target : Option (Fin 16) := match q.msg.stash with
    | some (.die d) => some d
    | some (.tile n) => some (Fin.ofNat 16 (n.val / 16))
    | _ => none
  match target with
  | some d => (r.setHead l { q with phase := .waitStash }).send { kind := .stashOffer, src := homeOf l, dst := .die d, line := l, stash := q.msg.stash }
  | none => (r.setHead l { q with phase := .waitMAck }).putMem l q.to_ data poison 0

/-- The sender of an eviction still owns the line (R171). -/
def Run.stillOwner (r : Run s0) (l : LineAddr) (q : HReq) : Bool :=
  match q.msg.src with
  | .die d => (r.filtOf d l).any FSt.owns
  | .peer _ => match q.mem with
    | some m => decide (2 ≤ m.2.2.val)
    | none => true
  | .cxl g => q.own || (r.slice (quadOf l)).devs.any fun e => e.1 == g && e.2.1 == l && e.2.2 != .S
  | _ => false

/-- An eviction is ordered (R163): the shadow entry of its line goes. -/
def Run.dropShadow (r : Run s0) (l : LineAddr) (a : Agent) : Run s0 :=
  match a with
  | .die d => if (r.slice (quadOf l)).shadow.any fun e => e.1 == d.val && e.2.1 == l then
      r.modSlice (quadOf l) fun s => { s with shadow := s.shadow.filter fun e => !(e.1 == d.val && e.2.1 == l) } else r
  | _ => r

/-- What an eviction leaves in the filters while its sender is still the owner (R162, R171): a WbKeep of M leaves the entry X, one of O
makes it S. -/
def Run.noteEviction (r : Run s0) (l : LineAddr) (m : Msg) : Run s0 :=
  match m.src with
  | .die d => if m.kind ≠ .wbKeep then r.setFilt d l none else if m.st = .S then r.setFilt d l (some .S) else r
  | .cxl g => r.setDev g l .I
  | _ => r

/-- The lines that requests wait for a device to give up (R183). -/
def Run.recalls (r : Run s0) : List LineAddr := r.1.lineq.filterMap fun p => p.2.head?.bind (·.recalling)

/-- The device whose filter a grant would overfill, and the line it must give up first (R183): the one granted least recently that it has
not been asked for yet. -/
def Run.devRecall (r : Run s0) (l : LineAddr) (a : Agent) : Option (Nat × LineAddr) :=
  match a with
  | .cxl g =>
    let mine := (r.slice (quadOf l)).devs.filter (·.1 == g.val)
    if mine.any (·.2.1 == l) || mine.length < 8192 then none
    else
      let asked := r.recalls
      (mine.find? fun e => !asked.contains e.2.1).map fun e => (e.1, e.2.1)
  | _ => none

/-- How the requester of an Upg stands when it is served (R170, R176): by the filter, or for the only peer socket by the directory. With
several peer sockets the directory does not say which of them holds the line, and the data is sent (DESIGN CHOICE, log entry 92). -/
def Run.upgHeld (r : Run s0) (q : HReq) (dir : Nat) : Option FSt :=
  match q.msg.src with
  | .peer _ => if r.peersOn.length ≠ 1 ∨ dir = 0 then none else if dir = 1 then some .S else some .O
  | _ => q.held

/-- The head's snoops and memory have answered: the request takes effect (R170). -/
def Run.homeFinish (r : Run s0) (l : LineAddr) (q : HReq) : Run s0 :=
  let dir := match q.mem with
    | some m => if r.on HOME_CFG_DIREN then m.2.2.val else 0
    | none => 0
  let memData : LineData × Bool := match q.mem with
    | some m => (m.1, m.2.1)
    | none => (0, false)
  let cur := q.dirty.getD memData
  match q.msg.kind with
  | .rdS =>
    let e := !r.otherHolder l q dir && r.on HOME_CFG_EGRANT
    let r := r.rewriteDir l q (dirAfter q dir e)
    if e then r.grantTo l q .datE .E cur.1 cur.2 else r.grantTo l q .datS .S cur.1 cur.2
  | .rdX =>
    let r := r.rewriteDir l q (dirAfter q dir true)
    if q.dirty.isSome then r.grantTo l q .datM .M cur.1 cur.2 else r.grantTo l q .datE .E cur.1 cur.2
  | .upg =>
    let r := r.rewriteDir l q (dirAfter q dir true)
    match r.upgHeld q dir with
    | some f =>
      if f = .O ∨ q.dirty.isSome ∨ q.discardedO then r.grantTo l q .gntM .M 0 false else r.grantTo l q .gntE .E 0 false
    | none => if q.dirty.isSome then r.grantTo l q .datM .M cur.1 cur.2 else r.grantTo l q .datE .E cur.1 cur.2
  | .claim => (r.rewriteDir l q (dirAfter q dir true)).grantTo l q .gntM .M 0 false
  | .rdOnce =>
    (r.send { kind := .datCur, src := homeOf l, dst := q.msg.src, line := l, data := cur.1, poison := cur.2 }).popHead l
  | .wrLine => r.finishWrite l q q.msg.data q.msg.poison
  | .wrPart =>
    if q.msg.mask = BitVec.allOnes 64 then r.finishWrite l q q.msg.data q.msg.poison
    else r.finishWrite l q (mergeBytes cur.1 q.msg.data q.msg.mask) (cur.2 || q.msg.poison)
  | .atomH =>
    match q.msg.atom with
    | none => r.popHead l
    | some a =>
      let now := match q.dirty, a.recalled with
        | some x, _ => x
        | none, some x => x
        | none, none => memData
      let ans (old : LineData) (p : Bool) : Msg := { kind := .datAtom, src := homeOf l, dst := q.msg.src, line := l, data := old, poison := p }
      if now.2 then (r.send (ans now.1 true)).popHead l
      else
        let n := 2 ^ a.lg
        let old : BitVec 128 := BitVec.ofNat 128 ((now.1 >>> (8 * a.off)).toNat % 256 ^ n)
        let v := amoResult a.op a.lg old a.a a.b
        let r := r.send (ans (old.zeroExtend 512) false)
        (r.setHead l { q with phase := .waitMAck }).putMem l q.to_ (mergeBytes now.1 (lineBytes a.off n v.toNat) (spanMask a.off n)) false 0
  | .cboC | .cboF =>
    let d := dirAfter q dir false
    match q.dirty with
    | some x => (r.setHead l { q with phase := .waitMAck }).putMem l q.to_ x.1 x.2 d
    | none =>
      if q.mem.isSome ∧ r.on HOME_CFG_DIREN ∧ d ≠ dir then (r.setHead l { q with phase := .waitMAck }).putMem l q.to_ memData.1 memData.2 d
      else (r.reply l q .done).popHead l
  | .cboI =>
    if q.mem.isSome ∧ r.on HOME_CFG_DIREN ∧ dir ≠ 0 then (r.setHead l { q with phase := .waitMAck }).putMem l q.to_ memData.1 memData.2 0
    else (r.reply l q .done).popHead l
  | .evM | .evO | .wbKeep =>
    if r.stillOwner l q then
      (((r.noteEviction l q.msg).dropShadow l q.msg.src).setHead l { q with phase := .waitMAck }).putMem l q.to_ q.msg.data q.msg.poison (dirAfter q dir false)
    else ((r.dropShadow l q.msg.src).reply l q .evAck).popHead l
  | .evC => (match q.msg.src with
      | .cxl g => r.setDev g l .I
      | _ => r).popHead l
  | _ => r.popHead l

/-- Send snoops to agents: of the line's queue (0), or of the peer snoop table (1). -/
def Run.sendSnoops (r : Run s0) (l : LineAddr) (ss : List (Agent × MsgKind)) (tag : Nat := 0) : Run s0 :=
  ss.foldl (fun r p => r.send { kind := p.2, src := homeOf l, dst := p.1, line := l, la := tag }) r

/-- The snoops that the filters call for (R170). -/
def Run.localSnoops (r : Run s0) (l : LineAddr) (m : Msg) (owner sharer : Option MsgKind) (spare : Bool) : List (Agent × MsgKind) :=
  let dies := (List.range 16).filterMap fun d =>
    if spare ∧ m.src = .die (Fin.ofNat 16 d) then none
    else match r.filtOf d l with
      | none => none
      | some f => (if f.owns then owner else sharer).map fun k => (Agent.die (Fin.ofNat 16 d), k)
  let devs := (r.slice (quadOf l)).devs.filterMap fun e =>
    if e.2.1 ≠ l ∨ m.src = .cxl (Fin.ofNat 32 e.1) then none
    else (if e.2.2 = .S then sharer else owner).map fun k => (Agent.cxl (Fin.ofNat 32 e.1), k)
  dies ++ devs

/-- A message for a peer's line goes to its owner (R180). -/
def Run.toPeer (r : Run s0) (l : LineAddr) (p : Nat) (q : HReq) (ph : Phase) (m : Msg) : Run s0 :=
  (r.setHead l { q with phase := ph }).send { m with src := homeOf l, dst := .peer (Fin.ofNat 4 p) }

/-- Another holder of a peer's line stands in this socket. -/
def Run.otherLocal (r : Run s0) (l : LineAddr) (a : Agent) : Bool :=
  (List.range 16).any (fun d => a != .die (Fin.ofNat 16 d) && (r.filtOf d l).isSome)
  || (r.slice (quadOf l)).devs.any fun e => e.2.1 == l && a != .cxl (Fin.ofNat 32 e.1)

/-- An eviction of a peer's line (R171, R174, R180): discarded where its sender no longer owns the line, else forwarded, as EvO while
another die holds it. A line that leaves the socket ends the reservations on it, since no snoop for it comes any more (R528; DESIGN CHOICE,
log entry 90). -/
def Run.proxyEvict (r : Run s0) (l : LineAddr) (p : Nat) (q : HReq) : Run s0 :=
  let m := q.msg
  if m.kind = .evC then (match m.src with
    | .cxl g => r.setDev g l .I
    | _ => r).popHead l
  else if !r.stillOwner l q then ((r.dropShadow l m.src).reply l q .evAck).popHead l
  else
    let r := (r.noteEviction l m).dropShadow l m.src
    let k : MsgKind := if m.kind = .wbKeep then .wbKeep else if r.otherLocal l m.src then .evO else .evM
    (if k = .evM then r.loseResv l else r).toPeer l p q .waitPeer { m with kind := k }

/-- A request's tracker is read with an error stored in it: it is corrected, or the error is FATAL (R459, R461, R471). -/
def Run.trackerCheck (r : Run s0) (l : LineAddr) (q : HReq) : Run s0 × HReq :=
  match q.flip with
  | none => (r, q)
  | some f =>
    let s := quadOf l
    let p := r.fresh
    let x : Rec := { event := 0x0500, cls := .ce, addr := some (l.toNat * 64), syn := f.synclass, detail := arrayDetail 0 0 f.idx (p.2.toNat % 65536) 0 }
    (if f.synclass = 3 then p.1.fatal (.home s) { x with event := 0x0501, cls := .fatal, sub := 64 + s } else p.1.logCe (.home s) 16 (64 + s) 0 l.toNat x,
      { q with flip := none })

/-- The head of a line's queue begins (R170): its snoops go out, and its memory read. A peer's line goes to its owner (R180): a request for
a copy at once, as does RdOnce; one that is done at the owner after the copies of this socket have been snooped (DESIGN CHOICE, log entry
93; R182 says so of AtomH). -/
def Run.homeStart (r : Run s0) (l : LineAddr) (q : HReq) : Run s0 :=
  let p := (r.filtCheck l).trackerCheck l q
  let r := p.1
  let q := p.2
  let m := q.msg
  let diren := r.on HOME_CFG_DIREN
  match q.to_ with
  | .peer p =>
    if sparesOwn m.kind ∨ m.kind = .rdOnce then r.toPeer l p q .waitPeer m
    else if msgClass m.kind = 1 then r.proxyEvict l p q
    else
      let r := if m.kind = .cboF ∨ m.kind = .cboI then r.loseResv l else r
      let ss := r.localSnoops l m (ownerSnoop m.kind) (sharerSnoop m.kind) false
      (r.setHead l { q with phase := .snooping, snooped := ss.map (·.1) }).sendSnoops l ss
  | _ =>
    let q := { q with held := (match m.src with
      | .die d => r.filtOf d l
      | .cxl g => ((r.slice (quadOf l)).devs.find? fun e => e.1 = g.val ∧ e.2.1 = l).map fun e => if e.2.2 = .S then .S else if e.2.2 = .O then .O else .X
      | _ => none) }
    let mem := if msgClass m.kind = 1 then diren && m.kind != .evC && !(m.kind == .evM && q.held == some .X) else diren || needsData q
    let ss := r.localSnoops l m (ownerSnoop m.kind) (sharerSnoop m.kind) (sparesOwn m.kind)
    let r := (r.setHead l { q with phase := .snooping, snooped := ss.map (·.1), needMem := mem }).sendSnoops l ss
    if mem then r.askMem l q.to_ else r

/-- A peer's line: what the proxy does once its local snoops are answered (R180, R182). Dirty data goes into an AtomH; for any other operation
at the owner it is written back first, and the operation follows (DESIGN CHOICE, log entry 93). -/
def Run.proxyFinish (r : Run s0) (l : LineAddr) (p : Nat) (q : HReq) : Run s0 :=
  match q.grant with
  | some k =>
    let g := match q.mem with
      | some m => (m.1, m.2.1)
      | none => (0, false)
    let d := q.dirty.getD g
    if k = .datCur then (r.send { kind := .datCur, src := homeOf l, dst := q.msg.src, line := l, data := d.1, poison := d.2 }).popHead l
    else if k = .datS ∨ (q.msg.kind = .rdS ∧ r.otherLocal l q.msg.src = true) then r.grantTo l q .datS .S d.1 d.2
    else if k = .gntE then (if q.dirty.isSome then r.grantTo l q .gntM .M 0 false else r.grantTo l q .gntE .E 0 false)
    else if k = .gntM then r.grantTo l q .gntM .M 0 false
    else if k = .datM ∨ q.dirty.isSome then r.grantTo l q .datM .M d.1 d.2
    else r.grantTo l q .datE .E d.1 d.2
  | none =>
    let back (x : LineData × Bool) (k : MsgKind) (st : St) : Run s0 :=
      r.toPeer l p { q with dirty := none } .waitPut { kind := k, src := homeOf l, dst := homeOf l, line := l, data := x.1, poison := x.2, st := st }
    match q.msg.kind, q.dirty with
    | .atomH, d => r.toPeer l p q .waitPeer { q.msg with atom := q.msg.atom.map fun a => { a with recalled := d } }
    | .cboC, some x => back x .wbKeep (if q.answers.any (·.2 == .E) then .E else .S)
    | .wrPart, some x => back x .evM .M
    | .cboF, some x => back x .evM .M
    | .wrLine, _ => r.toPeer l p q .waitPeer { q.msg with kind := if q.own then .evM else .wrLine, st := if q.own then .M else q.msg.st }
    | _, _ => r.toPeer l p q .waitPeer q.msg

/-- Everything that the head waited for has come: it takes effect, once a device that it grants a line to has an entry free for it (R183). -/
def Run.homeEnd (r : Run s0) (l : LineAddr) (q : HReq) : Run s0 :=
  let peer := match q.to_ with
    | .peer p => some p
    | _ => none
  match (if sparesOwn q.msg.kind && (peer.isNone || q.grant.isSome) then r.devRecall l q.msg.src else none) with
  | some (g, old) =>
    (r.setHead l { q with phase := .waitRecall, recalling := some old }).send { kind := .snpX, src := homeOf l, dst := .cxl (Fin.ofNat 32 g), line := old }
  | none => match peer with
    | some p => r.proxyFinish l p q
    | none => r.homeFinish l q

/-- A line's queue goes on while its head waits for nothing. The bound is one more than twice the queue's length. -/
def Run.homeLoop (r : Run s0) (l : LineAddr) : Nat → Run s0
  | 0 => r
  | k + 1 =>
    match r.queue l.toNat with
    | [] => r
    | q :: _ =>
      if q.phase = .queued then Run.homeLoop (r.homeStart l q) l k
      else if q.phase = .snooping ∧ q.snooped.isEmpty ∧ !q.needMem then
        Run.homeLoop (r.homeEnd l q) l k
      else r

/-- A line's queue goes on. -/
def Run.homeGo (r : Run s0) (l : LineAddr) : Run s0 := r.homeLoop l (2 * (r.queue l.toNat).length + 1)

/-- An access of an agent without a cache ends: its answer has come, or no memory has its line, and it is to be asked again. A save block's
line is written. -/
def Run.opEnd (r : Run s0) (a : Agent) (l : LineAddr) (w : Bool) (x : Option (LineData × Bool)) : Run s0 :=
  match r.1.ops.find? fun o => o.who = a ∧ o.line = l ∧ o.wr.isSome = w ∧ o.got = none with
  | none => r
  | some o =>
    let saved : Bool := w && match o.key with
      | .gate _ => true
      | _ => false
    r.act (.ops (if x.isNone || saved then r.1.ops.erase o else r.1.ops.map fun y => if y = o then { o with got := x } else y))

/-- An agent has an access under way for a line. -/
def Run.opOn (r : Run s0) (a : Agent) (l : LineAddr) (w : Bool) : Bool :=
  r.1.ops.any fun o => decide (o.who = a ∧ o.line = l ∧ o.wr.isSome = w ∧ o.got = none)

/-- A request met no memory (R21, R527): the decoder's record with the hart that asks, and the requester's outcome, without the fabric. -/
def Run.noMemory (r : Run s0) (m : Msg) : Run s0 :=
  let write := m.kind = .wrLine ∨ m.kind = .wrPart
  let r := r.logNoMemory (m.line.toNat * 64) (match m.who with
    | some h => some (1, h.val)
    | none => Agent.rec m.src)
  match m.src with
  | .die d => if msgClass m.kind = 1 then r.dieEvAck d m.line else r.dieNoMemory d m.line
  | .hart h =>
    if r.opOn m.src m.line write then
      let fetch := r.1.ops.any fun o => decide (o.key = .fetch h.val ∧ o.line = m.line ∧ o.got = none)
      (if fetch then r.modHart h fun t => { t with noMem := some m.line } else r).opEnd m.src m.line write none
    else match (r.hart h).wait with
      | some (.home a) =>
        if write then r.hartDone h m.line
        else r.trap h { cause := if a.op.owns then 7 else 5, tval := a.va }
      | _ => r.hartDone h m.line
  | .group g => r.groupRefused g.val m
  | a => if r.opOn a m.line write then r.opEnd a m.line write none else r.emit (.reply a false 0)

/-- A request or eviction reaches its home (R21, R161, R189, R327): it is decoded, takes a tracker and its place in the line's queue;
a fill names its slot's entry (R162, R163). Without a tracker it waits in flight, and so does every one once FATAL. A WrPart of every byte
is a WrLine (R176). What a peer socket or device asks to write, or gives back written, ends reservations (R528). -/
def Run.homeArrive (r : Run s0) (m : Msg) : Run s0 :=
  let l := m.line
  let s := quadOf l
  if r.1.pins.fatal then r
  else
    let t := r.decodeLine l
    let peerErt : Bool := match m.src with
      | .peer _ => (r.ertOf (l.toNat * 64)).isSome
      | _ => false
    let hidden : Bool := match m.src, t with
      | .peer _, .cxl g => !r.on (G_CFG_EXPORT g)
      | _, _ => false
    if regionOf (l.toNat * 64) ≠ .memory ∨ t = .none_ ∨ peerErt = true ∨ hidden = true then (r.take m).noMemory m
    else if !r.trackerFree s m then r.setFld (HOME_TRKSTAT_WAITED s) 1
    else
      let r := ((r.take m).trackers s m true).filtCheck l
      let r : Run s0 := match m.src with
        | .die d => if !sparesOwn m.kind then r else
          (match r.filtEntry (l3Key d l m.way) with
            | none => r.filtWrite d l m.way none
            | some e => if e.line = l then r else
              let r := if m.st.dirty ∧ e.st.owns then r.modSlice s fun x => { x with shadow := x.shadow ++ [(d.val, e.line, e.st)] } else r
              r.filtWrite d l m.way none)
        | _ => r
      let writes := m.kind = .wrLine ∨ m.kind = .wrPart ∨ m.kind = .atomH ∨ (Agent.outer m.src = true ∧ sparesOwn m.kind = true ∧ m.kind ≠ .rdS)
      let r := if writes then r.loseResv l else if Agent.outer m.src = true ∧ msgClass m.kind = 1 ∧ m.kind ≠ .evC then r.loseAway l else r
      let m := if m.kind = .wrPart ∧ m.mask = BitVec.allOnes 64 then { m with kind := .wrLine } else m
      let p := r.armTake 16 (64 + s)
      (p.1.setQueue l.toNat (r.queue l.toNat ++ [{ msg := m, to_ := t, flip := mkFlip 0 64 8 p.2 }])).homeGo l

/-- The strongest state held: M over O over E over S over I (R181). -/
def strongest (ss : List St) : St :=
  if .M ∈ ss then .M else if .O ∈ ss then .O else if .E ∈ ss then .E else if .S ∈ ss then .S else .I

/-- A snoop from the owning home of a peer's line (R181): the proxy snoops its dies by its filter and answers. -/
def Run.peerSnoopIn (r : Run s0) (m : Msg) : Run s0 :=
  let l := m.line
  let s := quadOf l
  let r := r.filtCheck l
  if 1024 ≤ (r.slice s).peerSnoops.length then r
  else
    let ss := r.localSnoops l m (some m.kind) (if m.kind = .snpX ∨ m.kind = .snpInv then some m.kind else none) false
    let r := if m.kind = .snpX ∨ m.kind = .snpInv then r.loseResv l else r
    if ss.isEmpty then
      r.send { kind := .rsp, src := homeOf l, dst := m.src, line := l, st := if r.otherLocal l .fox then .S else .I }
    else (r.modSlice s fun x => { x with peerSnoops := x.peerSnoops ++ [{ msg := m, left := ss.map (·.1) }] }).sendSnoops l ss 1

/-- A holder's answer updates the filter or device filter (R170). -/
def Run.noteAnswer (r : Run s0) (l : LineAddr) (a : Agent) (st : St) : Run s0 :=
  match a with
  | .die d => r.setFilt d l (filtSt st)
  | .cxl g => r.setDev g l st
  | _ => r

/-- A device has given up a line (R183): its dirty data takes its place in the line's queue, to be written with the directory that memory has,
and the request that waited for the entry goes on. -/
def Run.gaveUp (r : Run s0) (l : LineAddr) (dirty : Option (LineData × Bool)) (m : Msg) : Run s0 :=
  let r := match dirty with
    | some x =>
      let q : HReq := { msg := { m with kind := .evM, st := .M, data := x.1, poison := x.2 }, to_ := r.decodeLine l, own := true }
      (r.setQueue l.toNat (r.queue l.toNat ++ [q])).homeGo l
    | none => r
  match r.1.lineq.findSome? fun p => p.2.head?.bind fun q => if q.recalling = some l ∧ q.msg.src = m.src then some q else none with
  | some q =>
    let k := q.msg.line
    (r.setHead k { q with phase := .snooping, recalling := none }).homeGo k
  | none => r

/-- The answer belongs to a peer snoop, or to a device filter's recall. -/
def Run.answerElse (r : Run s0) (l : LineAddr) (s : Nat) (dirty : Option (LineData × Bool)) (m : Msg) : Run s0 :=
  match (r.slice s).peerSnoops.find? fun p => p.msg.line = l ∧ m.src ∈ p.left with
  | some p =>
    let p' := { p with left := p.left.erase m.src, dirty := if dirty.isSome then dirty else p.dirty, states := p.states ++ [m.st] }
    if p'.left.isEmpty then
      let r := r.modSlice s fun x => { x with peerSnoops := x.peerSnoops.erase p }
      let st := strongest (p'.states ++ (if r.otherLocal l .fox then [.S] else []))
      r.send { kind := if p'.dirty.isSome then .datSnp else .rsp, src := homeOf l, dst := p.msg.src, line := l, st := st,
               data := (p'.dirty.map (·.1)).getD 0, poison := (p'.dirty.map (·.2)).getD false }
    else r.modSlice s fun x => { x with peerSnoops := x.peerSnoops.map fun y => if y = p then p' else y }
  | none => r.gaveUp l dirty m

/-- A snoop's answer reaches the home (R170, R181, R183). -/
def Run.homeAnswer (r : Run s0) (m : Msg) : Run s0 :=
  let l := m.line
  let s := quadOf l
  let dirty := if m.kind = .datSnp then some (m.data, m.poison) else none
  let wasO := match m.src with
    | .die d => r.filtOf d l == some .O
    | _ => false
  let r := (r.take m).noteAnswer l m.src m.st
  let r := if Agent.outer m.src && dirty.isSome then r.loseAway l else r
  match r.queue l.toNat with
  | q :: rest =>
    if m.la = 0 ∧ m.src ∈ q.snooped then
      let q := { q with snooped := q.snooped.erase m.src, answers := q.answers ++ [(m.src, m.st)],
                        dirty := if dirty.isSome then dirty else q.dirty, discardedO := q.discardedO || (wasO && m.kind == .rsp && m.st == .I) }
      (r.setQueue l.toNat (q :: rest)).homeGo l
    else r.answerElse l s dirty m
  | [] => r.answerElse l s dirty m

/-- The memory to which a request was sent. -/
def Target.agent : Target → Option Agent
  | .dram c _ => some (.chan (Fin.ofNat 24 c))
  | .cxl g => some (.cxl (Fin.ofNat 32 g))
  | .peer p => some (.peer (Fin.ofNat 4 p))
  | .none_ => none

/-- Memory's data reaches the home (R170): the directory may call for peer snoops. -/
def Run.homeMem (r : Run s0) (m : Msg) : Run s0 :=
  let l := m.line
  let r := r.take m
  match r.queue l.toNat with
  | q :: rest =>
    if !q.needMem ∨ q.to_.agent ≠ some m.src then r
    else
      let q := { q with needMem := false, mem := some (m.data, m.poison, m.dir) }
      let ps := r.peersOn.filterMap fun p =>
        if q.msg.src = .peer (Fin.ofNat 4 p) then none else (peerSnoop q.msg.kind m.dir).map fun k => (Agent.peer (Fin.ofNat 4 p), k)
      let ps := if r.on HOME_CFG_DIREN then ps else []
      ((r.setQueue l.toNat ({ q with snooped := q.snooped ++ ps.map (·.1) } :: rest)).sendSnoops l ps).homeGo l
  | [] => r

/-- Memory has accepted a write (R170): a directory change, or the write that an operation waited for, which is complete. -/
def Run.homeWritten (r : Run s0) (m : Msg) : Run s0 :=
  let l := m.line
  let r := r.take m
  if l ∈ (r.slice (quadOf l)).loose then r.modSlice (quadOf l) fun s => { s with loose := s.loose.erase l }
  else match r.queue l.toNat with
  | q :: _ =>
    if q.phase ≠ .waitMAck ∨ q.to_.agent ≠ some m.src then r
    else
      let r := match msgClass q.msg.kind, q.msg.kind with
        | 1, _ => r.reply l q .evAck
        | _, .atomH => r
        | _, _ => r.reply l q .done
      (r.popHead l).homeGo l
  | [] => r

/-- The die of a stash target (R177). -/
def stashDie : Option Agent → Option Agent
  | some (.die d) => some (.die d)
  | some (.tile n) => some (.die (Fin.ofNat 16 (n.val / 16)))
  | _ => none

/-- An Ack of the requester, or of a stash target, reaches the home (R170): the request is complete; a proxy passes it on (R180), a stashed
write is done. -/
def Run.homeAck (r : Run s0) (m : Msg) : Run s0 :=
  let l := m.line
  let r := r.take m
  match r.queue l.toNat with
  | q :: _ =>
    let write := q.msg.kind = .wrLine ∨ q.msg.kind = .wrPart
    if q.phase ≠ .waitAck ∨ (if write then stashDie q.msg.stash else some q.msg.src) ≠ some m.src then r
    else
      let r := match q.to_ with
        | .peer p => r.send { kind := .ack, src := homeOf l, dst := .peer (Fin.ofNat 4 p), line := l }
        | _ => r
      let r := if write then r.reply l q .done else r
      (r.popHead l).homeGo l
  | [] => r

/-- A stash target answers (R177). -/
def Run.homeStash (r : Run s0) (m : Msg) : Run s0 :=
  let l := m.line
  let r := r.take m
  match r.queue l.toNat with
  | q :: _ =>
    if q.phase ≠ .waitStash ∨ stashDie q.msg.stash ≠ some m.src then r
    else
      let x := q.dirty.getD (0, false)
      match m.kind, m.src with
      | .stashAcc, .die d =>
        let r := (r.filtWrite d l m.way (some .X)).rewriteDir l q 0
        (r.setHead l { q with phase := .waitAck }).send { kind := .datStash, src := homeOf l, dst := m.src, line := l, data := x.1, poison := x.2, stash := q.msg.stash, way := m.way }
      | _, _ => (r.setHead l { q with phase := .waitMAck }).putMem l q.to_ x.1 x.2 0
  | [] => r

/-- An answer of the owning socket reaches the proxy (R180): a grant is made consistent with the local dies first, and so is the value of a
RdOnce; after dirty data has been accepted the operation follows; anything else is passed on. -/
def Run.proxyAnswer (r : Run s0) (m : Msg) : Run s0 :=
  let l := m.line
  let r := r.take m
  match r.queue l.toNat with
  | q :: _ =>
    if q.to_.agent ≠ some m.src then r
    else if q.phase = .waitPut then (if m.kind = .evAck then (r.setHead l { q with phase := .waitPeer }).send { q.msg with src := homeOf l, dst := m.src }
      else if m.kind = .rsp then ((r.popHead l).noMemory q.msg).homeGo l else r)
    else if q.phase ≠ .waitPeer then r
    else if m.kind ∈ [.datS, .datE, .datM, .gntE, .gntM, .datCur] then
      let own := q.msg.kind ≠ .rdS
      let ss := if m.kind = .datCur then r.localSnoops l q.msg (some .snpCur) none false
        else r.localSnoops l q.msg (if own then some .snpX else some .snpS) (if own then some .snpInv else none) true
      ((r.setHead l { q with phase := .snooping, snooped := ss.map (·.1), grant := some m.kind, mem := some (m.data, m.poison, 0) }).sendSnoops l ss).homeGo l
    else if q.own then (r.popHead l).homeGo l
    else if m.kind = .rsp then ((r.popHead l).noMemory q.msg).homeGo l
    else ((r.send { m with src := homeOf l, dst := q.msg.src, kind := if msgClass q.msg.kind = 1 then .evAck else m.kind }).popHead l).homeGo l
  | [] => r

end Sys2Proof.Machine
end

