-- ==== Sys2Proof/Machine/Settle.lean ====
section
/-! DEFINITION. Memory channels' and harts' ends of the fabric, delivery of a message, and what harts do of themselves after a
command: parks that end, PAUSE, interrupts, forced exits and pending debug halts (R59, R81, R239, R387, R390). -/
namespace Sys2Proof.Machine

variable {s0 : State}

/-- A Weir event (R445): its bit is set, and APLIC source 146 asserted where EVTEN has the same bit. -/
def Run.weirEvt (r : Run s0) (f : FRef) : Run s0 :=
  let r := r.setFld f 1
  if natBit (r.reg WEIR_EVTEN).toNat f.lo then r.aplicEdge 146 else r

/-- A DOMCMD request ends with a status (R444, R445). -/
def Run.domEnd (r : Run s0) (st : Nat) : Run s0 :=
  let r := ((r.setFld WEIR_DOMCMD_ST st).setFld WEIR_DOMCMD_BUSY 0).weirEvt WEIR_EVT_DOMDONE
  r.act (.weir { r.1.weir with hold := none })

/-- A trigger ends the cleaning of a domain (R426); a GATEHOLD that it ends is over. -/
def Run.endClean (r : Run s0) (dom : Nat) : Run s0 :=
  let r := r.setFld (DOM_STAT_STATE dom) 0
  if r.1.weir.hold = some dom then r.domEnd stOk else r

/-- A wake trigger reaches an IOD domain (R425, R426, R440, R444): a gated one that is not held wakes with its ramp, one being
cleaned or with stopped clocks goes on. -/
def Run.wakeDom (r : Run s0) (dom : Nat) : Run s0 :=
  match r.fld (DOM_STAT_STATE dom) with
  | 3 => if r.on (DOM_STAT_HOLD dom) then r else r.setFld (DOM_STAT_STATE dom) 1
  | 2 => r.endClean dom
  | 4 => r.setFld (DOM_STAT_STATE dom) 0
  | _ => r

/-- A channel serves an MRd or MWr (R240), at the channel-local address that its request carries (R22), under the key slot that it read at
acceptance (R246). -/
def Run.chanServe (r : Run s0) (c : Nat) (m : Msg) (k : KeySlot) : Run s0 :=
  let a := m.line.toNat * 64
  let back (k : MsgKind) : Msg := { kind := k, src := .chan (Fin.ofNat 24 c), dst := m.src, line := m.line }
  if m.kind = .mRd then
    let p := r.dramRead c m.la a k
    p.1.send { back .mDat with data := p.2.1, poison := p.2.2.1, dir := Fin.ofNat 4 p.2.2.2 }
  else (r.dramWrite c m.la a m.data m.poison m.dir.val k).send (back .mAck)

/-- A message reaches a channel: served, or held in acceptance order (R240). -/
def Run.chanArrive (r : Run s0) (c : Nat) (m : Msg) : Run s0 :=
  if 256 ≤ (r.chan c).held.length then r
  else
    let r := ((r.take m).bufferPass 16 (129 + c) (some m.line)).wakeDom (domChan c)
    let k := r.memSlot (m.line.toNat * 64)
    if r.chanHolds c then r.modChan c fun x => { x with held := x.held ++ [(m, k)] } else r.chanServe c m k

/-- What a channel held is served in order. -/
def Run.chanRelease (r : Run s0) (c : Nat) : Run s0 :=
  if r.chanHolds c then r
  else
    let ms := (r.chan c).held
    ms.foldl (fun r p => r.chanServe c p.1 p.2) (if ms.isEmpty then r else r.modChan c fun x => { x with held := [] })

/-- A home's answer reaches an agent that has no cache. -/
def Run.opArrive (r : Run s0) (m : Msg) : Run s0 :=
  let r := r.take m
  match m.kind with
  | .datCur => r.opEnd m.dst m.line false (some (m.data, m.poison))
  | .done => r.opEnd m.dst m.line true (some (0, false))
  | _ => r.emit (.reply m.dst true m.data)

/-- A home's answer reaches a hart: a line of a save block, data of an NC load or an AMO on the home path, or the end of an NC store or CBO. -/
def Run.hartArrive (r : Run s0) (h : Nat) (m : Msg) : Run s0 :=
  if (m.kind = .datCur ∨ m.kind = .done) ∧ r.opOn m.dst m.line (m.kind == .done) then r.opArrive m
  else
  let r := r.take m
  match m.kind, (r.hart h).wait with
  | .datCur, some (.home a) =>
    match a.parts with
    | p :: rest =>
      if m.poison && !p.covered a.fwd then r.consume h a.op.src m.line a.va
      else
        let a := { a with got := gather a.got a.fwd p m.data, parts := rest }
        match rest with
        | [] => r.finishAcc h a m.line
        | q :: _ => (r.modHart h fun t => { t with wait := some (.home a) }).send { kind := .rdOnce, src := .hart (Fin.ofNat 1024 h), dst := homeOf q.line, line := q.line }
    | [] => r
  | .datAtom, some (.home a) =>
    if m.poison then r.consume h 1 m.line a.va
    else match a.op with
      | .amo rd _ _ _ => ((r.writeAmo h rd a.lg (m.data.extractLsb' 0 128)).tally h 0x0051 1).retire h
      | _ => r
  | .done, _ => r.hartDone h m.line
  | _, _ => r

/-- A message arrives at its receiver (R167). What leaves the package is gone. -/
def Run.deliver (r : Run s0) (m : Msg) : Run s0 :=
  match m.dst with
  | .die d =>
    match m.src, m.kind with
    | .tile n, .evM => r.tileEvict m n.val
    | .tile n, .evC => r.tileEvict m n.val
    | .tile n, .rdS => (r.take m).go [.quad n.val m.line .rdS]
    | .tile n, .rdX => (r.take m).go [.quad n.val m.line .rdX]
    | .tile n, .upg => (r.take m).go [.quad n.val m.line .upg]
    | .tile n, .claim => (r.take m).go [.quad n.val m.line .claim]
    | _, .snpS | _, .snpX | _, .snpInv | _, .snpCln | _, .snpCur => r.dieSnoop d.val m
    | _, .stashOffer => r.dieStash d.val m
    | _, .datStash => (r.take m).dieStashData d.val m
    | _, .evAck => (r.take m).dieEvAck d.val m.line
    | _, .datS | _, .datE | _, .datM | _, .gntE | _, .gntM => (r.take m).dieGrant d.val m
    | _, _ => r.take m
  | .home _ =>
    match msgClass m.kind, m.kind, m.src with
    | 0, _, _ => r.homeArrive m
    | 1, _, _ => r.homeArrive m
    | 2, _, .peer _ => (r.take m).peerSnoopIn m
    | _, .ack, _ => r.homeAck m
    | _, .mDat, _ => r.homeMem m
    | _, .mAck, _ => r.homeWritten m
    | _, .stashAcc, _ => r.homeStash m
    | _, .stashDec, _ => r.homeStash m
    | _, .rsp, .peer _ =>
      match r.queue m.line.toNat with
      | q :: _ => if q.to_.agent = some m.src then r.proxyAnswer m else r.homeAnswer m
      | [] => r.homeAnswer m
    | _, .rsp, _ => r.homeAnswer m
    | _, .datSnp, _ => r.homeAnswer m
    | _, _, .peer _ => r.proxyAnswer m
    | _, _, _ => r.take m
  | .chan c => if m.kind = .mRd ∨ m.kind = .mWr then r.chanArrive c.val m else r.take m
  | .hart h => r.hartArrive h.val m
  | .group g => (r.take m).groupArrive g.val m
  | .peer _ | .cxl _ => (r.take m).emit (.reply m.dst true m.data)
  | _ => r.opArrive m

/-- A packet that crosses a Rill link has stood in the class buffer of its sender's side (R190, R460). -/
def Run.linkBuffer (r : Run s0) (m : Msg) : Run s0 :=
  match linkOf m with
  | some d => if Agent.onDie m.src = some d then r.bufferPass d 140 (some m.line) else r.bufferPass 16 (68 + d) (some m.line)
  | none => r

/-- A packet has passed the check of its destination, which strips check value and number (R34): it arrives, where it is in flight and has
its turn. -/
def Run.accept (r : Run s0) (m : Msg) : Run s0 := if r.arrives m then (r.linkBuffer m).deliver m else r

/-- The event of a row of R167: a message of that kind reaches its destination's stop, which checks it (R34, R206, R207). A duplicate is
discarded and is a CE; a packet corrupted, misdirected or after a lost one is FATAL, and no block acts on it. -/
def Run.message (r : Run s0) (k : MsgKind) (p : Msg) : Run s0 :=
  let m := { p with kind := k, num := 0, intact := true }
  match seqKey m, stopOf m.dst m.line with
  | some i, some u =>
    if p.intact && r.behind i p == 0 then r.accept m
    else if !r.passes m || r.1.pins.fatal then r
    else if p.intact && decide (r.behind i p ≤ 2048) then r.logRec (stopBank u) { event := 0x0302, cls := .ce }
    else r.fatal (stopBank u) { event := 0x0301, cls := .fatal }
  | _, _ => r.accept m

/-- The bits of DW.PARK's conditions that hold for a park (R81); INT alone for WFI, INT and the reservation for WRS (R59). -/
def Run.parkBits (r : Run s0) (h : Nat) (p : Park) : Nat :=
  let t := r.hart h
  let int := if r.wfiHolds h then 1 else 0
  let mon := if (p.mon && t.resv.isNone) then 4 else 0
  match p.kind with
  | .wfi => int
  | .wrsNto => int + mon
  | .wrsSto => int + mon
  | .dwPark =>
    let d := dieOf (tileOf h)
    let lost := r.on (TBRX_STATUS_LOST d)
    let wake := if t.wake then 2 else 0
    match p.deadline with
    | none => int + wake + mon
    | some v =>
      let now := BitVec.ofNat 64 (r.dieTime d) + p.delta
      int + wake + mon + (if !lost && decide (v ≤ now) then 8 else 0) + (if lost then 16 else 0)

/-- A hart leaves its park: rd takes the conditions that ended it, and the next instruction follows (R81). -/
def Run.leavePark (r : Run s0) (h : Nat) (p : Park) (bits : Nat) : Run s0 :=
  let r := if p.kind = .dwPark then r.setXr h p.rd (BitVec.ofNat 64 bits) else r
  let r := r.modHart h fun t => { t with park := none }
  let r := r.modTile (tileOf h) fun t => { t with idle := false }
  (r.setRun h .running).retire h

/-- The wake flag clears where a park reports it (R81). -/
def Run.reportWake (r : Run s0) (h bits : Nat) : Run s0 := if natBit bits 1 then r.modHart h fun t => { t with wake := false } else r

/-- The park ends at once: a reported WAKE clears the flag. -/
def Run.endPark (r : Run s0) (h : Nat) (p : Park) (bits : Nat) : Run s0 := (r.reportWake h bits).leavePark h p bits

/-- The park of a hart ends while its tile is gated or waking (R81, R83): the conditions of that moment are kept for rd, a reported WAKE clears
the flag, and a later wake stays in it. -/
def Run.markEnd (r : Run s0) (h : Nat) (p : Park) (bits : Nat) : Run s0 :=
  match p.ended with
  | some _ => r
  | none => (r.reportWake h bits).modHart h fun t => { t with park := some { p with ended := some bits } }

/-- The highest-priority interrupt that a hart takes now, if any (R55): enabled in its level and above the mode's enables, and
none while mnstatus.NMIE is 0 (Smrnmi). -/
def Run.takes (r : Run s0) (h : Nat) : Option Nat :=
  let t := r.hart h
  let p := r.mip h &&& r.csr h 0x304
  let deleg := r.csr h 0x303
  let hd := r.csr h 0x603
  let m := if t.mode ≠ .m ∨ r.cb h 0x300 3 then p &&& ~~~ deleg else 0
  let s := if t.mode = .u ∨ t.mode.virt ∨ (t.mode = .s ∧ r.cb h 0x300 1) then p &&& deleg &&& ~~~ hd else 0
  let v := if t.mode = .vu ∨ (t.mode = .vs ∧ r.cb h 0x200 1) then p &&& deleg &&& hd else 0
  let pick (w : Word) : Option Nat := [11, 3, 7, 9, 1, 5, 12, 10, 2, 6, 13].find? fun i => w.getLsbD i
  if t.mode = .debug ∨ !r.cb h 0x744 3 ∨ (r.cb h 0x7B0 2 && !r.cb h 0x7B0 11) then none
  else match pick m with
    | some i => some i
    | none => match pick s with
      | some i => some i
      | none => pick v

/-- A hart enters Debug Mode (R82, Sdext): a park ends with rd = 0, dpc and dcsr record where it was. -/
def Run.enterDebug (r : Run s0) (h : Nat) : Run s0 :=
  let t := r.hart h
  let r := match t.park with
    | some p => r.leavePark h p (p.ended.getD 0)
    | none => r
  let t := r.hart h
  let dcsr := Word.setBits (Word.setBits (Word.setBits (r.csr h 0x7B0) 8 6 t.dbgCause) 1 0 t.mode.prv) 5 5 (if t.mode.virt then 1 else 0)
  let r := (r.setCsr h 0x7B0 dcsr).setCsr h 0x7B1 t.pc
  (r.modHart h fun t => { t with mode := .debug, dbgPend := false, dbgCause := 3, trigPend := none, pause := false, wait := none }).setRun h .debug

/-- A gated tile is asked to wake (R72, R425): its domain shows waking until its metered step. A held domain stays gated; one being cleaned is on
at once (R426). -/
def Run.wakeTile (r : Run s0) (n : Nat) : Run s0 :=
  let dom := domTile n
  match r.fld (DOM_STAT_STATE dom) with
  | 3 => if r.on (DOM_STAT_HOLD dom) then r else r.setFld (DOM_STAT_STATE dom) 1
  | 2 => r.endClean dom
  | _ => r

/-- What a hart does of itself: a debug halt that waited, the end of its park or PAUSE, an interrupt. A park ends on a core
that holds an enclave only after the forced exits of R387; on a gated tile only once the tile has woken. Requests that its tile
delayed try again (R186). -/
def Run.settleHart (r : Run s0) (h : Nat) : Run s0 :=
  let n := tileOf h
  let r := (List.range 4).foldl (fun r q => if (r.quad (dieOf n * 4 + q)).waiting.isEmpty then r else r.go [.retry (dieOf n * 4 + q)]) r
  let t := r.hart h
  if t.run = .fatal ∨ t.run = .held then r
  else if t.dbgPend && (t.eid == 0 || (r.1.fox.rights.getLsbD 0 && r.1.fox.rights.getLsbD 1)) && t.wait.isNone && t.run != .debug then r.enterDebug h
  else match t.park with
    | some p =>
      let b := p.ended.getD (r.parkBits h p)
      if b = 0 then r
      else if r.fld (DOM_STAT_STATE (domTile n)) = 2 then ((r.wakeTile n).endPark h p b).pokeHart h
      else if r.fld (DOM_STAT_STATE (domTile n)) = 3 ∨ r.fld (DOM_STAT_STATE (domTile n)) = 1 then (r.markEnd h p b).wakeTile n
      else
        let ce := (r.tile n).ceid
        let r := if t.eid = 0 ∧ ce ≠ 0 then r.leaveCore n ce else r
        (if p.ended.isSome then r.leavePark h p b else r.endPark h p b).pokeHart h
    | none =>
      let r := if t.pause && r.wfiHolds h then r.modHart h fun t => { t with pause := false } else r
      if r.ready h then match (r.hart h).trigPend with
        | some i =>
          let r := r.modHart h fun t => { t with trigPend := none }
          if r.trigMay h (r.trig h i) then r.fire h i 0 else r
        | none => match r.takes h with
          | some i => r.trap h { cause := i, intr := true }
          | none => r
      else r

/-- Harts whose conditions a command touched settle, one after another. -/
def Run.settleLoop (r : Run s0) : Nat → Run s0
  | 0 => r.act (.poke [])
  | k + 1 =>
    match r.1.poke with
    | [] => r
    | h :: hs => Run.settleLoop ((r.act (.poke hs)).settleHart h) k

/-- The grant that a die under fence would have received is not delivered (R217): data that would have made it the only holder
of a dirty line goes back to the line's home unpoisoned, anything else is dropped, and its entry becomes I. -/
def Run.fencedGrant (r : Run s0) (d : Nat) (m : Msg) : Run s0 :=
  let l := m.line
  let r := r.setFilt d l none
  match r.queue l.toNat with
  | q :: _ =>
    if q.phase ≠ .waitAck then r
    else match q.to_ with
      | .peer p =>
        let to_ : Agent := .peer (Fin.ofNat 4 p)
        let r := r.send { kind := .ack, src := homeOf l, dst := to_, line := l }
        let r := if m.kind = .datM then r.send { kind := .evM, src := homeOf l, dst := to_, line := l, data := m.data, poison := m.poison } else r
        (r.popHead l).homeGo l
      | _ =>
        if m.kind = .datM ∨ m.kind = .datStash then (r.setHead l { q with phase := .waitMAck }).putMem l q.to_ m.data m.poison 0
        else (r.popHead l).homeGo l
  | [] => r

/-- The home treats a message for a die that is not online (R217): it answers snoops itself, with poisoned data where the die's
entry shows O or X, declines stash offers for it, and delivers nothing. -/
def Run.fencedMsg (r : Run s0) (d : Nat) (m : Msg) : Run s0 :=
  let r := r.take m
  let l := m.line
  let back (k : MsgKind) (p : Bool) : Msg := { kind := k, src := m.dst, dst := m.src, line := l, st := .I, poison := p, la := m.la }
  match m.dst, m.kind with
  | .die _, .snpS | .die _, .snpX | .die _, .snpInv | .die _, .snpCln | .die _, .snpCur =>
    let owns := (r.filtOf d l).any FSt.owns
    let r := if owns ∧ m.kind ≠ .snpInv then r.modDie d fun x => { x with poisoned := x.poisoned + 1 } else r
    r.homeAnswer (back (if owns then .datSnp else .rsp) owns)
  | .die _, .stashOffer => r.homeStash (back .stashDec false)
  | .die _, .datStash | .die _, .datS | .die _, .datE | .die _, .datM | .die _, .gntE | .die _, .gntM => r.fencedGrant d m
  | _, _ => r

/-- The die not online that a message in flight is for. -/
def State.fencedDie (s : State) (m : Msg) : Option Nat :=
  match Agent.onDie m.dst with
  | some d => if s.online d || Agent.onDie m.src == some d then none else some d
  | none => none

/-- The die not online that a message in flight is for. -/
def Run.fencedDie (r : Run s0) (m : Msg) : Option Nat := r.1.fencedDie m

/-- Messages in flight to dies that are not online are treated one after another. -/
def Run.settleFence (r : Run s0) : Nat → Run s0
  | 0 => r
  | k + 1 =>
    match r.1.net.findSome? fun m => (r.fencedDie m).map fun d => (d, m) with
    | some (d, m) => Run.settleFence (r.fencedMsg d m) k
    | none => r

/-- The first interrupt write discarded in an offline period is recorded (R218). -/
def Run.settleDrops (r : Run s0) : Run s0 :=
  r.1.dies.foldl (fun r p => if p.2.drop = 1 then
      (r.modDie p.1 fun x => { x with drop := 2 }).logRec (.rlink p.1) { event := 0x0707, cls := .ucna }
    else r) r

/-- A bound on the harts that one command touches; no command comes near it. -/
def settleBound : Nat := 16384

/-- What follows from a command of itself: messages for dies that are not online, the record of a discarded interrupt write,
and harts whose conditions it touched. -/
def Run.settle (r : Run s0) : Run s0 := ((r.settleFence settleBound).settleDrops).settleLoop settleBound

/-- There is room for one more access under way: 256 line reads and 256 output lines for an engine (R261), 512 translation slots of the
IOMMU (R190). -/
def Run.opRoom (r : Run s0) (o : Op) : Bool :=
  match o.who with
  | .phlox _ => decide ((r.1.ops.filter fun x => x.who == o.who && x.got.isNone && x.wr.isSome == o.wr.isSome).length < 256)
  | .iommu =>
    let ks := ((r.1.ops.filter fun x => x.who == .iommu).map (·.key)).dedup
    decide (o.key ∈ ks) || decide (ks.length < 512)
  | _ => true

/-- The message of an access. -/
def Op.msg (o : Op) : Msg :=
  let m : Msg := { kind := .rdOnce, src := o.who, dst := homeOf o.line, line := o.line }
  match o.wr with
  | none => m
  | some w => { m with kind := w.cbo.getD (if w.mask = BitVec.allOnes 64 then .wrLine else .wrPart), data := w.data, mask := w.mask, poison := w.poison, stash := w.stash }

/-- An access begins, unless it is under way or has no room: a walk's asks its tile for the line, any other goes to the line's home. -/
def Run.beginOp (r : Run s0) (o : Op) : Run s0 :=
  if (r.1.ops.any fun x => decide (x.key = o.key ∧ x.who = o.who ∧ x.line = o.line ∧ x.wr = o.wr)) || !r.opRoom o then r
  else
    let r := r.act (.ops (r.1.ops ++ [o]))
    match o.key, o.who with
    | .walk h, .tile n => (r.miss n o.line false false (.walk h)).go [.launch n o.line]
    | _, _ => r.send o.msg

/-- A command has its effect: the answers that it used are gone. -/
def Run.commit (r : Run s0) : Run s0 :=
  if r.1.need = {} then r else (r.dropOps fun o => o.got.isSome && decide (o.key ∈ r.1.need.used)).act (.need {})

/-- The end of a command: the block settles, and the state stands. A command that still needs accesses has no effect but to begin them (log
entry 91). -/
def Run.done (r : Run s0) : Host.Outcome State Fault Refusal :=
  if r.1.need.stuck || !r.1.need.asks.isEmpty then (r.1.need.asks.foldl (fun q o => q.beginOp o) (Run.start s0)).settle.finish
  else r.commit.settle.finish

/-- Every hart of a die that the state lists is looked at again: time has moved or its stream was lost. -/
def Run.pokeDie (r : Run s0) (d : Nat) : Run s0 :=
  r.1.harts.foldl (fun r p => if dieOf (tileOf p.1) = d then r.pokeHart p.1 else r) r

end Sys2Proof.Machine
end

