-- ==== Sys2Proof/Machine/Iommu.lean ====
section
/-! DEFINITION. The IOMMU (R336 to R340, R491): its registers, the device and process contexts, translation, faults, queues and
commands. What R336 leaves to the RISC-V IOMMU specification 1.0 is PRESUMED from it (log entry 6). -/
namespace Sys2Proof.Machine

variable {s0 : State}

/-- A 32-bit word of the IOMMU's registers. -/
def Run.io32 (r : Run s0) (o : Nat) : Nat := (r.1.iommu.regs.get 0 (o / 4)).toNat

/-- Change a 32-bit word of the IOMMU's registers. -/
def Run.setIo32 (r : Run s0) (o v : Nat) : Run s0 :=
  r.act (.iommu { r.1.iommu with regs := r.1.iommu.regs.upd (o / 4) (listed 0 (BitVec.ofNat 32 v)) })

/-- A 64-bit register of the IOMMU. -/
def Run.io64 (r : Run s0) (o : Nat) : Nat := r.io32 o + r.io32 (o + 4) * 2 ^ 32

/-- Change a 64-bit register. -/
def Run.setIo64 (r : Run s0) (o v : Nat) : Run s0 := (r.setIo32 o (v % 2 ^ 32)).setIo32 (o + 4) (v / 2 ^ 32 % 2 ^ 32)

/-- Bit i of a 32-bit word. -/
def Run.ioBit (r : Run s0) (o i : Nat) : Bool := natBit (r.io32 o) i

/-- Change bit i of a 32-bit word. -/
def Run.setIoBit (r : Run s0) (o i : Nat) (b : Bool) : Run s0 := r.setIo32 o (natSetBits (r.io32 o) i i (if b then 1 else 0))

/-- The capabilities register (R336): version 1.0, Sv39, Sv48, Sv57 and their x4 forms, flat MSI tables, ATS, MSI interrupts,
performance counters, 52 address bits, PD8, PD17 and PD20. -/
def ioCaps : Nat := 0x10 + 7 * 2 ^ 9 + 7 * 2 ^ 17 + 2 ^ 22 + 2 ^ 25 + 2 ^ 30 + 52 * 2 ^ 32 + 7 * 2 ^ 38

/-- Where a 32-bit write to the register window by an I/O agent goes (R338, R340): a hart's file, or an IMSIC page of a peer. -/
inductive MsiDst
  | file (h f : Nat)
  | peer (p off : Nat)
deriving DecidableEq, Repr

/-- The destination of a 32-bit write at a physical address, if R338 allows one. -/
def Run.msiDst (r : Run s0) (pa : Nat) : Option MsiDst :=
  let w := pa - 0xFFF0000000000
  if regionOf pa ≠ .window ∨ ¬ (pa % 4096 = 0 ∨ pa % 4096 = 4) then none
  else if w < 2 ^ 36 then (imsicPage w).map fun x => .file x.1 x.2
  else if 0x4000000000 ≤ w ∧ w < 0x8000000000 then
    let p := (w - 0x4000000000) / 2 ^ 36
    if p ≠ r.fld SOCK_CFG_ID ∧ p ∈ r.peersOn ∧ (imsicPage (w % 2 ^ 36)).isSome then some (.peer p (w % 2 ^ 36)) else none
  else none

/-- The identity that 32 bits written at an offset of a page name: little-endian at 0x000, big-endian at 0x004 (R70). -/
def msiId (off v : Nat) : Nat :=
  if off % 4096 = 4 then v % 256 * 2 ^ 24 + v / 2 ^ 8 % 256 * 2 ^ 16 + v / 2 ^ 16 % 256 * 2 ^ 8 + v / 2 ^ 24 % 256 else v % 2 ^ 32

/-- Pending interrupt sources of the IOMMU: which vector of icvec each uses. -/
def Run.ioVec (r : Run s0) (k : Nat) : Nat := natBits (r.io32 0x2F8) (4 * k + 3) (4 * k)

/-- Memory that the IOMMU may read and write itself (R338): memory-like, decoded and in no enclave range. -/
def Run.ioReach (r : Run s0) (a : Nat) : Bool :=
  regionOf a == .memory && r.decode a != .none_ && (r.ertOf a).isNone

/-- Read 64 bits for the IOMMU: an error says whether they are corrupted (poisoned), or not to be reached. -/
def Run.ioRead (r : Run s0) (a : Nat) : Run s0 × Except Bool Nat :=
  if !r.ioReach a then (r, .error false)
  else
    let p := r.rdBytes (a / 8 * 8) 8 .iommu
    let r := p.1.settleUp
    if p.2.2 then (r, .error true) else (r, .ok p.2.1)

/-- The IOMMU writes n bytes of memory itself; what follows waits for the write. -/
def Run.ioStore (r : Run s0) (a n v : Nat) : Run s0 := (r.wrSpan a n v .iommu 2).settleUp

/-- A transaction as the IOMMU judges it: device, process, privilege, whether it writes, its type code for a fault record, its
address, and its requester for the error bank. -/
structure IoAcc where
  did : Nat
  pid : Option Nat := none
  priv : Bool := false
  write : Bool
  ttyp : Nat
  iova : Nat
  who : Option (Nat × Nat) := none
deriving DecidableEq, Repr

/-- A queue of the IOMMU: its entries, from the size field of its base register. -/
def Run.ioSize (r : Run s0) (base : Nat) : Nat := 2 ^ (r.io32 base % 32 + 1)

/-- The address of a queue. -/
def Run.ioBase (r : Run s0) (base : Nat) : Nat := natBits (r.io64 base) 53 10 * 4096

/-- Write an entry of n bytes at the tail of the fault or page-request queue: base, csr. Nothing is written while the queue is off
or its overflow or memory-fault bit is set; a full queue sets the overflow bit. -/
def Run.ioPut (r : Run s0) (base csr n v : Nat) : Run s0 :=
  let head := r.io32 (base + 8)
  let tail := r.io32 (base + 12)
  let next := (tail + 1) % r.ioSize base
  let a := r.ioBase base + tail * n
  if !r.ioBit csr 16 ∨ r.ioBit csr 8 ∨ r.ioBit csr 9 then r
  else if next = head then r.setIoBit csr 9 true
  else if !r.ioReach a then r.setIoBit csr 8 true
  else (r.ioStore a n v).setIo32 (base + 12) next

/-- A message of the IOMMU goes out at vector v, or waits while the vector is masked; a bad address is fault 273. -/
def Run.ioMsi (r : Run s0) (v : Nat) : Run s0 :=
  let e := 0x300 + 16 * v
  if r.ioBit (e + 12) 0 then r.act (.iommu { r.1.iommu with waits := natSetBits r.1.iommu.waits v v 1 })
  else
    let pa := r.io64 e
    let i := msiId pa (r.io32 (e + 8))
    match r.msiDst pa with
    | some (.file h f) => let p := r.fresh; p.1.msiTo false 16 (p.2.toNat % 65536) h f i
    | some (.peer p off) => r.emit (.peerMsi (Fin.ofNat 4 p) off i)
    | none =>
      if r.ioReach pa then r.ioStore pa 4 (r.io32 (e + 8)) else r.ioPut 0x28 0x4C 32 (273 + pa * 2 ^ 128)

/-- Source k of ipsr becomes pending: 0 command queue, 1 fault queue, 2 counters, 3 page requests. -/
def Run.ioRaise (r : Run s0) (k : Nat) : Run s0 :=
  if r.ioBit 0x54 k then r else (r.setIoBit 0x54 k true).ioMsi (r.ioVec k)

/-- The source k asks for its interrupt while it is enabled. -/
def Run.ioAsk (r : Run s0) (k : Nat) : Run s0 :=
  let csr := if k = 0 then 0x48 else if k = 1 then 0x4C else 0x50
  if k = 2 ∨ r.ioBit csr 1 then r.ioRaise k else r

/-- An entry enters a queue, and source k asks for its interrupt. -/
def Run.ioPush (r : Run s0) (base csr k n v : Nat) : Run s0 :=
  if !r.ioBit csr 16 ∨ r.ioBit csr 8 ∨ r.ioBit csr 9 then r else (r.ioPut base csr n v).ioAsk k

/-- A fault record (RISC-V IOMMU 1.0): `dtf` suppresses those that the device context disables. -/
def Run.ioFault (r : Run s0) (a : IoAcc) (cause : Nat) (tval2 : Nat) (dtf : Bool) : Run s0 :=
  if dtf && !(cause ∈ [256, 257, 258, 259, 268, 273]) then r
  else
    let w0 := cause + a.pid.getD 0 * 2 ^ 12 + (if a.pid.isSome then 2 ^ 32 else 0) + (if a.priv && a.pid.isSome then 2 ^ 33 else 0) + a.ttyp * 2 ^ 34 + a.did * 2 ^ 40
    r.ioPush 0x28 0x4C 1 32 (w0 + a.iova * 2 ^ 128 + tval2 * 2 ^ 192)

/-- An event counter takes a step: an overflow sets its OF bit and raises the counters' interrupt. -/
def Run.ioBump (r : Run s0) (i : Nat) : Run s0 :=
  let c := 0x68 + 8 * (i - 1)
  let e := 0x160 + 8 * (i - 1)
  let v := r.io64 c + 1
  let r := r.setIo64 c (v % 2 ^ 64)
  if v < 2 ^ 64 ∨ r.ioBit (e + 4) 31 then r else (r.setIoBit (e + 4) 31 true).ioRaise 2

/-- Event `ev` occurs for a transaction: counters 1 to 7 that select it and whose filters pass count it (R491). -/
def Run.ioCount (r : Run s0) (ev : Nat) (a : IoAcc) (ids : Option (Nat × Nat)) : Run s0 :=
  (List.range 7).foldl (fun r j =>
    let i := j + 1
    let e := r.io64 (0x160 + 8 * j)
    let byIds := natBit e 62
    let did := if byIds then ids.map (·.1) else some a.did
    let pid := if byIds then ids.map (·.2) else a.pid
    let want := natBits e 59 36
    let m := if natBit e 15 then want ^^^ (want + 1) else 0
    let okD := !natBit e 61 || (match did with
      | some x => (x ||| m) == (want ||| m)
      | none => false)
    let okP := !natBit e 60 || pid == some (natBits e 35 16)
    if natBits e 14 0 = ev ∧ !r.ioBit 0x5C i ∧ okD = true ∧ okP = true then r.ioBump i else r) r

/-- iohpmcycles takes a tick (R491). -/
def Run.ioTick (r : Run s0) : Run s0 :=
  if r.ioBit 0x5C 0 then r
  else
    let v := r.io64 0x60
    let n := v % 2 ^ 63 + 1
    if n < 2 ^ 63 then r.setIo64 0x60 (v + 1)
    else
      let r := r.setIo64 0x60 (2 ^ 63)
      if natBit v 63 then r else r.ioRaise 2

/-- Index k of a device ID in an extended-format directory. -/
def ddi (did k : Nat) : Nat := if k = 0 then did % 64 else if k = 1 then did / 64 % 512 else did / 32768

/-- Read n 64-bit words from an address: causes of an access fault and of corruption. -/
def Run.ioReads (r : Run s0) (a flt cor : Nat) : Nat → Run s0 × Except (Nat × Nat) (List Word)
  | 0 => (r, .ok [])
  | n + 1 =>
    let p := r.ioRead a
    match p.2 with
    | .error c => (p.1, .error (if c then cor else flt, 0))
    | .ok v =>
      let q := Run.ioReads p.1 (a + 8) flt cor n
      (q.1, q.2.map fun ws => BitVec.ofNat 64 v :: ws)

/-- The device context of a device ID, from a directory of n + 1 levels. -/
def Run.ddtWalk (r : Run s0) (did : Nat) : Nat → Nat → Run s0 × Except (Nat × Nat) (List Word)
  | 0, table => r.ioReads (table + ddi did 0 * 64) 257 268 8
  | n + 1, table =>
    let p := r.ioRead (table + ddi did (n + 1) * 8)
    match p.2 with
    | .error c => (p.1, .error (if c then 268 else 257, 0))
    | .ok v =>
      if !natBit v 0 then (p.1, .error (258, 0))
      else if natBits v 9 1 ≠ 0 ∨ natBits v 63 54 ≠ 0 then (p.1, .error (259, 0))
      else Run.ddtWalk p.1 did n (natBits v 53 10 * 4096)

/-- Word k of a context. -/
def cw (ws : List Word) (k : Nat) : Word := ws.getD k 0

/-- A device context that the capabilities of R336 allow. -/
def dcOk (ws : List Word) : Bool :=
  let tc := cw ws 0
  let b (i : Nat) : Bool := tc.getLsbD i
  let g := Word.bits (cw ws 1) 63 60
  let f := Word.bits (cw ws 3) 63 60
  let ms := Word.bits (cw ws 4) 63 60
  Word.bits tc 23 12 == 0 && Word.bits tc 63 32 == 0
  && (b 1 || (!b 2 && !b 3)) && (b 2 || !b 6) && !b 3 && !b 7 && !b 8 && !b 10 && !b 11
  && (if b 5 then decide (f ≤ 3) else decide (f ∈ [0, 8, 9, 10]) && !b 9)
  && decide (g ∈ [0, 8, 9, 10]) && (g == 0 || Word.bits (cw ws 1) 1 0 == 0)
  && decide (ms ≤ 1) && (ms == 0 || g != 0)
  && Word.bits (cw ws 2) 11 0 == 0 && Word.bits (cw ws 2) 63 32 == 0 && Word.bits (cw ws 3) 59 44 == 0
  && Word.bits (cw ws 4) 59 44 == 0 && Word.bits (cw ws 5) 63 52 == 0 && Word.bits (cw ws 6) 63 52 == 0 && cw ws 7 == 0

/-- The device context of a transaction, from the cache of 256 or the directory. -/
def Run.ioDc (r : Run s0) (a : IoAcc) : Run s0 × Except (Nat × Nat) (List Word) :=
  match r.1.iommu.ddc.find? (·.1 = a.did) with
  | some e => (r, .ok e.2)
  | none =>
    let ddtp := r.io64 0x10
    let r := r.ioCount 5 a none
    let p := r.ddtWalk a.did (ddtp % 16 - 2) (natBits ddtp 53 10 * 4096)
    match p.2 with
    | .error e => (p.1, .error e)
    | .ok ws =>
      if !(cw ws 0).getLsbD 0 then (p.1, .error (258, 0))
      else if !dcOk ws then (p.1, .error (259, 0))
      else (p.1.act (.iommu { p.1.1.iommu with ddc := ((a.did, ws) :: p.1.1.iommu.ddc).take 256 }), .ok ws)

/-- The cause of a page fault, guest-page fault or access fault of a transaction. -/
def IoAcc.cause (a : IoAcc) (kind : Nat) : Nat :=
  if kind = 0 then (if a.write then 15 else 13) else if kind = 1 then (if a.write then 23 else 21) else if a.write then 7 else 5

/-- The guest-page fault of a transaction at a guest physical address; iotval2 marks an implicit access. -/
def IoAcc.guest (a : IoAcc) (gpa : Nat) (imp : Bool) : Nat × Nat := (a.cause 1, gpa / 4 * 4 + if imp then 1 else 0)

/-- Read a PTE for the IOMMU. -/
def Run.ioPte (r : Run s0) (a : IoAcc) (x : Nat) : Run s0 × Except (Nat × Nat) Nat :=
  let p := r.ioRead x
  (p.1, match p.2 with
    | .error c => .error (if c then 274 else a.cause 2, 0)
    | .ok v => .ok v)

/-- Classify a PTE: as a hart does, with no memory types. -/
def ioPteKind (p level : Nat) (g : Bool) : PteKind := if natBits p 62 61 ≠ 0 then .fault else pteKind p level false g

/-- The G-stage walk of a guest physical address from level n - 1: the leaf PTE and its span. -/
def Run.ioGWalk (r : Run s0) (a : IoAcc) (gpa : Nat) (imp : Bool) : Nat → Nat → Bool → Run s0 × Except (Nat × Nat) (Nat × Nat)
  | 0, _, _ => (r, .error (a.guest gpa imp))
  | n + 1, table, top =>
    let p := r.ioPte a (table + gpa / 2 ^ (12 + 9 * n) % (if top then 2048 else 512) * 8)
    match p.2 with
    | .error e => (p.1, .error e)
    | .ok pte => match ioPteKind pte n true with
      | .fault => (p.1, .error (a.guest gpa imp))
      | .leaf lg => (p.1, .ok (pte, lg))
      | .next t => Run.ioGWalk p.1 a gpa imp n t false

/-- A leaf that maps every page to itself with every right. -/
def identityPte (a : Nat) : Nat × Nat := (a / 4096 * 1024 + 0xDF, 12)

/-- Translate a guest physical address: `w` asks for write permission, `imp` marks an implicit read. -/
def Run.ioG (r : Run s0) (a : IoAcc) (gatp : Word) (gpa : Nat) (w imp : Bool) : Run s0 × Except (Nat × Nat) (Nat × Nat) :=
  let n := levelsOf (Word.bits gatp 63 60)
  if n = 0 then (r, .ok (identityPte gpa))
  else if 2 ^ (14 + 9 * n) ≤ gpa then (r, .error (a.guest gpa imp))
  else
    let p := r.ioGWalk a gpa imp n (Word.bits gatp 43 0 * 4096) true
    match p.2 with
    | .ok (pte, lg) => if gOk pte (if w then .store else .load) false false then (p.1, .ok (pte, lg)) else (p.1, .error (a.guest gpa imp))
    | e => (p.1, e)

/-- The process context of a process ID, from a directory of n levels whose tables lie at guest physical addresses. -/
def Run.pdtWalk (r : Run s0) (a : IoAcc) (gatp : Word) (pid : Nat) : Nat → Nat → Run s0 × Except (Nat × Nat) (List Word)
  | 0, table =>
    let x := table + pid % 256 * 16
    let g := r.ioG a gatp x false true
    match g.2 with
    | .error e => (g.1, .error e)
    | .ok (pte, lg) => g.1.ioReads (leafPa pte lg x) 265 269 2
  | n + 1, table =>
    let x := table + (if n = 0 then pid / 256 % 512 else pid / 131072) * 8
    let g := r.ioG a gatp x false true
    match g.2 with
    | .error e => (g.1, .error e)
    | .ok (pte, lg) =>
      let p := g.1.ioRead (leafPa pte lg x)
      match p.2 with
      | .error c => (p.1, .error (if c then 269 else 265, 0))
      | .ok v =>
        if !natBit v 0 then (p.1, .error (266, 0))
        else if natBits v 9 1 ≠ 0 ∨ natBits v 63 54 ≠ 0 then (p.1, .error (267, 0))
        else Run.pdtWalk p.1 a gatp pid n (natBits v 53 10 * 4096)

/-- The process context, from the cache of 256 or the directory of a device context. -/
def Run.ioPc (r : Run s0) (a : IoAcc) (dc : List Word) (pid : Nat) : Run s0 × Except (Nat × Nat) (List Word) :=
  match r.1.iommu.pdc.find? fun e => e.1 = a.did ∧ e.2.1 = pid with
  | some e => (r, .ok [e.2.2.1, e.2.2.2])
  | none =>
    let r := r.ioCount 6 a none
    let p := r.pdtWalk a (cw dc 1) pid (Word.bits (cw dc 3) 63 60 - 1) (Word.bits (cw dc 3) 43 0 * 4096)
    match p.2 with
    | .error e => (p.1, .error e)
    | .ok ws =>
      let ta := cw ws 0
      if !ta.getLsbD 0 then (p.1, .error (266, 0))
      else if Word.bits ta 11 3 ≠ 0 ∨ Word.bits ta 63 32 ≠ 0 ∨ Word.bits (cw ws 1) 63 60 ∉ [0, 8, 9, 10] ∨ Word.bits (cw ws 1) 59 44 ≠ 0 then
        (p.1, .error (267, 0))
      else (p.1.act (.iommu { p.1.1.iommu with pdc := ((a.did, pid, ta, cw ws 1) :: p.1.1.iommu.pdc).take 256 }), .ok ws)

/-- The first-stage walk from level n - 1; the tables lie at guest physical addresses. -/
def Run.ioSWalk (r : Run s0) (a : IoAcc) (gatp : Word) : Nat → Nat → Run s0 × Except (Nat × Nat) (Nat × Nat)
  | 0, _ => (r, .error (a.cause 0, 0))
  | n + 1, table =>
    let x := table + a.iova / 2 ^ (12 + 9 * n) % 512 * 8
    let g := r.ioG a gatp x false true
    match g.2 with
    | .error e => (g.1, .error e)
    | .ok (gp, glg) =>
      let p := g.1.ioPte a (leafPa gp glg x)
      match p.2 with
      | .error e => (p.1, .error e)
      | .ok pte => match ioPteKind pte n false with
        | .fault => (p.1, .error (a.cause 0, 0))
        | .leaf lg => (p.1, .ok (pte, lg))
        | .next t => Run.ioSWalk p.1 a gatp n t

/-- What the contexts give a transaction: both address-translation registers, their identifiers, SUM and supervisor privilege. -/
structure IoCtx where
  satp : Word
  gatp : Word
  gscid : Nat
  pscid : Nat
  sum : Bool
  sup : Bool
deriving DecidableEq, Repr

/-- A flat MSI page table maps the page of a guest physical address: the entry's page, or a cause. -/
def Run.ioMsiPte (r : Run s0) (dc : List Word) (gpa : Nat) : Run s0 × Except (Nat × Nat) Nat :=
  let mask := (cw dc 5).toNat
  let i := ((setBits 52 mask).foldl (fun (p : Nat × Nat) b => (p.1 + (if natBit (gpa / 4096) b then 2 ^ p.2 else 0), p.2 + 1)) (0, 0)).1
  let p := r.ioRead (Word.bits (cw dc 4) 43 0 * 4096 + i * 16)
  match p.2 with
  | .error c => (p.1, .error (if c then 270 else 261, 0))
  | .ok v =>
    if !natBit v 0 then (p.1, .error (262, 0))
    else if natBit v 63 ∨ natBits v 2 1 ≠ 3 ∨ natBits v 9 3 ≠ 0 ∨ natBits v 62 54 ≠ 0 then (p.1, .error (263, 0))
    else (p.1, .ok (natBits v 53 10 * 4096 + gpa % 4096))

/-- A guest physical address is one of the device's virtual interrupt files. -/
def isMsi (dc : List Word) (gpa : Nat) : Bool :=
  Word.bits (cw dc 4) 63 60 == 1 && (BitVec.ofNat 64 (gpa / 4096) ^^^ cw dc 6) &&& ~~~ cw dc 5 == 0

/-- An entry of the IOTLB permits a transaction. Bit 4 of `perm` marks an entry without a first stage. -/
def IoTlb.ok (e : IoTlb) (c : IoCtx) (w : Bool) : Bool :=
  natBit e.perm (if w then 1 else 0) && (natBit e.perm 4 || (if c.sup then !natBit e.perm 3 || c.sum else natBit e.perm 3))

/-- Both stages of a translation, with the IOTLB: the physical address and whether it may be written. -/
def Run.ioWalk (r : Run s0) (a : IoAcc) (dc : List Word) (c : IoCtx) : Run s0 × Except (Nat × Nat) (Nat × Bool) :=
  let hit := r.1.iommu.tlb.find? fun e => e.did == a.did && e.pid == a.pid && e.gscid == c.gscid && (e.glob || e.pscid == c.pscid) &&
    e.iova == a.iova / 2 ^ e.lg && e.ok c a.write
  match hit with
  | some e => (r, .ok (e.pa + a.iova % 2 ^ e.lg, natBit e.perm 1))
  | none =>
    let ids := some (c.gscid, c.pscid)
    let r := r.ioCount 4 a ids
    let n := levelsOf (Word.bits c.satp 63 60)
    let width := 12 + 9 * n
    let top := a.iova / 2 ^ (width - 1)
    let first : Run s0 × Except (Nat × Nat) (Nat × Nat) :=
      if n = 0 then (r, .ok (identityPte a.iova))
      else if top ≠ 0 ∧ top ≠ 2 ^ (65 - width) - 1 then (r, .error (a.cause 0, 0))
      else (r.ioCount 7 a ids).ioSWalk a c.gatp n (Word.bits c.satp 43 0 * 4096)
    match first.2 with
    | .error e => (first.1, .error e)
    | .ok (pte, lg) =>
      let gpa := leafPa pte lg a.iova
      let who := n == 0 || permOk pte (if a.write then .store else .load) (if c.sup then 1 else 0) c.sum false false
      let ad := natBit pte 6 && (!a.write || natBit pte 7)
      if !who || !ad then (first.1, .error (a.cause 0, 0))
      else if isMsi dc gpa then
        let m := first.1.ioMsiPte dc gpa
        (m.1, m.2.map fun pa => (pa, true))
      else
        let r := if Word.bits c.gatp 63 60 = 0 then first.1 else first.1.ioCount 8 a ids
        let g := r.ioG a c.gatp gpa a.write false
        match g.2 with
        | .error e => (g.1, .error e)
        | .ok (gp, glg) =>
          let k := min lg glg
          let pa := leafPa gp glg gpa
          let w := natBit pte 2 && natBit pte 7 && natBit gp 2 && natBit gp 7
          let rd := natBit pte 1 && natBit gp 1
          let perm := (if rd then 1 else 0) + (if w then 2 else 0) + (if natBit pte 4 then 8 else 0) + if n = 0 then 16 else 0
          let e : IoTlb := { did := a.did, pid := a.pid, gscid := c.gscid, pscid := c.pscid, glob := n != 0 && natBit pte 5, lg := k,
                             iova := a.iova / 2 ^ k, gpa := gpa / 2 ^ k * 2 ^ k, pa := pa / 2 ^ k * 2 ^ k, perm := perm }
          (g.1.act (.iommu { g.1.1.iommu with tlb := (e :: g.1.1.iommu.tlb).take 2048 }), .ok (pa, w))

/-- The translation of one transaction: its physical address and whether it may be written there, or the cause and iotval2 of its
fault with whether the device context disables its record. -/
def Run.ioTrans (r : Run s0) (a : IoAcc) : Run s0 × Except (Nat × Nat × Bool) (Nat × Bool) :=
  let md := r.io32 0x10 % 16
  let bad (r : Run s0) (c : Nat) (dtf : Bool := false) : Run s0 × Except (Nat × Nat × Bool) (Nat × Bool) := (r, .error (c, 0, dtf))
  let r := r.ioCount (if a.ttyp = 8 then 3 else if 5 ≤ a.ttyp then 2 else 1) a none
  if md = 0 then bad r 256
  else if md = 1 then (if 5 ≤ a.ttyp then bad r 260 else (r, .ok (a.iova, true)))
  else if (md = 2 ∧ 64 ≤ a.did) ∨ (md = 3 ∧ 32768 ≤ a.did) then bad r 260
  else
    let d := r.ioDc a
    let r := d.1
    match d.2 with
    | .error e => (r, .error (e.1, e.2, false))
    | .ok dc =>
      let tc := cw dc 0
      let dtf := tc.getLsbD 4
      let pdtv := tc.getLsbD 5
      let pdm := Word.bits (cw dc 3) 63 60
      let pidBits := if pdm = 1 then 8 else if pdm = 2 then 17 else 20
      let gatp := cw dc 1
      let gscid := if Word.bits gatp 63 60 = 0 then 65536 else Word.bits gatp 59 44
      if 5 ≤ a.ttyp && !tc.getLsbD 1 then bad r 260 dtf
      else if a.pid.isSome && (!pdtv || decide (2 ^ pidBits ≤ a.pid.getD 0)) then bad r 260 dtf
      else if a.ttyp = 5 ∨ a.ttyp = 6 ∨ a.ttyp = 7 then (r, .ok (a.iova, true))
      else
        let base : IoCtx := { satp := 0, gatp := gatp, gscid := gscid, pscid := 0, sum := false, sup := false }
        let ctx : Run s0 × Except (Nat × Nat) IoCtx :=
          if !pdtv then (r, .ok { base with satp := cw dc 3, pscid := Word.bits (cw dc 2) 31 12 })
          else if (a.pid.isNone && !tc.getLsbD 9) || pdm = 0 then (r, .ok base)
          else
            let p := r.ioPc a dc (a.pid.getD 0)
            (p.1, match p.2 with
              | .error e => .error e
              | .ok pc =>
                let ta := cw pc 0
                if a.priv && !ta.getLsbD 1 then .error (260, 0)
                else .ok { base with satp := cw pc 1, pscid := Word.bits ta 31 12, sum := ta.getLsbD 2, sup := a.priv })
        match ctx.2 with
        | .error e => (ctx.1, .error (e.1, e.2, dtf))
        | .ok c =>
          let w := ctx.1.ioWalk a dc c
          (w.1, match w.2 with
            | .error e => .error (e.1, e.2, dtf)
            | .ok x => .ok x)

/-- The checks of R338 on a physical address of an I/O agent or engine; `msi` says that the access is a 32-bit write. -/
def Run.ioAllowed (r : Run s0) (pa : Nat) (msi : Bool) : Bool :=
  match regionOf pa with
  | .reserved => false
  | .beyond => false
  | .window => msi && (r.msiDst pa).isSome
  | _ => (r.ertOf pa).isNone

/-- An access passes the IOMMU (R336 to R338): the physical address, or nothing where it faults, its record made. -/
def Run.ioPass (r : Run s0) (a : IoAcc) (msi : Bool := false) : Run s0 × Option Nat :=
  let p := r.ioTrans a
  match p.2 with
  | .error (c, v, dtf) => (p.1.ioFault a c v dtf, none)
  | .ok (pa, _) =>
    if p.1.ioAllowed pa msi then (p.1, some pa)
    else ((p.1.ioFault a (a.cause 2) 0 false).logRec .iommu { event := 0x0701, cls := .ucna, addr := some pa, req := a.who }, none)

/-- What the IOMMU has read for translations in progress is not used after an invalidation. -/
def Run.ioForget (r : Run s0) : Run s0 := r.dropOps fun o => o.who == .iommu && o.key != r.1.need.key

/-- Remove entries of the IOTLB. -/
def Run.ioFlush (r : Run s0) (f : IoTlb → Bool) : Run s0 := (r.act (.iommu { r.1.iommu with tlb := r.1.iommu.tlb.filter fun e => !f e })).ioForget

/-- One command of the command queue, its two words: none where it is illegal. -/
def Run.ioCommand (r : Run s0) (w0 w1 : Nat) : Option (Run s0) :=
  let op := w0 % 128
  let fn := natBits w0 9 7
  if op = 1 ∧ fn ≤ 1 then
    let av := natBit w0 10
    let gv := natBit w0 33
    let page := natBits w1 61 10 * 4096
    if fn = 1 then
      if natBit w0 32 then none
      else some (r.ioFlush fun e => (if gv then e.gscid == natBits w0 59 44 else e.gscid != 65536) && (!gv || !av || e.gpa / 2 ^ e.lg == page / 2 ^ e.lg))
    else some (r.ioFlush fun e => (if gv then e.gscid == natBits w0 59 44 else e.gscid == 65536)
      && (!natBit w0 32 || (!e.glob && e.pscid == natBits w0 31 12)) && (!av || e.iova == page / 2 ^ e.lg))
  else if op = 2 ∧ fn = 0 then
    let a := w1 % 2 ^ 62 * 4
    if natBit w0 11 then none
    else if !natBit w0 10 then some r
    else if !r.ioReach a then some ((r.setIoBit 0x48 8 true).ioAsk 0) else some (r.ioStore a 4 (w0 / 2 ^ 32))
  else if op = 3 ∧ fn = 0 then
    let hit (d : Nat) : Bool := !natBit w0 33 || d == natBits w0 63 40
    some (r.act (.iommu { r.1.iommu with ddc := r.1.iommu.ddc.filter fun e => !hit e.1, pdc := r.1.iommu.pdc.filter fun e => !hit e.1 }) |>.ioForget)
  else if op = 3 ∧ fn = 1 then
    if !natBit w0 33 then none
    else some (r.act (.iommu { r.1.iommu with pdc := r.1.iommu.pdc.filter fun e => !(e.1 == natBits w0 63 40 && e.2.1 == natBits w0 31 12) }) |>.ioForget)
  else if op = 4 ∧ fn = 0 then some (r.emit (.atsInval (natBits w0 63 40) (natBits w0 31 12) w1))
  else if op = 4 ∧ fn = 1 then some (r.emit (.prgResponse (natBits w0 63 56 % 64) (natBits w1 40 32) (natBits w1 47 44)))
  else none

/-- The command queue runs (RISC-V IOMMU 1.0) until it is empty or a command stops it. -/
def Run.ioRun (r : Run s0) : Nat → Run s0
  | 0 => r
  | n + 1 =>
    let h := r.io32 0x20
    if !r.ioBit 0x48 16 ∨ natBits (r.io32 0x48) 11 8 ≠ 0 ∨ h = r.io32 0x24 then r
    else
      let a := r.ioBase 0x18 + h * 16
      let p := r.ioReads a 1 1 2
      match p.2 with
      | .error _ => (p.1.setIoBit 0x48 8 true).ioAsk 0
      | .ok ws => match p.1.ioCommand (cw ws 0).toNat (cw ws 1).toNat with
        | none => (p.1.setIoBit 0x48 10 true).ioAsk 0
        | some r => Run.ioRun (if natBits (r.io32 0x48) 11 8 ≠ 0 then r else r.setIo32 0x20 ((h + 1) % r.ioSize 0x18)) n

/-- The command queue is looked at. -/
def Run.ioQueue (r : Run s0) : Run s0 := r.ioRun ((r.io32 0x24 + r.ioSize 0x18 - r.io32 0x20) % r.ioSize 0x18)

/-- The word with the masked bits replaced. -/
def natMerge (mask old v : Nat) : Nat := (v &&& mask) ||| (old &&& (0xFFFFFFFF - mask))

/-- A write of a queue's csr: enabling and disabling act at once, and the bits of `w1c` clear. -/
def Run.ioCsr (r : Run s0) (csr base w1c v : Nat) (reg : Nat) : Run s0 :=
  let old := r.io32 csr
  let en := natBit v 0
  let was := natBit old 16
  let errs := (old &&& w1c) &&& (0xFFFFFFFF - (v &&& w1c))
  let errs := if en && !was then 0 else errs
  let r := r.setIo32 csr (v % 4 + errs + if en then 65536 else 0)
  if en && !was then r.setIo32 (base + reg) 0 else r

/-- A 32-bit write of an IOMMU register. -/
def Run.ioWrite (r : Run s0) (o v : Nat) : Run s0 :=
  let put (mask : Nat) : Run s0 := r.setIo32 o (natMerge mask (r.io32 o) v)
  if o = 0x10 then (if v % 16 ≤ 4 then put 0xFFFFFC0F else put 0xFFFFFC00)
  else if o = 0x14 ∨ o = 0x1C ∨ o = 0x2C ∨ o = 0x3C then put 0x3FFFFF
  else if o = 0x18 ∨ o = 0x28 ∨ o = 0x38 then put 0xFFFFFC1F
  else if o = 0x24 then (r.setIo32 o (v % r.ioSize 0x18)).ioQueue
  else if o = 0x30 then r.setIo32 o (v % r.ioSize 0x28)
  else if o = 0x40 then r.setIo32 o (v % r.ioSize 0x38)
  else if o = 0x48 then
    let r := r.ioCsr 0x48 0x18 0xF00 v 8
    (if natBits (r.io32 0x48) 11 8 ≠ 0 then r.ioAsk 0 else r).ioQueue
  else if o = 0x4C then
    let r := r.ioCsr 0x4C 0x28 0x300 v 12
    if natBits (r.io32 0x4C) 9 8 ≠ 0 then r.ioAsk 1 else r
  else if o = 0x50 then
    let r := r.ioCsr 0x50 0x38 0x300 v 12
    if natBits (r.io32 0x50) 9 8 ≠ 0 then r.ioAsk 3 else r
  else if o = 0x54 then
    let r := r.setIo32 o (r.io32 o &&& (15 - v % 16))
    let r := if natBits (r.io32 0x48) 11 8 ≠ 0 then r.ioAsk 0 else r
    let r := if natBits (r.io32 0x4C) 9 8 ≠ 0 then r.ioAsk 1 else r
    if natBits (r.io32 0x50) 9 8 ≠ 0 then r.ioAsk 3 else r
  else if o = 0x5C then put 0xFF
  else if (0x60 ≤ o ∧ o < 0xA0) ∨ (0x160 ≤ o ∧ o < 0x198) then put 0xFFFFFFFF
  else if o = 0x2F8 then put 0xFFFF
  else if 0x300 ≤ o ∧ o < 0x400 then
    let k := o % 16
    if k = 0 then put 0xFFFFFFFC
    else if k = 4 then put 0xFFFFFF
    else if k = 8 then put 0xFFFFFFFF
    else
      let e := (o - 0x300) / 16
      let r := put 1
      if v % 2 = 0 ∧ natBit r.1.iommu.waits e then (r.act (.iommu { r.1.iommu with waits := natSetBits r.1.iommu.waits e e 0 })).ioMsi e else r
  else r

/-- A 32-bit read of an IOMMU register. -/
def Run.ioReadReg (r : Run s0) (o : Nat) : Nat :=
  if o = 0 then ioCaps % 2 ^ 32
  else if o = 4 then ioCaps / 2 ^ 32
  else if o = 0x58 then
    (List.range 7).foldl (fun a i => a + if r.ioBit (0x164 + 8 * i) 31 then 2 ^ (i + 1) else 0) (if r.ioBit 0x64 31 then 1 else 0)
  else r.io32 o

end Sys2Proof.Machine
end

