-- ==== Sys2Proof/Machine/Keys.lean ====
section
/-! DEFINITION. Key slots, invocation counters, IDE streams and alarms (R348 to R351, R360, R322 to R324, R367 to R369). -/
namespace Sys2Proof.Machine

variable {s0 : State}

/-- A slot ID (R348). -/
def keyId (bank index : Nat) : Nat := bank * 2 ^ 28 + index

/-- GEN of a slot (R349). -/
def Run.genOf (r : Run s0) (id : Nat) : Nat := ((r.key id).gen + r.1.fox.gens) % 2 ^ 32

/-- A slot after an erase (R349): EMPTY, with GEN advanced and OWNER kept. -/
def KeySlot.erased (k : KeySlot) (step : Nat) : KeySlot := { gen := (k.gen + step) % 2 ^ 32, owner := k.owner }

/-- The hard limit of a slot (R349). -/
def KeySlot.hard (k : KeySlot) : Nat := if k.loaded ∧ k.type = 1 then 2 ^ k.limlog else 0

/-- The rekey threshold of a slot (R360). -/
def KeySlot.threshold (k : KeySlot) : Nat := k.hard - k.hard / 16

/-- Bytes lo to lo + n - 1 of a descriptor as a number (R259). -/
def descNat (d : BitVec 1024) (lo n : Nat) : Nat := d.toNat / 256 ^ lo % 256 ^ n

/-- The number of an engine's jobs that satisfy a predicate. -/
def Run.jobCount (r : Run s0) (e : Nat) (p : Job → Bool) : Nat := (r.1.jobs.filter fun x => x.1 / 256 == e && p x.2).length

/-- Show an engine's contexts and staging buffers in use (R289): a cipher job holds its buffer as long as its key. -/
def Run.showEngine (r : Run s0) (e : Nat) : Run s0 :=
  (r.setFld (ENG_STAT_CTXUSE e) (r.jobCount e fun _ => true)).setFld (ENG_STAT_BUFUSE e) (r.jobCount e fun j => j.key.isSome)

/-- An erase reaches jobs that took their key from Phlox slots that `p` names and have not begun release (R287). -/
def Run.eraseJobs (r : Run s0) (p : Nat → Bool) : Run s0 :=
  let r := r.1.jobs.foldl (fun r x =>
    if x.2.key.isSome && !x.2.released && p (descNat x.2.desc 64 2) then
      r.setJob x.1 (some { x.2 with key := none, staged := none, erased := true, status := some 0x07 })
    else r) r
  (List.range 8).foldl (fun r e => r.showEngine e) r

/-- The width code of a port (R307). -/
def Run.portWidth (r : Run s0) (g p : Nat) : Nat := natBits (r.fld (G_CFG_PORTW g)) (3 * p + 2) (3 * p)

/-- An IDE stream is used by a present port of a PCIe or CXL group (R322). -/
def Run.streamUsed (r : Run s0) (g n : Nat) : Bool :=
  (r.fld (G_CFG_PERS g) == 1 || r.fld (G_CFG_PERS g) == 2) &&
    if n < 8 then (List.range 8).any fun p => r.portWidth g p != 0 else r.portWidth g (n - 8) != 0

/-- The sub-streams of an IDE stream: a CXL.cachemem stream has one (R348). -/
def Run.subStreams (r : Run s0) (g n : Nat) : List Nat := if 8 ≤ n ∧ r.fld (G_CFG_PERS g) = 2 then [0] else [0, 1, 2]

/-- The slot of an IDE stream (R348): sub-stream u, direction d (0 transmit), key set k. -/
def ideSlot (g n u d k : Nat) : Nat := keyId 2 (g * 256 + n * 12 + u * 4 + d * 2 + k)

/-- Bit n of a mask is changed. -/
def flipBit (m n : Nat) (b : Bool) : Nat := natSetBits m n n (if b then 1 else 0)

/-- An IDE stream leaves the Secure state (R323 step 2). -/
def Run.insecure (r : Run s0) (g n : Nat) : Run s0 :=
  (r.setBit (G_IDESTAT_SECURE g) n false).modGrp g fun t => { t with insec := flipBit t.insec n true }

/-- An erase of the slot in use of a Secure stream (R351): Insecure, FAILED stays 0, one UCNA record. -/
def Run.ideErased (r : Run s0) (g n : Nat) : Run s0 :=
  if r.bit (G_IDESTAT_SECURE g) n then (r.insecure g n).logRec (.grp g) { event := 0x0704, cls := .ucna } else r

/-- A stream whose key set k is wholly loaded is keyed: it becomes Secure, or goes on under that set, and REKEY clears (R324,
R351). -/
def Run.ideKeyed (r : Run s0) (g n k : Nat) : Run s0 :=
  let full := (r.subStreams g n).all fun u => (r.key (ideSlot g n u 0 k)).loaded && (r.key (ideSlot g n u 1 k)).loaded
  if full && r.streamUsed g n then
    let r := (r.setBit (G_IDESTAT_SECURE g) n true).setBit (G_IDESTAT_REKEY g) n false
    r.modGrp g fun t => { t with kset := flipBit t.kset n (k = 1), insec := flipBit t.insec n false }
  else r

/-- A slot becomes EMPTY, with what that does to what uses it (R350, R351). -/
def Run.eraseSlot (r : Run s0) (id : Nat) : Run s0 :=
  let i := id % 65536
  let r := r.modKey id (·.erased 1)
  match id / 2 ^ 28 with
  | 1 => r.eraseJobs (· == i)
  | 2 =>
    let g := i / 256
    let n := i % 256 / 12
    if natBit (r.grp g).kset n == (i % 2 == 1) && decide (i % 256 % 12 / 4 ∈ r.subStreams g n) then r.ideErased g n else r
  | _ => r

/-- Every key slot of every bank becomes EMPTY (R369 step 2). -/
def Run.eraseAll (r : Run s0) : Run s0 :=
  let r := r.1.keys.foldl (fun r k => r.modKey k.1 (·.erased 0)) r
  let r := (r.act (.fox { r.1.fox with gens := (r.1.fox.gens + 1) % 2 ^ 32 })).eraseJobs fun _ => true
  (List.range 32).foldl (fun r g => (List.range 16).foldl (fun r n => r.ideErased g n) r) r

/-- The sealing epoch: the programmed bits of its fuse (R346). -/
def Run.epoch (r : Run s0) : Nat := min 32 r.1.fox.epoch

/-- An alarm is ordered (R367 to R370): its log entry, then the class B record or the class A response, which runs once until a
reset. A supply alarm may leave the epoch's bit unprogrammed. -/
def Run.alarm (r : Run s0) (src : Nat) (classA : Bool) (det : Nat) : Run s0 :=
  let n := r.fld ALARM_STAT_NEXT
  let info := Word.setBits (Word.setBits (Word.setBits 0 63 32 det) 8 8 (if classA then 1 else 0)) 7 0 src
  let r := ((r.setReg (ALARM_LOG_TICK n) (BitVec.ofNat 64 r.count)).setReg (ALARM_LOG_INFO n) info).setFld ALARM_STAT_NEXT ((n + 1) % 8)
  let r := r.setBit ALARM_STAT_SEEN (src - 1) true
  let d := detailBytes 32 1 src ||| detailBytes 33 1 n ||| detailBytes 36 4 det
  if !classA then r.logRec .fox { event := 0x0900, cls := .ucna, detail := d }
  else if r.1.fox.stopped then r.setFld ALARM_STAT_CLASSA 1
  else
    let r := r.setFld ALARM_STAT_CLASSA 1
    let r := (r.act (.fox { r.1.fox with stopped := true })).eraseAll
    let r := r.setFld FOX_TRNG_STAT_DRBGOK 0
    let p : Run s0 × Bool := if src = 1 then (r.fresh.1, r.fresh.2.getLsbD 0) else (r, true)
    let r := p.1
    let r := if p.2 && r.on ALARM_POLICY_SEALERASE && decide (r.epoch < 32) then r.act (.fox { r.1.fox with epoch := r.1.fox.epoch + 1 }) else r
    r.fatal .fox { event := 0x0901, cls := .fatal, detail := d }

/-- A GCM slot takes one COUNTER value (R360): the value, or none at the hard limit, where alarm source 5 is raised; and whether
the value is at or above the rekey threshold. -/
def Run.takeCounter (r : Run s0) (id : Nat) : Run s0 × Option Nat × Bool :=
  let k := r.key id
  if k.hard ≤ k.counter then (r.alarm 5 true id, none, true)
  else (r.setKey id { k with counter := k.counter + 1 }, some k.counter, decide (k.threshold ≤ k.counter))

/-- A TLP of a Secure IDE stream takes its counter value (R324): whether it goes on. -/
def Run.ideUse (r : Run s0) (g n u d : Nat) : Run s0 × Bool :=
  let u := if u ∈ r.subStreams g n then u else 0
  let id := ideSlot g n u d (if natBit (r.grp g).kset n then 1 else 0)
  let p := r.takeCounter id
  match p.2.1 with
  | none => (p.1.modGrp g fun t => { t with insec := flipBit t.insec n true }, false)
  | some _ =>
    if p.2.2 && !p.1.bit (G_IDESTAT_REKEY g) n then ((p.1.setBit (G_IDESTAT_REKEY g) n true).aplicEdge (149 + g), true) else (p.1, true)

/-- An outbound TLP of a port under its link stream, if that is Secure; one of a stream that has left Secure is discarded. -/
def Run.ideOut (r : Run s0) (g port u : Nat) : Run s0 × Bool :=
  let n := 8 + port
  if natBit (r.grp g).insec n then (r, false)
  else if r.fld (G_CFG_PERS g) = 1 ∧ r.bit (G_IDESTAT_SECURE g) n then r.ideUse g n u 0
  else (r, true)

/-- An inbound TLP of an IDE stream (R323, R324): discarded where the stream is not Secure, or where its integrity check fails,
which moves the stream to Insecure. -/
def Run.ideIn (r : Run s0) (g : Nat) (stream : Option (Fin 16)) (intact : Bool) (u : Nat) : Run s0 × Bool :=
  match stream with
  | none => (r, true)
  | some n =>
    if !r.bit (G_IDESTAT_SECURE g) n || natBit (r.grp g).insec n then (r, false)
    else if intact then r.ideUse g n u 1
    else
      let r := (r.insecure g n).setBit (G_IDESTAT_FAILED g) n true
      ((r.logRec (.grp g) { event := 0x0703, cls := .ucr }).aplicEdge (149 + g), false)

end Sys2Proof.Machine
end

