-- ==== Sys2Proof/Machine/Groups.lean ====
section
/-! DEFINITION. External link groups: personalities and ports, outbound and inbound requests, legacy interrupts, PTM, ATS and page
requests, CXL.cache and CXL.mem, the socket link (R307 to R341, R518). -/
namespace Sys2Proof.Machine

variable {s0 : State}

/-! ### Personalities and ports -/

/-- The lanes of a PORTW code (R307). -/
def portLanes (c : Nat) : Nat := if c = 0 then 0 else 2 ^ (c - 1)

/-- Ports placed in ascending order (R309): the first lane after the last one used, or none where they do not fit. -/
def placePorts (ws : List Nat) : Option Nat :=
  ws.foldl (fun a w => a.bind fun next =>
    if w = 0 then some next
    else
      let e := (next + w - 1) / w * w + w
      if e ≤ 16 then some e else none) (some 0)

/-- A socket link personality. -/
def socketPers (p : Nat) : Bool := p == 3 || p == 4

/-- The conditions of R308 on a value for G[g].CFG. -/
def Run.gCfgOk (r : Run s0) (g : Nat) (v : Word) : Bool :=
  let pers := Word.bits v 62 60
  let codes := (List.range 8).map fun p => Word.bits v (3 * p + 26) (3 * p + 24)
  let ws := codes.map portLanes
  let others (f : Nat → Bool) : Nat := ((List.range 32).filter fun k => k != g && f k).length
  let coh := v.getLsbD 1
  decide (pers ≤ 4) && decide (Word.bits v 59 56 ≤ 6) && codes.all (fun c => decide (c ≤ 5)) &&
  (!(pers == 1 || pers == 2) || (placePorts ws).isSome) &&
  (pers != 2 || ((ws.all fun w => w == 0 || decide (4 ≤ w)) && decide ((ws.filter (· != 0)).length ≤ 4))) &&
  (!(pers == 2 && coh) || ((ws.drop 1).all (· == 0) && decide (others (fun k => r.on (G_CFG_COH k)) ≤ 3))) &&
  (if socketPers pers then Word.bits v 47 24 == 0 && Word.bits v 55 54 != r.fld SOCK_CFG_ID
      && decide (others (fun k => socketPers (r.fld (G_CFG_PERS k)) && r.fld (G_CFG_PEER k) == Word.bits v 55 54) ≤ 1)
    else Word.bits v 55 54 == 0) &&
  (pers == 2 || (!coh && !v.getLsbD 2)) && (pers == 1 || !v.getLsbD 0)

/-- A port of a PCIe or CXL group is up. -/
def Run.portUp (r : Run s0) (g p : Nat) : Bool :=
  r.on (G_CFG_EN g) && (r.fld (G_CFG_PERS g) == 1 || r.fld (G_CFG_PERS g) == 2) && r.bit (G_STAT_PORTUP g) p

/-- The record of an outbound request that ended without completion (R314). -/
def Run.outRecord (r : Run s0) (claim : Option (Nat × Nat)) (addr : Nat) (req : Option (Nat × Nat)) : Run s0 :=
  match claim with
  | some (g, p) => r.logRec (.grp g) { event := 0x0702, cls := .ucna, addr := some addr, req := req, sub := p }
  | none => r.logRec .sad { event := 0x0702, cls := .ucna, addr := some addr, req := req }

/-- An outbound non-posted request ends without data (R314): a load faults, a carried request ends with UR. -/
def Run.outFail (r : Run s0) (g : Nat) (o : OutReq) : Run s0 :=
  let r := (r.modGrp g fun t => { t with outs := t.outs.erase o }).outRecord (some (g, o.port)) o.addr (o.h.map fun h => (1, h))
  match o.back, o.h with
  | some (b, tag), _ => r.emit (.completion b tag false false 0)
  | none, some h => match (r.hart h).wait with
    | some (.device a) => r.trap h { cause := 5, tval := a.va }
    | _ => r
  | none, none => r

/-- A port is down: what it had asserted drops and what waits for it ends. -/
def Run.portDown (r : Run s0) (g p : Nat) : Run s0 :=
  let r := r.setBit (G_STAT_PORTUP g) p false
  let r := if p = 0 then (r.setFld (G_STAT_RATE g) 0).setFld (G_STAT_WIDTH g) 0 else r
  let r := (List.range 4).foldl (fun r n => if natBit (r.grp g).intx (p * 4 + n) then r.intxWire g p n false else r) r
  (r.grp g).outs.foldl (fun r o => if o.port = p then r.outFail g o else r) r

/-- A group stops: every port or its socket link is down. -/
def Run.groupDown (r : Run s0) (g : Nat) : Run s0 :=
  let r := (List.range 8).foldl (fun r p => r.portDown g p) r
  r.setFld (G_STAT_STATE g) 0

/-- The domain of a link group (R424). -/
def domGroup (g : Nat) : Nat := 360 + g

/-- A write leaves `new` in G[g].CFG (R308, R310, R518): refused as a whole, or the group trains under it. -/
def Run.wGCfg (r : Run s0) (g : Nat) (new : Word) : Run s0 :=
  if !r.gCfgOk g new then r.setFld (G_STAT_CFG_REJECT g) 1
  else
    let old := r.reg (G_CFG g)
    let runs (v : Word) : Bool := v.getLsbD 63 && Word.bits v 62 60 != 0
    let same := Word.bits old 63 24 == Word.bits new 63 24 && old.getLsbD 3 == new.getLsbD 3 && old.getLsbD 1 == new.getLsbD 1
    if same then r.setReg (G_CFG g) new
    else
      let r := if runs old then r.groupDown g else r
      let r := r.setReg (G_CFG g) new
      let r := r.setFld (G_IDESTAT_SECURE g) ((List.range 16).foldl (fun a n =>
        if r.bit (G_IDESTAT_SECURE g) n && r.streamUsed g n then a + 2 ^ n else a) 0)
      let r := if new.getLsbD 63 then r else r.act (.pins { r.1.pins with perst := r.1.pins.perst ||| (1#32 <<< g) })
      if runs new then (r.setFld (G_STAT_STATE g) 1).wakeDom (domGroup g) else r

/-- PORT_TRAINED (R310, R328): a port is up, or a socket link comes to its join. MAXGEN = 0 allows no rate above 0 (DESIGN CHOICE, log entry
101). -/
def execPortTrained (g : Fin 32) (port : Fin 8) (rate : Fin 7) (width : Fin 17) (s : State) : Host.Outcome State Fault Refusal :=
  let r := Run.start s
  let pers := r.fld (G_CFG_PERS g)
  if !r.on (G_CFG_EN g) || width.val == 0 || r.on (DOM_STAT_STATE (domGroup g)) || r.1.pins.perst.getLsbD g || r.1.pins.fatal then r.done
  else if socketPers pers then
    if r.fld (G_STAT_STATE g) ≠ 1 then r.done
    else
      let r := (r.setFld (G_STAT_STATE g) 2).setFld (G_STAT_RATE g) (if pers = 3 then 5 else 6)
      ((r.setFld (G_STAT_WIDTH g) width).aplicEdge (149 + g)).done
  else if (pers = 1 ∨ pers = 2) ∧ portLanes (r.portWidth g port) ≠ 0 ∧ width.val ≤ portLanes (r.portWidth g port) ∧ rate.val ≤ r.fld (G_CFG_MAXGEN g) then
    let r := (r.setBit (G_STAT_PORTUP g) port true).setFld (G_STAT_STATE g) 4
    let r := if port = 0 then (r.setFld (G_STAT_RATE g) rate).setFld (G_STAT_WIDTH g) width else r
    (r.aplicEdge (149 + g)).done
  else r.done

/-- PERST_DEASSERT (R518): 100 ms after EN was written with 1. -/
def execPerstDeassert (g : Fin 32) (s : State) : Host.Outcome State Fault Refusal :=
  let r := Run.start s
  (if r.on (G_CFG_EN g) then r.act (.pins { r.1.pins with perst := r.1.pins.perst &&& ~~~ (1#32 <<< g.val) }) else r).done

/-- GROUP_WAKE (R518): a port in a low-power state returns to L0 as its standard defines, which PORTUP does not tell apart (R310). -/
def execGroupWake (g : Fin 32) (port : Fin 8) (s : State) : Host.Outcome State Fault Refusal :=
  let r := Run.start s
  (if r.portUp g port then r.setBit (G_STAT_PORTUP g) port true else r).done

/-- PORT_LINK_DOWN (R310, R314, R341): what waits for the port ends, its interrupts drop, and it trains again. -/
def execPortLinkDown (g : Fin 32) (port : Fin 8) (s : State) : Host.Outcome State Fault Refusal :=
  let r := Run.start s
  if !r.portUp g port then r.done
  else
    let r := r.portDown g port
    let r := if r.on (G_STAT_PORTUP g) then r else r.setFld (G_STAT_STATE g) 1
    (r.aplicEdge (149 + g)).done

/-! ### Outbound requests -/

/-- A configuration register of a root port, by its offset (R312). -/
def Run.rootReg (r : Run s0) (g p o : Nat) : Nat := (r.ecamReg ((g * 2 ^ 28 + p * 2 ^ 15 + o) / 4)).toNat

/-- A root port's bridge memory windows claim an address (R313). -/
def Run.bridgeClaims (r : Run s0) (g p a : Nat) : Bool :=
  let m := r.rootReg g p 0x20
  let f := r.rootReg g p 0x24
  let inside (lo hi : Nat) : Bool := decide (lo * 2 ^ 20 ≤ a) && decide (a < (hi + 1) * 2 ^ 20)
  (r.portWidth g p != 0) && natBit (r.rootReg g p 0x04) 1 &&
    (inside (natBits m 15 4) (natBits m 31 20) ||
      inside (natBits f 15 4 + r.rootReg g p 0x28 * 2 ^ 12) (natBits f 31 20 + r.rootReg g p 0x2C * 2 ^ 12))

/-- The root port to which an I/O window address goes (R313): lowest g, then lowest p. -/
def Run.claim (r : Run s0) (a : Nat) : Option (Nat × Nat) :=
  (List.range 32).findSome? fun g =>
    if r.on (G_CFG_EN g) && (r.fld (G_CFG_PERS g) == 1 || r.fld (G_CFG_PERS g) == 2) then
      ((List.range 8).find? fun p => r.bridgeClaims g p a).map fun p => (g, p)
    else none

/-- A free tag of a group for a port (R321): at most 1,024 and 768. -/
def Run.freeTag (r : Run s0) (g p : Nat) : Option Nat :=
  let outs : List OutReq := (r.grp g).outs
  if 1024 ≤ outs.length ∨ 768 ≤ (outs.filter fun o => o.port == p).length then none
  else (List.range 1024).find? fun t => !outs.any fun (o : OutReq) => o.tag == t

/-- An outbound non-posted request goes to a port: sent, ended at once under R314 (false), or nothing where it must wait for a
tag. A write that is non-posted is a configuration write. -/
def Run.outSend (r : Run s0) (claim : Option (Nat × Nat)) (o : OutReq) (write : Bool) (data : Nat) : Option (Run s0 × Bool) :=
  let req := o.h.map fun h => (1, h)
  match claim with
  | none => some (r.outRecord none o.addr req, false)
  | some (g, p) =>
    if !r.portUp g p then some (r.outRecord claim o.addr req, false)
    else match r.freeTag g p with
      | none => none
      | some t =>
        let x := r.ideOut g p 1
        if !x.2 then some (x.1.outRecord claim o.addr req, false)
        else
          let r := x.1.modGrp g fun k => { k with outs := k.outs ++ [{ o with tag := t, port := p }] }
          some (r.emit (.pcie g p (some t) write o.addr data), true)

/-- An outbound posted write goes to a port, or is discarded under R314. -/
def Run.outPost (r : Run s0) (a data : Nat) (req : Option (Nat × Nat)) : Run s0 :=
  match r.claim a with
  | none => r.outRecord none a req
  | some (g, p) =>
    if !r.portUp g p then r.outRecord (some (g, p)) a req
    else
      let x := r.ideOut g p 0
      if x.2 then x.1.emit (.pcie g p none true a data) else x.1.outRecord (some (g, p)) a req

/-- PCIE_COMPLETION (R314): the request that a tag names ends, with its data, a poisoned completion, or UR or CA. -/
def execPcieCompletion (g : Fin 32) (tag : Nat) (ok ep : Bool) (data : Nat) (s : State) : Host.Outcome State Fault Refusal :=
  let r := Run.start s
  match (r.grp g).outs.find? (fun (o : OutReq) => o.tag == tag) with
  | none => r.done
  | some o =>
    if !ok then (r.outFail g o).done
    else
      let r := r.modGrp g fun t => { t with outs := t.outs.erase o }
      match o.back, o.h with
      | some (b, t), _ => (r.emit (.completion b t true ep data)).done
      | none, some h => (match (r.hart h).wait with
          | some (.device a) =>
            let l := BitVec.ofNat 46 (o.addr / 64)
            if ep then r.consume h 5 l a.va
            else r.finishAcc h { a with got := BitVec.ofNat 128 (data % 256 ^ 2 ^ a.lg) } l
          | _ => r).done
      | none, none => r.done

/-- COMPLETION_TIMEOUT (R314, R321): 2^CTO ticks have passed since the request was sent. -/
def execCompletionTimeout (g : Fin 32) (tag : Nat) (s : State) : Host.Outcome State Fault Refusal :=
  let r := Run.start s
  (match (r.grp g).outs.find? (fun (o : OutReq) => o.tag == tag) with
  | none => r
  | some o => r.outFail g o).done

/-! ### Inbound requests -/

/-- The transaction of an inbound request as the IOMMU judges it (R337): the type code by whether it writes. -/
def ioAcc (x : IoReq) (write : Bool) : IoAcc :=
  { did := x.g * 65536 + x.rid.toNat, pid := x.pasid.map (·.toNat), priv := x.priv, write := write,
    ttyp := (if write then 3 else 2) + if x.translated then 4 else 0, iova := x.addr.toNat, who := some (2, x.g * 16 + x.port) }

/-- The ports that share a group's inbound buffers (R321). -/
def Run.portsOf (r : Run s0) (g : Nat) : Nat :=
  max 1 ((List.range 8).filter fun p => Word.bits (r.reg (G_CFG g)) (3 * p + 26) (3 * p + 24) != 0).length

/-- A part of a posted write has not been accepted by its home. -/
def Run.unsent (r : Run s0) (g n : Nat) : Bool :=
  ((r.grp g).held.any fun x => match x.act with
    | .write k _ => k == n
    | _ => false)
  || (r.grp g).asked.any fun a => a.1 == n &&
    let mine := (r.grp g).asked.filter (·.2 == a.2)
    let sent := (r.1.net.filter fun m => m.src == .group (Fin.ofNat 32 g) && m.line == a.2 && m.kind ∈ [.wrLine, .wrPart]).length
    (mine.drop (mine.length - sent)).contains a

/-- The memory writes that stand in a group's posted buffer (R321). -/
def Run.inBuf (r : Run s0) (g : Nat) : List (Nat × Nat × Nat × Nat) :=
  (r.grp g).buf.filter fun b => (List.range (b.2.2.1 - b.2.1)).any fun k => r.unsent g (b.2.1 + k)

/-- A port has the credits for a TLP (R28, R321): its share of the posted buffer, `u` 0, or of the non-posted one. A TLP for which it has
none is not sent. -/
def Run.inRoom (r : Run s0) (g port u len : Nat) : Bool :=
  let n := r.portsOf g
  let mine := (r.grp g).held.filter fun x => x.port == port && !x.sent
  if u = 0 then
    let bs := (r.inBuf g).filter (·.1 == port)
    let others := mine.filter fun x => match x.act with
      | .msi _ _ _ _ | .peerMsi _ _ _ => true
      | _ => false
    decide (bs.length + others.length < 256 / n) && decide ((bs.map (·.2.2.2)).sum + len ≤ 65536 / n)
  else decide ((mine.filter (·.tracked)).length < 256 / n)

/-- An inbound TLP is accepted: its port is up and has had the credits for it, and its IDE stream lets it pass (R321 to R323). A link
stream belongs to its port of a PCIe group. -/
def Run.inOk (r : Run s0) (x : IoReq) (u : Nat) (len : Nat := 0) : Run s0 × Bool :=
  let r := r.accessing (.inbound x.g x.rid.toNat x.addr.toNat) .iommu
  let own : Bool := match x.stream with
    | some n => decide (n.val < 8) || (decide (n.val = 8 + x.port) && r.fld (G_CFG_PERS x.g) == 1)
    | none => true
  if !r.portUp x.g x.port || r.1.pins.fatal || !own || !r.inRoom x.g x.port u len then (r, false) else r.ideIn x.g x.stream x.intact u

/-- The posted writes of a requester that are not yet visible, by number. -/
def Run.postedOf (r : Run s0) (g rid : Nat) : List Nat := ((r.grp g).posted.filter (·.2.1 == rid)).map (·.1)

/-- Hold an item behind the earlier posted writes of its requester; with none, it acts at once. -/
def Run.hold (r : Run s0) (g rid : Nat) (a : InAct) (port : Nat := 0) : Run s0 :=
  let x : InItem := { rid := rid, port := port, deps := r.postedOf g rid, act := a }
  ((r.bufferPass 16 (97 + g) none).modGrp g fun t => { t with held := t.held ++ [x] }).groupGo g

/-- The lines of a span of bytes. -/
def spanLines (a len : Nat) : List LineAddr :=
  if len = 0 then [] else (List.range ((a + len - 1) / 64 - a / 64 + 1)).map fun k => BitVec.ofNat 46 (a / 64 + k)

/-- A request does not cross a 4 KiB boundary. -/
def inPage (a len : Nat) : Bool := decide (a % 4096 + len ≤ 4096)

/-- INBOUND_MEMORY_READ (R313, R315 to R318, R336 to R338): translated, then RdOnce for each line behind the requester's earlier
posted writes; peer-to-peer in the I/O windows; a completion with UR where it does not pass. -/
def execInboundMemoryRead (x : IoReq) (len : BitVec 13) (tag : BitVec 14) (s : State) : Host.Outcome State Fault Refusal :=
  let i := (Run.start s).inOk x 1
  let r := i.1
  let n := len.toNat
  let ur (r : Run s) : Run s := r.emit (.completion x.g tag.toNat false false 0)
  if !i.2 then r.done
  else if !inPage x.addr.toNat n then (ur r).done
  else
    let p := r.ioPass (ioAcc x false)
    match p.2 with
    | none => (ur p.1).done
    | some pa =>
      if regionOf pa = .memory then (p.1.hold x.g x.rid.toNat (.read tag.toNat pa n (spanLines pa n) []) x.port).done
      else match p.1.outSend (p.1.claim pa) { tag := 0, port := 0, addr := pa, back := some (x.g.val, tag.toNat) } false 0 with
        | none => r.done
        | some q => (if q.2 then q.1 else ur q.1).done

/-- The stash target of a write (R319): the tile of a full line's hint, for its L2, or its die, for the L3. -/
def Run.stashOf (r : Run s0) (g : Nat) (hint : Option (BitVec 16 × BitVec 2)) : Option Agent :=
  match hint with
  | none => none
  | some (st, ph) =>
    let n := st.toNat % 256
    if r.fld (G_CFG_PERS g) ≠ 1 ∨ !r.on (G_CFG_TPHEN g) ∨ 256 ≤ st.toNat ∨ !r.online (dieOf n) then none
    else if ph.toNat / 2 = 1 then some (.tile (Fin.ofNat 256 n)) else some (.die (Fin.ofNat 16 (dieOf n)))

/-- The part of a posted write that lies in one line: WrLine with every byte, WrPart otherwise (R315), behind the requester's
earlier posted writes (R30). -/
def Run.postLine (r : Run s0) (g rid port a en data : Nat) (ep : Bool) (stash : Option Agent) (l : LineAddr) : Run s0 :=
  let b := l.toNat * 64
  let sh (v k : Nat) : Nat := if a ≤ b then v / 2 ^ (k * (b - a)) else v * 2 ^ (k * (a - b))
  let mask := BitVec.ofNat 64 (sh en 1)
  let full := mask = BitVec.allOnes 64
  let m : Msg := { kind := if full then .wrLine else .wrPart, src := .group (Fin.ofNat 32 g), dst := .home (Fin.ofNat 4 (quadOf l)), line := l,
                   data := BitVec.ofNat 512 (sh data 8) &&& byteMask mask, poison := ep, mask := mask, stash := if full then stash else none }
  if mask = 0 then r
  else
    let n := (r.grp g).seq
    let x : InItem := { rid := rid, port := port, deps := r.postedOf g rid, act := .write n m }
    (r.modGrp g fun t => { t with seq := n + 1, posted := t.posted ++ [(n, rid, l)], held := t.held ++ [x] }).groupGo g

/-- A posted memory write stands in its port's buffer until its homes have accepted its parts (R321). -/
def Run.postLines (r : Run s0) (g rid port a len en data : Nat) (ep : Bool) (stash : Option Agent) : Run s0 :=
  let n := (r.grp g).seq
  let r := (spanLines a len).foldl (fun r l => r.postLine g rid port a en data ep stash l) r
  (r.modGrp g fun t => { t with buf := r.inBuf g ++ if n < t.seq then [(port, n, t.seq, len)] else [] }).bufferPass 16 (97 + g) ((spanLines a len).head?)

/-- A posted write goes to the register window (R338 to R340): an identity of an IMSIC file, here or on a peer socket. -/
def Run.inMsi (r : Run s0) (x : IoReq) (pa v : Nat) : Run s0 :=
  match r.msiDst pa with
  | some (.file h f) => r.hold x.g x.rid.toNat (.msi (.group x.g x.port) h f (msiId pa v)) x.port
  | some (.peer p off) => r.hold x.g x.rid.toNat (.peerMsi p off (msiId pa v)) x.port
  | none => r

/-- INBOUND_MEMORY_WRITE (R313, R315 to R317, R319, R336 to R340): `en` and `data` count from the first byte. What does not pass is
discarded. -/
def execInboundMemoryWrite (x : IoReq) (len : BitVec 13) (en data : Nat) (ep : Bool) (hint : Option (BitVec 16 × BitVec 2)) (s : State) :
    Host.Outcome State Fault Refusal :=
  let i := (Run.start s).inOk x 0 len.toNat
  let n := len.toNat
  let en := en % 2 ^ n
  if !i.2 || !inPage x.addr.toNat n then i.1.done
  else
    let p := i.1.ioPass (ioAcc x true) (n == 4 && en == 15 && x.addr.toNat % 4 == 0)
    match p.2 with
    | none => p.1.done
    | some pa =>
      match regionOf pa with
      | .memory => (p.1.postLines x.g x.rid.toNat x.port pa n en (data % 256 ^ n) ep (p.1.stashOf x.g hint)).done
      | .window => (p.1.inMsi x pa data).done
      | _ => (p.1.outPost pa (data % 256 ^ n) (some (2, x.g * 16 + x.port))).done

/-- INBOUND_ATOMICOP (R311, R315): FetchAdd and Swap of 32 and 64 bits, CAS of 32, 64 and 128 bits, naturally aligned, to memory;
anything else receives UR. -/
def execInboundAtomicop (x : IoReq) (op : AmoOp) (lg : Fin 5) (a b : BitVec 128) (tag : BitVec 14) (s : State) : Host.Outcome State Fault Refusal :=
  let i := (Run.start s).inOk x 1
  let ur (r : Run s) : Run s := r.emit (.completion x.g tag.toNat false false 0)
  let sized := match op with
    | .add | .swap => lg.val == 2 || lg.val == 3
    | .cas => decide (2 ≤ lg.val)
    | _ => false
  if !i.2 then i.1.done
  else if !sized || x.addr.toNat % 2 ^ lg.val != 0 then (ur i.1).done
  else
    let p := i.1.ioPass (ioAcc x true)
    match p.2 with
    | none => (ur p.1).done
    | some pa =>
      if regionOf pa ≠ .memory then (ur p.1).done
      else
        let l : LineAddr := BitVec.ofNat 46 (pa / 64)
        let m : Msg := { kind := .atomH, src := .group x.g, dst := .home (Fin.ofNat 4 (quadOf l)), line := l,
                         atom := some { op := op, lg := lg, off := pa % 64, a := a, b := b, recalled := none } }
        (p.1.hold x.g x.rid.toNat (.atom tag.toNat m) x.port).done

/-- INBOUND_MSI (R339, R340): a 32-bit write that the IOMMU takes to an IMSIC page. -/
def execInboundMsi (x : IoReq) (data : BitVec 32) (s : State) : Host.Outcome State Fault Refusal :=
  let i := (Run.start s).inOk x 0
  if !i.2 || x.addr.toNat % 4 != 0 then i.1.done
  else
    let p := i.1.ioPass (ioAcc x true) true
    match p.2 with
    | none => p.1.done
    | some pa =>
      match regionOf pa with
      | .window => (p.1.inMsi x pa data.toNat).done
      | .memory => (p.1.postLines x.g x.rid.toNat x.port pa 4 15 data.toNat false none).done
      | _ => (p.1.outPost pa data.toNat (some (2, x.g * 16 + x.port))).done

/-- ASSERT_INTX (R318, R341): passed to the APLIC after the requester's earlier posted writes. -/
def execAssertIntx (g : Fin 32) (port : Fin 8) (rid : BitVec 16) (n : Fin 4) (s : State) : Host.Outcome State Fault Refusal :=
  let r := Run.start s
  if !r.portUp g port then r.done else (r.hold g rid.toNat (.intx port n true) port).done

/-- DEASSERT_INTX (R341): behind an assertion of the same interrupt that is still held. -/
def execDeassertIntx (g : Fin 32) (port : Fin 8) (n : Fin 4) (s : State) : Host.Outcome State Fault Refusal :=
  let r := Run.start s
  if !r.portUp g port then r.done
  else match (r.grp g).held.find? fun x => x.act == .intx port n true with
    | some x => (r.modGrp g fun t => { t with held := t.held ++ [{ x with act := .intx port n false }] }).done
    | none => (r.intxWire g port n false).done

/-- PTM_REQUEST (R320): the time as the count × 10; no response while REFOK = 0. -/
def execPtmRequest (g : Fin 32) (port : Fin 8) (s : State) : Host.Outcome State Fault Refusal :=
  let r := Run.start s
  (if r.portUp g port && r.on TBASE_STAT_REFOK then r.emit (.ptm g port (r.count * 10 % 2 ^ 64)) else r).done

/-- ATS_TRANSLATION_REQUEST (R336, RISC-V IOMMU 1.0): the translation with its permissions; UR, CA, or a translation without
permissions where the process faults. -/
def execAtsTranslationRequest (x : IoReq) (noWrite : Bool) (s : State) : Host.Outcome State Fault Refusal :=
  let i := (Run.start s).inOk x 1
  if !i.2 then i.1.done
  else
    let a : IoAcc := { ioAcc x false with ttyp := 8 }
    let p := i.1.ioTrans a
    match p.2 with
    | .ok (pa, w) => (p.1.emit (.ats x.g 0 pa true (w && !noWrite))).done
    | .error (c, v, dtf) =>
      if c ∈ [12, 13, 15, 20, 21, 23, 262, 266] then (p.1.emit (.ats x.g 0 0 false false)).done
      else
        let st := if c ∈ [256, 258, 259, 260] then 1 else 4
        ((p.1.ioFault a c v dtf).emit (.ats x.g st 0 false false)).done

/-- PAGE_REQUEST (R336, RISC-V IOMMU 1.0): a record in the page-request queue, or an automatic response to the last request of a
group. -/
def execPageRequest (x : IoReq) (rd wr last : Bool) (prgi : BitVec 9) (s : State) : Host.Outcome State Fault Refusal :=
  let i := (Run.start s).inOk x 0
  let a : IoAcc := { ioAcc x false with ttyp := 9 }
  let answer (r : Run s) (code : Nat) : Host.Outcome State Fault Refusal :=
    (if last && (rd || wr) then r.emit (.prgResponse x.g prgi.toNat code) else r).done
  let md := i.1.io32 0x10 % 16
  if !i.2 then i.1.done
  else if md = 0 then answer (i.1.ioFault a 256 0 false) 15
  else if md = 1 then answer (i.1.ioFault a 260 0 false) 1
  else if (md = 2 ∧ 64 ≤ a.did) ∨ (md = 3 ∧ 32768 ≤ a.did) then answer (i.1.ioFault a 260 0 false) 1
  else
    let d := i.1.ioDc a
    match d.2 with
    | .error (c, v) => answer (d.1.ioFault a c v false) 15
    | .ok dc =>
      let tc := cw dc 0
      if !tc.getLsbD 2 then answer (d.1.ioFault a 260 0 (tc.getLsbD 4)) 1
      else if !d.1.ioBit 0x50 16 ∨ d.1.ioBit 0x50 8 then answer d.1 15
      else if d.1.ioBit 0x50 9 ∨ (d.1.io32 0x44 + 1) % d.1.ioSize 0x38 = d.1.io32 0x40 then
        answer (if d.1.ioBit 0x50 9 then d.1 else (d.1.setIoBit 0x50 9 true).ioAsk 3) 0
      else
        let f := (if a.pid.isSome then a.pid.getD 0 * 2 ^ 12 + 2 ^ 32 + (if a.priv then 2 ^ 33 else 0) else 0) + a.did * 2 ^ 40
        let g := (if rd then 1 else 0) + (if wr then 2 else 0) + (if last then 4 else 0) + prgi.toNat * 8 + x.addr.toNat / 4096 * 4096
        (d.1.ioPush 0x38 0x50 3 16 (f + g * 2 ^ 64)).done

/-! ### CXL -/

/-- A CXL.cache request of group g (R326): it passes the IOMMU as a translated access and becomes a home message. A refused one
receives poisoned zero, or is discarded (R316); at the bound of R321 it waits. -/
def Run.cxlCache (r : Run s0) (g : Fin 32) (rid : BitVec 16) (l : LineAddr) (write : Bool) (m : Msg) : Run s0 :=
  let mine (x : Msg) : Bool := x.src == .cxl g
  let live := (r.1.net.filter fun x => mine x && decide (msgClass x.kind ≤ 1)).length
    + (r.1.lineq.foldl (fun a q => a + (q.2.filter fun y => mine y.msg).length) 0)
  if !r.portUp g 0 || r.fld (G_CFG_PERS g) != 2 || !r.on (G_CFG_COH g) || natBit (r.grp g).insec 8 || r.1.pins.fatal || decide (128 ≤ live) then r
  else
    let k := if r.bit (G_IDESTAT_SECURE g) 8 then r.ideUse g 8 0 1 else (r, true)
    if !k.2 then k.1
    else
      let p := (k.1.accessing (.inbound g rid.toNat (l.toNat * 64)) .iommu).ioPass { did := g * 65536 + rid.toNat, write := write, ttyp := if write then 7 else 6, iova := l.toNat * 64, who := some (7, g.val) }
      match p.2 with
      | some _ => p.1.send { m with src := .cxl g, dst := .home (Fin.ofNat 4 (quadOf l)), line := l }
      | none => if m.kind = .wrLine ∨ msgClass m.kind = 1 then p.1 else p.1.emit (.reply (.cxl g) false 0)

/-- A message of CXL.cache with nothing but its kind. -/
def cxlMsg (k : MsgKind) : Msg := { kind := k, src := .fox, dst := .fox, line := 0 }

/-- RDSHARED (R326). -/
def execRdshared (g : Fin 32) (rid : BitVec 16) (l : LineAddr) (s : State) : Host.Outcome State Fault Refusal :=
  ((Run.start s).cxlCache g rid l false (cxlMsg .rdS)).done

/-- RDOWN (R326). -/
def execRdown (g : Fin 32) (rid : BitVec 16) (l : LineAddr) (s : State) : Host.Outcome State Fault Refusal :=
  ((Run.start s).cxlCache g rid l true (cxlMsg .rdX)).done

/-- RDOWNNODATA (R326). -/
def execRdownnodata (g : Fin 32) (rid : BitVec 16) (l : LineAddr) (s : State) : Host.Outcome State Fault Refusal :=
  ((Run.start s).cxlCache g rid l true (cxlMsg .claim)).done

/-- RDCURR (R326). -/
def execRdcurr (g : Fin 32) (rid : BitVec 16) (l : LineAddr) (s : State) : Host.Outcome State Fault Refusal :=
  ((Run.start s).cxlCache g rid l false (cxlMsg .rdOnce)).done

/-- CLEANEVICT (R326). -/
def execCleanevict (g : Fin 32) (rid : BitVec 16) (l : LineAddr) (s : State) : Host.Outcome State Fault Refusal :=
  ((Run.start s).cxlCache g rid l false (cxlMsg .evC)).done

/-- ITOMWR (R326). -/
def execItomwr (g : Fin 32) (rid : BitVec 16) (l : LineAddr) (data : LineData) (poison : Bool) (s : State) : Host.Outcome State Fault Refusal :=
  ((Run.start s).cxlCache g rid l true { cxlMsg .wrLine with data := data, poison := poison, mask := BitVec.allOnes 64 }).done

/-- WRCUR (R326). -/
def execWrcur (g : Fin 32) (rid : BitVec 16) (l : LineAddr) (data : LineData) (poison : Bool) (s : State) : Host.Outcome State Fault Refusal :=
  ((Run.start s).cxlCache g rid l true { cxlMsg .wrLine with data := data, poison := poison, mask := BitVec.allOnes 64 }).done

/-- DIRTYEVICT (R326). -/
def execDirtyevict (g : Fin 32) (rid : BitVec 16) (l : LineAddr) (data : LineData) (poison : Bool) (s : State) : Host.Outcome State Fault Refusal :=
  ((Run.start s).cxlCache g rid l true { cxlMsg .evM with st := .M, data := data, poison := poison }).done

/-- CXL_MEM_RESPONSE (R327): the S2M response to one of the 512 oldest requests in flight to a group's CXL memory (R321); memory that does not exist is the
response of R21. -/
def execCxlMemResponse (g : Fin 32) (l : LineAddr) (write exist : Bool) (data : LineData) (poison : Bool) (dir : Fin 4) (s : State) :
    Host.Outcome State Fault Refusal :=
  let r := Run.start s
  let k : MsgKind := if write then .mWr else .mRd
  match ((r.1.net.filter fun m => m.dst == .cxl g && (m.kind == .mRd || m.kind == .mWr)).take 512).find? fun m => m.kind == k && m.line == l with
  | none => r.done
  | some m =>
    if !r.on (G_STAT_PORTUP g) || r.1.pins.fatal then r.done
    else
      let r := r.take m
      let back (k : MsgKind) : Msg := { kind := k, src := .cxl g, dst := homeOf l, line := l, data := data, poison := poison, dir := dir }
      if exist then (if write then r.homeWritten (back .mAck) else r.homeMem (back .mDat)).done
      else if write ∧ l ∈ (r.slice (quadOf l)).loose then
        ((r.modSlice (quadOf l) fun x => { x with loose := x.loose.erase l }).logNoMemory (l.toNat * 64) none).done
      else match r.queue l.toNat with
        | q :: _ =>
          if (if write then q.phase == .waitMAck else q.needMem) then (((r.popHead l).noMemory q.msg).homeGo l).done
          else (r.logNoMemory (l.toNat * 64) (Agent.rec q.msg.src)).done
        | [] => (r.logNoMemory (l.toNat * 64) none).done

/-! ### The socket link -/

/-- The slot of a socket link (R348): direction d, key set k. -/
def sockSlot (g d k : Nat) : Nat := keyId 3 (g * 4 + d * 2 + k)

/-- A key agreed for both directions is loaded into key set k (R357). -/
def Run.sockKeys (r : Run s0) (g k : Nat) : Run s0 :=
  [0, 1].foldl (fun r d =>
    let f := r.fresh
    let old := f.1.key (sockSlot g d k)
    f.1.setKey (sockSlot g d k) { loaded := true, type := 1, key := f.2, gen := (old.gen + 1) % 2 ^ 32, counter := 0, limlog := 48, owner := old.owner }) r

/-- A joined link enters STATE 4, or 5 at a reduced width, once DIREN is 1 on both ends (R332). -/
def Run.joinCoherent (r : Run s0) (g : Nat) : Run s0 :=
  if r.fld (G_STAT_STATE g) = 3 ∧ (r.grp g).peerDir ∧ r.on HOME_CFG_DIREN then
    (r.setFld (G_STAT_STATE g) (if r.fld (G_STAT_WIDTH g) < 16 then 5 else 4)).aplicEdge (149 + g)
  else r

/-- SOCKET_LINK_JOIN (R332, R334, R357): `id`, `peer`, `baseline` and `enc` are the other end's, `diren` its DIREN, `keyOk` whether the
key agreement succeeds. A link that waits for DIREN exchanges again. -/
def execSocketLinkJoin (g : Fin 32) (id peer : Fin 4) (baseline : Word) (enc diren keyOk : Bool) (s : State) : Host.Outcome State Fault Refusal :=
  let r := Run.start s
  let st := r.fld (G_STAT_STATE g)
  if !socketPers (r.fld (G_CFG_PERS g)) || !r.on (G_CFG_EN g) || r.1.pins.fatal then r.done
  else if st = 3 then ((r.modGrp g fun t => { t with peerDir := diren }).joinCoherent g).done
  else if st ≠ 2 then r.done
  else
    let mine := r.on (G_CFG_ENC g)
    if r.fld (G_CFG_PEER g) ≠ id.val ∨ r.fld SOCK_CFG_ID ≠ peer.val ∨ r.reg ID_BASELINE ≠ baseline ∨ mine ≠ enc ∨ (mine ∧ !keyOk) then
      ((r.setFld (G_STAT_STATE g) 6).aplicEdge (149 + g)).done
    else
      let r := if mine then r.sockKeys g (if natBit (r.grp g).kset 0 then 1 else 0) else r
      let r := (r.modGrp g fun t => { t with peerDir := diren, fails := 0 }).setFld (G_STAT_STATE g) 3
      ((r.aplicEdge (149 + g)).joinCoherent g).done

/-- SOCKET_JOIN_RETRY (R332): a refused join is tried again. -/
def execSocketJoinRetry (g : Fin 32) (s : State) : Host.Outcome State Fault Refusal :=
  let r := Run.start s
  (if r.fld (G_STAT_STATE g) = 6 then r.setFld (G_STAT_STATE g) 2 else r).done

/-- A socket link fails (R330, R333): every group of the link is in STATE 7, and FATAL. -/
def Run.sockFail (r : Run s0) (g : Nat) : Run s0 :=
  let peer := r.fld (G_CFG_PEER g)
  let r := (List.range 32).foldl (fun r k =>
    if socketPers (r.fld (G_CFG_PERS k)) && r.on (G_CFG_EN k) && r.fld (G_CFG_PEER k) == peer then (r.setFld (G_STAT_STATE k) 7).aplicEdge (149 + k) else r) r
  r.fatal (.grp g) { event := 0x0705, cls := .fatal }

/-- SOCKET_LINK_FLIT (R329, R333, R334, R360): `ok` says that the link CRC passes, `auth` that authentication does, `lanes` how many
lanes still work. A flit in error is resent; the sixteenth failure of authentication in succession ends the link. -/
def execSocketLinkFlit (g : Fin 32) (ok auth : Bool) (lanes : Fin 17) (s : State) : Host.Outcome State Fault Refusal :=
  let r := Run.start s
  let st := r.fld (G_STAT_STATE g)
  if !socketPers (r.fld (G_CFG_PERS g)) || st < 2 || 5 < st || r.1.pins.fatal then r.done
  else
    let enc := r.on (G_CFG_ENC g) && decide (st = 3 ∨ st = 4 ∨ st = 5)
    let width := if lanes.val = 16 then 16 else if 8 ≤ lanes.val then 8 else if 4 ≤ lanes.val then 4 else 0
    let now := r.fld (G_STAT_WIDTH g)
    if width = 0 then (r.sockFail g).done
    else
      let r := if width < now then
          let r := r.setFld (G_STAT_WIDTH g) width
          (if st = 4 then r.setFld (G_STAT_STATE g) 5 else r).aplicEdge (149 + g)
        else r
      if !ok then r.done
      else if enc && !auth then
        let n := (r.grp g).fails + 1
        let r := r.modGrp g fun t => { t with fails := n }
        (if 16 ≤ n then r.sockFail g else r).done
      else
        let r := r.modGrp g fun t => { t with fails := 0 }
        if !enc then r.done
        else
          let k := if natBit (r.grp g).kset 0 then 1 else 0
          let c := r.takeCounter (sockSlot g 1 k)
          if c.2.1.isSome && c.2.2 then
            let r := c.1.sockKeys g (1 - k)
            let r := [0, 1].foldl (fun r d => r.modKey (sockSlot g d k) (·.erased 1)) r
            (r.modGrp g fun t => { t with kset := flipBit t.kset 0 (k = 0) }).done
          else c.1.done

/-- SOCKET_LINK_RETRAIN_TIMEOUT (R333): the link did not retrain within 100 ms. -/
def execSocketLinkRetrainTimeout (g : Fin 32) (s : State) : Host.Outcome State Fault Refusal :=
  let r := Run.start s
  let st := r.fld (G_STAT_STATE g)
  (if socketPers (r.fld (G_CFG_PERS g)) ∧ 3 ≤ st ∧ st ≤ 5 ∧ !r.1.pins.fatal then r.sockFail g else r).done

/-- PEER_FATAL_NOTICE (R472): a notice on a coherent link raises FATAL here. -/
def execPeerFatalNotice (p : Fin 4) (s : State) : Host.Outcome State Fault Refusal :=
  let r := Run.start s
  match (List.range 32).find? fun g => socketPers (r.fld (G_CFG_PERS g)) && r.fld (G_CFG_PEER g) == p.val
      && (r.fld (G_STAT_STATE g) == 4 || r.fld (G_STAT_STATE g) == 5) with
  | some g => (r.fatal (.grp g) { event := 0x0706, cls := .fatal }).done
  | none => r.done

end Sys2Proof.Machine
end

