-- ==== Sys2Proof/Machine/Phlox.lean ====
section
/-! DEFINITION. The Phlox engines: queues, descriptors, admission, the operations, completion, and their sharing among functions
(R254 to R306). -/
namespace Sys2Proof.Machine

variable {s0 : State}

/-! ### Accesses of an engine -/

/-- The transaction of a function as the IOMMU judges it (R312, R337). -/
def engAcc (f : Nat) (write : Bool) (a : Nat) : IoAcc :=
  { did := 32 * 65536 + f, write := write, ttyp := if write then 3 else 2, iova := a, who := some (3, f) }

/-- The device that an engine reads in the I/O windows (R313) answers with a free value, or ends the read without completion. -/
def Run.engDevice (r : Run s0) (f pa n : Nat) : Run s0 × Option (List (Byte × Bool)) :=
  match r.claim pa with
  | none => (r.outRecord none pa (some (3, f)), none)
  | some (g, p) =>
    let d := r.fresh
    let x := d.1.fresh
    if !x.1.portUp g p || x.2.getLsbD 0 then (x.1.outRecord (some (g, p)) pa (some (3, f)), none)
    else ((x.1.emit (.pcie g p none false pa n)), some ((bytesLE n d.2.toNat).map fun b => (b, false)))

/-- Read bytes at an I/O virtual address, line by line; each byte says whether its line is poisoned. None on an IOMMU fault or an error
completion (R289). -/
def Run.engLines (r : Run s0) (f a n : Nat) : Nat → Run s0 × Option (List (Byte × Bool))
  | 0 => (r, some [])
  | fuel + 1 =>
    let k := min n (64 - a % 64)
    if n = 0 then (r, some [])
    else
      let p := r.ioPass (engAcc f false a)
      let x : Run s0 × Option (List (Byte × Bool)) := match p.2 with
        | none => (p.1, none)
        | some pa =>
          if regionOf pa ≠ .memory then p.1.engDevice f pa k
          else if p.1.decode pa = .none_ then (p.1.logNoMemory pa (some (3, f)), none)
          else
            let d := p.1.rdBytes pa k r.1.need.who
            (d.1, some ((bytesLE k d.2.1).map fun b => (b, d.2.2)))
      match x.2 with
      | none => (x.1, none)
      | some bs =>
        let y := Run.engLines x.1 f (a + k) (n - k) fuel
        (y.1, y.2.map (bs ++ ·))

/-- A read of an engine, all of whose lines come before it goes on (R31 step 4). -/
def Run.engRead (r : Run s0) (f a n : Nat) : Run s0 × Option (List (Byte × Bool)) :=
  let x := r.engLines f a n (n / 64 + 2)
  (x.1.settleUp, x.2)

/-- A read of `n` bytes: its bytes and whether any is poisoned. -/
def Run.engGet (r : Run s0) (f a n : Nat) : Run s0 × Option (List Byte × Bool) :=
  let x := r.engRead f a n
  (x.1, x.2.map fun bs => (bs.map (·.1), bs.any (·.2)))

/-- A 32-bit write of a function to the register window (R338, R340): an identity of an IMSIC file here or on a peer. -/
def Run.engMsi (r : Run s0) (f pa v : Nat) : Run s0 :=
  match r.msiDst pa with
  | some (.file h k) => r.msiBy (.phlox (Fin.ofNat 256 f)) h k (msiId pa v)
  | some (.peer p off) => r.emit (.peerMsi (Fin.ofNat 4 p) off (msiId pa v))
  | none => r

/-- Write bytes at an I/O virtual address, line by line, as posted writes of the function with a stash target; false on an IOMMU fault or an
error completion, after which nothing more is written. -/
def Run.engStores (r : Run s0) (f a : Nat) (bs : List (Byte × Bool)) (stash : Option Agent) : Nat → Run s0 × Bool
  | 0 => (r, true)
  | fuel + 1 =>
    let k := min bs.length (64 - a % 64)
    if bs = [] then (r, true)
    else
      let now := bs.take k
      let v := natLE (now.map (·.1))
      let p := r.ioPass (engAcc f true a) (k == 4 && a % 4 == 0)
      let x : Run s0 × Bool := match p.2 with
        | none => (p.1, false)
        | some pa => match regionOf pa with
          | .memory =>
            if p.1.decode pa = .none_ then (p.1.logNoMemory pa (some (3, f)), false)
            else (p.1.wrLine r.1.need.who (BitVec.ofNat 46 (pa / 64))
              { data := lineBytes (pa % 64) k v, mask := spanMask (pa % 64) k, poison := now.any (·.2), stash := stash }, true)
          | .window => (p.1.engMsi f pa v, true)
          | _ => match p.1.claim pa with
            | none => (p.1.outRecord none pa (some (3, f)), false)
            | some _ => (p.1.outPost pa v (some (3, f)), true)
      if x.2 then Run.engStores x.1 f (a + k) (bs.drop k) stash fuel else x

/-- A write of an engine, which is globally visible before anything that follows it (R31, R32). -/
def Run.engWrite (r : Run s0) (f a : Nat) (bs : List (Byte × Bool)) (stash : Option Agent := none) : Run s0 × Bool :=
  let x := r.engStores f a bs stash (bs.length / 64 + 2)
  (x.1.settleUp, x.2)

/-- A write of good bytes. -/
def Run.engPut (r : Run s0) (f a : Nat) (bs : List Byte) (stash : Option Agent := none) : Run s0 × Bool :=
  r.engWrite f a (bs.map fun b => (b, false)) stash

/-- What an engine's accesses are for. -/
def Run.engine (r : Run s0) (k : Reader) (e : Nat) : Run s0 := r.accessing k (.phlox (Fin.ofNat 8 e))

/-- Bytes move for a function on an engine (R299, R301). -/
def Run.moveBytes (r : Run s0) (e f n : Nat) : Run s0 :=
  let r := (r.modMoved (e * 256 + f) (· + n)).modFnBytes f (· + n)
  r.setFld (FN_USE_BYTES f) (r.fnBytes f / 4096 % 2 ^ 32)

/-! ### Descriptors -/

/-- Bytes lo to lo + n - 1 of a descriptor are 0. -/
def descZero (d : BitVec 1024) (lo n : Nat) : Bool := descNat d lo n == 0

/-- OPCODE. -/
def dOp (d : BitVec 1024) : Nat := descNat d 0 1

/-- A flag of byte 1: 0 INTR, 1 ORDER, 2 SOS, 3 EOS, 4 STASH. -/
def dFlag (d : BitVec 1024) (i : Nat) : Bool := natBit (descNat d 1 1) i

/-- The stash target that the output writes of a descriptor carry (R31, R259). -/
def dStash (d : BitVec 1024) : Option Agent :=
  let n := descNat d 6 1
  if !dFlag d 4 then none else if natBit (descNat d 6 2) 8 then some (.tile (Fin.ofNat 256 n)) else some (.die (Fin.ofNat 16 (n / 16)))

/-- The CRC width. -/
def dWidth (d : BitVec 1024) : Nat := descNat d 88 1 % 64 + 1

/-- A cipher operation. -/
def isCipher (op : Nat) : Bool := op == 0x20 || op == 0x21 || op == 0x22 || op == 0x23

/-- COMPRESS or DECOMPRESS. -/
def isCodec (op : Nat) : Bool := op == 0x10 || op == 0x11

/-- The operation fields are in their ranges and their other bytes are zero (R259, R260, R273, R284). -/
def dFieldsOk (d : BitVec 1024) : Bool :=
  let src := descNat d 16 8
  match dOp d with
  | 0x00 => descZero d 64 64
  | 0x01 | 0x03 =>
    let w := dWidth d
    decide (descNat d 64 8 < 2 ^ w) && decide (descNat d 72 8 < 2 ^ w) && decide (descNat d 80 8 < 2 ^ w)
      && decide (descNat d 88 1 < 64) && decide (descNat d 89 1 < 8) && descZero d 90 38
  | 0x02 => descZero d 72 56
  | 0x10 | 0x11 =>
    let wl := descNat d 66 1
    decide (descNat d 64 1 ≤ 3) && decide (descNat d 65 1 ≤ if dOp d = 0x10 then 4 else 0)
      && (if descNat d 64 1 = 3 then decide (10 ≤ wl) && decide (wl ≤ 23) else wl == 15)
      && descZero d 67 5 && ((dFlag d 2 && dFlag d 3) || descNat d 72 8 % 4096 == 0) && descZero d 80 48
  | 0x20 => decide (descNat d 64 2 < 4096) && descZero d 66 2 && decide (descNat d 80 4 ≤ 65536) && descZero d 84 44 && decide (src ≤ 65536)
  | 0x21 => decide (descNat d 64 2 < 4096) && descZero d 66 6 && decide (descNat d 80 4 ≤ 65536) && descZero d 84 4 && descZero d 100 4
      && descZero d 120 8 && decide (src ≤ 65536)
  | 0x22 | 0x23 =>
    let du := descNat d 66 1
    decide (descNat d 64 2 < 4096) && decide (9 ≤ du) && decide (du ≤ 16) && descZero d 67 21 && descZero d 104 24
      && decide (src ≠ 0) && decide (src ≤ 65536) && src % 2 ^ du == 0
  | _ => false

/-- The descriptor check (R260) but for COMP. -/
def descOk (d : BitVec 1024) : Bool :=
  let op := dOp d
  decide (descNat d 1 1 < 32) && decide (descNat d 2 1 < 8) && descZero d 3 1 && decide (descNat d 6 2 < 512) && descZero d 56 8
    && (isCodec op || (dFlag d 2 && dFlag d 3)) && (op == 0x01 || op == 0x03 || descNat d 2 1 % 4 == 0)
    && decide (descNat d 16 8 ≤ 2 ^ 32) && decide (descNat d 32 8 ≤ 2 ^ 32) && dFieldsOk d

/-! ### Queues -/

/-- The domain of an engine (R424). -/
def domEngine (e : Nat) : Nat := 392 + e

/-- A function exists (R291). -/
def Run.fnExists (r : Run s0) (f : Nat) : Bool := f == 0 || (r.on PHLOX_VFCFG_VFEN && decide (f ≤ r.fld PHLOX_VFCFG_NUMVF))

/-- A queue has the function and slot of a valid entry of QBIND. -/
def Run.queueOf (r : Run s0) (qi : Nat) : Option (Nat × Nat) :=
  if r.on (PHLOX_QBIND_VALID qi) then some (r.fld (PHLOX_QBIND_FN qi), r.fld (PHLOX_QBIND_SLOT qi)) else none

/-- A write leaves TAIL at `t` (R256): entries are added, or DBERR is set. -/
def Run.wTail (r : Run s0) (f j t : Nat) : Run s0 :=
  let n := 2 ^ r.fld (Q_CFG_LOG2N f j)
  let tail := r.fld (Q_TAIL_TAIL f j)
  let pending := (tail + n - r.fld (Q_QSTAT_HEAD f j)) % n
  if t < n ∧ (t + n - tail) % n ≤ n - 1 - pending then r.setFld (Q_TAIL_TAIL f j) t else r.setFld (Q_QSTAT_DBERR f j) 1

/-- TAIL and HEAD go to 0 (R255). -/
def Run.clearRing (r : Run s0) (f j : Nat) : Run s0 := (r.setFld (Q_TAIL_TAIL f j) 0).setFld (Q_QSTAT_HEAD f j) 0

/-- A queue slot is idle (R255). -/
def Run.queueIdle (r : Run s0) (f j : Nat) : Bool := !r.on (Q_CFG_EN f j) && !r.on (Q_QSTAT_INFLIGHT f j)

/-- A write leaves `new` in CFG of a slot (R255, R257); LOG2N outside 6 to 16 is refused as a whole. -/
def Run.wQCfg (r : Run s0) (f j : Nat) (new : Word) : Run s0 :=
  let log := Word.bits new 4 0
  let en := new.getLsbD 63
  if (en && !r.on (Q_CFG_BOUND f j)) || log < 6 || 16 < log then r.setFld (Q_QSTAT_CFG_REJECT f j) 1
  else
    let same := log == r.fld (Q_CFG_LOG2N f j)
    if !same && !r.queueIdle f j then r.setFld (Q_QSTAT_CFG_REJECT f j) 1
    else
      let r := (r.setFld (Q_CFG_EN f j) (if en then 1 else 0)).setFld (Q_CFG_LOG2N f j) log
      if same then r else r.clearRing f j

/-- A write leaves `new` in BASE of a slot (R255). -/
def Run.wQBase (r : Run s0) (f j : Nat) (new : Word) : Run s0 :=
  if !r.queueIdle f j then (if Word.bits new 63 12 = r.fld (Q_BASE_BASE f j) then r else r.setFld (Q_QSTAT_CFG_REJECT f j) 1)
  else (r.setReg (Q_BASE f j) new).clearRing f j

/-- The record of poison consumed by a job (R288). -/
def Run.logPoison (r : Run s0) (e f : Nat) : Run s0 :=
  r.logRec (.phlox (some e)) { event := 0x0800, cls := .ucna, req := some (3, f), sub := e }

/-- DESCRIPTOR_FETCH (R256 to R258, R289): the engine reads the descriptor at HEAD with one coherent read, and HEAD advances. A fault
stops the queue. -/
def execDescriptorFetch (qi : Fin 1024) (s : State) : Host.Outcome State Fault Refusal :=
  let r := Run.start s
  match r.queueOf qi with
  | none => r.done
  | some (f, j) =>
    let head := r.fld (Q_QSTAT_HEAD f j)
    let e := r.fld (Q_CFG_ENG f j)
    if !r.on (Q_CFG_EN f j) || r.on (PHLOX_QBIND_MOVING qi) || (r.fetched qi).isSome || head == r.fld (Q_TAIL_TAIL f j)
        || r.on (FN_RESET_BUSY f) || r.on (DOM_STAT_STATE (domEngine e)) || r.1.pins.fatal then r.done
    else
      let x := (r.engine (.descriptor qi) e).engGet f (r.fld (Q_BASE_BASE f j) * 4096 + head * 128) 128
      match x.2 with
      | none => (x.1.setFld (Q_CFG_EN f j) 0).done
      | some (bs, poison) =>
        if poison then ((x.1.logPoison e f).setFld (Q_CFG_EN f j) 0).done
        else
          let r := x.1.setFetched qi (some (BitVec.ofNat 1024 (natLE bs)))
          (r.setFld (Q_QSTAT_HEAD f j) ((head + 1) % 2 ^ r.fld (Q_CFG_LOG2N f j))).done

/-! ### Admission -/

/-- Show what a function holds (R301). -/
def Run.showFn (r : Run s0) (f : Nat) : Run s0 :=
  let r := r.setFld (FN_USE_CTX f) (r.1.jobs.filter fun x => x.2.f == f).length
  r.setFld (FN_USE_QUEUES f) ((List.range 1024).filter fun q => (r.queueOf q).any fun p => p.1 == f).length

/-- A function has a queue bound to an engine; a moving one counts on both (R297). -/
def Run.fnOn (r : Run s0) (f e : Nat) : Bool :=
  (List.range 1024).any fun q => match r.queueOf q with
    | some (g, j) => g == f && (r.fld (PHLOX_QBIND_ENG q) == e || r.fld (Q_CFG_ENG g j) == e)
    | none => false

/-- The reservations of the functions bound to an engine, with `min` for function f where it is given (R297). -/
def Run.reserved (r : Run s0) (e f : Nat) (min : Option Nat) (joins : Bool) : Nat :=
  (List.range 256).foldl (fun a g => if r.fnOn g e || (joins && g == f) then
    a + (if g = f then min.getD (r.fld (FN_SHARE_CTXMIN g)) else r.fld (FN_SHARE_CTXMIN g)) else a) 0

/-- The contexts that a function holds on an engine. -/
def Run.ctxOf (r : Run s0) (e f : Nat) : Nat := r.jobCount e fun j => j.f == f

/-- The shares and bounds let engine e take a job of function f (R261, R298, R299). -/
def Run.mayAdmit (r : Run s0) (e f : Nat) (cipher : Bool) : Bool :=
  let held := r.ctxOf e f
  let cap := r.fld (FN_SHARE_CAP f)
  let used := r.jobCount e fun _ => true
  let unused := (List.range 256).foldl (fun a g => if r.fnOn g e then a + (r.fld (FN_SHARE_CTXMIN g) - r.ctxOf e g) else a) 0
  (cap == 0 || decide (r.moved (e * 256 + f) < cap * 4096)) && decide (held < r.fld (FN_SHARE_CTXMAX f)) && decide (used < 256)
    && (decide (held < r.fld (FN_SHARE_CTXMIN f)) || decide (used + unused < 256))
    && (!cipher || (decide (r.jobCount e (fun j => j.key.isSome) < 16) && decide (r.jobCount e (fun j => j.f == f && j.key.isSome) < r.fld (FN_SHARE_BUFMAX f))))

/-- A job that keeps the order of its queue waits for the queue's earlier jobs (R262). -/
def ordered (d : BitVec 1024) : Bool := dFlag d 1 || (isCodec (dOp d) && !dFlag d 2)

/-- Queue qi has a job on engine e that may be admitted now (R261, R262, R298, R299). -/
def Run.admissible (r : Run s0) (e qi : Nat) : Bool :=
  match r.queueOf qi, r.fetched qi with
  | some (f, j), some d =>
    r.fld (Q_CFG_ENG f j) == e && !r.on (FN_RESET_BUSY f) && !(ordered d && r.on (Q_QSTAT_INFLIGHT f j)) && r.mayAdmit e f (descOk d && isCipher (dOp d))
  | _, _ => false

/-- The functions and slots that have a job on engine e that may be admitted now. -/
def Run.rivals (r : Run s0) (e : Nat) : List (Nat × Nat) :=
  r.1.fetched.filterMap fun p => if r.admissible e p.1 then r.queueOf p.1 else none

/-- A common multiple of the weights, so that bytes over a weight are whole. -/
def leadUnit : Nat := (List.range 255).foldl (fun a w => Nat.lcm a (w + 1)) 1

/-- What n bytes count for a function of its weight (R300). -/
def Run.leadFor (r : Run s0) (f n : Nat) : Nat := n * (leadUnit / max 1 (r.fld (FN_SHARE_WEIGHT f)))

/-- The bytes moved over weight by a function on an engine: one that had no job to admit counts from the least of the last admission. -/
def Run.lead (r : Run s0) (e f : Nat) : Nat := max (r.leadOf (e * 257 + f)) (r.leadOf (e * 257 + 256))

/-- It is the turn of slot j of function f on engine e (R300): no function with an admissible job has moved less for its weight, and no slot of
f with an admissible job comes before j. -/
def Run.itsTurn (r : Run s0) (e f j : Nat) : Bool :=
  let from_ := r.slotTurn (e * 256 + f)
  (r.rivals e).all fun p =>
    if p.1 = f then decide ((j + 32 - from_) % 32 ≤ (p.2 + 32 - from_) % 32) else decide (r.lead e f ≤ r.lead e p.1)

/-- The bytes that a descriptor announces: its source, or the output of FILL. -/
def dBytes (d : BitVec 1024) : Nat := if dOp d = 0x02 then descNat d 32 8 else descNat d 16 8

/-- Slot j of function f has a job admitted on engine e: the announced bytes count at once, and its next slot comes first (R300). -/
def Run.takeTurn (r : Run s0) (e f j n : Nat) : Run s0 :=
  let at_ := r.lead e f
  let r := (r.setLeadOf (e * 257 + 256) at_).setLeadOf (e * 257 + f) (at_ + r.leadFor f n)
  r.setSlotTurn (e * 256 + f) ((j + 1) % 32)

/-- n bytes of a job moved: those beyond the announced ones count now. -/
def Run.chargeJob (r : Run s0) (e n : Nat) (x : Job) : Run s0 × Job :=
  (r.setLeadOf (e * 257 + x.f) (r.lead e x.f + r.leadFor x.f (n - x.toll)), { x with toll := x.toll - n })

/-- The length of a stream state block (R278). -/
def ssbLen (d : BitVec 1024) : Nat := 4096 + 2 ^ descNat d 66 1

/-- The header check of a stream state block (R280). -/
def Run.ssbOk (r : Run s0) (d : BitVec 1024) (bs : List Byte) : Bool :=
  let at_ (lo n : Nat) : Nat := natLE ((bs.drop lo).take n)
  let dir := if dOp d = 0x11 then 1 else 0
  at_ 0 2 == 1 && at_ 2 1 == descNat d 64 1 && at_ 3 1 == dir && at_ 4 1 == descNat d 66 1 && at_ 5 1 == descNat d 65 1 && at_ 6 2 == 0
    && decide (at_ 32 4 ≤ 2 ^ descNat d 66 1) && at_ 40 4 == (r.reg ID_BASELINE).toNat % 2 ^ 32
    && decide (at_ 44 4 ≤ 131072) && (dir == 0 || at_ 44 4 == 0) && at_ 48 16 == 0

/-- A bank 1 slot's rekey request enters FOX.REKEYQ once per loading (R360, R361): 64 entries, then OVF. -/
def Run.rekeyAsk (r : Run s0) (i : Nat) : Run s0 :=
  let id := keyId 1 i
  if (r.key id).crossed then r
  else
    let r := r.modKey id fun k => { k with crossed := true }
    if 64 ≤ r.1.fox.rekey.length then r.setFld FOX_REKEYQ_OVF 1
    else
      let r := r.act (.fox { r.1.fox with rekey := r.1.fox.rekey ++ [i] })
      ((r.setFld FOX_REKEYQ_EMPTY 0).setFld FOX_REKEYQ_INDEX (r.1.fox.rekey.headD 0)).aplicEdge 147

/-- What the key slot's snapshot gives a cipher job at admission (R284, R285, R287, R350): its status where it ends at once, else its key,
invocation value and REKEY. -/
def Run.keyJudge (r : Run s0) (e : Nat) (x : Job) : Run s0 × Job :=
  let d := x.desc
  let i := descNat d 64 2
  let k := r.key (keyId 1 i)
  let op := dOp d
  if k.owner ≠ x.f then (r.logDenied (.phlox (some e)) (.phlox (Fin.ofNat 256 x.f)), { x with status := some 0x02 })
  else if !k.loaded then (r, { x with status := some 0x07 })
  else if k.type ≠ (if op = 0x20 ∨ op = 0x21 then 1 else 2) then (r, { x with status := some 0x10 })
  else
    let full := decide (descNat d 32 8 < descNat d 16 8)
    let held (x : Job) : Job := if full then { x with status := some 0x05 } else { x with key := some k }
    if op ≠ 0x20 then (r, held x)
    else
      let c := r.takeCounter (keyId 1 i)
      match c.2.1 with
      | none => (c.1, { x with status := some 0x15 })
      | some v =>
        let r := if c.2.2 then c.1.rekeyAsk i else c.1
        (r, held { x with ctr := v, aux := v, flags := if c.2.2 then 4 else 0 })

/-- The stream state block is read at admission (R262, R279, R280). -/
def Run.ssbRead (r : Run s0) (e : Nat) (x : Job) : Run s0 × Job :=
  let y := r.engGet x.f (descNat x.desc 72 8) (ssbLen x.desc)
  let x := { x with started := true }
  match y.2 with
  | none => (y.1, { x with status := some 0x11 })
  | some (bs, poison) =>
    if poison then (y.1.logPoison e x.f, { x with status := some 0x14 })
    else if y.1.ssbOk x.desc bs then (y.1, { x with ssb := bs }) else (y.1, { x with status := some 0x16 })

/-- JOB_ADMISSION (R260, R261, R298, R300): the queue's fetched descriptor takes a context, or is discarded where COMP is not aligned. One
that cannot be admitted yet, or whose turn it is not, waits. -/
def execJobAdmission (qi : Fin 1024) (s : State) : Host.Outcome State Fault Refusal :=
  let r := Run.start s
  match r.queueOf qi, r.fetched qi with
  | some (f, j), some d =>
    let e := r.fld (Q_CFG_ENG f j)
    let op := dOp d
    let fine := descOk d
    let free := (List.range 256).find? fun x => (r.job (e * 256 + x)).isNone
    if r.1.pins.fatal || !r.admissible e qi || !r.itsTurn e f j then r.done
    else if descNat d 40 8 % 64 ≠ 0 then ((r.setFetched qi none).setFld (Q_QSTAT_LOSTCOMP f j) 1).done
    else match free with
      | none => r.done
      | some c =>
        let r := (r.bufferPass 16 (84 + e) none).takeTurn e f j (dBytes d)
        let x : Job := { q := qi, f := f, j := j, desc := d, toll := dBytes d }
        let y : Run s × Job :=
          if !fine then (r, { x with status := some 0x10 })
          else if isCipher op then r.keyJudge e x
          else if isCodec op && !dFlag d 2 then (r.engine (.admission qi) e).ssbRead e x
          else (r, x)
        let r := (y.1.setFetched qi none).setJob (e * 256 + c) (some y.2)
        (((r.addSat (Q_QSTAT_INFLIGHT f j) 1).showEngine e).showFn f).done
  | _, _ => r.done

/-! ### Operations -/

/-- An operation runs on an admitted job of its opcode that has not ended (R303). -/
def Run.runJob (r : Run s0) (e : Fin 8) (c : Fin 256) (op : Nat) (f : Run s0 → Job → Run s0 × Job) : Run s0 :=
  let k := e.val * 256 + c.val
  match r.job k with
  | none => r
  | some x =>
    if dOp x.desc ≠ op ∨ x.status.isSome ∨ x.aborted ∨ x.staged.isSome ∨ r.1.pins.fatal then r
    else
      let y := f (r.engine (.job k) e) { x with started := op != 0x00 }
      let z := y.1.chargeJob e (y.1.fnBytes x.f - r.fnBytes x.f) y.2
      ((z.1.setJob k (some z.2)).showEngine e)

/-- The job ends with a status; only ST_OK keeps its counts. -/
def Job.ends (x : Job) (st : Nat) : Job := { x with status := some st, key := none, staged := none }

/-- NOP (R254). -/
def execNop (e : Fin 8) (x : Fin 256) (s : State) : Host.Outcome State Fault Refusal :=
  ((Run.start s).runJob e x 0x00 fun r j => (r, j.ends 0x00)).done

/-- The running value and check value of a descriptor's CRC over bytes (R270, R271). -/
def descCrc (d : BitVec 1024) (bs : List Byte) : Nat × Nat :=
  let w := dWidth d
  let fl := descNat d 89 1
  let run := bs.foldl (crcFeed w (descNat d 64 8) (natBit fl 0)) (descNat d 72 8)
  (run, crcOut w (natBit fl 0) (natBit fl 1) (natBit fl 2) run)

/-- A check value in its append byte order (R272). -/
def crcBytes (d : BitVec 1024) (v : Nat) : List Byte :=
  let n := (dWidth d + 7) / 8
  if natBit (descNat d 89 1) 1 then bytesLE n v else bytesBE n v

/-- COPY and CRC (R268, R270 to R272, R288): `copy` says whether the source is written. Of a destination that aliases the source, undefined in
R268, the source is written as it was before the job; and poison of the expected value's line alone sets POISONED and is logged (DESIGN
CHOICES, log entry 100). -/
def Run.copyCrc (r : Run s0) (e : Nat) (copy : Bool) (x : Job) : Run s0 × Job :=
  let d := x.desc
  let n := descNat d 16 8
  let mode := descNat d 2 1 % 4
  let w := (dWidth d + 7) / 8
  let outLen := (if copy then n else 0) + if mode = 2 then w else 0
  if descNat d 32 8 < outLen then (r, { x with started := false }.ends 0x05)
  else
    let more := if mode = 3 ∧ natBit (descNat d 2 1) 2 then w else 0
    let y := r.engRead x.f (descNat d 8 8) (n + more)
    match y.2 with
    | none => (y.1, x.ends 0x11)
    | some bs =>
      let src := bs.take n
      let data := src.map (·.1)
      let bad := bs.any (·.2)
      let r := if bad then y.1.logPoison e x.f else y.1
      if bad && !copy then (r.moveBytes e x.f (n + more), x.ends 0x14)
      else
        let c := descCrc d data
        let out := (if copy then src else []) ++ if mode = 2 then (crcBytes d c.2).map fun b => (b, false) else []
        let z := r.engWrite x.f (descNat d 24 8) out (dStash d)
        let r := z.1.moveBytes e x.f (n + more + out.length)
        if !z.2 then (r, x.ends 0x11)
        else
          let want := if more = 0 then descNat d 80 8 else natLE ((bs.drop n).map (·.1))
          let got := if more = 0 then c.2 else natLE (crcBytes d c.2)
          let x := { x with aux := c.1, check := c.2, flags := if bad then 1 else 0 }
          if mode = 3 ∧ want ≠ got then (r, x.ends 0x06)
          else (r, { x with inDone := n, outDone := out.length }.ends 0x00)

/-- COPY (R268). -/
def execCopy (e : Fin 8) (x : Fin 256) (s : State) : Host.Outcome State Fault Refusal :=
  ((Run.start s).runJob e x 0x01 fun r j => r.copyCrc e true j).done

/-- CRC (R270). -/
def execCrc (e : Fin 8) (x : Fin 256) (s : State) : Host.Outcome State Fault Refusal :=
  ((Run.start s).runJob e x 0x03 fun r j => r.copyCrc e false j).done

/-- FILL (R269): byte i of the output is byte (DST + i) mod 8 of PATTERN. -/
def execFill (e : Fin 8) (x : Fin 256) (s : State) : Host.Outcome State Fault Refusal :=
  ((Run.start s).runJob e x 0x02 fun r j =>
    let d := j.desc
    let n := descNat d 32 8
    let a := descNat d 24 8
    let pat := bytesLE 8 (descNat d 64 8)
    let z := r.engPut j.f a ((List.range n).map fun i => pat.getD ((a + i) % 8) 0) (dStash d)
    let r := z.1.moveBytes e j.f n
    if z.2 then (r, { j with outDone := n }.ends 0x00) else (r, j.ends 0x11)).done

/-- The stream state block after a job (R278): `held` for a compressor, `hist` the bytes that enter the history. -/
def Run.ssbAfter (r : Run s0) (x : Job) (used out held check : Nat) (hist engine : List Byte) : List Byte :=
  let d := x.desc
  let old (lo n : Nat) : Nat := if dFlag d 2 then 0 else natLE ((x.ssb.drop lo).take n)
  let cap := 2 ^ descNat d 66 1
  let ring0 := if dFlag d 2 then List.replicate cap (0 : Byte) else (x.ssb.drop 4096).take cap
  let pos := old 36 4 % cap
  let ring := (hist.zipIdx.foldl (fun ring b => ring.set ((pos + b.2) % cap) b.1) ring0)
  let eng := ((engine ++ List.replicate 4032 0).take 4032)
  bytesLE 2 1 ++ bytesLE 1 (descNat d 64 1) ++ bytesLE 1 (if dOp d = 0x11 then 1 else 0) ++ bytesLE 1 (descNat d 66 1) ++ bytesLE 1 (descNat d 65 1)
    ++ bytesLE 2 0 ++ bytesLE 8 (old 8 8 + used) ++ bytesLE 8 (old 16 8 + out) ++ bytesLE 8 check ++ bytesLE 4 (min cap (old 32 4 + hist.length))
    ++ bytesLE 4 ((pos + hist.length) % cap) ++ bytesLE 4 ((r.reg ID_BASELINE).toNat) ++ bytesLE 4 held ++ bytesLE 16 0 ++ eng ++ ring

/-- COMPRESS and DECOMPRESS (R273 to R283): the stream state block that the job will write before its record stays with the job.
After another status than ST_OK the bytes of DST, undefined in R267, are what they were, or written up to the fault (DESIGN CHOICE, log entry
100). -/
def Run.codec (r : Run s0) (e : Nat) (x : Job) : Run s0 × Job :=
  let d := x.desc
  let n := descNat d 16 8
  let fmt := descNat d 64 1
  let wl := descNat d 66 1
  let sos := dFlag d 2
  let eos := dFlag d 3
  let y := r.engGet x.f (descNat d 8 8) n
  match y.2 with
  | none => (y.1, x.ends 0x11)
  | some (bs, bad) =>
    if bad then ((y.1.logPoison e x.f).moveBytes e x.f n, x.ends 0x14)
    else
      let r := y.1
      let st := if sos then none else some x.ssb
      let res : Decoded × Nat × List Byte :=
        if dOp d = 0x10 then
          let c := compress fmt (descNat d 65 1) wl st eos bs
          ({ status := 0, out := c.1, used := n, state := c.2.2 }, c.2.1, bs)
        else
          let z := decompress fmt wl st eos bs
          (z, 0, z.out)
      let z := res.1
      if z.status ≠ 0 then (r.moveBytes e x.f n, x.ends z.status)
      else if descNat d 32 8 < z.out.length then
        let p := r.fresh
        (p.1.moveBytes e x.f n, { x with aux := p.2.toNat % (n + 1) }.ends 0x05)
      else
        let w := r.engPut x.f (descNat d 24 8) z.out (dStash d)
        let r := w.1.moveBytes e x.f (z.used + z.out.length)
        if !w.2 then (r, x.ends 0x11)
        else
          let check := formatCheck fmt st res.2.2
          let ssb := if eos then [] else r.ssbAfter x z.used z.out.length (if eos then 0 else res.2.1) check res.2.2 z.state
          (r, { x with ssb := ssb, check := check, inDone := z.used, outDone := z.out.length, flags := if dOp d = 0x11 ∧ z.ended then 2 else 0 }.ends 0x00)

/-- COMPRESS (R275). -/
def execCompress (e : Fin 8) (x : Fin 256) (s : State) : Host.Outcome State Fault Refusal :=
  ((Run.start s).runJob e x 0x10 fun r j => r.codec e j).done

/-- DECOMPRESS (R277). -/
def execDecompress (e : Fin 8) (x : Fin 256) (s : State) : Host.Outcome State Fault Refusal :=
  ((Run.start s).runJob e x 0x11 fun r j => r.codec e j).done

/-- The key of a slot as bytes. -/
def KeySlot.bytes (k : KeySlot) (n : Nat) : List Byte := bytesLE n k.key.toNat

/-- A cipher job forms its whole output in its staging buffer (R284 to R286). -/
def Run.cipher (r : Run s0) (e : Nat) (x : Job) : Run s0 × Job :=
  let d := x.desc
  let n := descNat d 16 8
  match x.key with
  | none => (r, x)
  | some k =>
    let op := dOp d
    let gcm := op = 0x20 ∨ op = 0x21
    let aadLen := if gcm then descNat d 80 4 else 0
    let a := r.engGet x.f (descNat d 72 8) aadLen
    match a.2 with
    | none => (a.1, x.ends 0x11)
    | some (aad, badA) =>
      let y := a.1.engGet x.f (descNat d 8 8) n
      match y.2 with
      | none => (y.1, x.ends 0x11)
      | some (src, badS) =>
        let r := y.1.moveBytes e x.f (n + aadLen)
        if badA || badS then (r.logPoison e x.f, x.ends 0x14)
        else if op = 0x20 then
          let iv := bytesLE 4 (descNat d 68 4) ++ bytesBE 8 x.ctr
          let ct := gcmCtr (k.bytes 32) iv 2 src
          (r, { x with staged := some ct, gtag := natLE (gcmTag (k.bytes 32) iv aad ct) })
        else if op = 0x21 then
          let iv := bytesLE 12 (descNat d 88 12)
          if natLE (gcmTag (k.bytes 32) iv aad src) = descNat d 104 16 then (r, { x with staged := some (gcmCtr (k.bytes 32) iv 2 src) })
          else (r, x.ends 0x06)
        else
          let du := 2 ^ descNat d 66 1
          let out := (List.range (n / du)).map fun i =>
            xtsUnit (op = 0x22) (k.bytes 64) ((descNat d 88 16 + i) % 2 ^ 128) ((src.drop (i * du)).take du)
          (r, { x with staged := some out.flatten })

/-- GCM_ENC (R285). -/
def execGcmEnc (e : Fin 8) (x : Fin 256) (s : State) : Host.Outcome State Fault Refusal :=
  ((Run.start s).runJob e x 0x20 fun r j => r.cipher e j).done

/-- GCM_DEC (R286). -/
def execGcmDec (e : Fin 8) (x : Fin 256) (s : State) : Host.Outcome State Fault Refusal :=
  ((Run.start s).runJob e x 0x21 fun r j => r.cipher e j).done

/-- XTS_ENC (R284). -/
def execXtsEnc (e : Fin 8) (x : Fin 256) (s : State) : Host.Outcome State Fault Refusal :=
  ((Run.start s).runJob e x 0x22 fun r j => r.cipher e j).done

/-- XTS_DEC (R284). -/
def execXtsDec (e : Fin 8) (x : Fin 256) (s : State) : Host.Outcome State Fault Refusal :=
  ((Run.start s).runJob e x 0x23 fun r j => r.cipher e j).done

/-- CIPHER_RELEASE_START (R286, R287): the staged output goes to DST; an erase from now on does not reach the job. -/
def execCipherReleaseStart (e : Fin 8) (x : Fin 256) (s : State) : Host.Outcome State Fault Refusal :=
  let r := Run.start s
  let k := e.val * 256 + x.val
  match r.job k with
  | none => r.done
  | some j =>
    match j.staged with
    | none => r.done
    | some out =>
      if j.aborted || j.status.isSome || r.1.pins.fatal then r.done
      else
        let z := (r.engine (.job k) e).engPut j.f (descNat j.desc 24 8) out (dStash j.desc)
        let r := z.1.moveBytes e j.f out.length
        let j := { j with released := true }
        let j := if z.2 then { j with inDone := descNat j.desc 16 8, outDone := out.length }.ends 0x00 else { j with gtag := 0 }.ends 0x11
        let z := r.chargeJob e out.length j
        ((z.1.setJob k (some z.2)).showEngine e).done

/-! ### Completion -/

/-- The completion record (R264). -/
def jobRecord (e : Nat) (x : Job) (st : Nat) : List Byte :=
  let ok := st = 0
  let gcm := dOp x.desc = 0x20
  let aux := if ok ∨ (st = 0x06 ∧ !isCodec (dOp x.desc)) ∨ (st = 0x05 ∧ isCodec (dOp x.desc)) ∨ gcm then x.aux else 0
  bytesLE 1 st ++ [1] ++ bytesLE 1 e ++ bytesLE 1 (if ok ∨ dOp x.desc = 0x01 ∨ gcm then x.flags else 0) ++ bytesLE 4 0 ++ bytesLE 8 (descNat x.desc 48 8)
    ++ bytesLE 8 (if ok then x.inDone else 0) ++ bytesLE 8 (if ok then x.outDone else 0) ++ bytesLE 8 aux
    ++ bytesLE 8 (if ok ∨ st = 0x06 then x.check else 0) ++ bytesLE 16 (if ok then x.gtag else 0)

/-- The MSI of an entry of a function's MSI-X table (R265, R292): sent under the function's requester ID, or pending while masked. -/
def Run.jobMsi (r : Run s0) (f v : Nat) : Run s0 :=
  if 64 ≤ v then r
  else
    let k := f * 512 + v * 2
    if !natBit (r.msixWord (k + 1)).toNat 32 then r.modMsixWord (f * 512 + 256) fun w => w ||| (1#64 <<< v)
    else (r.engPut f ((r.msixWord k).toNat / 4 * 4) (bytesLE 4 (r.msixWord (k + 1)).toNat)).1

/-- A job's context is freed. -/
def Run.freeJob (r : Run s0) (k : Nat) (x : Job) : Run s0 :=
  let r := (r.setJob k none).dropOps fun o => o.key == .job k || o.key == .ending k
  let i := r.fld (Q_QSTAT_INFLIGHT x.f x.j)
  let e := k / 256
  let r := r.setLeadOf (e * 257 + x.f) (r.leadOf (e * 257 + x.f) - r.leadFor x.f x.toll)
  ((r.setFld (Q_QSTAT_INFLIGHT x.f x.j) (i - 1)).showEngine (k / 256)).showFn x.f

/-- A job that has ended writes its completion record with one full-line write, and is gone (R264, R265): whether the record was
written. -/
def Run.complete (r : Run s0) (k : Nat) (x : Job) (st : Nat) : Run s0 × Bool :=
  let e := k / 256
  let z := r.engPut x.f (descNat x.desc 40 8) (jobRecord e x st)
  let r := if z.2 then z.1 else z.1.setFld (Q_QSTAT_LOSTCOMP x.f x.j) 1
  ((r.addWrap (ENG_STAT_JOBS e) 1).freeJob k x, z.2)

/-- JOB_COMPLETION (R264, R265, R278): the stream state block, the record, then the MSI. -/
def execJobCompletion (e : Fin 8) (x : Fin 256) (s : State) : Host.Outcome State Fault Refusal :=
  let r := Run.start s
  let k := e.val * 256 + x.val
  match r.job k with
  | none => r.done
  | some j =>
    match j.status with
    | none => r.done
    | some st =>
      if j.aborted || r.1.pins.fatal then r.done
      else
        let r := r.engine (.ending k) e
        let w := if st = 0 ∧ isCodec (dOp j.desc) ∧ !dFlag j.desc 3 then r.engPut j.f (descNat j.desc 72 8) j.ssb else (r, true)
        let st := if w.2 then st else 0x11
        let c := w.1.complete k j st
        let ask := dFlag j.desc 0 || (st == 0x06 && (dOp j.desc == 0x01 || dOp j.desc == 0x03))
        (if c.2 && ask then c.1.jobMsi j.f (descNat j.desc 4 2) else c.1).done

/-- PHLOX_CAP_WINDOW_END (R299): the counts of bytes moved start again. -/
def execPhloxCapWindowEnd (s : State) : Host.Outcome State Fault Refusal :=
  let r := Run.start s
  (r.1.moved.foldl (fun r p => r.setMoved p.1 0) r).done

/-! ### Sharing -/

/-- A write of QBIND or SHARE is rejected with a cause (R293). -/
def Run.mgrReject (r : Run s0) (cause : Nat) : Run s0 := (r.setFld PHLOX_MGRSTAT_CFG_REJECT 1).setFld PHLOX_MGRSTAT_CAUSE cause

/-- A write is refused (R293). -/
def Run.mgrDeny (r : Run s0) (q : Requester) : Run s0 := (r.setFld PHLOX_MGRSTAT_DENIED 1).logDenied (.phlox none) q

/-- The registers of a slot take their reset values, bound to engine `e` or unbound (R294, R295). -/
def Run.resetSlot (r : Run s0) (f j : Nat) (e : Option Nat) : Run s0 :=
  let r := ((r.setReg (Q_BASE f j) 0).setReg (Q_TAIL f j) 0).setReg (Q_QSTAT f j) 0
  let r := r.setReg (Q_CFG f j) (Q_CFG f j).rst
  match e with
  | some e => (r.setFld (Q_CFG_BOUND f j) 1).setFld (Q_CFG_ENG f j) e
  | none => r

/-- Why a binding of function f and slot j to engine e in entry qi is rejected, if it is (R294); of several causes 1 comes before 2, 6 and 4 (DESIGN
CHOICE, log entry 56). -/
def Run.bindCause (r : Run s0) (qi f j e : Nat) : Option Nat :=
  if (List.range 1024).any fun q => q != qi && r.queueOf q == some (f, j) then some 1
  else if !r.fnExists f then some 2
  else if r.on (FN_RESET_BUSY f) then some 6
  else if 256 < r.reserved e f none true then some 4
  else none

/-- A queue is unbound: its slot is reset and what it had fetched is not run (R295). -/
def Run.unbind (r : Run s0) (qi f j : Nat) : Run s0 :=
  let r := ((r.resetSlot f j none).setFetched qi none).setFld (PHLOX_QBIND_VALID qi) 0
  (r.setFld (PHLOX_QBIND_MOVING qi) 0).showFn f

/-- A write leaves `new` in QBIND[qi] (R293 to R296). No queue is bound before the configuration lock is set (R401): such a write is rejected, with
no cause of its own (DESIGN CHOICE, log entry 56). -/
def Run.wQbind (r : Run s0) (q : Requester) (qi : Nat) (new : Word) : Run s0 :=
  let old := r.queueOf qi
  let v := new.getLsbD 63
  let f := Word.bits new 7 0
  let j := Word.bits new 12 8
  let e := Word.bits new 18 16
  let names : Bool := (old.any fun p => r.fnSecure p.1) || (v && r.fnSecure f)
  let put (r : Run s0) : Run s0 := r.setReg (PHLOX_QBIND qi) (Word.setBits new 62 62 0)
  let bind (r : Run s0) : Run s0 := ((((put r).resetSlot f j (some e)).setFetched qi none).showFn f).wakeDom (domEngine e)
  if names && r.normal q then r.mgrDeny q
  else if v && !r.locked && (old.isNone || old != some (f, j)) then r.setFld PHLOX_MGRSTAT_CFG_REJECT 1
  else match old with
    | none =>
      if !v then put r
      else match r.bindCause qi f j e with
        | some c => r.mgrReject c
        | none => bind r
    | some (f0, j0) =>
      if !v ∨ f ≠ f0 ∨ j ≠ j0 then
        if r.on (FN_RESET_BUSY f0) then r.mgrReject 6
        else if !r.queueIdle f0 j0 then r.mgrReject 3
        else if !v then put (r.unbind qi f0 j0)
        else match (r.unbind qi f0 j0).bindCause qi f j e with
          | some c => r.mgrReject c
          | none => bind (r.unbind qi f0 j0)
      else if e = r.fld (PHLOX_QBIND_ENG qi) then r
      else if r.on (FN_RESET_BUSY f) then r.mgrReject 6
      else if e ≠ r.fld (Q_CFG_ENG f j) ∧ 256 < r.reserved e f none true then r.mgrReject 4
      else
        let r := (r.setFld (PHLOX_QBIND_ENG qi) e).setFld (PHLOX_QBIND_MOVING qi) (if e = r.fld (Q_CFG_ENG f j) then 0 else 1)
        r.wakeDom (domEngine e)

/-- QUEUE_MOVE_DONE (R296 step 3). A descriptor fetched before the move is still admitted on the old engine, and the move waits for it (DESIGN
CHOICE, log entry 56). -/
def execQueueMoveDone (qi : Fin 1024) (s : State) : Host.Outcome State Fault Refusal :=
  let r := Run.start s
  match r.queueOf qi with
  | none => r.done
  | some (f, j) =>
    if !r.on (PHLOX_QBIND_MOVING qi) || r.on (Q_QSTAT_INFLIGHT f j) || (r.fetched qi).isSome then r.done
    else ((r.setFld (PHLOX_QBIND_MOVING qi) 0).setFld (Q_CFG_ENG f j) (r.fld (PHLOX_QBIND_ENG qi))).done

/-- A write leaves `new` in SHARE of a function (R293, R297). -/
def Run.wShare (r : Run s0) (q : Requester) (f : Nat) (new : Word) : Run s0 :=
  let lo := Word.bits new 8 0
  let hi := Word.bits new 24 16
  if r.fnSecure f && r.normal q then r.mgrDeny q
  else if Word.bits new 47 40 = 0 ∨ 16 < Word.bits new 36 32 ∨ 256 < hi then r.mgrReject 7
  else if hi < lo then r.mgrReject 5
  else if (List.range 8).any fun e => r.fnOn f e && decide (256 < r.reserved e f (some lo) false) then r.mgrReject 4
  else r.setReg (FN_SHARE f) new

/-! ### Function reset -/

/-- Step 1 to 3 of a reset of a function (R303): nothing more is fetched or admitted, jobs not started are gone, started ones stop. -/
def Run.fnResetStart (r : Run s0) (f : Nat) : Run s0 :=
  if r.on (FN_RESET_BUSY f) then r
  else
    let r := r.setFld (FN_RESET_BUSY f) 1
    let r := (List.range 32).foldl (fun r j => r.setFld (Q_CFG_EN f j) 0) r
    let r := r.1.fetched.foldl (fun r p => if (r.queueOf p.1).any fun x => x.1 == f then r.setFetched p.1 none else r) r
    r.1.jobs.foldl (fun r p =>
      if p.2.f ≠ f then r
      else if p.2.started then r.setJob p.1 (some { p.2 with aborted := true })
      else r.freeJob p.1 p.2) r

/-- The functions that a reset of f resets (R306). -/
def Run.resetSet (r : Run s0) (f : Nat) : List Nat :=
  if f = 0 then 0 :: (List.range 256).filter fun g => g != 0 && r.fnExists g && !r.fnSecure g else [f]

/-- A reset of a function is asked for (R293, R303, R305): GO or a Function Level Reset. -/
def Run.fnReset (r : Run s0) (q : Requester) (f : Nat) : Run s0 :=
  if r.fnSecure f && r.normal q then (r.setFld (FN_RESET_ST f) stDenied).mgrDeny q
  else if r.on (FN_RESET_BUSY f) then r
  else (r.resetSet f).foldl (fun r g => r.fnResetStart g) r

/-- A write of RESET of a function (R293): of a secure-world function by the normal world it is refused whatever its value. -/
def Run.wFnReset (r : Run s0) (q : Requester) (f : Nat) (v : Word) : Run s0 :=
  if v.getLsbD 63 then r.fnReset q f else if r.fnSecure f && r.normal q then r.mgrDeny q else r

/-- FUNCTION_RESET (R303): FN.RESET.GO, or a Function Level Reset in the function's Device Control register. -/
def execFunctionReset (q : Requester) (f : Fin 256) (flr : Bool) (s : State) : Host.Outcome State Fault Refusal :=
  let r := Run.start s
  (if flr && !r.fnExists f then r else r.fnReset q f).done

/-- Steps 4 to 7 of a reset of a function (R303): started jobs write their records, and what the function has takes its reset values.
With the physical function a normal-world function loses its bindings and its share (R306). -/
def Run.fnResetEnd (r : Run s0) (f : Nat) (whole : Bool) : Run s0 :=
  let r := r.1.jobs.foldl (fun r p =>
    if p.2.f ≠ f then r else ((r.engine (.ending p.1) (p.1 / 256)).complete p.1 p.2 (if p.2.erased then 0x07 else stAborted)).1) r
  let r := (List.range 32).foldl (fun r j =>
    let b := r.on (Q_CFG_BOUND f j)
    r.resetSlot f j (if b then some (r.fld (Q_CFG_ENG f j)) else none)) r
  let r := r.1.msix.foldl (fun r p => if p.1 / 512 = f then r.setMsixWord p.1 0 else r) r
  let r := if !whole then r else
    let r := (List.range 1024).foldl (fun r q => match r.queueOf q with
      | some (g, j) => if g = f ∧ !r.fnSecure f then r.unbind q g j else r
      | none => r) r
    if r.fnSecure f then r else r.setReg (FN_SHARE f) (FN_SHARE f).rst
  ((r.setFld (FN_RESET_BUSY f) 0).setFld (FN_RESET_ST f) stOk).showFn f

/-- FUNCTION_RESET_DONE (R303 steps 4 to 7, R306): with function 0 every reset that began with its own ends first. -/
def execFunctionResetDone (f : Fin 256) (s : State) : Host.Outcome State Fault Refusal :=
  let r := Run.start s
  if !r.on (FN_RESET_BUSY f) || r.1.pins.fatal then r.done
  else if f = 0 then
    ((((r.resetSet 0).drop 1).foldl (fun r g => if r.on (FN_RESET_BUSY g) then r.fnResetEnd g true else r) r).fnResetEnd 0 true).done
  else (r.fnResetEnd f (r.on (FN_RESET_BUSY 0) && !r.fnSecure f)).done

end Sys2Proof.Machine
end

