-- ==== Sys2Proof/Machine/Cache.lean ====
section
/-! DEFINITION. Partitions, way locks, and the disabling of caches (R147 to R157): what a write of these registers does, and the
ends of the sweeps. -/
namespace Sys2Proof.Machine

variable {s0 : State}

/-- Every partition keeps a way that is in its WAYS and unlocked (R149). `ways` gives WAYS of each partition. -/
def wayRule (ways : Nat → Nat) (lock : Nat) : Bool :=
  (List.range 16).all fun p => (List.range 16).any fun w => natBit (ways p) w && !natBit lock w

/-- A change of LOCK or OWNER of a way touches a frozen partition (R149). -/
def Run.frozenWay (r : Run s0) (d w : Nat) (lock owner lock' owner' : Nat) : Bool :=
  let frozen (p : Nat) := r.on (L3_PARTWAYS_FROZEN d p)
  let own (o : Nat) := natBits o (4 * w + 3) (4 * w)
  let changes := natBit lock w != natBit lock' w || own owner != own owner'
  changes && ((List.range 16).any (fun p => frozen p && natBit (r.fld (L3_PARTWAYS_WAYS d p)) w)
    || (natBit lock w && frozen (own owner)) || (natBit lock' w && frozen (own owner')))

/-- A write of PARTWAYS[p] (R148, R149). -/
def Run.wPartways (r : Run s0) (d p : Nat) (new : Word) : Run s0 :=
  let g := L3_PARTWAYS d p
  let ways' := Word.bits new 15 0
  let breaksFreeze := r.on (L3_PARTWAYS_FROZEN d p) && ways' != r.fld (L3_PARTWAYS_WAYS d p)
  let breaksWay := !wayRule (fun q => if q = p then ways' else r.fld (L3_PARTWAYS_WAYS d q)) (r.fld (L3_WAYLOCK_LOCK d))
  let r := if breaksWay then r.setFld (L3_STATUS_CFG_REJECT d) 1 else r
  let r := if breaksFreeze then r.setFld (L3_STATUS_FROZEN_WR d) 1 else r
  if breaksWay || breaksFreeze then r else r.setReg g new

/-- A write of WAYLOCK or WAYOWNER that gives these values (R149, R151): both rules, then the sweep of the ways that are locked
anew or change their owner. -/
def Run.wLock (r : Run s0) (d : Nat) (lock' owner' : Nat) : Run s0 :=
  let lock := r.fld (L3_WAYLOCK_LOCK d)
  let owner := (r.reg (L3_WAYOWNER d)).toNat
  let breaksWay := !wayRule (fun q => r.fld (L3_PARTWAYS_WAYS d q)) lock'
  let breaksFreeze := (List.range 16).any fun w => r.frozenWay d w lock owner lock' owner'
  let r := if breaksWay then r.setFld (L3_STATUS_CFG_REJECT d) 1 else r
  let r := if breaksFreeze then r.setFld (L3_STATUS_FROZEN_WR d) 1 else r
  if breaksWay || breaksFreeze then r
  else
    let own (o w : Nat) := natBits o (4 * w + 3) (4 * w)
    let sweeps := (List.range 16).any fun w => natBit lock' w && (!natBit lock w || own owner w != own owner' w)
    let r := (r.setFld (L3_WAYLOCK_LOCK d) lock').setReg (L3_WAYOWNER d) (BitVec.ofNat 64 owner')
    if sweeps then r.setFld (L3_STATUS_SWEEP d) 1 else r

/-- The die, quadrant and way of an L3 slot's key. -/
def l3Place (k : Nat) : Nat × Nat × Nat := (k / 16 / 8192 / 4, k / 16 / 8192 % 4, k % 16)

/-- Sweep the L3 slots of a die that a predicate of quadrant, way and slot names: each line leaves, a dirty one through the
victim buffer. One stays while a request for it is in flight, while the victim buffer has no room (R134), or while a tile delays its
recall (R186); the answer says whether all have left. -/
def Run.sweepL3 (r : Run s0) (d : Nat) (f : Nat → Nat → L3Slot → Bool) : Run s0 × Bool :=
  (r.1.l3.filter fun e => (l3Place e.1).1 == d && f (l3Place e.1).2.1 (l3Place e.1).2.2 e.2).foldl (fun (p : Run s0 × Bool) e =>
    match p.1.l3Slot e.1 with
    | none => p
    | some s =>
      let v := (p.1.quad (d * 4 + quadOf s.line)).vict
      if p.1.slotBusy d s.line (l3Place e.1).2.2 || decide (32 ≤ v.length) || v.any (·.line = s.line) || p.1.recallWaits d s then (p.1, false)
      else ((p.1.l3Evict d (l3Place e.1).2.2 s).1, p.2)) (r, true)

/-- A fill of another partition than its owner's is on its way to a locked way. -/
def Run.fillsLocked (r : Run s0) (d : Nat) : Bool :=
  (List.range 4).any fun q => (r.quad (d * 4 + q)).miss.any fun m =>
    m.placed && m.alloc && natBit (r.fld (L3_WAYLOCK_LOCK d)) m.way && m.part != r.wayOwner d m.way

/-- LOCK_SWEEP_DONE (R151): the lines in locked ways whose partition is not the owner's have been cleaned and invalidated, those that were
on their way there among them. -/
def execLockSweepDone (d : Fin 16) (s : State) : Host.Outcome State Fault Refusal :=
  let r := Run.start s
  if !r.on (L3_STATUS_SWEEP d) then r.done
  else
    let lock := r.fld (L3_WAYLOCK_LOCK d)
    let p := r.sweepL3 d fun _ w x => natBit lock w && x.part != r.wayOwner d w
    if p.2 && !r.fillsLocked d then ((p.1.setFld (L3_STATUS_SWEEP d) 0).go ((List.range 4).map fun q => Todo.retry (d * 4 + q))).done else p.1.done

/-- A write of L2CTL.CTL (R154): a disable begins with its sweep, an enable is at once. -/
def Run.wL2ctl (r : Run s0) (n : Nat) (new : Word) : Run s0 :=
  let was := r.on (L2CTL_CTL_DISABLE n)
  let r := r.setReg (L2CTL_CTL n) new
  let now := r.on (L2CTL_CTL_DISABLE n)
  if now && !was then r.setFld (L2CTL_STATUS_CACHE_DISABLE_PENDING n) 1
  else if was && !now then r.setFld (L2CTL_STATUS_DISABLED n) 0
  else r

/-- An L3 quadrant is asked to wake (R425), and the snoop-filter quarter of its lines with it. -/
def Run.wakeQuad (r : Run s0) (d q : Nat) : Run s0 := (r.wakeDom (domQuad d q)).wakeDom (400 + q)

/-- A write of L3.CTL (R154): a disable begins with its sweep, an enable is at once and wakes the quadrant (R425, R444). -/
def Run.wL3ctl (r : Run s0) (d : Nat) (new : Word) : Run s0 :=
  let was := r.fld (L3_CTL_QDISABLE d)
  let r := r.setReg (L3_CTL d) new
  let now := r.fld (L3_CTL_QDISABLE d)
  (List.range 4).foldl (fun r q =>
    if natBit now q && !natBit was q then r.setBit (L3_STATUS_CACHE_DISABLE_PENDING d) q true
    else if natBit was q && !natBit now q then
      ((r.setBit (L3_STATUS_DISABLED d) q false).setFld (DOM_STAT_HOLD (domQuad d q)) 0).wakeQuad d q
    else r) r

/-- Every line of a tile's L2 goes to its L3 or is dropped clean, with its L1 copies (R85, R155). -/
def Run.sweepL2 (r : Run s0) (n : Nat) : Run s0 :=
  r.1.l2.foldl (fun r e =>
    if e.1 / 8 / 2048 = n then match r.l2Slot e.1 with
      | some s => (r.l2Evict n (e.1 % 8) s).flushEv n s.line
      | none => r
    else r) r

/-- L2_DISABLE_DONE (R154, R155): the sweep ends while no request of the tile is out. -/
def execL2DisableDone (n : Fin 256) (s : State) : Host.Outcome State Fault Refusal :=
  let r := Run.start s
  if !r.on (L2CTL_STATUS_CACHE_DISABLE_PENDING n) || !(r.tile n).miss.isEmpty then r.done
  else (((r.sweepL2 n).setFld (L2CTL_STATUS_CACHE_DISABLE_PENDING n) 0).setFld (L2CTL_STATUS_DISABLED n) 1).done

/-- L3_QUADRANT_DISABLE_DONE (R154, R155). -/
def execL3QuadrantDisableDone (d : Fin 16) (k : Fin 4) (s : State) : Host.Outcome State Fault Refusal :=
  let r := Run.start s
  if !r.bit (L3_STATUS_CACHE_DISABLE_PENDING d) k then r.done
  else
    let p := r.sweepL3 d fun q _ _ => q == k.val
    if p.2 then ((p.1.setBit (L3_STATUS_CACHE_DISABLE_PENDING d) k false).setBit (L3_STATUS_DISABLED d) k true).done else p.1.done

end Sys2Proof.Machine
end

