-- ==== Sys2Proof/Machine/Link.lean ====
section
/-! DEFINITION. What travels between dies and stops: check codes, the coding of words on a lane, link flits, and the way of a packet through
the Beck mesh (R192, R195, R200, R204, R209, R210). -/
namespace Sys2Proof.Machine

/-! ### Check codes -/

/-- One step of a CRC register over a bit of input (R204). -/
def crcBit (poly c : Nat) (b : Bool) : Nat :=
  let x := (c % 2 == 1) != b
  if poly = 0 then (c / 2) ^^^ (if x then 0x82F63B78 else 0)
  else if poly = 1 then (c / 2) ^^^ (if x then 0xEDB88320 else 0)
  else
    let y := natBit c 23 != b
    (c * 2 % 2 ^ 24) ^^^ (if y then 0x864CFB else 0)

/-- One byte is fed into the running CRC register (R208): least significant bit first where the polynomial is reflected. -/
def crcByte (poly c byte : Nat) : Nat :=
  (List.range 8).foldl (fun c i => crcBit poly c (natBit byte (if poly = 2 then 7 - i else i))) c

/-- The CRC-32C of bytes (R204). -/
def crc32c (bytes : List Nat) : Nat := bytes.foldl (crcByte 0) 0xFFFFFFFF ^^^ 0xFFFFFFFF

/-! ### Words and flits -/

/-- A lane's word as the transitions of its 64 data wires, four to each of its sixteen groups (R192). Every group has shown one. -/
def wordWhole (t : BitVec 64) : Bool := (List.range 16).all fun g => natBits t.toNat (4 * g + 3) (4 * g) != 0

/-- A group has shown transitions on two of its wires: a code violation (R194). -/
def wordBroken (t : BitVec 64) : Bool :=
  (List.range 16).any fun g => decide (natBits t.toNat (4 * g + 3) (4 * g) ∉ [0, 1, 2, 4, 8])

/-- The value of a group by its lowest wire that moved (DESIGN CHOICE, log entry 94: wire i signals i; the spec gives the word of a code
violation no value). -/
def groupValue (g : Nat) : Nat := if natBit g 0 then 0 else if natBit g 1 then 1 else if natBit g 2 then 2 else 3

/-- The 32 bits of a word, group i in bits 2i + 1 and 2i (DESIGN CHOICE, log entry 94). -/
def wordValue (t : BitVec 64) : Nat :=
  (List.range 16).foldl (fun a g => a + groupValue (natBits t.toNat (4 * g + 3) (4 * g)) * 4 ^ g) 0

/-- A flit (R195): payload, link header and link CRC. -/
structure Flit where
  payload : BitVec 512
  head : BitVec 32
  crc : BitVec 32
deriving DecidableEq, Repr

/-- The flit that eighteen words carry: payload, header, CRC, the least significant word first (DESIGN CHOICE, log entry 94). -/
def flitOf (ws : List (BitVec 64)) : Flit :=
  let v := ws.zipIdx.foldl (fun a w => a + wordValue w.1 * 2 ^ (32 * w.2)) 0
  { payload := BitVec.ofNat 512 v, head := BitVec.ofNat 32 (v / 2 ^ 512), crc := BitVec.ofNat 32 (v / 2 ^ 544) }

/-- The message class of a flit. The fields of the header stand in the order of R195 from bit 0 (DESIGN CHOICE, log entry 94). -/
def Flit.cls (f : Flit) : BitVec 3 := f.head.extractLsb' 0 3

/-- Its link sequence number. -/
def Flit.seq (f : Flit) : BitVec 12 := f.head.extractLsb' 3 12

/-- The flit of the other direction that it acknowledges, with every one before it. -/
def Flit.ack (f : Flit) : BitVec 12 := f.head.extractLsb' 15 12

/-- It acknowledges. -/
def Flit.ackValid (f : Flit) : Bool := f.head.getLsbD 27

/-- Its CRC-32C is right: over the header and then the payload (R195). -/
def Flit.intact (f : Flit) : Bool :=
  crc32c ((List.range 4).map (fun i => natBits f.head.toNat (8 * i + 7) (8 * i)) ++ (List.range 64).map fun i => natBits f.payload.toNat (8 * i + 7) (8 * i))
    == f.crc.toNat

/-! ### The Beck mesh -/

/-- The router of a compute die that a stop uses (R209), for a packet whose other end is at column `x`. -/
def routerOf (stop x : Nat) : Nat :=
  match stop with
  | 16 => 5
  | 17 => 6
  | 18 => 9
  | 19 => 10
  | 20 => if x < 2 then 1 else 2
  | 21 => 0
  | t => t

/-- The routers that a packet passes from one router to another: along the row, then along the column (R210). -/
def meshPath (a b : Nat) : List Nat :=
  let way (i j : Nat) : List Nat := if i ≤ j then (List.range (j - i + 1)).map (i + ·) else (List.range (i - j + 1)).map (i - ·)
  (way (a % 4) (b % 4)).map (a / 4 * 4 + ·) ++ ((way (a / 4) (b / 4)).drop 1).map (· * 4 + b % 4)

/-- The routers between two stops of a compute die. -/
def meshRoute (src dst : Nat) : List Nat :=
  meshPath (routerOf src (routerOf dst 0 % 4)) (routerOf dst (routerOf src 0 % 4))

end Sys2Proof.Machine
end

