-- ==== Sys2Proof/Machine/Rill.lean ====
section
/-! DEFINITION. Rill links, end-to-end check units, tile and die resets, and rejoin (R191 to R221, R469, R470). -/
namespace Sys2Proof.Machine

variable {s0 : State}

/-- One direction of a link. -/
def Die.dir (x : Die) (up : Bool) : LinkDir := if up then x.up else x.dn

/-- Change one direction of a link. -/
def Run.modDir (r : Run s0) (d : Nat) (up : Bool) (f : LinkDir → LinkDir) : Run s0 :=
  r.modDie d fun x => if up then { x with up := f x.up } else { x with dn := f x.dn }

/-- The lane map of a direction (R199). -/
def laneMap (d : Nat) (up : Bool) : FRef := if up then RLINK_FAULTMAP_UP d else RLINK_FAULTMAP_DN d

/-- The width for a number of healthy lanes (R200). -/
def linkWidth (healthy : Nat) : Nat := if 16 ≤ healthy then 16 else if 12 ≤ healthy then 12 else if 8 ≤ healthy then 8 else if 4 ≤ healthy then 4 else 0

/-- The width of a direction by the map (R200). -/
def Run.dirWidth (r : Run s0) (d : Nat) (up : Bool) : Nat :=
  linkWidth ((List.range 18).filter fun i => !r.bit (laneMap d up) i).length

/-- Both ends take the widths of the map. -/
def Run.setWidths (r : Run s0) (d : Nat) : Run s0 :=
  (r.setFld (RLINK_STAT_UPW d) (r.dirWidth d true)).setFld (RLINK_STAT_DNW d) (r.dirWidth d false)

/-- Drop from a store every key that `p` names. -/
def Run.dropKeys {α : Type} (r : Run s0) (xs : Sparse α) (p : Nat → Bool) (f : Nat → Act) : Run s0 :=
  xs.foldl (fun r e => if p e.1 then r.act (f e.1) else r) r

/-- The harts, caches, buffers, interrupt files and registers of a tile go back to reset (R215 step 1), its flip masks among
them (R476); sticky fields stay. -/
def Run.wipeTile (r : Run s0) (n : Nat) (cold : Bool) : Run s0 :=
  let hs (k per : Nat) : Bool := k / per / 4 == n
  let r := r.dropKeys r.1.harts (hs · 1) (.harts · {})
  let r := r.dropKeys r.1.xs (hs · 32) (.xs · 0)
  let r := r.dropKeys r.1.fs (hs · 32) (.fs · 0)
  let r := r.dropKeys r.1.vs (hs · 32) (.vs · 0)
  let r := r.dropKeys r.1.csrs (hs · 4096) (.csrs · none)
  let r := r.dropOps fun o => match o.key with
    | .walk h | .fetch h | .gate h => h / 4 == n
    | _ => false
  let r := r.dropKeys r.1.imsic (hs · 8) (.imsic · {})
  let r := r.dropKeys r.1.l1i (· / 16 / 64 == n) (.l1i · none)
  let r := r.dropKeys r.1.l1d (· / 16 / 64 == n) (.l1d · none)
  let r := r.dropKeys r.1.l2 (· / 8 / 2048 == n) (.l2 · none)
  let r := r.dropKeys r.1.plru (fun k => if k < 2 ^ 20 then k / 64 == n else if k < 2 ^ 21 then (k - 2 ^ 20) / 64 == n else (k - 2 ^ 21) / 2048 == n) (.plru · 0)
  let r := r.setTile n {}
  let r := r.1.groups.foldl (fun r p => r.setGrp p.1 { p.2 with outs := p.2.outs.map fun (o : OutReq) =>
    { o with h := o.h.bind fun h => if tileOf h == n then none else some h } }) r
  let r := (List.range 8).foldl (fun r k =>
    (r.setReg (ARR_FLIP (dieOf n) (n % 16 * 8 + k)) 0).setReg (ARR_FLIPD (dieOf n) (n % 16 * 8 + k)) 0) r
  let r := r.resetRegs (fun o => tileBase n ≤ o && o < tileBase n + 0x1000000 && (cold || o != (TMON_PROC n).off)) cold
  if cold then r else r.setFld (TMON_PROC_LAPS n) 0

/-- Everything of a compute die goes back to reset (R219); sticky fields, its error ring among them, stay, and so
does ERR.CFG but for INJEN (R476). -/
def Run.wipeDie (r : Run s0) (d : Nat) (cold : Bool) : Run s0 :=
  let r := (List.range 16).foldl (fun r t => r.wipeTile (d * 16 + t) cold) r
  let r := r.dropKeys r.1.l3 (fun k => (l3Place k).1 == d) (.l3 · none)
  let r := r.dropKeys r.1.quads (· / 4 == d) (.quads · {})
  let r := (diePmuBases d).foldl (fun r b => r.setPmuLast b 0) r
  let r := r.setRx d {}
  let cfg := if cold then (ERR_CFG d).rst else r.reg (ERR_CFG d) &&& ~~~ fieldMask 8 8
  let r := r.resetRegs (fun o => dieBase d ≤ o && o < dieBase d + 0x100000000 && (cold || o % 0x1000000 != 0x300000)) cold
  r.setReg (ERR_CFG d) cfg
where
  /-- The counter blocks of a die. -/
  diePmuBases (d : Nat) : List Nat := (List.range 4).map (fun q => dieBase d + 0x10001000 + q * 0x1000) ++ [dieBase d + 0x10010000]

/-- The messages between the harts, tiles and quadrants of a tile that it sends or receives are gone; its evictions are
delivered first. -/
def Run.flushTile (r : Run s0) (n : Nat) : Run s0 :=
  (r.tile n).vict.foldl (fun r v => r.flushEv n v.line) r

/-- A tile's harts send no more and wait for nothing: what homes have ordered for them completes, and its answers reach the die, which drops
them. -/
def Run.orphan (r : Run s0) (n : Nat) : Run s0 :=
  let mine (q : HReq) : Bool := match q.msg.src with
    | .hart h => h.val / 4 == n
    | _ => false
  r.1.lineq.foldl (fun r e => if e.2.any mine then
    r.setQueue e.1 ((r.queue e.1).map fun q => if mine q then { q with msg := { q.msg with src := .die (Fin.ofNat 16 (n / 16)) } } else q) else r) r

/-- The requests in flight of a tile's harts to homes, and their answers, are dropped with the tile. -/
def Run.dropHartMsgs (r : Run s0) (n : Nat) : Run s0 :=
  let mine : Agent → Bool
    | .hart h => h.val / 4 == n
    | .tile t => t.val == n
    | _ => false
  (r.act (.net (r.1.net.filter fun m => !mine m.src && !mine m.dst))).orphan n

/-- A die's L3 lines lose a tile's core-valid bit; a line in E or M that named that tile alone is poisoned and held in M
(R215 step 3). Answers the number of lines poisoned. -/
def Run.cvPurge (r : Run s0) (n : Nat) : Run s0 × Nat :=
  let d := dieOf n
  let b : BitVec 16 := 1#16 <<< (n % 16)
  r.1.l3.foldl (fun (p : Run s0 × Nat) e =>
    if (l3Place e.1).1 = d then match p.1.l3Slot e.1 with
      | some s =>
        if s.cv &&& b = 0 then p
        else if s.cv = b ∧ (s.st = .E ∨ s.st = .M) then
          (p.1.setL3Slot e.1 (some { s with cv := 0, st := .M, poison := true }), p.2 + 1)
        else (p.1.setL3Slot e.1 (some { s with cv := s.cv &&& ~~~ b }), p.2)
      | none => p
    else p) (r, 0)

/-- Quadrants forget what a tile waited for (R215 step 2). -/
def Run.forgetTile (r : Run s0) (n : Nat) : Run s0 :=
  let d := dieOf n
  (List.range 4).foldl (fun r q =>
    let x := r.quad (d * 4 + q)
    if x.miss.any (fun m => m.tiles.any (·.1 == n)) || x.waiting.any (·.1 == n) then
      r.setQuad (d * 4 + q) { x with miss := x.miss.map fun m => { m with tiles := m.tiles.filter (·.1 != n) }, waiting := x.waiting.filter (·.1 != n) }
    else r) r

/-- Step 1 of a tile reset, with what the quadrants do for it (R215). -/
def Run.tileReset (r : Run s0) (n : Nat) : Run s0 :=
  let p := (((r.flushTile n).dropHartMsgs n).forgetTile n).cvPurge n
  ((p.1.wipeTile n false).setFld (DOM_STAT_HOLD (domTile n)) 0).modDie (dieOf n) fun x => { x with tileRst := x.tileRst ++ [(n, p.2)] }

/-- DETAIL of a die event (R454). -/
def dieDetail (d cause lines : Nat) : BitVec 256 := detailBytes 32 1 d ||| detailBytes 33 1 cause ||| detailBytes 34 4 lines

/-- The stash of a request is for die `d` or one of its tiles. -/
def stashOn (d : Nat) (q : Msg) : Bool := match q.stash with
  | some (.die x) => x.val == d
  | some (.tile x) => x.val / 16 == d
  | _ => false

/-- Messages that a die has sent and no home has ordered are discarded, and the homes answer for it what it owed them (R216
step 2, R217): snoops without an answer are sent again, to be answered by the fence, and an Ack on its way counts as given. -/
def Run.fenceDie (r : Run s0) (d : Nat) : Run s0 :=
  let die : Agent := .die (Fin.ofNat 16 d)
  let r := (List.range 16).foldl (fun r t => r.orphan (d * 16 + t)) (r.act (.net (r.1.net.filter fun m => Agent.onDie m.src != some d)))
  let coming (r : Run s0) (l : LineAddr) (tag : Nat) : Bool := r.1.net.any fun m => m.dst = die ∧ m.line = l ∧ m.la = tag
  let r := r.1.lineq.foldl (fun r e => match e.2 with
    | q :: _ =>
      let l := q.msg.line
      if coming r l 0 then r
      else if q.phase = .snooping ∧ die ∈ q.snooped then
        r.send { kind := (ownerSnoop q.msg.kind).getD .snpX, src := homeOf l, dst := die, line := l }
      else if q.phase = .waitAck ∧ (q.msg.src = die ∨ stashOn d q.msg = true) then r.homeAck { kind := .ack, src := die, dst := homeOf l, line := l }
      else if q.phase = .waitStash ∧ stashOn d q.msg = true then r.homeStash { kind := .stashDec, src := die, dst := homeOf l, line := l }
      else r
    | [] => r) r
  (List.range 4).foldl (fun r s => (r.slice s).peerSnoops.foldl (fun r p =>
    if die ∈ p.left ∧ !coming r p.msg.line 1 then
      r.send { kind := p.msg.kind, src := homeOf p.msg.line, dst := die, line := p.msg.line, la := 1 }
    else r) r) r

/-- The domains of a die that is held in reset are treated as gated (R216). -/
def Run.gateDie (r : Run s0) (d : Nat) : Run s0 :=
  (List.range 21).foldl (fun r i => (r.setFld (DOM_STAT_STATE (d * 21 + i)) 3).setFld (DOM_STAT_HOLD (d * 21 + i)) 0) r

/-- Both reset wires of a die are asserted (R199, R216): where one of them works, the die is held in reset. -/
def Run.holdDie (r : Run s0) (d : Nat) : Run s0 :=
  if r.on (RLINK_FAULTMAP_RSTA d) && r.on (RLINK_FAULTMAP_RSTB d) then r else (r.wipeDie d false).gateDie d

/-- A die reset begins (R216): it is fenced, the event is raised, and its state is gone where a reset wire works. A reset in
progress is joined (R214). -/
def Run.dieReset (r : Run s0) (d cause : Nat) : Run s0 :=
  if r.fld (RLINK_STAT_STATE d) = 6 then r
  else
    let r := if r.on (RLINK_RESET_BUSY d) ∧ r.fld (RLINK_RESET_KIND d) = 1 then
      (r.setFld (RLINK_RESET_BUSY d) 0).setFld (RLINK_RESET_ST d) stAborted else r
    let r := ((r.setFld (RLINK_STAT_LASTCAUSE d) cause).setFld (RLINK_STAT_STATE d) 6).setFld (RLINK_CTL_ADMIT d) 0
    let r := (r.setFld (RLINK_STAT_UPW d) 0).setFld (RLINK_STAT_DNW d) 0
    let r := r.setDie d { late := true, opened := true }
    let r := r.fenceDie d
    let r := r.holdDie d
    let r := r.logRec (.rlink d) { event := 0x0B00, cls := .ucna, detail := dieDetail d cause 0 }
    r.aplicEdge (129 + d)

/-- The link is down: the die is reset with cause LINK (R198). -/
def Run.linkDown (r : Run s0) (d : Nat) : Run s0 := r.dieReset d 2

/-- A retrain begins (R198): both directions pause at the widths of the map; with fewer than 4 healthy lanes the link is down. -/
def Run.retrain (r : Run s0) (d : Nat) : Run s0 :=
  if !r.online d then r
  else
    let r := (r.addSat (RLINK_ERRCNT_RETRAINS d) 1).setWidths d
    let r := r.modDie d fun x => { x with up := { x.up with pos := 0 }, dn := { x.dn with pos := 0 } }
    if r.dirWidth d true = 0 ∨ r.dirWidth d false = 0 then r.linkDown d else r.setFld (RLINK_STAT_STATE d) 5

/-- DETAIL of a link's record (R454). -/
def Run.linkDetail (r : Run s0) (d : Nat) (up : Bool) (lane : Nat) : BitVec 256 :=
  detailBytes 32 1 (if up then 0 else 1) ||| detailBytes 33 1 lane ||| detailBytes 34 2 (min (r.fld (RLINK_ERRCNT_REPLAYS d)) 0xFFFF)

/-- The bank of a direction's receiver: the IOD end of up flits, the die's end of down flits. -/
def rxBank (d : Nat) (up : Bool) : Bank := if up then .rlink d else .rill d

/-- Record a rejection or a retirement (event 0x0300). -/
def Run.linkCe (r : Run s0) (d : Nat) (up : Bool) (lane : Nat) : Run s0 :=
  r.logRec (rxBank d up) { event := 0x0300, cls := .ce, sub := if lane < 18 then lane else 0xFFFF, detail := r.linkDetail d up lane }

/-- The die's copy of its link's map follows while the link is up: both ends derive widths and lanes from the same map (R199, R200). -/
def Run.copyMap (r : Run s0) (d : Nat) : Run s0 := if r.online d then r.setReg (RILL_FAULTMAP d) (r.reg (RLINK_FAULTMAP d)) else r

/-- Retire lanes (R197): each is a CE, and a retrain follows. -/
def Run.retire_lanes (r : Run s0) (d : Nat) (up : Bool) (lanes : List Nat) : Run s0 :=
  let new := lanes.filter fun i => !r.bit (laneMap d up) i
  if new.isEmpty then r
  else ((new.foldl (fun r i => (r.setBit (laneMap d up) i true).linkCe d up i) r).copyMap d).retrain d

/-- The healthy lanes of a direction that carry its words, in logical order (R200). -/
def Run.lanesOf (r : Run s0) (d : Nat) (up : Bool) : List Nat :=
  ((List.range 18).filter fun i => !r.bit (laneMap d up) i).take (r.dirWidth d up)

/-- A lane's count in a list. -/
def countOf (cs : List (Nat × Nat)) (i : Nat) : Nat := ((cs.find? (·.1 == i)).map (·.2)).getD 0

/-- One is added to each lane's count. -/
def countUp (cs : List (Nat × Nat)) (lanes : List Nat) : List (Nat × Nat) :=
  lanes.foldl (fun cs i => (i, countOf cs i + 1) :: cs.filter (·.1 != i)) cs

/-- A flit is rejected (R197, R529): a CE and a retry request. `lanes` are the active lanes on which it showed a code violation, and `tired`
those among them with a fourth one. At the 16th rejection in succession the lane with the highest count retires, the lowest-numbered
among equals; with every count 0 the link is down. -/
def Run.rejectFlit (r : Run s0) (d : Nat) (up : Bool) (active lanes tired : List Nat) : Run s0 :=
  let x := (r.die d).dir up
  let counts := countUp x.counts lanes
  let r := (r.addSat (RLINK_ERRCNT_REPLAYS d) 1).linkCe d up 0xFF
  let r := r.modDir d up fun y => { y with fails := x.fails + 1, counts := counts, asked := some x.exp }
  if x.fails + 1 < 16 then r.retire_lanes d up tired
  else
    let r := r.modDir d up fun y => { y with fails := 0, counts := [] }
    let top := active.foldl (fun a i => max a (countOf counts i)) 0
    if top = 0 then r.linkDown d
    else r.retire_lanes d up (tired ++ (active.find? fun i => countOf counts i == top).toList).dedup

/-- RILL_FLIT (R192, R194, R195, R197, R529): the eighteen words of a flit have come on the lanes of a direction in logical order, as the
transitions of their wires, and each lane's acknowledge wire has toggled for each of its words. The receiver accepts a flit whose CRC is
right and whose number is the next expected, or rejects it; an accepted flit acknowledges those of the other direction. -/
def execRillFlit (d : Fin 16) (up : Bool) (payload : List (BitVec 64)) (header crc : BitVec 64) (s : State) : Host.Outcome State Fault Refusal :=
  let r := Run.start s
  let words := payload ++ [header, crc]
  let active := r.lanesOf d up
  if r.fld (RLINK_STAT_STATE d) ≠ 4 ∨ words.length ≠ 18 ∨ words.all wordWhole = false ∨ active = [] then r.done
  else
    let x := (r.die d).dir up
    let now := r.dieTime (if up then 16 else d.val)
    let f := flitOf words
    let ls := words.zipIdx.map fun w => (w.1, active.getD ((x.pos + w.2) % active.length) 0)
    let lanes := ((ls.filter fun w => wordBroken w.1).map (·.2)).dedup
    let seen := (x.viol.filter fun p => now < p.2 + 1024000) ++ lanes.map fun i => (i, now)
    let tired := lanes.filter fun i => 4 ≤ (seen.filter (·.1 == i)).length
    let r := r.modDir d up fun y => { y with viol := seen, pos := (x.pos + 18) % active.length,
                                             acks := ls.foldl (fun a w => a ^^^ (1#18 <<< w.2)) x.acks }
    if f.intact ∧ f.seq = x.exp then
      let r := r.modDir d up fun y => { y with exp := y.exp + 1, resend := none, asked := none, fails := 0, counts := [] }
      let r := if f.ackValid then r.modDir d (!up) fun y => { y with acked := some f.ack } else r
      (r.retire_lanes d up tired).done
    else (r.rejectFlit d up active lanes tired).done

/-- RILL_RETRY_REQUEST (R197): the request that a rejection sent reaches the sender, which resends every flit from the rejected one. -/
def execRillRetryRequest (d : Fin 16) (up : Bool) (seq : BitVec 12) (s : State) : Host.Outcome State Fault Refusal :=
  let r := Run.start s
  if r.online d ∧ ((r.die d).dir up).asked = some seq then (r.modDir d up fun x => { x with resend := some seq, asked := none }).done else r.done

/-- RILL_LANE_STALL (R194, R197): the timers of these lanes have expired, and each lane's stall is counted. -/
def execRillLaneStall (d : Fin 16) (up : Bool) (lanes : BitVec 18) (s : State) : Host.Outcome State Fault Refusal :=
  let r := Run.start s
  if r.fld (RLINK_STAT_STATE d) ≠ 4 then r.done
  else
    let ls := (List.range 18).filter fun i => lanes.getLsbD i && !r.bit (laneMap d up) i
    ((r.modDir d up fun x => if ls.isEmpty then x else { x with stalls := countUp x.stalls ls }).retire_lanes d up ls).done

/-- RILL_RETRAIN_DONE (R198). -/
def execRillRetrainDone (d : Fin 16) (s : State) : Host.Outcome State Fault Refusal :=
  let r := Run.start s
  if r.fld (RLINK_STAT_STATE d) = 5 then (r.setFld (RLINK_STAT_STATE d) 4).done else r.done

/-- A sideband direction has no lane left, and the link cannot be managed (R199). -/
def Run.sideDown (r : Run s0) (d : Nat) : Bool :=
  (r.on (RLINK_FAULTMAP_SBUPP d) && r.on (RLINK_FAULTMAP_SBUPS d)) || (r.on (RLINK_FAULTMAP_SBDNP d) && r.on (RLINK_FAULTMAP_SBDNS d))

/-- A write of RLINK[d].FAULTMAP (R199, R221): bits that become set take effect. -/
def Run.wFaultmap (r : Run s0) (d : Nat) (new : Word) : Run s0 :=
  let old := r.reg (RLINK_FAULTMAP d)
  let set (i : Nat) : Bool := new.getLsbD i && !old.getLsbD i
  let r := (r.setReg (RLINK_FAULTMAP d) new).copyMap d
  let spare := r.on (RLINK_STAT_TICKSPARE d)
  let r := if set 56 ∧ !spare ∧ !r.on (RLINK_FAULTMAP_TICKS d) then r.setFld (RLINK_STAT_TICKSPARE d) 1 else r
  if r.sideDown d ∧ (set 58 ∨ set 59 ∨ set 60 ∨ set 61) ∧ r.online d then r.linkDown d
  else if (new &&& ~~~ old) &&& 0x3FFFF0003FFFF ≠ 0 then r.retrain d
  else r

/-- The polynomial that a check unit uses (R204): the IOD's, or the copy that a compute die received at its join. -/
def Run.polyOf (r : Run s0) (u : ChkUnit) : Nat :=
  match u with
  | .tile n => r.fld (FABRIC_COPY_POLY (n / 16))
  | .die d _ => r.fld (FABRIC_COPY_POLY d)
  | .iod _ => r.fld FABRIC_CHKCFG_POLY

/-- Bytes are fed into RUN of a unit, while TEST = 1 (R208). -/
def Run.chkFeed (r : Run s0) (u : ChkUnit) (bytes : List Nat) : Run s0 :=
  if r.on (CHK_CTL_TEST u) then r.setFld (CHK_RUN_RUN u) (bytes.foldl (crcByte (r.polyOf u)) (r.fld (CHK_RUN_RUN u))) else r

/-- A write of CHK.DATA feeds its eight bytes, least significant first. -/
def Run.wChkData (r : Run s0) (u : ChkUnit) (v : Word) : Run s0 :=
  r.chkFeed u ((List.range 8).map fun i => Word.bits v (8 * i + 7) (8 * i))

/-- A write of CHK.DATAN feeds the first N bytes of BYTES. -/
def Run.wChkDatan (r : Run s0) (u : ChkUnit) (v : Word) : Run s0 :=
  r.chkFeed u ((List.range (Word.bits v 2 0)).map fun i => Word.bits v (8 * i + 15) (8 * i + 8))

/-- The check unit of a stop (R205, R496), where the stop exists. -/
def chkUnit (die stop : Nat) : Option ChkUnit :=
  if die < 16 then
    if stop < 16 then some (.tile (die * 16 + stop)) else if stop < 22 then some (.die die stop) else none
  else if stop < 4 ∨ (16 ≤ stop ∧ stop < 56) ∨ (64 ≤ stop ∧ stop < 104) ∨ (112 ≤ stop ∧ stop < 122) then some (.iod stop)
  else none

/-- A write of RLINK[d].RESET (R211 to R213): KIND and TILES, then GO. A refused request is recorded. -/
def Run.wRlinkReset (r : Run s0) (q : Requester) (d : Nat) (new v : Word) : Run s0 :=
  let kind := Word.bits new 57 56
  let tiles := (List.range 16).filter fun t => natBit (Word.bits new 15 0) t
  if !v.getLsbD 63 then r.setReg (RLINK_RESET d) new
  else if r.on (RLINK_RESET_BUSY d) ∨ 2 ≤ kind ∨ (kind = 1 ∧ (tiles.isEmpty ∨ r.fld (RLINK_STAT_STATE d) ≠ 4)) then
    r.setFld (RLINK_STAT_CFG_REJECT d) 1
  else
    let r := r.setReg (RLINK_RESET d) new
    let targets := if kind = 1 then tiles else List.range 16
    let held := targets.any fun t => (List.range 4).any fun i => (r.hart ((d * 16 + t) * 4 + i)).eid != 0
    if r.normal q ∧ held then (r.refuse 3 q).setFld (RLINK_RESET_ST d) stDenied
    else
      let r := r.setFld (RLINK_RESET_BUSY d) 1
      if kind = 1 then tiles.foldl (fun r t => r.tileReset (d * 16 + t)) (r.modDie d fun x => { x with tileRst := [] })
      else r.dieReset d 1

/-- The first instruction of a held hart (R67): M-mode at VEC with the registers that RISC-V defines at reset, a0 the hart ID and
a1 0; a wake that came before stays in its flag (R83). A gated tile is woken first, and the hart then starts with it. -/
def Run.releaseHart (r : Run s0) (h : Nat) : Run s0 :=
  let n := tileOf h
  if (r.hart h).run ≠ .held then r
  else
    let r := (r.clearRegs h).resetCsrs h
    let r := (r.setXr h 10 (BitVec.ofNat 64 h)).setXr h 11 0
    let vec := BitVec.ofNat 64 (r.fld (HART_START_VEC n (h % 4)) * 4)
    let r := r.setHart h { run := .running, mode := .m, pc := vec, wake := (r.hart h).wake }
    (((r.showHart h).setFld (DOM_STAT_HOLD (domTile n)) 0).wakeTile n).pokeHart h

/-- TILE_RESET_DONE (R215): the record of each tile with the lines that it left poisoned (log entry 108), then BUSY clears with ST_OK, and releases written meanwhile take effect. -/
def execTileResetDone (d : Fin 16) (s : State) : Host.Outcome State Fault Refusal :=
  let r := Run.start s
  if !r.on (RLINK_RESET_BUSY d) ∨ r.fld (RLINK_RESET_KIND d) ≠ 1 then r.done
  else
    let ts := (r.die d).tileRst
    let r := ts.foldl (fun r p => r.logRec (.tile p.1) { event := 0x0120, cls := .ucna, poisoned := p.2 != 0, detail := dieDetail d 0 p.2 }) r
    let r := ((r.setFld (RLINK_RESET_BUSY d) 0).setFld (RLINK_RESET_ST d) stOk).modDie d fun x => { x with tileRst := [] }
    (ts.foldl (fun r p => (List.range 4).foldl (fun r i =>
      if r.on (HART_START_RUN p.1 i) then r.releaseHart (p.1 * 4 + i) else r) r) r).done

/-- A die-scope error (R469): its record with DIESCOPE in the bank of the block that found it, and the die reset. -/
def Run.dieScope (r : Run s0) (d : Nat) (b : Bank) (event : Nat) : Run s0 :=
  (r.logRec b { event := event, cls := .ucna, dieScope := true }).dieReset d 4

/-- A home still serves a request of a die, or waits for it: the sweep has not ended. -/
def Run.sweepBusy (r : Run s0) (d : Nat) : Bool :=
  let die : Agent := .die (Fin.ofNat 16 d)
  r.1.lineq.any fun e => e.2.any fun q =>
    Agent.onDie q.msg.src == some d || die ∈ q.snooped || (r.filtOf d q.msg.line).any FSt.owns

/-- The lines of a die's filter entries and shadow entries, with their states. -/
def Run.dieLines (r : Run s0) (d : Nat) : List (LineAddr × FSt) :=
  (r.1.filt.filterMap fun e => if (l3Place e.1).1 = d ∧ e.2.st ≠ .I then some (e.2.line, e.2.st) else none)
  ++ (List.range 4).flatMap fun s => (r.slice s).shadow.filterMap fun e => if e.1 = d then some (e.2.1, e.2.2) else none

/-- The sweep of a fenced die (R217): for a line that it owned the slice orders a WrLine of poisoned data of its own, which the proxy of a
peer's line sends on as EvM; shared entries are cleared. -/
def Run.sweepDie (r : Run s0) (d : Nat) : Run s0 :=
  (r.dieLines d).foldl (fun r e =>
    let l := e.1
    let r := r.setFilt d l none
    if !e.2.owns then r
    else
      let r := r.modDie d fun x => { x with poisoned := x.poisoned + 1 }
      let t := r.decodeLine l
      let m : Msg := { kind := .wrLine, src := .die (Fin.ofNat 16 d), dst := homeOf l, line := l, mask := BitVec.allOnes 64, poison := true }
      if t = .none_ then r else ((r.loseResv l).setQueue l.toNat (r.queue l.toNat ++ [{ msg := m, to_ := t, own := true }])).homeGo l) r

/-- The reset wires of a die are released (R220 step 1): self-test follows, or, at a warm start, training with the map as it is
(R203, R407). -/
def Run.bridgeUp (r : Run s0) (d : Nat) : Run s0 :=
  r.setFld (RLINK_STAT_STATE d) (if r.1.fox.warm && !(r.die d).late then 2 else 1)

/-- Step 1 of a rejoin (R220): Weir wakes the Rill bridge and the reset wires are released. The wake of a gated bridge is a
metered step, at whose end STATE becomes 1. -/
def Run.rejoin (r : Run s0) (d : Nat) : Run s0 :=
  let b := d * 21 + 20
  let r := r.modDie d fun x => { x with trained := false }
  if r.fld (DOM_STAT_STATE b) = 3 then (r.setFld (RLINK_STAT_STATE d) 0).setFld (DOM_STAT_STATE b) 1
  else r.bridgeUp d

/-- DIE_RESET_SWEEP_DONE (R216 steps 5 and 6, R470): the sweep's own writes are ordered, and once they are done it ends. -/
def execDieResetSweepDone (d : Fin 16) (s : State) : Host.Outcome State Fault Refusal :=
  let r := Run.start s
  if r.fld (RLINK_STAT_STATE d) ≠ 6 ∨ r.sweepBusy d then r.done
  else
    let r := r.sweepDie d
    if r.sweepBusy d then r.done else
    let k := (r.die d).poisoned
    let r := r.logRec (.rlink d) { event := 0x0B02, cls := .ucna, poisoned := k != 0, detail := dieDetail d (r.fld (RLINK_STAT_LASTCAUSE d)) k }
    let r := if r.on (RLINK_RESET_BUSY d) then (r.setFld (RLINK_RESET_BUSY d) 0).setFld (RLINK_RESET_ST d) stOk else r
    (r.rejoin d).done

/-- A join fails (R220): the reset wires are asserted again until the next attempt. -/
def Run.joinFails (r : Run s0) (d : Nat) : Run s0 :=
  let r := (r.setFld (RLINK_STAT_STATE d) 7).setFld (RLINK_STAT_LASTCAUSE d) 3
  let r := (r.setFld (RLINK_STAT_UPW d) 0).setFld (RLINK_STAT_DNW d) 0
  (r.holdDie d).modDie d fun x => { x with trained := false, opened := true }

/-- The faults that the test of a link finds (R203): a cold start tests every wire, a join not the tick pair in use. -/
def Run.found (r : Run s0) (d : Nat) (map : Word) : Word :=
  if !r.1.fox.warm && !(r.die d).late then map
  else map &&& ~~~ (1#64 <<< (if r.on (RLINK_STAT_TICKSPARE d) then 57 else 56))

/-- A map gains bits at both ends (R199, R201); a primary tick pair found faulty before the stream runs leaves it to the spare (R221). -/
def Run.orMap (r : Run s0) (d : Nat) (map : Word) : Run s0 :=
  let r := r.setReg (RLINK_FAULTMAP d) (r.reg (RLINK_FAULTMAP d) ||| r.found d map)
  let r := if r.on (RLINK_FAULTMAP_TICKP d) && !r.on (RLINK_FAULTMAP_TICKS d) && !r.on (RLINK_STAT_TICKSPARE d) then r.setFld (RLINK_STAT_TICKSPARE d) 1 else r
  r.setReg (RILL_FAULTMAP d) (r.reg (RLINK_FAULTMAP d))

/-- DIE_SELF_TEST_DONE (R203, R220): the faults found enter the map, and training begins. -/
def execDieSelfTestDone (d : Fin 16) (map : Word) (s : State) : Host.Outcome State Fault Refusal :=
  let r := Run.start s
  if r.fld (RLINK_STAT_STATE d) = 1 then ((r.orMap d map).setFld (RLINK_STAT_STATE d) 2).done else r.done

/-- LINK_TRAINING_DONE (R201, R220): the ends agree on a map, with the faults that training found, and take its widths; with fewer
than 4 healthy lanes in a direction, or no sideband lane, the attempt fails. -/
def execLinkTrainingDone (d : Fin 16) (map : Word) (s : State) : Host.Outcome State Fault Refusal :=
  let r := Run.start s
  if r.fld (RLINK_STAT_STATE d) ≠ 2 then r.done
  else
    let r := (r.orMap d map).setWidths d
    if r.dirWidth d true = 0 ∨ r.dirWidth d false = 0 ∨ r.sideDown d = true then (r.joinFails d).done
    else (r.modDie d fun x => { x with trained := true, up := {}, dn := {} }).done

/-- JOIN_REQUEST (R220 step 4): it follows training and the lock of the die's timebase receiver. -/
def execJoinRequest (d : Fin 16) (baseline : Word) (s : State) : Host.Outcome State Fault Refusal :=
  let r := Run.start s
  let noTicks := r.on (RLINK_FAULTMAP_TICKP d) && r.on (RLINK_FAULTMAP_TICKS d)
  if r.fld (RLINK_STAT_STATE d) ≠ 2 ∨ !(r.die d).trained ∨ (r.on (TBRX_STATUS_LOST d) ∧ !noTicks) then r.done
  else if baseline ≠ r.reg ID_BASELINE then (r.joinFails d).done
  else
    let stopOn (x : Nat) : Bool := x / 256 == d.val
    let r := r.dropKeys r.1.seqs (fun k => stopOn (k / 8 / 8192) || stopOn (k / 8 % 8192)) (.seqs · 0)
    ((r.setFld (FABRIC_COPY_POLY d) (r.fld FABRIC_CHKCFG_POLY)).setFld (RLINK_STAT_STATE d) 3).done

/-- A write of RLINK[d].CTL (R219, R220 step 6): ADMIT unfences a joining die; one at another STATE is ignored. -/
def Run.wRlinkCtl (r : Run s0) (d : Nat) (new : Word) : Run s0 :=
  if !new.getLsbD 0 then r
  else if r.fld (RLINK_STAT_STATE d) ≠ 3 then r.setFld (RLINK_STAT_CFG_REJECT d) 1
  else
    let late := (r.die d).late
    let r := ((r.setFld (RLINK_CTL_ADMIT d) 1).setFld (RLINK_STAT_STATE d) 4).addSat (RLINK_STAT_JOINS d) 1
    let r := r.modDie d fun x => { x with late := false, opened := false, drop := 0 }
    if late then r.aplicEdge (129 + d) else r

/-- REJOIN_STEP_TIMEOUT (R220): a join is in progress from the wake of the die's bridge on. -/
def execRejoinStepTimeout (d : Fin 16) (s : State) : Host.Outcome State Fault Refusal :=
  let r := Run.start s
  let x := r.fld (RLINK_STAT_STATE d)
  if (1 ≤ x ∧ x ≤ 3) ∨ (x = 0 ∧ r.fld (DOM_STAT_STATE (d * 21 + 20)) = 1) then (r.joinFails d).done else r.done

/-- REJOIN_RETRY (R220): the next attempt begins, and its join raises the online event. -/
def execRejoinRetry (d : Fin 16) (s : State) : Host.Outcome State Fault Refusal :=
  let r := Run.start s
  if r.fld (RLINK_STAT_STATE d) = 7 then ((r.modDie d fun x => { x with late := true }).rejoin d).done else r.done

/-- SNOOP_RESPONSE_TIMEOUT (R469): a home slice has waited 10 ms for a die's answer while no tile of it is halted. -/
def execSnoopResponseTimeout (d : Fin 16) (l : LineAddr) (s : State) : Host.Outcome State Fault Refusal :=
  let r := Run.start s
  let halted := (List.range 16).any fun t => (r.tile (d * 16 + t)).halted
  let waits := match r.queue l.toNat with
    | q :: _ => decide (q.phase = .snooping) && decide (Agent.die d ∈ q.snooped)
    | [] => false
  if waits && !halted then (r.dieScope d (.home (quadOf l)) 0x0502).done else r.done

end Sys2Proof.Machine
end

