-- ==== Sys2Proof/Machine/Foxglove.lean ====
section
/-! DEFINITION. Foxglove: its mailbox commands, sealing, measurements, the enclave commands, entropy and alarms (R342 to R371, R375 to
R381, R415). -/
namespace Sys2Proof.Machine

variable {s0 : State}

/-- ST_BAD_CMD (R356). -/
def stBadCmd : Nat := 0x18

/-- ST_SEAL_STALE (R359). -/
def stSealStale : Nat := 0x19

/-- ST_RANGE_CONFLICT (R379). -/
def stRangeConflict : Nat := 0x1A

/-- ST_ENCLAVE_BUSY (R379). -/
def stEnclaveBusy : Nat := 0x1B

/-- ST_CHECK_MISMATCH (R10). -/
def stCheckMismatch : Nat := 0x06

/-! ### Memory as Foxglove reaches it -/

/-- Foxglove reads bytes of memory, physically (R342): none where the memory does not exist or is poisoned. -/
def Run.foxRead (r : Run s0) (a n : Nat) : Run s0 × Option (List Byte) :=
  if (spanLines a n).any fun l => regionOf (l.toNat * 64) ≠ .memory then (r, none)
  else match (spanLines a n).find? fun l => r.decodeLine l = .none_ with
    | some l => (r.logNoMemory (l.toNat * 64) (some (4, 0)), none)
    | none =>
      let x := r.rdSpan a n .fox (n / 64 + 2)
      (x.1.settleUp, if x.2.2 then none else some (bytesLE n x.2.1))

/-- Foxglove writes whole lines, the rest of the last one 0 (R342), and goes on when they are visible. -/
def Run.foxWrite (r : Run s0) (a : Nat) (bs : List Byte) : Run s0 :=
  ((spanLines a bs.length).foldl (fun r l =>
    if r.decodeLine l = .none_ then r.logNoMemory (l.toNat * 64) (some (4, 0))
    else r.wrLine .fox l { data := BitVec.ofNat 512 (natLE ((bs.drop (l.toNat * 64 - a)).take 64)), mask := BitVec.allOnes 64 }) r).settleUp

/-! ### Key derivation and sealing -/

/-- The counter mode of SP 800-108 with HMAC-SHA-512 (R347): `n` bytes, n at most 64. -/
def kdf (key label context : List Byte) (n : Nat) : List Byte :=
  (hmac512 key (bytesBE 4 1 ++ label ++ [0] ++ context ++ bytesBE 4 (n * 8))).take n

/-- The SEED fuse as bytes. -/
def seedBytes : List Byte := bytesLE 32 Config.seed.toNat

/-- The sealing key of a world (0 normal, 1 secure) at an epoch (R347). -/
def sealKey (epoch world : Nat) : List Byte := kdf seedBytes [0x53, 0x45, 0x41, 0x4C] (bytesLE 4 epoch ++ bytesLE 1 world) 32

/-- A sealed blob (R358). -/
def sealBlob (type limlog epoch world : Nat) (iv key : List Byte) : List Byte :=
  let aad := bytesLE 2 1 ++ bytesLE 1 type ++ bytesLE 1 limlog ++ bytesLE 4 epoch ++ bytesLE 1 world ++ bytesLE 7 0
  let ct := gcmCtr (sealKey epoch world) iv 2 ((key ++ List.replicate 64 0).take 64)
  aad ++ iv ++ ct ++ gcmTag (sealKey epoch world) iv aad ct ++ bytesLE 4 0

/-! ### Slots -/

/-- The bank of a slot ID. -/
def slotBank (id : Nat) : Nat := id / 2 ^ 28

/-- The index of a slot ID. -/
def slotIndex (id : Nat) : Nat := id % 65536

/-- An ID names a slot (R348). -/
def Run.slotNamed (r : Run s0) (id : Nat) : Bool :=
  let i := slotIndex id
  natBits id 27 16 == 0 && match slotBank id with
    | 0 => decide (i ≤ 64)
    | 1 => decide (i ≤ 4095)
    | 2 => decide (i / 256 < 32) && decide (i % 256 < 192) && (r.fld (G_CFG_PERS (i / 256)) == 1 || r.fld (G_CFG_PERS (i / 256)) == 2)
    | 3 => decide (i / 4 < 32) && socketPers (r.fld (G_CFG_PERS (i / 4)))
    | _ => false

/-- Mailbox w may issue an operation on a slot (R355). Operations: 1 QUERY, 2 KEY_LOAD, 3 KEY_GEN, 4 KEY_ERASE, 5 UNSEAL_LOAD, 6 ASSIGN. -/
def Run.mayCommand (r : Run s0) (w op id : Nat) : Bool :=
  let i := slotIndex id
  op == 1 || match slotBank id with
    | 0 => i != 0 && ((w == 0 && op == 4) || (w == 1 && (op == 3 || op == 4)))
    | 1 =>
      let o := (r.key id).owner
      let sec := o == 0xFFFF || r.fnSecure o
      (w == 0 && op == 4) || (w == 1 && sec) || (w == 2 && (!sec || (o == 0xFFFF && op == 6)))
    | 2 => (w == 0 && op == 4) || (op != 6 && ((w == 1 && r.groupSecure (i / 256)) || (w == 2 && !r.groupSecure (i / 256))))
    | _ => false

/-- LIMLOG of a key that is loaded or generated (R353): the command's for bank 1, 48 for banks 2 and 3. -/
def slotLim (bank limlog : Nat) : Nat := if bank = 1 then limlog else 48

/-- A key of this TYPE and LIMLOG goes into a slot (R349, R354): GEN advances, COUNTER starts at CTR0 for a GCM key. Every channel and engine takes the change at this
moment (DESIGN CHOICE, log entry 102: R354 lets each take it at its own, until the response). -/
def Run.loadSlot (r : Run s0) (id type limlog ctr0 : Nat) (key : Nat) : Run s0 :=
  let old := r.key id
  let gcm := type = 1
  let r := r.setKey id { loaded := true, type := type, key := BitVec.ofNat 512 (if gcm then key % 2 ^ 256 else key), gen := (old.gen + 1) % 2 ^ 32,
                         counter := if gcm then ctr0 else 0, limlog := if gcm then limlog else 0, owner := old.owner }
  if slotBank id = 2 then r.ideKeyed (slotIndex id / 256) (slotIndex id % 256 / 12) (slotIndex id % 2) else r

/-! ### Commands -/

/-- A command: its mailbox, the address of its block, its requester and bytes 0 to 63. -/
structure Cmd where
  w : Nat
  a : Nat
  q : Requester
  b : Nat

/-- Bytes lo to lo + n - 1 of a command block. -/
def Cmd.at (c : Cmd) (lo n : Nat) : Nat := c.b / 256 ^ lo % 256 ^ n

/-- The command at the head of the queue has two outputs of the DRBG of its own (R345): the free values from here on. -/
def Run.foxDraw (r : Run s0) : Run s0 :=
  let n := r.1.free
  let r := r.fresh.1.fresh.1
  r.act (.fox { r.1.fox with draw := n })

/-- A DRBG output of the command at the head of the queue, the first or the second. -/
def Run.drawn (r : Run s0) (k : Nat) : BitVec 512 := Config.freeValue (r.1.fox.draw + k)

/-- The command ends (R353): its status is shown, its mailbox is free and the next one follows. -/
def Run.foxShow (r : Run s0) (w st : Nat) : Run s0 :=
  let r := r.act (.fox { r.1.fox with cmds := r.1.fox.cmds.drop 1 })
  let r := if r.1.fox.cmds.isEmpty then r else r.foxDraw
  ((r.setFld (MBX_STAT_ST w) st).setFld (MBX_STAT_BUSY w) 0).addWrap (MBX_STAT_COUNT w) 1

/-- The IMSIC file page that NADDR names, if it names one with an identity that it may have (R356). -/
def foxNotice (naddr nid : Nat) : Option (Nat × Nat) :=
  if naddr % 4096 = 0 ∧ 1 ≤ nid ∧ nid ≤ 2047 ∧ 0xFFF0000000000 ≤ naddr ∧ naddr < 0x10000000000000 then imsicPage (naddr - 0xFFF0000000000) else none

/-- The notification is in order: none, or an IMSIC file page and an identity. -/
def Cmd.noticeOk (c : Cmd) : Bool := c.at 32 8 == 0 || (foxNotice (c.at 32 8) (c.at 40 4)).isSome

/-- The response of a command: its status, DONE and what its slot holds; ROWNER is 0xFFFF where SLOT names none, and the commands that
name no slot write 0 (R353, R378, R415). -/
def Run.cmdResponse (r : Run s0) (st : Nat) (slot : Option Nat) : List Byte :=
  let body := match slot with
    | none => []
    | some id =>
      if !r.slotNamed id then List.replicate 22 0 ++ bytesLE 2 0xFFFF else
      let k := r.key id
      bytesLE 1 k.type ++ bytesLE 1 (if k.loaded then 1 else 0) ++ bytesLE 4 (r.genOf id) ++ bytesLE 8 k.counter ++ bytesLE 8 k.hard
        ++ bytesLE 2 (if slotBank id = 1 then k.owner else 0xFFFF)
  (bytesLE 1 st ++ [1] ++ body ++ List.replicate 62 0).take 64

/-- The command's response and end: bytes 64 to 127 with one full-line write, the status, the notification (R353). -/
def Run.foxEnd (r : Run s0) (c : Cmd) (st : Nat) (slot : Option Nat) : Run s0 :=
  let r := r.foxWrite (c.a + 64) (r.cmdResponse st slot)
  let r := if st = stDenied then r.logDenied .fox c.q else r
  let r := r.foxShow c.w st
  match foxNotice (c.at 32 8) (c.at 40 4) with
  | some (h, f) => if c.at 32 8 = 0 then r else r.msiBy .fox h f (c.at 40 4)
  | none => r

/-- Foxglove firmware runs commands: it is ready, no class A alarm has stopped it, and it is in no sweep (R353, R369, R406). -/
def Run.foxRuns (r : Run s0) : Bool := r.1.fox.ready && !r.1.fox.stopped && r.1.fox.sweep.isNone && !r.1.pins.fatal

/-- The operations that a block may name (R354, R378, R415). -/
def listedOp (op : Nat) : Bool := op ∈ [1, 2, 3, 4, 5, 6, 0x10, 0x11, 0x20]

/-- The command at the head of the queue runs, where it is mailbox w's and its operation is `op`; a block that is not read, or that names
no listed operation, ends with ST_BAD_CMD (or ST_DENIED for an enclave range) as any command does (R353, R356). -/
def Run.foxCmd (r : Run s0) (w : Fin 3) (op : Nat) (f : Run s0 → Cmd → Run s0) : Run s0 :=
  match r.1.fox.cmds with
  | [] => r
  | (v, a, q) :: _ =>
    if v ≠ w.val ∨ !r.foxRuns then r
    else if regionOf a ≠ .memory then r.foxShow w stBadCmd
    else if v = 2 ∧ (r.ertOf a).isSome then (r.logDenied .fox q).foxShow w stDenied
    else
      let x := (r.accessing (.mailbox w) .fox).foxRead a 64
      match x.2 with
      | none => x.1.foxShow w stBadCmd
      | some bs =>
        let c : Cmd := { w := w, a := a, q := q, b := natLE bs }
        if !listedOp (c.at 0 1) then x.1.foxEnd c stBadCmd (some (c.at 4 4))
        else if !x.1.1.need.stuck && c.at 0 1 != op then r
        else f x.1 c

/-- The checks common to the slot commands (R348, R355, R356): the slot, the permission, the flags, the reserved bytes and the notification. -/
def Run.slotCmd (r : Run s0) (c : Cmd) (f : Run s0 → Nat → Run s0) : Run s0 :=
  let id := c.at 4 4
  let op := c.at 0 1
  if !r.slotNamed id then r.foxEnd c stBadCmd (some id)
  else if !r.mayCommand c.w op id then r.foxEnd c stDenied (some id)
  else
    let gcm1 := slotBank id == 1 && c.at 2 1 == 1
    let lim := c.at 3 1
    let limOk := if op = 2 ∨ op = 3 then (if gcm1 then decide (16 ≤ lim) && decide (lim ≤ 63) else lim == 0)
      else lim == 0 || (op == 5 && slotBank id == 1 && decide (16 ≤ lim) && decide (lim ≤ 63))
    if 3 ≤ c.at 1 1 ∨ (slotBank id = 0 ∧ c.at 1 1 ≠ 0) ∨ c.at 26 6 ≠ 0 ∨ c.at 44 20 ≠ 0 ∨ !limOk ∨ !c.noticeOk then r.foxEnd c stBadCmd (some id)
    else f r id

/-- A key buffer's address is 64-byte aligned, in existing memory of the mailbox's world (R353). -/
def Run.bufferOk (r : Run s0) (w a n : Nat) : Bool :=
  a % 64 == 0 && (spanLines a n).all fun l =>
    regionOf (l.toNat * 64) == .memory && (w == 1) == (r.ertOf (l.toNat * 64)).isSome

/-- A CXL.cachemem stream has no slots of sub-streams 1 and 2 (R348). -/
def Run.slotFillable (r : Run s0) (id : Nat) : Bool :=
  let i := slotIndex id
  slotBank id != 2 || decide (i % 256 % 12 / 4 ∈ r.subStreams (i / 256) (i % 256 / 12))

/-- A key of this type, LIMLOG and CTR0 may go into a slot (R356). -/
def Run.keyOk (r : Run s0) (id type limlog ctr0 : Nat) : Bool :=
  let hard := 2 ^ limlog
  (match slotBank id with
    | 0 => type == 2
    | 1 => (type == 1 || type == 2) && (r.key id).owner != 0xFFFF
    | _ => type == 1)
  && (type != 1 || decide (ctr0 < hard - hard / 16)) && r.slotFillable id

/-- The halves of an XTS key differ (R356). -/
def halvesDiffer (type key : Nat) : Bool := type != 2 || key % 2 ^ 256 != key / 2 ^ 256 % 2 ^ 256

/-- QUERY (R354). -/
def execQuery (w : Fin 3) (s : State) : Host.Outcome State Fault Refusal :=
  ((Run.start s).foxCmd w 1 fun r c => r.slotCmd c fun r id => r.foxEnd c stOk (some id)).done

/-- KEY_LOAD (R354). -/
def execKeyLoad (w : Fin 3) (s : State) : Host.Outcome State Fault Refusal :=
  ((Run.start s).foxCmd w 2 fun r c => r.slotCmd c fun r id =>
    let type := c.at 2 1
    let n := if type = 2 then 64 else 32
    let lim := slotLim (slotBank id) (c.at 3 1)
    if !r.keyOk id type lim (c.at 8 8) || !r.bufferOk c.w (c.at 16 8) n then r.foxEnd c stBadCmd (some id)
    else
      let x := r.foxRead (c.at 16 8) n
      match x.2 with
      | none => x.1.foxEnd c stBadCmd (some id)
      | some bs =>
        if !halvesDiffer type (natLE bs) then x.1.foxEnd c stBadCmd (some id)
        else (x.1.loadSlot id type lim (c.at 8 8) (natLE bs)).foxEnd c stOk (some id)).done

/-- KEY_GEN (R345, R354, R358, R359). -/
def execKeyGen (w : Fin 3) (s : State) : Host.Outcome State Fault Refusal :=
  ((Run.start s).foxCmd w 3 fun r c => r.slotCmd c fun r id =>
    let type := c.at 2 1
    let fl := c.at 1 1
    let n := if fl = 2 then 112 else if type = 2 then 64 else 32
    let out := fl ≠ 0
    let lim := slotLim (slotBank id) (c.at 3 1)
    if !r.keyOk id type lim (c.at 8 8)
        || (out && (!r.bufferOk c.w (c.at 16 8) n || (spanLines (c.at 16 8) n).any fun l => r.decodeLine l = .none_)) then r.foxEnd c stBadCmd (some id)
    else if fl = 2 ∧ 32 ≤ r.epoch then r.foxEnd c stSealStale (some id)
    else
      let key := (r.drawn 0).toNat
      let r := r.loadSlot id type lim (c.at 8 8) key
      let bytes := bytesLE (if type = 2 then 64 else 32) key
      let r := if fl = 1 then r.foxWrite (c.at 16 8) bytes
        else if fl = 2 then r.foxWrite (c.at 16 8) (sealBlob type (if type = 1 then lim else 0) r.epoch
          (if c.w = 1 then 1 else 0) (bytesLE 12 (r.drawn 1).toNat) bytes)
        else r
      r.foxEnd c stOk (some id)).done

/-- KEY_ERASE (R354). -/
def execKeyErase (w : Fin 3) (s : State) : Host.Outcome State Fault Refusal :=
  ((Run.start s).foxCmd w 4 fun r c => r.slotCmd c fun r id => (r.eraseSlot id).foxEnd c stOk (some id)).done

/-- UNSEAL_LOAD (R359): the slot takes the blob's LIMLOG, whatever its bank. -/
def execUnsealLoad (w : Fin 3) (s : State) : Host.Outcome State Fault Refusal :=
  ((Run.start s).foxCmd w 5 fun r c => r.slotCmd c fun r id =>
    if !r.bufferOk c.w (c.at 16 8) 112 || (slotBank id == 1 && (r.key id).owner == 0xFFFF) then r.foxEnd c stBadCmd (some id)
    else
      let x := r.foxRead (c.at 16 8) 112
      match x.2 with
      | none => x.1.foxEnd c stBadCmd (some id)
      | some bs =>
        let r := x.1
        let f (lo n : Nat) : List Byte := (bs.drop lo).take n
        let epoch := natLE (f 4 4)
        let world := if c.w = 1 then 1 else 0
        let key := sealKey epoch world
        let type := natLE (f 2 1)
        let lim := natLE (f 3 1)
        if epoch ≠ r.epoch ∨ 32 ≤ r.epoch then r.foxEnd c stSealStale (some id)
        else if natLE (f 8 1) ≠ world then r.foxEnd c stDenied (some id)
        else if gcmTag key (f 16 12) (f 0 16) (f 28 64) ≠ f 92 16 then r.foxEnd c stCheckMismatch (some id)
        else
          let k := natLE (gcmCtr key (f 16 12) 2 (f 28 64))
          if !r.keyOk id type lim (c.at 8 8) || !halvesDiffer type k then r.foxEnd c stBadCmd (some id)
          else (r.loadSlot id type lim (c.at 8 8) k).foxEnd c stOk (some id)).done

/-- ASSIGN (R354, R356). -/
def execAssign (w : Fin 3) (s : State) : Host.Outcome State Fault Refusal :=
  ((Run.start s).foxCmd w 6 fun r c => r.slotCmd c fun r id =>
    let o := c.at 24 2
    if 256 ≤ o ∧ o ≠ 0xFFFF then r.foxEnd c stBadCmd (some id)
    else if (r.key id).loaded then r.foxEnd c stBusy (some id)
    else if o ≠ 0xFFFF ∧ r.fnSecure o ≠ decide (c.w = 1) then r.foxEnd c stDenied (some id)
    else (r.modKey id fun k => { k with owner := o }).foxEnd c stOk (some id)).done

/-! ### Measurements -/

/-- A measurement register as bytes (R414). -/
def Run.meas (r : Run s0) (n : Nat) : List Byte := (List.range 8).flatMap fun k => bytesLE 8 (r.reg (FOX_MEAS n k)).toNat

/-- MEAS[n] is extended with a digest (R414). -/
def Run.measExtend (r : Run s0) (n : Nat) (digest : List Byte) : Run s0 :=
  let h := sha512 (r.meas n ++ digest)
  (List.range 8).foldl (fun r k => r.setReg (FOX_MEAS n k) (BitVec.ofNat 64 (natLE ((h.drop (8 * k)).take 8)))) r

/-- The measurement registers of a mailbox (R414). -/
def measOf (w n : Nat) : Bool :=
  match w with
  | 0 => n == 8 || n == 9
  | 1 => n == 10 || n == 11
  | _ => decide (12 ≤ n) && decide (n ≤ 15)

/-- MEAS_EXTEND (R415). -/
def execMeasExtend (w : Fin 3) (s : State) : Host.Outcome State Fault Refusal :=
  ((Run.start s).foxCmd w 0x20 fun r c =>
    let n := c.at 4 1
    let a := c.at 16 8
    if !measOf c.w n then r.foxEnd c stDenied none
    else if c.at 1 3 ≠ 0 ∨ c.at 5 11 ≠ 0 ∨ c.at 24 8 ≠ 0 ∨ c.at 44 20 ≠ 0 ∨ !c.noticeOk ∨ a % 64 ≠ 0 ∨ regionOf a ≠ .memory ∨ (c.w = 2 ∧ (r.ertOf a).isSome) then
      r.foxEnd c stBadCmd none
    else
      let x := r.foxRead a 64
      match x.2 with
      | none => x.1.foxEnd c stBadCmd none
      | some d => (x.1.measExtend n d).foxEnd c stOk none).done

/-! ### Enclave commands -/

/-- The state of an enclave (R377): 0 FREE, 1 BUILD, 2 READY. -/
def Run.encState (r : Run s0) (e : Nat) : Nat := r.fld (ENC_STAT_STATE e)

/-- An ERT value names enclave `e` over a range of lines: the first and the last. -/
def ertSpan (base limit : Word) : Nat × Nat := (Word.bits base 51 21 * 32768, Word.bits limit 51 21 * 32768 + 32767)

/-- Inclusive ranges of lines without another one. -/
def rangeMinus (x y : Nat × Nat) : List (Nat × Nat) :=
  if x.2 < y.1 ∨ y.2 < x.1 then [x]
  else (if x.1 < y.1 then [(x.1, y.1 - 1)] else []) ++ if y.2 < x.2 then [(y.2 + 1, x.2)] else []

/-- Every TLB and walk-cache entry whose page overlaps a range of lines goes (R122, R380 step 3), and every VS-stage non-leaf entry, which
names a guest physical page only. -/
def Run.dropSpan (r : Run s0) (x : Nat × Nat) : Run s0 :=
  r.1.harts.foldl (fun r p => r.dropTlb p.1 fun e => if e.leaf then decide (e.pa / 64 ≤ x.2) && decide (x.1 * 64 < e.pa + 2 ^ e.lg)
    else (e.v && !e.gstage) || (decide (e.pa / 64 ≤ x.2) && decide (x.1 * 64 < e.pa + 4096))) r

/-- ERT_WRITE is in order on the values given: its failure status, if any (R379). -/
def Run.ertCheck (r : Run s0) (n : Nat) (base limit : Word) : Option Nat :=
  let en := base.getLsbD 63
  let e := Word.bits base 62 56
  let busy (e : Nat) : Bool := r.encState e == 2
  let span := ertSpan base limit
  let overlap := (List.range 128).any fun k => k != n && r.on (ERT_BASE_EN k) &&
    let o := ertSpan (r.reg (ERT_BASE k)) (r.reg (ERT_LIMIT k))
    decide (o.1 ≤ span.2) && decide (span.1 ≤ o.2)
  let inSad := (List.range 32).any fun k => r.on (SAD_RANGE_BASE_EN k) && r.fld (SAD_RANGE_BASE_KIND k) == 0
    && decide (r.fld (SAD_RANGE_BASE_BASE k) * 2 ^ 24 ≤ span.1) && decide (span.2 < (r.fld (SAD_RANGE_LIMIT_LIMIT k) + 1) * 2 ^ 24)
  let frozen := (List.range 16).all fun d => !r.online d || r.on (L3_PARTWAYS_FROZEN d (Word.bits base 55 52))
  if 128 ≤ n ∨ (en ∧ (e = 0 ∨ 64 < e ∨ e = r.fld SEC_CFG_MONEID)) ∨ Word.bits limit 51 21 < Word.bits base 51 21 ∨ Word.bits base 20 0 ≠ 0
      ∨ Word.bits limit 63 52 ≠ 0 ∨ Word.bits limit 20 0 ≠ 0 then some stBadCmd
  else if (r.on (ERT_BASE_EN n) ∧ busy (r.fld (ERT_BASE_EID n))) ∨ (en ∧ busy e) then some stEnclaveBusy
  else if en ∧ (overlap ∨ !inSad ∨ !frozen) then some stRangeConflict
  else none

/-- A mailbox command of the secure monitor (R373, R378). -/
def Run.monitorCmd (r : Run s0) (c : Cmd) (f : Run s0 → Run s0) : Run s0 :=
  if c.w ≠ 1 ∨ !r.isMonitor c.q then r.foxEnd c stDenied none
  else if c.at 26 6 ≠ 0 ∨ c.at 1 1 ≠ 0 ∨ c.at 44 20 ≠ 0 ∨ !c.noticeOk then r.foxEnd c stBadCmd none
  else f r

/-- ERT_WRITE (R379, R380 steps 1 to 4): the new entry is in force; the sweep of step 5 ends it. -/
def execErtWrite (w : Fin 3) (s : State) : Host.Outcome State Fault Refusal :=
  ((Run.start s).foxCmd w 0x10 fun r c => r.monitorCmd c fun r =>
    let n := c.at 4 4
    let base := BitVec.ofNat 64 (c.at 8 8)
    let limit := BitVec.ofNat 64 (c.at 16 8)
    if c.at 2 2 ≠ 0 ∨ c.at 24 2 ≠ 0 then r.foxEnd c stBadCmd none
    else match r.ertCheck n base limit with
      | some st => r.foxEnd c st none
      | none =>
        let was := r.reg (ERT_BASE n)
        let old := ertSpan was (r.reg (ERT_LIMIT n))
        let new := ertSpan base limit
        let same := was.getLsbD 63 && base.getLsbD 63 && Word.bits was 62 56 == Word.bits base 62 56
        let drop := if !was.getLsbD 63 then [] else if same then rangeMinus old new else [old]
        let flush := if !base.getLsbD 63 then [] else if same then rangeMinus new old else [new]
        let r := (r.setReg (ERT_BASE n) base).setReg (ERT_LIMIT n) limit
        let r := if was.getLsbD 63 then r.dropSpan old else r
        let r := if base.getLsbD 63 then r.dropSpan new else r
        r.act (.fox { r.1.fox with sweep := some { w := c.w, blk := c.a, op := 0x10, drop := drop, flush := flush } })).done

/-- A line lies in one of the ranges. -/
def inRanges (rs : List (Nat × Nat)) (l : LineAddr) : Bool := rs.any fun x => decide (x.1 ≤ l.toNat) && decide (l.toNat ≤ x.2)

/-- The lines that caches, filters and shadows hold. -/
def Run.cachedLines (r : Run s0) : List LineAddr :=
  ((r.1.l2.map fun x => x.2.line) ++ (r.1.l3.map fun x => x.2.line) ++ (r.1.filt.map fun x => x.2.line) ++ (List.range 16).flatMap fun d => (r.dieLines d).map fun x => x.1).dedup

/-- Something is still in progress on a line of the ranges: a request, a store not yet visible, or a line on its way out. -/
def Run.rangesBusy (r : Run s0) (rs : List (Nat × Nat)) : Bool :=
  r.1.net.any (fun m => inRanges rs m.line) || r.1.lineq.any (fun q => q.2.any fun x => inRanges rs x.msg.line)
    || r.1.tiles.any (fun t => t.2.smb.any (fun e => inRanges rs e.line) || t.2.sq.any (fun e => inRanges rs e.line) || t.2.vict.any (fun v => inRanges rs v.line))
    || r.1.quads.any (fun q => q.2.vict.any fun v => inRanges rs v.line)

/-- The sweep asks its home for CboI or CboF of a line (R380 step 5), once. -/
def Run.sweepLine (r : Run s0) (l : LineAddr) (flush : Bool) : Run s0 :=
  r.wrLine .fox l { data := 0, mask := 0, cbo := some (if flush then .cboF else .cboI) }

/-- The sweep of a command (R380 steps 5 and 6, R381): it asks for every cached line of its ranges; once all that it asked for is done, the
command ends with ST_OK. It waits while anything is in progress on a line of the ranges. -/
def Run.sweepEnd (r : Run s0) (op : Nat) : Run s0 :=
  match r.1.fox.sweep, r.1.fox.cmds with
  | some x, (_, _, q) :: _ =>
    if x.op ≠ op ∨ r.rangesBusy (x.drop ++ x.flush) then r
    else
      let ls := r.cachedLines
      let r := r.accessing .sweep .fox
      let r := (ls.filter (inRanges x.drop)).foldl (fun r l => r.sweepLine l false) r
      let r := ((ls.filter (inRanges x.flush)).foldl (fun r l => r.sweepLine l true) r).settleUp
      let b := (r.accessing (.mailbox x.w) .fox).rdSpan x.blk 64 .fox 2
      let r := b.1.settleUp
      (r.act (.fox { r.1.fox with sweep := none })).foxEnd { w := x.w, a := x.blk, q := q, b := b.2.1 } stOk none
  | _, _ => r

/-- ERT_SWEEP_DONE (R380 steps 5 and 6). -/
def execErtSweepDone (s : State) : Host.Outcome State Fault Refusal := ((Run.start s).sweepEnd 0x10).done

/-- The lines of an enclave's ranges. -/
def Run.encRanges (r : Run s0) (e : Nat) : List (Nat × Nat) :=
  ((List.range 128).filter fun n => r.on (ERT_BASE_EN n) && r.fld (ERT_BASE_EID n) == e).map fun n => ertSpan (r.reg (ERT_BASE n)) (r.reg (ERT_LIMIT n))

/-- ENC_SET (R381). -/
def execEncSet (w : Fin 3) (s : State) : Host.Outcome State Fault Refusal :=
  ((Run.start s).foxCmd w 0x11 fun r c => r.monitorCmd c fun r =>
    let e := c.at 4 4
    let st := c.at 2 1
    let nthr := c.at 3 1
    let entry := c.at 8 8
    let tsb := c.at 16 8
    if e = 0 ∨ 64 < e ∨ 2 < st then r.foxEnd c stBadCmd none
    else
      let now := r.encState e
      if st = now then (r.setFld (ENC_STAT_TLOST e) (r.fld (ENC_STAT_TLOST e) &&& (0xFFFF - c.at 24 2))).foxEnd c stOk none
      else if e = r.fld SEC_CFG_MONEID then r.foxEnd c stBadCmd none
      else if now = 0 ∧ st = 1 then
        if 15 < nthr ∨ tsb % 4096 ≠ 0 ∨ 2 ^ 52 ≤ tsb then r.foxEnd c stBadCmd none
        else if entry % 4 ≠ 0 ∨ !(List.range (nthr + 1)).all fun t => r.enclaveOf (tsb + t * 4096) == e then r.foxEnd c stRangeConflict none
        else
          let r := r.loadSlot (keyId 0 e) 2 0 0 (r.drawn 0).toNat
          let r := (r.setReg (ENC_STAT e) 0).setFld (ENC_STAT_STATE e) 1
          let r := ((r.setFld (ENC_STAT_NTHR e) nthr).setReg (ENC_ENTRY e) (BitVec.ofNat 64 entry)).setReg (ENC_TSB e) (BitVec.ofNat 64 tsb)
          r.foxEnd c stOk none
      else if now = 1 ∧ st = 2 then (r.setFld (ENC_STAT_STATE e) 2).foxEnd c stOk none
      else if st = 0 then
        if r.on (ENC_STAT_TBUSY e) ∨ r.on (ENC_STAT_TSUSP e) then r.foxEnd c stEnclaveBusy none
        else
          let r := (r.setFld (ENC_STAT_STATE e) 0).eraseSlot (keyId 0 e)
          r.act (.fox { r.1.fox with sweep := some { w := c.w, blk := c.a, op := 0x11, drop := r.encRanges e } })
      else r.foxEnd c stBadCmd none).done

/-- ENCLAVE_FREE_SWEEP_DONE (R381). -/
def execEnclaveFreeSweepDone (s : State) : Host.Outcome State Fault Refusal := ((Run.start s).sweepEnd 0x11).done

/-! ### The mailbox registers -/

/-- A requester may write ADDR of mailbox w (R352). -/
def Run.mbxMay (r : Run s0) (q : Requester) (w : Nat) : Bool :=
  match w with
  | 0 => isLark q
  | 1 => r.secure q
  | _ => r.normal q && !isLark q

/-- A write of ADDR of mailbox w is refused (R352, R392). -/
def Run.mbxDeny (r : Run s0) (q : Requester) (w : Nat) : Run s0 := (if w = 1 ∧ r.normal q then r.denyBy 1 q else r).logDenied .fox q

/-- A requester that may leaves `new` in ADDR of mailbox w (R353): submitted, or rejected while BUSY. -/
def Run.wMbx (r : Run s0) (q : Requester) (w : Nat) (new : Word) : Run s0 :=
  if r.on (MBX_STAT_BUSY w) then
    (if Word.bits new 51 7 = r.fld (MBX_ADDR_ADDR w) then r else r.setFld (MBX_STAT_CFG_REJECT w) 1)
  else
    let r := (r.setReg (MBX_ADDR w) new).setFld (MBX_STAT_BUSY w) 1
    let r := if r.1.fox.cmds.isEmpty then r.foxDraw else r
    let r := r.bufferPass 16 92 none
    r.act (.fox { r.1.fox with cmds := r.1.fox.cmds ++ [(w, Word.bits new 51 7 * 128, q)] })

/-- An 8-byte read of FOX.REKEYQ removes the oldest entry (R361, R497). -/
def Run.rekeyPop (r : Run s0) : Run s0 :=
  let left := r.1.fox.rekey.drop 1
  let r := r.act (.fox { r.1.fox with rekey := left })
  (r.setFld FOX_REKEYQ_EMPTY (if left.isEmpty then 1 else 0)).setFld FOX_REKEYQ_INDEX (left.headD 0)

/-! ### Entropy and alarms -/

/-- The field that says a noise source is in use. -/
def srcOk (i : Nat) : FRef := if i = 0 then FOX_TRNG_STAT_SRC0OK else FOX_TRNG_STAT_SRC1OK

/-- ENTROPY_HEALTH_FAILURE (R343): the source is out of use; both failing together is source 7. -/
def execEntropyHealthFailure (src : Fin 2) (s : State) : Host.Outcome State Fault Refusal :=
  let r := Run.start s
  if !r.on (srcOk src) then r.done
  else
    let r := (r.setFld (srcOk src) 0).addSat (if src = 0 then FOX_TRNG_STAT_FAILS0 else FOX_TRNG_STAT_FAILS1) 1
    (if r.on (srcOk (1 - src.val)) then r.alarm 6 false 0 else r.alarm 7 true 0).done

/-- ENTROPY_SOURCE_RETURN (R343). -/
def execEntropySourceReturn (src : Fin 2) (s : State) : Host.Outcome State Fault Refusal := ((Run.start s).setFld (srcOk src) 1).done

/-- DRBG_RESEED (R345): what the DRBG gives from now on is a new free value. -/
def execDrbgReseed (s : State) : Host.Outcome State Fault Refusal :=
  let r := Run.start s
  (if r.on FOX_TRNG_STAT_DRBGOK then r.fresh.1 else r).done

/-- MASK_RESEED (R362): the mask generators take new DRBG output; the values that the shares stand for do not change. -/
def execMaskReseed (s : State) : Host.Outcome State Fault Refusal :=
  let r := Run.start s
  (if r.on FOX_TRNG_STAT_DRBGOK then r.fresh.1 else r).done

/-- MESH_PATTERN_RENEW (R367): the DRBG sets a new pattern on the active mesh. -/
def execMeshPatternRenew (s : State) : Host.Outcome State Fault Refusal :=
  let r := Run.start s
  (if r.on FOX_TRNG_STAT_DRBGOK then r.fresh.1 else r).done

/-- The class of an alarm source (R367). -/
def Run.classA (r : Run s0) (src : Nat) : Bool :=
  match src with
  | 1 => r.on ALARM_POLICY_SUPPLY_A
  | 2 => r.on ALARM_POLICY_TEMP_A
  | 4 => r.on ALARM_POLICY_DEBUG_A
  | 6 => false
  | _ => true

/-- DETAIL of an alarm's log entry (R371): only sources 2, 3 and 5 give one. -/
def alarmDetail (src : Nat) (d : BitVec 32) : Nat := if src = 2 ∨ src = 3 ∨ src = 5 then d.toNat else 0

/-- ALARM (R367 to R369). -/
def execAlarm (src : Fin 8) (detail : BitVec 32) (s : State) : Host.Outcome State Fault Refusal :=
  let r := Run.start s
  (if src = 0 then r else r.alarm src (r.classA src) (alarmDetail src detail)).done

/-- CLASS_B_REPEAT (R368): a class B condition has lasted another second. -/
def execClassBRepeat (src : Fin 8) (detail : BitVec 32) (s : State) : Host.Outcome State Fault Refusal :=
  let r := Run.start s
  (if src = 0 ∨ r.classA src ∨ !r.bit ALARM_STAT_SEEN (src - 1) then r else r.alarm src false (alarmDetail src detail)).done

end Sys2Proof.Machine
end

