-- ==== Sys2Proof/Machine/Gates.lean ====
section
/-! DEFINITION. The gates of enclaves, core switches, interrupted departures and debug halts (R382 to R388, R390). -/
namespace Sys2Proof.Machine

variable {s0 : State}

/-- The first condition of R383 that fails, as the status that DW.GATEIN writes. -/
def Run.gateRefusal (r : Run s0) (h : Nat) (w : Word) : Option Nat :=
  let e := Word.bits w 6 0
  let t := Word.bits w 11 8
  let resume := w.getLsbD 16
  let n := tileOf h
  let ceid := (r.tile n).ceid
  let others := (List.range 4).any fun i =>
    let o := n * 4 + i
    o != h && (r.hart o).run == .running && (r.hart o).eid == 0
  if e = 0 ∨ 64 < e ∨ w &&& ~~~ (fieldMask 6 0 ||| fieldMask 11 8 ||| fieldMask 16 16) ≠ 0 then some stDenied
  else if r.fld (ENC_STAT_STATE e) ≠ 2 ∨ r.fld (ENC_STAT_NTHR e) < t then some stDenied
  else if r.bit (ENC_STAT_TLOST e) t then some stAborted
  else if !resume && (r.bit (ENC_STAT_TBUSY e) t || r.bit (ENC_STAT_TSUSP e) t) then some stBusy
  else if resume && !r.bit (ENC_STAT_TSUSP e) t then some stBusy
  else if (ceid ≠ 0 ∧ ceid ≠ e) ∨ others then some stBusy
  else none

/-- An accepted DW.GATEIN (R384). A save block that reads as poison is consumed as by a load of the thread. -/
def Run.gateEnter (r : Run s0) (h rd : Nat) (w arg : Word) : Run s0 :=
  let e := Word.bits w 6 0
  let t := Word.bits w 11 8
  let n := tileOf h
  let c : Caller := { pc := (r.hart h).pc + 4, mode := (r.hart h).mode, rd := rd, xs := savedSet.map fun i => r.xr h i }
  let r := (r.setThread ENC_STAT_TBUSY e t true).setThread ENC_STAT_TSUSP e t false
  let r := if (r.tile n).ceid = 0 then r.startSwitch n e else r
  let r := (r.modHart h fun x => { x with eid := e, thread := t, saved := some c, mode := .u, tlb := [] }).showHart h
  if w.getLsbD 16 then
    let p := r.readContext h e t
    let r := p.1.loadContext h p.2
    match p.2.find? (·.2.2) with
    | some x => r.consume h 0 x.1 (BitVec.ofNat 64 (x.1.toNat * 64))
    | none => r
  else
    let r := ((r.zeroContext h).setXr h 10 arg).setXr h 11 (BitVec.ofNat 64 t)
    r.modHart h fun x => { x with pc := r.reg (ENC_ENTRY e) }

/-- DW_GATEIN (R382 to R384). -/
def Run.dwGatein (r : Run s0) (h : Fin 1024) (rd rs1 rs2 : Fin 32) (f7 : BitVec 7) : Run s0 :=
  let t := r.hart h
  if !r.ready h then r
  else if rd = 11 ∨ f7 ≠ 0 then r.illegal h
  else if t.mode.virt then r.virtInstr h
  else if t.mode = .m ∨ t.mode = .debug ∨ t.eid ≠ 0 then r.illegal h
  else
    let w := r.xr h rs1
    match r.gateRefusal h w with
    | some st => (r.setXr h rd (BitVec.ofNat 64 st)).retire h
    | none => (r.gateEnter h rd w (r.xr h rs2)).pokeHart h

/-- DW_GATEIN (R382 to R384). A refusal with ST_DENIED leaves no record (DESIGN CHOICE, log entry 99: R383 gives the instruction no other
effect, R10 and event 0x0903 name refusals in general). -/
def execDwGatein (h : Fin 1024) (rd : Fin 32) (rs1 : Fin 32) (rs2 : Fin 32) (f7 : BitVec 7) (s : State) : Host.Outcome State Fault Refusal := ((Run.start s).dwGatein h rd rs1 rs2 f7).done

/-- DW_GATEOUT (R385, R387). -/
def Run.dwGateout (r : Run s0) (h : Fin 1024) (rd rs1 : Fin 32) (imm : BitVec 12) : Run s0 :=
  let t := r.hart h
  if !r.ready h then r
  else if rd ≠ 0 ∨ imm ≠ 0 ∨ t.eid = 0 then r.illegal h
  else
    let v := r.xr h rs1
    let e := t.eid
    let r := (r.setThread ENC_STAT_TBUSY e t.thread false).restoreCaller h stOk v
    ((r.modHart h fun x => { x with resv := none, lrDelay := none }).leaveCore (tileOf h) e).pokeHart h

/-- DW_GATEOUT (R385, R387). -/
def execDwGateout (h : Fin 1024) (rd : Fin 32) (rs1 : Fin 32) (imm : BitVec 12) (s : State) : Host.Outcome State Fault Refusal := ((Run.start s).dwGateout h rd rs1 imm).done

/-- CORE_SWITCH_DONE (R388): the merging buffers have drained and nothing is out; the caches are clean and empty, and no
translation or reservation is left. While a store or miss of the core is still out the switch goes on. -/
def execCoreSwitchDone (n : Fin 256) (s : State) : Host.Outcome State Fault Refusal :=
  let r := Run.start s
  if !(r.tile n).switching then r.done
  else
    let r := (List.range 4).foldl (fun r i => r.startDrain (n * 4 + i)) r
    let t := r.tile n
    if !t.smb.isEmpty || !t.sq.isEmpty || !t.miss.isEmpty then r.done
    else
      let r := r.sweepL2 n
      let r := (List.range 4).foldl (fun r i =>
        let h := n.val * 4 + i
        (r.modHart h fun x => { x with tlb := [], resv := none, lrDelay := none }).pokeHart h) r
      (r.modTile n fun t => { t with switching := false }).done

/-- INTERRUPTED_DEPARTURE (R386). -/
def execInterruptedDeparture (h : Fin 1024) (t : TrapCause) (s : State) : Host.Outcome State Fault Refusal :=
  let r := Run.start s
  if (r.hart h).eid = 0 ∨ !r.ready h then r.done
  else (r.trap h { cause := t.cause.toNat, intr := t.intr, tval := t.tval }).done

/-- A debug halt request reaches a hart (R82, R390, R422): at once, at the end of the instruction in progress, or, at a nonzero enclave ID without the rights HART and
SECURE, at its next exit from the enclave. A held hart and one that FATAL has halted do not halt. -/
def Run.haltRequest (r : Run s0) (h : Nat) : Run s0 :=
  let t := r.hart h
  let secure := r.1.fox.rights.getLsbD 0 && r.1.fox.rights.getLsbD 1
  if t.run = .held ∨ t.run = .fatal ∨ t.mode = .debug then r
  else if (t.eid ≠ 0 ∧ !secure) ∨ t.wait.isSome then r.modHart h fun x => { x with dbgPend := true }
  else r.enterDebug h

/-- DEBUG_HALT_REQUEST (R390). -/
def execDebugHaltRequest (h : Fin 1024) (s : State) : Host.Outcome State Fault Refusal := ((Run.start s).haltRequest h).done

end Sys2Proof.Machine
end

