-- ==== Sys2Proof/Machine/Image.lean ====
section
/-! DEFINITION. The Vewell image: its header, its checks and its records (R399 to R404), and the signatures of images and
tokens (R400). -/
namespace Sys2Proof.Machine

/-- b to the power e modulo m, for an exponent of n bits. -/
def powMod (b e m n : Nat) : Nat :=
  (List.range n).foldr (fun i acc => (acc * acc % m) * (if natBit e i then b else 1) % m) (1 % m)

/-- MGF1 with SHA-512 (R400): n bytes of mask. -/
def mgf1 (seed : List Byte) (n : Nat) : List Byte :=
  ((List.range ((n + 63) / 64)).flatMap fun i => sha512 (seed ++ bytesBE 4 i)).take n

/-- Verification of RSASSA-PSS with SHA-512, MGF1 with SHA-512 and a 64-byte salt under the modulus n and exponent 65,537 (R400). -/
def pssVerify (n : Nat) (sig msg : List Byte) : Bool :=
  let s := natBE sig
  let emBits := n.log2
  let emLen := (emBits + 7) / 8
  let em := bytesBE emLen (powMod s 65537 n 17)
  let dbLen := emLen - 65
  let h := (em.drop dbLen).take 64
  let clear := 8 * emLen - emBits
  let masked := em.take dbLen
  let db := bytesBE dbLen (natBE (xorBytes masked (mgf1 h dbLen)) % 2 ^ (8 * dbLen - clear))
  let zeros := dbLen - 65
  let salt := db.drop (zeros + 1)
  decide (s < n) && decide (130 ≤ emLen) && em.getLast? == some 0xBC && decide (natBE masked < 2 ^ (8 * dbLen - clear))
    && (db.take zeros).all (· == 0) && (db.drop zeros).head? == some 1
    && sha512 (List.replicate 8 0 ++ sha512 msg ++ salt) == h

/-- n bytes from byte lo. -/
def span (bs : List Byte) (lo n : Nat) : List Byte := (bs.drop lo).take n

/-- The little-endian number in n bytes from byte lo. -/
def at_ (bs : List Byte) (lo n : Nat) : Nat := natLE (span bs lo n)

/-- A record of an image: its type, instance and whole bytes (R402). -/
structure VRec where
  type : Nat
  inst : Nat
  bytes : List Byte
deriving DecidableEq, Repr

/-- The header names ML-DSA-87 fields (R399). -/
def imgMl (b : List Byte) : Bool := natBit (at_ b 32 2) 0

/-- IMGLEN. -/
def imgLen (b : List Byte) : Nat := at_ b 8 4

/-- HDRLEN. -/
def imgHdr (b : List Byte) : Nat := at_ b 6 2

/-- The header as the check of cause 0x3 asks (R398, R399, R401). -/
def headerOk (b : List Byte) : Bool :=
  at_ b 0 4 == 0x314C5756 && at_ b 4 2 == 1 && at_ b 32 2 / 4 == 0 && at_ b 35 29 == 0
  && imgHdr b == (if imgMl b then 0x2080 else 0x440)
  && imgLen b % 8 == 0 && decide (imgHdr b ≤ imgLen b) && decide (imgLen b ≤ 2 ^ 24) && decide (imgLen b ≤ b.length)
  && (!imgMl b || at_ b 8307 13 == 0)

/-- The length that R404 gives a record of a type, and the instances it may have; none for an unknown type. -/
def recordOk (type inst len : Nat) (bytes : List Byte) : Option Bool :=
  match type with
  | 0x0001 => some (inst == 0 && decide (len ≤ 16 + 384 * 1024))
  | 0x0002 => some (inst == 0 && decide (24 ≤ len) && decide (len ≤ 24 + 1024 * 1024))
  | 0x0003 => some (inst == 0 && decide (32 ≤ len))
  | 0x0004 => some (inst == 0 && decide (24 ≤ len))
  | 0x0010 => some (inst == 0 && len == 24 && decide (at_ bytes 16 1 ≤ 2))
  | 0x0011 => some (decide (inst < 24) && decide (1 ≤ at_ bytes 40 1) && decide (at_ bytes 40 1 ≤ 64) && len == 48 + 8 * at_ bytes 40 1)
  | 0x0012 => some (decide (inst < 72) && len == 688)
  | 0x0013 => some (decide (inst < 24) && len == 32)
  | 0x0014 => some (decide (inst < 16) && len == 32)
  | 0x0015 => some (decide (inst < 32) && len == 32)
  | 0x0016 => some (decide (inst < 32) && len == 32)
  | 0x0017 => some (inst == 0 && len == 32)
  | 0x0018 => some (inst == 0 && len == 32)
  | 0x0019 => some (inst == 0 && decide (56 ≤ len) && decide (len ≤ 168) && len % 16 == 8)
  | 0x001A => some (inst == 0 && len == 104)
  | 0x001B => some ((decide (inst < 16) || inst == 0xFFFF) && len == 288)
  | 0x0020 => some (inst == 0 && len % 16 == 0)
  | _ => none

/-- The records from `b` on, none where R403 is broken: `n` bounds their number. -/
def parseRecords : Nat → List Byte → Option (List VRec)
  | 0, b => if b.isEmpty then some [] else none
  | n + 1, b =>
    if b.isEmpty then some []
    else
      let type := at_ b 0 2
      let len := at_ b 4 4
      let flags := at_ b 8 2
      let inst := at_ b 10 2
      let ok := decide (16 ≤ len) && decide (len ≤ b.length) && len % 8 == 0 && at_ b 2 2 == 1 && decide (flags ≤ 1) && at_ b 12 4 == 0
      let known := match recordOk type inst len b with
        | some x => x
        | none => flags == 0
      if ok && known then (parseRecords n (b.drop len)).map ({ type := type, inst := inst, bytes := b.take len } :: ·) else none

/-- The records of an image that R403 accepts. -/
def imgRecords (b : List Byte) : Option (List VRec) :=
  match parseRecords (at_ b 12 4) (span b (imgHdr b) (imgLen b - imgHdr b)) with
  | none => none
  | some rs =>
    let names := rs.map fun x => (x.type, x.inst)
    if rs.length = at_ b 12 4 ∧ names.Nodup ∧ (1, 0) ∈ names ∧ (2, 0) ∈ names ∧ (3, 0) ∈ names then some rs else none

/-- The first record of a type. -/
def findRec (rs : List VRec) (type : Nat) : Option VRec := rs.find? fun (x : VRec) => x.type == type

/-- The signed message of an image (R400). -/
def imgMessage (b : List Byte) : List Byte := span b 0 64 ++ span b (imgHdr b) (imgLen b - imgHdr b)

/-- The checks of R401 in the order of their causes, with the programmed bits of the SVN fuse: the cause of the first that fails, or the records. -/
def imgCheck (svn : Nat) (baseline : Word) (b : List Byte) : Except Nat (List VRec) :=
  let key := at_ b 34 1
  let rsan := span b 64 512
  let hash := Config.rsaKeyHash key
  let ml := imgMl b
  if !headerOk b then .error 3
  else if 4 ≤ key ∨ hash = 0 ∨ bytesLE 64 hash.toNat ≠ sha512 rsan ∨ Config.keyRevoke.getLsbD key then .error 4
  else if !pssVerify (natBE rsan) (span b 576 512) (imgMessage b) then .error 5
  else if (Config.mldsaReq ∧ !ml) ∨ (ml ∧ (bytesLE 64 (Config.mlKeyHash key).toNat ≠ sha512 (span b 1088 2592)
      ∨ !Config.mldsaVerify (span b 1088 2592) (span b 3680 4627) (imgMessage b))) then .error 6
  else if at_ b 16 8 < min 64 svn then .error 7
  else if at_ b 24 8 ≠ baseline.toNat then .error 8
  else match imgRecords b with
    | none => .error 9
    | some rs => .ok rs

end Sys2Proof.Machine
end

