-- ==== Sys2Proof/Machine/Channels.lean ====
section
/-! DEFINITION. Memory channels: start, delay bands, refresh, self-refresh, scrub, alerts, and the interleave sets' registers
(R222 to R253). Times within a channel are those of the commands that end them. -/
namespace Sys2Proof.Machine

variable {s0 : State}

/-- A channel record that concerns a DIMM and no location (R250, R454). -/
def Run.mcEvent (r : Run s0) (c event : Nat) (cls : Cls) (dimm : Nat) : Run s0 :=
  r.logRec (.mc c) { event := event, cls := cls, detail := detailBytes 33 1 dimm ||| detailBytes 44 1 0xFF }

/-- The geometry describes DIMMs that a channel supports (R224): no reserved value, two DIMMs at 6,400 MT/s or less, and at most
256 GiB on a DIMM. -/
def geomOk (g : Word) : Bool :=
  Word.bits g 10 8 != 7 && Word.bits g 4 3 != 3 && Word.bits g 1 0 != 3 && !(g.getLsbD 5 && decide (4 < Word.bits g 10 8))
  && decide (19 + 16 + Word.bits g 1 0 + Word.bits g 2 2 + Word.bits g 4 3 ≤ 38)

/-- A write of MC.GEOM (R224). -/
def Run.wGeom (r : Run s0) (c : Nat) (new : Word) : Run s0 :=
  if geomOk new then r.setReg (MC_GEOM c) new else r.setFld (MC_STATUS_CFG_REJECT c) 1

/-- The chip selects that MC.GEOM describes, as bits DIMM × 2 + CS (R226). -/
def Run.chipSelects (r : Run s0) (c : Nat) : Nat :=
  let one := if r.on (MC_GEOM_RANKS c) then 3 else 1
  if r.on (MC_GEOM_DPC c) then one * 5 else one

/-- An entry of MRSEQ that takes effect (R226). -/
def Run.mrTakes (r : Run s0) (c n : Nat) : Bool :=
  r.on (MC_MRSEQ_V c n) && r.on (MC_MRSEQ_SCMASK c n) && (r.fld (MC_MRSEQ_CSMASK c n) &&& r.chipSelects c != 0)
  && decide (r.fld (MC_MRSEQ_DEV c n) ≤ 9)

/-- The listed entries of MRSEQ: up to the first with V = 0 (R226). -/
def Run.mrList (r : Run s0) (c : Nat) : List Nat := (List.range 64).takeWhile fun n => r.on (MC_MRSEQ_V c n)

/-- A write of MC.CTL (R225, R227 step 1): a reserved RFMODE is ignored; RUN starts the channel when the delay sets are valid and
mode register 0 is written by the list, and the write is otherwise ignored. Self-refresh kept since a warm reset ends (R253). -/
def Run.wMcCtl (r : Run s0) (c : Nat) (new : Word) : Run s0 :=
  let starts := new.getLsbD 0 && !r.on (MC_CTL_RUN c)
  let mr0 := (r.mrList c).any fun n => r.mrTakes c n && r.fld (MC_MRSEQ_MRNUM c n) == 0
  if starts && !(Word.bits new 3 1 == 7 && mr0) then r.setFld (MC_STATUS_CFG_REJECT c) 1
  else
    let bad := 2 ≤ Word.bits new 5 4
    let w := if bad then Word.setBits new 5 4 (r.fld (MC_CTL_RFMODE c)) else new
    let r := if bad then r.setFld (MC_STATUS_CFG_REJECT c) 1 else r
    let r := r.setReg (MC_CTL c) w
    if starts then
      let r := ((r.setFld (MC_STATUS_INIT c) 1).setFld (MC_STATUS_SR c) 0).setFld (MC_STATUS_BAND c) 0
      r.wakeDom (domChan c)
    else r

/-- A start step fails (R227). -/
def Run.chanFails (r : Run s0) (c : Nat) : Run s0 := (r.setFld (MC_STATUS_INIT c) 4).mcEvent c 0x0606 .ucna 0

/-- The delay band for a temperature (R234), from the present band. -/
def bandOf (cur : Nat) (t low high hyst : Int) : Nat :=
  let up := if high ≤ t then 2 else if low ≤ t then 1 else 0
  if cur ≤ up then up
  else if cur = 2 ∧ high - hyst ≤ t then 2
  else if t < low - hyst then 0
  else 1

/-- The thermal sensors of a channel are read (R234), sensor i of slot i / 2: silent ones are counted, and the third silence in
succession is recorded. The band wanted follows the highest reading, or is 2 while a sensor is silent. -/
def Run.readSensors (r : Run s0) (c : Nat) (ts : List (Option Int)) : Run s0 × Nat :=
  let old := (r.chan c).silent
  let now := (List.range ts.length).map fun i => if (ts.getD i none).isSome then 0 else min (old.getD i 0 + 1) 3
  let r := r.modChan c fun x => { x with silent := now }
  let r := (List.range now.length).foldl (fun r i =>
    if now.getD i 0 = 3 ∧ old.getD i 0 ≠ 3 then r.mcEvent c 0x0605 .ce (i / 2) else r) r
  let cur := r.fld (MC_STATUS_BAND c)
  let b := if now.any (· == 3) then 2
    else match ts.filterMap id with
      | [] => cur
      | t :: rest => bandOf cur (rest.foldl max t) (r.fld (MC_BANDCTL_LOW c)) (r.fld (MC_BANDCTL_HIGH c)) (r.fld (MC_BANDCTL_HYST c))
  (r, b)

/-- The doubled-refresh band holds while a rank asks for it or a sensor is silent (R234, R238); on entering it every owed refresh
issues. -/
def Run.setDref (r : Run s0) (c : Nat) : Run s0 :=
  let on := (r.chan c).mr4 || (r.chan c).silent.any (· == 3)
  let was := r.on (MC_STATUS_DREF c)
  let r := r.setFld (MC_STATUS_DREF c) (if on then 1 else 0)
  if on ∧ !was then (r.setFld (MC_STATUS_OWEDA c) 0).setFld (MC_STATUS_OWEDB c) 0 else r

/-- CHANNEL_POWERUP_DONE (R227 step 3): the sensors choose the delay set, and the mode registers are written. A channel whose domain
has not woken has not begun its power-up. -/
def execChannelPowerupDone (c : Fin 24) (ok : Bool) (t : List (Option Int)) (s : State) : Host.Outcome State Fault Refusal :=
  let r := Run.start s
  if r.fld (MC_STATUS_INIT c) ≠ 1 ∨ r.on (DOM_STAT_STATE (domChan c)) then r.done
  else if !ok then (r.chanFails c).done
  else
    let p := (r.setFld (MC_STATUS_INIT c) 2).readSensors c t
    (p.1.setFld (MC_STATUS_BAND c) p.2).done

/-- CHANNEL_INIT_DONE (R227 step 4): refresh starts, and the channel accepts requests. -/
def execChannelInitDone (c : Fin 24) (ok : Bool) (s : State) : Host.Outcome State Fault Refusal :=
  let r := Run.start s
  if r.fld (MC_STATUS_INIT c) ≠ 2 then r.done
  else if !ok then (r.chanFails c).done
  else (((r.setFld (MC_STATUS_INIT c) 3).setDref c).chanRelease c).done

/-- The channel runs and its DRAM is out of self-refresh. -/
def Run.chanRuns (r : Run s0) (c : Nat) : Bool := r.fld (MC_STATUS_INIT c) == 3 && !r.on (MC_STATUS_SR c)

/-- DIMM_THERMAL_POLL (R234). -/
def execDimmThermalPoll (c : Fin 24) (t : List (Option Int)) (s : State) : Host.Outcome State Fault Refusal :=
  let r := Run.start s
  if r.fld (MC_STATUS_INIT c) ≠ 3 then r.done
  else
    let p := r.readSensors c t
    let r := p.1.modChan c fun x => { x with target := if p.2 = p.1.fld (MC_STATUS_BAND c) then none else some p.2 }
    (r.setDref c).done

/-- One due refresh of a subchannel is issued. -/
def Run.payRefresh (r : Run s0) (f : FRef) : Run s0 := if r.on f then r.setFld f (r.fld f - 1) else r

/-- BAND_SWITCH_WINDOW (R235): the new set is applied within a refresh of every rank, which counts as a due one. -/
def execBandSwitchWindow (c : Fin 24) (s : State) : Host.Outcome State Fault Refusal :=
  let r := Run.start s
  match (r.chan c).target with
  | some b =>
    if r.chanRuns c && !(r.chan c).window && !(r.chan c).alert then
      let r := (r.modChan c fun x => { x with target := none, window := true }).setFld (MC_STATUS_BAND c) b
      ((r.payRefresh (MC_STATUS_OWEDA c)).payRefresh (MC_STATUS_OWEDB c)).done
    else r.done
  | none => r.done

/-- BAND_SWITCH_RESUME (R235). -/
def execBandSwitchResume (c : Fin 24) (s : State) : Host.Outcome State Fault Refusal :=
  let r := Run.start s
  if (r.chan c).window then ((r.modChan c fun x => { x with window := false }).chanRelease c).done else r.done

/-- OWED of a subchannel (R238, R251). -/
def owed (c sub : Nat) : FRef := if sub = 0 then MC_STATUS_OWEDA c else MC_STATUS_OWEDB c

/-- REFRESH_INTERVAL_END (R238): the due refresh issues, or is postponed while requests wait for the subchannel; at OWED = 4 one is
issued for it. -/
def execRefreshIntervalEnd (c : Fin 24) (sub : Fin 2) (waits : Bool) (s : State) : Host.Outcome State Fault Refusal :=
  let r := Run.start s
  if !r.chanRuns c ∨ !waits ∨ !r.on (MC_REFCTL_PPEN c) ∨ r.on (MC_STATUS_DREF c) then r.done
  else (r.setFld (owed c sub) (min (r.fld (owed c sub) + 1) 4)).done

/-- OWED_REFRESH_ISSUE (R238): no request waits, and owed refreshes issue until none is left. -/
def execOwedRefreshIssue (c : Fin 24) (sub : Fin 2) (s : State) : Host.Outcome State Fault Refusal :=
  let r := Run.start s
  if r.chanRuns c && (r.chan c).held.isEmpty then (r.setFld (owed c sub) 0).done else r.done

/-- MR4_POLL (R238): `doubled` says whether any rank asks for refresh at twice the rate. -/
def execMr4Poll (c : Fin 24) (doubled : Bool) (s : State) : Host.Outcome State Fault Refusal :=
  let r := Run.start s
  if r.chanRuns c then ((r.modChan c fun x => { x with mr4 := doubled }).setDref c).done else r.done

/-- SELF_REFRESH_IDLE_TIMEOUT (R239): in idle-self-refresh mode, a channel without work issues its owed refreshes and SRE. -/
def execSelfRefreshIdleTimeout (c : Fin 24) (s : State) : Host.Outcome State Fault Refusal :=
  let r := Run.start s
  if r.chanRuns c && r.fld (MC_CTL_RFMODE c) == 1 && (r.chan c).held.isEmpty && !(r.chan c).window && !(r.chan c).alert then
    (((r.setFld (MC_STATUS_OWEDA c) 0).setFld (MC_STATUS_OWEDB c) 0).setFld (MC_STATUS_SR c) 1).done
  else r.done

/-- SELF_REFRESH_EXIT (R235, R239): for waiting requests, once the domain is on; a new delay set is applied before. The
self-refresh that FATAL began is not left (R472). -/
def execSelfRefreshExit (c : Fin 24) (s : State) : Host.Outcome State Fault Refusal :=
  let r := Run.start s
  let x := r.chan c
  if r.fld (MC_STATUS_INIT c) ≠ 3 ∨ !r.on (MC_STATUS_SR c) ∨ r.on (DOM_STAT_STATE (domChan c)) ∨ x.held.isEmpty ∨ r.1.pins.fatal then r.done
  else
    let r := match x.target with
      | some b => (r.modChan c fun x => { x with target := none }).setFld (MC_STATUS_BAND c) b
      | none => r
    ((r.setFld (MC_STATUS_SR c) 0).chanRelease c).done

/-- A write of MC.SCRUB (R248): a PERIOD of 0 is ignored. -/
def Run.wScrub (r : Run s0) (c : Nat) (new : Word) : Run s0 :=
  r.setReg (MC_SCRUB c) (if Word.bits new 15 8 = 0 then Word.setBits new 15 8 (r.fld (MC_SCRUB_PERIOD c)) else new)

/-- SCRUB_READ (R248): the line at POS is read and decoded, a corrected one is written back, and POS moves on. -/
def execScrubRead (c : Fin 24) (s : State) : Host.Outcome State Fault Refusal :=
  let r := Run.start s
  if !r.on (MC_SCRUB_EN c) ∨ r.chanHolds c then r.done
  else
    let la := r.fld (MC_SCRUB_POS c) * 64
    let r := (r.dramCode c la none).1
    (r.setFld (MC_SCRUB_POS c) (if la + 64 < r.capacity c then la / 64 + 1 else 0)).done

/-- DIMM_ALERT (R249): `again` says that the latest replay ended in this alert. After eight such replays in succession the channel
fails. -/
def execDimmAlert (c : Fin 24) (dimm : Fin 2) (again : Bool) (s : State) : Host.Outcome State Fault Refusal :=
  let r := Run.start s
  if r.fld (MC_STATUS_INIT c) ≠ 3 ∨ (r.chan c).alert then r.done
  else if again ∧ 8 ≤ (r.chan c).replays then
    ((r.setFld (MC_STATUS_INIT c) 4).fatal (.mc c)
      { event := 0x0604, cls := .fatal, detail := detailBytes 33 1 dimm ||| detailBytes 44 1 0xFF }).done
  else (r.modChan c fun x => { x with alert := true, replays := if again then x.replays else 0 }).done

/-- DIMM_ALERT_END (R249): the writes before the alert are replayed, and the replay is recorded. -/
def execDimmAlertEnd (c : Fin 24) (dimm : Fin 2) (s : State) : Host.Outcome State Fault Refusal :=
  let r := Run.start s
  if !(r.chan c).alert then r.done
  else
    let r := r.modChan c fun x => { x with alert := false, replays := x.replays + 1 }
    ((r.mcEvent c 0x0603 .ce dimm).chanRelease c).done

/-- The interval of each member channel that a set takes (R229), in GiB. -/
def Run.ilvSpan (r : Run s0) (i : Nat) : Nat × Nat :=
  let n := (setBits 24 (r.fld (ILV_SET_CFG_CHMASK i))).length
  (r.fld (ILV_SET_CFG_LOCALBASE i), r.fld (ILV_SET_CFG_LOCALBASE i) + r.fld (ILV_SET_CFG_SIZE i) / n)

/-- The first condition of R229 that fails for a set, with BASE as written; 0 if none does. -/
def Run.ilvCause (r : Run s0) (i base : Nat) : Nat :=
  let mask := r.fld (ILV_SET_CFG_CHMASK i)
  let chs := setBits 24 mask
  let grain := r.fld (ILV_SET_CFG_GRAIN i)
  let size := r.fld (ILV_SET_CFG_SIZE i)
  let x := r.ilvSpan i
  if chs.isEmpty ∨ grain < 8 ∨ 30 < grain then 1
  else if size = 0 ∨ size % chs.length ≠ 0 then 2
  else if 2 ^ 18 < base + size then 3
  else if chs.any fun c => r.fld (MC_STATUS_INIT c) != 3 || decide (r.capacity c < x.2 * 2 ^ 30) then 4
  else if (List.range 16).any fun j => j != i && r.on (ILV_SET_BASE_EN j) && (r.fld (ILV_SET_CFG_CHMASK j) &&& mask != 0)
      && decide ((r.ilvSpan j).1 < x.2) && decide (x.1 < (r.ilvSpan j).2) then 5
  else 0

/-- A write of ILV.SET[i].BASE (R229): enabling is checked, and a refused enable records its set and cause. -/
def Run.wIlvBase (r : Run s0) (i : Nat) (new : Word) : Run s0 :=
  if new.getLsbD 63 && !r.on (ILV_SET_BASE_EN i) then
    match r.ilvCause i (Word.bits new 47 30) with
    | 0 => r.setReg (ILV_SET_BASE i) new
    | k => ((r.setFld ILV_STATUS_CFG_REJECT 1).setFld ILV_STATUS_SET i).setFld ILV_STATUS_CAUSE k
  else r.setReg (ILV_SET_BASE i) new

/-- IOD_DOMAIN_WAKE_DONE (R425, R440): the ramp of a waking IOD domain ends; a channel serves what waits, unless its DRAM is in
self-refresh. -/
def execIodDomainWakeDone (dom : Fin 404) (s : State) : Host.Outcome State Fault Refusal :=
  let r := Run.start s
  if dom.val < 336 ∨ r.fld (DOM_STAT_STATE dom) ≠ 1 then r.done
  else
    let r := r.setFld (DOM_STAT_STATE dom) 0
    if dom.val < 360 then (r.chanRelease (dom - 336)).done else r.done

end Sys2Proof.Machine
end

