-- ==== Sys2Proof/Machine/Time.lean ====
section
/-! DEFINITION. The timebase and its receivers, tile monitors and the uncore counters (R38, R44 to R54, R488 to R490). -/
namespace Sys2Proof.Machine

variable {s0 : State}

/-- The count that a counter adds for a contribution of `c` (R480), and the condition to be compared with next. -/
def countMode (edge : Bool) (thresh c : Nat) (last : Bool) : Nat × Bool :=
  let cond := decide (max thresh 1 ≤ c)
  (if edge then (if cond && !last then 1 else 0) else if thresh = 0 then c else if thresh ≤ c then 1 else 0, cond)

/-- A hart that is neither held nor parked nor stopped: its core passes tokens for it (R36). -/
def Run.awake (r : Run s0) (h : Nat) : Bool := (r.hart h).run == .running || (r.hart h).run == .debug

/-- The uncore counters of one block take a tick (R488, R489): an overflow sets OVF[i], and where it was 0 sends the block's
interrupt write. `world` says whether the block belongs to the secure world, `who` names it. -/
def Run.pmuTick (r : Run s0) (b : Nat) (u : List UContrib) (world : Bool) (who : Option Nat) : Run s0 :=
  if !r.on (PMU_CTL_EN b) then r
  else
    (List.range 4).foldl (fun r i =>
      let ev := r.fld (PMU_EVT_EVENT b i)
      let k := if ev = 0 then 0 else if ev = 1 then 1 else
        u.foldl (fun a x => if x.base.toNat = b ∧ x.event.toNat = ev then a + x.n else a) 0
      let p := countMode (r.on (PMU_EVT_EDGE b i)) (r.fld (PMU_EVT_THRESH b i)) k (natBit (r.pmuLast b) i)
      let r := r.modPmuLast b fun v => natSetBits v i i (if p.2 then 1 else 0)
      if p.1 = 0 || (r.on (PMU_CTL_FRZOVF b) && r.on (PMU_CTL_OVF b)) then r
      else
        let v := r.fld (PMU_CNT_COUNT b i) + p.1
        let r := r.setFld (PMU_CNT_COUNT b i) (v % 2 ^ 64)
        if v < 2 ^ 64 then r
        else
          let was := r.bit (PMU_CTL_OVF b) i
          let r := r.setBit (PMU_CTL_OVF b) i true
          if was || !r.on (PMU_MSI_EN b) then r
          else
            let f := r.fresh
            f.1.msiTo world 16 (who.getD (f.2.toNat % 65536)) (f.1.fld (PMU_MSI_HART b)) (f.1.fld (PMU_MSI_FILE b)) (f.1.fld (PMU_MSI_IDENT b))) r

/-- The uncore counter blocks of a compute die (R488): L3 quadrants and its Rill end. -/
def diePmus (d : Nat) : List Nat := (List.range 4).map (fun q => dieBase d + 0x10001000 + q * 0x1000) ++ [dieBase d + 0x10010000]

/-- The uncore counter blocks of the IOD (R488) with the link group of each: home slices, channels, Rill ends, PHLOX, groups. -/
def iodPmus : List (Nat × Option Nat) :=
  (List.range 4).map (fun s => (0x10000A1000 + s * 0x1000, none)) ++ (List.range 24).map (fun c => (0x1000200000 + c * 0x10000, none))
  ++ (List.range 16).map (fun d => (0x10000B0000 + d * 0x1000, none)) ++ [(0x1000800000, none)]
  ++ (List.range 32).map (fun g => (0x1000400000 + g * 0x10000, some g))

/-- TIMEBASE_TICK (R48): the master count advances while REFCLK is present and in band, and the IOD's counters take the tick. The
watchdog counts down (R395). -/
def execTimebaseTick (u : List UContrib) (s : State) : Host.Outcome State Fault Refusal :=
  let r := Run.start s
  if !r.on TBASE_STAT_REFOK then r.done
  else
    let r := (r.addWrap TBASE_COUNT_COUNT 1).ioTick
    let r := match r.1.wdog with
      | some k => if r.1.pins.fatal then r else r.act (.wdog (some (k - 1)))
      | none => r
    (iodPmus.foldl (fun r b => r.pmuTick b.1 u ((b.2.map r.groupSecure).getD false) (b.2.map (· * 16))) r).done

/-- TICK (R49, R50, R53): a tick transition reaches a die. While its time is valid the copy advances, or an increment is
withheld; while it is lost the tick is counted for the recovery. A copy stays behind the master count by one at least: a tick that would bring it
closer is not there yet. -/
def execTick (d : Fin 16) (u : List UContrib) (s : State) : Host.Outcome State Fault Refusal :=
  let r := Run.start s
  if !r.on TBASE_STAT_REFOK || (r.on (RLINK_FAULTMAP_TICKP d) && r.on (RLINK_FAULTMAP_TICKS d)) then r.done
  else if r.on (TBRX_STATUS_LOST d) then
    (r.modRx d fun x => { x with relock := x.relock.map fun p => (p.1, p.2 + 1) }).done
  else
    let x := r.rx d
    if x.withhold = 0 ∧ r.count ≤ x.time.toNat + 1 then r.done
    else
    let r := if x.withhold ≠ 0 then r.setRx d { x with withhold := x.withhold - 1 }
      else (r.setRx d { x with time := x.time + 1 }).pokeDie d
    ((diePmus d).foldl (fun r b => r.pmuTick b u false none) r).done

/-- DETAIL of a record of the timebase receiver (R454). -/
def tbDetail (d copy set : Nat) : BitVec 256 := detailBytes 32 1 d ||| detailBytes 40 8 copy ||| detailBytes 48 8 set

/-- The measurement windows of a die's tiles begin anew as its time becomes valid: what passed while it was not lies in no window (R44, R53). -/
def Run.openWindows (r : Run s0) (d : Nat) : Run s0 :=
  (List.range 16).foldl (fun r t =>
    let n := d * 16 + t
    r.modTile n fun t => { t with tokens := 0, window := (r.rx d).time }) r

/-- SYNC_WORD (R50, R53): an intact sync word for count c completes, c being a multiple of 1,024 whose 72 ticks the IOD has sent (R221). A valid
copy moves forward to c + 72 or withholds the ticks it is ahead by; a lost one locks at the second of two words that are 1,024 counts and 1,024
ticks apart, and goes on from c + 72, but never back. -/
def execSyncWord (d : Fin 16) (c : Word) (s : State) : Host.Outcome State Fault Refusal :=
  let r := Run.start s
  let x := r.rx d
  let now := c + 72
  if c.toNat % 1024 ≠ 0 ∨ r.count ≤ now.toNat then r.done
  else if r.on (TBRX_STATUS_LOST d) then
    match x.relock with
    | some (c0, k) =>
      if c = c0 + 1024 ∧ k = 1024 then
        let r := r.setRx d { time := if x.time < now then now else x.time, withhold := (x.time.toNat - now.toNat), relock := none }
        ((((r.setFld (TBRX_STATUS_LOST d) 0).setBit TBASE_STAT_DIE_LOST d false).openWindows d).pokeDie d).done
      else (r.setRx d { x with relock := some (c, 0) }).done
    | none => (r.setRx d { x with relock := some (c, 0) }).done
  else if x.time = now then r.done
  else
    let r := (r.setFld (TBRX_STATUS_SLIP d) 1).logRec (.tbrx d)
      { event := 0x0400, cls := .ce, detail := tbDetail d x.time.toNat now.toNat }
    if x.time < now then ((r.setRx d { x with time := now }).pokeDie d).done
    else (r.setRx d { x with withhold := (x.time - now).toNat }).done

/-- A die declares its tick stream lost (R51): time freezes, LOST and TIME_INVALID are set, the loss is counted, recorded and
reported. -/
def Run.streamLost (r : Run s0) (d : Nat) : Run s0 :=
  if r.on (TBRX_STATUS_LOST d) then r
  else
    let r := ((r.setFld (TBRX_STATUS_LOST d) 1).setFld (TBRX_STATUS_TIME_INVALID d) 1).addSat (TBRX_STATUS_LOSS_CNT d) 1
    let r := r.modRx d fun x => { x with withhold := 0, relock := none }
    let r := r.logRec (.tbrx d) { event := 0x0401, cls := .ucna, detail := tbDetail d (r.rx d).time.toNat 0 }
    (r.setBit TBASE_STAT_DIE_LOST d true).pokeDie d

/-- TICK_STREAM_LOSS (R51). -/
def execTickStreamLoss (d : Fin 16) (s : State) : Host.Outcome State Fault Refusal := ((Run.start s).streamLost d).done

/-- The IOD repairs the stream onto the spare pair, or stops it where no pair remains (R221). -/
def Run.tickPairFault (r : Run s0) (d : Nat) : Run s0 :=
  if r.on (RLINK_STAT_TICKSPARE d) then (r.setFld (RLINK_FAULTMAP_TICKS d) 1).copyMap d
  else if r.on (RLINK_FAULTMAP_TICKS d) then (r.setFld (RLINK_FAULTMAP_TICKP d) 1).copyMap d
  else ((r.setFld (RLINK_FAULTMAP_TICKP d) 1).setFld (RLINK_STAT_TICKSPARE d) 1).copyMap d

/-- TICK_LOSS_REPORT (R221): no repair while REFOK = 0. -/
def execTickLossReport (d : Fin 16) (s : State) : Host.Outcome State Fault Refusal :=
  let r := Run.start s
  if r.bit TBASE_STAT_DIE_LOST d && r.on TBASE_STAT_REFOK then (r.tickPairFault d).done else r.done

/-- A tile stops issuing for low voltage (R35, R450): the delays of its harts' LRs end (R186), and the first halt of a window is recorded. -/
def Run.haltTile (r : Run s0) (n : Nat) : Run s0 :=
  if !r.tileOn n || (r.tile n).halted then r
  else
    let r := (r.modTile n fun t => { t with halted := true }).weirEvt WEIR_EVT_HALT
    let r := (List.range 4).foldl (fun r k => r.endDelay (n * 4 + k)) r
    if r.1.weir.haltSeen then r
    else (r.act (.weir { r.1.weir with haltSeen := true })).logRec .weir { event := 0x0A04, cls := .ce }

/-- The droop detector reads VCORE at a tile (R35, R46, R450): an excursion below THRESH counts as it begins, and below 0.48 V the tile halts. -/
def Run.readVcore (r : Run s0) (n v : Nat) : Run s0 :=
  let low := decide (v < r.fld (TMON_DROOP_THRESH n))
  let r := if low && !(r.tile n).below then r.addSat (TMON_DROOP_DCOUNT n) 1 else r
  let r := if (r.tile n).below = low then r else r.modTile n fun t => { t with below := low }
  let r := (r.setFld (TMON_DROOP_VNOW n) v).setFld (TMON_DROOP_VMIN n) (min v (r.fld (TMON_DROOP_VMIN n)))
  if v < 480 then r.haltTile n else r

/-- TMON_WINDOW_END (R44, R45, R47): a window ends when the die's time is a multiple of 1,024, and none while that time is invalid. TJMAX keeps
the highest TJ as a signed value. -/
def execTmonWindowEnd (n : Fin 256) (laps : BitVec 16) (tj : BitVec 16) (v : BitVec 10) (s : State) : Host.Outcome State Fault Refusal :=
  let r := Run.start s
  let now := (r.rx (dieOf n)).time
  if r.on (TBRX_STATUS_LOST (dieOf n)) ∨ now.toNat % 1024 ≠ 0 ∨ now = (r.tile n).window then r.done
  else
    let r := (r.setFld (TMON_PROC_LAPS n) laps.toNat).setFld (TMON_RATE_TOKENS n) (min (r.tile n).tokens 0xFFFF)
    let r := (r.modTile n fun t => { t with tokens := 0, window := now }).setFld (TMON_TEMP_TJ n) tj.toNat
    let top : BitVec 16 := BitVec.ofNat 16 (r.fld (TMON_TEMP_TJMAX n))
    let r := if top.slt tj then r.setFld (TMON_TEMP_TJMAX n) tj.toNat else r
    (r.readVcore n v.toNat).done

/-- DROOP_EXCURSION (R46): the droop detector of a tile reads VCORE, which may begin or end an excursion below THRESH. -/
def execDroopExcursion (n : Fin 256) (v : BitVec 10) (s : State) : Host.Outcome State Fault Refusal := ((Run.start s).readVcore n v.toNat).done

/-- REFCLK is judged lost (R54): REFOK clears, REFLOSS is set, the count holds, every die declares its tick stream lost (within the bound of
R51, which the model does not show), and FATAL is raised in Weir's bank. -/
def Run.refclkLost (r : Run s0) : Run s0 :=
  if !r.on TBASE_STAT_REFOK then r
  else ((List.range 16).foldl (fun r d => r.streamLost d) ((r.setFld TBASE_STAT_REFOK 0).setFld TBASE_STAT_REFLOSS 1)).fatal .weir { event := 0x0A00, cls := .fatal }

/-- REFCLK_LOSS (R54). -/
def execRefclkLoss (s : State) : Host.Outcome State Fault Refusal := (Run.start s).refclkLost.done

/-- VPLL_OUT_OF_RANGE (R512): judged as REFCLK loss. -/
def execVpllOutOfRange (s : State) : Host.Outcome State Fault Refusal := (Run.start s).refclkLost.done

end Sys2Proof.Machine
end

