-- ==== Sys2Proof/Machine/Weir.lean ====
section
/-! DEFINITION. Weir: what domains draw, window ends, the set-point and AVSBus, metered steps, gating, domain requests, brown-out and
the rails (R37, R424 to R452). -/
namespace Sys2Proof.Machine

variable {s0 : State}

/-! ### Rates and currents -/

/-- Linear interpolation through points in rising order, held at its ends. -/
def piecewise (x : Rat) : List (Rat × Rat) → Rat
  | [] => 0
  | [p] => p.2
  | p :: q :: ps =>
    if x ≤ p.1 then p.2
    else if x ≤ q.1 then p.2 + (q.2 - p.2) * (x - p.1) / (q.1 - p.1)
    else piecewise x (q :: ps)

/-- What a VCORE domain is, for R428. -/
inductive DomKind
  | tile | quad | bridge | fabric
deriving DecidableEq, Repr

/-- The largest VCORE current of a domain at a set-point in mV, in A (R428). -/
def maxCurrent (k : DomKind) (mv : Rat) : Rat :=
  piecewise mv (match k with
    | .tile => [(500, 45 / 100), (600, 62 / 100), (700, 82 / 100), (800, 105 / 100), (950, 140 / 100)]
    | .quad => [(500, 10 / 100), (600, 14 / 100), (700, 18 / 100), (800, 23 / 100), (950, 30 / 100)]
    | .bridge => [(500, 20 / 100), (600, 28 / 100), (700, 38 / 100), (800, 47 / 100), (950, 60 / 100)]
    | .fabric => [(500, 35 / 100), (600, 45 / 100), (700, 50 / 100), (800, 55 / 100), (950, 62 / 100)])

/-- TLR in ns (R436). -/
def localRamp (vmax slew : Nat) : Nat := max 500 (512 * 1000 * maxCurrent .tile vmax / slew).ceil.toNat

/-- A row of the rate table by Tj in °C: extrapolated below 60 °C down to 0 °C, held outside 0 to 100 °C (R37). -/
def rateAt (tj : Rat) (a b c : Rat) : Rat :=
  let t := if tj < 0 then 0 else tj
  if t ≤ 60 then a + (b - a) * (t - 25) / 35 else piecewise t [(60, b), (100, c)]

/-- The rate table of R37: token rate in Mtok/s for a VCORE in mV, Tj in units of 0.25 °C and a process code. -/
def tableRate (mv : Rat) (tj : Int) (code : Nat) : Rat :=
  let t : Rat := (tj : Rat) / 4
  let slow := piecewise mv [(500, rateAt t 1020 1090 1170), (600, rateAt t 1670 1740 1810), (700, rateAt t 2490 2490 2470),
    (800, rateAt t 3230 3170 3070), (900, rateAt t 3800 3690 3550), (950, rateAt t 4080 3960 3800)]
  let typ := piecewise mv [(500, rateAt t 1300 1400 1500), (600, rateAt t 2020 2100 2180), (700, rateAt t 2900 2900 2870),
    (800, rateAt t 3670 3600 3490), (900, rateAt t 4270 4150 3980), (950, rateAt t 4530 4400 4220)]
  let fast := piecewise mv [(500, rateAt t 1560 1680 1800), (600, rateAt t 2340 2440 2530), (700, rateAt t 3280 3280 3240),
    (800, rateAt t 4080 4000 3880), (900, rateAt t 4700 4570 4380), (950, rateAt t 4940 4800 4600)]
  piecewise code [(16, slow), (32, typ), (48, fast)]

/-- Tj of a tile in units of 0.25 °C. -/
def Run.tileTj (r : Run s0) (n : Nat) : Int := (BitVec.ofNat 16 (r.fld (TMON_TEMP_TJ n))).toInt

/-- The set-point in force: 800 mV until Weir's first write (R512). -/
def Run.setPoint (r : Run s0) : Nat := if r.on WEIR_STAT_VSET then r.fld WEIR_STAT_VSET else 800

/-- The tokens that a tile's table rate gives in a window (R44, R431). -/
def Run.tableTokens (r : Run s0) (n : Nat) : Rat :=
  let v := r.fld (TMON_DROOP_VNOW n)
  tableRate (if v = 0 then r.setPoint else v) (r.tileTj n) (r.fld (TMON_PROC_PCODE n)) * 1024 / 100

/-- The admission of a tile that is on, under a cap, at a set-point (R437). -/
def Run.tileAdmission (r : Run s0) (n cap : Nat) (mv : Rat) : Rat :=
  let it := maxCurrent .tile mv
  let t := r.tableTokens n
  if cap = 0xFFFF ∨ t ≤ 0 then it else min it (it * cap / t)

/-- A domain's admission is in force: it is on, or being cleaned. -/
def Run.admitted (r : Run s0) (dom : Nat) : Bool := r.fld (DOM_STAT_STATE dom) == 0 || r.fld (DOM_STAT_STATE dom) == 2

/-- The admission of a compute-die domain as it would be on, at a set-point. -/
def Run.domAdmission (r : Run s0) (dom : Nat) (mv : Rat) : Rat :=
  let i := dom % 21
  if i < 16 then r.tileAdmission (dom / 21 * 16 + i) (r.fld (TMON_RATE_CAP (dom / 21 * 16 + i))) mv
  else if i < 20 then maxCurrent .quad mv else maxCurrent .bridge mv

/-- The sum of the admissions in force, the fabrics among them (R428). -/
def Run.admissions (r : Run s0) (mv : Rat) : Rat :=
  (List.range 336).foldl (fun a dom => if r.admitted dom then a + r.domAdmission dom mv else a) (16 * maxCurrent .fabric mv)

/-- The bounds in force (R442). -/
def Run.boundNow (r : Run s0) : Word := r.1.weir.bound.getD (r.reg WEIR_BOUND)

/-- The ceiling of the sum of admissions: 400 A, the window power limit, and the ceiling under VRHOT# (R428, R430, R433). -/
def Run.admissionLimit (r : Run s0) : Rat :=
  let pceil := Word.bits r.boundNow 9 0
  let power : Rat := ((pceil + 100 - r.1.weir.iod : Nat) : Rat) * 1000 / r.setPoint
  let x := min 400 power
  match r.1.weir.vrhot with
  | some c => min x ((c : Rat) / 30000)
  | none => x

/-! ### Caps -/

/-- Change what Weir keeps beside its registers. -/
def Run.modWeir (r : Run s0) (f : Weir → Weir) : Run s0 := r.act (.weir (f r.1.weir))

/-- The tiles whose domains are on. -/
def Run.tilesOn (r : Run s0) : List Nat := (List.range 256).filter r.tileOn

/-- The cap of a tile in tokens: its table rate where it is not capped. -/
def Run.capNow (r : Run s0) (n : Nat) : Nat :=
  let c := r.fld (TMON_RATE_CAP n)
  if c = 0xFFFF then min 0xFFFE (r.tableTokens n).ceil.toNat else c

/-- Caps of tiles are lowered until the sum of admissions meets a limit: how the cut is shared is open, so the new caps are free
values, and a cut in one proportion stands in only where those would miss the limit. -/
def Run.cutTiles (r : Run s0) (ts : List Nat) (limit : Rat) : Run s0 :=
  let mv : Rat := r.setPoint
  let caps := ts.map fun n => (n, r.capNow n)
  let p := caps.foldl (fun (p : Run s0 × List (Nat × Nat)) c =>
    let q := p.1.fresh
    (q.1, p.2 ++ [(c.1, q.2.toNat % (c.2 + 1))])) (r, [])
  let apply (r : Run s0) (cs : List (Nat × Nat)) : Run s0 := cs.foldl (fun r c => r.setFld (TMON_RATE_CAP c.1) c.2) r
  let tried := apply p.1 p.2
  if tried.admissions mv ≤ limit then tried
  else
    let mine := ts.foldl (fun a n => a + r.tileAdmission n (r.fld (TMON_RATE_CAP n)) mv) 0
    let rest := r.admissions mv - mine
    let k : Rat := if mine ≤ 0 then 0 else max 0 (min 1 ((limit - rest) / mine))
    apply p.1 (caps.map fun c => (c.1, (k * c.2).floor.toNat))

/-- The sum of admissions is held to a limit (R430): first by tiles with no floor, then by all, which sets CEIL where one has a
floor. -/
def Run.holdSum (r : Run s0) (limit : Rat) : Run s0 :=
  let mv : Rat := r.setPoint
  if r.admissions mv ≤ limit then r
  else
    let ts := r.tilesOn
    let free := ts.filter fun n => !r.on (WEIR_TILE_REQ_FLOOR n)
    let least := r.admissions mv - free.foldl (fun a n => a + r.tileAdmission n (r.fld (TMON_RATE_CAP n)) mv) 0
    if least ≤ limit then r.cutTiles free limit
    else
      let r := r.cutTiles ts limit
      if ts.any fun n => r.on (WEIR_TILE_REQ_FLOOR n) then r.weirEvt WEIR_EVT_CEIL else r

/-- A metered increase is asked for (R437): it joins the step that forms next. -/
def Run.askStep (r : Run s0) (q : StepReq) : Run s0 := if q ∈ r.1.weir.next then r else r.modWeir fun w => { w with next := w.next ++ [q] }

/-! ### The set-point and AVSBus -/

/-- A raise of the set-point by 5 mV is asked for, where one is wanted and nothing stands in its way (R434, R437). -/
def Run.askRaise (r : Run s0) : Run s0 :=
  let v := r.setPoint
  let w := r.1.weir
  if v < w.target ∧ w.allow < v + 5 ∧ w.avs.isNone ∧ !(w.step.contains (.set (v + 5))) then r.askStep (.set (v + 5)) else r

/-- The lowest set-point of a list at which every tile with a floor and a hart that runs reaches it (R434). -/
def Run.floorsMet (r : Run s0) (mv : Nat) : Bool :=
  r.tilesOn.all fun n =>
    let runs := (List.range 4).any fun i => (r.hart (n * 4 + i)).run ∉ [.parked, .held]
    let f := r.fld (WEIR_TILE_REQ_FLOOR n)
    f == 0 || !runs || decide ((f : Rat) ≤ 97 / 100 * tableRate mv (r.tileTj n) (r.fld (TMON_PROC_PCODE n)))

/-- The set-points from VMIN to VMAX. -/
def Run.setPoints (r : Run s0) : List Nat :=
  (List.range 91).filterMap fun i =>
    let v := 500 + 5 * i
    if r.fld WEIR_CFG_VMIN ≤ v ∧ v ≤ r.fld WEIR_CFG_VMAX then some v else none

/-- Weir chooses the set-point (R434). Which one the power limits allow under POLICY 1 is open: a free value. -/
def Run.chooseSet (r : Run s0) : Run s0 :=
  let vs := r.setPoints
  let top := vs.getLastD 0
  if r.boundNow.getLsbD 25 then
    let p := r.fresh
    p.1.modWeir fun w => { w with target := vs.getD (p.2.toNat % vs.length) top }
  else match vs.find? r.floorsMet with
    | some v => r.modWeir fun w => { w with target := v }
    | none => (r.weirEvt WEIR_EVT_FLOORMISS).modWeir fun w => { w with target := top }

/-- An AVSBus frame fails (R435): after three retries in the window AVSERR is set, and one record made per failure period. While the
period lasts Weir tries once per window. -/
def Run.avsFail (r : Run s0) : Run s0 :=
  let w := r.1.weir
  if w.failing ∨ w.retries < 3 then r.modWeir fun w => { w with retries := w.retries + 1 }
  else
    let r := (r.weirEvt WEIR_EVT_AVSERR).setFld WEIR_STAT_AVSOK 0
    (r.logRec .weir { event := 0x0A03, cls := .ucna }).modWeir fun w => { w with failing := true, retries := w.retries + 1, avs := none }

/-- An AVSBus frame succeeds. -/
def Run.avsOk (r : Run s0) : Run s0 := (r.setFld WEIR_STAT_AVSOK 1).modWeir fun w => { w with failing := false, retries := 0 }

/-- Weir may send an AVSBus frame now: every start has passed step 7's POWER record, a failure period allows one per window, and the bus's clock
runs (R54). -/
def Run.avsTries (r : Run s0) : Bool := !r.1.pins.porst && r.on TBASE_STAT_REFOK && !(r.1.weir.failing && r.1.weir.retries != 0) && r.1.weir.retries ≤ 3

/-- WRITE_VOLTAGE (R434, R435): one 5 mV move towards the choice; a raise only once a step has admitted it. -/
def execWriteVoltage (ok : Bool) (s : State) : Host.Outcome State Fault Refusal :=
  let r := Run.start s
  let v := r.setPoint
  let w := r.1.weir
  let go := if w.target = 0 ∨ r.1.pins.fatal then none
    else if w.target < v then some (v - min 5 (v - w.target))
    else if v < w.target ∧ v + 5 ≤ w.allow then some (v + 5) else none
  match go with
  | none => r.done
  | some x =>
    if !r.avsTries || w.avs.isSome then r.done
    else
      let r := r.emit (.avs 0 x)
      if ok then ((r.avsOk.setFld WEIR_STAT_VSET x).modWeir fun w => { w with avs := some x }).done else r.avsFail.done

/-- A write of the set-point is complete (R435). -/
def Run.avsDone (r : Run s0) : Run s0 := (r.modWeir fun w => { w with avs := none }).askRaise

/-- AVS_WRITE_TIMEOUT (R435). -/
def execAvsWriteTimeout (s : State) : Host.Outcome State Fault Refusal :=
  let r := Run.start s
  if r.1.weir.avs.isSome then r.avsDone.done else r.done

/-- READ_VOLTAGE (R435). -/
def execReadVoltage (v : Option (BitVec 10)) (s : State) : Host.Outcome State Fault Refusal :=
  let r := Run.start s
  if !r.avsTries then r.done
  else match v with
    | some x => (((r.emit (.avs 0x30 0)).avsOk).setFld WEIR_STAT_VREAD x.toNat).done
    | none => (r.emit (.avs 0x30 0)).avsFail.done

/-- READ_CURRENT (R435). -/
def execReadCurrent (i : Option (BitVec 9)) (s : State) : Host.Outcome State Fault Refusal :=
  let r := Run.start s
  if !r.avsTries then r.done
  else match i with
    | some x => (((r.emit (.avs 0x32 0)).avsOk).setFld WEIR_STAT_IREAD x.toNat).done
    | none => (r.emit (.avs 0x32 0)).avsFail.done

/-- READ_STATUS (R435): whether the regulator reports the output voltage done, where the frame succeeds. -/
def execReadStatus (st : Option Bool) (s : State) : Host.Outcome State Fault Refusal :=
  let r := Run.start s
  if !r.avsTries then r.done
  else match st with
    | some d =>
      let r := (r.emit (.avs 0x3E 0)).avsOk
      if d && r.1.weir.avs.isSome then r.avsDone.done else r.done
    | none => (r.emit (.avs 0x3E 0)).avsFail.done

/-! ### Window ends -/

/-- The temperature limit at a tile (R431). -/
def Run.tileTemp (r : Run s0) (lim : Int) (n : Nat) : Run s0 :=
  let tj := r.tileTj n
  let table := r.tableTokens n
  let cap := r.fld (TMON_RATE_CAP n)
  if lim * 4 ≤ tj then
    let least := (table / 16).ceil.toNat
    (r.setFld (TMON_RATE_CAP n) (max least (r.fld (TMON_RATE_TOKENS n) * 7 / 8))).weirEvt WEIR_EVT_THERM
  else if tj < (lim - 2) * 4 ∧ cap ≠ 0xFFFF ∧ r.1.weir.vrhot.isNone then
    let v : Rat := cap + table / 8
    r.askStep (.cap n (if table ≤ v then 0xFFFF else v.floor.toNat))
  else r

/-- The highest Tj of any tile of an online die and of the IOD, as the 16 bits of HOTTJ (R445). -/
def Run.hottest (r : Run s0) (iod : BitVec 16) : BitVec 16 :=
  (List.range 256).foldl (fun a n =>
    let t : BitVec 16 := BitVec.ofNat 16 (r.fld (TMON_TEMP_TJ n))
    if r.online (n / 16) && a.slt t then t else a) iod

/-- WEIR_WINDOW_END (R427 to R434, R442, R448), at a count that is a multiple of 1,024: the measurements are shown, a write of BOUND takes effect, and Weir decides. How far a
power limit that was exceeded lowers the caps is open: a free value. -/
def execWeirWindowEnd (m : WeirMeas) (s : State) : Host.Outcome State Fault Refusal :=
  let r := Run.start s
  if r.1.pins.porst ∨ r.count % 1024 ≠ 0 ∨ r.count = r.1.weir.window then r.done
  else
    let r := r.modWeir fun w => { w with bound := none, iod := m.iod, haltSeen := false, retries := 0, window := r.count }
    let r := (r.setFld WEIR_STAT_PWR (min m.run 4095)).setFld WEIR_STAT_HOTTJ (r.hottest m.iodTj).toNat
    let r := (List.range 256).foldl (fun r n => if r.online (n / 16) && r.fld (TMON_DROOP_THRESH n) != 500 then r.setFld (TMON_DROOP_THRESH n) 500 else r) r
    if r.1.pins.fatal then r.done
    else
      let lim : Int := Word.bits r.boundNow 23 16
      let pceil := Word.bits r.boundNow 9 0
      let r := r.tilesOn.foldl (fun r n => r.tileTemp lim n) r
      let r := if lim * 4 ≤ m.iodTj.toInt then r.weirEvt WEIR_EVT_IODHOT else r
      let r := r.holdSum r.admissionLimit
      let r := r.chooseSet
      let exceeded := min (pceil + 100) 700 < m.pkg ∨ pceil < m.run ∨ 340 < m.vcore
      let r := if exceeded then
          let p := (r.weirEvt WEIR_EVT_CEIL).fresh
          let v := p.1.setPoint
          let r := p.1.modWeir fun w => { w with target := max (min w.target (v - 5)) (r.fld WEIR_CFG_VMIN) }
          r.holdSum (r.admissions v * (p.2.toNat % 65536 : Nat) / 65536)
        else r
      r.askRaise.done

/-- A write of WEIR.BOUND leaves `new` (R442). -/
def Run.wBound (r : Run s0) (new : Word) : Run s0 :=
  let p := Word.bits new 9 0
  let t := Word.bits new 23 16
  if p < 100 ∨ r.fld WEIR_CFG_PCEILMAX < p ∨ t < 70 ∨ 100 < t then r.setFld WEIR_STAT_CFG_REJECT 1
  else
    let old := r.boundNow
    (r.modWeir fun w => { w with bound := some old }).setReg WEIR_BOUND new

/-! ### VRHOT# -/

/-- VRHOT_ASSERT (R433). -/
def execVrhotAssert (s : State) : Host.Outcome State Fault Refusal :=
  let r := Run.start s
  if r.1.pins.porst ∨ r.1.weir.vrhot.isSome then r.done
  else
    let c := r.admissions r.setPoint * 3 / 4
    let r := (r.weirEvt WEIR_EVT_VRHOT).modWeir fun w => { w with vrhot := some (c * 30000).floor.toNat }
    (if r.admissions r.setPoint ≤ c then r else r.cutTiles r.tilesOn c).done

/-- VRHOT_DEASSERT (R433): the ceiling goes with the next step. -/
def execVrhotDeassert (s : State) : Host.Outcome State Fault Refusal :=
  let r := Run.start s
  if r.1.weir.vrhot.isNone then r.done else ((r.modWeir fun w => { w with vrhot := none }).askStep .lift).done

/-! ### Metered steps -/

/-- The domain that a request of a step raises, for the order of its ramp (R437). -/
def StepReq.dom : StepReq → Nat
  | .wake d => d
  | .cap n _ => domTile n
  | .set _ => 404
  | .lift => 405

/-- The rise of the admissions that a request asks for, in A (R437). -/
def Run.rise (r : Run s0) (q : StepReq) : Rat :=
  let mv : Rat := r.setPoint
  match q with
  | .wake d => if r.fld (DOM_STAT_STATE d) = 1 then r.domAdmission d mv else 0
  | .cap n v => max 0 (r.tileAdmission n v mv - r.tileAdmission n (r.fld (TMON_RATE_CAP n)) mv)
  | .set v => r.admissions v - r.admissions mv
  | .lift => r.tilesOn.foldl (fun a n => a + (maxCurrent .tile mv - r.tileAdmission n (r.fld (TMON_RATE_CAP n)) mv)) 0

/-- METERED_STEP_FORM (R437 to R439): the step takes every request made so far, quadrants of the waking tiles' dies with them. `recent`
is the rise, in µA, of the unannounced steps whose ramps end within 2 µs of this one's. -/
def execMeteredStepForm (recent : Nat) (s : State) : Host.Outcome State Fault Refusal :=
  let r := Run.start s
  if r.1.weir.phase ≠ 0 then r.done
  else
    let r := (List.range 64).foldl (fun r k =>
      let d := k / 4
      let wakes := (List.range 16).any fun t => r.fld (DOM_STAT_STATE (d * 21 + t)) == 1
      if wakes && r.gated (domQuad d (k % 4)) then r.wakeQuad d (k % 4) else r) r
    let wakes := (List.range 336).filterMap fun d => if r.fld (DOM_STAT_STATE d) = 1 then some (StepReq.wake d) else none
    let reqs := (wakes ++ r.1.weir.next).mergeSort fun a b => decide (a.dom ≤ b.dom)
    if reqs.isEmpty then r.done
    else
      let di := reqs.foldl (fun a q => a + r.rise q) 0
      let announced := 50 < di ∨ 50 < di + (recent : Rat) / 1000000
      let code := if !announced then 0 else if di ≤ 100 then 1 else if di ≤ 200 then 2 else 3
      let r := r.modWeir fun w => { w with phase := 2, step := reqs, next := [] }
      ((r.setFld WEIR_STAT_SPATE code).act (.pins { r.1.pins with spate := code })).done

/-- METERED_STEP_RAMP_START (R438). -/
def execMeteredStepRampStart (s : State) : Host.Outcome State Fault Refusal :=
  let r := Run.start s
  if r.1.weir.phase = 2 then (r.modWeir fun w => { w with phase := 3 }).done else r.done

/-- A request's ramp has ended (R437 to R439): its domain is on, its tile under a cap that fits where the sum is reached (R430); its cap,
or set-point, is admitted. -/
def Run.ramped (r : Run s0) (q : StepReq) : Run s0 :=
  let mv : Rat := r.setPoint
  match q with
  | .wake d =>
    if r.fld (DOM_STAT_STATE d) ≠ 1 then r
    else
      let room := r.admissionLimit - r.admissions mv
      let r := r.setFld (DOM_STAT_STATE d) 0
      let i := d % 21
      if i < 16 then
        let n := d / 21 * 16 + i
        let r := if r.domAdmission d mv ≤ room then r
          else r.setFld (TMON_RATE_CAP n) (max 1 (min 0xFFFE (max 0 (r.tableTokens n * room / maxCurrent .tile mv)).floor.toNat))
        (List.range 4).foldl (fun r k => r.pokeHart (n * 4 + k)) r
      else if i = 20 ∧ r.fld (RLINK_STAT_STATE (d / 21)) = 0 then r.bridgeUp (d / 21) else r
  | .cap n v => if r.tileOn n ∧ r.fld (TMON_RATE_CAP n) < v ∧ r.admissions mv + r.rise q ≤ r.admissionLimit then r.setFld (TMON_RATE_CAP n) v else r
  | .set v => r.modWeir fun w => { w with allow := v }
  | .lift =>
    let lim : Int := Word.bits r.boundNow 23 16
    r.tilesOn.foldl (fun r n => if r.tileTj n < (lim - 2) * 4 then r.setFld (TMON_RATE_CAP n) 0xFFFF else r) r

/-- METERED_STEP_RAMP_END (R437, R438). -/
def execMeteredStepRampEnd (s : State) : Host.Outcome State Fault Refusal :=
  let r := Run.start s
  if r.1.weir.phase ≠ 3 then r.done
  else
    let r := r.1.weir.step.foldl (fun r q => r.ramped q) r
    let r := r.modWeir fun w => { w with phase := 0, step := [] }
    ((r.setFld WEIR_STAT_SPATE 0).act (.pins { r.1.pins with spate := 0 })).done

/-! ### Gating and requests -/

/-- The condition under which Weir may gate a domain (R85, R160, R425). -/
def Run.mayGate (r : Run s0) (dom : Nat) : Bool :=
  let d := dom / 21
  let i := dom % 21
  if dom < 336 then
    if i < 16 then
      (List.range 4).all fun k =>
        let t := r.hart ((d * 16 + i) * 4 + k)
        t.run == .held || (match t.park with
          | some p => p.kind == .dwPark && p.depth == 2 && !p.mon
          | none => false)
    else if i < 20 then r.bit (L3_STATUS_DISABLED d) (i - 16) && (List.range 16).all fun t => r.gated (d * 21 + t)
    else r.fld (RLINK_STAT_STATE d) == 7 || r.fld (RLINK_STAT_STATE d) == 0
  else if dom < 360 then
    let c := dom - 336
    r.fld (MC_STATUS_INIT c) == 0 || r.fld (MC_STATUS_INIT c) == 4 || r.on (MC_STATUS_SR c)
  else if dom < 392 then !r.on (G_CFG_EN (dom - 360)) || !r.on (G_CFG_PERS (dom - 360))
  else if dom < 400 then
    let e := dom - 392
    ((List.range 1024).all fun q => !r.on (PHLOX_QBIND_VALID q) || r.fld (PHLOX_QBIND_ENG q) != e) && (r.1.jobs.all fun x => x.1 / 256 != e) && r.1.fetched.all fun x =>
        r.fld (Q_CFG_ENG (r.fld (PHLOX_QBIND_FN x.1)) (r.fld (PHLOX_QBIND_SLOT x.1))) != e
  else
    let q := dom - 400
    (List.range 16).all fun d => r.bit (L3_STATUS_DISABLED d) q || r.gated (domQuad d q) || !r.online d

/-- A domain is secure-held (R394). -/
def Run.secureHeld (r : Run s0) (dom : Nat) : Bool :=
  let d := dom / 21
  if dom < 336 then
    if dom % 21 < 16 then (r.tile (d * 16 + dom % 21)).ceid != 0
    else (List.range 16).any fun t => (r.tile (d * 16 + t)).ceid != 0
  else if dom < 360 then
    let c := dom - 336
    (List.range 128).any fun n => r.on (ERT_BASE_EN n) && (List.range 16).any fun i =>
      r.on (ILV_SET_BASE_EN i) && r.bit (ILV_SET_CFG_CHMASK i) c &&
        match r.sadMatch (r.fld (ERT_BASE_BASE n) * 2 ^ 21) with
        | some k => r.fld (SAD_RANGE_BASE_KIND k) == 0 && r.fld (SAD_RANGE_BASE_TARGET k) == i
        | none => false
  else if dom < 392 then r.groupSecure (dom - 360)
  else if dom < 400 then (List.range 1024).any fun q => r.on (PHLOX_QBIND_VALID q) && r.fld (PHLOX_QBIND_ENG q) == dom - 392 && r.fnSecure (r.fld (PHLOX_QBIND_FN q))
  else false

/-- PARK_HINT_TIMEOUT (R443): every eligible hart of a tile has stayed parked for 50 µs. -/
def execParkHintTimeout (n : Fin 256) (s : State) : Host.Outcome State Fault Refusal :=
  let r := Run.start s
  if r.mayGate (domTile n) then (r.modTile n fun t => { t with idle := true }).done else r.done

/-- The parking hint of a tile allows it to be gated (R443). -/
def Run.hintAllows (r : Run s0) (n : Nat) : Bool :=
  match r.fld (WEIR_TILE_REQ_HINT n) with
  | 0 => (r.tile n).idle || (List.range 4).all fun k => (r.hart (n * 4 + k)).run == .held
  | 1 => (List.range 4).all fun k => (r.hart (n * 4 + k)).run == .held
  | _ => true

/-- DOMAIN_GATE (R426): Weir's own decision to gate an eligible domain. -/
def execDomainGate (dom : Fin 404) (s : State) : Host.Outcome State Fault Refusal :=
  let r := Run.start s
  let tile := dom.val < 336 ∧ dom.val % 21 < 16
  let hint := if tile then r.hintAllows (dom / 21 * 16 + dom % 21) else true
  if r.fld (DOM_STAT_STATE dom) = 0 ∧ r.mayGate dom ∧ hint then (r.setFld (DOM_STAT_STATE dom) 2).done else r.done

/-- The cleaning of a tile before its switch opens (R85, R157): it drains, its caches go to L3, a pending L2 disable ends with the same
sweep, and translations and reservations go. False while something is still out. -/
def Run.cleanTile (r : Run s0) (n : Nat) : Run s0 × Bool :=
  let r := (List.range 4).foldl (fun r i => r.startDrain (n * 4 + i)) r
  let t := r.tile n
  if !t.smb.isEmpty || !t.sq.isEmpty || !t.miss.isEmpty then (r, false)
  else
    let r := r.sweepL2 n
    let r := if r.on (L2CTL_STATUS_CACHE_DISABLE_PENDING n) then (r.setFld (L2CTL_STATUS_CACHE_DISABLE_PENDING n) 0).setFld (L2CTL_STATUS_DISABLED n) 1 else r
    ((List.range 4).foldl (fun r i => r.modHart (n * 4 + i) fun x => { x with tlb := [], resv := none, lrDelay := none }) r, true)

/-- A GATEHOLD may gate a domain (R444): a tile whose harts are all held, a quadrant that is disabled, no Rill bridge, and any other domain
under the condition of R425. -/
def Run.mayHold (r : Run s0) (dom : Nat) : Bool :=
  if dom < 336 then
    if dom % 21 < 16 then (List.range 4).all fun k => (r.hart ((dom / 21 * 16 + dom % 21) * 4 + k)).run == .held
    else decide (dom % 21 < 20) && r.bit (L3_STATUS_DISABLED (dom / 21)) (dom % 21 - 16)
  else r.mayGate dom

/-- DOMAIN_SWITCH_OPEN (R426, R444): cleaning ends and the domain is gated, held where a GATEHOLD asked for it. -/
def execDomainSwitchOpen (dom : Fin 404) (s : State) : Host.Outcome State Fault Refusal :=
  let r := Run.start s
  if r.fld (DOM_STAT_STATE dom) ≠ 2 ∨ !(r.mayGate dom || (r.1.weir.hold = some dom.val && r.mayHold dom)) then r.done
  else
    let p := if dom.val < 336 ∧ dom.val % 21 < 16 then r.cleanTile (dom / 21 * 16 + dom % 21) else (r, true)
    if !p.2 then p.1.done
    else
      let r := (p.1.setFld (DOM_STAT_STATE dom) 3).addSat (DOM_STAT_GATES dom) 1
      if r.1.weir.hold = some dom.val then ((r.setFld (DOM_STAT_HOLD dom) 1).domEnd stOk).done else r.done

/-- ST_NOT_IDLE and ST_BAD_DOMAIN (R444). -/
def stNotIdle : Nat := 0x1D
def stBadDomain : Nat := 0x1E

/-- A request of WEIR.DOMCMD by a requester (R394, R444). -/
def Run.domRequest (r : Run s0) (q : Requester) (op dom : Nat) : Run s0 :=
  let clocked := 336 ≤ dom ∧ dom < 392
  let tile := dom < 336 ∧ dom % 21 < 16
  let idle2 := if dom < 360 then r.on (MC_STATUS_SR (dom - 336)) else !r.on (G_CFG_EN (dom - 360))
  if 403 < dom ∨ op = 3 ∨ (op = 2 ∧ !clocked) then r.domEnd stBadDomain
  else if op ≠ 1 ∧ r.normal q ∧ r.secureHeld dom then (r.refuse 3 q).domEnd stDenied
  else if (op = 0 ∧ !r.mayHold dom) ∨ (op = 2 ∧ !idle2) then r.domEnd stNotIdle
  else match op with
    | 0 =>
      match r.fld (DOM_STAT_STATE dom) with
      | 3 => (r.setFld (DOM_STAT_HOLD dom) 1).domEnd stOk
      | 1 => ((r.setFld (DOM_STAT_STATE dom) 3).setFld (DOM_STAT_HOLD dom) 1).domEnd stOk
      | _ => ((r.setFld (DOM_STAT_STATE dom) 2).setFld WEIR_DOMCMD_BUSY 1).modWeir fun w => { w with hold := some dom }
    | 1 =>
      let was := r.on (DOM_STAT_HOLD dom)
      let r := (r.setFld (DOM_STAT_HOLD dom) 0).domEnd stOk
      if was && tile then r.wakeTile (dom / 21 * 16 + dom % 21)
      else if was && 336 ≤ dom && dom < 360 && !(r.chan (dom - 336)).held.isEmpty then r.wakeDom dom else r
    | _ => (if r.fld (DOM_STAT_STATE dom) = 0 ∨ r.fld (DOM_STAT_STATE dom) = 2 then r.setFld (DOM_STAT_STATE dom) 4 else r).domEnd stOk

/-- A requester's write of WEIR.DOMCMD leaves `new`, with the bits `v` written (R444). -/
def Run.wDomcmd (r : Run s0) (q : Requester) (new v : Word) : Run s0 :=
  if v.getLsbD 63 ∧ r.on WEIR_DOMCMD_BUSY then r.setFld WEIR_STAT_CFG_REJECT 1
  else
    let r := (r.setFld WEIR_DOMCMD_OP (Word.bits new 57 56)).setFld WEIR_DOMCMD_DOM (Word.bits new 8 0)
    if v.getLsbD 63 then r.domRequest q (Word.bits new 57 56) (Word.bits new 8 0) else r

/-! ### Brown-out and rails -/

/-- TILE_BROWNOUT_HALT (R450): a tile reads VCORE below 0.48 V. -/
def execTileBrownoutHalt (n : Fin 256) (v : BitVec 10) (s : State) : Host.Outcome State Fault Refusal :=
  ((Run.start s).readVcore n v.toNat).done

/-- TILE_BROWNOUT_RESUME (R450). -/
def execTileBrownoutResume (n : Fin 256) (v : BitVec 10) (s : State) : Host.Outcome State Fault Refusal :=
  let r := (Run.start s).readVcore n v.toNat
  if v.toNat < 500 ∨ !(r.tile n).halted then r.done
  else ((List.range 4).foldl (fun r k => r.pokeHart (n * 4 + k)) (r.modTile n fun t => { t with halted := false })).done

/-- ALL_TILES_HALTED_100MS (R450). -/
def execAllTilesHalted100ms (s : State) : Host.Outcome State Fault Refusal :=
  let r := Run.start s
  let ts := r.tilesOn.filter fun n => r.online (n / 16)
  if !ts.isEmpty && ts.all fun n => (r.tile n).halted then (r.logRec .weir { event := 0x0A05, cls := .ucr }).done else r.done

/-- VCORE_COLLAPSE (R451). -/
def execVcoreCollapse (d : Fin 16) (s : State) : Host.Outcome State Fault Refusal := ((Run.start s).linkDown d).done

/-- A window offset lies in an IOD block on VIOD, held in reset by R452: all but the timebase, Foxglove, SEC, Weir and the error log. -/
def viodBlock (o : Nat) : Bool :=
  decide (0x1000000000 ≤ o) && !((o / 0x10000) ∈ [0x100000, 0x100002, 0x100007, 0x100008, 0x100009]) && !(decide (0x10000C0000 ≤ o) && decide (o < 0x10000E0000))

/-- RAIL_OUT_OF_RANGE (R452): FATAL, and the IOD blocks not on VAON are held in reset. -/
def execRailOutOfRange (s : State) : Host.Outcome State Fault Refusal :=
  let r := (Run.start s).fatal .weir { event := 0x0A02, cls := .fatal }
  let all (_ : Nat) : Bool := true
  let r := r.dropKeys r.1.lineq all (.lineq · [])
  let r := r.dropKeys r.1.slices all (.slices · {})
  let r := r.dropKeys r.1.filt all (.filt · none)
  let r := r.dropKeys r.1.aplic all (.aplic · {})
  let r := r.dropKeys r.1.aplicSrc all (.aplicSrc · {})
  let r := r.dropKeys r.1.chans all (.chans · {})
  let r := r.dropKeys r.1.groups all (.groups · {})
  let r := r.dropKeys r.1.ecam all (.ecam · 0)
  let r := r.dropKeys r.1.msix all (.msix · 0)
  let r := r.dropKeys r.1.jobs all (.jobs · none)
  let r := r.dropKeys r.1.fetched all (.fetched · none)
  let r := r.dropKeys r.1.moved all (.moved · 0)
  let r := r.dropKeys r.1.fnBytes all (.fnBytes · 0)
  let r := r.dropKeys r.1.lead all (.lead · 0)
  let r := r.dropKeys r.1.slotTurn all (.slotTurn · 0)
  let r := (r.resetRegs viodBlock false).act (.iommu {})
  (r.act (.pins { r.1.pins with iodHeld := true, perst := BitVec.allOnes 32 })).done

/-- THERMTRIP (R432): THERMTRIP# is asserted, every tile stops issuing, and FATAL is raised. -/
def execThermtrip (s : State) : Host.Outcome State Fault Refusal :=
  let r := Run.start s
  ((r.act (.pins { r.1.pins with thermtrip := true })).fatal .weir { event := 0x0A01, cls := .fatal }).done

end Sys2Proof.Machine
end

