-- ==== Sys2Proof/Machine/Start.lean ====
section
/-! DEFINITION. Cold and warm reset, the start sequence with its failures and rounds, the configuration lock and the identity key
(R253, R389, R396 to R417, R473, R510, R513, R514). -/
namespace Sys2Proof.Machine

variable {s0 : State}

/-! ### Resets -/

/-- Every store and engine but the registers, the keys, the DRAM, Foxglove and the pins takes its reset value. -/
def Run.clearBlocks (r : Run s0) : Run s0 :=
  let all (_ : Nat) : Bool := true
  let r := r.dropKeys r.1.harts all (.harts · {})
  let r := r.dropKeys r.1.xs all (.xs · 0)
  let r := r.dropKeys r.1.fs all (.fs · 0)
  let r := r.dropKeys r.1.vs all (.vs · 0)
  let r := r.dropKeys r.1.csrs all (.csrs · none)
  let r := r.dropKeys r.1.imsic all (.imsic · {})
  let r := r.dropKeys r.1.l1i all (.l1i · none)
  let r := r.dropKeys r.1.l1d all (.l1d · none)
  let r := r.dropKeys r.1.l2 all (.l2 · none)
  let r := r.dropKeys r.1.l3 all (.l3 · none)
  let r := r.dropKeys r.1.plru all (.plru · 0)
  let r := r.dropKeys r.1.tiles all (.tiles · {})
  let r := r.dropKeys r.1.quads all (.quads · {})
  let r := r.dropKeys r.1.lineq all (.lineq · [])
  let r := r.dropKeys r.1.slices all (.slices · {})
  let r := r.dropKeys r.1.filt all (.filt · none)
  let r := r.dropKeys r.1.aplic all (.aplic · {})
  let r := r.dropKeys r.1.aplicSrc all (.aplicSrc · {})
  let r := r.dropKeys r.1.chans all (.chans · {})
  let r := r.dropKeys r.1.tbrx all (.tbrx · {})
  let r := r.dropKeys r.1.dies all (.dies · {})
  let r := r.dropKeys r.1.pmuEdge all (.pmuEdge · 0)
  let r := r.dropKeys r.1.groups all (.groups · {})
  let r := r.dropKeys r.1.ecam all (.ecam · 0)
  let r := r.dropKeys r.1.seqs all (.seqs · 0)
  let r := r.dropKeys r.1.msix all (.msix · 0)
  let r := r.dropKeys r.1.jobs all (.jobs · none)
  let r := r.dropKeys r.1.fetched all (.fetched · none)
  let r := r.dropKeys r.1.moved all (.moved · 0)
  let r := r.dropKeys r.1.fnBytes all (.fnBytes · 0)
  let r := r.dropKeys r.1.lead all (.lead · 0)
  let r := r.dropKeys r.1.slotTurn all (.slotTurn · 0)
  ((((((r.act (.iommu {})).act (.weir {})).act (.wdog none)).act (.net [])).act (.ops [])).act (.poke []))

/-- Cold reset (R500, R514). Programmed fuses stay, and so does THERMTRIP# (R432). -/
def Run.coldReset (r : Run s0) : Run s0 :=
  let all (_ : Nat) : Bool := true
  let fox := r.1.fox
  let r := r.clearBlocks
  let r := r.dropKeys r.1.regs all (.regs · none)
  let r := r.dropKeys r.1.keys all (.keys · {})
  let r := r.dropKeys r.1.dram all (.dram · none)
  let r := r.dropKeys r.1.limits all (.limits · 0)
  (r.act (.pins { thermtrip := r.1.pins.thermtrip })).act (.fox { svn := fox.svn, epoch := fox.epoch })

/-- Every slot but memory slot 0 becomes EMPTY, and its GEN advances (R349). -/
def Run.warmKeys (r : Run s0) : Run s0 :=
  let k0 := r.key 0
  let r := r.1.keys.foldl (fun r k => r.modKey k.1 (·.erased 0)) r
  (r.act (.fox { r.1.fox with gens := (r.1.fox.gens + 1) % 2 ^ 32 })).setKey 0 { k0 with gen := (k0.gen + 2 ^ 32 - 1) % 2 ^ 32 }

/-- A window offset lies in a block that a reset of the package but cold leaves alone: the timebase, and Foxglove at a failed
attempt (R407, R410). -/
def warmRegion (fox : Bool) (o : Nat) : Bool := !(o / 0x10000 == 0x100002) && (fox || !(o / 0x10000 == 0x100007))

/-- Every block but the timebase, and Foxglove with the measured process codes (R38) where `fox` is false, takes its reset values, with what R253, R349, R389 and R476
say of DRAM, keys, the monitor's threads and ERR.SUMMARY. -/
def Run.warmBlocks (r : Run s0) (fox : Bool) : Run s0 :=
  let e := r.fld SEC_CFG_MONEID
  let mon := if r.on SEC_CFG_MONVALID then some (r.reg (ENC_STAT e)) else none
  let rings := r.reg ERR_SUMMARY
  let r := r.clearBlocks.warmKeys
  let codes := if fox then [] else (List.range 256).map fun n => (n, r.fld (TMON_PROC_PCODE n), r.fld (TMON_PROC_PVALID n))
  let r := (r.resetRegs (warmRegion fox) false).setReg ERR_SUMMARY rings
  let r := codes.foldl (fun r p => (r.setFld (TMON_PROC_PCODE p.1) p.2.1).setFld (TMON_PROC_PVALID p.1) p.2.2) r
  let r := match mon with
    | some w =>
      let lost := Word.bits w 47 32 ||| Word.bits w 15 0
      r.setReg (ENC_STAT e) (Word.setBits (Word.setBits w 47 32 lost) 15 0 0)
    | none => r
  r.act (.pins { r.1.pins with perst := BitVec.allOnes 32 })

/-! ### Identity (R416, R417) -/

/-- The state of the CTR_DRBG with AES-256: its key and its counter. -/
abbrev Drbg := List Byte × Nat

/-- n output blocks and the counter after them. -/
def drbgBlocks (d : Drbg) (n : Nat) : List Byte × Nat :=
  ((List.range n).flatMap fun i => aesEnc d.1 (bytesBE 16 (d.2 + 1 + i)), (d.2 + n) % 2 ^ 128)

/-- The update function of SP 800-90A with 48 bytes. -/
def drbgUpdate (d : Drbg) (data : List Byte) : Drbg :=
  let x := xorBytes (drbgBlocks d 3).1 data
  (x.take 32, natBE (x.drop 32))

/-- Candidate i of R416: the i-th 2,048-bit output block with bits 2,047, 2,046 and 0 set. Each block is one generate request
(DEDUCED). -/
def idCandidate (i : Nat) : Nat :=
  let seed := kdf seedBytes [0x49, 0x44, 0x53, 0x45, 0x45, 0x44] [] 64
  let d0 := drbgUpdate (List.replicate 32 0, 0) (xorBytes (seed.take 48) (seed.drop 48 ++ List.replicate 32 0))
  let d := (List.range (i - 1)).foldl (fun d _ => drbgUpdate (d.1, (drbgBlocks d 16).2) (List.replicate 48 0)) d0
  natBE (drbgBlocks d 16).1 ||| 2 ^ 2047 ||| 2 ^ 2046 ||| 1

/-- DEVID: bytes 0 to 15 of SHA-512 of the modulus of the identity key (R417). -/
def devid : List Byte :=
  (sha512 (bytesBE 512 (idCandidate (Config.idHint.toNat % 2 ^ 24) * idCandidate (Config.idHint.toNat / 2 ^ 24)))).take 16

/-! ### Start -/

/-- STATUS[3:0] and FOX.START.STEP show a code (R411). -/
def Run.showStep (r : Run s0) (n : Nat) : Run s0 :=
  (r.act (.pins { r.1.pins with status := n, frame := if n = 0xB then r.1.pins.frame else [] })).setFld FOX_START_STEP n

/-- Change what Foxglove keeps beside its registers. -/
def Run.modFox (r : Run s0) (f : Fox → Fox) : Run s0 := r.act (.fox (f r.1.fox))

/-- Bytes of fresh free values. -/
def Run.freshBytes (r : Run s0) : Nat → Run s0 × List Byte
  | 0 => (r, [])
  | n + 1 =>
    let p := r.fresh
    let q := Run.freshBytes p.1 n
    (q.1, bytesLE 64 p.2.toNat ++ q.2)

/-- An extension with an object (R414). -/
def Run.measObject (r : Run s0) (n : Nat) (x : List Byte) : Run s0 := r.measExtend n (sha512 x)

/-- The fuse words that MEAS[0] covers (R414). -/
def Run.fuseWords (r : Run s0) : List Byte :=
  bytesLE 8 Config.keyRevoke.toNat ++ bytesLE 8 (if Config.mldsaReq then 1 else 0) ++ bytesLE 8 (min 64 r.1.fox.svn)
  ++ bytesLE 8 (if Config.dbgDisable then 1 else 0) ++ bytesLE 8 (r.reg ALARM_POLICY).toNat

/-- Step 1 (R406): the ROM reads the fuses and extends MEAS[0]; start then waits at step 2. -/
def Run.startStep1 (r : Run s0) : Run s0 :=
  let r := (r.showStep 1).measObject 0 (bytesLE 64 Config.romDigest.toNat ++ r.fuseWords)
  (r.showStep 2).modFox fun x => { x with waits := 1 }

/-- A tile's process code is measured (R38): that of the shipped device, 19 to 48, less what it has lost since, at most 3 in all. Whether it has
fallen since the last start is a free value. -/
def Run.measureCode (r : Run s0) (n : Nat) : Run s0 :=
  let p := r.fresh
  let r := if p.2.getLsbD 0 && decide (p.1.aged n < 3) then p.1.setAged n (p.1.aged n + 1) else p.1
  (r.setFld (TMON_PROC_PCODE n) (19 + Config.processCode n % 30 - r.aged n)).setFld (TMON_PROC_PVALID n) 1

/-- Step 3 (R406): entropy and DRBG, the known-answer tests, memory slot 0, the identity key and the debug nonce. -/
def Run.startStep3 (r : Run s0) (env : StartEnv) : Run s0 :=
  let r := ((r.showStep 3).setFld FOX_TRNG_STAT_SRC0OK 1).setFld FOX_TRNG_STAT_SRC1OK 1
  let r := (r.setFld FOX_TRNG_STAT_DRBGOK 1).setReg FOX_KAT env.kat
  let r := (List.range 64).foldl (fun r i => if env.kat.getLsbD i then r.logRec .fox { event := 0x0902, cls := .ucr, sub := i } else r) r
  let r := if (r.key 0).loaded then r else let p := r.fresh; p.1.loadSlot 0 2 0 0 p.2.toNat
  let r := if env.idOk && Config.idHint != 0 then
      ((r.setReg DEVID_LO (BitVec.ofNat 64 (at_ devid 0 8))).setReg DEVID_HI (BitVec.ofNat 64 (at_ devid 8 8))).setFld DEVID_STAT_VALID 1
    else r
  let r := (List.range 256).foldl (fun r n => r.measureCode n) r
  let p := r.fresh
  p.1.modFox fun x => { x with nonce := p.2.extractLsb' 0 256 }

/-- The attempt fails (R410): the cause is recorded, the frame shown, and every block but Foxglove and the timebase goes back to
reset. -/
def Run.startFails (r : Run s0) (cause : Nat) : Run s0 :=
  let step := r.fld FOX_START_STEP
  let b := r.fld FOX_START_SLOTB
  let d := detailBytes 32 1 step ||| detailBytes 33 1 cause ||| detailBytes 34 1 (r.fld FOX_START_MCODE) ||| detailBytes 35 1 b
  let r := (r.setFld FOX_START_CAUSE cause).addSat FOX_START_ATTEMPTS 1
  let r := (r.logRec .fox { event := 0x0B01, cls := .ucna, detail := d }).warmBlocks false
  let r := ((r.setFld FOX_START_DRAMRDY 0).setFld FOX_START_MFAIL 0).setFld FOX_CFGLOCK_LOCK 0
  let r := ([0, 1, 2].foldl (fun r w => r.setFld (MBX_STAT_BUSY w) 0) r).setReg FOX_REKEYQ FOX_REKEYQ.rst
  let r := (r.setFld FOX_START_STEP 0xF).act (.pins { r.1.pins with status := 0xF, frame := [0xF, step, cause, 0xA + b] })
  r.modFox fun x => { x with failed := if cause = 0xD then 0 else x.failed ||| 2 ^ b, waits := 2, ready := false, made := false, boot := none, image := none,
                             cmds := [], rekey := [], sweep := none }

/-- The records of the image in the store. -/
def Run.records (r : Run s0) : List VRec :=
  match r.1.fox.image with
  | some b => (imgRecords b).getD []
  | none => []

/-- WEIR.CFG as a POWER record gives it, or none where it breaks a range (R441). -/
def Run.powerCfg (r : Run s0) (b : List Byte) : Option Word :=
  let or_ (v d : Nat) : Nat := if v = 0 then d else v
  let slew := or_ (at_ b 16 2) 390
  let pceil := or_ (at_ b 18 2) 600
  let vmin := or_ (at_ b 20 2) 600
  let vmax := or_ (at_ b 22 2) 950
  let rail := at_ b 24 1
  if 600 < slew ∨ pceil < 100 ∨ 600 < pceil ∨ vmin < 500 ∨ 950 < vmax ∨ vmax < vmin ∨ 14 < rail then none
  else some (Word.setBits (Word.setBits (Word.setBits (Word.setBits (Word.setBits (Word.setBits (r.reg WEIR_CFG) 63 44 (localRamp vmax slew))
    43 40 rail) 39 30 vmax) 29 20 vmin) 19 10 pceil) 9 0 slew)

/-- Step 5 after an image has passed (R414): MEAS[1] to MEAS[6]. -/
def Run.measureImage (r : Run s0) (b : List Byte) (rs : List VRec) : Run s0 :=
  let r := r.measObject 1 (span b 0 64 ++ span b 64 512)
  let one (r : Run s0) (n type : Nat) : Run s0 := match findRec rs type with
    | some x => r.measObject n x.bytes
    | none => r
  let r := one (one (one (one (one r 2 1) 3 2) 4 3) 5 4) 5 0x19
  rs.foldl (fun r (x : VRec) => if x.type ∈ [1, 2, 3, 4, 0x19] then r else r.measObject 6 x.bytes) r

/-- An attempt on a slot (R406 steps 4 to 7): discovery, the copy into the image store, the checks, the measurements, then FABRIC
and POWER, and the joins of the dies begin. -/
def Run.attempt (r : Run s0) (slotB : Bool) (env : StartEnv) : Run s0 :=
  let err := if slotB then env.errB else env.errA
  let bytes := if slotB then env.slotB else env.slotA
  let r := (r.showStep 4).setFld FOX_START_SLOTB (if slotB then 1 else 0)
  let r := r.modFox fun x => { x with waits := 0, ready := false, made := false }
  if err = 1 then r.startFails 1
  else
    let r := r.showStep 5
    if err = 2 then r.startFails 2
    else
      match imgCheck r.1.fox.svn (r.reg ID_BASELINE) bytes with
      | .error c => r.startFails c
      | .ok rs =>
        let b := bytes.take (imgLen bytes)
        let r := (r.modFox fun x => { x with image := some b }).measureImage b rs
        let r := (if r.1.fox.warm then r else r.showStep 6).showStep 7
        let poly := match findRec rs 0x10 with
          | some x => at_ x.bytes 16 1
          | none => 0
        let cfg := match findRec rs 0x18 with
          | some x => r.powerCfg x.bytes
          | none => some WEIR_CFG.rst
        match cfg with
        | none => r.startFails 0xA
        | some w =>
          let r := (r.setFld FABRIC_CHKCFG_POLY poly).setReg WEIR_CFG w
          let r := r.setFld WEIR_BOUND_PCEIL (Word.bits w 19 10)
          (List.range 16).foldl (fun r d => r.rejoin d) r

/-- REFOK reads 1, and start goes on with step 3 and its first attempt (R406, R407): slot A at cold start, the slot that PREFB names
at warm start. -/
def Run.beginStart (r : Run s0) (env : StartEnv) : Run s0 :=
  (r.startStep3 env).attempt (r.1.fox.warm && r.on FOX_START_PREFB) env

/-- A warm reset (R253, R371, R389, R407, R413, R473): running channels put their DRAM into self-refresh, every block but the
timebase is reset, sticky fields and fuses stay, and start begins at step 1. -/
def Run.warmReset (r : Run s0) : Run s0 :=
  let x := r.1.fox
  let r := r.warmBlocks true
  let r := r.act (.fox { gens := r.1.fox.gens, svn := x.svn, epoch := x.epoch, warm := true, attempts := x.attempts,
                         result := x.result, lastDbg := x.lastDbg, ir := x.ir })
  (r.act (.pins { r.1.pins with fatal := false, frame := [] })).startStep1

/-- A warm reset whose start finds REFOK at once. -/
def Run.warmStart (r : Run s0) (env : StartEnv) : Run s0 :=
  let r := r.warmReset
  if r.on TBASE_STAT_REFOK then r.beginStart env else r

/-- PORST_ASSERT (R514). -/
def execPorstAssert (s : State) : Host.Outcome State Fault Refusal := (Run.start s).coldReset.done

/-- ALWAYS_ON_RAIL_UP (R432, R513): the always-on rail comes up, from where nothing but the fuses was kept. -/
def execAlwaysOnRailUp (s : State) : Host.Outcome State Fault Refusal :=
  let r := (Run.start s).coldReset
  (r.act (.pins {})).done

/-- PORST_DEASSERT (R510, R513): the straps are sampled and step 1 runs. -/
def execPorstDeassert (sel : Bool) (addr : Fin 4) (s : State) : Host.Outcome State Fault Refusal :=
  let r := Run.start s
  if !r.1.pins.porst then r.done
  else (r.act (.pins { r.1.pins with porst := false, mgmtSel := sel, mgmtAddr := addr })).startStep1.done

/-- REFCLK_VALID (R54, R406): step 2 ends. After a loss of REFCLK only a cold reset helps. -/
def execRefclkValid (env : StartEnv) (s : State) : Host.Outcome State Fault Refusal :=
  let r := Run.start s
  if r.1.pins.porst ∨ r.on TBASE_STAT_REFLOSS ∨ r.1.fox.waits ≠ 1 then r.done
  else ((r.setFld TBASE_STAT_REFOK 1).beginStart env).done

/-- FAILURE_FRAME_END (R410, R411): the other slot, or the wait of step 11 after cause 0xD or a round of two failures. -/
def execFailureFrameEnd (env : StartEnv) (s : State) : Host.Outcome State Fault Refusal :=
  let r := Run.start s
  if r.1.fox.waits ≠ 2 ∨ r.1.pins.fatal then r.done
  else if r.fld FOX_START_CAUSE = 0xD ∨ r.1.fox.failed = 3 then ((r.showStep 0xB).modFox fun x => { x with waits := 3 }).done
  else (r.attempt (!r.on FOX_START_SLOTB) env).done

/-- START_ROUND_WAIT_END (R410): a new round, on the same slot after cause 0xD and on the other after any other. -/
def execStartRoundWaitEnd (env : StartEnv) (s : State) : Host.Outcome State Fault Refusal :=
  let r := Run.start s
  if r.1.fox.waits ≠ 3 ∨ r.1.pins.fatal then r.done
  else
    let b := r.on FOX_START_SLOTB
    ((r.modFox fun x => { x with failed := 0 }).attempt (if r.fld FOX_START_CAUSE = 0xD then b else !b) env).done

/-- Step 7 or 8 to 9 of an attempt is under way. -/
def Run.atStep (r : Run s0) (ns : List Nat) : Bool :=
  !r.1.pins.porst && !r.1.pins.fatal && r.1.fox.waits == 0 && decide (r.fld FOX_START_STEP ∈ ns)

/-- FOXGLOVE_READY (R406 steps 7 and 8, R409): dies not at STATE 3 are left out, and the Larkspur cores are released; with no die the
attempt fails with cause 0xD. -/
def execFoxgloveReady (s : State) : Host.Outcome State Fault Refusal :=
  let r := Run.start s
  if !r.atStep [7] then r.done
  else
    let r := (List.range 16).foldl (fun r d => if r.fld (RLINK_STAT_STATE d) = 3 then r else r.joinFails d) r
    if (List.range 16).all fun d => r.fld (RLINK_STAT_STATE d) != 3 then (r.startFails 0xD).done
    else ((r.showStep 8).modFox fun x => { x with ready := true }).done

/-- FOXFW_READY_TIMEOUT (R410). -/
def execFoxfwReadyTimeout (s : State) : Host.Outcome State Fault Refusal :=
  let r := Run.start s
  if r.atStep [7] then (r.startFails 0xA).done else r.done

/-- START_STEP10_TIMEOUT (R410). -/
def execStartStep10Timeout (s : State) : Host.Outcome State Fault Refusal :=
  let r := Run.start s
  if r.atStep [8, 9] then (r.startFails 0xC).done else r.done

/-- The image carries an ENCLAVE record whose monitor is not made yet. -/
def Run.monitorDue (r : Run s0) : Bool := (findRec r.records 0x19).isSome && !r.on SEC_CFG_MONVALID

/-- Step 9 has ended (R406). -/
def Run.step9Done (r : Run s0) : Bool := r.on FOX_START_DRAMRDY && !r.monitorDue

/-- The boot hart (R408). -/
def Run.bootHart (r : Run s0) : Nat :=
  match (List.range 16).find? r.online with
  | some d => d * 64
  | none => 0

/-- The watchdog starts once the lock is set and its period known (R395). -/
def Run.startWdog (r : Run s0) : Run s0 :=
  let p := r.fld WDOG_CTL_PERIOD
  if r.locked && r.1.wdog.isNone && p != 0 then r.act (.wdog (some (p * 1024))) else r

/-- The image store is cleared once the lock is set, and step 9, which reads it, has ended (R401, R406; DEDUCED). -/
def Run.dropImage (r : Run s0) : Run s0 := if r.locked && r.step9Done then r.modFox fun x => { x with image := none } else r

/-- The configuration lock is set (R395, R413): SVN bits are programmed where the image has ADVANCE. -/
def Run.setLock (r : Run s0) : Run s0 :=
  if r.locked then r
  else
    let r := r.setFld FOX_CFGLOCK_LOCK 1
    let r := match r.1.fox.image with
      | some b => if natBit (at_ b 32 2) 1 then r.modFox fun x => { x with svn := max x.svn (min 64 (at_ b 16 8)) } else r
      | none => r
    r.startWdog.dropImage

/-- A release of the boot hart takes effect (R406 step 10). -/
def Run.bootNow (r : Run s0) (h : Nat) : Run s0 := ((r.showStep 0xA).modFox fun x => { x with boot := none }).releaseHart h

/-- What waits for the end of step 9. -/
def Run.step9End (r : Run s0) : Run s0 :=
  let r := r.dropImage
  match r.1.fox.boot with
  | some h => r.bootNow h
  | none => r

/-- A write of RUN of a hart (R66, R67, R387, R406, R408): a tile under reset keeps it for later, the boot hart waits for step 9, and
the harts of a core that an enclave holds leave first. -/
def Run.runHart (r : Run s0) (h : Nat) : Run s0 :=
  let n := tileOf h
  let boot := h = r.bootHart ∧ !r.locked
  let r := if boot then r.setLock else r
  if boot ∧ !r.step9Done then r.modFox fun x => { x with boot := some h }
  else if (r.die (dieOf n)).tileRst.any (·.1 == n) then r
  else
    let e := (r.tile n).ceid
    let r := if e ≠ 0 ∧ (r.hart h).run = .held then r.leaveCore n e else r
    if boot then r.bootNow h else r.releaseHart h

/-- DRAMRDY is written (R406 step 9, R411). -/
def Run.dramReady (r : Run s0) : Run s0 :=
  let r := r.setFld FOX_START_DRAMRDY 1
  let r := if r.atStep [8] then r.showStep 9 else r
  if r.step9Done then r.step9End else r

/-- The monitor's range table entries as its record gives them. -/
def monEntries (b : List Byte) : List (Word × Word) :=
  (List.range ((b.length - 40) / 16)).map fun i => (BitVec.ofNat 64 (at_ b (40 + 16 * i) 8), BitVec.ofNat 64 (at_ b (48 + 16 * i) 8))

/-- A span of lines lies within the monitor's entries. -/
def inEntries (es : List (Word × Word)) (a n : Nat) : Bool :=
  (spanLines a n).all fun l => es.any fun e => decide ((ertSpan e.1 e.2).1 ≤ l.toNat) && decide (l.toNat ≤ (ertSpan e.1 e.2).2)

/-- Foxglove can make a monitor of its record (R373, R379, R381): its ID, thread count, entry point, entries and save blocks. -/
def Run.monOk (r : Run s0) (b : List Byte) : Bool :=
  let e := at_ b 16 1
  let es := monEntries b
  decide (1 ≤ e) && decide (e ≤ 64) && decide (at_ b 17 1 < 16) && at_ b 24 8 % 4 == 0 && at_ b 32 8 % 4096 == 0 &&
  inEntries es (at_ b 32 8) ((at_ b 17 1 + 1) * 4096) &&
  es.all (fun x => x.1.getLsbD 63 && Word.bits x.1 62 56 == e && decide (Word.bits x.1 51 21 ≤ Word.bits x.2 51 21)) &&
  es.all fun x =>
    let s := ertSpan x.1 x.2
    (List.range 32).any fun k => r.on (SAD_RANGE_BASE_EN k) && r.fld (SAD_RANGE_BASE_KIND k) == 0
      && decide (r.fld (SAD_RANGE_BASE_BASE k) * 2 ^ 24 ≤ s.1) && decide (s.2 < (r.fld (SAD_RANGE_LIMIT_LIMIT k) + 1) * 2 ^ 24)

/-- Step 9 (R406): the monitor's entries and key. -/
def Run.monitorEntries (r : Run s0) (b : List Byte) : Run s0 :=
  let e := at_ b 16 1
  let r := (monEntries b).zipIdx.foldl (fun r x => (r.setReg (ERT_BASE x.2) x.1.1).setReg (ERT_LIMIT x.2) x.1.2) r
  let p := r.fresh
  let r := p.1.loadSlot (keyId 0 e) 2 0 0 p.2.toNat
  let r := ((r.setFld SEC_CFG_MONEID e).setFld SEC_CFG_MONVALID 1).setFld WDOG_CTL_PERIOD (at_ b 20 4)
  let r := ((r.setReg (ENC_STAT e) 0).setFld (ENC_STAT_NTHR e) (at_ b 17 1)).setReg (ENC_ENTRY e) (BitVec.ofNat 64 (at_ b 24 8))
  let r := (r.setReg (ENC_TSB e) (BitVec.ofNat 64 (at_ b 32 8))).setFld (ENC_STAT_STATE e) 2
  r.modFox fun x => { x with made := true }

/-- Step 9 (R406): the monitor's entries and key come first, so that its code is written under them; then READY. A record that breaks a
rule fails the attempt with cause 0xB. Where the code's lines must be asked for, the entries and key stand, and the command is sent again. -/
def Run.makeMonitor (r : Run s0) (b : List Byte) : Run s0 :=
  let es := monEntries b
  let code := (findRec r.records 4).map fun (x : VRec) => (at_ x.bytes 16 8, x.bytes.drop 24)
  let fits := match code with
    | some c => inEntries es c.1 c.2.length
    | none => true
  if !r.monOk b || !fits then r.startFails 0xB
  else
    let x := if r.1.fox.made then r else r.monitorEntries b
    let y := match code with
      | some c => (x.accessing (.mailbox 3) .fox).foxWrite (c.1 / 64 * 64) (List.replicate (c.1 % 64) 0 ++ c.2)
      | none => x
    if y.1.need.stuck ∧ r.1.fox.made = false then x else (y.modFox fun x => { x with made := false }).startWdog.step9End

/-- MONITOR_READY (R406 step 9). -/
def execMonitorReady (s : State) : Host.Outcome State Fault Refusal :=
  let r := Run.start s
  if !r.atStep [9] || !r.monitorDue then r.done
  else match findRec r.records 0x19 with
    | some x => (r.makeMonitor x.bytes).done
    | none => r.done

/-- A requester's write of FOX.START leaves `new`, with the bits `v` written (R412): MFAIL, MCODE and DRAMRDY from the Larkspur cores
only, WARM from them and the secure monitor. Answers whether a warm reset begins. -/
def Run.wFoxStart (r : Run s0) (q : Requester) (new v : Word) : Run s0 × Bool :=
  let mcode := Word.bits new 47 40
  let asks := v.getLsbD 32 || v.getLsbD 33 || mcode != r.fld FOX_START_MCODE
  let r := r.setFld FOX_START_PREFB (Word.bits new 10 10)
  if (asks && !isLark q) || (v.getLsbD 34 && !isLark q && !r.isMonitor q) then (r.logDenied .fox q, false)
  else
    let r := r.setFld FOX_START_MCODE mcode
    if v.getLsbD 34 && !r.on ERR_FATAL_COLD then (r, true)
    else
      let r := if v.getLsbD 33 && !r.on FOX_START_DRAMRDY then r.dramReady else r
      if v.getLsbD 32 then
        let r := r.setFld FOX_START_MFAIL 1
        (if r.atStep [8, 9] then r.startFails 0xB else r, false)
      else (r, false)

/-- A requester's write of 1 to FOX.CFGLOCK.LOCK (R413). -/
def Run.wCfgLock (r : Run s0) (q : Requester) (v : Word) : Run s0 :=
  if !isLark q then r.logDenied .fox q
  else if v.getLsbD 0 then r.setLock else r

/-- A requester's write of 1 to SEC.WDOG.KICK (R395): another than the monitor is refused. -/
def Run.wKick (r : Run s0) (q : Requester) (v : Word) : Run s0 :=
  if !r.isMonitor q then r.refuse 4 q
  else if v.getLsbD 0 && r.1.wdog.isSome && r.1.wdog != some 0 then r.act (.wdog (some (r.fld WDOG_CTL_PERIOD * 1024))) else r

/-- WATCHDOG_EXPIRY (R395). -/
def execWatchdogExpiry (env : StartEnv) (s : State) : Host.Outcome State Fault Refusal :=
  let r := Run.start s
  if r.1.wdog = some 0 ∧ !r.1.pins.fatal then ((r.setFld WDOG_CTL_FIRED 1).warmStart env).done else r.done

/-- FATALWARM_EXPIRY (R473). -/
def execFatalwarmExpiry (env : StartEnv) (s : State) : Host.Outcome State Fault Refusal :=
  let r := Run.start s
  if r.1.pins.fatal ∧ !r.on ERR_FATAL_COLD ∧ r.fld (ERR_CFG_FATALWARM 16) ≠ 0 then (r.warmStart env).done else r.done

end Sys2Proof.Machine
end

