-- ==== Sys2Proof/Machine/Devices.lean ====
section
/-! DEFINITION. The window areas that are read and written in 32-bit words: the two domains of the APLIC (R341), the IOMMU (R336), the
ECAM windows (R312) and the MSI-X pages (R291, R292). The layouts are those of the AIA, the RISC-V IOMMU and PCIe (PRESUMED, log
entry 6). -/
namespace Sys2Proof.Machine

variable {s0 : State}

/-! ### APLIC -/

/-- The domain and the offset within it of an offset in the APLIC block. -/
def aplicOff (o : Nat) : Nat × Nat := (o / 0x10000, o % 0x10000)

/-- A source is active in a domain: the machine domain's when not delegated, the supervisor domain's when delegated. -/
def Run.aplicHas (r : Run s0) (dom n : Nat) : Bool :=
  1 ≤ n && n ≤ 255 && r.aplicActive n == dom && (r.aplicCfg (dom * 256 + n)).sm != 0

/-- The rectified input of a source (AIA): its wire, or the inverse of it for the modes of the falling edge and the low level. -/
def Run.aplicIn (r : Run s0) (dom n : Nat) : Bool :=
  let up := (r.aplicDom 0).level.getLsbD n
  match (r.aplicCfg (dom * 256 + n)).sm with
  | 4 => up
  | 5 => !up
  | 6 => up
  | 7 => !up
  | _ => false

/-- Software makes a source pending (AIA): a source of a level mode only while its input is active. -/
def Run.aplicSet (r : Run s0) (dom n : Nat) : Run s0 :=
  if !r.aplicHas dom n ∨ (6 ≤ (r.aplicCfg (dom * 256 + n)).sm ∧ !r.aplicIn dom n) then r
  else (r.modAplicDom dom fun a => { a with pend := a.pend ||| (1#256 <<< n) }).aplicDeliver dom n

/-- Software clears a pending bit. -/
def Run.aplicClear (r : Run s0) (dom n : Nat) : Run s0 :=
  if n = 0 ∨ 255 < n then r else r.modAplicDom dom fun a => { a with pend := a.pend &&& ~~~ (1#256 <<< n) }

/-- Software enables or disables a source. -/
def Run.aplicEnable (r : Run s0) (dom n : Nat) (on : Bool) : Run s0 :=
  if !r.aplicHas dom n then r
  else if on then (r.modAplicDom dom fun a => { a with enab := a.enab ||| (1#256 <<< n) }).aplicDeliver dom n
  else r.modAplicDom dom fun a => { a with enab := a.enab &&& ~~~ (1#256 <<< n) }

/-- The sources that bits of word k of a bit array name. -/
def wordBits (k v : Nat) : List Nat := ((List.range 32).filter fun i => natBit v i).map (k * 32 + ·)

/-- A source that becomes inactive in a domain loses its pending and enable bits and its target there (AIA). -/
def Run.aplicDrop (r : Run s0) (dom n : Nat) : Run s0 :=
  let bit := ~~~ (1#256 <<< n)
  (r.modAplicDom dom fun a => { a with pend := a.pend &&& bit, enab := a.enab &&& bit }).modAplicCfg (dom * 256 + n) fun c =>
    { c with hart := 0, guest := 0, eiid := 0 }

/-- A write of sourcecfg (AIA): delegation from the machine domain, or a source mode; a reserved mode leaves the register. A source
that comes to a level mode with its input active becomes pending, as the AIA allows (DESIGN CHOICE, log entry 30). -/
def Run.aplicSource (r : Run s0) (dom n v : Nat) : Run s0 :=
  let k := dom * 256 + n
  if dom = 0 ∧ natBit v 10 then
    (r.modAplicCfg k fun c => { c with deleg := true, sm := 0 }).aplicDrop 0 n
  else if (dom = 1 ∧ !(r.aplicCfg n).deleg) ∨ v % 8 = 2 ∨ v % 8 = 3 then r
  else
    let was := (r.aplicCfg n).deleg
    let r := if dom = 0 ∧ was then (r.modAplicCfg (256 + n) fun c => { c with sm := 0 }).aplicDrop 1 n else r
    let r := r.modAplicCfg k fun c => { c with deleg := false, sm := v % 8 }
    if v % 8 = 0 then r.aplicDrop dom n
    else if 6 ≤ v % 8 ∧ r.aplicIn dom n then r.aplicSet dom n
    else if 6 ≤ v % 8 then r.aplicClear dom n
    else r

/-- Reverse the bytes of a 32-bit word. -/
def swap32 (v : Nat) : Nat := v % 256 * 2 ^ 24 + v / 2 ^ 8 % 256 * 2 ^ 16 + v / 2 ^ 16 % 256 * 2 ^ 8 + v / 2 ^ 24 % 256

/-- A 32-bit write of a requester to an APLIC domain. -/
def Run.aplicWrite (r : Run s0) (q : Requester) (dom o v : Nat) : Run s0 :=
  if o = 0 then
    let r := r.modAplicDom dom fun a => { a with ie := natBit v 8 }
    (List.range 256).foldl (fun r n => if (r.aplicDom dom).pend.getLsbD n then r.aplicDeliver dom n else r) r
  else if o < 0x400 then r.aplicSource dom (o / 4) v
  else if 0x1C00 ≤ o ∧ o < 0x1C20 then (wordBits ((o - 0x1C00) / 4) v).foldl (fun r n => r.aplicSet dom n) r
  else if o = 0x1CDC ∨ o = 0x2000 then r.aplicSet dom v
  else if o = 0x2004 then r.aplicSet dom (swap32 v)
  else if 0x1D00 ≤ o ∧ o < 0x1D20 then (wordBits ((o - 0x1D00) / 4) v).foldl (fun r n => r.aplicClear dom n) r
  else if o = 0x1DDC then r.aplicClear dom v
  else if 0x1E00 ≤ o ∧ o < 0x1E20 then (wordBits ((o - 0x1E00) / 4) v).foldl (fun r n => r.aplicEnable dom n true) r
  else if o = 0x1EDC then r.aplicEnable dom v true
  else if 0x1F00 ≤ o ∧ o < 0x1F20 then (wordBits ((o - 0x1F00) / 4) v).foldl (fun r n => r.aplicEnable dom n false) r
  else if o = 0x1FDC then r.aplicEnable dom v false
  else if o = 0x3000 then
    let w := v &&& 0x0FFC07FF
    (r.modAplicDom dom fun a => { a with genmsi := BitVec.ofNat 32 w }).msiBy q (natBits w 27 18) dom (w % 2048)
  else if 0x3004 ≤ o ∧ o < 0x3400 then
    let n := (o - 0x3000) / 4
    if r.aplicHas dom n then
      let r := r.modAplicCfg (dom * 256 + n) fun c =>
        { c with hart := natBits v 27 18, guest := if dom = 0 then 0 else if natBits v 17 12 ≤ 4 then natBits v 17 12 else c.guest, eiid := v % 2048 }
      r.aplicDeliver dom n
    else r
  else r

/-- A 32-bit read of an APLIC domain. -/
def Run.aplicRead (r : Run s0) (dom o : Nat) : Nat :=
  let a := r.aplicDom dom
  let word (b : BitVec 256) (k : Nat) : Nat := b.toNat / 2 ^ (32 * k) % 2 ^ 32
  if o = 0 then 0x80000004 + if a.ie then 256 else 0
  else if o < 0x400 then
    let c := r.aplicCfg (dom * 256 + o / 4)
    if c.deleg then 1024 else c.sm
  else if o = 0x1BC4 ∧ dom = 0 then 0x80000000
  else if 0x1C00 ≤ o ∧ o < 0x1C20 then word a.pend ((o - 0x1C00) / 4)
  else if 0x1D00 ≤ o ∧ o < 0x1D20 then
    let k := (o - 0x1D00) / 4
    (List.range 32).foldl (fun w i => w + if r.aplicHas dom (k * 32 + i) && r.aplicIn dom (k * 32 + i) then 2 ^ i else 0) 0
  else if 0x1E00 ≤ o ∧ o < 0x1E20 then word a.enab ((o - 0x1E00) / 4)
  else if o = 0x3000 then a.genmsi.toNat
  else if 0x3004 ≤ o ∧ o < 0x3400 then
    let c := r.aplicCfg (dom * 256 + (o - 0x3000) / 4)
    c.hart * 2 ^ 18 + c.guest * 2 ^ 12 + c.eiid
  else 0

/-- The source whose sourcecfg or target an offset within the APLIC block holds (R392). -/
def aplicHeld (o : Nat) : Option Nat :=
  let x := o % 0x10000
  if 4 ≤ x ∧ x < 0x400 then some (x / 4) else if 0x3004 ≤ x ∧ x < 0x3400 then some ((x - 0x3000) / 4) else none

/-! ### MSI-X pages -/

/-- The words of an MSI-X entry that software writes: message address, data and the mask bit. -/
def msixMask (k : Nat) : Word := if k % 2 = 0 then 0xFFFFFFFFFFFFFFFC else 0x1FFFFFFFF

/-- A read of a doubleword of a function's MSI-X page (R292): the mask bit, held inverted, reads as PCIe defines. -/
def Run.msixRead (r : Run s0) (f o : Nat) : Word :=
  let w := r.msixWord (f * 512 + o / 8)
  if 0x400 ≤ o then (if o = 0x800 then w else 0) else if o / 8 % 2 = 1 then w ^^^ 0x100000000 else w

/-- A write of the bytes of `mask` of a doubleword of a function's MSI-X page (R292): a pending message goes out when its entry is
unmasked. -/
def Run.msixWrite (r : Run s0) (f o : Nat) (mask v : Word) : Run s0 :=
  if 0x400 ≤ o then r
  else
    let k := o / 8
    let m := mask &&& msixMask k
    let new := (r.msixRead f o &&& ~~~ m) ||| (v &&& m)
    let r := r.setMsixWord (f * 512 + k) (if k % 2 = 1 then new ^^^ 0x100000000 else new)
    let e := k / 2
    if k % 2 = 1 ∧ !new.getLsbD 32 ∧ (r.msixWord (f * 512 + 256)).getLsbD e then
      (r.modMsixWord (f * 512 + 256) fun w => w &&& ~~~ (1#64 <<< e)).jobMsi f e
    else r

/-! ### ECAM -/

/-- Where a configuration request goes (R312): a register of a root port, a device below a port, a Phlox function, or nowhere. -/
inductive CfgDst
  | root (g p : Nat)
  | below (g p : Nat)
  | phlox (f : Nat)
  | none_
deriving DecidableEq, Repr

/-- A root port that exists: a group with a PCIe or CXL personality that gives it lanes. -/
def Run.portThere (r : Run s0) (g p : Nat) : Bool :=
  r.on (G_CFG_EN g) && (r.fld (G_CFG_PERS g) == 1 || r.fld (G_CFG_PERS g) == 2) && decide (p < 8) && portLanes (r.portWidth g p) != 0

/-- The destination of an offset in the ECAM block. -/
def Run.cfgDst (r : Run s0) (o : Nat) : CfgDst :=
  let k := o / 2 ^ 28
  let bus := o / 2 ^ 20 % 256
  let dev := o / 2 ^ 15 % 32
  if k = 32 then (if bus = 0 ∧ r.fnExists (o / 2 ^ 12 % 256) then .phlox (o / 2 ^ 12 % 256) else .none_)
  else if 32 < k then .none_
  else if bus = 0 then (if r.portThere k dev ∧ o / 2 ^ 12 % 8 = 0 then .root k dev else .none_)
  else
    match (List.range 8).find? fun p => r.portThere k p && decide (natBits (r.rootReg k p 0x18) 15 8 ≤ bus)
        && decide (bus ≤ natBits (r.rootReg k p 0x18) 23 16) && natBits (r.rootReg k p 0x18) 15 8 != 0 with
    | some p => .below k p
    | none => .none_

/-- The registers of a root port whose use the spec gives (R313): command, bus numbers and the bridge's memory windows. -/
def rootKnown (o : Nat) : Bool := o ∈ [0x04, 0x18, 0x20, 0x24, 0x28, 0x2C]

/-- The word in which the bytes lo to lo + n - 1 are replaced. -/
def putBytes (old lo n v : Nat) : Nat := natSetBits old (8 * (lo + n) - 1) (8 * lo) (v % 256 ^ n)

/-- A configuration write of n bytes at an offset in the ECAM block: a root port's register, or a request to a device below a port
that is up (R312). A Phlox function keeps no register that the spec gives a write an effect on but its reset (R291, R303). -/
def Run.ecamWrite (r : Run s0) (o n v : Nat) : Run s0 :=
  match r.cfgDst o with
  | .root _ _ => r.setEcamReg (o / 4) (BitVec.ofNat 32 (putBytes (r.ecamReg (o / 4)).toNat (o % 4) n v))
  | .below g p =>
    if !r.portUp g p then r
    else match r.outSend (some (g, p)) { tag := 0, port := p, addr := 0xFFF2000000000 + o } true v with
      | some x => x.1
      | none => r
  | _ => r

/-- A read of n bytes of a configuration register that ends at once: a root port's register, a Phlox function's, or all ones. A
register that no rule gives a value is a free value. -/
def Run.ecamRead (r : Run s0) (o n : Nat) : Run s0 × Nat :=
  let free (r : Run s0) : Run s0 × Nat := let p := r.fresh; (p.1, p.2.toNat % 256 ^ n)
  match r.cfgDst o with
  | .root _ _ => if rootKnown (o % 4096 / 4 * 4) then (r, (r.ecamReg (o / 4)).toNat / 256 ^ (o % 4) % 256 ^ n) else free r
  | .phlox _ => free r
  | _ => (r, 256 ^ n - 1)

end Sys2Proof.Machine
end

