-- ==== Sys2Proof/Machine/RegWrite.lean ====
section
/-! DEFINITION. Accesses to the register window (R5 to R9, R338, R391 to R394, R492 to R501) and the commands that are writes of
registers. -/
namespace Sys2Proof.Machine

variable {s0 : State}

/-! ### What a write does to fields (R6, R7, R497, R498) -/

/-- A write of this register performs an action, and operates only as an 8-byte write (R497). -/
def actionReg : RegName → Bool
  | .HART_START | .RLINK_RESET | .RLINK_CTL | .MC_CTL | .CHK_DATA | .CHK_DATAN | .Q_TAIL | .FN_RESET | .MBX_ADDR | .WDOG_KICK
  | .ERR_RINGPOP | .FOX_START | .FOX_CFGLOCK | .WEIR_DOMCMD | .TMON_TEMP | .TMON_DROOP => true
  | _ => false

/-- A write of the bytes of `mask` gives each field its new value by its code; `rwl` and `rwq` say whether RWL and RWQ fields are
writable. -/
def applyFields (fs : List Field) (old v mask : Word) (rwl rwq : Bool) : Word :=
  fs.foldl (fun w f =>
    let m := if (f.acc.l && !rwl) || (f.acc.q && !rwq) then 0 else fieldMask f.hi f.lo &&& mask
    match f.acc.kind with
    | .rw => (w &&& ~~~ m) ||| (v &&& m)
    | .w1c => w &&& ~~~ (v &&& m)
    | .w1s => w ||| (v &&& m)
    | .ro | .wo => w) old

/-- A write would change an RWQ field. -/
def changesRwq (fs : List Field) (old v mask : Word) : Bool :=
  fs.any fun f => f.acc.q && f.acc.kind == .rw && ((old ^^^ v) &&& (fieldMask f.hi f.lo &&& mask)) != 0

/-- The check unit whose registers an offset lies among (R208, R496). -/
def chkAt (off : Nat) : Option ChkUnit :=
  if off < 0x1000000000 then
    let o := off % 2 ^ 32
    if o < 0x10000000 then chkUnit (off / 2 ^ 32) (o / 2 ^ 24) else chkUnit (off / 2 ^ 32) ((o - 0x10200000) / 0x2000)
  else chkUnit 16 ((off - 0x1000100000) / 0x2000)

/-- A stop is idle (R208, R496): a tile stop while its harts read STATE 0, any other while it holds no packet but those that TEST
holds back. -/
def Run.stopIdle (r : Run s0) (u : ChkUnit) : Bool :=
  match u with
  | .tile n => (List.range 4).all fun i => r.fld (HART_STAT_STATE n i) == 0
  | u => r.on (CHK_CTL_TEST u) || !r.1.net.any fun m => stopOf m.src m.line == some u

/-- The die of an ERR block's offset. -/
def errDie (off : Nat) : Nat := if 0x1000000000 ≤ off then 16 else off / 2 ^ 32

/-- The block of a register is idle (R498); the blocks of queues and mailboxes judge for themselves. -/
def Run.blockIdle (r : Run s0) (nm : RegName) (ix : List Nat) (off : Nat) : Bool :=
  let l3 (d : Nat) : Bool := !r.on (L3_STATUS_SWEEP d) && !r.on (L3_STATUS_CACHE_DISABLE_PENDING d)
  let mc (c : Nat) : Bool := r.fld (MC_STATUS_INIT c) == 0
  match nm, ix with
  | .HART_START, [d, t, h] => !r.on (HART_START_RUN (d * 16 + t) h)
  | .L2CTL_CTL, [d, t] => !r.on (L2CTL_STATUS_CACHE_DISABLE_PENDING (d * 16 + t))
  | .L3_WAYLOCK, [d] => l3 d
  | .L3_WAYOWNER, [d] => l3 d
  | .L3_CTL, [d] => l3 d
  | .CHK_CTL, _ => (chkAt off).any r.stopIdle
  | .CHK_RUN, _ => (chkAt off).any r.stopIdle
  | .MC_GEOM, c :: _ => mc c
  | .MC_CTL, c :: _ => mc c
  | .MC_MRSEQ, c :: _ => mc c
  | .MC_DLY, c :: _ => mc c
  | .MC_CADLY, c :: _ => mc c
  | .MC_BANDCTL, c :: _ => mc c
  | .MC_REFCTL, c :: _ => mc c
  | .ILV_SET_BASE, [i] => !r.on (ILV_SET_BASE_EN i)
  | .ILV_SET_CFG, [i] => !r.on (ILV_SET_BASE_EN i)
  | _, _ => true

/-- The CFG_REJECT bit of a register's block (R497, R498), where it has one. -/
def rejectBit (nm : RegName) (ix : List Nat) (off : Nat) : Option FRef :=
  match nm, ix with
  | .HART_START, [d, t, _] => some (CORECTL_STATUS_CFG_REJECT (d * 16 + t))
  | .L2CTL_CTL, [d, t] => some (L2CTL_STATUS_CFG_REJECT (d * 16 + t))
  | .L3_WAYLOCK, [d] => some (L3_STATUS_CFG_REJECT d)
  | .L3_WAYOWNER, [d] => some (L3_STATUS_CFG_REJECT d)
  | .L3_CTL, [d] => some (L3_STATUS_CFG_REJECT d)
  | .CHK_CTL, _ => (chkAt off).map CHK_CTL_CFG_REJECT
  | .CHK_RUN, _ => (chkAt off).map CHK_CTL_CFG_REJECT
  | .CHK_DATA, _ => (chkAt off).map CHK_CTL_CFG_REJECT
  | .CHK_DATAN, _ => (chkAt off).map CHK_CTL_CFG_REJECT
  | .RLINK_RESET, [d] => some (RLINK_STAT_CFG_REJECT d)
  | .RLINK_CTL, [d] => some (RLINK_STAT_CFG_REJECT d)
  | .MC_GEOM, c :: _ => some (MC_STATUS_CFG_REJECT c)
  | .MC_CTL, c :: _ => some (MC_STATUS_CFG_REJECT c)
  | .MC_MRSEQ, c :: _ => some (MC_STATUS_CFG_REJECT c)
  | .MC_DLY, c :: _ => some (MC_STATUS_CFG_REJECT c)
  | .MC_CADLY, c :: _ => some (MC_STATUS_CFG_REJECT c)
  | .MC_BANDCTL, c :: _ => some (MC_STATUS_CFG_REJECT c)
  | .MC_REFCTL, c :: _ => some (MC_STATUS_CFG_REJECT c)
  | .ILV_SET_BASE, _ => some ILV_STATUS_CFG_REJECT
  | .ILV_SET_CFG, _ => some ILV_STATUS_CFG_REJECT
  | .Q_TAIL, [f, j] => some (Q_QSTAT_CFG_REJECT f j)
  | .FN_RESET, _ => some PHLOX_MGRSTAT_CFG_REJECT
  | .MBX_ADDR, [w] => some (MBX_STAT_CFG_REJECT w)
  | .WEIR_DOMCMD, _ => some WEIR_STAT_CFG_REJECT
  | _, _ => none

/-! ### Registers with rules of their own -/

/-- A write of SAD.RANGE[n].BASE leaves `new` (R20). -/
def Run.wSadBase (r : Run s0) (n : Nat) (new : Word) : Run s0 :=
  let k := Word.bits new 62 61
  let t := Word.bits new 60 56
  if k = 3 ∨ (k = 0 ∧ 16 ≤ t) ∨ (k = 1 ∧ 4 ≤ t) then r else r.setReg (SAD_RANGE_BASE n) new

/-- CLRMAX (R45): TJMAX takes the present TJ. -/
def Run.clrMax (r : Run s0) (n : Nat) : Run s0 := r.setFld (TMON_TEMP_TJMAX n) (r.fld (TMON_TEMP_TJ n))

/-- CLR (R46): VMIN takes VNOW, and DCOUNT clears. -/
def Run.droopClr (r : Run s0) (n : Nat) : Run s0 := (r.setFld (TMON_DROOP_VMIN n) (r.fld (TMON_DROOP_VNOW n))).setFld (TMON_DROOP_DCOUNT n) 0

/-- A write of CECNT of an array instance with a 1 in COUNT clears it and every V of its table (R460). -/
def Run.wCecnt (r : Run s0) (d a : Nat) : Run s0 :=
  (List.range 8).foldl (fun r j => r.setFld (ARR_ADDR_V d a j) 0) (r.setReg (ARR_CECNT d a) 0)

/-- A pop of a ring (R457): its oldest entry goes. -/
def Run.ringPop (r : Run s0) (d : Nat) : Run s0 :=
  let c := r.fld (ERR_RINGSTAT_COUNT d)
  if c = 0 then r
  else
    let r := (r.setFld (ERR_RINGSTAT_TAIL d) ((r.fld (ERR_RINGSTAT_TAIL d) + 1) % 16)).setFld (ERR_RINGSTAT_COUNT d) (c - 1)
    if c = 1 then r.setBit ERR_SUMMARY_RING d false else r

/-- The uncore events that a counter block counts (R490), by the offset of its registers. -/
def pmuCodes (off : Nat) : List Nat :=
  let o := off % 2 ^ 32
  if off < 0x1000000000 then
    if o < 0x10010000 then [1, 0x10, 0x11, 0x12, 0x13, 0x14, 0x15, 0x16, 0x17] else [1, 0x10, 0x11, 0x12, 0x13]
  else if 0x10000A0000 ≤ off ∧ off < 0x10000B0000 then [1, 0x10, 0x11, 0x12, 0x13, 0x14, 0x15, 0x16, 0x17, 0x18]
  else if off < 0x1000200000 then [1, 0x10, 0x11, 0x12, 0x13]
  else if off < 0x1000400000 then [1, 0x10, 0x11, 0x12, 0x13, 0x14, 0x15, 0x16]
  else if off < 0x1000800000 then [1, 0x10, 0x11, 0x12, 0x13, 0x14, 0x15]
  else [1, 0x10, 0x11, 0x12, 0x13]

/-- A function's pages answer (R291, R303). -/
def Run.pageOpen (r : Run s0) (f : Nat) : Bool := r.fnExists f && !r.on (FN_RESET_BUSY f)

/-- A write that the register's own rule refuses its requester (R293, R352, R395, R413), before any other rule applies to it. -/
def Run.regRefuse (r : Run s0) (q : Requester) (f : Family) (ix : List Nat) (mask v : Word) : Option (Run s0) :=
  match f.name, ix with
  | .MBX_ADDR, [m] => if r.mbxMay q m then none else some (r.mbxDeny q m)
  | .FOX_CFGLOCK, _ => if isLark q then none else some (r.wCfgLock q 0)
  | .WDOG_KICK, _ => if r.isMonitor q then none else some (r.wKick q 0)
  | .FN_RESET, [g] => if r.fnSecure g && r.normal q then some (r.wFnReset q g (if mask = BitVec.allOnes 64 then v else 0)) else none
  | _, _ => none

/-- A requester's write `v` of the bytes of `mask` reaches the register at an offset: the access codes, the rules of R497 and R498, and
then the register's own. -/
def Run.regPut (r : Run s0) (q : Requester) (f : Family) (ix : List Nat) (off : Nat) (mask v : Word) : Run s0 :=
  let g := f.reg off
  let old := r.reg g
  let idle := r.blockIdle f.name ix off
  let w := v &&& mask
  let reject (r : Run s0) : Run s0 := match rejectBit f.name ix off with
    | some b => r.setFld b 1
    | none => r
  match r.regRefuse q f ix mask v with
  | some x => x
  | none =>
  if (actionReg f.name && mask != BitVec.allOnes 64) || (!idle && changesRwq f.fields old v mask) then reject r
  else
    let open_ := !r.locked || (decide (off < 2 ^ 36) && (r.die (off / 2 ^ 32)).opened)
    let new := applyFields f.fields old v mask open_ idle
    match f.name, ix with
    | .SAD_RANGE_BASE, [n] => r.wSadBase n new
    | .TMON_TEMP, [d, t] => if w.getLsbD 32 then r.clrMax (d * 16 + t) else r
    | .TMON_DROOP, [d, t] => if w.getLsbD 63 then r.droopClr (d * 16 + t) else r
    | .TBRX_STATUS, [d] => r.setReg g (if r.on (TBRX_STATUS_LOST d) then Word.setBits new 1 1 (Word.bits old 1 1) else new)
    | .HART_START, [d, t, h] =>
      let r := r.setReg g new
      if w.getLsbD 0 && !old.getLsbD 0 then r.runHart ((d * 16 + t) * 4 + h) else r
    | .L3_PARTWAYS, [d, p] => r.wPartways d p new
    | .L3_WAYLOCK, [d] => if idle then r.wLock d new.toNat (r.reg (L3_WAYOWNER d)).toNat else r
    | .L3_WAYOWNER, [d] => if idle then r.wLock d (r.fld (L3_WAYLOCK_LOCK d)) new.toNat else r
    | .L2CTL_CTL, [d, t] => r.wL2ctl (d * 16 + t) new
    | .L3_CTL, [d] => r.wL3ctl d new
    | .RLINK_FAULTMAP, [d] => r.wFaultmap d new
    | .CHK_RUN, _ => match chkAt off with
      | some u => if r.on (CHK_CTL_TEST u) then r.setReg g new else reject r
      | none => r
    | .CHK_DATA, _ => match chkAt off with
      | some u => r.wChkData u v
      | none => r
    | .CHK_DATAN, _ => match chkAt off with
      | some u => r.wChkDatan u v
      | none => r
    | .RLINK_RESET, [d] => r.wRlinkReset q d new v
    | .RLINK_CTL, [d] => r.wRlinkCtl d new
    | .MC_GEOM, [c] => if new = old then r else r.wGeom c new
    | .MC_CTL, [c] => if new = old then r else r.wMcCtl c new
    | .MC_SCRUB, [c] => r.wScrub c new
    | .MC_CECNT, [c, k] => if w &&& fieldMask 31 0 = 0 then r else r.setFld (MC_CECNT_COUNT c k) 0
    | .ILV_SET_BASE, [i] => if new = old then r else r.wIlvBase i new
    | .Q_BASE, [f, j] => if r.pageOpen f then r.wQBase f j new else r
    | .Q_CFG, [f, j] => if r.pageOpen f then r.wQCfg f j new else r
    | .Q_TAIL, [f, j] => if r.pageOpen f then r.wTail f j (Word.bits v 15 0) else r
    | .Q_QSTAT, [f, _] => if r.pageOpen f then r.setReg g new else r
    | .PHLOX_QBIND, [k] => r.wQbind q k new
    | .FN_SHARE, [f] => r.wShare q f new
    | .FN_RESET, [f] => r.wFnReset q f v
    | .G_CFG, [g] => if new = old then r else r.wGCfg g new
    | .G_CTO, _ => if 12 ≤ Word.bits new 5 0 ∧ Word.bits new 5 0 ≤ 32 then r.setReg g new else r
    | .MBX_ADDR, [m] => r.wMbx q m new
    | .WDOG_KICK, _ => r.wKick q v
    | .FOX_START, _ =>
      let p := r.wFoxStart q new v
      if p.2 then p.1.warmReset else p.1
    | .FOX_CFGLOCK, _ => r.wCfgLock q v
    | .WEIR_BOUND, _ => r.wBound new
    | .WEIR_DOMCMD, _ => r.wDomcmd q new v
    | .WEIR_TILE_REQ, _ => r.setReg g (if Word.bits new 17 16 = 3 then Word.setBits new 17 16 (Word.bits old 17 16) else new)
    | .ERR_RINGPOP, _ => if v.getLsbD 0 then r.ringPop (errDie off) else r
    | .ERR_CFG, _ => r.setReg g (if errDie off = 16 then new else new &&& ~~~ fieldMask 23 16)
    | .ARR_CECNT, ix => if w &&& fieldMask 31 0 = 0 then r else r.wCecnt (errDie off) (ix.getLastD 0)
    | .ARR_FLIP, _ => if w.getLsbD 63 && !r.on (ERR_CFG_INJEN (errDie off)) then r else r.setReg g new
    | .PMU_MSI, _ => if 6 ≤ Word.bits new 18 16 then r else r.setReg g new
    | .PMU_EVT, _ => r.setReg g (if Word.bits new 15 0 ∈ pmuCodes off then new else Word.setBits new 15 0 0)
    | _, _ => r.setReg g new

/-! ### Decoding and the rights of requesters -/

/-- A window offset below the PEERIMSIC region lies in a decoded span (R493, R494). -/
def decoded (off : Nat) : Bool :=
  let o := off % 2 ^ 32
  let x := o % 2 ^ 24
  let i := off - 0x1000000000
  if off < 0x1000000000 then
    if o < 0x10000000 then
      decide (x < 0x1000) || (decide (0x200000 ≤ x) && decide (x < 0x204000)) || (decide (0x280000 ≤ x) && decide (x < 0x2A0000)) ||
      (x / 0x1000 ∈ [0x300, 0x400, 0x500, 0x600])
    else
      decide (o < 0x10011000) || (o / 0x1000 ∈ [0x10020, 0x10030]) || (decide (0x10100000 ≤ o) && decide (o < 0x10120000)) ||
      (decide (0x10220000 ≤ o) && decide (o < 0x1022C000))
  else if off < 0x2000000000 then
    (i / 0x1000 ∈ [0x00, 0x10, 0x20, 0x30, 0x40, 0x50, 0x60, 0x70]) || (i / 0x4000 ∈ [0x20, 0x24]) ||
    (decide (0xA0000 ≤ i) && decide (i < 0xA5000)) || (decide (0xB0000 ≤ i) && decide (i < 0x100000)) ||
    (decide (0x100000 ≤ i) && decide (i < 0x1F4000) && (chkUnit 16 ((i - 0x100000) / 0x2000)).isSome) ||
    (decide (0x200000 ≤ i) && decide (i < 0x380000)) || (decide (0x400000 ≤ i) && decide (i < 0x600000)) ||
    (decide (0x800000 ≤ i) && decide (i < 0xC00000))
  else decide (off < 0x2400000000)

/-- A secure-held register (R392) lies at an offset. -/
def Run.secHeld (r : Run s0) (off : Nat) : Bool :=
  let a := off / 8 * 8
  if 0x1000400000 ≤ off ∧ off < 0x1000600000 then r.groupSecure ((off - 0x1000400000) / 0x10000)
  else if 0x2000000000 ≤ off then
    let o := off - 0x2000000000
    decide (o / 2 ^ 28 < 32) && o / 2 ^ 20 % 256 == 0 && r.groupSecure (o / 2 ^ 28)
  else if 0x10000E0000 ≤ off ∧ off < 0x1000100000 then (aplicHeld (off - 0x10000E0000)).any r.srcSecure
  else a ∈ [SEC_GRPWORLD.off, SEC_IDRANGE.off, 0x1000080020, 0x1000080028, 0x1000080030, 0x1000080038, WDOG_CTL.off, (MBX_STAT 1).off]

/-- An agent can make an access at all: not while PORST# is held, a hart that runs, Larkspur cores once released, an agent outside
while FATAL# is not asserted. -/
def Run.acts (r : Run s0) (q : Requester) : Bool :=
  !r.1.pins.porst && match q with
    | .hart h => (r.hart h).run == .running || (r.hart h).run == .debug
    | .lark _ => r.1.fox.ready
    | .fox => true
    | .peer p => !r.1.pins.fatal && decide (p.val ∈ r.peersOn)
    | _ => !r.1.pins.fatal

/-- A configuration write of a requester must wait for a tag of its group (R321). -/
def Run.cfgWaits (r : Run s0) (q : Requester) (off : Nat) : Bool :=
  decide (0x2000000000 ≤ off) && decide (off < 0x4000000000) && !(r.secHeld off && r.normal q) && match r.cfgDst (off - 0x2000000000) with
    | .below g p => r.portUp g p && (r.freeTag g p).isNone
    | _ => false

/-- A 32-bit write that R338 allows reaches an IMSIC page here or of a peer socket (R70, R340). -/
def Run.msiWrite (r : Run s0) (q : Requester) (d : MsiDst) (off v : Nat) : Run s0 :=
  match d with
  | .file h f => r.msiBy q h f (msiId off v)
  | .peer p o => r.emit (.peerMsi (Fin.ofNat 4 p) (o / 4096 * 4096) (msiId off v))

/-- The record of a hart's access to an offline die (R218). -/
def Run.offlineRec (r : Run s0) (d off : Nat) (q : Requester) : Run s0 :=
  r.logRec (.rlink d) { event := 0x0707, cls := .ucna, addr := some (0xFFF0000000000 + off), req := some (Requester.rec q) }

/-- A compute die answers a requester (R218, R220): a hart while it is online, management firmware from its join on. -/
def Run.dieAnswers (r : Run s0) (d : Nat) (q : Requester) : Bool :=
  r.online d || (r.fld (RLINK_STAT_STATE d) == 3 && match q with
    | .hart _ => false
    | _ => true)

/-- The bytes of a doubleword that an access of n bytes at an offset names. -/
def laneMask (off n : Nat) : Word := BitVec.ofNat 64 ((256 ^ n - 1) * 256 ^ (off % 8))

/-- 32-bit words of an area are written with a function of offset and value: one, or both of a doubleword. -/
def put32 (w : Run s0 → Nat → Nat → Run s0) (r : Run s0) (o n v : Nat) : Run s0 :=
  if n = 8 then w (w r o (v % 2 ^ 32)) (o + 4) (v / 2 ^ 32 % 2 ^ 32) else if n = 4 then w r o (v % 2 ^ 32) else r

/-- A naturally aligned write of n bytes at a window offset (R338, R391 to R394, R495): whether it ends in an access fault. -/
def Run.regStore (r : Run s0) (q : Requester) (off n v : Nat) : Run s0 × Bool :=
  let pa := 0xFFF0000000000 + off
  let msi : Option MsiDst := if n = 4 then r.msiDst pa else none
  let io : Bool := match q with
    | .group _ _ => true
    | .phlox _ => true
    | .peer _ => true
    | _ => false
  if io then
    match msi with
    | some d => (r.msiWrite q d off v, false)
    | none => (r.logRec .iommu { event := 0x0701, cls := .ucna, addr := some pa, req := some (Requester.rec q) }, true)
  else if 0x4000000000 ≤ off then
    match msi with
    | some d => (r.msiWrite q d off v, false)
    | none => (r, true)
  else if off < 2 ^ 36 ∧ !r.dieAnswers (off / 2 ^ 32) q then
    (match q with
      | .hart _ => r.offlineRec (off / 2 ^ 32) off q
      | _ => r, true)
  else if !decoded off then (r, true)
  else if (imsicPage off).isSome then
    (match msi with
      | some d => r.msiWrite q d off v
      | none => r, false)
  else if r.1.pins.iodHeld && viodBlock off then (r, false)
  else if r.secHeld off && r.normal q then (r.refuse 1 q, false)
  else if 0x2000000000 ≤ off then (if n ≤ 4 then r.ecamWrite (off - 0x2000000000) n v else r, false)
  else if 0x10000E0000 ≤ off ∧ off < 0x1000100000 then
    (put32 (fun r o v => r.aplicWrite q (aplicOff o).1 (aplicOff o).2 v) r (off - 0x10000E0000) n v, false)
  else if 0x1000060000 ≤ off ∧ off < 0x1000060400 then (put32 (fun r o v => r.ioWrite o v) r (off - 0x1000060000) n v, false)
  else if 0x1000A00000 ≤ off ∧ off < 0x1000B00000 then
    let f := (off - 0x1000A00000) / 4096
    (if 4 ≤ n ∧ r.pageOpen f then r.msixWrite f (off % 4096 / 8 * 8) (laneMask off n) (BitVec.ofNat 64 (v * 256 ^ (off % 8))) else r, false)
  else if n < 4 then (r, false)
  else match findReg (off / 8 * 8) with
    | some (f, ix) => (r.regPut q f ix (off / 8 * 8) (laneMask off n) (BitVec.ofNat 64 (v * 256 ^ (off % 8))), false)
    | none => (r, false)

/-! ### Reads -/

/-- What a read of the window gives: its bytes, an access fault, a request that has gone out, or nothing while no tag is free. -/
inductive RegAns
  | value (v : Nat)
  | fault
  | sent
  | noTag
deriving DecidableEq, Repr

/-- The doubleword that a register shows. STATE of a parked hart shows whether its tile is gated (R68). -/
def Run.regShow (r : Run s0) (f : Family) (off : Nat) (ix : List Nat) : Word :=
  match f.name, ix with
  | .FOX_SEAL, _ => BitVec.ofNat 64 (r.epoch + if 32 ≤ r.epoch then 256 else 0)
  | .HART_STAT, [d, t, _] =>
    let dom := domTile (d * 16 + t)
    let w := r.reg (f.reg off)
    if Word.bits w 3 0 = 2 ∧ (r.gated dom ∨ r.fld (DOM_STAT_STATE dom) = 1) then Word.setBits w 3 0 3 else w
  | .Q_BASE, [k, _] => if r.pageOpen k then r.reg (f.reg off) else 0
  | .Q_CFG, [k, _] => if r.pageOpen k then r.reg (f.reg off) else 0
  | .Q_TAIL, [k, _] => if r.pageOpen k then r.reg (f.reg off) else 0
  | .Q_QSTAT, [k, _] => if r.pageOpen k then r.reg (f.reg off) else 0
  | _, _ => r.reg (f.reg off)

/-- 32-bit words of an area are read with a function of the offset: bytes of one, or both of a doubleword. -/
def get32 (w : Nat → Nat) (o n : Nat) : Nat := (w (o / 8 * 8) + w (o / 8 * 8 + 4) * 2 ^ 32) / 256 ^ (o % 8) % 256 ^ n

/-- A naturally aligned read of n bytes at a window offset by a hart or a Larkspur core (R361, R392, R495, R497); `h` is the hart that
waits where the request goes below a root port. -/
def Run.regLoad (r : Run s0) (q : Requester) (h : Option Nat) (off n : Nat) : Run s0 × RegAns :=
  if 0x4000000000 ≤ off then (r, .fault)
  else if off < 2 ^ 36 ∧ !r.dieAnswers (off / 2 ^ 32) q then
    (match q with
      | .hart _ => r.offlineRec (off / 2 ^ 32) off q
      | _ => r, .fault)
  else if !decoded off then (r, .fault)
  else if (imsicPage off).isSome then (r, .value 0)
  else if (r.secHeld off || off / 8 * 8 == (MBX_ADDR 1).off) && r.normal q then (r.logDenied .sec q, .value 0)
  else if 0x2000000000 ≤ off then
    let o := off - 0x2000000000
    match r.cfgDst o with
    | .below g p =>
      if !r.portUp g p then (r, .value (256 ^ n - 1))
      else match r.outSend (some (g, p)) { tag := 0, port := p, addr := 0xFFF0000000000 + off, h := h } false 0 with
        | some x => (x.1, if x.2 then .sent else .value (256 ^ n - 1))
        | none => (r, .noTag)
    | _ => let x := r.ecamRead o n; (x.1, .value x.2)
  else if 0x10000E0000 ≤ off ∧ off < 0x1000100000 then
    (r, .value (get32 (fun o => r.aplicRead (aplicOff o).1 (aplicOff o).2) (off - 0x10000E0000) n))
  else if 0x1000060000 ≤ off ∧ off < 0x1000060400 then (r, .value (get32 (fun o => r.ioReadReg o) (off - 0x1000060000) n))
  else if 0x1000A00000 ≤ off ∧ off < 0x1000B00000 then
    let f := (off - 0x1000A00000) / 4096
    (r, .value (if r.pageOpen f then (r.msixRead f (off % 4096 / 8 * 8)).toNat / 256 ^ (off % 8) % 256 ^ n else 0))
  else match findReg (off / 8 * 8) with
    | some (f, ix) =>
      let v := (r.regShow f (off / 8 * 8) ix).toNat / 256 ^ (off % 8) % 256 ^ n
      (if f.name == .FOX_REKEYQ && n == 8 then r.rekeyPop else r, .value v)
    | none => (r, .value 0)

/-! ### The commands -/

/-- The offset and size of an access to part of a register, and its value. -/
def halfOf (off : Nat) (half : Half) (v : Word) : Nat × Nat × Nat :=
  let a := off / 8 * 8
  match half with
  | .full => (a, 8, v.toNat)
  | .low => (a, 4, Word.bits v 31 0)
  | .high => (a + 4, 4, Word.bits v 63 32)
  | .small => (off, 1, Word.bits v 7 0)

/-- A write of a part of a register as a command: an access that faults changes nothing but its record. -/
def Run.regWrite (r : Run s0) (q : Requester) (off : Nat) (half : Half) (v : Word) : Run s0 :=
  if !r.acts q then r
  else
    let x := halfOf off half v
    (r.regStore q x.1 x.2.1 x.2.2).1

/-- The register of a family at its instance, written as a whole. -/
def Run.write (r : Run s0) (q : Requester) (g : Reg) (v : Word) : Run s0 := r.regWrite q g.off .full v

/-- REGISTER_WRITE (R497): a write to a register of the window. -/
def execRegisterWrite (q : Requester) (a : BitVec 40) (half : Half) (v : Word) (s : State) : Host.Outcome State Fault Refusal :=
  ((Run.start s).regWrite q a.toNat half v).done

/-- IMSIC_SET_PENDING (R70): a 32-bit write of an identity at an offset of a file page. -/
def execImsicSetPending (q : Requester) (a : BitVec 40) (v : BitVec 32) (s : State) : Host.Outcome State Fault Refusal :=
  let r := Run.start s
  (if r.acts q && a.toNat % 4 == 0 then (r.regStore q a.toNat 4 v.toNat).1 else r).done

/-- HART_RELEASE (R66, R67): a write of HART.START with RUN. -/
def execHartRelease (q : Requester) (h : Fin 1024) (v : Word) (s : State) : Host.Outcome State Fault Refusal :=
  ((Run.start s).write q (HART_START (h / 4) (h % 4)) v).done

/-- CLRMAX (R45). -/
def execClrmax (q : Requester) (n : Fin 256) (s : State) : Host.Outcome State Fault Refusal :=
  ((Run.start s).write q (TMON_TEMP n) (1#64 <<< 32)).done

/-- DROOP_CLR (R46). -/
def execDroopClr (q : Requester) (n : Fin 256) (s : State) : Host.Outcome State Fault Refusal :=
  ((Run.start s).write q (TMON_DROOP n) (1#64 <<< 63)).done

/-- PARTWAYS_WRITE (R148). -/
def execPartwaysWrite (q : Requester) (d : Fin 16) (p : Fin 16) (half : Half) (v : Word) (s : State) : Host.Outcome State Fault Refusal :=
  ((Run.start s).regWrite q (L3_PARTWAYS d p).off half v).done

/-- WAYLOCK_WRITE (R149, R151). -/
def execWaylockWrite (q : Requester) (d : Fin 16) (half : Half) (v : Word) (s : State) : Host.Outcome State Fault Refusal :=
  ((Run.start s).regWrite q (L3_WAYLOCK d).off half v).done

/-- WAYOWNER_WRITE (R149, R151). -/
def execWayownerWrite (q : Requester) (d : Fin 16) (half : Half) (v : Word) (s : State) : Host.Outcome State Fault Refusal :=
  ((Run.start s).regWrite q (L3_WAYOWNER d).off half v).done

/-- L2_DISABLE (R154): DISABLE is written 1, the other fields as they are. -/
def execL2Disable (q : Requester) (n : Fin 256) (s : State) : Host.Outcome State Fault Refusal :=
  let r := Run.start s
  (r.write q (L2CTL_CTL n) (r.reg (L2CTL_CTL n) ||| 1)).done

/-- L2_ENABLE (R154): DISABLE is written 0, the other fields as they are. -/
def execL2Enable (q : Requester) (n : Fin 256) (s : State) : Host.Outcome State Fault Refusal :=
  let r := Run.start s
  (r.write q (L2CTL_CTL n) (r.reg (L2CTL_CTL n) &&& ~~~ 1#64)).done

/-- L3_QUADRANT_DISABLE (R154): bit k of QDISABLE is written 1, the others as they are. -/
def execL3QuadrantDisable (q : Requester) (d : Fin 16) (k : Fin 4) (s : State) : Host.Outcome State Fault Refusal :=
  let r := Run.start s
  (r.write q (L3_CTL d) (r.reg (L3_CTL d) ||| (1#64 <<< k.val))).done

/-- L3_QUADRANT_ENABLE (R154): bit k of QDISABLE is written 0, the others as they are. -/
def execL3QuadrantEnable (q : Requester) (d : Fin 16) (k : Fin 4) (s : State) : Host.Outcome State Fault Refusal :=
  let r := Run.start s
  (r.write q (L3_CTL d) (r.reg (L3_CTL d) &&& ~~~ (1#64 <<< k.val))).done

/-- FAULTMAP_WRITE (R199, R221). -/
def execFaultmapWrite (q : Requester) (d : Fin 16) (half : Half) (v : Word) (s : State) : Host.Outcome State Fault Refusal :=
  ((Run.start s).regWrite q (RLINK_FAULTMAP d).off half v).done

/-- CHK_DATA (R208): a write to a stop's CHK.DATA. -/
def execChkData (q : Requester) (die : Fin 17) (stop : BitVec 8) (v : Word) (s : State) : Host.Outcome State Fault Refusal :=
  match chkUnit die stop.toNat with
  | some u => ((Run.start s).write q (CHK_DATA u) v).done
  | none => (Run.start s).done

/-- CHK_DATAN (R208): a write to a stop's CHK.DATAN. -/
def execChkDatan (q : Requester) (die : Fin 17) (stop : BitVec 8) (v : Word) (s : State) : Host.Outcome State Fault Refusal :=
  match chkUnit die stop.toNat with
  | some u => ((Run.start s).write q (CHK_DATAN u) v).done
  | none => (Run.start s).done

/-- TILE_RESET (R212, R215): GO with KIND 1. -/
def execTileReset (q : Requester) (d : Fin 16) (tiles : BitVec 16) (s : State) : Host.Outcome State Fault Refusal :=
  ((Run.start s).write q (RLINK_RESET d) (BitVec.ofNat 64 (2 ^ 63 + 2 ^ 56 + tiles.toNat))).done

/-- DIE_RESET (R198, R213, R216, R469): asked for by GO with KIND 0, its link going down, or a die-scope error. -/
def execDieReset (d : Fin 16) (cause : DieCause) (s : State) : Host.Outcome State Fault Refusal :=
  let r := Run.start s
  match cause with
  | .request q => (r.write q (RLINK_RESET d) (1#64 <<< 63)).done
  | .link => (if r.online d then r.linkDown d else r).done
  | .scope unit event =>
    if !r.online d ∨ event.toNat ∉ [0x0202, 0x0203, 0x0502] then r.done
    else (r.dieScope d (if event = 0x0502 then .home unit else .l3 d unit) event.toNat).done

/-- ADMIT (R219, R220). -/
def execAdmitDie (q : Requester) (d : Fin 16) (s : State) : Host.Outcome State Fault Refusal := ((Run.start s).write q (RLINK_CTL d) 1).done

/-- CHANNEL_START (R227): a write of MC.CTL with RUN. -/
def execChannelStart (q : Requester) (c : Fin 24) (half : Half) (v : Word) (s : State) : Host.Outcome State Fault Refusal :=
  ((Run.start s).regWrite q (MC_CTL c).off half v).done

/-- ILV_SET_ENABLE (R229): EN is written 1, BASE as it is. -/
def execIlvSetEnable (q : Requester) (i : Fin 16) (s : State) : Host.Outcome State Fault Refusal :=
  let r := Run.start s
  (r.write q (ILV_SET_BASE i) (r.reg (ILV_SET_BASE i) ||| (1#64 <<< 63))).done

/-- ILV_SET_DISABLE (R229): EN is written 0, BASE as it is. -/
def execIlvSetDisable (q : Requester) (i : Fin 16) (s : State) : Host.Outcome State Fault Refusal :=
  let r := Run.start s
  (r.write q (ILV_SET_BASE i) (r.reg (ILV_SET_BASE i) &&& ~~~ (1#64 <<< 63))).done

/-- DOORBELL (R256): a write of TAIL of a queue slot. -/
def execDoorbell (q : Requester) (f : Fin 256) (j : Fin 32) (half : Half) (v : Word) (s : State) : Host.Outcome State Fault Refusal :=
  ((Run.start s).regWrite q (Q_TAIL f j).off half v).done

/-- QUEUE_ENABLE (R255, R257): a write of CFG with EN = 1. -/
def execQueueEnable (q : Requester) (f : Fin 256) (j : Fin 32) (v : Word) (s : State) : Host.Outcome State Fault Refusal :=
  ((Run.start s).write q (Q_CFG f j) (v ||| (1#64 <<< 63))).done

/-- QUEUE_DISABLE (R257): a write of CFG with EN = 0. -/
def execQueueDisable (q : Requester) (f : Fin 256) (j : Fin 32) (v : Word) (s : State) : Host.Outcome State Fault Refusal :=
  ((Run.start s).write q (Q_CFG f j) (v &&& ~~~ (1#64 <<< 63))).done

/-- QUEUE_BIND (R294): a write of a QBIND entry. -/
def execQueueBind (q : Requester) (qi : Fin 1024) (half : Half) (v : Word) (s : State) : Host.Outcome State Fault Refusal :=
  ((Run.start s).regWrite q (PHLOX_QBIND qi).off half v).done

/-- QUEUE_UNBIND (R295): a write of a QBIND entry. -/
def execQueueUnbind (q : Requester) (qi : Fin 1024) (half : Half) (v : Word) (s : State) : Host.Outcome State Fault Refusal :=
  ((Run.start s).regWrite q (PHLOX_QBIND qi).off half v).done

/-- QUEUE_MOVE (R296): a write of a QBIND entry. -/
def execQueueMove (q : Requester) (qi : Fin 1024) (half : Half) (v : Word) (s : State) : Host.Outcome State Fault Refusal :=
  ((Run.start s).regWrite q (PHLOX_QBIND qi).off half v).done

/-- SHARE_WRITE (R297, R301). -/
def execShareWrite (q : Requester) (f : Fin 256) (half : Half) (v : Word) (s : State) : Host.Outcome State Fault Refusal :=
  ((Run.start s).regWrite q (FN_SHARE f).off half v).done

/-- G_CFG_WRITE (R308). -/
def execGCfgWrite (q : Requester) (g : Fin 32) (half : Half) (v : Word) (s : State) : Host.Outcome State Fault Refusal :=
  ((Run.start s).regWrite q (G_CFG g).off half v).done

/-- REKEYQ_READ (R361): an 8-byte read of FOX.REKEYQ. -/
def execRekeyqRead (q : Requester) (s : State) : Host.Outcome State Fault Refusal :=
  let r := Run.start s
  let reader : Bool := match q with
    | .hart _ => true
    | .lark _ => true
    | _ => false
  (if r.acts q && reader then (r.regLoad q none FOX_REKEYQ.off 8).1 else r).done

/-- WDOG_KICK (R395). -/
def execWdogKick (q : Requester) (s : State) : Host.Outcome State Fault Refusal := ((Run.start s).write q WDOG_KICK 1).done

/-- The value of FOX.START that a write of single bits leaves the rest of as it is. -/
def Run.startWord (r : Run s0) (bits : Word) : Word := r.reg FOX_START ||| bits

/-- WARM_RESET (R407): WARM is written, and the start that follows reads `env` where REFOK still reads 1. -/
def execWarmReset (q : Requester) (env : StartEnv) (s : State) : Host.Outcome State Fault Refusal :=
  let r := Run.start s
  let may : Bool := match q with
    | .hart _ => true
    | .lark _ => true
    | _ => false
  if !r.acts q || !may || (r.1.pins.iodHeld && viodBlock FOX_START.off) then r.done
  else
    let p := r.wFoxStart q (r.reg FOX_START) (1#64 <<< 34)
    (if p.2 then p.1.warmStart env else p.1).done

/-- CONFIGURATION_LOCK (R413). -/
def execConfigurationLock (q : Requester) (s : State) : Host.Outcome State Fault Refusal := ((Run.start s).write q FOX_CFGLOCK 1).done

/-- DRAMRDY (R412). -/
def execDramrdy (q : Requester) (s : State) : Host.Outcome State Fault Refusal :=
  let r := Run.start s
  (r.write q FOX_START (r.reg FOX_START &&& 0xFF0000000400 ||| (1#64 <<< 33))).done

/-- MFAIL (R412), with its detail code. -/
def execMfail (q : Requester) (code : BitVec 8) (s : State) : Host.Outcome State Fault Refusal :=
  let r := Run.start s
  (r.write q FOX_START (Word.setBits (r.reg FOX_START &&& 0xFF0000000400 ||| (1#64 <<< 32)) 47 40 code.toNat)).done

/-- A request of WEIR.DOMCMD (R444) by its OP. -/
def Run.domCommand (r : Run s0) (q : Requester) (op : Nat) (dom : BitVec 9) : Run s0 :=
  r.write q WEIR_DOMCMD (BitVec.ofNat 64 (2 ^ 63 + op * 2 ^ 56 + dom.toNat))

/-- GATEHOLD (R444). -/
def execGatehold (q : Requester) (dom : BitVec 9) (s : State) : Host.Outcome State Fault Refusal := ((Run.start s).domCommand q 0 dom).done

/-- RELEASE (R444). -/
def execRelease (q : Requester) (dom : BitVec 9) (s : State) : Host.Outcome State Fault Refusal := ((Run.start s).domCommand q 1 dom).done

/-- CLKSTOP (R444). -/
def execClkstop (q : Requester) (dom : BitVec 9) (s : State) : Host.Outcome State Fault Refusal := ((Run.start s).domCommand q 2 dom).done

/-- BOUND_WRITE (R442). -/
def execBoundWrite (q : Requester) (half : Half) (v : Word) (s : State) : Host.Outcome State Fault Refusal :=
  ((Run.start s).regWrite q WEIR_BOUND.off half v).done

/-- RING_POP (R457): POP of a die's ring. -/
def execRingPop (q : Requester) (die : Fin 17) (s : State) : Host.Outcome State Fault Refusal :=
  ((Run.start s).write q (ERR_RINGPOP die) 1).done

end Sys2Proof.Machine
end

