-- ==== Sys2Proof/Machine/Access.lean ====
section
/-! DEFINITION. The memory instructions of a hart: loads, stores, AMOs, LR and SC, fences, maintenance by address and by slot, and
prefetches (R17, R23 to R27, R57, R58, R88 to R92, R97, R128 to R146, R185 to R187, R528). A hart executes one instruction at a time. -/
namespace Sys2Proof.Machine

variable {s0 : State}

/-! ### Checks -/

/-- The bytes of an access within one line: the offset of its virtual address, its length and its place in the value. -/
def splitLine (va : Word) (n : Nat) : List (Nat × Nat) :=
  let k := 64 - va.toNat % 64
  if n ≤ k then [(0, n)] else [(0, k), (k, n - k)]

/-- A checked part: its physical address, memory type, length and place. -/
structure PPart where
  pa : Nat
  mt : Nat
  len : Nat
  pos : Nat
deriving DecidableEq, Repr

/-- How the checks of an access end. -/
inductive Plan
  | ok (ps : List PPart)
  | exc (x : Exc)
  | poison (l : LineAddr) (va : Word)
deriving DecidableEq, Repr

/-- A part's line, offset, length and place. -/
def PPart.part (p : PPart) : Part := { line := BitVec.ofNat 46 (p.pa / 64), off := p.pa % 64, len := p.len, pos := p.pos }

/-- A physical address in a device region. -/
def PPart.dev (p : PPart) : Bool := (regionOf p.pa).device

/-- The transformed instruction of a part that starts `off` bytes into its access (H extension; PRESUMED, log entry 6). -/
def tinstAt (tinst off : Nat) : Nat := if tinst = 0 then 0 else natSetBits tinst 19 15 off

/-- Check each part of an access of n bytes in order (R57, R93): a misaligned one that touches a device region faults. -/
def Run.plan (r : Run s0) (h : Nat) (acc : Acs) (prv : Nat) (v hlv hlvx : Bool) (tinst : Nat) (va : Word) (n : Nat) : Run s0 × Plan :=
  (splitLine va n).foldl (fun (p : Run s0 × Plan) x =>
    match p.2 with
    | .ok ps =>
      let a := va + BitVec.ofNat 64 x.1
      let t := p.1.translate h acc prv v hlv hlvx (tinstAt tinst x.1) a x.2
      match t.2 with
      | .exc e => (t.1, .exc e)
      | .poison l => (t.1, .poison l a)
      | .ok pa mt =>
        let y : PPart := { pa := pa, mt := mt, len := x.2, pos := x.1 }
        if y.dev && va.toNat % n != 0 then (t.1, .exc { cause := acc.accessFault, tval := a, v := v }) else (t.1, .ok (ps ++ [y]))
    | _ => p) (r, .ok [])

/-- The FS or VS field that an f or v register needs, and its dirty mark: at V = 1 of vsstatus too. -/
def Run.ctxOff (r : Run s0) (h hi : Nat) : Bool := r.cf h 0x300 hi (hi - 1) == 0 || ((r.hart h).mode.virt && r.cf h 0x200 hi (hi - 1) == 0)

/-- Mark the FS or VS state dirty. -/
def Run.ctxDirty (r : Run s0) (h hi : Nat) : Run s0 :=
  let r := r.setCf h 0x300 hi (hi - 1) 3
  if (r.hart h).mode.virt then r.setCf h 0x200 hi (hi - 1) 3 else r

/-- The registers of a destination are off: FS is 0 for f registers, VS for vector registers. -/
def Run.destOff (r : Run s0) (h : Nat) (d : Dest) : Bool :=
  match d with
  | .x _ => false
  | .f _ => r.ctxOff h 14
  | .v _ _ => r.ctxOff h 10

/-- A load marks its registers' state dirty. -/
def Run.destDirty (r : Run s0) (h : Nat) (d : Dest) : Run s0 :=
  match d with
  | .x _ => r
  | .f _ => r.ctxDirty h 14
  | .v _ _ => r.ctxDirty h 10

/-- What keeps an H-extension access from a mode: a virtual-instruction exception at V = 1, illegal in U-mode while hstatus.HU is 0. -/
def Run.hlvRefused (r : Run s0) (h : Nat) : Option Nat :=
  let md := (r.hart h).mode
  if md.virt then some 22 else if md = .u ∧ !r.cb h 0x600 9 then some 2 else none

/-! ### Loads -/

/-- The transformed instruction of a load (H extension). -/
def loadTinst (rd : Dest) (lg : Nat) (uns : Bool) (form : MemForm) : Nat :=
  match form, rd with
  | .plain, .x i => (lg + if uns then 4 else 0) * 2 ^ 12 + i.val * 2 ^ 7 + 0x03
  | .plain, .f i => lg * 2 ^ 12 + i.val * 2 ^ 7 + 0x07
  | .hlv, .x i => (0x30 + 2 * lg) * 2 ^ 25 + (if uns then 2 ^ 20 else 0) + 4 * 2 ^ 12 + i.val * 2 ^ 7 + 0x73
  | .hlvx, .x i => (0x30 + 2 * lg) * 2 ^ 25 + 3 * 2 ^ 20 + 4 * 2 ^ 12 + i.val * 2 ^ 7 + 0x73
  | _, _ => 0

/-- A load whose operands no encoding has. -/
def badLoad (rd : Dest) (imm : BitVec 12) (lg : Nat) (uns : Bool) (form : MemForm) : Bool :=
  match rd, form with
  | .x _, .plain => uns && lg == 3
  | .x _, .hlv => (uns && lg == 3) || imm != 0
  | .x _, .hlvx => !uns || imm != 0 || lg == 0 || lg == 3
  | .f _, .plain => uns || lg == 0
  | .v _ e, .plain => uns || decide (256 < (e.val + 1) * 8 * 2 ^ lg)
  | _, _ => true

/-- A checked load of a device region (R17): the register window at once, the I/O windows through a root port (R313, R314). It waits
unexecuted while no tag is free (R321). -/
def Run.devLoad (r : Run s0) (h : Nat) (a : Acc) (p : PPart) : Run s0 :=
  let hold (r : Run s0) : Run s0 := r.modHart h fun t => { t with wait := some (.device a) }
  let fault (r : Run s0) : Run s0 := r.trap h { cause := 5, tval := a.va }
  if regionOf p.pa = .window then
    let x := r.regLoad (.hart (Fin.ofNat 1024 h)) (some h) (p.pa - 0xFFF0000000000) p.len
    match x.2 with
    | .value v => x.1.finishAcc h { a with got := BitVec.ofNat 128 v } 0
    | .fault => fault x.1
    | .sent => hold x.1
    | .noTag => r
  else match r.outSend (r.claim p.pa) { tag := 0, port := 0, addr := p.pa, h := some h } false 0 with
    | some x => if x.2 then hold x.1 else fault x.1
    | none => r

/-- An access that reads begins: its own stores are forwarded (R27), and the line, the home (R97) or the device answers. -/
def Run.beginRead (r : Run s0) (h : Nat) (op : MemOp) (lg : Nat) (va : Word) (ps : List PPart) : Run s0 :=
  let parts := ps.map PPart.part
  let fs := parts.map fun p => r.forward h p
  let a : Acc := { op := op, lg := lg, parts := parts, got := BitVec.ofNat 128 (fs.foldl (fun a f => a ||| f.1) 0), fwd := fs.foldl (fun a f => a ||| f.2) 0, va := va }
  match ps with
  | [] => r
  | p :: _ =>
    if p.dev then r.devLoad h { a with got := 0, fwd := 0 } p
    else if ps.any (·.mt != 0) then
      let l := p.part.line
      (r.modHart h fun t => { t with wait := some (.home a) }).send { kind := .rdOnce, src := .hart (Fin.ofNat 1024 h), dst := homeOf l, line := l }
    else (r.modHart h fun t => { t with wait := some (.line a) }).go [.hart h]

/-- LOAD (R17, R23, R25, R27, R57, R93, R97, R187). -/
def execLoad (h : Fin 1024) (rd : Dest) (rs1 : Fin 32) (imm : BitVec 12) (lg : Fin 4) (uns : Bool) (form : MemForm) (s : State) : Host.Outcome State Fault Refusal :=
  let r := Run.start s
  let hlv := form != .plain
  if !r.ready h then r.done
  else if badLoad rd imm lg uns form || r.destOff h rd then (r.illegal h).done
  else match (if hlv then r.hlvRefused h else none) with
    | some c => (r.trap h { cause := c }).done
    | none =>
      let e := r.effective h hlv
      let va := r.xr h rs1 + imm.signExtend 64
      let p := r.plan h .load e.1 e.2 hlv (form == .hlvx) (loadTinst rd lg uns form) va (2 ^ lg.val)
      match r.trigHit h 0 va.toNat (2 ^ lg.val) with
      | some i => (r.fire h i va).done
      | none => match p.2 with
      | .exc x => (p.1.trap h x).done
      | .poison l a => (p.1.consume h 3 l a).done
      | .ok ps => ((p.1.destDirty h rd).beginRead h (.load rd uns) lg va ps).done

/-! ### Stores -/

/-- The transformed instruction of a store (H extension). -/
def storeTinst (rs2 : Dest) (lg : Nat) (form : MemForm) : Nat :=
  match form, rs2 with
  | .plain, .x i => i.val * 2 ^ 20 + lg * 2 ^ 12 + 0x23
  | .plain, .f i => i.val * 2 ^ 20 + lg * 2 ^ 12 + 0x27
  | .hlv, .x i => (0x31 + 2 * lg) * 2 ^ 25 + i.val * 2 ^ 20 + 4 * 2 ^ 12 + 0x73
  | _, _ => 0

/-- A store whose operands no encoding has. -/
def badStore (rs2 : Dest) (imm : BitVec 12) (lg : Nat) (form : MemForm) : Bool :=
  match rs2, form with
  | .x _, .plain => false
  | .x _, .hlv => imm != 0
  | .f _, .plain => lg == 0
  | .v _ e, .plain => decide (256 < (e.val + 1) * 8 * 2 ^ lg)
  | _, _ => true

/-- The value that a store reads. -/
def Run.storeValue (r : Run s0) (h : Nat) (rs2 : Dest) (lg : Nat) : Nat :=
  (match rs2 with
    | .x i => (r.xr h i).toNat
    | .f i => (r.f (h * 32 + i)).toNat
    | .v i e => (r.v (h * 32 + i)).toNat / 2 ^ (e.val * 8 * 2 ^ lg % 256)) % 256 ^ 2 ^ lg

/-- The store-queue entries that a hart may hold (R63): 40 while two or more harts of its core are not parked, else all 64. -/
def Run.sqFree (r : Run s0) (n h k : Nat) : Bool :=
  let q := (r.tile n).sq
  let busy := ((List.range 4).filter fun i => (r.hart (n * 4 + i)).run == .running).length
  decide (q.length + k ≤ 64) && (decide (busy < 2) || decide ((q.filter (·.hart == h)).length + k ≤ 40))

/-- The bytes of a store's part go to the merging buffer, or behind the stores that wait for it (R26). -/
def Run.putStore (r : Run s0) (n : Nat) (e : SqEntry) : Run s0 :=
  let t := r.tile n
  if t.sq.isEmpty && t.takes e then r.smbPut n e else r.modTile n fun t => { t with sq := t.sq ++ [e] }

/-- The part's bytes of a store's value as a store-queue entry. -/
def PPart.entry (p : PPart) (h v : Nat) : SqEntry :=
  { hart := h, line := p.part.line, data := lineBytes p.part.off p.len (v / 256 ^ p.pos), mask := spanMask p.part.off p.len }

/-- A hart retires unless the store that it has just made has stopped it. -/
def Run.retireAlive (r : Run s0) (h : Nat) : Run s0 := if (r.hart h).run = .running ∨ (r.hart h).run = .debug then r.retire h else r

/-- A store of memory type NC or IO leaves for the home of its line (R97, R129). -/
def Run.homeStore (r : Run s0) (h v : Nat) (p : PPart) : Run s0 :=
  let e := p.entry h v
  r.send { kind := .wrPart, src := .hart (Fin.ofNat 1024 h), dst := homeOf e.line, line := e.line, data := e.data, mask := e.mask }

/-- A checked store goes to its target: a device (R17), the homes of its lines (R97; one of type IO waits for them, since device
accesses of a hart keep program order), or the merging buffer. A store for which the store queue is full has no effect yet. -/
def Run.beginStore (r : Run s0) (h v : Nat) (va : Word) (ps : List PPart) : Run s0 :=
  let n := tileOf h
  match ps with
  | [] => r
  | p :: _ =>
    if p.dev then
      if regionOf p.pa = .window then
        let x := r.regStore (.hart (Fin.ofNat 1024 h)) (p.pa - 0xFFF0000000000) p.len v
        if r.cfgWaits (.hart (Fin.ofNat 1024 h)) (p.pa - 0xFFF0000000000) then r
        else if x.2 then x.1.trap h { cause := 7, tval := va } else x.1.retireAlive h
      else (r.outPost p.pa v (some (1, h))).retire h
    else if ps.any (·.mt != 0) then
      let io := ps.filter (·.mt == 2)
      let cached := ps.filter (·.mt == 0)
      if !r.sqFree n h cached.length then r
      else
        let r := cached.foldl (fun r p => r.putStore n (p.entry h v)) r
        let r := (ps.filter (·.mt != 0)).foldl (fun r p => r.homeStore h v p) r
        let r := (ps.filter (·.mt == 1)).foldl (fun r p => r.modHart h fun t => { t with ncOut := t.ncOut ++ [p.part.line] }) r
        (if io.isEmpty then r.retire h else r.modHart h fun t => { t with wait := some (.cbo (io.map (·.part.line)) none) }).go [.smb n]
    else if !r.sqFree n h ps.length then r
    else ((ps.foldl (fun r p => r.putStore n (p.entry h v)) r).retire h).go [.smb n]

/-- STORE (R17, R26, R57, R93, R97, R129). -/
def execStore (h : Fin 1024) (rs2 : Dest) (rs1 : Fin 32) (imm : BitVec 12) (lg : Fin 4) (form : MemForm) (s : State) : Host.Outcome State Fault Refusal :=
  let r := Run.start s
  let hlv := form != .plain
  if !r.ready h then r.done
  else if badStore rs2 imm lg form || r.destOff h rs2 then (r.illegal h).done
  else match (if hlv then r.hlvRefused h else none) with
    | some c => (r.trap h { cause := c }).done
    | none =>
      let e := r.effective h hlv
      let va := r.xr h rs1 + imm.signExtend 64
      let p := r.plan h .store e.1 e.2 hlv false (storeTinst rs2 lg form) va (2 ^ lg.val)
      match r.trigHit h 1 va.toNat (2 ^ lg.val) with
      | some i => (r.fire h i va).done
      | none => match p.2 with
      | .exc x => (p.1.trap h x).done
      | .poison l a => (p.1.consume h 3 l a).done
      | .ok ps => (p.1.beginStore h (r.storeValue h rs2 lg) va ps).done

/-- SMB_IDLE_TIMEOUT (R130): entry i of a tile's merging buffer, unwritten for 64 tokens, starts to drain. -/
def execSmbIdleTimeout (n : Fin 256) (i : Fin 16) (s : State) : Host.Outcome State Fault Refusal :=
  let r := Run.start s
  match (r.tile n).smb[i.val]? with
  | none => r.done
  | some e => ((r.modTile n fun t => { t with smb := t.smb.set i { e with draining := true } }).go [.smb n]).done

/-! ### AMO, LR and SC -/

/-- The funct5 field of an AMO. -/
def amoFunct : AmoOp → Nat
  | .add => 0
  | .swap => 1
  | .xor => 4
  | .cas => 5
  | .or => 8
  | .and => 12
  | .min => 16
  | .max => 20
  | .minu => 24
  | .maxu => 28

/-- The transformed instruction of an AMO, LR or SC. -/
def amoTinst (f5 lg rd rs2 : Nat) (aq rl : Bool) : Nat :=
  f5 * 2 ^ 27 + (if aq then 2 ^ 26 else 0) + (if rl then 2 ^ 25 else 0) + rs2 * 2 ^ 20 + lg * 2 ^ 12 + rd * 2 ^ 7 + 0x2F

/-- An even-odd pair of integer registers, or one register; x0 of a pair reads 0 twice. -/
def Run.xPair (r : Run s0) (h i lg : Nat) : BitVec 128 :=
  if lg = 4 then (if i = 0 then 0 else (r.xr h i).zeroExtend 128 ||| ((r.xr h (i + 1)).zeroExtend 128 <<< 64)) else (r.xr h i).zeroExtend 128

/-- The access lies where LR, SC and AMO may act: a memory-like region with memory type PMA (R17, R97). -/
def PPart.atomic (p : PPart) : Bool := !p.dev && p.mt == 0

/-- An AMO takes the home path (R89). -/
def Run.homePath (r : Run s0) (h pa n : Nat) : Bool :=
  decide (pa % n = 0) && (r.cb h 0x7C1 4 || (List.range 4).any fun i =>
    let w := r.csr h (0x7C4 + i)
    let k := Word.bits w 57 52
    w.getLsbD 63 && Word.bits w 51 12 * 4096 / 2 ^ k == pa / 2 ^ k)

/-- The earlier stores of a hart drain, to one line or, with rl = 1, all; then the access goes on (R90, R130). -/
def Run.after (r : Run s0) (h : Nat) (ls : Option (List LineAddr)) (x : Next) : Run s0 :=
  let r := match ls with
    | none => r.startDrain h
    | some ls => r.startDrainOf h ls
  if r.storesLeft h ls then r.modHart h fun t => { t with wait := some (.drain ls x) }
  else
    let p := r.goOn h x
    p.1.go p.2

/-- AMO (R17, R57, R89 to R92): an encoding that does not exist is illegal, a misaligned AMO must lie within 16 bytes. -/
def execAmo (h : Fin 1024) (op : AmoOp) (lg : Fin 5) (rd : Fin 32) (rs1 : Fin 32) (rs2 : Fin 32) (aq : Bool) (rl : Bool) (s : State) : Host.Outcome State Fault Refusal :=
  let r := Run.start s
  let n := 2 ^ lg.val
  let va := r.xr h rs1
  if !r.ready h then r.done
  else if lg = 4 ∧ (op ≠ .cas ∨ rd.val % 2 = 1 ∨ rs2.val % 2 = 1) then (r.illegal h).done
  else if let some i := (r.trigHit h 0 va.toNat n <|> r.trigHit h 1 va.toNat n) then (r.fire h i va).done
  else if va.toNat % 16 + n > 16 then (r.trap h { cause := 6, tval := va, v := (r.effective h false).2 }).done
  else
    let e := r.effective h false
    let t := r.translate h .store e.1 e.2 false false (amoTinst (amoFunct op) lg rd rs2 aq rl) va n
    match t.2 with
    | .exc x => (t.1.trap h x).done
    | .poison l => (t.1.consume h 3 l va).done
    | .ok pa mt =>
      let p : PPart := { pa := pa, mt := mt, len := n, pos := 0 }
      if !p.atomic then (t.1.trap h { cause := 7, tval := va, v := e.2 }).done
      else
        let a : Acc := { op := .amo rd op (r.xPair h rs2 lg) (r.xPair h rd lg), lg := lg, parts := [p.part], va := va }
        let x : Next := if t.1.homePath h pa n then .home a else .line a
        (t.1.after h (if rl then none else some [p.part.line]) x).done

/-- LR (R57, R186, R528): with rl = 1 its hart's earlier stores are visible first. -/
def execLr (h : Fin 1024) (lg : Fin 4) (rd : Fin 32) (rs1 : Fin 32) (aq : Bool) (rl : Bool) (s : State) : Host.Outcome State Fault Refusal :=
  let r := Run.start s
  let n := 2 ^ lg.val
  let va := r.xr h rs1
  if !r.ready h then r.done
  else if lg.val < 2 then (r.illegal h).done
  else if let some i := r.trigHit h 0 va.toNat n then (r.fire h i va).done
  else if va.toNat % n ≠ 0 then (r.trap h { cause := 4, tval := va, v := (r.effective h false).2 }).done
  else
    let e := r.effective h false
    let t := r.translate h .load e.1 e.2 false false (amoTinst 2 lg rd 0 aq rl) va n
    match t.2 with
    | .exc x => (t.1.trap h x).done
    | .poison l => (t.1.consume h 3 l va).done
    | .ok pa mt =>
      let p : PPart := { pa := pa, mt := mt, len := n, pos := 0 }
      if !p.atomic then (t.1.trap h { cause := 5, tval := va, v := e.2 }).done
      else if rl then (t.1.after h none (.line { op := .lr rd, lg := lg, parts := [p.part], va := va })).done
      else (t.1.beginRead h (.lr rd) lg va [p]).done

/-- SC (R57, R186, R528): the delay of snoops ends as it executes; its hart's earlier stores to the line, or all with rl = 1, are visible
first. -/
def execSc (h : Fin 1024) (lg : Fin 4) (rd : Fin 32) (rs1 : Fin 32) (rs2 : Fin 32) (aq : Bool) (rl : Bool) (s : State) : Host.Outcome State Fault Refusal :=
  let r := Run.start s
  let n := 2 ^ lg.val
  let va := r.xr h rs1
  if !r.ready h then r.done
  else if lg.val < 2 then (r.illegal h).done
  else if let some i := r.trigHit h 1 va.toNat n then (r.fire h i va).done
  else if va.toNat % n ≠ 0 then (r.trap h { cause := 6, tval := va, v := (r.effective h false).2 }).done
  else
    let e := r.effective h false
    let t := r.translate h .store e.1 e.2 false false (amoTinst 3 lg rd rs2 aq rl) va n
    match t.2 with
    | .exc x => (t.1.trap h x).done
    | .poison l => (t.1.consume h 3 l va).done
    | .ok pa mt =>
      let p : PPart := { pa := pa, mt := mt, len := n, pos := 0 }
      if !p.atomic then (t.1.trap h { cause := 7, tval := va, v := e.2 }).done
      else
        let a : Acc := { op := .sc rd ((r.xr h rs2).zeroExtend 128), lg := lg, parts := [p.part], va := va }
        let delayed := (r.hart h).lrDelay
        let r := (t.1.modHart h fun t => { t with lrDelay := none }).after h (if rl then none else some [p.part.line]) (.line a)
        (match delayed with
          | some l => r.go [.retry (dieOf (tileOf h) * 4 + quadOf l)]
          | none => r).done

/-- LR_SNOOP_DELAY_END (R186): 128 tokens have passed since the LR. -/
def execLrSnoopDelayEnd (h : Fin 1024) (s : State) : Host.Outcome State Fault Refusal := ((Run.start s).endDelay h).done

/-! ### Fences -/

/-- FIOM of the envcfg registers that govern a mode: device accesses of a FENCE imply memory accesses. -/
def Run.fiom (r : Run s0) (h : Nat) : Bool :=
  let md := (r.hart h).mode
  md != .m && md != .debug && (r.cb h 0x30A 0 || (md.user && r.cb h 0x10A 0) || (md.virt && r.cb h 0x60A 0))

/-- FENCE and FENCE.TSO (R130, R187): with W among the predecessors the merging buffer drains, and with any successor the hart waits
until its stores are visible or acknowledged. Loads and device accesses are complete before the hart goes on. -/
def execFence (h : Fin 1024) (pred : BitVec 4) (succ : BitVec 4) (tso : Bool) (s : State) : Host.Outcome State Fault Refusal :=
  let r := Run.start s
  let w := pred.getLsbD 0 || (pred.getLsbD 2 && r.fiom h)
  if !r.ready h then r.done
  else if tso || (w && succ != 0) then (r.after h none .retire).done
  else if w then ((r.startDrain h).retire h).done
  else (r.retire h).done

/-- FENCE_I (R58, R130): the hart's stores are visible first; the model keeps no fetched instruction. -/
def execFenceI (h : Fin 1024) (s : State) : Host.Outcome State Fault Refusal :=
  let r := Run.start s
  if !r.ready h then r.done else (r.after h none .retire).done

/-! ### Maintenance by address -/

/-- The operations of Zicbom and Zicboz. -/
inductive Cbo
  | clean | flush | inval | zero
deriving DecidableEq, Repr

/-- What the xenvcfg fields make of an operation (R138): an exception cause, or the operation performed. -/
def Run.cboEnable (r : Run s0) (h : Nat) (k : Cbo) : Sum Nat Cbo :=
  let md := (r.hart h).mode
  let fld (n : Nat) : Nat := match k with
    | .inval => r.cf h n 5 4
    | .zero => r.cf h n 7 7
    | _ => r.cf h n 6 6
  let m := if md = .m ∨ md = .debug then 3 else fld 0x30A
  let s := if md.user then fld 0x10A else 3
  let hv := if md.virt then fld 0x60A else 3
  if m = 0 ∨ (md = .u ∧ s = 0) then .inl 2
  else if hv = 0 ∨ s = 0 then .inl 22
  else if k = .inval ∧ (m = 1 ∨ s = 1 ∨ hv = 1) then .inr .flush
  else .inr k

/-- How an operation is checked (R140). -/
def Cbo.acs : Cbo → Acs
  | .clean | .flush => .clean
  | .inval => .inval
  | .zero => .store

/-- The message of an operation. -/
def Cbo.msg : Cbo → MsgKind
  | .clean => .cboC
  | .flush => .cboF
  | _ => .cboI

/-- The transformed instruction of a CBO. -/
def Cbo.tinst (k : Cbo) : Nat :=
  (match k with
    | .inval => 0
    | .clean => 1
    | .flush => 2
    | .zero => 4) * 2 ^ 20 + 2 * 2 ^ 12 + 0x0F

/-- CBO.ZERO of a line: a merging-buffer entry of zeros that asks for ownership without data (R139). -/
def Run.cboZeroLine (r : Run s0) (h : Nat) (l : LineAddr) : Run s0 :=
  let n := tileOf h
  if !r.sqFree n h 1 then r
  else ((r.putStore n { hart := h, line := l, data := 0, mask := BitVec.allOnes 64, zero := true, draining := true }).retire h).go [.smb n]

/-- A CBO of the line that rs1 names (R138 to R142). With CBIE = 01 a CBO.INVAL is checked as the flush that it performs: check 7 takes it as a
load (DESIGN CHOICE, log entry 28). -/
def Run.cbo (r : Run s0) (h rs1 : Nat) (k : Cbo) : Run s0 :=
  match r.cboEnable h k with
  | .inl c => r.trap h { cause := c }
  | .inr k' =>
    let e := r.effective h false
    let va := r.xr h rs1
    let t := r.translate h k'.acs e.1 e.2 false false k.tinst va 1
    match t.2 with
    | .exc x => t.1.trap h x
    | .poison l => t.1.consume h 3 l va
    | .ok pa _ =>
      let l : LineAddr := BitVec.ofNat 46 (pa / 64)
      if (regionOf pa).device then (if k' = .zero then t.1.trap h { cause := 7, tval := va, v := e.2 } else t.1.retire h)
      else if k' = .zero then t.1.cboZeroLine h l
      else t.1.after h (some [l]) (.cbo k'.msg [l] none)

/-- CBO_CLEAN (R139 to R141). -/
def execCboClean (h : Fin 1024) (rs1 : Fin 32) (s : State) : Host.Outcome State Fault Refusal :=
  let r := Run.start s
  if !r.ready h then r.done else (r.cbo h rs1 .clean).done

/-- CBO_FLUSH (R139 to R141). -/
def execCboFlush (h : Fin 1024) (rs1 : Fin 32) (s : State) : Host.Outcome State Fault Refusal :=
  let r := Run.start s
  if !r.ready h then r.done else (r.cbo h rs1 .flush).done

/-- CBO_INVAL (R138 to R142). -/
def execCboInval (h : Fin 1024) (rs1 : Fin 32) (s : State) : Host.Outcome State Fault Refusal :=
  let r := Run.start s
  if !r.ready h then r.done else (r.cbo h rs1 .inval).done

/-- CBO_ZERO (R139 to R141). -/
def execCboZero (h : Fin 1024) (rs1 : Fin 32) (s : State) : Host.Outcome State Fault Refusal :=
  let r := Run.start s
  if !r.ready h then r.done else (r.cbo h rs1 .zero).done

/-- A prefetch (R133): nothing unless the access passes its checks, its line is cacheable and not held as asked, and a miss register
is free. -/
def Run.prefetch (r : Run s0) (h rs1 : Nat) (imm : BitVec 12) (acc : Acs) : Run s0 :=
  let e := r.effective h false
  let n := tileOf h
  let va := r.xr h rs1 + (imm &&& 0xFE0).signExtend 64
  let own := acc == .store
  let inst := acc == .fetch
  let t := r.translate h acc e.1 e.2 false false 0 va 1
  match t.2 with
  | .ok pa 0 =>
    let r := t.1
    let l : LineAddr := BitVec.ofNat 46 (pa / 64)
    if regionOf pa ≠ .memory then r.retire h
    else if r.l2Has n l own then (if inst then r.l1Fill n l true else r).retire h
    else if !(r.tile n).miss.any (·.line = l) && decide (48 ≤ (r.tile n).miss.length) then r.retire h
    else if inst && !r.l1iRoom n l then r.retire h
    else ((r.miss n l own false (.prefetch inst)).go [.launch n l]).retire h
  | _ => r.retire h

/-- PREFETCH_R (R133, R139). -/
def execPrefetchR (h : Fin 1024) (rs1 : Fin 32) (imm : BitVec 12) (s : State) : Host.Outcome State Fault Refusal :=
  let r := Run.start s
  if !r.ready h then r.done else (r.prefetch h rs1 imm .load).done

/-- PREFETCH_W (R133, R139). -/
def execPrefetchW (h : Fin 1024) (rs1 : Fin 32) (imm : BitVec 12) (s : State) : Host.Outcome State Fault Refusal :=
  let r := Run.start s
  if !r.ready h then r.done else (r.prefetch h rs1 imm .store).done

/-- PREFETCH_I (R133, R139). -/
def execPrefetchI (h : Fin 1024) (rs1 : Fin 32) (imm : BitVec 12) (s : State) : Host.Outcome State Fault Refusal :=
  let r := Run.start s
  if !r.ready h then r.done else (r.prefetch h rs1 imm .fetch).done

/-- The lines that a DW.CMORNG from S to an end processes (R143). -/
def rangeLines (s e : Nat) : Nat := min (min ((e - s + 63) / 64) 64) ((4096 - s % 4096) / 64)

/-- The operation that funct7 selects (R143). -/
def cmoOf (f7 : Nat) : Cbo := if f7 = 0 then .clean else if f7 = 1 then .inval else .flush

/-- DW_CMORNG (R143): an empty range raises no exception; otherwise one check for the page, then the CBO of every line. -/
def Run.dwCmorng (r : Run s0) (h : Fin 1024) (rd rs1 rs2 : Fin 32) (f7 : BitVec 7) : Run s0 :=
  let a := r.xr h rs1 &&& ~~~ 0x3F
  let k := cmoOf f7.toNat
  if !r.ready h then r
  else if 2 < f7.toNat then r.illegal h
  else if r.xr h rs2 ≤ a then ((r.startDrain h).setXr h rd a).retire h
  else match r.cboEnable h k with
    | .inl c => r.trap h { cause := c }
    | .inr k' =>
      let e := r.effective h false
      let t := r.translate h k'.acs e.1 e.2 false false 0 a 1
      match t.2 with
      | .exc x => t.1.trap h x
      | .poison l => t.1.consume h 3 l a
      | .ok pa _ =>
        let n := rangeLines a.toNat (r.xr h rs2).toNat
        let v := a + BitVec.ofNat 64 (64 * n)
        let r := t.1.startDrain h
        if (regionOf pa).device then (r.setXr h rd v).retire h
        else
          let ls : List LineAddr := (List.range n).map fun i => BitVec.ofNat 46 (pa / 64 + i)
          r.after h (some ls) (.cbo k'.msg ls (some (rd, v)))

/-- DW_CMORNG (R143). -/
def execDwCmorng (h : Fin 1024) (rd : Fin 32) (rs1 : Fin 32) (rs2 : Fin 32) (f7 : BitVec 7) (s : State) : Host.Outcome State Fault Refusal := ((Run.start s).dwCmorng h rd rs1 rs2 f7).done

/-! ### Maintenance by set and way -/

/-- DW_SWOP (R144 to R146): a bit of rs1 that must be 0 names a way that no level has. -/
def Run.dwSwop (r : Run s0) (h : Fin 1024) (rd rs1 : Fin 32) (imm : BitVec 12) : Run s0 :=
  let md := (r.hart h).mode
  let op := natBits imm.toNat 1 0
  let level := natBits imm.toNat 3 2
  if !r.ready h then r
  else if op = 3 ∨ level = 3 ∨ 16 ≤ imm.toNat then r.illegal h
  else if md.virt then r.virtInstr h
  else if md = .u ∨ (md = .s ∧ !r.cb h 0x30A 6) then r.illegal h
  else
    let w := r.xr h rs1
    let way := if w &&& ~~~ 0xF00007FFF = 0 then Word.bits w 35 32 else 16
    r.after h none (.swop op level (Word.bits w 14 0) way rd)

/-- DW_SWOP (R144 to R146). -/
def execDwSwop (h : Fin 1024) (rd : Fin 32) (rs1 : Fin 32) (imm : BitVec 12) (s : State) : Host.Outcome State Fault Refusal := ((Run.start s).dwSwop h rd rs1 imm).done

end Sys2Proof.Machine
end

