-- ==== Sys2Proof/Machine/Instr.lean ====
section
/-! DEFINITION. The other instructions of a hart: waiting and waking, the seed CSR, CSR accesses, fences of translation, returns from
traps and IMSIC claims (R55 to R60, R71, R75 to R92, R99 to R123, R468). Rules that RISC-V gives are PRESUMED from its manuals (log
entry 6). -/
namespace Sys2Proof.Machine

variable {s0 : State}

/-! ### Waiting and waking -/

/-- A hart parks (R59, R81, R130, R186), unless a condition holds already. -/
def Run.park (r : Run s0) (h : Nat) (p : Park) : Run s0 :=
  let b := r.parkBits h p
  if b ≠ 0 then r.endPark h p b
  else ((((r.startDrain h).endDelay h).modHart h fun t => { t with park := some p }).setRun h .parked).pokeHart h |> fun r => if r.stepping h then r.dueHalt h 4 else r

/-- The exception of WFI and WRS.NTO at once (R59). -/
def Run.waitCause (r : Run s0) (h : Nat) : Option Nat :=
  let md := (r.hart h).mode
  if md = .m ∨ md = .debug then none
  else if r.cb h 0x300 21 then some 2
  else if md = .vs ∧ r.cb h 0x600 21 then some 22
  else none

/-- WFI, WRS.NTO and WRS.STO (R59): complete at once in Debug Mode. -/
def Run.waitInstr (r : Run s0) (h : Nat) (k : ParkKind) : Run s0 :=
  if (r.hart h).mode = .debug then r.retire h
  else match (if k = .wrsSto then none else r.waitCause h) with
    | some c => r.trap h { cause := c }
    | none => r.park h { kind := k, rd := 0, depth := 1, mon := k != .wfi, deadline := none, delta := 0 }

/-- WFI (R59). -/
def execWfi (h : Fin 1024) (s : State) : Host.Outcome State Fault Refusal :=
  let r := Run.start s
  if !r.ready h then r.done else (r.waitInstr h .wfi).done

/-- WRS_NTO (R59). -/
def execWrsNto (h : Fin 1024) (s : State) : Host.Outcome State Fault Refusal :=
  let r := Run.start s
  if !r.ready h then r.done else (r.waitInstr h .wrsNto).done

/-- WRS_STO (R59). -/
def execWrsSto (h : Fin 1024) (s : State) : Host.Outcome State Fault Refusal :=
  let r := Run.start s
  if !r.ready h then r.done else (r.waitInstr h .wrsSto).done

/-- Before a hart at enclave ID 0 leaves a park, the core's enclave harts are forced out (R387). -/
def Run.beforeWake (r : Run s0) (h : Nat) : Run s0 :=
  let ce := (r.tile (tileOf h)).ceid
  if (r.hart h).eid = 0 ∧ ce ≠ 0 then r.leaveCore (tileOf h) ce else r

/-- WFI_LIMIT_EXPIRY (R59): the limit of a WFI or WRS.NTO in U-mode or VU-mode ends with its exception. -/
def execWfiLimitExpiry (h : Fin 1024) (s : State) : Host.Outcome State Fault Refusal :=
  let r := Run.start s
  let t := r.hart h
  match t.park with
  | some p =>
    if (p.kind = .wfi ∨ p.kind = .wrsNto) ∧ t.mode.user = true then
      let r := ((r.beforeWake h).modHart h fun t => { t with park := none }).modTile (tileOf h) fun t => { t with idle := false }
      ((r.setRun h .running).trap h { cause := if t.mode = .vu then 22 else 2 }).done
    else r.done
  | none => r.done

/-- WRS_STO_TIMEOUT (R59). -/
def execWrsStoTimeout (h : Fin 1024) (s : State) : Host.Outcome State Fault Refusal :=
  let r := Run.start s
  match (r.hart h).park with
  | some p => (if p.kind = .wrsSto then ((r.beforeWake h).endPark h p 0).pokeHart h else r).done
  | none => r.done

/-- PAUSE (R59): no fetch opportunity until PAUSE_END or the WFI condition. -/
def execPause (h : Fin 1024) (s : State) : Host.Outcome State Fault Refusal :=
  let r := Run.start s
  if !r.ready h then r.done else ((r.retire h).modHart h fun t => { t with pause := true }).done

/-- PAUSE_END (R59): 32 tokens of the core have passed. -/
def execPauseEnd (h : Fin 1024) (s : State) : Host.Outcome State Fault Refusal :=
  let r := Run.start s
  (if (r.hart h).pause then (r.modHart h fun t => { t with pause := false }).pokeHart h else r).done

/-- The exception that refuses DW.PARK, or DW.WAKE, to a mode (R79). -/
def Run.parkCause (r : Run s0) (h : Nat) (wake : Bool) : Option Nat :=
  let m (i : Nat) : Bool := r.cb h 0x7C1 i
  let s (i : Nat) : Bool := r.cb h 0x5C1 i
  match (r.hart h).mode with
  | .m | .debug => none
  | .s => if m 0 then none else some 2
  | .u => if m 1 && s 0 then none else some 2
  | .vs => if !m 2 then some 2 else if wake || !s 1 then some 22 else none
  | .vu => if !m 2 then some 2 else if wake || !s 2 then some 22 else none

/-- DW_PARK (R79 to R84). -/
def Run.dwPark (r : Run s0) (h : Fin 1024) (rd rs1 : Fin 32) (imm : BitVec 12) : Run s0 :=
  let md := (r.hart h).mode
  let depth := natBits imm.toNat 1 0
  if !r.ready h then r
  else if depth = 3 ∨ 8 ≤ imm.toNat then r.illegal h
  else match r.parkCause h false with
    | some c => r.trap h { cause := c }
    | none =>
      if md = .debug then (r.setXr h rd 0).retire h
      else
        let p : Park := { kind := .dwPark, rd := rd, depth := depth, mon := imm.getLsbD 2,
                          deadline := if rs1 = 0 then none else some (r.xr h rs1), delta := if md.virt then r.csr h 0x605 else 0 }
        r.park h p

/-- DW_PARK (R79 to R84). -/
def execDwPark (h : Fin 1024) (rd : Fin 32) (rs1 : Fin 32) (imm : BitVec 12) (s : State) : Host.Outcome State Fault Refusal := ((Run.start s).dwPark h rd rs1 imm).done

/-- DW_WAKE (R79, R86, R87): after the hart's earlier stores. -/
def Run.dwWake (r : Run s0) (h : Fin 1024) (rd rs1 : Fin 32) (imm : BitVec 12) : Run s0 :=
  if !r.ready h then r
  else if imm ≠ 0 then r.illegal h
  else match r.parkCause h true with
    | some c => r.trap h { cause := c }
    | none => r.after h none (.wake (r.xr h rs1).toNat rd)

/-- DW_WAKE (R79, R86, R87). -/
def execDwWake (h : Fin 1024) (rd : Fin 32) (rs1 : Fin 32) (imm : BitVec 12) (s : State) : Host.Outcome State Fault Refusal := ((Run.start s).dwWake h rd rs1 imm).done

/-! ### CSRs -/

/-- The seed CSR (R60, Zkr): a read without a write is illegal; SSEED and USEED permit S-mode and U-mode. Whether an output is ready while
the DRBG delivers, and the 16 bits, are free values. -/
def Run.seedRead (r : Run s0) (h rd : Nat) (write : Bool) : Run s0 :=
  let md := (r.hart h).mode
  let sseed := r.cb h 0x747 9
  let ok := match md with
    | .m | .debug => true
    | .s => sseed
    | .u => r.cb h 0x747 8
    | _ => false
  if !write || (!ok && !(md.virt && sseed)) then r.illegal h
  else if !ok then r.virtInstr h
  else
    let p := r.fresh
    let v : Word := if r.on FOX_TRNG_STAT_DRBGOK && p.2.getLsbD 16 then (0x80000000#64 ||| (p.2.extractLsb' 0 16).zeroExtend 64) else 0x40000000
    (p.1.setXr h rd v).retire h

/-- SEED_READ (R60). -/
def execSeedRead (h : Fin 1024) (rd : Fin 32) (write : Bool) (s : State) : Host.Outcome State Fault Refusal :=
  let r := Run.start s
  if !r.ready h then r.done else (r.seedRead h rd write).done

/-- The mstateen register and bit that a CSR depends on below M-mode (Smstateen). -/
def stateenBit (n : Nat) : Option (Nat × Nat) :=
  if 0x10C ≤ n ∧ n ≤ 0x10F then some (n - 0x10C, 63)
  else if 0x60C ≤ n ∧ n ≤ 0x60F then some (n - 0x60C, 63)
  else if n = 0x10A ∨ n = 0x60A then some (0, 62)
  else if n ∈ [0x150, 0x151, 0x250, 0x251] then some (0, 60)
  else if n ∈ [0xDB0, 0xEB0, 0x608, 0x609, 0x646, 0x647] then some (0, 59)
  else if n = 0x15C ∨ n = 0x25C then some (0, 58)
  else if n = 0x5A8 ∨ n = 0x6A8 then some (0, 57)
  else none

/-- An indirect select names a register (AIA): the IMSIC's, even-numbered arrays only, or, but for a guest, the major priorities. -/
def selectOk (sel : Nat) (guest : Bool) : Bool :=
  (!guest && decide (0x30 ≤ sel) && decide (sel ≤ 0x3F) && sel % 2 == 0) || (decide (0x70 ≤ sel) && decide (sel < 0x80)) ||
    (decide (0x80 ≤ sel) && decide (sel ≤ 0xFF) && sel % 2 == 0)

/-- VGEIN names a guest file. -/
def Run.vgeinOk (r : Run s0) (h : Nat) : Bool := decide (1 ≤ r.cf h 0x600 17 12) && decide (r.cf h 0x600 17 12 ≤ 4)

/-- What keeps an access below M-mode to an existing CSR from HS-mode, as an illegal instruction. -/
def Run.hsIllegal (r : Run s0) (h n : Nat) : Bool :=
  n / 256 % 4 == 3
  || (match stateenBit n with
      | some (i, b) => !r.cb h (0x30C + i) b
      | none => false)
  || (decide (0xC00 ≤ n ∧ n ≤ 0xC1F) && !r.cb h 0x306 (n - 0xC00))
  || ((n == 0x14D || n == 0x24D) && !(r.cb h 0x306 1 && r.cb h 0x30A 63))

/-- An access of S-mode at V = 0 that is illegal beside those. -/
def Run.sIllegal (r : Run s0) (h n : Nat) : Bool :=
  ((n == 0x180 || n == 0x680) && r.cb h 0x300 20)
  || (n == 0x151 && !selectOk (r.csr h 0x150).toNat false)
  || (n == 0x25C && !r.vgeinOk h) || (n == 0x251 && !(r.vgeinOk h && selectOk (r.csr h 0x250).toNat true))

/-- An access at V = 1 that HS-mode could make and that is a virtual-instruction exception (R75, R99, R105, H extension). -/
def Run.vRefused (r : Run s0) (h n : Nat) (user : Bool) : Bool :=
  let lvl := n / 256 % 4
  lvl == 2 || (lvl == 1 && (user || decide (0x5C0 ≤ n ∧ n ≤ 0x5FF)))
  || (match stateenBit n with
      | some (i, b) => !r.cb h (0x60C + i) b
      | none => false)
  || (decide (0xC00 ≤ n ∧ n ≤ 0xC1F) && !(r.cb h 0x606 (n - 0xC00) && (!user || r.cb h 0x106 (n - 0xC00))))
  || (n == 0x14D && !(r.cb h 0x606 1 && r.cb h 0x60A 63))
  || (n == 0x180 && r.cb h 0x600 20)
  || (n == 0x15C && !r.vgeinOk h) || (n == 0x151 && !(r.vgeinOk h && selectOk (r.csr h 0x250).toNat true))

/-- The checks of a CSR access (R55, R75): an exception's cause, or the number of the CSR that it reaches. -/
def Run.csrCheck (r : Run s0) (h n : Nat) (write : Bool) : Sum Nat Nat :=
  let md := (r.hart h).mode
  let off := (n ∈ [1, 2, 3] && r.ctxOff h 14) || (n ∈ [0x008, 0x009, 0x00A, 0x00F, 0xC20, 0xC21, 0xC22] && r.ctxOff h 10)
  if !csrExists n || off || (write && n / 1024 == 3) || (decide (0x7B0 ≤ n ∧ n ≤ 0x7B3) && md != .debug) then .inl 2
  else match md with
    | .m | .debug => if (n = 0x351 ∧ !selectOk (r.csr h 0x350).toNat false) ∨ (n = 0x25C ∧ !r.vgeinOk h)
        ∨ (n = 0x251 ∧ !(r.vgeinOk h && selectOk (r.csr h 0x250).toNat true)) then .inl 2 else .inr n
    | .s => if r.hsIllegal h n || r.sIllegal h n then .inl 2 else .inr n
    | .u => if r.hsIllegal h n || n / 256 % 4 != 0 || (decide (0xC00 ≤ n ∧ n ≤ 0xC1F) && !r.cb h 0x106 (n - 0xC00)) then .inl 2 else .inr n
    | .vs => if r.hsIllegal h n then .inl 2 else if r.vRefused h n false then .inl 22 else .inr (vsAlias n)
    | .vu => if r.hsIllegal h n then .inl 2 else if r.vRefused h n true then .inl 22 else .inr n

/-- What a permitted instruction reads: scountovf shows the counters that mcounteren, and hcounteren at V = 1, expose (Sscofpmf). -/
def Run.csrValue (r : Run s0) (h n : Nat) : Word :=
  let md := (r.hart h).mode
  let v := r.readCsr h n
  if n ≠ 0xDA0 ∨ md = .m ∨ md = .debug then v
  else v &&& r.csr h 0x306 &&& (if md.virt then r.csr h 0x606 else BitVec.allOnes 64)

/-- A claim (R71): the identity that the file reports is no longer pending. -/
def Run.claimId (r : Run s0) (h f : Nat) : Run s0 :=
  let i := r.topId h f
  if i = 0 then r else (r.modFile (h * 8 + f) fun x => { x with pend := x.pend &&& ~~~ (1#2048 <<< i) }).pokeHart h

/-- A permitted write of a CSR: a write of xtopei claims (R71). -/
def Run.putCsr (r : Run s0) (h n : Nat) (v : Word) : Run s0 :=
  if n = 0x35C then r.claimId h 0
  else if n = 0x15C then r.claimId h 1
  else if n = 0x25C then r.claimId h (r.guestFile h)
  else
    let r := r.writeCsr h n v
    if n ∈ [1, 2, 3] then r.ctxDirty h 14
    else if n ∈ [0x008, 0x009, 0x00A, 0x00F] then r.ctxDirty h 10
    else r

/-- A CSR instruction: its checks, the old value to rd, and the new value from the next instruction on (R110, R121). A
read-modify-write of mip works on its software bits. -/
def Run.csrOp (r : Run s0) (h n rd : Nat) (op : CsrOp) (src : CsrSrc) : Run s0 :=
  let x : Word := match src with
    | .reg i => r.xr h i
    | .imm u => u.zeroExtend 64
  let none_ : Bool := match src with
    | .reg i => i == 0
    | .imm u => u == 0
  let write := op == .rw || !none_
  if n = 0x015 then r.seedRead h rd write
  else match r.csrCheck h n write with
    | .inl c => r.trap h { cause := c }
    | .inr k =>
      let old := r.csrValue h k
      let base := if k = 0x344 then (old &&& ~~~ 0x2222) ||| (r.csr h 0x344 &&& 0x2222) else old
      let v := match op with
        | .rw => x
        | .rs => base ||| x
        | .rc => base &&& ~~~ x
      let r := (r.setXr h rd old).retire h
      if write then r.putCsr h k v else r

/-- CSR_WRITE (R121 and the CSR's own rules). -/
def execCsrWrite (h : Fin 1024) (c : BitVec 12) (rd : Fin 32) (op : CsrOp) (src : CsrSrc) (s : State) : Host.Outcome State Fault Refusal :=
  let r := Run.start s
  if !r.ready h then r.done else (r.csrOp h c.toNat rd op src).done

/-- SDWKEY_WRITE (R105, R110). -/
def execSdwkeyWrite (h : Fin 1024) (rd : Fin 32) (op : CsrOp) (src : CsrSrc) (s : State) : Host.Outcome State Fault Refusal :=
  let r := Run.start s
  if !r.ready h then r.done else (r.csrOp h 0x5C8 rd op src).done

/-- REACH_CSR_WRITE (R99, R100, R104): k is 0 for sdwrva, 1 for sdwrpa, 2 for sdwrattr. -/
def execReachCsrWrite (h : Fin 1024) (k : Fin 3) (i : Fin 8) (rd : Fin 32) (op : CsrOp) (src : CsrSrc) (s : State) : Host.Outcome State Fault Refusal :=
  let r := Run.start s
  if !r.ready h then r.done else (r.csrOp h (0x5D0 + 8 * k.val + i.val) rd op src).done

/-- MDWHAR_WRITE (R88). -/
def execMdwharWrite (h : Fin 1024) (i : Fin 4) (rd : Fin 32) (op : CsrOp) (src : CsrSrc) (s : State) : Host.Outcome State Fault Refusal :=
  let r := Run.start s
  if !r.ready h then r.done else (r.csrOp h (0x7C4 + i.val) rd op src).done

/-- PMP_CSR_WRITE (R123): pmpcfg, pmpaddr or mseccfg by its number. -/
def execPmpCsrWrite (h : Fin 1024) (c : BitVec 12) (rd : Fin 32) (op : CsrOp) (src : CsrSrc) (s : State) : Host.Outcome State Fault Refusal :=
  let r := Run.start s
  if !r.ready h then r.done else (r.csrOp h c.toNat rd op src).done

/-- IMSIC_CLAIM (R71): a write of mtopei, stopei or vstopei that also reads it. -/
def execImsicClaim (h : Fin 1024) (file : Fin 3) (rd : Fin 32) (s : State) : Host.Outcome State Fault Refusal :=
  let r := Run.start s
  let n := if file = 0 then 0x35C else if file = 1 then 0x15C else 0x25C
  if !r.ready h then r.done else (r.csrOp h n rd .rw (.reg 0)).done

/-- DW_KEYSW (R109, R110): in U-mode only the keys of UMASK change. -/
def Run.dwKeysw (r : Run s0) (h : Fin 1024) (rd rs1 : Fin 32) (imm : BitVec 12) : Run s0 :=
  let md := (r.hart h).mode
  if !r.ready h then r
  else if imm ≠ 0 then r.illegal h
  else if md.virt then r.virtInstr h
  else if md = .u ∧ !r.cb h 0x5C9 1 then r.illegal h
  else
    let umask := r.cf h 0x5C9 31 16
    let keys : Word := if md = .u then (List.range 16).foldl (fun a k => if natBit umask k then a ||| (7#64 <<< (4 * k)) else a) 0 else 0x7777777777777777
    let old := r.csr h 0x5C8
    let new := (old &&& ~~~ keys) ||| (r.xr h rs1 &&& keys)
    ((r.setXr h rd old).setCsr h 0x5C8 new).retire h

/-- DW_KEYSW (R109, R110). -/
def execDwKeysw (h : Fin 1024) (rd : Fin 32) (rs1 : Fin 32) (imm : BitVec 12) (s : State) : Host.Outcome State Fault Refusal := ((Run.start s).dwKeysw h rd rs1 imm).done

/-! ### Fences of translation -/

/-- The modes of SFENCE.VMA and SINVAL.VMA: illegal in U-mode and under TVM, virtual in VU-mode and under VTVM. -/
def Run.sfenceCause (r : Run s0) (h : Nat) : Option Nat :=
  match (r.hart h).mode with
  | .u => some 2
  | .vu => some 22
  | .s => if r.cb h 0x300 20 then some 2 else none
  | .vs => if r.cb h 0x600 20 then some 22 else none
  | _ => none

/-- The modes of the H-extension fences: illegal in U-mode, virtual at V = 1; those of the G-stage illegal under TVM. -/
def Run.hfenceCause (r : Run s0) (h : Nat) (g : Bool) : Option Nat :=
  match (r.hart h).mode with
  | .u => some 2
  | .vu | .vs => some 22
  | .s => if g && r.cb h 0x300 20 then some 2 else none
  | _ => none

/-- The entries that SFENCE.VMA names in a regime (R116), every one made from a leaf PTE that covers the address (R120): `va` none for rs1 = x0, `asid` none for rs2 = x0; at V = 1 those of a VMID. -/
def fenceNames (v : Bool) (vmid : Nat) (va asid : Option Nat) (e : TlbEntry) : Bool :=
  e.v == v && !e.gstage && (!v || e.vmid == vmid) && (match asid with
    | none => true
    | some a => e.asid == a && !e.glob) && (!e.leaf || (match va with
    | none => true
    | some a => a / 2 ^ e.slg == e.va * 2 ^ e.lg / 2 ^ e.slg))

/-- The entries that HFENCE.GVMA names (R116): `gpa` is rs1 shifted left by 2. -/
def gfenceNames (gpa vmid : Option Nat) (e : TlbEntry) : Bool :=
  e.v && (match vmid with
    | none => true
    | some a => e.vmid == a) && (!e.leaf || (match gpa with
    | none => true
    | some a => a / 2 ^ e.glg == e.gpa / 2 ^ e.glg))

/-- An operand of a fence: none for x0, else its low bits. -/
def Run.scope (r : Run s0) (h i bits : Nat) : Option Nat := if i = 0 then none else some ((r.xr h i).toNat % 2 ^ bits)

/-- Remove what SFENCE.VMA removes for a V. -/
def Run.sfence (r : Run s0) (h rs1 rs2 : Nat) (v : Bool) : Run s0 :=
  r.dropTlb h (fenceNames v (r.cf h 0x680 57 44) (r.scope h rs1 64) (r.scope h rs2 16))

/-- Remove what HFENCE.GVMA removes. -/
def Run.gfence (r : Run s0) (h rs1 rs2 : Nat) : Run s0 := r.dropTlb h (gfenceNames ((r.scope h rs1 64).map (· * 4)) (r.scope h rs2 14))

/-- SFENCE_VMA (R116, R117): complete once the hart's earlier stores are visible. -/
def execSfenceVma (h : Fin 1024) (rs1 : Fin 32) (rs2 : Fin 32) (s : State) : Host.Outcome State Fault Refusal :=
  let r := Run.start s
  if !r.ready h then r.done
  else match r.sfenceCause h with
    | some c => (r.trap h { cause := c }).done
    | none => ((r.sfence h rs1 rs2 (r.hart h).mode.virt).after h none .retire).done

/-- HFENCE_VVMA (R116, R117). -/
def execHfenceVvma (h : Fin 1024) (rs1 : Fin 32) (rs2 : Fin 32) (s : State) : Host.Outcome State Fault Refusal :=
  let r := Run.start s
  if !r.ready h then r.done
  else match r.hfenceCause h false with
    | some c => (r.trap h { cause := c }).done
    | none => ((r.sfence h rs1 rs2 true).after h none .retire).done

/-- HFENCE_GVMA (R116, R117). -/
def execHfenceGvma (h : Fin 1024) (rs1 : Fin 32) (rs2 : Fin 32) (s : State) : Host.Outcome State Fault Refusal :=
  let r := Run.start s
  if !r.ready h then r.done
  else match r.hfenceCause h true with
    | some c => (r.trap h { cause := c }).done
    | none => ((r.gfence h rs1 rs2).after h none .retire).done

/-- SINVAL_VMA (R118, R130): the hart's stores start to drain, and it waits for none. -/
def execSinvalVma (h : Fin 1024) (rs1 : Fin 32) (rs2 : Fin 32) (s : State) : Host.Outcome State Fault Refusal :=
  let r := Run.start s
  if !r.ready h then r.done
  else match r.sfenceCause h with
    | some c => (r.trap h { cause := c }).done
    | none => (((r.sfence h rs1 rs2 (r.hart h).mode.virt).startDrain h).retire h).done

/-- HINVAL_VVMA (R118). -/
def execHinvalVvma (h : Fin 1024) (rs1 : Fin 32) (rs2 : Fin 32) (s : State) : Host.Outcome State Fault Refusal :=
  let r := Run.start s
  if !r.ready h then r.done
  else match r.hfenceCause h false with
    | some c => (r.trap h { cause := c }).done
    | none => (((r.sfence h rs1 rs2 true).startDrain h).retire h).done

/-- HINVAL_GVMA (R118). -/
def execHinvalGvma (h : Fin 1024) (rs1 : Fin 32) (rs2 : Fin 32) (s : State) : Host.Outcome State Fault Refusal :=
  let r := Run.start s
  if !r.ready h then r.done
  else match r.hfenceCause h true with
    | some c => (r.trap h { cause := c }).done
    | none => (((r.gfence h rs1 rs2).startDrain h).retire h).done

/-- The modes of SFENCE.W.INVAL and SFENCE.INVAL.IR: illegal in U-mode, virtual in VU-mode. -/
def Run.invalCause (r : Run s0) (h : Nat) : Option Nat :=
  match (r.hart h).mode with
  | .u => some 2
  | .vu => some 22
  | _ => none

/-- SFENCE_W_INVAL (R118). -/
def execSfenceWInval (h : Fin 1024) (s : State) : Host.Outcome State Fault Refusal :=
  let r := Run.start s
  if !r.ready h then r.done
  else match r.invalCause h with
    | some c => (r.trap h { cause := c }).done
    | none => (r.after h none .retire).done

/-- SFENCE_INVAL_IR (R118, R130): earlier invalidations are complete already. -/
def execSfenceInvalIr (h : Fin 1024) (s : State) : Host.Outcome State Fault Refusal :=
  let r := Run.start s
  if !r.ready h then r.done
  else match r.invalCause h with
    | some c => (r.trap h { cause := c }).done
    | none => ((r.startDrain h).retire h).done

/-! ### Returns -/

/-- A return goes on at a pc in a mode; it retires. -/
def Run.returnTo (r : Run s0) (h : Nat) (pc : Word) (md : Mode) : Run s0 :=
  (r.retire h).modHart h fun t => { t with pc := pc, mode := md }

/-- A return to a mode below M clears MPRV. -/
def Run.dropMprv (r : Run s0) (h prv : Nat) : Run s0 := if prv = 3 then r else r.setCf h 0x300 17 17 0

/-- MRET (R468; RISC-V): illegal below M-mode and in Debug Mode. -/
def execMret (h : Fin 1024) (s : State) : Host.Outcome State Fault Refusal :=
  let r := Run.start s
  if !r.ready h then r.done
  else if (r.hart h).mode ≠ .m then (r.illegal h).done
  else
    let w := r.csr h 0x300
    let prv := Word.bits w 12 11
    let w' := Word.setBits (Word.setBits (Word.setBits (Word.setBits w 3 3 (Word.bits w 7 7)) 7 7 1) 12 11 0) 39 39 0
    (((((r.setCsr h 0x300 w').setCf h 0x7A5 3 3 (r.cf h 0x7A5 7 7)).dropMprv h prv).clearEip h 3).returnTo h (r.csr h 0x341) (Mode.ofPrv prv (w.getLsbD 39))).done

/-- SRET (R468; RISC-V): illegal in U-mode and under TSR, virtual in VU-mode and under VTSR. -/
def execSret (h : Fin 1024) (s : State) : Host.Outcome State Fault Refusal :=
  let r := Run.start s
  let md := (r.hart h).mode
  if !r.ready h then r.done
  else if md = .u ∨ md = .debug ∨ (md = .s ∧ r.cb h 0x300 22) then (r.illegal h).done
  else if md = .vu ∨ (md = .vs ∧ r.cb h 0x600 22) then (r.virtInstr h).done
  else
    let n := if md = .vs then 0x200 else 0x300
    let w := r.csr h n
    let prv := Word.bits w 8 8
    let w' := Word.setBits (Word.setBits (Word.setBits w 1 1 (Word.bits w 5 5)) 5 5 1) 8 8 0
    let r := r.setCsr h n w'
    if md = .vs then (r.returnTo h (r.csr h 0x241) (Mode.ofPrv prv true)).done
    else
      let v := r.cb h 0x600 7
      let r := ((r.setCf h 0x600 7 7 0).dropMprv h prv)
      let r := if md = .s then r.clearEip h 1 else r
      (r.returnTo h (r.csr h 0x141) (Mode.ofPrv prv v)).done

/-- MNRET (R468; Smrnmi): illegal below M-mode and in Debug Mode. -/
def execMnret (h : Fin 1024) (s : State) : Host.Outcome State Fault Refusal :=
  let r := Run.start s
  if !r.ready h then r.done
  else if (r.hart h).mode ≠ .m then (r.illegal h).done
  else
    let w := r.csr h 0x744
    let prv := Word.bits w 12 11
    let w' := Word.setBits (Word.setBits (Word.setBits w 12 11 0) 7 7 0) 3 3 1
    ((((r.setCsr h 0x744 w').dropMprv h prv).clearEip h 2).returnTo h (r.csr h 0x741) (Mode.ofPrv prv (w.getLsbD 7))).done

end Sys2Proof.Machine
end

