-- ==== Sys2Proof/Machine/Messages.lean ====
section
/-! DEFINITION. The messages of the fabric (R167): the event of each row is the arrival of a message of that kind at its
receiver, which acts on it as the coherence chapter states (R169 to R183). -/
namespace Sys2Proof.Machine

/-- RDS arrives (R167). -/
def execRds (m : Msg) (s : State) : Host.Outcome State Fault Refusal := ((Run.start s).message .rdS m).done

/-- RDX arrives (R167). -/
def execRdx (m : Msg) (s : State) : Host.Outcome State Fault Refusal := ((Run.start s).message .rdX m).done

/-- UPG arrives (R167). -/
def execUpg (m : Msg) (s : State) : Host.Outcome State Fault Refusal := ((Run.start s).message .upg m).done

/-- CLAIM arrives (R167). -/
def execClaim (m : Msg) (s : State) : Host.Outcome State Fault Refusal := ((Run.start s).message .claim m).done

/-- RDONCE arrives (R167). -/
def execRdonce (m : Msg) (s : State) : Host.Outcome State Fault Refusal := ((Run.start s).message .rdOnce m).done

/-- WRLINE arrives (R167). -/
def execWrline (m : Msg) (s : State) : Host.Outcome State Fault Refusal := ((Run.start s).message .wrLine m).done

/-- WRPART arrives (R167). -/
def execWrpart (m : Msg) (s : State) : Host.Outcome State Fault Refusal := ((Run.start s).message .wrPart m).done

/-- ATOMH arrives (R167). -/
def execAtomh (m : Msg) (s : State) : Host.Outcome State Fault Refusal := ((Run.start s).message .atomH m).done

/-- CBOC arrives (R167). -/
def execCboc (m : Msg) (s : State) : Host.Outcome State Fault Refusal := ((Run.start s).message .cboC m).done

/-- CBOF arrives (R167). -/
def execCbof (m : Msg) (s : State) : Host.Outcome State Fault Refusal := ((Run.start s).message .cboF m).done

/-- CBOI arrives (R167). -/
def execCboi (m : Msg) (s : State) : Host.Outcome State Fault Refusal := ((Run.start s).message .cboI m).done

/-- EVC arrives (R167). -/
def execEvc (m : Msg) (s : State) : Host.Outcome State Fault Refusal := ((Run.start s).message .evC m).done

/-- EVM arrives (R167). -/
def execEvm (m : Msg) (s : State) : Host.Outcome State Fault Refusal := ((Run.start s).message .evM m).done

/-- EVO arrives (R167). -/
def execEvo (m : Msg) (s : State) : Host.Outcome State Fault Refusal := ((Run.start s).message .evO m).done

/-- WBKEEP arrives (R167). -/
def execWbkeep (m : Msg) (s : State) : Host.Outcome State Fault Refusal := ((Run.start s).message .wbKeep m).done

/-- SNPS arrives (R167). -/
def execSnps (m : Msg) (s : State) : Host.Outcome State Fault Refusal := ((Run.start s).message .snpS m).done

/-- SNPX arrives (R167). -/
def execSnpx (m : Msg) (s : State) : Host.Outcome State Fault Refusal := ((Run.start s).message .snpX m).done

/-- SNPINV arrives (R167). -/
def execSnpinv (m : Msg) (s : State) : Host.Outcome State Fault Refusal := ((Run.start s).message .snpInv m).done

/-- SNPCLN arrives (R167). -/
def execSnpcln (m : Msg) (s : State) : Host.Outcome State Fault Refusal := ((Run.start s).message .snpCln m).done

/-- SNPCUR arrives (R167). -/
def execSnpcur (m : Msg) (s : State) : Host.Outcome State Fault Refusal := ((Run.start s).message .snpCur m).done

/-- STASHOFFER arrives (R167). -/
def execStashoffer (m : Msg) (s : State) : Host.Outcome State Fault Refusal := ((Run.start s).message .stashOffer m).done

/-- RSP arrives (R167). -/
def execRsp (m : Msg) (s : State) : Host.Outcome State Fault Refusal := ((Run.start s).message .rsp m).done

/-- GNTE arrives (R167). -/
def execGnte (m : Msg) (s : State) : Host.Outcome State Fault Refusal := ((Run.start s).message .gntE m).done

/-- GNTM arrives (R167). -/
def execGntm (m : Msg) (s : State) : Host.Outcome State Fault Refusal := ((Run.start s).message .gntM m).done

/-- ACK arrives (R167). -/
def execAck (m : Msg) (s : State) : Host.Outcome State Fault Refusal := ((Run.start s).message .ack m).done

/-- EVACK arrives (R167). -/
def execEvack (m : Msg) (s : State) : Host.Outcome State Fault Refusal := ((Run.start s).message .evAck m).done

/-- DONE arrives (R167). -/
def execDone (m : Msg) (s : State) : Host.Outcome State Fault Refusal := ((Run.start s).message .done m).done

/-- STASHACC arrives (R167). -/
def execStashacc (m : Msg) (s : State) : Host.Outcome State Fault Refusal := ((Run.start s).message .stashAcc m).done

/-- STASHDEC arrives (R167). -/
def execStashdec (m : Msg) (s : State) : Host.Outcome State Fault Refusal := ((Run.start s).message .stashDec m).done

/-- DATS arrives (R167). -/
def execDats (m : Msg) (s : State) : Host.Outcome State Fault Refusal := ((Run.start s).message .datS m).done

/-- DATE arrives (R167). -/
def execDate (m : Msg) (s : State) : Host.Outcome State Fault Refusal := ((Run.start s).message .datE m).done

/-- DATM arrives (R167). -/
def execDatm (m : Msg) (s : State) : Host.Outcome State Fault Refusal := ((Run.start s).message .datM m).done

/-- DATSNP arrives (R167). -/
def execDatsnp (m : Msg) (s : State) : Host.Outcome State Fault Refusal := ((Run.start s).message .datSnp m).done

/-- DATCUR arrives (R167). -/
def execDatcur (m : Msg) (s : State) : Host.Outcome State Fault Refusal := ((Run.start s).message .datCur m).done

/-- DATATOM arrives (R167). -/
def execDatatom (m : Msg) (s : State) : Host.Outcome State Fault Refusal := ((Run.start s).message .datAtom m).done

/-- DATSTASH arrives (R167). -/
def execDatstash (m : Msg) (s : State) : Host.Outcome State Fault Refusal := ((Run.start s).message .datStash m).done

/-- MRD arrives (R167). -/
def execMrd (m : Msg) (s : State) : Host.Outcome State Fault Refusal := ((Run.start s).message .mRd m).done

/-- MWR arrives (R167). -/
def execMwr (m : Msg) (s : State) : Host.Outcome State Fault Refusal := ((Run.start s).message .mWr m).done

/-- MDAT arrives (R167). -/
def execMdat (m : Msg) (s : State) : Host.Outcome State Fault Refusal := ((Run.start s).message .mDat m).done

/-- MACK arrives (R167). -/
def execMack (m : Msg) (s : State) : Host.Outcome State Fault Refusal := ((Run.start s).message .mAck m).done

end Sys2Proof.Machine
end

