-- ==== Sys2Proof/Machine/Spdm.lean ====
section
/-! DEFINITION. The SPDM responder of Foxglove's ROM (R417, R418). The message layouts and codes are those of DSP0274 version 1.2
(PRESUMED, log entry 6); a signature is 512 free bytes. A body is Param1, Param2 and the payload. -/
namespace Sys2Proof.Machine

variable {s0 : State}

/-- The bytes of CERTSTORE from byte lo. -/
def certBytes (lo n : Nat) : List Byte := (List.range n).map fun i => Config.certByte (lo + i)

/-- The length of the certificate behind byte `lo` of CERTSTORE (R417). -/
def certLen (lo : Nat) : Nat := natLE (certBytes lo 2)

/-- The certificate chain of slot 0: length, two reserved bytes, RootHash, the intermediate and the device certificate. -/
def certChain : List Byte :=
  let a := certLen 64
  let body := certBytes 0 64 ++ certBytes 66 a ++ certBytes (68 + a) (certLen (66 + a))
  bytesLE 2 (body.length + 4) ++ [0, 0] ++ body

/-- The responder answers (R418): not after a class A halt, and not while the management port, a clocked interface, has no REFCLK (R54). -/
def Run.spdmOn (r : Run s0) : Bool := !r.1.pins.porst && r.on TBASE_STAT_REFOK && !r.1.fox.stopped

/-- A response leaves. -/
def Run.spdm (r : Run s0) (code : Nat) (body : List Byte) : Run s0 := if r.spdmOn then r.emit (.spdm code body) else r

/-- ERROR with a code and its data. -/
def Run.spdmError (r : Run s0) (code data : Nat) (ext : List Byte := []) : Run s0 :=
  r.spdm 0x7F (BitVec.ofNat 8 code :: BitVec.ofNat 8 data :: ext)

/-- A response that is signed, or the error that stands for it while the identity key is not built. -/
def Run.spdmSigned (r : Run s0) (req code : Nat) (body : List Byte) : Run s0 :=
  if !r.spdmOn then r
  else if r.on DEVID_STAT_VALID then
    let p := r.freshBytes 8
    p.1.spdm code (body ++ p.2)
  else if r.fld FOX_START_STEP = 3 then
    let p := r.fresh
    p.1.spdmError 0x42 0 [p.2.extractLsb' 0 8, BitVec.ofNat 8 req, p.2.extractLsb' 8 8, p.2.extractLsb' 16 8]
  else r.spdmError 0x05 0

/-- GET_VERSION. -/
def execGetVersion (s : State) : Host.Outcome State Fault Refusal := ((Run.start s).spdm 0x04 [0, 0, 0, 1, 0x00, 0x12]).done

/-- GET_CAPABILITIES: CERT, CHAL, signed MEAS and CHUNK; CTExponent is a free value. -/
def execGetCapabilities (s : State) : Host.Outcome State Fault Refusal :=
  let p := (Run.start s).fresh
  (p.1.spdm 0x61 ([0, 0, 0, p.2.extractLsb' 0 8, 0, 0] ++ bytesLE 4 0x20016 ++ bytesLE 4 256 ++ bytesLE 4 16384)).done

/-- NEGOTIATE_ALGORITHMS. -/
def execNegotiateAlgorithms (s : State) : Host.Outcome State Fault Refusal :=
  ((Run.start s).spdm 0x63 ([0, 0] ++ bytesLE 2 36 ++ [1, 0] ++ bytesLE 4 8 ++ bytesLE 4 0x40 ++ bytesLE 4 4 ++ List.replicate 16 0)).done

/-- GET_DIGESTS: slot 0 only. -/
def execGetDigests (s : State) : Host.Outcome State Fault Refusal := ((Run.start s).spdm 0x01 ([0, 1] ++ sha512 certChain)).done

/-- GET_CERTIFICATE: a portion of the chain; an empty slot or an offset beyond the chain is an invalid request. -/
def execGetCertificate (slot : Fin 8) (off len : BitVec 16) (s : State) : Host.Outcome State Fault Refusal :=
  let r := Run.start s
  let n := certChain.length
  if slot ≠ 0 ∨ n ≤ off.toNat then (r.spdmError 0x01 0).done
  else
    let k := min len.toNat (n - off.toNat)
    (r.spdm 0x02 ([0, 0] ++ bytesLE 2 k ++ bytesLE 2 (n - off.toNat - k) ++ span certChain off.toNat k)).done

/-- CHALLENGE: the responder's nonce is a free value. -/
def execChallenge (slot : Fin 8) (_nonce : BitVec 256) (s : State) : Host.Outcome State Fault Refusal :=
  let r := Run.start s
  if slot ≠ 0 then (r.spdmError 0x01 0).done
  else
    let p := r.fresh
    let mine := p.2.extractLsb' 0 256
    (p.1.spdmSigned 0x83 0x03 ([0, 1] ++ sha512 certChain ++ bytesLE 32 mine.toNat ++ [0, 0])).done

/-- The DMTF value type of a measurement index (R414, R418). -/
def measType (i : Nat) : Nat :=
  if i = 1 then 0x00
  else if i = 7 ∨ i = 8 then 0x03
  else if i ≤ 16 then 0x01 else 0x02

/-- The value behind a measurement index (R418). -/
def Run.measValue (r : Run s0) (i : Nat) : List Byte :=
  if i = 17 then bytesLE 8 (r.reg ID_BASELINE).toNat
  else if i = 18 then bytesLE 8 (r.reg FOX_START).toNat
  else r.meas (i - 1)

/-- The measurement block of an index. -/
def Run.measBlock (r : Run s0) (i : Nat) : List Byte :=
  let v := r.measValue i
  [BitVec.ofNat 8 i, 1] ++ bytesLE 2 (v.length + 3) ++ [BitVec.ofNat 8 (measType i)] ++ bytesLE 2 v.length ++ v

/-- GET_MEASUREMENTS: 0 asks for the number of indices, 0xFF for every block, an index for its own. -/
def execGetMeasurements (op : BitVec 8) (sign : Bool) (_nonce : BitVec 256) (s : State) : Host.Outcome State Fault Refusal :=
  let r := Run.start s
  let is := if op = 0 then [] else if op = 0xFF then (List.range 18).map (· + 1) else [op.toNat]
  if op ≠ 0 ∧ op ≠ 0xFF ∧ 18 < op.toNat then (r.spdmError 0x01 0).done
  else
    let blocks := is.flatMap r.measBlock
    let p := r.fresh
    let mine := p.2.extractLsb' 0 256
    let body := [if op = 0 then 18 else 0, 0, BitVec.ofNat 8 is.length] ++ bytesLE 3 blocks.length ++ blocks ++ bytesLE 32 mine.toNat ++ [0, 0]
    (if sign then p.1.spdmSigned 0xE0 0x60 body else p.1.spdm 0x60 body).done

/-- SPDM_UNSUPPORTED_REQUEST. -/
def execSpdmUnsupportedRequest (code : BitVec 8) (s : State) : Host.Outcome State Fault Refusal := ((Run.start s).spdmError 0x07 code.toNat).done

end Sys2Proof.Machine
end

