-- ==== Sys2Proof/Machine/Tap.lean ====
section
/-! DEFINITION. The debug port: the TAP's instruction register, unlock tokens and DMI accesses (R420 to R423). The debug module's
dmcontrol is that of the RISC-V Debug specification 1.0 (PRESUMED, log entry 6). -/
namespace Sys2Proof.Machine

variable {s0 : State}

/-- Bit i of RIGHTS: 0 HART, 1 SECURE, 2 LARK, 3 SCAN. -/
def Run.right (r : Run s0) (i : Nat) : Bool := r.1.fox.rights.getLsbD i

/-- A debug access without a valid token (R423): counted, and alarm source 4 at most once per second. -/
def Run.debugDenied (r : Run s0) : Run s0 :=
  let r := r.modFox fun x => { x with attempts := min (x.attempts + 1) 0xFFFFFFFF }
  let now := r.count
  let due := match r.1.fox.lastDbg with
    | none => true
    | some t => decide (t + 100000000 ≤ now)
  if due then (r.modFox fun x => { x with lastDbg := some now }).alarm 4 (r.classA 4) 0 else r

/-- The instruction that an instruction code selects (R420): every unlisted one is BYPASS. -/
def tapListed (ir : BitVec 8) : BitVec 8 := if ir ∈ [0x01, 0x02, 0x03, 0x04, 0x05, 0x10, 0x11, 0x20, 0x21, 0x22] then ir else 0xFF

/-- The rights of the present token permit an instruction. -/
def Run.tapMay (r : Run s0) (ir : BitVec 8) : Bool :=
  if ir ∈ [0x03, 0x04, 0x05] then r.right 3
  else if ir = 0x10 ∨ ir = 0x11 then r.right 0 || r.right 2
  else true

/-- JTAG does not operate: PORST# is held, or REFCLK is not there (R54). -/
def Run.tapOff (r : Run s0) : Bool := r.1.pins.porst || !r.on TBASE_STAT_REFOK

/-- IDCODE (R511). -/
def idcode : BitVec 32 := 0x19256A2F

/-- What the data register of the selected instruction captures (R420, R423, R511): IDCODE, the nonce, FOXDSTAT, and 0 for any other. -/
def Run.tapData (r : Run s0) : Nat :=
  let x := r.1.fox
  if x.ir = 0x01 then idcode.toNat
  else if x.ir = 0x20 then x.nonce.toNat
  else if x.ir = 0x22 then x.attempts * 2 ^ 32 + x.result * 2 ^ 8 + x.rights.toNat
  else 0

/-- The instruction selected is shown with what its data register captures. -/
def Run.tapShow (r : Run s0) : Run s0 := r.emit (.tap r.1.fox.ir r.tapData)

/-- TAP_UPDATE_IR (R420, R422, R423): EXTEST is left only by a cold reset. -/
def execTapUpdateIr (ir : BitVec 8) (s : State) : Host.Outcome State Fault Refusal :=
  let r := Run.start s
  if r.tapOff ∨ r.1.fox.ir ∈ [0x03, 0x04, 0x05] then r.done
  else
    let i := tapListed ir
    let r := if i = 0x21 then r else r.modFox fun x => { x with token := [] }
    if r.tapMay i then (r.modFox fun x => { x with ir := i }).tapShow.done
    else ((r.modFox fun x => { x with ir := 0xFF }).debugDenied).tapShow.done

/-- The length of a token, once its FLAGS are there (R421). -/
def tokenLen (t : List Byte) : Nat := if natBit (at_ t 6 2) 0 then 8320 else 1088

/-- A token is accepted (R422). The nonce is 0 before step 3, when every token is refused. -/
def Run.tokenOk (r : Run s0) (t : List Byte) : Bool :=
  let dbgn := span t 64 512
  let ml := natBit (at_ t 6 2) 0
  let id := (r.reg DEVID_LO).toNat + (r.reg DEVID_HI).toNat * 2 ^ 64
  !Config.dbgDisable && at_ t 0 4 == 0x47424456 && at_ t 4 2 == 1 && at_ t 6 2 / 2 == 0 && at_ t 8 8 / 16 == 0
  && Config.dbgKeyHash != 0 && bytesLE 64 Config.dbgKeyHash.toNat == sha512 dbgn && pssVerify (natBE dbgn) (span t 576 512) (span t 0 64)
  && (!(Config.mldsaReq || ml) || (ml && bytesLE 64 Config.dbgMlHash.toNat == sha512 (span t 1088 2592)
        && Config.mldsaVerify (span t 1088 2592) (span t 3680 4627) (span t 0 64)))
  && (!ml || at_ t 8307 13 == 0)
  && r.1.fox.nonce != 0 && at_ t 16 16 == id && at_ t 32 32 == r.1.fox.nonce.toNat

/-- A whole token is processed (R421, R422). -/
def Run.token (r : Run s0) (t : List Byte) : Run s0 :=
  let ok := r.tokenOk t
  let r := if ok then (r.measObject 7 (span t 0 64)).modFox fun x => { x with rights := x.rights ||| BitVec.ofNat 4 (at_ t 8 8), result := 1 }
    else (r.modFox fun x => { x with result := 2 }).debugDenied
  let r := r.modFox fun x => { x with token := [] }
  if r.1.fox.nonce = 0 then r
  else
    let p := r.fresh
    p.1.modFox fun x => { x with nonce := p.2.extractLsb' 0 256 }

/-- FOXTOKEN (R421): one more byte, where the instruction is selected. -/
def execFoxtoken (b : Byte) (s : State) : Host.Outcome State Fault Refusal :=
  let r := Run.start s
  if r.tapOff ∨ r.1.fox.ir ≠ 0x21 then r.done
  else
    let t := r.1.fox.token ++ [b]
    (if 1088 ≤ t.length ∧ t.length = tokenLen t then r.token t else r.modFox fun x => { x with token := t }).done

/-- A hart resumes from Debug Mode (Sdext). -/
def Run.debugResume (r : Run s0) (h : Nat) : Run s0 :=
  if (r.hart h).run ≠ .debug then r
  else
    let md := Mode.ofPrv (r.cf h 0x7B0 1 0) (r.cb h 0x7B0 5)
    ((r.modHart h fun t => { t with mode := md, pc := r.csr h 0x7B1 }).setRun h .running).pokeHart h

/-- DMI_ACCESS (R420, R422): with LARK it reaches the debug module of the Larkspur cores, which the spec does not describe further;
with HART a write of dmcontrol requests a halt or a resumption. -/
def execDmiAccess (write : Bool) (a data : BitVec 32) (s : State) : Host.Outcome State Fault Refusal :=
  let r := Run.start s
  if r.tapOff ∨ r.1.fox.ir ≠ 0x11 ∨ !r.tapMay 0x11 then r.done
  else
    let r := r.emit (.dmi write a.toNat data.toNat)
    let h := natBits data.toNat 25 16 + natBits data.toNat 15 6 * 1024
    if !write ∨ a ≠ 0x10 ∨ !r.right 0 ∨ 1024 ≤ h then r.done
    else if (r.hart h).eid ≠ 0 ∧ !r.right 1 ∧ (r.hart h).run = .debug then r.done
    else if data.getLsbD 31 then (r.haltRequest h).done
    else if data.getLsbD 30 then (r.debugResume h).done
    else r.done

end Sys2Proof.Machine
end

