-- ==== Sys2Proof/Machine/Tokens.lean ====
section
/-! DEFINITION. Tokens of a core: fetch opportunities, slots and their classes, the counters of the harts, hardware prefetches, parity errors
of the core, and the operations that retire in a token (R36, R37, R39, R55, R62 to R64, R74, R78, R133, R467, R477 to R487). -/
namespace Sys2Proof.Machine

variable {s0 : State}

/-! ### Fetch opportunities -/

/-- The harts of a core that are not parked. -/
def Run.awakeOf (r : Run s0) (n : Nat) : List Nat := (List.range 4).filter fun i => r.awake (n * 4 + i)

/-- The reorder window of a core has room for one more operation of a hart, beside those that issue in this token (R62, R63): 192 entries, at
most 120 for one hart while two or more are not parked. -/
def Run.windowRoom (r : Run s0) (n : Nat) (more : List Nat) (i : Nat) : Bool :=
  let all := (List.range 4).foldl (fun a k => a + (r.hart (n * 4 + k)).issued) more.length
  decide (all < 192) && (decide ((r.awakeOf n).length < 2) || decide ((r.hart (n * 4 + i)).issued + more.count i < 120))

/-- A hart waits at rename for an entry of the reorder window or of the store queue (R63). -/
def Run.capped (r : Run s0) (n i : Nat) : Bool := !r.windowRoom n [] i || !r.sqFree n (n * 4 + i) 1

/-- A hart waits for the line of an instruction fetch. -/
def Run.fetchWaits (r : Run s0) (h : Nat) : Bool :=
  ((r.tile (tileOf h)).miss.any fun m => decide (Want.fetch h ∈ m.want)) || r.1.ops.any fun o => o.key == .fetch h && o.got.isNone

/-- A hart is eligible for a fetch opportunity (R64). -/
def Run.eligible (r : Run s0) (n i : Nat) : Bool :=
  let h := n * 4 + i
  r.awake h && !r.fetchWaits h && !(r.hart h).pause && !r.capped n i

/-- The weight of a hart: 1, 2, 4 or 8 for the lower of PRIO and PRIOMAX (R64, R78). -/
def Run.weight (r : Run s0) (h : Nat) : Nat := 2 ^ min (r.cf h 0x5C0 1 0) (r.cf h 0x7C1 9 8)

/-- The unit of a hart's lag; every sum of four weights divides it. -/
def fetchUnit : Nat := 144403552893600

/-- By how much a hart's fetch opportunities fall short of its share once this token has passed without one for it. -/
def Run.owed (r : Run s0) (n : Nat) (hs : List Nat) (i : Nat) : Int :=
  let total := hs.foldl (fun a k => a + r.weight (n * 4 + k)) 0
  (r.hart (n * 4 + i)).lag + (r.weight (n * 4 + i) * (fetchUnit / total) : Nat)

/-- The hart that receives the fetch opportunity of a token, of those eligible (R64): one that would be without for 25 tokens, else the one
furthest behind its share, the greater weight first (DESIGN CHOICE, log entry 97). -/
def Run.fetchTurn (r : Run s0) (n : Nat) (hs : List Nat) : Option Nat :=
  match hs.find? fun i => decide (24 ≤ (r.hart (n * 4 + i)).dry) with
  | some i => some i
  | none => match hs with
    | [] => none
    | x :: xs => some (xs.foldl (fun b i =>
        if r.owed n hs b < r.owed n hs i ∨ (r.owed n hs b = r.owed n hs i ∧ r.weight (n * 4 + b) < r.weight (n * 4 + i)) then i else b) x)

/-- A token gives its fetch opportunity; a hart that is not eligible starts anew. -/
def Run.giveFetch (r : Run s0) (n : Nat) (hs : List Nat) (turn : Option Nat) : Run s0 :=
  let next := (List.range 4).map fun i =>
    if i ∉ hs then (i, (0 : Int), 0)
    else if turn = some i then (i, r.owed n hs i - fetchUnit, 0)
    else (i, r.owed n hs i, (r.hart (n * 4 + i)).dry + 1)
  next.foldl (fun r p =>
    let t := r.hart (n * 4 + p.1)
    if t.lag = p.2.1 ∧ t.dry = p.2.2 then r else r.setHart (n * 4 + p.1) { t with lag := p.2.1, dry := p.2.2 }) r

/-- A hart fetches the two bytes at an address: its checks (R93), and the line it reads, which fills L2 and L1I (R17, R25, R527). Memory of type
IO executes nothing, and that of type NC is read at its home (R97). Answers the line, unless it is still to come or the fetch has ended in an
exception. -/
def Run.fetchPart (r : Run s0) (h : Nat) (va : Word) : Run s0 × Option LineData :=
  let t := r.hart h
  let p := r.translate h .fetch t.mode.prv t.mode.virt false false 0 va 2
  let fault (r : Run s0) : Run s0 := r.trap h { cause := 1, tval := va, v := t.mode.virt }
  match p.2 with
  | .exc x => (p.1.trap h x, none)
  | .poison l => (p.1.consume h 3 l va, none)
  | .ok pa mt =>
    let r := p.1
    let l : LineAddr := BitVec.ofNat 46 (pa / 64)
    let n := tileOf h
    if mt = 2 ∨ (r.hart h).noMem = some l then (fault r, none)
    else if r.decode pa = .none_ then (fault (r.logNoMemory pa (some (1, h))), none)
    else if mt = 1 then
      let who : Agent := .hart (Fin.ofNat 1024 h)
      let x := (r.accessing (.fetch h) who).rdLine who l
      let r := x.1.settleUp
      if x.2.2 then (r.consume h 2 l va, none) else (r, some x.2.1)
    else
      let r := r.l1iCheck n l
      let r := (if (r.l1iFind n l).isSome ∨ l ∈ r.l1iMisses n then r else r.tally h 0x0020 1).l2Look n l
      match r.l2Find n l with
      | some (_, s) => if s.poison then (r.consume h 2 l va, none) else (r.l1Fill n l true, some s.data)
      | none => (if r.l1iRoom n l then (r.miss n l false false (.fetch h)).go [.launch n l] else r, none)

/-- An instruction fetch of a hart at its pc: the first two bytes, and the next two where the first are not a 16-bit instruction. A trigger at
the address fires first. -/
def Run.fetch (r : Run s0) (h : Nat) : Run s0 :=
  let pc := (r.hart h).pc
  match r.trigHit h 2 pc.toNat 4 with
  | some i => r.fire h i pc
  | none =>
    let p := r.fetchPart h pc
    match p.2 with
    | some d => if (d >>> (8 * (pc.toNat % 64))).toNat % 4 = 3 then (p.1.fetchPart h (pc + 2)).1 else p.1
    | none => p.1

/-! ### Slots (R485, R486) -/

/-- The slots of a token that carry operations: the hart of each, and whether it retires with the token. An operation that waits takes an entry
of the reorder window. -/
def Run.carried (r : Run s0) (n : Nat) (xs : List SlotUse) : List (Nat × Bool) :=
  (xs.take 6).foldl (fun out x => match x with
    | .run i _ => if r.ready (n * 4 + i) then out ++ [(i.val, true)] else out
    | .issue i =>
      let more := (out.filter fun p => !p.2).map (·.1)
      if r.awake (n * 4 + i) && r.windowRoom n more i then out ++ [(i.val, false)] else out) []

/-- The issued operations that retire, or are discarded, in a token: as many of each hart as it has issued. -/
def Run.ended (r : Run s0) (n : Nat) (xs : List (Fin 4 × Bool)) : List (Nat × Bool) :=
  xs.foldl (fun out x =>
    if (out.filter fun p => p.1 == x.1.val).length < (r.hart (n * 4 + x.1)).issued then out ++ [(x.1.val, x.2)] else out) []

/-- The empty slots of a token are dealt to the harts not parked, one at a time in ascending order, after the last one dealt to (R485). -/
def dealSlots (hs : List Nat) : Nat → Nat → List Nat
  | _, 0 => []
  | last, k + 1 =>
    let i := (hs.find? fun i => decide (last < i)).getD (hs.headD 0)
    i :: dealSlots hs i k

/-- A die has asked a home for a line: the request is on its way over the Rill link, or has been. -/
def Run.askedHome (r : Run s0) (d : Nat) (l : LineAddr) : Bool := (r.quad (d * 4 + quadOf l)).miss.any fun m => m.line == l && m.placed

/-- A hart's oldest operation waits for a memory access (R484). -/
def Run.memWait (r : Run s0) (h : Nat) : Bool := (r.hart h).wait.isSome

/-- A hart's oldest operation waits for a request sent over the Rill link (R484). -/
def Run.farWait (r : Run s0) (h : Nat) : Bool :=
  let d := dieOf (tileOf h)
  match (r.hart h).wait with
  | some (.line a) => a.parts.any fun p => r.askedHome d p.line
  | some (.drain _ _) => !(r.hart h).ncOut.isEmpty || (r.tile (tileOf h)).smb.any fun e => e.hart == h && r.askedHome d e.line
  | some (.swop _ _ _ _ _) => false
  | some _ => true
  | none => false

/-- The events of an empty slot: attributed (R485), and classified from its hart's state (R486): wasted while it recovers, back-starved while it
holds a waiting operation, waits at rename or has the slot withheld, else front-starved. -/
def Run.emptySlot (r : Run s0) (n : Nat) (t : Token) (i : Nat) (limited : Bool) : List Nat :=
  let h := n * 4 + i
  let waits := (r.hart h).wait.isSome || r.capped n i || t.held.any (·.val == i)
  0x0003 :: (if (r.hart h).recover then [0x0005]
    else if waits || limited then 0x0007 :: ((if r.memWait h then [0x0008] else []) ++ if limited then [0x0009] else [])
    else [0x0006])

/-- The occurrences that the model itself tells for a token, as hart, event and number: its slots, the operations that end, FARSTALL and
WINDOW_FULL, and what the harts have done since the last token. -/
def Run.occurrences (r : Run s0) (n : Nat) (t : Token) (cs es : List (Nat × Bool)) (free : List Nat) : List (Nat × Nat × Nat) :=
  let one (i ev : Nat) : Nat × Nat × Nat := (i, ev, 1)
  cs.flatMap (fun c => one c.1 0x0003 :: if c.2 then [one c.1 0x0004] else [])
  ++ es.map (fun e => one e.1 (if e.2 then 0x0004 else 0x0005))
  ++ free.zipIdx.flatMap (fun p => (r.emptySlot n t p.1 (decide (p.2 < t.limit))).map (one p.1))
  ++ (List.range 4).flatMap fun i =>
    let h := n * 4 + i
    let idle := !(cs.any fun c => c.1 == i && c.2) && !(es.any fun e => e.1 == i && e.2)
    (if r.awake h && idle && r.farWait h then [one i 0x000A] else []) ++ (if r.awake h && r.capped n i then [one i 0x0061] else [])
    ++ (r.hart h).tally.map fun p => (i, p.1, p.2)

/-! ### Counters -/

/-- The event selector does not inhibit the mode of a hart (R478). -/
def Run.countsMode (r : Run s0) (e : Word) (h : Nat) : Bool :=
  match (r.hart h).mode with
  | .m => !e.getLsbD 62
  | .s => !e.getLsbD 61
  | .u => !e.getLsbD 60
  | .vs => !e.getLsbD 59
  | .vu => !e.getLsbD 58
  | .debug => true

/-- The events whose occurrences the model tells itself; a token brings those of the others (R484). -/
def toldEvents : List Nat := [0x0001, 0x0002, 0x0003, 0x0004, 0x0005, 0x0006, 0x0007, 0x0008, 0x0009, 0x000A, 0x000B, 0x0010, 0x0020, 0x0021, 0x0023,
  0x0024, 0x0025, 0x0026, 0x0042, 0x0043, 0x0044, 0x0050, 0x0051, 0x0052, 0x0060, 0x0061]

/-- What a token brings of the events that the model does not tell itself. -/
def broughtEvents (c : List Contrib) : List (Nat × Nat × Nat) :=
  c.filterMap fun x => if x.event.toNat ∈ toldEvents then none else some (x.hart.val, x.event.toNat, x.n)

/-- How often an event occurs at a hart of a core in a token (R484): TOKENS while it is not parked, any other as listed. -/
def Run.contribution (r : Run s0) (c : List (Nat × Nat × Nat)) (n ev i : Nat) : Nat :=
  if ev = 1 then (if r.awake (n * 4 + i) then 1 else 0)
  else c.foldl (fun a x => if x.1 = i ∧ x.2.1 = ev then a + x.2.2 else a) 0

/-- The events that belong to the tile (R479, R484). -/
def coreEvents : List Nat := [0x000B, 0x0024, 0x0025, 0x0060]

/-- The counted contribution of a token to a selector of hart h of tile n (R479, R484). -/
def Run.counted (r : Run s0) (c : List (Nat × Nat × Nat)) (n h : Nat) (e : Word) : Nat :=
  let ev := Word.bits e 15 0
  let core := e.getLsbD 25
  let ok (i : Nat) : Bool := r.countsMode e (n * 4 + i)
  let anyOk := (List.range 4).any fun i => r.awake (n * 4 + i) && ok i
  if ev = 0 then 0
  else if ev ∈ coreEvents then
    if !core || !anyOk then 0
    else if ev = 0x000B then (if r.awake h then 0 else 1)
    else (List.range 4).foldl (fun a i => a + r.contribution c n ev i) 0
  else if !core then (if ok (h % 4) then r.contribution c n ev (h % 4) else 0)
  else if ev = 1 then (if anyOk then 1 else 0)
  else if ev = 0x000A then
    if anyOk && (List.range 4).all fun i => !r.awake (n * 4 + i) || (ok i && r.contribution c n ev i != 0) then 1 else 0
  else (List.range 4).foldl (fun a i => if ok i then a + r.contribution c n ev i else a) 0

/-- Programmable counter i of a hart takes a token (R479 to R483): an overflow sets OF, and LCOFIP where OF was 0. -/
def Run.hpmToken (r : Run s0) (c : List (Nat × Nat × Nat)) (n h i : Nat) : Run s0 :=
  let e := r.csr h (0x320 + i)
  let k := r.counted c n h e
  let p := countMode (e.getLsbD 24) (Word.bits e 23 16) k ((r.hart h).edge.getLsbD (i - 3))
  let bit := 1#8 <<< (i - 3)
  let ed := (r.hart h).edge
  let ed' := if p.2 then ed ||| bit else ed &&& ~~~ bit
  let r := if ed' = ed then r else r.modHart h fun t => { t with edge := ed' }
  if p.1 = 0 || r.cb h 0x320 i || !r.counting h then r
  else
    let v := (r.csr h (0xB00 + i)).toNat + p.1
    let r := r.setCsr h (0xB00 + i) (BitVec.ofNat 64 v)
    if v < 2 ^ 64 || e.getLsbD 63 then r
    else ((r.setCf h (0x320 + i) 63 63 1).setCf h 0x344 13 13 1).pokeHart h

/-- The counters of a hart take a token of its core (R39). -/
def Run.hartToken (r : Run s0) (c : List (Nat × Nat × Nat)) (n h : Nat) : Run s0 :=
  let r := if r.awake h && !r.cb h 0x320 0 && r.counting h then r.setCsr h 0xB00 (r.csr h 0xB00 + 1) else r
  (List.range 8).foldl (fun r i => r.hpmToken c n h (i + 3)) r

/-! ### Hardware prefetches (R133) -/

/-- A hardware prefetch becomes a request: its prefetcher is enabled and its L2 not disabled, the line is memory of the core's world, in the page
of the access that it follows and not held as asked, and 8 of the 48 miss registers are free and fewer than 16 hold prefetches. -/
def Run.mayPrefetch (r : Run s0) (n : Nat) (a : Ahead) : Bool :=
  let t := r.tile n
  let pa := a.line.toNat * 64
  let e := r.enclaveOf pa
  r.on (if a.stride then L2CTL_CTL_L1PF n else L2CTL_CTL_L2PF n) && !r.l2Off n && !r.on (L2CTL_STATUS_CACHE_DISABLE_PENDING n) && !t.switching
  && regionOf pa == .memory && r.decode pa != .none_ && decide (a.line.toNat / 64 = a.after.toNat / 64) && (e == 0 || e == t.ceid)
  && !r.l2Has n a.line a.own && !t.miss.any (·.line == a.line) && decide (t.miss.length ≤ 40) && decide ((t.miss.filter (·.hw)).length < 16)

/-- A hardware prefetch takes an L2 miss register (R133, R134), or has no effect. -/
def Run.prefetchAhead (r : Run s0) (n : Nat) (a : Ahead) : Run s0 :=
  if r.mayPrefetch n a then
    let w : Want := if a.stride then .stride else .prefetch false
    ((r.tallyTile n 0x0024).modTile n fun t => { t with miss := t.miss ++ [{ line := a.line, own := a.own, hw := true, want := [w] }] }).go [.launch n a.line]
  else r

/-! ### Parity errors of a core (R467, R468) -/

/-- What an error of the core may have changed at a hart: its registers and its CSRs, but for those of Smrnmi, mdwerr and mdwerraddr, hold free
values from now on (R467). -/
def Run.scramble (r : Run s0) (h : Nat) : Run s0 :=
  let r := (List.range 32).foldl (fun r i =>
    let p := r.fresh
    let r := ((p.1.setXr h i (p.2.extractLsb' 0 64)).setF (h * 32 + i) (p.2.extractLsb' 64 64)).setV (h * 32 + i) (p.2.extractLsb' 128 256)
    r) r
  (List.range 4096).foldl (fun r n =>
    if n ∈ [0x740, 0x741, 0x742, 0x744, 0x7E0, 0x7E1, 0x7E2] then r
    else match csrInfo n with
      | some (m, _) => if m = 0 then r else
        let p := r.fresh
        p.1.setCsr h n (legal m (p.1.csr h n) (p.2.extractLsb' 0 64))
      | none => r) r

/-- The error RNMI (R467; Smrnmi): the hart leaves its enclave as for any trap (R386), mnstatus, mnepc and mncause are written, and the hart goes
on in M-mode at the RNMI interrupt handler. -/
def Run.enterRnmi (r : Run s0) (h : Nat) : Run s0 :=
  let e := (r.hart h).eid
  let r := (r.dropOps fun o => o.key == .walk h || o.key == .fetch h).modHart h fun t => { t with resv := none, lrDelay := none, wait := none, noMem := none, pause := false }
  let r := if e ≠ 0 then r.depart h else r
  let t := r.hart h
  let w := Word.setBits (Word.setBits (Word.setBits (r.csr h 0x744) 12 11 t.mode.prv) 7 7 (if t.mode.virt then 1 else 0)) 3 3 0
  let r := ((r.setCsr h 0x744 w).setCsr h 0x741 t.pc).setCsr h 0x742 0x8000000000000018
  let r := r.modHart h fun t => { t with mode := .m, pc := r.csr h 0x7E2 &&& ~~~ 3 }
  (if e ≠ 0 then r.leaveCore (tileOf h) e else r).pokeHart h

/-- A parity error of a core (R467, R468): an entry that nothing reads is invalidated; else the hart takes the error RNMI, unless an error is in
progress or NMIE is 0, which is FATAL. In Debug Mode, where no NMI is taken, the error is recorded alone (DESIGN CHOICE, log entry 98). -/
def Run.parityError (r : Run s0) (h : Nat) (used : Bool) : Run s0 :=
  let b : Bank := .tile (tileOf h)
  let x : Rec := { event := 0x0104, cls := .ce, req := some (1, h) }
  if !used then r.logRec b x
  else if (r.hart h).run = .debug then (r.scramble h).logRec b { x with event := 0x0100, cls := .ucr }
  else if r.cb h 0x7E0 63 then r.fatal b { x with event := 0x0101, cls := .fatal }
  else if !r.cb h 0x744 3 then r.fatal b { x with event := 0x0102, cls := .fatal }
  else
    let r := (r.scramble h).logRec b { x with event := 0x0100, cls := .ucr }
    let w := Word.setBits (Word.setBits (Word.setBits (Word.setBits 0 63 63 1) 57 56 2) 51 48 6) 15 0 0x0100
    ((r.setCsr h 0x7E0 w).setCsr h 0x7E1 0).enterRnmi h

/-! ### Operations that retire in a token -/

/-- A word of custom-0 or custom-1 (R74, R80, R86, R109, R143, R144, R382, R385): the Dorwyn instruction that it encodes, or an
illegal-instruction exception. A word of another opcode is none of these. -/
def Run.custom (r : Run s0) (h : Fin 1024) (w : BitVec 32) : Run s0 :=
  let rd : Fin 32 := Fin.ofNat 32 (natBits w.toNat 11 7)
  let rs1 : Fin 32 := Fin.ofNat 32 (natBits w.toNat 19 15)
  let rs2 : Fin 32 := Fin.ofNat 32 (natBits w.toNat 24 20)
  let imm := w.extractLsb' 20 12
  let f7 := w.extractLsb' 25 7
  match natBits w.toNat 6 0, natBits w.toNat 14 12 with
  | 0b0001011, 0 => r.dwPark h rd rs1 imm
  | 0b0001011, 1 => r.dwWake h rd rs1 imm
  | 0b0001011, 2 => r.dwSwop h rd rs1 imm
  | 0b0001011, 3 => r.dwCmorng h rd rs1 rs2 f7
  | 0b0001011, 4 => r.dwKeysw h rd rs1 imm
  | 0b0001011, _ => r.illegal h
  | 0b0101011, 0 => r.dwGatein h rd rs1 rs2 f7
  | 0b0101011, 1 => r.dwGateout h rd rs1 imm
  | 0b0101011, _ => r.illegal h
  | _, _ => r

/-- A scalar result of a floating-point or vector operation. -/
def Run.putDest (r : Run s0) (h : Nat) (d : Dest) (v : Word) : Run s0 :=
  match d with
  | .x i => r.setXr h i v
  | .f i => (r.setF (h * 32 + i) v).ctxDirty h 14
  | .v _ _ => r

/-- Exception flags accrue in fcsr. -/
def Run.accrue (r : Run s0) (h : Nat) (flags : BitVec 5) : Run s0 :=
  if flags = 0 then r else (r.setCsr h 3 (r.csr h 3 ||| flags.zeroExtend 64)).ctxDirty h 14

/-- An operation retires, or takes its exception (R55). -/
def Run.slot (r : Run s0) (h : Fin 1024) (x : SlotOp) : Run s0 :=
  if !r.ready h then r
  else
    let t := r.hart h
    match x with
    | .compute rd v => (r.setXr h rd v).retire h
    | .jump rd link target =>
      let r := if link then r.setXr h rd (t.pc + 4) else r
      ((r.tally h 0x0010 1).retire h).modHart h fun t => { t with pc := target &&& ~~~ 1 }
    | .fp rd v flags => if r.ctxOff h 14 then r.illegal h else ((r.putDest h rd v).accrue h flags).retire h
    | .vec vs rd sat flags =>
      let fp := flags != 0 || (match rd with
        | some (.f _, _) => true
        | _ => false)
      if r.ctxOff h 10 || (fp && r.ctxOff h 14) then r.illegal h
      else
        let r := vs.foldl (fun r p => r.setV (h * 32 + p.1) p.2) r
        let r := match rd with
          | some (d, v) => r.putDest h d v
          | none => r
        let r := if sat then r.setCsr h 9 1 else r
        ((((r.setCsr h 8 0).ctxDirty h 10).accrue h flags)).retire h
    | .vset rd vl vtype =>
      if r.ctxOff h 10 then r.illegal h
      else ((((((r.setXr h rd vl).setCsr h 0xC20 vl).setCsr h 0xC21 vtype).setCsr h 8 0).ctxDirty h 10)).retire h
    | .ecall => r.trap h { cause := match t.mode with
        | .u | .vu => 8
        | .s => 9
        | .vs => 10
        | _ => 11 }
    | .ebreak => r.ebreak h
    | .custom w => r.custom h w
    | .illegal => r.illegal h

/-! ### The token -/

/-- A token passes at a tile (R36, R37): a hart of its core is neither parked nor held, the tile is on and not halted (R450), and Weir's cap, if
any, is not reached in the present window. -/
def Run.tokenPasses (r : Run s0) (n : Nat) : Bool :=
  let cap := r.fld (TMON_RATE_CAP n)
  !(r.awakeOf n).isEmpty && r.tileOn n && !(r.tile n).halted
  && (cap == 0xFFFF || r.on (TBRX_STATUS_LOST (dieOf n)) || decide ((r.tile n).tokens < cap))

/-- The counters of a core take a token (R39, R477 to R487): the occurrences that the model tells, those that the token brings, and the tile's
own. -/
def Run.countToken (r : Run s0) (n : Nat) (t : Token) (cs es : List (Nat × Bool)) (free : List Nat) : Run s0 :=
  let full := if 16 ≤ (r.tile n).smb.length then [(0, 0x0025, 1)] else []
  let c := r.occurrences n t cs es free ++ broughtEvents t.counts ++ full ++ (r.tile n).tally.map fun p => (0, p.1, p.2)
  let r := (List.range 4).foldl (fun r i => r.hartToken c n (n * 4 + i)) r
  let r := (List.range 4).foldl (fun r i => if (r.hart (n * 4 + i)).tally.isEmpty then r else r.modHart (n * 4 + i) fun t => { t with tally := [] }) r
  if (r.tile n).tally.isEmpty then r else r.modTile n fun t => { t with tally := [] }

/-- The reorder window and the state of recovery after a token (R62, R486): what issued enters, what ended leaves, and a hart whose operation
issued has recovered. -/
def Run.moveWindow (r : Run s0) (n : Nat) (cs es : List (Nat × Bool)) : Run s0 :=
  (List.range 4).foldl (fun r i =>
    let inn := (cs.filter fun c => c.1 == i && !c.2).length
    let out := (es.filter fun e => e.1 == i).length
    let back := cs.any fun c => c.1 == i
    let t := r.hart (n * 4 + i)
    if inn = out ∧ !(back && t.recover) then r
    else r.setHart (n * 4 + i) { t with issued := t.issued + inn - out, recover := t.recover && !back }) r

/-- TOKEN_PASS (R36, R37, R39, R47, R62 to R64, R133, R467, R479 to R487): a token passes, whose slots carry operations in order. What it counts is what passes while the die's time is valid
(R44). -/
def execTokenPass (n : Fin 256) (slots : List SlotUse) (t : Token) (s : State) : Host.Outcome State Fault Refusal :=
  let r := Run.start s
  if !r.tokenPasses n then r.done
  else
    let r := if r.on (TBRX_STATUS_LOST (dieOf n)) then r else r.modTile n fun x => { x with tokens := x.tokens + 1 }
    let r := t.found.foldl (fun r i => if r.awake (n * 4 + i) then r.modHart (n * 4 + i) fun x => { x with recover := true } else r) r
    let r := t.ahead.foldl (fun r a => r.prefetchAhead n a) r
    let cs := r.carried n slots
    let es := r.ended n t.ends
    let free := dealSlots (r.awakeOf n) (r.tile n).dealt (6 - cs.length)
    let r := (r.countToken n t cs es free).moveWindow n cs es
    let r := match free.getLast? with
      | some i => if (r.tile n).dealt = i then r else r.modTile n fun x => { x with dealt := i }
      | none => r
    let hs := (List.range 4).filter fun i => r.eligible n i
    let turn := r.fetchTurn n hs
    let r := r.giveFetch n hs turn
    let r := t.parity.foldl (fun r p => if r.awake (n * 4 + p.1) then r.parityError (n * 4 + p.1) p.2 else r) r
    let r := match turn with
      | some i => if t.fetch && r.ready (n * 4 + i) then r.fetch (n * 4 + i) else r
      | none => r
    ((slots.take 6).foldl (fun r x => match x with
      | .run i op => r.slot (Fin.ofNat 1024 (n * 4 + i)) op
      | .issue _ => r) r).done

end Sys2Proof.Machine
end

