-- ==== Sys2Proof/Machine/Dispatch.lean ====
section
/-! DEFINITION. One arm for each command. -/
namespace Sys2Proof.Machine

/-- What a command does to everything but the queue. -/
def exec (i : Instr) (s : State) : Host.Outcome State Fault Refusal :=
  match i with
  | .registerWrite q a half v => Sys2Proof.Machine.execRegisterWrite q a half v s
  | .tokenPass n slots t => Sys2Proof.Machine.execTokenPass n slots t s
  | .load h rd rs1 imm lg uns form => Sys2Proof.Machine.execLoad h rd rs1 imm lg uns form s
  | .store h rs2 rs1 imm lg form => Sys2Proof.Machine.execStore h rs2 rs1 imm lg form s
  | .smbIdleTimeout n k => Sys2Proof.Machine.execSmbIdleTimeout n k s
  | .amo h op lg rd rs1 rs2 aq rl => Sys2Proof.Machine.execAmo h op lg rd rs1 rs2 aq rl s
  | .lr h lg rd rs1 aq rl => Sys2Proof.Machine.execLr h lg rd rs1 aq rl s
  | .sc h lg rd rs1 rs2 aq rl => Sys2Proof.Machine.execSc h lg rd rs1 rs2 aq rl s
  | .lrSnoopDelayEnd h => Sys2Proof.Machine.execLrSnoopDelayEnd h s
  | .fence h pred succ tso => Sys2Proof.Machine.execFence h pred succ tso s
  | .fenceI h => Sys2Proof.Machine.execFenceI h s
  | .wfi h => Sys2Proof.Machine.execWfi h s
  | .wfiLimitExpiry h => Sys2Proof.Machine.execWfiLimitExpiry h s
  | .wrsNto h => Sys2Proof.Machine.execWrsNto h s
  | .wrsSto h => Sys2Proof.Machine.execWrsSto h s
  | .wrsStoTimeout h => Sys2Proof.Machine.execWrsStoTimeout h s
  | .pause h => Sys2Proof.Machine.execPause h s
  | .pauseEnd h => Sys2Proof.Machine.execPauseEnd h s
  | .seedRead h rd write => Sys2Proof.Machine.execSeedRead h rd write s
  | .dwPark h rd rs1 imm => Sys2Proof.Machine.execDwPark h rd rs1 imm s
  | .dwWake h rd rs1 imm => Sys2Proof.Machine.execDwWake h rd rs1 imm s
  | .dwKeysw h rd rs1 imm => Sys2Proof.Machine.execDwKeysw h rd rs1 imm s
  | .sdwkeyWrite h rd op src => Sys2Proof.Machine.execSdwkeyWrite h rd op src s
  | .reachCsrWrite h k j rd op src => Sys2Proof.Machine.execReachCsrWrite h k j rd op src s
  | .mdwharWrite h j rd op src => Sys2Proof.Machine.execMdwharWrite h j rd op src s
  | .pmpCsrWrite h c rd op src => Sys2Proof.Machine.execPmpCsrWrite h c rd op src s
  | .sfenceVma h rs1 rs2 => Sys2Proof.Machine.execSfenceVma h rs1 rs2 s
  | .hfenceVvma h rs1 rs2 => Sys2Proof.Machine.execHfenceVvma h rs1 rs2 s
  | .hfenceGvma h rs1 rs2 => Sys2Proof.Machine.execHfenceGvma h rs1 rs2 s
  | .sinvalVma h rs1 rs2 => Sys2Proof.Machine.execSinvalVma h rs1 rs2 s
  | .hinvalVvma h rs1 rs2 => Sys2Proof.Machine.execHinvalVvma h rs1 rs2 s
  | .hinvalGvma h rs1 rs2 => Sys2Proof.Machine.execHinvalGvma h rs1 rs2 s
  | .sfenceWInval h => Sys2Proof.Machine.execSfenceWInval h s
  | .sfenceInvalIr h => Sys2Proof.Machine.execSfenceInvalIr h s
  | .cboClean h rs1 => Sys2Proof.Machine.execCboClean h rs1 s
  | .cboFlush h rs1 => Sys2Proof.Machine.execCboFlush h rs1 s
  | .cboInval h rs1 => Sys2Proof.Machine.execCboInval h rs1 s
  | .cboZero h rs1 => Sys2Proof.Machine.execCboZero h rs1 s
  | .prefetchR h rs1 imm => Sys2Proof.Machine.execPrefetchR h rs1 imm s
  | .prefetchW h rs1 imm => Sys2Proof.Machine.execPrefetchW h rs1 imm s
  | .prefetchI h rs1 imm => Sys2Proof.Machine.execPrefetchI h rs1 imm s
  | .dwCmorng h rd rs1 rs2 f7 => Sys2Proof.Machine.execDwCmorng h rd rs1 rs2 f7 s
  | .dwSwop h rd rs1 imm => Sys2Proof.Machine.execDwSwop h rd rs1 imm s
  | .mret h => Sys2Proof.Machine.execMret h s
  | .sret h => Sys2Proof.Machine.execSret h s
  | .mnret h => Sys2Proof.Machine.execMnret h s
  | .imsicClaim h file rd => Sys2Proof.Machine.execImsicClaim h file rd s
  | .imsicSetPending q a v => Sys2Proof.Machine.execImsicSetPending q a v s
  | .hartRelease q h v => Sys2Proof.Machine.execHartRelease q h v s
  | .dwGatein h rd rs1 rs2 f7 => Sys2Proof.Machine.execDwGatein h rd rs1 rs2 f7 s
  | .coreSwitchDone n => Sys2Proof.Machine.execCoreSwitchDone n s
  | .dwGateout h rd rs1 imm => Sys2Proof.Machine.execDwGateout h rd rs1 imm s
  | .interruptedDeparture h t => Sys2Proof.Machine.execInterruptedDeparture h t s
  | .debugHaltRequest h => Sys2Proof.Machine.execDebugHaltRequest h s
  | .timebaseTick u => Sys2Proof.Machine.execTimebaseTick u s
  | .tick d u => Sys2Proof.Machine.execTick d u s
  | .syncWord d c => Sys2Proof.Machine.execSyncWord d c s
  | .tickStreamLoss d => Sys2Proof.Machine.execTickStreamLoss d s
  | .tickLossReport d => Sys2Proof.Machine.execTickLossReport d s
  | .tmonWindowEnd n laps tj v => Sys2Proof.Machine.execTmonWindowEnd n laps tj v s
  | .clrmax q n => Sys2Proof.Machine.execClrmax q n s
  | .droopClr q n => Sys2Proof.Machine.execDroopClr q n s
  | .droopExcursion n v => Sys2Proof.Machine.execDroopExcursion n v s
  | .refclkValid env => Sys2Proof.Machine.execRefclkValid env s
  | .refclkLoss => Sys2Proof.Machine.execRefclkLoss s
  | .rds m => Sys2Proof.Machine.execRds m s
  | .rdx m => Sys2Proof.Machine.execRdx m s
  | .upg m => Sys2Proof.Machine.execUpg m s
  | .claim m => Sys2Proof.Machine.execClaim m s
  | .rdonce m => Sys2Proof.Machine.execRdonce m s
  | .wrline m => Sys2Proof.Machine.execWrline m s
  | .wrpart m => Sys2Proof.Machine.execWrpart m s
  | .atomh m => Sys2Proof.Machine.execAtomh m s
  | .cboc m => Sys2Proof.Machine.execCboc m s
  | .cbof m => Sys2Proof.Machine.execCbof m s
  | .cboi m => Sys2Proof.Machine.execCboi m s
  | .evc m => Sys2Proof.Machine.execEvc m s
  | .evm m => Sys2Proof.Machine.execEvm m s
  | .evo m => Sys2Proof.Machine.execEvo m s
  | .wbkeep m => Sys2Proof.Machine.execWbkeep m s
  | .snps m => Sys2Proof.Machine.execSnps m s
  | .snpx m => Sys2Proof.Machine.execSnpx m s
  | .snpinv m => Sys2Proof.Machine.execSnpinv m s
  | .snpcln m => Sys2Proof.Machine.execSnpcln m s
  | .snpcur m => Sys2Proof.Machine.execSnpcur m s
  | .stashoffer m => Sys2Proof.Machine.execStashoffer m s
  | .rsp m => Sys2Proof.Machine.execRsp m s
  | .gnte m => Sys2Proof.Machine.execGnte m s
  | .gntm m => Sys2Proof.Machine.execGntm m s
  | .ack m => Sys2Proof.Machine.execAck m s
  | .evack m => Sys2Proof.Machine.execEvack m s
  | .done m => Sys2Proof.Machine.execDone m s
  | .stashacc m => Sys2Proof.Machine.execStashacc m s
  | .stashdec m => Sys2Proof.Machine.execStashdec m s
  | .dats m => Sys2Proof.Machine.execDats m s
  | .date m => Sys2Proof.Machine.execDate m s
  | .datm m => Sys2Proof.Machine.execDatm m s
  | .datsnp m => Sys2Proof.Machine.execDatsnp m s
  | .datcur m => Sys2Proof.Machine.execDatcur m s
  | .datatom m => Sys2Proof.Machine.execDatatom m s
  | .datstash m => Sys2Proof.Machine.execDatstash m s
  | .mrd m => Sys2Proof.Machine.execMrd m s
  | .mwr m => Sys2Proof.Machine.execMwr m s
  | .mdat m => Sys2Proof.Machine.execMdat m s
  | .mack m => Sys2Proof.Machine.execMack m s
  | .partwaysWrite q d p half v => Sys2Proof.Machine.execPartwaysWrite q d p half v s
  | .waylockWrite q d half v => Sys2Proof.Machine.execWaylockWrite q d half v s
  | .wayownerWrite q d half v => Sys2Proof.Machine.execWayownerWrite q d half v s
  | .lockSweepDone d => Sys2Proof.Machine.execLockSweepDone d s
  | .l2Disable q n => Sys2Proof.Machine.execL2Disable q n s
  | .l2DisableDone n => Sys2Proof.Machine.execL2DisableDone n s
  | .l2Enable q n => Sys2Proof.Machine.execL2Enable q n s
  | .l3QuadrantDisable q d k => Sys2Proof.Machine.execL3QuadrantDisable q d k s
  | .l3QuadrantDisableDone d k => Sys2Proof.Machine.execL3QuadrantDisableDone d k s
  | .l3QuadrantEnable q d k => Sys2Proof.Machine.execL3QuadrantEnable q d k s
  | .rillFlit d up payload header crc => Sys2Proof.Machine.execRillFlit d up payload header crc s
  | .rillRetryRequest d up seq => Sys2Proof.Machine.execRillRetryRequest d up seq s
  | .rillLaneStall d up lanes => Sys2Proof.Machine.execRillLaneStall d up lanes s
  | .rillRetrainDone d => Sys2Proof.Machine.execRillRetrainDone d s
  | .faultmapWrite q d half v => Sys2Proof.Machine.execFaultmapWrite q d half v s
  | .chkData q die stop v => Sys2Proof.Machine.execChkData q die stop v s
  | .chkDatan q die stop v => Sys2Proof.Machine.execChkDatan q die stop v s
  | .tileReset q d tiles => Sys2Proof.Machine.execTileReset q d tiles s
  | .tileResetDone d => Sys2Proof.Machine.execTileResetDone d s
  | .dieReset d cause => Sys2Proof.Machine.execDieReset d cause s
  | .dieResetSweepDone d => Sys2Proof.Machine.execDieResetSweepDone d s
  | .dieSelfTestDone d map => Sys2Proof.Machine.execDieSelfTestDone d map s
  | .linkTrainingDone d map => Sys2Proof.Machine.execLinkTrainingDone d map s
  | .joinRequest d baseline => Sys2Proof.Machine.execJoinRequest d baseline s
  | .admitDie q d => Sys2Proof.Machine.execAdmitDie q d s
  | .rejoinStepTimeout d => Sys2Proof.Machine.execRejoinStepTimeout d s
  | .rejoinRetry d => Sys2Proof.Machine.execRejoinRetry d s
  | .channelStart q c half v => Sys2Proof.Machine.execChannelStart q c half v s
  | .channelPowerupDone c ok t => Sys2Proof.Machine.execChannelPowerupDone c ok t s
  | .channelInitDone c ok => Sys2Proof.Machine.execChannelInitDone c ok s
  | .ilvSetEnable q j => Sys2Proof.Machine.execIlvSetEnable q j s
  | .ilvSetDisable q j => Sys2Proof.Machine.execIlvSetDisable q j s
  | .dimmThermalPoll c t => Sys2Proof.Machine.execDimmThermalPoll c t s
  | .bandSwitchWindow c => Sys2Proof.Machine.execBandSwitchWindow c s
  | .bandSwitchResume c => Sys2Proof.Machine.execBandSwitchResume c s
  | .refreshIntervalEnd c sub waits => Sys2Proof.Machine.execRefreshIntervalEnd c sub waits s
  | .owedRefreshIssue c sub => Sys2Proof.Machine.execOwedRefreshIssue c sub s
  | .mr4Poll c doubled => Sys2Proof.Machine.execMr4Poll c doubled s
  | .selfRefreshIdleTimeout c => Sys2Proof.Machine.execSelfRefreshIdleTimeout c s
  | .selfRefreshExit c => Sys2Proof.Machine.execSelfRefreshExit c s
  | .scrubRead c => Sys2Proof.Machine.execScrubRead c s
  | .dimmAlert c dimm again => Sys2Proof.Machine.execDimmAlert c dimm again s
  | .doorbell q f j half v => Sys2Proof.Machine.execDoorbell q f j half v s
  | .queueEnable q f j v => Sys2Proof.Machine.execQueueEnable q f j v s
  | .queueDisable q f j v => Sys2Proof.Machine.execQueueDisable q f j v s
  | .descriptorFetch qi => Sys2Proof.Machine.execDescriptorFetch qi s
  | .jobAdmission qi => Sys2Proof.Machine.execJobAdmission qi s
  | .nop e x => Sys2Proof.Machine.execNop e x s
  | .copy e x => Sys2Proof.Machine.execCopy e x s
  | .fill e x => Sys2Proof.Machine.execFill e x s
  | .crc e x => Sys2Proof.Machine.execCrc e x s
  | .compress e x => Sys2Proof.Machine.execCompress e x s
  | .decompress e x => Sys2Proof.Machine.execDecompress e x s
  | .gcmEnc e x => Sys2Proof.Machine.execGcmEnc e x s
  | .gcmDec e x => Sys2Proof.Machine.execGcmDec e x s
  | .xtsEnc e x => Sys2Proof.Machine.execXtsEnc e x s
  | .xtsDec e x => Sys2Proof.Machine.execXtsDec e x s
  | .cipherReleaseStart e x => Sys2Proof.Machine.execCipherReleaseStart e x s
  | .jobCompletion e x => Sys2Proof.Machine.execJobCompletion e x s
  | .phloxCapWindowEnd => Sys2Proof.Machine.execPhloxCapWindowEnd s
  | .queueBind q qi half v => Sys2Proof.Machine.execQueueBind q qi half v s
  | .queueUnbind q qi half v => Sys2Proof.Machine.execQueueUnbind q qi half v s
  | .queueMove q qi half v => Sys2Proof.Machine.execQueueMove q qi half v s
  | .queueMoveDone qi => Sys2Proof.Machine.execQueueMoveDone qi s
  | .shareWrite q f half v => Sys2Proof.Machine.execShareWrite q f half v s
  | .functionReset q f flr => Sys2Proof.Machine.execFunctionReset q f flr s
  | .functionResetDone f => Sys2Proof.Machine.execFunctionResetDone f s
  | .gCfgWrite q g half v => Sys2Proof.Machine.execGCfgWrite q g half v s
  | .portTrained g port rate width => Sys2Proof.Machine.execPortTrained g port rate width s
  | .perstDeassert g => Sys2Proof.Machine.execPerstDeassert g s
  | .groupWake g port => Sys2Proof.Machine.execGroupWake g port s
  | .pcieCompletion g tag ok ep data => Sys2Proof.Machine.execPcieCompletion g tag ok ep data s
  | .completionTimeout g tag => Sys2Proof.Machine.execCompletionTimeout g tag s
  | .inboundMemoryRead x len tag => Sys2Proof.Machine.execInboundMemoryRead x len tag s
  | .inboundMemoryWrite x len en data ep hint => Sys2Proof.Machine.execInboundMemoryWrite x len en data ep hint s
  | .inboundAtomicop x op lg a b tag => Sys2Proof.Machine.execInboundAtomicop x op lg a b tag s
  | .inboundMsi x data => Sys2Proof.Machine.execInboundMsi x data s
  | .assertIntx g port rid n => Sys2Proof.Machine.execAssertIntx g port rid n s
  | .ptmRequest g port => Sys2Proof.Machine.execPtmRequest g port s
  | .rdshared g rid l => Sys2Proof.Machine.execRdshared g rid l s
  | .rdown g rid l => Sys2Proof.Machine.execRdown g rid l s
  | .rdownnodata g rid l => Sys2Proof.Machine.execRdownnodata g rid l s
  | .rdcurr g rid l => Sys2Proof.Machine.execRdcurr g rid l s
  | .itomwr g rid l data poison => Sys2Proof.Machine.execItomwr g rid l data poison s
  | .wrcur g rid l data poison => Sys2Proof.Machine.execWrcur g rid l data poison s
  | .cleanevict g rid l => Sys2Proof.Machine.execCleanevict g rid l s
  | .dirtyevict g rid l data poison => Sys2Proof.Machine.execDirtyevict g rid l data poison s
  | .cxlMemResponse g l write exist data poison dir => Sys2Proof.Machine.execCxlMemResponse g l write exist data poison dir s
  | .socketLinkJoin g id peer baseline enc diren keyOk => Sys2Proof.Machine.execSocketLinkJoin g id peer baseline enc diren keyOk s
  | .socketJoinRetry g => Sys2Proof.Machine.execSocketJoinRetry g s
  | .socketLinkFlit g ok auth lanes => Sys2Proof.Machine.execSocketLinkFlit g ok auth lanes s
  | .socketLinkRetrainTimeout g => Sys2Proof.Machine.execSocketLinkRetrainTimeout g s
  | .peerFatalNotice p => Sys2Proof.Machine.execPeerFatalNotice p s
  | .query w => Sys2Proof.Machine.execQuery w s
  | .keyLoad w => Sys2Proof.Machine.execKeyLoad w s
  | .keyGen w => Sys2Proof.Machine.execKeyGen w s
  | .keyErase w => Sys2Proof.Machine.execKeyErase w s
  | .unsealLoad w => Sys2Proof.Machine.execUnsealLoad w s
  | .assign w => Sys2Proof.Machine.execAssign w s
  | .measExtend w => Sys2Proof.Machine.execMeasExtend w s
  | .ertWrite w => Sys2Proof.Machine.execErtWrite w s
  | .ertSweepDone => Sys2Proof.Machine.execErtSweepDone s
  | .encSet w => Sys2Proof.Machine.execEncSet w s
  | .enclaveFreeSweepDone => Sys2Proof.Machine.execEnclaveFreeSweepDone s
  | .rekeyqRead q => Sys2Proof.Machine.execRekeyqRead q s
  | .entropyHealthFailure src => Sys2Proof.Machine.execEntropyHealthFailure src s
  | .entropySourceReturn src => Sys2Proof.Machine.execEntropySourceReturn src s
  | .drbgReseed => Sys2Proof.Machine.execDrbgReseed s
  | .maskReseed => Sys2Proof.Machine.execMaskReseed s
  | .meshPatternRenew => Sys2Proof.Machine.execMeshPatternRenew s
  | .alarm src detail => Sys2Proof.Machine.execAlarm src detail s
  | .classBRepeat src detail => Sys2Proof.Machine.execClassBRepeat src detail s
  | .wdogKick q => Sys2Proof.Machine.execWdogKick q s
  | .watchdogExpiry env => Sys2Proof.Machine.execWatchdogExpiry env s
  | .porstAssert => Sys2Proof.Machine.execPorstAssert s
  | .porstDeassert sel addr => Sys2Proof.Machine.execPorstDeassert sel addr s
  | .foxgloveReady => Sys2Proof.Machine.execFoxgloveReady s
  | .foxfwReadyTimeout => Sys2Proof.Machine.execFoxfwReadyTimeout s
  | .dramrdy q => Sys2Proof.Machine.execDramrdy q s
  | .monitorReady => Sys2Proof.Machine.execMonitorReady s
  | .mfail q code => Sys2Proof.Machine.execMfail q code s
  | .failureFrameEnd env => Sys2Proof.Machine.execFailureFrameEnd env s
  | .startRoundWaitEnd env => Sys2Proof.Machine.execStartRoundWaitEnd env s
  | .startStep10Timeout => Sys2Proof.Machine.execStartStep10Timeout s
  | .warmReset q env => Sys2Proof.Machine.execWarmReset q env s
  | .configurationLock q => Sys2Proof.Machine.execConfigurationLock q s
  | .getVersion => Sys2Proof.Machine.execGetVersion s
  | .getCapabilities => Sys2Proof.Machine.execGetCapabilities s
  | .negotiateAlgorithms => Sys2Proof.Machine.execNegotiateAlgorithms s
  | .getDigests => Sys2Proof.Machine.execGetDigests s
  | .getCertificate slot off len => Sys2Proof.Machine.execGetCertificate slot off len s
  | .challenge slot nonce => Sys2Proof.Machine.execChallenge slot nonce s
  | .getMeasurements op sign nonce => Sys2Proof.Machine.execGetMeasurements op sign nonce s
  | .spdmUnsupportedRequest code => Sys2Proof.Machine.execSpdmUnsupportedRequest code s
  | .tapUpdateIr ir => Sys2Proof.Machine.execTapUpdateIr ir s
  | .foxtoken b => Sys2Proof.Machine.execFoxtoken b s
  | .dmiAccess write a data => Sys2Proof.Machine.execDmiAccess write a data s
  | .weirWindowEnd m => Sys2Proof.Machine.execWeirWindowEnd m s
  | .writeVoltage ok => Sys2Proof.Machine.execWriteVoltage ok s
  | .avsWriteTimeout => Sys2Proof.Machine.execAvsWriteTimeout s
  | .readVoltage v => Sys2Proof.Machine.execReadVoltage v s
  | .readCurrent j => Sys2Proof.Machine.execReadCurrent j s
  | .readStatus st => Sys2Proof.Machine.execReadStatus st s
  | .meteredStepForm recent => Sys2Proof.Machine.execMeteredStepForm recent s
  | .meteredStepRampStart => Sys2Proof.Machine.execMeteredStepRampStart s
  | .meteredStepRampEnd => Sys2Proof.Machine.execMeteredStepRampEnd s
  | .parkHintTimeout n => Sys2Proof.Machine.execParkHintTimeout n s
  | .domainGate dom => Sys2Proof.Machine.execDomainGate dom s
  | .domainSwitchOpen dom => Sys2Proof.Machine.execDomainSwitchOpen dom s
  | .gatehold q dom => Sys2Proof.Machine.execGatehold q dom s
  | .release q dom => Sys2Proof.Machine.execRelease q dom s
  | .clkstop q dom => Sys2Proof.Machine.execClkstop q dom s
  | .boundWrite q half v => Sys2Proof.Machine.execBoundWrite q half v s
  | .tileBrownoutHalt n v => Sys2Proof.Machine.execTileBrownoutHalt n v s
  | .tileBrownoutResume n v => Sys2Proof.Machine.execTileBrownoutResume n v s
  | .allTilesHalted100ms => Sys2Proof.Machine.execAllTilesHalted100ms s
  | .vcoreCollapse d => Sys2Proof.Machine.execVcoreCollapse d s
  | .railOutOfRange => Sys2Proof.Machine.execRailOutOfRange s
  | .thermtrip => Sys2Proof.Machine.execThermtrip s
  | .vrhotAssert => Sys2Proof.Machine.execVrhotAssert s
  | .vrhotDeassert => Sys2Proof.Machine.execVrhotDeassert s
  | .ringPop q die => Sys2Proof.Machine.execRingPop q die s
  | .snoopResponseTimeout d l => Sys2Proof.Machine.execSnoopResponseTimeout d l s
  | .fatalwarmExpiry env => Sys2Proof.Machine.execFatalwarmExpiry env s
  | .csrWrite h c rd op src => Sys2Proof.Machine.execCsrWrite h c rd op src s
  | .portLinkDown g port => Sys2Proof.Machine.execPortLinkDown g port s
  | .deassertIntx g port n => Sys2Proof.Machine.execDeassertIntx g port n s
  | .atsTranslationRequest x noWrite => Sys2Proof.Machine.execAtsTranslationRequest x noWrite s
  | .pageRequest x rd wr last prgi => Sys2Proof.Machine.execPageRequest x rd wr last prgi s
  | .iodDomainWakeDone dom => Sys2Proof.Machine.execIodDomainWakeDone dom s
  | .alwaysOnRailUp => Sys2Proof.Machine.execAlwaysOnRailUp s
  | .vpllOutOfRange => Sys2Proof.Machine.execVpllOutOfRange s
  | .dimmAlertEnd c dimm => Sys2Proof.Machine.execDimmAlertEnd c dimm s

end Sys2Proof.Machine
end

