-- ==== Sys2Proof/Safety.lean ====
section
/-! DEFINITION. What the statements say of states: the canonical form of the stores, and states in which nothing is left to settle. -/
namespace Sys2Proof.Machine

/-- Every store is in its canonical form: its keys rise, and no entry of a store with a default holds the default. -/
def State.canon (s : State) : Bool :=
  s.regs.wf && Sparse.canon {} s.harts && Sparse.canon 0 s.xs && Sparse.canon 0 s.fs && Sparse.canon 0 s.vs && s.csrs.wf &&
  Sparse.canon {} s.imsic && s.l1i.wf && s.l1d.wf && s.l2.wf && s.l3.wf && Sparse.canon 0 s.plru && Sparse.canon {} s.tiles &&
  Sparse.canon {} s.quads && Sparse.canon 0 s.seqs && Sparse.canon [] s.lineq && Sparse.canon {} s.slices && s.filt.wf &&
  Sparse.canon 0 s.limits && Sparse.canon {} s.aplic && Sparse.canon {} s.aplicSrc && s.dram.wf && Sparse.canon {} s.chans &&
  Sparse.canon {} s.keys && Sparse.canon {} s.tbrx && Sparse.canon {} s.dies && Sparse.canon 0 s.pmuEdge && Sparse.canon {} s.groups &&
  Sparse.canon 0 s.ecam && Sparse.canon 0 s.msix && s.jobs.wf && s.fetched.wf && Sparse.canon 0 s.moved && Sparse.canon 0 s.fnBytes &&
  Sparse.canon 0 s.lead && Sparse.canon 0 s.slotTurn && Sparse.canon 0 s.aged

/-- Nothing is left to settle: no command is half done, no hart's conditions are to be looked at again, every message in flight is for an agent
that can take it, and no discarded interrupt write waits for its record. -/
abbrev State.still (s : State) : Prop :=
  s.need = {} ∧ s.poke = [] ∧ (∀ m ∈ s.net, s.fencedDie m = none) ∧ ∀ e ∈ s.dies, e.2.drop ≠ 1

/-- A hart has no debug trigger set and does not single-step. -/
abbrev State.unwatched (s : State) (h : Nat) : Prop :=
  (s.hart h).trigs = [] ∧ (s.hart h).trigPend = none ∧ (s.csr h 0x7B0).getLsbD 2 = false

/-- Nothing waits for the hart beside its next instruction: no request waits at a quadrant of its die, it is not parked, paused or
asked to halt, it enables no interrupt, and no debugger watches it. -/
abbrev State.undisturbed (s : State) (h : Nat) : Prop :=
  (∀ q < 4, (s.quad (dieOf (tileOf h) * 4 + q)).waiting = []) ∧ (s.hart h).dbgPend = false ∧
  (s.hart h).park = none ∧ (s.hart h).pause = false ∧ s.csr h 0x304 = 0 ∧ s.unwatched h

/-- A hart can execute an instruction, and nothing else happens with it. -/
abbrev State.free_ (s : State) (h : Nat) : Prop := s.still ∧ s.undisturbed h ∧ (Run.start s).ready h = true

/-- A hart's tile holds no store, and the hart waits for no acknowledgement. -/
abbrev State.drained (s : State) (h : Nat) : Prop :=
  (s.tile (tileOf h)).smb = [] ∧ (s.tile (tileOf h)).sq = [] ∧ (s.hart h).ncOut = []

/-- No injection is armed in an array of a tile (R474): 0 L1I data, 1 its tags, 2 L1D data, 3 its tags, 4 merging buffer, 5 L2 data, 6 its tags,
7 the victim buffer. -/
abbrev State.unarmed (s : State) (n a : Nat) : Prop := s.fld (ARR_FLIP_ARM (dieOf n) (n % 16 * 8 + a)) = 0

/-- A tile's L2 holds a line in way w as x, and its L1D holds the line too; no error is stored in what an access of the line reads. -/
abbrev State.l2Hit (s : State) (n : Nat) (l : LineAddr) (w : Nat) (x : L2Slot) : Prop :=
  (Run.start s).l2Find n l = some (w, x) ∧ x.flip = none ∧ (∀ v < 8, ∀ y ∈ s.l2Slot (l2Key n l v), y.tagFlip = false) ∧
  ∃ v < 16, (Run.start s).l1dFind n l = some v ∧ s.l1dSlot (l1Key n l v) = some { line := l }

/-- A tile's die does not hold a line, nothing of it is in progress there, and its L3 would take it in the empty way w. -/
abbrev State.canMiss (s : State) (n : Nat) (l : LineAddr) (w : Nat) : Prop :=
  (Run.start s).l2Find n l = none ∧ (s.tile n).miss = [] ∧ (s.quad (dieOf n * 4 + quadOf l)).miss = [] ∧
  (s.quad (dieOf n * 4 + quadOf l)).vict = [] ∧ (∀ v < 16, s.l3Slot (l3Key (dieOf n) l v) = none) ∧ (Run.start s).l3Off (dieOf n) l = false ∧
  (Run.start s).l3Pick (dieOf n) l ((Run.start s).partOf (dieOf n) (l.toNat * 64)) false = some w

/-- No hart waits with a DW.SWOP for its slot. -/
abbrev State.noSwop (s : State) : Prop := s.harts.all (fun e => match e.2.wait with | some (.swop _ _ _ _ _) => false | _ => true) = true

/-- No injection is armed in the arrays of the home slices (R474), their filters and trackers, and no filter entry holds an error. -/
abbrev State.uninjected (s : State) : Prop := (∀ a < 68, s.fld (ARR_FLIP_ARM 16 a) = 0) ∧ ∀ e ∈ s.filt, e.2.flip = none

/-- One message is in flight, it can arrive, and nothing else is left to settle; it meets no injected error at a home. -/
abbrev State.oneMsg (s : State) (m : Msg) : Prop :=
  s.still ∧ s.uninjected ∧ s.net = [m] ∧ m.num = 0 ∧ m.intact = true ∧ (Run.start s).arrives m = true

/-- The packet that carries a message: intact, and numbered as its destination expects (R206). -/
def State.packet (s : State) (m : Msg) : Msg := { m with num := BitVec.ofNat 12 ((seqKey m).elim 0 s.seq) }

/-- No die and no CXL device holds a line, as its home slice records. -/
abbrev State.unheld (s : State) (l : LineAddr) : Prop :=
  (∀ d < 16, (Run.start s).filtOf d l = none) ∧ (s.slice (quadOf l)).devs = []

/-- A message for the home of a line in DRAM of this socket, which has a tracker for it and no request in progress, while no directory is
kept and no FATAL is raised; its sender is no peer socket, and the slot that a request of a die names records no line. -/
abbrev State.freeHome (s : State) (m : Msg) (c la : Nat) : Prop :=
  m.dst = homeOf m.line ∧ (∀ p, m.src ≠ .peer p) ∧ (∀ d, m.src = .die d → sparesOwn m.kind = true → s.filtEntry (l3Key d m.line m.way) = none) ∧ s.pins.fatal = false ∧
  regionOf (m.line.toNat * 64) = .memory ∧ (Run.start s).decodeLine m.line = .dram c la ∧ c < 24 ∧ s.queue m.line.toNat = [] ∧
  (Run.start s).trackerFree (quadOf m.line) m = true ∧ s.fld HOME_CFG_DIREN = 0

/-- A die's L3 holds a line as x in way w and records no tile that holds it; no error is stored in its set, none of its tiles delays
snoops of the line, and none is armed in what a grant writes. -/
abbrev State.l3Alone (s : State) (d : Nat) (l : LineAddr) (w : Nat) (x : L3Slot) : Prop :=
  (Run.start s).l3Find d l = some (w, x) ∧ x.cv = 0 ∧ x.flip = none ∧
  (∀ v < 16, ∀ y ∈ s.l3Slot (l3Key d l v), y.tagFlip = false ∧ y.cvFlip = false) ∧
  ∀ t < 16, (Run.start s).lrDelayed (d * 16 + t) l = false

/-- A die's quadrant waits for a line, for a prefetch of its tile n; no disable is in progress, no injection is armed, nothing else waits there,
and the slots of the line's set hold no error. -/
abbrev State.awaits (s : State) (d n : Nat) (x : QMiss) (k : MsgKind) : Prop :=
  n / 16 = d ∧ d < 16 ∧ s.quad (d * 4 + quadOf x.line) = { miss := [x], vict := [], waiting := [] } ∧ x.tiles = [(n, k)] ∧ x.way < 16 ∧
  (s.tile n).miss = [{ line := x.line, own := k != .rdS, sent := true, want := [.prefetch false] }] ∧ (s.tile n).stash = [] ∧
  (Run.start s).l3Off d x.line = false ∧ (Run.start s).l2Off n = false ∧ s.fld (L2CTL_STATUS_CACHE_DISABLE_PENDING n) = 0 ∧
  s.unarmed n 5 ∧ s.unarmed n 6 ∧ s.fld (ARR_FLIP_ARM d (128 + quadOf x.line * 3)) = 0 ∧ s.fld (ARR_FLIP_ARM d (128 + quadOf x.line * 3 + 1)) = 0 ∧
  s.noSwop ∧
  ∀ v < 16, ∀ y ∈ s.l3Slot (l3Key d x.line v), y.flip = none ∧ y.tagFlip = false ∧ y.cvFlip = false

/-- A hart with one occurrence more of an event for the next token (R479). -/
def Hart.told (t : Hart) (ev : Nat) : Hart := { t with tally := t.tally.upd ev (some (Sparse.get 0 t.tally ev + 1)) }

/-- No source of the APLIC is configured, so that no wire becomes an interrupt. -/
abbrev State.noSources (s : State) : Prop := s.aplicSrc = []

/-- Nothing waits for any listed hart of a die beside its next instruction. -/
abbrev State.dieIdle (s : State) (d : Nat) : Prop := ∀ e ∈ s.harts, dieOf (tileOf e.1) = d → s.undisturbed e.1

/-- Slot i of an error bank is free: 0 for CEs, 1 for UCNAs and UCRs, 2 for FATAL. -/
abbrev State.freeSlot (s : State) (b : Bank) (i : Nat) : Prop := natBit (s.fld (EB_STAT_V b.base)) i = false

/-- Slot i of an error bank holds a record of an event. -/
abbrev State.recorded (s : State) (b : Bank) (i event : Nat) : Prop :=
  natBit (s.fld (EB_STAT_V b.base)) i = true ∧ Word.bits (s.reg (EB_REC b.base i 0)) 15 0 = event

/-- A requester of this package can write registers: a hart that runs, a Larkspur core once it is released, or Foxglove; and the blocks of the
IOD are not held in reset. -/
abbrev State.writer (s : State) (q : Requester) : Prop :=
  s.pins.porst = false ∧ s.pins.iodHeld = false ∧
  (match q with
    | .hart h => (s.hart h).run == .running
    | .lark _ => s.fox.ready
    | .fox => true
    | _ => false) = true

/-- A field holds after a write of `v` by software what its access code says (R6, R7), where neither the configuration lock nor the
block keeps it from being written. -/
def newField (x : Field) (old v : Word) : Nat :=
  match x.acc.kind with
  | .rw => Word.bits v x.hi x.lo
  | .w1c => Word.bits (old &&& ~~~ v) x.hi x.lo
  | .w1s => Word.bits (old ||| v) x.hi x.lo
  | .ro | .wo => Word.bits old x.hi x.lo

/-- The identity as the 32 bits of an interrupt write name it: little-endian at 0x000 of a page, big-endian at 0x004 (R70). -/
def msiBytes (big : Bool) (n : Nat) : BitVec 32 :=
  if big then BitVec.ofNat 32 (swap32 n) else BitVec.ofNat 32 n

/-- The offset of an interrupt file's page (R69): file 0 machine, 1 supervisor, 2 to 5 guest files 1 to 4. -/
def filePage (h f : Nat) : Nat :=
  if f = 0 then tileBase (h / 4) + 0x200000 + h % 4 * 0x1000 else tileBase (h / 4) + 0x280000 + h % 4 * 0x8000 + (f - 1) * 0x1000

/-- The lanes of a direction of a link that a map leaves healthy. -/
def healthy (map : Nat) : Nat := ((List.range 18).filter fun i => !natBit map i).length

/-- The IOMMU passes I/O addresses as they are, and none of its counters counts. -/
abbrev State.bareIo (s : State) : Prop := (Run.start s).io32 0x10 % 16 = 1 ∧ ∀ i < 8, (Run.start s).ioBit 0x5C i = true

/-- A line lies in DRAM of this socket outside every enclave range, with nothing in progress for it, no copy of it shown and no reservation on
it: an agent's access reaches its DRAM at once. No access of any agent is under way. -/
abbrev State.lineDst (s : State) (a : Agent) (l : LineAddr) (c la : Nat) : Prop :=
  s.ops = [] ∧ (Run.start s).ertOf (l.toNat * 64) = none ∧ (Run.start s).atOnce a l = some (c, la) ∧ (s.key 0).loaded = true ∧
  ∀ e ∈ s.harts, e.2.resv ≠ some l

/-- Such a line, written before without poison or error under the key that is loaded. -/
abbrev State.lineSrc (s : State) (a : Agent) (l : LineAddr) (c la : Nat) (x : DLine) : Prop :=
  s.lineDst a l c la ∧ s.dline (dramKey c la) = some x ∧ x.err = [] ∧ x.poison = false ∧ x.key = (s.key 0).key ∧ x.tweak = l.toNat

/-- The line as a write of engines leaves it. -/
abbrev State.wrote (s : State) (l : LineAddr) (data : LineData) : DLine := { data := data, dir := 0, key := (s.key 0).key, tweak := l.toNat }

/-- The bytes of a line. -/
def DLine.bytes (x : DLine) : List Byte := bytesLE 64 x.data.toNat

/-- A context of an engine holds a job of an operation that has not begun to end, and no FATAL is raised. -/
abbrev State.jobRuns (s : State) (e : Fin 8) (c : Fin 256) (op : Nat) (x : Job) : Prop :=
  s.still ∧ s.job (e * 256 + c) = some x ∧ dOp x.desc = op ∧ x.status = none ∧ x.aborted = false ∧ x.staged = none ∧ s.pins.fatal = false ∧ x.f < 256 ∧ x.j < 32

/-- The source and destination of a descriptor: whole lines, from byte 0. -/
abbrev Job.spans (x : Job) (src : LineAddr) (n : Nat) (dst : LineAddr) (m : Nat) : Prop :=
  descNat x.desc 8 8 = src.toNat * 64 ∧ descNat x.desc 16 8 = n ∧ descNat x.desc 24 8 = dst.toNat * 64 ∧ descNat x.desc 32 8 = m

/-- A request from behind a port that is up, under no IDE stream; its requester has no earlier posted write that is not visible, and its
group holds nothing. The IOMMU takes its address as it is. -/
abbrev State.inPlain (s : State) (x : IoReq) : Prop :=
  s.still ∧ s.bareIo ∧ s.pins.fatal = false ∧ x.stream = none ∧ x.translated = false ∧ (Run.start s).portUp x.g x.port = true ∧ (s.grp x.g).held = [] ∧
  ∀ p ∈ (s.grp x.g).posted, p.2.1 ≠ x.rid.toNat

/-- Port 0 of a group with a coherent CXL device is up, its stream is not under IDE, nothing is in progress in the fabric, and the IOMMU lets the
device access a line in memory of this socket. -/
abbrev State.cxlReady (s : State) (g : Fin 32) (rid : BitVec 16) (l : LineAddr) (write : Bool) : Prop :=
  s.still ∧ s.net = [] ∧ s.lineq = [] ∧ s.pins.fatal = false ∧ (Run.start s).portUp g 0 = true ∧ s.fld (G_CFG_PERS g) = 2 ∧ s.fld (G_CFG_COH g) = 1 ∧
  natBit (s.grp g).insec 8 = false ∧ natBit (s.fld (G_IDESTAT_SECURE g)) 8 = false ∧ regionOf (l.toNat * 64) = .memory ∧ (Run.start s).ertOf (l.toNat * 64) = none ∧
  (let r := (Run.start s).accessing (.inbound g rid.toNat (l.toNat * 64)) .iommu
   let x := r.ioTrans { did := g * 65536 + rid.toNat, write := write, ttyp := if write then 7 else 6, iova := l.toNat * 64, who := some (7, g.val) }
   x.1.1 = r.1 ∧ x.2.toOption = some (l.toNat * 64, true))

/-- A group has a socket link at a state. -/
abbrev State.sockAt (s : State) (g : Fin 32) (st : Nat) : Prop :=
  s.still ∧ s.noSources ∧ s.pins.fatal = false ∧ s.fld (G_CFG_EN g) = 1 ∧ (s.fld (G_CFG_PERS g) = 3 ∨ s.fld (G_CFG_PERS g) = 4) ∧ s.fld (G_STAT_STATE g) = st

/-- Foxglove may run the one command in its queue: mailbox w's, of a requester q, whose block begins with line l of ordinary memory, which
holds x; its response goes to the line after it. -/
abbrev State.command (s : State) (w : Fin 3) (q : Requester) (l : LineAddr) (x : DLine) (c la c' la' : Nat) : Prop :=
  s.still ∧ s.noSources ∧ (Run.start s).foxRuns = true ∧ s.fox.cmds = [(w.val, l.toNat * 64, q)] ∧ l ≠ BitVec.allOnes 46 ∧ s.lineSrc .fox l c la x ∧
  s.lineDst .fox (l + 1) c' la'

/-- The command that a line holds. -/
def cmdOf (w : Fin 3) (q : Requester) (l : LineAddr) (x : DLine) : Cmd := { w := w, a := l.toNat * 64, q := q, b := x.data.toNat }

/-- A command for an operation, with no flags, its reserved bytes 0 and no notification. -/
abbrev Cmd.plain (c : Cmd) (op : Nat) : Prop := c.at 0 1 = op ∧ c.at 1 1 = 0 ∧ c.at 26 6 = 0 ∧ c.at 44 20 = 0 ∧ c.at 32 8 = 0

/-- A command on a slot that its mailbox may use (R355). -/
abbrev State.slotReady (s : State) (c : Cmd) (op id : Nat) : Prop :=
  c.plain op ∧ c.at 4 4 = id ∧ (Run.start s).slotNamed id = true ∧ (Run.start s).mayCommand c.w op id = true

/-- LIMLOG is in range for KEY_LOAD and KEY_GEN (R353). -/
abbrev Cmd.limOk (c : Cmd) (id : Nat) : Prop := if slotBank id = 1 ∧ c.at 2 1 = 1 then 16 ≤ c.at 3 1 ∧ c.at 3 1 ≤ 63 else c.at 3 1 = 0

/-- A slot after a key of a type went into it (R349, R354). -/
def KeySlot.loadedWith (k : KeySlot) (type limlog ctr0 : Nat) (key : BitVec 512) : KeySlot :=
  if type = 1 then { loaded := true, type := 1, key := key, gen := (k.gen + 1) % 2 ^ 32, counter := ctr0, limlog := limlog, owner := k.owner }
  else { loaded := true, type := type, key := key, gen := (k.gen + 1) % 2 ^ 32, owner := k.owner }

/-- The command of a mailbox has ended with a status, and its response, which tells of a slot, lies in its line (R353). -/
abbrev State.answered (s t : State) (w : Fin 3) (l : LineAddr) (c' la' st : Nat) (slot : Option Nat) : Prop :=
  t.fox.cmds = [] ∧ t.fld (MBX_STAT_ST w) = st ∧ t.fld (MBX_STAT_BUSY w) = 0 ∧ t.fld (MBX_STAT_COUNT w) = (s.fld (MBX_STAT_COUNT w) + 1) % 2 ^ 32 ∧
  t.dram = s.dram.upd (dramKey c' la') (some (s.wrote (l + 1) (BitVec.ofNat 512 (natLE ((Run.start t).cmdResponse st slot)))))

/-- A command of the secure monitor that waits for its sweep, with nothing of its ranges cached or in progress (R380, R381). -/
abbrev State.sweeps (s : State) (x : FoxSweep) (op : Nat) : Prop :=
  s.fox.sweep = some x ∧ x.op = op ∧ (Run.start s).rangesBusy (x.drop ++ x.flush) = false ∧
  ((Run.start s).cachedLines.all fun l => !inRanges (x.drop ++ x.flush) l) = true

/-- An attempt of a start is under way at a step, with every hart held and nothing in the fabric (R406). -/
abbrev State.startsAt (s : State) (step : Nat) : Prop :=
  s.still ∧ s.noSources ∧ s.canon = true ∧ s.harts = [] ∧ s.net = [] ∧ s.pins.porst = false ∧ s.pins.fatal = false ∧ s.fox.waits = 0 ∧ s.fld FOX_START_STEP = step

/-- The attempt has failed with a cause: the failure frame is shown, every hart is held and the next step waits for the frame's end (R410, R411). -/
abbrev State.failedWith (s t : State) (step cause : Nat) : Prop :=
  t.fld FOX_START_STEP = 0xF ∧ t.fld FOX_START_CAUSE = cause ∧ t.fox.waits = 2 ∧ t.fox.ready = false ∧ t.pins.status = 0xF ∧
  t.pins.frame = [0xF, step, cause, 0xA + s.fld FOX_START_SLOTB] ∧ t.fld FOX_START_ATTEMPTS = min (s.fld FOX_START_ATTEMPTS + 1) 65535 ∧
  t.fld FOX_CFGLOCK_LOCK = 0 ∧ t.harts = []

/-- The cause with which an attempt on an image ends before its dies join, if one does (R401, R406, R410). -/
def State.imageCause (s : State) (err : Nat) (bytes : List Byte) : Option Nat :=
  if err = 1 then some 1
  else if err = 2 then some 2
  else match imgCheck s.fox.svn (s.reg ID_BASELINE) bytes with
    | .error c => some c
    | .ok rs => match findRec rs 0x18 with
      | some x => if ((Run.start s).powerCfg x.bytes).isNone then some 0xA else none
      | none => none

/-- An attempt on a slot has been made: it has failed with its cause, or Foxglove firmware runs and the dies join (R406 steps 4 to 7). -/
abbrev State.attempted (s t : State) (slotB : Bool) (env : StartEnv) : Prop :=
  let bytes := if slotB then env.slotB else env.slotA
  let c := s.imageCause (if slotB then env.errB else env.errA) bytes
  t.fld FOX_START_SLOTB = (if slotB then 1 else 0) ∧ t.fld FOX_START_STEP = (if c.isSome then 0xF else 7) ∧ t.fox.waits = (if c.isSome then 2 else 0) ∧
  t.fld FOX_START_CAUSE = c.getD (t.fld FOX_START_CAUSE) ∧ (c.isNone = true → t.fox.image = some (bytes.take (imgLen bytes)))

/-- The package has begun a warm reset with its reference clock not yet judged good: start waits for it in step 2 (R406, R407). -/
abbrev State.warmWaits (s t : State) : Prop :=
  t.fox.warm = true ∧ t.fox.waits = 1 ∧ t.fld FOX_START_STEP = 2 ∧ t.harts = [] ∧ t.wdog = none ∧ t.pins.fatal = false ∧ t.fld FOX_CFGLOCK_LOCK = 0 ∧
  t.dram = s.dram ∧ t.tbrx = [] ∧ t.reg TBASE_COUNT = s.reg TBASE_COUNT

variable {s0 : State}

/-- The state that a run leaves once every hart that it touched has been looked at again, with nothing for them to do. -/
def Run.over (r : Run s0) : State := (r.act (.poke [])).1

end Sys2Proof.Machine
end

