-- ==== Sys2Proof/Certificates/Slice0/Obligations.lean ====
section
/-! DEFINITION. The statements for the provers. A conclusion of the form `exec c s = .next t`, or there is such a t, says that the command
has its own effect in the states that the hypotheses name. -/
open Sys2Proof Sys2Proof.Machine


/-! ### Harts: fences, waiting, and instructions on registers alone -/

/-- R187, R58, R116 to R118: with no store of the hart left, a fence completes at once; the fences of translation also remove the
entries that they name. An SINVAL or HINVAL removes the entries that the fence of the same scope would. -/
def Obligations.FencesCompleteWhenDrained : Prop :=
  (∀ (h : Fin 1024) (p u : BitVec 4) (tso : Bool) (s : State), s.free_ h → s.drained h →
    exec (.fence h p u tso) s = .next ((Run.start s).retire h).over) ∧
  (∀ (h : Fin 1024) (s : State), s.free_ h → s.drained h → exec (.fenceI h) s = .next ((Run.start s).retire h).over) ∧
  (∀ (h : Fin 1024) (s : State), s.free_ h → s.drained h → (s.hart h).mode.user = false →
    exec (.sfenceWInval h) s = .next ((Run.start s).retire h).over) ∧
  (∀ (h : Fin 1024) (s : State), s.free_ h → s.drained h → (s.hart h).mode.user = false →
    exec (.sfenceInvalIr h) s = .next ((Run.start s).retire h).over) ∧
  (∀ (h : Fin 1024) (rs1 rs2 : Fin 32) (s : State), s.free_ h → s.drained h → (Run.start s).sfenceCause h = none →
    exec (.sfenceVma h rs1 rs2) s = .next (((Run.start s).dropTlb h (fenceNames (s.hart h).mode.virt ((Run.start s).cf h 0x680 57 44)
      ((Run.start s).scope h rs1 64) ((Run.start s).scope h rs2 16))).retire h).over) ∧
  (∀ (h : Fin 1024) (rs1 rs2 : Fin 32) (s : State), s.free_ h → s.drained h → (Run.start s).hfenceCause h false = none →
    exec (.hfenceVvma h rs1 rs2) s = .next (((Run.start s).dropTlb h (fenceNames true ((Run.start s).cf h 0x680 57 44)
      ((Run.start s).scope h rs1 64) ((Run.start s).scope h rs2 16))).retire h).over) ∧
  (∀ (h : Fin 1024) (rs1 rs2 : Fin 32) (s : State), s.free_ h → s.drained h → (Run.start s).hfenceCause h true = none →
    exec (.hfenceGvma h rs1 rs2) s = .next (((Run.start s).dropTlb h (gfenceNames (((Run.start s).scope h rs1 64).map (· * 4))
      ((Run.start s).scope h rs2 14))).retire h).over) ∧
  (∀ (h : Fin 1024) (rs1 rs2 : Fin 32) (s : State), s.free_ h → s.drained h → (Run.start s).sfenceCause h = none →
    exec (.sinvalVma h rs1 rs2) s = .next (((Run.start s).dropTlb h (fenceNames (s.hart h).mode.virt ((Run.start s).cf h 0x680 57 44)
      ((Run.start s).scope h rs1 64) ((Run.start s).scope h rs2 16))).retire h).over) ∧
  (∀ (h : Fin 1024) (rs1 rs2 : Fin 32) (s : State), s.free_ h → s.drained h → (Run.start s).hfenceCause h false = none →
    exec (.hinvalVvma h rs1 rs2) s = .next (((Run.start s).dropTlb h (fenceNames true ((Run.start s).cf h 0x680 57 44)
      ((Run.start s).scope h rs1 64) ((Run.start s).scope h rs2 16))).retire h).over) ∧
  (∀ (h : Fin 1024) (rs1 rs2 : Fin 32) (s : State), s.free_ h → s.drained h → (Run.start s).hfenceCause h true = none →
    exec (.hinvalGvma h rs1 rs2) s = .next (((Run.start s).dropTlb h (gfenceNames (((Run.start s).scope h rs1 64).map (· * 4))
      ((Run.start s).scope h rs2 14))).retire h).over)

/-- What an instruction that retires leaves: the pc is 4 further, INSTRET (event 2) has one occurrence more for the next token, minstret counts it unless it is inhibited or the core's counters
stand still, and no other register of the hart, no other hart and no memory changes. -/
def Obligations.RetireMovesPcAndCount : Prop :=
  ∀ (h : Nat) (s : State), s.unwatched h →
    let t := ((Run.start s).retire h).over
    t.hart h = Hart.told { s.hart h with pc := (s.hart h).pc + 4, wait := none } 2 ∧
    (∀ k, k ≠ h → t.hart k = s.hart k) ∧
    t.csr h 0xB02 = (if (s.csr h 0x320).getLsbD 2 then s.csr h 0xB02 else if (Run.start s).counting h then s.csr h 0xB02 + 1 else s.csr h 0xB02) ∧
    (∀ k n, n < 4096 → (k ≠ h ∨ n ≠ 0xB02) → t.csr k n = s.csr k n) ∧
    t.xs = s.xs ∧ t.fs = s.fs ∧ t.vs = s.vs ∧ t.regs = s.regs ∧ t.dram = s.dram ∧ t.l2 = s.l2 ∧ t.l3 = s.l3 ∧ t.tiles = s.tiles ∧ t.net = s.net

/-- R59, R81: WFI in M-mode, WRS.NTO and WRS.STO with a reservation held, and DW.PARK without a deadline park where none of their
conditions holds; STAT shows STATE 2. The time limits of WFI, WRS.NTO and WRS.STO, PAUSE and its end, and R186: the end of the delay after an LR. -/
def Obligations.WaitsComplete : Prop :=
  (∀ (h : Fin 1024) (s : State), s.free_ h → s.drained h → (s.hart h).lrDelay = none → (s.hart h).mode = .m →
    exec (.wfi h) s = .next ((((Run.start s).modHart h fun t => { t with park := some ⟨.wfi, 0, 1, false, none, 0, none⟩ }).setRun h .parked).pokeHart h).over) ∧
  (∀ (h : Fin 1024) (s : State), s.free_ h → s.drained h → (s.hart h).lrDelay = none → (s.hart h).mode = .m → (s.hart h).resv ≠ none →
    exec (.wrsNto h) s = .next ((((Run.start s).modHart h fun t => { t with park := some ⟨.wrsNto, 0, 1, true, none, 0, none⟩ }).setRun h .parked).pokeHart h).over) ∧
  (∀ (h : Fin 1024) (s : State), s.free_ h → s.drained h → (s.hart h).lrDelay = none → (s.hart h).mode ≠ .debug → (s.hart h).resv ≠ none →
    exec (.wrsSto h) s = .next ((((Run.start s).modHart h fun t => { t with park := some ⟨.wrsSto, 0, 1, true, none, 0, none⟩ }).setRun h .parked).pokeHart h).over) ∧
  (∀ (h : Fin 1024) (rd : Fin 32) (imm : BitVec 12) (s : State), s.free_ h → s.drained h → (s.hart h).lrDelay = none → (s.hart h).mode = .m →
    imm.toNat < 3 → (s.hart h).wake = false →
    exec (.dwPark h rd 0 imm) s =
      .next ((((Run.start s).modHart h fun t => { t with park := some ⟨.dwPark, rd, imm.toNat, false, none, 0, none⟩ }).setRun h .parked).pokeHart h).over) ∧
  (∀ (h : Fin 1024) (p : Park) (s : State), s.still → (s.hart h).park = some p → (p.kind = .wfi ∨ p.kind = .wrsNto) → (s.hart h).mode = .u →
    (s.hart h).eid = 0 → (s.tile (tileOf h)).ceid = 0 → (s.csr h 0x302).getLsbD 2 = false → (s.hart h).dbgPend = false → s.unwatched h → (s.hart h).pause = false →
    s.csr h 0x304 = 0 → (∀ q < 4, (s.quad (dieOf (tileOf h) * 4 + q)).waiting = []) →
    ∃ t, exec (.wfiLimitExpiry h) s = .next t ∧ (t.hart h).park = none ∧ (t.hart h).run = .running ∧ (t.hart h).mode = .m ∧
      t.csr h 0x342 = 2 ∧ t.csr h 0x341 = (s.hart h).pc ∧ t.fld (HART_STAT_STATE (tileOf h) (h.val % 4)) = 1) ∧
  (∀ (h : Fin 1024) (p : Park) (s : State), s.still → (s.hart h).park = some p → p.kind = .wrsSto → (s.hart h).eid = 0 →
    (s.tile (tileOf h)).ceid = 0 → (s.hart h).dbgPend = false → s.unwatched h → (s.hart h).pause = false →
    s.csr h 0x304 = 0 → (∀ q < 4, (s.quad (dieOf (tileOf h) * 4 + q)).waiting = []) →
    ∃ t, exec (.wrsStoTimeout h) s = .next t ∧ (t.hart h).park = none ∧ (t.hart h).run = .running ∧ (t.hart h).pc = (s.hart h).pc + 4 ∧
      t.fld (HART_STAT_STATE (tileOf h) (h.val % 4)) = 1) ∧
  (∀ (h : Fin 1024) (s : State), s.free_ h →
    ∃ t, exec (.pause h) s = .next t ∧ (t.hart h).pause = true ∧ (t.hart h).pc = (s.hart h).pc + 4) ∧
  (∀ (h : Fin 1024) (s : State), s.still → (s.hart h).pause = true → (s.hart h).dbgPend = false → s.unwatched h → (s.hart h).park = none → s.csr h 0x304 = 0 →
    (∀ q < 4, (s.quad (dieOf (tileOf h) * 4 + q)).waiting = []) →
    ∃ t, exec (.pauseEnd h) s = .next t ∧ t.hart h = { s.hart h with pause := false }) ∧
  (∀ (h : Fin 1024) (l : LineAddr) (s : State), s.still → (s.hart h).lrDelay = some l → (s.quad (dieOf (tileOf h) * 4 + quadOf l)).waiting = [] →
    s.harts.all (fun e => match e.2.wait with | some (.swop _ _ _ _ _) => false | _ => true) = true →
    ∃ t, exec (.lrSnoopDelayEnd h) s = .next t ∧ t.hart h = { s.hart h with lrDelay := none })

/-- R60: a read of seed; R109: DW.KEYSW outside U-mode swaps rs1 with every key's rights; R86: DW.WAKE sets the wake flag of a hart that
it may name. -/
def Obligations.SeedKeysWakeComplete : Prop :=
  (∀ (h : Fin 1024) (rd : Fin 32) (s : State), s.free_ h → (s.hart h).mode = .m → s.fld FOX_TRNG_STAT_DRBGOK = 0 →
    exec (.seedRead h rd true) s = .next (((Run.start s).fresh.1.setXr h rd 0x40000000).retire h).over) ∧
  (∀ (h : Fin 1024) (rd rs1 : Fin 32) (s : State), s.free_ h → ((s.hart h).mode = .m ∨ (s.hart h).mode = .s) →
    exec (.dwKeysw h rd rs1 0) s = .next ((((Run.start s).setXr h rd (s.csr h 0x5C8)).setCsr h 0x5C8
      ((s.csr h 0x5C8 &&& ~~~ 0x7777777777777777) ||| ((Run.start s).xr h rs1 &&& 0x7777777777777777))).retire h).over) ∧
  (∀ (h k : Fin 1024) (rd rs1 : Fin 32) (s : State), s.free_ h → s.drained h → s.undisturbed k → h ≠ k → (s.hart h).mode = .m →
    (Run.start s).xr h rs1 = BitVec.ofNat 64 k → s.online (dieOf (tileOf k)) = true →
    ∃ t, exec (.dwWake h rd rs1 0) s = .next t ∧ (t.hart k).wake = true ∧ (rd ≠ 0 → (Run.start t).xr h rd = 0) ∧ (t.hart h).pc = (s.hart h).pc + 4)

/-- R110, R104, R88, R123 and R121: a CSR write in M-mode gives rd the old value and the CSR what its own rule makes of rs1; R71: a claim
reports the top identity of the machine file and clears it. -/
def Obligations.CsrWritesComplete : Prop :=
  (∀ (h : Fin 1024) (rd rs1 : Fin 32) (s : State), s.free_ h → (s.hart h).mode = .m →
    exec (.sdwkeyWrite h rd .rw (.reg rs1)) s = .next ((((Run.start s).setXr h rd (s.csr h 0x5C8)).retire h).setCsr h 0x5C8
      ((s.csr h 0x5C8 &&& ~~~ 0x7777777777777777) ||| ((Run.start s).xr h rs1 &&& 0x7777777777777777))).over) ∧
  (∀ (h : Fin 1024) (j : Fin 8) (rd rs1 : Fin 32) (s : State), s.free_ h → (s.hart h).mode = .m →
    exec (.reachCsrWrite h 2 j rd .rw (.reg rs1)) s = .next ((((Run.start s).setXr h rd (s.csr h (0x5E0 + j.val))).retire h).setCsr h (0x5E0 + j.val)
      (legalAttr (s.csr h (0x5E0 + j.val)) ((Run.start s).xr h rs1))).over) ∧
  (∀ (h : Fin 1024) (j : Fin 4) (rd rs1 : Fin 32) (s : State), s.free_ h → (s.hart h).mode = .m →
    exec (.mdwharWrite h j rd .rw (.reg rs1)) s = .next ((((Run.start s).setXr h rd (s.csr h (0x7C4 + j.val))).retire h).setCsr h (0x7C4 + j.val)
      (legalHar (s.csr h (0x7C4 + j.val)) ((Run.start s).xr h rs1))).over) ∧
  (∀ (h : Fin 1024) (rd rs1 : Fin 32) (s : State), s.free_ h → (s.hart h).mode = .m → (Run.start s).pmpLocked h 63 = false →
    exec (.pmpCsrWrite h 0x3EF rd .rw (.reg rs1)) s = .next ((((Run.start s).setXr h rd (BitVec.ofNat 64 ((Run.start s).pmpaddr h 63))).retire h).setCsr h 0x3EF
      (legal (if natBits ((Run.start s).pmpcfg h 63) 4 3 = 3 then 0x3FFFFFFFFFE00 else 0x3FFFFFFFFFC00) (s.csr h 0x3EF) ((Run.start s).xr h rs1))).over) ∧
  (∀ (h : Fin 1024) (rd rs1 : Fin 32) (s : State), s.free_ h → (s.hart h).mode = .m → Word.bits ((Run.start s).xr h rs1) 63 60 ∈ [0, 8, 9, 10] →
    exec (.csrWrite h 0x180 rd .rw (.reg rs1)) s = .next ((((Run.start s).setXr h rd (s.csr h 0x180)).retire h).setCsr h 0x180
      ((Run.start s).xr h rs1)).over) ∧
  (∀ (h : Fin 1024) (rd : Fin 32) (s : State), s.free_ h → (s.hart h).mode = .m → (Run.start s).topId h 0 ≠ 0 →
    exec (.imsicClaim h 0 rd) s = .next ((((Run.start s).setXr h rd (BitVec.ofNat 64 ((Run.start s).topId h 0 * 65537))).retire h).modFile (h * 8)
      fun x => { x with pend := x.pend &&& ~~~ (1#2048 <<< (Run.start s).topId h 0) }).over)

/-- R468 and RISC-V: what a return from a trap restores, and that it clears EIP when EIPMODE names its mode. -/
def Obligations.ReturnsComplete : Prop :=
  (∀ (h : Fin 1024) (s : State), s.free_ h → (s.hart h).mode = .m →
    ∃ t, exec (.mret h) s = .next t ∧ (t.hart h).pc = s.csr h 0x341 ∧
      (t.hart h).mode = Mode.ofPrv (Word.bits (s.csr h 0x300) 12 11) ((s.csr h 0x300).getLsbD 39) ∧
      Word.bits (t.csr h 0x300) 3 3 = Word.bits (s.csr h 0x300) 7 7 ∧ Word.bits (t.csr h 0x300) 12 11 = 0 ∧
      (Word.bits (s.csr h 0x7E0) 57 56 = 3 → Word.bits (t.csr h 0x7E0) 63 63 = 0)) ∧
  (∀ (h : Fin 1024) (s : State), s.free_ h → (s.hart h).mode = .s → (s.csr h 0x300).getLsbD 22 = false →
    ∃ t, exec (.sret h) s = .next t ∧ (t.hart h).pc = s.csr h 0x141 ∧
      (t.hart h).mode = Mode.ofPrv (Word.bits (s.csr h 0x300) 8 8) ((s.csr h 0x600).getLsbD 7) ∧
      Word.bits (t.csr h 0x300) 1 1 = Word.bits (s.csr h 0x300) 5 5 ∧ Word.bits (t.csr h 0x600) 7 7 = 0 ∧
      (Word.bits (s.csr h 0x7E0) 57 56 = 1 → Word.bits (t.csr h 0x7E0) 63 63 = 0)) ∧
  (∀ (h : Fin 1024) (s : State), s.free_ h → (s.hart h).mode = .m →
    ∃ t, exec (.mnret h) s = .next t ∧ (t.hart h).pc = s.csr h 0x741 ∧
      (t.hart h).mode = Mode.ofPrv (Word.bits (s.csr h 0x744) 12 11) ((s.csr h 0x744).getLsbD 7) ∧
      Word.bits (t.csr h 0x744) 3 3 = 1 ∧ (Word.bits (s.csr h 0x7E0) 57 56 = 2 → Word.bits (t.csr h 0x7E0) 63 63 = 0))

/-! ### Harts: memory -/

/-- R23 to R27: a load of a line that the L2 holds, with no error stored in what it reads and no store of the hart left, writes rd with the
bytes of the line, sign-extended unless unsigned; and a store of a hart whose tile holds no other store enters the merging buffer, and
leaves L2 and memory as they are. -/
def Obligations.LoadAndStoreComplete : Prop :=
  (∀ (h : Fin 1024) (rd rs1 : Fin 32) (imm : BitVec 12) (lg : Fin 4) (uns : Bool) (w : Nat) (x : L2Slot) (p : PPart) (s : State),
    s.free_ h → s.drained h → badLoad (.x rd) imm lg uns .plain = false →
    (Run.start s).plan h .load ((Run.start s).effective h false).1 ((Run.start s).effective h false).2 false false (loadTinst (.x rd) lg uns .plain)
      ((Run.start s).xr h rs1 + imm.signExtend 64) (2 ^ lg.val) = (Run.start s, .ok [p]) →
    p.dev = false → p.mt = 0 → s.l2Hit (tileOf h) p.part.line w x → x.poison = false →
    ∃ t, exec (.load h (.x rd) rs1 imm lg uns .plain) s = .next t ∧ (t.hart h).pc = (s.hart h).pc + 4 ∧
      (rd ≠ 0 → (Run.start t).xr h rd = extend (gather 0 0 p.part x.data) lg uns) ∧ t.dram = s.dram ∧ t.l2 = s.l2) ∧
  (∀ (h : Fin 1024) (rs2 rs1 : Fin 32) (imm : BitVec 12) (lg : Fin 4) (p : PPart) (s : State),
    s.free_ h → s.drained h → (Run.start s).sqFree (tileOf h) h 1 = true → s.unarmed (tileOf h) 4 →
    (Run.start s).plan h .store ((Run.start s).effective h false).1 ((Run.start s).effective h false).2 false false (storeTinst (.x rs2) lg .plain)
      ((Run.start s).xr h rs1 + imm.signExtend 64) (2 ^ lg.val) = (Run.start s, .ok [p]) →
    p.dev = false → p.mt = 0 → spanMask p.part.off p.len ≠ BitVec.allOnes 64 →
    ∃ t, exec (.store h (.x rs2) rs1 imm lg .plain) s = .next t ∧ (t.hart h).pc = (s.hart h).pc + 4 ∧
      (t.tile (tileOf h)).smb = [{ hart := h, line := p.part.line, data := lineBytes p.part.off p.len ((Run.start s).storeValue h (.x rs2) lg / 256 ^ p.pos), mask := spanMask p.part.off p.len }] ∧
      t.dram = s.dram ∧ t.l2 = s.l2 ∧ t.xs = s.xs)

/-- R89 (native path), R186 and R528: an AMO, LR and SC on a line that the L2 owns. The old value goes to rd, the result into the line; LR
reserves it and delays snoops; SC with the reservation held writes the line, gives 0 and ends the reservation. -/
def Obligations.AtomicsComplete : Prop :=
  (∀ (h : Fin 1024) (op : AmoOp) (lg : Fin 5) (rd rs1 rs2 : Fin 32) (aq : Bool) (w pa : Nat) (x : L2Slot) (s : State),
    s.free_ h → s.drained h → lg.val < 4 → ((Run.start s).xr h rs1).toNat % 16 + 2 ^ lg.val ≤ 16 →
    (Run.start s).translate h .store ((Run.start s).effective h false).1 ((Run.start s).effective h false).2 false false
      (amoTinst (amoFunct op) lg rd rs2 aq false) ((Run.start s).xr h rs1) (2 ^ lg.val) = (Run.start s, .ok pa 0) →
    (regionOf pa).device = false → (Run.start s).homePath h pa (2 ^ lg.val) = false →
    s.l2Hit (tileOf h) (BitVec.ofNat 46 (pa / 64)) w x → x.st ≠ .S → x.st ≠ .O → x.poison = false → s.unarmed (tileOf h) 5 →
    s.fld (L2CTL_STATUS_CACHE_DISABLE_PENDING (tileOf h)) = 0 → (∀ e ∈ s.harts, e.2.resv ≠ some (BitVec.ofNat 46 (pa / 64))) →
    let p : Part := { line := BitVec.ofNat 46 (pa / 64), off := pa % 64, len := 2 ^ lg.val, pos := 0 }
    let old := gather 0 0 p x.data
    ∃ t, exec (.amo h op lg rd rs1 rs2 aq false) s = .next t ∧ (t.hart h).pc = (s.hart h).pc + 4 ∧
      (rd ≠ 0 → (Run.start t).xr h rd = extend old lg false) ∧
      t.l2Slot (l2Key (tileOf h) p.line w) = some { x with st := .M, data := mergeBytes x.data (lineBytes p.off p.len (amoResult op lg old ((Run.start s).xPair h rs2 lg) ((Run.start s).xPair h rd lg)).toNat) (spanMask p.off p.len) }) ∧
  (∀ (h : Fin 1024) (lg : Fin 4) (rd rs1 : Fin 32) (aq : Bool) (w pa : Nat) (x : L2Slot) (s : State),
    s.free_ h → s.drained h → 2 ≤ lg.val → ((Run.start s).xr h rs1).toNat % 2 ^ lg.val = 0 →
    (Run.start s).translate h .load ((Run.start s).effective h false).1 ((Run.start s).effective h false).2 false false
      (amoTinst 2 lg rd 0 aq false) ((Run.start s).xr h rs1) (2 ^ lg.val) = (Run.start s, .ok pa 0) →
    (regionOf pa).device = false → s.l2Hit (tileOf h) (BitVec.ofNat 46 (pa / 64)) w x → x.poison = false →
    ∃ t, exec (.lr h lg rd rs1 aq false) s = .next t ∧ (t.hart h).pc = (s.hart h).pc + 4 ∧
      (t.hart h).resv = some (BitVec.ofNat 46 (pa / 64)) ∧ (t.hart h).lrDelay = some (BitVec.ofNat 46 (pa / 64)) ∧
      (rd ≠ 0 → (Run.start t).xr h rd = extend (gather 0 0 { line := BitVec.ofNat 46 (pa / 64), off := pa % 64, len := 2 ^ lg.val, pos := 0 } x.data) lg false)) ∧
  (∀ (h : Fin 1024) (lg : Fin 4) (rd rs1 rs2 : Fin 32) (aq : Bool) (w pa : Nat) (x : L2Slot) (s : State),
    s.free_ h → s.drained h → 2 ≤ lg.val → ((Run.start s).xr h rs1).toNat % 2 ^ lg.val = 0 →
    (Run.start s).translate h .store ((Run.start s).effective h false).1 ((Run.start s).effective h false).2 false false
      (amoTinst 3 lg rd rs2 aq false) ((Run.start s).xr h rs1) (2 ^ lg.val) = (Run.start s, .ok pa 0) →
    (regionOf pa).device = false → s.l2Hit (tileOf h) (BitVec.ofNat 46 (pa / 64)) w x → x.st ≠ .S → x.st ≠ .O → x.poison = false → s.unarmed (tileOf h) 5 →
    s.fld (L2CTL_STATUS_CACHE_DISABLE_PENDING (tileOf h)) = 0 → (s.hart h).resv = some (BitVec.ofNat 46 (pa / 64)) → (s.hart h).lrDelay = none →
    (∀ e ∈ s.harts, e.1 ≠ h → e.2.resv ≠ some (BitVec.ofNat 46 (pa / 64))) →
    ∃ t, exec (.sc h lg rd rs1 rs2 aq false) s = .next t ∧ (t.hart h).pc = (s.hart h).pc + 4 ∧ (t.hart h).resv = none ∧
      (rd ≠ 0 → (Run.start t).xr h rd = 0) ∧
      t.l2Slot (l2Key (tileOf h) (BitVec.ofNat 46 (pa / 64)) w) = some { x with st := .M, data := mergeBytes x.data (lineBytes (pa % 64) (2 ^ lg.val) ((Run.start s).xr h rs2).toNat) (spanMask (pa % 64) (2 ^ lg.val)) })

/-- R130: an entry of the merging buffer that has stood for 64 tokens drains into a line that the L2 owns, and its entry is free again;
R139: CBO.ZERO of such a line leaves it in M with zero bytes. -/
def Obligations.DrainsComplete : Prop :=
  (∀ (n : Fin 256) (e : SmbEntry) (w : Nat) (x : L2Slot) (s : State), s.still → (s.tile n).smb = [e] → (s.tile n).sq = [] → e.flip = none →
    s.l2Hit n e.line w x → x.st ≠ .S → x.st ≠ .O → s.unarmed n 5 → s.fld (L2CTL_STATUS_CACHE_DISABLE_PENDING n) = 0 →
    (∀ d ∈ s.harts, d.2.resv ≠ some e.line) → (s.hart e.hart).wait = none →
    ∃ t, exec (.smbIdleTimeout n 0) s = .next t ∧ (t.tile n).smb = [] ∧
      t.l2Slot (l2Key n e.line w) = some { x with st := .M, data := mergeBytes x.data e.data e.mask, poison := x.poison && !e.zero }) ∧
  (∀ (h : Fin 1024) (rs1 : Fin 32) (w pa : Nat) (x : L2Slot) (s : State), s.free_ h → s.drained h → (s.hart h).mode = .m →
    (Run.start s).translate h .store ((Run.start s).effective h false).1 ((Run.start s).effective h false).2 false false
      (Cbo.tinst .zero) ((Run.start s).xr h rs1) 1 = (Run.start s, .ok pa 0) →
    (regionOf pa).device = false → (Run.start s).sqFree (tileOf h) h 1 = true → s.unarmed (tileOf h) 4 → s.unarmed (tileOf h) 5 →
    s.l2Hit (tileOf h) (BitVec.ofNat 46 (pa / 64)) w x → x.st ≠ .S → x.st ≠ .O → s.fld (L2CTL_STATUS_CACHE_DISABLE_PENDING (tileOf h)) = 0 →
    (∀ e ∈ s.harts, e.2.resv ≠ some (BitVec.ofNat 46 (pa / 64))) →
    ∃ t, exec (.cboZero h rs1) s = .next t ∧ (t.hart h).pc = (s.hart h).pc + 4 ∧ (t.tile (tileOf h)).smb = [] ∧
      t.l2Slot (l2Key (tileOf h) (BitVec.ofNat 46 (pa / 64)) w) = some { x with st := .M, data := 0, poison := false })

/-- R139 to R143: in M-mode a CBO of memory is sent to the home of its line, as DW.CMORNG sends one for each line of its range, and the hart
waits for Done. -/
def Obligations.MaintenanceIsSentHome : Prop :=
  (∀ (h : Fin 1024) (rs1 : Fin 32) (pa mt : Nat) (s : State), s.free_ h → s.drained h → (s.hart h).mode = .m →
    (Run.start s).translate h .clean ((Run.start s).effective h false).1 ((Run.start s).effective h false).2 false false
      (Cbo.tinst .clean) ((Run.start s).xr h rs1) 1 = (Run.start s, .ok pa mt) → (regionOf pa).device = false →
    exec (.cboClean h rs1) s = .next (((Run.start s).modHart h fun t => { t with wait := some (.cbo [BitVec.ofNat 46 (pa / 64)] none) }).send
      { kind := .cboC, src := .hart h, dst := homeOf (BitVec.ofNat 46 (pa / 64)), line := BitVec.ofNat 46 (pa / 64) }).1) ∧
  (∀ (h : Fin 1024) (rs1 : Fin 32) (pa mt : Nat) (s : State), s.free_ h → s.drained h → (s.hart h).mode = .m →
    (Run.start s).translate h .clean ((Run.start s).effective h false).1 ((Run.start s).effective h false).2 false false
      (Cbo.tinst .flush) ((Run.start s).xr h rs1) 1 = (Run.start s, .ok pa mt) → (regionOf pa).device = false →
    exec (.cboFlush h rs1) s = .next (((Run.start s).modHart h fun t => { t with wait := some (.cbo [BitVec.ofNat 46 (pa / 64)] none) }).send
      { kind := .cboF, src := .hart h, dst := homeOf (BitVec.ofNat 46 (pa / 64)), line := BitVec.ofNat 46 (pa / 64) }).1) ∧
  (∀ (h : Fin 1024) (rs1 : Fin 32) (pa mt : Nat) (s : State), s.free_ h → s.drained h → (s.hart h).mode = .m →
    (Run.start s).translate h .inval ((Run.start s).effective h false).1 ((Run.start s).effective h false).2 false false
      (Cbo.tinst .inval) ((Run.start s).xr h rs1) 1 = (Run.start s, .ok pa mt) → (regionOf pa).device = false →
    exec (.cboInval h rs1) s = .next (((Run.start s).modHart h fun t => { t with wait := some (.cbo [BitVec.ofNat 46 (pa / 64)] none) }).send
      { kind := .cboI, src := .hart h, dst := homeOf (BitVec.ofNat 46 (pa / 64)), line := BitVec.ofNat 46 (pa / 64) }).1) ∧
  (∀ (h : Fin 1024) (rd rs1 rs2 : Fin 32) (pa mt : Nat) (s : State), s.free_ h → s.drained h → (s.hart h).mode = .m →
    let a := (Run.start s).xr h rs1 &&& ~~~ 0x3F
    a < (Run.start s).xr h rs2 →
    (Run.start s).translate h .clean ((Run.start s).effective h false).1 ((Run.start s).effective h false).2 false false 0 a 1 = (Run.start s, .ok pa mt) →
    (regionOf pa).device = false →
    let k := rangeLines a.toNat ((Run.start s).xr h rs2).toNat
    let ls : List LineAddr := (List.range k).map fun i => BitVec.ofNat 46 (pa / 64 + i)
    exec (.dwCmorng h rd rs1 rs2 0) s = .next (ls.foldl (fun r l => r.send { kind := .cboC, src := .hart h, dst := homeOf l, line := l })
      ((Run.start s).modHart h fun t => { t with wait := some (.cbo ls (some (rd.val, a + BitVec.ofNat 64 (64 * k)))) })).1)

/-- R133: a prefetch of a line that the die does not hold sends the request of its kind to the line's home; one to be executed fills the L1I
from the L2; R145: a DW.SWOP of level 0 with invalidation empties the named slots of both L1 caches. -/
def Obligations.PrefetchAndSlotComplete : Prop :=
  (∀ (h : Fin 1024) (rs1 : Fin 32) (imm : BitVec 12) (w pa : Nat) (s : State), s.free_ h → s.net = [] → s.canMiss (tileOf h) (BitVec.ofNat 46 (pa / 64)) w →
    (Run.start s).translate h .load ((Run.start s).effective h false).1 ((Run.start s).effective h false).2 false false 0
      ((Run.start s).xr h rs1 + (imm &&& 0xFE0).signExtend 64) 1 = (Run.start s, .ok pa 0) → regionOf pa = .memory →
    ∃ t, exec (.prefetchR h rs1 imm) s = .next t ∧ (t.hart h).pc = (s.hart h).pc + 4 ∧
      t.net = [{ kind := .rdS, src := .die (Fin.ofNat 16 (dieOf (tileOf h))), dst := homeOf (BitVec.ofNat 46 (pa / 64)), line := BitVec.ofNat 46 (pa / 64), way := Fin.ofNat 16 w }]) ∧
  (∀ (h : Fin 1024) (rs1 : Fin 32) (imm : BitVec 12) (w pa : Nat) (s : State), s.free_ h → s.net = [] → s.canMiss (tileOf h) (BitVec.ofNat 46 (pa / 64)) w →
    (Run.start s).translate h .store ((Run.start s).effective h false).1 ((Run.start s).effective h false).2 false false 0
      ((Run.start s).xr h rs1 + (imm &&& 0xFE0).signExtend 64) 1 = (Run.start s, .ok pa 0) → regionOf pa = .memory →
    ∃ t, exec (.prefetchW h rs1 imm) s = .next t ∧ (t.hart h).pc = (s.hart h).pc + 4 ∧
      t.net = [{ kind := .rdX, src := .die (Fin.ofNat 16 (dieOf (tileOf h))), dst := homeOf (BitVec.ofNat 46 (pa / 64)), line := BitVec.ofNat 46 (pa / 64), way := Fin.ofNat 16 w }]) ∧
  (∀ (h : Fin 1024) (rs1 : Fin 32) (imm : BitVec 12) (pa : Nat) (s : State), s.free_ h →
    (Run.start s).translate h .fetch ((Run.start s).effective h false).1 ((Run.start s).effective h false).2 false false 0
      ((Run.start s).xr h rs1 + (imm &&& 0xFE0).signExtend 64) 1 = (Run.start s, .ok pa 0) → regionOf pa = .memory →
    (Run.start s).l2Has (tileOf h) (BitVec.ofNat 46 (pa / 64)) false = true → (Run.start s).l1iFind (tileOf h) (BitVec.ofNat 46 (pa / 64)) = none →
    (Run.start s).l2Off (tileOf h) = false → (Run.start s).l3Off (dieOf (tileOf h)) (BitVec.ofNat 46 (pa / 64)) = false →
    s.unarmed (tileOf h) 0 → s.unarmed (tileOf h) 1 →
    ∃ t w, exec (.prefetchI h rs1 imm) s = .next t ∧ (t.hart h).pc = (s.hart h).pc + 4 ∧
      t.l1iSlot (l1Key (tileOf h) (BitVec.ofNat 46 (pa / 64)) w) = some { line := BitVec.ofNat 46 (pa / 64) }) ∧
  (∀ (h : Fin 1024) (rd rs1 : Fin 32) (s : State), s.free_ h → s.drained h → (s.hart h).mode = .m →
    Word.bits ((Run.start s).xr h rs1) 14 0 < 64 → (Run.start s).xr h rs1 &&& ~~~ 0xF00007FFF = 0 →
    let k := (tileOf h * 64 + Word.bits ((Run.start s).xr h rs1) 14 0) * 16 + Word.bits ((Run.start s).xr h rs1) 35 32
    ∃ t, exec (.dwSwop h rd rs1 1) s = .next t ∧ (t.hart h).pc = (s.hart h).pc + 4 ∧ (rd ≠ 0 → (Run.start t).xr h rd = 0) ∧
      t.l1iSlot k = none ∧ t.l1dSlot k = none)


/-! ### Gates of enclaves -/

/-- R383 to R388, R390: an accepted DW.GATEIN saves the caller and enters the thread at the enclave's entry; DW.GATEOUT returns to the caller
with ST_OK; an interrupted departure suspends the thread, returns ST_DEPARTED and then takes the trap; a core switch empties the core's
translations; a debug halt request halts a hart outside an enclave. -/
def Obligations.GatesComplete : Prop :=
  (∀ (h : Fin 1024) (rd rs1 rs2 : Fin 32) (e : Fin 65) (t : Fin 16) (s : State), s.free_ h → rd ≠ 11 → ((s.hart h).mode = .s ∨ (s.hart h).mode = .u) →
    (s.hart h).eid = 0 → (Run.start s).xr h rs1 = BitVec.ofNat 64 (e.val + 256 * t.val) → e ≠ 0 → s.fld (ENC_STAT_STATE e) = 2 →
    t.val ≤ s.fld (ENC_STAT_NTHR e) → natBit (s.fld (ENC_STAT_TLOST e)) t = false → natBit (s.fld (ENC_STAT_TBUSY e)) t = false →
    natBit (s.fld (ENC_STAT_TSUSP e)) t = false → (s.tile (tileOf h)).ceid = 0 →
    (∀ k < 4, tileOf h * 4 + k ≠ h → (s.hart (tileOf h * 4 + k)).run ≠ .running) →
    ∃ u, exec (.dwGatein h rd rs1 rs2 0) s = .next u ∧ (u.hart h).eid = e ∧ (u.hart h).thread = t ∧ (u.hart h).mode = .u ∧
      (u.hart h).pc = s.reg (ENC_ENTRY e) ∧ u.x (h * 32 + 10) = (Run.start s).xr h rs2 ∧ u.x (h * 32 + 11) = BitVec.ofNat 64 t ∧
      (∀ k < 32, k ≠ 10 → k ≠ 11 → u.x (h * 32 + k) = 0) ∧
      (u.hart h).saved = some ⟨(s.hart h).pc + 4, (s.hart h).mode, rd, savedSet.map fun k => s.x (h * 32 + k)⟩ ∧
      natBit (u.fld (ENC_STAT_TBUSY e)) t = true ∧ natBit (u.fld (ENC_STAT_TSUSP e)) t = false ∧
      (u.tile (tileOf h)).ceid = e ∧ (u.tile (tileOf h)).switching = true) ∧
  (∀ (h : Fin 1024) (rs1 : Fin 32) (c : Caller) (s : State), s.free_ h → (s.hart h).eid ≠ 0 → (s.hart h).eid < 65 → (s.hart h).thread < 16 →
    (s.hart h).saved = some c → c.rd ≠ 0 → c.rd ≠ 11 → c.rd < 32 →
    (∀ k < 4, tileOf h * 4 + k ≠ h → (s.hart (tileOf h * 4 + k)).eid ≠ (s.hart h).eid) →
    ∃ u, exec (.dwGateout h 0 rs1 0) s = .next u ∧ (u.hart h).eid = 0 ∧ (u.hart h).saved = none ∧ (u.hart h).mode = c.mode ∧ (u.hart h).pc = c.pc ∧
      (u.hart h).resv = none ∧ (Run.start u).xr h c.rd = 0 ∧ (Run.start u).xr h 11 = (Run.start s).xr h rs1 ∧
      (∀ p ∈ savedSet.zip c.xs, p.1 ≠ c.rd → (Run.start u).xr h p.1 = p.2) ∧
      natBit (u.fld (ENC_STAT_TBUSY (s.hart h).eid)) (s.hart h).thread = false ∧
      (u.tile (tileOf h)).ceid = 0 ∧ (u.tile (tileOf h)).switching = true) ∧
  (∀ (h : Fin 1024) (x : TrapCause) (c : Caller) (s : State), s.free_ h → s.net = [] → s.lineq = [] → (∀ e ∈ s.harts, e.2.resv = none) →
    (s.hart h).mode = .u → (s.hart h).eid ≠ 0 → (s.hart h).eid < 65 → (s.hart h).thread < 16 → (s.hart h).saved = some c → c.rd ≠ 0 → c.rd ≠ 11 → c.rd < 32 →
    c.mode = .u → x.intr = false → (s.csr h 0x302).getLsbD x.cause.toNat = false →
    (∀ k < 4, tileOf h * 4 + k ≠ h → (s.hart (tileOf h * 4 + k)).eid ≠ (s.hart h).eid) →
    ∃ u, exec (.interruptedDeparture h x) s = .next u ∧ (u.hart h).eid = 0 ∧ (u.hart h).saved = none ∧ (u.hart h).mode = .m ∧
      (u.hart h).pc = s.csr h 0x305 &&& ~~~ 3 ∧ u.csr h 0x341 = c.pc ∧ u.csr h 0x342 = BitVec.ofNat 64 x.cause.toNat ∧ (Run.start u).xr h c.rd = 0x1C ∧
      natBit (u.fld (ENC_STAT_TSUSP (s.hart h).eid)) (s.hart h).thread = true ∧ natBit (u.fld (ENC_STAT_TBUSY (s.hart h).eid)) (s.hart h).thread = false ∧
      (u.tile (tileOf h)).ceid = 0 ∧ (u.tile (tileOf h)).switching = true) ∧
  (∀ (n : Fin 256) (s : State), s.still → (s.tile n).switching = true → (s.tile n).smb = [] → (s.tile n).sq = [] → (s.tile n).miss = [] →
    (∀ e ∈ s.l2, e.1 / 8 / 2048 ≠ n.val) → (∀ k < 4, s.undisturbed (n * 4 + k)) →
    ∃ u, exec (.coreSwitchDone n) s = .next u ∧ (u.tile n).switching = false ∧ (u.tile n).ceid = (s.tile n).ceid ∧
      ∀ k < 4, u.hart (n * 4 + k) = { s.hart (n * 4 + k) with tlb := [], resv := none, lrDelay := none }) ∧
  (∀ (h : Fin 1024) (s : State), s.still → (s.hart h).run = .running → (s.hart h).mode = .s → (s.hart h).eid = 0 → (s.hart h).wait = none → (s.hart h).park = none → (s.hart h).dbgCause = 3 →
    ∃ u, exec (.debugHaltRequest h) s = .next u ∧ (u.hart h).mode = .debug ∧ (u.hart h).run = .debug ∧ (u.hart h).dbgPend = false ∧
      u.csr h 0x7B1 = (s.hart h).pc ∧ Word.bits (u.csr h 0x7B0) 8 6 = 3 ∧ Word.bits (u.csr h 0x7B0) 1 0 = 1 ∧
      u.fld (HART_STAT_STATE (tileOf h) (h.val % 4)) = 4)


/-! ### The fabric: messages of R167 -/

/-- R170: a request that needs memory's data, for a line that nobody holds, is the head of its line's queue and has asked its channel. -/
def Obligations.RequestsAskMemory : Prop :=
  ∀ (m : Msg) (c la : Nat) (s : State), s.oneMsg m → s.freeHome m c la → s.unheld m.line → m.mask ≠ BitVec.allOnes 64 →
    (∀ e ∈ s.harts, e.2.resv ≠ some m.line) →
    ∀ p ∈ [(Instr.rds (s.packet m), MsgKind.rdS), (.rdx (s.packet m), .rdX), (.upg (s.packet m), .upg), (.rdonce (s.packet m), .rdOnce), (.wrpart (s.packet m), .wrPart), (.atomh (s.packet m), .atomH)], m.kind = p.2 →
      ∃ t, exec p.1 s = .next t ∧ t.net = [{ kind := .mRd, src := m.dst, dst := .chan (Fin.ofNat 24 c), line := m.line, la := la }] ∧
        t.queue m.line.toNat = [{ msg := m, to_ := .dram c la, phase := .snooping, needMem := true }] ∧ t.dram = s.dram

/-- R170: of a line that nobody holds, a Claim of a die is granted M without data, a WrLine is written to memory and each CBO is done. -/
def Obligations.RequestsWithoutData : Prop :=
  (∀ (m : Msg) (d : Fin 16) (c la : Nat) (s : State), s.oneMsg m → s.freeHome m c la → s.unheld m.line → (∀ e ∈ s.harts, e.2.resv ≠ some m.line) →
    m.kind = .claim → m.src = .die d →
    ∃ t, exec (.claim (s.packet m)) s = .next t ∧ t.net = [{ kind := .gntM, src := m.dst, dst := m.src, line := m.line, way := m.way }] ∧
      t.queue m.line.toNat = [{ msg := m, to_ := .dram c la, phase := .waitAck }] ∧ t.filtEntry (l3Key d m.line m.way) = some ⟨m.line, .X, none⟩) ∧
  (∀ (m : Msg) (c la : Nat) (s : State), s.oneMsg m → s.freeHome m c la → s.unheld m.line → (∀ e ∈ s.harts, e.2.resv ≠ some m.line) →
    m.kind = .wrLine → m.stash = none →
    ∃ t, exec (.wrline (s.packet m)) s = .next t ∧
      t.net = [{ kind := .mWr, src := m.dst, dst := .chan (Fin.ofNat 24 c), line := m.line, data := m.data, poison := m.poison, la := la }] ∧
      t.queue m.line.toNat = [{ msg := m, to_ := .dram c la, phase := .waitMAck, dirty := some (m.data, m.poison) }]) ∧
  (∀ (m : Msg) (c la : Nat) (s : State), s.oneMsg m → s.freeHome m c la → s.unheld m.line → (∀ e ∈ s.harts, e.2.resv ≠ some m.line) →
    ∀ p ∈ [(Instr.cboc (s.packet m), MsgKind.cboC), (.cbof (s.packet m), .cboF), (.cboi (s.packet m), .cboI)], m.kind = p.2 →
      ∃ t, exec p.1 s = .next t ∧ t.net = [{ kind := .done, src := m.dst, dst := m.src, line := m.line }] ∧ t.queue m.line.toNat = [])

/-- R171, R172: an eviction of a line that its die still owns is written to memory and the filter follows; the home's answer frees the victim
buffer; a tile's clean eviction clears its core-valid bit. -/
def Obligations.EvictionsComplete : Prop :=
  (∀ (m : Msg) (d : Fin 16) (c la w : Nat) (s : State), s.oneMsg m → s.freeHome m c la → (s.slice (quadOf m.line)).devs = [] → m.src = .die d →
    (Run.start s).gated (400 + quadOf m.line) = false →
    (List.range 16).find? (fun v => (s.filtEntry (l3Key d m.line v)).any (·.line = m.line)) = some w →
    s.filtEntry (l3Key d m.line w) = some ⟨m.line, .X, none⟩ →
    ∀ p ∈ [(Instr.evm (s.packet m), MsgKind.evM, (none : Option FEntry)), (.evo (s.packet m), .evO, none), (.wbkeep (s.packet m), .wbKeep, some ⟨m.line, .X, none⟩)], m.kind = p.2.1 → (m.kind = .wbKeep → m.st = .E) →
      ∃ t, exec p.1 s = .next t ∧
        t.net = [{ kind := .mWr, src := m.dst, dst := .chan (Fin.ofNat 24 c), line := m.line, data := m.data, poison := m.poison, la := la }] ∧
        t.filtEntry (l3Key d m.line w) = p.2.2) ∧
  (∀ (m : Msg) (d : Fin 16) (s : State), s.oneMsg m → m.kind = .evAck → m.dst = .die d → (∀ n, m.src ≠ .tile n) →
    (s.quad (d * 4 + quadOf m.line)).waiting = [] → s.noSwop →
    ∃ t, exec (.evack (s.packet m)) s = .next t ∧ t.net = [] ∧
      (t.quad (d * 4 + quadOf m.line)).vict = (s.quad (d * 4 + quadOf m.line)).vict.eraseP (·.line = m.line)) ∧
  (∀ (m : Msg) (n : Fin 256) (w : Nat) (x : L3Slot) (s : State), s.oneMsg m → m.kind = .evC → m.src = .tile n → m.dst = .die (Fin.ofNat 16 (dieOf n)) →
    (Run.start s).l3Find (dieOf n) m.line = some (w, x) → s.fld (ARR_FLIP_ARM (dieOf n) (128 + quadOf m.line * 3 + 1)) = 0 →
    ∃ t, exec (.evc (s.packet m)) s = .next t ∧ t.net = [] ∧ t.l3Slot (l3Key (dieOf n) m.line w) = some { x with cv := x.cv &&& ~~~ (1#16 <<< (n.val % 16)) })

/-- R169: what a die's L3 answers to a snoop, and the state that it keeps, from each state. -/
def Obligations.SnoopsComplete : Prop :=
  ∀ (m : Msg) (d : Fin 16) (k : Fin 4) (w : Nat) (x : L3Slot) (s : State), s.oneMsg m → m.src = .home k → m.dst = .die d → s.l3Alone d m.line w x →
    ∀ p ∈ [(Instr.snps (s.packet m), MsgKind.snpS, St.S, St.S, false), (.snps (s.packet m), .snpS, .E, .S, false), (.snps (s.packet m), .snpS, .O, .O, true), (.snps (s.packet m), .snpS, .M, .O, true),
        (.snpx (s.packet m), .snpX, .S, .I, false), (.snpx (s.packet m), .snpX, .E, .I, false), (.snpx (s.packet m), .snpX, .O, .I, true), (.snpx (s.packet m), .snpX, .M, .I, true),
        (.snpinv (s.packet m), .snpInv, .S, .I, false), (.snpinv (s.packet m), .snpInv, .E, .I, false), (.snpinv (s.packet m), .snpInv, .O, .I, false), (.snpinv (s.packet m), .snpInv, .M, .I, false),
        (.snpcln (s.packet m), .snpCln, .S, .S, false), (.snpcln (s.packet m), .snpCln, .E, .E, false), (.snpcln (s.packet m), .snpCln, .O, .S, true), (.snpcln (s.packet m), .snpCln, .M, .E, true),
        (.snpcur (s.packet m), .snpCur, .S, .S, false), (.snpcur (s.packet m), .snpCur, .E, .E, false), (.snpcur (s.packet m), .snpCur, .O, .O, true), (.snpcur (s.packet m), .snpCur, .M, .M, true)],
      m.kind = p.2.1 → x.st = p.2.2.1 →
      ∃ t, exec p.1 s = .next t ∧
        t.l3Slot (l3Key d m.line w) = (if p.2.2.2.1 = .I then none else some { x with st := p.2.2.2.1 }) ∧
        t.net = [{ kind := if p.2.2.2.2 then .datSnp else .rsp, src := .die d, dst := .home k, line := m.line, st := p.2.2.2.1, data := if p.2.2.2.2 then x.data else 0, poison := p.2.2.2.2 && x.poison, la := m.la }]

/-- R177: a die that can take a written line accepts the offer and reserves a way; the home then records it as owner and sends the data, which
the die installs in M; a declined line goes to memory. -/
def Obligations.StashesComplete : Prop :=
  (∀ (m : Msg) (d : Fin 16) (k : Fin 4) (w : Nat) (s : State), s.oneMsg m → m.kind = .stashOffer → m.src = .home k → m.dst = .die d → m.stash = some (.die d) →
    (s.quad (d * 4 + quadOf m.line)).miss = [] → (Run.start s).l3Off d m.line = false → (Run.start s).gated (domQuad d (quadOf m.line)) = false →
    (Run.start s).l3Pick d m.line ((Run.start s).partOf d (m.line.toNat * 64)) true = some w → s.l3Slot (l3Key d m.line w) = none →
    ∃ t, exec (.stashoffer (s.packet m)) s = .next t ∧ t.net = [{ kind := .stashAcc, src := .die d, dst := .home k, line := m.line, way := Fin.ofNat 16 w }] ∧
      (t.quad (d * 4 + quadOf m.line)).miss = [{ line := m.line, way := w, kind := .stashOffer, tiles := [], part := (Run.start s).partOf d (m.line.toNat * 64) }]) ∧
  (∀ (m : Msg) (d : Fin 16) (q : HReq) (s : State), s.oneMsg m → m.kind = .stashAcc → m.src = .die d → m.dst = homeOf m.line → s.queue m.line.toNat = [q] →
    q.phase = .waitStash → stashDie q.msg.stash = some m.src → s.fld HOME_CFG_DIREN = 0 →
    ∃ t, exec (.stashacc (s.packet m)) s = .next t ∧ t.filtEntry (l3Key d m.line m.way) = some ⟨m.line, .X, none⟩ ∧
      t.queue m.line.toNat = [{ q with phase := .waitAck }] ∧
      t.net = [{ kind := .datStash, src := m.dst, dst := .die d, line := m.line, data := (q.dirty.getD (0, false)).1, poison := (q.dirty.getD (0, false)).2, stash := q.msg.stash, way := m.way }]) ∧
  (∀ (m : Msg) (q : HReq) (c : Fin 24) (la : Nat) (s : State), s.oneMsg m → m.kind = .stashDec → m.dst = homeOf m.line → s.queue m.line.toNat = [q] →
    q.phase = .waitStash → stashDie q.msg.stash = some m.src → q.to_ = .dram c la →
    ∃ t, exec (.stashdec (s.packet m)) s = .next t ∧ t.queue m.line.toNat = [{ q with phase := .waitMAck }] ∧
      t.net = [{ kind := .mWr, src := m.dst, dst := .chan c, line := m.line, data := (q.dirty.getD (0, false)).1, poison := (q.dirty.getD (0, false)).2, la := la }]) ∧
  (∀ (m : Msg) (d : Fin 16) (k : Fin 4) (x : QMiss) (s : State), s.oneMsg m → m.kind = .datStash → m.src = .home k → m.dst = .die d → m.stash = some (.die d) →
    s.quad (d * 4 + quadOf m.line) = { miss := [x], vict := [], waiting := [] } → x.line = m.line → x.tiles = [] → x.way < 16 → s.noSwop → (Run.start s).l3Off d m.line = false →
    s.fld (ARR_FLIP_ARM d (128 + quadOf m.line * 3)) = 0 → s.fld (ARR_FLIP_ARM d (128 + quadOf m.line * 3 + 1)) = 0 →
    ∃ t, exec (.datstash (s.packet m)) s = .next t ∧ (t.quad (d * 4 + quadOf m.line)).miss = [] ∧
      t.l3Slot (l3Key d m.line x.way) = some { line := m.line, st := .M, cv := 0, part := x.part, data := m.data, poison := m.poison } ∧
      t.net = [{ kind := .ack, src := .die d, dst := .home k, line := m.line }])

/-- R170, R161: a snoop's answer is recorded at the head of the line's queue; memory's data is granted to the requester; an Ack, or memory's
acknowledgement of a write, ends the request. -/
def Obligations.AnswersReachTheHome : Prop :=
  (∀ (m : Msg) (d : Fin 16) (a : Agent) (w : Nat) (q : HReq) (s : State), s.oneMsg m → m.src = .die d → m.dst = homeOf m.line →
    s.queue m.line.toNat = [q] → q.phase = .snooping → q.snooped = [m.src, a] → m.la = 0 → (Run.start s).gated (400 + quadOf m.line) = false →
    (List.range 16).find? (fun v => (s.filtEntry (l3Key d m.line v)).any (·.line = m.line)) = some w → s.filtEntry (l3Key d m.line w) = some ⟨m.line, .X, none⟩ →
    ∀ p ∈ [(Instr.rsp (s.packet m), MsgKind.rsp), (.datsnp (s.packet m), .datSnp)], m.kind = p.2 →
      ∃ t, exec p.1 s = .next t ∧ t.net = [] ∧ t.filtEntry (l3Key d m.line w) = (filtSt m.st).map (fun x => ⟨m.line, x, none⟩) ∧
        t.queue m.line.toNat = [{ q with snooped := [a], answers := q.answers ++ [(m.src, m.st)], dirty := if m.kind = .datSnp then some (m.data, m.poison) else q.dirty }]) ∧
  (∀ (m : Msg) (d : Fin 16) (q : HReq) (c la : Nat) (s : State), s.oneMsg m → m.kind = .mDat → q.to_ = .dram c la → m.src = .chan (Fin.ofNat 24 c) → m.dst = homeOf m.line → s.queue m.line.toNat = [q] →
    q.msg.kind = .rdS → q.msg.src = .die d → q.msg.line = m.line → q.phase = .snooping → q.snooped = [] → q.needMem = true → q.dirty = none → q.answers = [] →
    s.fld HOME_CFG_DIREN = 0 → s.fld HOME_CFG_EGRANT = 1 → s.unheld m.line → s.online d = true →
    ∃ t, exec (.mdat (s.packet m)) s = .next t ∧ t.filtEntry (l3Key d m.line q.msg.way) = some ⟨m.line, .X, none⟩ ∧
      t.queue m.line.toNat = [{ q with phase := .waitAck, needMem := false, mem := some (m.data, m.poison, m.dir) }] ∧
      t.net = [{ kind := .datE, src := m.dst, dst := .die d, line := m.line, data := m.data, poison := m.poison, way := q.msg.way }]) ∧
  (∀ (m : Msg) (q : HReq) (c la : Nat) (s : State), s.oneMsg m → m.kind = .ack → m.dst = homeOf m.line → s.queue m.line.toNat = [q] → q.phase = .waitAck →
    q.msg.kind = .rdS → q.msg.src = m.src → q.to_ = .dram c la →
    ∃ t, exec (.ack (s.packet m)) s = .next t ∧ t.queue m.line.toNat = [] ∧ t.net = []) ∧
  (∀ (m : Msg) (h : Fin 1024) (q : HReq) (s : State), s.oneMsg m → m.kind = .mAck → q.to_.agent = some m.src → q.own = false → m.line ∉ (s.slice (quadOf m.line)).loose → m.dst = homeOf m.line → s.queue m.line.toNat = [q] → q.phase = .waitMAck →
    q.msg.kind = .wrLine → q.msg.src = .hart h → s.online (dieOf (tileOf h)) = true →
    ∃ t, exec (.mack (s.packet m)) s = .next t ∧ t.queue m.line.toNat = [] ∧ t.net = [{ kind := .done, src := m.dst, dst := .hart h, line := m.line }])

/-- R170, R172: a grant fills the L3 of the die and, for the tile that asked, its L2; the die acknowledges it. -/
def Obligations.GrantsComplete : Prop :=
  (∀ (m : Msg) (d : Fin 16) (k : Fin 4) (n : Nat) (x : QMiss) (s : State), s.oneMsg m → m.src = .home k → m.dst = .die d → x.line = m.line →
    s.awaits d n x .rdS → (Run.start s).l3Find d m.line = none → (∀ v < 8, s.l2Slot (l2Key n m.line v) = none) →
    ∀ p ∈ [(Instr.dats (s.packet m), MsgKind.datS, St.S, St.S), (.date (s.packet m), .datE, .E, .E), (.datm (s.packet m), .datM, .M, .E)], m.kind = p.2.1 →
      ∃ t, exec p.1 s = .next t ∧ t.net = [{ kind := .ack, src := .die d, dst := homeOf m.line, line := m.line }] ∧ (t.tile n).miss = [] ∧
        (t.quad (d * 4 + quadOf m.line)).miss = [] ∧
        t.l3Slot (l3Key d m.line x.way) = some { line := m.line, st := p.2.2.1, cv := 1#16 <<< (n % 16), part := x.part, data := m.data, poison := m.poison, rrpv := 0 } ∧
        t.l2Slot (l2Key n m.line 0) = some { line := m.line, st := p.2.2.2, data := m.data, poison := m.poison }) ∧
  (∀ (m : Msg) (d : Fin 16) (k : Fin 4) (n w v : Nat) (x : QMiss) (y : L3Slot) (z : L2Slot) (s : State), s.oneMsg m → m.src = .home k → m.dst = .die d → x.line = m.line →
    s.awaits d n x .upg → (Run.start s).l3Find d m.line = some (w, y) → y.st = .S → y.cv = 1#16 <<< (n % 16) → (Run.start s).l2Find n m.line = some (v, z) →
    ∀ p ∈ [(Instr.gnte (s.packet m), MsgKind.gntE, St.E), (.gntm (s.packet m), .gntM, .M)], m.kind = p.2.1 →
      ∃ t, exec p.1 s = .next t ∧ t.net = [{ kind := .ack, src := .die d, dst := homeOf m.line, line := m.line }] ∧ (t.tile n).miss = [] ∧
        (t.quad (d * 4 + quadOf m.line)).miss = [] ∧ t.l3Slot (l3Key d m.line w) = some { y with st := p.2.2, rrpv := 0 } ∧
        t.l2Slot (l2Key n m.line v) = some { z with st := .E, data := y.data, poison := y.poison })

/-- R187, R170, R182: an answer of a home ends the instruction of the hart that waits for it. -/
def Obligations.HartAnswersComplete : Prop :=
  (∀ (m : Msg) (h : Fin 1024) (s : State), s.oneMsg m → m.kind = .done → m.dst = .hart h → (Run.start s).opOn m.dst m.line true = false → s.undisturbed h → (s.hart h).ncOut = [] →
    (s.hart h).wait = some (.cbo [m.line] none) →
    ∃ t, exec (.done (s.packet m)) s = .next t ∧ t.net = [] ∧ t.hart h = Hart.told { s.hart h with pc := (s.hart h).pc + 4, wait := none } 2) ∧
  (∀ (m : Msg) (h : Fin 1024) (rd : Fin 32) (uns : Bool) (a : Acc) (p : Part) (s : State), s.oneMsg m → m.kind = .datCur → m.dst = .hart h → (Run.start s).opOn m.dst m.line false = false → s.undisturbed h →
    (s.hart h).wait = some (.home a) → a.op = .load (.x rd) uns → a.parts = [p] → m.poison = false → rd ≠ 0 →
    ∃ t, exec (.datcur (s.packet m)) s = .next t ∧ t.net = [] ∧ t.hart h = Hart.told { s.hart h with pc := (s.hart h).pc + 4, wait := none } 2 ∧
      (Run.start t).xr h rd = extend (gather a.got a.fwd p m.data) a.lg uns) ∧
  (∀ (m : Msg) (h : Fin 1024) (rd : Fin 32) (op : AmoOp) (x y : BitVec 128) (a : Acc) (s : State), s.oneMsg m → m.kind = .datAtom → m.dst = .hart h → s.undisturbed h →
    (s.hart h).wait = some (.home a) → a.op = .amo rd op x y → a.lg < 4 → m.poison = false → rd ≠ 0 →
    ∃ t, exec (.datatom (s.packet m)) s = .next t ∧ t.net = [] ∧ t.hart h = Hart.told { (s.hart h).told 0x51 with pc := (s.hart h).pc + 4, wait := none } 2 ∧
      (Run.start t).xr h rd = extend (m.data.extractLsb' 0 128) a.lg false)

/-- R240, R245, R246: a running channel answers a read of a line that was written under the key in its slot with that line, and a write leaves
the line encrypted under that key with its directory. -/
def Obligations.ChannelsServe : Prop :=
  (∀ (m : Msg) (c : Fin 24) (la : Nat) (x : DLine) (s : State), s.oneMsg m → m.kind = .mRd → m.dst = .chan c →
    (s.chan c).held = [] → (Run.start s).chanHolds c = false → m.la = la → s.dline (dramKey c la) = some x →
    x.err = [] → x.poison = false → ((Run.start s).memSlot (m.line.toNat * 64)).loaded = true → ((Run.start s).memSlot (m.line.toNat * 64)).key = x.key →
    x.tweak = m.line.toNat → s.fencedDie { m with src := m.dst, dst := m.src } = none →
    ∃ t, exec (.mrd (s.packet m)) s = .next t ∧ t.net = [{ kind := .mDat, src := .chan c, dst := m.src, line := m.line, data := x.data, dir := Fin.ofNat 4 x.dir }] ∧ t.dram = s.dram) ∧
  (∀ (m : Msg) (c : Fin 24) (la : Nat) (s : State), s.oneMsg m → m.kind = .mWr → m.dst = .chan c →
    (s.chan c).held = [] → (Run.start s).chanHolds c = false → m.la = la → m.poison = false →
    ((Run.start s).memSlot (m.line.toNat * 64)).loaded = true → s.fencedDie { m with src := m.dst, dst := m.src } = none →
    ∃ t, exec (.mwr (s.packet m)) s = .next t ∧ t.net = [{ kind := .mAck, src := .chan c, dst := m.src, line := m.line }] ∧
      t.dram = s.dram.upd (dramKey c la) (some { data := m.data, dir := m.dir, key := ((Run.start s).memSlot (m.line.toNat * 64)).key, tweak := m.line.toNat }))


/-! ### Time, tokens and tile monitors -/

/-- R48, R395: a REFCLK period adds 1 to the master count and takes 1 from the watchdog's; R49, R50: a tick moves a die's copy of time on,
while it stays behind the count, and an intact sync word brings a copy that is behind to the count; R51, R53, R221: a stream is lost, and moves to its spare pair. R54, R512: without REFCLK, or
with VPLL out of range, REFOK clears, the count holds and FATAL is raised; it needs a cold reset. -/
def Obligations.TimeAdvances : Prop :=
  (∀ (u : List UContrib) (k : Nat) (s : State), s.still → s.fld TBASE_STAT_REFOK = 1 → s.wdog = some k →
    s.pins.fatal = false → (Run.start s).ioBit 0x5C 0 = true → (∀ b ∈ iodPmus, s.fld (PMU_CTL_EN b.1) = 0) →
    ∃ t, exec (.timebaseTick u) s = .next t ∧ t.reg TBASE_COUNT = s.reg TBASE_COUNT + 1 ∧ t.wdog = some (k - 1) ∧ t.harts = s.harts ∧ t.tbrx = s.tbrx) ∧
  (∀ (d : Fin 16) (u : List UContrib) (s : State), s.still → s.dieIdle d → s.fld TBASE_STAT_REFOK = 1 → s.fld (RLINK_FAULTMAP_TICKP d) = 0 →
    s.fld (TBRX_STATUS_LOST d) = 0 → (s.rx d).withhold = 0 → (s.rx d).time.toNat + 1 < (Run.start s).count → (∀ b ∈ diePmus d, s.fld (PMU_CTL_EN b) = 0) →
    exec (.tick d u) s = .next ((Run.start s).setRx d { s.rx d with time := (s.rx d).time + 1 }).1) ∧
  (∀ (d : Fin 16) (c : Word) (s : State), s.still → s.dieIdle d → s.noSources → s.fld (TBRX_STATUS_LOST d) = 0 → (s.rx d).time < c + 72 →
    c.toNat % 1024 = 0 → (c + 72).toNat < (Run.start s).count →
    ∃ t, exec (.syncWord d c) s = .next t ∧ (t.rx d).time = c + 72 ∧ t.fld (TBRX_STATUS_SLIP d) = 1 ∧ t.harts = s.harts) ∧
  (∀ (d : Fin 16) (s : State), s.still → s.dieIdle d → s.noSources → s.fld (TBRX_STATUS_LOST d) = 0 →
    ∃ t, exec (.tickStreamLoss d) s = .next t ∧ t.fld (TBRX_STATUS_LOST d) = 1 ∧ t.fld (TBRX_STATUS_TIME_INVALID d) = 1 ∧
      t.fld (TBRX_STATUS_LOSS_CNT d) = min (s.fld (TBRX_STATUS_LOSS_CNT d) + 1) 65535 ∧ natBit (t.fld TBASE_STAT_DIE_LOST) d = true ∧
      (t.rx d).time = (s.rx d).time) ∧
  (∀ (d : Fin 16) (s : State), s.still → natBit (s.fld TBASE_STAT_DIE_LOST) d = true → s.fld TBASE_STAT_REFOK = 1 → s.fld (RLINK_STAT_TICKSPARE d) = 0 →
    s.fld (RLINK_FAULTMAP_TICKS d) = 0 →
    ∃ t, exec (.tickLossReport d) s = .next t ∧ t.fld (RLINK_FAULTMAP_TICKP d) = 1 ∧ t.fld (RLINK_STAT_TICKSPARE d) = 1 ∧ t.fld (RLINK_FAULTMAP_TICKS d) = 0) ∧
  (∀ (s : State), s.still → s.noSources → (∀ d < 16, s.dieIdle d) → s.fld TBASE_STAT_REFOK = 1 → s.fld ERR_FATAL_V = 0 →
    ∀ c ∈ [Instr.refclkLoss, .vpllOutOfRange],
      ∃ t, exec c s = .next t ∧ t.fld TBASE_STAT_REFOK = 0 ∧ t.fld TBASE_STAT_REFLOSS = 1 ∧ t.fld TBASE_COUNT_COUNT = s.fld TBASE_COUNT_COUNT ∧
        t.pins.fatal = true ∧ t.fld ERR_FATAL_V = 1 ∧ t.fld ERR_FATAL_COLD = 1 ∧ t.fld ERR_FATAL_EVENT = 0x0A00)

/-- R36, R39: a token counts in the core's window and in mcycle of a hart that runs, and an instruction in a slot of its own writes its register
and retires; R44 to R46: a measurement window ends at a multiple of 1,024 of the die's time, and a droop excursion begins at a tile. -/
def Obligations.TokensAndMonitors : Prop :=
  (∀ (n : Fin 256) (k : Fin 4) (rd : Fin 32) (v : Word) (s : State), s.free_ (n * 4 + k) → s.csr (n * 4 + k) 0x320 = 0 → (s.hart (n * 4 + k)).mode = .m →
    (s.tile n).ceid = 0 → (Run.start s).tokenPasses n = true → s.fld (TBRX_STATUS_LOST (dieOf n)) = 0 →
    (∀ i < 4, (s.hart (n * 4 + i)).edge = 0 ∧ ∀ j < 8, s.csr (n * 4 + i) (0x323 + j) = 0) → rd ≠ 0 →
    ∃ t, exec (.tokenPass n [.run k (.compute rd v)] ⟨false, [], [], [], 0, [], [], []⟩) s = .next t ∧ (t.tile n).tokens = (s.tile n).tokens + 1 ∧
      { t.hart (n * 4 + k) with lag := (s.hart (n * 4 + k)).lag, dry := (s.hart (n * 4 + k)).dry } =
        Hart.told { s.hart (n * 4 + k) with pc := (s.hart (n * 4 + k)).pc + 4, recover := false, tally := [] } 2 ∧ (Run.start t).xr (n * 4 + k) rd = v ∧
      t.csr (n * 4 + k) 0xB00 = s.csr (n * 4 + k) 0xB00 + 1 ∧ t.csr (n * 4 + k) 0xB02 = s.csr (n * 4 + k) 0xB02 + 1) ∧
  (∀ (n : Fin 256) (laps tj : BitVec 16) (v : BitVec 10) (s : State), s.still → s.fld (TBRX_STATUS_LOST (dieOf n)) = 0 →
    (s.rx (dieOf n)).time.toNat % 1024 = 0 → (s.rx (dieOf n)).time ≠ (s.tile n).window → 480 ≤ v.toNat →
    ∃ t, exec (.tmonWindowEnd n laps tj v) s = .next t ∧ t.fld (TMON_PROC_LAPS n) = laps.toNat ∧ t.fld (TMON_RATE_TOKENS n) = min (s.tile n).tokens 65535 ∧
      t.fld (TMON_TEMP_TJ n) = tj.toNat ∧
      t.fld (TMON_TEMP_TJMAX n) = (if (BitVec.ofNat 16 (s.fld (TMON_TEMP_TJMAX n))).slt tj then tj.toNat else s.fld (TMON_TEMP_TJMAX n)) ∧
      t.fld (TMON_DROOP_VNOW n) = v.toNat ∧ t.fld (TMON_DROOP_VMIN n) = min v.toNat (s.fld (TMON_DROOP_VMIN n)) ∧ (t.tile n).tokens = 0 ∧ (t.tile n).window = (s.rx (dieOf n)).time) ∧
  (∀ (n : Fin 256) (v : BitVec 10) (s : State), s.still → v.toNat < s.fld (TMON_DROOP_THRESH n) → (s.tile n).below = false → 480 ≤ v.toNat →
    ∃ t, exec (.droopExcursion n v) s = .next t ∧ t.fld (TMON_DROOP_DCOUNT n) = min (s.fld (TMON_DROOP_DCOUNT n) + 1) 65535 ∧
      t.fld (TMON_DROOP_VNOW n) = v.toNat ∧ t.fld (TMON_DROOP_VMIN n) = min v.toNat (s.fld (TMON_DROOP_VMIN n)) ∧ (t.tile n).below = true)


/-! ### Register writes -/

/-- R6, R7, R497: a write of a register that performs no action gives every field the value that its access code says; a write by a requester
of the package needs no answer of the configuration lock while that is clear. -/
def Obligations.RegisterWritesComplete : Prop :=
  ∀ (q : Requester) (a : BitVec 40) (v : Word) (f : Family) (ix : List Nat) (s : State), s.still → s.writer q → findReg a.toNat = some (f, ix) → a.toNat % 8 = 0 →
    decoded a.toNat = true → imsicPage a.toNat = none → (a.toNat < 2 ^ 36 → s.online (a.toNat / 2 ^ 32) = true) →
    ((Run.start s).secHeld a.toNat && (Run.start s).normal q) = false → s.fld FOX_CFGLOCK_LOCK = 0 →
    f.name ∈ [.SAD_RANGE_LIMIT, .L3_PARTRANGE_BASE, .L3_PARTRANGE_LIMIT, .L2CTL_STATUS, .L3_STATUS, .HOME_CFG, .HOME_TRKSTAT, .RLINK_STAT, .MC_STATUS,
      .SOCK_CFG, .FOX_KAT, .ALARM_STAT, .WDOG_CTL, .WEIR_STAT, .WEIR_EVT, .WEIR_EVTEN, .EB_STAT, .EB_REC, .PMU_CTL, .PMU_CNT, .ARR_FLIPD, .ID_STEPPING] →
    ∃ t, exec (.registerWrite q a .full v) s = .next t ∧ (∀ x ∈ f.fields, t.fld ⟨f.reg a.toNat, x.hi, x.lo⟩ = newField x (s.reg (f.reg a.toNat)) v) ∧
      t.harts = s.harts ∧ t.net = s.net ∧ t.dram = s.dram ∧ ∀ e ∈ s.regs, e.1 ≠ a.toNat → t.regs.find? e.1 = s.regs.find? e.1

/-- R69, R70: a 32-bit write of an identity to the page of an interrupt file makes it pending there. R66, R67: a write of RUN lets a held hart
start at VEC, in M-mode, with its hart ID in a0 and 0 in a1; R83: a wake that came before stays in its flag. -/
def Obligations.HartsAreReached : Prop :=
  (∀ (q : Requester) (h : Fin 1024) (f : Fin 6) (big : Bool) (n : BitVec 11) (s : State), s.still → s.undisturbed h → (Run.start s).acts q = true → n ≠ 0 →
    s.online (dieOf (tileOf h)) = true → ((Run.start s).idReserved n.toNat = false ∨ (Run.start s).secure q = true) →
    ∃ t, exec (.imsicSetPending q (BitVec.ofNat 40 (filePage h f + if big then 4 else 0)) (msiBytes big n.toNat)) s = .next t ∧
      t.file (h * 8 + f) = { s.file (h * 8 + f) with pend := (s.file (h * 8 + f)).pend ||| (1#2048 <<< n.toNat) } ∧ t.harts = s.harts ∧ t.regs = s.regs) ∧
  (∀ (q : Requester) (h : Fin 1024) (v : Word) (s : State), s.still → s.writer q → s.online (dieOf (tileOf h)) = true → s.fld FOX_CFGLOCK_LOCK = 1 →
    (s.die (dieOf (tileOf h))).tileRst = [] → (s.tile (tileOf h)).ceid = 0 → (s.hart h).run = .held → s.fld (HART_START_RUN (tileOf h) (h % 4)) = 0 →
    v.getLsbD 0 = true → s.fld (DOM_STAT_STATE (domTile (tileOf h))) = 0 → (∀ k < 4, (s.quad (dieOf (tileOf h) * 4 + k)).waiting = []) →
    ∃ t, exec (.hartRelease q h v) s = .next t ∧ t.hart h = { run := .running, mode := .m, pc := BitVec.ofNat 64 (Word.bits v 51 2 * 4), wake := (s.hart h).wake } ∧
      (Run.start t).xr h 10 = BitVec.ofNat 64 h ∧ (Run.start t).xr h 11 = 0 ∧ t.fld (HART_START_RUN (tileOf h) (h % 4)) = 1 ∧ t.fld (HART_STAT_STATE (tileOf h) (h % 4)) = 1)

/-- R45, R46: CLRMAX gives TJMAX the present temperature; CLR gives VMIN the present voltage and clears the count. R457: a pop takes the oldest
entry out of a ring. -/
def Obligations.ActionWritesComplete : Prop :=
  (∀ (q : Requester) (n : Fin 256) (s : State), s.still → s.writer q → s.online (dieOf n) = true →
    ∃ t, exec (.clrmax q n) s = .next t ∧ t.fld (TMON_TEMP_TJMAX n) = s.fld (TMON_TEMP_TJ n) ∧ t.fld (TMON_TEMP_TJ n) = s.fld (TMON_TEMP_TJ n) ∧ t.harts = s.harts) ∧
  (∀ (q : Requester) (n : Fin 256) (s : State), s.still → s.writer q → s.online (dieOf n) = true →
    ∃ t, exec (.droopClr q n) s = .next t ∧ t.fld (TMON_DROOP_VMIN n) = s.fld (TMON_DROOP_VNOW n) ∧ t.fld (TMON_DROOP_DCOUNT n) = 0 ∧
      t.fld (TMON_DROOP_THRESH n) = s.fld (TMON_DROOP_THRESH n) ∧ t.harts = s.harts) ∧
  (∀ (q : Requester) (d : Fin 17) (s : State), s.still → s.writer q → (d.val < 16 → s.online d = true) → s.fld (ERR_RINGSTAT_COUNT d) ≠ 0 →
    ∃ t, exec (.ringPop q d) s = .next t ∧ t.fld (ERR_RINGSTAT_COUNT d) = s.fld (ERR_RINGSTAT_COUNT d) - 1 ∧
      t.fld (ERR_RINGSTAT_TAIL d) = (s.fld (ERR_RINGSTAT_TAIL d) + 1) % 16 ∧
      natBit (t.fld ERR_SUMMARY_RING) d = (if s.fld (ERR_RINGSTAT_COUNT d) = 1 then false else natBit (s.fld ERR_SUMMARY_RING) d) ∧
      ∀ k < 16, ∀ j < 8, t.reg (ERR_RING d k j) = s.reg (ERR_RING d k j))

/-- R148 to R151: partitions keep a way that is theirs and unlocked; a lock or a new owner of a way sweeps it, and the end of the sweep leaves no
line of another partition there, a dirty one on its way to its home. -/
def Obligations.PartitionsComplete : Prop :=
  (∀ (q : Requester) (d : Fin 16) (p : Fin 16) (v : Word) (s : State), s.still → s.writer q → s.online d = true → s.fld (L3_PARTWAYS_FROZEN d p) = 0 →
    v.getLsbD 63 = false → wayRule (fun k => if k = p.val then Word.bits v 15 0 else s.fld (L3_PARTWAYS_WAYS d k)) (s.fld (L3_WAYLOCK_LOCK d)) = true →
    ∃ t, exec (.partwaysWrite q d p .full v) s = .next t ∧ t.fld (L3_PARTWAYS_WAYS d p) = Word.bits v 15 0 ∧ t.fld (L3_PARTWAYS_FROZEN d p) = 0 ∧
      t.fld (L3_STATUS_CFG_REJECT d) = s.fld (L3_STATUS_CFG_REJECT d) ∧ t.l3 = s.l3) ∧
  (∀ (q : Requester) (d : Fin 16) (v : Word) (s : State), s.still → s.writer q → s.online d = true → s.fld (L3_STATUS_SWEEP d) = 0 →
    s.fld (L3_STATUS_CACHE_DISABLE_PENDING d) = 0 → (∀ k < 16, s.fld (L3_PARTWAYS_FROZEN d k) = 0) →
    wayRule (fun k => s.fld (L3_PARTWAYS_WAYS d k)) (Word.bits v 15 0) = true → ((List.range 16).any fun w => natBit (Word.bits v 15 0) w && !natBit (s.fld (L3_WAYLOCK_LOCK d)) w) = true →
    ∃ t, exec (.waylockWrite q d .full v) s = .next t ∧ t.fld (L3_WAYLOCK_LOCK d) = Word.bits v 15 0 ∧ t.fld (L3_STATUS_SWEEP d) = 1 ∧
      t.reg (L3_WAYOWNER d) = s.reg (L3_WAYOWNER d) ∧ t.l3 = s.l3) ∧
  (∀ (q : Requester) (d : Fin 16) (v : Word) (s : State), s.still → s.writer q → s.online d = true → s.fld (L3_STATUS_SWEEP d) = 0 →
    s.fld (L3_STATUS_CACHE_DISABLE_PENDING d) = 0 → (∀ k < 16, s.fld (L3_PARTWAYS_FROZEN d k) = 0) →
    wayRule (fun k => s.fld (L3_PARTWAYS_WAYS d k)) (s.fld (L3_WAYLOCK_LOCK d)) = true → s.fld (L3_WAYLOCK_LOCK d) = 0 →
    ∃ t, exec (.wayownerWrite q d .full v) s = .next t ∧ t.reg (L3_WAYOWNER d) = v ∧ t.fld (L3_STATUS_SWEEP d) = 0 ∧ t.fld (L3_WAYLOCK_LOCK d) = 0 ∧ t.l3 = s.l3) ∧
  (∀ (d : Fin 16) (w : Fin 16) (x : L3Slot) (s : State), s.still → s.net = [] → s.fld (L3_STATUS_SWEEP d) = 1 → s.l3 = [(l3Key d x.line w, x)] →
    natBit (s.fld (L3_WAYLOCK_LOCK d)) w = true → x.part ≠ (Run.start s).wayOwner d w → x.cv = 0 → x.flip = none → x.tagFlip = false → x.cvFlip = false →
    s.fld (ARR_FLIP_ARM d (128 + quadOf x.line * 3 + 2)) = 0 → (∀ k < 4, (s.quad (d * 4 + k)).waiting = [] ∧ (s.quad (d * 4 + k)).miss = []) →
    s.noSwop → (s.quad (d * 4 + quadOf x.line)).vict.length < 32 → ((s.quad (d * 4 + quadOf x.line)).vict.all (fun v => v.line != x.line) = true) →
    ∃ t, exec (.lockSweepDone d) s = .next t ∧ t.l3 = [] ∧ t.fld (L3_STATUS_SWEEP d) = 0 ∧
      (x.st.dirty = true → (t.quad (d * 4 + quadOf x.line)).vict =
          (s.quad (d * 4 + quadOf x.line)).vict ++ [{ line := x.line, st := x.st, data := x.data, poison := x.poison }] ∧
        t.net = [{ kind := if x.st = .O then .evO else .evM, src := .die d, dst := homeOf x.line, line := x.line, data := x.data, poison := x.poison, st := x.st }]) ∧
      (x.st.dirty = false → t.quads = s.quads ∧ t.net = []))

/-- R154 to R156: a disable begins with a sweep, and reads DISABLED once it has ended, with no line left in the cache; an enable is at once. -/
def Obligations.CachesDisable : Prop :=
  (∀ (q : Requester) (n : Fin 256) (s : State), s.still → s.writer q → s.online (dieOf n) = true → s.fld (L2CTL_STATUS_CACHE_DISABLE_PENDING n) = 0 →
    s.fld (L2CTL_CTL_DISABLE n) = 0 →
    ∃ t, exec (.l2Disable q n) s = .next t ∧ t.fld (L2CTL_CTL_DISABLE n) = 1 ∧ t.fld (L2CTL_STATUS_CACHE_DISABLE_PENDING n) = 1 ∧
      t.fld (L2CTL_CTL_L2PF n) = s.fld (L2CTL_CTL_L2PF n) ∧ t.l2 = s.l2) ∧
  (∀ (n : Fin 256) (w : Fin 8) (x : L2Slot) (s : State), s.still → s.net = [] → s.fld (L2CTL_STATUS_CACHE_DISABLE_PENDING n) = 1 → (s.tile n).miss = [] →
    s.l2 = [(l2Key n x.line w, x)] → x.st ≠ .M → x.flip = none → x.tagFlip = false → (∀ e ∈ s.l3, e.2.flip = none ∧ e.2.tagFlip = false ∧ e.2.cvFlip = false) →
    ∃ t, exec (.l2DisableDone n) s = .next t ∧ t.l2 = [] ∧ t.fld (L2CTL_STATUS_CACHE_DISABLE_PENDING n) = 0 ∧ t.fld (L2CTL_STATUS_DISABLED n) = 1 ∧ t.harts = s.harts) ∧
  (∀ (q : Requester) (n : Fin 256) (s : State), s.still → s.writer q → s.online (dieOf n) = true → s.fld (L2CTL_STATUS_CACHE_DISABLE_PENDING n) = 0 →
    s.fld (L2CTL_CTL_DISABLE n) = 1 →
    ∃ t, exec (.l2Enable q n) s = .next t ∧ t.fld (L2CTL_CTL_DISABLE n) = 0 ∧ t.fld (L2CTL_STATUS_DISABLED n) = 0) ∧
  (∀ (q : Requester) (d : Fin 16) (k : Fin 4) (s : State), s.still → s.writer q → s.online d = true → s.fld (L3_STATUS_SWEEP d) = 0 →
    s.fld (L3_STATUS_CACHE_DISABLE_PENDING d) = 0 → natBit (s.fld (L3_CTL_QDISABLE d)) k = false →
    ∃ t, exec (.l3QuadrantDisable q d k) s = .next t ∧ natBit (t.fld (L3_CTL_QDISABLE d)) k = true ∧ natBit (t.fld (L3_STATUS_CACHE_DISABLE_PENDING d)) k = true ∧ t.l3 = s.l3) ∧
  (∀ (d : Fin 16) (k : Fin 4) (w : Fin 16) (x : L3Slot) (s : State), s.still → s.net = [] → natBit (s.fld (L3_STATUS_CACHE_DISABLE_PENDING d)) k = true →
    s.l3 = [(l3Key d x.line w, x)] → quadOf x.line = k.val → x.st.dirty = false → x.cv = 0 → x.flip = none → x.tagFlip = false → x.cvFlip = false →
    (s.quad (d * 4 + k)).miss = [] → (s.quad (d * 4 + k)).vict.length < 32 → ((s.quad (d * 4 + k)).vict.all (fun v => v.line != x.line) = true) →
    ∃ t, exec (.l3QuadrantDisableDone d k) s = .next t ∧ t.l3 = [] ∧ natBit (t.fld (L3_STATUS_CACHE_DISABLE_PENDING d)) k = false ∧
      natBit (t.fld (L3_STATUS_DISABLED d)) k = true) ∧
  (∀ (q : Requester) (d : Fin 16) (k : Fin 4) (s : State), s.still → s.writer q → s.online d = true → s.fld (L3_STATUS_SWEEP d) = 0 →
    s.fld (L3_STATUS_CACHE_DISABLE_PENDING d) = 0 → natBit (s.fld (L3_CTL_QDISABLE d)) k = true → s.fld (DOM_STAT_STATE (domQuad d k)) = 3 →
    s.fld (DOM_STAT_STATE (400 + k)) = 0 →
    ∃ t, exec (.l3QuadrantEnable q d k) s = .next t ∧ natBit (t.fld (L3_CTL_QDISABLE d)) k = false ∧ natBit (t.fld (L3_STATUS_DISABLED d)) k = false ∧
      t.fld (DOM_STAT_HOLD (domQuad d k)) = 0 ∧ t.fld (DOM_STAT_STATE (domQuad d k)) = 1)


/-! ### Rill links, check units and resets -/

/-- R192, R195, R197: the eighteen words of a flit whose CRC is right and whose number is the next expected are accepted, and with them its
acknowledgement; any other flit is rejected and counted as a replay, and a retry request is sent, at which the sender resends from that flit
on. R194, R197, R198, R200: a stalled lane retires and the link retrains at the width of the lanes that are left. -/
def Obligations.LinksComplete : Prop :=
  (∀ (d : Fin 16) (up : Bool) (payload : List (BitVec 64)) (header crc : BitVec 64) (s : State), s.still → s.fld (RLINK_STAT_STATE d) = 4 → payload.length = 16 →
    (payload ++ [header, crc]).all wordWhole = true → (Run.start s).lanesOf d up ≠ [] → ((s.die d).dir up).viol = [] → (flitOf (payload ++ [header, crc])).intact = true →
    (flitOf (payload ++ [header, crc])).seq = ((s.die d).dir up).exp →
    ∃ t, exec (.rillFlit d up payload header crc) s = .next t ∧ ((t.die d).dir up).exp = ((s.die d).dir up).exp + 1 ∧ ((t.die d).dir up).resend = none ∧
      ((t.die d).dir up).asked = none ∧ ((t.die d).dir up).fails = 0 ∧ ((t.die d).dir up).counts = [] ∧
      ((t.die d).dir up).pos = (((s.die d).dir up).pos + 18) % ((Run.start s).lanesOf d up).length ∧
      (t.die d).dir (!up) = (if (flitOf (payload ++ [header, crc])).ackValid then { (s.die d).dir (!up) with acked := some (flitOf (payload ++ [header, crc])).ack } else (s.die d).dir (!up)) ∧ t.regs = s.regs) ∧
  (∀ (d : Fin 16) (up : Bool) (payload : List (BitVec 64)) (header crc : BitVec 64) (s : State), s.still → s.noSources → s.fld (RLINK_STAT_STATE d) = 4 → payload.length = 16 →
    (payload ++ [header, crc]).all wordWhole = true → (Run.start s).lanesOf d up ≠ [] → ((s.die d).dir up).viol = [] →
    ((flitOf (payload ++ [header, crc])).intact = true → (flitOf (payload ++ [header, crc])).seq ≠ ((s.die d).dir up).exp) → ((s.die d).dir up).fails < 15 →
    ∃ t, exec (.rillFlit d up payload header crc) s = .next t ∧ ((t.die d).dir up).exp = ((s.die d).dir up).exp ∧ ((t.die d).dir up).fails = ((s.die d).dir up).fails + 1 ∧
      ((t.die d).dir up).asked = some ((s.die d).dir up).exp ∧
      t.fld (RLINK_ERRCNT_REPLAYS d) = min (s.fld (RLINK_ERRCNT_REPLAYS d) + 1) 0xFFFFFFFF ∧ t.fld (RLINK_STAT_STATE d) = 4) ∧
  (∀ (d : Fin 16) (up : Bool) (seq : BitVec 12) (s : State), s.still → s.online d = true → ((s.die d).dir up).asked = some seq →
    ∃ t, exec (.rillRetryRequest d up seq) s = .next t ∧ ((t.die d).dir up).resend = some seq ∧ ((t.die d).dir up).asked = none ∧
      ((t.die d).dir up).exp = ((s.die d).dir up).exp ∧ t.regs = s.regs) ∧
  (∀ (d : Fin 16) (up : Bool) (lanes : BitVec 18) (s : State), s.still → s.noSources → s.fld (RLINK_STAT_STATE d) = 4 →
    ((List.range 18).any fun i => lanes.getLsbD i && !natBit (s.fld (laneMap d up)) i) = true → 4 ≤ healthy (s.fld (laneMap d up) ||| lanes.toNat) →
    4 ≤ healthy (s.fld (laneMap d (!up))) →
    ∃ t, exec (.rillLaneStall d up lanes) s = .next t ∧ t.fld (laneMap d up) = s.fld (laneMap d up) ||| lanes.toNat ∧ t.fld (RLINK_STAT_STATE d) = 5 ∧
      t.fld (RLINK_STAT_UPW d) = linkWidth (healthy (t.fld (laneMap d true))) ∧ t.fld (RLINK_STAT_DNW d) = linkWidth (healthy (t.fld (laneMap d false))) ∧
      t.fld (RLINK_ERRCNT_RETRAINS d) = min (s.fld (RLINK_ERRCNT_RETRAINS d) + 1) 65535) ∧
  (∀ (d : Fin 16) (s : State), s.still → s.fld (RLINK_STAT_STATE d) = 5 →
    ∃ t, exec (.rillRetrainDone d) s = .next t ∧ t.fld (RLINK_STAT_STATE d) = 4 ∧ t.dies = s.dies ∧ t.net = s.net) ∧
  (∀ (q : Requester) (d : Fin 16) (v : Word) (s : State), s.still → s.writer q → s.online d = true → v &&& ~~~ 0x3FFFF0003FFFF#64 = 0 →
    v &&& ~~~ s.reg (RLINK_FAULTMAP d) ≠ 0 → 4 ≤ healthy (s.fld (RLINK_FAULTMAP_UP d) ||| Word.bits v 17 0) →
    4 ≤ healthy (s.fld (RLINK_FAULTMAP_DN d) ||| Word.bits v 49 32) →
    ∃ t, exec (.faultmapWrite q d .full v) s = .next t ∧ t.reg (RLINK_FAULTMAP d) = s.reg (RLINK_FAULTMAP d) ||| v ∧ t.fld (RLINK_STAT_STATE d) = 5 ∧
      t.fld (RLINK_STAT_UPW d) = linkWidth (healthy (t.fld (RLINK_FAULTMAP_UP d))) ∧ t.fld (RLINK_STAT_DNW d) = linkWidth (healthy (t.fld (RLINK_FAULTMAP_DN d))))

/-- R204, R208: under test, a check unit takes the bytes that are written into its running code, least significant first. -/
def Obligations.CheckUnitsComplete : Prop :=
  (∀ (q : Requester) (die : Fin 17) (stop : BitVec 8) (u : ChkUnit) (v : Word) (s : State), s.still → s.writer q → chkUnit die stop.toNat = some u →
    (die.val < 16 → s.online die = true) → s.fld (CHK_CTL_TEST u) = 1 → (Run.start s).polyOf u ≤ 2 →
    ∃ t, exec (.chkData q die stop v) s = .next t ∧ t.fld (CHK_RUN_RUN u) =
        ((List.range 8).map fun i => Word.bits v (8 * i + 7) (8 * i)).foldl (crcByte ((Run.start s).polyOf u)) (s.fld (CHK_RUN_RUN u)) ∧
      t.fld (CHK_CTL_TEST u) = 1 ∧ t.net = s.net) ∧
  (∀ (q : Requester) (die : Fin 17) (stop : BitVec 8) (u : ChkUnit) (v : Word) (s : State), s.still → s.writer q → chkUnit die stop.toNat = some u →
    (die.val < 16 → s.online die = true) → s.fld (CHK_CTL_TEST u) = 1 → (Run.start s).polyOf u ≤ 2 →
    ∃ t, exec (.chkDatan q die stop v) s = .next t ∧ t.fld (CHK_RUN_RUN u) =
        ((List.range (Word.bits v 2 0)).map fun i => Word.bits v (8 * i + 15) (8 * i + 8)).foldl (crcByte ((Run.start s).polyOf u)) (s.fld (CHK_RUN_RUN u)) ∧
      t.fld (CHK_CTL_TEST u) = 1 ∧ t.net = s.net)

/-- R211 to R217, R469, R470: a tile reset takes the state of the tiles that it names and reports its end; a die reset fences the die and
takes its state, records its cause, and its sweep writes the lines that the die owned poisoned to memory before it ends. -/
def Obligations.ResetsComplete : Prop :=
  (∀ (q : Requester) (d : Fin 16) (tiles : BitVec 16) (s : State), s.still → s.net = [] → s.writer q → s.fld (RLINK_STAT_STATE d) = 4 → s.fld (RLINK_RESET_BUSY d) = 0 →
    tiles ≠ 0 → (∀ e ∈ s.harts, e.2.eid = 0) →
    ∃ t, exec (.tileReset q d tiles) s = .next t ∧ t.fld (RLINK_RESET_BUSY d) = 1 ∧ t.fld (RLINK_RESET_KIND d) = 1 ∧ t.fld (RLINK_RESET_TILES d) = tiles.toNat ∧
      (t.die d).tileRst.map (·.1) = ((List.range 16).filter fun i => tiles.getLsbD i).map (d.val * 16 + ·) ∧
      (∀ i < 16, tiles.getLsbD i = true → t.tile (d * 16 + i) = {} ∧ t.fld (DOM_STAT_HOLD (domTile (d * 16 + i))) = 0) ∧
      (∀ i < 16, tiles.getLsbD i = true → ∀ j < 4, t.hart ((d * 16 + i) * 4 + j) = {}) ∧
      ∀ e ∈ s.harts, (dieOf (tileOf e.1) ≠ d ∨ tiles.getLsbD (tileOf e.1 % 16) = false) → t.hart e.1 = s.hart e.1) ∧
  (∀ (d : Fin 16) (s : State), s.still → s.noSources → s.fld (RLINK_RESET_BUSY d) = 1 → s.fld (RLINK_RESET_KIND d) = 1 →
    (∀ p ∈ (s.die d).tileRst, ∀ i < 4, s.fld (HART_START_RUN p.1 i) = 0) → (∀ p ∈ (s.die d).tileRst, p.1 / 16 = d.val) →
    ∃ t, exec (.tileResetDone d) s = .next t ∧ t.fld (RLINK_RESET_BUSY d) = 0 ∧ t.fld (RLINK_RESET_ST d) = stOk ∧ (t.die d).tileRst = [] ∧ t.harts = s.harts) ∧
  (∀ (q : Requester) (d : Fin 16) (s : State), s.still → s.noSources → s.net = [] → s.lineq = [] → s.slices = [] → s.writer q → s.online d = true →
    s.fld (RLINK_RESET_BUSY d) = 0 → s.fld (RLINK_FAULTMAP_RSTA d) = 0 → s.freeSlot (.rlink d) 1 → (∀ e ∈ s.harts, e.2.eid = 0) →
    ∃ t, exec (.dieReset d (.request q)) s = .next t ∧ t.fld (RLINK_RESET_BUSY d) = 1 ∧ t.fld (RLINK_STAT_STATE d) = 6 ∧ t.fld (RLINK_STAT_LASTCAUSE d) = 1 ∧
      t.fld (RLINK_STAT_UPW d) = 0 ∧ t.fld (RLINK_STAT_DNW d) = 0 ∧ t.recorded (.rlink d) 1 0x0B00 ∧ (∀ j < 64, t.hart (d * 64 + j) = {}) ∧
      (∀ e ∈ s.l3, (l3Place e.1).1 = d.val → t.l3Slot e.1 = none) ∧ ∀ i < 21, t.fld (DOM_STAT_STATE (d * 21 + i)) = 3) ∧
  (∀ (d : Fin 16) (s : State), s.still → s.noSources → s.net = [] → s.lineq = [] → s.slices = [] → s.online d = true → s.fld (RLINK_RESET_BUSY d) = 0 →
    s.fld (RLINK_FAULTMAP_RSTA d) = 0 →
    ∃ t, exec (.dieReset d .link) s = .next t ∧ t.fld (RLINK_STAT_STATE d) = 6 ∧ t.fld (RLINK_STAT_LASTCAUSE d) = 2 ∧ t.fld (RLINK_RESET_BUSY d) = 0 ∧
      ∀ j < 64, t.hart (d * 64 + j) = {}) ∧
  (∀ (d : Fin 16) (k : Fin 4) (s : State), s.still → s.noSources → s.net = [] → s.lineq = [] → s.slices = [] → s.online d = true → s.fld (RLINK_RESET_BUSY d) = 0 →
    s.fld (RLINK_FAULTMAP_RSTA d) = 0 →
    ∃ t, exec (.dieReset d (.scope k 0x0202)) s = .next t ∧ t.fld (RLINK_STAT_STATE d) = 6 ∧ t.fld (RLINK_STAT_LASTCAUSE d) = 4 ∧
      ∀ j < 64, t.hart (d * 64 + j) = {}) ∧
  (∀ (d : Fin 16) (w : Fin 16) (l : LineAddr) (c la : Nat) (s : State), s.still → s.net = [] → s.lineq = [] → s.fld (RLINK_STAT_STATE d) = 6 →
    s.filt = [(l3Key d l w, ⟨l, .X, none⟩)] → s.slices = [] → (Run.start s).decodeLine l = .dram c la → (∀ e ∈ s.harts, e.2.resv ≠ some l) →
    s.fld HOME_CFG_DIREN = 0 → s.fld (ARR_FLIP_ARM 16 (quadOf l * 16 + d)) = 0 →
    ∃ t, exec (.dieResetSweepDone d) s = .next t ∧ t.filt = [] ∧ (t.die d).poisoned = (s.die d).poisoned + 1 ∧ t.fld (RLINK_STAT_STATE d) = 6 ∧
      t.net = [{ kind := .mWr, src := homeOf l, dst := .chan (Fin.ofNat 24 c), line := l, poison := true, la := la }] ∧
      (t.queue l.toNat).map (fun q => (q.phase, q.own)) = [(.waitMAck, true)]) ∧
  (∀ (d : Fin 16) (s : State), s.still → s.noSources → s.net = [] → s.lineq = [] → s.fld (RLINK_STAT_STATE d) = 6 → s.filt = [] → s.slices = [] →
    s.freeSlot (.rlink d) 1 → s.fld (DOM_STAT_STATE (d * 21 + 20)) = 3 →
    ∃ t, exec (.dieResetSweepDone d) s = .next t ∧ t.recorded (.rlink d) 1 0x0B02 ∧ t.fld (RLINK_RESET_BUSY d) = 0 ∧ t.fld (RLINK_STAT_STATE d) = 0 ∧
      t.fld (DOM_STAT_STATE (d * 21 + 20)) = 1 ∧ t.dram = s.dram) ∧
  (∀ (d e : Fin 16) (l : LineAddr) (q : HReq) (s : State), s.still → s.noSources → s.net = [] → s.slices = [] → s.lineq = [(l.toNat, [q])] → q.msg.line = l →
    q.phase = .snooping → q.snooped = [.die d, .die e] → d ≠ e → q.msg.src = .die e → q.msg.kind = .rdX → s.online d = true → s.fld (RLINK_FAULTMAP_RSTA d) = 0 →
    s.freeSlot (.home (quadOf l)) 1 → s.filt = [] → (∀ i < 16, (s.tile (d * 16 + i)).halted = false) →
    ∃ t, exec (.snoopResponseTimeout d l) s = .next t ∧ t.recorded (.home (quadOf l)) 1 0x0502 ∧ t.fld (RLINK_STAT_STATE d) = 6 ∧ t.fld (RLINK_STAT_LASTCAUSE d) = 4)

/-- R201, R203, R219, R220: a die comes back by self-test, training, its join and ADMIT; a step that takes too long or a baseline that differs
ends the attempt, until the next. -/
def Obligations.RejoinCompletes : Prop :=
  (∀ (d : Fin 16) (map : Word) (s : State), s.still → s.fld (RLINK_STAT_STATE d) = 1 →
    ∃ t, exec (.dieSelfTestDone d map) s = .next t ∧ t.fld (RLINK_STAT_STATE d) = 2 ∧
      t.reg (RLINK_FAULTMAP d) = s.reg (RLINK_FAULTMAP d) ||| ((Run.start s).found d map &&& (RLINK_FAULTMAP d).mask) ∧ t.reg (RILL_FAULTMAP d) = t.reg (RLINK_FAULTMAP d)) ∧
  (∀ (d : Fin 16) (map : Word) (s : State), s.still → s.fld (RLINK_STAT_STATE d) = 2 → 4 ≤ healthy (s.fld (RLINK_FAULTMAP_UP d) ||| Word.bits map 17 0) →
    4 ≤ healthy (s.fld (RLINK_FAULTMAP_DN d) ||| Word.bits map 49 32) → ((Run.start s).orMap d map).sideDown d = false →
    ∃ t, exec (.linkTrainingDone d map) s = .next t ∧ t.fld (RLINK_STAT_STATE d) = 2 ∧ (t.die d).trained = true ∧ (t.die d).up = {} ∧ (t.die d).dn = {} ∧
      t.fld (RLINK_STAT_UPW d) = linkWidth (healthy (t.fld (RLINK_FAULTMAP_UP d))) ∧ t.fld (RLINK_STAT_DNW d) = linkWidth (healthy (t.fld (RLINK_FAULTMAP_DN d)))) ∧
  (∀ (d : Fin 16) (map : Word) (s : State), s.still → s.fld (RLINK_STAT_STATE d) = 2 → healthy (s.fld (RLINK_FAULTMAP_UP d) ||| Word.bits map 17 0) < 4 →
    ∃ t, exec (.linkTrainingDone d map) s = .next t ∧ t.fld (RLINK_STAT_STATE d) = 7 ∧ t.fld (RLINK_STAT_LASTCAUSE d) = 3) ∧
  (∀ (d : Fin 16) (s : State), s.still → s.fld (RLINK_STAT_STATE d) = 2 → (s.die d).trained = true → s.fld (TBRX_STATUS_LOST d) = 0 →
    ∃ t, exec (.joinRequest d (s.reg ID_BASELINE)) s = .next t ∧ t.fld (RLINK_STAT_STATE d) = 3 ∧ t.fld (FABRIC_COPY_POLY d) = s.fld FABRIC_CHKCFG_POLY) ∧
  (∀ (d : Fin 16) (baseline : Word) (s : State), s.still → s.fld (RLINK_STAT_STATE d) = 2 → (s.die d).trained = true → s.fld (TBRX_STATUS_LOST d) = 0 →
    baseline ≠ s.reg ID_BASELINE →
    ∃ t, exec (.joinRequest d baseline) s = .next t ∧ t.fld (RLINK_STAT_STATE d) = 7 ∧ t.fld (RLINK_STAT_LASTCAUSE d) = 3) ∧
  (∀ (q : Requester) (d : Fin 16) (s : State), s.still → s.noSources → s.writer q → s.fld (RLINK_STAT_STATE d) = 3 →
    ∃ t, exec (.admitDie q d) s = .next t ∧ t.fld (RLINK_STAT_STATE d) = 4 ∧ t.fld (RLINK_CTL_ADMIT d) = 1 ∧
      t.fld (RLINK_STAT_JOINS d) = min (s.fld (RLINK_STAT_JOINS d) + 1) 65535 ∧ (t.die d).drop = 0 ∧ (t.die d).late = false ∧ t.harts = s.harts) ∧
  (∀ (d : Fin 16) (s : State), s.still → 1 ≤ s.fld (RLINK_STAT_STATE d) → s.fld (RLINK_STAT_STATE d) ≤ 3 → s.fld (RLINK_FAULTMAP_RSTA d) = 0 →
    ∃ t, exec (.rejoinStepTimeout d) s = .next t ∧ t.fld (RLINK_STAT_STATE d) = 7 ∧ t.fld (RLINK_STAT_LASTCAUSE d) = 3 ∧ t.fld (RLINK_STAT_UPW d) = 0 ∧
      t.fld (RLINK_STAT_DNW d) = 0 ∧ ∀ j < 64, t.hart (d * 64 + j) = {}) ∧
  (∀ (d : Fin 16) (s : State), s.still → s.fld (RLINK_STAT_STATE d) = 7 → s.fld (DOM_STAT_STATE (d * 21 + 20)) = 3 →
    ∃ t, exec (.rejoinRetry d) s = .next t ∧ t.fld (RLINK_STAT_STATE d) = 0 ∧ t.fld (DOM_STAT_STATE (d * 21 + 20)) = 1 ∧ (t.die d).late = true)


/-! ### Memory channels -/

/-- R224 to R229, R425: a channel starts once its delay sets are valid and its list writes mode register 0, takes the delay set that the
temperature calls for, and runs; a set is enabled when R229 lets it, and refused with a cause where not; a domain of the IOD that wakes is on. -/
def Obligations.ChannelsStart : Prop :=
  (∀ (q : Requester) (c : Fin 24) (v : Word) (s : State), s.still → s.writer q → s.fld FOX_CFGLOCK_LOCK = 0 → s.fld (MC_STATUS_INIT c) = 0 → s.fld (MC_CTL_RUN c) = 0 →
    v.getLsbD 0 = true → Word.bits v 3 1 = 7 → Word.bits v 5 4 < 2 →
    (((Run.start s).mrList c).any fun n => (Run.start s).mrTakes c n && s.fld (MC_MRSEQ_MRNUM c n) == 0) = true →
    s.fld (DOM_STAT_STATE (domChan c)) = 3 → s.fld (DOM_STAT_HOLD (domChan c)) = 0 →
    ∃ t, exec (.channelStart q c .full v) s = .next t ∧ t.fld (MC_CTL_RUN c) = 1 ∧ t.fld (MC_CTL_RFMODE c) = Word.bits v 5 4 ∧ t.fld (MC_STATUS_INIT c) = 1 ∧
      t.fld (MC_STATUS_SR c) = 0 ∧ t.fld (MC_STATUS_BAND c) = 0 ∧ t.fld (DOM_STAT_STATE (domChan c)) = 1 ∧ t.chans = s.chans) ∧
  (∀ (c : Fin 24) (x : Int) (s : State), s.still → s.fld (MC_STATUS_INIT c) = 1 → s.fld (DOM_STAT_STATE (domChan c)) = 0 →
    ∃ t, exec (.channelPowerupDone c true [some x]) s = .next t ∧ t.fld (MC_STATUS_INIT c) = 2 ∧ (t.chan c).silent = [0] ∧
      t.fld (MC_STATUS_BAND c) = bandOf (s.fld (MC_STATUS_BAND c)) x (s.fld (MC_BANDCTL_LOW c)) (s.fld (MC_BANDCTL_HIGH c)) (s.fld (MC_BANDCTL_HYST c))) ∧
  (∀ (c : Fin 24) (ts : List (Option Int)) (s : State), s.still → s.noSources → s.fld (MC_STATUS_INIT c) = 1 → s.fld (DOM_STAT_STATE (domChan c)) = 0 → s.freeSlot (.mc c) 1 →
    ∃ t, exec (.channelPowerupDone c false ts) s = .next t ∧ t.fld (MC_STATUS_INIT c) = 4 ∧ t.recorded (.mc c) 1 0x0606) ∧
  (∀ (c : Fin 24) (s : State), s.still → s.fld (MC_STATUS_INIT c) = 2 → (s.chan c).held = [] →
    ∃ t, exec (.channelInitDone c true) s = .next t ∧ t.fld (MC_STATUS_INIT c) = 3 ∧
      t.fld (MC_STATUS_DREF c) = (if (s.chan c).mr4 = true ∨ 3 ∈ (s.chan c).silent then 1 else 0) ∧ t.chans = s.chans) ∧
  (∀ (q : Requester) (i : Fin 16) (s : State), s.still → s.writer q → s.fld FOX_CFGLOCK_LOCK = 0 → s.fld (ILV_SET_BASE_EN i) = 0 →
    (Run.start s).ilvCause i (s.fld (ILV_SET_BASE_BASE i)) = 0 →
    ∃ t, exec (.ilvSetEnable q i) s = .next t ∧ t.fld (ILV_SET_BASE_EN i) = 1 ∧ t.fld (ILV_SET_BASE_BASE i) = s.fld (ILV_SET_BASE_BASE i)) ∧
  (∀ (q : Requester) (i : Fin 16) (s : State), s.still → s.writer q → s.fld FOX_CFGLOCK_LOCK = 0 → s.fld (ILV_SET_BASE_EN i) = 0 →
    (Run.start s).ilvCause i (s.fld (ILV_SET_BASE_BASE i)) ≠ 0 →
    ∃ t, exec (.ilvSetEnable q i) s = .next t ∧ t.fld (ILV_SET_BASE_EN i) = 0 ∧ t.fld ILV_STATUS_CFG_REJECT = 1 ∧ t.fld ILV_STATUS_SET = i ∧
      t.fld ILV_STATUS_CAUSE = (Run.start s).ilvCause i (s.fld (ILV_SET_BASE_BASE i))) ∧
  (∀ (q : Requester) (i : Fin 16) (s : State), s.still → s.writer q → s.fld FOX_CFGLOCK_LOCK = 0 → s.fld (ILV_SET_BASE_EN i) = 1 →
    ∃ t, exec (.ilvSetDisable q i) s = .next t ∧ t.fld (ILV_SET_BASE_EN i) = 0 ∧ t.fld (ILV_SET_BASE_BASE i) = s.fld (ILV_SET_BASE_BASE i)) ∧
  (∀ (d : Fin 404) (s : State), s.still → s.fld (DOM_STAT_STATE d) = 1 → (360 ≤ d.val ∨ (336 ≤ d.val ∧ (s.chan (d.val - 336)).held = [])) →
    ∃ t, exec (.iodDomainWakeDone d) s = .next t ∧ t.fld (DOM_STAT_STATE d) = 0 ∧ t.chans = s.chans ∧ t.net = s.net)

/-- R234 to R239, R248, R249: bands, refreshes and self-refresh of a channel that runs, its scrub reads, and the alerts of its DIMMs. -/
def Obligations.ChannelsRefresh : Prop :=
  (∀ (c : Fin 24) (x : Int) (s : State), s.still → s.fld (MC_STATUS_INIT c) = 3 →
    let b := bandOf (s.fld (MC_STATUS_BAND c)) x (s.fld (MC_BANDCTL_LOW c)) (s.fld (MC_BANDCTL_HIGH c)) (s.fld (MC_BANDCTL_HYST c))
    ∃ t, exec (.dimmThermalPoll c [some x]) s = .next t ∧ (t.chan c).target = (if b = s.fld (MC_STATUS_BAND c) then none else some b) ∧
      t.fld (MC_STATUS_BAND c) = s.fld (MC_STATUS_BAND c) ∧ t.fld (MC_STATUS_DREF c) = (if (s.chan c).mr4 = true then 1 else 0)) ∧
  (∀ (c : Fin 24) (b : Nat) (s : State), s.still → (Run.start s).chanRuns c = true → (s.chan c).target = some b → b ≤ 2 → (s.chan c).window = false → (s.chan c).alert = false →
    ∃ t, exec (.bandSwitchWindow c) s = .next t ∧ t.fld (MC_STATUS_BAND c) = b ∧ t.chan c = { s.chan c with target := none, window := true } ∧
      t.fld (MC_STATUS_OWEDA c) = s.fld (MC_STATUS_OWEDA c) - 1 ∧ t.fld (MC_STATUS_OWEDB c) = s.fld (MC_STATUS_OWEDB c) - 1) ∧
  (∀ (c : Fin 24) (s : State), s.still → (s.chan c).window = true → (s.chan c).held = [] →
    ∃ t, exec (.bandSwitchResume c) s = .next t ∧ t.chan c = { s.chan c with window := false } ∧ t.regs = s.regs ∧ t.net = s.net) ∧
  (∀ (c : Fin 24) (u : Fin 2) (s : State), s.still → (Run.start s).chanRuns c = true → s.fld (MC_REFCTL_PPEN c) = 1 → s.fld (MC_STATUS_DREF c) = 0 →
    ∃ t, exec (.refreshIntervalEnd c u true) s = .next t ∧ t.fld (owed c u) = min (s.fld (owed c u) + 1) 4 ∧ t.chans = s.chans) ∧
  (∀ (c : Fin 24) (u : Fin 2) (s : State), s.still → (Run.start s).chanRuns c = true → (s.chan c).held = [] →
    ∃ t, exec (.owedRefreshIssue c u) s = .next t ∧ t.fld (owed c u) = 0 ∧ t.chans = s.chans) ∧
  (∀ (c : Fin 24) (x : Bool) (s : State), s.still → (Run.start s).chanRuns c = true → 3 ∉ (s.chan c).silent →
    ∃ t, exec (.mr4Poll c x) s = .next t ∧ (t.chan c).mr4 = x ∧ t.fld (MC_STATUS_DREF c) = (if x then 1 else 0) ∧
      (x = true → s.fld (MC_STATUS_DREF c) = 0 → t.fld (MC_STATUS_OWEDA c) = 0 ∧ t.fld (MC_STATUS_OWEDB c) = 0)) ∧
  (∀ (c : Fin 24) (s : State), s.still → (Run.start s).chanRuns c = true → s.fld (MC_CTL_RFMODE c) = 1 → (s.chan c).held = [] → (s.chan c).window = false →
    (s.chan c).alert = false →
    ∃ t, exec (.selfRefreshIdleTimeout c) s = .next t ∧ t.fld (MC_STATUS_SR c) = 1 ∧ t.fld (MC_STATUS_OWEDA c) = 0 ∧ t.fld (MC_STATUS_OWEDB c) = 0) ∧
  (∀ (c : Fin 24) (m : Msg) (k : KeySlot) (la : Nat) (s : State), s.still → s.fld (MC_STATUS_INIT c) = 3 → s.fld (MC_STATUS_SR c) = 1 → s.fld (DOM_STAT_STATE (domChan c)) = 0 → s.pins.fatal = false →
    (s.chan c).held = [(m, k)] → (s.chan c).window = false → (s.chan c).alert = false → (s.chan c).target = none → m.kind = .mWr → m.src = homeOf m.line → m.poison = false →
    m.la = la → k.loaded = true →
    ∃ t, exec (.selfRefreshExit c) s = .next t ∧ t.fld (MC_STATUS_SR c) = 0 ∧ (t.chan c).held = [] ∧
      t.net = s.net ++ [{ kind := .mAck, src := .chan c, dst := m.src, line := m.line }] ∧
      t.dram = s.dram.upd (dramKey c la) (some { data := m.data, dir := m.dir, key := k.key, tweak := m.line.toNat })) ∧
  (∀ (c : Fin 24) (x : DLine) (s : State), s.still → s.fld (MC_SCRUB_EN c) = 1 → (Run.start s).chanHolds c = false →
    s.dline (dramKey c (s.fld (MC_SCRUB_POS c) * 64)) = some x → x.err = [] →
    ∃ t, exec (.scrubRead c) s = .next t ∧ t.dram = s.dram ∧
      t.fld (MC_SCRUB_POS c) = (if s.fld (MC_SCRUB_POS c) * 64 + 64 < (Run.start s).capacity c then s.fld (MC_SCRUB_POS c) + 1 else 0)) ∧
  (∀ (c : Fin 24) (k : Fin 2) (again : Bool) (s : State), s.still → s.fld (MC_STATUS_INIT c) = 3 → (s.chan c).alert = false → (again = true → (s.chan c).replays < 8) →
    ∃ t, exec (.dimmAlert c k again) s = .next t ∧ (t.chan c).alert = true ∧ (t.chan c).replays = (if again then (s.chan c).replays else 0) ∧ t.regs = s.regs) ∧
  (∀ (c : Fin 24) (k : Fin 2) (s : State), s.still → s.noSources → s.fld (MC_STATUS_INIT c) = 3 → (s.chan c).alert = false → 8 ≤ (s.chan c).replays → s.fld ERR_FATAL_V = 0 →
    ∃ t, exec (.dimmAlert c k true) s = .next t ∧ t.fld (MC_STATUS_INIT c) = 4 ∧ t.pins.fatal = true ∧ t.fld ERR_FATAL_EVENT = 0x0604 ∧ t.fld ERR_FATAL_COLD = 1) ∧
  (∀ (c : Fin 24) (k : Fin 2) (s : State), s.still → s.noSources → (s.chan c).alert = true → (s.chan c).held = [] → s.freeSlot (.mc c) 0 →
    ∃ t, exec (.dimmAlertEnd c k) s = .next t ∧ t.chan c = { s.chan c with alert := false, replays := (s.chan c).replays + 1 } ∧ t.recorded (.mc c) 0 0x0603)


/-! ### Phlox -/

/-- R255 to R262, R264, R265: the path of a job from the queue's TAIL to its completion record. -/
def Obligations.JobsFlow : Prop :=
  (∀ (q : Requester) (f : Fin 256) (j : Fin 32) (v : Word) (s : State), s.still → s.writer q → (Run.start s).pageOpen f = true →
    let n := 2 ^ s.fld (Q_CFG_LOG2N f j)
    let new := Word.bits v 15 0
    ∃ t, exec (.doorbell q f j .full v) s = .next t ∧
      (if new < n ∧ (new + n - s.fld (Q_TAIL_TAIL f j)) % n ≤ n - 1 - (s.fld (Q_TAIL_TAIL f j) + n - s.fld (Q_QSTAT_HEAD f j)) % n
        then t.fld (Q_TAIL_TAIL f j) = new ∧ t.fld (Q_QSTAT_DBERR f j) = s.fld (Q_QSTAT_DBERR f j)
        else t.fld (Q_TAIL_TAIL f j) = s.fld (Q_TAIL_TAIL f j) ∧ t.fld (Q_QSTAT_DBERR f j) = 1)) ∧
  (∀ (qi : Fin 1024) (f : Fin 256) (j : Fin 32) (l : LineAddr) (c la c' la' : Nat) (x y : DLine) (s : State), s.still → s.bareIo → (Run.start s).queueOf qi = some (f.val, j.val) →
    s.fld (Q_CFG_EN f j) = 1 → s.fld (PHLOX_QBIND_MOVING qi) = 0 → s.fetched_ qi = none → s.fld (Q_QSTAT_HEAD f j) ≠ s.fld (Q_TAIL_TAIL f j) → s.fld (FN_RESET_BUSY f) = 0 →
    s.fld (DOM_STAT_STATE (domEngine (s.fld (Q_CFG_ENG f j)))) = 0 → s.pins.fatal = false → s.fld (Q_CFG_LOG2N f j) ≤ 16 →
    s.fld (Q_BASE_BASE f j) * 4096 + s.fld (Q_QSTAT_HEAD f j) * 128 = l.toNat * 64 → l ≠ BitVec.allOnes 46 → s.lineSrc (.phlox (Fin.ofNat 8 (s.fld (Q_CFG_ENG f j)))) l c la x →
    s.lineSrc (.phlox (Fin.ofNat 8 (s.fld (Q_CFG_ENG f j)))) (l + 1) c' la' y →
    ∃ t, exec (.descriptorFetch qi) s = .next t ∧ t.fetched_ qi = some (y.data ++ x.data) ∧
      t.fld (Q_QSTAT_HEAD f j) = (s.fld (Q_QSTAT_HEAD f j) + 1) % 2 ^ s.fld (Q_CFG_LOG2N f j) ∧ t.fld (Q_CFG_EN f j) = 1 ∧ t.jobs = s.jobs ∧ t.dram = s.dram) ∧
  (∀ (qi : Fin 1024) (f : Fin 256) (j : Fin 32) (d : BitVec 1024) (c : Nat) (s : State), s.still → (Run.start s).queueOf qi = some (f.val, j.val) → s.fetched_ qi = some d →
    s.fld (FN_RESET_BUSY f) = 0 → s.pins.fatal = false → dFlag d 1 = false → isCipher (dOp d) = false → isCodec (dOp d) = false → descNat d 40 8 % 64 = 0 →
    (Run.start s).admissible (s.fld (Q_CFG_ENG f j)) qi = true → (Run.start s).itsTurn (s.fld (Q_CFG_ENG f j)) f j = true →
    ((List.range 256).find? fun x => (s.job (s.fld (Q_CFG_ENG f j) * 256 + x)).isNone) = some c →
    ∃ t, exec (.jobAdmission qi) s = .next t ∧ t.fetched_ qi = none ∧
      t.job (s.fld (Q_CFG_ENG f j) * 256 + c) = some { q := qi, f := f, j := j, desc := d, status := if descOk d then none else some 0x10, toll := dBytes d } ∧
      t.fld (Q_QSTAT_INFLIGHT f j) = min (s.fld (Q_QSTAT_INFLIGHT f j) + 1) 511) ∧
  (∀ (e : Fin 8) (k : Fin 256) (x : Job) (st : Nat) (l : LineAddr) (c la : Nat) (s : State), s.still → s.bareIo → s.job (e * 256 + k) = some x → x.status = some st → x.aborted = false →
    s.pins.fatal = false → x.f < 256 → x.j < 32 → dFlag x.desc 3 = true → dFlag x.desc 0 = false → st ≠ 0x06 → descNat x.desc 40 8 = l.toNat * 64 → s.lineDst (.phlox e) l c la →
    ∃ t, exec (.jobCompletion e k) s = .next t ∧ t.job (e * 256 + k) = none ∧ t.dram = s.dram.upd (dramKey c la) (some (s.wrote l (BitVec.ofNat 512 (natLE (jobRecord e x st))))) ∧
      t.fld (ENG_STAT_JOBS e) = (s.fld (ENG_STAT_JOBS e) + 1) % 2 ^ 32 ∧ t.fld (Q_QSTAT_INFLIGHT x.f x.j) = s.fld (Q_QSTAT_INFLIGHT x.f x.j) - 1) ∧
  (∀ (s : State), s.still → s.canon = true →
    ∃ t, exec .phloxCapWindowEnd s = .next t ∧ t.moved = [] ∧ t.fnBytes = s.fnBytes ∧ t.jobs = s.jobs)

/-- R254, R268 to R272: NOP, COPY, FILL and CRC of a line end with ST_OK, their counts and check values, and what they write. -/
def Obligations.MovesComplete : Prop :=
  (∀ (e : Fin 8) (k : Fin 256) (x : Job) (s : State), s.jobRuns e k 0x00 x →
    ∃ t, exec (.nop e k) s = .next t ∧ t.job (e * 256 + k) = some { x with started := false, status := some 0, key := none } ∧ t.dram = s.dram) ∧
  (∀ (e : Fin 8) (k : Fin 256) (x : Job) (l l' : LineAddr) (c la c' la' : Nat) (y : DLine) (s : State), s.jobRuns e k 0x01 x → s.bareIo → x.spans l 64 l' 64 → descNat x.desc 2 1 % 4 < 2 →
    s.lineSrc (.phlox e) l c la y → s.lineDst (.phlox e) l' c' la' →
    ∃ t, exec (.copy e k) s = .next t ∧ t.dram = s.dram.upd (dramKey c' la') (some (s.wrote l' y.data)) ∧
      t.job (e * 256 + k) = some { x with started := true, status := some 0, key := none, aux := (descCrc x.desc y.bytes).1, check := (descCrc x.desc y.bytes).2, flags := 0, inDone := 64, outDone := 64, toll := x.toll - 128 }) ∧
  (∀ (e : Fin 8) (k : Fin 256) (x : Job) (l : LineAddr) (c la : Nat) (s : State), s.jobRuns e k 0x02 x → s.bareIo → descNat x.desc 24 8 = l.toNat * 64 → descNat x.desc 32 8 = 64 →
    s.lineDst (.phlox e) l c la →
    ∃ t, exec (.fill e k) s = .next t ∧ t.job (e * 256 + k) = some { x with started := true, status := some 0, key := none, outDone := 64, toll := x.toll - 64 } ∧
      t.dram = s.dram.upd (dramKey c la) (some (s.wrote l (BitVec.ofNat 512 (natLE ((List.range 64).map fun i => (bytesLE 8 (descNat x.desc 64 8)).getD (i % 8) 0)))))) ∧
  (∀ (e : Fin 8) (k : Fin 256) (x : Job) (l : LineAddr) (c la : Nat) (y : DLine) (s : State), s.jobRuns e k 0x03 x → s.bareIo → descNat x.desc 8 8 = l.toNat * 64 → descNat x.desc 16 8 = 64 →
    descNat x.desc 2 1 % 4 < 2 → s.lineSrc (.phlox e) l c la y →
    ∃ t, exec (.crc e k) s = .next t ∧ t.dram = s.dram ∧
      t.job (e * 256 + k) = some { x with started := true, status := some 0, key := none, aux := (descCrc x.desc y.bytes).1, check := (descCrc x.desc y.bytes).2, flags := 0, inDone := 64, outDone := 0, toll := x.toll - 64 })

/-- R273 to R277, R284 to R287: a whole stream is compressed or decompressed; a cipher job stages its output, which is released as a whole, and a
wrong tag releases nothing. -/
def Obligations.CodecsAndCiphersComplete : Prop :=
  (∀ (e : Fin 8) (k : Fin 256) (x : Job) (l l' : LineAddr) (c la c' la' c'' la'' m : Nat) (y : DLine) (s : State), s.jobRuns e k 0x10 x → s.bareIo → s.noSources →
    x.spans l 64 l' m → 128 ≤ m → dFlag x.desc 2 = true → dFlag x.desc 3 = true → descNat x.desc 64 1 ≤ 3 → l' ≠ BitVec.allOnes 46 →
    s.lineSrc (.phlox e) l c la y → s.lineDst (.phlox e) l' c' la' → s.lineDst (.phlox e) (l' + 1) c'' la'' →
    let out := (compress (descNat x.desc 64 1) (descNat x.desc 65 1) (descNat x.desc 66 1) none true y.bytes).1
    ∃ t, exec (.compress e k) s = .next t ∧
      t.job (e * 256 + k) = some { x with started := true, status := some 0, key := none, ssb := [], check := formatCheck (descNat x.desc 64 1) none y.bytes, flags := 0, inDone := 64, outDone := out.length, toll := x.toll - (64 + out.length) }) ∧
  (∀ (e : Fin 8) (k : Fin 256) (x : Job) (l l' : LineAddr) (c la c' la' m : Nat) (y : DLine) (s : State), s.jobRuns e k 0x11 x → s.bareIo → s.noSources →
    x.spans l 64 l' m → dFlag x.desc 2 = true → dFlag x.desc 3 = true → s.lineSrc (.phlox e) l c la y → s.lineDst (.phlox e) l' c' la' →
    (decompress (descNat x.desc 64 1) (descNat x.desc 66 1) none true y.bytes).status = 0 →
    (decompress (descNat x.desc 64 1) (descNat x.desc 66 1) none true y.bytes).out.length ≤ min m 64 →
    let z := decompress (descNat x.desc 64 1) (descNat x.desc 66 1) none true y.bytes
    ∃ t, exec (.decompress e k) s = .next t ∧
      t.job (e * 256 + k) = some { x with started := true, status := some 0, key := none, ssb := [], check := formatCheck (descNat x.desc 64 1) none z.out, flags := if z.ended then 2 else 0, inDone := z.used, outDone := z.out.length, toll := x.toll - (z.used + z.out.length) }) ∧
  (∀ (e : Fin 8) (k : Fin 256) (x : Job) (l : LineAddr) (c la : Nat) (y : DLine) (key : KeySlot) (s : State), s.jobRuns e k 0x20 x → s.bareIo → x.key = some key →
    descNat x.desc 8 8 = l.toNat * 64 → descNat x.desc 16 8 = 64 → descNat x.desc 80 4 = 0 → s.lineSrc (.phlox e) l c la y →
    let iv := bytesLE 4 (descNat x.desc 68 4) ++ bytesBE 8 x.ctr
    let ct := gcmCtr (key.bytes 32) iv 2 y.bytes
    ∃ t, exec (.gcmEnc e k) s = .next t ∧ t.dram = s.dram ∧
      t.job (e * 256 + k) = some { x with started := true, staged := some ct, gtag := natLE (gcmTag (key.bytes 32) iv [] ct), toll := x.toll - 64 }) ∧
  (∀ (e : Fin 8) (k : Fin 256) (x : Job) (l : LineAddr) (c la : Nat) (y : DLine) (key : KeySlot) (s : State), s.jobRuns e k 0x21 x → s.bareIo → x.key = some key →
    descNat x.desc 8 8 = l.toNat * 64 → descNat x.desc 16 8 = 64 → descNat x.desc 80 4 = 0 → s.lineSrc (.phlox e) l c la y →
    let iv := bytesLE 12 (descNat x.desc 88 12)
    ∃ t, exec (.gcmDec e k) s = .next t ∧ t.dram = s.dram ∧
      t.job (e * 256 + k) = some (if natLE (gcmTag (key.bytes 32) iv [] y.bytes) = descNat x.desc 104 16
        then { x with started := true, staged := some (gcmCtr (key.bytes 32) iv 2 y.bytes), toll := x.toll - 64 }
        else { x with started := true, status := some 0x06, key := none, toll := x.toll - 64 })) ∧
  (∀ (e : Fin 8) (k : Fin 256) (x : Job) (l : LineAddr) (ys : List (Nat × Nat × DLine)) (key : KeySlot) (s : State), s.jobRuns e k 0x22 x → s.bareIo → x.key = some key →
    descNat x.desc 8 8 = l.toNat * 64 → descNat x.desc 16 8 = 512 → descNat x.desc 66 1 = 9 → l.toNat + 8 < 2 ^ 46 → ys.length = 8 →
    (∀ i < 8, ∀ y ∈ ys[i]?, s.lineSrc (.phlox e) (l + BitVec.ofNat 46 i) y.1 y.2.1 y.2.2) →
    ∃ t, exec (.xtsEnc e k) s = .next t ∧ t.dram = s.dram ∧
      t.job (e * 256 + k) = some { x with started := true, staged := some (xtsUnit true (key.bytes 64) (descNat x.desc 88 16) (ys.map fun y => y.2.2.bytes).flatten), toll := x.toll - 512 }) ∧
  (∀ (e : Fin 8) (k : Fin 256) (x : Job) (l : LineAddr) (ys : List (Nat × Nat × DLine)) (key : KeySlot) (s : State), s.jobRuns e k 0x23 x → s.bareIo → x.key = some key →
    descNat x.desc 8 8 = l.toNat * 64 → descNat x.desc 16 8 = 512 → descNat x.desc 66 1 = 9 → l.toNat + 8 < 2 ^ 46 → ys.length = 8 →
    (∀ i < 8, ∀ y ∈ ys[i]?, s.lineSrc (.phlox e) (l + BitVec.ofNat 46 i) y.1 y.2.1 y.2.2) →
    ∃ t, exec (.xtsDec e k) s = .next t ∧ t.dram = s.dram ∧
      t.job (e * 256 + k) = some { x with started := true, staged := some (xtsUnit false (key.bytes 64) (descNat x.desc 88 16) (ys.map fun y => y.2.2.bytes).flatten), toll := x.toll - 512 }) ∧
  (∀ (e : Fin 8) (k : Fin 256) (x : Job) (out : List Byte) (l : LineAddr) (c la : Nat) (s : State), s.still → s.bareIo → s.job (e * 256 + k) = some x → x.staged = some out →
    out.length = 64 → x.status = none → x.aborted = false → s.pins.fatal = false → x.f < 256 → descNat x.desc 24 8 = l.toNat * 64 → s.lineDst (.phlox e) l c la →
    ∃ t, exec (.cipherReleaseStart e k) s = .next t ∧ t.dram = s.dram.upd (dramKey c la) (some (s.wrote l (BitVec.ofNat 512 (natLE out)))) ∧
      t.job (e * 256 + k) = some { x with released := true, status := some 0, key := none, staged := none, inDone := descNat x.desc 16 8, outDone := 64, toll := x.toll - 64 })

/-- R255, R257, R294 to R297, R303: queues are enabled, bound, moved and unbound; a share is written; a reset of a function ends its jobs and
gives its registers their reset values. -/
def Obligations.QueuesComplete : Prop :=
  (∀ (q : Requester) (f : Fin 256) (j : Fin 32) (v : Word) (s : State), s.still → s.writer q → (Run.start s).pageOpen f = true → s.fld (Q_CFG_BOUND f j) = 1 →
    Word.bits v 4 0 = s.fld (Q_CFG_LOG2N f j) → 6 ≤ Word.bits v 4 0 → Word.bits v 4 0 ≤ 16 →
    ∃ t, exec (.queueEnable q f j v) s = .next t ∧ t.fld (Q_CFG_EN f j) = 1 ∧ t.fld (Q_CFG_LOG2N f j) = s.fld (Q_CFG_LOG2N f j) ∧ t.fld (Q_CFG_BOUND f j) = 1 ∧
      t.reg (Q_TAIL f j) = s.reg (Q_TAIL f j) ∧ t.reg (Q_QSTAT f j) = s.reg (Q_QSTAT f j)) ∧
  (∀ (q : Requester) (f : Fin 256) (j : Fin 32) (v : Word) (s : State), s.still → s.writer q → (Run.start s).pageOpen f = true →
    Word.bits v 4 0 = s.fld (Q_CFG_LOG2N f j) → 6 ≤ Word.bits v 4 0 → Word.bits v 4 0 ≤ 16 →
    ∃ t, exec (.queueDisable q f j v) s = .next t ∧ t.fld (Q_CFG_EN f j) = 0 ∧ t.fld (Q_CFG_LOG2N f j) = s.fld (Q_CFG_LOG2N f j) ∧
      t.reg (Q_TAIL f j) = s.reg (Q_TAIL f j) ∧ t.reg (Q_QSTAT f j) = s.reg (Q_QSTAT f j) ∧ t.jobs = s.jobs) ∧
  (∀ (q : Requester) (qi : Fin 1024) (f : Fin 256) (j : Fin 32) (e : Fin 8) (s : State), s.still → s.writer q → s.fld (PHLOX_QBIND_VALID qi) = 0 →
    ((Run.start s).fnSecure f && (Run.start s).normal q) = false → (Run.start s).bindCause qi f j e = none → s.fld FOX_CFGLOCK_LOCK = 1 → s.fld (DOM_STAT_STATE (domEngine e)) = 0 →
    ∃ t, exec (.queueBind q qi .full (BitVec.ofNat 64 (2 ^ 63 + e * 2 ^ 16 + j * 2 ^ 8 + f))) s = .next t ∧ (Run.start t).queueOf qi = some (f.val, j.val) ∧
      t.fld (PHLOX_QBIND_ENG qi) = e ∧ t.fld (PHLOX_QBIND_MOVING qi) = 0 ∧ t.fld (Q_CFG_BOUND f j) = 1 ∧ t.fld (Q_CFG_ENG f j) = e ∧ t.fld (Q_CFG_EN f j) = 0 ∧
      t.fetched_ qi = none) ∧
  (∀ (q : Requester) (qi : Fin 1024) (f : Fin 256) (j : Fin 32) (s : State), s.still → s.writer q → (Run.start s).queueOf qi = some (f.val, j.val) →
    ((Run.start s).fnSecure f && (Run.start s).normal q) = false → s.fld (FN_RESET_BUSY f) = 0 → (Run.start s).queueIdle f j = true →
    ∃ t, exec (.queueUnbind q qi .full 0) s = .next t ∧ (Run.start t).queueOf qi = none ∧ t.fld (Q_CFG_BOUND f j) = 0 ∧ t.fld (Q_CFG_EN f j) = 0 ∧ t.fetched_ qi = none) ∧
  (∀ (q : Requester) (qi : Fin 1024) (f : Fin 256) (j : Fin 32) (e : Fin 8) (s : State), s.still → s.writer q → (Run.start s).queueOf qi = some (f.val, j.val) →
    ((Run.start s).fnSecure f && (Run.start s).normal q) = false → s.fld (FN_RESET_BUSY f) = 0 → e ≠ s.fld (PHLOX_QBIND_ENG qi) → e ≠ s.fld (Q_CFG_ENG f j) →
    (Run.start s).reserved e f none true ≤ 256 → s.fld (DOM_STAT_STATE (domEngine e)) = 0 →
    ∃ t, exec (.queueMove q qi .full (BitVec.ofNat 64 (2 ^ 63 + e * 2 ^ 16 + j * 2 ^ 8 + f))) s = .next t ∧ t.fld (PHLOX_QBIND_ENG qi) = e ∧
      t.fld (PHLOX_QBIND_MOVING qi) = 1 ∧ t.reg (Q_CFG f j) = s.reg (Q_CFG f j) ∧ t.jobs = s.jobs) ∧
  (∀ (qi : Fin 1024) (f : Fin 256) (j : Fin 32) (s : State), s.still → (Run.start s).queueOf qi = some (f.val, j.val) → s.fld (PHLOX_QBIND_MOVING qi) = 1 →
    s.fld (Q_QSTAT_INFLIGHT f j) = 0 → s.fetched_ qi = none →
    ∃ t, exec (.queueMoveDone qi) s = .next t ∧ t.fld (PHLOX_QBIND_MOVING qi) = 0 ∧ t.fld (Q_CFG_ENG f j) = s.fld (PHLOX_QBIND_ENG qi)) ∧
  (∀ (q : Requester) (f : Fin 256) (v : Word) (s : State), s.still → s.writer q → ((Run.start s).fnSecure f && (Run.start s).normal q) = false → Word.bits v 47 40 ≠ 0 →
    Word.bits v 36 32 ≤ 16 → Word.bits v 24 16 ≤ 256 → Word.bits v 8 0 ≤ Word.bits v 24 16 →
    ((List.range 8).any fun e => (Run.start s).fnOn f e && decide (256 < (Run.start s).reserved e f (some (Word.bits v 8 0)) false)) = false →
    ∃ t, exec (.shareWrite q f .full v) s = .next t ∧ t.reg (FN_SHARE f) = v &&& (FN_SHARE f).mask ∧ t.jobs = s.jobs) ∧
  (∀ (q : Requester) (f : Fin 256) (s : State), s.still → s.canon = true → f ≠ 0 → ((Run.start s).fnSecure f && (Run.start s).normal q) = false → s.fld (FN_RESET_BUSY f) = 0 →
    (∀ x ∈ s.jobs, x.1 < 2048 ∧ x.2.j < 32) →
    ∃ t, exec (.functionReset q f false) s = .next t ∧ t.fld (FN_RESET_BUSY f) = 1 ∧ (∀ j < 32, t.fld (Q_CFG_EN f j) = 0) ∧
      ∀ x ∈ s.jobs, x.2.f = f → t.job x.1 = (if x.2.started then some { x.2 with aborted := true } else none)) ∧
  (∀ (f : Fin 256) (s : State), s.still → f ≠ 0 → s.fld (FN_RESET_BUSY f) = 1 → s.fld (FN_RESET_BUSY 0) = 0 → s.pins.fatal = false → (∀ x ∈ s.jobs, x.2.f ≠ f) →
    ∃ t, exec (.functionResetDone f) s = .next t ∧ t.fld (FN_RESET_BUSY f) = 0 ∧ t.fld (FN_RESET_ST f) = stOk ∧ (∀ k < 512, t.msixWord (f * 512 + k) = 0) ∧
      ∀ j < 32, t.fld (Q_CFG_EN f j) = 0 ∧ t.fld (Q_TAIL_TAIL f j) = 0 ∧ t.fld (Q_QSTAT_HEAD f j) = 0 ∧ t.fld (Q_CFG_BOUND f j) = s.fld (Q_CFG_BOUND f j))


/-! ### Link groups -/

/-- R307 to R310, R518: a configuration is taken or refused as a whole, and its ports train, come up and go down. -/
def Obligations.GroupsComplete : Prop :=
  (∀ (q : Requester) (g : Fin 32) (v : Word) (s : State), s.still → s.writer q → s.fld FOX_CFGLOCK_LOCK = 0 → ((Run.start s).groupSecure g && (Run.start s).normal q) = false →
    s.fld (G_CFG_EN g) = 0 → v.getLsbD 63 = true → Word.bits v 62 60 ≠ 0 → (Run.start s).gCfgOk g (v &&& (G_CFG g).mask) = true →
    s.fld (DOM_STAT_STATE (domGroup g)) = 3 → s.fld (DOM_STAT_HOLD (domGroup g)) = 0 →
    ∃ t, exec (.gCfgWrite q g .full v) s = .next t ∧ t.reg (G_CFG g) = v &&& (G_CFG g).mask ∧ t.fld (G_STAT_STATE g) = 1 ∧ t.fld (DOM_STAT_STATE (domGroup g)) = 1 ∧
      t.fld (G_STAT_CFG_REJECT g) = s.fld (G_STAT_CFG_REJECT g)) ∧
  (∀ (q : Requester) (g : Fin 32) (v : Word) (s : State), s.still → s.writer q → s.fld FOX_CFGLOCK_LOCK = 0 → ((Run.start s).groupSecure g && (Run.start s).normal q) = false →
    v &&& (G_CFG g).mask ≠ s.reg (G_CFG g) → (Run.start s).gCfgOk g (v &&& (G_CFG g).mask) = false →
    ∃ t, exec (.gCfgWrite q g .full v) s = .next t ∧ t.reg (G_CFG g) = s.reg (G_CFG g) ∧ t.fld (G_STAT_CFG_REJECT g) = 1 ∧ t.fld (G_STAT_STATE g) = s.fld (G_STAT_STATE g)) ∧
  (∀ (g : Fin 32) (port : Fin 8) (rate : Fin 7) (width : Fin 17) (s : State), s.still → s.noSources → s.pins.fatal = false → s.fld (G_CFG_EN g) = 1 → width ≠ 0 →
    s.fld (DOM_STAT_STATE (domGroup g)) = 0 → s.pins.perst.getLsbD g = false → (s.fld (G_CFG_PERS g) = 1 ∨ s.fld (G_CFG_PERS g) = 2) →
    portLanes ((Run.start s).portWidth g port) ≠ 0 → width.val ≤ portLanes ((Run.start s).portWidth g port) → rate.val ≤ s.fld (G_CFG_MAXGEN g) →
    ∃ t, exec (.portTrained g port rate width) s = .next t ∧ natBit (t.fld (G_STAT_PORTUP g)) port = true ∧ t.fld (G_STAT_STATE g) = 4 ∧
      (port = 0 → t.fld (G_STAT_RATE g) = rate ∧ t.fld (G_STAT_WIDTH g) = width)) ∧
  (∀ (g : Fin 32) (s : State), s.still → s.fld (G_CFG_EN g) = 1 →
    ∃ t, exec (.perstDeassert g) s = .next t ∧ t.pins = { s.pins with perst := s.pins.perst &&& ~~~ (1#32 <<< g.val) } ∧ t.regs = s.regs) ∧
  (∀ (g : Fin 32) (port : Fin 8) (s : State), s.still → (Run.start s).portUp g port = true →
    ∃ t, exec (.groupWake g port) s = .next t ∧ t.reg (G_STAT g) = s.reg (G_STAT g) ∧ t.groups = s.groups ∧ t.net = s.net) ∧
  (∀ (g : Fin 32) (port : Fin 8) (s : State), s.still → s.noSources → (Run.start s).portUp g port = true → (s.grp g).outs = [] → (s.grp g).intx = 0 →
    ∃ t, exec (.portLinkDown g port) s = .next t ∧ natBit (t.fld (G_STAT_PORTUP g)) port = false ∧
      t.fld (G_STAT_STATE g) = (if s.fld (G_STAT_PORTUP g) = 2 ^ port.val then 1 else s.fld (G_STAT_STATE g))) ∧
  (∀ (g : Fin 32) (port : Fin 8) (s : State), s.still → (Run.start s).portUp g port = true → s.fld TBASE_STAT_REFOK = 1 →
    ∃ t, exec (.ptmRequest g port) s = .next t ∧ t.out = .ptm g port (s.fld TBASE_COUNT_COUNT * 10 % 2 ^ 64) :: s.out ∧ t.regs = s.regs)

/-- R313 to R318, R337 to R341: what a device asks for becomes messages to the homes, interrupts, or the end of an outbound request. -/
def Obligations.DevicesComplete : Prop :=
  (∀ (x : IoReq) (tag : BitVec 14) (l : LineAddr) (s : State), s.inPlain x → x.addr.toNat = l.toNat * 64 → regionOf (l.toNat * 64) = .memory →
    (Run.start s).ertOf (l.toNat * 64) = none →
    ∃ t, exec (.inboundMemoryRead x 64 tag) s = .next t ∧ t.net = s.net ++ [{ kind := .rdOnce, src := .group x.g, dst := homeOf l, line := l }] ∧
      (t.grp x.g).held = [{ rid := x.rid.toNat, deps := [], sent := true, port := x.port, act := .read tag.toNat (l.toNat * 64) 64 [l] [] }] ∧ t.out = s.out) ∧
  (∀ (x : IoReq) (data : LineData) (ep : Bool) (l : LineAddr) (s : State), s.inPlain x → (Run.start s).inRoom x.g x.port 0 64 = true →
    x.addr.toNat = l.toNat * 64 → regionOf (l.toNat * 64) = .memory → (Run.start s).ertOf (l.toNat * 64) = none →
    ∃ t, exec (.inboundMemoryWrite x 64 (2 ^ 64 - 1) data.toNat ep none) s = .next t ∧
      t.net = s.net ++ [{ kind := .wrLine, src := .group x.g, dst := homeOf l, line := l, data := data, poison := ep, mask := BitVec.allOnes 64 }] ∧
      (x.port.val, (s.grp x.g).seq, (s.grp x.g).seq + 1, 64) ∈ (t.grp x.g).buf ∧
      { t.grp x.g with buf := [] } = { s.grp x.g with buf := [], seq := (s.grp x.g).seq + 1, asked := (s.grp x.g).asked ++ [((s.grp x.g).seq, l)], posted := (s.grp x.g).posted ++ [((s.grp x.g).seq, x.rid.toNat, l)] }) ∧
  (∀ (x : IoReq) (a b : BitVec 128) (tag : BitVec 14) (l : LineAddr) (s : State), s.inPlain x → x.addr.toNat = l.toNat * 64 + 8 → regionOf (l.toNat * 64 + 8) = .memory →
    (Run.start s).ertOf (l.toNat * 64 + 8) = none →
    let m : Msg := { kind := .atomH, src := .group x.g, dst := homeOf l, line := l, atom := some { op := .add, lg := 3, off := 8, a := a, b := b, recalled := none } }
    ∃ t, exec (.inboundAtomicop x .add 3 a b tag) s = .next t ∧ t.net = s.net ++ [m] ∧
      (t.grp x.g).held = [{ rid := x.rid.toNat, deps := [], sent := true, port := x.port, act := .atom tag.toNat m }]) ∧
  (∀ (x : IoReq) (h : Fin 1024) (f : Fin 6) (n : BitVec 11) (s : State), s.inPlain x → (Run.start s).inRoom x.g x.port 0 0 = true → x.addr = BitVec.ofNat 64 (0xFFF0000000000 + filePage h f) → s.undisturbed h →
    s.online (dieOf (tileOf h)) = true → n ≠ 0 → (Run.start s).idReserved n.toNat = false →
    ∃ t, exec (.inboundMsi x (BitVec.ofNat 32 n.toNat)) s = .next t ∧
      t.file (h * 8 + f) = { s.file (h * 8 + f) with pend := (s.file (h * 8 + f)).pend ||| (1#2048 <<< n.toNat) } ∧ t.harts = s.harts ∧ t.net = s.net) ∧
  (∀ (g : Fin 32) (port : Fin 8) (rid : BitVec 16) (n : Fin 4) (s : State), s.still → s.noSources → (Run.start s).portUp g port = true → (s.grp g).held = [] →
    (∀ p ∈ (s.grp g).posted, p.2.1 ≠ rid.toNat) →
    ∃ t, exec (.assertIntx g port rid n) s = .next t ∧ natBit (t.grp g).intx (port * 4 + n) = true ∧
      (t.aplicDom 0).level.getLsbD (g * 4 + (n + port : Nat) % 4 + 1) = true) ∧
  (∀ (g : Fin 32) (port : Fin 8) (n : Fin 4) (s : State), s.still → s.noSources → (Run.start s).portUp g port = true → (s.grp g).held = [] →
    (s.grp g).intx = 2 ^ (port * 4 + n : Nat) →
    ∃ t, exec (.deassertIntx g port n) s = .next t ∧ (t.grp g).intx = 0 ∧ (t.aplicDom 0).level.getLsbD (g * 4 + (n + port : Nat) % 4 + 1) = false) ∧
  (∀ (g : Fin 32) (o : OutReq) (b tag data : Nat) (ep : Bool) (s : State), s.still → (s.grp g).outs = [o] → o.back = some (b, tag) →
    ∃ t, exec (.pcieCompletion g o.tag true ep data) s = .next t ∧ (t.grp g).outs = [] ∧ t.out = .completion b tag true ep data :: s.out ∧ t.harts = s.harts) ∧
  (∀ (g : Fin 32) (o : OutReq) (h : Fin 1024) (rd : Fin 32) (uns : Bool) (a : Acc) (data : Nat) (s : State), s.still → s.undisturbed h → (s.grp g).outs = [o] → o.back = none →
    o.h = some h.val → (s.hart h).wait = some (.device a) → a.op = .load (.x rd) uns → a.lg < 4 → rd ≠ 0 →
    ∃ t, exec (.pcieCompletion g o.tag true false data) s = .next t ∧ (t.grp g).outs = [] ∧ t.hart h = Hart.told { s.hart h with pc := (s.hart h).pc + 4, wait := none } 2 ∧
      (Run.start t).xr h rd = extend (BitVec.ofNat 128 (data % 256 ^ 2 ^ a.lg)) a.lg uns) ∧
  (∀ (g : Fin 32) (o : OutReq) (b tag : Nat) (s : State), s.still → s.noSources → (s.grp g).outs = [o] → o.back = some (b, tag) → s.freeSlot (.grp g) 1 →
    ∃ t, exec (.completionTimeout g o.tag) s = .next t ∧ (t.grp g).outs = [] ∧ t.out = .completion b tag false false 0 :: s.out ∧ t.recorded (.grp g) 1 0x0702)

/-- R336 (RISC-V IOMMU 1.0): a translation request is answered with the translation, and a page request enters its queue. -/
def Obligations.AtsComplete : Prop :=
  (∀ (x : IoReq) (noWrite w : Bool) (pa : Nat) (s : State), s.still → s.pins.fatal = false → x.stream = none → (Run.start s).portUp x.g x.port = true →
    (s.grp x.g).held = [] →
    let r := (Run.start s).accessing (.inbound x.g x.rid.toNat x.addr.toNat) .iommu
    (r.ioTrans { ioAcc x false with ttyp := 8 }).1.1 = r.1 → (r.ioTrans { ioAcc x false with ttyp := 8 }).2.toOption = some (pa, w) →
    ∃ t, exec (.atsTranslationRequest x noWrite) s = .next t ∧ t.out = .ats x.g 0 pa true (w && !noWrite) :: s.out ∧ t.iommu = s.iommu) ∧
  (∀ (x : IoReq) (rd wr last : Bool) (prgi : BitVec 9) (dc : List Word) (c la : Nat) (s : State), s.still → s.noSources → s.pins.fatal = false → x.stream = none →
    (Run.start s).portUp x.g x.port = true → (Run.start s).inRoom x.g x.port 0 0 = true → (Run.start s).io32 0x10 % 16 = 4 →
    s.iommu.ddc.find? (·.1 = x.g * 65536 + x.rid.toNat) = some (x.g * 65536 + x.rid.toNat, dc) → (cw dc 0).getLsbD 2 = true → (Run.start s).ioBit 0x50 16 = true → (Run.start s).ioBit 0x50 8 = false →
    (Run.start s).ioBit 0x50 9 = false → (Run.start s).ioBit 0x50 1 = false →
    ((Run.start s).io32 0x44 + 1) % (Run.start s).ioSize 0x38 ≠ (Run.start s).io32 0x40 →
    (Run.start s).ioReach ((Run.start s).ioBase 0x38 + (Run.start s).io32 0x44 * 16) = true →
    s.lineDst .iommu (BitVec.ofNat 46 (((Run.start s).ioBase 0x38 + (Run.start s).io32 0x44 * 16) / 64)) c la →
    ∃ t, exec (.pageRequest x rd wr last prgi) s = .next t ∧ (Run.start t).io32 0x44 = ((Run.start s).io32 0x44 + 1) % (Run.start s).ioSize 0x38 ∧ t.out = s.out)

/-- R326, R327: what a CXL.cache device asks for becomes a message to the home of the line; the answer of CXL.mem reaches the home. -/
def Obligations.CxlComplete : Prop :=
  (∀ (g : Fin 32) (rid : BitVec 16) (l : LineAddr) (s : State), s.cxlReady g rid l false →
    ∀ p ∈ [(Instr.rdshared g rid l, MsgKind.rdS), (.rdcurr g rid l, .rdOnce), (.cleanevict g rid l, .evC)],
      ∃ t, exec p.1 s = .next t ∧ t.net = [{ kind := p.2, src := .cxl g, dst := homeOf l, line := l }] ∧ t.harts = s.harts) ∧
  (∀ (g : Fin 32) (rid : BitVec 16) (l : LineAddr) (s : State), s.cxlReady g rid l true →
    ∀ p ∈ [(Instr.rdown g rid l, MsgKind.rdX), (.rdownnodata g rid l, .claim)],
      ∃ t, exec p.1 s = .next t ∧ t.net = [{ kind := p.2, src := .cxl g, dst := homeOf l, line := l }] ∧ t.harts = s.harts) ∧
  (∀ (g : Fin 32) (rid : BitVec 16) (l : LineAddr) (data : LineData) (poison : Bool) (s : State), s.cxlReady g rid l true →
    ∀ c ∈ [Instr.itomwr g rid l data poison, .wrcur g rid l data poison],
      ∃ t, exec c s = .next t ∧ t.harts = s.harts ∧
        t.net = [{ kind := .wrLine, src := .cxl g, dst := homeOf l, line := l, data := data, poison := poison, mask := BitVec.allOnes 64 }]) ∧
  (∀ (g : Fin 32) (rid : BitVec 16) (l : LineAddr) (data : LineData) (poison : Bool) (s : State), s.cxlReady g rid l true →
    ∃ t, exec (.dirtyevict g rid l data poison) s = .next t ∧ t.harts = s.harts ∧
      t.net = [{ kind := .evM, src := .cxl g, dst := homeOf l, line := l, data := data, poison := poison, st := .M }]) ∧
  (∀ (g : Fin 32) (l : LineAddr) (h : Fin 1024) (m : Msg) (q : HReq) (data : LineData) (dir : Fin 4) (s : State), s.still → s.net = [m] → m.dst = .cxl g → m.kind = .mWr → m.line = l →
    s.fld (G_STAT_PORTUP g) ≠ 0 → s.pins.fatal = false → s.queue l.toNat = [q] → q.phase = .waitMAck → q.to_ = .cxl g → q.own = false →
    l ∉ (s.slice (quadOf l)).loose → q.msg.kind = .wrLine → q.msg.src = .hart h → q.msg.line = l →
    s.online (dieOf (tileOf h)) = true →
    ∃ t, exec (.cxlMemResponse g l true true data false dir) s = .next t ∧ t.queue l.toNat = [] ∧ t.net = [{ kind := .done, src := homeOf l, dst := .hart h, line := l }])

/-- R328 to R334, R472: a socket link joins when both ends agree, takes its flits, narrows when lanes fail, and raises FATAL when it is lost or
its peer notifies one. -/
def Obligations.SocketsComplete : Prop :=
  (∀ (g : Fin 32) (diren keyOk : Bool) (s : State), s.sockAt g 2 → s.fld (G_CFG_ENC g) = 0 →
    ∃ t, exec (.socketLinkJoin g (Fin.ofNat 4 (s.fld (G_CFG_PEER g))) (Fin.ofNat 4 (s.fld SOCK_CFG_ID)) (s.reg ID_BASELINE) false diren keyOk) s = .next t ∧
      t.fld (G_STAT_STATE g) = (if diren = true ∧ s.fld HOME_CFG_DIREN = 1 then (if s.fld (G_STAT_WIDTH g) < 16 then 5 else 4) else 3) ∧
      (t.grp g).peerDir = diren ∧ t.keys = s.keys) ∧
  (∀ (g : Fin 32) (id peer : Fin 4) (baseline : Word) (enc diren keyOk : Bool) (s : State), s.sockAt g 2 →
    (s.fld (G_CFG_PEER g) ≠ id ∨ s.fld SOCK_CFG_ID ≠ peer ∨ s.reg ID_BASELINE ≠ baseline ∨ (enc = true ↔ s.fld (G_CFG_ENC g) = 0)) →
    ∃ t, exec (.socketLinkJoin g id peer baseline enc diren keyOk) s = .next t ∧ t.fld (G_STAT_STATE g) = 6 ∧ t.groups = s.groups) ∧
  (∀ (g : Fin 32) (s : State), s.still → s.fld (G_STAT_STATE g) = 6 →
    ∃ t, exec (.socketJoinRetry g) s = .next t ∧ t.fld (G_STAT_STATE g) = 2 ∧ t.groups = s.groups) ∧
  (∀ (g : Fin 32) (auth : Bool) (s : State), s.sockAt g 4 → s.fld (G_CFG_ENC g) = 0 → s.fld (G_STAT_WIDTH g) ≤ 16 →
    ∃ t, exec (.socketLinkFlit g true auth 16) s = .next t ∧ t.grp g = { s.grp g with fails := 0 } ∧ t.reg (G_STAT g) = s.reg (G_STAT g)) ∧
  (∀ (g : Fin 32) (auth : Bool) (lanes : Fin 17) (s : State), s.sockAt g 4 → s.fld (G_CFG_ENC g) = 0 → s.fld (G_STAT_WIDTH g) = 16 → 8 ≤ lanes.val → lanes.val < 16 →
    ∃ t, exec (.socketLinkFlit g true auth lanes) s = .next t ∧ t.fld (G_STAT_WIDTH g) = 8 ∧ t.fld (G_STAT_STATE g) = 5) ∧
  (∀ (g : Fin 32) (s : State), s.sockAt g 4 → s.fld ERR_FATAL_V = 0 →
    ∃ t, exec (.socketLinkRetrainTimeout g) s = .next t ∧ t.fld (G_STAT_STATE g) = 7 ∧ t.pins.fatal = true ∧ t.fld ERR_FATAL_EVENT = 0x0705 ∧ t.fld ERR_FATAL_COLD = 1) ∧
  (∀ (g : Fin 32) (p : Fin 4) (s : State), s.sockAt g 4 → s.fld (G_CFG_PEER g) = p → s.fld ERR_FATAL_V = 0 →
    ∃ t, exec (.peerFatalNotice p) s = .next t ∧ t.pins.fatal = true ∧ t.fld ERR_FATAL_V = 1 ∧ t.fld ERR_FATAL_EVENT = 0x0706)


/-! ### Foxglove -/

/-- R349, R353, R354, R359: the commands on key slots. -/
def Obligations.KeyCommandsComplete : Prop :=
  (∀ (w : Fin 3) (q : Requester) (l : LineAddr) (x : DLine) (c la c' la' id : Nat) (s : State), s.command w q l x c la c' la' → s.slotReady (cmdOf w q l x) 1 id →
    (cmdOf w q l x).at 3 1 = 0 →
    ∃ t, exec (.query w) s = .next t ∧ s.answered t w l c' la' 0 (some id) ∧ t.keys = s.keys) ∧
  (∀ (w : Fin 3) (q : Requester) (l b : LineAddr) (x y : DLine) (c la c' la' c'' la'' id : Nat) (s : State), s.command w q l x c la c' la' → s.slotReady (cmdOf w q l x) 2 id →
    (cmdOf w q l x).limOk id → (cmdOf w q l x).at 16 8 = b.toNat * 64 → w ≠ 1 → s.lineSrc .fox b c'' la'' y →
    (Run.start s).keyOk id ((cmdOf w q l x).at 2 1) (slotLim (slotBank id) ((cmdOf w q l x).at 3 1)) ((cmdOf w q l x).at 8 8) = true → halvesDiffer ((cmdOf w q l x).at 2 1) y.data.toNat = true →
    ∃ t, exec (.keyLoad w) s = .next t ∧ s.answered t w l c' la' 0 (some id) ∧
      t.key id = (s.key id).loadedWith ((cmdOf w q l x).at 2 1) (slotLim (slotBank id) ((cmdOf w q l x).at 3 1)) ((cmdOf w q l x).at 8 8)
        (if (cmdOf w q l x).at 2 1 = 1 then y.data &&& BitVec.ofNat 512 (2 ^ 256 - 1) else y.data)) ∧
  (∀ (w : Fin 3) (q : Requester) (l : LineAddr) (x : DLine) (c la c' la' id : Nat) (s : State), s.command w q l x c la c' la' → s.slotReady (cmdOf w q l x) 3 id →
    (cmdOf w q l x).limOk id → (Run.start s).keyOk id ((cmdOf w q l x).at 2 1) (slotLim (slotBank id) ((cmdOf w q l x).at 3 1)) ((cmdOf w q l x).at 8 8) = true →
    ∃ t, exec (.keyGen w) s = .next t ∧ s.answered t w l c' la' 0 (some id) ∧
      t.key id = (s.key id).loadedWith ((cmdOf w q l x).at 2 1) (slotLim (slotBank id) ((cmdOf w q l x).at 3 1)) ((cmdOf w q l x).at 8 8)
        (if (cmdOf w q l x).at 2 1 = 1 then Config.freeValue s.fox.draw &&& BitVec.ofNat 512 (2 ^ 256 - 1) else Config.freeValue s.fox.draw)) ∧
  (∀ (w : Fin 3) (q : Requester) (l : LineAddr) (x : DLine) (c la c' la' id : Nat) (s : State), s.command w q l x c la c' la' → s.slotReady (cmdOf w q l x) 4 id →
    (cmdOf w q l x).at 3 1 = 0 →
    ∃ t, exec (.keyErase w) s = .next t ∧ s.answered t w l c' la' 0 (some id) ∧ t.key id = { gen := ((s.key id).gen + 1) % 2 ^ 32, owner := (s.key id).owner }) ∧
  (∀ (w : Fin 3) (q : Requester) (l b : LineAddr) (x : DLine) (c la c' la' c'' la'' k la3 id type lim : Nat) (iv : BitVec 96) (key : BitVec 512) (s : State),
    s.command w q l x c la c' la' → s.slotReady (cmdOf w q l x) 5 id → (cmdOf w q l x).at 3 1 = 0 → (cmdOf w q l x).at 16 8 = b.toNat * 64 → w ≠ 1 → b ≠ BitVec.allOnes 46 →
    (type = 1 ∨ type = 2) → (type = 1 → key.toNat < 2 ^ 256) → lim < 256 → (Run.start s).epoch < 32 → ((Run.start s).key id).owner ≠ 0xFFFF →
    s.lineSrc .fox b c'' la'' { data := BitVec.ofNat 512 (natLE ((sealBlob type lim (Run.start s).epoch 0 (bytesLE 12 iv.toNat) (bytesLE 64 key.toNat)).take 64)), dir := 1, key := (s.key 0).key, tweak := b.toNat } →
    s.lineSrc .fox (b + 1) k la3 { data := BitVec.ofNat 512 (natLE ((sealBlob type lim (Run.start s).epoch 0 (bytesLE 12 iv.toNat) (bytesLE 64 key.toNat)).drop 64)), dir := 1, key := (s.key 0).key, tweak := (b + 1).toNat } →
    (Run.start s).keyOk id type lim ((cmdOf w q l x).at 8 8) = true → halvesDiffer type key.toNat = true →
    ∃ t, exec (.unsealLoad w) s = .next t ∧ s.answered t w l c' la' 0 (some id) ∧ t.key id = (s.key id).loadedWith type lim ((cmdOf w q l x).at 8 8) key) ∧
  (∀ (w : Fin 3) (q : Requester) (l : LineAddr) (x : DLine) (c la c' la' id : Nat) (s : State), s.command w q l x c la c' la' → s.slotReady (cmdOf w q l x) 6 id →
    (cmdOf w q l x).at 3 1 = 0 → (s.key id).loaded = false →
    ((cmdOf w q l x).at 24 2 < 256 ∧ (Run.start s).fnSecure ((cmdOf w q l x).at 24 2) = decide (w = 1) ∨ (cmdOf w q l x).at 24 2 = 0xFFFF) →
    ∃ t, exec (.assign w) s = .next t ∧ s.answered t w l c' la' 0 (some id) ∧ t.key id = { s.key id with owner := (cmdOf w q l x).at 24 2 })

/-- R377 to R381, R414, R415: MEAS_EXTEND, and the commands of the secure monitor with their sweeps. -/
def Obligations.MonitorCommandsComplete : Prop :=
  (∀ (w : Fin 3) (q : Requester) (l b : LineAddr) (x y : DLine) (c la c' la' c'' la'' : Nat) (n : Fin 16) (s : State), s.command w q l x c la c' la' →
    (cmdOf w q l x).plain 0x20 → (cmdOf w q l x).at 1 3 = 0 → (cmdOf w q l x).at 4 1 = n → (cmdOf w q l x).at 5 11 = 0 → (cmdOf w q l x).at 24 8 = 0 → measOf w n = true →
    (cmdOf w q l x).at 16 8 = b.toNat * 64 → s.lineSrc .fox b c'' la'' y →
    ∃ t, exec (.measExtend w) s = .next t ∧ s.answered t w l c' la' 0 none ∧ (Run.start t).meas n = sha512 ((Run.start s).meas n ++ y.bytes) ∧
      ∀ k < 16, k ≠ n.val → (Run.start t).meas k = (Run.start s).meas k) ∧
  (∀ (q : Requester) (l : LineAddr) (x : DLine) (c la c' la' : Nat) (n : Fin 128) (base limit : Word) (s : State), s.command 1 q l x c la c' la' → (Run.start s).isMonitor q = true →
    (cmdOf 1 q l x).plain 0x10 → (cmdOf 1 q l x).at 2 2 = 0 → (cmdOf 1 q l x).at 24 2 = 0 → (cmdOf 1 q l x).at 4 4 = n → (cmdOf 1 q l x).at 8 8 = base.toNat →
    (cmdOf 1 q l x).at 16 8 = limit.toNat → (Run.start s).ertCheck n base limit = none → s.fld (ERT_BASE_EN n) = 0 →
    ∃ t, exec (.ertWrite 1) s = .next t ∧ t.reg (ERT_BASE n) = base &&& (ERT_BASE n).mask ∧ t.reg (ERT_LIMIT n) = limit &&& (ERT_LIMIT n).mask ∧ t.fox.cmds = s.fox.cmds ∧
      t.fox.sweep = some { w := 1, blk := l.toNat * 64, op := 0x10, drop := [], flush := if base.getLsbD 63 then [ertSpan base limit] else [] } ∧ t.dram = s.dram) ∧
  (∀ (q : Requester) (l : LineAddr) (x : DLine) (c la c' la' : Nat) (f : FoxSweep) (s : State),
    s.still → s.noSources → s.fox.cmds = [(1, l.toNat * 64, q)] → l ≠ BitVec.allOnes 46 → s.lineSrc .fox l c la x → s.lineDst .fox (l + 1) c' la' → (cmdOf 1 q l x).at 32 8 = 0 →
    s.sweeps f 0x10 → f.w = 1 → f.blk = l.toNat * 64 →
    ∃ t, exec .ertSweepDone s = .next t ∧ t.fox.sweep = none ∧ s.answered t 1 l c' la' 0 none ∧ t.keys = s.keys) ∧
  (∀ (q : Requester) (l : LineAddr) (x : DLine) (c la c' la' : Nat) (e : Nat) (s : State), s.command 1 q l x c la c' la' → (Run.start s).isMonitor q = true →
    (cmdOf 1 q l x).plain 0x11 → (cmdOf 1 q l x).at 4 4 = e → 1 ≤ e → e ≤ 64 → e ≠ s.fld SEC_CFG_MONEID → s.fld (ENC_STAT_STATE e) = 0 → (cmdOf 1 q l x).at 2 1 = 1 →
    (cmdOf 1 q l x).at 3 1 < 16 → (cmdOf 1 q l x).at 16 8 % 4096 = 0 → (cmdOf 1 q l x).at 16 8 < 2 ^ 52 → (cmdOf 1 q l x).at 8 8 % 4 = 0 →
    (∀ i < 16, i ≤ (cmdOf 1 q l x).at 3 1 → (Run.start s).enclaveOf ((cmdOf 1 q l x).at 16 8 + i * 4096) = e) →
    ∃ t, exec (.encSet 1) s = .next t ∧ s.answered t 1 l c' la' 0 none ∧ t.fld (ENC_STAT_STATE e) = 1 ∧ t.fld (ENC_STAT_NTHR e) = (cmdOf 1 q l x).at 3 1 ∧
      t.reg (ENC_ENTRY e) = BitVec.ofNat 64 ((cmdOf 1 q l x).at 8 8) &&& (ENC_ENTRY e).mask ∧ t.reg (ENC_TSB e) = BitVec.ofNat 64 ((cmdOf 1 q l x).at 16 8) &&& (ENC_TSB e).mask ∧
      t.key (keyId 0 e) = (s.key (keyId 0 e)).loadedWith 2 0 0 (Config.freeValue s.fox.draw)) ∧
  (∀ (q : Requester) (l : LineAddr) (x : DLine) (c la c' la' : Nat) (e : Nat) (s : State), s.command 1 q l x c la c' la' → (Run.start s).isMonitor q = true →
    (cmdOf 1 q l x).plain 0x11 → (cmdOf 1 q l x).at 4 4 = e → 1 ≤ e → e ≤ 64 → e ≠ s.fld SEC_CFG_MONEID → s.fld (ENC_STAT_STATE e) = 1 → (cmdOf 1 q l x).at 2 1 = 2 →
    ∃ t, exec (.encSet 1) s = .next t ∧ s.answered t 1 l c' la' 0 none ∧ t.fld (ENC_STAT_STATE e) = 2 ∧ t.keys = s.keys) ∧
  (∀ (q : Requester) (l : LineAddr) (x : DLine) (c la c' la' : Nat) (e : Nat) (s : State), s.command 1 q l x c la c' la' → (Run.start s).isMonitor q = true →
    (cmdOf 1 q l x).plain 0x11 → (cmdOf 1 q l x).at 4 4 = e → 1 ≤ e → e ≤ 64 → e ≠ s.fld SEC_CFG_MONEID → s.fld (ENC_STAT_STATE e) ≠ 0 → (cmdOf 1 q l x).at 2 1 = 0 →
    s.fld (ENC_STAT_TBUSY e) = 0 → s.fld (ENC_STAT_TSUSP e) = 0 →
    ∃ t, exec (.encSet 1) s = .next t ∧ t.fld (ENC_STAT_STATE e) = 0 ∧ (t.key (keyId 0 e)).loaded = false ∧ t.fox.cmds = s.fox.cmds ∧
      t.fox.sweep = some { w := 1, blk := l.toNat * 64, op := 0x11, drop := (Run.start s).encRanges e, flush := [] }) ∧
  (∀ (q : Requester) (l : LineAddr) (x : DLine) (c la c' la' : Nat) (f : FoxSweep) (s : State),
    s.still → s.noSources → s.fox.cmds = [(1, l.toNat * 64, q)] → l ≠ BitVec.allOnes 46 → s.lineSrc .fox l c la x → s.lineDst .fox (l + 1) c' la' → (cmdOf 1 q l x).at 32 8 = 0 →
    s.sweeps f 0x11 → f.w = 1 → f.blk = l.toNat * 64 →
    ∃ t, exec .enclaveFreeSweepDone s = .next t ∧ t.fox.sweep = none ∧ s.answered t 1 l c' la' 0 none ∧ t.keys = s.keys)

/-- R343, R345, R361, R362, R367 to R369, R395: the rekey queue, entropy, alarms and the watchdog. -/
def Obligations.AlarmsComplete : Prop :=
  (∀ (h : Fin 1024) (s : State), s.still → s.writer (.hart h) → (s.hart h).eid = 0 →
    ∃ t, exec (.rekeyqRead (.hart h)) s = .next t ∧ t.fox = { s.fox with rekey := s.fox.rekey.drop 1 } ∧
      t.fld FOX_REKEYQ_EMPTY = (if (s.fox.rekey.drop 1).isEmpty then 1 else 0) ∧ t.keys = s.keys) ∧
  (∀ (src : Fin 2) (s : State), s.still → s.noSources → s.fld (srcOk src) = 1 → s.fld (srcOk (1 - src.val)) = 1 → s.freeSlot .fox 1 →
    ∃ t, exec (.entropyHealthFailure src) s = .next t ∧ t.fld (srcOk src) = 0 ∧ t.fld (srcOk (1 - src.val)) = 1 ∧ t.recorded .fox 1 0x0900 ∧
      natBit (t.fld ALARM_STAT_SEEN) 5 = true ∧ t.fox = s.fox ∧ t.keys = s.keys) ∧
  (∀ (src : Fin 2) (s : State), s.still → s.noSources → s.canon = true → s.fld (srcOk src) = 1 → s.fld (srcOk (1 - src.val)) = 0 → s.fld ERR_FATAL_V = 0 →
    ∃ t, exec (.entropyHealthFailure src) s = .next t ∧ t.fld (srcOk src) = 0 ∧ natBit (t.fld ALARM_STAT_SEEN) 6 = true ∧ t.fox.stopped = true ∧ t.pins.fatal = true ∧
      ∀ e ∈ t.keys, e.2.loaded = false) ∧
  (∀ (src : Fin 2) (s : State), s.still →
    ∃ t, exec (.entropySourceReturn src) s = .next t ∧ t.fld (srcOk src) = 1 ∧ t.fld (srcOk (1 - src.val)) = s.fld (srcOk (1 - src.val)) ∧ t.keys = s.keys ∧ t.fox = s.fox) ∧
  (∀ (s : State), s.still → s.fld FOX_TRNG_STAT_DRBGOK = 1 →
    ∀ c ∈ [Instr.drbgReseed, .maskReseed, .meshPatternRenew], exec c s = .next { s with free := s.free + 1 }) ∧
  (∀ (src : Fin 8) (detail : BitVec 32) (s : State), s.still → s.noSources → src ≠ 0 → (Run.start s).classA src = false → s.freeSlot .fox 1 →
    ∃ t, exec (.alarm src detail) s = .next t ∧ t.recorded .fox 1 0x0900 ∧ natBit (t.fld ALARM_STAT_SEEN) (src - 1) = true ∧
      t.fld (ALARM_LOG_TICK_TICK (s.fld ALARM_STAT_NEXT)) = s.fld TBASE_COUNT_COUNT ∧ t.fld (ALARM_LOG_INFO_SOURCE (s.fld ALARM_STAT_NEXT)) = src ∧
      t.fld ALARM_STAT_NEXT = (s.fld ALARM_STAT_NEXT + 1) % 8 ∧ t.fox = s.fox ∧ t.keys = s.keys) ∧
  (∀ (src : Fin 8) (detail : BitVec 32) (s : State), s.still → s.noSources → s.canon = true → src ≠ 0 → (Run.start s).classA src = true → s.fld ERR_FATAL_V = 0 → s.fox.stopped = false →
    ∃ t, exec (.alarm src detail) s = .next t ∧ natBit (t.fld ALARM_STAT_SEEN) (src - 1) = true ∧ t.fld ALARM_STAT_CLASSA = 1 ∧ t.fox.stopped = true ∧
      t.fld FOX_TRNG_STAT_DRBGOK = 0 ∧
      (t.fox.epoch = (if s.fld ALARM_POLICY_SEALERASE = 1 ∧ s.fox.epoch < 32 then s.fox.epoch + 1 else s.fox.epoch) ∨ src = 1 ∧ t.fox.epoch = s.fox.epoch) ∧
      t.pins.fatal = true ∧ t.fld ERR_FATAL_V = 1 ∧ t.fld ERR_FATAL_EVENT = 0x0901 ∧ ∀ e ∈ t.keys, e.2.loaded = false) ∧
  (∀ (src : Fin 8) (detail : BitVec 32) (s : State), s.still → s.noSources → src ≠ 0 → (Run.start s).classA src = false → natBit (s.fld ALARM_STAT_SEEN) (src - 1) = true →
    ∃ t, exec (.classBRepeat src detail) s = .next t ∧ t.fld (ALARM_LOG_TICK_TICK (s.fld ALARM_STAT_NEXT)) = s.fld TBASE_COUNT_COUNT ∧
      t.fld (ALARM_LOG_INFO_SOURCE (s.fld ALARM_STAT_NEXT)) = src ∧ t.fld ALARM_STAT_NEXT = (s.fld ALARM_STAT_NEXT + 1) % 8 ∧ t.fox = s.fox ∧ t.keys = s.keys) ∧
  (∀ (q : Requester) (k : Nat) (s : State), s.still → s.writer q → (Run.start s).isMonitor q = true → s.wdog = some (k + 1) →
    ∃ t, exec (.wdogKick q) s = .next t ∧ t.wdog = some (s.fld WDOG_CTL_PERIOD * 1024) ∧ t.regs = s.regs) ∧
  (∀ (env : StartEnv) (s : State), s.need = {} → s.wdog = some 0 → s.pins.fatal = false → s.fld TBASE_STAT_REFOK = 0 → s.canon = true →
    ∃ t, exec (.watchdogExpiry env) s = .next t ∧ t.fld WDOG_CTL_FIRED = 1 ∧ t.fox.warm = true ∧ t.wdog = none ∧ t.fld FOX_START_STEP = 2 ∧ t.harts = [] ∧ t.dram = s.dram)


/-! ### Start -/

/-- R407, R413, R473, R510, R513, R514: cold and warm resets, and how a start goes from the reset pin to its dies. -/
def Obligations.ResetsAndStart : Prop :=
  (∀ (s : State), s.canon = true → s.need = {} →
    exec .porstAssert s = .next { State.reset with pins := { thermtrip := s.pins.thermtrip }, fox := { svn := s.fox.svn, epoch := s.fox.epoch }, free := s.free, aged := s.aged, pending := s.pending, out := s.out } ∧
    exec .alwaysOnRailUp s = .next { State.reset with fox := { svn := s.fox.svn, epoch := s.fox.epoch }, free := s.free, aged := s.aged, pending := s.pending, out := s.out }) ∧
  (∀ (sel : Bool) (addr : Fin 4) (s : State), s.still → s.pins.porst = true →
    ∃ t, exec (.porstDeassert sel addr) s = .next t ∧ t.pins = { s.pins with porst := false, mgmtSel := sel, mgmtAddr := addr, status := 2, frame := [] } ∧ t.fox.waits = 1 ∧
      t.fld FOX_START_STEP = 2 ∧ (Run.start t).meas 0 = sha512 ((Run.start s).meas 0 ++ sha512 (bytesLE 64 Config.romDigest.toNat ++ (Run.start s).fuseWords))) ∧
  (∀ (env : StartEnv) (s : State), s.canon = true → s.still → s.noSources → s.harts = [] → s.net = [] → s.pins.porst = false → s.fox.waits = 1 →
    s.fld TBASE_STAT_REFLOSS = 0 →
    ∃ t, exec (.refclkValid env) s = .next t ∧ t.fld TBASE_STAT_REFOK = 1 ∧ s.attempted t (s.fox.warm && s.fld FOX_START_PREFB != 0) env) ∧
  (∀ (env : StartEnv) (s : State), s.canon = true → s.still → s.noSources → s.harts = [] → s.net = [] → s.pins.fatal = false → s.fox.waits = 2 →
    ∃ t, exec (.failureFrameEnd env) s = .next t ∧
      if s.fld FOX_START_CAUSE = 0xD ∨ s.fox.failed = 3 then t.fld FOX_START_STEP = 0xB ∧ t.pins.status = 0xB ∧ t.fox.waits = 3
      else s.attempted t (s.fld FOX_START_SLOTB == 0) env) ∧
  (∀ (env : StartEnv) (s : State), s.canon = true → s.still → s.noSources → s.harts = [] → s.net = [] → s.pins.fatal = false → s.fox.waits = 3 →
    ∃ t, exec (.startRoundWaitEnd env) s = .next t ∧ s.attempted t (if s.fld FOX_START_CAUSE = 0xD then s.fld FOX_START_SLOTB != 0 else s.fld FOX_START_SLOTB == 0) env) ∧
  (∀ (q : Requester) (env : StartEnv) (s : State), s.need = {} → s.writer q → s.canon = true → (isLark q = true ∨ (Run.start s).isMonitor q = true) → (∀ f, q ≠ .phlox f) → q ≠ .fox →
    s.fld ERR_FATAL_COLD = 0 → s.fld TBASE_STAT_REFOK = 0 →
    ∃ t, exec (.warmReset q env) s = .next t ∧ s.warmWaits t) ∧
  (∀ (k : Fin 4) (env : StartEnv) (s : State), s.need = {} → s.writer (.lark k) → s.canon = true → s.fld ERR_FATAL_COLD = 0 → s.fld TBASE_STAT_REFOK = 1 →
    ∃ t, exec (.warmReset (.lark k) env) s = .next t ∧ t.fox.warm = true ∧ t.harts = [] ∧ s.attempted t (s.fld FOX_START_PREFB != 0) env) ∧
  (∀ (env : StartEnv) (s : State), s.need = {} → s.canon = true → s.pins.fatal = true → s.fld ERR_FATAL_COLD = 0 → s.fld (ERR_CFG_FATALWARM 16) ≠ 0 → s.fld TBASE_STAT_REFOK = 0 →
    ∃ t, exec (.fatalwarmExpiry env) s = .next t ∧ s.warmWaits t)

/-- R406, R408, R410 to R413: steps 7 to 10 of a start, its failures, and the configuration lock. -/
def Obligations.StartStepsComplete : Prop :=
  (∀ (s : State), s.startsAt 7 → ((List.range 16).any fun d => s.fld (RLINK_STAT_STATE d) == 3) = true →
    ∃ t, exec .foxgloveReady s = .next t ∧ t.fld FOX_START_STEP = 8 ∧ t.pins.status = 8 ∧ t.fox.ready = true ∧
      ∀ d < 16, t.fld (RLINK_STAT_STATE d) = if s.fld (RLINK_STAT_STATE d) = 3 then 3 else 7) ∧
  (∀ (s : State), s.startsAt 7 →
    ∃ t, exec .foxfwReadyTimeout s = .next t ∧ s.failedWith t 7 0xA) ∧
  (∀ (step : Nat) (s : State), (step = 8 ∨ step = 9) → s.startsAt step →
    ∃ t, exec .startStep10Timeout s = .next t ∧ s.failedWith t step 0xC) ∧
  (∀ (k : Fin 4) (code : BitVec 8) (step : Nat) (s : State), (step = 8 ∨ step = 9) → s.startsAt step → s.writer (.lark k) →
    ∃ t, exec (.mfail (.lark k) code) s = .next t ∧ s.failedWith t step 0xB) ∧
  (∀ (k : Fin 4) (s : State), s.startsAt 8 → s.writer (.lark k) → s.fld FOX_START_DRAMRDY = 0 → s.fox.boot = none →
    ∃ t, exec (.dramrdy (.lark k)) s = .next t ∧ t.fld FOX_START_DRAMRDY = 1 ∧ t.fld FOX_START_STEP = 9 ∧ t.pins.status = 9 ∧ t.harts = [] ∧
      t.fox.image = (if s.fld FOX_CFGLOCK_LOCK = 1 ∧ (Run.start s).monitorDue = false then none else s.fox.image)) ∧
  (∀ (x : VRec) (s : State), s.startsAt 9 → s.fld SEC_CFG_MONVALID = 0 → findRec (Run.start s).records 0x19 = some x → findRec (Run.start s).records 4 = none →
    x.bytes.length ≤ 168 → (Run.start s).monOk x.bytes = true → s.fox.boot = none → s.fox.made = false →
    let e := at_ x.bytes 16 1
    ∃ t, exec .monitorReady s = .next t ∧ t.fld SEC_CFG_MONVALID = 1 ∧ t.fld SEC_CFG_MONEID = e ∧ t.fld (ENC_STAT_STATE e) = 2 ∧ t.fld (ENC_STAT_NTHR e) = at_ x.bytes 17 1 ∧
      t.reg (ENC_ENTRY e) = BitVec.ofNat 64 (at_ x.bytes 24 8) ∧ t.fld (ENC_TSB_TSB e) = at_ x.bytes 32 8 / 4096 % 2 ^ 40 ∧ t.fld WDOG_CTL_PERIOD = at_ x.bytes 20 4 ∧
      (t.key (keyId 0 e)).loaded = true ∧ t.harts = []) ∧
  (∀ (k : Fin 4) (s : State), s.still → s.writer (.lark k) → s.fld FOX_CFGLOCK_LOCK = 0 →
    ∃ t, exec (.configurationLock (.lark k)) s = .next t ∧ t.fld FOX_CFGLOCK_LOCK = 1 ∧ t.harts = s.harts ∧
      t.fox.svn = (match s.fox.image with
        | some b => if natBit (at_ b 32 2) 1 then max s.fox.svn (min 64 (at_ b 16 8)) else s.fox.svn
        | none => s.fox.svn))

/-- R417, R418: the SPDM responder answers each request; R420 to R423: the TAP and debug accesses. -/
def Obligations.PortsAnswer : Prop :=
  (∀ (s : State), s.still → s.pins.porst = false → s.fox.stopped = false → s.fld TBASE_STAT_REFOK = 1 →
    exec .getVersion s = .next { s with out := .spdm 0x04 [0, 0, 0, 1, 0x00, 0x12] :: s.out } ∧
    exec .negotiateAlgorithms s =
      .next { s with out := .spdm 0x63 ([0, 0] ++ bytesLE 2 36 ++ [1, 0] ++ bytesLE 4 8 ++ bytesLE 4 0x40 ++ bytesLE 4 4 ++ List.replicate 16 0) :: s.out } ∧
    exec .getDigests s = .next { s with out := .spdm 0x01 ([0, 1] ++ sha512 certChain) :: s.out }) ∧
  (∀ (s : State), s.still → s.pins.porst = false → s.fox.stopped = false → s.fld TBASE_STAT_REFOK = 1 →
    ∃ t, exec .getCapabilities s = .next t ∧ t.out.head? = some (.spdm 0x61 ([0, 0, 0, (Config.freeValue s.free).extractLsb' 0 8, 0, 0] ++ bytesLE 4 0x20016 ++
      bytesLE 4 256 ++ bytesLE 4 16384)) ∧ t.regs = s.regs) ∧
  (∀ (off len : BitVec 16) (s : State), s.still → s.pins.porst = false → s.fox.stopped = false → s.fld TBASE_STAT_REFOK = 1 →
    let n := certChain.length
    let k := min len.toNat (n - off.toNat)
    ∃ t, exec (.getCertificate 0 off len) s = .next t ∧ t.regs = s.regs ∧
      t.out = (if n ≤ off.toNat then .spdm 0x7F [1, 0] else .spdm 0x02 ([0, 0] ++ bytesLE 2 k ++ bytesLE 2 (n - off.toNat - k) ++ span certChain off.toNat k)) :: s.out) ∧
  (∀ (nonce : BitVec 256) (s : State), s.still → s.pins.porst = false → s.fox.stopped = false → s.fld TBASE_STAT_REFOK = 1 → s.fld DEVID_STAT_VALID = 1 →
    let sig := ((Run.start { s with free := s.free + 1 }).freshBytes 8).2
    ∃ t, exec (.challenge 0 nonce) s = .next t ∧ t.regs = s.regs ∧
      t.out = .spdm 0x03 ([0, 1] ++ sha512 certChain ++ bytesLE 32 ((Config.freeValue s.free).extractLsb' 0 256).toNat ++ [0, 0] ++ sig) :: s.out) ∧
  (∀ (op : Fin 19) (nonce : BitVec 256) (s : State), s.still → s.pins.porst = false → s.fox.stopped = false → s.fld TBASE_STAT_REFOK = 1 → op ≠ 0 →
    let b := (Run.start s).measBlock op
    ∃ t, exec (.getMeasurements (BitVec.ofNat 8 op) false nonce) s = .next t ∧ t.regs = s.regs ∧
      t.out = .spdm 0x60 ([0, 0, 1] ++ bytesLE 3 b.length ++ b ++ bytesLE 32 ((Config.freeValue s.free).extractLsb' 0 256).toNat ++ [0, 0]) :: s.out) ∧
  (∀ (code : BitVec 8) (s : State), s.still → s.pins.porst = false → s.fox.stopped = false → s.fld TBASE_STAT_REFOK = 1 →
    exec (.spdmUnsupportedRequest code) s = .next { s with out := .spdm 0x7F [7, code] :: s.out }) ∧
  (∀ (ir : BitVec 8) (s : State), s.still → (Run.start s).tapOff = false → s.fox.ir ∉ [0x03, 0x04, 0x05] → (Run.start s).tapMay (tapListed ir) = true →
    let x := if ir = 0x01 then 0x19256A2F else if ir = 0x20 then s.fox.nonce.toNat else if ir = 0x22 then s.fox.attempts * 2 ^ 32 + s.fox.result * 2 ^ 8 + s.fox.rights.toNat else 0
    exec (.tapUpdateIr ir) s =
      .next { s with fox := { s.fox with ir := tapListed ir, token := if ir = 0x21 then s.fox.token else [] }, out := .tap (tapListed ir) x :: s.out }) ∧
  (∀ (b : Byte) (s : State), s.still → (Run.start s).tapOff = false → s.fox.ir = 0x21 → s.fox.token.length + 1 < 1088 →
    exec (.foxtoken b) s = .next { s with fox := { s.fox with token := s.fox.token ++ [b] } }) ∧
  (∀ (b : Byte) (s : State), s.still → s.noSources → (Run.start s).tapOff = false → s.fox.ir = 0x21 → 1088 ≤ s.fox.token.length + 1 →
    s.fox.token.length + 1 = tokenLen (s.fox.token ++ [b]) →
    ∃ t, exec (.foxtoken b) s = .next t ∧ t.fox.token = [] ∧ t.fox.result = (if (Run.start s).tokenOk (s.fox.token ++ [b]) then 1 else 2) ∧
      t.fox.rights = (if (Run.start s).tokenOk (s.fox.token ++ [b]) then s.fox.rights ||| BitVec.ofNat 4 (at_ (s.fox.token ++ [b]) 8 8) else s.fox.rights)) ∧
  (∀ (h : Fin 1024) (s : State), s.free_ h → (Run.start s).tapOff = false → s.fox.ir = 0x11 → s.fox.rights.getLsbD 0 = true → (s.hart h).eid = 0 → (s.hart h).mode ≠ .debug →
    let w : BitVec 32 := BitVec.ofNat 32 (2 ^ 31 + h % 1024 * 2 ^ 16)
    ∃ t, exec (.dmiAccess true 0x10 w) s = .next t ∧ (t.hart h).run = .debug ∧ (t.hart h).mode = .debug ∧ t.csr h 0x7B1 = (s.hart h).pc ∧ t.out = .dmi true 0x10 w.toNat :: s.out) ∧
  (∀ (h : Fin 1024) (s : State), s.still → s.undisturbed h → (Run.start s).tapOff = false → s.fox.ir = 0x11 → s.fox.rights.getLsbD 0 = true → (s.hart h).eid = 0 → (s.hart h).run = .debug →
    ∃ t, exec (.dmiAccess true 0x10 (BitVec.ofNat 32 (2 ^ 30 + h % 1024 * 2 ^ 16))) s = .next t ∧ (t.hart h).run = .running ∧ (t.hart h).pc = s.csr h 0x7B1 ∧
      (t.hart h).mode = Mode.ofPrv ((Run.start s).cf h 0x7B0 1 0) ((Run.start s).cb h 0x7B0 5))


/-! ### Weir -/

/-- R427, R433 to R435, R437, R438, R442: window ends, bounds, the set-point over AVSBus, the metered steps and VRHOT#. -/
def Obligations.SetPointsAndSteps : Prop :=
  (∀ (m : WeirMeas) (s : State), s.still → s.noSources → s.pins.porst = false → s.pins.fatal = false → (Run.start s).count % 1024 = 0 →
    (Run.start s).count ≠ s.weir.window →
    ∃ t, exec (.weirWindowEnd m) s = .next t ∧ t.fld WEIR_STAT_PWR = min m.run 4095 ∧ t.fld WEIR_STAT_HOTTJ = ((Run.start s).hottest m.iodTj).toNat ∧
      t.weir.bound = none ∧ t.weir.iod = m.iod ∧ t.weir.window = (Run.start s).count ∧ (Run.start t).boundNow = s.reg WEIR_BOUND ∧ t.harts = s.harts ∧
      ((Word.bits (s.reg WEIR_BOUND) 23 16 : Int) * 4 ≤ m.iodTj.toInt → t.fld WEIR_EVT_IODHOT = 1) ∧
      (Word.bits (s.reg WEIR_BOUND) 9 0 < m.run → t.fld WEIR_EVT_CEIL = 1)) ∧
  (∀ (q : Requester) (v : Word) (s : State), s.still → s.writer q → 100 ≤ Word.bits v 9 0 → Word.bits v 9 0 ≤ s.fld WEIR_CFG_PCEILMAX → 70 ≤ Word.bits v 23 16 →
    Word.bits v 23 16 ≤ 100 →
    ∃ t, exec (.boundWrite q .full v) s = .next t ∧ t.reg WEIR_BOUND = v &&& WEIR_BOUND.mask ∧ (Run.start t).boundNow = (Run.start s).boundNow ∧
      t.fld WEIR_STAT_CFG_REJECT = s.fld WEIR_STAT_CFG_REJECT) ∧
  (∀ (q : Requester) (v : Word) (s : State), s.still → s.writer q → (Word.bits v 9 0 < 100 ∨ s.fld WEIR_CFG_PCEILMAX < Word.bits v 9 0 ∨ Word.bits v 23 16 < 70 ∨
    100 < Word.bits v 23 16) →
    ∃ t, exec (.boundWrite q .full v) s = .next t ∧ t.reg WEIR_BOUND = s.reg WEIR_BOUND ∧ t.fld WEIR_STAT_CFG_REJECT = 1 ∧ t.weir = s.weir) ∧
  (∀ (s : State), s.still → s.pins.fatal = false → (Run.start s).avsTries = true → s.weir.avs = none → s.weir.target ≠ 0 →
    (s.weir.target < (Run.start s).setPoint ∨ (Run.start s).setPoint < s.weir.target ∧ (Run.start s).setPoint + 5 ≤ s.weir.allow) → (Run.start s).setPoint ≤ 950 →
    let v := (Run.start s).setPoint
    let x := if s.weir.target < v then v - min 5 (v - s.weir.target) else v + 5
    ∃ t, exec (.writeVoltage true) s = .next t ∧ t.fld WEIR_STAT_VSET = x ∧ t.fld WEIR_STAT_AVSOK = 1 ∧ t.weir.avs = some x ∧ t.out = .avs 0 x :: s.out ∧ t.harts = s.harts) ∧
  (∀ (s : State), s.still → s.noSources → s.pins.fatal = false → s.pins.porst = false → s.fld TBASE_STAT_REFOK = 1 → s.weir.failing = false → s.weir.retries = 3 → s.weir.avs = none → s.weir.target ≠ 0 →
    s.weir.target < (Run.start s).setPoint → s.freeSlot .weir 1 →
    ∃ t, exec (.writeVoltage false) s = .next t ∧ t.fld WEIR_STAT_VSET = s.fld WEIR_STAT_VSET ∧ t.fld WEIR_STAT_AVSOK = 0 ∧ t.fld WEIR_EVT_AVSERR = 1 ∧
      t.recorded .weir 1 0x0A03) ∧
  (∀ (x : Nat) (s : State), s.still → s.weir.avs = some x → s.weir.target ≤ (Run.start s).setPoint →
    exec .avsWriteTimeout s = .next { s with weir := { s.weir with avs := none } }) ∧
  (∀ (v : BitVec 10) (i : BitVec 9) (s : State), s.still → (Run.start s).avsTries = true →
    (∃ t, exec (.readVoltage (some v)) s = .next t ∧ t.fld WEIR_STAT_VREAD = v.toNat ∧ t.fld WEIR_STAT_AVSOK = 1 ∧ t.out = .avs 0x30 0 :: s.out ∧ t.weir.retries = 0) ∧
    ∃ t, exec (.readCurrent (some i)) s = .next t ∧ t.fld WEIR_STAT_IREAD = i.toNat ∧ t.fld WEIR_STAT_AVSOK = 1 ∧ t.out = .avs 0x32 0 :: s.out ∧ t.weir.retries = 0) ∧
  (∀ (x : Nat) (d : Bool) (s : State), s.still → (Run.start s).avsTries = true → s.weir.avs = some x → s.weir.target ≤ (Run.start s).setPoint →
    ∃ t, exec (.readStatus (some d)) s = .next t ∧ t.weir.avs = (if d then none else some x) ∧ t.fld WEIR_STAT_AVSOK = 1 ∧ t.out = .avs 0x3E 0 :: s.out) ∧
  (∀ (q : StepReq) (recent : Nat) (s : State), s.still → s.weir.phase = 0 → s.weir.next = [q] → (∀ d < 336, s.fld (DOM_STAT_STATE d) ≠ 1) →
    let di := (Run.start s).rise q
    let code := if ¬ (50 < di ∨ 50 < di + (recent : Rat) / 1000000) then 0 else if di ≤ 100 then 1 else if di ≤ 200 then 2 else 3
    ∃ t, exec (.meteredStepForm recent) s = .next t ∧ t.weir = { s.weir with phase := 2, step := [q], next := [] } ∧ t.fld WEIR_STAT_SPATE = code ∧
      t.pins = { s.pins with spate := code }) ∧
  (∀ (s : State), s.still → s.weir.phase = 2 → exec .meteredStepRampStart s = .next { s with weir := { s.weir with phase := 3 } }) ∧
  (∀ (n : Fin 256) (s : State), s.still → s.weir.phase = 3 → s.weir.step = [.wake (domTile n)] → s.fld (DOM_STAT_STATE (domTile n)) = 1 → (∀ k < 4, s.undisturbed (n * 4 + k)) →
    ∃ t, exec .meteredStepRampEnd s = .next t ∧ t.fld (DOM_STAT_STATE (domTile n)) = 0 ∧ t.weir = { s.weir with phase := 0, step := [] } ∧ t.fld WEIR_STAT_SPATE = 0 ∧
      t.pins = { s.pins with spate := 0 } ∧ t.harts = s.harts) ∧
  (∀ (mv : Nat) (s : State), s.still → s.weir.phase = 3 → s.weir.step = [.set mv] →
    ∃ t, exec .meteredStepRampEnd s = .next t ∧ t.weir = { s.weir with phase := 0, step := [], allow := mv } ∧ t.fld WEIR_STAT_SPATE = 0 ∧ t.pins = { s.pins with spate := 0 }) ∧
  (∀ (s : State), s.still → s.noSources → s.pins.porst = false → s.weir.vrhot = none →
    ∃ t, exec .vrhotAssert s = .next t ∧ t.fld WEIR_EVT_VRHOT = 1 ∧ t.harts = s.harts ∧
      t.weir.vrhot = some ((Run.start s).admissions (Run.start s).setPoint * 3 / 4 * 30000).floor.toNat) ∧
  (∀ (c : Nat) (s : State), s.still → s.weir.vrhot = some c →
    exec .vrhotDeassert s =
      .next { s with weir := { s.weir with vrhot := none, next := if .lift ∈ s.weir.next then s.weir.next else s.weir.next ++ [.lift] } })

/-- R425, R426, R432, R443, R444, R450 to R452: domains are gated, held, released and stopped; brown-out and rail faults. -/
def Obligations.DomainsAndRails : Prop :=
  (∀ (n : Fin 256) (s : State), s.still → (Run.start s).mayGate (domTile n) = true →
    ∃ t, exec (.parkHintTimeout n) s = .next t ∧ t.tile n = { s.tile n with idle := true } ∧ t.regs = s.regs) ∧
  (∀ (dom : Fin 404) (s : State), s.still → s.fld (DOM_STAT_STATE dom) = 0 → (Run.start s).mayGate dom = true →
    (dom.val < 336 ∧ dom.val % 21 < 16 → (Run.start s).hintAllows (dom / 21 * 16 + dom % 21) = true) →
    ∃ t, exec (.domainGate dom) s = .next t ∧ t.fld (DOM_STAT_STATE dom) = 2 ∧ t.fld (DOM_STAT_HOLD dom) = s.fld (DOM_STAT_HOLD dom) ∧ t.harts = s.harts) ∧
  (∀ (dom : Fin 404) (s : State), s.still → s.fld (DOM_STAT_STATE dom) = 2 → (Run.start s).mayGate dom = true → ¬ (dom.val < 336 ∧ dom.val % 21 < 16) → s.weir.hold = none →
    ∃ t, exec (.domainSwitchOpen dom) s = .next t ∧ t.fld (DOM_STAT_STATE dom) = 3 ∧ t.fld (DOM_STAT_GATES dom) = min (s.fld (DOM_STAT_GATES dom) + 1) 0xFFFFFFFF ∧
      t.harts = s.harts) ∧
  (∀ (n : Fin 256) (s : State), s.still → s.canon = true → s.noSources → s.fld (DOM_STAT_STATE (domTile n)) = 2 → (Run.start s).mayGate (domTile n) = true →
    s.weir.hold = some (domTile n) → s.tile n = {} → s.l1i = [] → s.l1d = [] → s.l2 = [] → (∀ k < 4, (s.hart (n * 4 + k)).ncOut = []) → s.noSwop →
    ∃ t, exec (.domainSwitchOpen ⟨domTile n, by unfold domTile; omega⟩) s = .next t ∧ t.fld (DOM_STAT_STATE (domTile n)) = 3 ∧ t.fld (DOM_STAT_HOLD (domTile n)) = 1 ∧
      t.fld WEIR_DOMCMD_ST = 0 ∧ t.fld WEIR_DOMCMD_BUSY = 0 ∧ t.fld WEIR_EVT_DOMDONE = 1 ∧ t.weir.hold = none ∧
      ∀ k < 4, (t.hart (n * 4 + k)).tlb = [] ∧ (t.hart (n * 4 + k)).resv = none) ∧
  (∀ (q : Requester) (n : Fin 256) (s : State), s.still → s.writer q → s.noSources → s.fld WEIR_DOMCMD_BUSY = 0 → ((Run.start s).normal q && (Run.start s).secureHeld (domTile n)) = false →
    (∀ k < 4, (s.hart (n * 4 + k)).run = .held) → s.fld (DOM_STAT_STATE (domTile n)) ≠ 1 →
    ∃ t, exec (.gatehold q (BitVec.ofNat 9 (domTile n))) s = .next t ∧ t.harts = s.harts ∧
      (if s.fld (DOM_STAT_STATE (domTile n)) = 3 then t.fld (DOM_STAT_HOLD (domTile n)) = 1 ∧ t.fld (DOM_STAT_STATE (domTile n)) = 3 ∧ t.fld WEIR_DOMCMD_ST = 0 ∧
          t.fld WEIR_EVT_DOMDONE = 1
        else t.fld (DOM_STAT_STATE (domTile n)) = 2 ∧ t.fld WEIR_DOMCMD_BUSY = 1 ∧ t.weir.hold = some (domTile n))) ∧
  (∀ (q : Requester) (dom : Fin 404) (s : State), s.still → s.writer q → s.noSources → s.fld WEIR_DOMCMD_BUSY = 0 →
    (336 ≤ dom.val ∧ dom.val < 360 → (s.chan (dom - 336)).held = []) → (dom.val < 336 → ∀ k < 4, s.undisturbed (dom / 21 * 64 + dom % 21 * 4 + k)) →
    ∃ t, exec (.release q (BitVec.ofNat 9 dom)) s = .next t ∧ t.fld (DOM_STAT_HOLD dom) = 0 ∧ t.fld WEIR_DOMCMD_ST = 0 ∧ t.fld WEIR_EVT_DOMDONE = 1 ∧ t.harts = s.harts) ∧
  (∀ (q : Requester) (dom : Fin 404) (s : State), s.still → s.writer q → s.noSources → s.fld WEIR_DOMCMD_BUSY = 0 → 336 ≤ dom.val → dom.val < 392 →
    ((Run.start s).normal q && (Run.start s).secureHeld dom) = false →
    (if dom.val < 360 then s.fld (MC_STATUS_SR (dom - 336)) = 1 else s.fld (G_CFG_EN (dom - 360)) = 0) → s.fld (DOM_STAT_STATE dom) = 0 →
    ∃ t, exec (.clkstop q (BitVec.ofNat 9 dom)) s = .next t ∧ t.fld (DOM_STAT_STATE dom) = 4 ∧ t.fld WEIR_DOMCMD_ST = 0 ∧ t.fld WEIR_EVT_DOMDONE = 1 ∧ t.harts = s.harts) ∧
  (∀ (n : Fin 256) (v : BitVec 10) (s : State), s.still → s.noSources → v.toNat < 480 → (Run.start s).tileOn n = true → (s.tile n).halted = false → s.weir.haltSeen = false →
    s.freeSlot .weir 0 → (∀ q < 4, (s.quad (dieOf n * 4 + q)).waiting = []) →
    ∃ t, exec (.tileBrownoutHalt n v) s = .next t ∧ t.tile n = { s.tile n with halted := true, below := decide (v.toNat < s.fld (TMON_DROOP_THRESH n)) } ∧ t.fld WEIR_EVT_HALT = 1 ∧ t.fld (TMON_DROOP_VNOW n) = v.toNat ∧
      t.recorded .weir 0 0x0A04 ∧ (∀ k < 4, t.hart (n * 4 + k) = { s.hart (n * 4 + k) with lrDelay := none }) ∧ ∀ h, tileOf h ≠ n.val → t.hart h = s.hart h) ∧
  (∀ (n : Fin 256) (v : BitVec 10) (s : State), s.still → 500 ≤ v.toNat → (s.tile n).halted = true → (∀ k < 4, s.undisturbed (n * 4 + k)) →
    ∃ t, exec (.tileBrownoutResume n v) s = .next t ∧ t.tile n = { s.tile n with halted := false, below := decide (v.toNat < s.fld (TMON_DROOP_THRESH n)) } ∧ t.fld (TMON_DROOP_VNOW n) = v.toNat ∧ t.harts = s.harts) ∧
  (∀ (n : Fin 256) (s : State), s.still → s.noSources → (Run.start s).tileOn n = true → s.online (dieOf n) = true →
    (∀ k < 256, (Run.start s).tileOn k = true → s.online (dieOf k) = true → (s.tile k).halted = true) → s.freeSlot .weir 1 →
    ∃ t, exec .allTilesHalted100ms s = .next t ∧ t.recorded .weir 1 0x0A05 ∧ t.harts = s.harts) ∧
  (∀ (d : Fin 16) (s : State), s.canon = true → s.still → s.noSources → s.net = [] → s.harts = [] → s.fld (RLINK_STAT_STATE d) ≠ 6 → s.fld (RLINK_RESET_BUSY d) = 0 →
    s.fld (RLINK_FAULTMAP_RSTA d) = 0 →
    ∃ t, exec (.vcoreCollapse d) s = .next t ∧ t.fld (RLINK_STAT_STATE d) = 6 ∧ t.fld (RLINK_STAT_LASTCAUSE d) = 2) ∧
  (∀ (s : State), s.still → s.noSources → s.canon = true → s.fld ERR_FATAL_V = 0 →
    ∃ t, exec .railOutOfRange s = .next t ∧ t.pins.fatal = true ∧ t.pins.iodHeld = true ∧ t.fld ERR_FATAL_V = 1 ∧ t.fld ERR_FATAL_COLD = 1 ∧ t.fld ERR_FATAL_EVENT = 0x0A02 ∧
      t.slices = [] ∧ t.filt = [] ∧ t.chans = [] ∧ t.groups = [] ∧ t.jobs = [] ∧ t.fetched = [] ∧ t.lead = [] ∧ t.slotTurn = [] ∧ t.iommu = {} ∧ t.reg TBASE_COUNT = s.reg TBASE_COUNT) ∧
  (∀ (s : State), s.still → s.noSources → s.fld ERR_FATAL_V = 0 →
    ∃ t, exec .thermtrip s = .next t ∧ t.pins.thermtrip = true ∧ t.pins.fatal = true ∧ t.fld ERR_FATAL_V = 1 ∧ t.fld ERR_FATAL_COLD = 1 ∧ t.fld ERR_FATAL_EVENT = 0x0A01 ∧
      t.dram = s.dram)


/-! ### The whole block -/

/-- A step takes the command at the front of the queue and runs it on the state with the queue's rest; on an empty queue the block idles (the
model's choice, log entry 1). -/
def Obligations.StepTakesTheFront : Prop :=
  (∀ (c : Instr) (rest : List Instr) (s : State), s.pending = c :: rest → step s = exec c { s with pending := rest }) ∧
  (∀ (s : State), s.pending = [] → step s = .next s)

/-- Every command, with every operand and in every state, ends in a next state, and leaves the queue alone. -/
def Obligations.EveryCommandAnswers : Prop :=
  ∀ (c : Instr) (s : State), ∃ t, exec c s = .next t ∧ t.pending = s.pending

/-- Every step keeps the canonical form of memory and of every other store, and leaves no hart to be looked at again and no command
half done. -/
def Obligations.EveryStepKeepsCanon : Prop :=
  ∀ (s t : State), s.canon = true → s.poke = [] → s.need = {} → step s = .next t → t.canon = true ∧ t.poke = [] ∧ t.need = {}

/-- The state after reset: its stores are canonical and nothing is left to settle; what the spec gives a value at reset has it. -/
def Obligations.ResetState : Prop :=
  State.reset.canon = true ∧ State.reset.still ∧ State.reset.pending = [] ∧ State.reset.pins.porst = true ∧ State.reset.pins.perst = BitVec.allOnes 32 ∧
  (∀ h, (State.reset.hart h).run = .held ∧ State.reset.hart h = {}) ∧ (∀ id, State.reset.key id = { owner := 0xFFFF }) ∧
  State.reset.fld TBASE_COUNT_COUNT = 0 ∧ State.reset.fld TBASE_STAT_REFOK = 0 ∧ (∀ d, State.reset.fld (TBRX_STATUS_LOST d) = 1) ∧
  (∀ d, State.reset.fld (DOM_STAT_STATE d) = 3) ∧ (∀ n, State.reset.fld (TMON_RATE_CAP n) = 0xFFFF ∧ State.reset.fld (TMON_DROOP_VMIN n) = 0x3FF) ∧
  State.reset.fld WEIR_CFG_VMIN = 600 ∧ State.reset.fld WEIR_CFG_VMAX = 950 ∧ State.reset.fld WEIR_BOUND_PCEIL = 600 ∧ State.reset.fld WEIR_BOUND_TJLIM = 100 ∧
  State.reset.fld FOX_CFGLOCK_LOCK = 0 ∧ State.reset.fld FOX_REKEYQ_EMPTY = 1 ∧ State.reset.fld ERR_FATAL_V = 0

/-- What an event of one unit leaves unchanged: whenever it ends in a next state with nothing left to settle before, every field of the
state but those named here, and every register outside the unit's own block. -/
def Obligations.EventsStayInTheirBlock : Prop :=
  (∀ (ch : Fin 24) (sub : Fin 2) (b : Bool) (s t : State), s.still →
    ∀ c ∈ [Instr.selfRefreshIdleTimeout ch, .owedRefreshIssue ch sub, .refreshIntervalEnd ch sub b, .mr4Poll ch b, .bandSwitchWindow ch], exec c s = .next t →
      t = { s with regs := t.regs, chans := t.chans } ∧ (∀ k, k ≠ ch.val → t.chan k = s.chan k) ∧
      ∀ g : Reg, g.off / 0x10000 ≠ (MC_STATUS ch).off / 0x10000 → t.reg g = s.reg g) ∧
  (∀ (n : Fin 256) (laps tj : BitVec 16) (v : BitVec 10) (s t : State), s.still → 480 ≤ v.toNat →
    ∀ c ∈ [Instr.tmonWindowEnd n laps tj v, .droopExcursion n v], exec c s = .next t →
      t = { s with regs := t.regs, tiles := t.tiles } ∧ (∀ k, k ≠ n.val → t.tile k = s.tile k) ∧
      ∀ g : Reg, g.off / 0x1000 ≠ (TMON_TEMP n).off / 0x1000 → t.reg g = s.reg g) ∧
  (∀ (g : Fin 32) (port : Fin 8) (s t : State), s.still →
    ∀ c ∈ [Instr.socketJoinRetry g, .groupWake g port], exec c s = .next t → t = { s with regs := t.regs } ∧ ∀ x : Reg, x.off ≠ (G_STAT g).off → t.reg x = s.reg x) ∧
  (∀ (d : Fin 16) (map : Word) (s t : State), s.still →
    ∀ c ∈ [Instr.tickLossReport d, .dieSelfTestDone d map, .rillRetrainDone d], exec c s = .next t →
      t = { s with regs := t.regs } ∧ ∀ g : Reg, g.off / 0x1000 ≠ (RLINK_STAT d).off / 0x1000 → g.off ≠ (RILL_FAULTMAP d).off → t.reg g = s.reg g) ∧
  (∀ (dom : Fin 404) (n : Fin 256) (src : Fin 2) (s t : State), s.still →
    (exec (.domainGate dom) s = .next t → t = { s with regs := t.regs } ∧ ∀ g : Reg, g.off ≠ (DOM_STAT dom).off → t.reg g = s.reg g) ∧
    (exec (.parkHintTimeout n) s = .next t → t = { s with tiles := t.tiles } ∧ ∀ k, k ≠ n.val → t.tile k = s.tile k) ∧
    (exec (.entropySourceReturn src) s = .next t → t = { s with regs := t.regs } ∧ ∀ g : Reg, g.off ≠ FOX_TRNG_STAT.off → t.reg g = s.reg g)) ∧
  (∀ (qi : Fin 1024) (f : Fin 256) (j : Fin 32) (s t : State), s.still → (Run.start s).queueOf qi = some (f.val, j.val) → exec (.queueMoveDone qi) s = .next t →
    t = { s with regs := t.regs } ∧ ∀ g : Reg, g.off ≠ (PHLOX_QBIND qi).off → g.off ≠ (Q_CFG f j).off → t.reg g = s.reg g)

/-! ### Rules stated whole -/

/-- R20: a write of BASE of a SAD range that would place KIND 3, or a TARGET reserved for its KIND (R19), is ignored; whoever sends it, and locked or not, the register keeps its value. -/
def Obligations.ReservedSadTargetsAreIgnored : Prop :=
  (∀ (q : Requester) (n : Fin 32) (half : Half) (v : Word) (s : State), s.still → s.writer q → s.fld FOX_CFGLOCK_LOCK = 0 → (half = .full ∨ half = .high) →
    (Word.bits v 62 61 = 3 ∨ Word.bits v 62 61 = 0 ∧ 16 ≤ Word.bits v 60 56 ∨ Word.bits v 62 61 = 1 ∧ 4 ≤ Word.bits v 60 56) →
    exec (.registerWrite q (BitVec.ofNat 40 (SAD_RANGE_BASE n).off) half v) s = .next s) ∧
  (∀ (q : Requester) (n : Fin 32) (half : Half) (v : Word) (s : State), s.still → s.canon = true → (half = .full ∨ half = .high) →
    (Word.bits v 62 61 = 3 ∨ Word.bits v 62 61 = 0 ∧ 16 ≤ Word.bits v 60 56 ∨ Word.bits v 62 61 = 1 ∧ 4 ≤ Word.bits v 60 56) →
    ∃ t, exec (.registerWrite q (BitVec.ofNat 40 (SAD_RANGE_BASE n).off) half v) s = .next t ∧ t.reg (SAD_RANGE_BASE n) = s.reg (SAD_RANGE_BASE n))

/-- R214: a die reset, from any cause, ends a tile reset of its die; one that is triggered while a die reset is in progress changes nothing; a
cold or a warm reset ends both. -/
def Obligations.DieResetSupersedes : Prop :=
  (∀ (d : Fin 16) (cause : Fin 8) (s : State), s.fld (RLINK_STAT_STATE d) ≠ 6 → s.fld (RLINK_RESET_BUSY d) = 1 → s.fld (RLINK_RESET_KIND d) = 1 →
    let t := ((Run.start s).dieReset d cause).1
    t.fld (RLINK_RESET_BUSY d) = 0 ∧ t.fld (RLINK_RESET_ST d) = stAborted ∧ t.fld (RLINK_STAT_STATE d) = 6 ∧ t.fld (RLINK_STAT_LASTCAUSE d) = cause) ∧
  (∀ (d : Fin 16) (cause : Nat) (s : State), s.fld (RLINK_STAT_STATE d) = 6 → (Run.start s).dieReset d cause = Run.start s) ∧
  (∀ (d : Fin 16) (k : Fin 4) (s : State), s.still → s.fld (RLINK_STAT_STATE d) = 6 →
    exec (.vcoreCollapse d) s = .next s ∧ exec (.dieReset d .link) s = .next s ∧ ∀ e ∈ [0x0202#16, 0x0203#16, 0x0502#16], exec (.dieReset d (.scope k e)) s = .next s) ∧
  (∀ (d : Fin 16) (k : Fin 4) (env : StartEnv) (s : State), s.need = {} → s.writer (.lark k) → s.canon = true → s.fld ERR_FATAL_COLD = 0 → s.fld TBASE_STAT_REFOK = 0 →
    (∃ t, exec .porstAssert s = .next t ∧ t.fld (RLINK_RESET_BUSY d) = 0 ∧ t.fld (RLINK_STAT_STATE d) = 0) ∧
    ∃ t, exec (.warmReset (.lark k) env) s = .next t ∧ t.fld (RLINK_RESET_BUSY d) = 0 ∧ t.fld (RLINK_STAT_STATE d) = 0)

/-- R212: a write of RLINK[d].RESET with GO = 1 while BUSY = 1, with KIND 2 or 3, or of a tile reset with TILES = 0 or outside STATE 4, changes
nothing but CFG_REJECT, which it sets; any other sets BUSY and proceeds with its KIND and
TILES (R213 turns away what names an enclave; a part of the register cannot be written, R497). -/
def Obligations.ResetRequestsAreJudged : Prop :=
  (∀ (q : Requester) (d : Fin 16) (v : Word) (s : State), s.still → s.writer q → s.canon = true → v.getLsbD 63 = true →
    (s.fld (RLINK_RESET_BUSY d) = 1 ∨ 2 ≤ Word.bits v 57 56 ∨ Word.bits v 57 56 = 1 ∧ (Word.bits v 15 0 = 0 ∨ s.fld (RLINK_STAT_STATE d) ≠ 4)) →
    ∃ t, exec (.registerWrite q (BitVec.ofNat 40 (RLINK_RESET d).off) .full v) s = .next t ∧ t = { s with regs := t.regs } ∧
      t.reg (RLINK_STAT d) = s.reg (RLINK_STAT d) ||| 0x400 ∧ ∀ g : Reg, g.off ≠ (RLINK_STAT d).off → t.reg g = s.reg g) ∧
  (∀ (q : Requester) (d : Fin 16) (v : Word) (s : State), s.still → s.writer q → s.noSources → s.canon = true → v.getLsbD 63 = true →
    s.fld (RLINK_RESET_BUSY d) = 0 → Word.bits v 57 56 < 2 → (Word.bits v 57 56 = 1 → Word.bits v 15 0 ≠ 0 ∧ s.fld (RLINK_STAT_STATE d) = 4) →
    (∀ e ∈ s.harts, e.2.eid = 0) →
    ∃ t, exec (.registerWrite q (BitVec.ofNat 40 (RLINK_RESET d).off) .full v) s = .next t ∧ t.fld (RLINK_RESET_BUSY d) = 1 ∧
      t.fld (RLINK_RESET_KIND d) = Word.bits v 57 56 ∧ t.fld (RLINK_RESET_TILES d) = Word.bits v 15 0 ∧
      (Word.bits v 57 56 = 0 → t.fld (RLINK_STAT_STATE d) = 6) ∧
      (Word.bits v 57 56 = 1 → (t.die d).tileRst.map (·.1) = ((List.range 16).filter fun i => v.getLsbD i).map (d.val * 16 + ·)))

/-- R368: a class B alarm, and each further second of its condition, writes one entry in the alarm log; the alarm also writes one UCNA record,
and neither has any other effect. -/
def Obligations.ClassBAlarmsOnlyRecord : Prop :=
  (∀ (src : Fin 8) (detail : BitVec 32) (s : State), s.still → s.noSources → src ≠ 0 → (Run.start s).classA src = false → s.freeSlot .fox 1 →
    let n := s.fld ALARM_STAT_NEXT
    ∃ t, exec (.alarm src detail) s = .next t ∧ t = { s with regs := t.regs } ∧ t.reg (ALARM_LOG_TICK n) = s.reg TBASE_COUNT ∧ t.fld (ALARM_LOG_INFO_SOURCE n) = src ∧
      t.fld (ALARM_LOG_INFO_CLASSA n) = 0 ∧ t.fld (ALARM_LOG_INFO_DETAIL n) = alarmDetail src detail ∧ t.fld ALARM_STAT_NEXT = (n + 1) % 8 ∧ t.recorded .fox 1 0x0900 ∧
      ∀ g : Reg, g.off ≠ ALARM_STAT.off → g.off ≠ (ALARM_LOG_TICK n).off → g.off ≠ (ALARM_LOG_INFO n).off → g.off ≠ (EB_STAT Bank.fox.base).off →
        (∀ k < 8, g.off ≠ (EB_REC Bank.fox.base 1 k).off) → g.off / 0x1000 ≠ (ERR_RINGSTAT 16).off / 0x1000 → t.reg g = s.reg g) ∧
  (∀ (src : Fin 8) (detail : BitVec 32) (s : State), s.still → s.noSources → src ≠ 0 → (Run.start s).classA src = false → natBit (s.fld ALARM_STAT_SEEN) (src - 1) = true →
    let n := s.fld ALARM_STAT_NEXT
    ∃ t, exec (.classBRepeat src detail) s = .next t ∧ t = { s with regs := t.regs } ∧ t.reg (ALARM_LOG_TICK n) = s.reg TBASE_COUNT ∧ t.fld (ALARM_LOG_INFO_SOURCE n) = src ∧
      t.fld (ALARM_LOG_INFO_CLASSA n) = 0 ∧ t.fld ALARM_STAT_NEXT = (n + 1) % 8)
end

