-- ==== Sys2Proof/Laws/Sparse.lean ====
section
/-! SUPPORT. A sparse store after a write: what it reads, and that it keeps its canonical form. -/
namespace Sys2Proof.Machine

variable {α : Type}

@[simp] theorem Sparse.find?_nil (k : Nat) : Sparse.find? ([] : Sparse α) k = none := rfl

@[simp] theorem Sparse.find?_put_same (m : Sparse α) (k : Nat) (v : α) : (m.put k v).find? k = some v := by
  induction m with
  | nil => simp [Sparse.put, Sparse.find?]
  | cons e m ih =>
    obtain ⟨j, w⟩ := e
    simp only [Sparse.put]
    split
    · simp [Sparse.find?]
    · split
      · simp [Sparse.find?]
      · simp_all [Sparse.find?]

theorem Sparse.find?_put_other (m : Sparse α) {k j : Nat} (v : α) (h : j ≠ k) : (m.put k v).find? j = m.find? j := by
  induction m with
  | nil => simp [Sparse.put, Sparse.find?, h]
  | cons e m ih =>
    obtain ⟨i, w⟩ := e
    simp only [Sparse.put]
    split
    · simp [Sparse.find?, h]
    · split
      · subst_vars; simp [Sparse.find?, h]
      · simp [Sparse.find?, ih]

@[simp] theorem Sparse.find?_del_same (m : Sparse α) (k : Nat) : (m.del k).find? k = none := by
  induction m with
  | nil => rfl
  | cons e m ih =>
    obtain ⟨j, w⟩ := e
    simp only [Sparse.del]
    split
    · exact ih
    · simp_all [Sparse.find?]

theorem Sparse.find?_del_other (m : Sparse α) {k j : Nat} (h : j ≠ k) : (m.del k).find? j = m.find? j := by
  induction m with
  | nil => rfl
  | cons e m ih =>
    obtain ⟨i, w⟩ := e
    simp only [Sparse.del]
    split
    · subst_vars; simp [Sparse.find?, h, ih]
    · simp [Sparse.find?, ih]

@[simp] theorem Sparse.find?_upd_same (m : Sparse α) (k : Nat) (v : Option α) : (m.upd k v).find? k = v := by
  cases v <;> simp [Sparse.upd]

theorem Sparse.find?_upd_other (m : Sparse α) {k j : Nat} (v : Option α) (h : j ≠ k) : (m.upd k v).find? j = m.find? j := by
  cases v
  · exact Sparse.find?_del_other m h
  · exact Sparse.find?_put_other m _ h

@[simp] theorem listed_getD [DecidableEq α] (d v : α) : (listed d v).getD d = v := by
  unfold listed
  split <;> simp_all

/-- A write of any value, the default included, is read back. -/
@[simp] theorem Sparse.get_upd_same [DecidableEq α] (d v : α) (m : Sparse α) (k : Nat) :
    (m.upd k (listed d v)).get d k = v := by simp [Sparse.get]

/-- A write leaves every other key as it was. -/
theorem Sparse.get_upd_other (d : α) (m : Sparse α) {k j : Nat} (v : Option α) (h : j ≠ k) :
    (m.upd k v).get d j = m.get d j := by simp [Sparse.get, Sparse.find?_upd_other m v h]

/-- Every key of a store lies above a bound. -/
def Sparse.above (b : Nat) (m : Sparse α) : Prop := ∀ e ∈ m, b < e.1

theorem Sparse.wf_cons (e : Nat × α) (m : Sparse α) : Sparse.wf (e :: m) = true ↔ Sparse.above e.1 m ∧ Sparse.wf m = true := by
  induction m generalizing e with
  | nil => simp [Sparse.wf, Sparse.above]
  | cons f m ih =>
    obtain ⟨j, v⟩ := e
    obtain ⟨k, w⟩ := f
    simp only [Sparse.wf, Bool.and_eq_true, decide_eq_true_eq, Sparse.above, List.mem_cons, forall_eq_or_imp]
    constructor
    · rintro ⟨hlt, h⟩
      exact ⟨⟨hlt, fun e he => lt_trans hlt (((ih (k, w)).1 h).1 e he)⟩, h⟩
    · rintro ⟨⟨hlt, -⟩, h⟩
      exact ⟨hlt, h⟩

theorem Sparse.mem_put {m : Sparse α} {k : Nat} {v : α} {e : Nat × α} (h : e ∈ m.put k v) : e = (k, v) ∨ e ∈ m := by
  induction m with
  | nil => simpa [Sparse.put] using h
  | cons f m ih =>
    obtain ⟨j, w⟩ := f
    simp only [Sparse.put] at h
    split at h
    · simpa using h
    · split at h
      · rcases List.mem_cons.1 h with h | h
        · exact .inl h
        · exact .inr (List.mem_cons_of_mem _ h)
      · rcases List.mem_cons.1 h with h | h
        · exact .inr (h ▸ List.mem_cons_self ..)
        · exact (ih h).imp_right (List.mem_cons_of_mem _)

theorem Sparse.mem_del {m : Sparse α} {k : Nat} {e : Nat × α} (h : e ∈ m.del k) : e ∈ m := by
  induction m with
  | nil => exact h
  | cons f m ih =>
    obtain ⟨j, w⟩ := f
    simp only [Sparse.del] at h
    split at h
    · exact List.mem_cons_of_mem _ (ih h)
    · rcases List.mem_cons.1 h with h | h
      · exact h ▸ List.mem_cons_self ..
      · exact List.mem_cons_of_mem _ (ih h)

theorem Sparse.wf_put {m : Sparse α} (k : Nat) (v : α) (h : m.wf = true) : (m.put k v).wf = true := by
  induction m with
  | nil => rfl
  | cons f m ih =>
    obtain ⟨j, w⟩ := f
    have hm := (Sparse.wf_cons _ _).1 h
    simp only [Sparse.put]
    split
    · rename_i hk
      refine (Sparse.wf_cons _ _).2 ⟨?_, h⟩
      intro e he
      rcases List.mem_cons.1 he with rfl | he
      · exact hk
      · exact lt_trans hk (hm.1 e he)
    · split
      · subst_vars; exact (Sparse.wf_cons _ _).2 ⟨hm.1, hm.2⟩
      · refine (Sparse.wf_cons _ _).2 ⟨?_, ih hm.2⟩
        intro e he
        rcases Sparse.mem_put he with rfl | he
        · simp only; omega
        · exact hm.1 e he

theorem Sparse.wf_del {m : Sparse α} (k : Nat) (h : m.wf = true) : (m.del k).wf = true := by
  induction m with
  | nil => rfl
  | cons f m ih =>
    obtain ⟨j, w⟩ := f
    have hm := (Sparse.wf_cons _ _).1 h
    simp only [Sparse.del]
    split
    · exact ih hm.2
    · exact (Sparse.wf_cons _ _).2 ⟨fun e he => hm.1 e (Sparse.mem_del he), ih hm.2⟩

/-- A write keeps the order of the keys. -/
theorem Sparse.wf_upd {m : Sparse α} (k : Nat) (v : Option α) (h : m.wf = true) : (m.upd k v).wf = true := by
  cases v
  · exact Sparse.wf_del k h
  · exact Sparse.wf_put k _ h

/-- A write that removes the default keeps the canonical form. -/
theorem Sparse.canon_upd [DecidableEq α] {m : Sparse α} (d : α) (k : Nat) (v : α) (h : m.canon d = true) :
    Sparse.canon d (m.upd k (listed d v)) = true := by
  simp only [Sparse.canon, Bool.and_eq_true, List.all_eq_true, decide_eq_true_eq] at h ⊢
  refine ⟨Sparse.wf_upd k _ h.1, ?_⟩
  intro e he
  unfold listed at he
  split at he
  · exact h.2 e (Sparse.mem_del he)
  · rcases Sparse.mem_put he with rfl | he
    · assumption
    · exact h.2 e he

end Sys2Proof.Machine
end

