-- ==== Sys2Proof/Laws/State.lean ====
section
/-! SUPPORT. What each primitive change does to each field of the state, one lemma per change: the field that it names, and every
other field unchanged. -/
namespace Sys2Proof.Machine

variable {s0 : State}

@[simp] theorem Run.start_val (s : State) : (Run.start s).1 = s := rfl

@[simp] theorem Run.act_val (r : Run s0) (a : Act) : (r.act a).1 = a.apply r.1 := rfl

@[simp] theorem Run.finish_eq (r : Run s0) : r.finish = .next r.1 := rfl

@[simp] theorem Act.apply_regs (k : Nat) (v : Option (Word)) (s : State) :
    (Act.apply (.regs k v) s).pending = s.pending ∧ (Act.apply (.regs k v) s).regs = s.regs.upd k v ∧
    (Act.apply (.regs k v) s).harts = s.harts ∧ (Act.apply (.regs k v) s).xs = s.xs ∧ (Act.apply (.regs k v) s).fs = s.fs ∧
    (Act.apply (.regs k v) s).vs = s.vs ∧ (Act.apply (.regs k v) s).csrs = s.csrs ∧ (Act.apply (.regs k v) s).imsic = s.imsic ∧
    (Act.apply (.regs k v) s).l1i = s.l1i ∧ (Act.apply (.regs k v) s).l1d = s.l1d ∧ (Act.apply (.regs k v) s).l2 = s.l2 ∧
    (Act.apply (.regs k v) s).l3 = s.l3 ∧ (Act.apply (.regs k v) s).plru = s.plru ∧ (Act.apply (.regs k v) s).tiles = s.tiles ∧
    (Act.apply (.regs k v) s).quads = s.quads ∧ (Act.apply (.regs k v) s).seqs = s.seqs ∧ (Act.apply (.regs k v) s).lineq = s.lineq ∧
    (Act.apply (.regs k v) s).slices = s.slices ∧ (Act.apply (.regs k v) s).filt = s.filt ∧ (Act.apply (.regs k v) s).limits = s.limits ∧
    (Act.apply (.regs k v) s).aplic = s.aplic ∧ (Act.apply (.regs k v) s).aplicSrc = s.aplicSrc ∧
    (Act.apply (.regs k v) s).dram = s.dram ∧ (Act.apply (.regs k v) s).chans = s.chans ∧ (Act.apply (.regs k v) s).keys = s.keys ∧
    (Act.apply (.regs k v) s).tbrx = s.tbrx ∧ (Act.apply (.regs k v) s).dies = s.dies ∧ (Act.apply (.regs k v) s).pmuEdge = s.pmuEdge ∧
    (Act.apply (.regs k v) s).groups = s.groups ∧ (Act.apply (.regs k v) s).ecam = s.ecam ∧ (Act.apply (.regs k v) s).msix = s.msix ∧
    (Act.apply (.regs k v) s).jobs = s.jobs ∧ (Act.apply (.regs k v) s).fetched = s.fetched ∧ (Act.apply (.regs k v) s).moved = s.moved ∧
    (Act.apply (.regs k v) s).fnBytes = s.fnBytes ∧ (Act.apply (.regs k v) s).lead = s.lead ∧
    (Act.apply (.regs k v) s).slotTurn = s.slotTurn ∧ (Act.apply (.regs k v) s).aged = s.aged ∧
    (Act.apply (.regs k v) s).iommu = s.iommu ∧ (Act.apply (.regs k v) s).fox = s.fox ∧ (Act.apply (.regs k v) s).weir = s.weir ∧
    (Act.apply (.regs k v) s).wdog = s.wdog ∧ (Act.apply (.regs k v) s).pins = s.pins ∧ (Act.apply (.regs k v) s).net = s.net ∧
    (Act.apply (.regs k v) s).ops = s.ops ∧ (Act.apply (.regs k v) s).need = s.need ∧ (Act.apply (.regs k v) s).poke = s.poke ∧
    (Act.apply (.regs k v) s).out = s.out ∧ (Act.apply (.regs k v) s).free = s.free := by
  and_intros <;> rfl

@[simp] theorem Act.apply_harts (k : Nat) (v : Hart) (s : State) :
    (Act.apply (.harts k v) s).pending = s.pending ∧ (Act.apply (.harts k v) s).regs = s.regs ∧
    (Act.apply (.harts k v) s).harts = s.harts.upd k (listed {} v) ∧ (Act.apply (.harts k v) s).xs = s.xs ∧
    (Act.apply (.harts k v) s).fs = s.fs ∧ (Act.apply (.harts k v) s).vs = s.vs ∧ (Act.apply (.harts k v) s).csrs = s.csrs ∧
    (Act.apply (.harts k v) s).imsic = s.imsic ∧ (Act.apply (.harts k v) s).l1i = s.l1i ∧ (Act.apply (.harts k v) s).l1d = s.l1d ∧
    (Act.apply (.harts k v) s).l2 = s.l2 ∧ (Act.apply (.harts k v) s).l3 = s.l3 ∧ (Act.apply (.harts k v) s).plru = s.plru ∧
    (Act.apply (.harts k v) s).tiles = s.tiles ∧ (Act.apply (.harts k v) s).quads = s.quads ∧ (Act.apply (.harts k v) s).seqs = s.seqs ∧
    (Act.apply (.harts k v) s).lineq = s.lineq ∧ (Act.apply (.harts k v) s).slices = s.slices ∧
    (Act.apply (.harts k v) s).filt = s.filt ∧ (Act.apply (.harts k v) s).limits = s.limits ∧
    (Act.apply (.harts k v) s).aplic = s.aplic ∧ (Act.apply (.harts k v) s).aplicSrc = s.aplicSrc ∧
    (Act.apply (.harts k v) s).dram = s.dram ∧ (Act.apply (.harts k v) s).chans = s.chans ∧ (Act.apply (.harts k v) s).keys = s.keys ∧
    (Act.apply (.harts k v) s).tbrx = s.tbrx ∧ (Act.apply (.harts k v) s).dies = s.dies ∧
    (Act.apply (.harts k v) s).pmuEdge = s.pmuEdge ∧ (Act.apply (.harts k v) s).groups = s.groups ∧
    (Act.apply (.harts k v) s).ecam = s.ecam ∧ (Act.apply (.harts k v) s).msix = s.msix ∧ (Act.apply (.harts k v) s).jobs = s.jobs ∧
    (Act.apply (.harts k v) s).fetched = s.fetched ∧ (Act.apply (.harts k v) s).moved = s.moved ∧
    (Act.apply (.harts k v) s).fnBytes = s.fnBytes ∧ (Act.apply (.harts k v) s).lead = s.lead ∧
    (Act.apply (.harts k v) s).slotTurn = s.slotTurn ∧ (Act.apply (.harts k v) s).aged = s.aged ∧
    (Act.apply (.harts k v) s).iommu = s.iommu ∧ (Act.apply (.harts k v) s).fox = s.fox ∧ (Act.apply (.harts k v) s).weir = s.weir ∧
    (Act.apply (.harts k v) s).wdog = s.wdog ∧ (Act.apply (.harts k v) s).pins = s.pins ∧ (Act.apply (.harts k v) s).net = s.net ∧
    (Act.apply (.harts k v) s).ops = s.ops ∧ (Act.apply (.harts k v) s).need = s.need ∧ (Act.apply (.harts k v) s).poke = s.poke ∧
    (Act.apply (.harts k v) s).out = s.out ∧ (Act.apply (.harts k v) s).free = s.free := by
  and_intros <;> rfl

@[simp] theorem Act.apply_xs (k : Nat) (v : Word) (s : State) :
    (Act.apply (.xs k v) s).pending = s.pending ∧ (Act.apply (.xs k v) s).regs = s.regs ∧ (Act.apply (.xs k v) s).harts = s.harts ∧
    (Act.apply (.xs k v) s).xs = s.xs.upd k (listed 0 v) ∧ (Act.apply (.xs k v) s).fs = s.fs ∧ (Act.apply (.xs k v) s).vs = s.vs ∧
    (Act.apply (.xs k v) s).csrs = s.csrs ∧ (Act.apply (.xs k v) s).imsic = s.imsic ∧ (Act.apply (.xs k v) s).l1i = s.l1i ∧
    (Act.apply (.xs k v) s).l1d = s.l1d ∧ (Act.apply (.xs k v) s).l2 = s.l2 ∧ (Act.apply (.xs k v) s).l3 = s.l3 ∧
    (Act.apply (.xs k v) s).plru = s.plru ∧ (Act.apply (.xs k v) s).tiles = s.tiles ∧ (Act.apply (.xs k v) s).quads = s.quads ∧
    (Act.apply (.xs k v) s).seqs = s.seqs ∧ (Act.apply (.xs k v) s).lineq = s.lineq ∧ (Act.apply (.xs k v) s).slices = s.slices ∧
    (Act.apply (.xs k v) s).filt = s.filt ∧ (Act.apply (.xs k v) s).limits = s.limits ∧ (Act.apply (.xs k v) s).aplic = s.aplic ∧
    (Act.apply (.xs k v) s).aplicSrc = s.aplicSrc ∧ (Act.apply (.xs k v) s).dram = s.dram ∧ (Act.apply (.xs k v) s).chans = s.chans ∧
    (Act.apply (.xs k v) s).keys = s.keys ∧ (Act.apply (.xs k v) s).tbrx = s.tbrx ∧ (Act.apply (.xs k v) s).dies = s.dies ∧
    (Act.apply (.xs k v) s).pmuEdge = s.pmuEdge ∧ (Act.apply (.xs k v) s).groups = s.groups ∧ (Act.apply (.xs k v) s).ecam = s.ecam ∧
    (Act.apply (.xs k v) s).msix = s.msix ∧ (Act.apply (.xs k v) s).jobs = s.jobs ∧ (Act.apply (.xs k v) s).fetched = s.fetched ∧
    (Act.apply (.xs k v) s).moved = s.moved ∧ (Act.apply (.xs k v) s).fnBytes = s.fnBytes ∧ (Act.apply (.xs k v) s).lead = s.lead ∧
    (Act.apply (.xs k v) s).slotTurn = s.slotTurn ∧ (Act.apply (.xs k v) s).aged = s.aged ∧ (Act.apply (.xs k v) s).iommu = s.iommu ∧
    (Act.apply (.xs k v) s).fox = s.fox ∧ (Act.apply (.xs k v) s).weir = s.weir ∧ (Act.apply (.xs k v) s).wdog = s.wdog ∧
    (Act.apply (.xs k v) s).pins = s.pins ∧ (Act.apply (.xs k v) s).net = s.net ∧ (Act.apply (.xs k v) s).ops = s.ops ∧
    (Act.apply (.xs k v) s).need = s.need ∧ (Act.apply (.xs k v) s).poke = s.poke ∧ (Act.apply (.xs k v) s).out = s.out ∧
    (Act.apply (.xs k v) s).free = s.free := by
  and_intros <;> rfl

@[simp] theorem Act.apply_fs (k : Nat) (v : Word) (s : State) :
    (Act.apply (.fs k v) s).pending = s.pending ∧ (Act.apply (.fs k v) s).regs = s.regs ∧ (Act.apply (.fs k v) s).harts = s.harts ∧
    (Act.apply (.fs k v) s).xs = s.xs ∧ (Act.apply (.fs k v) s).fs = s.fs.upd k (listed 0 v) ∧ (Act.apply (.fs k v) s).vs = s.vs ∧
    (Act.apply (.fs k v) s).csrs = s.csrs ∧ (Act.apply (.fs k v) s).imsic = s.imsic ∧ (Act.apply (.fs k v) s).l1i = s.l1i ∧
    (Act.apply (.fs k v) s).l1d = s.l1d ∧ (Act.apply (.fs k v) s).l2 = s.l2 ∧ (Act.apply (.fs k v) s).l3 = s.l3 ∧
    (Act.apply (.fs k v) s).plru = s.plru ∧ (Act.apply (.fs k v) s).tiles = s.tiles ∧ (Act.apply (.fs k v) s).quads = s.quads ∧
    (Act.apply (.fs k v) s).seqs = s.seqs ∧ (Act.apply (.fs k v) s).lineq = s.lineq ∧ (Act.apply (.fs k v) s).slices = s.slices ∧
    (Act.apply (.fs k v) s).filt = s.filt ∧ (Act.apply (.fs k v) s).limits = s.limits ∧ (Act.apply (.fs k v) s).aplic = s.aplic ∧
    (Act.apply (.fs k v) s).aplicSrc = s.aplicSrc ∧ (Act.apply (.fs k v) s).dram = s.dram ∧ (Act.apply (.fs k v) s).chans = s.chans ∧
    (Act.apply (.fs k v) s).keys = s.keys ∧ (Act.apply (.fs k v) s).tbrx = s.tbrx ∧ (Act.apply (.fs k v) s).dies = s.dies ∧
    (Act.apply (.fs k v) s).pmuEdge = s.pmuEdge ∧ (Act.apply (.fs k v) s).groups = s.groups ∧ (Act.apply (.fs k v) s).ecam = s.ecam ∧
    (Act.apply (.fs k v) s).msix = s.msix ∧ (Act.apply (.fs k v) s).jobs = s.jobs ∧ (Act.apply (.fs k v) s).fetched = s.fetched ∧
    (Act.apply (.fs k v) s).moved = s.moved ∧ (Act.apply (.fs k v) s).fnBytes = s.fnBytes ∧ (Act.apply (.fs k v) s).lead = s.lead ∧
    (Act.apply (.fs k v) s).slotTurn = s.slotTurn ∧ (Act.apply (.fs k v) s).aged = s.aged ∧ (Act.apply (.fs k v) s).iommu = s.iommu ∧
    (Act.apply (.fs k v) s).fox = s.fox ∧ (Act.apply (.fs k v) s).weir = s.weir ∧ (Act.apply (.fs k v) s).wdog = s.wdog ∧
    (Act.apply (.fs k v) s).pins = s.pins ∧ (Act.apply (.fs k v) s).net = s.net ∧ (Act.apply (.fs k v) s).ops = s.ops ∧
    (Act.apply (.fs k v) s).need = s.need ∧ (Act.apply (.fs k v) s).poke = s.poke ∧ (Act.apply (.fs k v) s).out = s.out ∧
    (Act.apply (.fs k v) s).free = s.free := by
  and_intros <;> rfl

@[simp] theorem Act.apply_vs (k : Nat) (v : BitVec 256) (s : State) :
    (Act.apply (.vs k v) s).pending = s.pending ∧ (Act.apply (.vs k v) s).regs = s.regs ∧ (Act.apply (.vs k v) s).harts = s.harts ∧
    (Act.apply (.vs k v) s).xs = s.xs ∧ (Act.apply (.vs k v) s).fs = s.fs ∧ (Act.apply (.vs k v) s).vs = s.vs.upd k (listed 0 v) ∧
    (Act.apply (.vs k v) s).csrs = s.csrs ∧ (Act.apply (.vs k v) s).imsic = s.imsic ∧ (Act.apply (.vs k v) s).l1i = s.l1i ∧
    (Act.apply (.vs k v) s).l1d = s.l1d ∧ (Act.apply (.vs k v) s).l2 = s.l2 ∧ (Act.apply (.vs k v) s).l3 = s.l3 ∧
    (Act.apply (.vs k v) s).plru = s.plru ∧ (Act.apply (.vs k v) s).tiles = s.tiles ∧ (Act.apply (.vs k v) s).quads = s.quads ∧
    (Act.apply (.vs k v) s).seqs = s.seqs ∧ (Act.apply (.vs k v) s).lineq = s.lineq ∧ (Act.apply (.vs k v) s).slices = s.slices ∧
    (Act.apply (.vs k v) s).filt = s.filt ∧ (Act.apply (.vs k v) s).limits = s.limits ∧ (Act.apply (.vs k v) s).aplic = s.aplic ∧
    (Act.apply (.vs k v) s).aplicSrc = s.aplicSrc ∧ (Act.apply (.vs k v) s).dram = s.dram ∧ (Act.apply (.vs k v) s).chans = s.chans ∧
    (Act.apply (.vs k v) s).keys = s.keys ∧ (Act.apply (.vs k v) s).tbrx = s.tbrx ∧ (Act.apply (.vs k v) s).dies = s.dies ∧
    (Act.apply (.vs k v) s).pmuEdge = s.pmuEdge ∧ (Act.apply (.vs k v) s).groups = s.groups ∧ (Act.apply (.vs k v) s).ecam = s.ecam ∧
    (Act.apply (.vs k v) s).msix = s.msix ∧ (Act.apply (.vs k v) s).jobs = s.jobs ∧ (Act.apply (.vs k v) s).fetched = s.fetched ∧
    (Act.apply (.vs k v) s).moved = s.moved ∧ (Act.apply (.vs k v) s).fnBytes = s.fnBytes ∧ (Act.apply (.vs k v) s).lead = s.lead ∧
    (Act.apply (.vs k v) s).slotTurn = s.slotTurn ∧ (Act.apply (.vs k v) s).aged = s.aged ∧ (Act.apply (.vs k v) s).iommu = s.iommu ∧
    (Act.apply (.vs k v) s).fox = s.fox ∧ (Act.apply (.vs k v) s).weir = s.weir ∧ (Act.apply (.vs k v) s).wdog = s.wdog ∧
    (Act.apply (.vs k v) s).pins = s.pins ∧ (Act.apply (.vs k v) s).net = s.net ∧ (Act.apply (.vs k v) s).ops = s.ops ∧
    (Act.apply (.vs k v) s).need = s.need ∧ (Act.apply (.vs k v) s).poke = s.poke ∧ (Act.apply (.vs k v) s).out = s.out ∧
    (Act.apply (.vs k v) s).free = s.free := by
  and_intros <;> rfl

@[simp] theorem Act.apply_csrs (k : Nat) (v : Option (Word)) (s : State) :
    (Act.apply (.csrs k v) s).pending = s.pending ∧ (Act.apply (.csrs k v) s).regs = s.regs ∧ (Act.apply (.csrs k v) s).harts = s.harts ∧
    (Act.apply (.csrs k v) s).xs = s.xs ∧ (Act.apply (.csrs k v) s).fs = s.fs ∧ (Act.apply (.csrs k v) s).vs = s.vs ∧
    (Act.apply (.csrs k v) s).csrs = s.csrs.upd k v ∧ (Act.apply (.csrs k v) s).imsic = s.imsic ∧ (Act.apply (.csrs k v) s).l1i = s.l1i ∧
    (Act.apply (.csrs k v) s).l1d = s.l1d ∧ (Act.apply (.csrs k v) s).l2 = s.l2 ∧ (Act.apply (.csrs k v) s).l3 = s.l3 ∧
    (Act.apply (.csrs k v) s).plru = s.plru ∧ (Act.apply (.csrs k v) s).tiles = s.tiles ∧ (Act.apply (.csrs k v) s).quads = s.quads ∧
    (Act.apply (.csrs k v) s).seqs = s.seqs ∧ (Act.apply (.csrs k v) s).lineq = s.lineq ∧ (Act.apply (.csrs k v) s).slices = s.slices ∧
    (Act.apply (.csrs k v) s).filt = s.filt ∧ (Act.apply (.csrs k v) s).limits = s.limits ∧ (Act.apply (.csrs k v) s).aplic = s.aplic ∧
    (Act.apply (.csrs k v) s).aplicSrc = s.aplicSrc ∧ (Act.apply (.csrs k v) s).dram = s.dram ∧
    (Act.apply (.csrs k v) s).chans = s.chans ∧ (Act.apply (.csrs k v) s).keys = s.keys ∧ (Act.apply (.csrs k v) s).tbrx = s.tbrx ∧
    (Act.apply (.csrs k v) s).dies = s.dies ∧ (Act.apply (.csrs k v) s).pmuEdge = s.pmuEdge ∧
    (Act.apply (.csrs k v) s).groups = s.groups ∧ (Act.apply (.csrs k v) s).ecam = s.ecam ∧ (Act.apply (.csrs k v) s).msix = s.msix ∧
    (Act.apply (.csrs k v) s).jobs = s.jobs ∧ (Act.apply (.csrs k v) s).fetched = s.fetched ∧ (Act.apply (.csrs k v) s).moved = s.moved ∧
    (Act.apply (.csrs k v) s).fnBytes = s.fnBytes ∧ (Act.apply (.csrs k v) s).lead = s.lead ∧
    (Act.apply (.csrs k v) s).slotTurn = s.slotTurn ∧ (Act.apply (.csrs k v) s).aged = s.aged ∧
    (Act.apply (.csrs k v) s).iommu = s.iommu ∧ (Act.apply (.csrs k v) s).fox = s.fox ∧ (Act.apply (.csrs k v) s).weir = s.weir ∧
    (Act.apply (.csrs k v) s).wdog = s.wdog ∧ (Act.apply (.csrs k v) s).pins = s.pins ∧ (Act.apply (.csrs k v) s).net = s.net ∧
    (Act.apply (.csrs k v) s).ops = s.ops ∧ (Act.apply (.csrs k v) s).need = s.need ∧ (Act.apply (.csrs k v) s).poke = s.poke ∧
    (Act.apply (.csrs k v) s).out = s.out ∧ (Act.apply (.csrs k v) s).free = s.free := by
  and_intros <;> rfl

@[simp] theorem Act.apply_imsic (k : Nat) (v : Imsic) (s : State) :
    (Act.apply (.imsic k v) s).pending = s.pending ∧ (Act.apply (.imsic k v) s).regs = s.regs ∧
    (Act.apply (.imsic k v) s).harts = s.harts ∧ (Act.apply (.imsic k v) s).xs = s.xs ∧ (Act.apply (.imsic k v) s).fs = s.fs ∧
    (Act.apply (.imsic k v) s).vs = s.vs ∧ (Act.apply (.imsic k v) s).csrs = s.csrs ∧
    (Act.apply (.imsic k v) s).imsic = s.imsic.upd k (listed {} v) ∧ (Act.apply (.imsic k v) s).l1i = s.l1i ∧
    (Act.apply (.imsic k v) s).l1d = s.l1d ∧ (Act.apply (.imsic k v) s).l2 = s.l2 ∧ (Act.apply (.imsic k v) s).l3 = s.l3 ∧
    (Act.apply (.imsic k v) s).plru = s.plru ∧ (Act.apply (.imsic k v) s).tiles = s.tiles ∧ (Act.apply (.imsic k v) s).quads = s.quads ∧
    (Act.apply (.imsic k v) s).seqs = s.seqs ∧ (Act.apply (.imsic k v) s).lineq = s.lineq ∧
    (Act.apply (.imsic k v) s).slices = s.slices ∧ (Act.apply (.imsic k v) s).filt = s.filt ∧
    (Act.apply (.imsic k v) s).limits = s.limits ∧ (Act.apply (.imsic k v) s).aplic = s.aplic ∧
    (Act.apply (.imsic k v) s).aplicSrc = s.aplicSrc ∧ (Act.apply (.imsic k v) s).dram = s.dram ∧
    (Act.apply (.imsic k v) s).chans = s.chans ∧ (Act.apply (.imsic k v) s).keys = s.keys ∧ (Act.apply (.imsic k v) s).tbrx = s.tbrx ∧
    (Act.apply (.imsic k v) s).dies = s.dies ∧ (Act.apply (.imsic k v) s).pmuEdge = s.pmuEdge ∧
    (Act.apply (.imsic k v) s).groups = s.groups ∧ (Act.apply (.imsic k v) s).ecam = s.ecam ∧ (Act.apply (.imsic k v) s).msix = s.msix ∧
    (Act.apply (.imsic k v) s).jobs = s.jobs ∧ (Act.apply (.imsic k v) s).fetched = s.fetched ∧
    (Act.apply (.imsic k v) s).moved = s.moved ∧ (Act.apply (.imsic k v) s).fnBytes = s.fnBytes ∧
    (Act.apply (.imsic k v) s).lead = s.lead ∧ (Act.apply (.imsic k v) s).slotTurn = s.slotTurn ∧
    (Act.apply (.imsic k v) s).aged = s.aged ∧ (Act.apply (.imsic k v) s).iommu = s.iommu ∧ (Act.apply (.imsic k v) s).fox = s.fox ∧
    (Act.apply (.imsic k v) s).weir = s.weir ∧ (Act.apply (.imsic k v) s).wdog = s.wdog ∧ (Act.apply (.imsic k v) s).pins = s.pins ∧
    (Act.apply (.imsic k v) s).net = s.net ∧ (Act.apply (.imsic k v) s).ops = s.ops ∧ (Act.apply (.imsic k v) s).need = s.need ∧
    (Act.apply (.imsic k v) s).poke = s.poke ∧ (Act.apply (.imsic k v) s).out = s.out ∧ (Act.apply (.imsic k v) s).free = s.free := by
  and_intros <;> rfl

@[simp] theorem Act.apply_l1i (k : Nat) (v : Option (L1Slot)) (s : State) :
    (Act.apply (.l1i k v) s).pending = s.pending ∧ (Act.apply (.l1i k v) s).regs = s.regs ∧ (Act.apply (.l1i k v) s).harts = s.harts ∧
    (Act.apply (.l1i k v) s).xs = s.xs ∧ (Act.apply (.l1i k v) s).fs = s.fs ∧ (Act.apply (.l1i k v) s).vs = s.vs ∧
    (Act.apply (.l1i k v) s).csrs = s.csrs ∧ (Act.apply (.l1i k v) s).imsic = s.imsic ∧ (Act.apply (.l1i k v) s).l1i = s.l1i.upd k v ∧
    (Act.apply (.l1i k v) s).l1d = s.l1d ∧ (Act.apply (.l1i k v) s).l2 = s.l2 ∧ (Act.apply (.l1i k v) s).l3 = s.l3 ∧
    (Act.apply (.l1i k v) s).plru = s.plru ∧ (Act.apply (.l1i k v) s).tiles = s.tiles ∧ (Act.apply (.l1i k v) s).quads = s.quads ∧
    (Act.apply (.l1i k v) s).seqs = s.seqs ∧ (Act.apply (.l1i k v) s).lineq = s.lineq ∧ (Act.apply (.l1i k v) s).slices = s.slices ∧
    (Act.apply (.l1i k v) s).filt = s.filt ∧ (Act.apply (.l1i k v) s).limits = s.limits ∧ (Act.apply (.l1i k v) s).aplic = s.aplic ∧
    (Act.apply (.l1i k v) s).aplicSrc = s.aplicSrc ∧ (Act.apply (.l1i k v) s).dram = s.dram ∧ (Act.apply (.l1i k v) s).chans = s.chans ∧
    (Act.apply (.l1i k v) s).keys = s.keys ∧ (Act.apply (.l1i k v) s).tbrx = s.tbrx ∧ (Act.apply (.l1i k v) s).dies = s.dies ∧
    (Act.apply (.l1i k v) s).pmuEdge = s.pmuEdge ∧ (Act.apply (.l1i k v) s).groups = s.groups ∧ (Act.apply (.l1i k v) s).ecam = s.ecam ∧
    (Act.apply (.l1i k v) s).msix = s.msix ∧ (Act.apply (.l1i k v) s).jobs = s.jobs ∧ (Act.apply (.l1i k v) s).fetched = s.fetched ∧
    (Act.apply (.l1i k v) s).moved = s.moved ∧ (Act.apply (.l1i k v) s).fnBytes = s.fnBytes ∧ (Act.apply (.l1i k v) s).lead = s.lead ∧
    (Act.apply (.l1i k v) s).slotTurn = s.slotTurn ∧ (Act.apply (.l1i k v) s).aged = s.aged ∧ (Act.apply (.l1i k v) s).iommu = s.iommu ∧
    (Act.apply (.l1i k v) s).fox = s.fox ∧ (Act.apply (.l1i k v) s).weir = s.weir ∧ (Act.apply (.l1i k v) s).wdog = s.wdog ∧
    (Act.apply (.l1i k v) s).pins = s.pins ∧ (Act.apply (.l1i k v) s).net = s.net ∧ (Act.apply (.l1i k v) s).ops = s.ops ∧
    (Act.apply (.l1i k v) s).need = s.need ∧ (Act.apply (.l1i k v) s).poke = s.poke ∧ (Act.apply (.l1i k v) s).out = s.out ∧
    (Act.apply (.l1i k v) s).free = s.free := by
  and_intros <;> rfl

@[simp] theorem Act.apply_l1d (k : Nat) (v : Option (L1Slot)) (s : State) :
    (Act.apply (.l1d k v) s).pending = s.pending ∧ (Act.apply (.l1d k v) s).regs = s.regs ∧ (Act.apply (.l1d k v) s).harts = s.harts ∧
    (Act.apply (.l1d k v) s).xs = s.xs ∧ (Act.apply (.l1d k v) s).fs = s.fs ∧ (Act.apply (.l1d k v) s).vs = s.vs ∧
    (Act.apply (.l1d k v) s).csrs = s.csrs ∧ (Act.apply (.l1d k v) s).imsic = s.imsic ∧ (Act.apply (.l1d k v) s).l1i = s.l1i ∧
    (Act.apply (.l1d k v) s).l1d = s.l1d.upd k v ∧ (Act.apply (.l1d k v) s).l2 = s.l2 ∧ (Act.apply (.l1d k v) s).l3 = s.l3 ∧
    (Act.apply (.l1d k v) s).plru = s.plru ∧ (Act.apply (.l1d k v) s).tiles = s.tiles ∧ (Act.apply (.l1d k v) s).quads = s.quads ∧
    (Act.apply (.l1d k v) s).seqs = s.seqs ∧ (Act.apply (.l1d k v) s).lineq = s.lineq ∧ (Act.apply (.l1d k v) s).slices = s.slices ∧
    (Act.apply (.l1d k v) s).filt = s.filt ∧ (Act.apply (.l1d k v) s).limits = s.limits ∧ (Act.apply (.l1d k v) s).aplic = s.aplic ∧
    (Act.apply (.l1d k v) s).aplicSrc = s.aplicSrc ∧ (Act.apply (.l1d k v) s).dram = s.dram ∧ (Act.apply (.l1d k v) s).chans = s.chans ∧
    (Act.apply (.l1d k v) s).keys = s.keys ∧ (Act.apply (.l1d k v) s).tbrx = s.tbrx ∧ (Act.apply (.l1d k v) s).dies = s.dies ∧
    (Act.apply (.l1d k v) s).pmuEdge = s.pmuEdge ∧ (Act.apply (.l1d k v) s).groups = s.groups ∧ (Act.apply (.l1d k v) s).ecam = s.ecam ∧
    (Act.apply (.l1d k v) s).msix = s.msix ∧ (Act.apply (.l1d k v) s).jobs = s.jobs ∧ (Act.apply (.l1d k v) s).fetched = s.fetched ∧
    (Act.apply (.l1d k v) s).moved = s.moved ∧ (Act.apply (.l1d k v) s).fnBytes = s.fnBytes ∧ (Act.apply (.l1d k v) s).lead = s.lead ∧
    (Act.apply (.l1d k v) s).slotTurn = s.slotTurn ∧ (Act.apply (.l1d k v) s).aged = s.aged ∧ (Act.apply (.l1d k v) s).iommu = s.iommu ∧
    (Act.apply (.l1d k v) s).fox = s.fox ∧ (Act.apply (.l1d k v) s).weir = s.weir ∧ (Act.apply (.l1d k v) s).wdog = s.wdog ∧
    (Act.apply (.l1d k v) s).pins = s.pins ∧ (Act.apply (.l1d k v) s).net = s.net ∧ (Act.apply (.l1d k v) s).ops = s.ops ∧
    (Act.apply (.l1d k v) s).need = s.need ∧ (Act.apply (.l1d k v) s).poke = s.poke ∧ (Act.apply (.l1d k v) s).out = s.out ∧
    (Act.apply (.l1d k v) s).free = s.free := by
  and_intros <;> rfl

@[simp] theorem Act.apply_l2 (k : Nat) (v : Option (L2Slot)) (s : State) :
    (Act.apply (.l2 k v) s).pending = s.pending ∧ (Act.apply (.l2 k v) s).regs = s.regs ∧ (Act.apply (.l2 k v) s).harts = s.harts ∧
    (Act.apply (.l2 k v) s).xs = s.xs ∧ (Act.apply (.l2 k v) s).fs = s.fs ∧ (Act.apply (.l2 k v) s).vs = s.vs ∧
    (Act.apply (.l2 k v) s).csrs = s.csrs ∧ (Act.apply (.l2 k v) s).imsic = s.imsic ∧ (Act.apply (.l2 k v) s).l1i = s.l1i ∧
    (Act.apply (.l2 k v) s).l1d = s.l1d ∧ (Act.apply (.l2 k v) s).l2 = s.l2.upd k v ∧ (Act.apply (.l2 k v) s).l3 = s.l3 ∧
    (Act.apply (.l2 k v) s).plru = s.plru ∧ (Act.apply (.l2 k v) s).tiles = s.tiles ∧ (Act.apply (.l2 k v) s).quads = s.quads ∧
    (Act.apply (.l2 k v) s).seqs = s.seqs ∧ (Act.apply (.l2 k v) s).lineq = s.lineq ∧ (Act.apply (.l2 k v) s).slices = s.slices ∧
    (Act.apply (.l2 k v) s).filt = s.filt ∧ (Act.apply (.l2 k v) s).limits = s.limits ∧ (Act.apply (.l2 k v) s).aplic = s.aplic ∧
    (Act.apply (.l2 k v) s).aplicSrc = s.aplicSrc ∧ (Act.apply (.l2 k v) s).dram = s.dram ∧ (Act.apply (.l2 k v) s).chans = s.chans ∧
    (Act.apply (.l2 k v) s).keys = s.keys ∧ (Act.apply (.l2 k v) s).tbrx = s.tbrx ∧ (Act.apply (.l2 k v) s).dies = s.dies ∧
    (Act.apply (.l2 k v) s).pmuEdge = s.pmuEdge ∧ (Act.apply (.l2 k v) s).groups = s.groups ∧ (Act.apply (.l2 k v) s).ecam = s.ecam ∧
    (Act.apply (.l2 k v) s).msix = s.msix ∧ (Act.apply (.l2 k v) s).jobs = s.jobs ∧ (Act.apply (.l2 k v) s).fetched = s.fetched ∧
    (Act.apply (.l2 k v) s).moved = s.moved ∧ (Act.apply (.l2 k v) s).fnBytes = s.fnBytes ∧ (Act.apply (.l2 k v) s).lead = s.lead ∧
    (Act.apply (.l2 k v) s).slotTurn = s.slotTurn ∧ (Act.apply (.l2 k v) s).aged = s.aged ∧ (Act.apply (.l2 k v) s).iommu = s.iommu ∧
    (Act.apply (.l2 k v) s).fox = s.fox ∧ (Act.apply (.l2 k v) s).weir = s.weir ∧ (Act.apply (.l2 k v) s).wdog = s.wdog ∧
    (Act.apply (.l2 k v) s).pins = s.pins ∧ (Act.apply (.l2 k v) s).net = s.net ∧ (Act.apply (.l2 k v) s).ops = s.ops ∧
    (Act.apply (.l2 k v) s).need = s.need ∧ (Act.apply (.l2 k v) s).poke = s.poke ∧ (Act.apply (.l2 k v) s).out = s.out ∧
    (Act.apply (.l2 k v) s).free = s.free := by
  and_intros <;> rfl

@[simp] theorem Act.apply_l3 (k : Nat) (v : Option (L3Slot)) (s : State) :
    (Act.apply (.l3 k v) s).pending = s.pending ∧ (Act.apply (.l3 k v) s).regs = s.regs ∧ (Act.apply (.l3 k v) s).harts = s.harts ∧
    (Act.apply (.l3 k v) s).xs = s.xs ∧ (Act.apply (.l3 k v) s).fs = s.fs ∧ (Act.apply (.l3 k v) s).vs = s.vs ∧
    (Act.apply (.l3 k v) s).csrs = s.csrs ∧ (Act.apply (.l3 k v) s).imsic = s.imsic ∧ (Act.apply (.l3 k v) s).l1i = s.l1i ∧
    (Act.apply (.l3 k v) s).l1d = s.l1d ∧ (Act.apply (.l3 k v) s).l2 = s.l2 ∧ (Act.apply (.l3 k v) s).l3 = s.l3.upd k v ∧
    (Act.apply (.l3 k v) s).plru = s.plru ∧ (Act.apply (.l3 k v) s).tiles = s.tiles ∧ (Act.apply (.l3 k v) s).quads = s.quads ∧
    (Act.apply (.l3 k v) s).seqs = s.seqs ∧ (Act.apply (.l3 k v) s).lineq = s.lineq ∧ (Act.apply (.l3 k v) s).slices = s.slices ∧
    (Act.apply (.l3 k v) s).filt = s.filt ∧ (Act.apply (.l3 k v) s).limits = s.limits ∧ (Act.apply (.l3 k v) s).aplic = s.aplic ∧
    (Act.apply (.l3 k v) s).aplicSrc = s.aplicSrc ∧ (Act.apply (.l3 k v) s).dram = s.dram ∧ (Act.apply (.l3 k v) s).chans = s.chans ∧
    (Act.apply (.l3 k v) s).keys = s.keys ∧ (Act.apply (.l3 k v) s).tbrx = s.tbrx ∧ (Act.apply (.l3 k v) s).dies = s.dies ∧
    (Act.apply (.l3 k v) s).pmuEdge = s.pmuEdge ∧ (Act.apply (.l3 k v) s).groups = s.groups ∧ (Act.apply (.l3 k v) s).ecam = s.ecam ∧
    (Act.apply (.l3 k v) s).msix = s.msix ∧ (Act.apply (.l3 k v) s).jobs = s.jobs ∧ (Act.apply (.l3 k v) s).fetched = s.fetched ∧
    (Act.apply (.l3 k v) s).moved = s.moved ∧ (Act.apply (.l3 k v) s).fnBytes = s.fnBytes ∧ (Act.apply (.l3 k v) s).lead = s.lead ∧
    (Act.apply (.l3 k v) s).slotTurn = s.slotTurn ∧ (Act.apply (.l3 k v) s).aged = s.aged ∧ (Act.apply (.l3 k v) s).iommu = s.iommu ∧
    (Act.apply (.l3 k v) s).fox = s.fox ∧ (Act.apply (.l3 k v) s).weir = s.weir ∧ (Act.apply (.l3 k v) s).wdog = s.wdog ∧
    (Act.apply (.l3 k v) s).pins = s.pins ∧ (Act.apply (.l3 k v) s).net = s.net ∧ (Act.apply (.l3 k v) s).ops = s.ops ∧
    (Act.apply (.l3 k v) s).need = s.need ∧ (Act.apply (.l3 k v) s).poke = s.poke ∧ (Act.apply (.l3 k v) s).out = s.out ∧
    (Act.apply (.l3 k v) s).free = s.free := by
  and_intros <;> rfl

@[simp] theorem Act.apply_plru (k : Nat) (v : Nat) (s : State) :
    (Act.apply (.plru k v) s).pending = s.pending ∧ (Act.apply (.plru k v) s).regs = s.regs ∧ (Act.apply (.plru k v) s).harts = s.harts ∧
    (Act.apply (.plru k v) s).xs = s.xs ∧ (Act.apply (.plru k v) s).fs = s.fs ∧ (Act.apply (.plru k v) s).vs = s.vs ∧
    (Act.apply (.plru k v) s).csrs = s.csrs ∧ (Act.apply (.plru k v) s).imsic = s.imsic ∧ (Act.apply (.plru k v) s).l1i = s.l1i ∧
    (Act.apply (.plru k v) s).l1d = s.l1d ∧ (Act.apply (.plru k v) s).l2 = s.l2 ∧ (Act.apply (.plru k v) s).l3 = s.l3 ∧
    (Act.apply (.plru k v) s).plru = s.plru.upd k (listed 0 v) ∧ (Act.apply (.plru k v) s).tiles = s.tiles ∧
    (Act.apply (.plru k v) s).quads = s.quads ∧ (Act.apply (.plru k v) s).seqs = s.seqs ∧ (Act.apply (.plru k v) s).lineq = s.lineq ∧
    (Act.apply (.plru k v) s).slices = s.slices ∧ (Act.apply (.plru k v) s).filt = s.filt ∧ (Act.apply (.plru k v) s).limits = s.limits ∧
    (Act.apply (.plru k v) s).aplic = s.aplic ∧ (Act.apply (.plru k v) s).aplicSrc = s.aplicSrc ∧
    (Act.apply (.plru k v) s).dram = s.dram ∧ (Act.apply (.plru k v) s).chans = s.chans ∧ (Act.apply (.plru k v) s).keys = s.keys ∧
    (Act.apply (.plru k v) s).tbrx = s.tbrx ∧ (Act.apply (.plru k v) s).dies = s.dies ∧ (Act.apply (.plru k v) s).pmuEdge = s.pmuEdge ∧
    (Act.apply (.plru k v) s).groups = s.groups ∧ (Act.apply (.plru k v) s).ecam = s.ecam ∧ (Act.apply (.plru k v) s).msix = s.msix ∧
    (Act.apply (.plru k v) s).jobs = s.jobs ∧ (Act.apply (.plru k v) s).fetched = s.fetched ∧ (Act.apply (.plru k v) s).moved = s.moved ∧
    (Act.apply (.plru k v) s).fnBytes = s.fnBytes ∧ (Act.apply (.plru k v) s).lead = s.lead ∧
    (Act.apply (.plru k v) s).slotTurn = s.slotTurn ∧ (Act.apply (.plru k v) s).aged = s.aged ∧
    (Act.apply (.plru k v) s).iommu = s.iommu ∧ (Act.apply (.plru k v) s).fox = s.fox ∧ (Act.apply (.plru k v) s).weir = s.weir ∧
    (Act.apply (.plru k v) s).wdog = s.wdog ∧ (Act.apply (.plru k v) s).pins = s.pins ∧ (Act.apply (.plru k v) s).net = s.net ∧
    (Act.apply (.plru k v) s).ops = s.ops ∧ (Act.apply (.plru k v) s).need = s.need ∧ (Act.apply (.plru k v) s).poke = s.poke ∧
    (Act.apply (.plru k v) s).out = s.out ∧ (Act.apply (.plru k v) s).free = s.free := by
  and_intros <;> rfl

@[simp] theorem Act.apply_tiles (k : Nat) (v : Tile) (s : State) :
    (Act.apply (.tiles k v) s).pending = s.pending ∧ (Act.apply (.tiles k v) s).regs = s.regs ∧
    (Act.apply (.tiles k v) s).harts = s.harts ∧ (Act.apply (.tiles k v) s).xs = s.xs ∧ (Act.apply (.tiles k v) s).fs = s.fs ∧
    (Act.apply (.tiles k v) s).vs = s.vs ∧ (Act.apply (.tiles k v) s).csrs = s.csrs ∧ (Act.apply (.tiles k v) s).imsic = s.imsic ∧
    (Act.apply (.tiles k v) s).l1i = s.l1i ∧ (Act.apply (.tiles k v) s).l1d = s.l1d ∧ (Act.apply (.tiles k v) s).l2 = s.l2 ∧
    (Act.apply (.tiles k v) s).l3 = s.l3 ∧ (Act.apply (.tiles k v) s).plru = s.plru ∧
    (Act.apply (.tiles k v) s).tiles = s.tiles.upd k (listed {} v) ∧ (Act.apply (.tiles k v) s).quads = s.quads ∧
    (Act.apply (.tiles k v) s).seqs = s.seqs ∧ (Act.apply (.tiles k v) s).lineq = s.lineq ∧
    (Act.apply (.tiles k v) s).slices = s.slices ∧ (Act.apply (.tiles k v) s).filt = s.filt ∧
    (Act.apply (.tiles k v) s).limits = s.limits ∧ (Act.apply (.tiles k v) s).aplic = s.aplic ∧
    (Act.apply (.tiles k v) s).aplicSrc = s.aplicSrc ∧ (Act.apply (.tiles k v) s).dram = s.dram ∧
    (Act.apply (.tiles k v) s).chans = s.chans ∧ (Act.apply (.tiles k v) s).keys = s.keys ∧ (Act.apply (.tiles k v) s).tbrx = s.tbrx ∧
    (Act.apply (.tiles k v) s).dies = s.dies ∧ (Act.apply (.tiles k v) s).pmuEdge = s.pmuEdge ∧
    (Act.apply (.tiles k v) s).groups = s.groups ∧ (Act.apply (.tiles k v) s).ecam = s.ecam ∧ (Act.apply (.tiles k v) s).msix = s.msix ∧
    (Act.apply (.tiles k v) s).jobs = s.jobs ∧ (Act.apply (.tiles k v) s).fetched = s.fetched ∧
    (Act.apply (.tiles k v) s).moved = s.moved ∧ (Act.apply (.tiles k v) s).fnBytes = s.fnBytes ∧
    (Act.apply (.tiles k v) s).lead = s.lead ∧ (Act.apply (.tiles k v) s).slotTurn = s.slotTurn ∧
    (Act.apply (.tiles k v) s).aged = s.aged ∧ (Act.apply (.tiles k v) s).iommu = s.iommu ∧ (Act.apply (.tiles k v) s).fox = s.fox ∧
    (Act.apply (.tiles k v) s).weir = s.weir ∧ (Act.apply (.tiles k v) s).wdog = s.wdog ∧ (Act.apply (.tiles k v) s).pins = s.pins ∧
    (Act.apply (.tiles k v) s).net = s.net ∧ (Act.apply (.tiles k v) s).ops = s.ops ∧ (Act.apply (.tiles k v) s).need = s.need ∧
    (Act.apply (.tiles k v) s).poke = s.poke ∧ (Act.apply (.tiles k v) s).out = s.out ∧ (Act.apply (.tiles k v) s).free = s.free := by
  and_intros <;> rfl

@[simp] theorem Act.apply_quads (k : Nat) (v : Quad) (s : State) :
    (Act.apply (.quads k v) s).pending = s.pending ∧ (Act.apply (.quads k v) s).regs = s.regs ∧
    (Act.apply (.quads k v) s).harts = s.harts ∧ (Act.apply (.quads k v) s).xs = s.xs ∧ (Act.apply (.quads k v) s).fs = s.fs ∧
    (Act.apply (.quads k v) s).vs = s.vs ∧ (Act.apply (.quads k v) s).csrs = s.csrs ∧ (Act.apply (.quads k v) s).imsic = s.imsic ∧
    (Act.apply (.quads k v) s).l1i = s.l1i ∧ (Act.apply (.quads k v) s).l1d = s.l1d ∧ (Act.apply (.quads k v) s).l2 = s.l2 ∧
    (Act.apply (.quads k v) s).l3 = s.l3 ∧ (Act.apply (.quads k v) s).plru = s.plru ∧ (Act.apply (.quads k v) s).tiles = s.tiles ∧
    (Act.apply (.quads k v) s).quads = s.quads.upd k (listed {} v) ∧ (Act.apply (.quads k v) s).seqs = s.seqs ∧
    (Act.apply (.quads k v) s).lineq = s.lineq ∧ (Act.apply (.quads k v) s).slices = s.slices ∧
    (Act.apply (.quads k v) s).filt = s.filt ∧ (Act.apply (.quads k v) s).limits = s.limits ∧
    (Act.apply (.quads k v) s).aplic = s.aplic ∧ (Act.apply (.quads k v) s).aplicSrc = s.aplicSrc ∧
    (Act.apply (.quads k v) s).dram = s.dram ∧ (Act.apply (.quads k v) s).chans = s.chans ∧ (Act.apply (.quads k v) s).keys = s.keys ∧
    (Act.apply (.quads k v) s).tbrx = s.tbrx ∧ (Act.apply (.quads k v) s).dies = s.dies ∧
    (Act.apply (.quads k v) s).pmuEdge = s.pmuEdge ∧ (Act.apply (.quads k v) s).groups = s.groups ∧
    (Act.apply (.quads k v) s).ecam = s.ecam ∧ (Act.apply (.quads k v) s).msix = s.msix ∧ (Act.apply (.quads k v) s).jobs = s.jobs ∧
    (Act.apply (.quads k v) s).fetched = s.fetched ∧ (Act.apply (.quads k v) s).moved = s.moved ∧
    (Act.apply (.quads k v) s).fnBytes = s.fnBytes ∧ (Act.apply (.quads k v) s).lead = s.lead ∧
    (Act.apply (.quads k v) s).slotTurn = s.slotTurn ∧ (Act.apply (.quads k v) s).aged = s.aged ∧
    (Act.apply (.quads k v) s).iommu = s.iommu ∧ (Act.apply (.quads k v) s).fox = s.fox ∧ (Act.apply (.quads k v) s).weir = s.weir ∧
    (Act.apply (.quads k v) s).wdog = s.wdog ∧ (Act.apply (.quads k v) s).pins = s.pins ∧ (Act.apply (.quads k v) s).net = s.net ∧
    (Act.apply (.quads k v) s).ops = s.ops ∧ (Act.apply (.quads k v) s).need = s.need ∧ (Act.apply (.quads k v) s).poke = s.poke ∧
    (Act.apply (.quads k v) s).out = s.out ∧ (Act.apply (.quads k v) s).free = s.free := by
  and_intros <;> rfl

@[simp] theorem Act.apply_seqs (k : Nat) (v : Nat) (s : State) :
    (Act.apply (.seqs k v) s).pending = s.pending ∧ (Act.apply (.seqs k v) s).regs = s.regs ∧ (Act.apply (.seqs k v) s).harts = s.harts ∧
    (Act.apply (.seqs k v) s).xs = s.xs ∧ (Act.apply (.seqs k v) s).fs = s.fs ∧ (Act.apply (.seqs k v) s).vs = s.vs ∧
    (Act.apply (.seqs k v) s).csrs = s.csrs ∧ (Act.apply (.seqs k v) s).imsic = s.imsic ∧ (Act.apply (.seqs k v) s).l1i = s.l1i ∧
    (Act.apply (.seqs k v) s).l1d = s.l1d ∧ (Act.apply (.seqs k v) s).l2 = s.l2 ∧ (Act.apply (.seqs k v) s).l3 = s.l3 ∧
    (Act.apply (.seqs k v) s).plru = s.plru ∧ (Act.apply (.seqs k v) s).tiles = s.tiles ∧ (Act.apply (.seqs k v) s).quads = s.quads ∧
    (Act.apply (.seqs k v) s).seqs = s.seqs.upd k (listed 0 v) ∧ (Act.apply (.seqs k v) s).lineq = s.lineq ∧
    (Act.apply (.seqs k v) s).slices = s.slices ∧ (Act.apply (.seqs k v) s).filt = s.filt ∧ (Act.apply (.seqs k v) s).limits = s.limits ∧
    (Act.apply (.seqs k v) s).aplic = s.aplic ∧ (Act.apply (.seqs k v) s).aplicSrc = s.aplicSrc ∧
    (Act.apply (.seqs k v) s).dram = s.dram ∧ (Act.apply (.seqs k v) s).chans = s.chans ∧ (Act.apply (.seqs k v) s).keys = s.keys ∧
    (Act.apply (.seqs k v) s).tbrx = s.tbrx ∧ (Act.apply (.seqs k v) s).dies = s.dies ∧ (Act.apply (.seqs k v) s).pmuEdge = s.pmuEdge ∧
    (Act.apply (.seqs k v) s).groups = s.groups ∧ (Act.apply (.seqs k v) s).ecam = s.ecam ∧ (Act.apply (.seqs k v) s).msix = s.msix ∧
    (Act.apply (.seqs k v) s).jobs = s.jobs ∧ (Act.apply (.seqs k v) s).fetched = s.fetched ∧ (Act.apply (.seqs k v) s).moved = s.moved ∧
    (Act.apply (.seqs k v) s).fnBytes = s.fnBytes ∧ (Act.apply (.seqs k v) s).lead = s.lead ∧
    (Act.apply (.seqs k v) s).slotTurn = s.slotTurn ∧ (Act.apply (.seqs k v) s).aged = s.aged ∧
    (Act.apply (.seqs k v) s).iommu = s.iommu ∧ (Act.apply (.seqs k v) s).fox = s.fox ∧ (Act.apply (.seqs k v) s).weir = s.weir ∧
    (Act.apply (.seqs k v) s).wdog = s.wdog ∧ (Act.apply (.seqs k v) s).pins = s.pins ∧ (Act.apply (.seqs k v) s).net = s.net ∧
    (Act.apply (.seqs k v) s).ops = s.ops ∧ (Act.apply (.seqs k v) s).need = s.need ∧ (Act.apply (.seqs k v) s).poke = s.poke ∧
    (Act.apply (.seqs k v) s).out = s.out ∧ (Act.apply (.seqs k v) s).free = s.free := by
  and_intros <;> rfl

@[simp] theorem Act.apply_lineq (k : Nat) (v : List HReq) (s : State) :
    (Act.apply (.lineq k v) s).pending = s.pending ∧ (Act.apply (.lineq k v) s).regs = s.regs ∧
    (Act.apply (.lineq k v) s).harts = s.harts ∧ (Act.apply (.lineq k v) s).xs = s.xs ∧ (Act.apply (.lineq k v) s).fs = s.fs ∧
    (Act.apply (.lineq k v) s).vs = s.vs ∧ (Act.apply (.lineq k v) s).csrs = s.csrs ∧ (Act.apply (.lineq k v) s).imsic = s.imsic ∧
    (Act.apply (.lineq k v) s).l1i = s.l1i ∧ (Act.apply (.lineq k v) s).l1d = s.l1d ∧ (Act.apply (.lineq k v) s).l2 = s.l2 ∧
    (Act.apply (.lineq k v) s).l3 = s.l3 ∧ (Act.apply (.lineq k v) s).plru = s.plru ∧ (Act.apply (.lineq k v) s).tiles = s.tiles ∧
    (Act.apply (.lineq k v) s).quads = s.quads ∧ (Act.apply (.lineq k v) s).seqs = s.seqs ∧
    (Act.apply (.lineq k v) s).lineq = s.lineq.upd k (listed [] v) ∧ (Act.apply (.lineq k v) s).slices = s.slices ∧
    (Act.apply (.lineq k v) s).filt = s.filt ∧ (Act.apply (.lineq k v) s).limits = s.limits ∧
    (Act.apply (.lineq k v) s).aplic = s.aplic ∧ (Act.apply (.lineq k v) s).aplicSrc = s.aplicSrc ∧
    (Act.apply (.lineq k v) s).dram = s.dram ∧ (Act.apply (.lineq k v) s).chans = s.chans ∧ (Act.apply (.lineq k v) s).keys = s.keys ∧
    (Act.apply (.lineq k v) s).tbrx = s.tbrx ∧ (Act.apply (.lineq k v) s).dies = s.dies ∧
    (Act.apply (.lineq k v) s).pmuEdge = s.pmuEdge ∧ (Act.apply (.lineq k v) s).groups = s.groups ∧
    (Act.apply (.lineq k v) s).ecam = s.ecam ∧ (Act.apply (.lineq k v) s).msix = s.msix ∧ (Act.apply (.lineq k v) s).jobs = s.jobs ∧
    (Act.apply (.lineq k v) s).fetched = s.fetched ∧ (Act.apply (.lineq k v) s).moved = s.moved ∧
    (Act.apply (.lineq k v) s).fnBytes = s.fnBytes ∧ (Act.apply (.lineq k v) s).lead = s.lead ∧
    (Act.apply (.lineq k v) s).slotTurn = s.slotTurn ∧ (Act.apply (.lineq k v) s).aged = s.aged ∧
    (Act.apply (.lineq k v) s).iommu = s.iommu ∧ (Act.apply (.lineq k v) s).fox = s.fox ∧ (Act.apply (.lineq k v) s).weir = s.weir ∧
    (Act.apply (.lineq k v) s).wdog = s.wdog ∧ (Act.apply (.lineq k v) s).pins = s.pins ∧ (Act.apply (.lineq k v) s).net = s.net ∧
    (Act.apply (.lineq k v) s).ops = s.ops ∧ (Act.apply (.lineq k v) s).need = s.need ∧ (Act.apply (.lineq k v) s).poke = s.poke ∧
    (Act.apply (.lineq k v) s).out = s.out ∧ (Act.apply (.lineq k v) s).free = s.free := by
  and_intros <;> rfl

@[simp] theorem Act.apply_slices (k : Nat) (v : Slice) (s : State) :
    (Act.apply (.slices k v) s).pending = s.pending ∧ (Act.apply (.slices k v) s).regs = s.regs ∧
    (Act.apply (.slices k v) s).harts = s.harts ∧ (Act.apply (.slices k v) s).xs = s.xs ∧ (Act.apply (.slices k v) s).fs = s.fs ∧
    (Act.apply (.slices k v) s).vs = s.vs ∧ (Act.apply (.slices k v) s).csrs = s.csrs ∧ (Act.apply (.slices k v) s).imsic = s.imsic ∧
    (Act.apply (.slices k v) s).l1i = s.l1i ∧ (Act.apply (.slices k v) s).l1d = s.l1d ∧ (Act.apply (.slices k v) s).l2 = s.l2 ∧
    (Act.apply (.slices k v) s).l3 = s.l3 ∧ (Act.apply (.slices k v) s).plru = s.plru ∧ (Act.apply (.slices k v) s).tiles = s.tiles ∧
    (Act.apply (.slices k v) s).quads = s.quads ∧ (Act.apply (.slices k v) s).seqs = s.seqs ∧
    (Act.apply (.slices k v) s).lineq = s.lineq ∧ (Act.apply (.slices k v) s).slices = s.slices.upd k (listed {} v) ∧
    (Act.apply (.slices k v) s).filt = s.filt ∧ (Act.apply (.slices k v) s).limits = s.limits ∧
    (Act.apply (.slices k v) s).aplic = s.aplic ∧ (Act.apply (.slices k v) s).aplicSrc = s.aplicSrc ∧
    (Act.apply (.slices k v) s).dram = s.dram ∧ (Act.apply (.slices k v) s).chans = s.chans ∧ (Act.apply (.slices k v) s).keys = s.keys ∧
    (Act.apply (.slices k v) s).tbrx = s.tbrx ∧ (Act.apply (.slices k v) s).dies = s.dies ∧
    (Act.apply (.slices k v) s).pmuEdge = s.pmuEdge ∧ (Act.apply (.slices k v) s).groups = s.groups ∧
    (Act.apply (.slices k v) s).ecam = s.ecam ∧ (Act.apply (.slices k v) s).msix = s.msix ∧ (Act.apply (.slices k v) s).jobs = s.jobs ∧
    (Act.apply (.slices k v) s).fetched = s.fetched ∧ (Act.apply (.slices k v) s).moved = s.moved ∧
    (Act.apply (.slices k v) s).fnBytes = s.fnBytes ∧ (Act.apply (.slices k v) s).lead = s.lead ∧
    (Act.apply (.slices k v) s).slotTurn = s.slotTurn ∧ (Act.apply (.slices k v) s).aged = s.aged ∧
    (Act.apply (.slices k v) s).iommu = s.iommu ∧ (Act.apply (.slices k v) s).fox = s.fox ∧ (Act.apply (.slices k v) s).weir = s.weir ∧
    (Act.apply (.slices k v) s).wdog = s.wdog ∧ (Act.apply (.slices k v) s).pins = s.pins ∧ (Act.apply (.slices k v) s).net = s.net ∧
    (Act.apply (.slices k v) s).ops = s.ops ∧ (Act.apply (.slices k v) s).need = s.need ∧ (Act.apply (.slices k v) s).poke = s.poke ∧
    (Act.apply (.slices k v) s).out = s.out ∧ (Act.apply (.slices k v) s).free = s.free := by
  and_intros <;> rfl

@[simp] theorem Act.apply_filt (k : Nat) (v : Option (FEntry)) (s : State) :
    (Act.apply (.filt k v) s).pending = s.pending ∧ (Act.apply (.filt k v) s).regs = s.regs ∧ (Act.apply (.filt k v) s).harts = s.harts ∧
    (Act.apply (.filt k v) s).xs = s.xs ∧ (Act.apply (.filt k v) s).fs = s.fs ∧ (Act.apply (.filt k v) s).vs = s.vs ∧
    (Act.apply (.filt k v) s).csrs = s.csrs ∧ (Act.apply (.filt k v) s).imsic = s.imsic ∧ (Act.apply (.filt k v) s).l1i = s.l1i ∧
    (Act.apply (.filt k v) s).l1d = s.l1d ∧ (Act.apply (.filt k v) s).l2 = s.l2 ∧ (Act.apply (.filt k v) s).l3 = s.l3 ∧
    (Act.apply (.filt k v) s).plru = s.plru ∧ (Act.apply (.filt k v) s).tiles = s.tiles ∧ (Act.apply (.filt k v) s).quads = s.quads ∧
    (Act.apply (.filt k v) s).seqs = s.seqs ∧ (Act.apply (.filt k v) s).lineq = s.lineq ∧ (Act.apply (.filt k v) s).slices = s.slices ∧
    (Act.apply (.filt k v) s).filt = s.filt.upd k v ∧ (Act.apply (.filt k v) s).limits = s.limits ∧
    (Act.apply (.filt k v) s).aplic = s.aplic ∧ (Act.apply (.filt k v) s).aplicSrc = s.aplicSrc ∧
    (Act.apply (.filt k v) s).dram = s.dram ∧ (Act.apply (.filt k v) s).chans = s.chans ∧ (Act.apply (.filt k v) s).keys = s.keys ∧
    (Act.apply (.filt k v) s).tbrx = s.tbrx ∧ (Act.apply (.filt k v) s).dies = s.dies ∧ (Act.apply (.filt k v) s).pmuEdge = s.pmuEdge ∧
    (Act.apply (.filt k v) s).groups = s.groups ∧ (Act.apply (.filt k v) s).ecam = s.ecam ∧ (Act.apply (.filt k v) s).msix = s.msix ∧
    (Act.apply (.filt k v) s).jobs = s.jobs ∧ (Act.apply (.filt k v) s).fetched = s.fetched ∧ (Act.apply (.filt k v) s).moved = s.moved ∧
    (Act.apply (.filt k v) s).fnBytes = s.fnBytes ∧ (Act.apply (.filt k v) s).lead = s.lead ∧
    (Act.apply (.filt k v) s).slotTurn = s.slotTurn ∧ (Act.apply (.filt k v) s).aged = s.aged ∧
    (Act.apply (.filt k v) s).iommu = s.iommu ∧ (Act.apply (.filt k v) s).fox = s.fox ∧ (Act.apply (.filt k v) s).weir = s.weir ∧
    (Act.apply (.filt k v) s).wdog = s.wdog ∧ (Act.apply (.filt k v) s).pins = s.pins ∧ (Act.apply (.filt k v) s).net = s.net ∧
    (Act.apply (.filt k v) s).ops = s.ops ∧ (Act.apply (.filt k v) s).need = s.need ∧ (Act.apply (.filt k v) s).poke = s.poke ∧
    (Act.apply (.filt k v) s).out = s.out ∧ (Act.apply (.filt k v) s).free = s.free := by
  and_intros <;> rfl

@[simp] theorem Act.apply_limits (k : Nat) (v : Nat) (s : State) :
    (Act.apply (.limits k v) s).pending = s.pending ∧ (Act.apply (.limits k v) s).regs = s.regs ∧
    (Act.apply (.limits k v) s).harts = s.harts ∧ (Act.apply (.limits k v) s).xs = s.xs ∧ (Act.apply (.limits k v) s).fs = s.fs ∧
    (Act.apply (.limits k v) s).vs = s.vs ∧ (Act.apply (.limits k v) s).csrs = s.csrs ∧ (Act.apply (.limits k v) s).imsic = s.imsic ∧
    (Act.apply (.limits k v) s).l1i = s.l1i ∧ (Act.apply (.limits k v) s).l1d = s.l1d ∧ (Act.apply (.limits k v) s).l2 = s.l2 ∧
    (Act.apply (.limits k v) s).l3 = s.l3 ∧ (Act.apply (.limits k v) s).plru = s.plru ∧ (Act.apply (.limits k v) s).tiles = s.tiles ∧
    (Act.apply (.limits k v) s).quads = s.quads ∧ (Act.apply (.limits k v) s).seqs = s.seqs ∧
    (Act.apply (.limits k v) s).lineq = s.lineq ∧ (Act.apply (.limits k v) s).slices = s.slices ∧
    (Act.apply (.limits k v) s).filt = s.filt ∧ (Act.apply (.limits k v) s).limits = s.limits.upd k (listed 0 v) ∧
    (Act.apply (.limits k v) s).aplic = s.aplic ∧ (Act.apply (.limits k v) s).aplicSrc = s.aplicSrc ∧
    (Act.apply (.limits k v) s).dram = s.dram ∧ (Act.apply (.limits k v) s).chans = s.chans ∧ (Act.apply (.limits k v) s).keys = s.keys ∧
    (Act.apply (.limits k v) s).tbrx = s.tbrx ∧ (Act.apply (.limits k v) s).dies = s.dies ∧
    (Act.apply (.limits k v) s).pmuEdge = s.pmuEdge ∧ (Act.apply (.limits k v) s).groups = s.groups ∧
    (Act.apply (.limits k v) s).ecam = s.ecam ∧ (Act.apply (.limits k v) s).msix = s.msix ∧ (Act.apply (.limits k v) s).jobs = s.jobs ∧
    (Act.apply (.limits k v) s).fetched = s.fetched ∧ (Act.apply (.limits k v) s).moved = s.moved ∧
    (Act.apply (.limits k v) s).fnBytes = s.fnBytes ∧ (Act.apply (.limits k v) s).lead = s.lead ∧
    (Act.apply (.limits k v) s).slotTurn = s.slotTurn ∧ (Act.apply (.limits k v) s).aged = s.aged ∧
    (Act.apply (.limits k v) s).iommu = s.iommu ∧ (Act.apply (.limits k v) s).fox = s.fox ∧ (Act.apply (.limits k v) s).weir = s.weir ∧
    (Act.apply (.limits k v) s).wdog = s.wdog ∧ (Act.apply (.limits k v) s).pins = s.pins ∧ (Act.apply (.limits k v) s).net = s.net ∧
    (Act.apply (.limits k v) s).ops = s.ops ∧ (Act.apply (.limits k v) s).need = s.need ∧ (Act.apply (.limits k v) s).poke = s.poke ∧
    (Act.apply (.limits k v) s).out = s.out ∧ (Act.apply (.limits k v) s).free = s.free := by
  and_intros <;> rfl

@[simp] theorem Act.apply_aplic (k : Nat) (v : AplicDom) (s : State) :
    (Act.apply (.aplic k v) s).pending = s.pending ∧ (Act.apply (.aplic k v) s).regs = s.regs ∧
    (Act.apply (.aplic k v) s).harts = s.harts ∧ (Act.apply (.aplic k v) s).xs = s.xs ∧ (Act.apply (.aplic k v) s).fs = s.fs ∧
    (Act.apply (.aplic k v) s).vs = s.vs ∧ (Act.apply (.aplic k v) s).csrs = s.csrs ∧ (Act.apply (.aplic k v) s).imsic = s.imsic ∧
    (Act.apply (.aplic k v) s).l1i = s.l1i ∧ (Act.apply (.aplic k v) s).l1d = s.l1d ∧ (Act.apply (.aplic k v) s).l2 = s.l2 ∧
    (Act.apply (.aplic k v) s).l3 = s.l3 ∧ (Act.apply (.aplic k v) s).plru = s.plru ∧ (Act.apply (.aplic k v) s).tiles = s.tiles ∧
    (Act.apply (.aplic k v) s).quads = s.quads ∧ (Act.apply (.aplic k v) s).seqs = s.seqs ∧ (Act.apply (.aplic k v) s).lineq = s.lineq ∧
    (Act.apply (.aplic k v) s).slices = s.slices ∧ (Act.apply (.aplic k v) s).filt = s.filt ∧
    (Act.apply (.aplic k v) s).limits = s.limits ∧ (Act.apply (.aplic k v) s).aplic = s.aplic.upd k (listed {} v) ∧
    (Act.apply (.aplic k v) s).aplicSrc = s.aplicSrc ∧ (Act.apply (.aplic k v) s).dram = s.dram ∧
    (Act.apply (.aplic k v) s).chans = s.chans ∧ (Act.apply (.aplic k v) s).keys = s.keys ∧ (Act.apply (.aplic k v) s).tbrx = s.tbrx ∧
    (Act.apply (.aplic k v) s).dies = s.dies ∧ (Act.apply (.aplic k v) s).pmuEdge = s.pmuEdge ∧
    (Act.apply (.aplic k v) s).groups = s.groups ∧ (Act.apply (.aplic k v) s).ecam = s.ecam ∧ (Act.apply (.aplic k v) s).msix = s.msix ∧
    (Act.apply (.aplic k v) s).jobs = s.jobs ∧ (Act.apply (.aplic k v) s).fetched = s.fetched ∧
    (Act.apply (.aplic k v) s).moved = s.moved ∧ (Act.apply (.aplic k v) s).fnBytes = s.fnBytes ∧
    (Act.apply (.aplic k v) s).lead = s.lead ∧ (Act.apply (.aplic k v) s).slotTurn = s.slotTurn ∧
    (Act.apply (.aplic k v) s).aged = s.aged ∧ (Act.apply (.aplic k v) s).iommu = s.iommu ∧ (Act.apply (.aplic k v) s).fox = s.fox ∧
    (Act.apply (.aplic k v) s).weir = s.weir ∧ (Act.apply (.aplic k v) s).wdog = s.wdog ∧ (Act.apply (.aplic k v) s).pins = s.pins ∧
    (Act.apply (.aplic k v) s).net = s.net ∧ (Act.apply (.aplic k v) s).ops = s.ops ∧ (Act.apply (.aplic k v) s).need = s.need ∧
    (Act.apply (.aplic k v) s).poke = s.poke ∧ (Act.apply (.aplic k v) s).out = s.out ∧ (Act.apply (.aplic k v) s).free = s.free := by
  and_intros <;> rfl

@[simp] theorem Act.apply_aplicSrc (k : Nat) (v : AplicSrc) (s : State) :
    (Act.apply (.aplicSrc k v) s).pending = s.pending ∧ (Act.apply (.aplicSrc k v) s).regs = s.regs ∧
    (Act.apply (.aplicSrc k v) s).harts = s.harts ∧ (Act.apply (.aplicSrc k v) s).xs = s.xs ∧ (Act.apply (.aplicSrc k v) s).fs = s.fs ∧
    (Act.apply (.aplicSrc k v) s).vs = s.vs ∧ (Act.apply (.aplicSrc k v) s).csrs = s.csrs ∧
    (Act.apply (.aplicSrc k v) s).imsic = s.imsic ∧ (Act.apply (.aplicSrc k v) s).l1i = s.l1i ∧
    (Act.apply (.aplicSrc k v) s).l1d = s.l1d ∧ (Act.apply (.aplicSrc k v) s).l2 = s.l2 ∧ (Act.apply (.aplicSrc k v) s).l3 = s.l3 ∧
    (Act.apply (.aplicSrc k v) s).plru = s.plru ∧ (Act.apply (.aplicSrc k v) s).tiles = s.tiles ∧
    (Act.apply (.aplicSrc k v) s).quads = s.quads ∧ (Act.apply (.aplicSrc k v) s).seqs = s.seqs ∧
    (Act.apply (.aplicSrc k v) s).lineq = s.lineq ∧ (Act.apply (.aplicSrc k v) s).slices = s.slices ∧
    (Act.apply (.aplicSrc k v) s).filt = s.filt ∧ (Act.apply (.aplicSrc k v) s).limits = s.limits ∧
    (Act.apply (.aplicSrc k v) s).aplic = s.aplic ∧ (Act.apply (.aplicSrc k v) s).aplicSrc = s.aplicSrc.upd k (listed {} v) ∧
    (Act.apply (.aplicSrc k v) s).dram = s.dram ∧ (Act.apply (.aplicSrc k v) s).chans = s.chans ∧
    (Act.apply (.aplicSrc k v) s).keys = s.keys ∧ (Act.apply (.aplicSrc k v) s).tbrx = s.tbrx ∧
    (Act.apply (.aplicSrc k v) s).dies = s.dies ∧ (Act.apply (.aplicSrc k v) s).pmuEdge = s.pmuEdge ∧
    (Act.apply (.aplicSrc k v) s).groups = s.groups ∧ (Act.apply (.aplicSrc k v) s).ecam = s.ecam ∧
    (Act.apply (.aplicSrc k v) s).msix = s.msix ∧ (Act.apply (.aplicSrc k v) s).jobs = s.jobs ∧
    (Act.apply (.aplicSrc k v) s).fetched = s.fetched ∧ (Act.apply (.aplicSrc k v) s).moved = s.moved ∧
    (Act.apply (.aplicSrc k v) s).fnBytes = s.fnBytes ∧ (Act.apply (.aplicSrc k v) s).lead = s.lead ∧
    (Act.apply (.aplicSrc k v) s).slotTurn = s.slotTurn ∧ (Act.apply (.aplicSrc k v) s).aged = s.aged ∧
    (Act.apply (.aplicSrc k v) s).iommu = s.iommu ∧ (Act.apply (.aplicSrc k v) s).fox = s.fox ∧
    (Act.apply (.aplicSrc k v) s).weir = s.weir ∧ (Act.apply (.aplicSrc k v) s).wdog = s.wdog ∧
    (Act.apply (.aplicSrc k v) s).pins = s.pins ∧ (Act.apply (.aplicSrc k v) s).net = s.net ∧ (Act.apply (.aplicSrc k v) s).ops = s.ops ∧
    (Act.apply (.aplicSrc k v) s).need = s.need ∧ (Act.apply (.aplicSrc k v) s).poke = s.poke ∧
    (Act.apply (.aplicSrc k v) s).out = s.out ∧ (Act.apply (.aplicSrc k v) s).free = s.free := by
  and_intros <;> rfl

@[simp] theorem Act.apply_dram (k : Nat) (v : Option (DLine)) (s : State) :
    (Act.apply (.dram k v) s).pending = s.pending ∧ (Act.apply (.dram k v) s).regs = s.regs ∧ (Act.apply (.dram k v) s).harts = s.harts ∧
    (Act.apply (.dram k v) s).xs = s.xs ∧ (Act.apply (.dram k v) s).fs = s.fs ∧ (Act.apply (.dram k v) s).vs = s.vs ∧
    (Act.apply (.dram k v) s).csrs = s.csrs ∧ (Act.apply (.dram k v) s).imsic = s.imsic ∧ (Act.apply (.dram k v) s).l1i = s.l1i ∧
    (Act.apply (.dram k v) s).l1d = s.l1d ∧ (Act.apply (.dram k v) s).l2 = s.l2 ∧ (Act.apply (.dram k v) s).l3 = s.l3 ∧
    (Act.apply (.dram k v) s).plru = s.plru ∧ (Act.apply (.dram k v) s).tiles = s.tiles ∧ (Act.apply (.dram k v) s).quads = s.quads ∧
    (Act.apply (.dram k v) s).seqs = s.seqs ∧ (Act.apply (.dram k v) s).lineq = s.lineq ∧ (Act.apply (.dram k v) s).slices = s.slices ∧
    (Act.apply (.dram k v) s).filt = s.filt ∧ (Act.apply (.dram k v) s).limits = s.limits ∧ (Act.apply (.dram k v) s).aplic = s.aplic ∧
    (Act.apply (.dram k v) s).aplicSrc = s.aplicSrc ∧ (Act.apply (.dram k v) s).dram = s.dram.upd k v ∧
    (Act.apply (.dram k v) s).chans = s.chans ∧ (Act.apply (.dram k v) s).keys = s.keys ∧ (Act.apply (.dram k v) s).tbrx = s.tbrx ∧
    (Act.apply (.dram k v) s).dies = s.dies ∧ (Act.apply (.dram k v) s).pmuEdge = s.pmuEdge ∧
    (Act.apply (.dram k v) s).groups = s.groups ∧ (Act.apply (.dram k v) s).ecam = s.ecam ∧ (Act.apply (.dram k v) s).msix = s.msix ∧
    (Act.apply (.dram k v) s).jobs = s.jobs ∧ (Act.apply (.dram k v) s).fetched = s.fetched ∧ (Act.apply (.dram k v) s).moved = s.moved ∧
    (Act.apply (.dram k v) s).fnBytes = s.fnBytes ∧ (Act.apply (.dram k v) s).lead = s.lead ∧
    (Act.apply (.dram k v) s).slotTurn = s.slotTurn ∧ (Act.apply (.dram k v) s).aged = s.aged ∧
    (Act.apply (.dram k v) s).iommu = s.iommu ∧ (Act.apply (.dram k v) s).fox = s.fox ∧ (Act.apply (.dram k v) s).weir = s.weir ∧
    (Act.apply (.dram k v) s).wdog = s.wdog ∧ (Act.apply (.dram k v) s).pins = s.pins ∧ (Act.apply (.dram k v) s).net = s.net ∧
    (Act.apply (.dram k v) s).ops = s.ops ∧ (Act.apply (.dram k v) s).need = s.need ∧ (Act.apply (.dram k v) s).poke = s.poke ∧
    (Act.apply (.dram k v) s).out = s.out ∧ (Act.apply (.dram k v) s).free = s.free := by
  and_intros <;> rfl

@[simp] theorem Act.apply_chans (k : Nat) (v : Chan) (s : State) :
    (Act.apply (.chans k v) s).pending = s.pending ∧ (Act.apply (.chans k v) s).regs = s.regs ∧
    (Act.apply (.chans k v) s).harts = s.harts ∧ (Act.apply (.chans k v) s).xs = s.xs ∧ (Act.apply (.chans k v) s).fs = s.fs ∧
    (Act.apply (.chans k v) s).vs = s.vs ∧ (Act.apply (.chans k v) s).csrs = s.csrs ∧ (Act.apply (.chans k v) s).imsic = s.imsic ∧
    (Act.apply (.chans k v) s).l1i = s.l1i ∧ (Act.apply (.chans k v) s).l1d = s.l1d ∧ (Act.apply (.chans k v) s).l2 = s.l2 ∧
    (Act.apply (.chans k v) s).l3 = s.l3 ∧ (Act.apply (.chans k v) s).plru = s.plru ∧ (Act.apply (.chans k v) s).tiles = s.tiles ∧
    (Act.apply (.chans k v) s).quads = s.quads ∧ (Act.apply (.chans k v) s).seqs = s.seqs ∧ (Act.apply (.chans k v) s).lineq = s.lineq ∧
    (Act.apply (.chans k v) s).slices = s.slices ∧ (Act.apply (.chans k v) s).filt = s.filt ∧
    (Act.apply (.chans k v) s).limits = s.limits ∧ (Act.apply (.chans k v) s).aplic = s.aplic ∧
    (Act.apply (.chans k v) s).aplicSrc = s.aplicSrc ∧ (Act.apply (.chans k v) s).dram = s.dram ∧
    (Act.apply (.chans k v) s).chans = s.chans.upd k (listed {} v) ∧ (Act.apply (.chans k v) s).keys = s.keys ∧
    (Act.apply (.chans k v) s).tbrx = s.tbrx ∧ (Act.apply (.chans k v) s).dies = s.dies ∧
    (Act.apply (.chans k v) s).pmuEdge = s.pmuEdge ∧ (Act.apply (.chans k v) s).groups = s.groups ∧
    (Act.apply (.chans k v) s).ecam = s.ecam ∧ (Act.apply (.chans k v) s).msix = s.msix ∧ (Act.apply (.chans k v) s).jobs = s.jobs ∧
    (Act.apply (.chans k v) s).fetched = s.fetched ∧ (Act.apply (.chans k v) s).moved = s.moved ∧
    (Act.apply (.chans k v) s).fnBytes = s.fnBytes ∧ (Act.apply (.chans k v) s).lead = s.lead ∧
    (Act.apply (.chans k v) s).slotTurn = s.slotTurn ∧ (Act.apply (.chans k v) s).aged = s.aged ∧
    (Act.apply (.chans k v) s).iommu = s.iommu ∧ (Act.apply (.chans k v) s).fox = s.fox ∧ (Act.apply (.chans k v) s).weir = s.weir ∧
    (Act.apply (.chans k v) s).wdog = s.wdog ∧ (Act.apply (.chans k v) s).pins = s.pins ∧ (Act.apply (.chans k v) s).net = s.net ∧
    (Act.apply (.chans k v) s).ops = s.ops ∧ (Act.apply (.chans k v) s).need = s.need ∧ (Act.apply (.chans k v) s).poke = s.poke ∧
    (Act.apply (.chans k v) s).out = s.out ∧ (Act.apply (.chans k v) s).free = s.free := by
  and_intros <;> rfl

@[simp] theorem Act.apply_keys (k : Nat) (v : KeySlot) (s : State) :
    (Act.apply (.keys k v) s).pending = s.pending ∧ (Act.apply (.keys k v) s).regs = s.regs ∧ (Act.apply (.keys k v) s).harts = s.harts ∧
    (Act.apply (.keys k v) s).xs = s.xs ∧ (Act.apply (.keys k v) s).fs = s.fs ∧ (Act.apply (.keys k v) s).vs = s.vs ∧
    (Act.apply (.keys k v) s).csrs = s.csrs ∧ (Act.apply (.keys k v) s).imsic = s.imsic ∧ (Act.apply (.keys k v) s).l1i = s.l1i ∧
    (Act.apply (.keys k v) s).l1d = s.l1d ∧ (Act.apply (.keys k v) s).l2 = s.l2 ∧ (Act.apply (.keys k v) s).l3 = s.l3 ∧
    (Act.apply (.keys k v) s).plru = s.plru ∧ (Act.apply (.keys k v) s).tiles = s.tiles ∧ (Act.apply (.keys k v) s).quads = s.quads ∧
    (Act.apply (.keys k v) s).seqs = s.seqs ∧ (Act.apply (.keys k v) s).lineq = s.lineq ∧ (Act.apply (.keys k v) s).slices = s.slices ∧
    (Act.apply (.keys k v) s).filt = s.filt ∧ (Act.apply (.keys k v) s).limits = s.limits ∧ (Act.apply (.keys k v) s).aplic = s.aplic ∧
    (Act.apply (.keys k v) s).aplicSrc = s.aplicSrc ∧ (Act.apply (.keys k v) s).dram = s.dram ∧
    (Act.apply (.keys k v) s).chans = s.chans ∧ (Act.apply (.keys k v) s).keys = s.keys.upd k (listed {} v) ∧
    (Act.apply (.keys k v) s).tbrx = s.tbrx ∧ (Act.apply (.keys k v) s).dies = s.dies ∧ (Act.apply (.keys k v) s).pmuEdge = s.pmuEdge ∧
    (Act.apply (.keys k v) s).groups = s.groups ∧ (Act.apply (.keys k v) s).ecam = s.ecam ∧ (Act.apply (.keys k v) s).msix = s.msix ∧
    (Act.apply (.keys k v) s).jobs = s.jobs ∧ (Act.apply (.keys k v) s).fetched = s.fetched ∧ (Act.apply (.keys k v) s).moved = s.moved ∧
    (Act.apply (.keys k v) s).fnBytes = s.fnBytes ∧ (Act.apply (.keys k v) s).lead = s.lead ∧
    (Act.apply (.keys k v) s).slotTurn = s.slotTurn ∧ (Act.apply (.keys k v) s).aged = s.aged ∧
    (Act.apply (.keys k v) s).iommu = s.iommu ∧ (Act.apply (.keys k v) s).fox = s.fox ∧ (Act.apply (.keys k v) s).weir = s.weir ∧
    (Act.apply (.keys k v) s).wdog = s.wdog ∧ (Act.apply (.keys k v) s).pins = s.pins ∧ (Act.apply (.keys k v) s).net = s.net ∧
    (Act.apply (.keys k v) s).ops = s.ops ∧ (Act.apply (.keys k v) s).need = s.need ∧ (Act.apply (.keys k v) s).poke = s.poke ∧
    (Act.apply (.keys k v) s).out = s.out ∧ (Act.apply (.keys k v) s).free = s.free := by
  and_intros <;> rfl

@[simp] theorem Act.apply_tbrx (k : Nat) (v : TbRx) (s : State) :
    (Act.apply (.tbrx k v) s).pending = s.pending ∧ (Act.apply (.tbrx k v) s).regs = s.regs ∧ (Act.apply (.tbrx k v) s).harts = s.harts ∧
    (Act.apply (.tbrx k v) s).xs = s.xs ∧ (Act.apply (.tbrx k v) s).fs = s.fs ∧ (Act.apply (.tbrx k v) s).vs = s.vs ∧
    (Act.apply (.tbrx k v) s).csrs = s.csrs ∧ (Act.apply (.tbrx k v) s).imsic = s.imsic ∧ (Act.apply (.tbrx k v) s).l1i = s.l1i ∧
    (Act.apply (.tbrx k v) s).l1d = s.l1d ∧ (Act.apply (.tbrx k v) s).l2 = s.l2 ∧ (Act.apply (.tbrx k v) s).l3 = s.l3 ∧
    (Act.apply (.tbrx k v) s).plru = s.plru ∧ (Act.apply (.tbrx k v) s).tiles = s.tiles ∧ (Act.apply (.tbrx k v) s).quads = s.quads ∧
    (Act.apply (.tbrx k v) s).seqs = s.seqs ∧ (Act.apply (.tbrx k v) s).lineq = s.lineq ∧ (Act.apply (.tbrx k v) s).slices = s.slices ∧
    (Act.apply (.tbrx k v) s).filt = s.filt ∧ (Act.apply (.tbrx k v) s).limits = s.limits ∧ (Act.apply (.tbrx k v) s).aplic = s.aplic ∧
    (Act.apply (.tbrx k v) s).aplicSrc = s.aplicSrc ∧ (Act.apply (.tbrx k v) s).dram = s.dram ∧
    (Act.apply (.tbrx k v) s).chans = s.chans ∧ (Act.apply (.tbrx k v) s).keys = s.keys ∧
    (Act.apply (.tbrx k v) s).tbrx = s.tbrx.upd k (listed {} v) ∧ (Act.apply (.tbrx k v) s).dies = s.dies ∧
    (Act.apply (.tbrx k v) s).pmuEdge = s.pmuEdge ∧ (Act.apply (.tbrx k v) s).groups = s.groups ∧
    (Act.apply (.tbrx k v) s).ecam = s.ecam ∧ (Act.apply (.tbrx k v) s).msix = s.msix ∧ (Act.apply (.tbrx k v) s).jobs = s.jobs ∧
    (Act.apply (.tbrx k v) s).fetched = s.fetched ∧ (Act.apply (.tbrx k v) s).moved = s.moved ∧
    (Act.apply (.tbrx k v) s).fnBytes = s.fnBytes ∧ (Act.apply (.tbrx k v) s).lead = s.lead ∧
    (Act.apply (.tbrx k v) s).slotTurn = s.slotTurn ∧ (Act.apply (.tbrx k v) s).aged = s.aged ∧
    (Act.apply (.tbrx k v) s).iommu = s.iommu ∧ (Act.apply (.tbrx k v) s).fox = s.fox ∧ (Act.apply (.tbrx k v) s).weir = s.weir ∧
    (Act.apply (.tbrx k v) s).wdog = s.wdog ∧ (Act.apply (.tbrx k v) s).pins = s.pins ∧ (Act.apply (.tbrx k v) s).net = s.net ∧
    (Act.apply (.tbrx k v) s).ops = s.ops ∧ (Act.apply (.tbrx k v) s).need = s.need ∧ (Act.apply (.tbrx k v) s).poke = s.poke ∧
    (Act.apply (.tbrx k v) s).out = s.out ∧ (Act.apply (.tbrx k v) s).free = s.free := by
  and_intros <;> rfl

@[simp] theorem Act.apply_dies (k : Nat) (v : Die) (s : State) :
    (Act.apply (.dies k v) s).pending = s.pending ∧ (Act.apply (.dies k v) s).regs = s.regs ∧ (Act.apply (.dies k v) s).harts = s.harts ∧
    (Act.apply (.dies k v) s).xs = s.xs ∧ (Act.apply (.dies k v) s).fs = s.fs ∧ (Act.apply (.dies k v) s).vs = s.vs ∧
    (Act.apply (.dies k v) s).csrs = s.csrs ∧ (Act.apply (.dies k v) s).imsic = s.imsic ∧ (Act.apply (.dies k v) s).l1i = s.l1i ∧
    (Act.apply (.dies k v) s).l1d = s.l1d ∧ (Act.apply (.dies k v) s).l2 = s.l2 ∧ (Act.apply (.dies k v) s).l3 = s.l3 ∧
    (Act.apply (.dies k v) s).plru = s.plru ∧ (Act.apply (.dies k v) s).tiles = s.tiles ∧ (Act.apply (.dies k v) s).quads = s.quads ∧
    (Act.apply (.dies k v) s).seqs = s.seqs ∧ (Act.apply (.dies k v) s).lineq = s.lineq ∧ (Act.apply (.dies k v) s).slices = s.slices ∧
    (Act.apply (.dies k v) s).filt = s.filt ∧ (Act.apply (.dies k v) s).limits = s.limits ∧ (Act.apply (.dies k v) s).aplic = s.aplic ∧
    (Act.apply (.dies k v) s).aplicSrc = s.aplicSrc ∧ (Act.apply (.dies k v) s).dram = s.dram ∧
    (Act.apply (.dies k v) s).chans = s.chans ∧ (Act.apply (.dies k v) s).keys = s.keys ∧ (Act.apply (.dies k v) s).tbrx = s.tbrx ∧
    (Act.apply (.dies k v) s).dies = s.dies.upd k (listed {} v) ∧ (Act.apply (.dies k v) s).pmuEdge = s.pmuEdge ∧
    (Act.apply (.dies k v) s).groups = s.groups ∧ (Act.apply (.dies k v) s).ecam = s.ecam ∧ (Act.apply (.dies k v) s).msix = s.msix ∧
    (Act.apply (.dies k v) s).jobs = s.jobs ∧ (Act.apply (.dies k v) s).fetched = s.fetched ∧ (Act.apply (.dies k v) s).moved = s.moved ∧
    (Act.apply (.dies k v) s).fnBytes = s.fnBytes ∧ (Act.apply (.dies k v) s).lead = s.lead ∧
    (Act.apply (.dies k v) s).slotTurn = s.slotTurn ∧ (Act.apply (.dies k v) s).aged = s.aged ∧
    (Act.apply (.dies k v) s).iommu = s.iommu ∧ (Act.apply (.dies k v) s).fox = s.fox ∧ (Act.apply (.dies k v) s).weir = s.weir ∧
    (Act.apply (.dies k v) s).wdog = s.wdog ∧ (Act.apply (.dies k v) s).pins = s.pins ∧ (Act.apply (.dies k v) s).net = s.net ∧
    (Act.apply (.dies k v) s).ops = s.ops ∧ (Act.apply (.dies k v) s).need = s.need ∧ (Act.apply (.dies k v) s).poke = s.poke ∧
    (Act.apply (.dies k v) s).out = s.out ∧ (Act.apply (.dies k v) s).free = s.free := by
  and_intros <;> rfl

@[simp] theorem Act.apply_pmuEdge (k : Nat) (v : Nat) (s : State) :
    (Act.apply (.pmuEdge k v) s).pending = s.pending ∧ (Act.apply (.pmuEdge k v) s).regs = s.regs ∧
    (Act.apply (.pmuEdge k v) s).harts = s.harts ∧ (Act.apply (.pmuEdge k v) s).xs = s.xs ∧ (Act.apply (.pmuEdge k v) s).fs = s.fs ∧
    (Act.apply (.pmuEdge k v) s).vs = s.vs ∧ (Act.apply (.pmuEdge k v) s).csrs = s.csrs ∧ (Act.apply (.pmuEdge k v) s).imsic = s.imsic ∧
    (Act.apply (.pmuEdge k v) s).l1i = s.l1i ∧ (Act.apply (.pmuEdge k v) s).l1d = s.l1d ∧ (Act.apply (.pmuEdge k v) s).l2 = s.l2 ∧
    (Act.apply (.pmuEdge k v) s).l3 = s.l3 ∧ (Act.apply (.pmuEdge k v) s).plru = s.plru ∧ (Act.apply (.pmuEdge k v) s).tiles = s.tiles ∧
    (Act.apply (.pmuEdge k v) s).quads = s.quads ∧ (Act.apply (.pmuEdge k v) s).seqs = s.seqs ∧
    (Act.apply (.pmuEdge k v) s).lineq = s.lineq ∧ (Act.apply (.pmuEdge k v) s).slices = s.slices ∧
    (Act.apply (.pmuEdge k v) s).filt = s.filt ∧ (Act.apply (.pmuEdge k v) s).limits = s.limits ∧
    (Act.apply (.pmuEdge k v) s).aplic = s.aplic ∧ (Act.apply (.pmuEdge k v) s).aplicSrc = s.aplicSrc ∧
    (Act.apply (.pmuEdge k v) s).dram = s.dram ∧ (Act.apply (.pmuEdge k v) s).chans = s.chans ∧
    (Act.apply (.pmuEdge k v) s).keys = s.keys ∧ (Act.apply (.pmuEdge k v) s).tbrx = s.tbrx ∧
    (Act.apply (.pmuEdge k v) s).dies = s.dies ∧ (Act.apply (.pmuEdge k v) s).pmuEdge = s.pmuEdge.upd k (listed 0 v) ∧
    (Act.apply (.pmuEdge k v) s).groups = s.groups ∧ (Act.apply (.pmuEdge k v) s).ecam = s.ecam ∧
    (Act.apply (.pmuEdge k v) s).msix = s.msix ∧ (Act.apply (.pmuEdge k v) s).jobs = s.jobs ∧
    (Act.apply (.pmuEdge k v) s).fetched = s.fetched ∧ (Act.apply (.pmuEdge k v) s).moved = s.moved ∧
    (Act.apply (.pmuEdge k v) s).fnBytes = s.fnBytes ∧ (Act.apply (.pmuEdge k v) s).lead = s.lead ∧
    (Act.apply (.pmuEdge k v) s).slotTurn = s.slotTurn ∧ (Act.apply (.pmuEdge k v) s).aged = s.aged ∧
    (Act.apply (.pmuEdge k v) s).iommu = s.iommu ∧ (Act.apply (.pmuEdge k v) s).fox = s.fox ∧
    (Act.apply (.pmuEdge k v) s).weir = s.weir ∧ (Act.apply (.pmuEdge k v) s).wdog = s.wdog ∧
    (Act.apply (.pmuEdge k v) s).pins = s.pins ∧ (Act.apply (.pmuEdge k v) s).net = s.net ∧ (Act.apply (.pmuEdge k v) s).ops = s.ops ∧
    (Act.apply (.pmuEdge k v) s).need = s.need ∧ (Act.apply (.pmuEdge k v) s).poke = s.poke ∧ (Act.apply (.pmuEdge k v) s).out = s.out ∧
    (Act.apply (.pmuEdge k v) s).free = s.free := by
  and_intros <;> rfl

@[simp] theorem Act.apply_groups (k : Nat) (v : Group) (s : State) :
    (Act.apply (.groups k v) s).pending = s.pending ∧ (Act.apply (.groups k v) s).regs = s.regs ∧
    (Act.apply (.groups k v) s).harts = s.harts ∧ (Act.apply (.groups k v) s).xs = s.xs ∧ (Act.apply (.groups k v) s).fs = s.fs ∧
    (Act.apply (.groups k v) s).vs = s.vs ∧ (Act.apply (.groups k v) s).csrs = s.csrs ∧ (Act.apply (.groups k v) s).imsic = s.imsic ∧
    (Act.apply (.groups k v) s).l1i = s.l1i ∧ (Act.apply (.groups k v) s).l1d = s.l1d ∧ (Act.apply (.groups k v) s).l2 = s.l2 ∧
    (Act.apply (.groups k v) s).l3 = s.l3 ∧ (Act.apply (.groups k v) s).plru = s.plru ∧ (Act.apply (.groups k v) s).tiles = s.tiles ∧
    (Act.apply (.groups k v) s).quads = s.quads ∧ (Act.apply (.groups k v) s).seqs = s.seqs ∧
    (Act.apply (.groups k v) s).lineq = s.lineq ∧ (Act.apply (.groups k v) s).slices = s.slices ∧
    (Act.apply (.groups k v) s).filt = s.filt ∧ (Act.apply (.groups k v) s).limits = s.limits ∧
    (Act.apply (.groups k v) s).aplic = s.aplic ∧ (Act.apply (.groups k v) s).aplicSrc = s.aplicSrc ∧
    (Act.apply (.groups k v) s).dram = s.dram ∧ (Act.apply (.groups k v) s).chans = s.chans ∧ (Act.apply (.groups k v) s).keys = s.keys ∧
    (Act.apply (.groups k v) s).tbrx = s.tbrx ∧ (Act.apply (.groups k v) s).dies = s.dies ∧
    (Act.apply (.groups k v) s).pmuEdge = s.pmuEdge ∧ (Act.apply (.groups k v) s).groups = s.groups.upd k (listed {} v) ∧
    (Act.apply (.groups k v) s).ecam = s.ecam ∧ (Act.apply (.groups k v) s).msix = s.msix ∧ (Act.apply (.groups k v) s).jobs = s.jobs ∧
    (Act.apply (.groups k v) s).fetched = s.fetched ∧ (Act.apply (.groups k v) s).moved = s.moved ∧
    (Act.apply (.groups k v) s).fnBytes = s.fnBytes ∧ (Act.apply (.groups k v) s).lead = s.lead ∧
    (Act.apply (.groups k v) s).slotTurn = s.slotTurn ∧ (Act.apply (.groups k v) s).aged = s.aged ∧
    (Act.apply (.groups k v) s).iommu = s.iommu ∧ (Act.apply (.groups k v) s).fox = s.fox ∧ (Act.apply (.groups k v) s).weir = s.weir ∧
    (Act.apply (.groups k v) s).wdog = s.wdog ∧ (Act.apply (.groups k v) s).pins = s.pins ∧ (Act.apply (.groups k v) s).net = s.net ∧
    (Act.apply (.groups k v) s).ops = s.ops ∧ (Act.apply (.groups k v) s).need = s.need ∧ (Act.apply (.groups k v) s).poke = s.poke ∧
    (Act.apply (.groups k v) s).out = s.out ∧ (Act.apply (.groups k v) s).free = s.free := by
  and_intros <;> rfl

@[simp] theorem Act.apply_ecam (k : Nat) (v : BitVec 32) (s : State) :
    (Act.apply (.ecam k v) s).pending = s.pending ∧ (Act.apply (.ecam k v) s).regs = s.regs ∧ (Act.apply (.ecam k v) s).harts = s.harts ∧
    (Act.apply (.ecam k v) s).xs = s.xs ∧ (Act.apply (.ecam k v) s).fs = s.fs ∧ (Act.apply (.ecam k v) s).vs = s.vs ∧
    (Act.apply (.ecam k v) s).csrs = s.csrs ∧ (Act.apply (.ecam k v) s).imsic = s.imsic ∧ (Act.apply (.ecam k v) s).l1i = s.l1i ∧
    (Act.apply (.ecam k v) s).l1d = s.l1d ∧ (Act.apply (.ecam k v) s).l2 = s.l2 ∧ (Act.apply (.ecam k v) s).l3 = s.l3 ∧
    (Act.apply (.ecam k v) s).plru = s.plru ∧ (Act.apply (.ecam k v) s).tiles = s.tiles ∧ (Act.apply (.ecam k v) s).quads = s.quads ∧
    (Act.apply (.ecam k v) s).seqs = s.seqs ∧ (Act.apply (.ecam k v) s).lineq = s.lineq ∧ (Act.apply (.ecam k v) s).slices = s.slices ∧
    (Act.apply (.ecam k v) s).filt = s.filt ∧ (Act.apply (.ecam k v) s).limits = s.limits ∧ (Act.apply (.ecam k v) s).aplic = s.aplic ∧
    (Act.apply (.ecam k v) s).aplicSrc = s.aplicSrc ∧ (Act.apply (.ecam k v) s).dram = s.dram ∧
    (Act.apply (.ecam k v) s).chans = s.chans ∧ (Act.apply (.ecam k v) s).keys = s.keys ∧ (Act.apply (.ecam k v) s).tbrx = s.tbrx ∧
    (Act.apply (.ecam k v) s).dies = s.dies ∧ (Act.apply (.ecam k v) s).pmuEdge = s.pmuEdge ∧
    (Act.apply (.ecam k v) s).groups = s.groups ∧ (Act.apply (.ecam k v) s).ecam = s.ecam.upd k (listed 0 v) ∧
    (Act.apply (.ecam k v) s).msix = s.msix ∧ (Act.apply (.ecam k v) s).jobs = s.jobs ∧ (Act.apply (.ecam k v) s).fetched = s.fetched ∧
    (Act.apply (.ecam k v) s).moved = s.moved ∧ (Act.apply (.ecam k v) s).fnBytes = s.fnBytes ∧ (Act.apply (.ecam k v) s).lead = s.lead ∧
    (Act.apply (.ecam k v) s).slotTurn = s.slotTurn ∧ (Act.apply (.ecam k v) s).aged = s.aged ∧
    (Act.apply (.ecam k v) s).iommu = s.iommu ∧ (Act.apply (.ecam k v) s).fox = s.fox ∧ (Act.apply (.ecam k v) s).weir = s.weir ∧
    (Act.apply (.ecam k v) s).wdog = s.wdog ∧ (Act.apply (.ecam k v) s).pins = s.pins ∧ (Act.apply (.ecam k v) s).net = s.net ∧
    (Act.apply (.ecam k v) s).ops = s.ops ∧ (Act.apply (.ecam k v) s).need = s.need ∧ (Act.apply (.ecam k v) s).poke = s.poke ∧
    (Act.apply (.ecam k v) s).out = s.out ∧ (Act.apply (.ecam k v) s).free = s.free := by
  and_intros <;> rfl

@[simp] theorem Act.apply_msix (k : Nat) (v : Word) (s : State) :
    (Act.apply (.msix k v) s).pending = s.pending ∧ (Act.apply (.msix k v) s).regs = s.regs ∧ (Act.apply (.msix k v) s).harts = s.harts ∧
    (Act.apply (.msix k v) s).xs = s.xs ∧ (Act.apply (.msix k v) s).fs = s.fs ∧ (Act.apply (.msix k v) s).vs = s.vs ∧
    (Act.apply (.msix k v) s).csrs = s.csrs ∧ (Act.apply (.msix k v) s).imsic = s.imsic ∧ (Act.apply (.msix k v) s).l1i = s.l1i ∧
    (Act.apply (.msix k v) s).l1d = s.l1d ∧ (Act.apply (.msix k v) s).l2 = s.l2 ∧ (Act.apply (.msix k v) s).l3 = s.l3 ∧
    (Act.apply (.msix k v) s).plru = s.plru ∧ (Act.apply (.msix k v) s).tiles = s.tiles ∧ (Act.apply (.msix k v) s).quads = s.quads ∧
    (Act.apply (.msix k v) s).seqs = s.seqs ∧ (Act.apply (.msix k v) s).lineq = s.lineq ∧ (Act.apply (.msix k v) s).slices = s.slices ∧
    (Act.apply (.msix k v) s).filt = s.filt ∧ (Act.apply (.msix k v) s).limits = s.limits ∧ (Act.apply (.msix k v) s).aplic = s.aplic ∧
    (Act.apply (.msix k v) s).aplicSrc = s.aplicSrc ∧ (Act.apply (.msix k v) s).dram = s.dram ∧
    (Act.apply (.msix k v) s).chans = s.chans ∧ (Act.apply (.msix k v) s).keys = s.keys ∧ (Act.apply (.msix k v) s).tbrx = s.tbrx ∧
    (Act.apply (.msix k v) s).dies = s.dies ∧ (Act.apply (.msix k v) s).pmuEdge = s.pmuEdge ∧
    (Act.apply (.msix k v) s).groups = s.groups ∧ (Act.apply (.msix k v) s).ecam = s.ecam ∧
    (Act.apply (.msix k v) s).msix = s.msix.upd k (listed 0 v) ∧ (Act.apply (.msix k v) s).jobs = s.jobs ∧
    (Act.apply (.msix k v) s).fetched = s.fetched ∧ (Act.apply (.msix k v) s).moved = s.moved ∧
    (Act.apply (.msix k v) s).fnBytes = s.fnBytes ∧ (Act.apply (.msix k v) s).lead = s.lead ∧
    (Act.apply (.msix k v) s).slotTurn = s.slotTurn ∧ (Act.apply (.msix k v) s).aged = s.aged ∧
    (Act.apply (.msix k v) s).iommu = s.iommu ∧ (Act.apply (.msix k v) s).fox = s.fox ∧ (Act.apply (.msix k v) s).weir = s.weir ∧
    (Act.apply (.msix k v) s).wdog = s.wdog ∧ (Act.apply (.msix k v) s).pins = s.pins ∧ (Act.apply (.msix k v) s).net = s.net ∧
    (Act.apply (.msix k v) s).ops = s.ops ∧ (Act.apply (.msix k v) s).need = s.need ∧ (Act.apply (.msix k v) s).poke = s.poke ∧
    (Act.apply (.msix k v) s).out = s.out ∧ (Act.apply (.msix k v) s).free = s.free := by
  and_intros <;> rfl

@[simp] theorem Act.apply_jobs (k : Nat) (v : Option (Job)) (s : State) :
    (Act.apply (.jobs k v) s).pending = s.pending ∧ (Act.apply (.jobs k v) s).regs = s.regs ∧ (Act.apply (.jobs k v) s).harts = s.harts ∧
    (Act.apply (.jobs k v) s).xs = s.xs ∧ (Act.apply (.jobs k v) s).fs = s.fs ∧ (Act.apply (.jobs k v) s).vs = s.vs ∧
    (Act.apply (.jobs k v) s).csrs = s.csrs ∧ (Act.apply (.jobs k v) s).imsic = s.imsic ∧ (Act.apply (.jobs k v) s).l1i = s.l1i ∧
    (Act.apply (.jobs k v) s).l1d = s.l1d ∧ (Act.apply (.jobs k v) s).l2 = s.l2 ∧ (Act.apply (.jobs k v) s).l3 = s.l3 ∧
    (Act.apply (.jobs k v) s).plru = s.plru ∧ (Act.apply (.jobs k v) s).tiles = s.tiles ∧ (Act.apply (.jobs k v) s).quads = s.quads ∧
    (Act.apply (.jobs k v) s).seqs = s.seqs ∧ (Act.apply (.jobs k v) s).lineq = s.lineq ∧ (Act.apply (.jobs k v) s).slices = s.slices ∧
    (Act.apply (.jobs k v) s).filt = s.filt ∧ (Act.apply (.jobs k v) s).limits = s.limits ∧ (Act.apply (.jobs k v) s).aplic = s.aplic ∧
    (Act.apply (.jobs k v) s).aplicSrc = s.aplicSrc ∧ (Act.apply (.jobs k v) s).dram = s.dram ∧
    (Act.apply (.jobs k v) s).chans = s.chans ∧ (Act.apply (.jobs k v) s).keys = s.keys ∧ (Act.apply (.jobs k v) s).tbrx = s.tbrx ∧
    (Act.apply (.jobs k v) s).dies = s.dies ∧ (Act.apply (.jobs k v) s).pmuEdge = s.pmuEdge ∧
    (Act.apply (.jobs k v) s).groups = s.groups ∧ (Act.apply (.jobs k v) s).ecam = s.ecam ∧ (Act.apply (.jobs k v) s).msix = s.msix ∧
    (Act.apply (.jobs k v) s).jobs = s.jobs.upd k v ∧ (Act.apply (.jobs k v) s).fetched = s.fetched ∧
    (Act.apply (.jobs k v) s).moved = s.moved ∧ (Act.apply (.jobs k v) s).fnBytes = s.fnBytes ∧ (Act.apply (.jobs k v) s).lead = s.lead ∧
    (Act.apply (.jobs k v) s).slotTurn = s.slotTurn ∧ (Act.apply (.jobs k v) s).aged = s.aged ∧
    (Act.apply (.jobs k v) s).iommu = s.iommu ∧ (Act.apply (.jobs k v) s).fox = s.fox ∧ (Act.apply (.jobs k v) s).weir = s.weir ∧
    (Act.apply (.jobs k v) s).wdog = s.wdog ∧ (Act.apply (.jobs k v) s).pins = s.pins ∧ (Act.apply (.jobs k v) s).net = s.net ∧
    (Act.apply (.jobs k v) s).ops = s.ops ∧ (Act.apply (.jobs k v) s).need = s.need ∧ (Act.apply (.jobs k v) s).poke = s.poke ∧
    (Act.apply (.jobs k v) s).out = s.out ∧ (Act.apply (.jobs k v) s).free = s.free := by
  and_intros <;> rfl

@[simp] theorem Act.apply_fetched (k : Nat) (v : Option (BitVec 1024)) (s : State) :
    (Act.apply (.fetched k v) s).pending = s.pending ∧ (Act.apply (.fetched k v) s).regs = s.regs ∧
    (Act.apply (.fetched k v) s).harts = s.harts ∧ (Act.apply (.fetched k v) s).xs = s.xs ∧ (Act.apply (.fetched k v) s).fs = s.fs ∧
    (Act.apply (.fetched k v) s).vs = s.vs ∧ (Act.apply (.fetched k v) s).csrs = s.csrs ∧ (Act.apply (.fetched k v) s).imsic = s.imsic ∧
    (Act.apply (.fetched k v) s).l1i = s.l1i ∧ (Act.apply (.fetched k v) s).l1d = s.l1d ∧ (Act.apply (.fetched k v) s).l2 = s.l2 ∧
    (Act.apply (.fetched k v) s).l3 = s.l3 ∧ (Act.apply (.fetched k v) s).plru = s.plru ∧ (Act.apply (.fetched k v) s).tiles = s.tiles ∧
    (Act.apply (.fetched k v) s).quads = s.quads ∧ (Act.apply (.fetched k v) s).seqs = s.seqs ∧
    (Act.apply (.fetched k v) s).lineq = s.lineq ∧ (Act.apply (.fetched k v) s).slices = s.slices ∧
    (Act.apply (.fetched k v) s).filt = s.filt ∧ (Act.apply (.fetched k v) s).limits = s.limits ∧
    (Act.apply (.fetched k v) s).aplic = s.aplic ∧ (Act.apply (.fetched k v) s).aplicSrc = s.aplicSrc ∧
    (Act.apply (.fetched k v) s).dram = s.dram ∧ (Act.apply (.fetched k v) s).chans = s.chans ∧
    (Act.apply (.fetched k v) s).keys = s.keys ∧ (Act.apply (.fetched k v) s).tbrx = s.tbrx ∧
    (Act.apply (.fetched k v) s).dies = s.dies ∧ (Act.apply (.fetched k v) s).pmuEdge = s.pmuEdge ∧
    (Act.apply (.fetched k v) s).groups = s.groups ∧ (Act.apply (.fetched k v) s).ecam = s.ecam ∧
    (Act.apply (.fetched k v) s).msix = s.msix ∧ (Act.apply (.fetched k v) s).jobs = s.jobs ∧
    (Act.apply (.fetched k v) s).fetched = s.fetched.upd k v ∧ (Act.apply (.fetched k v) s).moved = s.moved ∧
    (Act.apply (.fetched k v) s).fnBytes = s.fnBytes ∧ (Act.apply (.fetched k v) s).lead = s.lead ∧
    (Act.apply (.fetched k v) s).slotTurn = s.slotTurn ∧ (Act.apply (.fetched k v) s).aged = s.aged ∧
    (Act.apply (.fetched k v) s).iommu = s.iommu ∧ (Act.apply (.fetched k v) s).fox = s.fox ∧
    (Act.apply (.fetched k v) s).weir = s.weir ∧ (Act.apply (.fetched k v) s).wdog = s.wdog ∧
    (Act.apply (.fetched k v) s).pins = s.pins ∧ (Act.apply (.fetched k v) s).net = s.net ∧ (Act.apply (.fetched k v) s).ops = s.ops ∧
    (Act.apply (.fetched k v) s).need = s.need ∧ (Act.apply (.fetched k v) s).poke = s.poke ∧ (Act.apply (.fetched k v) s).out = s.out ∧
    (Act.apply (.fetched k v) s).free = s.free := by
  and_intros <;> rfl

@[simp] theorem Act.apply_moved (k : Nat) (v : Nat) (s : State) :
    (Act.apply (.moved k v) s).pending = s.pending ∧ (Act.apply (.moved k v) s).regs = s.regs ∧
    (Act.apply (.moved k v) s).harts = s.harts ∧ (Act.apply (.moved k v) s).xs = s.xs ∧ (Act.apply (.moved k v) s).fs = s.fs ∧
    (Act.apply (.moved k v) s).vs = s.vs ∧ (Act.apply (.moved k v) s).csrs = s.csrs ∧ (Act.apply (.moved k v) s).imsic = s.imsic ∧
    (Act.apply (.moved k v) s).l1i = s.l1i ∧ (Act.apply (.moved k v) s).l1d = s.l1d ∧ (Act.apply (.moved k v) s).l2 = s.l2 ∧
    (Act.apply (.moved k v) s).l3 = s.l3 ∧ (Act.apply (.moved k v) s).plru = s.plru ∧ (Act.apply (.moved k v) s).tiles = s.tiles ∧
    (Act.apply (.moved k v) s).quads = s.quads ∧ (Act.apply (.moved k v) s).seqs = s.seqs ∧ (Act.apply (.moved k v) s).lineq = s.lineq ∧
    (Act.apply (.moved k v) s).slices = s.slices ∧ (Act.apply (.moved k v) s).filt = s.filt ∧
    (Act.apply (.moved k v) s).limits = s.limits ∧ (Act.apply (.moved k v) s).aplic = s.aplic ∧
    (Act.apply (.moved k v) s).aplicSrc = s.aplicSrc ∧ (Act.apply (.moved k v) s).dram = s.dram ∧
    (Act.apply (.moved k v) s).chans = s.chans ∧ (Act.apply (.moved k v) s).keys = s.keys ∧ (Act.apply (.moved k v) s).tbrx = s.tbrx ∧
    (Act.apply (.moved k v) s).dies = s.dies ∧ (Act.apply (.moved k v) s).pmuEdge = s.pmuEdge ∧
    (Act.apply (.moved k v) s).groups = s.groups ∧ (Act.apply (.moved k v) s).ecam = s.ecam ∧ (Act.apply (.moved k v) s).msix = s.msix ∧
    (Act.apply (.moved k v) s).jobs = s.jobs ∧ (Act.apply (.moved k v) s).fetched = s.fetched ∧
    (Act.apply (.moved k v) s).moved = s.moved.upd k (listed 0 v) ∧ (Act.apply (.moved k v) s).fnBytes = s.fnBytes ∧
    (Act.apply (.moved k v) s).lead = s.lead ∧ (Act.apply (.moved k v) s).slotTurn = s.slotTurn ∧
    (Act.apply (.moved k v) s).aged = s.aged ∧ (Act.apply (.moved k v) s).iommu = s.iommu ∧ (Act.apply (.moved k v) s).fox = s.fox ∧
    (Act.apply (.moved k v) s).weir = s.weir ∧ (Act.apply (.moved k v) s).wdog = s.wdog ∧ (Act.apply (.moved k v) s).pins = s.pins ∧
    (Act.apply (.moved k v) s).net = s.net ∧ (Act.apply (.moved k v) s).ops = s.ops ∧ (Act.apply (.moved k v) s).need = s.need ∧
    (Act.apply (.moved k v) s).poke = s.poke ∧ (Act.apply (.moved k v) s).out = s.out ∧ (Act.apply (.moved k v) s).free = s.free := by
  and_intros <;> rfl

@[simp] theorem Act.apply_fnBytes (k : Nat) (v : Nat) (s : State) :
    (Act.apply (.fnBytes k v) s).pending = s.pending ∧ (Act.apply (.fnBytes k v) s).regs = s.regs ∧
    (Act.apply (.fnBytes k v) s).harts = s.harts ∧ (Act.apply (.fnBytes k v) s).xs = s.xs ∧ (Act.apply (.fnBytes k v) s).fs = s.fs ∧
    (Act.apply (.fnBytes k v) s).vs = s.vs ∧ (Act.apply (.fnBytes k v) s).csrs = s.csrs ∧ (Act.apply (.fnBytes k v) s).imsic = s.imsic ∧
    (Act.apply (.fnBytes k v) s).l1i = s.l1i ∧ (Act.apply (.fnBytes k v) s).l1d = s.l1d ∧ (Act.apply (.fnBytes k v) s).l2 = s.l2 ∧
    (Act.apply (.fnBytes k v) s).l3 = s.l3 ∧ (Act.apply (.fnBytes k v) s).plru = s.plru ∧ (Act.apply (.fnBytes k v) s).tiles = s.tiles ∧
    (Act.apply (.fnBytes k v) s).quads = s.quads ∧ (Act.apply (.fnBytes k v) s).seqs = s.seqs ∧
    (Act.apply (.fnBytes k v) s).lineq = s.lineq ∧ (Act.apply (.fnBytes k v) s).slices = s.slices ∧
    (Act.apply (.fnBytes k v) s).filt = s.filt ∧ (Act.apply (.fnBytes k v) s).limits = s.limits ∧
    (Act.apply (.fnBytes k v) s).aplic = s.aplic ∧ (Act.apply (.fnBytes k v) s).aplicSrc = s.aplicSrc ∧
    (Act.apply (.fnBytes k v) s).dram = s.dram ∧ (Act.apply (.fnBytes k v) s).chans = s.chans ∧
    (Act.apply (.fnBytes k v) s).keys = s.keys ∧ (Act.apply (.fnBytes k v) s).tbrx = s.tbrx ∧
    (Act.apply (.fnBytes k v) s).dies = s.dies ∧ (Act.apply (.fnBytes k v) s).pmuEdge = s.pmuEdge ∧
    (Act.apply (.fnBytes k v) s).groups = s.groups ∧ (Act.apply (.fnBytes k v) s).ecam = s.ecam ∧
    (Act.apply (.fnBytes k v) s).msix = s.msix ∧ (Act.apply (.fnBytes k v) s).jobs = s.jobs ∧
    (Act.apply (.fnBytes k v) s).fetched = s.fetched ∧ (Act.apply (.fnBytes k v) s).moved = s.moved ∧
    (Act.apply (.fnBytes k v) s).fnBytes = s.fnBytes.upd k (listed 0 v) ∧ (Act.apply (.fnBytes k v) s).lead = s.lead ∧
    (Act.apply (.fnBytes k v) s).slotTurn = s.slotTurn ∧ (Act.apply (.fnBytes k v) s).aged = s.aged ∧
    (Act.apply (.fnBytes k v) s).iommu = s.iommu ∧ (Act.apply (.fnBytes k v) s).fox = s.fox ∧
    (Act.apply (.fnBytes k v) s).weir = s.weir ∧ (Act.apply (.fnBytes k v) s).wdog = s.wdog ∧
    (Act.apply (.fnBytes k v) s).pins = s.pins ∧ (Act.apply (.fnBytes k v) s).net = s.net ∧ (Act.apply (.fnBytes k v) s).ops = s.ops ∧
    (Act.apply (.fnBytes k v) s).need = s.need ∧ (Act.apply (.fnBytes k v) s).poke = s.poke ∧ (Act.apply (.fnBytes k v) s).out = s.out ∧
    (Act.apply (.fnBytes k v) s).free = s.free := by
  and_intros <;> rfl

@[simp] theorem Act.apply_lead (k : Nat) (v : Nat) (s : State) :
    (Act.apply (.lead k v) s).pending = s.pending ∧ (Act.apply (.lead k v) s).regs = s.regs ∧ (Act.apply (.lead k v) s).harts = s.harts ∧
    (Act.apply (.lead k v) s).xs = s.xs ∧ (Act.apply (.lead k v) s).fs = s.fs ∧ (Act.apply (.lead k v) s).vs = s.vs ∧
    (Act.apply (.lead k v) s).csrs = s.csrs ∧ (Act.apply (.lead k v) s).imsic = s.imsic ∧ (Act.apply (.lead k v) s).l1i = s.l1i ∧
    (Act.apply (.lead k v) s).l1d = s.l1d ∧ (Act.apply (.lead k v) s).l2 = s.l2 ∧ (Act.apply (.lead k v) s).l3 = s.l3 ∧
    (Act.apply (.lead k v) s).plru = s.plru ∧ (Act.apply (.lead k v) s).tiles = s.tiles ∧ (Act.apply (.lead k v) s).quads = s.quads ∧
    (Act.apply (.lead k v) s).seqs = s.seqs ∧ (Act.apply (.lead k v) s).lineq = s.lineq ∧ (Act.apply (.lead k v) s).slices = s.slices ∧
    (Act.apply (.lead k v) s).filt = s.filt ∧ (Act.apply (.lead k v) s).limits = s.limits ∧ (Act.apply (.lead k v) s).aplic = s.aplic ∧
    (Act.apply (.lead k v) s).aplicSrc = s.aplicSrc ∧ (Act.apply (.lead k v) s).dram = s.dram ∧
    (Act.apply (.lead k v) s).chans = s.chans ∧ (Act.apply (.lead k v) s).keys = s.keys ∧ (Act.apply (.lead k v) s).tbrx = s.tbrx ∧
    (Act.apply (.lead k v) s).dies = s.dies ∧ (Act.apply (.lead k v) s).pmuEdge = s.pmuEdge ∧
    (Act.apply (.lead k v) s).groups = s.groups ∧ (Act.apply (.lead k v) s).ecam = s.ecam ∧ (Act.apply (.lead k v) s).msix = s.msix ∧
    (Act.apply (.lead k v) s).jobs = s.jobs ∧ (Act.apply (.lead k v) s).fetched = s.fetched ∧ (Act.apply (.lead k v) s).moved = s.moved ∧
    (Act.apply (.lead k v) s).fnBytes = s.fnBytes ∧ (Act.apply (.lead k v) s).lead = s.lead.upd k (listed 0 v) ∧
    (Act.apply (.lead k v) s).slotTurn = s.slotTurn ∧ (Act.apply (.lead k v) s).aged = s.aged ∧
    (Act.apply (.lead k v) s).iommu = s.iommu ∧ (Act.apply (.lead k v) s).fox = s.fox ∧ (Act.apply (.lead k v) s).weir = s.weir ∧
    (Act.apply (.lead k v) s).wdog = s.wdog ∧ (Act.apply (.lead k v) s).pins = s.pins ∧ (Act.apply (.lead k v) s).net = s.net ∧
    (Act.apply (.lead k v) s).ops = s.ops ∧ (Act.apply (.lead k v) s).need = s.need ∧ (Act.apply (.lead k v) s).poke = s.poke ∧
    (Act.apply (.lead k v) s).out = s.out ∧ (Act.apply (.lead k v) s).free = s.free := by
  and_intros <;> rfl

@[simp] theorem Act.apply_slotTurn (k : Nat) (v : Nat) (s : State) :
    (Act.apply (.slotTurn k v) s).pending = s.pending ∧ (Act.apply (.slotTurn k v) s).regs = s.regs ∧
    (Act.apply (.slotTurn k v) s).harts = s.harts ∧ (Act.apply (.slotTurn k v) s).xs = s.xs ∧ (Act.apply (.slotTurn k v) s).fs = s.fs ∧
    (Act.apply (.slotTurn k v) s).vs = s.vs ∧ (Act.apply (.slotTurn k v) s).csrs = s.csrs ∧
    (Act.apply (.slotTurn k v) s).imsic = s.imsic ∧ (Act.apply (.slotTurn k v) s).l1i = s.l1i ∧
    (Act.apply (.slotTurn k v) s).l1d = s.l1d ∧ (Act.apply (.slotTurn k v) s).l2 = s.l2 ∧ (Act.apply (.slotTurn k v) s).l3 = s.l3 ∧
    (Act.apply (.slotTurn k v) s).plru = s.plru ∧ (Act.apply (.slotTurn k v) s).tiles = s.tiles ∧
    (Act.apply (.slotTurn k v) s).quads = s.quads ∧ (Act.apply (.slotTurn k v) s).seqs = s.seqs ∧
    (Act.apply (.slotTurn k v) s).lineq = s.lineq ∧ (Act.apply (.slotTurn k v) s).slices = s.slices ∧
    (Act.apply (.slotTurn k v) s).filt = s.filt ∧ (Act.apply (.slotTurn k v) s).limits = s.limits ∧
    (Act.apply (.slotTurn k v) s).aplic = s.aplic ∧ (Act.apply (.slotTurn k v) s).aplicSrc = s.aplicSrc ∧
    (Act.apply (.slotTurn k v) s).dram = s.dram ∧ (Act.apply (.slotTurn k v) s).chans = s.chans ∧
    (Act.apply (.slotTurn k v) s).keys = s.keys ∧ (Act.apply (.slotTurn k v) s).tbrx = s.tbrx ∧
    (Act.apply (.slotTurn k v) s).dies = s.dies ∧ (Act.apply (.slotTurn k v) s).pmuEdge = s.pmuEdge ∧
    (Act.apply (.slotTurn k v) s).groups = s.groups ∧ (Act.apply (.slotTurn k v) s).ecam = s.ecam ∧
    (Act.apply (.slotTurn k v) s).msix = s.msix ∧ (Act.apply (.slotTurn k v) s).jobs = s.jobs ∧
    (Act.apply (.slotTurn k v) s).fetched = s.fetched ∧ (Act.apply (.slotTurn k v) s).moved = s.moved ∧
    (Act.apply (.slotTurn k v) s).fnBytes = s.fnBytes ∧ (Act.apply (.slotTurn k v) s).lead = s.lead ∧
    (Act.apply (.slotTurn k v) s).slotTurn = s.slotTurn.upd k (listed 0 v) ∧ (Act.apply (.slotTurn k v) s).aged = s.aged ∧
    (Act.apply (.slotTurn k v) s).iommu = s.iommu ∧ (Act.apply (.slotTurn k v) s).fox = s.fox ∧
    (Act.apply (.slotTurn k v) s).weir = s.weir ∧ (Act.apply (.slotTurn k v) s).wdog = s.wdog ∧
    (Act.apply (.slotTurn k v) s).pins = s.pins ∧ (Act.apply (.slotTurn k v) s).net = s.net ∧ (Act.apply (.slotTurn k v) s).ops = s.ops ∧
    (Act.apply (.slotTurn k v) s).need = s.need ∧ (Act.apply (.slotTurn k v) s).poke = s.poke ∧
    (Act.apply (.slotTurn k v) s).out = s.out ∧ (Act.apply (.slotTurn k v) s).free = s.free := by
  and_intros <;> rfl

@[simp] theorem Act.apply_aged (k : Nat) (v : Nat) (s : State) :
    (Act.apply (.aged k v) s).pending = s.pending ∧ (Act.apply (.aged k v) s).regs = s.regs ∧ (Act.apply (.aged k v) s).harts = s.harts ∧
    (Act.apply (.aged k v) s).xs = s.xs ∧ (Act.apply (.aged k v) s).fs = s.fs ∧ (Act.apply (.aged k v) s).vs = s.vs ∧
    (Act.apply (.aged k v) s).csrs = s.csrs ∧ (Act.apply (.aged k v) s).imsic = s.imsic ∧ (Act.apply (.aged k v) s).l1i = s.l1i ∧
    (Act.apply (.aged k v) s).l1d = s.l1d ∧ (Act.apply (.aged k v) s).l2 = s.l2 ∧ (Act.apply (.aged k v) s).l3 = s.l3 ∧
    (Act.apply (.aged k v) s).plru = s.plru ∧ (Act.apply (.aged k v) s).tiles = s.tiles ∧ (Act.apply (.aged k v) s).quads = s.quads ∧
    (Act.apply (.aged k v) s).seqs = s.seqs ∧ (Act.apply (.aged k v) s).lineq = s.lineq ∧ (Act.apply (.aged k v) s).slices = s.slices ∧
    (Act.apply (.aged k v) s).filt = s.filt ∧ (Act.apply (.aged k v) s).limits = s.limits ∧ (Act.apply (.aged k v) s).aplic = s.aplic ∧
    (Act.apply (.aged k v) s).aplicSrc = s.aplicSrc ∧ (Act.apply (.aged k v) s).dram = s.dram ∧
    (Act.apply (.aged k v) s).chans = s.chans ∧ (Act.apply (.aged k v) s).keys = s.keys ∧ (Act.apply (.aged k v) s).tbrx = s.tbrx ∧
    (Act.apply (.aged k v) s).dies = s.dies ∧ (Act.apply (.aged k v) s).pmuEdge = s.pmuEdge ∧
    (Act.apply (.aged k v) s).groups = s.groups ∧ (Act.apply (.aged k v) s).ecam = s.ecam ∧ (Act.apply (.aged k v) s).msix = s.msix ∧
    (Act.apply (.aged k v) s).jobs = s.jobs ∧ (Act.apply (.aged k v) s).fetched = s.fetched ∧ (Act.apply (.aged k v) s).moved = s.moved ∧
    (Act.apply (.aged k v) s).fnBytes = s.fnBytes ∧ (Act.apply (.aged k v) s).lead = s.lead ∧
    (Act.apply (.aged k v) s).slotTurn = s.slotTurn ∧ (Act.apply (.aged k v) s).aged = s.aged.upd k (listed 0 v) ∧
    (Act.apply (.aged k v) s).iommu = s.iommu ∧ (Act.apply (.aged k v) s).fox = s.fox ∧ (Act.apply (.aged k v) s).weir = s.weir ∧
    (Act.apply (.aged k v) s).wdog = s.wdog ∧ (Act.apply (.aged k v) s).pins = s.pins ∧ (Act.apply (.aged k v) s).net = s.net ∧
    (Act.apply (.aged k v) s).ops = s.ops ∧ (Act.apply (.aged k v) s).need = s.need ∧ (Act.apply (.aged k v) s).poke = s.poke ∧
    (Act.apply (.aged k v) s).out = s.out ∧ (Act.apply (.aged k v) s).free = s.free := by
  and_intros <;> rfl

@[simp] theorem Act.apply_iommu (v : Iommu) (s : State) :
    (Act.apply (.iommu v) s).pending = s.pending ∧ (Act.apply (.iommu v) s).regs = s.regs ∧ (Act.apply (.iommu v) s).harts = s.harts ∧
    (Act.apply (.iommu v) s).xs = s.xs ∧ (Act.apply (.iommu v) s).fs = s.fs ∧ (Act.apply (.iommu v) s).vs = s.vs ∧
    (Act.apply (.iommu v) s).csrs = s.csrs ∧ (Act.apply (.iommu v) s).imsic = s.imsic ∧ (Act.apply (.iommu v) s).l1i = s.l1i ∧
    (Act.apply (.iommu v) s).l1d = s.l1d ∧ (Act.apply (.iommu v) s).l2 = s.l2 ∧ (Act.apply (.iommu v) s).l3 = s.l3 ∧
    (Act.apply (.iommu v) s).plru = s.plru ∧ (Act.apply (.iommu v) s).tiles = s.tiles ∧ (Act.apply (.iommu v) s).quads = s.quads ∧
    (Act.apply (.iommu v) s).seqs = s.seqs ∧ (Act.apply (.iommu v) s).lineq = s.lineq ∧ (Act.apply (.iommu v) s).slices = s.slices ∧
    (Act.apply (.iommu v) s).filt = s.filt ∧ (Act.apply (.iommu v) s).limits = s.limits ∧ (Act.apply (.iommu v) s).aplic = s.aplic ∧
    (Act.apply (.iommu v) s).aplicSrc = s.aplicSrc ∧ (Act.apply (.iommu v) s).dram = s.dram ∧ (Act.apply (.iommu v) s).chans = s.chans ∧
    (Act.apply (.iommu v) s).keys = s.keys ∧ (Act.apply (.iommu v) s).tbrx = s.tbrx ∧ (Act.apply (.iommu v) s).dies = s.dies ∧
    (Act.apply (.iommu v) s).pmuEdge = s.pmuEdge ∧ (Act.apply (.iommu v) s).groups = s.groups ∧ (Act.apply (.iommu v) s).ecam = s.ecam ∧
    (Act.apply (.iommu v) s).msix = s.msix ∧ (Act.apply (.iommu v) s).jobs = s.jobs ∧ (Act.apply (.iommu v) s).fetched = s.fetched ∧
    (Act.apply (.iommu v) s).moved = s.moved ∧ (Act.apply (.iommu v) s).fnBytes = s.fnBytes ∧ (Act.apply (.iommu v) s).lead = s.lead ∧
    (Act.apply (.iommu v) s).slotTurn = s.slotTurn ∧ (Act.apply (.iommu v) s).aged = s.aged ∧ (Act.apply (.iommu v) s).iommu = v ∧
    (Act.apply (.iommu v) s).fox = s.fox ∧ (Act.apply (.iommu v) s).weir = s.weir ∧ (Act.apply (.iommu v) s).wdog = s.wdog ∧
    (Act.apply (.iommu v) s).pins = s.pins ∧ (Act.apply (.iommu v) s).net = s.net ∧ (Act.apply (.iommu v) s).ops = s.ops ∧
    (Act.apply (.iommu v) s).need = s.need ∧ (Act.apply (.iommu v) s).poke = s.poke ∧ (Act.apply (.iommu v) s).out = s.out ∧
    (Act.apply (.iommu v) s).free = s.free := by
  and_intros <;> rfl

@[simp] theorem Act.apply_fox (v : Fox) (s : State) :
    (Act.apply (.fox v) s).pending = s.pending ∧ (Act.apply (.fox v) s).regs = s.regs ∧ (Act.apply (.fox v) s).harts = s.harts ∧
    (Act.apply (.fox v) s).xs = s.xs ∧ (Act.apply (.fox v) s).fs = s.fs ∧ (Act.apply (.fox v) s).vs = s.vs ∧
    (Act.apply (.fox v) s).csrs = s.csrs ∧ (Act.apply (.fox v) s).imsic = s.imsic ∧ (Act.apply (.fox v) s).l1i = s.l1i ∧
    (Act.apply (.fox v) s).l1d = s.l1d ∧ (Act.apply (.fox v) s).l2 = s.l2 ∧ (Act.apply (.fox v) s).l3 = s.l3 ∧
    (Act.apply (.fox v) s).plru = s.plru ∧ (Act.apply (.fox v) s).tiles = s.tiles ∧ (Act.apply (.fox v) s).quads = s.quads ∧
    (Act.apply (.fox v) s).seqs = s.seqs ∧ (Act.apply (.fox v) s).lineq = s.lineq ∧ (Act.apply (.fox v) s).slices = s.slices ∧
    (Act.apply (.fox v) s).filt = s.filt ∧ (Act.apply (.fox v) s).limits = s.limits ∧ (Act.apply (.fox v) s).aplic = s.aplic ∧
    (Act.apply (.fox v) s).aplicSrc = s.aplicSrc ∧ (Act.apply (.fox v) s).dram = s.dram ∧ (Act.apply (.fox v) s).chans = s.chans ∧
    (Act.apply (.fox v) s).keys = s.keys ∧ (Act.apply (.fox v) s).tbrx = s.tbrx ∧ (Act.apply (.fox v) s).dies = s.dies ∧
    (Act.apply (.fox v) s).pmuEdge = s.pmuEdge ∧ (Act.apply (.fox v) s).groups = s.groups ∧ (Act.apply (.fox v) s).ecam = s.ecam ∧
    (Act.apply (.fox v) s).msix = s.msix ∧ (Act.apply (.fox v) s).jobs = s.jobs ∧ (Act.apply (.fox v) s).fetched = s.fetched ∧
    (Act.apply (.fox v) s).moved = s.moved ∧ (Act.apply (.fox v) s).fnBytes = s.fnBytes ∧ (Act.apply (.fox v) s).lead = s.lead ∧
    (Act.apply (.fox v) s).slotTurn = s.slotTurn ∧ (Act.apply (.fox v) s).aged = s.aged ∧ (Act.apply (.fox v) s).iommu = s.iommu ∧
    (Act.apply (.fox v) s).fox = v ∧ (Act.apply (.fox v) s).weir = s.weir ∧ (Act.apply (.fox v) s).wdog = s.wdog ∧
    (Act.apply (.fox v) s).pins = s.pins ∧ (Act.apply (.fox v) s).net = s.net ∧ (Act.apply (.fox v) s).ops = s.ops ∧
    (Act.apply (.fox v) s).need = s.need ∧ (Act.apply (.fox v) s).poke = s.poke ∧ (Act.apply (.fox v) s).out = s.out ∧
    (Act.apply (.fox v) s).free = s.free := by
  and_intros <;> rfl

@[simp] theorem Act.apply_weir (v : Weir) (s : State) :
    (Act.apply (.weir v) s).pending = s.pending ∧ (Act.apply (.weir v) s).regs = s.regs ∧ (Act.apply (.weir v) s).harts = s.harts ∧
    (Act.apply (.weir v) s).xs = s.xs ∧ (Act.apply (.weir v) s).fs = s.fs ∧ (Act.apply (.weir v) s).vs = s.vs ∧
    (Act.apply (.weir v) s).csrs = s.csrs ∧ (Act.apply (.weir v) s).imsic = s.imsic ∧ (Act.apply (.weir v) s).l1i = s.l1i ∧
    (Act.apply (.weir v) s).l1d = s.l1d ∧ (Act.apply (.weir v) s).l2 = s.l2 ∧ (Act.apply (.weir v) s).l3 = s.l3 ∧
    (Act.apply (.weir v) s).plru = s.plru ∧ (Act.apply (.weir v) s).tiles = s.tiles ∧ (Act.apply (.weir v) s).quads = s.quads ∧
    (Act.apply (.weir v) s).seqs = s.seqs ∧ (Act.apply (.weir v) s).lineq = s.lineq ∧ (Act.apply (.weir v) s).slices = s.slices ∧
    (Act.apply (.weir v) s).filt = s.filt ∧ (Act.apply (.weir v) s).limits = s.limits ∧ (Act.apply (.weir v) s).aplic = s.aplic ∧
    (Act.apply (.weir v) s).aplicSrc = s.aplicSrc ∧ (Act.apply (.weir v) s).dram = s.dram ∧ (Act.apply (.weir v) s).chans = s.chans ∧
    (Act.apply (.weir v) s).keys = s.keys ∧ (Act.apply (.weir v) s).tbrx = s.tbrx ∧ (Act.apply (.weir v) s).dies = s.dies ∧
    (Act.apply (.weir v) s).pmuEdge = s.pmuEdge ∧ (Act.apply (.weir v) s).groups = s.groups ∧ (Act.apply (.weir v) s).ecam = s.ecam ∧
    (Act.apply (.weir v) s).msix = s.msix ∧ (Act.apply (.weir v) s).jobs = s.jobs ∧ (Act.apply (.weir v) s).fetched = s.fetched ∧
    (Act.apply (.weir v) s).moved = s.moved ∧ (Act.apply (.weir v) s).fnBytes = s.fnBytes ∧ (Act.apply (.weir v) s).lead = s.lead ∧
    (Act.apply (.weir v) s).slotTurn = s.slotTurn ∧ (Act.apply (.weir v) s).aged = s.aged ∧ (Act.apply (.weir v) s).iommu = s.iommu ∧
    (Act.apply (.weir v) s).fox = s.fox ∧ (Act.apply (.weir v) s).weir = v ∧ (Act.apply (.weir v) s).wdog = s.wdog ∧
    (Act.apply (.weir v) s).pins = s.pins ∧ (Act.apply (.weir v) s).net = s.net ∧ (Act.apply (.weir v) s).ops = s.ops ∧
    (Act.apply (.weir v) s).need = s.need ∧ (Act.apply (.weir v) s).poke = s.poke ∧ (Act.apply (.weir v) s).out = s.out ∧
    (Act.apply (.weir v) s).free = s.free := by
  and_intros <;> rfl

@[simp] theorem Act.apply_wdog (v : Option Nat) (s : State) :
    (Act.apply (.wdog v) s).pending = s.pending ∧ (Act.apply (.wdog v) s).regs = s.regs ∧ (Act.apply (.wdog v) s).harts = s.harts ∧
    (Act.apply (.wdog v) s).xs = s.xs ∧ (Act.apply (.wdog v) s).fs = s.fs ∧ (Act.apply (.wdog v) s).vs = s.vs ∧
    (Act.apply (.wdog v) s).csrs = s.csrs ∧ (Act.apply (.wdog v) s).imsic = s.imsic ∧ (Act.apply (.wdog v) s).l1i = s.l1i ∧
    (Act.apply (.wdog v) s).l1d = s.l1d ∧ (Act.apply (.wdog v) s).l2 = s.l2 ∧ (Act.apply (.wdog v) s).l3 = s.l3 ∧
    (Act.apply (.wdog v) s).plru = s.plru ∧ (Act.apply (.wdog v) s).tiles = s.tiles ∧ (Act.apply (.wdog v) s).quads = s.quads ∧
    (Act.apply (.wdog v) s).seqs = s.seqs ∧ (Act.apply (.wdog v) s).lineq = s.lineq ∧ (Act.apply (.wdog v) s).slices = s.slices ∧
    (Act.apply (.wdog v) s).filt = s.filt ∧ (Act.apply (.wdog v) s).limits = s.limits ∧ (Act.apply (.wdog v) s).aplic = s.aplic ∧
    (Act.apply (.wdog v) s).aplicSrc = s.aplicSrc ∧ (Act.apply (.wdog v) s).dram = s.dram ∧ (Act.apply (.wdog v) s).chans = s.chans ∧
    (Act.apply (.wdog v) s).keys = s.keys ∧ (Act.apply (.wdog v) s).tbrx = s.tbrx ∧ (Act.apply (.wdog v) s).dies = s.dies ∧
    (Act.apply (.wdog v) s).pmuEdge = s.pmuEdge ∧ (Act.apply (.wdog v) s).groups = s.groups ∧ (Act.apply (.wdog v) s).ecam = s.ecam ∧
    (Act.apply (.wdog v) s).msix = s.msix ∧ (Act.apply (.wdog v) s).jobs = s.jobs ∧ (Act.apply (.wdog v) s).fetched = s.fetched ∧
    (Act.apply (.wdog v) s).moved = s.moved ∧ (Act.apply (.wdog v) s).fnBytes = s.fnBytes ∧ (Act.apply (.wdog v) s).lead = s.lead ∧
    (Act.apply (.wdog v) s).slotTurn = s.slotTurn ∧ (Act.apply (.wdog v) s).aged = s.aged ∧ (Act.apply (.wdog v) s).iommu = s.iommu ∧
    (Act.apply (.wdog v) s).fox = s.fox ∧ (Act.apply (.wdog v) s).weir = s.weir ∧ (Act.apply (.wdog v) s).wdog = v ∧
    (Act.apply (.wdog v) s).pins = s.pins ∧ (Act.apply (.wdog v) s).net = s.net ∧ (Act.apply (.wdog v) s).ops = s.ops ∧
    (Act.apply (.wdog v) s).need = s.need ∧ (Act.apply (.wdog v) s).poke = s.poke ∧ (Act.apply (.wdog v) s).out = s.out ∧
    (Act.apply (.wdog v) s).free = s.free := by
  and_intros <;> rfl

@[simp] theorem Act.apply_pins (v : Pins) (s : State) :
    (Act.apply (.pins v) s).pending = s.pending ∧ (Act.apply (.pins v) s).regs = s.regs ∧ (Act.apply (.pins v) s).harts = s.harts ∧
    (Act.apply (.pins v) s).xs = s.xs ∧ (Act.apply (.pins v) s).fs = s.fs ∧ (Act.apply (.pins v) s).vs = s.vs ∧
    (Act.apply (.pins v) s).csrs = s.csrs ∧ (Act.apply (.pins v) s).imsic = s.imsic ∧ (Act.apply (.pins v) s).l1i = s.l1i ∧
    (Act.apply (.pins v) s).l1d = s.l1d ∧ (Act.apply (.pins v) s).l2 = s.l2 ∧ (Act.apply (.pins v) s).l3 = s.l3 ∧
    (Act.apply (.pins v) s).plru = s.plru ∧ (Act.apply (.pins v) s).tiles = s.tiles ∧ (Act.apply (.pins v) s).quads = s.quads ∧
    (Act.apply (.pins v) s).seqs = s.seqs ∧ (Act.apply (.pins v) s).lineq = s.lineq ∧ (Act.apply (.pins v) s).slices = s.slices ∧
    (Act.apply (.pins v) s).filt = s.filt ∧ (Act.apply (.pins v) s).limits = s.limits ∧ (Act.apply (.pins v) s).aplic = s.aplic ∧
    (Act.apply (.pins v) s).aplicSrc = s.aplicSrc ∧ (Act.apply (.pins v) s).dram = s.dram ∧ (Act.apply (.pins v) s).chans = s.chans ∧
    (Act.apply (.pins v) s).keys = s.keys ∧ (Act.apply (.pins v) s).tbrx = s.tbrx ∧ (Act.apply (.pins v) s).dies = s.dies ∧
    (Act.apply (.pins v) s).pmuEdge = s.pmuEdge ∧ (Act.apply (.pins v) s).groups = s.groups ∧ (Act.apply (.pins v) s).ecam = s.ecam ∧
    (Act.apply (.pins v) s).msix = s.msix ∧ (Act.apply (.pins v) s).jobs = s.jobs ∧ (Act.apply (.pins v) s).fetched = s.fetched ∧
    (Act.apply (.pins v) s).moved = s.moved ∧ (Act.apply (.pins v) s).fnBytes = s.fnBytes ∧ (Act.apply (.pins v) s).lead = s.lead ∧
    (Act.apply (.pins v) s).slotTurn = s.slotTurn ∧ (Act.apply (.pins v) s).aged = s.aged ∧ (Act.apply (.pins v) s).iommu = s.iommu ∧
    (Act.apply (.pins v) s).fox = s.fox ∧ (Act.apply (.pins v) s).weir = s.weir ∧ (Act.apply (.pins v) s).wdog = s.wdog ∧
    (Act.apply (.pins v) s).pins = v ∧ (Act.apply (.pins v) s).net = s.net ∧ (Act.apply (.pins v) s).ops = s.ops ∧
    (Act.apply (.pins v) s).need = s.need ∧ (Act.apply (.pins v) s).poke = s.poke ∧ (Act.apply (.pins v) s).out = s.out ∧
    (Act.apply (.pins v) s).free = s.free := by
  and_intros <;> rfl

@[simp] theorem Act.apply_net (v : List Msg) (s : State) :
    (Act.apply (.net v) s).pending = s.pending ∧ (Act.apply (.net v) s).regs = s.regs ∧ (Act.apply (.net v) s).harts = s.harts ∧
    (Act.apply (.net v) s).xs = s.xs ∧ (Act.apply (.net v) s).fs = s.fs ∧ (Act.apply (.net v) s).vs = s.vs ∧
    (Act.apply (.net v) s).csrs = s.csrs ∧ (Act.apply (.net v) s).imsic = s.imsic ∧ (Act.apply (.net v) s).l1i = s.l1i ∧
    (Act.apply (.net v) s).l1d = s.l1d ∧ (Act.apply (.net v) s).l2 = s.l2 ∧ (Act.apply (.net v) s).l3 = s.l3 ∧
    (Act.apply (.net v) s).plru = s.plru ∧ (Act.apply (.net v) s).tiles = s.tiles ∧ (Act.apply (.net v) s).quads = s.quads ∧
    (Act.apply (.net v) s).seqs = s.seqs ∧ (Act.apply (.net v) s).lineq = s.lineq ∧ (Act.apply (.net v) s).slices = s.slices ∧
    (Act.apply (.net v) s).filt = s.filt ∧ (Act.apply (.net v) s).limits = s.limits ∧ (Act.apply (.net v) s).aplic = s.aplic ∧
    (Act.apply (.net v) s).aplicSrc = s.aplicSrc ∧ (Act.apply (.net v) s).dram = s.dram ∧ (Act.apply (.net v) s).chans = s.chans ∧
    (Act.apply (.net v) s).keys = s.keys ∧ (Act.apply (.net v) s).tbrx = s.tbrx ∧ (Act.apply (.net v) s).dies = s.dies ∧
    (Act.apply (.net v) s).pmuEdge = s.pmuEdge ∧ (Act.apply (.net v) s).groups = s.groups ∧ (Act.apply (.net v) s).ecam = s.ecam ∧
    (Act.apply (.net v) s).msix = s.msix ∧ (Act.apply (.net v) s).jobs = s.jobs ∧ (Act.apply (.net v) s).fetched = s.fetched ∧
    (Act.apply (.net v) s).moved = s.moved ∧ (Act.apply (.net v) s).fnBytes = s.fnBytes ∧ (Act.apply (.net v) s).lead = s.lead ∧
    (Act.apply (.net v) s).slotTurn = s.slotTurn ∧ (Act.apply (.net v) s).aged = s.aged ∧ (Act.apply (.net v) s).iommu = s.iommu ∧
    (Act.apply (.net v) s).fox = s.fox ∧ (Act.apply (.net v) s).weir = s.weir ∧ (Act.apply (.net v) s).wdog = s.wdog ∧
    (Act.apply (.net v) s).pins = s.pins ∧ (Act.apply (.net v) s).net = v ∧ (Act.apply (.net v) s).ops = s.ops ∧
    (Act.apply (.net v) s).need = s.need ∧ (Act.apply (.net v) s).poke = s.poke ∧ (Act.apply (.net v) s).out = s.out ∧
    (Act.apply (.net v) s).free = s.free := by
  and_intros <;> rfl

@[simp] theorem Act.apply_ops (v : List Op) (s : State) :
    (Act.apply (.ops v) s).pending = s.pending ∧ (Act.apply (.ops v) s).regs = s.regs ∧ (Act.apply (.ops v) s).harts = s.harts ∧
    (Act.apply (.ops v) s).xs = s.xs ∧ (Act.apply (.ops v) s).fs = s.fs ∧ (Act.apply (.ops v) s).vs = s.vs ∧
    (Act.apply (.ops v) s).csrs = s.csrs ∧ (Act.apply (.ops v) s).imsic = s.imsic ∧ (Act.apply (.ops v) s).l1i = s.l1i ∧
    (Act.apply (.ops v) s).l1d = s.l1d ∧ (Act.apply (.ops v) s).l2 = s.l2 ∧ (Act.apply (.ops v) s).l3 = s.l3 ∧
    (Act.apply (.ops v) s).plru = s.plru ∧ (Act.apply (.ops v) s).tiles = s.tiles ∧ (Act.apply (.ops v) s).quads = s.quads ∧
    (Act.apply (.ops v) s).seqs = s.seqs ∧ (Act.apply (.ops v) s).lineq = s.lineq ∧ (Act.apply (.ops v) s).slices = s.slices ∧
    (Act.apply (.ops v) s).filt = s.filt ∧ (Act.apply (.ops v) s).limits = s.limits ∧ (Act.apply (.ops v) s).aplic = s.aplic ∧
    (Act.apply (.ops v) s).aplicSrc = s.aplicSrc ∧ (Act.apply (.ops v) s).dram = s.dram ∧ (Act.apply (.ops v) s).chans = s.chans ∧
    (Act.apply (.ops v) s).keys = s.keys ∧ (Act.apply (.ops v) s).tbrx = s.tbrx ∧ (Act.apply (.ops v) s).dies = s.dies ∧
    (Act.apply (.ops v) s).pmuEdge = s.pmuEdge ∧ (Act.apply (.ops v) s).groups = s.groups ∧ (Act.apply (.ops v) s).ecam = s.ecam ∧
    (Act.apply (.ops v) s).msix = s.msix ∧ (Act.apply (.ops v) s).jobs = s.jobs ∧ (Act.apply (.ops v) s).fetched = s.fetched ∧
    (Act.apply (.ops v) s).moved = s.moved ∧ (Act.apply (.ops v) s).fnBytes = s.fnBytes ∧ (Act.apply (.ops v) s).lead = s.lead ∧
    (Act.apply (.ops v) s).slotTurn = s.slotTurn ∧ (Act.apply (.ops v) s).aged = s.aged ∧ (Act.apply (.ops v) s).iommu = s.iommu ∧
    (Act.apply (.ops v) s).fox = s.fox ∧ (Act.apply (.ops v) s).weir = s.weir ∧ (Act.apply (.ops v) s).wdog = s.wdog ∧
    (Act.apply (.ops v) s).pins = s.pins ∧ (Act.apply (.ops v) s).net = s.net ∧ (Act.apply (.ops v) s).ops = v ∧
    (Act.apply (.ops v) s).need = s.need ∧ (Act.apply (.ops v) s).poke = s.poke ∧ (Act.apply (.ops v) s).out = s.out ∧
    (Act.apply (.ops v) s).free = s.free := by
  and_intros <;> rfl

@[simp] theorem Act.apply_need (v : Need) (s : State) :
    (Act.apply (.need v) s).pending = s.pending ∧ (Act.apply (.need v) s).regs = s.regs ∧ (Act.apply (.need v) s).harts = s.harts ∧
    (Act.apply (.need v) s).xs = s.xs ∧ (Act.apply (.need v) s).fs = s.fs ∧ (Act.apply (.need v) s).vs = s.vs ∧
    (Act.apply (.need v) s).csrs = s.csrs ∧ (Act.apply (.need v) s).imsic = s.imsic ∧ (Act.apply (.need v) s).l1i = s.l1i ∧
    (Act.apply (.need v) s).l1d = s.l1d ∧ (Act.apply (.need v) s).l2 = s.l2 ∧ (Act.apply (.need v) s).l3 = s.l3 ∧
    (Act.apply (.need v) s).plru = s.plru ∧ (Act.apply (.need v) s).tiles = s.tiles ∧ (Act.apply (.need v) s).quads = s.quads ∧
    (Act.apply (.need v) s).seqs = s.seqs ∧ (Act.apply (.need v) s).lineq = s.lineq ∧ (Act.apply (.need v) s).slices = s.slices ∧
    (Act.apply (.need v) s).filt = s.filt ∧ (Act.apply (.need v) s).limits = s.limits ∧ (Act.apply (.need v) s).aplic = s.aplic ∧
    (Act.apply (.need v) s).aplicSrc = s.aplicSrc ∧ (Act.apply (.need v) s).dram = s.dram ∧ (Act.apply (.need v) s).chans = s.chans ∧
    (Act.apply (.need v) s).keys = s.keys ∧ (Act.apply (.need v) s).tbrx = s.tbrx ∧ (Act.apply (.need v) s).dies = s.dies ∧
    (Act.apply (.need v) s).pmuEdge = s.pmuEdge ∧ (Act.apply (.need v) s).groups = s.groups ∧ (Act.apply (.need v) s).ecam = s.ecam ∧
    (Act.apply (.need v) s).msix = s.msix ∧ (Act.apply (.need v) s).jobs = s.jobs ∧ (Act.apply (.need v) s).fetched = s.fetched ∧
    (Act.apply (.need v) s).moved = s.moved ∧ (Act.apply (.need v) s).fnBytes = s.fnBytes ∧ (Act.apply (.need v) s).lead = s.lead ∧
    (Act.apply (.need v) s).slotTurn = s.slotTurn ∧ (Act.apply (.need v) s).aged = s.aged ∧ (Act.apply (.need v) s).iommu = s.iommu ∧
    (Act.apply (.need v) s).fox = s.fox ∧ (Act.apply (.need v) s).weir = s.weir ∧ (Act.apply (.need v) s).wdog = s.wdog ∧
    (Act.apply (.need v) s).pins = s.pins ∧ (Act.apply (.need v) s).net = s.net ∧ (Act.apply (.need v) s).ops = s.ops ∧
    (Act.apply (.need v) s).need = v ∧ (Act.apply (.need v) s).poke = s.poke ∧ (Act.apply (.need v) s).out = s.out ∧
    (Act.apply (.need v) s).free = s.free := by
  and_intros <;> rfl

@[simp] theorem Act.apply_poke (v : List Nat) (s : State) :
    (Act.apply (.poke v) s).pending = s.pending ∧ (Act.apply (.poke v) s).regs = s.regs ∧ (Act.apply (.poke v) s).harts = s.harts ∧
    (Act.apply (.poke v) s).xs = s.xs ∧ (Act.apply (.poke v) s).fs = s.fs ∧ (Act.apply (.poke v) s).vs = s.vs ∧
    (Act.apply (.poke v) s).csrs = s.csrs ∧ (Act.apply (.poke v) s).imsic = s.imsic ∧ (Act.apply (.poke v) s).l1i = s.l1i ∧
    (Act.apply (.poke v) s).l1d = s.l1d ∧ (Act.apply (.poke v) s).l2 = s.l2 ∧ (Act.apply (.poke v) s).l3 = s.l3 ∧
    (Act.apply (.poke v) s).plru = s.plru ∧ (Act.apply (.poke v) s).tiles = s.tiles ∧ (Act.apply (.poke v) s).quads = s.quads ∧
    (Act.apply (.poke v) s).seqs = s.seqs ∧ (Act.apply (.poke v) s).lineq = s.lineq ∧ (Act.apply (.poke v) s).slices = s.slices ∧
    (Act.apply (.poke v) s).filt = s.filt ∧ (Act.apply (.poke v) s).limits = s.limits ∧ (Act.apply (.poke v) s).aplic = s.aplic ∧
    (Act.apply (.poke v) s).aplicSrc = s.aplicSrc ∧ (Act.apply (.poke v) s).dram = s.dram ∧ (Act.apply (.poke v) s).chans = s.chans ∧
    (Act.apply (.poke v) s).keys = s.keys ∧ (Act.apply (.poke v) s).tbrx = s.tbrx ∧ (Act.apply (.poke v) s).dies = s.dies ∧
    (Act.apply (.poke v) s).pmuEdge = s.pmuEdge ∧ (Act.apply (.poke v) s).groups = s.groups ∧ (Act.apply (.poke v) s).ecam = s.ecam ∧
    (Act.apply (.poke v) s).msix = s.msix ∧ (Act.apply (.poke v) s).jobs = s.jobs ∧ (Act.apply (.poke v) s).fetched = s.fetched ∧
    (Act.apply (.poke v) s).moved = s.moved ∧ (Act.apply (.poke v) s).fnBytes = s.fnBytes ∧ (Act.apply (.poke v) s).lead = s.lead ∧
    (Act.apply (.poke v) s).slotTurn = s.slotTurn ∧ (Act.apply (.poke v) s).aged = s.aged ∧ (Act.apply (.poke v) s).iommu = s.iommu ∧
    (Act.apply (.poke v) s).fox = s.fox ∧ (Act.apply (.poke v) s).weir = s.weir ∧ (Act.apply (.poke v) s).wdog = s.wdog ∧
    (Act.apply (.poke v) s).pins = s.pins ∧ (Act.apply (.poke v) s).net = s.net ∧ (Act.apply (.poke v) s).ops = s.ops ∧
    (Act.apply (.poke v) s).need = s.need ∧ (Act.apply (.poke v) s).poke = v ∧ (Act.apply (.poke v) s).out = s.out ∧
    (Act.apply (.poke v) s).free = s.free := by
  and_intros <;> rfl

@[simp] theorem Act.apply_out (v : List Out) (s : State) :
    (Act.apply (.out v) s).pending = s.pending ∧ (Act.apply (.out v) s).regs = s.regs ∧ (Act.apply (.out v) s).harts = s.harts ∧
    (Act.apply (.out v) s).xs = s.xs ∧ (Act.apply (.out v) s).fs = s.fs ∧ (Act.apply (.out v) s).vs = s.vs ∧
    (Act.apply (.out v) s).csrs = s.csrs ∧ (Act.apply (.out v) s).imsic = s.imsic ∧ (Act.apply (.out v) s).l1i = s.l1i ∧
    (Act.apply (.out v) s).l1d = s.l1d ∧ (Act.apply (.out v) s).l2 = s.l2 ∧ (Act.apply (.out v) s).l3 = s.l3 ∧
    (Act.apply (.out v) s).plru = s.plru ∧ (Act.apply (.out v) s).tiles = s.tiles ∧ (Act.apply (.out v) s).quads = s.quads ∧
    (Act.apply (.out v) s).seqs = s.seqs ∧ (Act.apply (.out v) s).lineq = s.lineq ∧ (Act.apply (.out v) s).slices = s.slices ∧
    (Act.apply (.out v) s).filt = s.filt ∧ (Act.apply (.out v) s).limits = s.limits ∧ (Act.apply (.out v) s).aplic = s.aplic ∧
    (Act.apply (.out v) s).aplicSrc = s.aplicSrc ∧ (Act.apply (.out v) s).dram = s.dram ∧ (Act.apply (.out v) s).chans = s.chans ∧
    (Act.apply (.out v) s).keys = s.keys ∧ (Act.apply (.out v) s).tbrx = s.tbrx ∧ (Act.apply (.out v) s).dies = s.dies ∧
    (Act.apply (.out v) s).pmuEdge = s.pmuEdge ∧ (Act.apply (.out v) s).groups = s.groups ∧ (Act.apply (.out v) s).ecam = s.ecam ∧
    (Act.apply (.out v) s).msix = s.msix ∧ (Act.apply (.out v) s).jobs = s.jobs ∧ (Act.apply (.out v) s).fetched = s.fetched ∧
    (Act.apply (.out v) s).moved = s.moved ∧ (Act.apply (.out v) s).fnBytes = s.fnBytes ∧ (Act.apply (.out v) s).lead = s.lead ∧
    (Act.apply (.out v) s).slotTurn = s.slotTurn ∧ (Act.apply (.out v) s).aged = s.aged ∧ (Act.apply (.out v) s).iommu = s.iommu ∧
    (Act.apply (.out v) s).fox = s.fox ∧ (Act.apply (.out v) s).weir = s.weir ∧ (Act.apply (.out v) s).wdog = s.wdog ∧
    (Act.apply (.out v) s).pins = s.pins ∧ (Act.apply (.out v) s).net = s.net ∧ (Act.apply (.out v) s).ops = s.ops ∧
    (Act.apply (.out v) s).need = s.need ∧ (Act.apply (.out v) s).poke = s.poke ∧ (Act.apply (.out v) s).out = v ∧
    (Act.apply (.out v) s).free = s.free := by
  and_intros <;> rfl

@[simp] theorem Act.apply_free (v : Nat) (s : State) :
    (Act.apply (.free v) s).pending = s.pending ∧ (Act.apply (.free v) s).regs = s.regs ∧ (Act.apply (.free v) s).harts = s.harts ∧
    (Act.apply (.free v) s).xs = s.xs ∧ (Act.apply (.free v) s).fs = s.fs ∧ (Act.apply (.free v) s).vs = s.vs ∧
    (Act.apply (.free v) s).csrs = s.csrs ∧ (Act.apply (.free v) s).imsic = s.imsic ∧ (Act.apply (.free v) s).l1i = s.l1i ∧
    (Act.apply (.free v) s).l1d = s.l1d ∧ (Act.apply (.free v) s).l2 = s.l2 ∧ (Act.apply (.free v) s).l3 = s.l3 ∧
    (Act.apply (.free v) s).plru = s.plru ∧ (Act.apply (.free v) s).tiles = s.tiles ∧ (Act.apply (.free v) s).quads = s.quads ∧
    (Act.apply (.free v) s).seqs = s.seqs ∧ (Act.apply (.free v) s).lineq = s.lineq ∧ (Act.apply (.free v) s).slices = s.slices ∧
    (Act.apply (.free v) s).filt = s.filt ∧ (Act.apply (.free v) s).limits = s.limits ∧ (Act.apply (.free v) s).aplic = s.aplic ∧
    (Act.apply (.free v) s).aplicSrc = s.aplicSrc ∧ (Act.apply (.free v) s).dram = s.dram ∧ (Act.apply (.free v) s).chans = s.chans ∧
    (Act.apply (.free v) s).keys = s.keys ∧ (Act.apply (.free v) s).tbrx = s.tbrx ∧ (Act.apply (.free v) s).dies = s.dies ∧
    (Act.apply (.free v) s).pmuEdge = s.pmuEdge ∧ (Act.apply (.free v) s).groups = s.groups ∧ (Act.apply (.free v) s).ecam = s.ecam ∧
    (Act.apply (.free v) s).msix = s.msix ∧ (Act.apply (.free v) s).jobs = s.jobs ∧ (Act.apply (.free v) s).fetched = s.fetched ∧
    (Act.apply (.free v) s).moved = s.moved ∧ (Act.apply (.free v) s).fnBytes = s.fnBytes ∧ (Act.apply (.free v) s).lead = s.lead ∧
    (Act.apply (.free v) s).slotTurn = s.slotTurn ∧ (Act.apply (.free v) s).aged = s.aged ∧ (Act.apply (.free v) s).iommu = s.iommu ∧
    (Act.apply (.free v) s).fox = s.fox ∧ (Act.apply (.free v) s).weir = s.weir ∧ (Act.apply (.free v) s).wdog = s.wdog ∧
    (Act.apply (.free v) s).pins = s.pins ∧ (Act.apply (.free v) s).net = s.net ∧ (Act.apply (.free v) s).ops = s.ops ∧
    (Act.apply (.free v) s).need = s.need ∧ (Act.apply (.free v) s).poke = s.poke ∧ (Act.apply (.free v) s).out = s.out ∧
    (Act.apply (.free v) s).free = v := by
  and_intros <;> rfl

/-! What each read of a store gives after each primitive change. -/

@[simp] theorem Act.read_regs (k : Nat) (v : Option (Word)) (s : State) :
    (∀ j, (Act.apply (.regs k v) s).hart j = s.hart j) ∧ (∀ j, (Act.apply (.regs k v) s).x j = s.x j) ∧
    (∀ j, (Act.apply (.regs k v) s).f j = s.f j) ∧ (∀ j, (Act.apply (.regs k v) s).v j = s.v j) ∧
    (∀ j, (Act.apply (.regs k v) s).file j = s.file j) ∧ (∀ j, (Act.apply (.regs k v) s).l1iSlot j = s.l1iSlot j) ∧
    (∀ j, (Act.apply (.regs k v) s).l1dSlot j = s.l1dSlot j) ∧ (∀ j, (Act.apply (.regs k v) s).l2Slot j = s.l2Slot j) ∧
    (∀ j, (Act.apply (.regs k v) s).l3Slot j = s.l3Slot j) ∧ (∀ j, (Act.apply (.regs k v) s).plruBits j = s.plruBits j) ∧
    (∀ j, (Act.apply (.regs k v) s).tile j = s.tile j) ∧ (∀ j, (Act.apply (.regs k v) s).quad j = s.quad j) ∧
    (∀ j, (Act.apply (.regs k v) s).seq j = s.seq j) ∧ (∀ j, (Act.apply (.regs k v) s).queue j = s.queue j) ∧
    (∀ j, (Act.apply (.regs k v) s).slice j = s.slice j) ∧ (∀ j, (Act.apply (.regs k v) s).filtEntry j = s.filtEntry j) ∧
    (∀ j, (Act.apply (.regs k v) s).limit j = s.limit j) ∧ (∀ j, (Act.apply (.regs k v) s).aplicDom j = s.aplicDom j) ∧
    (∀ j, (Act.apply (.regs k v) s).aplicCfg j = s.aplicCfg j) ∧ (∀ j, (Act.apply (.regs k v) s).dline j = s.dline j) ∧
    (∀ j, (Act.apply (.regs k v) s).chan j = s.chan j) ∧ (∀ j, (Act.apply (.regs k v) s).key j = s.key j) ∧
    (∀ j, (Act.apply (.regs k v) s).rx j = s.rx j) ∧ (∀ j, (Act.apply (.regs k v) s).die j = s.die j) ∧
    (∀ j, (Act.apply (.regs k v) s).pmuLast j = s.pmuLast j) ∧ (∀ j, (Act.apply (.regs k v) s).grp j = s.grp j) ∧
    (∀ j, (Act.apply (.regs k v) s).ecamReg j = s.ecamReg j) ∧ (∀ j, (Act.apply (.regs k v) s).msixWord j = s.msixWord j) ∧
    (∀ j, (Act.apply (.regs k v) s).job j = s.job j) ∧ (∀ j, (Act.apply (.regs k v) s).fetched_ j = s.fetched_ j) ∧
    (∀ j, (Act.apply (.regs k v) s).moved_ j = s.moved_ j) ∧ (∀ j, (Act.apply (.regs k v) s).fnBytes_ j = s.fnBytes_ j) ∧
    (∀ j, (Act.apply (.regs k v) s).leadOf j = s.leadOf j) ∧ (∀ j, (Act.apply (.regs k v) s).slotTurn_ j = s.slotTurn_ j) ∧
    (∀ j, (Act.apply (.regs k v) s).aged_ j = s.aged_ j) := by
  and_intros <;> exact fun _ => rfl

@[simp] theorem Act.read_harts (k : Nat) (v : Hart) (s : State) :
    (∀ j, (Act.apply (.harts k v) s).x j = s.x j) ∧ (∀ j, (Act.apply (.harts k v) s).f j = s.f j) ∧
    (∀ j, (Act.apply (.harts k v) s).v j = s.v j) ∧ (∀ j, (Act.apply (.harts k v) s).file j = s.file j) ∧
    (∀ j, (Act.apply (.harts k v) s).l1iSlot j = s.l1iSlot j) ∧ (∀ j, (Act.apply (.harts k v) s).l1dSlot j = s.l1dSlot j) ∧
    (∀ j, (Act.apply (.harts k v) s).l2Slot j = s.l2Slot j) ∧ (∀ j, (Act.apply (.harts k v) s).l3Slot j = s.l3Slot j) ∧
    (∀ j, (Act.apply (.harts k v) s).plruBits j = s.plruBits j) ∧ (∀ j, (Act.apply (.harts k v) s).tile j = s.tile j) ∧
    (∀ j, (Act.apply (.harts k v) s).quad j = s.quad j) ∧ (∀ j, (Act.apply (.harts k v) s).seq j = s.seq j) ∧
    (∀ j, (Act.apply (.harts k v) s).queue j = s.queue j) ∧ (∀ j, (Act.apply (.harts k v) s).slice j = s.slice j) ∧
    (∀ j, (Act.apply (.harts k v) s).filtEntry j = s.filtEntry j) ∧ (∀ j, (Act.apply (.harts k v) s).limit j = s.limit j) ∧
    (∀ j, (Act.apply (.harts k v) s).aplicDom j = s.aplicDom j) ∧ (∀ j, (Act.apply (.harts k v) s).aplicCfg j = s.aplicCfg j) ∧
    (∀ j, (Act.apply (.harts k v) s).dline j = s.dline j) ∧ (∀ j, (Act.apply (.harts k v) s).chan j = s.chan j) ∧
    (∀ j, (Act.apply (.harts k v) s).key j = s.key j) ∧ (∀ j, (Act.apply (.harts k v) s).rx j = s.rx j) ∧
    (∀ j, (Act.apply (.harts k v) s).die j = s.die j) ∧ (∀ j, (Act.apply (.harts k v) s).pmuLast j = s.pmuLast j) ∧
    (∀ j, (Act.apply (.harts k v) s).grp j = s.grp j) ∧ (∀ j, (Act.apply (.harts k v) s).ecamReg j = s.ecamReg j) ∧
    (∀ j, (Act.apply (.harts k v) s).msixWord j = s.msixWord j) ∧ (∀ j, (Act.apply (.harts k v) s).job j = s.job j) ∧
    (∀ j, (Act.apply (.harts k v) s).fetched_ j = s.fetched_ j) ∧ (∀ j, (Act.apply (.harts k v) s).moved_ j = s.moved_ j) ∧
    (∀ j, (Act.apply (.harts k v) s).fnBytes_ j = s.fnBytes_ j) ∧ (∀ j, (Act.apply (.harts k v) s).leadOf j = s.leadOf j) ∧
    (∀ j, (Act.apply (.harts k v) s).slotTurn_ j = s.slotTurn_ j) ∧ (∀ j, (Act.apply (.harts k v) s).aged_ j = s.aged_ j) := by
  and_intros <;> exact fun _ => rfl

@[simp] theorem Act.read_xs (k : Nat) (v : Word) (s : State) :
    (∀ j, (Act.apply (.xs k v) s).hart j = s.hart j) ∧ (∀ j, (Act.apply (.xs k v) s).f j = s.f j) ∧
    (∀ j, (Act.apply (.xs k v) s).v j = s.v j) ∧ (∀ j, (Act.apply (.xs k v) s).file j = s.file j) ∧
    (∀ j, (Act.apply (.xs k v) s).l1iSlot j = s.l1iSlot j) ∧ (∀ j, (Act.apply (.xs k v) s).l1dSlot j = s.l1dSlot j) ∧
    (∀ j, (Act.apply (.xs k v) s).l2Slot j = s.l2Slot j) ∧ (∀ j, (Act.apply (.xs k v) s).l3Slot j = s.l3Slot j) ∧
    (∀ j, (Act.apply (.xs k v) s).plruBits j = s.plruBits j) ∧ (∀ j, (Act.apply (.xs k v) s).tile j = s.tile j) ∧
    (∀ j, (Act.apply (.xs k v) s).quad j = s.quad j) ∧ (∀ j, (Act.apply (.xs k v) s).seq j = s.seq j) ∧
    (∀ j, (Act.apply (.xs k v) s).queue j = s.queue j) ∧ (∀ j, (Act.apply (.xs k v) s).slice j = s.slice j) ∧
    (∀ j, (Act.apply (.xs k v) s).filtEntry j = s.filtEntry j) ∧ (∀ j, (Act.apply (.xs k v) s).limit j = s.limit j) ∧
    (∀ j, (Act.apply (.xs k v) s).aplicDom j = s.aplicDom j) ∧ (∀ j, (Act.apply (.xs k v) s).aplicCfg j = s.aplicCfg j) ∧
    (∀ j, (Act.apply (.xs k v) s).dline j = s.dline j) ∧ (∀ j, (Act.apply (.xs k v) s).chan j = s.chan j) ∧
    (∀ j, (Act.apply (.xs k v) s).key j = s.key j) ∧ (∀ j, (Act.apply (.xs k v) s).rx j = s.rx j) ∧
    (∀ j, (Act.apply (.xs k v) s).die j = s.die j) ∧ (∀ j, (Act.apply (.xs k v) s).pmuLast j = s.pmuLast j) ∧
    (∀ j, (Act.apply (.xs k v) s).grp j = s.grp j) ∧ (∀ j, (Act.apply (.xs k v) s).ecamReg j = s.ecamReg j) ∧
    (∀ j, (Act.apply (.xs k v) s).msixWord j = s.msixWord j) ∧ (∀ j, (Act.apply (.xs k v) s).job j = s.job j) ∧
    (∀ j, (Act.apply (.xs k v) s).fetched_ j = s.fetched_ j) ∧ (∀ j, (Act.apply (.xs k v) s).moved_ j = s.moved_ j) ∧
    (∀ j, (Act.apply (.xs k v) s).fnBytes_ j = s.fnBytes_ j) ∧ (∀ j, (Act.apply (.xs k v) s).leadOf j = s.leadOf j) ∧
    (∀ j, (Act.apply (.xs k v) s).slotTurn_ j = s.slotTurn_ j) ∧ (∀ j, (Act.apply (.xs k v) s).aged_ j = s.aged_ j) := by
  and_intros <;> exact fun _ => rfl

@[simp] theorem Act.read_fs (k : Nat) (v : Word) (s : State) :
    (∀ j, (Act.apply (.fs k v) s).hart j = s.hart j) ∧ (∀ j, (Act.apply (.fs k v) s).x j = s.x j) ∧
    (∀ j, (Act.apply (.fs k v) s).v j = s.v j) ∧ (∀ j, (Act.apply (.fs k v) s).file j = s.file j) ∧
    (∀ j, (Act.apply (.fs k v) s).l1iSlot j = s.l1iSlot j) ∧ (∀ j, (Act.apply (.fs k v) s).l1dSlot j = s.l1dSlot j) ∧
    (∀ j, (Act.apply (.fs k v) s).l2Slot j = s.l2Slot j) ∧ (∀ j, (Act.apply (.fs k v) s).l3Slot j = s.l3Slot j) ∧
    (∀ j, (Act.apply (.fs k v) s).plruBits j = s.plruBits j) ∧ (∀ j, (Act.apply (.fs k v) s).tile j = s.tile j) ∧
    (∀ j, (Act.apply (.fs k v) s).quad j = s.quad j) ∧ (∀ j, (Act.apply (.fs k v) s).seq j = s.seq j) ∧
    (∀ j, (Act.apply (.fs k v) s).queue j = s.queue j) ∧ (∀ j, (Act.apply (.fs k v) s).slice j = s.slice j) ∧
    (∀ j, (Act.apply (.fs k v) s).filtEntry j = s.filtEntry j) ∧ (∀ j, (Act.apply (.fs k v) s).limit j = s.limit j) ∧
    (∀ j, (Act.apply (.fs k v) s).aplicDom j = s.aplicDom j) ∧ (∀ j, (Act.apply (.fs k v) s).aplicCfg j = s.aplicCfg j) ∧
    (∀ j, (Act.apply (.fs k v) s).dline j = s.dline j) ∧ (∀ j, (Act.apply (.fs k v) s).chan j = s.chan j) ∧
    (∀ j, (Act.apply (.fs k v) s).key j = s.key j) ∧ (∀ j, (Act.apply (.fs k v) s).rx j = s.rx j) ∧
    (∀ j, (Act.apply (.fs k v) s).die j = s.die j) ∧ (∀ j, (Act.apply (.fs k v) s).pmuLast j = s.pmuLast j) ∧
    (∀ j, (Act.apply (.fs k v) s).grp j = s.grp j) ∧ (∀ j, (Act.apply (.fs k v) s).ecamReg j = s.ecamReg j) ∧
    (∀ j, (Act.apply (.fs k v) s).msixWord j = s.msixWord j) ∧ (∀ j, (Act.apply (.fs k v) s).job j = s.job j) ∧
    (∀ j, (Act.apply (.fs k v) s).fetched_ j = s.fetched_ j) ∧ (∀ j, (Act.apply (.fs k v) s).moved_ j = s.moved_ j) ∧
    (∀ j, (Act.apply (.fs k v) s).fnBytes_ j = s.fnBytes_ j) ∧ (∀ j, (Act.apply (.fs k v) s).leadOf j = s.leadOf j) ∧
    (∀ j, (Act.apply (.fs k v) s).slotTurn_ j = s.slotTurn_ j) ∧ (∀ j, (Act.apply (.fs k v) s).aged_ j = s.aged_ j) := by
  and_intros <;> exact fun _ => rfl

@[simp] theorem Act.read_vs (k : Nat) (v : BitVec 256) (s : State) :
    (∀ j, (Act.apply (.vs k v) s).hart j = s.hart j) ∧ (∀ j, (Act.apply (.vs k v) s).x j = s.x j) ∧
    (∀ j, (Act.apply (.vs k v) s).f j = s.f j) ∧ (∀ j, (Act.apply (.vs k v) s).file j = s.file j) ∧
    (∀ j, (Act.apply (.vs k v) s).l1iSlot j = s.l1iSlot j) ∧ (∀ j, (Act.apply (.vs k v) s).l1dSlot j = s.l1dSlot j) ∧
    (∀ j, (Act.apply (.vs k v) s).l2Slot j = s.l2Slot j) ∧ (∀ j, (Act.apply (.vs k v) s).l3Slot j = s.l3Slot j) ∧
    (∀ j, (Act.apply (.vs k v) s).plruBits j = s.plruBits j) ∧ (∀ j, (Act.apply (.vs k v) s).tile j = s.tile j) ∧
    (∀ j, (Act.apply (.vs k v) s).quad j = s.quad j) ∧ (∀ j, (Act.apply (.vs k v) s).seq j = s.seq j) ∧
    (∀ j, (Act.apply (.vs k v) s).queue j = s.queue j) ∧ (∀ j, (Act.apply (.vs k v) s).slice j = s.slice j) ∧
    (∀ j, (Act.apply (.vs k v) s).filtEntry j = s.filtEntry j) ∧ (∀ j, (Act.apply (.vs k v) s).limit j = s.limit j) ∧
    (∀ j, (Act.apply (.vs k v) s).aplicDom j = s.aplicDom j) ∧ (∀ j, (Act.apply (.vs k v) s).aplicCfg j = s.aplicCfg j) ∧
    (∀ j, (Act.apply (.vs k v) s).dline j = s.dline j) ∧ (∀ j, (Act.apply (.vs k v) s).chan j = s.chan j) ∧
    (∀ j, (Act.apply (.vs k v) s).key j = s.key j) ∧ (∀ j, (Act.apply (.vs k v) s).rx j = s.rx j) ∧
    (∀ j, (Act.apply (.vs k v) s).die j = s.die j) ∧ (∀ j, (Act.apply (.vs k v) s).pmuLast j = s.pmuLast j) ∧
    (∀ j, (Act.apply (.vs k v) s).grp j = s.grp j) ∧ (∀ j, (Act.apply (.vs k v) s).ecamReg j = s.ecamReg j) ∧
    (∀ j, (Act.apply (.vs k v) s).msixWord j = s.msixWord j) ∧ (∀ j, (Act.apply (.vs k v) s).job j = s.job j) ∧
    (∀ j, (Act.apply (.vs k v) s).fetched_ j = s.fetched_ j) ∧ (∀ j, (Act.apply (.vs k v) s).moved_ j = s.moved_ j) ∧
    (∀ j, (Act.apply (.vs k v) s).fnBytes_ j = s.fnBytes_ j) ∧ (∀ j, (Act.apply (.vs k v) s).leadOf j = s.leadOf j) ∧
    (∀ j, (Act.apply (.vs k v) s).slotTurn_ j = s.slotTurn_ j) ∧ (∀ j, (Act.apply (.vs k v) s).aged_ j = s.aged_ j) := by
  and_intros <;> exact fun _ => rfl

@[simp] theorem Act.read_csrs (k : Nat) (v : Option (Word)) (s : State) :
    (∀ j, (Act.apply (.csrs k v) s).hart j = s.hart j) ∧ (∀ j, (Act.apply (.csrs k v) s).x j = s.x j) ∧
    (∀ j, (Act.apply (.csrs k v) s).f j = s.f j) ∧ (∀ j, (Act.apply (.csrs k v) s).v j = s.v j) ∧
    (∀ j, (Act.apply (.csrs k v) s).file j = s.file j) ∧ (∀ j, (Act.apply (.csrs k v) s).l1iSlot j = s.l1iSlot j) ∧
    (∀ j, (Act.apply (.csrs k v) s).l1dSlot j = s.l1dSlot j) ∧ (∀ j, (Act.apply (.csrs k v) s).l2Slot j = s.l2Slot j) ∧
    (∀ j, (Act.apply (.csrs k v) s).l3Slot j = s.l3Slot j) ∧ (∀ j, (Act.apply (.csrs k v) s).plruBits j = s.plruBits j) ∧
    (∀ j, (Act.apply (.csrs k v) s).tile j = s.tile j) ∧ (∀ j, (Act.apply (.csrs k v) s).quad j = s.quad j) ∧
    (∀ j, (Act.apply (.csrs k v) s).seq j = s.seq j) ∧ (∀ j, (Act.apply (.csrs k v) s).queue j = s.queue j) ∧
    (∀ j, (Act.apply (.csrs k v) s).slice j = s.slice j) ∧ (∀ j, (Act.apply (.csrs k v) s).filtEntry j = s.filtEntry j) ∧
    (∀ j, (Act.apply (.csrs k v) s).limit j = s.limit j) ∧ (∀ j, (Act.apply (.csrs k v) s).aplicDom j = s.aplicDom j) ∧
    (∀ j, (Act.apply (.csrs k v) s).aplicCfg j = s.aplicCfg j) ∧ (∀ j, (Act.apply (.csrs k v) s).dline j = s.dline j) ∧
    (∀ j, (Act.apply (.csrs k v) s).chan j = s.chan j) ∧ (∀ j, (Act.apply (.csrs k v) s).key j = s.key j) ∧
    (∀ j, (Act.apply (.csrs k v) s).rx j = s.rx j) ∧ (∀ j, (Act.apply (.csrs k v) s).die j = s.die j) ∧
    (∀ j, (Act.apply (.csrs k v) s).pmuLast j = s.pmuLast j) ∧ (∀ j, (Act.apply (.csrs k v) s).grp j = s.grp j) ∧
    (∀ j, (Act.apply (.csrs k v) s).ecamReg j = s.ecamReg j) ∧ (∀ j, (Act.apply (.csrs k v) s).msixWord j = s.msixWord j) ∧
    (∀ j, (Act.apply (.csrs k v) s).job j = s.job j) ∧ (∀ j, (Act.apply (.csrs k v) s).fetched_ j = s.fetched_ j) ∧
    (∀ j, (Act.apply (.csrs k v) s).moved_ j = s.moved_ j) ∧ (∀ j, (Act.apply (.csrs k v) s).fnBytes_ j = s.fnBytes_ j) ∧
    (∀ j, (Act.apply (.csrs k v) s).leadOf j = s.leadOf j) ∧ (∀ j, (Act.apply (.csrs k v) s).slotTurn_ j = s.slotTurn_ j) ∧
    (∀ j, (Act.apply (.csrs k v) s).aged_ j = s.aged_ j) := by
  and_intros <;> exact fun _ => rfl

@[simp] theorem Act.read_imsic (k : Nat) (v : Imsic) (s : State) :
    (∀ j, (Act.apply (.imsic k v) s).hart j = s.hart j) ∧ (∀ j, (Act.apply (.imsic k v) s).x j = s.x j) ∧
    (∀ j, (Act.apply (.imsic k v) s).f j = s.f j) ∧ (∀ j, (Act.apply (.imsic k v) s).v j = s.v j) ∧
    (∀ j, (Act.apply (.imsic k v) s).l1iSlot j = s.l1iSlot j) ∧ (∀ j, (Act.apply (.imsic k v) s).l1dSlot j = s.l1dSlot j) ∧
    (∀ j, (Act.apply (.imsic k v) s).l2Slot j = s.l2Slot j) ∧ (∀ j, (Act.apply (.imsic k v) s).l3Slot j = s.l3Slot j) ∧
    (∀ j, (Act.apply (.imsic k v) s).plruBits j = s.plruBits j) ∧ (∀ j, (Act.apply (.imsic k v) s).tile j = s.tile j) ∧
    (∀ j, (Act.apply (.imsic k v) s).quad j = s.quad j) ∧ (∀ j, (Act.apply (.imsic k v) s).seq j = s.seq j) ∧
    (∀ j, (Act.apply (.imsic k v) s).queue j = s.queue j) ∧ (∀ j, (Act.apply (.imsic k v) s).slice j = s.slice j) ∧
    (∀ j, (Act.apply (.imsic k v) s).filtEntry j = s.filtEntry j) ∧ (∀ j, (Act.apply (.imsic k v) s).limit j = s.limit j) ∧
    (∀ j, (Act.apply (.imsic k v) s).aplicDom j = s.aplicDom j) ∧ (∀ j, (Act.apply (.imsic k v) s).aplicCfg j = s.aplicCfg j) ∧
    (∀ j, (Act.apply (.imsic k v) s).dline j = s.dline j) ∧ (∀ j, (Act.apply (.imsic k v) s).chan j = s.chan j) ∧
    (∀ j, (Act.apply (.imsic k v) s).key j = s.key j) ∧ (∀ j, (Act.apply (.imsic k v) s).rx j = s.rx j) ∧
    (∀ j, (Act.apply (.imsic k v) s).die j = s.die j) ∧ (∀ j, (Act.apply (.imsic k v) s).pmuLast j = s.pmuLast j) ∧
    (∀ j, (Act.apply (.imsic k v) s).grp j = s.grp j) ∧ (∀ j, (Act.apply (.imsic k v) s).ecamReg j = s.ecamReg j) ∧
    (∀ j, (Act.apply (.imsic k v) s).msixWord j = s.msixWord j) ∧ (∀ j, (Act.apply (.imsic k v) s).job j = s.job j) ∧
    (∀ j, (Act.apply (.imsic k v) s).fetched_ j = s.fetched_ j) ∧ (∀ j, (Act.apply (.imsic k v) s).moved_ j = s.moved_ j) ∧
    (∀ j, (Act.apply (.imsic k v) s).fnBytes_ j = s.fnBytes_ j) ∧ (∀ j, (Act.apply (.imsic k v) s).leadOf j = s.leadOf j) ∧
    (∀ j, (Act.apply (.imsic k v) s).slotTurn_ j = s.slotTurn_ j) ∧ (∀ j, (Act.apply (.imsic k v) s).aged_ j = s.aged_ j) := by
  and_intros <;> exact fun _ => rfl

@[simp] theorem Act.read_l1i (k : Nat) (v : Option (L1Slot)) (s : State) :
    (∀ j, (Act.apply (.l1i k v) s).hart j = s.hart j) ∧ (∀ j, (Act.apply (.l1i k v) s).x j = s.x j) ∧
    (∀ j, (Act.apply (.l1i k v) s).f j = s.f j) ∧ (∀ j, (Act.apply (.l1i k v) s).v j = s.v j) ∧
    (∀ j, (Act.apply (.l1i k v) s).file j = s.file j) ∧ (∀ j, (Act.apply (.l1i k v) s).l1dSlot j = s.l1dSlot j) ∧
    (∀ j, (Act.apply (.l1i k v) s).l2Slot j = s.l2Slot j) ∧ (∀ j, (Act.apply (.l1i k v) s).l3Slot j = s.l3Slot j) ∧
    (∀ j, (Act.apply (.l1i k v) s).plruBits j = s.plruBits j) ∧ (∀ j, (Act.apply (.l1i k v) s).tile j = s.tile j) ∧
    (∀ j, (Act.apply (.l1i k v) s).quad j = s.quad j) ∧ (∀ j, (Act.apply (.l1i k v) s).seq j = s.seq j) ∧
    (∀ j, (Act.apply (.l1i k v) s).queue j = s.queue j) ∧ (∀ j, (Act.apply (.l1i k v) s).slice j = s.slice j) ∧
    (∀ j, (Act.apply (.l1i k v) s).filtEntry j = s.filtEntry j) ∧ (∀ j, (Act.apply (.l1i k v) s).limit j = s.limit j) ∧
    (∀ j, (Act.apply (.l1i k v) s).aplicDom j = s.aplicDom j) ∧ (∀ j, (Act.apply (.l1i k v) s).aplicCfg j = s.aplicCfg j) ∧
    (∀ j, (Act.apply (.l1i k v) s).dline j = s.dline j) ∧ (∀ j, (Act.apply (.l1i k v) s).chan j = s.chan j) ∧
    (∀ j, (Act.apply (.l1i k v) s).key j = s.key j) ∧ (∀ j, (Act.apply (.l1i k v) s).rx j = s.rx j) ∧
    (∀ j, (Act.apply (.l1i k v) s).die j = s.die j) ∧ (∀ j, (Act.apply (.l1i k v) s).pmuLast j = s.pmuLast j) ∧
    (∀ j, (Act.apply (.l1i k v) s).grp j = s.grp j) ∧ (∀ j, (Act.apply (.l1i k v) s).ecamReg j = s.ecamReg j) ∧
    (∀ j, (Act.apply (.l1i k v) s).msixWord j = s.msixWord j) ∧ (∀ j, (Act.apply (.l1i k v) s).job j = s.job j) ∧
    (∀ j, (Act.apply (.l1i k v) s).fetched_ j = s.fetched_ j) ∧ (∀ j, (Act.apply (.l1i k v) s).moved_ j = s.moved_ j) ∧
    (∀ j, (Act.apply (.l1i k v) s).fnBytes_ j = s.fnBytes_ j) ∧ (∀ j, (Act.apply (.l1i k v) s).leadOf j = s.leadOf j) ∧
    (∀ j, (Act.apply (.l1i k v) s).slotTurn_ j = s.slotTurn_ j) ∧ (∀ j, (Act.apply (.l1i k v) s).aged_ j = s.aged_ j) := by
  and_intros <;> exact fun _ => rfl

@[simp] theorem Act.read_l1d (k : Nat) (v : Option (L1Slot)) (s : State) :
    (∀ j, (Act.apply (.l1d k v) s).hart j = s.hart j) ∧ (∀ j, (Act.apply (.l1d k v) s).x j = s.x j) ∧
    (∀ j, (Act.apply (.l1d k v) s).f j = s.f j) ∧ (∀ j, (Act.apply (.l1d k v) s).v j = s.v j) ∧
    (∀ j, (Act.apply (.l1d k v) s).file j = s.file j) ∧ (∀ j, (Act.apply (.l1d k v) s).l1iSlot j = s.l1iSlot j) ∧
    (∀ j, (Act.apply (.l1d k v) s).l2Slot j = s.l2Slot j) ∧ (∀ j, (Act.apply (.l1d k v) s).l3Slot j = s.l3Slot j) ∧
    (∀ j, (Act.apply (.l1d k v) s).plruBits j = s.plruBits j) ∧ (∀ j, (Act.apply (.l1d k v) s).tile j = s.tile j) ∧
    (∀ j, (Act.apply (.l1d k v) s).quad j = s.quad j) ∧ (∀ j, (Act.apply (.l1d k v) s).seq j = s.seq j) ∧
    (∀ j, (Act.apply (.l1d k v) s).queue j = s.queue j) ∧ (∀ j, (Act.apply (.l1d k v) s).slice j = s.slice j) ∧
    (∀ j, (Act.apply (.l1d k v) s).filtEntry j = s.filtEntry j) ∧ (∀ j, (Act.apply (.l1d k v) s).limit j = s.limit j) ∧
    (∀ j, (Act.apply (.l1d k v) s).aplicDom j = s.aplicDom j) ∧ (∀ j, (Act.apply (.l1d k v) s).aplicCfg j = s.aplicCfg j) ∧
    (∀ j, (Act.apply (.l1d k v) s).dline j = s.dline j) ∧ (∀ j, (Act.apply (.l1d k v) s).chan j = s.chan j) ∧
    (∀ j, (Act.apply (.l1d k v) s).key j = s.key j) ∧ (∀ j, (Act.apply (.l1d k v) s).rx j = s.rx j) ∧
    (∀ j, (Act.apply (.l1d k v) s).die j = s.die j) ∧ (∀ j, (Act.apply (.l1d k v) s).pmuLast j = s.pmuLast j) ∧
    (∀ j, (Act.apply (.l1d k v) s).grp j = s.grp j) ∧ (∀ j, (Act.apply (.l1d k v) s).ecamReg j = s.ecamReg j) ∧
    (∀ j, (Act.apply (.l1d k v) s).msixWord j = s.msixWord j) ∧ (∀ j, (Act.apply (.l1d k v) s).job j = s.job j) ∧
    (∀ j, (Act.apply (.l1d k v) s).fetched_ j = s.fetched_ j) ∧ (∀ j, (Act.apply (.l1d k v) s).moved_ j = s.moved_ j) ∧
    (∀ j, (Act.apply (.l1d k v) s).fnBytes_ j = s.fnBytes_ j) ∧ (∀ j, (Act.apply (.l1d k v) s).leadOf j = s.leadOf j) ∧
    (∀ j, (Act.apply (.l1d k v) s).slotTurn_ j = s.slotTurn_ j) ∧ (∀ j, (Act.apply (.l1d k v) s).aged_ j = s.aged_ j) := by
  and_intros <;> exact fun _ => rfl

@[simp] theorem Act.read_l2 (k : Nat) (v : Option (L2Slot)) (s : State) :
    (∀ j, (Act.apply (.l2 k v) s).hart j = s.hart j) ∧ (∀ j, (Act.apply (.l2 k v) s).x j = s.x j) ∧
    (∀ j, (Act.apply (.l2 k v) s).f j = s.f j) ∧ (∀ j, (Act.apply (.l2 k v) s).v j = s.v j) ∧
    (∀ j, (Act.apply (.l2 k v) s).file j = s.file j) ∧ (∀ j, (Act.apply (.l2 k v) s).l1iSlot j = s.l1iSlot j) ∧
    (∀ j, (Act.apply (.l2 k v) s).l1dSlot j = s.l1dSlot j) ∧ (∀ j, (Act.apply (.l2 k v) s).l3Slot j = s.l3Slot j) ∧
    (∀ j, (Act.apply (.l2 k v) s).plruBits j = s.plruBits j) ∧ (∀ j, (Act.apply (.l2 k v) s).tile j = s.tile j) ∧
    (∀ j, (Act.apply (.l2 k v) s).quad j = s.quad j) ∧ (∀ j, (Act.apply (.l2 k v) s).seq j = s.seq j) ∧
    (∀ j, (Act.apply (.l2 k v) s).queue j = s.queue j) ∧ (∀ j, (Act.apply (.l2 k v) s).slice j = s.slice j) ∧
    (∀ j, (Act.apply (.l2 k v) s).filtEntry j = s.filtEntry j) ∧ (∀ j, (Act.apply (.l2 k v) s).limit j = s.limit j) ∧
    (∀ j, (Act.apply (.l2 k v) s).aplicDom j = s.aplicDom j) ∧ (∀ j, (Act.apply (.l2 k v) s).aplicCfg j = s.aplicCfg j) ∧
    (∀ j, (Act.apply (.l2 k v) s).dline j = s.dline j) ∧ (∀ j, (Act.apply (.l2 k v) s).chan j = s.chan j) ∧
    (∀ j, (Act.apply (.l2 k v) s).key j = s.key j) ∧ (∀ j, (Act.apply (.l2 k v) s).rx j = s.rx j) ∧
    (∀ j, (Act.apply (.l2 k v) s).die j = s.die j) ∧ (∀ j, (Act.apply (.l2 k v) s).pmuLast j = s.pmuLast j) ∧
    (∀ j, (Act.apply (.l2 k v) s).grp j = s.grp j) ∧ (∀ j, (Act.apply (.l2 k v) s).ecamReg j = s.ecamReg j) ∧
    (∀ j, (Act.apply (.l2 k v) s).msixWord j = s.msixWord j) ∧ (∀ j, (Act.apply (.l2 k v) s).job j = s.job j) ∧
    (∀ j, (Act.apply (.l2 k v) s).fetched_ j = s.fetched_ j) ∧ (∀ j, (Act.apply (.l2 k v) s).moved_ j = s.moved_ j) ∧
    (∀ j, (Act.apply (.l2 k v) s).fnBytes_ j = s.fnBytes_ j) ∧ (∀ j, (Act.apply (.l2 k v) s).leadOf j = s.leadOf j) ∧
    (∀ j, (Act.apply (.l2 k v) s).slotTurn_ j = s.slotTurn_ j) ∧ (∀ j, (Act.apply (.l2 k v) s).aged_ j = s.aged_ j) := by
  and_intros <;> exact fun _ => rfl

@[simp] theorem Act.read_l3 (k : Nat) (v : Option (L3Slot)) (s : State) :
    (∀ j, (Act.apply (.l3 k v) s).hart j = s.hart j) ∧ (∀ j, (Act.apply (.l3 k v) s).x j = s.x j) ∧
    (∀ j, (Act.apply (.l3 k v) s).f j = s.f j) ∧ (∀ j, (Act.apply (.l3 k v) s).v j = s.v j) ∧
    (∀ j, (Act.apply (.l3 k v) s).file j = s.file j) ∧ (∀ j, (Act.apply (.l3 k v) s).l1iSlot j = s.l1iSlot j) ∧
    (∀ j, (Act.apply (.l3 k v) s).l1dSlot j = s.l1dSlot j) ∧ (∀ j, (Act.apply (.l3 k v) s).l2Slot j = s.l2Slot j) ∧
    (∀ j, (Act.apply (.l3 k v) s).plruBits j = s.plruBits j) ∧ (∀ j, (Act.apply (.l3 k v) s).tile j = s.tile j) ∧
    (∀ j, (Act.apply (.l3 k v) s).quad j = s.quad j) ∧ (∀ j, (Act.apply (.l3 k v) s).seq j = s.seq j) ∧
    (∀ j, (Act.apply (.l3 k v) s).queue j = s.queue j) ∧ (∀ j, (Act.apply (.l3 k v) s).slice j = s.slice j) ∧
    (∀ j, (Act.apply (.l3 k v) s).filtEntry j = s.filtEntry j) ∧ (∀ j, (Act.apply (.l3 k v) s).limit j = s.limit j) ∧
    (∀ j, (Act.apply (.l3 k v) s).aplicDom j = s.aplicDom j) ∧ (∀ j, (Act.apply (.l3 k v) s).aplicCfg j = s.aplicCfg j) ∧
    (∀ j, (Act.apply (.l3 k v) s).dline j = s.dline j) ∧ (∀ j, (Act.apply (.l3 k v) s).chan j = s.chan j) ∧
    (∀ j, (Act.apply (.l3 k v) s).key j = s.key j) ∧ (∀ j, (Act.apply (.l3 k v) s).rx j = s.rx j) ∧
    (∀ j, (Act.apply (.l3 k v) s).die j = s.die j) ∧ (∀ j, (Act.apply (.l3 k v) s).pmuLast j = s.pmuLast j) ∧
    (∀ j, (Act.apply (.l3 k v) s).grp j = s.grp j) ∧ (∀ j, (Act.apply (.l3 k v) s).ecamReg j = s.ecamReg j) ∧
    (∀ j, (Act.apply (.l3 k v) s).msixWord j = s.msixWord j) ∧ (∀ j, (Act.apply (.l3 k v) s).job j = s.job j) ∧
    (∀ j, (Act.apply (.l3 k v) s).fetched_ j = s.fetched_ j) ∧ (∀ j, (Act.apply (.l3 k v) s).moved_ j = s.moved_ j) ∧
    (∀ j, (Act.apply (.l3 k v) s).fnBytes_ j = s.fnBytes_ j) ∧ (∀ j, (Act.apply (.l3 k v) s).leadOf j = s.leadOf j) ∧
    (∀ j, (Act.apply (.l3 k v) s).slotTurn_ j = s.slotTurn_ j) ∧ (∀ j, (Act.apply (.l3 k v) s).aged_ j = s.aged_ j) := by
  and_intros <;> exact fun _ => rfl

@[simp] theorem Act.read_plru (k : Nat) (v : Nat) (s : State) :
    (∀ j, (Act.apply (.plru k v) s).hart j = s.hart j) ∧ (∀ j, (Act.apply (.plru k v) s).x j = s.x j) ∧
    (∀ j, (Act.apply (.plru k v) s).f j = s.f j) ∧ (∀ j, (Act.apply (.plru k v) s).v j = s.v j) ∧
    (∀ j, (Act.apply (.plru k v) s).file j = s.file j) ∧ (∀ j, (Act.apply (.plru k v) s).l1iSlot j = s.l1iSlot j) ∧
    (∀ j, (Act.apply (.plru k v) s).l1dSlot j = s.l1dSlot j) ∧ (∀ j, (Act.apply (.plru k v) s).l2Slot j = s.l2Slot j) ∧
    (∀ j, (Act.apply (.plru k v) s).l3Slot j = s.l3Slot j) ∧ (∀ j, (Act.apply (.plru k v) s).tile j = s.tile j) ∧
    (∀ j, (Act.apply (.plru k v) s).quad j = s.quad j) ∧ (∀ j, (Act.apply (.plru k v) s).seq j = s.seq j) ∧
    (∀ j, (Act.apply (.plru k v) s).queue j = s.queue j) ∧ (∀ j, (Act.apply (.plru k v) s).slice j = s.slice j) ∧
    (∀ j, (Act.apply (.plru k v) s).filtEntry j = s.filtEntry j) ∧ (∀ j, (Act.apply (.plru k v) s).limit j = s.limit j) ∧
    (∀ j, (Act.apply (.plru k v) s).aplicDom j = s.aplicDom j) ∧ (∀ j, (Act.apply (.plru k v) s).aplicCfg j = s.aplicCfg j) ∧
    (∀ j, (Act.apply (.plru k v) s).dline j = s.dline j) ∧ (∀ j, (Act.apply (.plru k v) s).chan j = s.chan j) ∧
    (∀ j, (Act.apply (.plru k v) s).key j = s.key j) ∧ (∀ j, (Act.apply (.plru k v) s).rx j = s.rx j) ∧
    (∀ j, (Act.apply (.plru k v) s).die j = s.die j) ∧ (∀ j, (Act.apply (.plru k v) s).pmuLast j = s.pmuLast j) ∧
    (∀ j, (Act.apply (.plru k v) s).grp j = s.grp j) ∧ (∀ j, (Act.apply (.plru k v) s).ecamReg j = s.ecamReg j) ∧
    (∀ j, (Act.apply (.plru k v) s).msixWord j = s.msixWord j) ∧ (∀ j, (Act.apply (.plru k v) s).job j = s.job j) ∧
    (∀ j, (Act.apply (.plru k v) s).fetched_ j = s.fetched_ j) ∧ (∀ j, (Act.apply (.plru k v) s).moved_ j = s.moved_ j) ∧
    (∀ j, (Act.apply (.plru k v) s).fnBytes_ j = s.fnBytes_ j) ∧ (∀ j, (Act.apply (.plru k v) s).leadOf j = s.leadOf j) ∧
    (∀ j, (Act.apply (.plru k v) s).slotTurn_ j = s.slotTurn_ j) ∧ (∀ j, (Act.apply (.plru k v) s).aged_ j = s.aged_ j) := by
  and_intros <;> exact fun _ => rfl

@[simp] theorem Act.read_tiles (k : Nat) (v : Tile) (s : State) :
    (∀ j, (Act.apply (.tiles k v) s).hart j = s.hart j) ∧ (∀ j, (Act.apply (.tiles k v) s).x j = s.x j) ∧
    (∀ j, (Act.apply (.tiles k v) s).f j = s.f j) ∧ (∀ j, (Act.apply (.tiles k v) s).v j = s.v j) ∧
    (∀ j, (Act.apply (.tiles k v) s).file j = s.file j) ∧ (∀ j, (Act.apply (.tiles k v) s).l1iSlot j = s.l1iSlot j) ∧
    (∀ j, (Act.apply (.tiles k v) s).l1dSlot j = s.l1dSlot j) ∧ (∀ j, (Act.apply (.tiles k v) s).l2Slot j = s.l2Slot j) ∧
    (∀ j, (Act.apply (.tiles k v) s).l3Slot j = s.l3Slot j) ∧ (∀ j, (Act.apply (.tiles k v) s).plruBits j = s.plruBits j) ∧
    (∀ j, (Act.apply (.tiles k v) s).quad j = s.quad j) ∧ (∀ j, (Act.apply (.tiles k v) s).seq j = s.seq j) ∧
    (∀ j, (Act.apply (.tiles k v) s).queue j = s.queue j) ∧ (∀ j, (Act.apply (.tiles k v) s).slice j = s.slice j) ∧
    (∀ j, (Act.apply (.tiles k v) s).filtEntry j = s.filtEntry j) ∧ (∀ j, (Act.apply (.tiles k v) s).limit j = s.limit j) ∧
    (∀ j, (Act.apply (.tiles k v) s).aplicDom j = s.aplicDom j) ∧ (∀ j, (Act.apply (.tiles k v) s).aplicCfg j = s.aplicCfg j) ∧
    (∀ j, (Act.apply (.tiles k v) s).dline j = s.dline j) ∧ (∀ j, (Act.apply (.tiles k v) s).chan j = s.chan j) ∧
    (∀ j, (Act.apply (.tiles k v) s).key j = s.key j) ∧ (∀ j, (Act.apply (.tiles k v) s).rx j = s.rx j) ∧
    (∀ j, (Act.apply (.tiles k v) s).die j = s.die j) ∧ (∀ j, (Act.apply (.tiles k v) s).pmuLast j = s.pmuLast j) ∧
    (∀ j, (Act.apply (.tiles k v) s).grp j = s.grp j) ∧ (∀ j, (Act.apply (.tiles k v) s).ecamReg j = s.ecamReg j) ∧
    (∀ j, (Act.apply (.tiles k v) s).msixWord j = s.msixWord j) ∧ (∀ j, (Act.apply (.tiles k v) s).job j = s.job j) ∧
    (∀ j, (Act.apply (.tiles k v) s).fetched_ j = s.fetched_ j) ∧ (∀ j, (Act.apply (.tiles k v) s).moved_ j = s.moved_ j) ∧
    (∀ j, (Act.apply (.tiles k v) s).fnBytes_ j = s.fnBytes_ j) ∧ (∀ j, (Act.apply (.tiles k v) s).leadOf j = s.leadOf j) ∧
    (∀ j, (Act.apply (.tiles k v) s).slotTurn_ j = s.slotTurn_ j) ∧ (∀ j, (Act.apply (.tiles k v) s).aged_ j = s.aged_ j) := by
  and_intros <;> exact fun _ => rfl

@[simp] theorem Act.read_quads (k : Nat) (v : Quad) (s : State) :
    (∀ j, (Act.apply (.quads k v) s).hart j = s.hart j) ∧ (∀ j, (Act.apply (.quads k v) s).x j = s.x j) ∧
    (∀ j, (Act.apply (.quads k v) s).f j = s.f j) ∧ (∀ j, (Act.apply (.quads k v) s).v j = s.v j) ∧
    (∀ j, (Act.apply (.quads k v) s).file j = s.file j) ∧ (∀ j, (Act.apply (.quads k v) s).l1iSlot j = s.l1iSlot j) ∧
    (∀ j, (Act.apply (.quads k v) s).l1dSlot j = s.l1dSlot j) ∧ (∀ j, (Act.apply (.quads k v) s).l2Slot j = s.l2Slot j) ∧
    (∀ j, (Act.apply (.quads k v) s).l3Slot j = s.l3Slot j) ∧ (∀ j, (Act.apply (.quads k v) s).plruBits j = s.plruBits j) ∧
    (∀ j, (Act.apply (.quads k v) s).tile j = s.tile j) ∧ (∀ j, (Act.apply (.quads k v) s).seq j = s.seq j) ∧
    (∀ j, (Act.apply (.quads k v) s).queue j = s.queue j) ∧ (∀ j, (Act.apply (.quads k v) s).slice j = s.slice j) ∧
    (∀ j, (Act.apply (.quads k v) s).filtEntry j = s.filtEntry j) ∧ (∀ j, (Act.apply (.quads k v) s).limit j = s.limit j) ∧
    (∀ j, (Act.apply (.quads k v) s).aplicDom j = s.aplicDom j) ∧ (∀ j, (Act.apply (.quads k v) s).aplicCfg j = s.aplicCfg j) ∧
    (∀ j, (Act.apply (.quads k v) s).dline j = s.dline j) ∧ (∀ j, (Act.apply (.quads k v) s).chan j = s.chan j) ∧
    (∀ j, (Act.apply (.quads k v) s).key j = s.key j) ∧ (∀ j, (Act.apply (.quads k v) s).rx j = s.rx j) ∧
    (∀ j, (Act.apply (.quads k v) s).die j = s.die j) ∧ (∀ j, (Act.apply (.quads k v) s).pmuLast j = s.pmuLast j) ∧
    (∀ j, (Act.apply (.quads k v) s).grp j = s.grp j) ∧ (∀ j, (Act.apply (.quads k v) s).ecamReg j = s.ecamReg j) ∧
    (∀ j, (Act.apply (.quads k v) s).msixWord j = s.msixWord j) ∧ (∀ j, (Act.apply (.quads k v) s).job j = s.job j) ∧
    (∀ j, (Act.apply (.quads k v) s).fetched_ j = s.fetched_ j) ∧ (∀ j, (Act.apply (.quads k v) s).moved_ j = s.moved_ j) ∧
    (∀ j, (Act.apply (.quads k v) s).fnBytes_ j = s.fnBytes_ j) ∧ (∀ j, (Act.apply (.quads k v) s).leadOf j = s.leadOf j) ∧
    (∀ j, (Act.apply (.quads k v) s).slotTurn_ j = s.slotTurn_ j) ∧ (∀ j, (Act.apply (.quads k v) s).aged_ j = s.aged_ j) := by
  and_intros <;> exact fun _ => rfl

@[simp] theorem Act.read_seqs (k : Nat) (v : Nat) (s : State) :
    (∀ j, (Act.apply (.seqs k v) s).hart j = s.hart j) ∧ (∀ j, (Act.apply (.seqs k v) s).x j = s.x j) ∧
    (∀ j, (Act.apply (.seqs k v) s).f j = s.f j) ∧ (∀ j, (Act.apply (.seqs k v) s).v j = s.v j) ∧
    (∀ j, (Act.apply (.seqs k v) s).file j = s.file j) ∧ (∀ j, (Act.apply (.seqs k v) s).l1iSlot j = s.l1iSlot j) ∧
    (∀ j, (Act.apply (.seqs k v) s).l1dSlot j = s.l1dSlot j) ∧ (∀ j, (Act.apply (.seqs k v) s).l2Slot j = s.l2Slot j) ∧
    (∀ j, (Act.apply (.seqs k v) s).l3Slot j = s.l3Slot j) ∧ (∀ j, (Act.apply (.seqs k v) s).plruBits j = s.plruBits j) ∧
    (∀ j, (Act.apply (.seqs k v) s).tile j = s.tile j) ∧ (∀ j, (Act.apply (.seqs k v) s).quad j = s.quad j) ∧
    (∀ j, (Act.apply (.seqs k v) s).queue j = s.queue j) ∧ (∀ j, (Act.apply (.seqs k v) s).slice j = s.slice j) ∧
    (∀ j, (Act.apply (.seqs k v) s).filtEntry j = s.filtEntry j) ∧ (∀ j, (Act.apply (.seqs k v) s).limit j = s.limit j) ∧
    (∀ j, (Act.apply (.seqs k v) s).aplicDom j = s.aplicDom j) ∧ (∀ j, (Act.apply (.seqs k v) s).aplicCfg j = s.aplicCfg j) ∧
    (∀ j, (Act.apply (.seqs k v) s).dline j = s.dline j) ∧ (∀ j, (Act.apply (.seqs k v) s).chan j = s.chan j) ∧
    (∀ j, (Act.apply (.seqs k v) s).key j = s.key j) ∧ (∀ j, (Act.apply (.seqs k v) s).rx j = s.rx j) ∧
    (∀ j, (Act.apply (.seqs k v) s).die j = s.die j) ∧ (∀ j, (Act.apply (.seqs k v) s).pmuLast j = s.pmuLast j) ∧
    (∀ j, (Act.apply (.seqs k v) s).grp j = s.grp j) ∧ (∀ j, (Act.apply (.seqs k v) s).ecamReg j = s.ecamReg j) ∧
    (∀ j, (Act.apply (.seqs k v) s).msixWord j = s.msixWord j) ∧ (∀ j, (Act.apply (.seqs k v) s).job j = s.job j) ∧
    (∀ j, (Act.apply (.seqs k v) s).fetched_ j = s.fetched_ j) ∧ (∀ j, (Act.apply (.seqs k v) s).moved_ j = s.moved_ j) ∧
    (∀ j, (Act.apply (.seqs k v) s).fnBytes_ j = s.fnBytes_ j) ∧ (∀ j, (Act.apply (.seqs k v) s).leadOf j = s.leadOf j) ∧
    (∀ j, (Act.apply (.seqs k v) s).slotTurn_ j = s.slotTurn_ j) ∧ (∀ j, (Act.apply (.seqs k v) s).aged_ j = s.aged_ j) := by
  and_intros <;> exact fun _ => rfl

@[simp] theorem Act.read_lineq (k : Nat) (v : List HReq) (s : State) :
    (∀ j, (Act.apply (.lineq k v) s).hart j = s.hart j) ∧ (∀ j, (Act.apply (.lineq k v) s).x j = s.x j) ∧
    (∀ j, (Act.apply (.lineq k v) s).f j = s.f j) ∧ (∀ j, (Act.apply (.lineq k v) s).v j = s.v j) ∧
    (∀ j, (Act.apply (.lineq k v) s).file j = s.file j) ∧ (∀ j, (Act.apply (.lineq k v) s).l1iSlot j = s.l1iSlot j) ∧
    (∀ j, (Act.apply (.lineq k v) s).l1dSlot j = s.l1dSlot j) ∧ (∀ j, (Act.apply (.lineq k v) s).l2Slot j = s.l2Slot j) ∧
    (∀ j, (Act.apply (.lineq k v) s).l3Slot j = s.l3Slot j) ∧ (∀ j, (Act.apply (.lineq k v) s).plruBits j = s.plruBits j) ∧
    (∀ j, (Act.apply (.lineq k v) s).tile j = s.tile j) ∧ (∀ j, (Act.apply (.lineq k v) s).quad j = s.quad j) ∧
    (∀ j, (Act.apply (.lineq k v) s).seq j = s.seq j) ∧ (∀ j, (Act.apply (.lineq k v) s).slice j = s.slice j) ∧
    (∀ j, (Act.apply (.lineq k v) s).filtEntry j = s.filtEntry j) ∧ (∀ j, (Act.apply (.lineq k v) s).limit j = s.limit j) ∧
    (∀ j, (Act.apply (.lineq k v) s).aplicDom j = s.aplicDom j) ∧ (∀ j, (Act.apply (.lineq k v) s).aplicCfg j = s.aplicCfg j) ∧
    (∀ j, (Act.apply (.lineq k v) s).dline j = s.dline j) ∧ (∀ j, (Act.apply (.lineq k v) s).chan j = s.chan j) ∧
    (∀ j, (Act.apply (.lineq k v) s).key j = s.key j) ∧ (∀ j, (Act.apply (.lineq k v) s).rx j = s.rx j) ∧
    (∀ j, (Act.apply (.lineq k v) s).die j = s.die j) ∧ (∀ j, (Act.apply (.lineq k v) s).pmuLast j = s.pmuLast j) ∧
    (∀ j, (Act.apply (.lineq k v) s).grp j = s.grp j) ∧ (∀ j, (Act.apply (.lineq k v) s).ecamReg j = s.ecamReg j) ∧
    (∀ j, (Act.apply (.lineq k v) s).msixWord j = s.msixWord j) ∧ (∀ j, (Act.apply (.lineq k v) s).job j = s.job j) ∧
    (∀ j, (Act.apply (.lineq k v) s).fetched_ j = s.fetched_ j) ∧ (∀ j, (Act.apply (.lineq k v) s).moved_ j = s.moved_ j) ∧
    (∀ j, (Act.apply (.lineq k v) s).fnBytes_ j = s.fnBytes_ j) ∧ (∀ j, (Act.apply (.lineq k v) s).leadOf j = s.leadOf j) ∧
    (∀ j, (Act.apply (.lineq k v) s).slotTurn_ j = s.slotTurn_ j) ∧ (∀ j, (Act.apply (.lineq k v) s).aged_ j = s.aged_ j) := by
  and_intros <;> exact fun _ => rfl

@[simp] theorem Act.read_slices (k : Nat) (v : Slice) (s : State) :
    (∀ j, (Act.apply (.slices k v) s).hart j = s.hart j) ∧ (∀ j, (Act.apply (.slices k v) s).x j = s.x j) ∧
    (∀ j, (Act.apply (.slices k v) s).f j = s.f j) ∧ (∀ j, (Act.apply (.slices k v) s).v j = s.v j) ∧
    (∀ j, (Act.apply (.slices k v) s).file j = s.file j) ∧ (∀ j, (Act.apply (.slices k v) s).l1iSlot j = s.l1iSlot j) ∧
    (∀ j, (Act.apply (.slices k v) s).l1dSlot j = s.l1dSlot j) ∧ (∀ j, (Act.apply (.slices k v) s).l2Slot j = s.l2Slot j) ∧
    (∀ j, (Act.apply (.slices k v) s).l3Slot j = s.l3Slot j) ∧ (∀ j, (Act.apply (.slices k v) s).plruBits j = s.plruBits j) ∧
    (∀ j, (Act.apply (.slices k v) s).tile j = s.tile j) ∧ (∀ j, (Act.apply (.slices k v) s).quad j = s.quad j) ∧
    (∀ j, (Act.apply (.slices k v) s).seq j = s.seq j) ∧ (∀ j, (Act.apply (.slices k v) s).queue j = s.queue j) ∧
    (∀ j, (Act.apply (.slices k v) s).filtEntry j = s.filtEntry j) ∧ (∀ j, (Act.apply (.slices k v) s).limit j = s.limit j) ∧
    (∀ j, (Act.apply (.slices k v) s).aplicDom j = s.aplicDom j) ∧ (∀ j, (Act.apply (.slices k v) s).aplicCfg j = s.aplicCfg j) ∧
    (∀ j, (Act.apply (.slices k v) s).dline j = s.dline j) ∧ (∀ j, (Act.apply (.slices k v) s).chan j = s.chan j) ∧
    (∀ j, (Act.apply (.slices k v) s).key j = s.key j) ∧ (∀ j, (Act.apply (.slices k v) s).rx j = s.rx j) ∧
    (∀ j, (Act.apply (.slices k v) s).die j = s.die j) ∧ (∀ j, (Act.apply (.slices k v) s).pmuLast j = s.pmuLast j) ∧
    (∀ j, (Act.apply (.slices k v) s).grp j = s.grp j) ∧ (∀ j, (Act.apply (.slices k v) s).ecamReg j = s.ecamReg j) ∧
    (∀ j, (Act.apply (.slices k v) s).msixWord j = s.msixWord j) ∧ (∀ j, (Act.apply (.slices k v) s).job j = s.job j) ∧
    (∀ j, (Act.apply (.slices k v) s).fetched_ j = s.fetched_ j) ∧ (∀ j, (Act.apply (.slices k v) s).moved_ j = s.moved_ j) ∧
    (∀ j, (Act.apply (.slices k v) s).fnBytes_ j = s.fnBytes_ j) ∧ (∀ j, (Act.apply (.slices k v) s).leadOf j = s.leadOf j) ∧
    (∀ j, (Act.apply (.slices k v) s).slotTurn_ j = s.slotTurn_ j) ∧ (∀ j, (Act.apply (.slices k v) s).aged_ j = s.aged_ j) := by
  and_intros <;> exact fun _ => rfl

@[simp] theorem Act.read_filt (k : Nat) (v : Option (FEntry)) (s : State) :
    (∀ j, (Act.apply (.filt k v) s).hart j = s.hart j) ∧ (∀ j, (Act.apply (.filt k v) s).x j = s.x j) ∧
    (∀ j, (Act.apply (.filt k v) s).f j = s.f j) ∧ (∀ j, (Act.apply (.filt k v) s).v j = s.v j) ∧
    (∀ j, (Act.apply (.filt k v) s).file j = s.file j) ∧ (∀ j, (Act.apply (.filt k v) s).l1iSlot j = s.l1iSlot j) ∧
    (∀ j, (Act.apply (.filt k v) s).l1dSlot j = s.l1dSlot j) ∧ (∀ j, (Act.apply (.filt k v) s).l2Slot j = s.l2Slot j) ∧
    (∀ j, (Act.apply (.filt k v) s).l3Slot j = s.l3Slot j) ∧ (∀ j, (Act.apply (.filt k v) s).plruBits j = s.plruBits j) ∧
    (∀ j, (Act.apply (.filt k v) s).tile j = s.tile j) ∧ (∀ j, (Act.apply (.filt k v) s).quad j = s.quad j) ∧
    (∀ j, (Act.apply (.filt k v) s).seq j = s.seq j) ∧ (∀ j, (Act.apply (.filt k v) s).queue j = s.queue j) ∧
    (∀ j, (Act.apply (.filt k v) s).slice j = s.slice j) ∧ (∀ j, (Act.apply (.filt k v) s).limit j = s.limit j) ∧
    (∀ j, (Act.apply (.filt k v) s).aplicDom j = s.aplicDom j) ∧ (∀ j, (Act.apply (.filt k v) s).aplicCfg j = s.aplicCfg j) ∧
    (∀ j, (Act.apply (.filt k v) s).dline j = s.dline j) ∧ (∀ j, (Act.apply (.filt k v) s).chan j = s.chan j) ∧
    (∀ j, (Act.apply (.filt k v) s).key j = s.key j) ∧ (∀ j, (Act.apply (.filt k v) s).rx j = s.rx j) ∧
    (∀ j, (Act.apply (.filt k v) s).die j = s.die j) ∧ (∀ j, (Act.apply (.filt k v) s).pmuLast j = s.pmuLast j) ∧
    (∀ j, (Act.apply (.filt k v) s).grp j = s.grp j) ∧ (∀ j, (Act.apply (.filt k v) s).ecamReg j = s.ecamReg j) ∧
    (∀ j, (Act.apply (.filt k v) s).msixWord j = s.msixWord j) ∧ (∀ j, (Act.apply (.filt k v) s).job j = s.job j) ∧
    (∀ j, (Act.apply (.filt k v) s).fetched_ j = s.fetched_ j) ∧ (∀ j, (Act.apply (.filt k v) s).moved_ j = s.moved_ j) ∧
    (∀ j, (Act.apply (.filt k v) s).fnBytes_ j = s.fnBytes_ j) ∧ (∀ j, (Act.apply (.filt k v) s).leadOf j = s.leadOf j) ∧
    (∀ j, (Act.apply (.filt k v) s).slotTurn_ j = s.slotTurn_ j) ∧ (∀ j, (Act.apply (.filt k v) s).aged_ j = s.aged_ j) := by
  and_intros <;> exact fun _ => rfl

@[simp] theorem Act.read_limits (k : Nat) (v : Nat) (s : State) :
    (∀ j, (Act.apply (.limits k v) s).hart j = s.hart j) ∧ (∀ j, (Act.apply (.limits k v) s).x j = s.x j) ∧
    (∀ j, (Act.apply (.limits k v) s).f j = s.f j) ∧ (∀ j, (Act.apply (.limits k v) s).v j = s.v j) ∧
    (∀ j, (Act.apply (.limits k v) s).file j = s.file j) ∧ (∀ j, (Act.apply (.limits k v) s).l1iSlot j = s.l1iSlot j) ∧
    (∀ j, (Act.apply (.limits k v) s).l1dSlot j = s.l1dSlot j) ∧ (∀ j, (Act.apply (.limits k v) s).l2Slot j = s.l2Slot j) ∧
    (∀ j, (Act.apply (.limits k v) s).l3Slot j = s.l3Slot j) ∧ (∀ j, (Act.apply (.limits k v) s).plruBits j = s.plruBits j) ∧
    (∀ j, (Act.apply (.limits k v) s).tile j = s.tile j) ∧ (∀ j, (Act.apply (.limits k v) s).quad j = s.quad j) ∧
    (∀ j, (Act.apply (.limits k v) s).seq j = s.seq j) ∧ (∀ j, (Act.apply (.limits k v) s).queue j = s.queue j) ∧
    (∀ j, (Act.apply (.limits k v) s).slice j = s.slice j) ∧ (∀ j, (Act.apply (.limits k v) s).filtEntry j = s.filtEntry j) ∧
    (∀ j, (Act.apply (.limits k v) s).aplicDom j = s.aplicDom j) ∧ (∀ j, (Act.apply (.limits k v) s).aplicCfg j = s.aplicCfg j) ∧
    (∀ j, (Act.apply (.limits k v) s).dline j = s.dline j) ∧ (∀ j, (Act.apply (.limits k v) s).chan j = s.chan j) ∧
    (∀ j, (Act.apply (.limits k v) s).key j = s.key j) ∧ (∀ j, (Act.apply (.limits k v) s).rx j = s.rx j) ∧
    (∀ j, (Act.apply (.limits k v) s).die j = s.die j) ∧ (∀ j, (Act.apply (.limits k v) s).pmuLast j = s.pmuLast j) ∧
    (∀ j, (Act.apply (.limits k v) s).grp j = s.grp j) ∧ (∀ j, (Act.apply (.limits k v) s).ecamReg j = s.ecamReg j) ∧
    (∀ j, (Act.apply (.limits k v) s).msixWord j = s.msixWord j) ∧ (∀ j, (Act.apply (.limits k v) s).job j = s.job j) ∧
    (∀ j, (Act.apply (.limits k v) s).fetched_ j = s.fetched_ j) ∧ (∀ j, (Act.apply (.limits k v) s).moved_ j = s.moved_ j) ∧
    (∀ j, (Act.apply (.limits k v) s).fnBytes_ j = s.fnBytes_ j) ∧ (∀ j, (Act.apply (.limits k v) s).leadOf j = s.leadOf j) ∧
    (∀ j, (Act.apply (.limits k v) s).slotTurn_ j = s.slotTurn_ j) ∧ (∀ j, (Act.apply (.limits k v) s).aged_ j = s.aged_ j) := by
  and_intros <;> exact fun _ => rfl

@[simp] theorem Act.read_aplic (k : Nat) (v : AplicDom) (s : State) :
    (∀ j, (Act.apply (.aplic k v) s).hart j = s.hart j) ∧ (∀ j, (Act.apply (.aplic k v) s).x j = s.x j) ∧
    (∀ j, (Act.apply (.aplic k v) s).f j = s.f j) ∧ (∀ j, (Act.apply (.aplic k v) s).v j = s.v j) ∧
    (∀ j, (Act.apply (.aplic k v) s).file j = s.file j) ∧ (∀ j, (Act.apply (.aplic k v) s).l1iSlot j = s.l1iSlot j) ∧
    (∀ j, (Act.apply (.aplic k v) s).l1dSlot j = s.l1dSlot j) ∧ (∀ j, (Act.apply (.aplic k v) s).l2Slot j = s.l2Slot j) ∧
    (∀ j, (Act.apply (.aplic k v) s).l3Slot j = s.l3Slot j) ∧ (∀ j, (Act.apply (.aplic k v) s).plruBits j = s.plruBits j) ∧
    (∀ j, (Act.apply (.aplic k v) s).tile j = s.tile j) ∧ (∀ j, (Act.apply (.aplic k v) s).quad j = s.quad j) ∧
    (∀ j, (Act.apply (.aplic k v) s).seq j = s.seq j) ∧ (∀ j, (Act.apply (.aplic k v) s).queue j = s.queue j) ∧
    (∀ j, (Act.apply (.aplic k v) s).slice j = s.slice j) ∧ (∀ j, (Act.apply (.aplic k v) s).filtEntry j = s.filtEntry j) ∧
    (∀ j, (Act.apply (.aplic k v) s).limit j = s.limit j) ∧ (∀ j, (Act.apply (.aplic k v) s).aplicCfg j = s.aplicCfg j) ∧
    (∀ j, (Act.apply (.aplic k v) s).dline j = s.dline j) ∧ (∀ j, (Act.apply (.aplic k v) s).chan j = s.chan j) ∧
    (∀ j, (Act.apply (.aplic k v) s).key j = s.key j) ∧ (∀ j, (Act.apply (.aplic k v) s).rx j = s.rx j) ∧
    (∀ j, (Act.apply (.aplic k v) s).die j = s.die j) ∧ (∀ j, (Act.apply (.aplic k v) s).pmuLast j = s.pmuLast j) ∧
    (∀ j, (Act.apply (.aplic k v) s).grp j = s.grp j) ∧ (∀ j, (Act.apply (.aplic k v) s).ecamReg j = s.ecamReg j) ∧
    (∀ j, (Act.apply (.aplic k v) s).msixWord j = s.msixWord j) ∧ (∀ j, (Act.apply (.aplic k v) s).job j = s.job j) ∧
    (∀ j, (Act.apply (.aplic k v) s).fetched_ j = s.fetched_ j) ∧ (∀ j, (Act.apply (.aplic k v) s).moved_ j = s.moved_ j) ∧
    (∀ j, (Act.apply (.aplic k v) s).fnBytes_ j = s.fnBytes_ j) ∧ (∀ j, (Act.apply (.aplic k v) s).leadOf j = s.leadOf j) ∧
    (∀ j, (Act.apply (.aplic k v) s).slotTurn_ j = s.slotTurn_ j) ∧ (∀ j, (Act.apply (.aplic k v) s).aged_ j = s.aged_ j) := by
  and_intros <;> exact fun _ => rfl

@[simp] theorem Act.read_aplicSrc (k : Nat) (v : AplicSrc) (s : State) :
    (∀ j, (Act.apply (.aplicSrc k v) s).hart j = s.hart j) ∧ (∀ j, (Act.apply (.aplicSrc k v) s).x j = s.x j) ∧
    (∀ j, (Act.apply (.aplicSrc k v) s).f j = s.f j) ∧ (∀ j, (Act.apply (.aplicSrc k v) s).v j = s.v j) ∧
    (∀ j, (Act.apply (.aplicSrc k v) s).file j = s.file j) ∧ (∀ j, (Act.apply (.aplicSrc k v) s).l1iSlot j = s.l1iSlot j) ∧
    (∀ j, (Act.apply (.aplicSrc k v) s).l1dSlot j = s.l1dSlot j) ∧ (∀ j, (Act.apply (.aplicSrc k v) s).l2Slot j = s.l2Slot j) ∧
    (∀ j, (Act.apply (.aplicSrc k v) s).l3Slot j = s.l3Slot j) ∧ (∀ j, (Act.apply (.aplicSrc k v) s).plruBits j = s.plruBits j) ∧
    (∀ j, (Act.apply (.aplicSrc k v) s).tile j = s.tile j) ∧ (∀ j, (Act.apply (.aplicSrc k v) s).quad j = s.quad j) ∧
    (∀ j, (Act.apply (.aplicSrc k v) s).seq j = s.seq j) ∧ (∀ j, (Act.apply (.aplicSrc k v) s).queue j = s.queue j) ∧
    (∀ j, (Act.apply (.aplicSrc k v) s).slice j = s.slice j) ∧ (∀ j, (Act.apply (.aplicSrc k v) s).filtEntry j = s.filtEntry j) ∧
    (∀ j, (Act.apply (.aplicSrc k v) s).limit j = s.limit j) ∧ (∀ j, (Act.apply (.aplicSrc k v) s).aplicDom j = s.aplicDom j) ∧
    (∀ j, (Act.apply (.aplicSrc k v) s).dline j = s.dline j) ∧ (∀ j, (Act.apply (.aplicSrc k v) s).chan j = s.chan j) ∧
    (∀ j, (Act.apply (.aplicSrc k v) s).key j = s.key j) ∧ (∀ j, (Act.apply (.aplicSrc k v) s).rx j = s.rx j) ∧
    (∀ j, (Act.apply (.aplicSrc k v) s).die j = s.die j) ∧ (∀ j, (Act.apply (.aplicSrc k v) s).pmuLast j = s.pmuLast j) ∧
    (∀ j, (Act.apply (.aplicSrc k v) s).grp j = s.grp j) ∧ (∀ j, (Act.apply (.aplicSrc k v) s).ecamReg j = s.ecamReg j) ∧
    (∀ j, (Act.apply (.aplicSrc k v) s).msixWord j = s.msixWord j) ∧ (∀ j, (Act.apply (.aplicSrc k v) s).job j = s.job j) ∧
    (∀ j, (Act.apply (.aplicSrc k v) s).fetched_ j = s.fetched_ j) ∧ (∀ j, (Act.apply (.aplicSrc k v) s).moved_ j = s.moved_ j) ∧
    (∀ j, (Act.apply (.aplicSrc k v) s).fnBytes_ j = s.fnBytes_ j) ∧ (∀ j, (Act.apply (.aplicSrc k v) s).leadOf j = s.leadOf j) ∧
    (∀ j, (Act.apply (.aplicSrc k v) s).slotTurn_ j = s.slotTurn_ j) ∧ (∀ j, (Act.apply (.aplicSrc k v) s).aged_ j = s.aged_ j) := by
  and_intros <;> exact fun _ => rfl

@[simp] theorem Act.read_dram (k : Nat) (v : Option (DLine)) (s : State) :
    (∀ j, (Act.apply (.dram k v) s).hart j = s.hart j) ∧ (∀ j, (Act.apply (.dram k v) s).x j = s.x j) ∧
    (∀ j, (Act.apply (.dram k v) s).f j = s.f j) ∧ (∀ j, (Act.apply (.dram k v) s).v j = s.v j) ∧
    (∀ j, (Act.apply (.dram k v) s).file j = s.file j) ∧ (∀ j, (Act.apply (.dram k v) s).l1iSlot j = s.l1iSlot j) ∧
    (∀ j, (Act.apply (.dram k v) s).l1dSlot j = s.l1dSlot j) ∧ (∀ j, (Act.apply (.dram k v) s).l2Slot j = s.l2Slot j) ∧
    (∀ j, (Act.apply (.dram k v) s).l3Slot j = s.l3Slot j) ∧ (∀ j, (Act.apply (.dram k v) s).plruBits j = s.plruBits j) ∧
    (∀ j, (Act.apply (.dram k v) s).tile j = s.tile j) ∧ (∀ j, (Act.apply (.dram k v) s).quad j = s.quad j) ∧
    (∀ j, (Act.apply (.dram k v) s).seq j = s.seq j) ∧ (∀ j, (Act.apply (.dram k v) s).queue j = s.queue j) ∧
    (∀ j, (Act.apply (.dram k v) s).slice j = s.slice j) ∧ (∀ j, (Act.apply (.dram k v) s).filtEntry j = s.filtEntry j) ∧
    (∀ j, (Act.apply (.dram k v) s).limit j = s.limit j) ∧ (∀ j, (Act.apply (.dram k v) s).aplicDom j = s.aplicDom j) ∧
    (∀ j, (Act.apply (.dram k v) s).aplicCfg j = s.aplicCfg j) ∧ (∀ j, (Act.apply (.dram k v) s).chan j = s.chan j) ∧
    (∀ j, (Act.apply (.dram k v) s).key j = s.key j) ∧ (∀ j, (Act.apply (.dram k v) s).rx j = s.rx j) ∧
    (∀ j, (Act.apply (.dram k v) s).die j = s.die j) ∧ (∀ j, (Act.apply (.dram k v) s).pmuLast j = s.pmuLast j) ∧
    (∀ j, (Act.apply (.dram k v) s).grp j = s.grp j) ∧ (∀ j, (Act.apply (.dram k v) s).ecamReg j = s.ecamReg j) ∧
    (∀ j, (Act.apply (.dram k v) s).msixWord j = s.msixWord j) ∧ (∀ j, (Act.apply (.dram k v) s).job j = s.job j) ∧
    (∀ j, (Act.apply (.dram k v) s).fetched_ j = s.fetched_ j) ∧ (∀ j, (Act.apply (.dram k v) s).moved_ j = s.moved_ j) ∧
    (∀ j, (Act.apply (.dram k v) s).fnBytes_ j = s.fnBytes_ j) ∧ (∀ j, (Act.apply (.dram k v) s).leadOf j = s.leadOf j) ∧
    (∀ j, (Act.apply (.dram k v) s).slotTurn_ j = s.slotTurn_ j) ∧ (∀ j, (Act.apply (.dram k v) s).aged_ j = s.aged_ j) := by
  and_intros <;> exact fun _ => rfl

@[simp] theorem Act.read_chans (k : Nat) (v : Chan) (s : State) :
    (∀ j, (Act.apply (.chans k v) s).hart j = s.hart j) ∧ (∀ j, (Act.apply (.chans k v) s).x j = s.x j) ∧
    (∀ j, (Act.apply (.chans k v) s).f j = s.f j) ∧ (∀ j, (Act.apply (.chans k v) s).v j = s.v j) ∧
    (∀ j, (Act.apply (.chans k v) s).file j = s.file j) ∧ (∀ j, (Act.apply (.chans k v) s).l1iSlot j = s.l1iSlot j) ∧
    (∀ j, (Act.apply (.chans k v) s).l1dSlot j = s.l1dSlot j) ∧ (∀ j, (Act.apply (.chans k v) s).l2Slot j = s.l2Slot j) ∧
    (∀ j, (Act.apply (.chans k v) s).l3Slot j = s.l3Slot j) ∧ (∀ j, (Act.apply (.chans k v) s).plruBits j = s.plruBits j) ∧
    (∀ j, (Act.apply (.chans k v) s).tile j = s.tile j) ∧ (∀ j, (Act.apply (.chans k v) s).quad j = s.quad j) ∧
    (∀ j, (Act.apply (.chans k v) s).seq j = s.seq j) ∧ (∀ j, (Act.apply (.chans k v) s).queue j = s.queue j) ∧
    (∀ j, (Act.apply (.chans k v) s).slice j = s.slice j) ∧ (∀ j, (Act.apply (.chans k v) s).filtEntry j = s.filtEntry j) ∧
    (∀ j, (Act.apply (.chans k v) s).limit j = s.limit j) ∧ (∀ j, (Act.apply (.chans k v) s).aplicDom j = s.aplicDom j) ∧
    (∀ j, (Act.apply (.chans k v) s).aplicCfg j = s.aplicCfg j) ∧ (∀ j, (Act.apply (.chans k v) s).dline j = s.dline j) ∧
    (∀ j, (Act.apply (.chans k v) s).key j = s.key j) ∧ (∀ j, (Act.apply (.chans k v) s).rx j = s.rx j) ∧
    (∀ j, (Act.apply (.chans k v) s).die j = s.die j) ∧ (∀ j, (Act.apply (.chans k v) s).pmuLast j = s.pmuLast j) ∧
    (∀ j, (Act.apply (.chans k v) s).grp j = s.grp j) ∧ (∀ j, (Act.apply (.chans k v) s).ecamReg j = s.ecamReg j) ∧
    (∀ j, (Act.apply (.chans k v) s).msixWord j = s.msixWord j) ∧ (∀ j, (Act.apply (.chans k v) s).job j = s.job j) ∧
    (∀ j, (Act.apply (.chans k v) s).fetched_ j = s.fetched_ j) ∧ (∀ j, (Act.apply (.chans k v) s).moved_ j = s.moved_ j) ∧
    (∀ j, (Act.apply (.chans k v) s).fnBytes_ j = s.fnBytes_ j) ∧ (∀ j, (Act.apply (.chans k v) s).leadOf j = s.leadOf j) ∧
    (∀ j, (Act.apply (.chans k v) s).slotTurn_ j = s.slotTurn_ j) ∧ (∀ j, (Act.apply (.chans k v) s).aged_ j = s.aged_ j) := by
  and_intros <;> exact fun _ => rfl

@[simp] theorem Act.read_keys (k : Nat) (v : KeySlot) (s : State) :
    (∀ j, (Act.apply (.keys k v) s).hart j = s.hart j) ∧ (∀ j, (Act.apply (.keys k v) s).x j = s.x j) ∧
    (∀ j, (Act.apply (.keys k v) s).f j = s.f j) ∧ (∀ j, (Act.apply (.keys k v) s).v j = s.v j) ∧
    (∀ j, (Act.apply (.keys k v) s).file j = s.file j) ∧ (∀ j, (Act.apply (.keys k v) s).l1iSlot j = s.l1iSlot j) ∧
    (∀ j, (Act.apply (.keys k v) s).l1dSlot j = s.l1dSlot j) ∧ (∀ j, (Act.apply (.keys k v) s).l2Slot j = s.l2Slot j) ∧
    (∀ j, (Act.apply (.keys k v) s).l3Slot j = s.l3Slot j) ∧ (∀ j, (Act.apply (.keys k v) s).plruBits j = s.plruBits j) ∧
    (∀ j, (Act.apply (.keys k v) s).tile j = s.tile j) ∧ (∀ j, (Act.apply (.keys k v) s).quad j = s.quad j) ∧
    (∀ j, (Act.apply (.keys k v) s).seq j = s.seq j) ∧ (∀ j, (Act.apply (.keys k v) s).queue j = s.queue j) ∧
    (∀ j, (Act.apply (.keys k v) s).slice j = s.slice j) ∧ (∀ j, (Act.apply (.keys k v) s).filtEntry j = s.filtEntry j) ∧
    (∀ j, (Act.apply (.keys k v) s).limit j = s.limit j) ∧ (∀ j, (Act.apply (.keys k v) s).aplicDom j = s.aplicDom j) ∧
    (∀ j, (Act.apply (.keys k v) s).aplicCfg j = s.aplicCfg j) ∧ (∀ j, (Act.apply (.keys k v) s).dline j = s.dline j) ∧
    (∀ j, (Act.apply (.keys k v) s).chan j = s.chan j) ∧ (∀ j, (Act.apply (.keys k v) s).rx j = s.rx j) ∧
    (∀ j, (Act.apply (.keys k v) s).die j = s.die j) ∧ (∀ j, (Act.apply (.keys k v) s).pmuLast j = s.pmuLast j) ∧
    (∀ j, (Act.apply (.keys k v) s).grp j = s.grp j) ∧ (∀ j, (Act.apply (.keys k v) s).ecamReg j = s.ecamReg j) ∧
    (∀ j, (Act.apply (.keys k v) s).msixWord j = s.msixWord j) ∧ (∀ j, (Act.apply (.keys k v) s).job j = s.job j) ∧
    (∀ j, (Act.apply (.keys k v) s).fetched_ j = s.fetched_ j) ∧ (∀ j, (Act.apply (.keys k v) s).moved_ j = s.moved_ j) ∧
    (∀ j, (Act.apply (.keys k v) s).fnBytes_ j = s.fnBytes_ j) ∧ (∀ j, (Act.apply (.keys k v) s).leadOf j = s.leadOf j) ∧
    (∀ j, (Act.apply (.keys k v) s).slotTurn_ j = s.slotTurn_ j) ∧ (∀ j, (Act.apply (.keys k v) s).aged_ j = s.aged_ j) := by
  and_intros <;> exact fun _ => rfl

@[simp] theorem Act.read_tbrx (k : Nat) (v : TbRx) (s : State) :
    (∀ j, (Act.apply (.tbrx k v) s).hart j = s.hart j) ∧ (∀ j, (Act.apply (.tbrx k v) s).x j = s.x j) ∧
    (∀ j, (Act.apply (.tbrx k v) s).f j = s.f j) ∧ (∀ j, (Act.apply (.tbrx k v) s).v j = s.v j) ∧
    (∀ j, (Act.apply (.tbrx k v) s).file j = s.file j) ∧ (∀ j, (Act.apply (.tbrx k v) s).l1iSlot j = s.l1iSlot j) ∧
    (∀ j, (Act.apply (.tbrx k v) s).l1dSlot j = s.l1dSlot j) ∧ (∀ j, (Act.apply (.tbrx k v) s).l2Slot j = s.l2Slot j) ∧
    (∀ j, (Act.apply (.tbrx k v) s).l3Slot j = s.l3Slot j) ∧ (∀ j, (Act.apply (.tbrx k v) s).plruBits j = s.plruBits j) ∧
    (∀ j, (Act.apply (.tbrx k v) s).tile j = s.tile j) ∧ (∀ j, (Act.apply (.tbrx k v) s).quad j = s.quad j) ∧
    (∀ j, (Act.apply (.tbrx k v) s).seq j = s.seq j) ∧ (∀ j, (Act.apply (.tbrx k v) s).queue j = s.queue j) ∧
    (∀ j, (Act.apply (.tbrx k v) s).slice j = s.slice j) ∧ (∀ j, (Act.apply (.tbrx k v) s).filtEntry j = s.filtEntry j) ∧
    (∀ j, (Act.apply (.tbrx k v) s).limit j = s.limit j) ∧ (∀ j, (Act.apply (.tbrx k v) s).aplicDom j = s.aplicDom j) ∧
    (∀ j, (Act.apply (.tbrx k v) s).aplicCfg j = s.aplicCfg j) ∧ (∀ j, (Act.apply (.tbrx k v) s).dline j = s.dline j) ∧
    (∀ j, (Act.apply (.tbrx k v) s).chan j = s.chan j) ∧ (∀ j, (Act.apply (.tbrx k v) s).key j = s.key j) ∧
    (∀ j, (Act.apply (.tbrx k v) s).die j = s.die j) ∧ (∀ j, (Act.apply (.tbrx k v) s).pmuLast j = s.pmuLast j) ∧
    (∀ j, (Act.apply (.tbrx k v) s).grp j = s.grp j) ∧ (∀ j, (Act.apply (.tbrx k v) s).ecamReg j = s.ecamReg j) ∧
    (∀ j, (Act.apply (.tbrx k v) s).msixWord j = s.msixWord j) ∧ (∀ j, (Act.apply (.tbrx k v) s).job j = s.job j) ∧
    (∀ j, (Act.apply (.tbrx k v) s).fetched_ j = s.fetched_ j) ∧ (∀ j, (Act.apply (.tbrx k v) s).moved_ j = s.moved_ j) ∧
    (∀ j, (Act.apply (.tbrx k v) s).fnBytes_ j = s.fnBytes_ j) ∧ (∀ j, (Act.apply (.tbrx k v) s).leadOf j = s.leadOf j) ∧
    (∀ j, (Act.apply (.tbrx k v) s).slotTurn_ j = s.slotTurn_ j) ∧ (∀ j, (Act.apply (.tbrx k v) s).aged_ j = s.aged_ j) := by
  and_intros <;> exact fun _ => rfl

@[simp] theorem Act.read_dies (k : Nat) (v : Die) (s : State) :
    (∀ j, (Act.apply (.dies k v) s).hart j = s.hart j) ∧ (∀ j, (Act.apply (.dies k v) s).x j = s.x j) ∧
    (∀ j, (Act.apply (.dies k v) s).f j = s.f j) ∧ (∀ j, (Act.apply (.dies k v) s).v j = s.v j) ∧
    (∀ j, (Act.apply (.dies k v) s).file j = s.file j) ∧ (∀ j, (Act.apply (.dies k v) s).l1iSlot j = s.l1iSlot j) ∧
    (∀ j, (Act.apply (.dies k v) s).l1dSlot j = s.l1dSlot j) ∧ (∀ j, (Act.apply (.dies k v) s).l2Slot j = s.l2Slot j) ∧
    (∀ j, (Act.apply (.dies k v) s).l3Slot j = s.l3Slot j) ∧ (∀ j, (Act.apply (.dies k v) s).plruBits j = s.plruBits j) ∧
    (∀ j, (Act.apply (.dies k v) s).tile j = s.tile j) ∧ (∀ j, (Act.apply (.dies k v) s).quad j = s.quad j) ∧
    (∀ j, (Act.apply (.dies k v) s).seq j = s.seq j) ∧ (∀ j, (Act.apply (.dies k v) s).queue j = s.queue j) ∧
    (∀ j, (Act.apply (.dies k v) s).slice j = s.slice j) ∧ (∀ j, (Act.apply (.dies k v) s).filtEntry j = s.filtEntry j) ∧
    (∀ j, (Act.apply (.dies k v) s).limit j = s.limit j) ∧ (∀ j, (Act.apply (.dies k v) s).aplicDom j = s.aplicDom j) ∧
    (∀ j, (Act.apply (.dies k v) s).aplicCfg j = s.aplicCfg j) ∧ (∀ j, (Act.apply (.dies k v) s).dline j = s.dline j) ∧
    (∀ j, (Act.apply (.dies k v) s).chan j = s.chan j) ∧ (∀ j, (Act.apply (.dies k v) s).key j = s.key j) ∧
    (∀ j, (Act.apply (.dies k v) s).rx j = s.rx j) ∧ (∀ j, (Act.apply (.dies k v) s).pmuLast j = s.pmuLast j) ∧
    (∀ j, (Act.apply (.dies k v) s).grp j = s.grp j) ∧ (∀ j, (Act.apply (.dies k v) s).ecamReg j = s.ecamReg j) ∧
    (∀ j, (Act.apply (.dies k v) s).msixWord j = s.msixWord j) ∧ (∀ j, (Act.apply (.dies k v) s).job j = s.job j) ∧
    (∀ j, (Act.apply (.dies k v) s).fetched_ j = s.fetched_ j) ∧ (∀ j, (Act.apply (.dies k v) s).moved_ j = s.moved_ j) ∧
    (∀ j, (Act.apply (.dies k v) s).fnBytes_ j = s.fnBytes_ j) ∧ (∀ j, (Act.apply (.dies k v) s).leadOf j = s.leadOf j) ∧
    (∀ j, (Act.apply (.dies k v) s).slotTurn_ j = s.slotTurn_ j) ∧ (∀ j, (Act.apply (.dies k v) s).aged_ j = s.aged_ j) := by
  and_intros <;> exact fun _ => rfl

@[simp] theorem Act.read_pmuEdge (k : Nat) (v : Nat) (s : State) :
    (∀ j, (Act.apply (.pmuEdge k v) s).hart j = s.hart j) ∧ (∀ j, (Act.apply (.pmuEdge k v) s).x j = s.x j) ∧
    (∀ j, (Act.apply (.pmuEdge k v) s).f j = s.f j) ∧ (∀ j, (Act.apply (.pmuEdge k v) s).v j = s.v j) ∧
    (∀ j, (Act.apply (.pmuEdge k v) s).file j = s.file j) ∧ (∀ j, (Act.apply (.pmuEdge k v) s).l1iSlot j = s.l1iSlot j) ∧
    (∀ j, (Act.apply (.pmuEdge k v) s).l1dSlot j = s.l1dSlot j) ∧ (∀ j, (Act.apply (.pmuEdge k v) s).l2Slot j = s.l2Slot j) ∧
    (∀ j, (Act.apply (.pmuEdge k v) s).l3Slot j = s.l3Slot j) ∧ (∀ j, (Act.apply (.pmuEdge k v) s).plruBits j = s.plruBits j) ∧
    (∀ j, (Act.apply (.pmuEdge k v) s).tile j = s.tile j) ∧ (∀ j, (Act.apply (.pmuEdge k v) s).quad j = s.quad j) ∧
    (∀ j, (Act.apply (.pmuEdge k v) s).seq j = s.seq j) ∧ (∀ j, (Act.apply (.pmuEdge k v) s).queue j = s.queue j) ∧
    (∀ j, (Act.apply (.pmuEdge k v) s).slice j = s.slice j) ∧ (∀ j, (Act.apply (.pmuEdge k v) s).filtEntry j = s.filtEntry j) ∧
    (∀ j, (Act.apply (.pmuEdge k v) s).limit j = s.limit j) ∧ (∀ j, (Act.apply (.pmuEdge k v) s).aplicDom j = s.aplicDom j) ∧
    (∀ j, (Act.apply (.pmuEdge k v) s).aplicCfg j = s.aplicCfg j) ∧ (∀ j, (Act.apply (.pmuEdge k v) s).dline j = s.dline j) ∧
    (∀ j, (Act.apply (.pmuEdge k v) s).chan j = s.chan j) ∧ (∀ j, (Act.apply (.pmuEdge k v) s).key j = s.key j) ∧
    (∀ j, (Act.apply (.pmuEdge k v) s).rx j = s.rx j) ∧ (∀ j, (Act.apply (.pmuEdge k v) s).die j = s.die j) ∧
    (∀ j, (Act.apply (.pmuEdge k v) s).grp j = s.grp j) ∧ (∀ j, (Act.apply (.pmuEdge k v) s).ecamReg j = s.ecamReg j) ∧
    (∀ j, (Act.apply (.pmuEdge k v) s).msixWord j = s.msixWord j) ∧ (∀ j, (Act.apply (.pmuEdge k v) s).job j = s.job j) ∧
    (∀ j, (Act.apply (.pmuEdge k v) s).fetched_ j = s.fetched_ j) ∧ (∀ j, (Act.apply (.pmuEdge k v) s).moved_ j = s.moved_ j) ∧
    (∀ j, (Act.apply (.pmuEdge k v) s).fnBytes_ j = s.fnBytes_ j) ∧ (∀ j, (Act.apply (.pmuEdge k v) s).leadOf j = s.leadOf j) ∧
    (∀ j, (Act.apply (.pmuEdge k v) s).slotTurn_ j = s.slotTurn_ j) ∧ (∀ j, (Act.apply (.pmuEdge k v) s).aged_ j = s.aged_ j) := by
  and_intros <;> exact fun _ => rfl

@[simp] theorem Act.read_groups (k : Nat) (v : Group) (s : State) :
    (∀ j, (Act.apply (.groups k v) s).hart j = s.hart j) ∧ (∀ j, (Act.apply (.groups k v) s).x j = s.x j) ∧
    (∀ j, (Act.apply (.groups k v) s).f j = s.f j) ∧ (∀ j, (Act.apply (.groups k v) s).v j = s.v j) ∧
    (∀ j, (Act.apply (.groups k v) s).file j = s.file j) ∧ (∀ j, (Act.apply (.groups k v) s).l1iSlot j = s.l1iSlot j) ∧
    (∀ j, (Act.apply (.groups k v) s).l1dSlot j = s.l1dSlot j) ∧ (∀ j, (Act.apply (.groups k v) s).l2Slot j = s.l2Slot j) ∧
    (∀ j, (Act.apply (.groups k v) s).l3Slot j = s.l3Slot j) ∧ (∀ j, (Act.apply (.groups k v) s).plruBits j = s.plruBits j) ∧
    (∀ j, (Act.apply (.groups k v) s).tile j = s.tile j) ∧ (∀ j, (Act.apply (.groups k v) s).quad j = s.quad j) ∧
    (∀ j, (Act.apply (.groups k v) s).seq j = s.seq j) ∧ (∀ j, (Act.apply (.groups k v) s).queue j = s.queue j) ∧
    (∀ j, (Act.apply (.groups k v) s).slice j = s.slice j) ∧ (∀ j, (Act.apply (.groups k v) s).filtEntry j = s.filtEntry j) ∧
    (∀ j, (Act.apply (.groups k v) s).limit j = s.limit j) ∧ (∀ j, (Act.apply (.groups k v) s).aplicDom j = s.aplicDom j) ∧
    (∀ j, (Act.apply (.groups k v) s).aplicCfg j = s.aplicCfg j) ∧ (∀ j, (Act.apply (.groups k v) s).dline j = s.dline j) ∧
    (∀ j, (Act.apply (.groups k v) s).chan j = s.chan j) ∧ (∀ j, (Act.apply (.groups k v) s).key j = s.key j) ∧
    (∀ j, (Act.apply (.groups k v) s).rx j = s.rx j) ∧ (∀ j, (Act.apply (.groups k v) s).die j = s.die j) ∧
    (∀ j, (Act.apply (.groups k v) s).pmuLast j = s.pmuLast j) ∧ (∀ j, (Act.apply (.groups k v) s).ecamReg j = s.ecamReg j) ∧
    (∀ j, (Act.apply (.groups k v) s).msixWord j = s.msixWord j) ∧ (∀ j, (Act.apply (.groups k v) s).job j = s.job j) ∧
    (∀ j, (Act.apply (.groups k v) s).fetched_ j = s.fetched_ j) ∧ (∀ j, (Act.apply (.groups k v) s).moved_ j = s.moved_ j) ∧
    (∀ j, (Act.apply (.groups k v) s).fnBytes_ j = s.fnBytes_ j) ∧ (∀ j, (Act.apply (.groups k v) s).leadOf j = s.leadOf j) ∧
    (∀ j, (Act.apply (.groups k v) s).slotTurn_ j = s.slotTurn_ j) ∧ (∀ j, (Act.apply (.groups k v) s).aged_ j = s.aged_ j) := by
  and_intros <;> exact fun _ => rfl

@[simp] theorem Act.read_ecam (k : Nat) (v : BitVec 32) (s : State) :
    (∀ j, (Act.apply (.ecam k v) s).hart j = s.hart j) ∧ (∀ j, (Act.apply (.ecam k v) s).x j = s.x j) ∧
    (∀ j, (Act.apply (.ecam k v) s).f j = s.f j) ∧ (∀ j, (Act.apply (.ecam k v) s).v j = s.v j) ∧
    (∀ j, (Act.apply (.ecam k v) s).file j = s.file j) ∧ (∀ j, (Act.apply (.ecam k v) s).l1iSlot j = s.l1iSlot j) ∧
    (∀ j, (Act.apply (.ecam k v) s).l1dSlot j = s.l1dSlot j) ∧ (∀ j, (Act.apply (.ecam k v) s).l2Slot j = s.l2Slot j) ∧
    (∀ j, (Act.apply (.ecam k v) s).l3Slot j = s.l3Slot j) ∧ (∀ j, (Act.apply (.ecam k v) s).plruBits j = s.plruBits j) ∧
    (∀ j, (Act.apply (.ecam k v) s).tile j = s.tile j) ∧ (∀ j, (Act.apply (.ecam k v) s).quad j = s.quad j) ∧
    (∀ j, (Act.apply (.ecam k v) s).seq j = s.seq j) ∧ (∀ j, (Act.apply (.ecam k v) s).queue j = s.queue j) ∧
    (∀ j, (Act.apply (.ecam k v) s).slice j = s.slice j) ∧ (∀ j, (Act.apply (.ecam k v) s).filtEntry j = s.filtEntry j) ∧
    (∀ j, (Act.apply (.ecam k v) s).limit j = s.limit j) ∧ (∀ j, (Act.apply (.ecam k v) s).aplicDom j = s.aplicDom j) ∧
    (∀ j, (Act.apply (.ecam k v) s).aplicCfg j = s.aplicCfg j) ∧ (∀ j, (Act.apply (.ecam k v) s).dline j = s.dline j) ∧
    (∀ j, (Act.apply (.ecam k v) s).chan j = s.chan j) ∧ (∀ j, (Act.apply (.ecam k v) s).key j = s.key j) ∧
    (∀ j, (Act.apply (.ecam k v) s).rx j = s.rx j) ∧ (∀ j, (Act.apply (.ecam k v) s).die j = s.die j) ∧
    (∀ j, (Act.apply (.ecam k v) s).pmuLast j = s.pmuLast j) ∧ (∀ j, (Act.apply (.ecam k v) s).grp j = s.grp j) ∧
    (∀ j, (Act.apply (.ecam k v) s).msixWord j = s.msixWord j) ∧ (∀ j, (Act.apply (.ecam k v) s).job j = s.job j) ∧
    (∀ j, (Act.apply (.ecam k v) s).fetched_ j = s.fetched_ j) ∧ (∀ j, (Act.apply (.ecam k v) s).moved_ j = s.moved_ j) ∧
    (∀ j, (Act.apply (.ecam k v) s).fnBytes_ j = s.fnBytes_ j) ∧ (∀ j, (Act.apply (.ecam k v) s).leadOf j = s.leadOf j) ∧
    (∀ j, (Act.apply (.ecam k v) s).slotTurn_ j = s.slotTurn_ j) ∧ (∀ j, (Act.apply (.ecam k v) s).aged_ j = s.aged_ j) := by
  and_intros <;> exact fun _ => rfl

@[simp] theorem Act.read_msix (k : Nat) (v : Word) (s : State) :
    (∀ j, (Act.apply (.msix k v) s).hart j = s.hart j) ∧ (∀ j, (Act.apply (.msix k v) s).x j = s.x j) ∧
    (∀ j, (Act.apply (.msix k v) s).f j = s.f j) ∧ (∀ j, (Act.apply (.msix k v) s).v j = s.v j) ∧
    (∀ j, (Act.apply (.msix k v) s).file j = s.file j) ∧ (∀ j, (Act.apply (.msix k v) s).l1iSlot j = s.l1iSlot j) ∧
    (∀ j, (Act.apply (.msix k v) s).l1dSlot j = s.l1dSlot j) ∧ (∀ j, (Act.apply (.msix k v) s).l2Slot j = s.l2Slot j) ∧
    (∀ j, (Act.apply (.msix k v) s).l3Slot j = s.l3Slot j) ∧ (∀ j, (Act.apply (.msix k v) s).plruBits j = s.plruBits j) ∧
    (∀ j, (Act.apply (.msix k v) s).tile j = s.tile j) ∧ (∀ j, (Act.apply (.msix k v) s).quad j = s.quad j) ∧
    (∀ j, (Act.apply (.msix k v) s).seq j = s.seq j) ∧ (∀ j, (Act.apply (.msix k v) s).queue j = s.queue j) ∧
    (∀ j, (Act.apply (.msix k v) s).slice j = s.slice j) ∧ (∀ j, (Act.apply (.msix k v) s).filtEntry j = s.filtEntry j) ∧
    (∀ j, (Act.apply (.msix k v) s).limit j = s.limit j) ∧ (∀ j, (Act.apply (.msix k v) s).aplicDom j = s.aplicDom j) ∧
    (∀ j, (Act.apply (.msix k v) s).aplicCfg j = s.aplicCfg j) ∧ (∀ j, (Act.apply (.msix k v) s).dline j = s.dline j) ∧
    (∀ j, (Act.apply (.msix k v) s).chan j = s.chan j) ∧ (∀ j, (Act.apply (.msix k v) s).key j = s.key j) ∧
    (∀ j, (Act.apply (.msix k v) s).rx j = s.rx j) ∧ (∀ j, (Act.apply (.msix k v) s).die j = s.die j) ∧
    (∀ j, (Act.apply (.msix k v) s).pmuLast j = s.pmuLast j) ∧ (∀ j, (Act.apply (.msix k v) s).grp j = s.grp j) ∧
    (∀ j, (Act.apply (.msix k v) s).ecamReg j = s.ecamReg j) ∧ (∀ j, (Act.apply (.msix k v) s).job j = s.job j) ∧
    (∀ j, (Act.apply (.msix k v) s).fetched_ j = s.fetched_ j) ∧ (∀ j, (Act.apply (.msix k v) s).moved_ j = s.moved_ j) ∧
    (∀ j, (Act.apply (.msix k v) s).fnBytes_ j = s.fnBytes_ j) ∧ (∀ j, (Act.apply (.msix k v) s).leadOf j = s.leadOf j) ∧
    (∀ j, (Act.apply (.msix k v) s).slotTurn_ j = s.slotTurn_ j) ∧ (∀ j, (Act.apply (.msix k v) s).aged_ j = s.aged_ j) := by
  and_intros <;> exact fun _ => rfl

@[simp] theorem Act.read_jobs (k : Nat) (v : Option (Job)) (s : State) :
    (∀ j, (Act.apply (.jobs k v) s).hart j = s.hart j) ∧ (∀ j, (Act.apply (.jobs k v) s).x j = s.x j) ∧
    (∀ j, (Act.apply (.jobs k v) s).f j = s.f j) ∧ (∀ j, (Act.apply (.jobs k v) s).v j = s.v j) ∧
    (∀ j, (Act.apply (.jobs k v) s).file j = s.file j) ∧ (∀ j, (Act.apply (.jobs k v) s).l1iSlot j = s.l1iSlot j) ∧
    (∀ j, (Act.apply (.jobs k v) s).l1dSlot j = s.l1dSlot j) ∧ (∀ j, (Act.apply (.jobs k v) s).l2Slot j = s.l2Slot j) ∧
    (∀ j, (Act.apply (.jobs k v) s).l3Slot j = s.l3Slot j) ∧ (∀ j, (Act.apply (.jobs k v) s).plruBits j = s.plruBits j) ∧
    (∀ j, (Act.apply (.jobs k v) s).tile j = s.tile j) ∧ (∀ j, (Act.apply (.jobs k v) s).quad j = s.quad j) ∧
    (∀ j, (Act.apply (.jobs k v) s).seq j = s.seq j) ∧ (∀ j, (Act.apply (.jobs k v) s).queue j = s.queue j) ∧
    (∀ j, (Act.apply (.jobs k v) s).slice j = s.slice j) ∧ (∀ j, (Act.apply (.jobs k v) s).filtEntry j = s.filtEntry j) ∧
    (∀ j, (Act.apply (.jobs k v) s).limit j = s.limit j) ∧ (∀ j, (Act.apply (.jobs k v) s).aplicDom j = s.aplicDom j) ∧
    (∀ j, (Act.apply (.jobs k v) s).aplicCfg j = s.aplicCfg j) ∧ (∀ j, (Act.apply (.jobs k v) s).dline j = s.dline j) ∧
    (∀ j, (Act.apply (.jobs k v) s).chan j = s.chan j) ∧ (∀ j, (Act.apply (.jobs k v) s).key j = s.key j) ∧
    (∀ j, (Act.apply (.jobs k v) s).rx j = s.rx j) ∧ (∀ j, (Act.apply (.jobs k v) s).die j = s.die j) ∧
    (∀ j, (Act.apply (.jobs k v) s).pmuLast j = s.pmuLast j) ∧ (∀ j, (Act.apply (.jobs k v) s).grp j = s.grp j) ∧
    (∀ j, (Act.apply (.jobs k v) s).ecamReg j = s.ecamReg j) ∧ (∀ j, (Act.apply (.jobs k v) s).msixWord j = s.msixWord j) ∧
    (∀ j, (Act.apply (.jobs k v) s).fetched_ j = s.fetched_ j) ∧ (∀ j, (Act.apply (.jobs k v) s).moved_ j = s.moved_ j) ∧
    (∀ j, (Act.apply (.jobs k v) s).fnBytes_ j = s.fnBytes_ j) ∧ (∀ j, (Act.apply (.jobs k v) s).leadOf j = s.leadOf j) ∧
    (∀ j, (Act.apply (.jobs k v) s).slotTurn_ j = s.slotTurn_ j) ∧ (∀ j, (Act.apply (.jobs k v) s).aged_ j = s.aged_ j) := by
  and_intros <;> exact fun _ => rfl

@[simp] theorem Act.read_fetched (k : Nat) (v : Option (BitVec 1024)) (s : State) :
    (∀ j, (Act.apply (.fetched k v) s).hart j = s.hart j) ∧ (∀ j, (Act.apply (.fetched k v) s).x j = s.x j) ∧
    (∀ j, (Act.apply (.fetched k v) s).f j = s.f j) ∧ (∀ j, (Act.apply (.fetched k v) s).v j = s.v j) ∧
    (∀ j, (Act.apply (.fetched k v) s).file j = s.file j) ∧ (∀ j, (Act.apply (.fetched k v) s).l1iSlot j = s.l1iSlot j) ∧
    (∀ j, (Act.apply (.fetched k v) s).l1dSlot j = s.l1dSlot j) ∧ (∀ j, (Act.apply (.fetched k v) s).l2Slot j = s.l2Slot j) ∧
    (∀ j, (Act.apply (.fetched k v) s).l3Slot j = s.l3Slot j) ∧ (∀ j, (Act.apply (.fetched k v) s).plruBits j = s.plruBits j) ∧
    (∀ j, (Act.apply (.fetched k v) s).tile j = s.tile j) ∧ (∀ j, (Act.apply (.fetched k v) s).quad j = s.quad j) ∧
    (∀ j, (Act.apply (.fetched k v) s).seq j = s.seq j) ∧ (∀ j, (Act.apply (.fetched k v) s).queue j = s.queue j) ∧
    (∀ j, (Act.apply (.fetched k v) s).slice j = s.slice j) ∧ (∀ j, (Act.apply (.fetched k v) s).filtEntry j = s.filtEntry j) ∧
    (∀ j, (Act.apply (.fetched k v) s).limit j = s.limit j) ∧ (∀ j, (Act.apply (.fetched k v) s).aplicDom j = s.aplicDom j) ∧
    (∀ j, (Act.apply (.fetched k v) s).aplicCfg j = s.aplicCfg j) ∧ (∀ j, (Act.apply (.fetched k v) s).dline j = s.dline j) ∧
    (∀ j, (Act.apply (.fetched k v) s).chan j = s.chan j) ∧ (∀ j, (Act.apply (.fetched k v) s).key j = s.key j) ∧
    (∀ j, (Act.apply (.fetched k v) s).rx j = s.rx j) ∧ (∀ j, (Act.apply (.fetched k v) s).die j = s.die j) ∧
    (∀ j, (Act.apply (.fetched k v) s).pmuLast j = s.pmuLast j) ∧ (∀ j, (Act.apply (.fetched k v) s).grp j = s.grp j) ∧
    (∀ j, (Act.apply (.fetched k v) s).ecamReg j = s.ecamReg j) ∧ (∀ j, (Act.apply (.fetched k v) s).msixWord j = s.msixWord j) ∧
    (∀ j, (Act.apply (.fetched k v) s).job j = s.job j) ∧ (∀ j, (Act.apply (.fetched k v) s).moved_ j = s.moved_ j) ∧
    (∀ j, (Act.apply (.fetched k v) s).fnBytes_ j = s.fnBytes_ j) ∧ (∀ j, (Act.apply (.fetched k v) s).leadOf j = s.leadOf j) ∧
    (∀ j, (Act.apply (.fetched k v) s).slotTurn_ j = s.slotTurn_ j) ∧ (∀ j, (Act.apply (.fetched k v) s).aged_ j = s.aged_ j) := by
  and_intros <;> exact fun _ => rfl

@[simp] theorem Act.read_moved (k : Nat) (v : Nat) (s : State) :
    (∀ j, (Act.apply (.moved k v) s).hart j = s.hart j) ∧ (∀ j, (Act.apply (.moved k v) s).x j = s.x j) ∧
    (∀ j, (Act.apply (.moved k v) s).f j = s.f j) ∧ (∀ j, (Act.apply (.moved k v) s).v j = s.v j) ∧
    (∀ j, (Act.apply (.moved k v) s).file j = s.file j) ∧ (∀ j, (Act.apply (.moved k v) s).l1iSlot j = s.l1iSlot j) ∧
    (∀ j, (Act.apply (.moved k v) s).l1dSlot j = s.l1dSlot j) ∧ (∀ j, (Act.apply (.moved k v) s).l2Slot j = s.l2Slot j) ∧
    (∀ j, (Act.apply (.moved k v) s).l3Slot j = s.l3Slot j) ∧ (∀ j, (Act.apply (.moved k v) s).plruBits j = s.plruBits j) ∧
    (∀ j, (Act.apply (.moved k v) s).tile j = s.tile j) ∧ (∀ j, (Act.apply (.moved k v) s).quad j = s.quad j) ∧
    (∀ j, (Act.apply (.moved k v) s).seq j = s.seq j) ∧ (∀ j, (Act.apply (.moved k v) s).queue j = s.queue j) ∧
    (∀ j, (Act.apply (.moved k v) s).slice j = s.slice j) ∧ (∀ j, (Act.apply (.moved k v) s).filtEntry j = s.filtEntry j) ∧
    (∀ j, (Act.apply (.moved k v) s).limit j = s.limit j) ∧ (∀ j, (Act.apply (.moved k v) s).aplicDom j = s.aplicDom j) ∧
    (∀ j, (Act.apply (.moved k v) s).aplicCfg j = s.aplicCfg j) ∧ (∀ j, (Act.apply (.moved k v) s).dline j = s.dline j) ∧
    (∀ j, (Act.apply (.moved k v) s).chan j = s.chan j) ∧ (∀ j, (Act.apply (.moved k v) s).key j = s.key j) ∧
    (∀ j, (Act.apply (.moved k v) s).rx j = s.rx j) ∧ (∀ j, (Act.apply (.moved k v) s).die j = s.die j) ∧
    (∀ j, (Act.apply (.moved k v) s).pmuLast j = s.pmuLast j) ∧ (∀ j, (Act.apply (.moved k v) s).grp j = s.grp j) ∧
    (∀ j, (Act.apply (.moved k v) s).ecamReg j = s.ecamReg j) ∧ (∀ j, (Act.apply (.moved k v) s).msixWord j = s.msixWord j) ∧
    (∀ j, (Act.apply (.moved k v) s).job j = s.job j) ∧ (∀ j, (Act.apply (.moved k v) s).fetched_ j = s.fetched_ j) ∧
    (∀ j, (Act.apply (.moved k v) s).fnBytes_ j = s.fnBytes_ j) ∧ (∀ j, (Act.apply (.moved k v) s).leadOf j = s.leadOf j) ∧
    (∀ j, (Act.apply (.moved k v) s).slotTurn_ j = s.slotTurn_ j) ∧ (∀ j, (Act.apply (.moved k v) s).aged_ j = s.aged_ j) := by
  and_intros <;> exact fun _ => rfl

@[simp] theorem Act.read_fnBytes (k : Nat) (v : Nat) (s : State) :
    (∀ j, (Act.apply (.fnBytes k v) s).hart j = s.hart j) ∧ (∀ j, (Act.apply (.fnBytes k v) s).x j = s.x j) ∧
    (∀ j, (Act.apply (.fnBytes k v) s).f j = s.f j) ∧ (∀ j, (Act.apply (.fnBytes k v) s).v j = s.v j) ∧
    (∀ j, (Act.apply (.fnBytes k v) s).file j = s.file j) ∧ (∀ j, (Act.apply (.fnBytes k v) s).l1iSlot j = s.l1iSlot j) ∧
    (∀ j, (Act.apply (.fnBytes k v) s).l1dSlot j = s.l1dSlot j) ∧ (∀ j, (Act.apply (.fnBytes k v) s).l2Slot j = s.l2Slot j) ∧
    (∀ j, (Act.apply (.fnBytes k v) s).l3Slot j = s.l3Slot j) ∧ (∀ j, (Act.apply (.fnBytes k v) s).plruBits j = s.plruBits j) ∧
    (∀ j, (Act.apply (.fnBytes k v) s).tile j = s.tile j) ∧ (∀ j, (Act.apply (.fnBytes k v) s).quad j = s.quad j) ∧
    (∀ j, (Act.apply (.fnBytes k v) s).seq j = s.seq j) ∧ (∀ j, (Act.apply (.fnBytes k v) s).queue j = s.queue j) ∧
    (∀ j, (Act.apply (.fnBytes k v) s).slice j = s.slice j) ∧ (∀ j, (Act.apply (.fnBytes k v) s).filtEntry j = s.filtEntry j) ∧
    (∀ j, (Act.apply (.fnBytes k v) s).limit j = s.limit j) ∧ (∀ j, (Act.apply (.fnBytes k v) s).aplicDom j = s.aplicDom j) ∧
    (∀ j, (Act.apply (.fnBytes k v) s).aplicCfg j = s.aplicCfg j) ∧ (∀ j, (Act.apply (.fnBytes k v) s).dline j = s.dline j) ∧
    (∀ j, (Act.apply (.fnBytes k v) s).chan j = s.chan j) ∧ (∀ j, (Act.apply (.fnBytes k v) s).key j = s.key j) ∧
    (∀ j, (Act.apply (.fnBytes k v) s).rx j = s.rx j) ∧ (∀ j, (Act.apply (.fnBytes k v) s).die j = s.die j) ∧
    (∀ j, (Act.apply (.fnBytes k v) s).pmuLast j = s.pmuLast j) ∧ (∀ j, (Act.apply (.fnBytes k v) s).grp j = s.grp j) ∧
    (∀ j, (Act.apply (.fnBytes k v) s).ecamReg j = s.ecamReg j) ∧ (∀ j, (Act.apply (.fnBytes k v) s).msixWord j = s.msixWord j) ∧
    (∀ j, (Act.apply (.fnBytes k v) s).job j = s.job j) ∧ (∀ j, (Act.apply (.fnBytes k v) s).fetched_ j = s.fetched_ j) ∧
    (∀ j, (Act.apply (.fnBytes k v) s).moved_ j = s.moved_ j) ∧ (∀ j, (Act.apply (.fnBytes k v) s).leadOf j = s.leadOf j) ∧
    (∀ j, (Act.apply (.fnBytes k v) s).slotTurn_ j = s.slotTurn_ j) ∧ (∀ j, (Act.apply (.fnBytes k v) s).aged_ j = s.aged_ j) := by
  and_intros <;> exact fun _ => rfl

@[simp] theorem Act.read_lead (k : Nat) (v : Nat) (s : State) :
    (∀ j, (Act.apply (.lead k v) s).hart j = s.hart j) ∧ (∀ j, (Act.apply (.lead k v) s).x j = s.x j) ∧
    (∀ j, (Act.apply (.lead k v) s).f j = s.f j) ∧ (∀ j, (Act.apply (.lead k v) s).v j = s.v j) ∧
    (∀ j, (Act.apply (.lead k v) s).file j = s.file j) ∧ (∀ j, (Act.apply (.lead k v) s).l1iSlot j = s.l1iSlot j) ∧
    (∀ j, (Act.apply (.lead k v) s).l1dSlot j = s.l1dSlot j) ∧ (∀ j, (Act.apply (.lead k v) s).l2Slot j = s.l2Slot j) ∧
    (∀ j, (Act.apply (.lead k v) s).l3Slot j = s.l3Slot j) ∧ (∀ j, (Act.apply (.lead k v) s).plruBits j = s.plruBits j) ∧
    (∀ j, (Act.apply (.lead k v) s).tile j = s.tile j) ∧ (∀ j, (Act.apply (.lead k v) s).quad j = s.quad j) ∧
    (∀ j, (Act.apply (.lead k v) s).seq j = s.seq j) ∧ (∀ j, (Act.apply (.lead k v) s).queue j = s.queue j) ∧
    (∀ j, (Act.apply (.lead k v) s).slice j = s.slice j) ∧ (∀ j, (Act.apply (.lead k v) s).filtEntry j = s.filtEntry j) ∧
    (∀ j, (Act.apply (.lead k v) s).limit j = s.limit j) ∧ (∀ j, (Act.apply (.lead k v) s).aplicDom j = s.aplicDom j) ∧
    (∀ j, (Act.apply (.lead k v) s).aplicCfg j = s.aplicCfg j) ∧ (∀ j, (Act.apply (.lead k v) s).dline j = s.dline j) ∧
    (∀ j, (Act.apply (.lead k v) s).chan j = s.chan j) ∧ (∀ j, (Act.apply (.lead k v) s).key j = s.key j) ∧
    (∀ j, (Act.apply (.lead k v) s).rx j = s.rx j) ∧ (∀ j, (Act.apply (.lead k v) s).die j = s.die j) ∧
    (∀ j, (Act.apply (.lead k v) s).pmuLast j = s.pmuLast j) ∧ (∀ j, (Act.apply (.lead k v) s).grp j = s.grp j) ∧
    (∀ j, (Act.apply (.lead k v) s).ecamReg j = s.ecamReg j) ∧ (∀ j, (Act.apply (.lead k v) s).msixWord j = s.msixWord j) ∧
    (∀ j, (Act.apply (.lead k v) s).job j = s.job j) ∧ (∀ j, (Act.apply (.lead k v) s).fetched_ j = s.fetched_ j) ∧
    (∀ j, (Act.apply (.lead k v) s).moved_ j = s.moved_ j) ∧ (∀ j, (Act.apply (.lead k v) s).fnBytes_ j = s.fnBytes_ j) ∧
    (∀ j, (Act.apply (.lead k v) s).slotTurn_ j = s.slotTurn_ j) ∧ (∀ j, (Act.apply (.lead k v) s).aged_ j = s.aged_ j) := by
  and_intros <;> exact fun _ => rfl

@[simp] theorem Act.read_slotTurn (k : Nat) (v : Nat) (s : State) :
    (∀ j, (Act.apply (.slotTurn k v) s).hart j = s.hart j) ∧ (∀ j, (Act.apply (.slotTurn k v) s).x j = s.x j) ∧
    (∀ j, (Act.apply (.slotTurn k v) s).f j = s.f j) ∧ (∀ j, (Act.apply (.slotTurn k v) s).v j = s.v j) ∧
    (∀ j, (Act.apply (.slotTurn k v) s).file j = s.file j) ∧ (∀ j, (Act.apply (.slotTurn k v) s).l1iSlot j = s.l1iSlot j) ∧
    (∀ j, (Act.apply (.slotTurn k v) s).l1dSlot j = s.l1dSlot j) ∧ (∀ j, (Act.apply (.slotTurn k v) s).l2Slot j = s.l2Slot j) ∧
    (∀ j, (Act.apply (.slotTurn k v) s).l3Slot j = s.l3Slot j) ∧ (∀ j, (Act.apply (.slotTurn k v) s).plruBits j = s.plruBits j) ∧
    (∀ j, (Act.apply (.slotTurn k v) s).tile j = s.tile j) ∧ (∀ j, (Act.apply (.slotTurn k v) s).quad j = s.quad j) ∧
    (∀ j, (Act.apply (.slotTurn k v) s).seq j = s.seq j) ∧ (∀ j, (Act.apply (.slotTurn k v) s).queue j = s.queue j) ∧
    (∀ j, (Act.apply (.slotTurn k v) s).slice j = s.slice j) ∧ (∀ j, (Act.apply (.slotTurn k v) s).filtEntry j = s.filtEntry j) ∧
    (∀ j, (Act.apply (.slotTurn k v) s).limit j = s.limit j) ∧ (∀ j, (Act.apply (.slotTurn k v) s).aplicDom j = s.aplicDom j) ∧
    (∀ j, (Act.apply (.slotTurn k v) s).aplicCfg j = s.aplicCfg j) ∧ (∀ j, (Act.apply (.slotTurn k v) s).dline j = s.dline j) ∧
    (∀ j, (Act.apply (.slotTurn k v) s).chan j = s.chan j) ∧ (∀ j, (Act.apply (.slotTurn k v) s).key j = s.key j) ∧
    (∀ j, (Act.apply (.slotTurn k v) s).rx j = s.rx j) ∧ (∀ j, (Act.apply (.slotTurn k v) s).die j = s.die j) ∧
    (∀ j, (Act.apply (.slotTurn k v) s).pmuLast j = s.pmuLast j) ∧ (∀ j, (Act.apply (.slotTurn k v) s).grp j = s.grp j) ∧
    (∀ j, (Act.apply (.slotTurn k v) s).ecamReg j = s.ecamReg j) ∧ (∀ j, (Act.apply (.slotTurn k v) s).msixWord j = s.msixWord j) ∧
    (∀ j, (Act.apply (.slotTurn k v) s).job j = s.job j) ∧ (∀ j, (Act.apply (.slotTurn k v) s).fetched_ j = s.fetched_ j) ∧
    (∀ j, (Act.apply (.slotTurn k v) s).moved_ j = s.moved_ j) ∧ (∀ j, (Act.apply (.slotTurn k v) s).fnBytes_ j = s.fnBytes_ j) ∧
    (∀ j, (Act.apply (.slotTurn k v) s).leadOf j = s.leadOf j) ∧ (∀ j, (Act.apply (.slotTurn k v) s).aged_ j = s.aged_ j) := by
  and_intros <;> exact fun _ => rfl

@[simp] theorem Act.read_aged (k : Nat) (v : Nat) (s : State) :
    (∀ j, (Act.apply (.aged k v) s).hart j = s.hart j) ∧ (∀ j, (Act.apply (.aged k v) s).x j = s.x j) ∧
    (∀ j, (Act.apply (.aged k v) s).f j = s.f j) ∧ (∀ j, (Act.apply (.aged k v) s).v j = s.v j) ∧
    (∀ j, (Act.apply (.aged k v) s).file j = s.file j) ∧ (∀ j, (Act.apply (.aged k v) s).l1iSlot j = s.l1iSlot j) ∧
    (∀ j, (Act.apply (.aged k v) s).l1dSlot j = s.l1dSlot j) ∧ (∀ j, (Act.apply (.aged k v) s).l2Slot j = s.l2Slot j) ∧
    (∀ j, (Act.apply (.aged k v) s).l3Slot j = s.l3Slot j) ∧ (∀ j, (Act.apply (.aged k v) s).plruBits j = s.plruBits j) ∧
    (∀ j, (Act.apply (.aged k v) s).tile j = s.tile j) ∧ (∀ j, (Act.apply (.aged k v) s).quad j = s.quad j) ∧
    (∀ j, (Act.apply (.aged k v) s).seq j = s.seq j) ∧ (∀ j, (Act.apply (.aged k v) s).queue j = s.queue j) ∧
    (∀ j, (Act.apply (.aged k v) s).slice j = s.slice j) ∧ (∀ j, (Act.apply (.aged k v) s).filtEntry j = s.filtEntry j) ∧
    (∀ j, (Act.apply (.aged k v) s).limit j = s.limit j) ∧ (∀ j, (Act.apply (.aged k v) s).aplicDom j = s.aplicDom j) ∧
    (∀ j, (Act.apply (.aged k v) s).aplicCfg j = s.aplicCfg j) ∧ (∀ j, (Act.apply (.aged k v) s).dline j = s.dline j) ∧
    (∀ j, (Act.apply (.aged k v) s).chan j = s.chan j) ∧ (∀ j, (Act.apply (.aged k v) s).key j = s.key j) ∧
    (∀ j, (Act.apply (.aged k v) s).rx j = s.rx j) ∧ (∀ j, (Act.apply (.aged k v) s).die j = s.die j) ∧
    (∀ j, (Act.apply (.aged k v) s).pmuLast j = s.pmuLast j) ∧ (∀ j, (Act.apply (.aged k v) s).grp j = s.grp j) ∧
    (∀ j, (Act.apply (.aged k v) s).ecamReg j = s.ecamReg j) ∧ (∀ j, (Act.apply (.aged k v) s).msixWord j = s.msixWord j) ∧
    (∀ j, (Act.apply (.aged k v) s).job j = s.job j) ∧ (∀ j, (Act.apply (.aged k v) s).fetched_ j = s.fetched_ j) ∧
    (∀ j, (Act.apply (.aged k v) s).moved_ j = s.moved_ j) ∧ (∀ j, (Act.apply (.aged k v) s).fnBytes_ j = s.fnBytes_ j) ∧
    (∀ j, (Act.apply (.aged k v) s).leadOf j = s.leadOf j) ∧ (∀ j, (Act.apply (.aged k v) s).slotTurn_ j = s.slotTurn_ j) := by
  and_intros <;> exact fun _ => rfl

@[simp] theorem Act.read_iommu (v : Iommu) (s : State) :
    (∀ j, (Act.apply (.iommu v) s).hart j = s.hart j) ∧ (∀ j, (Act.apply (.iommu v) s).x j = s.x j) ∧
    (∀ j, (Act.apply (.iommu v) s).f j = s.f j) ∧ (∀ j, (Act.apply (.iommu v) s).v j = s.v j) ∧
    (∀ j, (Act.apply (.iommu v) s).file j = s.file j) ∧ (∀ j, (Act.apply (.iommu v) s).l1iSlot j = s.l1iSlot j) ∧
    (∀ j, (Act.apply (.iommu v) s).l1dSlot j = s.l1dSlot j) ∧ (∀ j, (Act.apply (.iommu v) s).l2Slot j = s.l2Slot j) ∧
    (∀ j, (Act.apply (.iommu v) s).l3Slot j = s.l3Slot j) ∧ (∀ j, (Act.apply (.iommu v) s).plruBits j = s.plruBits j) ∧
    (∀ j, (Act.apply (.iommu v) s).tile j = s.tile j) ∧ (∀ j, (Act.apply (.iommu v) s).quad j = s.quad j) ∧
    (∀ j, (Act.apply (.iommu v) s).seq j = s.seq j) ∧ (∀ j, (Act.apply (.iommu v) s).queue j = s.queue j) ∧
    (∀ j, (Act.apply (.iommu v) s).slice j = s.slice j) ∧ (∀ j, (Act.apply (.iommu v) s).filtEntry j = s.filtEntry j) ∧
    (∀ j, (Act.apply (.iommu v) s).limit j = s.limit j) ∧ (∀ j, (Act.apply (.iommu v) s).aplicDom j = s.aplicDom j) ∧
    (∀ j, (Act.apply (.iommu v) s).aplicCfg j = s.aplicCfg j) ∧ (∀ j, (Act.apply (.iommu v) s).dline j = s.dline j) ∧
    (∀ j, (Act.apply (.iommu v) s).chan j = s.chan j) ∧ (∀ j, (Act.apply (.iommu v) s).key j = s.key j) ∧
    (∀ j, (Act.apply (.iommu v) s).rx j = s.rx j) ∧ (∀ j, (Act.apply (.iommu v) s).die j = s.die j) ∧
    (∀ j, (Act.apply (.iommu v) s).pmuLast j = s.pmuLast j) ∧ (∀ j, (Act.apply (.iommu v) s).grp j = s.grp j) ∧
    (∀ j, (Act.apply (.iommu v) s).ecamReg j = s.ecamReg j) ∧ (∀ j, (Act.apply (.iommu v) s).msixWord j = s.msixWord j) ∧
    (∀ j, (Act.apply (.iommu v) s).job j = s.job j) ∧ (∀ j, (Act.apply (.iommu v) s).fetched_ j = s.fetched_ j) ∧
    (∀ j, (Act.apply (.iommu v) s).moved_ j = s.moved_ j) ∧ (∀ j, (Act.apply (.iommu v) s).fnBytes_ j = s.fnBytes_ j) ∧
    (∀ j, (Act.apply (.iommu v) s).leadOf j = s.leadOf j) ∧ (∀ j, (Act.apply (.iommu v) s).slotTurn_ j = s.slotTurn_ j) ∧
    (∀ j, (Act.apply (.iommu v) s).aged_ j = s.aged_ j) := by
  and_intros <;> exact fun _ => rfl

@[simp] theorem Act.read_fox (v : Fox) (s : State) :
    (∀ j, (Act.apply (.fox v) s).hart j = s.hart j) ∧ (∀ j, (Act.apply (.fox v) s).x j = s.x j) ∧
    (∀ j, (Act.apply (.fox v) s).f j = s.f j) ∧ (∀ j, (Act.apply (.fox v) s).v j = s.v j) ∧
    (∀ j, (Act.apply (.fox v) s).file j = s.file j) ∧ (∀ j, (Act.apply (.fox v) s).l1iSlot j = s.l1iSlot j) ∧
    (∀ j, (Act.apply (.fox v) s).l1dSlot j = s.l1dSlot j) ∧ (∀ j, (Act.apply (.fox v) s).l2Slot j = s.l2Slot j) ∧
    (∀ j, (Act.apply (.fox v) s).l3Slot j = s.l3Slot j) ∧ (∀ j, (Act.apply (.fox v) s).plruBits j = s.plruBits j) ∧
    (∀ j, (Act.apply (.fox v) s).tile j = s.tile j) ∧ (∀ j, (Act.apply (.fox v) s).quad j = s.quad j) ∧
    (∀ j, (Act.apply (.fox v) s).seq j = s.seq j) ∧ (∀ j, (Act.apply (.fox v) s).queue j = s.queue j) ∧
    (∀ j, (Act.apply (.fox v) s).slice j = s.slice j) ∧ (∀ j, (Act.apply (.fox v) s).filtEntry j = s.filtEntry j) ∧
    (∀ j, (Act.apply (.fox v) s).limit j = s.limit j) ∧ (∀ j, (Act.apply (.fox v) s).aplicDom j = s.aplicDom j) ∧
    (∀ j, (Act.apply (.fox v) s).aplicCfg j = s.aplicCfg j) ∧ (∀ j, (Act.apply (.fox v) s).dline j = s.dline j) ∧
    (∀ j, (Act.apply (.fox v) s).chan j = s.chan j) ∧ (∀ j, (Act.apply (.fox v) s).key j = s.key j) ∧
    (∀ j, (Act.apply (.fox v) s).rx j = s.rx j) ∧ (∀ j, (Act.apply (.fox v) s).die j = s.die j) ∧
    (∀ j, (Act.apply (.fox v) s).pmuLast j = s.pmuLast j) ∧ (∀ j, (Act.apply (.fox v) s).grp j = s.grp j) ∧
    (∀ j, (Act.apply (.fox v) s).ecamReg j = s.ecamReg j) ∧ (∀ j, (Act.apply (.fox v) s).msixWord j = s.msixWord j) ∧
    (∀ j, (Act.apply (.fox v) s).job j = s.job j) ∧ (∀ j, (Act.apply (.fox v) s).fetched_ j = s.fetched_ j) ∧
    (∀ j, (Act.apply (.fox v) s).moved_ j = s.moved_ j) ∧ (∀ j, (Act.apply (.fox v) s).fnBytes_ j = s.fnBytes_ j) ∧
    (∀ j, (Act.apply (.fox v) s).leadOf j = s.leadOf j) ∧ (∀ j, (Act.apply (.fox v) s).slotTurn_ j = s.slotTurn_ j) ∧
    (∀ j, (Act.apply (.fox v) s).aged_ j = s.aged_ j) := by
  and_intros <;> exact fun _ => rfl

@[simp] theorem Act.read_weir (v : Weir) (s : State) :
    (∀ j, (Act.apply (.weir v) s).hart j = s.hart j) ∧ (∀ j, (Act.apply (.weir v) s).x j = s.x j) ∧
    (∀ j, (Act.apply (.weir v) s).f j = s.f j) ∧ (∀ j, (Act.apply (.weir v) s).v j = s.v j) ∧
    (∀ j, (Act.apply (.weir v) s).file j = s.file j) ∧ (∀ j, (Act.apply (.weir v) s).l1iSlot j = s.l1iSlot j) ∧
    (∀ j, (Act.apply (.weir v) s).l1dSlot j = s.l1dSlot j) ∧ (∀ j, (Act.apply (.weir v) s).l2Slot j = s.l2Slot j) ∧
    (∀ j, (Act.apply (.weir v) s).l3Slot j = s.l3Slot j) ∧ (∀ j, (Act.apply (.weir v) s).plruBits j = s.plruBits j) ∧
    (∀ j, (Act.apply (.weir v) s).tile j = s.tile j) ∧ (∀ j, (Act.apply (.weir v) s).quad j = s.quad j) ∧
    (∀ j, (Act.apply (.weir v) s).seq j = s.seq j) ∧ (∀ j, (Act.apply (.weir v) s).queue j = s.queue j) ∧
    (∀ j, (Act.apply (.weir v) s).slice j = s.slice j) ∧ (∀ j, (Act.apply (.weir v) s).filtEntry j = s.filtEntry j) ∧
    (∀ j, (Act.apply (.weir v) s).limit j = s.limit j) ∧ (∀ j, (Act.apply (.weir v) s).aplicDom j = s.aplicDom j) ∧
    (∀ j, (Act.apply (.weir v) s).aplicCfg j = s.aplicCfg j) ∧ (∀ j, (Act.apply (.weir v) s).dline j = s.dline j) ∧
    (∀ j, (Act.apply (.weir v) s).chan j = s.chan j) ∧ (∀ j, (Act.apply (.weir v) s).key j = s.key j) ∧
    (∀ j, (Act.apply (.weir v) s).rx j = s.rx j) ∧ (∀ j, (Act.apply (.weir v) s).die j = s.die j) ∧
    (∀ j, (Act.apply (.weir v) s).pmuLast j = s.pmuLast j) ∧ (∀ j, (Act.apply (.weir v) s).grp j = s.grp j) ∧
    (∀ j, (Act.apply (.weir v) s).ecamReg j = s.ecamReg j) ∧ (∀ j, (Act.apply (.weir v) s).msixWord j = s.msixWord j) ∧
    (∀ j, (Act.apply (.weir v) s).job j = s.job j) ∧ (∀ j, (Act.apply (.weir v) s).fetched_ j = s.fetched_ j) ∧
    (∀ j, (Act.apply (.weir v) s).moved_ j = s.moved_ j) ∧ (∀ j, (Act.apply (.weir v) s).fnBytes_ j = s.fnBytes_ j) ∧
    (∀ j, (Act.apply (.weir v) s).leadOf j = s.leadOf j) ∧ (∀ j, (Act.apply (.weir v) s).slotTurn_ j = s.slotTurn_ j) ∧
    (∀ j, (Act.apply (.weir v) s).aged_ j = s.aged_ j) := by
  and_intros <;> exact fun _ => rfl

@[simp] theorem Act.read_wdog (v : Option Nat) (s : State) :
    (∀ j, (Act.apply (.wdog v) s).hart j = s.hart j) ∧ (∀ j, (Act.apply (.wdog v) s).x j = s.x j) ∧
    (∀ j, (Act.apply (.wdog v) s).f j = s.f j) ∧ (∀ j, (Act.apply (.wdog v) s).v j = s.v j) ∧
    (∀ j, (Act.apply (.wdog v) s).file j = s.file j) ∧ (∀ j, (Act.apply (.wdog v) s).l1iSlot j = s.l1iSlot j) ∧
    (∀ j, (Act.apply (.wdog v) s).l1dSlot j = s.l1dSlot j) ∧ (∀ j, (Act.apply (.wdog v) s).l2Slot j = s.l2Slot j) ∧
    (∀ j, (Act.apply (.wdog v) s).l3Slot j = s.l3Slot j) ∧ (∀ j, (Act.apply (.wdog v) s).plruBits j = s.plruBits j) ∧
    (∀ j, (Act.apply (.wdog v) s).tile j = s.tile j) ∧ (∀ j, (Act.apply (.wdog v) s).quad j = s.quad j) ∧
    (∀ j, (Act.apply (.wdog v) s).seq j = s.seq j) ∧ (∀ j, (Act.apply (.wdog v) s).queue j = s.queue j) ∧
    (∀ j, (Act.apply (.wdog v) s).slice j = s.slice j) ∧ (∀ j, (Act.apply (.wdog v) s).filtEntry j = s.filtEntry j) ∧
    (∀ j, (Act.apply (.wdog v) s).limit j = s.limit j) ∧ (∀ j, (Act.apply (.wdog v) s).aplicDom j = s.aplicDom j) ∧
    (∀ j, (Act.apply (.wdog v) s).aplicCfg j = s.aplicCfg j) ∧ (∀ j, (Act.apply (.wdog v) s).dline j = s.dline j) ∧
    (∀ j, (Act.apply (.wdog v) s).chan j = s.chan j) ∧ (∀ j, (Act.apply (.wdog v) s).key j = s.key j) ∧
    (∀ j, (Act.apply (.wdog v) s).rx j = s.rx j) ∧ (∀ j, (Act.apply (.wdog v) s).die j = s.die j) ∧
    (∀ j, (Act.apply (.wdog v) s).pmuLast j = s.pmuLast j) ∧ (∀ j, (Act.apply (.wdog v) s).grp j = s.grp j) ∧
    (∀ j, (Act.apply (.wdog v) s).ecamReg j = s.ecamReg j) ∧ (∀ j, (Act.apply (.wdog v) s).msixWord j = s.msixWord j) ∧
    (∀ j, (Act.apply (.wdog v) s).job j = s.job j) ∧ (∀ j, (Act.apply (.wdog v) s).fetched_ j = s.fetched_ j) ∧
    (∀ j, (Act.apply (.wdog v) s).moved_ j = s.moved_ j) ∧ (∀ j, (Act.apply (.wdog v) s).fnBytes_ j = s.fnBytes_ j) ∧
    (∀ j, (Act.apply (.wdog v) s).leadOf j = s.leadOf j) ∧ (∀ j, (Act.apply (.wdog v) s).slotTurn_ j = s.slotTurn_ j) ∧
    (∀ j, (Act.apply (.wdog v) s).aged_ j = s.aged_ j) := by
  and_intros <;> exact fun _ => rfl

@[simp] theorem Act.read_pins (v : Pins) (s : State) :
    (∀ j, (Act.apply (.pins v) s).hart j = s.hart j) ∧ (∀ j, (Act.apply (.pins v) s).x j = s.x j) ∧
    (∀ j, (Act.apply (.pins v) s).f j = s.f j) ∧ (∀ j, (Act.apply (.pins v) s).v j = s.v j) ∧
    (∀ j, (Act.apply (.pins v) s).file j = s.file j) ∧ (∀ j, (Act.apply (.pins v) s).l1iSlot j = s.l1iSlot j) ∧
    (∀ j, (Act.apply (.pins v) s).l1dSlot j = s.l1dSlot j) ∧ (∀ j, (Act.apply (.pins v) s).l2Slot j = s.l2Slot j) ∧
    (∀ j, (Act.apply (.pins v) s).l3Slot j = s.l3Slot j) ∧ (∀ j, (Act.apply (.pins v) s).plruBits j = s.plruBits j) ∧
    (∀ j, (Act.apply (.pins v) s).tile j = s.tile j) ∧ (∀ j, (Act.apply (.pins v) s).quad j = s.quad j) ∧
    (∀ j, (Act.apply (.pins v) s).seq j = s.seq j) ∧ (∀ j, (Act.apply (.pins v) s).queue j = s.queue j) ∧
    (∀ j, (Act.apply (.pins v) s).slice j = s.slice j) ∧ (∀ j, (Act.apply (.pins v) s).filtEntry j = s.filtEntry j) ∧
    (∀ j, (Act.apply (.pins v) s).limit j = s.limit j) ∧ (∀ j, (Act.apply (.pins v) s).aplicDom j = s.aplicDom j) ∧
    (∀ j, (Act.apply (.pins v) s).aplicCfg j = s.aplicCfg j) ∧ (∀ j, (Act.apply (.pins v) s).dline j = s.dline j) ∧
    (∀ j, (Act.apply (.pins v) s).chan j = s.chan j) ∧ (∀ j, (Act.apply (.pins v) s).key j = s.key j) ∧
    (∀ j, (Act.apply (.pins v) s).rx j = s.rx j) ∧ (∀ j, (Act.apply (.pins v) s).die j = s.die j) ∧
    (∀ j, (Act.apply (.pins v) s).pmuLast j = s.pmuLast j) ∧ (∀ j, (Act.apply (.pins v) s).grp j = s.grp j) ∧
    (∀ j, (Act.apply (.pins v) s).ecamReg j = s.ecamReg j) ∧ (∀ j, (Act.apply (.pins v) s).msixWord j = s.msixWord j) ∧
    (∀ j, (Act.apply (.pins v) s).job j = s.job j) ∧ (∀ j, (Act.apply (.pins v) s).fetched_ j = s.fetched_ j) ∧
    (∀ j, (Act.apply (.pins v) s).moved_ j = s.moved_ j) ∧ (∀ j, (Act.apply (.pins v) s).fnBytes_ j = s.fnBytes_ j) ∧
    (∀ j, (Act.apply (.pins v) s).leadOf j = s.leadOf j) ∧ (∀ j, (Act.apply (.pins v) s).slotTurn_ j = s.slotTurn_ j) ∧
    (∀ j, (Act.apply (.pins v) s).aged_ j = s.aged_ j) := by
  and_intros <;> exact fun _ => rfl

@[simp] theorem Act.read_net (v : List Msg) (s : State) :
    (∀ j, (Act.apply (.net v) s).hart j = s.hart j) ∧ (∀ j, (Act.apply (.net v) s).x j = s.x j) ∧
    (∀ j, (Act.apply (.net v) s).f j = s.f j) ∧ (∀ j, (Act.apply (.net v) s).v j = s.v j) ∧
    (∀ j, (Act.apply (.net v) s).file j = s.file j) ∧ (∀ j, (Act.apply (.net v) s).l1iSlot j = s.l1iSlot j) ∧
    (∀ j, (Act.apply (.net v) s).l1dSlot j = s.l1dSlot j) ∧ (∀ j, (Act.apply (.net v) s).l2Slot j = s.l2Slot j) ∧
    (∀ j, (Act.apply (.net v) s).l3Slot j = s.l3Slot j) ∧ (∀ j, (Act.apply (.net v) s).plruBits j = s.plruBits j) ∧
    (∀ j, (Act.apply (.net v) s).tile j = s.tile j) ∧ (∀ j, (Act.apply (.net v) s).quad j = s.quad j) ∧
    (∀ j, (Act.apply (.net v) s).seq j = s.seq j) ∧ (∀ j, (Act.apply (.net v) s).queue j = s.queue j) ∧
    (∀ j, (Act.apply (.net v) s).slice j = s.slice j) ∧ (∀ j, (Act.apply (.net v) s).filtEntry j = s.filtEntry j) ∧
    (∀ j, (Act.apply (.net v) s).limit j = s.limit j) ∧ (∀ j, (Act.apply (.net v) s).aplicDom j = s.aplicDom j) ∧
    (∀ j, (Act.apply (.net v) s).aplicCfg j = s.aplicCfg j) ∧ (∀ j, (Act.apply (.net v) s).dline j = s.dline j) ∧
    (∀ j, (Act.apply (.net v) s).chan j = s.chan j) ∧ (∀ j, (Act.apply (.net v) s).key j = s.key j) ∧
    (∀ j, (Act.apply (.net v) s).rx j = s.rx j) ∧ (∀ j, (Act.apply (.net v) s).die j = s.die j) ∧
    (∀ j, (Act.apply (.net v) s).pmuLast j = s.pmuLast j) ∧ (∀ j, (Act.apply (.net v) s).grp j = s.grp j) ∧
    (∀ j, (Act.apply (.net v) s).ecamReg j = s.ecamReg j) ∧ (∀ j, (Act.apply (.net v) s).msixWord j = s.msixWord j) ∧
    (∀ j, (Act.apply (.net v) s).job j = s.job j) ∧ (∀ j, (Act.apply (.net v) s).fetched_ j = s.fetched_ j) ∧
    (∀ j, (Act.apply (.net v) s).moved_ j = s.moved_ j) ∧ (∀ j, (Act.apply (.net v) s).fnBytes_ j = s.fnBytes_ j) ∧
    (∀ j, (Act.apply (.net v) s).leadOf j = s.leadOf j) ∧ (∀ j, (Act.apply (.net v) s).slotTurn_ j = s.slotTurn_ j) ∧
    (∀ j, (Act.apply (.net v) s).aged_ j = s.aged_ j) := by
  and_intros <;> exact fun _ => rfl

@[simp] theorem Act.read_ops (v : List Op) (s : State) :
    (∀ j, (Act.apply (.ops v) s).hart j = s.hart j) ∧ (∀ j, (Act.apply (.ops v) s).x j = s.x j) ∧
    (∀ j, (Act.apply (.ops v) s).f j = s.f j) ∧ (∀ j, (Act.apply (.ops v) s).v j = s.v j) ∧
    (∀ j, (Act.apply (.ops v) s).file j = s.file j) ∧ (∀ j, (Act.apply (.ops v) s).l1iSlot j = s.l1iSlot j) ∧
    (∀ j, (Act.apply (.ops v) s).l1dSlot j = s.l1dSlot j) ∧ (∀ j, (Act.apply (.ops v) s).l2Slot j = s.l2Slot j) ∧
    (∀ j, (Act.apply (.ops v) s).l3Slot j = s.l3Slot j) ∧ (∀ j, (Act.apply (.ops v) s).plruBits j = s.plruBits j) ∧
    (∀ j, (Act.apply (.ops v) s).tile j = s.tile j) ∧ (∀ j, (Act.apply (.ops v) s).quad j = s.quad j) ∧
    (∀ j, (Act.apply (.ops v) s).seq j = s.seq j) ∧ (∀ j, (Act.apply (.ops v) s).queue j = s.queue j) ∧
    (∀ j, (Act.apply (.ops v) s).slice j = s.slice j) ∧ (∀ j, (Act.apply (.ops v) s).filtEntry j = s.filtEntry j) ∧
    (∀ j, (Act.apply (.ops v) s).limit j = s.limit j) ∧ (∀ j, (Act.apply (.ops v) s).aplicDom j = s.aplicDom j) ∧
    (∀ j, (Act.apply (.ops v) s).aplicCfg j = s.aplicCfg j) ∧ (∀ j, (Act.apply (.ops v) s).dline j = s.dline j) ∧
    (∀ j, (Act.apply (.ops v) s).chan j = s.chan j) ∧ (∀ j, (Act.apply (.ops v) s).key j = s.key j) ∧
    (∀ j, (Act.apply (.ops v) s).rx j = s.rx j) ∧ (∀ j, (Act.apply (.ops v) s).die j = s.die j) ∧
    (∀ j, (Act.apply (.ops v) s).pmuLast j = s.pmuLast j) ∧ (∀ j, (Act.apply (.ops v) s).grp j = s.grp j) ∧
    (∀ j, (Act.apply (.ops v) s).ecamReg j = s.ecamReg j) ∧ (∀ j, (Act.apply (.ops v) s).msixWord j = s.msixWord j) ∧
    (∀ j, (Act.apply (.ops v) s).job j = s.job j) ∧ (∀ j, (Act.apply (.ops v) s).fetched_ j = s.fetched_ j) ∧
    (∀ j, (Act.apply (.ops v) s).moved_ j = s.moved_ j) ∧ (∀ j, (Act.apply (.ops v) s).fnBytes_ j = s.fnBytes_ j) ∧
    (∀ j, (Act.apply (.ops v) s).leadOf j = s.leadOf j) ∧ (∀ j, (Act.apply (.ops v) s).slotTurn_ j = s.slotTurn_ j) ∧
    (∀ j, (Act.apply (.ops v) s).aged_ j = s.aged_ j) := by
  and_intros <;> exact fun _ => rfl

@[simp] theorem Act.read_need (v : Need) (s : State) :
    (∀ j, (Act.apply (.need v) s).hart j = s.hart j) ∧ (∀ j, (Act.apply (.need v) s).x j = s.x j) ∧
    (∀ j, (Act.apply (.need v) s).f j = s.f j) ∧ (∀ j, (Act.apply (.need v) s).v j = s.v j) ∧
    (∀ j, (Act.apply (.need v) s).file j = s.file j) ∧ (∀ j, (Act.apply (.need v) s).l1iSlot j = s.l1iSlot j) ∧
    (∀ j, (Act.apply (.need v) s).l1dSlot j = s.l1dSlot j) ∧ (∀ j, (Act.apply (.need v) s).l2Slot j = s.l2Slot j) ∧
    (∀ j, (Act.apply (.need v) s).l3Slot j = s.l3Slot j) ∧ (∀ j, (Act.apply (.need v) s).plruBits j = s.plruBits j) ∧
    (∀ j, (Act.apply (.need v) s).tile j = s.tile j) ∧ (∀ j, (Act.apply (.need v) s).quad j = s.quad j) ∧
    (∀ j, (Act.apply (.need v) s).seq j = s.seq j) ∧ (∀ j, (Act.apply (.need v) s).queue j = s.queue j) ∧
    (∀ j, (Act.apply (.need v) s).slice j = s.slice j) ∧ (∀ j, (Act.apply (.need v) s).filtEntry j = s.filtEntry j) ∧
    (∀ j, (Act.apply (.need v) s).limit j = s.limit j) ∧ (∀ j, (Act.apply (.need v) s).aplicDom j = s.aplicDom j) ∧
    (∀ j, (Act.apply (.need v) s).aplicCfg j = s.aplicCfg j) ∧ (∀ j, (Act.apply (.need v) s).dline j = s.dline j) ∧
    (∀ j, (Act.apply (.need v) s).chan j = s.chan j) ∧ (∀ j, (Act.apply (.need v) s).key j = s.key j) ∧
    (∀ j, (Act.apply (.need v) s).rx j = s.rx j) ∧ (∀ j, (Act.apply (.need v) s).die j = s.die j) ∧
    (∀ j, (Act.apply (.need v) s).pmuLast j = s.pmuLast j) ∧ (∀ j, (Act.apply (.need v) s).grp j = s.grp j) ∧
    (∀ j, (Act.apply (.need v) s).ecamReg j = s.ecamReg j) ∧ (∀ j, (Act.apply (.need v) s).msixWord j = s.msixWord j) ∧
    (∀ j, (Act.apply (.need v) s).job j = s.job j) ∧ (∀ j, (Act.apply (.need v) s).fetched_ j = s.fetched_ j) ∧
    (∀ j, (Act.apply (.need v) s).moved_ j = s.moved_ j) ∧ (∀ j, (Act.apply (.need v) s).fnBytes_ j = s.fnBytes_ j) ∧
    (∀ j, (Act.apply (.need v) s).leadOf j = s.leadOf j) ∧ (∀ j, (Act.apply (.need v) s).slotTurn_ j = s.slotTurn_ j) ∧
    (∀ j, (Act.apply (.need v) s).aged_ j = s.aged_ j) := by
  and_intros <;> exact fun _ => rfl

@[simp] theorem Act.read_poke (v : List Nat) (s : State) :
    (∀ j, (Act.apply (.poke v) s).hart j = s.hart j) ∧ (∀ j, (Act.apply (.poke v) s).x j = s.x j) ∧
    (∀ j, (Act.apply (.poke v) s).f j = s.f j) ∧ (∀ j, (Act.apply (.poke v) s).v j = s.v j) ∧
    (∀ j, (Act.apply (.poke v) s).file j = s.file j) ∧ (∀ j, (Act.apply (.poke v) s).l1iSlot j = s.l1iSlot j) ∧
    (∀ j, (Act.apply (.poke v) s).l1dSlot j = s.l1dSlot j) ∧ (∀ j, (Act.apply (.poke v) s).l2Slot j = s.l2Slot j) ∧
    (∀ j, (Act.apply (.poke v) s).l3Slot j = s.l3Slot j) ∧ (∀ j, (Act.apply (.poke v) s).plruBits j = s.plruBits j) ∧
    (∀ j, (Act.apply (.poke v) s).tile j = s.tile j) ∧ (∀ j, (Act.apply (.poke v) s).quad j = s.quad j) ∧
    (∀ j, (Act.apply (.poke v) s).seq j = s.seq j) ∧ (∀ j, (Act.apply (.poke v) s).queue j = s.queue j) ∧
    (∀ j, (Act.apply (.poke v) s).slice j = s.slice j) ∧ (∀ j, (Act.apply (.poke v) s).filtEntry j = s.filtEntry j) ∧
    (∀ j, (Act.apply (.poke v) s).limit j = s.limit j) ∧ (∀ j, (Act.apply (.poke v) s).aplicDom j = s.aplicDom j) ∧
    (∀ j, (Act.apply (.poke v) s).aplicCfg j = s.aplicCfg j) ∧ (∀ j, (Act.apply (.poke v) s).dline j = s.dline j) ∧
    (∀ j, (Act.apply (.poke v) s).chan j = s.chan j) ∧ (∀ j, (Act.apply (.poke v) s).key j = s.key j) ∧
    (∀ j, (Act.apply (.poke v) s).rx j = s.rx j) ∧ (∀ j, (Act.apply (.poke v) s).die j = s.die j) ∧
    (∀ j, (Act.apply (.poke v) s).pmuLast j = s.pmuLast j) ∧ (∀ j, (Act.apply (.poke v) s).grp j = s.grp j) ∧
    (∀ j, (Act.apply (.poke v) s).ecamReg j = s.ecamReg j) ∧ (∀ j, (Act.apply (.poke v) s).msixWord j = s.msixWord j) ∧
    (∀ j, (Act.apply (.poke v) s).job j = s.job j) ∧ (∀ j, (Act.apply (.poke v) s).fetched_ j = s.fetched_ j) ∧
    (∀ j, (Act.apply (.poke v) s).moved_ j = s.moved_ j) ∧ (∀ j, (Act.apply (.poke v) s).fnBytes_ j = s.fnBytes_ j) ∧
    (∀ j, (Act.apply (.poke v) s).leadOf j = s.leadOf j) ∧ (∀ j, (Act.apply (.poke v) s).slotTurn_ j = s.slotTurn_ j) ∧
    (∀ j, (Act.apply (.poke v) s).aged_ j = s.aged_ j) := by
  and_intros <;> exact fun _ => rfl

@[simp] theorem Act.read_out (v : List Out) (s : State) :
    (∀ j, (Act.apply (.out v) s).hart j = s.hart j) ∧ (∀ j, (Act.apply (.out v) s).x j = s.x j) ∧
    (∀ j, (Act.apply (.out v) s).f j = s.f j) ∧ (∀ j, (Act.apply (.out v) s).v j = s.v j) ∧
    (∀ j, (Act.apply (.out v) s).file j = s.file j) ∧ (∀ j, (Act.apply (.out v) s).l1iSlot j = s.l1iSlot j) ∧
    (∀ j, (Act.apply (.out v) s).l1dSlot j = s.l1dSlot j) ∧ (∀ j, (Act.apply (.out v) s).l2Slot j = s.l2Slot j) ∧
    (∀ j, (Act.apply (.out v) s).l3Slot j = s.l3Slot j) ∧ (∀ j, (Act.apply (.out v) s).plruBits j = s.plruBits j) ∧
    (∀ j, (Act.apply (.out v) s).tile j = s.tile j) ∧ (∀ j, (Act.apply (.out v) s).quad j = s.quad j) ∧
    (∀ j, (Act.apply (.out v) s).seq j = s.seq j) ∧ (∀ j, (Act.apply (.out v) s).queue j = s.queue j) ∧
    (∀ j, (Act.apply (.out v) s).slice j = s.slice j) ∧ (∀ j, (Act.apply (.out v) s).filtEntry j = s.filtEntry j) ∧
    (∀ j, (Act.apply (.out v) s).limit j = s.limit j) ∧ (∀ j, (Act.apply (.out v) s).aplicDom j = s.aplicDom j) ∧
    (∀ j, (Act.apply (.out v) s).aplicCfg j = s.aplicCfg j) ∧ (∀ j, (Act.apply (.out v) s).dline j = s.dline j) ∧
    (∀ j, (Act.apply (.out v) s).chan j = s.chan j) ∧ (∀ j, (Act.apply (.out v) s).key j = s.key j) ∧
    (∀ j, (Act.apply (.out v) s).rx j = s.rx j) ∧ (∀ j, (Act.apply (.out v) s).die j = s.die j) ∧
    (∀ j, (Act.apply (.out v) s).pmuLast j = s.pmuLast j) ∧ (∀ j, (Act.apply (.out v) s).grp j = s.grp j) ∧
    (∀ j, (Act.apply (.out v) s).ecamReg j = s.ecamReg j) ∧ (∀ j, (Act.apply (.out v) s).msixWord j = s.msixWord j) ∧
    (∀ j, (Act.apply (.out v) s).job j = s.job j) ∧ (∀ j, (Act.apply (.out v) s).fetched_ j = s.fetched_ j) ∧
    (∀ j, (Act.apply (.out v) s).moved_ j = s.moved_ j) ∧ (∀ j, (Act.apply (.out v) s).fnBytes_ j = s.fnBytes_ j) ∧
    (∀ j, (Act.apply (.out v) s).leadOf j = s.leadOf j) ∧ (∀ j, (Act.apply (.out v) s).slotTurn_ j = s.slotTurn_ j) ∧
    (∀ j, (Act.apply (.out v) s).aged_ j = s.aged_ j) := by
  and_intros <;> exact fun _ => rfl

@[simp] theorem Act.read_free (v : Nat) (s : State) :
    (∀ j, (Act.apply (.free v) s).hart j = s.hart j) ∧ (∀ j, (Act.apply (.free v) s).x j = s.x j) ∧
    (∀ j, (Act.apply (.free v) s).f j = s.f j) ∧ (∀ j, (Act.apply (.free v) s).v j = s.v j) ∧
    (∀ j, (Act.apply (.free v) s).file j = s.file j) ∧ (∀ j, (Act.apply (.free v) s).l1iSlot j = s.l1iSlot j) ∧
    (∀ j, (Act.apply (.free v) s).l1dSlot j = s.l1dSlot j) ∧ (∀ j, (Act.apply (.free v) s).l2Slot j = s.l2Slot j) ∧
    (∀ j, (Act.apply (.free v) s).l3Slot j = s.l3Slot j) ∧ (∀ j, (Act.apply (.free v) s).plruBits j = s.plruBits j) ∧
    (∀ j, (Act.apply (.free v) s).tile j = s.tile j) ∧ (∀ j, (Act.apply (.free v) s).quad j = s.quad j) ∧
    (∀ j, (Act.apply (.free v) s).seq j = s.seq j) ∧ (∀ j, (Act.apply (.free v) s).queue j = s.queue j) ∧
    (∀ j, (Act.apply (.free v) s).slice j = s.slice j) ∧ (∀ j, (Act.apply (.free v) s).filtEntry j = s.filtEntry j) ∧
    (∀ j, (Act.apply (.free v) s).limit j = s.limit j) ∧ (∀ j, (Act.apply (.free v) s).aplicDom j = s.aplicDom j) ∧
    (∀ j, (Act.apply (.free v) s).aplicCfg j = s.aplicCfg j) ∧ (∀ j, (Act.apply (.free v) s).dline j = s.dline j) ∧
    (∀ j, (Act.apply (.free v) s).chan j = s.chan j) ∧ (∀ j, (Act.apply (.free v) s).key j = s.key j) ∧
    (∀ j, (Act.apply (.free v) s).rx j = s.rx j) ∧ (∀ j, (Act.apply (.free v) s).die j = s.die j) ∧
    (∀ j, (Act.apply (.free v) s).pmuLast j = s.pmuLast j) ∧ (∀ j, (Act.apply (.free v) s).grp j = s.grp j) ∧
    (∀ j, (Act.apply (.free v) s).ecamReg j = s.ecamReg j) ∧ (∀ j, (Act.apply (.free v) s).msixWord j = s.msixWord j) ∧
    (∀ j, (Act.apply (.free v) s).job j = s.job j) ∧ (∀ j, (Act.apply (.free v) s).fetched_ j = s.fetched_ j) ∧
    (∀ j, (Act.apply (.free v) s).moved_ j = s.moved_ j) ∧ (∀ j, (Act.apply (.free v) s).fnBytes_ j = s.fnBytes_ j) ∧
    (∀ j, (Act.apply (.free v) s).leadOf j = s.leadOf j) ∧ (∀ j, (Act.apply (.free v) s).slotTurn_ j = s.slotTurn_ j) ∧
    (∀ j, (Act.apply (.free v) s).aged_ j = s.aged_ j) := by
  and_intros <;> exact fun _ => rfl

@[simp] theorem Act.same_harts (k j : Nat) (v : Hart) (s : State) : (Act.apply (.harts k v) s).hart j = if j = k then v else s.hart j := by
  split
  · subst_vars; simp [State.hart]
  · rename_i h; simp [State.hart, Sparse.get_upd_other _ _ _ h]

@[simp] theorem Act.same_xs (k j : Nat) (v : Word) (s : State) : (Act.apply (.xs k v) s).x j = if j = k then v else s.x j := by
  split
  · subst_vars; simp [State.x]
  · rename_i h; simp [State.x, Sparse.get_upd_other _ _ _ h]

@[simp] theorem Act.same_fs (k j : Nat) (v : Word) (s : State) : (Act.apply (.fs k v) s).f j = if j = k then v else s.f j := by
  split
  · subst_vars; simp [State.f]
  · rename_i h; simp [State.f, Sparse.get_upd_other _ _ _ h]

@[simp] theorem Act.same_vs (k j : Nat) (v : BitVec 256) (s : State) : (Act.apply (.vs k v) s).v j = if j = k then v else s.v j := by
  split
  · subst_vars; simp [State.v]
  · rename_i h; simp [State.v, Sparse.get_upd_other _ _ _ h]

@[simp] theorem Act.same_imsic (k j : Nat) (v : Imsic) (s : State) : (Act.apply (.imsic k v) s).file j = if j = k then v else s.file j := by
  split
  · subst_vars; simp [State.file]
  · rename_i h; simp [State.file, Sparse.get_upd_other _ _ _ h]

@[simp] theorem Act.same_l1i (k j : Nat) (v : Option (L1Slot)) (s : State) : (Act.apply (.l1i k v) s).l1iSlot j = if j = k then v else s.l1iSlot j := by
  split
  · subst_vars; simp [State.l1iSlot]
  · rename_i h; simp [State.l1iSlot, Sparse.find?_upd_other _ _ h]

@[simp] theorem Act.same_l1d (k j : Nat) (v : Option (L1Slot)) (s : State) : (Act.apply (.l1d k v) s).l1dSlot j = if j = k then v else s.l1dSlot j := by
  split
  · subst_vars; simp [State.l1dSlot]
  · rename_i h; simp [State.l1dSlot, Sparse.find?_upd_other _ _ h]

@[simp] theorem Act.same_l2 (k j : Nat) (v : Option (L2Slot)) (s : State) : (Act.apply (.l2 k v) s).l2Slot j = if j = k then v else s.l2Slot j := by
  split
  · subst_vars; simp [State.l2Slot]
  · rename_i h; simp [State.l2Slot, Sparse.find?_upd_other _ _ h]

@[simp] theorem Act.same_l3 (k j : Nat) (v : Option (L3Slot)) (s : State) : (Act.apply (.l3 k v) s).l3Slot j = if j = k then v else s.l3Slot j := by
  split
  · subst_vars; simp [State.l3Slot]
  · rename_i h; simp [State.l3Slot, Sparse.find?_upd_other _ _ h]

@[simp] theorem Act.same_plru (k j : Nat) (v : Nat) (s : State) : (Act.apply (.plru k v) s).plruBits j = if j = k then v else s.plruBits j := by
  split
  · subst_vars; simp [State.plruBits]
  · rename_i h; simp [State.plruBits, Sparse.get_upd_other _ _ _ h]

@[simp] theorem Act.same_tiles (k j : Nat) (v : Tile) (s : State) : (Act.apply (.tiles k v) s).tile j = if j = k then v else s.tile j := by
  split
  · subst_vars; simp [State.tile]
  · rename_i h; simp [State.tile, Sparse.get_upd_other _ _ _ h]

@[simp] theorem Act.same_quads (k j : Nat) (v : Quad) (s : State) : (Act.apply (.quads k v) s).quad j = if j = k then v else s.quad j := by
  split
  · subst_vars; simp [State.quad]
  · rename_i h; simp [State.quad, Sparse.get_upd_other _ _ _ h]

@[simp] theorem Act.same_seqs (k j : Nat) (v : Nat) (s : State) : (Act.apply (.seqs k v) s).seq j = if j = k then v else s.seq j := by
  split
  · subst_vars; simp [State.seq]
  · rename_i h; simp [State.seq, Sparse.get_upd_other _ _ _ h]

@[simp] theorem Act.same_lineq (k j : Nat) (v : List HReq) (s : State) : (Act.apply (.lineq k v) s).queue j = if j = k then v else s.queue j := by
  split
  · subst_vars; simp [State.queue]
  · rename_i h; simp [State.queue, Sparse.get_upd_other _ _ _ h]

@[simp] theorem Act.same_slices (k j : Nat) (v : Slice) (s : State) : (Act.apply (.slices k v) s).slice j = if j = k then v else s.slice j := by
  split
  · subst_vars; simp [State.slice]
  · rename_i h; simp [State.slice, Sparse.get_upd_other _ _ _ h]

@[simp] theorem Act.same_filt (k j : Nat) (v : Option (FEntry)) (s : State) : (Act.apply (.filt k v) s).filtEntry j = if j = k then v else s.filtEntry j := by
  split
  · subst_vars; simp [State.filtEntry]
  · rename_i h; simp [State.filtEntry, Sparse.find?_upd_other _ _ h]

@[simp] theorem Act.same_limits (k j : Nat) (v : Nat) (s : State) : (Act.apply (.limits k v) s).limit j = if j = k then v else s.limit j := by
  split
  · subst_vars; simp [State.limit]
  · rename_i h; simp [State.limit, Sparse.get_upd_other _ _ _ h]

@[simp] theorem Act.same_aplic (k j : Nat) (v : AplicDom) (s : State) : (Act.apply (.aplic k v) s).aplicDom j = if j = k then v else s.aplicDom j := by
  split
  · subst_vars; simp [State.aplicDom]
  · rename_i h; simp [State.aplicDom, Sparse.get_upd_other _ _ _ h]

@[simp] theorem Act.same_aplicSrc (k j : Nat) (v : AplicSrc) (s : State) : (Act.apply (.aplicSrc k v) s).aplicCfg j = if j = k then v else s.aplicCfg j := by
  split
  · subst_vars; simp [State.aplicCfg]
  · rename_i h; simp [State.aplicCfg, Sparse.get_upd_other _ _ _ h]

@[simp] theorem Act.same_dram (k j : Nat) (v : Option (DLine)) (s : State) : (Act.apply (.dram k v) s).dline j = if j = k then v else s.dline j := by
  split
  · subst_vars; simp [State.dline]
  · rename_i h; simp [State.dline, Sparse.find?_upd_other _ _ h]

@[simp] theorem Act.same_chans (k j : Nat) (v : Chan) (s : State) : (Act.apply (.chans k v) s).chan j = if j = k then v else s.chan j := by
  split
  · subst_vars; simp [State.chan]
  · rename_i h; simp [State.chan, Sparse.get_upd_other _ _ _ h]

@[simp] theorem Act.same_keys (k j : Nat) (v : KeySlot) (s : State) : (Act.apply (.keys k v) s).key j = if j = k then v else s.key j := by
  split
  · subst_vars; simp [State.key]
  · rename_i h; simp [State.key, Sparse.get_upd_other _ _ _ h]

@[simp] theorem Act.same_tbrx (k j : Nat) (v : TbRx) (s : State) : (Act.apply (.tbrx k v) s).rx j = if j = k then v else s.rx j := by
  split
  · subst_vars; simp [State.rx]
  · rename_i h; simp [State.rx, Sparse.get_upd_other _ _ _ h]

@[simp] theorem Act.same_dies (k j : Nat) (v : Die) (s : State) : (Act.apply (.dies k v) s).die j = if j = k then v else s.die j := by
  split
  · subst_vars; simp [State.die]
  · rename_i h; simp [State.die, Sparse.get_upd_other _ _ _ h]

@[simp] theorem Act.same_pmuEdge (k j : Nat) (v : Nat) (s : State) : (Act.apply (.pmuEdge k v) s).pmuLast j = if j = k then v else s.pmuLast j := by
  split
  · subst_vars; simp [State.pmuLast]
  · rename_i h; simp [State.pmuLast, Sparse.get_upd_other _ _ _ h]

@[simp] theorem Act.same_groups (k j : Nat) (v : Group) (s : State) : (Act.apply (.groups k v) s).grp j = if j = k then v else s.grp j := by
  split
  · subst_vars; simp [State.grp]
  · rename_i h; simp [State.grp, Sparse.get_upd_other _ _ _ h]

@[simp] theorem Act.same_ecam (k j : Nat) (v : BitVec 32) (s : State) : (Act.apply (.ecam k v) s).ecamReg j = if j = k then v else s.ecamReg j := by
  split
  · subst_vars; simp [State.ecamReg]
  · rename_i h; simp [State.ecamReg, Sparse.get_upd_other _ _ _ h]

@[simp] theorem Act.same_msix (k j : Nat) (v : Word) (s : State) : (Act.apply (.msix k v) s).msixWord j = if j = k then v else s.msixWord j := by
  split
  · subst_vars; simp [State.msixWord]
  · rename_i h; simp [State.msixWord, Sparse.get_upd_other _ _ _ h]

@[simp] theorem Act.same_jobs (k j : Nat) (v : Option (Job)) (s : State) : (Act.apply (.jobs k v) s).job j = if j = k then v else s.job j := by
  split
  · subst_vars; simp [State.job]
  · rename_i h; simp [State.job, Sparse.find?_upd_other _ _ h]

@[simp] theorem Act.same_fetched (k j : Nat) (v : Option (BitVec 1024)) (s : State) : (Act.apply (.fetched k v) s).fetched_ j = if j = k then v else s.fetched_ j := by
  split
  · subst_vars; simp [State.fetched_]
  · rename_i h; simp [State.fetched_, Sparse.find?_upd_other _ _ h]

@[simp] theorem Act.same_moved (k j : Nat) (v : Nat) (s : State) : (Act.apply (.moved k v) s).moved_ j = if j = k then v else s.moved_ j := by
  split
  · subst_vars; simp [State.moved_]
  · rename_i h; simp [State.moved_, Sparse.get_upd_other _ _ _ h]

@[simp] theorem Act.same_fnBytes (k j : Nat) (v : Nat) (s : State) : (Act.apply (.fnBytes k v) s).fnBytes_ j = if j = k then v else s.fnBytes_ j := by
  split
  · subst_vars; simp [State.fnBytes_]
  · rename_i h; simp [State.fnBytes_, Sparse.get_upd_other _ _ _ h]

@[simp] theorem Act.same_lead (k j : Nat) (v : Nat) (s : State) : (Act.apply (.lead k v) s).leadOf j = if j = k then v else s.leadOf j := by
  split
  · subst_vars; simp [State.leadOf]
  · rename_i h; simp [State.leadOf, Sparse.get_upd_other _ _ _ h]

@[simp] theorem Act.same_slotTurn (k j : Nat) (v : Nat) (s : State) : (Act.apply (.slotTurn k v) s).slotTurn_ j = if j = k then v else s.slotTurn_ j := by
  split
  · subst_vars; simp [State.slotTurn_]
  · rename_i h; simp [State.slotTurn_, Sparse.get_upd_other _ _ _ h]

@[simp] theorem Act.same_aged (k j : Nat) (v : Nat) (s : State) : (Act.apply (.aged k v) s).aged_ j = if j = k then v else s.aged_ j := by
  split
  · subst_vars; simp [State.aged_]
  · rename_i h; simp [State.aged_, Sparse.get_upd_other _ _ _ h]

end Sys2Proof.Machine
end

