-- ==== Sys2Proof/Laws/Settle.lean ====
section
/-! SUPPORT. Settling changes nothing where nothing is left to settle, and what a retired instruction leaves. -/
namespace Sys2Proof.Machine

variable {s0 : State}

theorem Run.settleFence_none (r : Run s0) (k : Nat) (h : ∀ m ∈ r.1.net, r.1.fencedDie m = none) : r.settleFence k = r := by
  cases k with
  | zero => rfl
  | succ k =>
    have : (r.1.net.findSome? fun m => (r.fencedDie m).map fun d => (d, m)) = none := by
      rw [List.findSome?_eq_none_iff]
      intro m hm
      rw [show r.fencedDie m = none from h m hm]
      rfl
    simp only [Run.settleFence, this]

/-- Whether a message is for a die that is not online depends on the registers alone. -/
theorem State.fencedDie_of {s t : State} (h : t.regs = s.regs) (m : Msg) : t.fencedDie m = s.fencedDie m := by
  have o : t.online = s.online := funext fun d => by simp only [State.online, State.fld, State.reg, h]
  unfold State.fencedDie
  rw [o]

/-- A state with the registers, messages and dies of one in which nothing is left to settle. -/
theorem State.still_of {s t : State} (h : s.still) (hx : t.need = {}) (hp : t.poke = []) (hr : t.regs = s.regs) (hn : t.net = s.net) (hd : t.dies = s.dies) :
    t.still := by
  obtain ⟨-, -, n, d⟩ := h
  refine ⟨hx, hp, ?_, hd ▸ d⟩
  intro m hm
  rw [State.fencedDie_of hr]
  exact n m (hn ▸ hm)

/-- A state in which a hart stands as in one in which nothing waits for it. -/
theorem State.undisturbed_of {s t : State} {h : Nat} (u : s.undisturbed h) (hq : t.quads = s.quads)
    (hd : (t.hart h).dbgPend = (s.hart h).dbgPend) (hk : (t.hart h).park = (s.hart h).park) (hp : (t.hart h).pause = (s.hart h).pause)
    (hm : t.csr h 0x304 = s.csr h 0x304) (hw : t.unwatched h) : t.undisturbed h := by
  obtain ⟨a, b, c, d, e, -⟩ := u
  refine ⟨?_, hd ▸ b, hk ▸ c, hp ▸ d, hm ▸ e, hw⟩
  simpa only [State.quad, hq] using a

theorem Run.settleDrops_none (r : Run s0) (h : ∀ e ∈ r.1.dies, e.2.drop ≠ 1) : r.settleDrops = r := by
  unfold Run.settleDrops
  generalize r.1.dies = ds at h
  induction ds with
  | nil => rfl
  | cons e ds ih =>
    rw [List.foldl_cons, if_neg (h e (List.mem_cons_self ..))]
    exact ih fun e he => h e (List.mem_cons_of_mem _ he)

theorem Run.over_eq (r : Run s0) (h : r.1.poke = []) : r.over = r.1 := by
  simp only [Run.over, Run.act_val, Act.apply]
  rw [← h]

theorem Run.settleLoop_nil (r : Run s0) (k : Nat) (h : r.1.poke = []) : (r.settleLoop k).1 = r.1 := by
  cases k with
  | zero => exact Run.over_eq r h
  | succ k => simp [Run.settleLoop, h]

/-- A command that needs no access ends by settling. -/
theorem Run.done_plain (r : Run s0) (hx : r.1.need = {}) : r.done = r.settle.finish := by
  have c : r.commit = r := by rw [Run.commit, if_pos hx]
  rw [Run.done, hx, c]
  simp

/-- Where nothing is left to settle, a command ends with the state as it is. -/
theorem Run.done_still (r : Run s0) (h : r.1.still) : r.done = .next r.1 := by
  obtain ⟨hx, hp, hn, hd⟩ := h
  rw [Run.done_plain r hx]
  simp only [Run.settle, Run.finish_eq]
  rw [Run.settleFence_none r _ hn, Run.settleDrops_none r hd, Run.settleLoop_nil r _ hp]

/-- One hart to look at, for which nothing is to be done. -/
theorem Run.done_poke (r : Run s0) (h : Nat) (hx : r.1.need = {}) (hp : r.1.poke = [h]) (hn : ∀ m ∈ r.1.net, r.1.fencedDie m = none) (hd : ∀ e ∈ r.1.dies, e.2.drop ≠ 1)
    (hh : ((r.act (.poke [])).settleHart h) = r.act (.poke [])) : r.done = .next r.over := by
  have hb : settleBound = 16382 + 1 + 1 := rfl
  rw [Run.done_plain r hx]
  simp only [Run.settle, Run.finish_eq]
  rw [Run.settleFence_none r _ hn, Run.settleDrops_none r hd, hb, Run.settleLoop, hp]
  simp only [hh]
  rw [Run.settleLoop_nil _ _ (by simp)]
  rfl

theorem Run.takes_none (r : Run s0) (h : Nat) (hm : r.1.csr h 0x304 = 0) : r.takes h = none := by
  have e : r.csr h 0x304 = 0 := hm
  have z : ∀ w : Word, (0 : Word) &&& w = 0 := fun w => by simp
  have z' : ∀ w : Word, w &&& (0 : Word) = 0 := fun w => by simp
  unfold Run.takes
  simp only [e, z', z, ite_self]
  split
  · rfl
  · simp

/-- A hart for which nothing waits does nothing of itself. -/
theorem Run.settleHart_idle (r : Run s0) (h : Nat) (u : r.1.undisturbed h) : r.settleHart h = r := by
  obtain ⟨hq, hd, hk, hp, hm, -, ht', -⟩ := u
  have q0 : ∀ q, q ∈ List.range 4 → (r.quad (dieOf (tileOf h) * 4 + q)).waiting.isEmpty = true := fun q hq' => by
    have := hq q (by simpa using hq')
    simp [Run.quad, this]
  have f : (List.range 4).foldl (fun r q => if (r.quad (dieOf (tileOf h) * 4 + q)).waiting.isEmpty then r
      else r.go [.retry (dieOf (tileOf h) * 4 + q)]) r = r := by
    generalize List.range 4 = qs at q0
    induction qs with
    | nil => rfl
    | cons q qs ih =>
      rw [List.foldl_cons, if_pos (q0 q (List.mem_cons_self ..))]
      exact ih fun q hq => q0 q (List.mem_cons_of_mem _ hq)
  have ht : r.hart h = r.1.hart h := rfl
  unfold Run.settleHart
  simp only [f]
  simp only [ht, hd, hk, hp, ht', Run.takes_none r h hm, Bool.false_and, Bool.false_eq_true, if_false]
  split
  · rfl
  · split <;> rfl

theorem hartCsr_ne {h m n : Nat} (e : m ≠ n) : h * 4096 + m ≠ h * 4096 + n := by omega

/-- A CSR as a write leaves it. -/
theorem Run.csr_setCsr_same (r : Run s0) (h n : Nat) (v : Word) : (r.setCsr h n v).1.csr h n = v := by
  simp only [Run.setCsr, Run.act_val, State.csr, Act.apply_csrs, Sparse.find?_upd_same, listed_getD]

theorem Run.csr_setCsr_other (r : Run s0) {h n k m : Nat} (v : Word) (e : k * 4096 + m ≠ h * 4096 + n) :
    (r.setCsr h n v).1.csr k m = r.1.csr k m := by
  simp only [Run.setCsr, Run.act_val, State.csr, Act.apply_csrs, Sparse.find?_upd_other _ _ e]

/-- With no trigger set and no single-stepping, an instruction only moves on. -/
theorem Run.retire_plain (r : Run s0) (h : Nat) (w : r.1.unwatched h) : r.retire h = r.moveOn h := by
  obtain ⟨a, -, c⟩ := w
  have e : ((r.moveOn h).hart h).trigs = [] := by
    simp only [Run.moveOn, Run.pokeHart]
    split <;> split <;> simp_all [Run.tally, Run.modHart, Run.setHart, Run.setCsr, Run.hart]
  have i : (r.moveOn h).icount h = r.moveOn h := by
    unfold Run.icount
    simp only [e, List.isEmpty_nil, if_true]
  have q : ∀ v, (r.setCsr h 0xB02 v).1.csr h 0x7B0 = r.1.csr h 0x7B0 := fun v =>
    Run.csr_setCsr_other _ _ (hartCsr_ne (by decide))
  have k : (r.moveOn h).1.csr h 0x7B0 = r.1.csr h 0x7B0 := by
    simp only [Run.moveOn, Run.pokeHart]
    split <;> split <;> simp_all [Run.tally, Run.modHart, Run.setHart, Run.setCsr, State.csr]
  have g : (r.moveOn h).cb h 0x7B0 2 = false := by
    rw [← c, ← k]
    rfl
  unfold Run.retire
  simp only [i, Run.stepping, g, Bool.false_and, Bool.false_eq_true, if_false]

theorem Run.undisturbed_retire (r : Run s0) (h : Nat) (u : r.1.undisturbed h) :
    ((r.retire h).act (.poke [])).1.undisturbed h := by
  rw [Run.retire_plain r h u.2.2.2.2.2]
  obtain ⟨hq, hd, hk, hp, hm, ha, hb, hc⟩ := u
  have c : ∀ v, (r.setCsr h 0xB02 v).1.csr h 0x304 = 0 := fun v => by
    rw [Run.csr_setCsr_other _ _ (hartCsr_ne (by decide)), hm]
  have c' : ∀ v, (r.setCsr h 0xB02 v).1.csr h 0x7B0 = r.1.csr h 0x7B0 := fun v =>
    Run.csr_setCsr_other _ _ (hartCsr_ne (by decide))
  simp only [Run.moveOn, Run.pokeHart]
  split <;> split <;>
    simp_all [State.undisturbed, State.unwatched, Run.tally, Run.modHart, Run.setHart, Run.setCsr, Run.hart, State.csr]

theorem Run.retire_poke (r : Run s0) (h : Nat) (hp : r.1.poke = []) (w : r.1.unwatched h) : (r.retire h).1.poke = [h] := by
  rw [Run.retire_plain r h w]
  simp only [Run.moveOn, Run.pokeHart]
  split <;> split <;> simp_all [Run.tally, Run.modHart, Run.setHart, Run.setCsr]

theorem Run.retire_keeps (r : Run s0) (h : Nat) (w : r.1.unwatched h) :
    (r.retire h).1.need = r.1.need ∧ (r.retire h).1.regs = r.1.regs ∧ (r.retire h).1.net = r.1.net ∧ (r.retire h).1.dies = r.1.dies := by
  rw [Run.retire_plain r h w]
  simp only [Run.moveOn, Run.pokeHart]
  split <;> split <;> simp_all [Run.tally, Run.modHart, Run.setHart, Run.setCsr]

/-- An instruction that retires, and nothing else: its hart's pc and count move on. -/
theorem Run.done_retire (r : Run s0) (h : Nat) (st : r.1.still) (u : r.1.undisturbed h) :
    (r.retire h).done = .next (r.retire h).over := by
  obtain ⟨hx, hp, hn, hd⟩ := st
  obtain ⟨kx, kr, kn, kd⟩ := Run.retire_keeps r h u.2.2.2.2.2
  refine Run.done_poke _ h (kx.trans hx) (Run.retire_poke r h hp u.2.2.2.2.2) ?_ (kd ▸ hd) (Run.settleHart_idle _ h (Run.undisturbed_retire r h u))
  intro m hm
  rw [State.fencedDie_of kr]
  exact hn m (kn ▸ hm)

end Sys2Proof.Machine
end

