-- ==== Sys2Proof/Laws/Hart.lean ====
section
/-! SUPPORT. A hart's instruction that waits for its stores, where it has none. -/
namespace Sys2Proof.Machine

variable {s0 : State}

theorem Run.startDrain_drained (r : Run s0) (h : Nat) (d : r.1.drained h) : r.startDrain h = r := by
  obtain ⟨a, b, -⟩ := d
  simp [Run.startDrain, Run.drainTile, Run.tile, a, b]

theorem Run.startDrainOf_drained (r : Run s0) (h : Nat) (ls : List LineAddr) (d : r.1.drained h) : r.startDrainOf h ls = r := by
  obtain ⟨a, b, -⟩ := d
  simp [Run.startDrainOf, Run.drainTile, Run.tile, a, b]

theorem Run.storesLeft_drained (r : Run s0) (h : Nat) (ls : Option (List LineAddr)) (d : r.1.drained h) : r.storesLeft h ls = false := by
  obtain ⟨a, b, c⟩ := d
  simp [Run.storesLeft, Run.tile, Run.hart, a, b, c]

theorem Run.go_nil (r : Run s0) : r.go [] = r := by
  have hb : driveBound = 19999 + 1 := rfl
  simp only [Run.go, hb, Run.drive]

/-- With no store left, what was to follow the drain follows at once. -/
theorem Run.after_drained (r : Run s0) (h : Nat) (ls : Option (List LineAddr)) (x : Next) (d : r.1.drained h) :
    r.after h ls x = (r.goOn h x).1.go (r.goOn h x).2 := by
  unfold Run.after
  cases ls <;> simp only [Run.startDrain_drained r h d, Run.startDrainOf_drained r h _ d, Run.storesLeft_drained r h _ d,
    Bool.false_eq_true, if_false]

theorem Run.after_retire (r : Run s0) (h : Nat) (ls : Option (List LineAddr)) (d : r.1.drained h) :
    r.after h ls .retire = r.retire h := by
  rw [Run.after_drained r h ls _ d]
  simp only [Run.goOn, Run.go_nil]

end Sys2Proof.Machine
end

