-- ==== Sys2Proof/Laws/Read.lean ====
section
/-! SUPPORT. What registers, fields and CSRs read after a primitive change, and after a write of a field. -/
namespace Sys2Proof.Machine

variable {s0 : State}

@[simp] theorem Act.show_regs (k : Nat) (v : Option (Word)) (s : State) :
    ∀ h n, (Act.apply (.regs k v) s).csr h n = s.csr h n :=
  fun _ _ => rfl

@[simp] theorem Act.show_harts (k : Nat) (v : Hart) (s : State) :
    (∀ g, (Act.apply (.harts k v) s).reg g = s.reg g) ∧ (∀ f, (Act.apply (.harts k v) s).fld f = s.fld f) ∧ ∀ h n, (Act.apply (.harts k v) s).csr h n = s.csr h n :=
  ⟨fun _ => rfl, fun _ => rfl, fun _ _ => rfl⟩

@[simp] theorem Act.show_xs (k : Nat) (v : Word) (s : State) :
    (∀ g, (Act.apply (.xs k v) s).reg g = s.reg g) ∧ (∀ f, (Act.apply (.xs k v) s).fld f = s.fld f) ∧ ∀ h n, (Act.apply (.xs k v) s).csr h n = s.csr h n :=
  ⟨fun _ => rfl, fun _ => rfl, fun _ _ => rfl⟩

@[simp] theorem Act.show_fs (k : Nat) (v : Word) (s : State) :
    (∀ g, (Act.apply (.fs k v) s).reg g = s.reg g) ∧ (∀ f, (Act.apply (.fs k v) s).fld f = s.fld f) ∧ ∀ h n, (Act.apply (.fs k v) s).csr h n = s.csr h n :=
  ⟨fun _ => rfl, fun _ => rfl, fun _ _ => rfl⟩

@[simp] theorem Act.show_vs (k : Nat) (v : BitVec 256) (s : State) :
    (∀ g, (Act.apply (.vs k v) s).reg g = s.reg g) ∧ (∀ f, (Act.apply (.vs k v) s).fld f = s.fld f) ∧ ∀ h n, (Act.apply (.vs k v) s).csr h n = s.csr h n :=
  ⟨fun _ => rfl, fun _ => rfl, fun _ _ => rfl⟩

@[simp] theorem Act.show_csrs (k : Nat) (v : Option (Word)) (s : State) :
    (∀ g, (Act.apply (.csrs k v) s).reg g = s.reg g) ∧ (∀ f, (Act.apply (.csrs k v) s).fld f = s.fld f) :=
  ⟨fun _ => rfl, fun _ => rfl⟩

@[simp] theorem Act.show_imsic (k : Nat) (v : Imsic) (s : State) :
    (∀ g, (Act.apply (.imsic k v) s).reg g = s.reg g) ∧ (∀ f, (Act.apply (.imsic k v) s).fld f = s.fld f) ∧ ∀ h n, (Act.apply (.imsic k v) s).csr h n = s.csr h n :=
  ⟨fun _ => rfl, fun _ => rfl, fun _ _ => rfl⟩

@[simp] theorem Act.show_l1i (k : Nat) (v : Option (L1Slot)) (s : State) :
    (∀ g, (Act.apply (.l1i k v) s).reg g = s.reg g) ∧ (∀ f, (Act.apply (.l1i k v) s).fld f = s.fld f) ∧ ∀ h n, (Act.apply (.l1i k v) s).csr h n = s.csr h n :=
  ⟨fun _ => rfl, fun _ => rfl, fun _ _ => rfl⟩

@[simp] theorem Act.show_l1d (k : Nat) (v : Option (L1Slot)) (s : State) :
    (∀ g, (Act.apply (.l1d k v) s).reg g = s.reg g) ∧ (∀ f, (Act.apply (.l1d k v) s).fld f = s.fld f) ∧ ∀ h n, (Act.apply (.l1d k v) s).csr h n = s.csr h n :=
  ⟨fun _ => rfl, fun _ => rfl, fun _ _ => rfl⟩

@[simp] theorem Act.show_l2 (k : Nat) (v : Option (L2Slot)) (s : State) :
    (∀ g, (Act.apply (.l2 k v) s).reg g = s.reg g) ∧ (∀ f, (Act.apply (.l2 k v) s).fld f = s.fld f) ∧ ∀ h n, (Act.apply (.l2 k v) s).csr h n = s.csr h n :=
  ⟨fun _ => rfl, fun _ => rfl, fun _ _ => rfl⟩

@[simp] theorem Act.show_l3 (k : Nat) (v : Option (L3Slot)) (s : State) :
    (∀ g, (Act.apply (.l3 k v) s).reg g = s.reg g) ∧ (∀ f, (Act.apply (.l3 k v) s).fld f = s.fld f) ∧ ∀ h n, (Act.apply (.l3 k v) s).csr h n = s.csr h n :=
  ⟨fun _ => rfl, fun _ => rfl, fun _ _ => rfl⟩

@[simp] theorem Act.show_plru (k : Nat) (v : Nat) (s : State) :
    (∀ g, (Act.apply (.plru k v) s).reg g = s.reg g) ∧ (∀ f, (Act.apply (.plru k v) s).fld f = s.fld f) ∧ ∀ h n, (Act.apply (.plru k v) s).csr h n = s.csr h n :=
  ⟨fun _ => rfl, fun _ => rfl, fun _ _ => rfl⟩

@[simp] theorem Act.show_tiles (k : Nat) (v : Tile) (s : State) :
    (∀ g, (Act.apply (.tiles k v) s).reg g = s.reg g) ∧ (∀ f, (Act.apply (.tiles k v) s).fld f = s.fld f) ∧ ∀ h n, (Act.apply (.tiles k v) s).csr h n = s.csr h n :=
  ⟨fun _ => rfl, fun _ => rfl, fun _ _ => rfl⟩

@[simp] theorem Act.show_quads (k : Nat) (v : Quad) (s : State) :
    (∀ g, (Act.apply (.quads k v) s).reg g = s.reg g) ∧ (∀ f, (Act.apply (.quads k v) s).fld f = s.fld f) ∧ ∀ h n, (Act.apply (.quads k v) s).csr h n = s.csr h n :=
  ⟨fun _ => rfl, fun _ => rfl, fun _ _ => rfl⟩

@[simp] theorem Act.show_seqs (k : Nat) (v : Nat) (s : State) :
    (∀ g, (Act.apply (.seqs k v) s).reg g = s.reg g) ∧ (∀ f, (Act.apply (.seqs k v) s).fld f = s.fld f) ∧ ∀ h n, (Act.apply (.seqs k v) s).csr h n = s.csr h n :=
  ⟨fun _ => rfl, fun _ => rfl, fun _ _ => rfl⟩

@[simp] theorem Act.show_lineq (k : Nat) (v : List HReq) (s : State) :
    (∀ g, (Act.apply (.lineq k v) s).reg g = s.reg g) ∧ (∀ f, (Act.apply (.lineq k v) s).fld f = s.fld f) ∧ ∀ h n, (Act.apply (.lineq k v) s).csr h n = s.csr h n :=
  ⟨fun _ => rfl, fun _ => rfl, fun _ _ => rfl⟩

@[simp] theorem Act.show_slices (k : Nat) (v : Slice) (s : State) :
    (∀ g, (Act.apply (.slices k v) s).reg g = s.reg g) ∧ (∀ f, (Act.apply (.slices k v) s).fld f = s.fld f) ∧ ∀ h n, (Act.apply (.slices k v) s).csr h n = s.csr h n :=
  ⟨fun _ => rfl, fun _ => rfl, fun _ _ => rfl⟩

@[simp] theorem Act.show_filt (k : Nat) (v : Option (FEntry)) (s : State) :
    (∀ g, (Act.apply (.filt k v) s).reg g = s.reg g) ∧ (∀ f, (Act.apply (.filt k v) s).fld f = s.fld f) ∧ ∀ h n, (Act.apply (.filt k v) s).csr h n = s.csr h n :=
  ⟨fun _ => rfl, fun _ => rfl, fun _ _ => rfl⟩

@[simp] theorem Act.show_limits (k : Nat) (v : Nat) (s : State) :
    (∀ g, (Act.apply (.limits k v) s).reg g = s.reg g) ∧ (∀ f, (Act.apply (.limits k v) s).fld f = s.fld f) ∧ ∀ h n, (Act.apply (.limits k v) s).csr h n = s.csr h n :=
  ⟨fun _ => rfl, fun _ => rfl, fun _ _ => rfl⟩

@[simp] theorem Act.show_aplic (k : Nat) (v : AplicDom) (s : State) :
    (∀ g, (Act.apply (.aplic k v) s).reg g = s.reg g) ∧ (∀ f, (Act.apply (.aplic k v) s).fld f = s.fld f) ∧ ∀ h n, (Act.apply (.aplic k v) s).csr h n = s.csr h n :=
  ⟨fun _ => rfl, fun _ => rfl, fun _ _ => rfl⟩

@[simp] theorem Act.show_aplicSrc (k : Nat) (v : AplicSrc) (s : State) :
    (∀ g, (Act.apply (.aplicSrc k v) s).reg g = s.reg g) ∧ (∀ f, (Act.apply (.aplicSrc k v) s).fld f = s.fld f) ∧ ∀ h n, (Act.apply (.aplicSrc k v) s).csr h n = s.csr h n :=
  ⟨fun _ => rfl, fun _ => rfl, fun _ _ => rfl⟩

@[simp] theorem Act.show_dram (k : Nat) (v : Option (DLine)) (s : State) :
    (∀ g, (Act.apply (.dram k v) s).reg g = s.reg g) ∧ (∀ f, (Act.apply (.dram k v) s).fld f = s.fld f) ∧ ∀ h n, (Act.apply (.dram k v) s).csr h n = s.csr h n :=
  ⟨fun _ => rfl, fun _ => rfl, fun _ _ => rfl⟩

@[simp] theorem Act.show_chans (k : Nat) (v : Chan) (s : State) :
    (∀ g, (Act.apply (.chans k v) s).reg g = s.reg g) ∧ (∀ f, (Act.apply (.chans k v) s).fld f = s.fld f) ∧ ∀ h n, (Act.apply (.chans k v) s).csr h n = s.csr h n :=
  ⟨fun _ => rfl, fun _ => rfl, fun _ _ => rfl⟩

@[simp] theorem Act.show_keys (k : Nat) (v : KeySlot) (s : State) :
    (∀ g, (Act.apply (.keys k v) s).reg g = s.reg g) ∧ (∀ f, (Act.apply (.keys k v) s).fld f = s.fld f) ∧ ∀ h n, (Act.apply (.keys k v) s).csr h n = s.csr h n :=
  ⟨fun _ => rfl, fun _ => rfl, fun _ _ => rfl⟩

@[simp] theorem Act.show_tbrx (k : Nat) (v : TbRx) (s : State) :
    (∀ g, (Act.apply (.tbrx k v) s).reg g = s.reg g) ∧ (∀ f, (Act.apply (.tbrx k v) s).fld f = s.fld f) ∧ ∀ h n, (Act.apply (.tbrx k v) s).csr h n = s.csr h n :=
  ⟨fun _ => rfl, fun _ => rfl, fun _ _ => rfl⟩

@[simp] theorem Act.show_dies (k : Nat) (v : Die) (s : State) :
    (∀ g, (Act.apply (.dies k v) s).reg g = s.reg g) ∧ (∀ f, (Act.apply (.dies k v) s).fld f = s.fld f) ∧ ∀ h n, (Act.apply (.dies k v) s).csr h n = s.csr h n :=
  ⟨fun _ => rfl, fun _ => rfl, fun _ _ => rfl⟩

@[simp] theorem Act.show_pmuEdge (k : Nat) (v : Nat) (s : State) :
    (∀ g, (Act.apply (.pmuEdge k v) s).reg g = s.reg g) ∧ (∀ f, (Act.apply (.pmuEdge k v) s).fld f = s.fld f) ∧ ∀ h n, (Act.apply (.pmuEdge k v) s).csr h n = s.csr h n :=
  ⟨fun _ => rfl, fun _ => rfl, fun _ _ => rfl⟩

@[simp] theorem Act.show_groups (k : Nat) (v : Group) (s : State) :
    (∀ g, (Act.apply (.groups k v) s).reg g = s.reg g) ∧ (∀ f, (Act.apply (.groups k v) s).fld f = s.fld f) ∧ ∀ h n, (Act.apply (.groups k v) s).csr h n = s.csr h n :=
  ⟨fun _ => rfl, fun _ => rfl, fun _ _ => rfl⟩

@[simp] theorem Act.show_ecam (k : Nat) (v : BitVec 32) (s : State) :
    (∀ g, (Act.apply (.ecam k v) s).reg g = s.reg g) ∧ (∀ f, (Act.apply (.ecam k v) s).fld f = s.fld f) ∧ ∀ h n, (Act.apply (.ecam k v) s).csr h n = s.csr h n :=
  ⟨fun _ => rfl, fun _ => rfl, fun _ _ => rfl⟩

@[simp] theorem Act.show_msix (k : Nat) (v : Word) (s : State) :
    (∀ g, (Act.apply (.msix k v) s).reg g = s.reg g) ∧ (∀ f, (Act.apply (.msix k v) s).fld f = s.fld f) ∧ ∀ h n, (Act.apply (.msix k v) s).csr h n = s.csr h n :=
  ⟨fun _ => rfl, fun _ => rfl, fun _ _ => rfl⟩

@[simp] theorem Act.show_jobs (k : Nat) (v : Option (Job)) (s : State) :
    (∀ g, (Act.apply (.jobs k v) s).reg g = s.reg g) ∧ (∀ f, (Act.apply (.jobs k v) s).fld f = s.fld f) ∧ ∀ h n, (Act.apply (.jobs k v) s).csr h n = s.csr h n :=
  ⟨fun _ => rfl, fun _ => rfl, fun _ _ => rfl⟩

@[simp] theorem Act.show_fetched (k : Nat) (v : Option (BitVec 1024)) (s : State) :
    (∀ g, (Act.apply (.fetched k v) s).reg g = s.reg g) ∧ (∀ f, (Act.apply (.fetched k v) s).fld f = s.fld f) ∧ ∀ h n, (Act.apply (.fetched k v) s).csr h n = s.csr h n :=
  ⟨fun _ => rfl, fun _ => rfl, fun _ _ => rfl⟩

@[simp] theorem Act.show_moved (k : Nat) (v : Nat) (s : State) :
    (∀ g, (Act.apply (.moved k v) s).reg g = s.reg g) ∧ (∀ f, (Act.apply (.moved k v) s).fld f = s.fld f) ∧ ∀ h n, (Act.apply (.moved k v) s).csr h n = s.csr h n :=
  ⟨fun _ => rfl, fun _ => rfl, fun _ _ => rfl⟩

@[simp] theorem Act.show_fnBytes (k : Nat) (v : Nat) (s : State) :
    (∀ g, (Act.apply (.fnBytes k v) s).reg g = s.reg g) ∧ (∀ f, (Act.apply (.fnBytes k v) s).fld f = s.fld f) ∧ ∀ h n, (Act.apply (.fnBytes k v) s).csr h n = s.csr h n :=
  ⟨fun _ => rfl, fun _ => rfl, fun _ _ => rfl⟩

@[simp] theorem Act.show_lead (k : Nat) (v : Nat) (s : State) :
    (∀ g, (Act.apply (.lead k v) s).reg g = s.reg g) ∧ (∀ f, (Act.apply (.lead k v) s).fld f = s.fld f) ∧ ∀ h n, (Act.apply (.lead k v) s).csr h n = s.csr h n :=
  ⟨fun _ => rfl, fun _ => rfl, fun _ _ => rfl⟩

@[simp] theorem Act.show_slotTurn (k : Nat) (v : Nat) (s : State) :
    (∀ g, (Act.apply (.slotTurn k v) s).reg g = s.reg g) ∧ (∀ f, (Act.apply (.slotTurn k v) s).fld f = s.fld f) ∧ ∀ h n, (Act.apply (.slotTurn k v) s).csr h n = s.csr h n :=
  ⟨fun _ => rfl, fun _ => rfl, fun _ _ => rfl⟩

@[simp] theorem Act.show_aged (k : Nat) (v : Nat) (s : State) :
    (∀ g, (Act.apply (.aged k v) s).reg g = s.reg g) ∧ (∀ f, (Act.apply (.aged k v) s).fld f = s.fld f) ∧ ∀ h n, (Act.apply (.aged k v) s).csr h n = s.csr h n :=
  ⟨fun _ => rfl, fun _ => rfl, fun _ _ => rfl⟩

@[simp] theorem Act.show_iommu (v : Iommu) (s : State) :
    (∀ g, (Act.apply (.iommu v) s).reg g = s.reg g) ∧ (∀ f, (Act.apply (.iommu v) s).fld f = s.fld f) ∧ ∀ h n, (Act.apply (.iommu v) s).csr h n = s.csr h n :=
  ⟨fun _ => rfl, fun _ => rfl, fun _ _ => rfl⟩

@[simp] theorem Act.show_fox (v : Fox) (s : State) :
    (∀ g, (Act.apply (.fox v) s).reg g = s.reg g) ∧ (∀ f, (Act.apply (.fox v) s).fld f = s.fld f) ∧ ∀ h n, (Act.apply (.fox v) s).csr h n = s.csr h n :=
  ⟨fun _ => rfl, fun _ => rfl, fun _ _ => rfl⟩

@[simp] theorem Act.show_weir (v : Weir) (s : State) :
    (∀ g, (Act.apply (.weir v) s).reg g = s.reg g) ∧ (∀ f, (Act.apply (.weir v) s).fld f = s.fld f) ∧ ∀ h n, (Act.apply (.weir v) s).csr h n = s.csr h n :=
  ⟨fun _ => rfl, fun _ => rfl, fun _ _ => rfl⟩

@[simp] theorem Act.show_wdog (v : Option Nat) (s : State) :
    (∀ g, (Act.apply (.wdog v) s).reg g = s.reg g) ∧ (∀ f, (Act.apply (.wdog v) s).fld f = s.fld f) ∧ ∀ h n, (Act.apply (.wdog v) s).csr h n = s.csr h n :=
  ⟨fun _ => rfl, fun _ => rfl, fun _ _ => rfl⟩

@[simp] theorem Act.show_pins (v : Pins) (s : State) :
    (∀ g, (Act.apply (.pins v) s).reg g = s.reg g) ∧ (∀ f, (Act.apply (.pins v) s).fld f = s.fld f) ∧ ∀ h n, (Act.apply (.pins v) s).csr h n = s.csr h n :=
  ⟨fun _ => rfl, fun _ => rfl, fun _ _ => rfl⟩

@[simp] theorem Act.show_net (v : List Msg) (s : State) :
    (∀ g, (Act.apply (.net v) s).reg g = s.reg g) ∧ (∀ f, (Act.apply (.net v) s).fld f = s.fld f) ∧ ∀ h n, (Act.apply (.net v) s).csr h n = s.csr h n :=
  ⟨fun _ => rfl, fun _ => rfl, fun _ _ => rfl⟩

@[simp] theorem Act.show_ops (v : List Op) (s : State) :
    (∀ g, (Act.apply (.ops v) s).reg g = s.reg g) ∧ (∀ f, (Act.apply (.ops v) s).fld f = s.fld f) ∧ ∀ h n, (Act.apply (.ops v) s).csr h n = s.csr h n :=
  ⟨fun _ => rfl, fun _ => rfl, fun _ _ => rfl⟩

@[simp] theorem Act.show_need (v : Need) (s : State) :
    (∀ g, (Act.apply (.need v) s).reg g = s.reg g) ∧ (∀ f, (Act.apply (.need v) s).fld f = s.fld f) ∧ ∀ h n, (Act.apply (.need v) s).csr h n = s.csr h n :=
  ⟨fun _ => rfl, fun _ => rfl, fun _ _ => rfl⟩

@[simp] theorem Act.show_poke (v : List Nat) (s : State) :
    (∀ g, (Act.apply (.poke v) s).reg g = s.reg g) ∧ (∀ f, (Act.apply (.poke v) s).fld f = s.fld f) ∧ ∀ h n, (Act.apply (.poke v) s).csr h n = s.csr h n :=
  ⟨fun _ => rfl, fun _ => rfl, fun _ _ => rfl⟩

@[simp] theorem Act.show_out (v : List Out) (s : State) :
    (∀ g, (Act.apply (.out v) s).reg g = s.reg g) ∧ (∀ f, (Act.apply (.out v) s).fld f = s.fld f) ∧ ∀ h n, (Act.apply (.out v) s).csr h n = s.csr h n :=
  ⟨fun _ => rfl, fun _ => rfl, fun _ _ => rfl⟩

@[simp] theorem Act.show_free (v : Nat) (s : State) :
    (∀ g, (Act.apply (.free v) s).reg g = s.reg g) ∧ (∀ f, (Act.apply (.free v) s).fld f = s.fld f) ∧ ∀ h n, (Act.apply (.free v) s).csr h n = s.csr h n :=
  ⟨fun _ => rfl, fun _ => rfl, fun _ _ => rfl⟩

/-- A CSR after a write of one. -/
@[simp] theorem Run.csr_setCsr (r : Run s0) (h n k m : Nat) (v : Word) (hn : n < 4096) (hm : m < 4096) :
    (r.setCsr h n v).1.csr k m = if k = h ∧ m = n then v else r.1.csr k m := by
  split
  · rename_i e
    obtain ⟨rfl, rfl⟩ := e
    simp only [Run.setCsr, Run.act_val, State.csr, Act.apply_csrs, Sparse.find?_upd_same, listed_getD]
  · rename_i e
    have : k * 4096 + m ≠ h * 4096 + n := by omega
    simp [Run.setCsr, State.csr, Sparse.find?_upd_other _ _ this]

/-! Fields of words. -/

theorem fieldMask_bit {hi lo : Nat} (hh : hi < 64) (hl : lo ≤ hi) (i : Nat) :
    (fieldMask hi lo).getLsbD i = (decide (lo ≤ i) && decide (i ≤ hi)) := by
  unfold fieldMask
  rw [BitVec.getLsbD_shiftLeft, BitVec.getLsbD_ofNat]
  rw [Nat.testBit_two_pow_sub_one]
  by_cases a : i < 64 <;> by_cases b : lo ≤ i <;> by_cases c : i ≤ hi <;> simp [a, b, c] <;> omega

theorem Word.bits_bit (w : Word) (hi lo i : Nat) :
    (Word.bits w hi lo).testBit i = (decide (i < hi - lo + 1) && w.getLsbD (lo + i)) := by
  unfold Word.bits
  rw [Nat.testBit_mod_two_pow]
  simp [BitVec.testBit_toNat]

theorem Word.setBits_bit (w : Word) {hi lo : Nat} (v : Nat) (hh : hi < 64) (hl : lo ≤ hi) (i : Nat) :
    (Word.setBits w hi lo v).getLsbD i =
      if lo ≤ i ∧ i ≤ hi then v.testBit (i - lo) else w.getLsbD i := by
  unfold Word.setBits
  have := fieldMask_bit hh hl i
  simp only [BitVec.getLsbD_or, BitVec.getLsbD_and, BitVec.getLsbD_not, BitVec.getLsbD_shiftLeft, BitVec.getLsbD_ofNat, this]
  by_cases b : lo ≤ i <;> by_cases c : i ≤ hi <;> simp [b, c]
  · have h1 : i < 64 := by omega
    have h2 : i - lo < 64 := by omega
    simp [h1, h2]; omega
  all_goals intro h; exact BitVec.lt_of_getLsbD h

/-- A field that has just been written. -/
theorem Word.bits_setBits_same (w : Word) {hi lo : Nat} (v : Nat) (hh : hi < 64) (hl : lo ≤ hi) :
    Word.bits (Word.setBits w hi lo v) hi lo = v % 2 ^ (hi - lo + 1) := by
  apply Nat.eq_of_testBit_eq
  intro i
  rw [Word.bits_bit, Nat.testBit_mod_two_pow, Word.setBits_bit w v hh hl]
  by_cases c : i < hi - lo + 1
  · have : lo ≤ lo + i ∧ lo + i ≤ hi := by omega
    simp [c, this.2]
  · simp [c]

/-- A field apart from the one that has been written. -/
theorem Word.bits_setBits_other (w : Word) {hi lo hi' lo' : Nat} (v : Nat) (hh : hi < 64) (hl : lo ≤ hi)
    (d : hi' < lo ∨ hi < lo') (hl' : lo' ≤ hi') : Word.bits (Word.setBits w hi lo v) hi' lo' = Word.bits w hi' lo' := by
  apply Nat.eq_of_testBit_eq
  intro i
  rw [Word.bits_bit, Word.bits_bit, Word.setBits_bit w v hh hl]
  by_cases c : i < hi' - lo' + 1
  · have : ¬ (lo ≤ lo' + i ∧ lo' + i ≤ hi) := by omega
    simp [this]
  · simp [c]

/-- A field that the implemented bits hold whole. -/
theorem Word.bits_and (w m : Word) {hi lo : Nat} (hh : hi < 64) (hl : lo ≤ hi) (c : fieldMask hi lo &&& m = fieldMask hi lo) :
    Word.bits (w &&& m) hi lo = Word.bits w hi lo := by
  apply Nat.eq_of_testBit_eq
  intro i
  rw [Word.bits_bit, Word.bits_bit, BitVec.getLsbD_and]
  by_cases d : i < hi - lo + 1
  · have := congrArg (fun x => x.getLsbD (lo + i)) c
    simp only [BitVec.getLsbD_and, fieldMask_bit hh hl] at this
    have e : lo + i ≤ hi := by omega
    simp [e] at this
    simp [this]
  · simp [d]

/-! Registers of the window. -/

@[simp] theorem Run.reg_setReg_same (r : Run s0) (g : Reg) (v : Word) : (r.setReg g v).1.reg g = v &&& g.mask := by
  simp only [Run.setReg, Run.act_val, State.reg, Act.apply_regs, Sparse.get_upd_same]
  rw [BitVec.and_assoc, BitVec.and_self]

theorem Run.reg_setReg_other (r : Run s0) {g k : Reg} (v : Word) (h : k.off ≠ g.off) : (r.setReg g v).1.reg k = r.1.reg k := by
  simp only [Run.setReg, Run.act_val, State.reg, Act.apply_regs, Sparse.get_upd_other _ _ _ h]

/-- A field fits its register: it lies within the implemented bits. -/
def FRef.fits (f : FRef) : Bool := decide (f.hi < 64) && decide (f.lo ≤ f.hi) && decide (fieldMask f.hi f.lo &&& f.reg.mask = fieldMask f.hi f.lo)

/-- A field reads what was last written to it. -/
theorem Run.fld_setFld_same (r : Run s0) (f : FRef) (v : Nat) (h : f.fits = true) :
    (r.setFld f v).1.fld f = v % 2 ^ (f.hi - f.lo + 1) := by
  simp only [FRef.fits, Bool.and_eq_true, decide_eq_true_eq] at h
  simp only [Run.setFld, State.fld, Run.reg_setReg_same]
  rw [Word.bits_and _ _ h.1.1 h.1.2 h.2, Word.bits_setBits_same _ _ h.1.1 h.1.2]

/-- Another field of the same register stays. -/
theorem Run.fld_setFld_apart (r : Run s0) (f k : FRef) (v : Nat) (h : f.fits = true) (hk : k.fits = true) (e : k.reg = f.reg)
    (d : k.hi < f.lo ∨ f.hi < k.lo) : (r.setFld f v).1.fld k = r.1.fld k := by
  simp only [FRef.fits, Bool.and_eq_true, decide_eq_true_eq] at h hk
  simp only [Run.setFld, State.fld, e, Run.reg_setReg_same]
  rw [Word.bits_and _ _ hk.1.1 hk.1.2 (e ▸ hk.2), Word.bits_setBits_other _ _ h.1.1 h.1.2 d hk.1.2]
  rfl

/-- A field of another register stays. -/
theorem Run.fld_setFld_other (r : Run s0) (f k : FRef) (v : Nat) (h : k.reg.off ≠ f.reg.off) : (r.setFld f v).1.fld k = r.1.fld k := by
  simp only [Run.setFld, State.fld, Run.reg_setReg_other r _ h]

theorem Run.fld_setReg_other (r : Run s0) (g : Reg) (k : FRef) (v : Word) (h : k.reg.off ≠ g.off) : (r.setReg g v).1.fld k = r.1.fld k := by
  simp only [State.fld, Run.reg_setReg_other r _ h]

/-- A write of a register or field leaves everything else in the state. -/
theorem Run.setReg_val (r : Run s0) (g : Reg) (v : Word) : (r.setReg g v).1 = Act.apply (.regs g.off (listed g.rst (v &&& g.mask))) r.1 := rfl

theorem Run.setFld_val (r : Run s0) (f : FRef) (v : Nat) :
    (r.setFld f v).1 = Act.apply (.regs f.reg.off (listed f.reg.rst (Word.setBits (r.1.reg f.reg) f.hi f.lo v &&& f.reg.mask))) r.1 := rfl

end Sys2Proof.Machine
end

