-- ==== Sys2Proof/WellFormed.lean ====
section
/-! DEFINITION. Which commands are well formed: the operands that some encoding, message or request of the spec has. A command that is
not still has its meaning in exec; nothing may be relied on of it. -/
namespace Sys2Proof

/-- The forms of a load (R55): an unsigned load is narrower than 8 bytes; a load of an f register has at least 2 bytes; element
e of a vector register lies in its 256 bits; the loads of the H extension have no immediate, and HLVX reads 2 or 4 bytes unsigned. -/
def loadForm (rd : Dest) (imm : BitVec 12) (lg : Fin 4) (uns : Bool) : MemForm → Bool
  | .plain => match rd with
    | .x _ => !uns || lg.val != 3
    | .f _ => !uns && lg.val != 0
    | .v _ e => !uns && decide ((e.val + 1) * 8 * 2 ^ lg.val ≤ 256)
  | .hlv => match rd with
    | .x _ => (!uns || lg.val != 3) && imm == 0
    | _ => false
  | .hlvx => match rd with
    | .x _ => uns && imm == 0 && (lg.val == 1 || lg.val == 2)
    | _ => false

/-- The forms of a store (R55). -/
def storeForm (rs2 : Dest) (imm : BitVec 12) (lg : Fin 4) : MemForm → Bool
  | .plain => match rs2 with
    | .x _ => true
    | .f _ => lg.val != 0
    | .v _ e => decide ((e.val + 1) * 8 * 2 ^ lg.val ≤ 256)
  | .hlv => match rs2 with
    | .x _ => imm == 0
    | _ => false
  | .hlvx => false

/-- The widths of an AMO (R55): 1 to 8 bytes, or the 16 bytes of AMOCAS on two even-odd pairs. -/
def amoForm (op : AmoOp) (lg : Fin 5) (rd rs2 : Fin 32) : Bool :=
  lg.val != 4 || op == .cas && rd.val % 2 == 0 && rs2.val % 2 == 0

/-- LR and SC access 4 or 8 bytes (R55). -/
def lrForm (lg : Fin 4) : Bool := lg.val == 2 || lg.val == 3

/-- The CSRs of PMP on a 64-bit hart (R55, R123): the even pmpcfg, pmpaddr and mseccfg. -/
def pmpCsr (c : Nat) : Bool := c / 16 == 0x3A && c % 2 == 0 || (0x3B0 ≤ c && c < 0x3F0) || c == 0x747

/-- The immediate of a prefetch is a multiple of 32 (R133). -/
def lowZero (imm : BitVec 12) : Bool := imm.toNat % 32 == 0

/-- An inbound request carries 1 to 4,096 bytes (R315). -/
def inboundLen (len : BitVec 13) : Bool := 1 ≤ len.toNat && len.toNat ≤ 4096

/-- The AtomicOps of PCIe: FetchAdd and Swap of 4 or 8 bytes, CAS of 4, 8 or 16 (R315). -/
def atomicOp (op : AmoOp) (lg : Fin 5) : Bool :=
  match op with
  | .add | .swap => lg.val == 2 || lg.val == 3
  | .cas => 2 ≤ lg.val
  | _ => false

/-- A message of a row of R167 is of that row's kind, and carries an operation if it is AtomH, on bytes inside its line. -/
def messageForm (k : MsgKind) (m : Msg) : Bool :=
  m.kind == k && match m.atom with
    | none => k != .atomH
    | some a => k == .atomH && decide (a.lg ≤ 4 ∧ a.off + 2 ^ a.lg ≤ 64)

/-- The command is well formed. -/
def Instr.wf : Instr → Bool
  | .registerWrite _ _ _ _ => true
  | .tokenPass _ slots _ => decide (slots.length ≤ 6)
  | .load _ rd _ imm lg uns form => loadForm rd imm lg uns form
  | .store _ rs2 _ imm lg form => storeForm rs2 imm lg form
  | .smbIdleTimeout _ _ => true
  | .amo _ op lg rd _ rs2 _ _ => amoForm op lg rd rs2
  | .lr _ lg _ _ _ _ => lrForm lg
  | .sc _ lg _ _ _ _ _ => lrForm lg
  | .lrSnoopDelayEnd _ => true
  | .fence _ _ _ _ => true
  | .fenceI _ => true
  | .wfi _ => true
  | .wfiLimitExpiry _ => true
  | .wrsNto _ => true
  | .wrsSto _ => true
  | .wrsStoTimeout _ => true
  | .pause _ => true
  | .pauseEnd _ => true
  | .seedRead _ _ _ => true
  | .dwPark _ _ _ _ => true
  | .dwWake _ _ _ _ => true
  | .dwKeysw _ _ _ _ => true
  | .sdwkeyWrite _ _ _ _ => true
  | .reachCsrWrite _ _ _ _ _ _ => true
  | .mdwharWrite _ _ _ _ _ => true
  | .pmpCsrWrite _ c _ _ _ => pmpCsr c.toNat
  | .sfenceVma _ _ _ => true
  | .hfenceVvma _ _ _ => true
  | .hfenceGvma _ _ _ => true
  | .sinvalVma _ _ _ => true
  | .hinvalVvma _ _ _ => true
  | .hinvalGvma _ _ _ => true
  | .sfenceWInval _ => true
  | .sfenceInvalIr _ => true
  | .cboClean _ _ => true
  | .cboFlush _ _ => true
  | .cboInval _ _ => true
  | .cboZero _ _ => true
  | .prefetchR _ _ imm => lowZero imm
  | .prefetchW _ _ imm => lowZero imm
  | .prefetchI _ _ imm => lowZero imm
  | .dwCmorng _ _ _ _ _ => true
  | .dwSwop _ _ _ _ => true
  | .mret _ => true
  | .sret _ => true
  | .mnret _ => true
  | .imsicClaim _ _ _ => true
  | .imsicSetPending _ _ _ => true
  | .hartRelease _ _ _ => true
  | .dwGatein _ _ _ _ _ => true
  | .coreSwitchDone _ => true
  | .dwGateout _ _ _ _ => true
  | .interruptedDeparture _ _ => true
  | .debugHaltRequest _ => true
  | .timebaseTick _ => true
  | .tick _ _ => true
  | .syncWord _ _ => true
  | .tickStreamLoss _ => true
  | .tickLossReport _ => true
  | .tmonWindowEnd _ _ _ _ => true
  | .clrmax _ _ => true
  | .droopClr _ _ => true
  | .droopExcursion _ _ => true
  | .refclkValid _ => true
  | .refclkLoss => true
  | .rds m => messageForm .rdS m
  | .rdx m => messageForm .rdX m
  | .upg m => messageForm .upg m
  | .claim m => messageForm .claim m
  | .rdonce m => messageForm .rdOnce m
  | .wrline m => messageForm .wrLine m
  | .wrpart m => messageForm .wrPart m
  | .atomh m => messageForm .atomH m
  | .cboc m => messageForm .cboC m
  | .cbof m => messageForm .cboF m
  | .cboi m => messageForm .cboI m
  | .evc m => messageForm .evC m
  | .evm m => messageForm .evM m
  | .evo m => messageForm .evO m
  | .wbkeep m => messageForm .wbKeep m
  | .snps m => messageForm .snpS m
  | .snpx m => messageForm .snpX m
  | .snpinv m => messageForm .snpInv m
  | .snpcln m => messageForm .snpCln m
  | .snpcur m => messageForm .snpCur m
  | .stashoffer m => messageForm .stashOffer m
  | .rsp m => messageForm .rsp m
  | .gnte m => messageForm .gntE m
  | .gntm m => messageForm .gntM m
  | .ack m => messageForm .ack m
  | .evack m => messageForm .evAck m
  | .done m => messageForm .done m
  | .stashacc m => messageForm .stashAcc m
  | .stashdec m => messageForm .stashDec m
  | .dats m => messageForm .datS m
  | .date m => messageForm .datE m
  | .datm m => messageForm .datM m
  | .datsnp m => messageForm .datSnp m
  | .datcur m => messageForm .datCur m
  | .datatom m => messageForm .datAtom m
  | .datstash m => messageForm .datStash m
  | .mrd m => messageForm .mRd m
  | .mwr m => messageForm .mWr m
  | .mdat m => messageForm .mDat m
  | .mack m => messageForm .mAck m
  | .partwaysWrite _ _ _ _ _ => true
  | .waylockWrite _ _ _ _ => true
  | .wayownerWrite _ _ _ _ => true
  | .lockSweepDone _ => true
  | .l2Disable _ _ => true
  | .l2DisableDone _ => true
  | .l2Enable _ _ => true
  | .l3QuadrantDisable _ _ _ => true
  | .l3QuadrantDisableDone _ _ => true
  | .l3QuadrantEnable _ _ _ => true
  | .rillFlit _ _ payload _ _ => decide (payload.length = 16)
  | .rillRetryRequest _ _ _ => true
  | .rillLaneStall _ _ _ => true
  | .rillRetrainDone _ => true
  | .faultmapWrite _ _ _ _ => true
  | .chkData _ _ _ _ => true
  | .chkDatan _ _ _ _ => true
  | .tileReset _ _ _ => true
  | .tileResetDone _ => true
  | .dieReset _ _ => true
  | .dieResetSweepDone _ => true
  | .dieSelfTestDone _ _ => true
  | .linkTrainingDone _ _ => true
  | .joinRequest _ _ => true
  | .admitDie _ _ => true
  | .rejoinStepTimeout _ => true
  | .rejoinRetry _ => true
  | .channelStart _ _ _ _ => true
  | .channelPowerupDone _ _ _ => true
  | .channelInitDone _ _ => true
  | .ilvSetEnable _ _ => true
  | .ilvSetDisable _ _ => true
  | .dimmThermalPoll _ _ => true
  | .bandSwitchWindow _ => true
  | .bandSwitchResume _ => true
  | .refreshIntervalEnd _ _ _ => true
  | .owedRefreshIssue _ _ => true
  | .mr4Poll _ _ => true
  | .selfRefreshIdleTimeout _ => true
  | .selfRefreshExit _ => true
  | .scrubRead _ => true
  | .dimmAlert _ _ _ => true
  | .doorbell _ _ _ _ _ => true
  | .queueEnable _ _ _ _ => true
  | .queueDisable _ _ _ _ => true
  | .descriptorFetch _ => true
  | .jobAdmission _ => true
  | .nop _ _ => true
  | .copy _ _ => true
  | .fill _ _ => true
  | .crc _ _ => true
  | .compress _ _ => true
  | .decompress _ _ => true
  | .gcmEnc _ _ => true
  | .gcmDec _ _ => true
  | .xtsEnc _ _ => true
  | .xtsDec _ _ => true
  | .cipherReleaseStart _ _ => true
  | .jobCompletion _ _ => true
  | .phloxCapWindowEnd => true
  | .queueBind _ _ _ _ => true
  | .queueUnbind _ _ _ _ => true
  | .queueMove _ _ _ _ => true
  | .queueMoveDone _ => true
  | .shareWrite _ _ _ _ => true
  | .functionReset _ _ _ => true
  | .functionResetDone _ => true
  | .gCfgWrite _ _ _ _ => true
  | .portTrained _ _ _ _ => true
  | .perstDeassert _ => true
  | .groupWake _ _ => true
  | .pcieCompletion _ _ _ _ _ => true
  | .completionTimeout _ _ => true
  | .inboundMemoryRead _ len _ => inboundLen len
  | .inboundMemoryWrite _ len _ _ _ _ => inboundLen len
  | .inboundAtomicop _ op lg _ _ _ => atomicOp op lg
  | .inboundMsi _ _ => true
  | .assertIntx _ _ _ _ => true
  | .ptmRequest _ _ => true
  | .rdshared _ _ _ => true
  | .rdown _ _ _ => true
  | .rdownnodata _ _ _ => true
  | .rdcurr _ _ _ => true
  | .itomwr _ _ _ _ _ => true
  | .wrcur _ _ _ _ _ => true
  | .cleanevict _ _ _ => true
  | .dirtyevict _ _ _ _ _ => true
  | .cxlMemResponse _ _ _ _ _ _ _ => true
  | .socketLinkJoin _ _ _ _ _ _ _ => true
  | .socketJoinRetry _ => true
  | .socketLinkFlit _ _ _ _ => true
  | .socketLinkRetrainTimeout _ => true
  | .peerFatalNotice _ => true
  | .query _ => true
  | .keyLoad _ => true
  | .keyGen _ => true
  | .keyErase _ => true
  | .unsealLoad _ => true
  | .assign _ => true
  | .measExtend _ => true
  | .ertWrite _ => true
  | .ertSweepDone => true
  | .encSet _ => true
  | .enclaveFreeSweepDone => true
  | .rekeyqRead _ => true
  | .entropyHealthFailure _ => true
  | .entropySourceReturn _ => true
  | .drbgReseed => true
  | .maskReseed => true
  | .meshPatternRenew => true
  | .alarm _ _ => true
  | .classBRepeat _ _ => true
  | .wdogKick _ => true
  | .watchdogExpiry _ => true
  | .porstAssert => true
  | .porstDeassert _ _ => true
  | .foxgloveReady => true
  | .foxfwReadyTimeout => true
  | .dramrdy _ => true
  | .monitorReady => true
  | .mfail _ _ => true
  | .failureFrameEnd _ => true
  | .startRoundWaitEnd _ => true
  | .startStep10Timeout => true
  | .warmReset _ _ => true
  | .configurationLock _ => true
  | .getVersion => true
  | .getCapabilities => true
  | .negotiateAlgorithms => true
  | .getDigests => true
  | .getCertificate _ _ _ => true
  | .challenge _ _ => true
  | .getMeasurements _ _ _ => true
  | .spdmUnsupportedRequest _ => true
  | .tapUpdateIr _ => true
  | .foxtoken _ => true
  | .dmiAccess _ _ _ => true
  | .weirWindowEnd _ => true
  | .writeVoltage _ => true
  | .avsWriteTimeout => true
  | .readVoltage _ => true
  | .readCurrent _ => true
  | .readStatus _ => true
  | .meteredStepForm _ => true
  | .meteredStepRampStart => true
  | .meteredStepRampEnd => true
  | .parkHintTimeout _ => true
  | .domainGate _ => true
  | .domainSwitchOpen _ => true
  | .gatehold _ _ => true
  | .release _ _ => true
  | .clkstop _ _ => true
  | .boundWrite _ _ _ => true
  | .tileBrownoutHalt _ _ => true
  | .tileBrownoutResume _ _ => true
  | .allTilesHalted100ms => true
  | .vcoreCollapse _ => true
  | .railOutOfRange => true
  | .thermtrip => true
  | .vrhotAssert => true
  | .vrhotDeassert => true
  | .ringPop _ _ => true
  | .snoopResponseTimeout _ _ => true
  | .fatalwarmExpiry _ => true
  | .csrWrite _ _ _ _ _ => true
  | .portLinkDown _ _ => true
  | .deassertIntx _ _ _ => true
  | .atsTranslationRequest _ _ => true
  | .pageRequest _ _ _ _ _ => true
  | .iodDomainWakeDone _ => true
  | .alwaysOnRailUp => true
  | .vpllOutOfRange => true
  | .dimmAlertEnd _ _ => true

end Sys2Proof
end

