-- ==== Sys2Proof/Tests/Slice0.lean ====
section
/-! SUPPORT. Our own tests: an ill-formed command for each check of WellFormed; check values published outside the model; and, for each
statement with hypotheses, operands and a state that meet each clause's hypotheses together. -/
namespace Sys2Proof.Tests
open Sys2Proof Sys2Proof.Machine

section
set_option Elab.async false
set_option linter.unusedVariables false
set_option synthInstance.maxHeartbeats 400000
set_option synthInstance.maxSize 2000
set_option maxRecDepth 4000
set_option maxHeartbeats 2000000

/-! ### Small states -/

/-- A state with fields of registers set. -/
def put (s : State) (fs : List (FRef × Nat)) : State := (fs.foldl (fun r p => r.setFld p.1 p.2) (Run.start s)).1
/-- A state with a hart changed. -/
def hart (s : State) (h : Nat) (f : Hart → Hart) : State := ((Run.start s).modHart h f).1
/-- Die 0 is online with its tiles 0 and 1, channel 0 runs with a key loaded, and memory from 2 GiB up is its own. -/
def s0 : State :=
  put { State.reset with pins := { porst := false }, keys := [(0, { loaded := true, key := 5 })], harts := [(0, { run := .running, pc := 0x80000000 })], xs := [(1, 0x80001000), (2, 7)] }
    ([(RLINK_STAT_STATE 0, 4), (DOM_STAT_STATE 0, 0), (DOM_STAT_STATE 1, 0), (DOM_STAT_STATE 16, 0), (DOM_STAT_STATE 17, 0), (DOM_STAT_STATE 18, 0),
      (DOM_STAT_STATE 19, 0), (DOM_STAT_STATE 400, 0), (DOM_STAT_STATE 401, 0), (DOM_STAT_STATE 402, 0), (DOM_STAT_STATE 403, 0)] ++
     [(MC_STATUS_INIT 0, 3), (DOM_STAT_STATE (domChan 0), 0), (SAD_RANGE_BASE_EN 0, 1), (SAD_RANGE_BASE_BASE 0, 2), (SAD_RANGE_LIMIT_LIMIT 0, 65),
      (ILV_SET_BASE_EN 0, 1), (ILV_SET_BASE_BASE 0, 2), (ILV_SET_CFG_SIZE 0, 64), (ILV_SET_CFG_CHMASK 0, 1), (HOME_CFG_DIREN, 0)])
/-- The same with REFCLK, at a window's end. -/
def s1 : State := put s0 [(TBASE_STAT_REFOK, 1), (TBASE_COUNT_COUNT, 2048)]
/-- A state whose fuses of alarm policy (R370) are v. -/
def pol (s : State) (v : BitVec 64) : State := { s with regs := Sparse.put s.regs ALARM_POLICY.off v }
/-- The lines of a sealed key (R360). -/
def sealHead : LineData := BitVec.ofNat 512 (natLE ((sealBlob 1 20 0 0 (bytesLE 12 3) (bytesLE 64 77)).take 64))
/-- Its second line. -/
def sealTail : LineData := BitVec.ofNat 512 (natLE ((sealBlob 1 20 0 0 (bytesLE 12 3) (bytesLE 64 77)).drop 64))
/-- A command to load a sealed key stands in mailbox 2; the lines d and e of the key lie after it. -/
def sealState (d e : LineData) : State :=
  { s0 with dram := [(dramKey 0 0x1000, { data := 0x8000110000000000000000091000000500000005, dir := 1, key := 5, tweak := 0x2000040 }), (dramKey 0 0x1100, { data := d, dir := 1, key := 5, tweak := 0x2000044 }), (dramKey 0 0x1140, { data := e, dir := 1, key := 5, tweak := 0x2000045 })], fox := { s0.fox with ready := true, cmds := [(2, 2147487744, .hart 0)] }, keys := [(0, { loaded := true, key := 5 }), (268435461, { owner := 3, gen := 8 })] }
theorem sealState_head (d e : LineData) : (sealState d e).dline (dramKey 0 0x1100) = some { data := d, dir := 1, key := 5, tweak := 0x2000044 } := rfl
theorem sealState_tail (d e : LineData) : (sealState d e).dline (dramKey 0 0x1140) = some { data := e, dir := 1, key := 5, tweak := 0x2000045 } := rfl
theorem sealState_epoch (d e : LineData) : (Run.start (sealState d e)).epoch = 0 := rfl
theorem sealState_key (d e : LineData) : (sealState d e).key 0 = { loaded := true, key := 5 } := rfl

/-! ### Ill-formed commands: each check of WellFormed refuses one -/

theorem smoke_load_width : (Instr.load 0 (.x 5) 1 0 3 true .plain).wf = false := by decide
theorem smoke_load_hlvx : (Instr.load 0 (.x 5) 1 0 3 true .hlvx).wf = false := by decide
theorem smoke_load_hlv_imm : (Instr.load 0 (.x 5) 1 8 3 false .hlv).wf = false := by decide
theorem smoke_load_f_byte : (Instr.load 0 (.f 5) 1 0 0 false .plain).wf = false := by decide
theorem smoke_load_v_element : (Instr.load 0 (.v 5 4) 1 0 3 false .plain).wf = false := by decide
theorem smoke_store_f_byte : (Instr.store 0 (.f 5) 1 0 0 .plain).wf = false := by decide
theorem smoke_store_hlvx : (Instr.store 0 (.x 5) 1 0 3 .hlvx).wf = false := by decide
theorem smoke_amo_pair : (Instr.amo 0 .cas 4 5 1 2 false false).wf = false := by decide
theorem smoke_lr_width : (Instr.lr 0 1 5 1 false false).wf = false := by decide
theorem smoke_sc_width : (Instr.sc 0 0 5 1 2 false false).wf = false := by decide
theorem smoke_token_slots : (Instr.tokenPass 0 (List.replicate 7 (.issue 0)) ⟨false, [], [], [], 0, [], [], []⟩).wf = false := by decide
theorem smoke_flit_words : (Instr.rillFlit 0 true (List.replicate 17 1) 1 1).wf = false := by decide
theorem smoke_pmp_csr : (Instr.pmpCsrWrite 0 0x3A1 0 .rw (.imm 0)).wf = false := by decide
theorem smoke_prefetch_imm : (Instr.prefetchR 0 1 33).wf = false := by decide
theorem smoke_message_kind : (Instr.rds { kind := .rdX, src := .die 0, dst := .home 0, line := 0 }).wf = false := by decide
theorem smoke_message_operation : (Instr.atomh { kind := .atomH, src := .hart 0, dst := .home 0, line := 0 }).wf = false := by decide
theorem smoke_inbound_length : (Instr.inboundMemoryRead ⟨0, 0, 0, none, false, false, 0, none, true⟩ 4097 0).wf = false := by decide
theorem smoke_atomic_operation : (Instr.inboundAtomicop ⟨0, 0, 0, none, false, false, 0, none, true⟩ .xor 3 0 0 0).wf = false := by decide
theorem smoke_wellformed : (Instr.load 0 (.v 5 3) 1 0 3 false .plain).wf = true ∧ (Instr.amo 0 .cas 4 4 1 2 false false).wf = true := by decide

/-! ### Published check values, and single commands worked out from the spec's text -/

/-- ASCII text as bytes. -/
def ascii (s : List Nat) : List Byte := s.map (BitVec.ofNat 8)

/-- The check value of CRC-32 over the digits 1 to 9, as catalogues of CRCs give it. -/
theorem test_crc32_check : crc32 0 (ascii [0x31, 0x32, 0x33, 0x34, 0x35, 0x36, 0x37, 0x38, 0x39]) = 0xCBF43926 := by decide +kernel

/-- The check value of CRC-32C over the digits 1 to 9, as catalogues of CRCs give it. -/
theorem test_crc32c_check : crc32c [0x31, 0x32, 0x33, 0x34, 0x35, 0x36, 0x37, 0x38, 0x39] = 0xE3069283 := by decide +kernel

/-- R210: a packet goes along its row first, then along the column. -/
theorem test_mesh_route : meshRoute 0 14 = [0, 1, 2, 6, 10, 14] := by decide

/-- RFC 1950's Adler-32 of the text abc. -/
theorem test_adler_abc : adler32 1 (ascii [0x61, 0x62, 0x63]) = 0x024D0127 := by decide +kernel

/-- FIPS 197, appendix C.3: AES-256. -/
theorem test_aes256 : natBE (aesEnc (bytesBE 32 0x000102030405060708090a0b0c0d0e0f101112131415161718191a1b1c1d1e1f) (bytesBE 16 0x00112233445566778899aabbccddeeff)) =
    0x8ea2b7ca516745bfeafc49904b496089 := by decide +kernel

/-- FIPS 180-4's example: SHA-512 of the text abc. -/
theorem test_sha512_abc : natBE (sha512 (ascii [0x61, 0x62, 0x63])) =
    0xddaf35a193617abacc417349ae20413112e6fa4e89a97ea20a9eeee64b55d39a2192992a274fc1a836ba3c23a3feebbd454d4423643ce80e2a9ac94fa54ca49f := by decide +kernel

/-- XXH64 of no bytes with seed 0, as its specification gives it. -/
theorem test_xxh64_empty : xxh64 [] = 0xEF46DB3751D8E999 := by decide +kernel

/-- RFC 8878, 3.1.1: a single-segment frame of one raw block that holds the text abc. -/
theorem test_zstd_raw : (unzstd (ascii [0x28, 0xB5, 0x2F, 0xFD, 0x20, 3, 0x19, 0, 0, 0x61, 0x62, 0x63]) 1024 13 0 false []).toOption =
    some (ascii [0x61, 0x62, 0x63], 12) := by decide +kernel

/-- What field of a register a command leaves, or a number that no field reads if it ends in no next state. -/
def after (o : Host.Outcome State Fault Refusal) (f : FRef) : Nat := match o with | .next t => t.fld f | _ => 2 ^ 65

/-- R48: at a tick COUNT rises by one. -/
theorem test_tick_counts : after (execTimebaseTick [] (put s0 [(TBASE_COUNT_COUNT, 41), (TBASE_STAT_REFOK, 1)])) TBASE_COUNT_COUNT = 42 := by decide +kernel

/-- R20: TARGET 16 of KIND 0 is reserved, so the write is ignored; TARGET 15 is taken. -/
theorem test_sad_target : after (execRegisterWrite (.hart 0) (BitVec.ofNat 40 (SAD_RANGE_BASE 5).off) .full 0x9000000000000000 s0) (SAD_RANGE_BASE_EN 5) = 0 ∧
    after (execRegisterWrite (.hart 0) (BitVec.ofNat 40 (SAD_RANGE_BASE 5).off) .full 0x8F00000000000000 s0) (SAD_RANGE_BASE_TARGET 5) = 15 := by decide +kernel

/-- R46: an excursion below THRESH is counted. -/
theorem test_droop_counts : after (execDroopExcursion 1 500 (put s0 [(TMON_DROOP_DCOUNT 1, 7), (TMON_DROOP_THRESH 1, 600)])) (TMON_DROOP_DCOUNT 1) = 8 := by decide +kernel

/-- R444: DOM above 403 ends with ST_BAD_DOMAIN. -/
theorem test_gatehold_range : after (execGatehold .fox 404 s0) WEIR_DOMCMD_ST = 0x1E := by decide +kernel

/-! ### Witnesses: nothing that a statement assumes is empty -/

theorem wit_FencesCompleteWhenDrained :
    (∃ (h : Fin 1024) (p : BitVec 4) (u : BitVec 4) (tso : Bool) (s : State), (s.free_ h) ∧ (s.drained h)) ∧
    (∃ (h : Fin 1024) (s : State), (s.free_ h) ∧ (s.drained h)) ∧
    (∃ (h : Fin 1024) (s : State), (s.free_ h) ∧ (s.drained h) ∧ ((s.hart h).mode.user = false)) ∧
    (∃ (h : Fin 1024) (s : State), (s.free_ h) ∧ (s.drained h) ∧ ((s.hart h).mode.user = false)) ∧
    (∃ (h : Fin 1024) (rs1 : Fin 32) (rs2 : Fin 32) (s : State), (s.free_ h) ∧ (s.drained h) ∧ ((Run.start s).sfenceCause h = none)) ∧
    (∃ (h : Fin 1024) (rs1 : Fin 32) (rs2 : Fin 32) (s : State), (s.free_ h) ∧ (s.drained h) ∧ ((Run.start s).hfenceCause h false = none)) ∧
    (∃ (h : Fin 1024) (rs1 : Fin 32) (rs2 : Fin 32) (s : State), (s.free_ h) ∧ (s.drained h) ∧ ((Run.start s).hfenceCause h true = none)) ∧
    (∃ (h : Fin 1024) (rs1 : Fin 32) (rs2 : Fin 32) (s : State), (s.free_ h) ∧ (s.drained h) ∧ ((Run.start s).sfenceCause h = none)) ∧
    (∃ (h : Fin 1024) (rs1 : Fin 32) (rs2 : Fin 32) (s : State), (s.free_ h) ∧ (s.drained h) ∧ ((Run.start s).hfenceCause h false = none)) ∧
    (∃ (h : Fin 1024) (rs1 : Fin 32) (rs2 : Fin 32) (s : State), (s.free_ h) ∧ (s.drained h) ∧ ((Run.start s).hfenceCause h true = none)) :=
  ⟨⟨0, 0, 0, false, s0, by decide +kernel⟩,
   ⟨0, s0, by decide +kernel⟩,
   ⟨0, hart s0 0 fun t => { t with mode := .s }, by decide +kernel⟩,
   ⟨0, hart s0 0 fun t => { t with mode := .s }, by decide +kernel⟩,
   ⟨0, 1, 2, s0, by decide +kernel⟩,
   ⟨0, 1, 2, s0, by decide +kernel⟩,
   ⟨0, 1, 2, s0, by decide +kernel⟩,
   ⟨0, 1, 2, s0, by decide +kernel⟩,
   ⟨0, 1, 2, s0, by decide +kernel⟩,
   ⟨0, 1, 2, s0, by decide +kernel⟩⟩

theorem wit_RetireMovesPcAndCount :
    (∃ (h : Nat) (s : State), (s.unwatched h)) :=
  ⟨0, s0, by decide +kernel⟩

theorem wit_WaitsComplete :
    (∃ (h : Fin 1024) (s : State), (s.free_ h) ∧ (s.drained h) ∧ ((s.hart h).lrDelay = none) ∧ ((s.hart h).mode = .m)) ∧
    (∃ (h : Fin 1024) (s : State), (s.free_ h) ∧ (s.drained h) ∧ ((s.hart h).lrDelay = none) ∧ ((s.hart h).mode = .m) ∧ ((s.hart h).resv ≠ none)) ∧
    (∃ (h : Fin 1024) (s : State), (s.free_ h) ∧ (s.drained h) ∧ ((s.hart h).lrDelay = none) ∧ ((s.hart h).mode ≠ .debug) ∧ ((s.hart h).resv ≠ none)) ∧
    (∃ (h : Fin 1024) (rd : Fin 32) (imm : BitVec 12) (s : State), (s.free_ h) ∧ (s.drained h) ∧ ((s.hart h).lrDelay = none) ∧ ((s.hart h).mode = .m) ∧ (imm.toNat < 3) ∧ ((s.hart h).wake = false)) ∧
    (∃ (h : Fin 1024) (p : Park) (s : State), (s.still) ∧ ((s.hart h).park = some p) ∧ ((p.kind = .wfi ∨ p.kind = .wrsNto)) ∧ ((s.hart h).mode = .u) ∧ ((s.hart h).eid = 0) ∧ ((s.tile (tileOf h)).ceid = 0) ∧ ((s.csr h 0x302).getLsbD 2 = false) ∧ ((s.hart h).dbgPend = false) ∧ (s.unwatched h) ∧ ((s.hart h).pause = false) ∧ (s.csr h 0x304 = 0) ∧ ((∀ q < 4, (s.quad (dieOf (tileOf h) * 4 + q)).waiting = []))) ∧
    (∃ (h : Fin 1024) (p : Park) (s : State), (s.still) ∧ ((s.hart h).park = some p) ∧ (p.kind = .wrsSto) ∧ ((s.hart h).eid = 0) ∧ ((s.tile (tileOf h)).ceid = 0) ∧ ((s.hart h).dbgPend = false) ∧ (s.unwatched h) ∧ ((s.hart h).pause = false) ∧ (s.csr h 0x304 = 0) ∧ ((∀ q < 4, (s.quad (dieOf (tileOf h) * 4 + q)).waiting = []))) ∧
    (∃ (h : Fin 1024) (s : State), (s.free_ h)) ∧
    (∃ (h : Fin 1024) (s : State), (s.still) ∧ ((s.hart h).pause = true) ∧ ((s.hart h).dbgPend = false) ∧ (s.unwatched h) ∧ ((s.hart h).park = none) ∧ (s.csr h 0x304 = 0) ∧ ((∀ q < 4, (s.quad (dieOf (tileOf h) * 4 + q)).waiting = []))) ∧
    (∃ (h : Fin 1024) (l : LineAddr) (s : State), (s.still) ∧ ((s.hart h).lrDelay = some l) ∧ ((s.quad (dieOf (tileOf h) * 4 + quadOf l)).waiting = []) ∧ (s.harts.all (fun e => match e.2.wait with | some (.swop _ _ _ _ _) => false | _ => true) = true)) :=
  ⟨⟨0, s0, by decide +kernel⟩,
   ⟨0, hart s0 0 fun t => { t with resv := some 5 }, by decide +kernel⟩,
   ⟨0, hart s0 0 fun t => { t with resv := some 5 }, by decide +kernel⟩,
   ⟨0, 5, 1, s0, by decide +kernel⟩,
   ⟨0, ⟨.wfi, 0, 1, false, none, 0, none⟩, hart s0 0 fun t => { t with run := .parked, park := some ⟨.wfi, 0, 1, false, none, 0, none⟩, mode := .u }, by decide +kernel⟩,
   ⟨0, ⟨.wrsSto, 0, 1, false, none, 0, none⟩, hart s0 0 fun t => { t with run := .parked, park := some ⟨.wrsSto, 0, 1, false, none, 0, none⟩, mode := .u }, by decide +kernel⟩,
   ⟨0, s0, by decide +kernel⟩,
   ⟨0, hart s0 0 fun t => { t with pause := true }, by decide +kernel⟩,
   ⟨0, 5, hart s0 0 fun t => { t with lrDelay := some 5 }, by decide +kernel⟩⟩

theorem wit_SeedKeysWakeComplete :
    (∃ (h : Fin 1024) (rd : Fin 32) (s : State), (s.free_ h) ∧ ((s.hart h).mode = .m) ∧ (s.fld FOX_TRNG_STAT_DRBGOK = 0)) ∧
    (∃ (h : Fin 1024) (rd : Fin 32) (rs1 : Fin 32) (s : State), (s.free_ h) ∧ (((s.hart h).mode = .m ∨ (s.hart h).mode = .s))) ∧
    (∃ (h : Fin 1024) (k : Fin 1024) (rd : Fin 32) (rs1 : Fin 32) (s : State), (s.free_ h) ∧ (s.drained h) ∧ (s.undisturbed k) ∧ (h ≠ k) ∧ ((s.hart h).mode = .m) ∧ ((Run.start s).xr h rs1 = BitVec.ofNat 64 k) ∧ (s.online (dieOf (tileOf k)) = true)) :=
  ⟨⟨0, 3, s0, by decide +kernel⟩,
   ⟨0, 3, 1, s0, by decide +kernel⟩,
   ⟨0, 5, 3, 2, { s0 with xs := [(2, 5)] }, by decide +kernel⟩⟩

theorem wit_CsrWritesComplete :
    (∃ (h : Fin 1024) (rd : Fin 32) (rs1 : Fin 32) (s : State), (s.free_ h) ∧ ((s.hart h).mode = .m)) ∧
    (∃ (h : Fin 1024) (j : Fin 8) (rd : Fin 32) (rs1 : Fin 32) (s : State), (s.free_ h) ∧ ((s.hart h).mode = .m)) ∧
    (∃ (h : Fin 1024) (j : Fin 4) (rd : Fin 32) (rs1 : Fin 32) (s : State), (s.free_ h) ∧ ((s.hart h).mode = .m)) ∧
    (∃ (h : Fin 1024) (rd : Fin 32) (rs1 : Fin 32) (s : State), (s.free_ h) ∧ ((s.hart h).mode = .m) ∧ ((Run.start s).pmpLocked h 63 = false)) ∧
    (∃ (h : Fin 1024) (rd : Fin 32) (rs1 : Fin 32) (s : State), (s.free_ h) ∧ ((s.hart h).mode = .m) ∧ (Word.bits ((Run.start s).xr h rs1) 63 60 ∈ [0, 8, 9, 10])) ∧
    (∃ (h : Fin 1024) (rd : Fin 32) (s : State), (s.free_ h) ∧ ((s.hart h).mode = .m) ∧ ((Run.start s).topId h 0 ≠ 0)) :=
  ⟨⟨0, 3, 1, s0, by decide +kernel⟩,
   ⟨0, 1, 3, 1, s0, by decide +kernel⟩,
   ⟨0, 1, 3, 1, s0, by decide +kernel⟩,
   ⟨0, 3, 1, s0, by decide +kernel⟩,
   ⟨0, 3, 1, s0, by decide +kernel⟩,
   ⟨0, 3, { s0 with imsic := [(0, { pend := 4, enab := 4 })] }, by decide +kernel⟩⟩

theorem wit_ReturnsComplete :
    (∃ (h : Fin 1024) (s : State), (s.free_ h) ∧ ((s.hart h).mode = .m)) ∧
    (∃ (h : Fin 1024) (s : State), (s.free_ h) ∧ ((s.hart h).mode = .s) ∧ ((s.csr h 0x300).getLsbD 22 = false)) ∧
    (∃ (h : Fin 1024) (s : State), (s.free_ h) ∧ ((s.hart h).mode = .m)) :=
  ⟨⟨0, s0, by decide +kernel⟩,
   ⟨0, hart s0 0 fun t => { t with mode := .s }, by decide +kernel⟩,
   ⟨0, s0, by decide +kernel⟩⟩

theorem wit_LoadAndStoreComplete :
    (∃ (h : Fin 1024) (rd : Fin 32) (rs1 : Fin 32) (imm : BitVec 12) (lg : Fin 4) (uns : Bool) (w : Nat) (x : L2Slot) (p : PPart) (s : State), (s.free_ h) ∧ (s.drained h) ∧ (badLoad (.x rd) imm lg uns .plain = false) ∧ ((Run.start s).plan h .load ((Run.start s).effective h false).1 ((Run.start s).effective h false).2 false false (loadTinst (.x rd) lg uns .plain)
      ((Run.start s).xr h rs1 + imm.signExtend 64) (2 ^ lg.val) = (Run.start s, .ok [p])) ∧ (p.dev = false) ∧ (p.mt = 0) ∧ (s.l2Hit (tileOf h) p.part.line w x) ∧ (x.poison = false)) ∧
    (∃ (h : Fin 1024) (rs2 : Fin 32) (rs1 : Fin 32) (imm : BitVec 12) (lg : Fin 4) (p : PPart) (s : State), (s.free_ h) ∧ (s.drained h) ∧ ((Run.start s).sqFree (tileOf h) h 1 = true) ∧ (s.unarmed (tileOf h) 4) ∧ ((Run.start s).plan h .store ((Run.start s).effective h false).1 ((Run.start s).effective h false).2 false false (storeTinst (.x rs2) lg .plain)
      ((Run.start s).xr h rs1 + imm.signExtend 64) (2 ^ lg.val) = (Run.start s, .ok [p])) ∧ (p.dev = false) ∧ (p.mt = 0) ∧ (spanMask p.part.off p.len ≠ BitVec.allOnes 64)) :=
  ⟨⟨0, 5, 1, 8, 3, false, 0, ⟨0x2000040, .M, 0x8877665544332211, false, none, false⟩, ⟨0x80001008, 0, 8, 0⟩, { s0 with l2 := [(l2Key 0 0x2000040 0, ⟨0x2000040, .M, 0x8877665544332211, false, none, false⟩)], l1d := [(l1Key 0 0x2000040 0, ⟨0x2000040, none, false⟩)] }, by decide +kernel⟩,
   ⟨0, 2, 1, 8, 3, ⟨0x80001008, 0, 8, 0⟩, s0, by decide +kernel⟩⟩

theorem wit_AtomicsComplete :
    (∃ (h : Fin 1024) (op : AmoOp) (lg : Fin 5) (rd : Fin 32) (rs1 : Fin 32) (rs2 : Fin 32) (aq : Bool) (w : Nat) (pa : Nat) (x : L2Slot) (s : State), (s.free_ h) ∧ (s.drained h) ∧ (lg.val < 4) ∧ (((Run.start s).xr h rs1).toNat % 16 + 2 ^ lg.val ≤ 16) ∧ ((Run.start s).translate h .store ((Run.start s).effective h false).1 ((Run.start s).effective h false).2 false false
      (amoTinst (amoFunct op) lg rd rs2 aq false) ((Run.start s).xr h rs1) (2 ^ lg.val) = (Run.start s, .ok pa 0)) ∧ ((regionOf pa).device = false) ∧ ((Run.start s).homePath h pa (2 ^ lg.val) = false) ∧ (s.l2Hit (tileOf h) (BitVec.ofNat 46 (pa / 64)) w x) ∧ (x.st ≠ .S) ∧ (x.st ≠ .O) ∧ (x.poison = false) ∧ (s.unarmed (tileOf h) 5) ∧ (s.fld (L2CTL_STATUS_CACHE_DISABLE_PENDING (tileOf h)) = 0) ∧ ((∀ e ∈ s.harts, e.2.resv ≠ some (BitVec.ofNat 46 (pa / 64))))) ∧
    (∃ (h : Fin 1024) (lg : Fin 4) (rd : Fin 32) (rs1 : Fin 32) (aq : Bool) (w : Nat) (pa : Nat) (x : L2Slot) (s : State), (s.free_ h) ∧ (s.drained h) ∧ (2 ≤ lg.val) ∧ (((Run.start s).xr h rs1).toNat % 2 ^ lg.val = 0) ∧ ((Run.start s).translate h .load ((Run.start s).effective h false).1 ((Run.start s).effective h false).2 false false
      (amoTinst 2 lg rd 0 aq false) ((Run.start s).xr h rs1) (2 ^ lg.val) = (Run.start s, .ok pa 0)) ∧ ((regionOf pa).device = false) ∧ (s.l2Hit (tileOf h) (BitVec.ofNat 46 (pa / 64)) w x) ∧ (x.poison = false)) ∧
    (∃ (h : Fin 1024) (lg : Fin 4) (rd : Fin 32) (rs1 : Fin 32) (rs2 : Fin 32) (aq : Bool) (w : Nat) (pa : Nat) (x : L2Slot) (s : State), (s.free_ h) ∧ (s.drained h) ∧ (2 ≤ lg.val) ∧ (((Run.start s).xr h rs1).toNat % 2 ^ lg.val = 0) ∧ ((Run.start s).translate h .store ((Run.start s).effective h false).1 ((Run.start s).effective h false).2 false false
      (amoTinst 3 lg rd rs2 aq false) ((Run.start s).xr h rs1) (2 ^ lg.val) = (Run.start s, .ok pa 0)) ∧ ((regionOf pa).device = false) ∧ (s.l2Hit (tileOf h) (BitVec.ofNat 46 (pa / 64)) w x) ∧ (x.st ≠ .S) ∧ (x.st ≠ .O) ∧ (x.poison = false) ∧ (s.unarmed (tileOf h) 5) ∧ (s.fld (L2CTL_STATUS_CACHE_DISABLE_PENDING (tileOf h)) = 0) ∧ ((s.hart h).resv = some (BitVec.ofNat 46 (pa / 64))) ∧ ((s.hart h).lrDelay = none) ∧ ((∀ e ∈ s.harts, e.1 ≠ h → e.2.resv ≠ some (BitVec.ofNat 46 (pa / 64))))) :=
  ⟨⟨0, .add, 3, 5, 1, 2, false, 0, 0x80001000, ⟨0x2000040, .M, 0x8877665544332211, false, none, false⟩, { s0 with l2 := [(l2Key 0 0x2000040 0, ⟨0x2000040, .M, 0x8877665544332211, false, none, false⟩)], l1d := [(l1Key 0 0x2000040 0, ⟨0x2000040, none, false⟩)] }, by decide +kernel⟩,
   ⟨0, 3, 5, 1, false, 0, 0x80001000, ⟨0x2000040, .M, 0x8877665544332211, false, none, false⟩, { s0 with l2 := [(l2Key 0 0x2000040 0, ⟨0x2000040, .M, 0x8877665544332211, false, none, false⟩)], l1d := [(l1Key 0 0x2000040 0, ⟨0x2000040, none, false⟩)] }, by decide +kernel⟩,
   ⟨0, 3, 5, 1, 2, false, 0, 0x80001000, ⟨0x2000040, .M, 0x8877665544332211, false, none, false⟩, hart ({ s0 with l2 := [(l2Key 0 0x2000040 0, ⟨0x2000040, .M, 0x8877665544332211, false, none, false⟩)], l1d := [(l1Key 0 0x2000040 0, ⟨0x2000040, none, false⟩)] }) 0 fun t => { t with resv := some 0x2000040 }, by decide +kernel⟩⟩

theorem wit_DrainsComplete :
    (∃ (n : Fin 256) (e : SmbEntry) (w : Nat) (x : L2Slot) (s : State), (s.still) ∧ ((s.tile n).smb = [e]) ∧ ((s.tile n).sq = []) ∧ (e.flip = none) ∧ (s.l2Hit n e.line w x) ∧ (x.st ≠ .S) ∧ (x.st ≠ .O) ∧ (s.unarmed n 5) ∧ (s.fld (L2CTL_STATUS_CACHE_DISABLE_PENDING n) = 0) ∧ ((∀ d ∈ s.harts, d.2.resv ≠ some e.line)) ∧ ((s.hart e.hart).wait = none)) ∧
    (∃ (h : Fin 1024) (rs1 : Fin 32) (w : Nat) (pa : Nat) (x : L2Slot) (s : State), (s.free_ h) ∧ (s.drained h) ∧ ((s.hart h).mode = .m) ∧ ((Run.start s).translate h .store ((Run.start s).effective h false).1 ((Run.start s).effective h false).2 false false
      (Cbo.tinst .zero) ((Run.start s).xr h rs1) 1 = (Run.start s, .ok pa 0)) ∧ ((regionOf pa).device = false) ∧ ((Run.start s).sqFree (tileOf h) h 1 = true) ∧ (s.unarmed (tileOf h) 4) ∧ (s.unarmed (tileOf h) 5) ∧ (s.l2Hit (tileOf h) (BitVec.ofNat 46 (pa / 64)) w x) ∧ (x.st ≠ .S) ∧ (x.st ≠ .O) ∧ (s.fld (L2CTL_STATUS_CACHE_DISABLE_PENDING (tileOf h)) = 0) ∧ ((∀ e ∈ s.harts, e.2.resv ≠ some (BitVec.ofNat 46 (pa / 64))))) :=
  ⟨⟨0, ⟨0, 0x2000040, 5, 1, false, false, none⟩, 0, ⟨0x2000040, .M, 0x8877665544332211, false, none, false⟩, { { s0 with l2 := [(l2Key 0 0x2000040 0, ⟨0x2000040, .M, 0x8877665544332211, false, none, false⟩)], l1d := [(l1Key 0 0x2000040 0, ⟨0x2000040, none, false⟩)] } with tiles := [(0, { smb := [⟨0, 0x2000040, 5, 1, false, false, none⟩] })] }, by decide +kernel⟩,
   ⟨0, 1, 0, 0x80001000, ⟨0x2000040, .M, 0x8877665544332211, false, none, false⟩, { s0 with l2 := [(l2Key 0 0x2000040 0, ⟨0x2000040, .M, 0x8877665544332211, false, none, false⟩)], l1d := [(l1Key 0 0x2000040 0, ⟨0x2000040, none, false⟩)] }, by decide +kernel⟩⟩

theorem wit_MaintenanceIsSentHome :
    (∃ (h : Fin 1024) (rs1 : Fin 32) (pa : Nat) (mt : Nat) (s : State), (s.free_ h) ∧ (s.drained h) ∧ ((s.hart h).mode = .m) ∧ ((Run.start s).translate h .clean ((Run.start s).effective h false).1 ((Run.start s).effective h false).2 false false
      (Cbo.tinst .clean) ((Run.start s).xr h rs1) 1 = (Run.start s, .ok pa mt)) ∧ ((regionOf pa).device = false)) ∧
    (∃ (h : Fin 1024) (rs1 : Fin 32) (pa : Nat) (mt : Nat) (s : State), (s.free_ h) ∧ (s.drained h) ∧ ((s.hart h).mode = .m) ∧ ((Run.start s).translate h .clean ((Run.start s).effective h false).1 ((Run.start s).effective h false).2 false false
      (Cbo.tinst .flush) ((Run.start s).xr h rs1) 1 = (Run.start s, .ok pa mt)) ∧ ((regionOf pa).device = false)) ∧
    (∃ (h : Fin 1024) (rs1 : Fin 32) (pa : Nat) (mt : Nat) (s : State), (s.free_ h) ∧ (s.drained h) ∧ ((s.hart h).mode = .m) ∧ ((Run.start s).translate h .inval ((Run.start s).effective h false).1 ((Run.start s).effective h false).2 false false
      (Cbo.tinst .inval) ((Run.start s).xr h rs1) 1 = (Run.start s, .ok pa mt)) ∧ ((regionOf pa).device = false)) ∧
    (∃ (h : Fin 1024) (rd : Fin 32) (rs1 : Fin 32) (rs2 : Fin 32) (pa : Nat) (mt : Nat) (s : State), (s.free_ h) ∧ (s.drained h) ∧ ((s.hart h).mode = .m) ∧ (
      let a := (Run.start s).xr h rs1 &&& ~~~ 0x3F
      (a < (Run.start s).xr h rs2) ∧ ((Run.start s).translate h .clean ((Run.start s).effective h false).1 ((Run.start s).effective h false).2 false false 0 a 1 = (Run.start s, .ok pa mt)) ∧ ((regionOf pa).device = false))) :=
  ⟨⟨0, 1, 0x80001000, 0, s0, by decide +kernel⟩,
   ⟨0, 1, 0x80001000, 0, s0, by decide +kernel⟩,
   ⟨0, 1, 0x80001000, 0, s0, by decide +kernel⟩,
   ⟨0, 5, 1, 2, 0x80001000, 0, { s0 with xs := [(1, 0x80001000), (2, 0x80001080)] }, by decide +kernel⟩⟩

theorem wit_PrefetchAndSlotComplete :
    (∃ (h : Fin 1024) (rs1 : Fin 32) (imm : BitVec 12) (w : Nat) (pa : Nat) (s : State), (s.free_ h) ∧ (s.net = []) ∧ (s.canMiss (tileOf h) (BitVec.ofNat 46 (pa / 64)) w) ∧ ((Run.start s).translate h .load ((Run.start s).effective h false).1 ((Run.start s).effective h false).2 false false 0
      ((Run.start s).xr h rs1 + (imm &&& 0xFE0).signExtend 64) 1 = (Run.start s, .ok pa 0)) ∧ (regionOf pa = .memory)) ∧
    (∃ (h : Fin 1024) (rs1 : Fin 32) (imm : BitVec 12) (w : Nat) (pa : Nat) (s : State), (s.free_ h) ∧ (s.net = []) ∧ (s.canMiss (tileOf h) (BitVec.ofNat 46 (pa / 64)) w) ∧ ((Run.start s).translate h .store ((Run.start s).effective h false).1 ((Run.start s).effective h false).2 false false 0
      ((Run.start s).xr h rs1 + (imm &&& 0xFE0).signExtend 64) 1 = (Run.start s, .ok pa 0)) ∧ (regionOf pa = .memory)) ∧
    (∃ (h : Fin 1024) (rs1 : Fin 32) (imm : BitVec 12) (pa : Nat) (s : State), (s.free_ h) ∧ ((Run.start s).translate h .fetch ((Run.start s).effective h false).1 ((Run.start s).effective h false).2 false false 0
      ((Run.start s).xr h rs1 + (imm &&& 0xFE0).signExtend 64) 1 = (Run.start s, .ok pa 0)) ∧ (regionOf pa = .memory) ∧ ((Run.start s).l2Has (tileOf h) (BitVec.ofNat 46 (pa / 64)) false = true) ∧ ((Run.start s).l1iFind (tileOf h) (BitVec.ofNat 46 (pa / 64)) = none) ∧ ((Run.start s).l2Off (tileOf h) = false) ∧ ((Run.start s).l3Off (dieOf (tileOf h)) (BitVec.ofNat 46 (pa / 64)) = false) ∧ (s.unarmed (tileOf h) 0) ∧ (s.unarmed (tileOf h) 1)) ∧
    (∃ (h : Fin 1024) (rd : Fin 32) (rs1 : Fin 32) (s : State), (s.free_ h) ∧ (s.drained h) ∧ ((s.hart h).mode = .m) ∧ (Word.bits ((Run.start s).xr h rs1) 14 0 < 64) ∧ ((Run.start s).xr h rs1 &&& ~~~ 0xF00007FFF = 0)) :=
  ⟨⟨0, 1, 0, 0, 0x80001000, s0, by decide +kernel⟩,
   ⟨0, 1, 0, 0, 0x80001000, s0, by decide +kernel⟩,
   ⟨0, 1, 0, 0x80001000, { s0 with l2 := [(l2Key 0 0x2000040 0, ⟨0x2000040, .M, 0x8877665544332211, false, none, false⟩)], l1d := [(l1Key 0 0x2000040 0, ⟨0x2000040, none, false⟩)] }, by decide +kernel⟩,
   ⟨0, 5, 3, { s0 with l1i := [(0, ⟨5, none, false⟩)] }, by decide +kernel⟩⟩

theorem wit_GatesComplete :
    (∃ (h : Fin 1024) (rd : Fin 32) (rs1 : Fin 32) (rs2 : Fin 32) (e : Fin 65) (t : Fin 16) (s : State), (s.free_ h) ∧ (rd ≠ 11) ∧ (((s.hart h).mode = .s ∨ (s.hart h).mode = .u)) ∧ ((s.hart h).eid = 0) ∧ ((Run.start s).xr h rs1 = BitVec.ofNat 64 (e.val + 256 * t.val)) ∧ (e ≠ 0) ∧ (s.fld (ENC_STAT_STATE e) = 2) ∧ (t.val ≤ s.fld (ENC_STAT_NTHR e)) ∧ (natBit (s.fld (ENC_STAT_TLOST e)) t = false) ∧ (natBit (s.fld (ENC_STAT_TBUSY e)) t = false) ∧ (natBit (s.fld (ENC_STAT_TSUSP e)) t = false) ∧ ((s.tile (tileOf h)).ceid = 0) ∧ ((∀ k < 4, tileOf h * 4 + k ≠ h → (s.hart (tileOf h * 4 + k)).run ≠ .running))) ∧
    (∃ (h : Fin 1024) (rs1 : Fin 32) (c : Caller) (s : State), (s.free_ h) ∧ ((s.hart h).eid ≠ 0) ∧ ((s.hart h).eid < 65) ∧ ((s.hart h).thread < 16) ∧ ((s.hart h).saved = some c) ∧ (c.rd ≠ 0) ∧ (c.rd ≠ 11) ∧ (c.rd < 32) ∧ ((∀ k < 4, tileOf h * 4 + k ≠ h → (s.hart (tileOf h * 4 + k)).eid ≠ (s.hart h).eid))) ∧
    (∃ (h : Fin 1024) (x : TrapCause) (c : Caller) (s : State), (s.free_ h) ∧ (s.net = []) ∧ (s.lineq = []) ∧ ((∀ e ∈ s.harts, e.2.resv = none)) ∧ ((s.hart h).mode = .u) ∧ ((s.hart h).eid ≠ 0) ∧ ((s.hart h).eid < 65) ∧ ((s.hart h).thread < 16) ∧ ((s.hart h).saved = some c) ∧ (c.rd ≠ 0) ∧ (c.rd ≠ 11) ∧ (c.rd < 32) ∧ (c.mode = .u) ∧ (x.intr = false) ∧ ((s.csr h 0x302).getLsbD x.cause.toNat = false) ∧ ((∀ k < 4, tileOf h * 4 + k ≠ h → (s.hart (tileOf h * 4 + k)).eid ≠ (s.hart h).eid))) ∧
    (∃ (n : Fin 256) (s : State), (s.still) ∧ ((s.tile n).switching = true) ∧ ((s.tile n).smb = []) ∧ ((s.tile n).sq = []) ∧ ((s.tile n).miss = []) ∧ ((∀ e ∈ s.l2, e.1 / 8 / 2048 ≠ n.val)) ∧ ((∀ k < 4, s.undisturbed (n * 4 + k)))) ∧
    (∃ (h : Fin 1024) (s : State), (s.still) ∧ ((s.hart h).run = .running) ∧ ((s.hart h).mode = .s) ∧ ((s.hart h).eid = 0) ∧ ((s.hart h).wait = none) ∧ ((s.hart h).park = none) ∧ ((s.hart h).dbgCause = 3)) :=
  ⟨⟨0, 5, 1, 2, 3, 1, put { hart s0 0 (fun t => { t with mode := .s }) with xs := [(1, 0x103), (2, 9)] } [(ENC_STAT_STATE 3, 2), (ENC_STAT_NTHR 3, 2)], by decide +kernel⟩,
   ⟨0, 2, ⟨0x100, .u, 5, [1,2,3,4,5,6,7,8,9,10,11,12,13,14,15,16]⟩, put (hart s0 0 fun t => { t with mode := .u, eid := 3, thread := 1, saved := some ⟨0x100, .u, 5, [1,2,3,4,5,6,7,8,9,10,11,12,13,14,15,16]⟩ }) [(ENC_STAT_TBUSY 3, 2)], by decide +kernel⟩,
   ⟨0, ⟨2, false, 0⟩, ⟨0x100, .u, 5, [1,2,3,4,5,6,7,8,9,10,11,12,13,14,15,16]⟩, put (hart s0 0 fun t => { t with mode := .u, eid := 3, thread := 1, saved := some ⟨0x100, .u, 5, [1,2,3,4,5,6,7,8,9,10,11,12,13,14,15,16]⟩ }) [(ENC_STAT_TBUSY 3, 2)], by decide +kernel⟩,
   ⟨0, { s0 with tiles := [(0, { switching := true, ceid := 3 })] }, by decide +kernel⟩,
   ⟨0, hart s0 0 fun t => { t with mode := .s }, by decide +kernel⟩⟩

theorem wit_RequestsAskMemory :
    (∃ (m : Msg) (c : Nat) (la : Nat) (s : State), (s.oneMsg m) ∧ (s.freeHome m c la) ∧ (s.unheld m.line) ∧ (m.mask ≠ BitVec.allOnes 64) ∧ ((∀ e ∈ s.harts, e.2.resv ≠ some m.line)) ∧ (∃ p ∈ [(Instr.rds (s.packet m), MsgKind.rdS), (.rdx (s.packet m), .rdX), (.upg (s.packet m), .upg), (.rdonce (s.packet m), .rdOnce), (.wrpart (s.packet m), .wrPart), (.atomh (s.packet m), .atomH)], m.kind = p.2)) ∧
    (∃ (m : Msg) (c : Nat) (la : Nat) (s : State), (s.oneMsg m) ∧ (s.freeHome m c la) ∧ (s.unheld m.line) ∧ (m.mask ≠ BitVec.allOnes 64) ∧ ((∀ e ∈ s.harts, e.2.resv ≠ some m.line)) ∧ (∃ p ∈ [(Instr.rds (s.packet m), MsgKind.rdS), (.rdx (s.packet m), .rdX), (.upg (s.packet m), .upg), (.rdonce (s.packet m), .rdOnce), (.wrpart (s.packet m), .wrPart), (.atomh (s.packet m), .atomH)], m.kind = p.2)) ∧
    (∃ (m : Msg) (c : Nat) (la : Nat) (s : State), (s.oneMsg m) ∧ (s.freeHome m c la) ∧ (s.unheld m.line) ∧ (m.mask ≠ BitVec.allOnes 64) ∧ ((∀ e ∈ s.harts, e.2.resv ≠ some m.line)) ∧ (∃ p ∈ [(Instr.rds (s.packet m), MsgKind.rdS), (.rdx (s.packet m), .rdX), (.upg (s.packet m), .upg), (.rdonce (s.packet m), .rdOnce), (.wrpart (s.packet m), .wrPart), (.atomh (s.packet m), .atomH)], m.kind = p.2)) ∧
    (∃ (m : Msg) (c : Nat) (la : Nat) (s : State), (s.oneMsg m) ∧ (s.freeHome m c la) ∧ (s.unheld m.line) ∧ (m.mask ≠ BitVec.allOnes 64) ∧ ((∀ e ∈ s.harts, e.2.resv ≠ some m.line)) ∧ (∃ p ∈ [(Instr.rds (s.packet m), MsgKind.rdS), (.rdx (s.packet m), .rdX), (.upg (s.packet m), .upg), (.rdonce (s.packet m), .rdOnce), (.wrpart (s.packet m), .wrPart), (.atomh (s.packet m), .atomH)], m.kind = p.2)) ∧
    (∃ (m : Msg) (c : Nat) (la : Nat) (s : State), (s.oneMsg m) ∧ (s.freeHome m c la) ∧ (s.unheld m.line) ∧ (m.mask ≠ BitVec.allOnes 64) ∧ ((∀ e ∈ s.harts, e.2.resv ≠ some m.line)) ∧ (∃ p ∈ [(Instr.rds (s.packet m), MsgKind.rdS), (.rdx (s.packet m), .rdX), (.upg (s.packet m), .upg), (.rdonce (s.packet m), .rdOnce), (.wrpart (s.packet m), .wrPart), (.atomh (s.packet m), .atomH)], m.kind = p.2)) ∧
    (∃ (m : Msg) (c : Nat) (la : Nat) (s : State), (s.oneMsg m) ∧ (s.freeHome m c la) ∧ (s.unheld m.line) ∧ (m.mask ≠ BitVec.allOnes 64) ∧ ((∀ e ∈ s.harts, e.2.resv ≠ some m.line)) ∧ (∃ p ∈ [(Instr.rds (s.packet m), MsgKind.rdS), (.rdx (s.packet m), .rdX), (.upg (s.packet m), .upg), (.rdonce (s.packet m), .rdOnce), (.wrpart (s.packet m), .wrPart), (.atomh (s.packet m), .atomH)], m.kind = p.2)) :=
  ⟨⟨{ kind := .rdS, src := .die 0, dst := homeOf 0x2000040, line := 0x2000040 }, 0, 0x1000, { s0 with net := [{ kind := .rdS, src := .die 0, dst := homeOf 0x2000040, line := 0x2000040 }] }, by decide +kernel⟩,
   ⟨{ kind := .rdX, src := .die 0, dst := homeOf 0x2000040, line := 0x2000040 }, 0, 0x1000, { s0 with net := [{ kind := .rdX, src := .die 0, dst := homeOf 0x2000040, line := 0x2000040 }] }, by decide +kernel⟩,
   ⟨{ kind := .upg, src := .die 0, dst := homeOf 0x2000040, line := 0x2000040 }, 0, 0x1000, { s0 with net := [{ kind := .upg, src := .die 0, dst := homeOf 0x2000040, line := 0x2000040 }] }, by decide +kernel⟩,
   ⟨{ kind := .rdOnce, src := .die 0, dst := homeOf 0x2000040, line := 0x2000040 }, 0, 0x1000, { s0 with net := [{ kind := .rdOnce, src := .die 0, dst := homeOf 0x2000040, line := 0x2000040 }] }, by decide +kernel⟩,
   ⟨{ kind := .wrPart, src := .die 0, dst := homeOf 0x2000040, line := 0x2000040 }, 0, 0x1000, { s0 with net := [{ kind := .wrPart, src := .die 0, dst := homeOf 0x2000040, line := 0x2000040 }] }, by decide +kernel⟩,
   ⟨{ kind := .atomH, src := .die 0, dst := homeOf 0x2000040, line := 0x2000040 }, 0, 0x1000, { s0 with net := [{ kind := .atomH, src := .die 0, dst := homeOf 0x2000040, line := 0x2000040 }] }, by decide +kernel⟩⟩

theorem wit_RequestsWithoutData :
    (∃ (m : Msg) (d : Fin 16) (c : Nat) (la : Nat) (s : State), (s.oneMsg m) ∧ (s.freeHome m c la) ∧ (s.unheld m.line) ∧ ((∀ e ∈ s.harts, e.2.resv ≠ some m.line)) ∧ (m.kind = .claim) ∧ (m.src = .die d)) ∧
    (∃ (m : Msg) (c : Nat) (la : Nat) (s : State), (s.oneMsg m) ∧ (s.freeHome m c la) ∧ (s.unheld m.line) ∧ ((∀ e ∈ s.harts, e.2.resv ≠ some m.line)) ∧ (m.kind = .wrLine) ∧ (m.stash = none)) ∧
    (∃ (m : Msg) (c : Nat) (la : Nat) (s : State), (s.oneMsg m) ∧ (s.freeHome m c la) ∧ (s.unheld m.line) ∧ ((∀ e ∈ s.harts, e.2.resv ≠ some m.line)) ∧ (∃ p ∈ [(Instr.cboc (s.packet m), MsgKind.cboC), (.cbof (s.packet m), .cboF), (.cboi (s.packet m), .cboI)], m.kind = p.2)) ∧
    (∃ (m : Msg) (c : Nat) (la : Nat) (s : State), (s.oneMsg m) ∧ (s.freeHome m c la) ∧ (s.unheld m.line) ∧ ((∀ e ∈ s.harts, e.2.resv ≠ some m.line)) ∧ (∃ p ∈ [(Instr.cboc (s.packet m), MsgKind.cboC), (.cbof (s.packet m), .cboF), (.cboi (s.packet m), .cboI)], m.kind = p.2)) ∧
    (∃ (m : Msg) (c : Nat) (la : Nat) (s : State), (s.oneMsg m) ∧ (s.freeHome m c la) ∧ (s.unheld m.line) ∧ ((∀ e ∈ s.harts, e.2.resv ≠ some m.line)) ∧ (∃ p ∈ [(Instr.cboc (s.packet m), MsgKind.cboC), (.cbof (s.packet m), .cboF), (.cboi (s.packet m), .cboI)], m.kind = p.2)) :=
  ⟨⟨{ kind := .claim, src := .die 0, dst := homeOf 0x2000040, line := 0x2000040 }, 0, 0, 0x1000, { s0 with net := [{ kind := .claim, src := .die 0, dst := homeOf 0x2000040, line := 0x2000040 }] }, by decide +kernel⟩,
   ⟨{ kind := .wrLine, src := .die 0, dst := homeOf 0x2000040, line := 0x2000040 }, 0, 0x1000, { s0 with net := [{ kind := .wrLine, src := .die 0, dst := homeOf 0x2000040, line := 0x2000040 }] }, by decide +kernel⟩,
   ⟨{ kind := .cboC, src := .die 0, dst := homeOf 0x2000040, line := 0x2000040 }, 0, 0x1000, { s0 with net := [{ kind := .cboC, src := .die 0, dst := homeOf 0x2000040, line := 0x2000040 }] }, by decide +kernel⟩,
   ⟨{ kind := .cboF, src := .die 0, dst := homeOf 0x2000040, line := 0x2000040 }, 0, 0x1000, { s0 with net := [{ kind := .cboF, src := .die 0, dst := homeOf 0x2000040, line := 0x2000040 }] }, by decide +kernel⟩,
   ⟨{ kind := .cboI, src := .die 0, dst := homeOf 0x2000040, line := 0x2000040 }, 0, 0x1000, { s0 with net := [{ kind := .cboI, src := .die 0, dst := homeOf 0x2000040, line := 0x2000040 }] }, by decide +kernel⟩⟩

theorem wit_EvictionsComplete :
    (∃ (m : Msg) (d : Fin 16) (c : Nat) (la : Nat) (w : Nat) (s : State), (s.oneMsg m) ∧ (s.freeHome m c la) ∧ ((s.slice (quadOf m.line)).devs = []) ∧ (m.src = .die d) ∧ ((Run.start s).gated (400 + quadOf m.line) = false) ∧ ((List.range 16).find? (fun v => (s.filtEntry (l3Key d m.line v)).any (·.line = m.line)) = some w) ∧ (s.filtEntry (l3Key d m.line w) = some ⟨m.line, .X, none⟩) ∧ (∃ p ∈ [(Instr.evm (s.packet m), MsgKind.evM, (none : Option FEntry)), (.evo (s.packet m), .evO, none), (.wbkeep (s.packet m), .wbKeep, some ⟨m.line, .X, none⟩)], m.kind = p.2.1 ∧ ((m.kind = .wbKeep → m.st = .E)))) ∧
    (∃ (m : Msg) (d : Fin 16) (c : Nat) (la : Nat) (w : Nat) (s : State), (s.oneMsg m) ∧ (s.freeHome m c la) ∧ ((s.slice (quadOf m.line)).devs = []) ∧ (m.src = .die d) ∧ ((Run.start s).gated (400 + quadOf m.line) = false) ∧ ((List.range 16).find? (fun v => (s.filtEntry (l3Key d m.line v)).any (·.line = m.line)) = some w) ∧ (s.filtEntry (l3Key d m.line w) = some ⟨m.line, .X, none⟩) ∧ (∃ p ∈ [(Instr.evm (s.packet m), MsgKind.evM, (none : Option FEntry)), (.evo (s.packet m), .evO, none), (.wbkeep (s.packet m), .wbKeep, some ⟨m.line, .X, none⟩)], m.kind = p.2.1 ∧ ((m.kind = .wbKeep → m.st = .E)))) ∧
    (∃ (m : Msg) (d : Fin 16) (c : Nat) (la : Nat) (w : Nat) (s : State), (s.oneMsg m) ∧ (s.freeHome m c la) ∧ ((s.slice (quadOf m.line)).devs = []) ∧ (m.src = .die d) ∧ ((Run.start s).gated (400 + quadOf m.line) = false) ∧ ((List.range 16).find? (fun v => (s.filtEntry (l3Key d m.line v)).any (·.line = m.line)) = some w) ∧ (s.filtEntry (l3Key d m.line w) = some ⟨m.line, .X, none⟩) ∧ (∃ p ∈ [(Instr.evm (s.packet m), MsgKind.evM, (none : Option FEntry)), (.evo (s.packet m), .evO, none), (.wbkeep (s.packet m), .wbKeep, some ⟨m.line, .X, none⟩)], m.kind = p.2.1 ∧ ((m.kind = .wbKeep → m.st = .E)))) ∧
    (∃ (m : Msg) (d : Fin 16) (s : State), (s.oneMsg m) ∧ (m.kind = .evAck) ∧ (m.dst = .die d) ∧ ((∀ n, m.src ≠ .tile n)) ∧ ((s.quad (d * 4 + quadOf m.line)).waiting = []) ∧ (s.noSwop)) ∧
    (∃ (m : Msg) (n : Fin 256) (w : Nat) (x : L3Slot) (s : State), (s.oneMsg m) ∧ (m.kind = .evC) ∧ (m.src = .tile n) ∧ (m.dst = .die (Fin.ofNat 16 (dieOf n))) ∧ ((Run.start s).l3Find (dieOf n) m.line = some (w, x)) ∧ (s.fld (ARR_FLIP_ARM (dieOf n) (128 + quadOf m.line * 3 + 1)) = 0)) :=
  ⟨⟨{ kind := .evM, src := .die 0, dst := homeOf 0x2000040, line := 0x2000040, data := 9, st := .E }, 0, 0, 0x1000, 2, { s0 with net := [{ kind := .evM, src := .die 0, dst := homeOf 0x2000040, line := 0x2000040, data := 9, st := .E }], filt := [(l3Key 0 0x2000040 2, ⟨0x2000040, .X, none⟩)] }, by decide +kernel⟩,
   ⟨{ kind := .evO, src := .die 0, dst := homeOf 0x2000040, line := 0x2000040, data := 9, st := .E }, 0, 0, 0x1000, 2, { s0 with net := [{ kind := .evO, src := .die 0, dst := homeOf 0x2000040, line := 0x2000040, data := 9, st := .E }], filt := [(l3Key 0 0x2000040 2, ⟨0x2000040, .X, none⟩)] }, by decide +kernel⟩,
   ⟨{ kind := .wbKeep, src := .die 0, dst := homeOf 0x2000040, line := 0x2000040, data := 9, st := .E }, 0, 0, 0x1000, 2, { s0 with net := [{ kind := .wbKeep, src := .die 0, dst := homeOf 0x2000040, line := 0x2000040, data := 9, st := .E }], filt := [(l3Key 0 0x2000040 2, ⟨0x2000040, .X, none⟩)] }, by decide +kernel⟩,
   ⟨{ kind := .evAck, src := homeOf 0x2000040, dst := .die 0, line := 0x2000040 }, 0, { s0 with net := [{ kind := .evAck, src := homeOf 0x2000040, dst := .die 0, line := 0x2000040 }], quads := [(0 * 4 + quadOf 0x2000040, { vict := [⟨0x2000040, .M, 3, false, false, false, none⟩] })] }, by decide +kernel⟩,
   ⟨{ kind := .evC, src := .tile 1, dst := .die 0, line := 0x2000040 }, 1, 3, ⟨0x2000040, .E, 2, 0, 5, false, 2, none, false, false⟩, { s0 with net := [{ kind := .evC, src := .tile 1, dst := .die 0, line := 0x2000040 }], l3 := [(l3Key 0 0x2000040 3, ⟨0x2000040, .E, 2, 0, 5, false, 2, none, false, false⟩)] }, by decide +kernel⟩⟩

theorem wit_SnoopsComplete :
    (∃ (m : Msg) (d : Fin 16) (k : Fin 4) (w : Nat) (x : L3Slot) (s : State), (s.oneMsg m) ∧ (m.src = .home k) ∧ (m.dst = .die d) ∧ (s.l3Alone d m.line w x) ∧ (∃ p ∈ [(Instr.snps (s.packet m), MsgKind.snpS, St.S, St.S, false), (.snps (s.packet m), .snpS, .E, .S, false), (.snps (s.packet m), .snpS, .O, .O, true), (.snps (s.packet m), .snpS, .M, .O, true), (.snpx (s.packet m), .snpX, .S, .I, false), (.snpx (s.packet m), .snpX, .E, .I, false), (.snpx (s.packet m), .snpX, .O, .I, true), (.snpx (s.packet m), .snpX, .M, .I, true), (.snpinv (s.packet m), .snpInv, .S, .I, false), (.snpinv (s.packet m), .snpInv, .E, .I, false), (.snpinv (s.packet m), .snpInv, .O, .I, false), (.snpinv (s.packet m), .snpInv, .M, .I, false), (.snpcln (s.packet m), .snpCln, .S, .S, false), (.snpcln (s.packet m), .snpCln, .E, .E, false), (.snpcln (s.packet m), .snpCln, .O, .S, true), (.snpcln (s.packet m), .snpCln, .M, .E, true), (.snpcur (s.packet m), .snpCur, .S, .S, false), (.snpcur (s.packet m), .snpCur, .E, .E, false), (.snpcur (s.packet m), .snpCur, .O, .O, true), (.snpcur (s.packet m), .snpCur, .M, .M, true)], m.kind = p.2.1 ∧ x.st = p.2.2.1)) ∧
    (∃ (m : Msg) (d : Fin 16) (k : Fin 4) (w : Nat) (x : L3Slot) (s : State), (s.oneMsg m) ∧ (m.src = .home k) ∧ (m.dst = .die d) ∧ (s.l3Alone d m.line w x) ∧ (∃ p ∈ [(Instr.snps (s.packet m), MsgKind.snpS, St.S, St.S, false), (.snps (s.packet m), .snpS, .E, .S, false), (.snps (s.packet m), .snpS, .O, .O, true), (.snps (s.packet m), .snpS, .M, .O, true), (.snpx (s.packet m), .snpX, .S, .I, false), (.snpx (s.packet m), .snpX, .E, .I, false), (.snpx (s.packet m), .snpX, .O, .I, true), (.snpx (s.packet m), .snpX, .M, .I, true), (.snpinv (s.packet m), .snpInv, .S, .I, false), (.snpinv (s.packet m), .snpInv, .E, .I, false), (.snpinv (s.packet m), .snpInv, .O, .I, false), (.snpinv (s.packet m), .snpInv, .M, .I, false), (.snpcln (s.packet m), .snpCln, .S, .S, false), (.snpcln (s.packet m), .snpCln, .E, .E, false), (.snpcln (s.packet m), .snpCln, .O, .S, true), (.snpcln (s.packet m), .snpCln, .M, .E, true), (.snpcur (s.packet m), .snpCur, .S, .S, false), (.snpcur (s.packet m), .snpCur, .E, .E, false), (.snpcur (s.packet m), .snpCur, .O, .O, true), (.snpcur (s.packet m), .snpCur, .M, .M, true)], m.kind = p.2.1 ∧ x.st = p.2.2.1)) ∧
    (∃ (m : Msg) (d : Fin 16) (k : Fin 4) (w : Nat) (x : L3Slot) (s : State), (s.oneMsg m) ∧ (m.src = .home k) ∧ (m.dst = .die d) ∧ (s.l3Alone d m.line w x) ∧ (∃ p ∈ [(Instr.snps (s.packet m), MsgKind.snpS, St.S, St.S, false), (.snps (s.packet m), .snpS, .E, .S, false), (.snps (s.packet m), .snpS, .O, .O, true), (.snps (s.packet m), .snpS, .M, .O, true), (.snpx (s.packet m), .snpX, .S, .I, false), (.snpx (s.packet m), .snpX, .E, .I, false), (.snpx (s.packet m), .snpX, .O, .I, true), (.snpx (s.packet m), .snpX, .M, .I, true), (.snpinv (s.packet m), .snpInv, .S, .I, false), (.snpinv (s.packet m), .snpInv, .E, .I, false), (.snpinv (s.packet m), .snpInv, .O, .I, false), (.snpinv (s.packet m), .snpInv, .M, .I, false), (.snpcln (s.packet m), .snpCln, .S, .S, false), (.snpcln (s.packet m), .snpCln, .E, .E, false), (.snpcln (s.packet m), .snpCln, .O, .S, true), (.snpcln (s.packet m), .snpCln, .M, .E, true), (.snpcur (s.packet m), .snpCur, .S, .S, false), (.snpcur (s.packet m), .snpCur, .E, .E, false), (.snpcur (s.packet m), .snpCur, .O, .O, true), (.snpcur (s.packet m), .snpCur, .M, .M, true)], m.kind = p.2.1 ∧ x.st = p.2.2.1)) ∧
    (∃ (m : Msg) (d : Fin 16) (k : Fin 4) (w : Nat) (x : L3Slot) (s : State), (s.oneMsg m) ∧ (m.src = .home k) ∧ (m.dst = .die d) ∧ (s.l3Alone d m.line w x) ∧ (∃ p ∈ [(Instr.snps (s.packet m), MsgKind.snpS, St.S, St.S, false), (.snps (s.packet m), .snpS, .E, .S, false), (.snps (s.packet m), .snpS, .O, .O, true), (.snps (s.packet m), .snpS, .M, .O, true), (.snpx (s.packet m), .snpX, .S, .I, false), (.snpx (s.packet m), .snpX, .E, .I, false), (.snpx (s.packet m), .snpX, .O, .I, true), (.snpx (s.packet m), .snpX, .M, .I, true), (.snpinv (s.packet m), .snpInv, .S, .I, false), (.snpinv (s.packet m), .snpInv, .E, .I, false), (.snpinv (s.packet m), .snpInv, .O, .I, false), (.snpinv (s.packet m), .snpInv, .M, .I, false), (.snpcln (s.packet m), .snpCln, .S, .S, false), (.snpcln (s.packet m), .snpCln, .E, .E, false), (.snpcln (s.packet m), .snpCln, .O, .S, true), (.snpcln (s.packet m), .snpCln, .M, .E, true), (.snpcur (s.packet m), .snpCur, .S, .S, false), (.snpcur (s.packet m), .snpCur, .E, .E, false), (.snpcur (s.packet m), .snpCur, .O, .O, true), (.snpcur (s.packet m), .snpCur, .M, .M, true)], m.kind = p.2.1 ∧ x.st = p.2.2.1)) ∧
    (∃ (m : Msg) (d : Fin 16) (k : Fin 4) (w : Nat) (x : L3Slot) (s : State), (s.oneMsg m) ∧ (m.src = .home k) ∧ (m.dst = .die d) ∧ (s.l3Alone d m.line w x) ∧ (∃ p ∈ [(Instr.snps (s.packet m), MsgKind.snpS, St.S, St.S, false), (.snps (s.packet m), .snpS, .E, .S, false), (.snps (s.packet m), .snpS, .O, .O, true), (.snps (s.packet m), .snpS, .M, .O, true), (.snpx (s.packet m), .snpX, .S, .I, false), (.snpx (s.packet m), .snpX, .E, .I, false), (.snpx (s.packet m), .snpX, .O, .I, true), (.snpx (s.packet m), .snpX, .M, .I, true), (.snpinv (s.packet m), .snpInv, .S, .I, false), (.snpinv (s.packet m), .snpInv, .E, .I, false), (.snpinv (s.packet m), .snpInv, .O, .I, false), (.snpinv (s.packet m), .snpInv, .M, .I, false), (.snpcln (s.packet m), .snpCln, .S, .S, false), (.snpcln (s.packet m), .snpCln, .E, .E, false), (.snpcln (s.packet m), .snpCln, .O, .S, true), (.snpcln (s.packet m), .snpCln, .M, .E, true), (.snpcur (s.packet m), .snpCur, .S, .S, false), (.snpcur (s.packet m), .snpCur, .E, .E, false), (.snpcur (s.packet m), .snpCur, .O, .O, true), (.snpcur (s.packet m), .snpCur, .M, .M, true)], m.kind = p.2.1 ∧ x.st = p.2.2.1)) ∧
    (∃ (m : Msg) (d : Fin 16) (k : Fin 4) (w : Nat) (x : L3Slot) (s : State), (s.oneMsg m) ∧ (m.src = .home k) ∧ (m.dst = .die d) ∧ (s.l3Alone d m.line w x) ∧ (∃ p ∈ [(Instr.snps (s.packet m), MsgKind.snpS, St.S, St.S, false), (.snps (s.packet m), .snpS, .E, .S, false), (.snps (s.packet m), .snpS, .O, .O, true), (.snps (s.packet m), .snpS, .M, .O, true), (.snpx (s.packet m), .snpX, .S, .I, false), (.snpx (s.packet m), .snpX, .E, .I, false), (.snpx (s.packet m), .snpX, .O, .I, true), (.snpx (s.packet m), .snpX, .M, .I, true), (.snpinv (s.packet m), .snpInv, .S, .I, false), (.snpinv (s.packet m), .snpInv, .E, .I, false), (.snpinv (s.packet m), .snpInv, .O, .I, false), (.snpinv (s.packet m), .snpInv, .M, .I, false), (.snpcln (s.packet m), .snpCln, .S, .S, false), (.snpcln (s.packet m), .snpCln, .E, .E, false), (.snpcln (s.packet m), .snpCln, .O, .S, true), (.snpcln (s.packet m), .snpCln, .M, .E, true), (.snpcur (s.packet m), .snpCur, .S, .S, false), (.snpcur (s.packet m), .snpCur, .E, .E, false), (.snpcur (s.packet m), .snpCur, .O, .O, true), (.snpcur (s.packet m), .snpCur, .M, .M, true)], m.kind = p.2.1 ∧ x.st = p.2.2.1)) ∧
    (∃ (m : Msg) (d : Fin 16) (k : Fin 4) (w : Nat) (x : L3Slot) (s : State), (s.oneMsg m) ∧ (m.src = .home k) ∧ (m.dst = .die d) ∧ (s.l3Alone d m.line w x) ∧ (∃ p ∈ [(Instr.snps (s.packet m), MsgKind.snpS, St.S, St.S, false), (.snps (s.packet m), .snpS, .E, .S, false), (.snps (s.packet m), .snpS, .O, .O, true), (.snps (s.packet m), .snpS, .M, .O, true), (.snpx (s.packet m), .snpX, .S, .I, false), (.snpx (s.packet m), .snpX, .E, .I, false), (.snpx (s.packet m), .snpX, .O, .I, true), (.snpx (s.packet m), .snpX, .M, .I, true), (.snpinv (s.packet m), .snpInv, .S, .I, false), (.snpinv (s.packet m), .snpInv, .E, .I, false), (.snpinv (s.packet m), .snpInv, .O, .I, false), (.snpinv (s.packet m), .snpInv, .M, .I, false), (.snpcln (s.packet m), .snpCln, .S, .S, false), (.snpcln (s.packet m), .snpCln, .E, .E, false), (.snpcln (s.packet m), .snpCln, .O, .S, true), (.snpcln (s.packet m), .snpCln, .M, .E, true), (.snpcur (s.packet m), .snpCur, .S, .S, false), (.snpcur (s.packet m), .snpCur, .E, .E, false), (.snpcur (s.packet m), .snpCur, .O, .O, true), (.snpcur (s.packet m), .snpCur, .M, .M, true)], m.kind = p.2.1 ∧ x.st = p.2.2.1)) ∧
    (∃ (m : Msg) (d : Fin 16) (k : Fin 4) (w : Nat) (x : L3Slot) (s : State), (s.oneMsg m) ∧ (m.src = .home k) ∧ (m.dst = .die d) ∧ (s.l3Alone d m.line w x) ∧ (∃ p ∈ [(Instr.snps (s.packet m), MsgKind.snpS, St.S, St.S, false), (.snps (s.packet m), .snpS, .E, .S, false), (.snps (s.packet m), .snpS, .O, .O, true), (.snps (s.packet m), .snpS, .M, .O, true), (.snpx (s.packet m), .snpX, .S, .I, false), (.snpx (s.packet m), .snpX, .E, .I, false), (.snpx (s.packet m), .snpX, .O, .I, true), (.snpx (s.packet m), .snpX, .M, .I, true), (.snpinv (s.packet m), .snpInv, .S, .I, false), (.snpinv (s.packet m), .snpInv, .E, .I, false), (.snpinv (s.packet m), .snpInv, .O, .I, false), (.snpinv (s.packet m), .snpInv, .M, .I, false), (.snpcln (s.packet m), .snpCln, .S, .S, false), (.snpcln (s.packet m), .snpCln, .E, .E, false), (.snpcln (s.packet m), .snpCln, .O, .S, true), (.snpcln (s.packet m), .snpCln, .M, .E, true), (.snpcur (s.packet m), .snpCur, .S, .S, false), (.snpcur (s.packet m), .snpCur, .E, .E, false), (.snpcur (s.packet m), .snpCur, .O, .O, true), (.snpcur (s.packet m), .snpCur, .M, .M, true)], m.kind = p.2.1 ∧ x.st = p.2.2.1)) ∧
    (∃ (m : Msg) (d : Fin 16) (k : Fin 4) (w : Nat) (x : L3Slot) (s : State), (s.oneMsg m) ∧ (m.src = .home k) ∧ (m.dst = .die d) ∧ (s.l3Alone d m.line w x) ∧ (∃ p ∈ [(Instr.snps (s.packet m), MsgKind.snpS, St.S, St.S, false), (.snps (s.packet m), .snpS, .E, .S, false), (.snps (s.packet m), .snpS, .O, .O, true), (.snps (s.packet m), .snpS, .M, .O, true), (.snpx (s.packet m), .snpX, .S, .I, false), (.snpx (s.packet m), .snpX, .E, .I, false), (.snpx (s.packet m), .snpX, .O, .I, true), (.snpx (s.packet m), .snpX, .M, .I, true), (.snpinv (s.packet m), .snpInv, .S, .I, false), (.snpinv (s.packet m), .snpInv, .E, .I, false), (.snpinv (s.packet m), .snpInv, .O, .I, false), (.snpinv (s.packet m), .snpInv, .M, .I, false), (.snpcln (s.packet m), .snpCln, .S, .S, false), (.snpcln (s.packet m), .snpCln, .E, .E, false), (.snpcln (s.packet m), .snpCln, .O, .S, true), (.snpcln (s.packet m), .snpCln, .M, .E, true), (.snpcur (s.packet m), .snpCur, .S, .S, false), (.snpcur (s.packet m), .snpCur, .E, .E, false), (.snpcur (s.packet m), .snpCur, .O, .O, true), (.snpcur (s.packet m), .snpCur, .M, .M, true)], m.kind = p.2.1 ∧ x.st = p.2.2.1)) ∧
    (∃ (m : Msg) (d : Fin 16) (k : Fin 4) (w : Nat) (x : L3Slot) (s : State), (s.oneMsg m) ∧ (m.src = .home k) ∧ (m.dst = .die d) ∧ (s.l3Alone d m.line w x) ∧ (∃ p ∈ [(Instr.snps (s.packet m), MsgKind.snpS, St.S, St.S, false), (.snps (s.packet m), .snpS, .E, .S, false), (.snps (s.packet m), .snpS, .O, .O, true), (.snps (s.packet m), .snpS, .M, .O, true), (.snpx (s.packet m), .snpX, .S, .I, false), (.snpx (s.packet m), .snpX, .E, .I, false), (.snpx (s.packet m), .snpX, .O, .I, true), (.snpx (s.packet m), .snpX, .M, .I, true), (.snpinv (s.packet m), .snpInv, .S, .I, false), (.snpinv (s.packet m), .snpInv, .E, .I, false), (.snpinv (s.packet m), .snpInv, .O, .I, false), (.snpinv (s.packet m), .snpInv, .M, .I, false), (.snpcln (s.packet m), .snpCln, .S, .S, false), (.snpcln (s.packet m), .snpCln, .E, .E, false), (.snpcln (s.packet m), .snpCln, .O, .S, true), (.snpcln (s.packet m), .snpCln, .M, .E, true), (.snpcur (s.packet m), .snpCur, .S, .S, false), (.snpcur (s.packet m), .snpCur, .E, .E, false), (.snpcur (s.packet m), .snpCur, .O, .O, true), (.snpcur (s.packet m), .snpCur, .M, .M, true)], m.kind = p.2.1 ∧ x.st = p.2.2.1)) ∧
    (∃ (m : Msg) (d : Fin 16) (k : Fin 4) (w : Nat) (x : L3Slot) (s : State), (s.oneMsg m) ∧ (m.src = .home k) ∧ (m.dst = .die d) ∧ (s.l3Alone d m.line w x) ∧ (∃ p ∈ [(Instr.snps (s.packet m), MsgKind.snpS, St.S, St.S, false), (.snps (s.packet m), .snpS, .E, .S, false), (.snps (s.packet m), .snpS, .O, .O, true), (.snps (s.packet m), .snpS, .M, .O, true), (.snpx (s.packet m), .snpX, .S, .I, false), (.snpx (s.packet m), .snpX, .E, .I, false), (.snpx (s.packet m), .snpX, .O, .I, true), (.snpx (s.packet m), .snpX, .M, .I, true), (.snpinv (s.packet m), .snpInv, .S, .I, false), (.snpinv (s.packet m), .snpInv, .E, .I, false), (.snpinv (s.packet m), .snpInv, .O, .I, false), (.snpinv (s.packet m), .snpInv, .M, .I, false), (.snpcln (s.packet m), .snpCln, .S, .S, false), (.snpcln (s.packet m), .snpCln, .E, .E, false), (.snpcln (s.packet m), .snpCln, .O, .S, true), (.snpcln (s.packet m), .snpCln, .M, .E, true), (.snpcur (s.packet m), .snpCur, .S, .S, false), (.snpcur (s.packet m), .snpCur, .E, .E, false), (.snpcur (s.packet m), .snpCur, .O, .O, true), (.snpcur (s.packet m), .snpCur, .M, .M, true)], m.kind = p.2.1 ∧ x.st = p.2.2.1)) ∧
    (∃ (m : Msg) (d : Fin 16) (k : Fin 4) (w : Nat) (x : L3Slot) (s : State), (s.oneMsg m) ∧ (m.src = .home k) ∧ (m.dst = .die d) ∧ (s.l3Alone d m.line w x) ∧ (∃ p ∈ [(Instr.snps (s.packet m), MsgKind.snpS, St.S, St.S, false), (.snps (s.packet m), .snpS, .E, .S, false), (.snps (s.packet m), .snpS, .O, .O, true), (.snps (s.packet m), .snpS, .M, .O, true), (.snpx (s.packet m), .snpX, .S, .I, false), (.snpx (s.packet m), .snpX, .E, .I, false), (.snpx (s.packet m), .snpX, .O, .I, true), (.snpx (s.packet m), .snpX, .M, .I, true), (.snpinv (s.packet m), .snpInv, .S, .I, false), (.snpinv (s.packet m), .snpInv, .E, .I, false), (.snpinv (s.packet m), .snpInv, .O, .I, false), (.snpinv (s.packet m), .snpInv, .M, .I, false), (.snpcln (s.packet m), .snpCln, .S, .S, false), (.snpcln (s.packet m), .snpCln, .E, .E, false), (.snpcln (s.packet m), .snpCln, .O, .S, true), (.snpcln (s.packet m), .snpCln, .M, .E, true), (.snpcur (s.packet m), .snpCur, .S, .S, false), (.snpcur (s.packet m), .snpCur, .E, .E, false), (.snpcur (s.packet m), .snpCur, .O, .O, true), (.snpcur (s.packet m), .snpCur, .M, .M, true)], m.kind = p.2.1 ∧ x.st = p.2.2.1)) ∧
    (∃ (m : Msg) (d : Fin 16) (k : Fin 4) (w : Nat) (x : L3Slot) (s : State), (s.oneMsg m) ∧ (m.src = .home k) ∧ (m.dst = .die d) ∧ (s.l3Alone d m.line w x) ∧ (∃ p ∈ [(Instr.snps (s.packet m), MsgKind.snpS, St.S, St.S, false), (.snps (s.packet m), .snpS, .E, .S, false), (.snps (s.packet m), .snpS, .O, .O, true), (.snps (s.packet m), .snpS, .M, .O, true), (.snpx (s.packet m), .snpX, .S, .I, false), (.snpx (s.packet m), .snpX, .E, .I, false), (.snpx (s.packet m), .snpX, .O, .I, true), (.snpx (s.packet m), .snpX, .M, .I, true), (.snpinv (s.packet m), .snpInv, .S, .I, false), (.snpinv (s.packet m), .snpInv, .E, .I, false), (.snpinv (s.packet m), .snpInv, .O, .I, false), (.snpinv (s.packet m), .snpInv, .M, .I, false), (.snpcln (s.packet m), .snpCln, .S, .S, false), (.snpcln (s.packet m), .snpCln, .E, .E, false), (.snpcln (s.packet m), .snpCln, .O, .S, true), (.snpcln (s.packet m), .snpCln, .M, .E, true), (.snpcur (s.packet m), .snpCur, .S, .S, false), (.snpcur (s.packet m), .snpCur, .E, .E, false), (.snpcur (s.packet m), .snpCur, .O, .O, true), (.snpcur (s.packet m), .snpCur, .M, .M, true)], m.kind = p.2.1 ∧ x.st = p.2.2.1)) ∧
    (∃ (m : Msg) (d : Fin 16) (k : Fin 4) (w : Nat) (x : L3Slot) (s : State), (s.oneMsg m) ∧ (m.src = .home k) ∧ (m.dst = .die d) ∧ (s.l3Alone d m.line w x) ∧ (∃ p ∈ [(Instr.snps (s.packet m), MsgKind.snpS, St.S, St.S, false), (.snps (s.packet m), .snpS, .E, .S, false), (.snps (s.packet m), .snpS, .O, .O, true), (.snps (s.packet m), .snpS, .M, .O, true), (.snpx (s.packet m), .snpX, .S, .I, false), (.snpx (s.packet m), .snpX, .E, .I, false), (.snpx (s.packet m), .snpX, .O, .I, true), (.snpx (s.packet m), .snpX, .M, .I, true), (.snpinv (s.packet m), .snpInv, .S, .I, false), (.snpinv (s.packet m), .snpInv, .E, .I, false), (.snpinv (s.packet m), .snpInv, .O, .I, false), (.snpinv (s.packet m), .snpInv, .M, .I, false), (.snpcln (s.packet m), .snpCln, .S, .S, false), (.snpcln (s.packet m), .snpCln, .E, .E, false), (.snpcln (s.packet m), .snpCln, .O, .S, true), (.snpcln (s.packet m), .snpCln, .M, .E, true), (.snpcur (s.packet m), .snpCur, .S, .S, false), (.snpcur (s.packet m), .snpCur, .E, .E, false), (.snpcur (s.packet m), .snpCur, .O, .O, true), (.snpcur (s.packet m), .snpCur, .M, .M, true)], m.kind = p.2.1 ∧ x.st = p.2.2.1)) ∧
    (∃ (m : Msg) (d : Fin 16) (k : Fin 4) (w : Nat) (x : L3Slot) (s : State), (s.oneMsg m) ∧ (m.src = .home k) ∧ (m.dst = .die d) ∧ (s.l3Alone d m.line w x) ∧ (∃ p ∈ [(Instr.snps (s.packet m), MsgKind.snpS, St.S, St.S, false), (.snps (s.packet m), .snpS, .E, .S, false), (.snps (s.packet m), .snpS, .O, .O, true), (.snps (s.packet m), .snpS, .M, .O, true), (.snpx (s.packet m), .snpX, .S, .I, false), (.snpx (s.packet m), .snpX, .E, .I, false), (.snpx (s.packet m), .snpX, .O, .I, true), (.snpx (s.packet m), .snpX, .M, .I, true), (.snpinv (s.packet m), .snpInv, .S, .I, false), (.snpinv (s.packet m), .snpInv, .E, .I, false), (.snpinv (s.packet m), .snpInv, .O, .I, false), (.snpinv (s.packet m), .snpInv, .M, .I, false), (.snpcln (s.packet m), .snpCln, .S, .S, false), (.snpcln (s.packet m), .snpCln, .E, .E, false), (.snpcln (s.packet m), .snpCln, .O, .S, true), (.snpcln (s.packet m), .snpCln, .M, .E, true), (.snpcur (s.packet m), .snpCur, .S, .S, false), (.snpcur (s.packet m), .snpCur, .E, .E, false), (.snpcur (s.packet m), .snpCur, .O, .O, true), (.snpcur (s.packet m), .snpCur, .M, .M, true)], m.kind = p.2.1 ∧ x.st = p.2.2.1)) ∧
    (∃ (m : Msg) (d : Fin 16) (k : Fin 4) (w : Nat) (x : L3Slot) (s : State), (s.oneMsg m) ∧ (m.src = .home k) ∧ (m.dst = .die d) ∧ (s.l3Alone d m.line w x) ∧ (∃ p ∈ [(Instr.snps (s.packet m), MsgKind.snpS, St.S, St.S, false), (.snps (s.packet m), .snpS, .E, .S, false), (.snps (s.packet m), .snpS, .O, .O, true), (.snps (s.packet m), .snpS, .M, .O, true), (.snpx (s.packet m), .snpX, .S, .I, false), (.snpx (s.packet m), .snpX, .E, .I, false), (.snpx (s.packet m), .snpX, .O, .I, true), (.snpx (s.packet m), .snpX, .M, .I, true), (.snpinv (s.packet m), .snpInv, .S, .I, false), (.snpinv (s.packet m), .snpInv, .E, .I, false), (.snpinv (s.packet m), .snpInv, .O, .I, false), (.snpinv (s.packet m), .snpInv, .M, .I, false), (.snpcln (s.packet m), .snpCln, .S, .S, false), (.snpcln (s.packet m), .snpCln, .E, .E, false), (.snpcln (s.packet m), .snpCln, .O, .S, true), (.snpcln (s.packet m), .snpCln, .M, .E, true), (.snpcur (s.packet m), .snpCur, .S, .S, false), (.snpcur (s.packet m), .snpCur, .E, .E, false), (.snpcur (s.packet m), .snpCur, .O, .O, true), (.snpcur (s.packet m), .snpCur, .M, .M, true)], m.kind = p.2.1 ∧ x.st = p.2.2.1)) ∧
    (∃ (m : Msg) (d : Fin 16) (k : Fin 4) (w : Nat) (x : L3Slot) (s : State), (s.oneMsg m) ∧ (m.src = .home k) ∧ (m.dst = .die d) ∧ (s.l3Alone d m.line w x) ∧ (∃ p ∈ [(Instr.snps (s.packet m), MsgKind.snpS, St.S, St.S, false), (.snps (s.packet m), .snpS, .E, .S, false), (.snps (s.packet m), .snpS, .O, .O, true), (.snps (s.packet m), .snpS, .M, .O, true), (.snpx (s.packet m), .snpX, .S, .I, false), (.snpx (s.packet m), .snpX, .E, .I, false), (.snpx (s.packet m), .snpX, .O, .I, true), (.snpx (s.packet m), .snpX, .M, .I, true), (.snpinv (s.packet m), .snpInv, .S, .I, false), (.snpinv (s.packet m), .snpInv, .E, .I, false), (.snpinv (s.packet m), .snpInv, .O, .I, false), (.snpinv (s.packet m), .snpInv, .M, .I, false), (.snpcln (s.packet m), .snpCln, .S, .S, false), (.snpcln (s.packet m), .snpCln, .E, .E, false), (.snpcln (s.packet m), .snpCln, .O, .S, true), (.snpcln (s.packet m), .snpCln, .M, .E, true), (.snpcur (s.packet m), .snpCur, .S, .S, false), (.snpcur (s.packet m), .snpCur, .E, .E, false), (.snpcur (s.packet m), .snpCur, .O, .O, true), (.snpcur (s.packet m), .snpCur, .M, .M, true)], m.kind = p.2.1 ∧ x.st = p.2.2.1)) ∧
    (∃ (m : Msg) (d : Fin 16) (k : Fin 4) (w : Nat) (x : L3Slot) (s : State), (s.oneMsg m) ∧ (m.src = .home k) ∧ (m.dst = .die d) ∧ (s.l3Alone d m.line w x) ∧ (∃ p ∈ [(Instr.snps (s.packet m), MsgKind.snpS, St.S, St.S, false), (.snps (s.packet m), .snpS, .E, .S, false), (.snps (s.packet m), .snpS, .O, .O, true), (.snps (s.packet m), .snpS, .M, .O, true), (.snpx (s.packet m), .snpX, .S, .I, false), (.snpx (s.packet m), .snpX, .E, .I, false), (.snpx (s.packet m), .snpX, .O, .I, true), (.snpx (s.packet m), .snpX, .M, .I, true), (.snpinv (s.packet m), .snpInv, .S, .I, false), (.snpinv (s.packet m), .snpInv, .E, .I, false), (.snpinv (s.packet m), .snpInv, .O, .I, false), (.snpinv (s.packet m), .snpInv, .M, .I, false), (.snpcln (s.packet m), .snpCln, .S, .S, false), (.snpcln (s.packet m), .snpCln, .E, .E, false), (.snpcln (s.packet m), .snpCln, .O, .S, true), (.snpcln (s.packet m), .snpCln, .M, .E, true), (.snpcur (s.packet m), .snpCur, .S, .S, false), (.snpcur (s.packet m), .snpCur, .E, .E, false), (.snpcur (s.packet m), .snpCur, .O, .O, true), (.snpcur (s.packet m), .snpCur, .M, .M, true)], m.kind = p.2.1 ∧ x.st = p.2.2.1)) ∧
    (∃ (m : Msg) (d : Fin 16) (k : Fin 4) (w : Nat) (x : L3Slot) (s : State), (s.oneMsg m) ∧ (m.src = .home k) ∧ (m.dst = .die d) ∧ (s.l3Alone d m.line w x) ∧ (∃ p ∈ [(Instr.snps (s.packet m), MsgKind.snpS, St.S, St.S, false), (.snps (s.packet m), .snpS, .E, .S, false), (.snps (s.packet m), .snpS, .O, .O, true), (.snps (s.packet m), .snpS, .M, .O, true), (.snpx (s.packet m), .snpX, .S, .I, false), (.snpx (s.packet m), .snpX, .E, .I, false), (.snpx (s.packet m), .snpX, .O, .I, true), (.snpx (s.packet m), .snpX, .M, .I, true), (.snpinv (s.packet m), .snpInv, .S, .I, false), (.snpinv (s.packet m), .snpInv, .E, .I, false), (.snpinv (s.packet m), .snpInv, .O, .I, false), (.snpinv (s.packet m), .snpInv, .M, .I, false), (.snpcln (s.packet m), .snpCln, .S, .S, false), (.snpcln (s.packet m), .snpCln, .E, .E, false), (.snpcln (s.packet m), .snpCln, .O, .S, true), (.snpcln (s.packet m), .snpCln, .M, .E, true), (.snpcur (s.packet m), .snpCur, .S, .S, false), (.snpcur (s.packet m), .snpCur, .E, .E, false), (.snpcur (s.packet m), .snpCur, .O, .O, true), (.snpcur (s.packet m), .snpCur, .M, .M, true)], m.kind = p.2.1 ∧ x.st = p.2.2.1)) ∧
    (∃ (m : Msg) (d : Fin 16) (k : Fin 4) (w : Nat) (x : L3Slot) (s : State), (s.oneMsg m) ∧ (m.src = .home k) ∧ (m.dst = .die d) ∧ (s.l3Alone d m.line w x) ∧ (∃ p ∈ [(Instr.snps (s.packet m), MsgKind.snpS, St.S, St.S, false), (.snps (s.packet m), .snpS, .E, .S, false), (.snps (s.packet m), .snpS, .O, .O, true), (.snps (s.packet m), .snpS, .M, .O, true), (.snpx (s.packet m), .snpX, .S, .I, false), (.snpx (s.packet m), .snpX, .E, .I, false), (.snpx (s.packet m), .snpX, .O, .I, true), (.snpx (s.packet m), .snpX, .M, .I, true), (.snpinv (s.packet m), .snpInv, .S, .I, false), (.snpinv (s.packet m), .snpInv, .E, .I, false), (.snpinv (s.packet m), .snpInv, .O, .I, false), (.snpinv (s.packet m), .snpInv, .M, .I, false), (.snpcln (s.packet m), .snpCln, .S, .S, false), (.snpcln (s.packet m), .snpCln, .E, .E, false), (.snpcln (s.packet m), .snpCln, .O, .S, true), (.snpcln (s.packet m), .snpCln, .M, .E, true), (.snpcur (s.packet m), .snpCur, .S, .S, false), (.snpcur (s.packet m), .snpCur, .E, .E, false), (.snpcur (s.packet m), .snpCur, .O, .O, true), (.snpcur (s.packet m), .snpCur, .M, .M, true)], m.kind = p.2.1 ∧ x.st = p.2.2.1)) :=
  ⟨⟨{ kind := .snpS, src := homeOf 0x2000040, dst := .die 0, line := 0x2000040 }, 0, Fin.ofNat 4 (quadOf 0x2000040), 3, ⟨0x2000040, .S, 0, 0, 5, false, 2, none, false, false⟩, { s0 with net := [{ kind := .snpS, src := homeOf 0x2000040, dst := .die 0, line := 0x2000040 }], l3 := [(l3Key 0 0x2000040 3, ⟨0x2000040, .S, 0, 0, 5, false, 2, none, false, false⟩)] }, by decide +kernel⟩,
   ⟨{ kind := .snpS, src := homeOf 0x2000040, dst := .die 0, line := 0x2000040 }, 0, Fin.ofNat 4 (quadOf 0x2000040), 3, ⟨0x2000040, .E, 0, 0, 5, false, 2, none, false, false⟩, { s0 with net := [{ kind := .snpS, src := homeOf 0x2000040, dst := .die 0, line := 0x2000040 }], l3 := [(l3Key 0 0x2000040 3, ⟨0x2000040, .E, 0, 0, 5, false, 2, none, false, false⟩)] }, by decide +kernel⟩,
   ⟨{ kind := .snpS, src := homeOf 0x2000040, dst := .die 0, line := 0x2000040 }, 0, Fin.ofNat 4 (quadOf 0x2000040), 3, ⟨0x2000040, .O, 0, 0, 5, false, 2, none, false, false⟩, { s0 with net := [{ kind := .snpS, src := homeOf 0x2000040, dst := .die 0, line := 0x2000040 }], l3 := [(l3Key 0 0x2000040 3, ⟨0x2000040, .O, 0, 0, 5, false, 2, none, false, false⟩)] }, by decide +kernel⟩,
   ⟨{ kind := .snpS, src := homeOf 0x2000040, dst := .die 0, line := 0x2000040 }, 0, Fin.ofNat 4 (quadOf 0x2000040), 3, ⟨0x2000040, .M, 0, 0, 5, false, 2, none, false, false⟩, { s0 with net := [{ kind := .snpS, src := homeOf 0x2000040, dst := .die 0, line := 0x2000040 }], l3 := [(l3Key 0 0x2000040 3, ⟨0x2000040, .M, 0, 0, 5, false, 2, none, false, false⟩)] }, by decide +kernel⟩,
   ⟨{ kind := .snpX, src := homeOf 0x2000040, dst := .die 0, line := 0x2000040 }, 0, Fin.ofNat 4 (quadOf 0x2000040), 3, ⟨0x2000040, .S, 0, 0, 5, false, 2, none, false, false⟩, { s0 with net := [{ kind := .snpX, src := homeOf 0x2000040, dst := .die 0, line := 0x2000040 }], l3 := [(l3Key 0 0x2000040 3, ⟨0x2000040, .S, 0, 0, 5, false, 2, none, false, false⟩)] }, by decide +kernel⟩,
   ⟨{ kind := .snpX, src := homeOf 0x2000040, dst := .die 0, line := 0x2000040 }, 0, Fin.ofNat 4 (quadOf 0x2000040), 3, ⟨0x2000040, .E, 0, 0, 5, false, 2, none, false, false⟩, { s0 with net := [{ kind := .snpX, src := homeOf 0x2000040, dst := .die 0, line := 0x2000040 }], l3 := [(l3Key 0 0x2000040 3, ⟨0x2000040, .E, 0, 0, 5, false, 2, none, false, false⟩)] }, by decide +kernel⟩,
   ⟨{ kind := .snpX, src := homeOf 0x2000040, dst := .die 0, line := 0x2000040 }, 0, Fin.ofNat 4 (quadOf 0x2000040), 3, ⟨0x2000040, .O, 0, 0, 5, false, 2, none, false, false⟩, { s0 with net := [{ kind := .snpX, src := homeOf 0x2000040, dst := .die 0, line := 0x2000040 }], l3 := [(l3Key 0 0x2000040 3, ⟨0x2000040, .O, 0, 0, 5, false, 2, none, false, false⟩)] }, by decide +kernel⟩,
   ⟨{ kind := .snpX, src := homeOf 0x2000040, dst := .die 0, line := 0x2000040 }, 0, Fin.ofNat 4 (quadOf 0x2000040), 3, ⟨0x2000040, .M, 0, 0, 5, false, 2, none, false, false⟩, { s0 with net := [{ kind := .snpX, src := homeOf 0x2000040, dst := .die 0, line := 0x2000040 }], l3 := [(l3Key 0 0x2000040 3, ⟨0x2000040, .M, 0, 0, 5, false, 2, none, false, false⟩)] }, by decide +kernel⟩,
   ⟨{ kind := .snpInv, src := homeOf 0x2000040, dst := .die 0, line := 0x2000040 }, 0, Fin.ofNat 4 (quadOf 0x2000040), 3, ⟨0x2000040, .S, 0, 0, 5, false, 2, none, false, false⟩, { s0 with net := [{ kind := .snpInv, src := homeOf 0x2000040, dst := .die 0, line := 0x2000040 }], l3 := [(l3Key 0 0x2000040 3, ⟨0x2000040, .S, 0, 0, 5, false, 2, none, false, false⟩)] }, by decide +kernel⟩,
   ⟨{ kind := .snpInv, src := homeOf 0x2000040, dst := .die 0, line := 0x2000040 }, 0, Fin.ofNat 4 (quadOf 0x2000040), 3, ⟨0x2000040, .E, 0, 0, 5, false, 2, none, false, false⟩, { s0 with net := [{ kind := .snpInv, src := homeOf 0x2000040, dst := .die 0, line := 0x2000040 }], l3 := [(l3Key 0 0x2000040 3, ⟨0x2000040, .E, 0, 0, 5, false, 2, none, false, false⟩)] }, by decide +kernel⟩,
   ⟨{ kind := .snpInv, src := homeOf 0x2000040, dst := .die 0, line := 0x2000040 }, 0, Fin.ofNat 4 (quadOf 0x2000040), 3, ⟨0x2000040, .O, 0, 0, 5, false, 2, none, false, false⟩, { s0 with net := [{ kind := .snpInv, src := homeOf 0x2000040, dst := .die 0, line := 0x2000040 }], l3 := [(l3Key 0 0x2000040 3, ⟨0x2000040, .O, 0, 0, 5, false, 2, none, false, false⟩)] }, by decide +kernel⟩,
   ⟨{ kind := .snpInv, src := homeOf 0x2000040, dst := .die 0, line := 0x2000040 }, 0, Fin.ofNat 4 (quadOf 0x2000040), 3, ⟨0x2000040, .M, 0, 0, 5, false, 2, none, false, false⟩, { s0 with net := [{ kind := .snpInv, src := homeOf 0x2000040, dst := .die 0, line := 0x2000040 }], l3 := [(l3Key 0 0x2000040 3, ⟨0x2000040, .M, 0, 0, 5, false, 2, none, false, false⟩)] }, by decide +kernel⟩,
   ⟨{ kind := .snpCln, src := homeOf 0x2000040, dst := .die 0, line := 0x2000040 }, 0, Fin.ofNat 4 (quadOf 0x2000040), 3, ⟨0x2000040, .S, 0, 0, 5, false, 2, none, false, false⟩, { s0 with net := [{ kind := .snpCln, src := homeOf 0x2000040, dst := .die 0, line := 0x2000040 }], l3 := [(l3Key 0 0x2000040 3, ⟨0x2000040, .S, 0, 0, 5, false, 2, none, false, false⟩)] }, by decide +kernel⟩,
   ⟨{ kind := .snpCln, src := homeOf 0x2000040, dst := .die 0, line := 0x2000040 }, 0, Fin.ofNat 4 (quadOf 0x2000040), 3, ⟨0x2000040, .E, 0, 0, 5, false, 2, none, false, false⟩, { s0 with net := [{ kind := .snpCln, src := homeOf 0x2000040, dst := .die 0, line := 0x2000040 }], l3 := [(l3Key 0 0x2000040 3, ⟨0x2000040, .E, 0, 0, 5, false, 2, none, false, false⟩)] }, by decide +kernel⟩,
   ⟨{ kind := .snpCln, src := homeOf 0x2000040, dst := .die 0, line := 0x2000040 }, 0, Fin.ofNat 4 (quadOf 0x2000040), 3, ⟨0x2000040, .O, 0, 0, 5, false, 2, none, false, false⟩, { s0 with net := [{ kind := .snpCln, src := homeOf 0x2000040, dst := .die 0, line := 0x2000040 }], l3 := [(l3Key 0 0x2000040 3, ⟨0x2000040, .O, 0, 0, 5, false, 2, none, false, false⟩)] }, by decide +kernel⟩,
   ⟨{ kind := .snpCln, src := homeOf 0x2000040, dst := .die 0, line := 0x2000040 }, 0, Fin.ofNat 4 (quadOf 0x2000040), 3, ⟨0x2000040, .M, 0, 0, 5, false, 2, none, false, false⟩, { s0 with net := [{ kind := .snpCln, src := homeOf 0x2000040, dst := .die 0, line := 0x2000040 }], l3 := [(l3Key 0 0x2000040 3, ⟨0x2000040, .M, 0, 0, 5, false, 2, none, false, false⟩)] }, by decide +kernel⟩,
   ⟨{ kind := .snpCur, src := homeOf 0x2000040, dst := .die 0, line := 0x2000040 }, 0, Fin.ofNat 4 (quadOf 0x2000040), 3, ⟨0x2000040, .S, 0, 0, 5, false, 2, none, false, false⟩, { s0 with net := [{ kind := .snpCur, src := homeOf 0x2000040, dst := .die 0, line := 0x2000040 }], l3 := [(l3Key 0 0x2000040 3, ⟨0x2000040, .S, 0, 0, 5, false, 2, none, false, false⟩)] }, by decide +kernel⟩,
   ⟨{ kind := .snpCur, src := homeOf 0x2000040, dst := .die 0, line := 0x2000040 }, 0, Fin.ofNat 4 (quadOf 0x2000040), 3, ⟨0x2000040, .E, 0, 0, 5, false, 2, none, false, false⟩, { s0 with net := [{ kind := .snpCur, src := homeOf 0x2000040, dst := .die 0, line := 0x2000040 }], l3 := [(l3Key 0 0x2000040 3, ⟨0x2000040, .E, 0, 0, 5, false, 2, none, false, false⟩)] }, by decide +kernel⟩,
   ⟨{ kind := .snpCur, src := homeOf 0x2000040, dst := .die 0, line := 0x2000040 }, 0, Fin.ofNat 4 (quadOf 0x2000040), 3, ⟨0x2000040, .O, 0, 0, 5, false, 2, none, false, false⟩, { s0 with net := [{ kind := .snpCur, src := homeOf 0x2000040, dst := .die 0, line := 0x2000040 }], l3 := [(l3Key 0 0x2000040 3, ⟨0x2000040, .O, 0, 0, 5, false, 2, none, false, false⟩)] }, by decide +kernel⟩,
   ⟨{ kind := .snpCur, src := homeOf 0x2000040, dst := .die 0, line := 0x2000040 }, 0, Fin.ofNat 4 (quadOf 0x2000040), 3, ⟨0x2000040, .M, 0, 0, 5, false, 2, none, false, false⟩, { s0 with net := [{ kind := .snpCur, src := homeOf 0x2000040, dst := .die 0, line := 0x2000040 }], l3 := [(l3Key 0 0x2000040 3, ⟨0x2000040, .M, 0, 0, 5, false, 2, none, false, false⟩)] }, by decide +kernel⟩⟩

theorem wit_StashesComplete :
    (∃ (m : Msg) (d : Fin 16) (k : Fin 4) (w : Nat) (s : State), (s.oneMsg m) ∧ (m.kind = .stashOffer) ∧ (m.src = .home k) ∧ (m.dst = .die d) ∧ (m.stash = some (.die d)) ∧ ((s.quad (d * 4 + quadOf m.line)).miss = []) ∧ ((Run.start s).l3Off d m.line = false) ∧ ((Run.start s).gated (domQuad d (quadOf m.line)) = false) ∧ ((Run.start s).l3Pick d m.line ((Run.start s).partOf d (m.line.toNat * 64)) true = some w) ∧ (s.l3Slot (l3Key d m.line w) = none)) ∧
    (∃ (m : Msg) (d : Fin 16) (q : HReq) (s : State), (s.oneMsg m) ∧ (m.kind = .stashAcc) ∧ (m.src = .die d) ∧ (m.dst = homeOf m.line) ∧ (s.queue m.line.toNat = [q]) ∧ (q.phase = .waitStash) ∧ (stashDie q.msg.stash = some m.src) ∧ (s.fld HOME_CFG_DIREN = 0)) ∧
    (∃ (m : Msg) (q : HReq) (c : Fin 24) (la : Nat) (s : State), (s.oneMsg m) ∧ (m.kind = .stashDec) ∧ (m.dst = homeOf m.line) ∧ (s.queue m.line.toNat = [q]) ∧ (q.phase = .waitStash) ∧ (stashDie q.msg.stash = some m.src) ∧ (q.to_ = .dram c la)) ∧
    (∃ (m : Msg) (d : Fin 16) (k : Fin 4) (x : QMiss) (s : State), (s.oneMsg m) ∧ (m.kind = .datStash) ∧ (m.src = .home k) ∧ (m.dst = .die d) ∧ (m.stash = some (.die d)) ∧ (s.quad (d * 4 + quadOf m.line) = { miss := [x], vict := [], waiting := [] }) ∧ (x.line = m.line) ∧ (x.tiles = []) ∧ (x.way < 16) ∧ (s.noSwop) ∧ ((Run.start s).l3Off d m.line = false) ∧ (s.fld (ARR_FLIP_ARM d (128 + quadOf m.line * 3)) = 0) ∧ (s.fld (ARR_FLIP_ARM d (128 + quadOf m.line * 3 + 1)) = 0)) :=
  ⟨⟨{ kind := .stashOffer, src := homeOf 0x2000040, dst := .die 0, line := 0x2000040, stash := some (.die 0) }, 0, Fin.ofNat 4 (quadOf 0x2000040), 0, { s0 with net := [{ kind := .stashOffer, src := homeOf 0x2000040, dst := .die 0, line := 0x2000040, stash := some (.die 0) }] }, by decide +kernel⟩,
   ⟨{ kind := .stashAcc, src := .die 0, dst := homeOf 0x2000040, line := 0x2000040, way := 2 }, 0, { msg := { kind := .wrLine, src := .phlox 0, dst := homeOf 0x2000040, line := 0x2000040, data := 9, stash := some (.die 0) }, to_ := .dram 0 0x1000, phase := .waitStash, dirty := some (9, false) }, { s0 with net := [{ kind := .stashAcc, src := .die 0, dst := homeOf 0x2000040, line := 0x2000040, way := 2 }], lineq := [(0x2000040, [{ msg := { kind := .wrLine, src := .phlox 0, dst := homeOf 0x2000040, line := 0x2000040, data := 9, stash := some (.die 0) }, to_ := .dram 0 0x1000, phase := .waitStash, dirty := some (9, false) }])] }, by decide +kernel⟩,
   ⟨{ kind := .stashDec, src := .die 0, dst := homeOf 0x2000040, line := 0x2000040, way := 2 }, { msg := { kind := .wrLine, src := .phlox 0, dst := homeOf 0x2000040, line := 0x2000040, data := 9, stash := some (.die 0) }, to_ := .dram 0 0x1000, phase := .waitStash, dirty := some (9, false) }, 0, 0x1000, { s0 with net := [{ kind := .stashDec, src := .die 0, dst := homeOf 0x2000040, line := 0x2000040, way := 2 }], lineq := [(0x2000040, [{ msg := { kind := .wrLine, src := .phlox 0, dst := homeOf 0x2000040, line := 0x2000040, data := 9, stash := some (.die 0) }, to_ := .dram 0 0x1000, phase := .waitStash, dirty := some (9, false) }])] }, by decide +kernel⟩,
   ⟨{ kind := .datStash, src := homeOf 0x2000040, dst := .die 0, line := 0x2000040, data := 9, stash := some (.die 0) }, 0, Fin.ofNat 4 (quadOf 0x2000040), { line := 0x2000040, way := 2, kind := .stashOffer, tiles := [] }, { s0 with net := [{ kind := .datStash, src := homeOf 0x2000040, dst := .die 0, line := 0x2000040, data := 9, stash := some (.die 0) }], quads := [(0 * 4 + quadOf 0x2000040, { miss := [{ line := 0x2000040, way := 2, kind := .stashOffer, tiles := [] }] })] }, by decide +kernel⟩⟩

theorem wit_AnswersReachTheHome :
    (∃ (m : Msg) (d : Fin 16) (a : Agent) (w : Nat) (q : HReq) (s : State), (s.oneMsg m) ∧ (m.src = .die d) ∧ (m.dst = homeOf m.line) ∧ (s.queue m.line.toNat = [q]) ∧ (q.phase = .snooping) ∧ (q.snooped = [m.src, a]) ∧ (m.la = 0) ∧ ((Run.start s).gated (400 + quadOf m.line) = false) ∧ ((List.range 16).find? (fun v => (s.filtEntry (l3Key d m.line v)).any (·.line = m.line)) = some w) ∧ (s.filtEntry (l3Key d m.line w) = some ⟨m.line, .X, none⟩) ∧ (∃ p ∈ [(Instr.rsp (s.packet m), MsgKind.rsp), (.datsnp (s.packet m), .datSnp)], m.kind = p.2)) ∧
    (∃ (m : Msg) (d : Fin 16) (a : Agent) (w : Nat) (q : HReq) (s : State), (s.oneMsg m) ∧ (m.src = .die d) ∧ (m.dst = homeOf m.line) ∧ (s.queue m.line.toNat = [q]) ∧ (q.phase = .snooping) ∧ (q.snooped = [m.src, a]) ∧ (m.la = 0) ∧ ((Run.start s).gated (400 + quadOf m.line) = false) ∧ ((List.range 16).find? (fun v => (s.filtEntry (l3Key d m.line v)).any (·.line = m.line)) = some w) ∧ (s.filtEntry (l3Key d m.line w) = some ⟨m.line, .X, none⟩) ∧ (∃ p ∈ [(Instr.rsp (s.packet m), MsgKind.rsp), (.datsnp (s.packet m), .datSnp)], m.kind = p.2)) ∧
    (∃ (m : Msg) (d : Fin 16) (q : HReq) (c : Nat) (la : Nat) (s : State), (s.oneMsg m) ∧ (m.kind = .mDat) ∧ (q.to_ = .dram c la) ∧ (m.src = .chan (Fin.ofNat 24 c)) ∧ (m.dst = homeOf m.line) ∧ (s.queue m.line.toNat = [q]) ∧ (q.msg.kind = .rdS) ∧ (q.msg.src = .die d) ∧ (q.msg.line = m.line) ∧ (q.phase = .snooping) ∧ (q.snooped = []) ∧ (q.needMem = true) ∧ (q.dirty = none) ∧ (q.answers = []) ∧ (s.fld HOME_CFG_DIREN = 0) ∧ (s.fld HOME_CFG_EGRANT = 1) ∧ (s.unheld m.line) ∧ (s.online d = true)) ∧
    (∃ (m : Msg) (q : HReq) (c : Nat) (la : Nat) (s : State), (s.oneMsg m) ∧ (m.kind = .ack) ∧ (m.dst = homeOf m.line) ∧ (s.queue m.line.toNat = [q]) ∧ (q.phase = .waitAck) ∧ (q.msg.kind = .rdS) ∧ (q.msg.src = m.src) ∧ (q.to_ = .dram c la)) ∧
    (∃ (m : Msg) (h : Fin 1024) (q : HReq) (s : State), (s.oneMsg m) ∧ (m.kind = .mAck) ∧ (q.to_.agent = some m.src) ∧ (q.own = false) ∧ (m.line ∉ (s.slice (quadOf m.line)).loose) ∧ (m.dst = homeOf m.line) ∧ (s.queue m.line.toNat = [q]) ∧ (q.phase = .waitMAck) ∧ (q.msg.kind = .wrLine) ∧ (q.msg.src = .hart h) ∧ (s.online (dieOf (tileOf h)) = true)) :=
  ⟨⟨{ kind := .rsp, src := .die 0, dst := homeOf 0x2000040, line := 0x2000040, st := .S, data := 9 }, 0, .die 1, 2, { msg := { kind := .rdX, src := .die 0, dst := homeOf 0x2000040, line := 0x2000040, way := 4 }, to_ := .dram 0 0x1000, phase := .snooping, snooped := [.die 0, .die 1], needMem := false }, { s0 with net := [{ kind := .rsp, src := .die 0, dst := homeOf 0x2000040, line := 0x2000040, st := .S, data := 9 }], filt := [(l3Key 0 0x2000040 2, ⟨0x2000040, .X, none⟩)], lineq := [(0x2000040, [{ msg := { kind := .rdX, src := .die 0, dst := homeOf 0x2000040, line := 0x2000040, way := 4 }, to_ := .dram 0 0x1000, phase := .snooping, snooped := [.die 0, .die 1], needMem := false }])] }, by decide +kernel⟩,
   ⟨{ kind := .datSnp, src := .die 0, dst := homeOf 0x2000040, line := 0x2000040, st := .S, data := 9 }, 0, .die 1, 2, { msg := { kind := .rdX, src := .die 0, dst := homeOf 0x2000040, line := 0x2000040, way := 4 }, to_ := .dram 0 0x1000, phase := .snooping, snooped := [.die 0, .die 1], needMem := false }, { s0 with net := [{ kind := .datSnp, src := .die 0, dst := homeOf 0x2000040, line := 0x2000040, st := .S, data := 9 }], filt := [(l3Key 0 0x2000040 2, ⟨0x2000040, .X, none⟩)], lineq := [(0x2000040, [{ msg := { kind := .rdX, src := .die 0, dst := homeOf 0x2000040, line := 0x2000040, way := 4 }, to_ := .dram 0 0x1000, phase := .snooping, snooped := [.die 0, .die 1], needMem := false }])] }, by decide +kernel⟩,
   ⟨{ kind := .mDat, src := .chan 0, dst := homeOf 0x2000040, line := 0x2000040, data := 9 }, 0, { msg := { kind := .rdS, src := .die 0, dst := homeOf 0x2000040, line := 0x2000040, way := 4 }, to_ := .dram 0 0x1000, phase := .snooping, snooped := [], needMem := true }, 0, 0x1000, { s0 with net := [{ kind := .mDat, src := .chan 0, dst := homeOf 0x2000040, line := 0x2000040, data := 9 }], lineq := [(0x2000040, [{ msg := { kind := .rdS, src := .die 0, dst := homeOf 0x2000040, line := 0x2000040, way := 4 }, to_ := .dram 0 0x1000, phase := .snooping, snooped := [], needMem := true }])] }, by decide +kernel⟩,
   ⟨{ kind := .ack, src := .die 0, dst := homeOf 0x2000040, line := 0x2000040 }, { msg := { kind := .rdS, src := .die 0, dst := homeOf 0x2000040, line := 0x2000040, way := 4 }, to_ := .dram 0 0x1000, phase := .waitAck, snooped := [], needMem := false }, 0, 0x1000, { s0 with net := [{ kind := .ack, src := .die 0, dst := homeOf 0x2000040, line := 0x2000040 }], lineq := [(0x2000040, [{ msg := { kind := .rdS, src := .die 0, dst := homeOf 0x2000040, line := 0x2000040, way := 4 }, to_ := .dram 0 0x1000, phase := .waitAck, snooped := [], needMem := false }])] }, by decide +kernel⟩,
   ⟨{ kind := .mAck, src := .chan 0, dst := homeOf 0x2000040, line := 0x2000040 }, 0, { msg := { kind := .wrLine, src := .hart 0, dst := homeOf 0x2000040, line := 0x2000040, way := 4 }, to_ := .dram 0 0x1000, phase := .waitMAck, snooped := [], needMem := false }, { s0 with net := [{ kind := .mAck, src := .chan 0, dst := homeOf 0x2000040, line := 0x2000040 }], lineq := [(0x2000040, [{ msg := { kind := .wrLine, src := .hart 0, dst := homeOf 0x2000040, line := 0x2000040, way := 4 }, to_ := .dram 0 0x1000, phase := .waitMAck, snooped := [], needMem := false }])] }, by decide +kernel⟩⟩

theorem wit_GrantsComplete :
    (∃ (m : Msg) (d : Fin 16) (k : Fin 4) (n : Nat) (x : QMiss) (s : State), (s.oneMsg m) ∧ (m.src = .home k) ∧ (m.dst = .die d) ∧ (x.line = m.line) ∧ (s.awaits d n x .rdS) ∧ ((Run.start s).l3Find d m.line = none) ∧ ((∀ v < 8, s.l2Slot (l2Key n m.line v) = none)) ∧ (∃ p ∈ [(Instr.dats (s.packet m), MsgKind.datS, St.S, St.S), (.date (s.packet m), .datE, .E, .E), (.datm (s.packet m), .datM, .M, .E)], m.kind = p.2.1)) ∧
    (∃ (m : Msg) (d : Fin 16) (k : Fin 4) (n : Nat) (x : QMiss) (s : State), (s.oneMsg m) ∧ (m.src = .home k) ∧ (m.dst = .die d) ∧ (x.line = m.line) ∧ (s.awaits d n x .rdS) ∧ ((Run.start s).l3Find d m.line = none) ∧ ((∀ v < 8, s.l2Slot (l2Key n m.line v) = none)) ∧ (∃ p ∈ [(Instr.dats (s.packet m), MsgKind.datS, St.S, St.S), (.date (s.packet m), .datE, .E, .E), (.datm (s.packet m), .datM, .M, .E)], m.kind = p.2.1)) ∧
    (∃ (m : Msg) (d : Fin 16) (k : Fin 4) (n : Nat) (x : QMiss) (s : State), (s.oneMsg m) ∧ (m.src = .home k) ∧ (m.dst = .die d) ∧ (x.line = m.line) ∧ (s.awaits d n x .rdS) ∧ ((Run.start s).l3Find d m.line = none) ∧ ((∀ v < 8, s.l2Slot (l2Key n m.line v) = none)) ∧ (∃ p ∈ [(Instr.dats (s.packet m), MsgKind.datS, St.S, St.S), (.date (s.packet m), .datE, .E, .E), (.datm (s.packet m), .datM, .M, .E)], m.kind = p.2.1)) ∧
    (∃ (m : Msg) (d : Fin 16) (k : Fin 4) (n : Nat) (w : Nat) (v : Nat) (x : QMiss) (y : L3Slot) (z : L2Slot) (s : State), (s.oneMsg m) ∧ (m.src = .home k) ∧ (m.dst = .die d) ∧ (x.line = m.line) ∧ (s.awaits d n x .upg) ∧ ((Run.start s).l3Find d m.line = some (w, y)) ∧ (y.st = .S) ∧ (y.cv = 1#16 <<< (n % 16)) ∧ ((Run.start s).l2Find n m.line = some (v, z)) ∧ (∃ p ∈ [(Instr.gnte (s.packet m), MsgKind.gntE, St.E), (.gntm (s.packet m), .gntM, .M)], m.kind = p.2.1)) ∧
    (∃ (m : Msg) (d : Fin 16) (k : Fin 4) (n : Nat) (w : Nat) (v : Nat) (x : QMiss) (y : L3Slot) (z : L2Slot) (s : State), (s.oneMsg m) ∧ (m.src = .home k) ∧ (m.dst = .die d) ∧ (x.line = m.line) ∧ (s.awaits d n x .upg) ∧ ((Run.start s).l3Find d m.line = some (w, y)) ∧ (y.st = .S) ∧ (y.cv = 1#16 <<< (n % 16)) ∧ ((Run.start s).l2Find n m.line = some (v, z)) ∧ (∃ p ∈ [(Instr.gnte (s.packet m), MsgKind.gntE, St.E), (.gntm (s.packet m), .gntM, .M)], m.kind = p.2.1)) :=
  ⟨⟨{ kind := .datS, src := homeOf 0x2000040, dst := .die 0, line := 0x2000040, data := 9 }, 0, Fin.ofNat 4 (quadOf 0x2000040), 1, { line := 0x2000040, way := 2, kind := .rdS, tiles := [(1, .rdS)] }, { s0 with net := [{ kind := .datS, src := homeOf 0x2000040, dst := .die 0, line := 0x2000040, data := 9 }], quads := [(0 * 4 + quadOf 0x2000040, { miss := [{ line := 0x2000040, way := 2, kind := .rdS, tiles := [(1, .rdS)] }] })], tiles := [(1, { miss := [{ line := 0x2000040, own := false, sent := true, want := [.prefetch false] }] })] }, by decide +kernel⟩,
   ⟨{ kind := .datE, src := homeOf 0x2000040, dst := .die 0, line := 0x2000040, data := 9 }, 0, Fin.ofNat 4 (quadOf 0x2000040), 1, { line := 0x2000040, way := 2, kind := .rdS, tiles := [(1, .rdS)] }, { s0 with net := [{ kind := .datE, src := homeOf 0x2000040, dst := .die 0, line := 0x2000040, data := 9 }], quads := [(0 * 4 + quadOf 0x2000040, { miss := [{ line := 0x2000040, way := 2, kind := .rdS, tiles := [(1, .rdS)] }] })], tiles := [(1, { miss := [{ line := 0x2000040, own := false, sent := true, want := [.prefetch false] }] })] }, by decide +kernel⟩,
   ⟨{ kind := .datM, src := homeOf 0x2000040, dst := .die 0, line := 0x2000040, data := 9 }, 0, Fin.ofNat 4 (quadOf 0x2000040), 1, { line := 0x2000040, way := 2, kind := .rdS, tiles := [(1, .rdS)] }, { s0 with net := [{ kind := .datM, src := homeOf 0x2000040, dst := .die 0, line := 0x2000040, data := 9 }], quads := [(0 * 4 + quadOf 0x2000040, { miss := [{ line := 0x2000040, way := 2, kind := .rdS, tiles := [(1, .rdS)] }] })], tiles := [(1, { miss := [{ line := 0x2000040, own := false, sent := true, want := [.prefetch false] }] })] }, by decide +kernel⟩,
   ⟨{ kind := .gntE, src := homeOf 0x2000040, dst := .die 0, line := 0x2000040, data := 9 }, 0, Fin.ofNat 4 (quadOf 0x2000040), 1, 3, 5, { line := 0x2000040, way := 2, kind := .upg, tiles := [(1, .upg)] }, ⟨0x2000040, .S, 2, 0, 5, false, 2, none, false, false⟩, ⟨0x2000040, .S, 5, false, none, false⟩, { s0 with net := [{ kind := .gntE, src := homeOf 0x2000040, dst := .die 0, line := 0x2000040, data := 9 }], quads := [(0 * 4 + quadOf 0x2000040, { miss := [{ line := 0x2000040, way := 2, kind := .upg, tiles := [(1, .upg)] }] })], tiles := [(1, { miss := [{ line := 0x2000040, own := true, sent := true, want := [.prefetch false] }] })], l3 := [(l3Key 0 0x2000040 3, ⟨0x2000040, .S, 2, 0, 5, false, 2, none, false, false⟩)], l2 := [(l2Key 1 0x2000040 5, ⟨0x2000040, .S, 5, false, none, false⟩)] }, by decide +kernel⟩,
   ⟨{ kind := .gntM, src := homeOf 0x2000040, dst := .die 0, line := 0x2000040, data := 9 }, 0, Fin.ofNat 4 (quadOf 0x2000040), 1, 3, 5, { line := 0x2000040, way := 2, kind := .upg, tiles := [(1, .upg)] }, ⟨0x2000040, .S, 2, 0, 5, false, 2, none, false, false⟩, ⟨0x2000040, .S, 5, false, none, false⟩, { s0 with net := [{ kind := .gntM, src := homeOf 0x2000040, dst := .die 0, line := 0x2000040, data := 9 }], quads := [(0 * 4 + quadOf 0x2000040, { miss := [{ line := 0x2000040, way := 2, kind := .upg, tiles := [(1, .upg)] }] })], tiles := [(1, { miss := [{ line := 0x2000040, own := true, sent := true, want := [.prefetch false] }] })], l3 := [(l3Key 0 0x2000040 3, ⟨0x2000040, .S, 2, 0, 5, false, 2, none, false, false⟩)], l2 := [(l2Key 1 0x2000040 5, ⟨0x2000040, .S, 5, false, none, false⟩)] }, by decide +kernel⟩⟩

theorem wit_HartAnswersComplete :
    (∃ (m : Msg) (h : Fin 1024) (s : State), (s.oneMsg m) ∧ (m.kind = .done) ∧ (m.dst = .hart h) ∧ ((Run.start s).opOn m.dst m.line true = false) ∧ (s.undisturbed h) ∧ ((s.hart h).ncOut = []) ∧ ((s.hart h).wait = some (.cbo [m.line] none))) ∧
    (∃ (m : Msg) (h : Fin 1024) (rd : Fin 32) (uns : Bool) (a : Acc) (p : Part) (s : State), (s.oneMsg m) ∧ (m.kind = .datCur) ∧ (m.dst = .hart h) ∧ ((Run.start s).opOn m.dst m.line false = false) ∧ (s.undisturbed h) ∧ ((s.hart h).wait = some (.home a)) ∧ (a.op = .load (.x rd) uns) ∧ (a.parts = [p]) ∧ (m.poison = false) ∧ (rd ≠ 0)) ∧
    (∃ (m : Msg) (h : Fin 1024) (rd : Fin 32) (op : AmoOp) (x : BitVec 128) (y : BitVec 128) (a : Acc) (s : State), (s.oneMsg m) ∧ (m.kind = .datAtom) ∧ (m.dst = .hart h) ∧ (s.undisturbed h) ∧ ((s.hart h).wait = some (.home a)) ∧ (a.op = .amo rd op x y) ∧ (a.lg < 4) ∧ (m.poison = false) ∧ (rd ≠ 0)) :=
  ⟨⟨{ kind := .done, src := homeOf 0x2000040, dst := .hart 0, line := 0x2000040, data := 9 }, 0, { hart s0 0 fun t => { t with wait := some (.cbo [0x2000040] none) } with net := [{ kind := .done, src := homeOf 0x2000040, dst := .hart 0, line := 0x2000040, data := 9 }] }, by decide +kernel⟩,
   ⟨{ kind := .datCur, src := homeOf 0x2000040, dst := .hart 0, line := 0x2000040, data := 9 }, 0, 5, false, { op := .load (.x 5) false, lg := 3, parts := [⟨0x2000040, 0, 8, 0⟩], va := 0x80001000 }, ⟨0x2000040, 0, 8, 0⟩, { hart s0 0 fun t => { t with wait := some (.home { op := .load (.x 5) false, lg := 3, parts := [⟨0x2000040, 0, 8, 0⟩], va := 0x80001000 }) } with net := [{ kind := .datCur, src := homeOf 0x2000040, dst := .hart 0, line := 0x2000040, data := 9 }] }, by decide +kernel⟩,
   ⟨{ kind := .datAtom, src := homeOf 0x2000040, dst := .hart 0, line := 0x2000040, data := 9 }, 0, 5, .add, 1, 2, { op := .amo 5 .add 1 2, lg := 3, parts := [⟨0x2000040, 0, 8, 0⟩], va := 0x80001000 }, { hart s0 0 fun t => { t with wait := some (.home { op := .amo 5 .add 1 2, lg := 3, parts := [⟨0x2000040, 0, 8, 0⟩], va := 0x80001000 }) } with net := [{ kind := .datAtom, src := homeOf 0x2000040, dst := .hart 0, line := 0x2000040, data := 9 }] }, by decide +kernel⟩⟩

theorem wit_ChannelsServe :
    (∃ (m : Msg) (c : Fin 24) (la : Nat) (x : DLine) (s : State), (s.oneMsg m) ∧ (m.kind = .mRd) ∧ (m.dst = .chan c) ∧ ((s.chan c).held = []) ∧ ((Run.start s).chanHolds c = false) ∧ (m.la = la) ∧ (s.dline (dramKey c la) = some x) ∧ (x.err = []) ∧ (x.poison = false) ∧ (((Run.start s).memSlot (m.line.toNat * 64)).loaded = true) ∧ (((Run.start s).memSlot (m.line.toNat * 64)).key = x.key) ∧ (x.tweak = m.line.toNat) ∧ (s.fencedDie { m with src := m.dst, dst := m.src } = none)) ∧
    (∃ (m : Msg) (c : Fin 24) (la : Nat) (s : State), (s.oneMsg m) ∧ (m.kind = .mWr) ∧ (m.dst = .chan c) ∧ ((s.chan c).held = []) ∧ ((Run.start s).chanHolds c = false) ∧ (m.la = la) ∧ (m.poison = false) ∧ (((Run.start s).memSlot (m.line.toNat * 64)).loaded = true) ∧ (s.fencedDie { m with src := m.dst, dst := m.src } = none)) :=
  ⟨⟨{ kind := .mRd, src := homeOf 0x2000040, dst := .chan 0, line := 0x2000040, data := 9, dir := 2, la := 0x1000 }, 0, 0x1000, { data := 7, dir := 1, key := 5, tweak := 0x2000040 }, { s0 with net := [{ kind := .mRd, src := homeOf 0x2000040, dst := .chan 0, line := 0x2000040, data := 9, dir := 2, la := 0x1000 }], dram := [(dramKey 0 0x1000, { data := 7, dir := 1, key := 5, tweak := 0x2000040 })] }, by decide +kernel⟩,
   ⟨{ kind := .mWr, src := homeOf 0x2000040, dst := .chan 0, line := 0x2000040, data := 9, dir := 2, la := 0x1000 }, 0, 0x1000, { s0 with net := [{ kind := .mWr, src := homeOf 0x2000040, dst := .chan 0, line := 0x2000040, data := 9, dir := 2, la := 0x1000 }] }, by decide +kernel⟩⟩

theorem wit_TimeAdvances :
    (∃ (u : List UContrib) (k : Nat) (s : State), (s.still) ∧ (s.fld TBASE_STAT_REFOK = 1) ∧ (s.wdog = some k) ∧ (s.pins.fatal = false) ∧ ((Run.start s).ioBit 0x5C 0 = true) ∧ ((∀ b ∈ iodPmus, s.fld (PMU_CTL_EN b.1) = 0))) ∧
    (∃ (u : List UContrib) (k : Nat) (s : State), (s.still) ∧ (s.fld TBASE_STAT_REFOK = 1) ∧ (s.wdog = some k) ∧ (s.pins.fatal = false) ∧ ((Run.start s).ioBit 0x5C 0 = true) ∧ ((∀ b ∈ iodPmus, s.fld (PMU_CTL_EN b.1) = 0))) ∧
    (∃ (d : Fin 16) (u : List UContrib) (s : State), (s.still) ∧ (s.dieIdle d) ∧ (s.fld TBASE_STAT_REFOK = 1) ∧ (s.fld (RLINK_FAULTMAP_TICKP d) = 0) ∧ (s.fld (TBRX_STATUS_LOST d) = 0) ∧ ((s.rx d).withhold = 0) ∧ ((s.rx d).time.toNat + 1 < (Run.start s).count) ∧ ((∀ b ∈ diePmus d, s.fld (PMU_CTL_EN b) = 0))) ∧
    (∃ (d : Fin 16) (c : Word) (s : State), (s.still) ∧ (s.dieIdle d) ∧ (s.noSources) ∧ (s.fld (TBRX_STATUS_LOST d) = 0) ∧ ((s.rx d).time < c + 72) ∧ (c.toNat % 1024 = 0) ∧ ((c + 72).toNat < (Run.start s).count)) ∧
    (∃ (d : Fin 16) (s : State), (s.still) ∧ (s.dieIdle d) ∧ (s.noSources) ∧ (s.fld (TBRX_STATUS_LOST d) = 0)) ∧
    (∃ (d : Fin 16) (s : State), (s.still) ∧ (natBit (s.fld TBASE_STAT_DIE_LOST) d = true) ∧ (s.fld TBASE_STAT_REFOK = 1) ∧ (s.fld (RLINK_STAT_TICKSPARE d) = 0) ∧ (s.fld (RLINK_FAULTMAP_TICKS d) = 0)) ∧
    (∃ (s : State), (s.still) ∧ (s.noSources) ∧ ((∀ d < 16, s.dieIdle d)) ∧ (s.fld TBASE_STAT_REFOK = 1) ∧ (s.fld ERR_FATAL_V = 0)) :=
  ⟨⟨[], 3, put { s0 with wdog := some 3, iommu := { regs := [(0x5C / 4, 1)] } } [(TBASE_STAT_REFOK, 1)], by decide +kernel⟩,
   ⟨[], 3, put { s0 with wdog := some 3, iommu := { regs := [(0x5C / 4, 1)] } } [(TBASE_STAT_REFOK, 1), (TBASE_COUNT_COUNT, 0xFFFFFFFFFFFFFFFF)], by decide +kernel⟩,
   ⟨0, [], put s0 [(TBASE_STAT_REFOK, 1), (TBRX_STATUS_LOST 0, 0), (TBASE_COUNT_COUNT, 9)], by decide +kernel⟩,
   ⟨0, 1024, put s0 [(TBRX_STATUS_LOST 0, 0), (TBASE_COUNT_COUNT, 1097)], by decide +kernel⟩,
   ⟨0, put s0 [(TBRX_STATUS_LOST 0, 0)], by decide +kernel⟩,
   ⟨0, put s0 [(TBASE_STAT_REFOK, 1), (TBASE_STAT_DIE_LOST, 1)], by decide +kernel⟩,
   ⟨put s0 [(TBASE_STAT_REFOK, 1)], by decide +kernel⟩⟩

theorem wit_TokensAndMonitors :
    (∃ (n : Fin 256) (k : Fin 4) (rd : Fin 32) (v : Word) (s : State), (s.free_ (n * 4 + k)) ∧ (s.csr (n * 4 + k) 0x320 = 0) ∧ ((s.hart (n * 4 + k)).mode = .m) ∧ ((s.tile n).ceid = 0) ∧ ((Run.start s).tokenPasses n = true) ∧ (s.fld (TBRX_STATUS_LOST (dieOf n)) = 0) ∧ ((∀ i < 4, (s.hart (n * 4 + i)).edge = 0 ∧ ∀ j < 8, s.csr (n * 4 + i) (0x323 + j) = 0)) ∧ (rd ≠ 0)) ∧
    (∃ (n : Fin 256) (laps : BitVec 16) (tj : BitVec 16) (v : BitVec 10) (s : State), (s.still) ∧ (s.fld (TBRX_STATUS_LOST (dieOf n)) = 0) ∧ ((s.rx (dieOf n)).time.toNat % 1024 = 0) ∧ ((s.rx (dieOf n)).time ≠ (s.tile n).window) ∧ (480 ≤ v.toNat)) ∧
    (∃ (n : Fin 256) (v : BitVec 10) (s : State), (s.still) ∧ (v.toNat < s.fld (TMON_DROOP_THRESH n)) ∧ ((s.tile n).below = false) ∧ (480 ≤ v.toNat)) :=
  ⟨⟨0, 0, 5, 9, put s0 [(TBRX_STATUS_LOST 0, 0)], by decide +kernel⟩,
   ⟨0, 3, 40, 900, { (put s0 [(TBRX_STATUS_LOST 0, 0)]) with tbrx := [(0, { time := 2048 })] }, by decide +kernel⟩,
   ⟨0, 700, put s0 [(TMON_DROOP_THRESH 0, 800)], by decide +kernel⟩⟩

theorem wit_RegisterWritesComplete :
    (∃ (q : Requester) (a : BitVec 40) (v : Word) (f : Family) (ix : List Nat) (s : State), (s.still) ∧ (s.writer q) ∧ (findReg a.toNat = some (f, ix)) ∧ (a.toNat % 8 = 0) ∧ (decoded a.toNat = true) ∧ (imsicPage a.toNat = none) ∧ ((a.toNat < 2 ^ 36 → s.online (a.toNat / 2 ^ 32) = true)) ∧ (((Run.start s).secHeld a.toNat && (Run.start s).normal q) = false) ∧ (s.fld FOX_CFGLOCK_LOCK = 0) ∧ (f.name ∈ [.SAD_RANGE_LIMIT, .L3_PARTRANGE_BASE, .L3_PARTRANGE_LIMIT, .L2CTL_STATUS, .L3_STATUS, .HOME_CFG, .HOME_TRKSTAT, .RLINK_STAT, .MC_STATUS,
      .SOCK_CFG, .FOX_KAT, .ALARM_STAT, .WDOG_CTL, .WEIR_STAT, .WEIR_EVT, .WEIR_EVTEN, .EB_STAT, .EB_REC, .PMU_CTL, .PMU_CNT, .ARR_FLIPD, .ID_STEPPING])) ∧
    (∃ (q : Requester) (a : BitVec 40) (v : Word) (f : Family) (ix : List Nat) (s : State), (s.still) ∧ (s.writer q) ∧ (findReg a.toNat = some (f, ix)) ∧ (a.toNat % 8 = 0) ∧ (decoded a.toNat = true) ∧ (imsicPage a.toNat = none) ∧ ((a.toNat < 2 ^ 36 → s.online (a.toNat / 2 ^ 32) = true)) ∧ (((Run.start s).secHeld a.toNat && (Run.start s).normal q) = false) ∧ (s.fld FOX_CFGLOCK_LOCK = 0) ∧ (f.name ∈ [.SAD_RANGE_LIMIT, .L3_PARTRANGE_BASE, .L3_PARTRANGE_LIMIT, .L2CTL_STATUS, .L3_STATUS, .HOME_CFG, .HOME_TRKSTAT, .RLINK_STAT, .MC_STATUS,
      .SOCK_CFG, .FOX_KAT, .ALARM_STAT, .WDOG_CTL, .WEIR_STAT, .WEIR_EVT, .WEIR_EVTEN, .EB_STAT, .EB_REC, .PMU_CTL, .PMU_CNT, .ARR_FLIPD, .ID_STEPPING])) :=
  ⟨⟨.fox, BitVec.ofNat 40 WEIR_EVTEN.off, 0xF5, ⟨.WEIR_EVTEN, 0x1000090020, [], fields_WEIR_EVTEN⟩, [], s0, by decide +kernel⟩,
   ⟨.hart 0, BitVec.ofNat 40 (EB_STAT 0x10001E00).off, 2, ⟨.EB_STAT, 0x10001e00, [(16, 0x100000000), (4, 0x1000)], fields_EB_STAT⟩, [0, 0], put s0 [(EB_STAT_V 0x10001E00, 7)], by decide +kernel⟩⟩

theorem wit_HartsAreReached :
    (∃ (q : Requester) (h : Fin 1024) (f : Fin 6) (big : Bool) (n : BitVec 11) (s : State), (s.still) ∧ (s.undisturbed h) ∧ ((Run.start s).acts q = true) ∧ (n ≠ 0) ∧ (s.online (dieOf (tileOf h)) = true) ∧ (((Run.start s).idReserved n.toNat = false ∨ (Run.start s).secure q = true))) ∧
    (∃ (q : Requester) (h : Fin 1024) (f : Fin 6) (big : Bool) (n : BitVec 11) (s : State), (s.still) ∧ (s.undisturbed h) ∧ ((Run.start s).acts q = true) ∧ (n ≠ 0) ∧ (s.online (dieOf (tileOf h)) = true) ∧ (((Run.start s).idReserved n.toNat = false ∨ (Run.start s).secure q = true))) ∧
    (∃ (q : Requester) (h : Fin 1024) (v : Word) (s : State), (s.still) ∧ (s.writer q) ∧ (s.online (dieOf (tileOf h)) = true) ∧ (s.fld FOX_CFGLOCK_LOCK = 1) ∧ ((s.die (dieOf (tileOf h))).tileRst = []) ∧ ((s.tile (tileOf h)).ceid = 0) ∧ ((s.hart h).run = .held) ∧ (s.fld (HART_START_RUN (tileOf h) (h % 4)) = 0) ∧ (v.getLsbD 0 = true) ∧ (s.fld (DOM_STAT_STATE (domTile (tileOf h))) = 0) ∧ ((∀ k < 4, (s.quad (dieOf (tileOf h) * 4 + k)).waiting = []))) :=
  ⟨⟨.hart 0, 1, 0, false, 5, s0, by decide +kernel⟩,
   ⟨.phlox 3, 2, 3, true, 1029, s0, by decide +kernel⟩,
   ⟨.hart 0, 2, 0x80000001, put { s0 with quads := [] } [(FOX_CFGLOCK_LOCK, 1)], by decide +kernel⟩⟩

theorem wit_ActionWritesComplete :
    (∃ (q : Requester) (n : Fin 256) (s : State), (s.still) ∧ (s.writer q) ∧ (s.online (dieOf n) = true)) ∧
    (∃ (q : Requester) (n : Fin 256) (s : State), (s.still) ∧ (s.writer q) ∧ (s.online (dieOf n) = true)) ∧
    (∃ (q : Requester) (d : Fin 17) (s : State), (s.still) ∧ (s.writer q) ∧ ((d.val < 16 → s.online d = true)) ∧ (s.fld (ERR_RINGSTAT_COUNT d) ≠ 0)) ∧
    (∃ (q : Requester) (d : Fin 17) (s : State), (s.still) ∧ (s.writer q) ∧ ((d.val < 16 → s.online d = true)) ∧ (s.fld (ERR_RINGSTAT_COUNT d) ≠ 0)) :=
  ⟨⟨.hart 0, 0, put s0 [(TMON_TEMP_TJ 0, 40), (TMON_TEMP_TJMAX 0, 90)], by decide +kernel⟩,
   ⟨.fox, 1, put s0 [(TMON_DROOP_VNOW 1, 800), (TMON_DROOP_DCOUNT 1, 3), (TMON_DROOP_VMIN 1, 700)], by decide +kernel⟩,
   ⟨.hart 0, 16, put s0 [(ERR_RINGSTAT_COUNT 16, 1), (ERR_RINGSTAT_TAIL 16, 15), (ERR_SUMMARY_RING, 0x10001)], by decide +kernel⟩,
   ⟨.hart 0, 0, put s0 [(ERR_RINGSTAT_COUNT 0, 3), (ERR_RINGSTAT_TAIL 0, 4), (ERR_SUMMARY_RING, 0x10001)], by decide +kernel⟩⟩

theorem wit_PartitionsComplete :
    (∃ (q : Requester) (d : Fin 16) (p : Fin 16) (v : Word) (s : State), (s.still) ∧ (s.writer q) ∧ (s.online d = true) ∧ (s.fld (L3_PARTWAYS_FROZEN d p) = 0) ∧ (v.getLsbD 63 = false) ∧ (wayRule (fun k => if k = p.val then Word.bits v 15 0 else s.fld (L3_PARTWAYS_WAYS d k)) (s.fld (L3_WAYLOCK_LOCK d)) = true)) ∧
    (∃ (q : Requester) (d : Fin 16) (v : Word) (s : State), (s.still) ∧ (s.writer q) ∧ (s.online d = true) ∧ (s.fld (L3_STATUS_SWEEP d) = 0) ∧ (s.fld (L3_STATUS_CACHE_DISABLE_PENDING d) = 0) ∧ ((∀ k < 16, s.fld (L3_PARTWAYS_FROZEN d k) = 0)) ∧ (wayRule (fun k => s.fld (L3_PARTWAYS_WAYS d k)) (Word.bits v 15 0) = true) ∧ (((List.range 16).any fun w => natBit (Word.bits v 15 0) w && !natBit (s.fld (L3_WAYLOCK_LOCK d)) w) = true)) ∧
    (∃ (q : Requester) (d : Fin 16) (v : Word) (s : State), (s.still) ∧ (s.writer q) ∧ (s.online d = true) ∧ (s.fld (L3_STATUS_SWEEP d) = 0) ∧ (s.fld (L3_STATUS_CACHE_DISABLE_PENDING d) = 0) ∧ ((∀ k < 16, s.fld (L3_PARTWAYS_FROZEN d k) = 0)) ∧ (wayRule (fun k => s.fld (L3_PARTWAYS_WAYS d k)) (s.fld (L3_WAYLOCK_LOCK d)) = true) ∧ (s.fld (L3_WAYLOCK_LOCK d) = 0)) ∧
    (∃ (d : Fin 16) (w : Fin 16) (x : L3Slot) (s : State), (s.still) ∧ (s.net = []) ∧ (s.fld (L3_STATUS_SWEEP d) = 1) ∧ (s.l3 = [(l3Key d x.line w, x)]) ∧ (natBit (s.fld (L3_WAYLOCK_LOCK d)) w = true) ∧ (x.part ≠ (Run.start s).wayOwner d w) ∧ (x.cv = 0) ∧ (x.flip = none) ∧ (x.tagFlip = false) ∧ (x.cvFlip = false) ∧ (s.fld (ARR_FLIP_ARM d (128 + quadOf x.line * 3 + 2)) = 0) ∧ ((∀ k < 4, (s.quad (d * 4 + k)).waiting = [] ∧ (s.quad (d * 4 + k)).miss = [])) ∧ (s.noSwop) ∧ ((s.quad (d * 4 + quadOf x.line)).vict.length < 32) ∧ (((s.quad (d * 4 + quadOf x.line)).vict.all (fun v => v.line != x.line) = true))) ∧
    (∃ (d : Fin 16) (w : Fin 16) (x : L3Slot) (s : State), (s.still) ∧ (s.net = []) ∧ (s.fld (L3_STATUS_SWEEP d) = 1) ∧ (s.l3 = [(l3Key d x.line w, x)]) ∧ (natBit (s.fld (L3_WAYLOCK_LOCK d)) w = true) ∧ (x.part ≠ (Run.start s).wayOwner d w) ∧ (x.cv = 0) ∧ (x.flip = none) ∧ (x.tagFlip = false) ∧ (x.cvFlip = false) ∧ (s.fld (ARR_FLIP_ARM d (128 + quadOf x.line * 3 + 2)) = 0) ∧ ((∀ k < 4, (s.quad (d * 4 + k)).waiting = [] ∧ (s.quad (d * 4 + k)).miss = [])) ∧ (s.noSwop) ∧ ((s.quad (d * 4 + quadOf x.line)).vict.length < 32) ∧ (((s.quad (d * 4 + quadOf x.line)).vict.all (fun v => v.line != x.line) = true))) ∧
    (∃ (d : Fin 16) (w : Fin 16) (x : L3Slot) (s : State), (s.still) ∧ (s.net = []) ∧ (s.fld (L3_STATUS_SWEEP d) = 1) ∧ (s.l3 = [(l3Key d x.line w, x)]) ∧ (natBit (s.fld (L3_WAYLOCK_LOCK d)) w = true) ∧ (x.part ≠ (Run.start s).wayOwner d w) ∧ (x.cv = 0) ∧ (x.flip = none) ∧ (x.tagFlip = false) ∧ (x.cvFlip = false) ∧ (s.fld (ARR_FLIP_ARM d (128 + quadOf x.line * 3 + 2)) = 0) ∧ ((∀ k < 4, (s.quad (d * 4 + k)).waiting = [] ∧ (s.quad (d * 4 + k)).miss = [])) ∧ (s.noSwop) ∧ ((s.quad (d * 4 + quadOf x.line)).vict.length < 32) ∧ (((s.quad (d * 4 + quadOf x.line)).vict.all (fun v => v.line != x.line) = true))) ∧
    (∃ (d : Fin 16) (w : Fin 16) (x : L3Slot) (s : State), (s.still) ∧ (s.net = []) ∧ (s.fld (L3_STATUS_SWEEP d) = 1) ∧ (s.l3 = [(l3Key d x.line w, x)]) ∧ (natBit (s.fld (L3_WAYLOCK_LOCK d)) w = true) ∧ (x.part ≠ (Run.start s).wayOwner d w) ∧ (x.cv = 0) ∧ (x.flip = none) ∧ (x.tagFlip = false) ∧ (x.cvFlip = false) ∧ (s.fld (ARR_FLIP_ARM d (128 + quadOf x.line * 3 + 2)) = 0) ∧ ((∀ k < 4, (s.quad (d * 4 + k)).waiting = [] ∧ (s.quad (d * 4 + k)).miss = [])) ∧ (s.noSwop) ∧ ((s.quad (d * 4 + quadOf x.line)).vict.length < 32) ∧ (((s.quad (d * 4 + quadOf x.line)).vict.all (fun v => v.line != x.line) = true))) :=
  ⟨⟨.hart 0, 0, 3, 0x0F, s0, by decide +kernel⟩,
   ⟨.hart 0, 0, 3, s0, by decide +kernel⟩,
   ⟨.hart 0, 0, 0x55, s0, by decide +kernel⟩,
   ⟨0, 3, ⟨0x2000040, .M, 0, 2, 5, false, 2, none, false, false⟩, put { s0 with l3 := [(l3Key 0 0x2000040 3, ⟨0x2000040, .M, 0, 2, 5, false, 2, none, false, false⟩)] } [(L3_STATUS_SWEEP 0, 1), (L3_WAYLOCK_LOCK 0, 8)], by decide +kernel⟩,
   ⟨0, 3, ⟨0x2000040, .O, 0, 2, 5, false, 2, none, false, false⟩, put { s0 with l3 := [(l3Key 0 0x2000040 3, ⟨0x2000040, .O, 0, 2, 5, false, 2, none, false, false⟩)] } [(L3_STATUS_SWEEP 0, 1), (L3_WAYLOCK_LOCK 0, 8)], by decide +kernel⟩,
   ⟨0, 3, ⟨0x2000040, .E, 0, 2, 5, false, 2, none, false, false⟩, put { s0 with l3 := [(l3Key 0 0x2000040 3, ⟨0x2000040, .E, 0, 2, 5, false, 2, none, false, false⟩)] } [(L3_STATUS_SWEEP 0, 1), (L3_WAYLOCK_LOCK 0, 8)], by decide +kernel⟩,
   ⟨0, 3, ⟨0x2000040, .S, 0, 2, 5, false, 2, none, false, false⟩, put { s0 with l3 := [(l3Key 0 0x2000040 3, ⟨0x2000040, .S, 0, 2, 5, false, 2, none, false, false⟩)] } [(L3_STATUS_SWEEP 0, 1), (L3_WAYLOCK_LOCK 0, 8)], by decide +kernel⟩⟩

theorem wit_CachesDisable :
    (∃ (q : Requester) (n : Fin 256) (s : State), (s.still) ∧ (s.writer q) ∧ (s.online (dieOf n) = true) ∧ (s.fld (L2CTL_STATUS_CACHE_DISABLE_PENDING n) = 0) ∧ (s.fld (L2CTL_CTL_DISABLE n) = 0)) ∧
    (∃ (n : Fin 256) (w : Fin 8) (x : L2Slot) (s : State), (s.still) ∧ (s.net = []) ∧ (s.fld (L2CTL_STATUS_CACHE_DISABLE_PENDING n) = 1) ∧ ((s.tile n).miss = []) ∧ (s.l2 = [(l2Key n x.line w, x)]) ∧ (x.st ≠ .M) ∧ (x.flip = none) ∧ (x.tagFlip = false) ∧ ((∀ e ∈ s.l3, e.2.flip = none ∧ e.2.tagFlip = false ∧ e.2.cvFlip = false))) ∧
    (∃ (q : Requester) (n : Fin 256) (s : State), (s.still) ∧ (s.writer q) ∧ (s.online (dieOf n) = true) ∧ (s.fld (L2CTL_STATUS_CACHE_DISABLE_PENDING n) = 0) ∧ (s.fld (L2CTL_CTL_DISABLE n) = 1)) ∧
    (∃ (q : Requester) (d : Fin 16) (k : Fin 4) (s : State), (s.still) ∧ (s.writer q) ∧ (s.online d = true) ∧ (s.fld (L3_STATUS_SWEEP d) = 0) ∧ (s.fld (L3_STATUS_CACHE_DISABLE_PENDING d) = 0) ∧ (natBit (s.fld (L3_CTL_QDISABLE d)) k = false)) ∧
    (∃ (d : Fin 16) (k : Fin 4) (w : Fin 16) (x : L3Slot) (s : State), (s.still) ∧ (s.net = []) ∧ (natBit (s.fld (L3_STATUS_CACHE_DISABLE_PENDING d)) k = true) ∧ (s.l3 = [(l3Key d x.line w, x)]) ∧ (quadOf x.line = k.val) ∧ (x.st.dirty = false) ∧ (x.cv = 0) ∧ (x.flip = none) ∧ (x.tagFlip = false) ∧ (x.cvFlip = false) ∧ ((s.quad (d * 4 + k)).miss = []) ∧ ((s.quad (d * 4 + k)).vict.length < 32) ∧ (((s.quad (d * 4 + k)).vict.all (fun v => v.line != x.line) = true))) ∧
    (∃ (q : Requester) (d : Fin 16) (k : Fin 4) (s : State), (s.still) ∧ (s.writer q) ∧ (s.online d = true) ∧ (s.fld (L3_STATUS_SWEEP d) = 0) ∧ (s.fld (L3_STATUS_CACHE_DISABLE_PENDING d) = 0) ∧ (natBit (s.fld (L3_CTL_QDISABLE d)) k = true) ∧ (s.fld (DOM_STAT_STATE (domQuad d k)) = 3) ∧ (s.fld (DOM_STAT_STATE (400 + k)) = 0)) :=
  ⟨⟨.hart 0, 1, s0, by decide +kernel⟩,
   ⟨1, 2, ⟨0x2000040, .E, 5, false, none, false⟩, put { s0 with l2 := [(l2Key 1 0x2000040 2, ⟨0x2000040, .E, 5, false, none, false⟩)], l3 := [(l3Key 0 0x2000040 3, ⟨0x2000040, .E, 2, 0, 5, false, 2, none, false, false⟩)] } [(L2CTL_STATUS_CACHE_DISABLE_PENDING 1, 1), (L2CTL_CTL_DISABLE 1, 1)], by decide +kernel⟩,
   ⟨.hart 0, 1, put s0 [(L2CTL_STATUS_DISABLED 1, 1), (L2CTL_CTL_DISABLE 1, 1)], by decide +kernel⟩,
   ⟨.hart 0, 0, 2, s0, by decide +kernel⟩,
   ⟨0, Fin.ofNat 4 (quadOf 0x2000040), 3, ⟨0x2000040, .E, 0, 0, 5, false, 2, none, false, false⟩, put { s0 with l3 := [(l3Key 0 0x2000040 3, ⟨0x2000040, .E, 0, 0, 5, false, 2, none, false, false⟩)] } [(L3_STATUS_CACHE_DISABLE_PENDING 0, 15)], by decide +kernel⟩,
   ⟨.hart 0, 0, 2, put s0 [(L3_CTL_QDISABLE 0, 4), (L3_STATUS_DISABLED 0, 4), (DOM_STAT_STATE (domQuad 0 2), 3), (DOM_STAT_HOLD (domQuad 0 2), 1)], by decide +kernel⟩⟩

theorem wit_LinksComplete :
    (∃ (d : Fin 16) (up : Bool) (payload : List (BitVec 64)) (header : BitVec 64) (crc : BitVec 64) (s : State), (s.still) ∧ (s.fld (RLINK_STAT_STATE d) = 4) ∧ (payload.length = 16) ∧ ((payload ++ [header, crc]).all wordWhole = true) ∧ ((Run.start s).lanesOf d up ≠ []) ∧ (((s.die d).dir up).viol = []) ∧ ((flitOf (payload ++ [header, crc])).intact = true) ∧ ((flitOf (payload ++ [header, crc])).seq = ((s.die d).dir up).exp)) ∧
    (∃ (d : Fin 16) (up : Bool) (payload : List (BitVec 64)) (header : BitVec 64) (crc : BitVec 64) (s : State), (s.still) ∧ (s.noSources) ∧ (s.fld (RLINK_STAT_STATE d) = 4) ∧ (payload.length = 16) ∧ ((payload ++ [header, crc]).all wordWhole = true) ∧ ((Run.start s).lanesOf d up ≠ []) ∧ (((s.die d).dir up).viol = []) ∧ (((flitOf (payload ++ [header, crc])).intact = true → (flitOf (payload ++ [header, crc])).seq ≠ ((s.die d).dir up).exp)) ∧ (((s.die d).dir up).fails < 15)) ∧
    (∃ (d : Fin 16) (up : Bool) (payload : List (BitVec 64)) (header : BitVec 64) (crc : BitVec 64) (s : State), (s.still) ∧ (s.noSources) ∧ (s.fld (RLINK_STAT_STATE d) = 4) ∧ (payload.length = 16) ∧ ((payload ++ [header, crc]).all wordWhole = true) ∧ ((Run.start s).lanesOf d up ≠ []) ∧ (((s.die d).dir up).viol = []) ∧ (((flitOf (payload ++ [header, crc])).intact = true → (flitOf (payload ++ [header, crc])).seq ≠ ((s.die d).dir up).exp)) ∧ (((s.die d).dir up).fails < 15)) ∧
    (∃ (d : Fin 16) (up : Bool) (seq : BitVec 12) (s : State), (s.still) ∧ (s.online d = true) ∧ (((s.die d).dir up).asked = some seq)) ∧
    (∃ (d : Fin 16) (up : Bool) (lanes : BitVec 18) (s : State), (s.still) ∧ (s.noSources) ∧ (s.fld (RLINK_STAT_STATE d) = 4) ∧ (((List.range 18).any fun i => lanes.getLsbD i && !natBit (s.fld (laneMap d up)) i) = true) ∧ (4 ≤ healthy (s.fld (laneMap d up) ||| lanes.toNat)) ∧ (4 ≤ healthy (s.fld (laneMap d (!up))))) ∧
    (∃ (d : Fin 16) (s : State), (s.still) ∧ (s.fld (RLINK_STAT_STATE d) = 5)) ∧
    (∃ (q : Requester) (d : Fin 16) (v : Word) (s : State), (s.still) ∧ (s.writer q) ∧ (s.online d = true) ∧ (v &&& ~~~ 0x3FFFF0003FFFF#64 = 0) ∧ (v &&& ~~~ s.reg (RLINK_FAULTMAP d) ≠ 0) ∧ (4 ≤ healthy (s.fld (RLINK_FAULTMAP_UP d) ||| Word.bits v 17 0)) ∧ (4 ≤ healthy (s.fld (RLINK_FAULTMAP_DN d) ||| Word.bits v 49 32))) :=
  ⟨⟨0, true, [0x1111111111111128, 0x1111111111111111, 0x1111111111111111, 0x1111111111111111, 0x1111111111111111, 0x1111111111111111, 0x1111111111111111, 0x1111111111111111, 0x1111111111111111, 0x1111111111111111, 0x1111111111111111, 0x1111111111111111, 0x2428414211111111, 0x1111111214182122, 0x1111111111111111, 0x1111111111111111], 0x1141112141111442, 0x2882444241442818, { s0 with dies := [(0, { up := { exp := 5, fails := 3 } })] }, by decide +kernel⟩,
   ⟨0, false, [0x1111111111111128, 0x1111111111111111, 0x1111111111111111, 0x1111111111111111, 0x1111111111111111, 0x1111111111111111, 0x1111111111111111, 0x1111111111111111, 0x1111111111111111, 0x1111111111111111, 0x1111111111111111, 0x1111111111111111, 0x1111111111111111, 0x1111111111111111, 0x1111111111111111, 0x1111111111111111], 0x1111111111111441, 0x8881121141114881, s0, by decide +kernel⟩,
   ⟨0, false, [0x1111111111111128, 0x1111111111111111, 0x1111111111111111, 0x1111111111111111, 0x1111111111111111, 0x1111111111111111, 0x1111111111111111, 0x1111111111111111, 0x1111111111111111, 0x1111111111111111, 0x1111111111111111, 0x1111111111111111, 0x1111111111111111, 0x1111111111111111, 0x1111111111111111, 0x1111111111111111], 0x1111111111111111, 0x4212814248821218, s0, by decide +kernel⟩,
   ⟨0, true, 9, { s0 with dies := [(0, { up := { asked := some 9 } })] }, by decide +kernel⟩,
   ⟨0, true, 0x30, s0, by decide +kernel⟩,
   ⟨0, put s0 [(RLINK_STAT_STATE 0, 5)], by decide +kernel⟩,
   ⟨.hart 0, 0, 0x300000000, s0, by decide +kernel⟩⟩

theorem wit_CheckUnitsComplete :
    (∃ (q : Requester) (die : Fin 17) (stop : BitVec 8) (u : ChkUnit) (v : Word) (s : State), (s.still) ∧ (s.writer q) ∧ (chkUnit die stop.toNat = some u) ∧ ((die.val < 16 → s.online die = true)) ∧ (s.fld (CHK_CTL_TEST u) = 1) ∧ ((Run.start s).polyOf u ≤ 2)) ∧
    (∃ (q : Requester) (die : Fin 17) (stop : BitVec 8) (u : ChkUnit) (v : Word) (s : State), (s.still) ∧ (s.writer q) ∧ (chkUnit die stop.toNat = some u) ∧ ((die.val < 16 → s.online die = true)) ∧ (s.fld (CHK_CTL_TEST u) = 1) ∧ ((Run.start s).polyOf u ≤ 2)) ∧
    (∃ (q : Requester) (die : Fin 17) (stop : BitVec 8) (u : ChkUnit) (v : Word) (s : State), (s.still) ∧ (s.writer q) ∧ (chkUnit die stop.toNat = some u) ∧ ((die.val < 16 → s.online die = true)) ∧ (s.fld (CHK_CTL_TEST u) = 1) ∧ ((Run.start s).polyOf u ≤ 2)) :=
  ⟨⟨.hart 0, 0, 17, .die 0 17, 0x3132333435363738, put s0 [(CHK_CTL_TEST (.die 0 17), 1)], by decide +kernel⟩,
   ⟨.hart 0, 16, 112, .iod 112, 0x31, put s0 [(CHK_CTL_TEST (.iod 112), 1)], by decide +kernel⟩,
   ⟨.hart 0, 0, 1, .tile 1, 0x3103, put s0 [(CHK_CTL_TEST (.tile 1), 1)], by decide +kernel⟩⟩

theorem wit_ResetsComplete :
    (∃ (q : Requester) (d : Fin 16) (tiles : BitVec 16) (s : State), (s.still) ∧ (s.net = []) ∧ (s.writer q) ∧ (s.fld (RLINK_STAT_STATE d) = 4) ∧ (s.fld (RLINK_RESET_BUSY d) = 0) ∧ (tiles ≠ 0) ∧ ((∀ e ∈ s.harts, e.2.eid = 0))) ∧
    (∃ (d : Fin 16) (s : State), (s.still) ∧ (s.noSources) ∧ (s.fld (RLINK_RESET_BUSY d) = 1) ∧ (s.fld (RLINK_RESET_KIND d) = 1) ∧ ((∀ p ∈ (s.die d).tileRst, ∀ i < 4, s.fld (HART_START_RUN p.1 i) = 0)) ∧ ((∀ p ∈ (s.die d).tileRst, p.1 / 16 = d.val))) ∧
    (∃ (q : Requester) (d : Fin 16) (s : State), (s.still) ∧ (s.noSources) ∧ (s.net = []) ∧ (s.lineq = []) ∧ (s.slices = []) ∧ (s.writer q) ∧ (s.online d = true) ∧ (s.fld (RLINK_RESET_BUSY d) = 0) ∧ (s.fld (RLINK_FAULTMAP_RSTA d) = 0) ∧ (s.freeSlot (.rlink d) 1) ∧ ((∀ e ∈ s.harts, e.2.eid = 0))) ∧
    (∃ (d : Fin 16) (s : State), (s.still) ∧ (s.noSources) ∧ (s.net = []) ∧ (s.lineq = []) ∧ (s.slices = []) ∧ (s.online d = true) ∧ (s.fld (RLINK_RESET_BUSY d) = 0) ∧ (s.fld (RLINK_FAULTMAP_RSTA d) = 0)) ∧
    (∃ (d : Fin 16) (k : Fin 4) (s : State), (s.still) ∧ (s.noSources) ∧ (s.net = []) ∧ (s.lineq = []) ∧ (s.slices = []) ∧ (s.online d = true) ∧ (s.fld (RLINK_RESET_BUSY d) = 0) ∧ (s.fld (RLINK_FAULTMAP_RSTA d) = 0)) ∧
    (∃ (d : Fin 16) (w : Fin 16) (l : LineAddr) (c : Nat) (la : Nat) (s : State), (s.still) ∧ (s.net = []) ∧ (s.lineq = []) ∧ (s.fld (RLINK_STAT_STATE d) = 6) ∧ (s.filt = [(l3Key d l w, ⟨l, .X, none⟩)]) ∧ (s.slices = []) ∧ ((Run.start s).decodeLine l = .dram c la) ∧ ((∀ e ∈ s.harts, e.2.resv ≠ some l)) ∧ (s.fld HOME_CFG_DIREN = 0) ∧ (s.fld (ARR_FLIP_ARM 16 (quadOf l * 16 + d)) = 0)) ∧
    (∃ (d : Fin 16) (s : State), (s.still) ∧ (s.noSources) ∧ (s.net = []) ∧ (s.lineq = []) ∧ (s.fld (RLINK_STAT_STATE d) = 6) ∧ (s.filt = []) ∧ (s.slices = []) ∧ (s.freeSlot (.rlink d) 1) ∧ (s.fld (DOM_STAT_STATE (d * 21 + 20)) = 3)) ∧
    (∃ (d : Fin 16) (e : Fin 16) (l : LineAddr) (q : HReq) (s : State), (s.still) ∧ (s.noSources) ∧ (s.net = []) ∧ (s.slices = []) ∧ (s.lineq = [(l.toNat, [q])]) ∧ (q.msg.line = l) ∧ (q.phase = .snooping) ∧ (q.snooped = [.die d, .die e]) ∧ (d ≠ e) ∧ (q.msg.src = .die e) ∧ (q.msg.kind = .rdX) ∧ (s.online d = true) ∧ (s.fld (RLINK_FAULTMAP_RSTA d) = 0) ∧ (s.freeSlot (.home (quadOf l)) 1) ∧ (s.filt = []) ∧ ((∀ i < 16, (s.tile (d * 16 + i)).halted = false))) :=
  ⟨⟨.fox, 0, 2, { s0 with tiles := [(1, { tokens := 4 })], harts := [(0, { run := .running, pc := 0x80000000 }), (5, { run := .running, pc := 4 })], l2 := [(l2Key 1 0x2000040 2, ⟨0x2000040, .E, 5, false, none, false⟩)], l3 := [(l3Key 0 0x2000040 3, ⟨0x2000040, .E, 2, 0, 5, false, 2, none, false, false⟩)] }, by decide +kernel⟩,
   ⟨0, put { s0 with dies := [(0, { tileRst := [(1, 2)] })] } [(RLINK_RESET_BUSY 0, 1), (RLINK_RESET_KIND 0, 1)], by decide +kernel⟩,
   ⟨.fox, 0, s0, by decide +kernel⟩,
   ⟨0, s0, by decide +kernel⟩,
   ⟨0, 2, s0, by decide +kernel⟩,
   ⟨7, 3, 0x2000040, 0, 0x1000, { (put { s0 with harts := [(0, { run := .running }), (448, { run := .running })] } [(RLINK_STAT_STATE 7, 6), (DOM_STAT_STATE 167, 3)]) with filt := [(l3Key 7 0x2000040 3, ⟨0x2000040, .X, none⟩)] }, by decide +kernel⟩,
   ⟨7, put { s0 with harts := [(0, { run := .running }), (448, { run := .running })] } [(RLINK_STAT_STATE 7, 6), (DOM_STAT_STATE 167, 3)], by decide +kernel⟩,
   ⟨0, 1, 0x2000040, { msg := { kind := .rdX, src := .die 1, dst := homeOf 0x2000040, line := 0x2000040 }, to_ := .dram 0 0x1000, phase := .snooping, snooped := [.die 0, .die 1] }, { s0 with lineq := [(0x2000040, [{ msg := { kind := .rdX, src := .die 1, dst := homeOf 0x2000040, line := 0x2000040 }, to_ := .dram 0 0x1000, phase := .snooping, snooped := [.die 0, .die 1] }])] }, by decide +kernel⟩⟩

theorem wit_RejoinCompletes :
    (∃ (d : Fin 16) (map : Word) (s : State), (s.still) ∧ (s.fld (RLINK_STAT_STATE d) = 1)) ∧
    (∃ (d : Fin 16) (map : Word) (s : State), (s.still) ∧ (s.fld (RLINK_STAT_STATE d) = 2) ∧ (4 ≤ healthy (s.fld (RLINK_FAULTMAP_UP d) ||| Word.bits map 17 0)) ∧ (4 ≤ healthy (s.fld (RLINK_FAULTMAP_DN d) ||| Word.bits map 49 32)) ∧ (((Run.start s).orMap d map).sideDown d = false)) ∧
    (∃ (d : Fin 16) (map : Word) (s : State), (s.still) ∧ (s.fld (RLINK_STAT_STATE d) = 2) ∧ (healthy (s.fld (RLINK_FAULTMAP_UP d) ||| Word.bits map 17 0) < 4)) ∧
    (∃ (d : Fin 16) (s : State), (s.still) ∧ (s.fld (RLINK_STAT_STATE d) = 2) ∧ ((s.die d).trained = true) ∧ (s.fld (TBRX_STATUS_LOST d) = 0)) ∧
    (∃ (d : Fin 16) (baseline : Word) (s : State), (s.still) ∧ (s.fld (RLINK_STAT_STATE d) = 2) ∧ ((s.die d).trained = true) ∧ (s.fld (TBRX_STATUS_LOST d) = 0) ∧ (baseline ≠ s.reg ID_BASELINE)) ∧
    (∃ (q : Requester) (d : Fin 16) (s : State), (s.still) ∧ (s.noSources) ∧ (s.writer q) ∧ (s.fld (RLINK_STAT_STATE d) = 3)) ∧
    (∃ (d : Fin 16) (s : State), (s.still) ∧ (1 ≤ s.fld (RLINK_STAT_STATE d)) ∧ (s.fld (RLINK_STAT_STATE d) ≤ 3) ∧ (s.fld (RLINK_FAULTMAP_RSTA d) = 0)) ∧
    (∃ (d : Fin 16) (s : State), (s.still) ∧ (s.fld (RLINK_STAT_STATE d) = 7) ∧ (s.fld (DOM_STAT_STATE (d * 21 + 20)) = 3)) :=
  ⟨⟨7, 0x300000005, put { s0 with harts := [(0, { run := .running }), (448, { run := .running })] } [(RLINK_STAT_STATE 7, 1)], by decide +kernel⟩,
   ⟨7, 0x300000005, put { s0 with harts := [(0, { run := .running }), (448, { run := .running })] } [(RLINK_STAT_STATE 7, 2)], by decide +kernel⟩,
   ⟨7, 0x3FFF8, put { s0 with harts := [(0, { run := .running }), (448, { run := .running })] } [(RLINK_STAT_STATE 7, 2)], by decide +kernel⟩,
   ⟨7, { (put { s0 with harts := [(0, { run := .running }), (448, { run := .running })] } [(RLINK_STAT_STATE 7, 2), (TBRX_STATUS_LOST 7, 0)]) with dies := [(7, { trained := true })] }, by decide +kernel⟩,
   ⟨7, 3, { (put { s0 with harts := [(0, { run := .running }), (448, { run := .running })] } [(RLINK_STAT_STATE 7, 2), (TBRX_STATUS_LOST 7, 0)]) with dies := [(7, { trained := true })] }, by decide +kernel⟩,
   ⟨.fox, 7, put { s0 with harts := [(0, { run := .running }), (448, { run := .running })] } [(RLINK_STAT_STATE 7, 3)], by decide +kernel⟩,
   ⟨7, put { s0 with harts := [(0, { run := .running }), (448, { run := .running })] } [(RLINK_STAT_STATE 7, 2)], by decide +kernel⟩,
   ⟨7, put { s0 with harts := [(0, { run := .running }), (448, { run := .running })] } [(RLINK_STAT_STATE 7, 7), (DOM_STAT_STATE 167, 3)], by decide +kernel⟩⟩

theorem wit_ChannelsStart :
    (∃ (q : Requester) (c : Fin 24) (v : Word) (s : State), (s.still) ∧ (s.writer q) ∧ (s.fld FOX_CFGLOCK_LOCK = 0) ∧ (s.fld (MC_STATUS_INIT c) = 0) ∧ (s.fld (MC_CTL_RUN c) = 0) ∧ (v.getLsbD 0 = true) ∧ (Word.bits v 3 1 = 7) ∧ (Word.bits v 5 4 < 2) ∧ ((((Run.start s).mrList c).any fun n => (Run.start s).mrTakes c n && s.fld (MC_MRSEQ_MRNUM c n) == 0) = true) ∧ (s.fld (DOM_STAT_STATE (domChan c)) = 3) ∧ (s.fld (DOM_STAT_HOLD (domChan c)) = 0)) ∧
    (∃ (c : Fin 24) (x : Int) (s : State), (s.still) ∧ (s.fld (MC_STATUS_INIT c) = 1) ∧ (s.fld (DOM_STAT_STATE (domChan c)) = 0)) ∧
    (∃ (c : Fin 24) (ts : List (Option Int)) (s : State), (s.still) ∧ (s.noSources) ∧ (s.fld (MC_STATUS_INIT c) = 1) ∧ (s.fld (DOM_STAT_STATE (domChan c)) = 0) ∧ (s.freeSlot (.mc c) 1)) ∧
    (∃ (c : Fin 24) (s : State), (s.still) ∧ (s.fld (MC_STATUS_INIT c) = 2) ∧ ((s.chan c).held = [])) ∧
    (∃ (q : Requester) (i : Fin 16) (s : State), (s.still) ∧ (s.writer q) ∧ (s.fld FOX_CFGLOCK_LOCK = 0) ∧ (s.fld (ILV_SET_BASE_EN i) = 0) ∧ ((Run.start s).ilvCause i (s.fld (ILV_SET_BASE_BASE i)) = 0)) ∧
    (∃ (q : Requester) (i : Fin 16) (s : State), (s.still) ∧ (s.writer q) ∧ (s.fld FOX_CFGLOCK_LOCK = 0) ∧ (s.fld (ILV_SET_BASE_EN i) = 0) ∧ ((Run.start s).ilvCause i (s.fld (ILV_SET_BASE_BASE i)) ≠ 0)) ∧
    (∃ (q : Requester) (i : Fin 16) (s : State), (s.still) ∧ (s.writer q) ∧ (s.fld FOX_CFGLOCK_LOCK = 0) ∧ (s.fld (ILV_SET_BASE_EN i) = 1)) ∧
    (∃ (d : Fin 404) (s : State), (s.still) ∧ (s.fld (DOM_STAT_STATE d) = 1) ∧ ((360 ≤ d.val ∨ (336 ≤ d.val ∧ (s.chan (d.val - 336)).held = [])))) ∧
    (∃ (d : Fin 404) (s : State), (s.still) ∧ (s.fld (DOM_STAT_STATE d) = 1) ∧ ((360 ≤ d.val ∨ (336 ≤ d.val ∧ (s.chan (d.val - 336)).held = [])))) :=
  ⟨⟨.hart 0, 5, 0x1F, put s0 [(MC_MRSEQ_V 5 0, 1), (MC_MRSEQ_SCMASK 5 0, 3), (MC_MRSEQ_CSMASK 5 0, 15), (DOM_STAT_STATE (domChan 5), 3)], by decide +kernel⟩,
   ⟨5, 60, put s0 [(MC_STATUS_INIT 5, 1), (DOM_STAT_STATE (domChan 5), 0)], by decide +kernel⟩,
   ⟨5, [], put s0 [(MC_STATUS_INIT 5, 1), (DOM_STAT_STATE (domChan 5), 0)], by decide +kernel⟩,
   ⟨5, put { s0 with chans := [(5, { mr4 := true })] } [(MC_STATUS_INIT 5, 3), (DOM_STAT_STATE (domChan 5), 0), (MC_STATUS_INIT 5, 2)], by decide +kernel⟩,
   ⟨.hart 0, 0, put s0 [(ILV_SET_BASE_EN 0, 0), (MC_GEOM_DENS 0, 2), (MC_GEOM_HEIGHT 0, 2), (MC_GEOM_DPC 0, 1), (ILV_SET_CFG_SIZE 0, 16), (ILV_SET_CFG_GRAIN 0, 8)], by decide +kernel⟩,
   ⟨.hart 0, 3, s0, by decide +kernel⟩,
   ⟨.hart 0, 0, s0, by decide +kernel⟩,
   ⟨400, put s0 [(DOM_STAT_STATE 400, 1)], by decide +kernel⟩,
   ⟨341, put s0 [(DOM_STAT_STATE 341, 1)], by decide +kernel⟩⟩

theorem wit_ChannelsRefresh :
    (∃ (c : Fin 24) (x : Int) (s : State), (s.still) ∧ (s.fld (MC_STATUS_INIT c) = 3)) ∧
    (∃ (c : Fin 24) (b : Nat) (s : State), (s.still) ∧ ((Run.start s).chanRuns c = true) ∧ ((s.chan c).target = some b) ∧ (b ≤ 2) ∧ ((s.chan c).window = false) ∧ ((s.chan c).alert = false)) ∧
    (∃ (c : Fin 24) (s : State), (s.still) ∧ ((s.chan c).window = true) ∧ ((s.chan c).held = [])) ∧
    (∃ (c : Fin 24) (u : Fin 2) (s : State), (s.still) ∧ ((Run.start s).chanRuns c = true) ∧ (s.fld (MC_REFCTL_PPEN c) = 1) ∧ (s.fld (MC_STATUS_DREF c) = 0)) ∧
    (∃ (c : Fin 24) (u : Fin 2) (s : State), (s.still) ∧ ((Run.start s).chanRuns c = true) ∧ ((s.chan c).held = [])) ∧
    (∃ (c : Fin 24) (x : Bool) (s : State), (s.still) ∧ ((Run.start s).chanRuns c = true) ∧ (3 ∉ (s.chan c).silent)) ∧
    (∃ (c : Fin 24) (s : State), (s.still) ∧ ((Run.start s).chanRuns c = true) ∧ (s.fld (MC_CTL_RFMODE c) = 1) ∧ ((s.chan c).held = []) ∧ ((s.chan c).window = false) ∧ ((s.chan c).alert = false)) ∧
    (∃ (c : Fin 24) (m : Msg) (k : KeySlot) (la : Nat) (s : State), (s.still) ∧ (s.fld (MC_STATUS_INIT c) = 3) ∧ (s.fld (MC_STATUS_SR c) = 1) ∧ (s.fld (DOM_STAT_STATE (domChan c)) = 0) ∧ (s.pins.fatal = false) ∧ ((s.chan c).held = [(m, k)]) ∧ ((s.chan c).window = false) ∧ ((s.chan c).alert = false) ∧ ((s.chan c).target = none) ∧ (m.kind = .mWr) ∧ (m.src = homeOf m.line) ∧ (m.poison = false) ∧ (m.la = la) ∧ (k.loaded = true)) ∧
    (∃ (c : Fin 24) (x : DLine) (s : State), (s.still) ∧ (s.fld (MC_SCRUB_EN c) = 1) ∧ ((Run.start s).chanHolds c = false) ∧ (s.dline (dramKey c (s.fld (MC_SCRUB_POS c) * 64)) = some x) ∧ (x.err = [])) ∧
    (∃ (c : Fin 24) (k : Fin 2) (again : Bool) (s : State), (s.still) ∧ (s.fld (MC_STATUS_INIT c) = 3) ∧ ((s.chan c).alert = false) ∧ ((again = true → (s.chan c).replays < 8))) ∧
    (∃ (c : Fin 24) (k : Fin 2) (again : Bool) (s : State), (s.still) ∧ (s.fld (MC_STATUS_INIT c) = 3) ∧ ((s.chan c).alert = false) ∧ ((again = true → (s.chan c).replays < 8))) ∧
    (∃ (c : Fin 24) (k : Fin 2) (s : State), (s.still) ∧ (s.noSources) ∧ (s.fld (MC_STATUS_INIT c) = 3) ∧ ((s.chan c).alert = false) ∧ (8 ≤ (s.chan c).replays) ∧ (s.fld ERR_FATAL_V = 0)) ∧
    (∃ (c : Fin 24) (k : Fin 2) (s : State), (s.still) ∧ (s.noSources) ∧ ((s.chan c).alert = true) ∧ ((s.chan c).held = []) ∧ (s.freeSlot (.mc c) 0)) :=
  ⟨⟨5, 75, put { s0 with chans := [(5, { mr4 := true })] } [(MC_STATUS_INIT 5, 3), (DOM_STAT_STATE (domChan 5), 0)], by decide +kernel⟩,
   ⟨5, 2, put { s0 with chans := [(5, { target := some 2 })] } [(MC_STATUS_INIT 5, 3), (DOM_STAT_STATE (domChan 5), 0), (MC_STATUS_OWEDA 5, 3)], by decide +kernel⟩,
   ⟨5, put { s0 with chans := [(5, { window := true })] } [(MC_STATUS_INIT 5, 3), (DOM_STAT_STATE (domChan 5), 0)], by decide +kernel⟩,
   ⟨5, 1, put { s0 with chans := [(5, {  })] } [(MC_STATUS_INIT 5, 3), (DOM_STAT_STATE (domChan 5), 0), (MC_REFCTL_PPEN 5, 1), (MC_STATUS_OWEDB 5, 4)], by decide +kernel⟩,
   ⟨5, 1, put { s0 with chans := [(5, {  })] } [(MC_STATUS_INIT 5, 3), (DOM_STAT_STATE (domChan 5), 0), (MC_STATUS_OWEDB 5, 4)], by decide +kernel⟩,
   ⟨5, true, put { s0 with chans := [(5, {  })] } [(MC_STATUS_INIT 5, 3), (DOM_STAT_STATE (domChan 5), 0), (MC_STATUS_OWEDB 5, 4)], by decide +kernel⟩,
   ⟨5, put { s0 with chans := [(5, {  })] } [(MC_STATUS_INIT 5, 3), (DOM_STAT_STATE (domChan 5), 0), (MC_CTL_RFMODE 5, 1), (MC_STATUS_OWEDB 5, 4)], by decide +kernel⟩,
   ⟨0, { kind := .mWr, src := homeOf 0x2000040, dst := .chan 0, line := 0x2000040, data := 9, dir := 2, la := 0x1000 }, { loaded := true, key := 6 }, 0x1000, put { s0 with chans := [(0, { held := [({ kind := .mWr, src := homeOf 0x2000040, dst := .chan 0, line := 0x2000040, data := 9, dir := 2, la := 0x1000 }, { loaded := true, key := 6 })] })] } [(MC_STATUS_SR 0, 1)], by decide +kernel⟩,
   ⟨0, { data := 7 }, put { s0 with dram := [(dramKey 0 0x1000, { data := 7 })] } [(MC_SCRUB_EN 0, 1), (MC_SCRUB_POS 0, 64)], by decide +kernel⟩,
   ⟨5, 1, true, put { s0 with chans := [(5, { replays := 7 })] } [(MC_STATUS_INIT 5, 3), (DOM_STAT_STATE (domChan 5), 0)], by decide +kernel⟩,
   ⟨5, 1, false, put { s0 with chans := [(5, { replays := 9 })] } [(MC_STATUS_INIT 5, 3), (DOM_STAT_STATE (domChan 5), 0)], by decide +kernel⟩,
   ⟨5, 1, put { s0 with chans := [(5, { replays := 8 })] } [(MC_STATUS_INIT 5, 3), (DOM_STAT_STATE (domChan 5), 0)], by decide +kernel⟩,
   ⟨5, 1, put { s0 with chans := [(5, { alert := true })] } [(MC_STATUS_INIT 5, 3), (DOM_STAT_STATE (domChan 5), 0)], by decide +kernel⟩⟩

theorem wit_JobsFlow :
    (∃ (q : Requester) (f : Fin 256) (j : Fin 32) (v : Word) (s : State), (s.still) ∧ (s.writer q) ∧ ((Run.start s).pageOpen f = true)) ∧
    (∃ (q : Requester) (f : Fin 256) (j : Fin 32) (v : Word) (s : State), (s.still) ∧ (s.writer q) ∧ ((Run.start s).pageOpen f = true)) ∧
    (∃ (qi : Fin 1024) (f : Fin 256) (j : Fin 32) (l : LineAddr) (c : Nat) (la : Nat) (c' : Nat) (la' : Nat) (x : DLine) (y : DLine) (s : State), (s.still) ∧ (s.bareIo) ∧ ((Run.start s).queueOf qi = some (f.val, j.val)) ∧ (s.fld (Q_CFG_EN f j) = 1) ∧ (s.fld (PHLOX_QBIND_MOVING qi) = 0) ∧ (s.fetched_ qi = none) ∧ (s.fld (Q_QSTAT_HEAD f j) ≠ s.fld (Q_TAIL_TAIL f j)) ∧ (s.fld (FN_RESET_BUSY f) = 0) ∧ (s.fld (DOM_STAT_STATE (domEngine (s.fld (Q_CFG_ENG f j)))) = 0) ∧ (s.pins.fatal = false) ∧ (s.fld (Q_CFG_LOG2N f j) ≤ 16) ∧ (s.fld (Q_BASE_BASE f j) * 4096 + s.fld (Q_QSTAT_HEAD f j) * 128 = l.toNat * 64) ∧ (l ≠ BitVec.allOnes 46) ∧ (s.lineSrc (.phlox (Fin.ofNat 8 (s.fld (Q_CFG_ENG f j)))) l c la x) ∧ (s.lineSrc (.phlox (Fin.ofNat 8 (s.fld (Q_CFG_ENG f j)))) (l + 1) c' la' y)) ∧
    (∃ (qi : Fin 1024) (f : Fin 256) (j : Fin 32) (d : BitVec 1024) (c : Nat) (s : State), (s.still) ∧ ((Run.start s).queueOf qi = some (f.val, j.val)) ∧ (s.fetched_ qi = some d) ∧ (s.fld (FN_RESET_BUSY f) = 0) ∧ (s.pins.fatal = false) ∧ (dFlag d 1 = false) ∧ (isCipher (dOp d) = false) ∧ (isCodec (dOp d) = false) ∧ (descNat d 40 8 % 64 = 0) ∧ ((Run.start s).admissible (s.fld (Q_CFG_ENG f j)) qi = true) ∧ ((Run.start s).itsTurn (s.fld (Q_CFG_ENG f j)) f j = true) ∧ (((List.range 256).find? fun x => (s.job (s.fld (Q_CFG_ENG f j) * 256 + x)).isNone) = some c)) ∧
    (∃ (qi : Fin 1024) (f : Fin 256) (j : Fin 32) (d : BitVec 1024) (c : Nat) (s : State), (s.still) ∧ ((Run.start s).queueOf qi = some (f.val, j.val)) ∧ (s.fetched_ qi = some d) ∧ (s.fld (FN_RESET_BUSY f) = 0) ∧ (s.pins.fatal = false) ∧ (dFlag d 1 = false) ∧ (isCipher (dOp d) = false) ∧ (isCodec (dOp d) = false) ∧ (descNat d 40 8 % 64 = 0) ∧ ((Run.start s).admissible (s.fld (Q_CFG_ENG f j)) qi = true) ∧ ((Run.start s).itsTurn (s.fld (Q_CFG_ENG f j)) f j = true) ∧ (((List.range 256).find? fun x => (s.job (s.fld (Q_CFG_ENG f j) * 256 + x)).isNone) = some c)) ∧
    (∃ (e : Fin 8) (k : Fin 256) (x : Job) (st : Nat) (l : LineAddr) (c : Nat) (la : Nat) (s : State), (s.still) ∧ (s.bareIo) ∧ (s.job (e * 256 + k) = some x) ∧ (x.status = some st) ∧ (x.aborted = false) ∧ (s.pins.fatal = false) ∧ (x.f < 256) ∧ (x.j < 32) ∧ (dFlag x.desc 3 = true) ∧ (dFlag x.desc 0 = false) ∧ (st ≠ 0x06) ∧ (descNat x.desc 40 8 = l.toNat * 64) ∧ (s.lineDst (.phlox e) l c la)) ∧
    (∃ (s : State), (s.still) ∧ (s.canon = true)) :=
  ⟨⟨.hart 0, 0, 3, 5, put s0 [(Q_TAIL_TAIL 0 3, 2)], by decide +kernel⟩,
   ⟨.hart 0, 0, 3, 64, put s0 [(Q_TAIL_TAIL 0 3, 2)], by decide +kernel⟩,
   ⟨1, 0, 3, 0x2000040, 0, 0x1000, 0, 0x1040, { data := 7, dir := 1, key := 5, tweak := 33554496 }, { data := 8, dir := 1, key := 5, tweak := 33554497 }, put { s0 with iommu := { regs := [(4, 1), (0x17, 0xFF)] }, dram := [(dramKey 0 4096, { data := 7, dir := 1, key := 5, tweak := 33554496 }), (dramKey 0 4160, { data := 8, dir := 1, key := 5, tweak := 33554497 }), (dramKey 0 4224, { data := 9, dir := 1, key := 5, tweak := 33554498 }), (dramKey 0 4288, { data := 10, dir := 1, key := 5, tweak := 33554499 }), (dramKey 0 4352, { data := 11, dir := 1, key := 5, tweak := 33554500 }), (dramKey 0 4416, { data := 12, dir := 1, key := 5, tweak := 33554501 }), (dramKey 0 4480, { data := 13, dir := 1, key := 5, tweak := 33554502 }), (dramKey 0 4544, { data := 14, dir := 1, key := 5, tweak := 33554503 }), (dramKey 0 4608, { data := 15, dir := 1, key := 5, tweak := 33554504 }), (dramKey 0 4672, { data := 16, dir := 1, key := 5, tweak := 33554505 }), (dramKey 0 4736, { data := 17, dir := 1, key := 5, tweak := 33554506 }), (dramKey 0 4800, { data := 18, dir := 1, key := 5, tweak := 33554507 }), (dramKey 0 4864, { data := 19, dir := 1, key := 5, tweak := 33554508 }), (dramKey 0 4928, { data := 20, dir := 1, key := 5, tweak := 33554509 }), (dramKey 0 4992, { data := 21, dir := 1, key := 5, tweak := 33554510 }), (dramKey 0 5056, { data := 22, dir := 1, key := 5, tweak := 33554511 })] } [(PHLOX_QBIND_VALID 1, 1), (PHLOX_QBIND_FN 1, 0), (PHLOX_QBIND_SLOT 1, 3), (Q_CFG_EN 0 3, 1), (Q_CFG_BOUND 0 3, 1), (Q_TAIL_TAIL 0 3, 2), (Q_BASE_BASE 0 3, 0x80001), (DOM_STAT_STATE (domEngine 0), 0)], by decide +kernel⟩,
   ⟨1, 0, 3, 0x8000114000000000000000000000000000000000000000000000000000000000000000000000000000000c00, 0, put { s0 with iommu := { regs := [(4, 1), (0x17, 0xFF)] }, dram := [(dramKey 0 4096, { data := 7, dir := 1, key := 5, tweak := 33554496 }), (dramKey 0 4160, { data := 8, dir := 1, key := 5, tweak := 33554497 }), (dramKey 0 4224, { data := 9, dir := 1, key := 5, tweak := 33554498 }), (dramKey 0 4288, { data := 10, dir := 1, key := 5, tweak := 33554499 }), (dramKey 0 4352, { data := 11, dir := 1, key := 5, tweak := 33554500 }), (dramKey 0 4416, { data := 12, dir := 1, key := 5, tweak := 33554501 }), (dramKey 0 4480, { data := 13, dir := 1, key := 5, tweak := 33554502 }), (dramKey 0 4544, { data := 14, dir := 1, key := 5, tweak := 33554503 }), (dramKey 0 4608, { data := 15, dir := 1, key := 5, tweak := 33554504 }), (dramKey 0 4672, { data := 16, dir := 1, key := 5, tweak := 33554505 }), (dramKey 0 4736, { data := 17, dir := 1, key := 5, tweak := 33554506 }), (dramKey 0 4800, { data := 18, dir := 1, key := 5, tweak := 33554507 }), (dramKey 0 4864, { data := 19, dir := 1, key := 5, tweak := 33554508 }), (dramKey 0 4928, { data := 20, dir := 1, key := 5, tweak := 33554509 }), (dramKey 0 4992, { data := 21, dir := 1, key := 5, tweak := 33554510 }), (dramKey 0 5056, { data := 22, dir := 1, key := 5, tweak := 33554511 })], fetched := [(1, 0x8000114000000000000000000000000000000000000000000000000000000000000000000000000000000c00)] } [(PHLOX_QBIND_VALID 1, 1), (PHLOX_QBIND_FN 1, 0), (PHLOX_QBIND_SLOT 1, 3), (Q_CFG_EN 0 3, 1), (Q_CFG_BOUND 0 3, 1), (Q_TAIL_TAIL 0 3, 2), (Q_BASE_BASE 0 3, 0x80001), (DOM_STAT_STATE (domEngine 0), 0)], by decide +kernel⟩,
   ⟨1, 0, 3, 0x1000000000000000000000000000000000000000000000000000000008000114000000000000000000000000000000000000000000000000000000000000000000000000000000c00, 0, put { s0 with iommu := { regs := [(4, 1), (0x17, 0xFF)] }, dram := [(dramKey 0 4096, { data := 7, dir := 1, key := 5, tweak := 33554496 }), (dramKey 0 4160, { data := 8, dir := 1, key := 5, tweak := 33554497 }), (dramKey 0 4224, { data := 9, dir := 1, key := 5, tweak := 33554498 }), (dramKey 0 4288, { data := 10, dir := 1, key := 5, tweak := 33554499 }), (dramKey 0 4352, { data := 11, dir := 1, key := 5, tweak := 33554500 }), (dramKey 0 4416, { data := 12, dir := 1, key := 5, tweak := 33554501 }), (dramKey 0 4480, { data := 13, dir := 1, key := 5, tweak := 33554502 }), (dramKey 0 4544, { data := 14, dir := 1, key := 5, tweak := 33554503 }), (dramKey 0 4608, { data := 15, dir := 1, key := 5, tweak := 33554504 }), (dramKey 0 4672, { data := 16, dir := 1, key := 5, tweak := 33554505 }), (dramKey 0 4736, { data := 17, dir := 1, key := 5, tweak := 33554506 }), (dramKey 0 4800, { data := 18, dir := 1, key := 5, tweak := 33554507 }), (dramKey 0 4864, { data := 19, dir := 1, key := 5, tweak := 33554508 }), (dramKey 0 4928, { data := 20, dir := 1, key := 5, tweak := 33554509 }), (dramKey 0 4992, { data := 21, dir := 1, key := 5, tweak := 33554510 }), (dramKey 0 5056, { data := 22, dir := 1, key := 5, tweak := 33554511 })], fetched := [(1, 0x1000000000000000000000000000000000000000000000000000000008000114000000000000000000000000000000000000000000000000000000000000000000000000000000c00)] } [(PHLOX_QBIND_VALID 1, 1), (PHLOX_QBIND_FN 1, 0), (PHLOX_QBIND_SLOT 1, 3), (Q_CFG_EN 0 3, 1), (Q_CFG_BOUND 0 3, 1), (Q_TAIL_TAIL 0 3, 2), (Q_BASE_BASE 0 3, 0x80001), (DOM_STAT_STATE (domEngine 0), 0)], by decide +kernel⟩,
   ⟨0, 2, { q := 1, f := 0, j := 3, desc := 0x8000114000000000000000000000000000000000000000000000000000000000000000000000000000000c00, status := some 0x10 }, 0x10, 0x2000045, 0, 0x1140, put { s0 with iommu := { regs := [(4, 1), (0x17, 0xFF)] }, dram := [(dramKey 0 4096, { data := 7, dir := 1, key := 5, tweak := 33554496 }), (dramKey 0 4160, { data := 8, dir := 1, key := 5, tweak := 33554497 })], jobs := [(0 * 256 + 2, { q := 1, f := 0, j := 3, desc := 0x8000114000000000000000000000000000000000000000000000000000000000000000000000000000000c00, status := some 0x10 })] } [(Q_QSTAT_INFLIGHT 0 3, 1)], by decide +kernel⟩,
   ⟨{ s0 with moved := [(3, 7)], fnBytes := [(0, 9)] }, by decide +kernel⟩⟩

theorem wit_MovesComplete :
    (∃ (e : Fin 8) (k : Fin 256) (x : Job) (s : State), (s.jobRuns e k 0x00 x)) ∧
    (∃ (e : Fin 8) (k : Fin 256) (x : Job) (l : LineAddr) (l' : LineAddr) (c : Nat) (la : Nat) (c' : Nat) (la' : Nat) (y : DLine) (s : State), (s.jobRuns e k 0x01 x) ∧ (s.bareIo) ∧ (x.spans l 64 l' 64) ∧ (descNat x.desc 2 1 % 4 < 2) ∧ (s.lineSrc (.phlox e) l c la y) ∧ (s.lineDst (.phlox e) l' c' la')) ∧
    (∃ (e : Fin 8) (k : Fin 256) (x : Job) (l : LineAddr) (c : Nat) (la : Nat) (s : State), (s.jobRuns e k 0x02 x) ∧ (s.bareIo) ∧ (descNat x.desc 24 8 = l.toNat * 64) ∧ (descNat x.desc 32 8 = 64) ∧ (s.lineDst (.phlox e) l c la)) ∧
    (∃ (e : Fin 8) (k : Fin 256) (x : Job) (l : LineAddr) (c : Nat) (la : Nat) (y : DLine) (s : State), (s.jobRuns e k 0x03 x) ∧ (s.bareIo) ∧ (descNat x.desc 8 8 = l.toNat * 64) ∧ (descNat x.desc 16 8 = 64) ∧ (descNat x.desc 2 1 % 4 < 2) ∧ (s.lineSrc (.phlox e) l c la y)) :=
  ⟨⟨0, 2, { q := 1, f := 0, j := 3, desc := 0xc00 }, { s0 with iommu := { regs := [(4, 1), (0x17, 0xFF)] }, dram := [(dramKey 0 4096, { data := 7, dir := 1, key := 5, tweak := 33554496 }), (dramKey 0 4160, { data := 8, dir := 1, key := 5, tweak := 33554497 })], jobs := [(0 * 256 + 2, { q := 1, f := 0, j := 3, desc := 0xc00 })] }, by decide +kernel⟩,
   ⟨0, 2, { q := 1, f := 0, j := 3, desc := 0x1f000000000000000000000000ffffffff000000000000000000000000000000000000000000000000000000000000000000000000000000400000000080001140000000000000004000000000800010000000000000000c01 }, 0x2000040, 0x2000045, 0, 0x1000, 0, 0x1140, { data := 7, dir := 1, key := 5, tweak := 33554496 }, { s0 with iommu := { regs := [(4, 1), (0x17, 0xFF)] }, dram := [(dramKey 0 4096, { data := 7, dir := 1, key := 5, tweak := 33554496 }), (dramKey 0 4160, { data := 8, dir := 1, key := 5, tweak := 33554497 })], jobs := [(0 * 256 + 2, { q := 1, f := 0, j := 3, desc := 0x1f000000000000000000000000ffffffff000000000000000000000000000000000000000000000000000000000000000000000000000000400000000080001140000000000000004000000000800010000000000000000c01 })] }, by decide +kernel⟩,
   ⟨0, 2, { q := 1, f := 0, j := 3, desc := 0x112233445566778800000000000000000000000000000000000000000000000000000000000000400000000080001140000000000000004000000000800010000000000000000c02 }, 0x2000045, 0, 0x1140, { s0 with iommu := { regs := [(4, 1), (0x17, 0xFF)] }, dram := [(dramKey 0 4096, { data := 7, dir := 1, key := 5, tweak := 33554496 }), (dramKey 0 4160, { data := 8, dir := 1, key := 5, tweak := 33554497 })], jobs := [(0 * 256 + 2, { q := 1, f := 0, j := 3, desc := 0x112233445566778800000000000000000000000000000000000000000000000000000000000000400000000080001140000000000000004000000000800010000000000000000c02 })] }, by decide +kernel⟩,
   ⟨0, 2, { q := 1, f := 0, j := 3, desc := 0x1f000000000000000000000000000000000000000004c11db700000000000000000000000000000000000000000000000000000000000000400000000080001140000000000000004000000000800010000000000000000c03 }, 0x2000040, 0, 0x1000, { data := 7, dir := 1, key := 5, tweak := 33554496 }, { s0 with iommu := { regs := [(4, 1), (0x17, 0xFF)] }, dram := [(dramKey 0 4096, { data := 7, dir := 1, key := 5, tweak := 33554496 }), (dramKey 0 4160, { data := 8, dir := 1, key := 5, tweak := 33554497 })], jobs := [(0 * 256 + 2, { q := 1, f := 0, j := 3, desc := 0x1f000000000000000000000000000000000000000004c11db700000000000000000000000000000000000000000000000000000000000000400000000080001140000000000000004000000000800010000000000000000c03 })] }, by decide +kernel⟩⟩

theorem wit_CodecsAndCiphersComplete :
    (∃ (e : Fin 8) (k : Fin 256) (x : Job) (l : LineAddr) (l' : LineAddr) (c : Nat) (la : Nat) (c' : Nat) (la' : Nat) (c'' : Nat) (la'' : Nat) (m : Nat) (y : DLine) (s : State), (s.jobRuns e k 0x10 x) ∧ (s.bareIo) ∧ (s.noSources) ∧ (x.spans l 64 l' m) ∧ (128 ≤ m) ∧ (dFlag x.desc 2 = true) ∧ (dFlag x.desc 3 = true) ∧ (descNat x.desc 64 1 ≤ 3) ∧ (l' ≠ BitVec.allOnes 46) ∧ (s.lineSrc (.phlox e) l c la y) ∧ (s.lineDst (.phlox e) l' c' la') ∧ (s.lineDst (.phlox e) (l' + 1) c'' la'')) ∧
    (∃ (e : Fin 8) (k : Fin 256) (x : Job) (l : LineAddr) (l' : LineAddr) (c : Nat) (la : Nat) (c' : Nat) (la' : Nat) (m : Nat) (y : DLine) (s : State), (s.jobRuns e k 0x11 x) ∧ (s.bareIo) ∧ (s.noSources) ∧ (x.spans l 64 l' m) ∧ (dFlag x.desc 2 = true) ∧ (dFlag x.desc 3 = true) ∧ (s.lineSrc (.phlox e) l c la y) ∧ (s.lineDst (.phlox e) l' c' la') ∧ ((decompress (descNat x.desc 64 1) (descNat x.desc 66 1) none true y.bytes).status = 0) ∧ ((decompress (descNat x.desc 64 1) (descNat x.desc 66 1) none true y.bytes).out.length ≤ min m 64)) ∧
    (∃ (e : Fin 8) (k : Fin 256) (x : Job) (l : LineAddr) (c : Nat) (la : Nat) (y : DLine) (key : KeySlot) (s : State), (s.jobRuns e k 0x20 x) ∧ (s.bareIo) ∧ (x.key = some key) ∧ (descNat x.desc 8 8 = l.toNat * 64) ∧ (descNat x.desc 16 8 = 64) ∧ (descNat x.desc 80 4 = 0) ∧ (s.lineSrc (.phlox e) l c la y)) ∧
    (∃ (e : Fin 8) (k : Fin 256) (x : Job) (l : LineAddr) (c : Nat) (la : Nat) (y : DLine) (key : KeySlot) (s : State), (s.jobRuns e k 0x21 x) ∧ (s.bareIo) ∧ (x.key = some key) ∧ (descNat x.desc 8 8 = l.toNat * 64) ∧ (descNat x.desc 16 8 = 64) ∧ (descNat x.desc 80 4 = 0) ∧ (s.lineSrc (.phlox e) l c la y)) ∧
    (∃ (e : Fin 8) (k : Fin 256) (x : Job) (l : LineAddr) (ys : List (Nat × Nat × DLine)) (key : KeySlot) (s : State), (s.jobRuns e k 0x22 x) ∧ (s.bareIo) ∧ (x.key = some key) ∧ (descNat x.desc 8 8 = l.toNat * 64) ∧ (descNat x.desc 16 8 = 512) ∧ (descNat x.desc 66 1 = 9) ∧ (l.toNat + 8 < 2 ^ 46) ∧ (ys.length = 8) ∧ ((∀ i < 8, ∀ y ∈ ys[i]?, s.lineSrc (.phlox e) (l + BitVec.ofNat 46 i) y.1 y.2.1 y.2.2))) ∧
    (∃ (e : Fin 8) (k : Fin 256) (x : Job) (l : LineAddr) (ys : List (Nat × Nat × DLine)) (key : KeySlot) (s : State), (s.jobRuns e k 0x23 x) ∧ (s.bareIo) ∧ (x.key = some key) ∧ (descNat x.desc 8 8 = l.toNat * 64) ∧ (descNat x.desc 16 8 = 512) ∧ (descNat x.desc 66 1 = 9) ∧ (l.toNat + 8 < 2 ^ 46) ∧ (ys.length = 8) ∧ ((∀ i < 8, ∀ y ∈ ys[i]?, s.lineSrc (.phlox e) (l + BitVec.ofNat 46 i) y.1 y.2.1 y.2.2))) ∧
    (∃ (e : Fin 8) (k : Fin 256) (x : Job) (out : List Byte) (l : LineAddr) (c : Nat) (la : Nat) (s : State), (s.still) ∧ (s.bareIo) ∧ (s.job (e * 256 + k) = some x) ∧ (x.staged = some out) ∧ (out.length = 64) ∧ (x.status = none) ∧ (x.aborted = false) ∧ (s.pins.fatal = false) ∧ (x.f < 256) ∧ (descNat x.desc 24 8 = l.toNat * 64) ∧ (s.lineDst (.phlox e) l c la)) :=
  ⟨⟨0, 2, { q := 1, f := 0, j := 3, desc := 0xf000000000000000000000000000000000000000000000000000000000000000000800000000080001140000000000000004000000000800010000000000000000c10 }, 0x2000040, 0x2000045, 0, 0x1000, 0, 0x1140, 0, 0x1180, 128, { data := 7, dir := 1, key := 5, tweak := 33554496 }, { s0 with iommu := { regs := [(4, 1), (0x17, 0xFF)] }, dram := [(dramKey 0 4096, { data := 7, dir := 1, key := 5, tweak := 33554496 }), (dramKey 0 4160, { data := 8, dir := 1, key := 5, tweak := 33554497 })], jobs := [(0 * 256 + 2, { q := 1, f := 0, j := 3, desc := 0xf000000000000000000000000000000000000000000000000000000000000000000800000000080001140000000000000004000000000800010000000000000000c10 })] }, by decide +kernel⟩,
   ⟨0, 2, { q := 1, f := 0, j := 3, desc := 0xf000000000000000000000000000000000000000000000000000000000000000000400000000080001140000000000000004000000000800010000000000000000c11 }, 0x2000040, 0x2000045, 0, 0x1000, 0, 0x1140, 64, { data := 0x3a393837363534333231302f2e2d2c2b2a292827262524232221201f1e1d1c1b1a191817161514131211100f0e0d0c0b0a09080706050403020100ffc4003b01, dir := 1, key := 5, tweak := 33554496 }, { s0 with iommu := { regs := [(4, 1), (0x17, 0xFF)] }, dram := [(dramKey 0 0x1000, { data := 0x3a393837363534333231302f2e2d2c2b2a292827262524232221201f1e1d1c1b1a191817161514131211100f0e0d0c0b0a09080706050403020100ffc4003b01, dir := 1, key := 5, tweak := 33554496 })], jobs := [(0 * 256 + 2, { q := 1, f := 0, j := 3, desc := 0xf000000000000000000000000000000000000000000000000000000000000000000400000000080001140000000000000004000000000800010000000000000000c11 })] }, by decide +kernel⟩,
   ⟨0, 2, { q := 1, f := 0, j := 3, desc := 0x400000000080001140000000000000004000000000800010000000000000000c20, key := some { loaded := true, type := 1, key := 0x1234567 }, ctr := 5 }, 0x2000040, 0, 0x1000, { data := 7, dir := 1, key := 5, tweak := 33554496 }, { loaded := true, type := 1, key := 0x1234567 }, { s0 with iommu := { regs := [(4, 1), (0x17, 0xFF)] }, dram := [(dramKey 0 4096, { data := 7, dir := 1, key := 5, tweak := 33554496 }), (dramKey 0 4160, { data := 8, dir := 1, key := 5, tweak := 33554497 })], jobs := [(0 * 256 + 2, { q := 1, f := 0, j := 3, desc := 0x400000000080001140000000000000004000000000800010000000000000000c20, key := some { loaded := true, type := 1, key := 0x1234567 }, ctr := 5 })] }, by decide +kernel⟩,
   ⟨0, 2, { q := 1, f := 0, j := 3, desc := 0x400000000080001140000000000000004000000000800010000000000000000c21, key := some { loaded := true, type := 1, key := 0x1234567 }, ctr := 5 }, 0x2000040, 0, 0x1000, { data := 7, dir := 1, key := 5, tweak := 33554496 }, { loaded := true, type := 1, key := 0x1234567 }, { s0 with iommu := { regs := [(4, 1), (0x17, 0xFF)] }, dram := [(dramKey 0 4096, { data := 7, dir := 1, key := 5, tweak := 33554496 }), (dramKey 0 4160, { data := 8, dir := 1, key := 5, tweak := 33554497 })], jobs := [(0 * 256 + 2, { q := 1, f := 0, j := 3, desc := 0x400000000080001140000000000000004000000000800010000000000000000c21, key := some { loaded := true, type := 1, key := 0x1234567 }, ctr := 5 })] }, by decide +kernel⟩,
   ⟨0, 2, { q := 1, f := 0, j := 3, desc := 0x9000000000000000000000000000000000000000000000000000000000000000000400000000080001140000000000000020000000000800010000000000000000c22, key := some { loaded := true, type := 1, key := 0x1234567 }, ctr := 5 }, 0x2000040, [(0, 4096, { data := 7, dir := 1, key := 5, tweak := 33554496 }), (0, 4160, { data := 8, dir := 1, key := 5, tweak := 33554497 }), (0, 4224, { data := 9, dir := 1, key := 5, tweak := 33554498 }), (0, 4288, { data := 10, dir := 1, key := 5, tweak := 33554499 }), (0, 4352, { data := 11, dir := 1, key := 5, tweak := 33554500 }), (0, 4416, { data := 12, dir := 1, key := 5, tweak := 33554501 }), (0, 4480, { data := 13, dir := 1, key := 5, tweak := 33554502 }), (0, 4544, { data := 14, dir := 1, key := 5, tweak := 33554503 })], { loaded := true, type := 1, key := 0x1234567 }, { s0 with iommu := { regs := [(4, 1), (0x17, 0xFF)] }, dram := [(dramKey 0 4096, { data := 7, dir := 1, key := 5, tweak := 33554496 }), (dramKey 0 4160, { data := 8, dir := 1, key := 5, tweak := 33554497 }), (dramKey 0 4224, { data := 9, dir := 1, key := 5, tweak := 33554498 }), (dramKey 0 4288, { data := 10, dir := 1, key := 5, tweak := 33554499 }), (dramKey 0 4352, { data := 11, dir := 1, key := 5, tweak := 33554500 }), (dramKey 0 4416, { data := 12, dir := 1, key := 5, tweak := 33554501 }), (dramKey 0 4480, { data := 13, dir := 1, key := 5, tweak := 33554502 }), (dramKey 0 4544, { data := 14, dir := 1, key := 5, tweak := 33554503 })], jobs := [(0 * 256 + 2, { q := 1, f := 0, j := 3, desc := 0x9000000000000000000000000000000000000000000000000000000000000000000400000000080001140000000000000020000000000800010000000000000000c22, key := some { loaded := true, type := 1, key := 0x1234567 }, ctr := 5 })] }, by decide +kernel⟩,
   ⟨0, 2, { q := 1, f := 0, j := 3, desc := 0x9000000000000000000000000000000000000000000000000000000000000000000400000000080001140000000000000020000000000800010000000000000000c23, key := some { loaded := true, type := 1, key := 0x1234567 }, ctr := 5 }, 0x2000040, [(0, 4096, { data := 7, dir := 1, key := 5, tweak := 33554496 }), (0, 4160, { data := 8, dir := 1, key := 5, tweak := 33554497 }), (0, 4224, { data := 9, dir := 1, key := 5, tweak := 33554498 }), (0, 4288, { data := 10, dir := 1, key := 5, tweak := 33554499 }), (0, 4352, { data := 11, dir := 1, key := 5, tweak := 33554500 }), (0, 4416, { data := 12, dir := 1, key := 5, tweak := 33554501 }), (0, 4480, { data := 13, dir := 1, key := 5, tweak := 33554502 }), (0, 4544, { data := 14, dir := 1, key := 5, tweak := 33554503 })], { loaded := true, type := 1, key := 0x1234567 }, { s0 with iommu := { regs := [(4, 1), (0x17, 0xFF)] }, dram := [(dramKey 0 4096, { data := 7, dir := 1, key := 5, tweak := 33554496 }), (dramKey 0 4160, { data := 8, dir := 1, key := 5, tweak := 33554497 }), (dramKey 0 4224, { data := 9, dir := 1, key := 5, tweak := 33554498 }), (dramKey 0 4288, { data := 10, dir := 1, key := 5, tweak := 33554499 }), (dramKey 0 4352, { data := 11, dir := 1, key := 5, tweak := 33554500 }), (dramKey 0 4416, { data := 12, dir := 1, key := 5, tweak := 33554501 }), (dramKey 0 4480, { data := 13, dir := 1, key := 5, tweak := 33554502 }), (dramKey 0 4544, { data := 14, dir := 1, key := 5, tweak := 33554503 })], jobs := [(0 * 256 + 2, { q := 1, f := 0, j := 3, desc := 0x9000000000000000000000000000000000000000000000000000000000000000000400000000080001140000000000000020000000000800010000000000000000c23, key := some { loaded := true, type := 1, key := 0x1234567 }, ctr := 5 })] }, by decide +kernel⟩,
   ⟨0, 2, { q := 1, f := 0, j := 3, desc := 0x400000000080001140000000000000004000000000800010000000000000000c20, staged := some ((List.range 64).map fun i => BitVec.ofNat 8 i) }, (List.range 64).map fun i => BitVec.ofNat 8 i, 0x2000045, 0, 0x1140, { s0 with iommu := { regs := [(4, 1), (0x17, 0xFF)] }, dram := [(dramKey 0 4096, { data := 7, dir := 1, key := 5, tweak := 33554496 }), (dramKey 0 4160, { data := 8, dir := 1, key := 5, tweak := 33554497 })], jobs := [(0 * 256 + 2, { q := 1, f := 0, j := 3, desc := 0x400000000080001140000000000000004000000000800010000000000000000c20, staged := some ((List.range 64).map fun i => BitVec.ofNat 8 i) })] }, by decide +kernel⟩⟩

theorem wit_QueuesComplete :
    (∃ (q : Requester) (f : Fin 256) (j : Fin 32) (v : Word) (s : State), (s.still) ∧ (s.writer q) ∧ ((Run.start s).pageOpen f = true) ∧ (s.fld (Q_CFG_BOUND f j) = 1) ∧ (Word.bits v 4 0 = s.fld (Q_CFG_LOG2N f j)) ∧ (6 ≤ Word.bits v 4 0) ∧ (Word.bits v 4 0 ≤ 16)) ∧
    (∃ (q : Requester) (f : Fin 256) (j : Fin 32) (v : Word) (s : State), (s.still) ∧ (s.writer q) ∧ ((Run.start s).pageOpen f = true) ∧ (Word.bits v 4 0 = s.fld (Q_CFG_LOG2N f j)) ∧ (6 ≤ Word.bits v 4 0) ∧ (Word.bits v 4 0 ≤ 16)) ∧
    (∃ (q : Requester) (qi : Fin 1024) (f : Fin 256) (j : Fin 32) (e : Fin 8) (s : State), (s.still) ∧ (s.writer q) ∧ (s.fld (PHLOX_QBIND_VALID qi) = 0) ∧ (((Run.start s).fnSecure f && (Run.start s).normal q) = false) ∧ ((Run.start s).bindCause qi f j e = none) ∧ (s.fld FOX_CFGLOCK_LOCK = 1) ∧ (s.fld (DOM_STAT_STATE (domEngine e)) = 0)) ∧
    (∃ (q : Requester) (qi : Fin 1024) (f : Fin 256) (j : Fin 32) (s : State), (s.still) ∧ (s.writer q) ∧ ((Run.start s).queueOf qi = some (f.val, j.val)) ∧ (((Run.start s).fnSecure f && (Run.start s).normal q) = false) ∧ (s.fld (FN_RESET_BUSY f) = 0) ∧ ((Run.start s).queueIdle f j = true)) ∧
    (∃ (q : Requester) (qi : Fin 1024) (f : Fin 256) (j : Fin 32) (e : Fin 8) (s : State), (s.still) ∧ (s.writer q) ∧ ((Run.start s).queueOf qi = some (f.val, j.val)) ∧ (((Run.start s).fnSecure f && (Run.start s).normal q) = false) ∧ (s.fld (FN_RESET_BUSY f) = 0) ∧ (e ≠ s.fld (PHLOX_QBIND_ENG qi)) ∧ (e ≠ s.fld (Q_CFG_ENG f j)) ∧ ((Run.start s).reserved e f none true ≤ 256) ∧ (s.fld (DOM_STAT_STATE (domEngine e)) = 0)) ∧
    (∃ (qi : Fin 1024) (f : Fin 256) (j : Fin 32) (s : State), (s.still) ∧ ((Run.start s).queueOf qi = some (f.val, j.val)) ∧ (s.fld (PHLOX_QBIND_MOVING qi) = 1) ∧ (s.fld (Q_QSTAT_INFLIGHT f j) = 0) ∧ (s.fetched_ qi = none)) ∧
    (∃ (q : Requester) (f : Fin 256) (v : Word) (s : State), (s.still) ∧ (s.writer q) ∧ (((Run.start s).fnSecure f && (Run.start s).normal q) = false) ∧ (Word.bits v 47 40 ≠ 0) ∧ (Word.bits v 36 32 ≤ 16) ∧ (Word.bits v 24 16 ≤ 256) ∧ (Word.bits v 8 0 ≤ Word.bits v 24 16) ∧ (((List.range 8).any fun e => (Run.start s).fnOn f e && decide (256 < (Run.start s).reserved e f (some (Word.bits v 8 0)) false)) = false)) ∧
    (∃ (q : Requester) (f : Fin 256) (s : State), (s.still) ∧ (s.canon = true) ∧ (f ≠ 0) ∧ (((Run.start s).fnSecure f && (Run.start s).normal q) = false) ∧ (s.fld (FN_RESET_BUSY f) = 0) ∧ ((∀ x ∈ s.jobs, x.1 < 2048 ∧ x.2.j < 32))) ∧
    (∃ (f : Fin 256) (s : State), (s.still) ∧ (f ≠ 0) ∧ (s.fld (FN_RESET_BUSY f) = 1) ∧ (s.fld (FN_RESET_BUSY 0) = 0) ∧ (s.pins.fatal = false) ∧ ((∀ x ∈ s.jobs, x.2.f ≠ f))) :=
  ⟨⟨.hart 0, 0, 3, 6, put s0 [(PHLOX_QBIND_VALID 1, 1), (PHLOX_QBIND_FN 1, 0), (PHLOX_QBIND_SLOT 1, 3), (Q_CFG_EN 0 3, 1), (Q_CFG_BOUND 0 3, 1), (Q_TAIL_TAIL 0 3, 2), (Q_BASE_BASE 0 3, 0x80001), (DOM_STAT_STATE (domEngine 0), 0), (Q_CFG_EN 0 3, 0)], by decide +kernel⟩,
   ⟨.hart 0, 0, 3, 6, put s0 [(PHLOX_QBIND_VALID 1, 1), (PHLOX_QBIND_FN 1, 0), (PHLOX_QBIND_SLOT 1, 3), (Q_CFG_EN 0 3, 1), (Q_CFG_BOUND 0 3, 1), (Q_TAIL_TAIL 0 3, 2), (Q_BASE_BASE 0 3, 0x80001), (DOM_STAT_STATE (domEngine 0), 0)], by decide +kernel⟩,
   ⟨.hart 0, 1, 0, 3, 0, put s0 [(DOM_STAT_STATE (domEngine 0), 0), (FOX_CFGLOCK_LOCK, 1)], by decide +kernel⟩,
   ⟨.hart 0, 1, 0, 3, put s0 [(PHLOX_QBIND_VALID 1, 1), (PHLOX_QBIND_FN 1, 0), (PHLOX_QBIND_SLOT 1, 3), (Q_CFG_EN 0 3, 1), (Q_CFG_BOUND 0 3, 1), (Q_TAIL_TAIL 0 3, 2), (Q_BASE_BASE 0 3, 0x80001), (DOM_STAT_STATE (domEngine 0), 0), (Q_CFG_EN 0 3, 0)], by decide +kernel⟩,
   ⟨.hart 0, 1, 0, 3, 2, put s0 [(PHLOX_QBIND_VALID 1, 1), (PHLOX_QBIND_FN 1, 0), (PHLOX_QBIND_SLOT 1, 3), (Q_CFG_EN 0 3, 1), (Q_CFG_BOUND 0 3, 1), (Q_TAIL_TAIL 0 3, 2), (Q_BASE_BASE 0 3, 0x80001), (DOM_STAT_STATE (domEngine 0), 0), (DOM_STAT_STATE (domEngine 2), 0)], by decide +kernel⟩,
   ⟨1, 0, 3, put s0 [(PHLOX_QBIND_VALID 1, 1), (PHLOX_QBIND_FN 1, 0), (PHLOX_QBIND_SLOT 1, 3), (Q_CFG_EN 0 3, 1), (Q_CFG_BOUND 0 3, 1), (Q_TAIL_TAIL 0 3, 2), (Q_BASE_BASE 0 3, 0x80001), (DOM_STAT_STATE (domEngine 0), 0), (PHLOX_QBIND_MOVING 1, 1), (PHLOX_QBIND_ENG 1, 2)], by decide +kernel⟩,
   ⟨.hart 0, 5, 0x0003010A00200010, put s0 [(PHLOX_QBIND_VALID 1, 1), (PHLOX_QBIND_FN 1, 0), (PHLOX_QBIND_SLOT 1, 3), (Q_CFG_EN 0 3, 1), (Q_CFG_BOUND 0 3, 1), (Q_TAIL_TAIL 0 3, 2), (Q_BASE_BASE 0 3, 0x80001), (DOM_STAT_STATE (domEngine 0), 0)], by decide +kernel⟩,
   ⟨.hart 0, 5, { s0 with jobs := [(1, { q := 1, f := 5, j := 3, desc := 0 }), (2, { q := 1, f := 5, j := 3, desc := 0, started := true })] }, by decide +kernel⟩,
   ⟨5, put { s0 with msix := [(5 * 512 + 1, 7)] } [(FN_RESET_BUSY 5, 1), (Q_TAIL_TAIL 5 3, 7), (Q_CFG_BOUND 5 3, 1)], by decide +kernel⟩⟩

theorem wit_GroupsComplete :
    (∃ (q : Requester) (g : Fin 32) (v : Word) (s : State), (s.still) ∧ (s.writer q) ∧ (s.fld FOX_CFGLOCK_LOCK = 0) ∧ (((Run.start s).groupSecure g && (Run.start s).normal q) = false) ∧ (s.fld (G_CFG_EN g) = 0) ∧ (v.getLsbD 63 = true) ∧ (Word.bits v 62 60 ≠ 0) ∧ ((Run.start s).gCfgOk g (v &&& (G_CFG g).mask) = true) ∧ (s.fld (DOM_STAT_STATE (domGroup g)) = 3) ∧ (s.fld (DOM_STAT_HOLD (domGroup g)) = 0)) ∧
    (∃ (q : Requester) (g : Fin 32) (v : Word) (s : State), (s.still) ∧ (s.writer q) ∧ (s.fld FOX_CFGLOCK_LOCK = 0) ∧ (((Run.start s).groupSecure g && (Run.start s).normal q) = false) ∧ (v &&& (G_CFG g).mask ≠ s.reg (G_CFG g)) ∧ ((Run.start s).gCfgOk g (v &&& (G_CFG g).mask) = false)) ∧
    (∃ (g : Fin 32) (port : Fin 8) (rate : Fin 7) (width : Fin 17) (s : State), (s.still) ∧ (s.noSources) ∧ (s.pins.fatal = false) ∧ (s.fld (G_CFG_EN g) = 1) ∧ (width ≠ 0) ∧ (s.fld (DOM_STAT_STATE (domGroup g)) = 0) ∧ (s.pins.perst.getLsbD g = false) ∧ ((s.fld (G_CFG_PERS g) = 1 ∨ s.fld (G_CFG_PERS g) = 2)) ∧ (portLanes ((Run.start s).portWidth g port) ≠ 0) ∧ (width.val ≤ portLanes ((Run.start s).portWidth g port)) ∧ (rate.val ≤ s.fld (G_CFG_MAXGEN g))) ∧
    (∃ (g : Fin 32) (s : State), (s.still) ∧ (s.fld (G_CFG_EN g) = 1)) ∧
    (∃ (g : Fin 32) (port : Fin 8) (s : State), (s.still) ∧ ((Run.start s).portUp g port = true)) ∧
    (∃ (g : Fin 32) (port : Fin 8) (s : State), (s.still) ∧ (s.noSources) ∧ ((Run.start s).portUp g port = true) ∧ ((s.grp g).outs = []) ∧ ((s.grp g).intx = 0)) ∧
    (∃ (g : Fin 32) (port : Fin 8) (s : State), (s.still) ∧ (s.noSources) ∧ ((Run.start s).portUp g port = true) ∧ ((s.grp g).outs = []) ∧ ((s.grp g).intx = 0)) ∧
    (∃ (g : Fin 32) (port : Fin 8) (s : State), (s.still) ∧ ((Run.start s).portUp g port = true) ∧ (s.fld TBASE_STAT_REFOK = 1)) :=
  ⟨⟨.hart 0, 2, 0x9600000005000000, put s0 [(DOM_STAT_STATE (domGroup 2), 3)], by decide +kernel⟩,
   ⟨.hart 0, 2, 0xF600000000000000, s0, by decide +kernel⟩,
   ⟨2, 0, 5, 8, { (put { s0 with iommu := { regs := [(4, 1), (0x17, 0xFF)] }, groups := [(2, {  })] } [(G_CFG_EN 2, 1), (G_CFG_PERS 2, 1), (G_CFG_PORTW 2, 5), (G_CFG_MAXGEN 2, 6), (DOM_STAT_STATE (domGroup 2), 0), (G_STAT_PORTUP 2, 1), (G_STAT_STATE 2, 4), (G_STAT_PORTUP 2, 0)]) with pins := { s0.pins with perst := 0 } }, by decide +kernel⟩,
   ⟨2, { (put { s0 with iommu := { regs := [(4, 1), (0x17, 0xFF)] }, groups := [(2, {  })] } [(G_CFG_EN 2, 1), (G_CFG_PERS 2, 1), (G_CFG_PORTW 2, 5), (G_CFG_MAXGEN 2, 6), (DOM_STAT_STATE (domGroup 2), 0), (G_STAT_PORTUP 2, 1), (G_STAT_STATE 2, 4)]) with pins := { s0.pins with perst := 0xF } }, by decide +kernel⟩,
   ⟨2, 0, put { s0 with iommu := { regs := [(4, 1), (0x17, 0xFF)] }, groups := [(2, {  })] } [(G_CFG_EN 2, 1), (G_CFG_PERS 2, 1), (G_CFG_PORTW 2, 5), (G_CFG_MAXGEN 2, 6), (DOM_STAT_STATE (domGroup 2), 0), (G_STAT_PORTUP 2, 1), (G_STAT_STATE 2, 4)], by decide +kernel⟩,
   ⟨2, 0, put { s0 with iommu := { regs := [(4, 1), (0x17, 0xFF)] }, groups := [(2, {  })] } [(G_CFG_EN 2, 1), (G_CFG_PERS 2, 1), (G_CFG_PORTW 2, 5), (G_CFG_MAXGEN 2, 6), (DOM_STAT_STATE (domGroup 2), 0), (G_STAT_PORTUP 2, 1), (G_STAT_STATE 2, 4)], by decide +kernel⟩,
   ⟨2, 0, put { s0 with iommu := { regs := [(4, 1), (0x17, 0xFF)] }, groups := [(2, {  })] } [(G_CFG_EN 2, 1), (G_CFG_PERS 2, 1), (G_CFG_PORTW 2, 5), (G_CFG_MAXGEN 2, 6), (DOM_STAT_STATE (domGroup 2), 0), (G_STAT_PORTUP 2, 1), (G_STAT_STATE 2, 4), (G_STAT_PORTUP 2, 3)], by decide +kernel⟩,
   ⟨2, 0, put { s0 with iommu := { regs := [(4, 1), (0x17, 0xFF)] }, groups := [(2, {  })] } [(G_CFG_EN 2, 1), (G_CFG_PERS 2, 1), (G_CFG_PORTW 2, 5), (G_CFG_MAXGEN 2, 6), (DOM_STAT_STATE (domGroup 2), 0), (G_STAT_PORTUP 2, 1), (G_STAT_STATE 2, 4), (TBASE_STAT_REFOK, 1), (TBASE_COUNT_COUNT, 77)], by decide +kernel⟩⟩

theorem wit_DevicesComplete :
    (∃ (x : IoReq) (tag : BitVec 14) (l : LineAddr) (s : State), (s.inPlain x) ∧ (x.addr.toNat = l.toNat * 64) ∧ (regionOf (l.toNat * 64) = .memory) ∧ ((Run.start s).ertOf (l.toNat * 64) = none)) ∧
    (∃ (x : IoReq) (data : LineData) (ep : Bool) (l : LineAddr) (s : State), (s.inPlain x) ∧ ((Run.start s).inRoom x.g x.port 0 64 = true) ∧ (x.addr.toNat = l.toNat * 64) ∧ (regionOf (l.toNat * 64) = .memory) ∧ ((Run.start s).ertOf (l.toNat * 64) = none)) ∧
    (∃ (x : IoReq) (a : BitVec 128) (b : BitVec 128) (tag : BitVec 14) (l : LineAddr) (s : State), (s.inPlain x) ∧ (x.addr.toNat = l.toNat * 64 + 8) ∧ (regionOf (l.toNat * 64 + 8) = .memory) ∧ ((Run.start s).ertOf (l.toNat * 64 + 8) = none)) ∧
    (∃ (x : IoReq) (h : Fin 1024) (f : Fin 6) (n : BitVec 11) (s : State), (s.inPlain x) ∧ ((Run.start s).inRoom x.g x.port 0 0 = true) ∧ (x.addr = BitVec.ofNat 64 (0xFFF0000000000 + filePage h f)) ∧ (s.undisturbed h) ∧ (s.online (dieOf (tileOf h)) = true) ∧ (n ≠ 0) ∧ ((Run.start s).idReserved n.toNat = false)) ∧
    (∃ (g : Fin 32) (port : Fin 8) (rid : BitVec 16) (n : Fin 4) (s : State), (s.still) ∧ (s.noSources) ∧ ((Run.start s).portUp g port = true) ∧ ((s.grp g).held = []) ∧ ((∀ p ∈ (s.grp g).posted, p.2.1 ≠ rid.toNat))) ∧
    (∃ (g : Fin 32) (port : Fin 8) (n : Fin 4) (s : State), (s.still) ∧ (s.noSources) ∧ ((Run.start s).portUp g port = true) ∧ ((s.grp g).held = []) ∧ ((s.grp g).intx = 2 ^ (port * 4 + n : Nat))) ∧
    (∃ (g : Fin 32) (o : OutReq) (b : Nat) (tag : Nat) (data : Nat) (ep : Bool) (s : State), (s.still) ∧ ((s.grp g).outs = [o]) ∧ (o.back = some (b, tag))) ∧
    (∃ (g : Fin 32) (o : OutReq) (h : Fin 1024) (rd : Fin 32) (uns : Bool) (a : Acc) (data : Nat) (s : State), (s.still) ∧ (s.undisturbed h) ∧ ((s.grp g).outs = [o]) ∧ (o.back = none) ∧ (o.h = some h.val) ∧ ((s.hart h).wait = some (.device a)) ∧ (a.op = .load (.x rd) uns) ∧ (a.lg < 4) ∧ (rd ≠ 0)) ∧
    (∃ (g : Fin 32) (o : OutReq) (b : Nat) (tag : Nat) (s : State), (s.still) ∧ (s.noSources) ∧ ((s.grp g).outs = [o]) ∧ (o.back = some (b, tag)) ∧ (s.freeSlot (.grp g) 1)) :=
  ⟨⟨⟨2, 0, 5, none, false, false, 0x80001000, none, true⟩, 9, 0x2000040, put { s0 with iommu := { regs := [(4, 1), (0x17, 0xFF)] }, groups := [(2, {  })] } [(G_CFG_EN 2, 1), (G_CFG_PERS 2, 1), (G_CFG_PORTW 2, 5), (G_CFG_MAXGEN 2, 6), (DOM_STAT_STATE (domGroup 2), 0), (G_STAT_PORTUP 2, 1), (G_STAT_STATE 2, 4)], by decide +kernel⟩,
   ⟨⟨2, 0, 5, none, false, false, 0x80001000, none, true⟩, 99, true, 0x2000040, put { s0 with iommu := { regs := [(4, 1), (0x17, 0xFF)] }, groups := [(2, { seq := 4 })] } [(G_CFG_EN 2, 1), (G_CFG_PERS 2, 1), (G_CFG_PORTW 2, 5), (G_CFG_MAXGEN 2, 6), (DOM_STAT_STATE (domGroup 2), 0), (G_STAT_PORTUP 2, 1), (G_STAT_STATE 2, 4)], by decide +kernel⟩,
   ⟨⟨2, 0, 5, none, false, false, 0x80001008, none, true⟩, 5, 6, 9, 0x2000040, put { s0 with iommu := { regs := [(4, 1), (0x17, 0xFF)] }, groups := [(2, {  })] } [(G_CFG_EN 2, 1), (G_CFG_PERS 2, 1), (G_CFG_PORTW 2, 5), (G_CFG_MAXGEN 2, 6), (DOM_STAT_STATE (domGroup 2), 0), (G_STAT_PORTUP 2, 1), (G_STAT_STATE 2, 4)], by decide +kernel⟩,
   ⟨⟨2, 0, 5, none, false, false, BitVec.ofNat 64 (0xFFF0000000000 + filePage 1 3), none, true⟩, 1, 3, 77, put { s0 with iommu := { regs := [(4, 1), (0x17, 0xFF)] }, groups := [(2, {  })] } [(G_CFG_EN 2, 1), (G_CFG_PERS 2, 1), (G_CFG_PORTW 2, 5), (G_CFG_MAXGEN 2, 6), (DOM_STAT_STATE (domGroup 2), 0), (G_STAT_PORTUP 2, 1), (G_STAT_STATE 2, 4)], by decide +kernel⟩,
   ⟨2, 0, 5, 3, put { s0 with iommu := { regs := [(4, 1), (0x17, 0xFF)] }, groups := [(2, {  })] } [(G_CFG_EN 2, 1), (G_CFG_PERS 2, 1), (G_CFG_PORTW 2, 5), (G_CFG_MAXGEN 2, 6), (DOM_STAT_STATE (domGroup 2), 0), (G_STAT_PORTUP 2, 1), (G_STAT_STATE 2, 4)], by decide +kernel⟩,
   ⟨2, 0, 3, put { s0 with iommu := { regs := [(4, 1), (0x17, 0xFF)] }, groups := [(2, { intx := 8 })] } [(G_CFG_EN 2, 1), (G_CFG_PERS 2, 1), (G_CFG_PORTW 2, 5), (G_CFG_MAXGEN 2, 6), (DOM_STAT_STATE (domGroup 2), 0), (G_STAT_PORTUP 2, 1), (G_STAT_STATE 2, 4)], by decide +kernel⟩,
   ⟨2, { tag := 7, port := 0, addr := 0x1000, back := some (3, 9) }, 3, 9, 0x55, true, put { s0 with iommu := { regs := [(4, 1), (0x17, 0xFF)] }, groups := [(2, { outs := [{ tag := 7, port := 0, addr := 0x1000, back := some (3, 9) }] })] } [(G_CFG_EN 2, 1), (G_CFG_PERS 2, 1), (G_CFG_PORTW 2, 5), (G_CFG_MAXGEN 2, 6), (DOM_STAT_STATE (domGroup 2), 0), (G_STAT_PORTUP 2, 1), (G_STAT_STATE 2, 4)], by decide +kernel⟩,
   ⟨2, { tag := 7, port := 0, addr := 0x1000, h := some 0 }, 0, 5, false, { op := .load (.x 5) false, lg := 2, parts := [], va := 0x1000 }, 0x180000000, hart (put { s0 with iommu := { regs := [(4, 1), (0x17, 0xFF)] }, groups := [(2, { outs := [{ tag := 7, port := 0, addr := 0x1000, h := some 0 }] })] } [(G_CFG_EN 2, 1), (G_CFG_PERS 2, 1), (G_CFG_PORTW 2, 5), (G_CFG_MAXGEN 2, 6), (DOM_STAT_STATE (domGroup 2), 0), (G_STAT_PORTUP 2, 1), (G_STAT_STATE 2, 4)]) 0 fun t => { t with wait := some (.device { op := .load (.x 5) false, lg := 2, parts := [], va := 0x1000 }) }, by decide +kernel⟩,
   ⟨2, { tag := 7, port := 0, addr := 0x1000, back := some (3, 9) }, 3, 9, put { s0 with iommu := { regs := [(4, 1), (0x17, 0xFF)] }, groups := [(2, { outs := [{ tag := 7, port := 0, addr := 0x1000, back := some (3, 9) }] })] } [(G_CFG_EN 2, 1), (G_CFG_PERS 2, 1), (G_CFG_PORTW 2, 5), (G_CFG_MAXGEN 2, 6), (DOM_STAT_STATE (domGroup 2), 0), (G_STAT_PORTUP 2, 1), (G_STAT_STATE 2, 4)], by decide +kernel⟩⟩

theorem wit_AtsComplete :
    (∃ (x : IoReq) (noWrite : Bool) (w : Bool) (pa : Nat) (s : State), (s.still) ∧ (s.pins.fatal = false) ∧ (x.stream = none) ∧ ((Run.start s).portUp x.g x.port = true) ∧ ((s.grp x.g).held = []) ∧ (
      let r := (Run.start s).accessing (.inbound x.g x.rid.toNat x.addr.toNat) .iommu
      ((r.ioTrans { ioAcc x false with ttyp := 8 }).1.1 = r.1) ∧ ((r.ioTrans { ioAcc x false with ttyp := 8 }).2.toOption = some (pa, w)))) ∧
    (∃ (x : IoReq) (rd : Bool) (wr : Bool) (last : Bool) (prgi : BitVec 9) (dc : List Word) (c : Nat) (la : Nat) (s : State), (s.still) ∧ (s.noSources) ∧ (s.pins.fatal = false) ∧ (x.stream = none) ∧ ((Run.start s).portUp x.g x.port = true) ∧ ((Run.start s).inRoom x.g x.port 0 0 = true) ∧ ((Run.start s).io32 0x10 % 16 = 4) ∧ (s.iommu.ddc.find? (·.1 = x.g * 65536 + x.rid.toNat) = some (x.g * 65536 + x.rid.toNat, dc)) ∧ ((cw dc 0).getLsbD 2 = true) ∧ ((Run.start s).ioBit 0x50 16 = true) ∧ ((Run.start s).ioBit 0x50 8 = false) ∧ ((Run.start s).ioBit 0x50 9 = false) ∧ ((Run.start s).ioBit 0x50 1 = false) ∧ (((Run.start s).io32 0x44 + 1) % (Run.start s).ioSize 0x38 ≠ (Run.start s).io32 0x40) ∧ ((Run.start s).ioReach ((Run.start s).ioBase 0x38 + (Run.start s).io32 0x44 * 16) = true) ∧ (s.lineDst .iommu (BitVec.ofNat 46 (((Run.start s).ioBase 0x38 + (Run.start s).io32 0x44 * 16) / 64)) c la)) :=
  ⟨⟨⟨2, 0, 5, none, false, false, 0x80001000, none, true⟩, false, true, 0x80001000, ((Run.start (put { s0 with iommu := { regs := [(4, 4), (0x17, 0xFF), (0xE, 536872963), (0x14, 0x10000)], ddc := [(2 * 65536 + 5, [7, 0, 0, 0, 0, 0, 0, 0])] }, groups := [(2, {  })] } [(G_CFG_EN 2, 1), (G_CFG_PERS 2, 1), (G_CFG_PORTW 2, 5), (G_CFG_MAXGEN 2, 6), (DOM_STAT_STATE (domGroup 2), 0), (G_STAT_PORTUP 2, 1), (G_STAT_STATE 2, 4)])).ioTrans { ioAcc ⟨2, 0, 5, none, false, false, 0x80001000, none, true⟩ false with ttyp := 8 }).1.1, by decide +kernel⟩,
   ⟨⟨2, 0, 5, none, false, false, 0x80001000, none, true⟩, true, true, true, 5, [7, 0, 0, 0, 0, 0, 0, 0], 0, 0x2000, put { s0 with iommu := { regs := [(4, 4), (0x17, 0xFF), (0xE, 536872963), (0x14, 0x10000)], ddc := [(2 * 65536 + 5, [7, 0, 0, 0, 0, 0, 0, 0])] }, groups := [(2, {  })] } [(G_CFG_EN 2, 1), (G_CFG_PERS 2, 1), (G_CFG_PORTW 2, 5), (G_CFG_MAXGEN 2, 6), (DOM_STAT_STATE (domGroup 2), 0), (G_STAT_PORTUP 2, 1), (G_STAT_STATE 2, 4)], by decide +kernel⟩⟩

theorem wit_CxlComplete :
    (∃ (g : Fin 32) (rid : BitVec 16) (l : LineAddr) (s : State), (s.cxlReady g rid l false)) ∧
    (∃ (g : Fin 32) (rid : BitVec 16) (l : LineAddr) (s : State), (s.cxlReady g rid l true)) ∧
    (∃ (g : Fin 32) (rid : BitVec 16) (l : LineAddr) (data : LineData) (poison : Bool) (s : State), (s.cxlReady g rid l true)) ∧
    (∃ (g : Fin 32) (rid : BitVec 16) (l : LineAddr) (data : LineData) (poison : Bool) (s : State), (s.cxlReady g rid l true)) ∧
    (∃ (g : Fin 32) (l : LineAddr) (h : Fin 1024) (m : Msg) (q : HReq) (data : LineData) (dir : Fin 4) (s : State), (s.still) ∧ (s.net = [m]) ∧ (m.dst = .cxl g) ∧ (m.kind = .mWr) ∧ (m.line = l) ∧ (s.fld (G_STAT_PORTUP g) ≠ 0) ∧ (s.pins.fatal = false) ∧ (s.queue l.toNat = [q]) ∧ (q.phase = .waitMAck) ∧ (q.to_ = .cxl g) ∧ (q.own = false) ∧ (l ∉ (s.slice (quadOf l)).loose) ∧ (q.msg.kind = .wrLine) ∧ (q.msg.src = .hart h) ∧ (q.msg.line = l) ∧ (s.online (dieOf (tileOf h)) = true)) :=
  ⟨⟨2, 5, 0x2000040, put { s0 with iommu := { regs := [(4, 4), (0x17, 0xFF), (0xE, 536872963), (0x14, 0x10000)], ddc := [(2 * 65536 + 5, [7, 0, 0, 0, 0, 0, 0, 0])] }, groups := [(2, {  })] } [(G_CFG_EN 2, 1), (G_CFG_PERS 2, 2), (G_CFG_PORTW 2, 5), (G_CFG_MAXGEN 2, 6), (DOM_STAT_STATE (domGroup 2), 0), (G_STAT_PORTUP 2, 1), (G_STAT_STATE 2, 4), (G_CFG_COH 2, 1)], by decide +kernel⟩,
   ⟨2, 5, 0x2000040, put { s0 with iommu := { regs := [(4, 4), (0x17, 0xFF), (0xE, 536872963), (0x14, 0x10000)], ddc := [(2 * 65536 + 5, [7, 0, 0, 0, 0, 0, 0, 0])] }, groups := [(2, {  })] } [(G_CFG_EN 2, 1), (G_CFG_PERS 2, 2), (G_CFG_PORTW 2, 5), (G_CFG_MAXGEN 2, 6), (DOM_STAT_STATE (domGroup 2), 0), (G_STAT_PORTUP 2, 1), (G_STAT_STATE 2, 4), (G_CFG_COH 2, 1)], by decide +kernel⟩,
   ⟨2, 5, 0x2000040, 9, true, put { s0 with iommu := { regs := [(4, 4), (0x17, 0xFF), (0xE, 536872963), (0x14, 0x10000)], ddc := [(2 * 65536 + 5, [7, 0, 0, 0, 0, 0, 0, 0])] }, groups := [(2, {  })] } [(G_CFG_EN 2, 1), (G_CFG_PERS 2, 2), (G_CFG_PORTW 2, 5), (G_CFG_MAXGEN 2, 6), (DOM_STAT_STATE (domGroup 2), 0), (G_STAT_PORTUP 2, 1), (G_STAT_STATE 2, 4), (G_CFG_COH 2, 1)], by decide +kernel⟩,
   ⟨2, 5, 0x2000040, 9, true, put { s0 with iommu := { regs := [(4, 4), (0x17, 0xFF), (0xE, 536872963), (0x14, 0x10000)], ddc := [(2 * 65536 + 5, [7, 0, 0, 0, 0, 0, 0, 0])] }, groups := [(2, {  })] } [(G_CFG_EN 2, 1), (G_CFG_PERS 2, 2), (G_CFG_PORTW 2, 5), (G_CFG_MAXGEN 2, 6), (DOM_STAT_STATE (domGroup 2), 0), (G_STAT_PORTUP 2, 1), (G_STAT_STATE 2, 4), (G_CFG_COH 2, 1)], by decide +kernel⟩,
   ⟨2, 0x2000040, 0, { kind := .mWr, src := homeOf 0x2000040, dst := .cxl 2, line := 0x2000040 }, { msg := { kind := .wrLine, src := .hart 0, dst := homeOf 0x2000040, line := 0x2000040 }, to_ := .cxl 2, phase := .waitMAck }, 0, 0, { (put { s0 with iommu := { regs := [(4, 1), (0x17, 0xFF)] }, groups := [(2, {  })] } [(G_CFG_EN 2, 1), (G_CFG_PERS 2, 2), (G_CFG_PORTW 2, 5), (G_CFG_MAXGEN 2, 6), (DOM_STAT_STATE (domGroup 2), 0), (G_STAT_PORTUP 2, 1), (G_STAT_STATE 2, 4)]) with net := [{ kind := .mWr, src := homeOf 0x2000040, dst := .cxl 2, line := 0x2000040 }], lineq := [(0x2000040, [{ msg := { kind := .wrLine, src := .hart 0, dst := homeOf 0x2000040, line := 0x2000040 }, to_ := .cxl 2, phase := .waitMAck }])] }, by decide +kernel⟩⟩

theorem wit_SocketsComplete :
    (∃ (g : Fin 32) (diren : Bool) (keyOk : Bool) (s : State), (s.sockAt g 2) ∧ (s.fld (G_CFG_ENC g) = 0)) ∧
    (∃ (g : Fin 32) (diren : Bool) (keyOk : Bool) (s : State), (s.sockAt g 2) ∧ (s.fld (G_CFG_ENC g) = 0)) ∧
    (∃ (g : Fin 32) (diren : Bool) (keyOk : Bool) (s : State), (s.sockAt g 2) ∧ (s.fld (G_CFG_ENC g) = 0)) ∧
    (∃ (g : Fin 32) (id : Fin 4) (peer : Fin 4) (baseline : Word) (enc : Bool) (diren : Bool) (keyOk : Bool) (s : State), (s.sockAt g 2) ∧ ((s.fld (G_CFG_PEER g) ≠ id ∨ s.fld SOCK_CFG_ID ≠ peer ∨ s.reg ID_BASELINE ≠ baseline ∨ (enc = true ↔ s.fld (G_CFG_ENC g) = 0)))) ∧
    (∃ (g : Fin 32) (id : Fin 4) (peer : Fin 4) (baseline : Word) (enc : Bool) (diren : Bool) (keyOk : Bool) (s : State), (s.sockAt g 2) ∧ ((s.fld (G_CFG_PEER g) ≠ id ∨ s.fld SOCK_CFG_ID ≠ peer ∨ s.reg ID_BASELINE ≠ baseline ∨ (enc = true ↔ s.fld (G_CFG_ENC g) = 0)))) ∧
    (∃ (g : Fin 32) (s : State), (s.still) ∧ (s.fld (G_STAT_STATE g) = 6)) ∧
    (∃ (g : Fin 32) (auth : Bool) (s : State), (s.sockAt g 4) ∧ (s.fld (G_CFG_ENC g) = 0) ∧ (s.fld (G_STAT_WIDTH g) ≤ 16)) ∧
    (∃ (g : Fin 32) (auth : Bool) (lanes : Fin 17) (s : State), (s.sockAt g 4) ∧ (s.fld (G_CFG_ENC g) = 0) ∧ (s.fld (G_STAT_WIDTH g) = 16) ∧ (8 ≤ lanes.val) ∧ (lanes.val < 16)) ∧
    (∃ (g : Fin 32) (s : State), (s.sockAt g 4) ∧ (s.fld ERR_FATAL_V = 0)) ∧
    (∃ (g : Fin 32) (p : Fin 4) (s : State), (s.sockAt g 4) ∧ (s.fld (G_CFG_PEER g) = p) ∧ (s.fld ERR_FATAL_V = 0)) :=
  ⟨⟨2, true, true, put { s0 with iommu := { regs := [(4, 1), (0x17, 0xFF)] }, groups := [(2, {  })] } [(G_CFG_EN 2, 1), (G_CFG_PERS 2, 3), (G_CFG_PORTW 2, 5), (G_CFG_MAXGEN 2, 6), (DOM_STAT_STATE (domGroup 2), 0), (G_STAT_PORTUP 2, 1), (G_STAT_STATE 2, 4), (G_CFG_PEER 2, 1), (G_STAT_STATE 2, 2), (G_STAT_WIDTH 2, 16), (HOME_CFG_DIREN, 1)], by decide +kernel⟩,
   ⟨2, true, true, put { s0 with iommu := { regs := [(4, 1), (0x17, 0xFF)] }, groups := [(2, {  })] } [(G_CFG_EN 2, 1), (G_CFG_PERS 2, 3), (G_CFG_PORTW 2, 5), (G_CFG_MAXGEN 2, 6), (DOM_STAT_STATE (domGroup 2), 0), (G_STAT_PORTUP 2, 1), (G_STAT_STATE 2, 4), (G_CFG_PEER 2, 1), (G_STAT_STATE 2, 2), (G_STAT_WIDTH 2, 16)], by decide +kernel⟩,
   ⟨2, true, true, put { s0 with iommu := { regs := [(4, 1), (0x17, 0xFF)] }, groups := [(2, {  })] } [(G_CFG_EN 2, 1), (G_CFG_PERS 2, 3), (G_CFG_PORTW 2, 5), (G_CFG_MAXGEN 2, 6), (DOM_STAT_STATE (domGroup 2), 0), (G_STAT_PORTUP 2, 1), (G_STAT_STATE 2, 4), (G_CFG_PEER 2, 1), (G_STAT_STATE 2, 2), (G_STAT_WIDTH 2, 16), (HOME_CFG_DIREN, 1), (G_STAT_WIDTH 2, 8)], by decide +kernel⟩,
   ⟨2, 2, 0, s0.reg ID_BASELINE, false, true, true, put { s0 with iommu := { regs := [(4, 1), (0x17, 0xFF)] }, groups := [(2, {  })] } [(G_CFG_EN 2, 1), (G_CFG_PERS 2, 3), (G_CFG_PORTW 2, 5), (G_CFG_MAXGEN 2, 6), (DOM_STAT_STATE (domGroup 2), 0), (G_STAT_PORTUP 2, 1), (G_STAT_STATE 2, 4), (G_CFG_PEER 2, 1), (G_STAT_STATE 2, 2), (G_STAT_WIDTH 2, 16)], by decide +kernel⟩,
   ⟨2, 1, 0, s0.reg ID_BASELINE, true, true, true, put { s0 with iommu := { regs := [(4, 1), (0x17, 0xFF)] }, groups := [(2, {  })] } [(G_CFG_EN 2, 1), (G_CFG_PERS 2, 3), (G_CFG_PORTW 2, 5), (G_CFG_MAXGEN 2, 6), (DOM_STAT_STATE (domGroup 2), 0), (G_STAT_PORTUP 2, 1), (G_STAT_STATE 2, 4), (G_CFG_PEER 2, 1), (G_STAT_STATE 2, 2), (G_STAT_WIDTH 2, 16)], by decide +kernel⟩,
   ⟨2, put { s0 with iommu := { regs := [(4, 1), (0x17, 0xFF)] }, groups := [(2, {  })] } [(G_CFG_EN 2, 1), (G_CFG_PERS 2, 3), (G_CFG_PORTW 2, 5), (G_CFG_MAXGEN 2, 6), (DOM_STAT_STATE (domGroup 2), 0), (G_STAT_PORTUP 2, 1), (G_STAT_STATE 2, 4), (G_CFG_PEER 2, 1), (G_STAT_STATE 2, 6), (G_STAT_WIDTH 2, 16)], by decide +kernel⟩,
   ⟨2, true, put { s0 with iommu := { regs := [(4, 1), (0x17, 0xFF)] }, groups := [(2, { fails := 3 })] } [(G_CFG_EN 2, 1), (G_CFG_PERS 2, 3), (G_CFG_PORTW 2, 5), (G_CFG_MAXGEN 2, 6), (DOM_STAT_STATE (domGroup 2), 0), (G_STAT_PORTUP 2, 1), (G_STAT_STATE 2, 4), (G_CFG_PEER 2, 1), (G_STAT_STATE 2, 4), (G_STAT_WIDTH 2, 16)], by decide +kernel⟩,
   ⟨2, true, 9, put { s0 with iommu := { regs := [(4, 1), (0x17, 0xFF)] }, groups := [(2, {  })] } [(G_CFG_EN 2, 1), (G_CFG_PERS 2, 3), (G_CFG_PORTW 2, 5), (G_CFG_MAXGEN 2, 6), (DOM_STAT_STATE (domGroup 2), 0), (G_STAT_PORTUP 2, 1), (G_STAT_STATE 2, 4), (G_CFG_PEER 2, 1), (G_STAT_STATE 2, 4), (G_STAT_WIDTH 2, 16)], by decide +kernel⟩,
   ⟨2, put { s0 with iommu := { regs := [(4, 1), (0x17, 0xFF)] }, groups := [(2, {  })] } [(G_CFG_EN 2, 1), (G_CFG_PERS 2, 3), (G_CFG_PORTW 2, 5), (G_CFG_MAXGEN 2, 6), (DOM_STAT_STATE (domGroup 2), 0), (G_STAT_PORTUP 2, 1), (G_STAT_STATE 2, 4), (G_CFG_PEER 2, 1), (G_STAT_STATE 2, 4), (G_STAT_WIDTH 2, 16)], by decide +kernel⟩,
   ⟨2, 1, put { s0 with iommu := { regs := [(4, 1), (0x17, 0xFF)] }, groups := [(2, {  })] } [(G_CFG_EN 2, 1), (G_CFG_PERS 2, 3), (G_CFG_PORTW 2, 5), (G_CFG_MAXGEN 2, 6), (DOM_STAT_STATE (domGroup 2), 0), (G_STAT_PORTUP 2, 1), (G_STAT_STATE 2, 4), (G_CFG_PEER 2, 1), (G_STAT_STATE 2, 4), (G_STAT_WIDTH 2, 16)], by decide +kernel⟩⟩

theorem wit_KeyCommandsComplete :
    (∃ (w : Fin 3) (q : Requester) (l : LineAddr) (x : DLine) (c : Nat) (la : Nat) (c' : Nat) (la' : Nat) (id : Nat) (s : State), (s.command w q l x c la c' la') ∧ (s.slotReady (cmdOf w q l x) 1 id) ∧ ((cmdOf w q l x).at 3 1 = 0)) ∧
    (∃ (w : Fin 3) (q : Requester) (l : LineAddr) (x : DLine) (c : Nat) (la : Nat) (c' : Nat) (la' : Nat) (id : Nat) (s : State), (s.command w q l x c la c' la') ∧ (s.slotReady (cmdOf w q l x) 1 id) ∧ ((cmdOf w q l x).at 3 1 = 0)) ∧
    (∃ (w : Fin 3) (q : Requester) (l : LineAddr) (b : LineAddr) (x : DLine) (y : DLine) (c : Nat) (la : Nat) (c' : Nat) (la' : Nat) (c'' : Nat) (la'' : Nat) (id : Nat) (s : State), (s.command w q l x c la c' la') ∧ (s.slotReady (cmdOf w q l x) 2 id) ∧ ((cmdOf w q l x).limOk id) ∧ ((cmdOf w q l x).at 16 8 = b.toNat * 64) ∧ (w ≠ 1) ∧ (s.lineSrc .fox b c'' la'' y) ∧ ((Run.start s).keyOk id ((cmdOf w q l x).at 2 1) (slotLim (slotBank id) ((cmdOf w q l x).at 3 1)) ((cmdOf w q l x).at 8 8) = true) ∧ (halvesDiffer ((cmdOf w q l x).at 2 1) y.data.toNat = true)) ∧
    (∃ (w : Fin 3) (q : Requester) (l : LineAddr) (b : LineAddr) (x : DLine) (y : DLine) (c : Nat) (la : Nat) (c' : Nat) (la' : Nat) (c'' : Nat) (la'' : Nat) (id : Nat) (s : State), (s.command w q l x c la c' la') ∧ (s.slotReady (cmdOf w q l x) 2 id) ∧ ((cmdOf w q l x).limOk id) ∧ ((cmdOf w q l x).at 16 8 = b.toNat * 64) ∧ (w ≠ 1) ∧ (s.lineSrc .fox b c'' la'' y) ∧ ((Run.start s).keyOk id ((cmdOf w q l x).at 2 1) (slotLim (slotBank id) ((cmdOf w q l x).at 3 1)) ((cmdOf w q l x).at 8 8) = true) ∧ (halvesDiffer ((cmdOf w q l x).at 2 1) y.data.toNat = true)) ∧
    (∃ (w : Fin 3) (q : Requester) (l : LineAddr) (x : DLine) (c : Nat) (la : Nat) (c' : Nat) (la' : Nat) (id : Nat) (s : State), (s.command w q l x c la c' la') ∧ (s.slotReady (cmdOf w q l x) 3 id) ∧ ((cmdOf w q l x).limOk id) ∧ ((Run.start s).keyOk id ((cmdOf w q l x).at 2 1) (slotLim (slotBank id) ((cmdOf w q l x).at 3 1)) ((cmdOf w q l x).at 8 8) = true)) ∧
    (∃ (w : Fin 3) (q : Requester) (l : LineAddr) (x : DLine) (c : Nat) (la : Nat) (c' : Nat) (la' : Nat) (id : Nat) (s : State), (s.command w q l x c la c' la') ∧ (s.slotReady (cmdOf w q l x) 4 id) ∧ ((cmdOf w q l x).at 3 1 = 0)) ∧
    (∃ (w : Fin 3) (q : Requester) (l : LineAddr) (x : DLine) (c : Nat) (la : Nat) (c' : Nat) (la' : Nat) (id : Nat) (s : State), (s.command w q l x c la c' la') ∧ (s.slotReady (cmdOf w q l x) 4 id) ∧ ((cmdOf w q l x).at 3 1 = 0)) ∧
    (∃ (w : Fin 3) (q : Requester) (l : LineAddr) (b : LineAddr) (x : DLine) (c : Nat) (la : Nat) (c' : Nat) (la' : Nat) (c'' : Nat) (la'' : Nat) (k : Nat) (la3 : Nat) (id : Nat) (type : Nat) (lim : Nat) (iv : BitVec 96) (key : BitVec 512) (s : State), (s.command w q l x c la c' la') ∧ (s.slotReady (cmdOf w q l x) 5 id) ∧ ((cmdOf w q l x).at 3 1 = 0) ∧ ((cmdOf w q l x).at 16 8 = b.toNat * 64) ∧ (w ≠ 1) ∧ (b ≠ BitVec.allOnes 46) ∧ ((type = 1 ∨ type = 2)) ∧ ((type = 1 → key.toNat < 2 ^ 256)) ∧ (lim < 256) ∧ ((Run.start s).epoch < 32) ∧ (((Run.start s).key id).owner ≠ 0xFFFF) ∧ (s.lineSrc .fox b c'' la'' { data := BitVec.ofNat 512 (natLE ((sealBlob type lim (Run.start s).epoch 0 (bytesLE 12 iv.toNat) (bytesLE 64 key.toNat)).take 64)), dir := 1, key := (s.key 0).key, tweak := b.toNat }) ∧ (s.lineSrc .fox (b + 1) k la3 { data := BitVec.ofNat 512 (natLE ((sealBlob type lim (Run.start s).epoch 0 (bytesLE 12 iv.toNat) (bytesLE 64 key.toNat)).drop 64)), dir := 1, key := (s.key 0).key, tweak := (b + 1).toNat }) ∧ ((Run.start s).keyOk id type lim ((cmdOf w q l x).at 8 8) = true) ∧ (halvesDiffer type key.toNat = true)) ∧
    (∃ (w : Fin 3) (q : Requester) (l : LineAddr) (x : DLine) (c : Nat) (la : Nat) (c' : Nat) (la' : Nat) (id : Nat) (s : State), (s.command w q l x c la c' la') ∧ (s.slotReady (cmdOf w q l x) 6 id) ∧ ((cmdOf w q l x).at 3 1 = 0) ∧ ((s.key id).loaded = false) ∧ (((cmdOf w q l x).at 24 2 < 256 ∧ (Run.start s).fnSecure ((cmdOf w q l x).at 24 2) = decide (w = 1) ∨ (cmdOf w q l x).at 24 2 = 0xFFFF))) :=
  ⟨⟨2, .hart 0, 0x2000040, { data := 0x1000000500000001, dir := 1, key := 5, tweak := 33554496 }, 0, 0x1000, 0, 0x1040, 268435461, put { s0 with dram := [(dramKey 0 0x1000, { data := 0x1000000500000001, dir := 1, key := 5, tweak := 33554496 })], fox := { s0.fox with ready := true, cmds := [(2, 2147487744, .hart 0)] }, keys := [(0, { loaded := true, key := 5 }), (268435461, { owner := 3, gen := 8 })] } [], by decide +kernel⟩,
   ⟨0, .hart 0, 0x2000040, { data := 0x4000000001, dir := 1, key := 5, tweak := 33554496 }, 0, 0x1000, 0, 0x1040, 64, put { s0 with dram := [(dramKey 0 0x1000, { data := 0x4000000001, dir := 1, key := 5, tweak := 33554496 })], fox := { s0.fox with ready := true, cmds := [(0, 2147487744, .hart 0)] } } [], by decide +kernel⟩,
   ⟨2, .hart 0, 0x2000040, 0x2000044, { data := 0x8000110000000000000000071000000514010002, dir := 1, key := 5, tweak := 33554496 }, { data := 0x123456789abcdef000000000000000000000000000000000000000000000000000000000000000000000000042, dir := 1, key := 5, tweak := 33554500 }, 0, 0x1000, 0, 0x1040, 0, 0x1100, 268435461, put { s0 with dram := [(dramKey 0 0x1000, { data := 0x8000110000000000000000071000000514010002, dir := 1, key := 5, tweak := 33554496 }), (dramKey 0 4352, { data := 0x123456789abcdef000000000000000000000000000000000000000000000000000000000000000000000000042, dir := 1, key := 5, tweak := 33554500 })], fox := { s0.fox with ready := true, cmds := [(2, 2147487744, .hart 0)] }, keys := [(0, { loaded := true, key := 5 }), (268435461, { owner := 3, gen := 8 })] } [], by decide +kernel⟩,
   ⟨2, .hart 0, 0x2000040, 0x2000044, { data := 0x8000110000000000000000071000000500020002, dir := 1, key := 5, tweak := 33554496 }, { data := 0x123456789abcdef000000000000000000000000000000000000000000000000000000000000000000000000042, dir := 1, key := 5, tweak := 33554500 }, 0, 0x1000, 0, 0x1040, 0, 0x1100, 268435461, put { s0 with dram := [(dramKey 0 0x1000, { data := 0x8000110000000000000000071000000500020002, dir := 1, key := 5, tweak := 33554496 }), (dramKey 0 4352, { data := 0x123456789abcdef000000000000000000000000000000000000000000000000000000000000000000000000042, dir := 1, key := 5, tweak := 33554500 })], fox := { s0.fox with ready := true, cmds := [(2, 2147487744, .hart 0)] }, keys := [(0, { loaded := true, key := 5 }), (268435461, { owner := 3, gen := 8 })] } [], by decide +kernel⟩,
   ⟨2, .hart 0, 0x2000040, { data := 0x71000000514010003, dir := 1, key := 5, tweak := 33554496 }, 0, 0x1000, 0, 0x1040, 268435461, put { s0 with dram := [(dramKey 0 0x1000, { data := 0x71000000514010003, dir := 1, key := 5, tweak := 33554496 })], fox := { s0.fox with ready := true, cmds := [(2, 2147487744, .hart 0)] }, keys := [(0, { loaded := true, key := 5 }), (268435461, { owner := 3, gen := 8 })] } [], by decide +kernel⟩,
   ⟨2, .hart 0, 0x2000040, { data := 0x1000000500000004, dir := 1, key := 5, tweak := 33554496 }, 0, 0x1000, 0, 0x1040, 268435461, put { s0 with dram := [(dramKey 0 0x1000, { data := 0x1000000500000004, dir := 1, key := 5, tweak := 33554496 })], fox := { s0.fox with ready := true, cmds := [(2, 2147487744, .hart 0)] }, keys := [(0, { loaded := true, key := 5 }), (268435461, { owner := 3, gen := 8, loaded := true, type := 1 })] } [], by decide +kernel⟩,
   ⟨0, .hart 0, 0x2000040, { data := 0x1000000500000004, dir := 1, key := 5, tweak := 33554496 }, 0, 0x1000, 0, 0x1040, 268435461, put { s0 with dram := [(dramKey 0 0x1000, { data := 0x1000000500000004, dir := 1, key := 5, tweak := 33554496 })], fox := { s0.fox with ready := true, cmds := [(0, 2147487744, .hart 0)] }, keys := [(0, { loaded := true, key := 5 }), (268435461, { owner := 3, gen := 8, loaded := true, type := 1 })] } [], by decide +kernel⟩,
   ⟨2, .hart 0, 0x2000040, 0x2000044, { data := 0x8000110000000000000000091000000500000005, dir := 1, key := 5, tweak := 33554496 }, 0, 0x1000, 0, 0x1040, 0, 0x1100, 0, 0x1140, 268435461, 1, 20, 3, 77, sealState sealHead sealTail, by
     rw [sealState_epoch, sealState_key]
     exact ⟨by decide +kernel, by decide +kernel, by decide +kernel, by decide +kernel, by decide +kernel, by decide +kernel, by decide +kernel, by decide +kernel, by decide +kernel, by decide +kernel, by decide +kernel, ⟨by decide +kernel, sealState_head _ _, rfl, rfl, rfl, rfl⟩, ⟨by decide +kernel, sealState_tail _ _, rfl, rfl, rfl, rfl⟩, by decide +kernel, by decide +kernel⟩⟩,
   ⟨2, .hart 0, 0x2000040, { data := 0x3000000000000000000000000000000001000000500000006, dir := 1, key := 5, tweak := 33554496 }, 0, 0x1000, 0, 0x1040, 268435461, put { s0 with dram := [(dramKey 0 0x1000, { data := 0x3000000000000000000000000000000001000000500000006, dir := 1, key := 5, tweak := 33554496 })], fox := { s0.fox with ready := true, cmds := [(2, 2147487744, .hart 0)] }, keys := [(0, { loaded := true, key := 5 }), (268435461, { owner := 3, gen := 8 })] } [], by decide +kernel⟩⟩

theorem wit_MonitorCommandsComplete :
    (∃ (w : Fin 3) (q : Requester) (l : LineAddr) (b : LineAddr) (x : DLine) (y : DLine) (c : Nat) (la : Nat) (c' : Nat) (la' : Nat) (c'' : Nat) (la'' : Nat) (n : Fin 16) (s : State), (s.command w q l x c la c' la') ∧ ((cmdOf w q l x).plain 0x20) ∧ ((cmdOf w q l x).at 1 3 = 0) ∧ ((cmdOf w q l x).at 4 1 = n) ∧ ((cmdOf w q l x).at 5 11 = 0) ∧ ((cmdOf w q l x).at 24 8 = 0) ∧ (measOf w n = true) ∧ ((cmdOf w q l x).at 16 8 = b.toNat * 64) ∧ (s.lineSrc .fox b c'' la'' y)) ∧
    (∃ (q : Requester) (l : LineAddr) (x : DLine) (c : Nat) (la : Nat) (c' : Nat) (la' : Nat) (n : Fin 128) (base : Word) (limit : Word) (s : State), (s.command 1 q l x c la c' la') ∧ ((Run.start s).isMonitor q = true) ∧ ((cmdOf 1 q l x).plain 0x10) ∧ ((cmdOf 1 q l x).at 2 2 = 0) ∧ ((cmdOf 1 q l x).at 24 2 = 0) ∧ ((cmdOf 1 q l x).at 4 4 = n) ∧ ((cmdOf 1 q l x).at 8 8 = base.toNat) ∧ ((cmdOf 1 q l x).at 16 8 = limit.toNat) ∧ ((Run.start s).ertCheck n base limit = none) ∧ (s.fld (ERT_BASE_EN n) = 0)) ∧
    (∃ (q : Requester) (l : LineAddr) (x : DLine) (c : Nat) (la : Nat) (c' : Nat) (la' : Nat) (f : FoxSweep) (s : State), (s.still) ∧ (s.noSources) ∧ (s.fox.cmds = [(1, l.toNat * 64, q)]) ∧ (l ≠ BitVec.allOnes 46) ∧ (s.lineSrc .fox l c la x) ∧ (s.lineDst .fox (l + 1) c' la') ∧ ((cmdOf 1 q l x).at 32 8 = 0) ∧ (s.sweeps f 0x10) ∧ (f.w = 1) ∧ (f.blk = l.toNat * 64)) ∧
    (∃ (q : Requester) (l : LineAddr) (x : DLine) (c : Nat) (la : Nat) (c' : Nat) (la' : Nat) (e : Nat) (s : State), (s.command 1 q l x c la c' la') ∧ ((Run.start s).isMonitor q = true) ∧ ((cmdOf 1 q l x).plain 0x11) ∧ ((cmdOf 1 q l x).at 4 4 = e) ∧ (1 ≤ e) ∧ (e ≤ 64) ∧ (e ≠ s.fld SEC_CFG_MONEID) ∧ (s.fld (ENC_STAT_STATE e) = 0) ∧ ((cmdOf 1 q l x).at 2 1 = 1) ∧ ((cmdOf 1 q l x).at 3 1 < 16) ∧ ((cmdOf 1 q l x).at 16 8 % 4096 = 0) ∧ ((cmdOf 1 q l x).at 16 8 < 2 ^ 52) ∧ ((cmdOf 1 q l x).at 8 8 % 4 = 0) ∧ ((∀ i < 16, i ≤ (cmdOf 1 q l x).at 3 1 → (Run.start s).enclaveOf ((cmdOf 1 q l x).at 16 8 + i * 4096) = e))) ∧
    (∃ (q : Requester) (l : LineAddr) (x : DLine) (c : Nat) (la : Nat) (c' : Nat) (la' : Nat) (e : Nat) (s : State), (s.command 1 q l x c la c' la') ∧ ((Run.start s).isMonitor q = true) ∧ ((cmdOf 1 q l x).plain 0x11) ∧ ((cmdOf 1 q l x).at 4 4 = e) ∧ (1 ≤ e) ∧ (e ≤ 64) ∧ (e ≠ s.fld SEC_CFG_MONEID) ∧ (s.fld (ENC_STAT_STATE e) = 1) ∧ ((cmdOf 1 q l x).at 2 1 = 2)) ∧
    (∃ (q : Requester) (l : LineAddr) (x : DLine) (c : Nat) (la : Nat) (c' : Nat) (la' : Nat) (e : Nat) (s : State), (s.command 1 q l x c la c' la') ∧ ((Run.start s).isMonitor q = true) ∧ ((cmdOf 1 q l x).plain 0x11) ∧ ((cmdOf 1 q l x).at 4 4 = e) ∧ (1 ≤ e) ∧ (e ≤ 64) ∧ (e ≠ s.fld SEC_CFG_MONEID) ∧ (s.fld (ENC_STAT_STATE e) ≠ 0) ∧ ((cmdOf 1 q l x).at 2 1 = 0) ∧ (s.fld (ENC_STAT_TBUSY e) = 0) ∧ (s.fld (ENC_STAT_TSUSP e) = 0)) ∧
    (∃ (q : Requester) (l : LineAddr) (x : DLine) (c : Nat) (la : Nat) (c' : Nat) (la' : Nat) (f : FoxSweep) (s : State), (s.still) ∧ (s.noSources) ∧ (s.fox.cmds = [(1, l.toNat * 64, q)]) ∧ (l ≠ BitVec.allOnes 46) ∧ (s.lineSrc .fox l c la x) ∧ (s.lineDst .fox (l + 1) c' la') ∧ ((cmdOf 1 q l x).at 32 8 = 0) ∧ (s.sweeps f 0x11) ∧ (f.w = 1) ∧ (f.blk = l.toNat * 64)) :=
  ⟨⟨2, .hart 0, 0x2000040, 0x2000044, { data := 0x8000110000000000000000000000000c00000020, dir := 1, key := 5, tweak := 33554496 }, { data := 0x123456789abcdef000000000000000000000000000000000000000000000000000000000000000000000000042, dir := 1, key := 5, tweak := 33554500 }, 0, 0x1000, 0, 0x1040, 0, 0x1100, 12, put { s0 with dram := [(dramKey 0 0x1000, { data := 0x8000110000000000000000000000000c00000020, dir := 1, key := 5, tweak := 33554496 }), (dramKey 0 4352, { data := 0x123456789abcdef000000000000000000000000000000000000000000000000000000000000000000000000042, dir := 1, key := 5, tweak := 33554500 })], fox := { s0.fox with ready := true, cmds := [(2, 2147487744, .hart 0)] } } [], by decide +kernel⟩,
   ⟨.hart 0, 0x2000040, { data := 0x8040000085000000804000000000000300000010, dir := 1, key := 5, tweak := 33554496 }, 0, 0x1000, 0, 0x1040, 3, 0x8500000080400000, 0x80400000, put { s0 with dram := [(dramKey 0 0x1000, { data := 0x8040000085000000804000000000000300000010, dir := 1, key := 5, tweak := 33554496 })], fox := { s0.fox with ready := true, cmds := [(1, 2147487744, .hart 0)] }, harts := [(0, { run := .running, pc := 0x80000000, eid := 7, mode := .s })] } [(SEC_CFG_MONVALID, 1), (SEC_CFG_MONEID, 7), (L3_PARTWAYS_FROZEN 0 0, 1)], by decide +kernel⟩,
   ⟨.hart 0, 0x2000040, { data := 0x8040000085000000804000000000000300000010, dir := 1, key := 5, tweak := 33554496 }, 0, 0x1000, 0, 0x1040, { w := 1, blk := 2147487744, op := 0x10, flush := [(5, 9)] }, put { s0 with dram := [(dramKey 0 0x1000, { data := 0x8040000085000000804000000000000300000010, dir := 1, key := 5, tweak := 33554496 })], fox := { s0.fox with ready := true, cmds := [(1, 2147487744, .hart 0)], sweep := some { w := 1, blk := 2147487744, op := 0x10, flush := [(5, 9)] } }, harts := [(0, { run := .running, pc := 0x80000000, eid := 7, mode := .s })] } [(SEC_CFG_MONVALID, 1), (SEC_CFG_MONEID, 7)], by decide +kernel⟩,
   ⟨.hart 0, 0x2000040, { data := 0x8040000000000000805000000000000502010011, dir := 1, key := 5, tweak := 33554496 }, 0, 0x1000, 0, 0x1040, 5, put { s0 with dram := [(dramKey 0 0x1000, { data := 0x8040000000000000805000000000000502010011, dir := 1, key := 5, tweak := 33554496 })], fox := { s0.fox with ready := true, cmds := [(1, 2147487744, .hart 0)] }, harts := [(0, { run := .running, pc := 0x80000000, eid := 7, mode := .s })] } [(SEC_CFG_MONVALID, 1), (SEC_CFG_MONEID, 7), (ERT_BASE_EN 3, 1), (ERT_BASE_EID 3, 5), (ERT_BASE_BASE 3, 1026), (ERT_LIMIT_LIMIT 3, 1026)], by decide +kernel⟩,
   ⟨.hart 0, 0x2000040, { data := 0x500020011, dir := 1, key := 5, tweak := 33554496 }, 0, 0x1000, 0, 0x1040, 5, put { s0 with dram := [(dramKey 0 0x1000, { data := 0x500020011, dir := 1, key := 5, tweak := 33554496 })], fox := { s0.fox with ready := true, cmds := [(1, 2147487744, .hart 0)] }, harts := [(0, { run := .running, pc := 0x80000000, eid := 7, mode := .s })] } [(SEC_CFG_MONVALID, 1), (SEC_CFG_MONEID, 7), (ENC_STAT_STATE 5, 1)], by decide +kernel⟩,
   ⟨.hart 0, 0x2000040, { data := 0x500000011, dir := 1, key := 5, tweak := 33554496 }, 0, 0x1000, 0, 0x1040, 5, put { s0 with dram := [(dramKey 0 0x1000, { data := 0x500000011, dir := 1, key := 5, tweak := 33554496 })], fox := { s0.fox with ready := true, cmds := [(1, 2147487744, .hart 0)] }, harts := [(0, { run := .running, pc := 0x80000000, eid := 7, mode := .s })], keys := [(0, { loaded := true, key := 5 }), (5, { loaded := true, type := 2 })] } [(SEC_CFG_MONVALID, 1), (SEC_CFG_MONEID, 7), (ENC_STAT_STATE 5, 2), (ERT_BASE_EN 3, 1), (ERT_BASE_EID 3, 5), (ERT_BASE_BASE 3, 1026), (ERT_LIMIT_LIMIT 3, 1026)], by decide +kernel⟩,
   ⟨.hart 0, 0x2000040, { data := 0x8040000085000000804000000000000300000010, dir := 1, key := 5, tweak := 33554496 }, 0, 0x1000, 0, 0x1040, { w := 1, blk := 2147487744, op := 0x11, drop := [(5, 9)] }, put { s0 with dram := [(dramKey 0 0x1000, { data := 0x8040000085000000804000000000000300000010, dir := 1, key := 5, tweak := 33554496 })], fox := { s0.fox with ready := true, cmds := [(1, 2147487744, .hart 0)], sweep := some { w := 1, blk := 2147487744, op := 0x11, drop := [(5, 9)] } }, harts := [(0, { run := .running, pc := 0x80000000, eid := 7, mode := .s })] } [(SEC_CFG_MONVALID, 1), (SEC_CFG_MONEID, 7)], by decide +kernel⟩⟩

theorem wit_AlarmsComplete :
    (∃ (h : Fin 1024) (s : State), (s.still) ∧ (s.writer (.hart h)) ∧ ((s.hart h).eid = 0)) ∧
    (∃ (h : Fin 1024) (s : State), (s.still) ∧ (s.writer (.hart h)) ∧ ((s.hart h).eid = 0)) ∧
    (∃ (src : Fin 2) (s : State), (s.still) ∧ (s.noSources) ∧ (s.fld (srcOk src) = 1) ∧ (s.fld (srcOk (1 - src.val)) = 1) ∧ (s.freeSlot .fox 1)) ∧
    (∃ (src : Fin 2) (s : State), (s.still) ∧ (s.noSources) ∧ (s.canon = true) ∧ (s.fld (srcOk src) = 1) ∧ (s.fld (srcOk (1 - src.val)) = 0) ∧ (s.fld ERR_FATAL_V = 0)) ∧
    (∃ (src : Fin 2) (s : State), (s.still)) ∧
    (∃ (src : Fin 2) (s : State), (s.still)) ∧
    (∃ (s : State), (s.still) ∧ (s.fld FOX_TRNG_STAT_DRBGOK = 1)) ∧
    (∃ (src : Fin 8) (detail : BitVec 32) (s : State), (s.still) ∧ (s.noSources) ∧ (src ≠ 0) ∧ ((Run.start s).classA src = false) ∧ (s.freeSlot .fox 1)) ∧
    (∃ (src : Fin 8) (detail : BitVec 32) (s : State), (s.still) ∧ (s.noSources) ∧ (s.canon = true) ∧ (src ≠ 0) ∧ ((Run.start s).classA src = true) ∧ (s.fld ERR_FATAL_V = 0) ∧ (s.fox.stopped = false)) ∧
    (∃ (src : Fin 8) (detail : BitVec 32) (s : State), (s.still) ∧ (s.noSources) ∧ (s.canon = true) ∧ (src ≠ 0) ∧ ((Run.start s).classA src = true) ∧ (s.fld ERR_FATAL_V = 0) ∧ (s.fox.stopped = false)) ∧
    (∃ (src : Fin 8) (detail : BitVec 32) (s : State), (s.still) ∧ (s.noSources) ∧ (src ≠ 0) ∧ ((Run.start s).classA src = false) ∧ (natBit (s.fld ALARM_STAT_SEEN) (src - 1) = true)) ∧
    (∃ (q : Requester) (k : Nat) (s : State), (s.still) ∧ (s.writer q) ∧ ((Run.start s).isMonitor q = true) ∧ (s.wdog = some (k + 1))) ∧
    (∃ (env : StartEnv) (s : State), (s.need = {}) ∧ (s.wdog = some 0) ∧ (s.pins.fatal = false) ∧ (s.fld TBASE_STAT_REFOK = 0) ∧ (s.canon = true)) :=
  ⟨⟨0, put { s0 with fox := { s0.fox with rekey := [3, 9] } } [(FOX_REKEYQ_INDEX, 3)], by decide +kernel⟩,
   ⟨0, s0, by decide +kernel⟩,
   ⟨0, put s0 [(FOX_TRNG_STAT_SRC0OK, 1), (FOX_TRNG_STAT_SRC1OK, 1), (FOX_TRNG_STAT_DRBGOK, 1)], by decide +kernel⟩,
   ⟨1, put { s0 with keys := [(0, { loaded := true, key := 5 }), (268435461, { loaded := true, type := 1, owner := 3 })] } [(FOX_TRNG_STAT_SRC1OK, 1)], by decide +kernel⟩,
   ⟨0, s0, by decide +kernel⟩,
   ⟨1, s0, by decide +kernel⟩,
   ⟨put s0 [(FOX_TRNG_STAT_SRC0OK, 1), (FOX_TRNG_STAT_SRC1OK, 1), (FOX_TRNG_STAT_DRBGOK, 1)], by decide +kernel⟩,
   ⟨2, 77, pol (put s0 [(ALARM_STAT_NEXT, 7), (TBASE_COUNT_COUNT, 99)]) 0, by decide +kernel⟩,
   ⟨2, 77, pol { s0 with keys := [(0, { loaded := true, key := 5 }), (268435461, { loaded := true, type := 1, owner := 3 })] } 10, by decide +kernel⟩,
   ⟨3, 77, put { s0 with keys := [(0, { loaded := true, key := 5 }), (268435461, { loaded := true, type := 1, owner := 3 })] } [(FOX_TRNG_STAT_DRBGOK, 1)], by decide +kernel⟩,
   ⟨2, 77, pol (put s0 [(ALARM_STAT_NEXT, 7), (TBASE_COUNT_COUNT, 99), (ALARM_STAT_SEEN, 2)]) 0, by decide +kernel⟩,
   ⟨.hart 0, 4, put { s0 with wdog := some 5, harts := [(0, { run := .running, pc := 0x80000000, eid := 7, mode := .s })] } [(SEC_CFG_MONVALID, 1), (SEC_CFG_MONEID, 7), (WDOG_CTL_PERIOD, 3)], by decide +kernel⟩,
   ⟨⟨0, 0, [], [], 0, true⟩, { s0 with wdog := some 0, dram := [(dramKey 0 0x1000, { data := 7, dir := 1, key := 5, tweak := 9 })] }, by decide +kernel⟩⟩

theorem wit_ResetsAndStart :
    (∃ (s : State), (s.canon = true) ∧ (s.need = {})) ∧
    (∃ (sel : Bool) (addr : Fin 4) (s : State), (s.still) ∧ (s.pins.porst = true)) ∧
    (∃ (env : StartEnv) (s : State), (s.canon = true) ∧ (s.still) ∧ (s.noSources) ∧ (s.harts = []) ∧ (s.net = []) ∧ (s.pins.porst = false) ∧ (s.fox.waits = 1) ∧ (s.fld TBASE_STAT_REFLOSS = 0)) ∧
    (∃ (env : StartEnv) (s : State), (s.canon = true) ∧ (s.still) ∧ (s.noSources) ∧ (s.harts = []) ∧ (s.net = []) ∧ (s.pins.porst = false) ∧ (s.fox.waits = 1) ∧ (s.fld TBASE_STAT_REFLOSS = 0)) ∧
    (∃ (env : StartEnv) (s : State), (s.canon = true) ∧ (s.still) ∧ (s.noSources) ∧ (s.harts = []) ∧ (s.net = []) ∧ (s.pins.fatal = false) ∧ (s.fox.waits = 2)) ∧
    (∃ (env : StartEnv) (s : State), (s.canon = true) ∧ (s.still) ∧ (s.noSources) ∧ (s.harts = []) ∧ (s.net = []) ∧ (s.pins.fatal = false) ∧ (s.fox.waits = 2)) ∧
    (∃ (env : StartEnv) (s : State), (s.canon = true) ∧ (s.still) ∧ (s.noSources) ∧ (s.harts = []) ∧ (s.net = []) ∧ (s.pins.fatal = false) ∧ (s.fox.waits = 2)) ∧
    (∃ (env : StartEnv) (s : State), (s.canon = true) ∧ (s.still) ∧ (s.noSources) ∧ (s.harts = []) ∧ (s.net = []) ∧ (s.pins.fatal = false) ∧ (s.fox.waits = 3)) ∧
    (∃ (env : StartEnv) (s : State), (s.canon = true) ∧ (s.still) ∧ (s.noSources) ∧ (s.harts = []) ∧ (s.net = []) ∧ (s.pins.fatal = false) ∧ (s.fox.waits = 3)) ∧
    (∃ (q : Requester) (env : StartEnv) (s : State), (s.need = {}) ∧ (s.writer q) ∧ (s.canon = true) ∧ ((isLark q = true ∨ (Run.start s).isMonitor q = true)) ∧ ((∀ f, q ≠ .phlox f)) ∧ (q ≠ .fox) ∧ (s.fld ERR_FATAL_COLD = 0) ∧ (s.fld TBASE_STAT_REFOK = 0)) ∧
    (∃ (k : Fin 4) (env : StartEnv) (s : State), (s.need = {}) ∧ (s.writer (.lark k)) ∧ (s.canon = true) ∧ (s.fld ERR_FATAL_COLD = 0) ∧ (s.fld TBASE_STAT_REFOK = 1)) ∧
    (∃ (env : StartEnv) (s : State), (s.need = {}) ∧ (s.canon = true) ∧ (s.pins.fatal = true) ∧ (s.fld ERR_FATAL_COLD = 0) ∧ (s.fld (ERR_CFG_FATALWARM 16) ≠ 0) ∧ (s.fld TBASE_STAT_REFOK = 0)) :=
  ⟨⟨{ (put s0 [(FOX_CFGLOCK_LOCK, 1)]) with free := 4, pins := { porst := false, thermtrip := true }, fox := { svn := 4, epoch := 3, ready := true }, net := [{ kind := .rdS, src := .die 0, dst := .die 1, line := 5 }] }, by decide +kernel⟩,
   ⟨true, 2, State.reset, by decide +kernel⟩,
   ⟨⟨0, 0, [], [], 6, true⟩, { State.reset with pins := { porst := false } }, by decide +kernel⟩,
   ⟨⟨1, 0, [], [], 6, true⟩, { State.reset with pins := { porst := false } }, by decide +kernel⟩,
   ⟨⟨0, 0, [], [], 6, true⟩, put { { State.reset with pins := { porst := false } } with fox := { waits := 2 } } [(FOX_START_SLOTB, 1), (FOX_START_CAUSE, 0xD)], by decide +kernel⟩,
   ⟨⟨0, 0, [], [], 6, true⟩, put { { State.reset with pins := { porst := false } } with fox := { waits := 2 } } [(FOX_START_SLOTB, 1), (FOX_START_CAUSE, 0x3)], by decide +kernel⟩,
   ⟨⟨0, 0, [], [], 6, true⟩, put { { State.reset with pins := { porst := false } } with fox := { waits := 2, failed := 3 } } [(FOX_START_SLOTB, 1), (FOX_START_CAUSE, 0x3)], by decide +kernel⟩,
   ⟨⟨0, 0, [], [], 6, true⟩, put { { State.reset with pins := { porst := false } } with fox := { waits := 3 } } [(FOX_START_SLOTB, 1), (FOX_START_CAUSE, 0xD)], by decide +kernel⟩,
   ⟨⟨0, 0, [], [], 6, true⟩, put { { State.reset with pins := { porst := false } } with fox := { waits := 3 } } [(FOX_START_SLOTB, 1)], by decide +kernel⟩,
   ⟨.lark 0, ⟨0, 0, [], [], 6, true⟩, put { s0 with fox := { s0.fox with ready := true } } [(FOX_CFGLOCK_LOCK, 1), (TBASE_COUNT_COUNT, 77)], by decide +kernel⟩,
   ⟨0, ⟨0, 0, [], [], 6, true⟩, put { s0 with fox := { s0.fox with ready := true } } [(FOX_CFGLOCK_LOCK, 1), (TBASE_COUNT_COUNT, 77), (FOX_START_PREFB, 1), (TBASE_STAT_REFOK, 1)], by decide +kernel⟩,
   ⟨⟨0, 0, [], [], 6, true⟩, put { s0 with pins := { s0.pins with fatal := true } } [(ERR_FATAL_V, 1), (ERR_CFG_FATALWARM 16, 3), (TBASE_COUNT_COUNT, 77)], by decide +kernel⟩⟩

theorem wit_StartStepsComplete :
    (∃ (s : State), (s.startsAt 7) ∧ (((List.range 16).any fun d => s.fld (RLINK_STAT_STATE d) == 3) = true)) ∧
    (∃ (s : State), (s.startsAt 7)) ∧
    (∃ (step : Nat) (s : State), ((step = 8 ∨ step = 9)) ∧ (s.startsAt step)) ∧
    (∃ (step : Nat) (s : State), ((step = 8 ∨ step = 9)) ∧ (s.startsAt step)) ∧
    (∃ (k : Fin 4) (code : BitVec 8) (step : Nat) (s : State), ((step = 8 ∨ step = 9)) ∧ (s.startsAt step) ∧ (s.writer (.lark k))) ∧
    (∃ (k : Fin 4) (s : State), (s.startsAt 8) ∧ (s.writer (.lark k)) ∧ (s.fld FOX_START_DRAMRDY = 0) ∧ (s.fox.boot = none)) ∧
    (∃ (x : VRec) (s : State), (s.startsAt 9) ∧ (s.fld SEC_CFG_MONVALID = 0) ∧ (findRec (Run.start s).records 0x19 = some x) ∧ (findRec (Run.start s).records 4 = none) ∧ (x.bytes.length ≤ 168) ∧ ((Run.start s).monOk x.bytes = true) ∧ (s.fox.boot = none) ∧ (s.fox.made = false)) ∧
    (∃ (k : Fin 4) (s : State), (s.still) ∧ (s.writer (.lark k)) ∧ (s.fld FOX_CFGLOCK_LOCK = 0)) :=
  ⟨⟨put { { State.reset with pins := { porst := false } } with fox := { waits := 0 } } [(FOX_START_STEP, 7), (RLINK_STAT_STATE 0, 3), (RLINK_STAT_STATE 1, 2)], by decide +kernel⟩,
   ⟨put { { State.reset with pins := { porst := false } } with fox := { waits := 0 } } [(FOX_START_STEP, 7), (FOX_START_SLOTB, 1), (FOX_CFGLOCK_LOCK, 1)], by decide +kernel⟩,
   ⟨8, put { { State.reset with pins := { porst := false } } with fox := { waits := 0 } } [(FOX_START_STEP, 8)], by decide +kernel⟩,
   ⟨9, put { { State.reset with pins := { porst := false } } with fox := { waits := 0 } } [(FOX_START_STEP, 9)], by decide +kernel⟩,
   ⟨1, 0x55, 8, put { { State.reset with pins := { porst := false } } with fox := { waits := 0, ready := true } } [(FOX_START_STEP, 8)], by decide +kernel⟩,
   ⟨1, put { { State.reset with pins := { porst := false } } with fox := { waits := 0, ready := true } } [(FOX_START_STEP, 8)], by decide +kernel⟩,
   ⟨⟨0x19, 0, bytesLE 56 0x80400000870000008040000000000000804000000000000080500000000000050000020700000000000000000000003800010019⟩, put { { State.reset with pins := { porst := false } } with fox := { waits := 0, ready := true, image := some (bytesLE 64 0x4000004c00440000000000000 ++ List.replicate 1024 0 ++ bytesLE 128 0x80400000870000008040000000000000804000000000000080500000000000050000020700000000000000000000003800010019000000000000000000000000000000000000000000000000000000200001000300000000000000000000000000000000000000180001000200000000000000000000001000010001) } } [(FOX_START_STEP, 9), (SAD_RANGE_BASE_EN 0, 1), (SAD_RANGE_BASE_BASE 0, 2), (SAD_RANGE_LIMIT_LIMIT 0, 65)], by decide +kernel⟩,
   ⟨1, put { { State.reset with pins := { porst := false } } with fox := { waits := 0, ready := true, image := some (bytesLE 64 0x4000004c00440000000000000 ++ List.replicate 1024 0 ++ bytesLE 128 0x80400000870000008040000000000000804000000000000080500000000000050000020700000000000000000000003800010019000000000000000000000000000000000000000000000000000000200001000300000000000000000000000000000000000000180001000200000000000000000000001000010001) } } [(FOX_START_STEP, 8)], by decide +kernel⟩⟩

theorem wit_PortsAnswer :
    (∃ (s : State), (s.still) ∧ (s.pins.porst = false) ∧ (s.fox.stopped = false) ∧ (s.fld TBASE_STAT_REFOK = 1)) ∧
    (∃ (s : State), (s.still) ∧ (s.pins.porst = false) ∧ (s.fox.stopped = false) ∧ (s.fld TBASE_STAT_REFOK = 1)) ∧
    (∃ (off : BitVec 16) (len : BitVec 16) (s : State), (s.still) ∧ (s.pins.porst = false) ∧ (s.fox.stopped = false) ∧ (s.fld TBASE_STAT_REFOK = 1)) ∧
    (∃ (off : BitVec 16) (len : BitVec 16) (s : State), (s.still) ∧ (s.pins.porst = false) ∧ (s.fox.stopped = false) ∧ (s.fld TBASE_STAT_REFOK = 1)) ∧
    (∃ (nonce : BitVec 256) (s : State), (s.still) ∧ (s.pins.porst = false) ∧ (s.fox.stopped = false) ∧ (s.fld TBASE_STAT_REFOK = 1) ∧ (s.fld DEVID_STAT_VALID = 1)) ∧
    (∃ (op : Fin 19) (nonce : BitVec 256) (s : State), (s.still) ∧ (s.pins.porst = false) ∧ (s.fox.stopped = false) ∧ (s.fld TBASE_STAT_REFOK = 1) ∧ (op ≠ 0)) ∧
    (∃ (op : Fin 19) (nonce : BitVec 256) (s : State), (s.still) ∧ (s.pins.porst = false) ∧ (s.fox.stopped = false) ∧ (s.fld TBASE_STAT_REFOK = 1) ∧ (op ≠ 0)) ∧
    (∃ (op : Fin 19) (nonce : BitVec 256) (s : State), (s.still) ∧ (s.pins.porst = false) ∧ (s.fox.stopped = false) ∧ (s.fld TBASE_STAT_REFOK = 1) ∧ (op ≠ 0)) ∧
    (∃ (code : BitVec 8) (s : State), (s.still) ∧ (s.pins.porst = false) ∧ (s.fox.stopped = false) ∧ (s.fld TBASE_STAT_REFOK = 1)) ∧
    (∃ (ir : BitVec 8) (s : State), (s.still) ∧ ((Run.start s).tapOff = false) ∧ (s.fox.ir ∉ [0x03, 0x04, 0x05]) ∧ ((Run.start s).tapMay (tapListed ir) = true)) ∧
    (∃ (ir : BitVec 8) (s : State), (s.still) ∧ ((Run.start s).tapOff = false) ∧ (s.fox.ir ∉ [0x03, 0x04, 0x05]) ∧ ((Run.start s).tapMay (tapListed ir) = true)) ∧
    (∃ (ir : BitVec 8) (s : State), (s.still) ∧ ((Run.start s).tapOff = false) ∧ (s.fox.ir ∉ [0x03, 0x04, 0x05]) ∧ ((Run.start s).tapMay (tapListed ir) = true)) ∧
    (∃ (b : Byte) (s : State), (s.still) ∧ ((Run.start s).tapOff = false) ∧ (s.fox.ir = 0x21) ∧ (s.fox.token.length + 1 < 1088)) ∧
    (∃ (b : Byte) (s : State), (s.still) ∧ (s.noSources) ∧ ((Run.start s).tapOff = false) ∧ (s.fox.ir = 0x21) ∧ (1088 ≤ s.fox.token.length + 1) ∧ (s.fox.token.length + 1 = tokenLen (s.fox.token ++ [b]))) ∧
    (∃ (h : Fin 1024) (s : State), (s.free_ h) ∧ ((Run.start s).tapOff = false) ∧ (s.fox.ir = 0x11) ∧ (s.fox.rights.getLsbD 0 = true) ∧ ((s.hart h).eid = 0) ∧ ((s.hart h).mode ≠ .debug)) ∧
    (∃ (h : Fin 1024) (s : State), (s.still) ∧ (s.undisturbed h) ∧ ((Run.start s).tapOff = false) ∧ (s.fox.ir = 0x11) ∧ (s.fox.rights.getLsbD 0 = true) ∧ ((s.hart h).eid = 0) ∧ ((s.hart h).run = .debug)) :=
  ⟨⟨s1, by decide +kernel⟩,
   ⟨s1, by decide +kernel⟩,
   ⟨0, 100, s1, by decide +kernel⟩,
   ⟨5, 100, s1, by decide +kernel⟩,
   ⟨9, put s1 [(DEVID_STAT_VALID, 1)], by decide +kernel⟩,
   ⟨1, 9, s1, by decide +kernel⟩,
   ⟨17, 9, s1, by decide +kernel⟩,
   ⟨18, 9, s1, by decide +kernel⟩,
   ⟨0x33, s1, by decide +kernel⟩,
   ⟨0x01, s1, by decide +kernel⟩,
   ⟨0x21, { s1 with fox := { s1.fox with token := [5] } }, by decide +kernel⟩,
   ⟨0x77, s1, by decide +kernel⟩,
   ⟨9, { s1 with fox := { s1.fox with ir := 0x21, token := [5] } }, by decide +kernel⟩,
   ⟨9, { s1 with fox := { s1.fox with ir := 0x21, token := List.replicate 1087 0 } }, by decide +kernel⟩,
   ⟨0, { s1 with fox := { s1.fox with ir := 0x11, rights := 1 } }, by decide +kernel⟩,
   ⟨0, { s1 with harts := [(0, { run := .debug, mode := .debug, pc := 0x80000000 })], fox := { s1.fox with ir := 0x11, rights := 1 } }, by decide +kernel⟩⟩

theorem wit_SetPointsAndSteps :
    (∃ (m : WeirMeas) (s : State), (s.still) ∧ (s.noSources) ∧ (s.pins.porst = false) ∧ (s.pins.fatal = false) ∧ ((Run.start s).count % 1024 = 0) ∧ ((Run.start s).count ≠ s.weir.window)) ∧
    (∃ (m : WeirMeas) (s : State), (s.still) ∧ (s.noSources) ∧ (s.pins.porst = false) ∧ (s.pins.fatal = false) ∧ ((Run.start s).count % 1024 = 0) ∧ ((Run.start s).count ≠ s.weir.window)) ∧
    (∃ (q : Requester) (v : Word) (s : State), (s.still) ∧ (s.writer q) ∧ (100 ≤ Word.bits v 9 0) ∧ (Word.bits v 9 0 ≤ s.fld WEIR_CFG_PCEILMAX) ∧ (70 ≤ Word.bits v 23 16) ∧ (Word.bits v 23 16 ≤ 100)) ∧
    (∃ (q : Requester) (v : Word) (s : State), (s.still) ∧ (s.writer q) ∧ ((Word.bits v 9 0 < 100 ∨ s.fld WEIR_CFG_PCEILMAX < Word.bits v 9 0 ∨ Word.bits v 23 16 < 70 ∨
    100 < Word.bits v 23 16))) ∧
    (∃ (q : Requester) (v : Word) (s : State), (s.still) ∧ (s.writer q) ∧ ((Word.bits v 9 0 < 100 ∨ s.fld WEIR_CFG_PCEILMAX < Word.bits v 9 0 ∨ Word.bits v 23 16 < 70 ∨
    100 < Word.bits v 23 16))) ∧
    (∃ (s : State), (s.still) ∧ (s.pins.fatal = false) ∧ ((Run.start s).avsTries = true) ∧ (s.weir.avs = none) ∧ (s.weir.target ≠ 0) ∧ ((s.weir.target < (Run.start s).setPoint ∨ (Run.start s).setPoint < s.weir.target ∧ (Run.start s).setPoint + 5 ≤ s.weir.allow)) ∧ ((Run.start s).setPoint ≤ 950)) ∧
    (∃ (s : State), (s.still) ∧ (s.pins.fatal = false) ∧ ((Run.start s).avsTries = true) ∧ (s.weir.avs = none) ∧ (s.weir.target ≠ 0) ∧ ((s.weir.target < (Run.start s).setPoint ∨ (Run.start s).setPoint < s.weir.target ∧ (Run.start s).setPoint + 5 ≤ s.weir.allow)) ∧ ((Run.start s).setPoint ≤ 950)) ∧
    (∃ (s : State), (s.still) ∧ (s.noSources) ∧ (s.pins.fatal = false) ∧ (s.pins.porst = false) ∧ (s.fld TBASE_STAT_REFOK = 1) ∧ (s.weir.failing = false) ∧ (s.weir.retries = 3) ∧ (s.weir.avs = none) ∧ (s.weir.target ≠ 0) ∧ (s.weir.target < (Run.start s).setPoint) ∧ (s.freeSlot .weir 1)) ∧
    (∃ (x : Nat) (s : State), (s.still) ∧ (s.weir.avs = some x) ∧ (s.weir.target ≤ (Run.start s).setPoint)) ∧
    (∃ (v : BitVec 10) (i : BitVec 9) (s : State), (s.still) ∧ ((Run.start s).avsTries = true)) ∧
    (∃ (x : Nat) (d : Bool) (s : State), (s.still) ∧ ((Run.start s).avsTries = true) ∧ (s.weir.avs = some x) ∧ (s.weir.target ≤ (Run.start s).setPoint)) ∧
    (∃ (x : Nat) (d : Bool) (s : State), (s.still) ∧ ((Run.start s).avsTries = true) ∧ (s.weir.avs = some x) ∧ (s.weir.target ≤ (Run.start s).setPoint)) ∧
    (∃ (q : StepReq) (recent : Nat) (s : State), (s.still) ∧ (s.weir.phase = 0) ∧ (s.weir.next = [q]) ∧ ((∀ d < 336, s.fld (DOM_STAT_STATE d) ≠ 1))) ∧
    (∃ (q : StepReq) (recent : Nat) (s : State), (s.still) ∧ (s.weir.phase = 0) ∧ (s.weir.next = [q]) ∧ ((∀ d < 336, s.fld (DOM_STAT_STATE d) ≠ 1))) ∧
    (∃ (s : State), (s.still) ∧ (s.weir.phase = 2)) ∧
    (∃ (n : Fin 256) (s : State), (s.still) ∧ (s.weir.phase = 3) ∧ (s.weir.step = [.wake (domTile n)]) ∧ (s.fld (DOM_STAT_STATE (domTile n)) = 1) ∧ ((∀ k < 4, s.undisturbed (n * 4 + k)))) ∧
    (∃ (mv : Nat) (s : State), (s.still) ∧ (s.weir.phase = 3) ∧ (s.weir.step = [.set mv])) ∧
    (∃ (s : State), (s.still) ∧ (s.noSources) ∧ (s.pins.porst = false) ∧ (s.weir.vrhot = none)) ∧
    (∃ (c : Nat) (s : State), (s.still) ∧ (s.weir.vrhot = some c)) ∧
    (∃ (c : Nat) (s : State), (s.still) ∧ (s.weir.vrhot = some c)) :=
  ⟨⟨⟨4 * 30, 40, 300, 200, 100⟩, put { s1 with weir := { bound := some 0x640258 } } [(TMON_TEMP_TJ 0, 400), (TMON_RATE_CAP 0, 0xFFFF), (TMON_RATE_CAP 1, 0xFFFF), (TMON_PROC_PCODE 0, 30), (TMON_PROC_PCODE 1, 30)], by decide +kernel⟩,
   ⟨⟨4 * 100, 40, 900, 700, 600⟩, s1, by decide +kernel⟩,
   ⟨.hart 0, 0x4600C8, s1, by decide +kernel⟩,
   ⟨.hart 0, 0x460010, s1, by decide +kernel⟩,
   ⟨.fox, 0x6600C8, s1, by decide +kernel⟩,
   ⟨put { s1 with weir := { target := 600 } } [], by decide +kernel⟩,
   ⟨put { s1 with weir := { target := 900, allow := 805 } } [], by decide +kernel⟩,
   ⟨put { s1 with weir := { target := 600, retries := 3 } } [], by decide +kernel⟩,
   ⟨805, put { s1 with weir := { avs := some 805 } } [], by decide +kernel⟩,
   ⟨700, 100, s1, by decide +kernel⟩,
   ⟨805, true, put { s1 with weir := { avs := some 805 } } [], by decide +kernel⟩,
   ⟨805, false, put { s1 with weir := { avs := some 805 } } [], by decide +kernel⟩,
   ⟨.cap 0 9, 0, put { s1 with weir := { next := [.cap 0 9] } } [], by decide +kernel⟩,
   ⟨.set 805, 60000000, put { s1 with weir := { next := [.set 805] } } [], by decide +kernel⟩,
   ⟨put { s1 with weir := { phase := 2, step := [.lift] } } [], by decide +kernel⟩,
   ⟨2, put { s1 with weir := { phase := 3, step := [.wake (domTile 2)] } } [(DOM_STAT_STATE 2, 1), (WEIR_STAT_SPATE, 1)], by decide +kernel⟩,
   ⟨805, put { s1 with weir := { phase := 3, step := [.set 805] } } [], by decide +kernel⟩,
   ⟨s1, by decide +kernel⟩,
   ⟨9, put { s1 with weir := { vrhot := some 9 } } [], by decide +kernel⟩,
   ⟨9, put { s1 with weir := { vrhot := some 9, next := [.lift] } } [], by decide +kernel⟩⟩

theorem wit_DomainsAndRails :
    (∃ (n : Fin 256) (s : State), (s.still) ∧ ((Run.start s).mayGate (domTile n) = true)) ∧
    (∃ (dom : Fin 404) (s : State), (s.still) ∧ (s.fld (DOM_STAT_STATE dom) = 0) ∧ ((Run.start s).mayGate dom = true) ∧ ((dom.val < 336 ∧ dom.val % 21 < 16 → (Run.start s).hintAllows (dom / 21 * 16 + dom % 21) = true))) ∧
    (∃ (dom : Fin 404) (s : State), (s.still) ∧ (s.fld (DOM_STAT_STATE dom) = 2) ∧ ((Run.start s).mayGate dom = true) ∧ (¬ (dom.val < 336 ∧ dom.val % 21 < 16)) ∧ (s.weir.hold = none)) ∧
    (∃ (n : Fin 256) (s : State), (s.still) ∧ (s.canon = true) ∧ (s.noSources) ∧ (s.fld (DOM_STAT_STATE (domTile n)) = 2) ∧ ((Run.start s).mayGate (domTile n) = true) ∧ (s.weir.hold = some (domTile n)) ∧ (s.tile n = {}) ∧ (s.l1i = []) ∧ (s.l1d = []) ∧ (s.l2 = []) ∧ ((∀ k < 4, (s.hart (n * 4 + k)).ncOut = [])) ∧ (s.noSwop)) ∧
    (∃ (q : Requester) (n : Fin 256) (s : State), (s.still) ∧ (s.writer q) ∧ (s.noSources) ∧ (s.fld WEIR_DOMCMD_BUSY = 0) ∧ (((Run.start s).normal q && (Run.start s).secureHeld (domTile n)) = false) ∧ ((∀ k < 4, (s.hart (n * 4 + k)).run = .held)) ∧ (s.fld (DOM_STAT_STATE (domTile n)) ≠ 1)) ∧
    (∃ (q : Requester) (n : Fin 256) (s : State), (s.still) ∧ (s.writer q) ∧ (s.noSources) ∧ (s.fld WEIR_DOMCMD_BUSY = 0) ∧ (((Run.start s).normal q && (Run.start s).secureHeld (domTile n)) = false) ∧ ((∀ k < 4, (s.hart (n * 4 + k)).run = .held)) ∧ (s.fld (DOM_STAT_STATE (domTile n)) ≠ 1)) ∧
    (∃ (q : Requester) (dom : Fin 404) (s : State), (s.still) ∧ (s.writer q) ∧ (s.noSources) ∧ (s.fld WEIR_DOMCMD_BUSY = 0) ∧ ((336 ≤ dom.val ∧ dom.val < 360 → (s.chan (dom - 336)).held = [])) ∧ ((dom.val < 336 → ∀ k < 4, s.undisturbed (dom / 21 * 64 + dom % 21 * 4 + k)))) ∧
    (∃ (q : Requester) (dom : Fin 404) (s : State), (s.still) ∧ (s.writer q) ∧ (s.noSources) ∧ (s.fld WEIR_DOMCMD_BUSY = 0) ∧ ((336 ≤ dom.val ∧ dom.val < 360 → (s.chan (dom - 336)).held = [])) ∧ ((dom.val < 336 → ∀ k < 4, s.undisturbed (dom / 21 * 64 + dom % 21 * 4 + k)))) ∧
    (∃ (q : Requester) (dom : Fin 404) (s : State), (s.still) ∧ (s.writer q) ∧ (s.noSources) ∧ (s.fld WEIR_DOMCMD_BUSY = 0) ∧ ((336 ≤ dom.val ∧ dom.val < 360 → (s.chan (dom - 336)).held = [])) ∧ ((dom.val < 336 → ∀ k < 4, s.undisturbed (dom / 21 * 64 + dom % 21 * 4 + k)))) ∧
    (∃ (q : Requester) (dom : Fin 404) (s : State), (s.still) ∧ (s.writer q) ∧ (s.noSources) ∧ (s.fld WEIR_DOMCMD_BUSY = 0) ∧ (336 ≤ dom.val) ∧ (dom.val < 392) ∧ (((Run.start s).normal q && (Run.start s).secureHeld dom) = false) ∧ ((if dom.val < 360 then s.fld (MC_STATUS_SR (dom - 336)) = 1 else s.fld (G_CFG_EN (dom - 360)) = 0)) ∧ (s.fld (DOM_STAT_STATE dom) = 0)) ∧
    (∃ (q : Requester) (dom : Fin 404) (s : State), (s.still) ∧ (s.writer q) ∧ (s.noSources) ∧ (s.fld WEIR_DOMCMD_BUSY = 0) ∧ (336 ≤ dom.val) ∧ (dom.val < 392) ∧ (((Run.start s).normal q && (Run.start s).secureHeld dom) = false) ∧ ((if dom.val < 360 then s.fld (MC_STATUS_SR (dom - 336)) = 1 else s.fld (G_CFG_EN (dom - 360)) = 0)) ∧ (s.fld (DOM_STAT_STATE dom) = 0)) ∧
    (∃ (n : Fin 256) (v : BitVec 10) (s : State), (s.still) ∧ (s.noSources) ∧ (v.toNat < 480) ∧ ((Run.start s).tileOn n = true) ∧ ((s.tile n).halted = false) ∧ (s.weir.haltSeen = false) ∧ (s.freeSlot .weir 0) ∧ ((∀ q < 4, (s.quad (dieOf n * 4 + q)).waiting = []))) ∧
    (∃ (n : Fin 256) (v : BitVec 10) (s : State), (s.still) ∧ (500 ≤ v.toNat) ∧ ((s.tile n).halted = true) ∧ ((∀ k < 4, s.undisturbed (n * 4 + k)))) ∧
    (∃ (n : Fin 256) (s : State), (s.still) ∧ (s.noSources) ∧ ((Run.start s).tileOn n = true) ∧ (s.online (dieOf n) = true) ∧ ((∀ k < 256, (Run.start s).tileOn k = true → s.online (dieOf k) = true → (s.tile k).halted = true)) ∧ (s.freeSlot .weir 1)) ∧
    (∃ (d : Fin 16) (s : State), (s.canon = true) ∧ (s.still) ∧ (s.noSources) ∧ (s.net = []) ∧ (s.harts = []) ∧ (s.fld (RLINK_STAT_STATE d) ≠ 6) ∧ (s.fld (RLINK_RESET_BUSY d) = 0) ∧ (s.fld (RLINK_FAULTMAP_RSTA d) = 0)) ∧
    (∃ (s : State), (s.still) ∧ (s.noSources) ∧ (s.canon = true) ∧ (s.fld ERR_FATAL_V = 0)) ∧
    (∃ (s : State), (s.still) ∧ (s.noSources) ∧ (s.fld ERR_FATAL_V = 0)) :=
  ⟨⟨1, s0, by decide +kernel⟩,
   ⟨1, s0, by decide +kernel⟩,
   ⟨402, put s0 [(DOM_STAT_STATE 402, 2), (DOM_STAT_STATE (domQuad 0 2), 3)], by decide +kernel⟩,
   ⟨1, put { s0 with weir := { hold := some 1 }, harts := [(0, { run := .running, pc := 0x80000000 }), (5, { tlb := [], resv := some 5 })] } [(DOM_STAT_STATE 1, 2), (WEIR_DOMCMD_BUSY, 1)], by decide +kernel⟩,
   ⟨.hart 0, 1, s0, by decide +kernel⟩,
   ⟨.hart 0, 2, s0, by decide +kernel⟩,
   ⟨.hart 0, 2, put s0 [(DOM_STAT_HOLD 2, 1)], by decide +kernel⟩,
   ⟨.lark 0, 337, put { s0 with fox := { s0.fox with ready := true } } [(DOM_STAT_HOLD 337, 1)], by decide +kernel⟩,
   ⟨.hart 0, 403, put s0 [(DOM_STAT_HOLD 403, 1)], by decide +kernel⟩,
   ⟨.hart 0, 336, put s0 [(MC_STATUS_SR 0, 1)], by decide +kernel⟩,
   ⟨.fox, 361, put s0 [(DOM_STAT_STATE 361, 0)], by decide +kernel⟩,
   ⟨1, 470, s0, by decide +kernel⟩,
   ⟨1, 510, { s0 with tiles := [(1, { halted := true })] }, by decide +kernel⟩,
   ⟨1, { s0 with tiles := [(0, { halted := true }), (1, { halted := true })] }, by decide +kernel⟩,
   ⟨0, put { State.reset with pins := { porst := false } } [(RLINK_STAT_STATE 0, 4)], by decide +kernel⟩,
   ⟨{ s0 with chans := [], slices := [(1, { shadow := [(0, 5, .S)] })] }, by decide +kernel⟩,
   ⟨s0, by decide +kernel⟩⟩

theorem wit_ReservedSadTargetsAreIgnored :
    (∃ (q : Requester) (n : Fin 32) (half : Half) (v : Word) (s : State), (s.still) ∧ (s.writer q) ∧ (s.fld FOX_CFGLOCK_LOCK = 0) ∧ ((half = .full ∨ half = .high)) ∧ ((Word.bits v 62 61 = 3 ∨ Word.bits v 62 61 = 0 ∧ 16 ≤ Word.bits v 60 56 ∨ Word.bits v 62 61 = 1 ∧ 4 ≤ Word.bits v 60 56))) ∧
    (∃ (q : Requester) (n : Fin 32) (half : Half) (v : Word) (s : State), (s.still) ∧ (s.writer q) ∧ (s.fld FOX_CFGLOCK_LOCK = 0) ∧ ((half = .full ∨ half = .high)) ∧ ((Word.bits v 62 61 = 3 ∨ Word.bits v 62 61 = 0 ∧ 16 ≤ Word.bits v 60 56 ∨ Word.bits v 62 61 = 1 ∧ 4 ≤ Word.bits v 60 56))) ∧
    (∃ (q : Requester) (n : Fin 32) (half : Half) (v : Word) (s : State), (s.still) ∧ (s.writer q) ∧ (s.fld FOX_CFGLOCK_LOCK = 0) ∧ ((half = .full ∨ half = .high)) ∧ ((Word.bits v 62 61 = 3 ∨ Word.bits v 62 61 = 0 ∧ 16 ≤ Word.bits v 60 56 ∨ Word.bits v 62 61 = 1 ∧ 4 ≤ Word.bits v 60 56))) ∧
    (∃ (q : Requester) (n : Fin 32) (half : Half) (v : Word) (s : State), (s.still) ∧ (s.canon = true) ∧ ((half = .full ∨ half = .high)) ∧ ((Word.bits v 62 61 = 3 ∨ Word.bits v 62 61 = 0 ∧ 16 ≤ Word.bits v 60 56 ∨ Word.bits v 62 61 = 1 ∧ 4 ≤ Word.bits v 60 56))) ∧
    (∃ (q : Requester) (n : Fin 32) (half : Half) (v : Word) (s : State), (s.still) ∧ (s.canon = true) ∧ ((half = .full ∨ half = .high)) ∧ ((Word.bits v 62 61 = 3 ∨ Word.bits v 62 61 = 0 ∧ 16 ≤ Word.bits v 60 56 ∨ Word.bits v 62 61 = 1 ∧ 4 ≤ Word.bits v 60 56))) ∧
    (∃ (q : Requester) (n : Fin 32) (half : Half) (v : Word) (s : State), (s.still) ∧ (s.canon = true) ∧ ((half = .full ∨ half = .high)) ∧ ((Word.bits v 62 61 = 3 ∨ Word.bits v 62 61 = 0 ∧ 16 ≤ Word.bits v 60 56 ∨ Word.bits v 62 61 = 1 ∧ 4 ≤ Word.bits v 60 56))) :=
  ⟨⟨.fox, 3, .full, 0xE000000000000000, s0, by decide +kernel⟩,
   ⟨.hart 0, 0, .high, 0x9F00000000000000, s0, by decide +kernel⟩,
   ⟨.hart 0, 0, .full, 0xA700000000000000, s0, by decide +kernel⟩,
   ⟨.hart 0, 0, .high, 0x9F00000000000000, put s0 [(FOX_CFGLOCK_LOCK, 1)], by decide +kernel⟩,
   ⟨.fox, 31, .full, 0xE000000000000000, s0, by decide +kernel⟩,
   ⟨.peer 2, 7, .full, 0xA700000000000000, s0, by decide +kernel⟩⟩

theorem wit_DieResetSupersedes :
    (∃ (d : Fin 16) (cause : Fin 8) (s : State), (s.fld (RLINK_STAT_STATE d) ≠ 6) ∧ (s.fld (RLINK_RESET_BUSY d) = 1) ∧ (s.fld (RLINK_RESET_KIND d) = 1)) ∧
    (∃ (d : Fin 16) (cause : Nat) (s : State), (s.fld (RLINK_STAT_STATE d) = 6)) ∧
    (∃ (d : Fin 16) (k : Fin 4) (s : State), (s.still) ∧ (s.fld (RLINK_STAT_STATE d) = 6)) ∧
    (∃ (d : Fin 16) (k : Fin 4) (env : StartEnv) (s : State), (s.need = {}) ∧ (s.writer (.lark k)) ∧ (s.canon = true) ∧ (s.fld ERR_FATAL_COLD = 0) ∧ (s.fld TBASE_STAT_REFOK = 0)) :=
  ⟨⟨3, 2, put s0 [(RLINK_STAT_STATE 3, 4), (RLINK_RESET_BUSY 3, 1), (RLINK_RESET_KIND 3, 1)], by decide +kernel⟩,
   ⟨3, 2, put s0 [(RLINK_STAT_STATE 3, 6)], by decide +kernel⟩,
   ⟨3, 1, put s0 [(RLINK_STAT_STATE 3, 6)], by decide +kernel⟩,
   ⟨3, 1, ⟨0, 0, [], [], 6, true⟩, put { s0 with fox := { s0.fox with ready := true } } [(RLINK_STAT_STATE 3, 6), (RLINK_RESET_BUSY 3, 1)], by decide +kernel⟩⟩

theorem wit_ResetRequestsAreJudged :
    (∃ (q : Requester) (d : Fin 16) (v : Word) (s : State), (s.still) ∧ (s.writer q) ∧ (s.canon = true) ∧ (v.getLsbD 63 = true) ∧ ((s.fld (RLINK_RESET_BUSY d) = 1 ∨ 2 ≤ Word.bits v 57 56 ∨ Word.bits v 57 56 = 1 ∧ (Word.bits v 15 0 = 0 ∨ s.fld (RLINK_STAT_STATE d) ≠ 4)))) ∧
    (∃ (q : Requester) (d : Fin 16) (v : Word) (s : State), (s.still) ∧ (s.writer q) ∧ (s.canon = true) ∧ (v.getLsbD 63 = true) ∧ ((s.fld (RLINK_RESET_BUSY d) = 1 ∨ 2 ≤ Word.bits v 57 56 ∨ Word.bits v 57 56 = 1 ∧ (Word.bits v 15 0 = 0 ∨ s.fld (RLINK_STAT_STATE d) ≠ 4)))) ∧
    (∃ (q : Requester) (d : Fin 16) (v : Word) (s : State), (s.still) ∧ (s.writer q) ∧ (s.canon = true) ∧ (v.getLsbD 63 = true) ∧ ((s.fld (RLINK_RESET_BUSY d) = 1 ∨ 2 ≤ Word.bits v 57 56 ∨ Word.bits v 57 56 = 1 ∧ (Word.bits v 15 0 = 0 ∨ s.fld (RLINK_STAT_STATE d) ≠ 4)))) ∧
    (∃ (q : Requester) (d : Fin 16) (v : Word) (s : State), (s.still) ∧ (s.writer q) ∧ (s.canon = true) ∧ (v.getLsbD 63 = true) ∧ ((s.fld (RLINK_RESET_BUSY d) = 1 ∨ 2 ≤ Word.bits v 57 56 ∨ Word.bits v 57 56 = 1 ∧ (Word.bits v 15 0 = 0 ∨ s.fld (RLINK_STAT_STATE d) ≠ 4)))) ∧
    (∃ (q : Requester) (d : Fin 16) (v : Word) (s : State), (s.still) ∧ (s.writer q) ∧ (s.noSources) ∧ (s.canon = true) ∧ (v.getLsbD 63 = true) ∧ (s.fld (RLINK_RESET_BUSY d) = 0) ∧ (Word.bits v 57 56 < 2) ∧ ((Word.bits v 57 56 = 1 → Word.bits v 15 0 ≠ 0 ∧ s.fld (RLINK_STAT_STATE d) = 4)) ∧ ((∀ e ∈ s.harts, e.2.eid = 0))) ∧
    (∃ (q : Requester) (d : Fin 16) (v : Word) (s : State), (s.still) ∧ (s.writer q) ∧ (s.noSources) ∧ (s.canon = true) ∧ (v.getLsbD 63 = true) ∧ (s.fld (RLINK_RESET_BUSY d) = 0) ∧ (Word.bits v 57 56 < 2) ∧ ((Word.bits v 57 56 = 1 → Word.bits v 15 0 ≠ 0 ∧ s.fld (RLINK_STAT_STATE d) = 4)) ∧ ((∀ e ∈ s.harts, e.2.eid = 0))) ∧
    (∃ (q : Requester) (d : Fin 16) (v : Word) (s : State), (s.still) ∧ (s.writer q) ∧ (s.noSources) ∧ (s.canon = true) ∧ (v.getLsbD 63 = true) ∧ (s.fld (RLINK_RESET_BUSY d) = 0) ∧ (Word.bits v 57 56 < 2) ∧ ((Word.bits v 57 56 = 1 → Word.bits v 15 0 ≠ 0 ∧ s.fld (RLINK_STAT_STATE d) = 4)) ∧ ((∀ e ∈ s.harts, e.2.eid = 0))) :=
  ⟨⟨.fox, 0, 0x8000000000000000, put s0 [(RLINK_RESET_BUSY 0, 1)], by decide +kernel⟩,
   ⟨.hart 0, 5, 0x8300000000000000, s0, by decide +kernel⟩,
   ⟨.lark 1, 15, 0x8100000000000000, put { s0 with fox := { s0.fox with ready := true } } [(RLINK_STAT_STATE 15, 4)], by decide +kernel⟩,
   ⟨.lark 1, 2, 0x8100000000000001, put { s0 with fox := { s0.fox with ready := true } } [(RLINK_STAT_STATE 2, 3)], by decide +kernel⟩,
   ⟨.fox, 0, 0x8000000000000000, s0, by decide +kernel⟩,
   ⟨.lark 3, 2, 0x810000000000C001, put { s0 with fox := { s0.fox with ready := true } } [(RLINK_STAT_STATE 2, 4)], by decide +kernel⟩,
   ⟨.hart 0, 2, 0x8100000000008001, put s0 [(RLINK_STAT_STATE 2, 4), (RLINK_RESET_TILES 2, 9)], by decide +kernel⟩⟩

theorem wit_ClassBAlarmsOnlyRecord :
    (∃ (src : Fin 8) (detail : BitVec 32) (s : State), (s.still) ∧ (s.noSources) ∧ (src ≠ 0) ∧ ((Run.start s).classA src = false) ∧ (s.freeSlot .fox 1)) ∧
    (∃ (src : Fin 8) (detail : BitVec 32) (s : State), (s.still) ∧ (s.noSources) ∧ (src ≠ 0) ∧ ((Run.start s).classA src = false) ∧ (s.freeSlot .fox 1)) ∧
    (∃ (src : Fin 8) (detail : BitVec 32) (s : State), (s.still) ∧ (s.noSources) ∧ (src ≠ 0) ∧ ((Run.start s).classA src = false) ∧ (natBit (s.fld ALARM_STAT_SEEN) (src - 1) = true)) :=
  ⟨⟨2, 77, pol (put s0 [(ALARM_STAT_NEXT, 7), (TBASE_COUNT_COUNT, 99)]) 0, by decide +kernel⟩,
   ⟨4, 77, pol (put s0 [(ALARM_STAT_NEXT, 7), (TBASE_COUNT_COUNT, 99)]) 0, by decide +kernel⟩,
   ⟨2, 77, pol (put s0 [(ALARM_STAT_NEXT, 7), (TBASE_COUNT_COUNT, 99), (ALARM_STAT_SEEN, 2)]) 0, by decide +kernel⟩⟩

theorem wit_EveryStepKeepsCanon : ∃ (s t : State), (s.canon = true) ∧ (s.poke = []) ∧ (s.need = {}) ∧ step s = .next t :=
  ⟨{ s0 with pending := [.mr4Poll 0 true] }, _, by decide +kernel, by decide +kernel, rfl, rfl⟩

theorem wit_EventsStayInTheirBlock :
    (∃ (s t : State), s.still ∧ exec (.owedRefreshIssue 0 0) s = .next t) ∧
    (∃ (s t : State), s.still ∧ exec (.tmonWindowEnd 1 1200 70 600) s = .next t) ∧
    (∃ (s t : State), s.still ∧ exec (.groupWake 2 3) s = .next t) ∧
    (∃ (s t : State), s.still ∧ exec (.rillRetrainDone 0) s = .next t) ∧
    (∃ (s t : State), s.still ∧ exec (.domainGate 5) s = .next t) ∧
    (∃ (s t : State), s.still ∧ exec (.parkHintTimeout 1) s = .next t) ∧
    (∃ (s t : State), s.still ∧ exec (.entropySourceReturn 1) s = .next t) ∧
    (∃ (s t : State), s.still ∧ (Run.start s).queueOf 1 = some ((0 : Fin 256).val, (3 : Fin 32).val) ∧ exec (.queueMoveDone 1) s = .next t) :=
  ⟨⟨s0, _, by decide +kernel, rfl⟩, ⟨s0, _, by decide +kernel, rfl⟩, ⟨s0, _, by decide +kernel, rfl⟩, ⟨s0, _, by decide +kernel, rfl⟩,
   ⟨s0, _, by decide +kernel, rfl⟩, ⟨s0, _, by decide +kernel, rfl⟩, ⟨s0, _, by decide +kernel, rfl⟩,
   ⟨put s0 [(PHLOX_QBIND_VALID 1, 1), (PHLOX_QBIND_FN 1, 0), (PHLOX_QBIND_SLOT 1, 3), (Q_CFG_BOUND 0 3, 1)], _, by decide +kernel, by decide +kernel, rfl⟩⟩

end

end Sys2Proof.Tests
end

/-! A full write of a register of the window: where it goes, and what it leaves in each field (R6, R7, R497). -/
namespace Sys2Proof.Machine

variable {s0 : State}

/-! ### Where the register families lie -/

/-- The length of the stretch of the window from a family's first register to its last. -/
def dimSpan : List (Nat × Nat) → Nat
  | [] => 1
  | (c, s) :: ds => (c - 1) * s + dimSpan ds

theorem lt_dimSpan_of_dimIndex {ds : List (Nat × Nat)} {r : Nat} {ix : List Nat} (h : dimIndex ds r = some ix) : r < dimSpan ds := by
  induction ds generalizing r ix with
  | nil =>
    simp only [dimIndex, Option.ite_none_right_eq_some] at h
    simp [dimSpan, h.1]
  | cons e ds ih =>
    obtain ⟨c, s⟩ := e
    simp only [dimIndex, Option.ite_none_right_eq_some, Option.map_eq_some_iff] at h
    obtain ⟨hc, _, hr, -⟩ := h
    have low : r % s < dimSpan ds := ih hr
    have high : r / s * s ≤ (c - 1) * s := Nat.mul_le_mul_right s (by omega)
    have split : r / s * s + r % s = r := Nat.div_add_mod' r s
    simp only [dimSpan]
    omega

/-- A register that the map finds belongs to a family of the window and lies in its stretch. -/
theorem findReg_mem {off : Nat} {f : Family} {ix : List Nat} (h : findReg off = some (f, ix)) :
    f ∈ families ∧ f.base ≤ off ∧ off < f.base + dimSpan f.dims := by
  obtain ⟨g, hg, e⟩ := List.exists_of_findSome?_eq_some h
  simp only [Option.ite_none_right_eq_some, Option.map_eq_some_iff, Prod.mk.injEq] at e
  obtain ⟨hb, _, hi, rfl, -⟩ := e
  have := lt_dimSpan_of_dimIndex hi
  exact ⟨hg, hb, by omega⟩

/-- The families lie below the configuration space (R493), and outside the areas of the APLIC, the IOMMU and the MSI-X tables (R494). -/
theorem families_placed : ∀ f ∈ families, f.base + dimSpan f.dims ≤ 0x2000000000 ∧
    (f.base + dimSpan f.dims ≤ 0x10000E0000 ∨ 0x1000100000 ≤ f.base) ∧
    (f.base + dimSpan f.dims ≤ 0x1000060000 ∨ 0x1000060400 ≤ f.base) ∧
    (f.base + dimSpan f.dims ≤ 0x1000A00000 ∨ 0x1000B00000 ≤ f.base) := by decide +kernel

theorem findReg_placed {off : Nat} {f : Family} {ix : List Nat} (h : findReg off = some (f, ix)) :
    off < 0x2000000000 ∧ ¬ (0x10000E0000 ≤ off ∧ off < 0x1000100000) ∧ ¬ (0x1000060000 ≤ off ∧ off < 0x1000060400) ∧
      ¬ (0x1000A00000 ≤ off ∧ off < 0x1000B00000) := by
  obtain ⟨hf, lo, hi⟩ := findReg_mem h
  obtain ⟨top, aplic, iommu, msix⟩ := families_placed f hf
  omega

/-! ### What a full write leaves in a field -/

/-- Two fields of a register share no bit. -/
abbrev Field.apart (x y : Field) : Prop := x.hi < y.lo ∨ y.hi < x.lo

/-- The fields of every register lie apart, within its 64 bits and among its implemented ones. -/
theorem families_fields : ∀ f ∈ families, f.fields.Pairwise Field.apart ∧ ∀ x ∈ f.fields,
    x.lo ≤ x.hi ∧ x.hi < 64 ∧ fieldMask x.hi x.lo &&& fieldsMask f.fields = fieldMask x.hi x.lo := by decide +kernel

theorem applyFields_cons (x : Field) (fs : List Field) (w v mask : Word) (rwl rwq : Bool) :
    applyFields (x :: fs) w v mask rwl rwq = applyFields fs (applyFields [x] w v mask rwl rwq) v mask rwl rwq := rfl

/-- A field reads the same in two words just where they agree on its bits. -/
theorem Word.bits_eq_iff {w w' : Word} {hi lo : Nat} (hl : lo ≤ hi) :
    Word.bits w hi lo = Word.bits w' hi lo ↔ ∀ i, lo ≤ i → i ≤ hi → w.getLsbD i = w'.getLsbD i := by
  constructor
  · intro h i h1 h2
    have inside : i - lo < hi - lo + 1 := by omega
    have at_ := congrArg (fun n => n.testBit (i - lo)) h
    simpa [Word.bits_bit, inside, Nat.add_sub_cancel' h1, -BitVec.getLsbD_eq_getElem] using at_
  · intro h
    apply Nat.eq_of_testBit_eq
    intro i
    rw [Word.bits_bit, Word.bits_bit]
    by_cases inside : i < hi - lo + 1
    · rw [h (lo + i) (by omega) (by omega)]
    · simp [inside]

/-- A field's write leaves the bits outside the field. -/
theorem applyFields_one_bit_outside (x : Field) (w v mask : Word) (rwl rwq : Bool) (hl : x.lo ≤ x.hi) (hh : x.hi < 64) {i : Nat}
    (hi : i < x.lo ∨ x.hi < i) (h64 : i < 64) : (applyFields [x] w v mask rwl rwq).getLsbD i = w.getLsbD i := by
  have out : (fieldMask x.hi x.lo).getLsbD i = false := by
    rw [fieldMask_bit hh hl]
    simp only [Bool.and_eq_false_iff, decide_eq_false_iff_not]
    omega
  simp only [applyFields, List.foldl_cons, List.foldl_nil]
  generalize hm : (if ((x.acc.l && !rwl) || (x.acc.q && !rwq)) = true then (0 : Word) else fieldMask x.hi x.lo &&& mask) = m
  have none : m.getLsbD i = false := by
    rw [← hm]
    split
    · exact BitVec.getLsbD_zero
    · rw [BitVec.getLsbD_and, out, Bool.false_and]
  cases x.acc.kind <;> simp [none, h64, -BitVec.getLsbD_eq_getElem]

/-- The field of a full write takes what its access code says, where nothing keeps it from being written. -/
theorem applyFields_one_bits (x : Field) (w v : Word) (rwq : Bool) (hq : x.acc.q = false ∨ rwq = true) (hl : x.lo ≤ x.hi) (hh : x.hi < 64) :
    Word.bits (applyFields [x] w v (BitVec.allOnes 64) true rwq) x.hi x.lo = newField x w v := by
  have may : ((x.acc.l && !true) || (x.acc.q && !rwq)) = false := by rcases hq with h | h <;> simp [h]
  have inside : ∀ i, x.lo ≤ i → i ≤ x.hi → (fieldMask x.hi x.lo).getLsbD i = true ∧ i < 64 := fun i h1 h2 =>
    ⟨by simp [fieldMask_bit hh hl, h1, h2], by omega⟩
  simp only [applyFields, List.foldl_cons, List.foldl_nil, may, newField, BitVec.and_allOnes, Bool.false_eq_true, if_false]
  cases x.acc.kind <;> simp only
  all_goals
    refine (Word.bits_eq_iff hl).2 fun i h1 h2 => ?_
    obtain ⟨hm, h64⟩ := inside i h1 h2
    simp [hm, h64, -BitVec.getLsbD_eq_getElem]

/-- What a write leaves in a field depends on that field alone. -/
theorem newField_congr (x : Field) {w w' : Word} (v : Word) (hl : x.lo ≤ x.hi) (h : Word.bits w x.hi x.lo = Word.bits w' x.hi x.lo) :
    newField x w v = newField x w' v := by
  have bit := (Word.bits_eq_iff hl).1 h
  unfold newField
  cases x.acc.kind <;> simp only [h]
  all_goals
    refine (Word.bits_eq_iff hl).2 fun i h1 h2 => ?_
    simp only [BitVec.getLsbD_and, BitVec.getLsbD_or, bit i h1 h2]

/-- A write of fields that lie apart from a field leaves that field. -/
theorem applyFields_bits_apart (x : Field) (fs : List Field) (w v mask : Word) (rwl rwq : Bool) (hl : x.lo ≤ x.hi) (hh : x.hi < 64)
    (ha : ∀ y ∈ fs, x.apart y) (ok : ∀ y ∈ fs, y.lo ≤ y.hi ∧ y.hi < 64) :
    Word.bits (applyFields fs w v mask rwl rwq) x.hi x.lo = Word.bits w x.hi x.lo := by
  induction fs generalizing w with
  | nil => rfl
  | cons y ys ih =>
    obtain ⟨apart, ha⟩ := List.forall_mem_cons.1 ha
    obtain ⟨⟨yl, yh⟩, ok⟩ := List.forall_mem_cons.1 ok
    rw [applyFields_cons, ih _ ha ok]
    exact (Word.bits_eq_iff hl).2 fun i h1 h2 => applyFields_one_bit_outside y w v mask rwl rwq yl yh (by omega) (by omega)

/-- A full write gives every field of a register what its access code says (R6, R7), where nothing keeps one from being written. -/
theorem applyFields_bits {fs : List Field} (old v : Word) (rwq : Bool) (hp : fs.Pairwise Field.apart) (ok : ∀ x ∈ fs, x.lo ≤ x.hi ∧ x.hi < 64)
    (hq : ∀ x ∈ fs, x.acc.q = false ∨ rwq = true) :
    ∀ x ∈ fs, Word.bits (applyFields fs old v (BitVec.allOnes 64) true rwq) x.hi x.lo = newField x old v := by
  induction fs generalizing old with
  | nil => simp
  | cons y ys ih =>
    obtain ⟨apart, hp⟩ := List.pairwise_cons.1 hp
    obtain ⟨⟨yl, yh⟩, ok⟩ := List.forall_mem_cons.1 ok
    obtain ⟨yq, hq⟩ := List.forall_mem_cons.1 hq
    rw [applyFields_cons, List.forall_mem_cons]
    refine ⟨?_, fun x hx => ?_⟩
    · rw [applyFields_bits_apart y ys _ v _ true rwq yl yh apart ok, applyFields_one_bits y old v rwq yq yl yh]
    · obtain ⟨xl, xh⟩ := ok x hx
      rw [ih _ hp ok hq x hx]
      refine newField_congr x v xl ((Word.bits_eq_iff xl).2 fun i h1 h2 => ?_)
      have := apart x hx
      exact applyFields_one_bit_outside y old v _ true rwq yl yh (by omega) (by omega)

/-! ### Where a full write goes -/

theorem Run.acts_of_writer (r : Run s0) (q : Requester) (w : r.1.writer q) : r.acts q = true := by
  obtain ⟨porst, -, may⟩ := w
  unfold Run.acts
  rw [porst]
  cases q with
  | hart h => simp only [Run.hart, may, Bool.true_or, Bool.not_false, Bool.and_self]
  | lark k => exact may
  | fox => rfl
  | group g p | phlox f | peer p => exact absurd may Bool.false_ne_true

/-- A full write of a register reaches that register (R495, R497): its requester may write, its block answers and is not kept from it. -/
theorem Run.regWrite_full (r : Run s0) (q : Requester) {off : Nat} (v : Word) {f : Family} {ix : List Nat} (w : r.1.writer q)
    (hf : findReg off = some (f, ix)) (ha : off % 8 = 0) (hd : decoded off = true) (hi : imsicPage off = none)
    (ho : off < 2 ^ 36 → r.online (off / 2 ^ 32) = true) (hs : (r.secHeld off && r.normal q) = false) :
    r.regWrite q off .full v = r.regPut q f ix off (BitVec.allOnes 64) v := by
  obtain ⟨top, aplic, iommu, msix⟩ := findReg_placed hf
  have acts := Run.acts_of_writer r q w
  obtain ⟨-, iod, may⟩ := w
  have whole : off / 8 * 8 = off := Nat.div_mul_cancel (Nat.dvd_of_mod_eq_zero ha)
  have answers : ¬ (off < 2 ^ 36 ∧ (!r.dieAnswers (off / 2 ^ 32) q) = true) := by
    rintro ⟨h, h'⟩
    simp only [Run.dieAnswers, ho h, Bool.true_or, Bool.not_true, Bool.false_eq_true] at h'
  have lanes : laneMask off 8 = BitVec.allOnes 64 := by
    rw [laneMask, ha]
    decide
  have bytes : BitVec.ofNat 64 (v.toNat * 256 ^ (off % 8)) = v := by
    rw [ha, pow_zero, Nat.mul_one, BitVec.ofNat_toNat, BitVec.setWidth_eq]
  have inside : r.regStore q off 8 v.toNat = (r.regPut q f ix off (BitVec.allOnes 64) v, false) := by
    have below : ¬ 0x4000000000 ≤ off := by omega
    have plain : ¬ 0x2000000000 ≤ off := by omega
    unfold Run.regStore
    cases q with
    | group g p | phlox f | peer p => exact absurd may Bool.false_ne_true
    | hart _ | lark _ | fox =>
      simp only [Bool.false_eq_true, if_false]
      rw [if_neg below, if_neg answers, hd, hi, iod, hs, if_neg plain, if_neg aplic, if_neg iommu, if_neg msix, whole, hf]
      simp [lanes, bytes]
  simp only [Run.regWrite, acts, halfOf, whole, inside, Bool.not_true, Bool.false_eq_true, if_false]

/-! ### Registers that perform no action -/

/-- Registers whose write performs no action and is under no rule of its own: their fields take what their access codes say (R497). -/
def plainRegs : List RegName :=
  [.SAD_RANGE_LIMIT, .L3_PARTRANGE_BASE, .L3_PARTRANGE_LIMIT, .L2CTL_STATUS, .L3_STATUS, .HOME_CFG, .HOME_TRKSTAT, .RLINK_STAT, .MC_STATUS,
    .SOCK_CFG, .FOX_KAT, .ALARM_STAT, .WDOG_CTL, .WEIR_STAT, .WEIR_EVT, .WEIR_EVTEN, .EB_STAT, .EB_REC, .PMU_CTL, .PMU_CNT, .ARR_FLIPD, .ID_STEPPING]

/-- No field of such a register waits for its block to be idle (RWQ). -/
theorem plainRegs_notRwq : ∀ f ∈ families, f.name ∈ plainRegs → ∀ x ∈ f.fields, x.acc.q = false := by decide +kernel

theorem changesRwq_of_notRwq {fs : List Field} (old v mask : Word) (h : ∀ x ∈ fs, x.acc.q = false) : changesRwq fs old v mask = false := by
  rw [changesRwq, List.any_eq_false]
  intro x hx
  simp [h x hx]

/-- A write that reaches a register without a rule of its own gives its fields their values, while the configuration lock is clear. -/
theorem Run.regPut_plain (r : Run s0) (q : Requester) (f : Family) (ix : List Nat) (off : Nat) (mask v : Word) (hn : f.name ∈ plainRegs)
    (hq : ∀ x ∈ f.fields, x.acc.q = false) (hl : r.locked = false) :
    r.regPut q f ix off mask v =
      r.setReg (f.reg off) (applyFields f.fields (r.reg (f.reg off)) v mask true (r.blockIdle f.name ix off)) := by
  have idle := changesRwq_of_notRwq (r.reg (f.reg off)) v mask hq
  unfold Run.regPut Run.regRefuse
  simp only [idle, hl, Bool.and_false, Bool.or_false, Bool.not_false, Bool.true_or]
  generalize r.blockIdle f.name ix off = b
  generalize f.name = nm at hn
  -- no rule of `regRefuse` or `regPut` names one of these registers
  fin_cases hn <;> rfl

/-! ### The state after the write -/

theorem Agent.onDie_lt {a : Agent} {d : Nat} (h : Agent.onDie a = some d) : d < 16 := by
  cases a <;> simp only [Agent.onDie, Option.some.injEq, reduceCtorEq] at h <;> omega

/-- A state with the messages and dies of one in which nothing is left to settle, and the same dies online. -/
theorem State.still_of_online {s t : State} (h : s.still) (hx : t.need = {}) (hp : t.poke = []) (ho : ∀ d < 16, t.online d = s.online d)
    (hn : t.net = s.net) (hd : t.dies = s.dies) : t.still := by
  obtain ⟨-, -, fence, drop⟩ := h
  refine ⟨hx, hp, fun m hm => ?_, hd ▸ drop⟩
  rw [← fence m (hn ▸ hm), State.fencedDie, State.fencedDie]
  cases e : Agent.onDie m.dst with
  | none => rfl
  | some d => simp only [ho d (Agent.onDie_lt e)]

/-- The register map gives RLINK.STAT of a die (R192) at its offset. -/
theorem findReg_RLINK_STAT : ∀ d < 16,
    findReg (RLINK_STAT d).off = some (⟨.RLINK_STAT, 0x10000b0000, [(16, 0x1000)], fields_RLINK_STAT⟩, [d]) := by decide +kernel

theorem reg_RLINK_STAT (d : Nat) :
    Family.reg ⟨.RLINK_STAT, 0x10000b0000, [(16, 0x1000)], fields_RLINK_STAT⟩ (RLINK_STAT d).off = RLINK_STAT d := by
  have mask : fieldsMask fields_RLINK_STAT = (RLINK_STAT d).mask := by simp [fieldsMask, fields_RLINK_STAT, RLINK_STAT]
  have reset : fieldsRst (RLINK_STAT d).off fields_RLINK_STAT = (RLINK_STAT d).rst := by simp [fieldsRst, fields_RLINK_STAT, RLINK_STAT]
  rw [Family.reg, mask, reset]

/-- A write that gives every field of its register what its access code says leaves every die's STATE, which is read-only, and so the dies that are
online. -/
theorem Run.online_setReg (r : Run s0) {off : Nat} {f : Family} {ix : List Nat} (hf : findReg off = some (f, ix)) (w v : Word)
    (hw : ∀ x ∈ f.fields, (r.setReg (f.reg off) w).1.fld ⟨f.reg off, x.hi, x.lo⟩ = newField x (r.1.reg (f.reg off)) v) :
    ∀ d < 16, (r.setReg (f.reg off) w).1.online d = r.1.online d := by
  intro d hd
  suffices state : (r.setReg (f.reg off) w).1.fld (RLINK_STAT_STATE d) = r.1.fld (RLINK_STAT_STATE d) by
    rw [State.online, State.online, state]
  by_cases e : (RLINK_STAT d).off = off
  · subst e
    obtain ⟨rfl, -⟩ := Prod.mk.inj (Option.some.inj ((findReg_RLINK_STAT d hd).symm.trans hf))
    have state := hw ⟨"STATE", 3, 0, .ro, some 0⟩ (by decide)
    rw [reg_RLINK_STAT] at state ⊢
    exact state
  · exact Run.fld_setReg_other r _ _ w e

theorem Run.still_setReg (r : Run s0) {off : Nat} {f : Family} {ix : List Nat} (st : r.1.still) (hf : findReg off = some (f, ix)) (w v : Word)
    (hw : ∀ x ∈ f.fields, (r.setReg (f.reg off) w).1.fld ⟨f.reg off, x.hi, x.lo⟩ = newField x (r.1.reg (f.reg off)) v) :
    (r.setReg (f.reg off) w).1.still := by
  have ⟨need, poke, _, _⟩ := st
  refine State.still_of_online st ?_ ?_ (Run.online_setReg r hf w v hw) ?_ ?_ <;> simp [Run.setReg, need, poke]

/-- The fields of a register after a full write that nothing keeps from any of them. -/
theorem Run.fld_setReg_applyFields (r : Run s0) {f : Family} (off : Nat) (v : Word) (rwq : Bool) (hf : f ∈ families)
    (hq : ∀ x ∈ f.fields, x.acc.q = false ∨ rwq = true) :
    ∀ x ∈ f.fields, (r.setReg (f.reg off) (applyFields f.fields (r.reg (f.reg off)) v (BitVec.allOnes 64) true rwq)).1.fld ⟨f.reg off, x.hi, x.lo⟩ =
      newField x (r.1.reg (f.reg off)) v := by
  obtain ⟨apart, ok⟩ := families_fields f hf
  intro x hx
  obtain ⟨xl, xh, held⟩ := ok x hx
  have mask : (f.reg off).mask = fieldsMask f.fields := rfl
  rw [State.fld, Run.reg_setReg_same, mask, Word.bits_and _ _ xh xl held]
  exact applyFields_bits _ v rwq apart (fun y hy => ⟨(ok y hy).1, (ok y hy).2.1⟩) hq x hx

/-- Settles O24: the write reaches its register, gives each field what its code says, and leaves nothing to settle. -/
theorem registerWritesComplete : Obligations.RegisterWritesComplete := by
  unfold Obligations.RegisterWritesComplete
  intro q a v f ix s st w hf ha hd hi ho hs lock hn
  obtain ⟨hm, -, -⟩ := findReg_mem hf
  have notRwq := plainRegs_notRwq f hm hn
  have unlocked : (Run.start s).locked = false := by simp [Run.locked, Run.on, Run.fld, lock]
  have fields := Run.fld_setReg_applyFields (Run.start s) a.toNat v ((Run.start s).blockIdle f.name ix a.toNat) hm fun x hx => .inl (notRwq x hx)
  have written := (Run.regWrite_full (Run.start s) q v w hf ha hd hi ho hs).trans (Run.regPut_plain _ q f ix a.toNat _ v hn notRwq unlocked)
  have ends := Run.done_still _ (Run.still_setReg (Run.start s) st hf _ v fields)
  exact ⟨_, (congrArg Run.done written).trans ends, fields, rfl, rfl, rfl, fun e _ he => Sparse.find?_upd_other _ _ he⟩

end Sys2Proof.Machine

/-! Loads that hit the L2, and stores that enter the merging buffer (R23 to R27). -/
namespace Sys2Proof.Machine

variable {s0 : State}

/-! ### What an instruction that retires leaves -/

/-- With no trigger set and no single-stepping, a retired instruction moves its hart's pc on, and leaves the x registers, the L2, the memory and
the tiles as they are. -/
theorem Run.retire_frame (r : Run s0) (h : Nat) (w : r.1.unwatched h) :
    ((r.retire h).1.hart h).pc = (r.1.hart h).pc + 4 ∧ (r.retire h).1.xs = r.1.xs ∧ (r.retire h).1.dram = r.1.dram ∧
      (r.retire h).1.l2 = r.1.l2 ∧ (r.retire h).1.tiles = r.1.tiles := by
  rw [Run.retire_plain r h w]
  simp only [Run.moveOn, Run.pokeHart]
  split <;> split <;> simp [Run.tally, Run.modHart, Run.setHart, Run.setCsr, Run.hart]

theorem Run.trigHit_unwatched (r : Run s0) (h k va n : Nat) (w : r.1.unwatched h) : r.trigHit h k va n = none := by
  have none : (r.hart h).trigs.isEmpty = true := List.isEmpty_iff.2 w.1
  rw [Run.trigHit, if_pos none]

/-! ### The checks of an access -/

/-- Where a part stands in its access: its place and its length. -/
def PPart.span (p : PPart) : Nat × Nat := (p.pos, p.len)

/-- The parts that pass the checks of an access are those that the lines cut it into. -/
theorem Run.plan_spans {r r' : Run s0} {h prv tinst n : Nat} {acc : Acs} {v hlv hlvx : Bool} {va : Word} {ps : List PPart}
    (e : r.plan h acc prv v hlv hlvx tinst va n = (r', .ok ps)) : ps.map PPart.span = splitLine va n := by
  unfold Run.plan at e
  generalize hf : (fun (p : Run s0 × Plan) (x : Nat × Nat) => _) = f at e
  have step : ∀ q x qs, (f q x).2 = .ok qs → ∃ ps, q.2 = .ok ps ∧ qs.map PPart.span = ps.map PPart.span ++ [x] := by
    intro q x qs
    subst hf
    dsimp only
    split
    next ps hq =>
      split
      · simp
      · simp
      · split
        · simp
        · rintro ⟨⟩
          exact ⟨ps, hq, by simp [PPart.span]⟩
    next no => exact fun ok => (no qs ok).elim
  have all : ∀ xs q, (xs.foldl f q).2 = .ok ps → ∃ qs, q.2 = .ok qs ∧ ps.map PPart.span = qs.map PPart.span ++ xs := by
    intro xs
    induction xs with
    | nil => exact fun q ok => ⟨ps, ok, by simp⟩
    | cons x xs ih =>
      intro q ok
      obtain ⟨qs, hq, eq⟩ := ih (f q x) ok
      obtain ⟨ps', hp, ep⟩ := step q x qs hq
      exact ⟨ps', hp, by simp [eq, ep]⟩
  obtain ⟨qs, ok, eq⟩ := all _ _ (congrArg Prod.snd e)
  cases ok
  simpa using eq

/-- An access that has one part lies within a line, and the part is all of it. -/
theorem Run.plan_one {r r' : Run s0} {h prv tinst n : Nat} {acc : Acs} {v hlv hlvx : Bool} {va : Word} {p : PPart}
    (e : r.plan h acc prv v hlv hlvx tinst va n = (r', .ok [p])) : p.len = n ∧ p.pos = 0 := by
  have spans := Run.plan_spans e
  unfold splitLine at spans
  simp only [List.map_cons, List.map_nil] at spans
  split at spans <;> simp_all [PPart.span]


/-! ### A load of a line that the L2 holds -/

theorem Run.forward_drained (r : Run s0) (h : Nat) (p : Part) (d : r.1.drained h) : r.forward h p = (0, 0) := by
  obtain ⟨smb, sq, -⟩ := d
  have smb : (r.tile (tileOf h)).smb = [] := smb
  have sq : (r.tile (tileOf h)).sq = [] := sq
  rw [Run.forward, smb, sq]
  rfl

/-- No byte of a part that has one was forwarded while none of the access was. -/
theorem Part.covered_zero {p : Part} (h : 0 < p.len) : p.covered 0 = false := by
  rw [Part.covered, List.all_eq_false]
  exact ⟨0, by simpa using h, by simp [natBit]⟩

theorem Run.l2Find_congr {s1 : State} {r : Run s0} {q : Run s1} (e : r.1.l2 = q.1.l2) (n : Nat) (l : LineAddr) : r.l2Find n l = q.l2Find n l := by
  simp only [Run.l2Find, Run.l2Slot, State.l2Slot, e]

theorem Run.l1dFind_congr {s1 : State} {r : Run s0} {q : Run s1} (e : r.1.l1d = q.1.l1d) (n : Nat) (l : LineAddr) : r.l1dFind n l = q.l1dFind n l := by
  simp only [Run.l1dFind, Run.l1dSlot, State.l1dSlot, e]

/-- A run in which a line hits has caches like those of a state in which it does. -/
theorem State.l2Hit_of {s t : State} {n w : Nat} {l : LineAddr} {x : L2Slot} (hit : s.l2Hit n l w x) (e2 : t.l2 = s.l2) (e1 : t.l1d = s.l1d) :
    t.l2Hit n l w x := by
  obtain ⟨find, flip, tags, v, hv, l1, slot⟩ := hit
  refine ⟨?_, flip, ?_, v, hv, ?_, ?_⟩
  · rw [← find]
    exact Run.l2Find_congr e2 n l
  · simpa only [State.l2Slot, e2] using tags
  · rw [← l1]
    exact Run.l1dFind_congr e1 n l
  · simpa only [State.l1dSlot, e1] using slot

/-- The L1D copy of a line that hits holds no error, and is read as it is. -/
theorem Run.l1dCheck_hit (r : Run s0) {n w : Nat} {l : LineAddr} {x : L2Slot} (hit : r.1.l2Hit n l w x) : r.l1dCheck n l = r := by
  obtain ⟨-, -, -, v, -, find, slot⟩ := hit
  have find : r.l1dFind n l = some v := find
  have slot : r.l1dSlot (l1Key n l v) = some { line := l } := slot
  simp only [Run.l1dCheck, find, slot, Bool.false_eq_true, if_false]

theorem Run.l2Has_hit (r : Run s0) {n w : Nat} {l : LineAddr} {x : L2Slot} (hit : r.1.l2Hit n l w x) : r.l2Has n l false = true := by
  have find : r.l2Find n l = some (w, x) := hit.1
  have valid : x.st ≠ .I := by
    obtain ⟨v, -, hv⟩ := List.exists_of_findSome?_eq_some find
    split at hv
    · split at hv
      next c =>
        cases hv
        exact c.2
      · cases hv
    · cases hv
  simp only [Run.l2Has, Run.l2St, find, Option.map_some, Option.getD_some]
  split
  · rfl
  · rfl
  next c => exact absurd c valid
  · rfl

/-- A state in which only uses of cache ways have been noted since another. -/
def State.usesOnly (s t : State) : Prop := t = { s with plru := t.plru }

/-- An L1 that holds a line notes its use at most. -/
theorem Run.l1Fill_held (r : Run s0) {n : Nat} {l : LineAddr} (held : (r.l1dFind n l).isSome = true) : r.1.usesOnly (r.l1Fill n l false).1 := by
  unfold Run.l1Fill
  split
  · rfl
  · simp only [Bool.false_eq_true, if_false, held, if_true]
    rfl

/-- The one part of a load whose line hits is read from the L2 slot, and the load ends. -/
theorem Run.perform_hit (r : Run s0) {n h w : Nat} {a : Acc} {p : Part} {x : L2Slot} {rd : Dest} {uns : Bool} (op : a.op = .load rd uns)
    (hit : r.1.l2Hit n p.line w x) (clean : x.poison = false) :
    ∃ q : Run s0, r.1.usesOnly q.1 ∧
      r.perform n h a p [] = (q.finishAcc h { a with got := gather a.got a.fwd p x.data, parts := [] } p.line, []) := by
  obtain ⟨find, -, -, v, -, l1, -⟩ := id hit
  have find : r.l2Find n p.line = some (w, x) := find
  have held : (r.l1dFind n p.line).isSome = true := by
    rw [show r.l1dFind n p.line = some v from l1]
    rfl
  have touched : ((r.l2Touch n p.line w).l1dFind n p.line).isSome = true := held
  refine ⟨(r.l2Touch n p.line w).l1Fill n p.line false, ?_, ?_⟩
  · rw [State.usesOnly, Run.l1Fill_held _ touched]
    rfl
  · simp only [Run.perform, Run.l1dCheck_hit r hit, held, op, MemOp.owns, Bool.not_false, Bool.and_self, if_true, find, clean,
      Bool.false_and, Bool.false_eq_true, if_false]

/-- A hart whose load of one line waits for nothing but the line, which hits, ends the load. -/
theorem Run.go_load_hit (r : Run s0) {h w : Nat} {a : Acc} {p : Part} {x : L2Slot} {rd : Dest} {uns : Bool} (op : a.op = .load rd uns)
    (parts : a.parts = [p]) (wait : (r.hart h).wait = some (.line a)) (fwd : p.covered a.fwd = false)
    (hit : r.1.l2Hit (tileOf h) p.line w x) (clean : x.poison = false) :
    ∃ q : Run s0, r.1.usesOnly q.1 ∧
      r.go [.hart h] = q.finishAcc h { a with got := gather a.got a.fwd p x.data, parts := [] } p.line := by
  obtain ⟨q, uses, ends⟩ := Run.perform_hit r (h := h) op hit clean
  have step : r.doHart h = r.perform (tileOf h) h a p [] := by
    simp only [Run.doHart, wait, parts, op, fwd, Bool.false_and, Bool.false_eq_true, if_false, MemOp.owns, Run.l2Has_hit r hit, if_true]
  refine ⟨q, uses, ?_⟩
  have hb : driveBound = 19998 + 1 + 1 := rfl
  rw [Run.go, hb, Run.drive]
  simp only [step, ends, List.append_nil, Run.drive]

theorem Run.xr_setXr (r : Run s0) (h i : Nat) (v : Word) (hi : i ≠ 0) : (r.setXr h i v).xr h i = v := by
  simp [Run.xr, Run.setXr, hi, Run.setX, Run.x]

/-- A load within a line that hits, begun by a hart that has no store left, writes its register and retires. -/
theorem Run.beginRead_hit (r : Run s0) {h lg w : Nat} {rd : Fin 32} {uns : Bool} {va : Word} {p : PPart} {x : L2Slot} (d : r.1.drained h)
    (len : 0 < p.len) (dev : p.dev = false) (mt : p.mt = 0) (hit : r.1.l2Hit (tileOf h) p.part.line w x) (clean : x.poison = false) :
    ∃ q : Run s0, q.1 = { r.1 with harts := q.1.harts, plru := q.1.plru, xs := q.1.xs } ∧ (∃ y, q.1.hart h = { r.1.hart h with wait := some y }) ∧
      (rd ≠ 0 → q.xr h rd = extend (gather 0 0 p.part x.data) lg uns) ∧ r.beginRead h (.load (.x rd) uns) lg va [p] = q.retire h := by
  let a : Acc := { op := .load (.x rd) uns, lg := lg, parts := [p.part], got := 0, fwd := 0, va := va }
  let r' := r.modHart h fun t => { t with wait := some (.line a) }
  have begins : r.beginRead h (.load (.x rd) uns) lg va [p] = r'.go [.hart h] := by
    simp [Run.beginRead, Run.forward_drained r h _ d, dev, mt, r', a]
  have waits : r'.1.hart h = { r.1.hart h with wait := some (.line a) } := by
    simp [r', Run.modHart, Run.setHart, Run.hart]
  obtain ⟨q, uses, ends⟩ := Run.go_load_hit r' (a := a) (x := x) rfl rfl (congrArg Hart.wait waits) (Part.covered_zero len)
    (State.l2Hit_of hit rfl rfl) clean
  have writes : ∀ v, ∃ xs, (q.setXr h rd v).1 = { q.1 with xs := xs } := by
    intro v
    unfold Run.setXr
    split <;> exact ⟨_, rfl⟩
  obtain ⟨xs, wrote⟩ := writes (extend (gather 0 0 p.part x.data) lg uns)
  refine ⟨_, ?_, ⟨.line a, ?_⟩, fun hr => Run.xr_setXr q h rd _ (fun e => hr (Fin.ext e)), begins.trans ends⟩
  · show (q.setXr h rd (extend (gather 0 0 p.part x.data) lg uns)).1 = _
    rw [wrote, uses]
    rfl
  · show (q.setXr h rd (extend (gather 0 0 p.part x.data) lg uns)).1.hart h = _
    rw [wrote, ← waits, uses]
    rfl

/-! ### A store of a hart whose tile holds no other -/

/-- A store enters an empty merging buffer. -/
theorem Run.putStore_empty (r : Run s0) {n : Nat} (e : SqEntry) (smb : (r.tile n).smb = []) (sq : (r.tile n).sq = []) (arm : r.1.unarmed n 4) :
    r.putStore n e = r.modTile n fun t =>
      { t with smb := [{ hart := e.hart, line := e.line, data := e.data, mask := e.mask, zero := e.zero,
                         draining := e.draining || e.mask == BitVec.allOnes 64 }] } := by
  have takes : (r.tile n).takes e = true := by simp [Tile.takes, smb]
  have unarmed : r.armTake (dieOf n) (n % 16 * 8 + 4) = (r, none) := by
    rw [Run.armTake, if_neg]
    simpa [Run.on, Run.fld] using arm
  simp only [Run.putStore, sq, List.isEmpty_nil, takes, Bool.and_self, if_true, Run.smbPut, unarmed, mkFlip, Run.modTile, smb, List.any_nil,
    Bool.false_eq_true, if_false, List.nil_append]

/-- A merging buffer in which nothing drains stays as it is while no store is queued. -/
theorem Run.go_smb_idle (r : Run s0) {n : Nat} (smb : ∀ e ∈ (r.tile n).smb, e.draining = false) (sq : (r.tile n).sq = []) : r.go [.smb n] = r := by
  have idle : (r.tile n).smb.filter (·.draining) = [] := List.filter_eq_nil_iff.2 fun e he => by simp [smb e he]
  have step : r.doSmb n = (r, []) := by simp only [Run.doSmb, idle, List.foldl_nil, sq]
  have hb : driveBound = 19998 + 1 + 1 := rfl
  rw [Run.go, hb, Run.drive]
  simp only [step, List.append_nil, Run.drive]

/-- The bytes of a store that does not fill its line, begun where no other store is held, stand alone in the merging buffer, and the store retires. -/
theorem Run.beginStore_empty (r : Run s0) {h v : Nat} {va : Word} {p : PPart} (d : r.1.drained h) (free : r.sqFree (tileOf h) h 1 = true)
    (arm : r.1.unarmed (tileOf h) 4) (u : r.1.unwatched h) (dev : p.dev = false) (mt : p.mt = 0)
    (part : spanMask p.part.off p.len ≠ BitVec.allOnes 64) :
    r.beginStore h v va [p] = (r.modTile (tileOf h) fun t =>
      { t with smb := [{ hart := h, line := p.part.line, data := lineBytes p.part.off p.len (v / 256 ^ p.pos), mask := spanMask p.part.off p.len }] }).retire h := by
  obtain ⟨smb, sq, -⟩ := d
  have sq : (r.tile (tileOf h)).sq = [] := sq
  have full : (spanMask p.part.off p.len == BitVec.allOnes 64) = false := beq_false_of_ne part
  have put := Run.putStore_empty r (p.entry h v) smb sq arm
  simp only [PPart.entry, full, Bool.or_false] at put
  set q := r.modTile (tileOf h) _ with hq
  have tiles : (q.retire h).1.tiles = q.1.tiles := (Run.retire_frame q h u).2.2.2.2
  have tile : (q.retire h).tile (tileOf h) = q.tile (tileOf h) := by simp only [Run.tile, State.tile, tiles]
  have now : q.tile (tileOf h) = { r.tile (tileOf h) with
      smb := [{ hart := h, line := p.part.line, data := lineBytes p.part.off p.len (v / 256 ^ p.pos), mask := spanMask p.part.off p.len }] } := by
    simp [hq, Run.modTile, Run.setTile, Run.tile]
  have idle := Run.go_smb_idle (q.retire h) (n := tileOf h) (by simp [tile, now]) (by simpa [tile, now] using sq)
  simpa [Run.beginStore, dev, mt, free, PPart.entry, put] using idle

/-! ### The two instructions -/

/-- A load of an x register whose checks pass begins to read. -/
theorem exec_load_plain {h : Fin 1024} {rd rs1 : Fin 32} {imm : BitVec 12} {lg : Fin 4} {uns : Bool} {ps : List PPart} {s : State} (free : s.free_ h)
    (good : badLoad (.x rd) imm lg uns .plain = false)
    (plan : (Run.start s).plan h .load ((Run.start s).effective h false).1 ((Run.start s).effective h false).2 false false
      (loadTinst (.x rd) lg uns .plain) ((Run.start s).xr h rs1 + imm.signExtend 64) (2 ^ lg.val) = (Run.start s, .ok ps)) :
    exec (.load h (.x rd) rs1 imm lg uns .plain) s =
      ((Run.start s).beginRead h (.load (.x rd) uns) lg ((Run.start s).xr h rs1 + imm.signExtend 64) ps).done := by
  obtain ⟨-, ⟨-, -, -, -, -, unw⟩, ready⟩ := free
  show execLoad _ _ _ _ _ _ _ _ = _
  have form : (MemForm.plain == MemForm.hlvx) = false := rfl
  simp [execLoad, ready, good, Run.destOff, Run.trigHit_unwatched (Run.start s) h 0 _ _ unw, form, plan, Run.destDirty]

/-- A store of an x register whose checks pass begins to write. -/
theorem exec_store_plain {h : Fin 1024} {rs2 rs1 : Fin 32} {imm : BitVec 12} {lg : Fin 4} {ps : List PPart} {s : State} (free : s.free_ h)
    (plan : (Run.start s).plan h .store ((Run.start s).effective h false).1 ((Run.start s).effective h false).2 false false
      (storeTinst (.x rs2) lg .plain) ((Run.start s).xr h rs1 + imm.signExtend 64) (2 ^ lg.val) = (Run.start s, .ok ps)) :
    exec (.store h (.x rs2) rs1 imm lg .plain) s =
      ((Run.start s).beginStore h ((Run.start s).storeValue h (.x rs2) lg) ((Run.start s).xr h rs1 + imm.signExtend 64) ps).done := by
  obtain ⟨-, ⟨-, -, -, -, -, unw⟩, ready⟩ := free
  show execStore _ _ _ _ _ _ _ = _
  simp [execStore, ready, badStore, Run.destOff, Run.trigHit_unwatched (Run.start s) h 1 _ _ unw, plan]

/-- Settles O7: the line that hits gives rd its bytes, and the store's bytes stand alone in the merging buffer; either instruction then retires,
and a retired instruction leaves the caches and the memory. -/
theorem loadAndStoreComplete : Obligations.LoadAndStoreComplete := by
  unfold Obligations.LoadAndStoreComplete
  refine ⟨?_, ?_⟩
  · intro h rd rs1 imm lg uns w x p s free drained good plan dev mt hit clean
    obtain ⟨still, und, -⟩ := id free
    have len : 0 < p.len := by
      rw [(Run.plan_one plan).1]
      exact Nat.two_pow_pos _
    obtain ⟨q, same, ⟨y, hart⟩, value, ends⟩ := Run.beginRead_hit (Run.start s) (lg := lg) (rd := rd) (uns := uns)
      (va := (Run.start s).xr h rs1 + imm.signExtend 64) drained len dev mt hit clean
    have hart : q.1.hart h = { s.hart h with wait := some y } := hart
    obtain ⟨need, poke, regs, net, dies, quads, csrs, dramS, l2S⟩ : q.1.need = s.need ∧ q.1.poke = s.poke ∧ q.1.regs = s.regs ∧ q.1.net = s.net ∧
        q.1.dies = s.dies ∧ q.1.quads = s.quads ∧ q.1.csrs = s.csrs ∧ q.1.dram = s.dram ∧ q.1.l2 = s.l2 := by
      rw [same]
      simp
    have csr : ∀ n, q.1.csr h n = s.csr h n := fun n => by rw [State.csr, csrs, State.csr]
    have st : q.1.still := State.still_of still (need.trans still.1) (poke.trans still.2.1) regs net dies
    have unw : q.1.unwatched h := by
      rw [State.unwatched, hart, csr]
      exact und.2.2.2.2.2
    have un : q.1.undisturbed h := State.undisturbed_of und quads (by rw [hart]) (by rw [hart]) (by rw [hart]) (csr _) unw
    obtain ⟨pc, xs, dram, l2, -⟩ := Run.retire_frame q h unw
    refine ⟨(q.retire h).over, ?_, pc.trans (by rw [hart]), fun hr => ?_, dram.trans dramS, l2.trans l2S⟩
    · rw [exec_load_plain free good plan, ends, Run.done_retire q h st un]
    · rw [← value hr]
      exact congrArg (fun m => if rd.val = 0 then 0 else Sparse.get 0 m (h * 32 + rd)) xs
  · intro h rs2 rs1 imm lg p s free drained room arm plan dev mt part
    obtain ⟨still, und, -⟩ := id free
    have unw : s.unwatched h := und.2.2.2.2.2
    have begins := Run.beginStore_empty (Run.start s) (v := (Run.start s).storeValue h (.x rs2) lg)
      (va := (Run.start s).xr h rs1 + imm.signExtend 64) drained room arm unw dev mt part
    set q := (Run.start s).modTile (tileOf h) _ with hq
    have st : q.1.still := State.still_of still still.1 still.2.1 rfl rfl rfl
    have un : q.1.undisturbed h := State.undisturbed_of und rfl rfl rfl rfl rfl unw
    obtain ⟨pc, xs, dram, l2, tiles⟩ := Run.retire_frame q h unw
    refine ⟨(q.retire h).over, ?_, pc, ?_, dram, l2, xs⟩
    · rw [exec_store_plain free plan, begins, Run.done_retire q h st un]
    · show (Sparse.get {} (q.retire h).1.tiles (tileOf h)).smb = _
      rw [tiles]
      simp [hq, Run.modTile, Run.setTile]

end Sys2Proof.Machine

/-! What a record of an error and an interrupt write leave alone (R393, R454 to R457). -/
namespace Sys2Proof.Machine

variable {s0 : State}

/-! ### The register at an offset, the accesses of the command and the messages in flight -/

/-- What neither a record of an error nor an interrupt write changes, for a register at an offset that is not theirs. -/
def Run.rest (r : Run s0) (o : Nat) : Option Word × Need × List Msg := (r.1.regs.find? o, r.1.need, r.1.net)

theorem Run.rest_setReg (r : Run s0) {g : Reg} {o : Nat} (v : Word) (h : o ≠ g.off) : (r.setReg g v).rest o = r.rest o := by
  simp [Run.rest, Run.setReg, Sparse.find?_upd_other _ _ h]

theorem Run.rest_setFld (r : Run s0) {f : FRef} {o : Nat} (v : Nat) (h : o ≠ f.reg.off) : (r.setFld f v).rest o = r.rest o := Run.rest_setReg r _ h

theorem Run.rest_addSat (r : Run s0) {f : FRef} {o : Nat} (n : Nat) (h : o ≠ f.reg.off) : (r.addSat f n).rest o = r.rest o := Run.rest_setReg r _ h

theorem Run.rest_setBit (r : Run s0) {f : FRef} {o : Nat} (i : Nat) (b : Bool) (h : o ≠ f.reg.off) : (r.setBit f i b).rest o = r.rest o :=
  Run.rest_setReg r _ h

theorem Run.rest_pokeHart (r : Run s0) (h o : Nat) : (r.pokeHart h).rest o = r.rest o := by
  unfold Run.pokeHart
  split <;> rfl

theorem Run.rest_putWords (r : Run s0) (f : Nat → Reg) {o : Nat} (k : Nat) (ws : List Word) (h : ∀ j, k ≤ j → j < k + ws.length → o ≠ (f j).off) :
    (r.putWords f k ws).rest o = r.rest o := by
  induction ws generalizing r k with
  | nil => rfl
  | cons w ws ih =>
    rw [List.length_cons] at h
    rw [Run.putWords, ih _ _ fun j lo hi => h j (by omega) (by omega), Run.rest_setReg r w (h k (by omega) (by omega))]

/-! ### Interrupt writes -/

/-- An offset at which no register counts interrupt writes that were turned away (R218, R393). -/
def msiApart (o : Nat) : Prop := o ≠ SEC_DENY.off ∧ ∀ d, o ≠ (RLINK_ERRCNT d).off

variable {o : Nat}

theorem Run.rest_msiTo (r : Run s0) (ho : msiApart o) (secure : Bool) (die who h file i : Nat) :
    (r.msiTo secure die who h file i).rest o = r.rest o := by
  obtain ⟨deny, drop⟩ := ho
  unfold Run.msiTo
  simp only
  split
  · unfold Run.secDeny
    rw [Run.rest_setFld _ _ deny, Run.rest_setFld _ _ deny, Run.rest_setFld _ _ deny, Run.rest_addSat _ _ deny]
  · split
    · unfold Run.setPending
      split
      · rfl
      · rw [Run.rest_pokeHart]
        rfl
    · exact Run.rest_addSat r 1 (drop _)

/-- An edge of an APLIC source is an interrupt write at most. -/
theorem Run.rest_aplicEdge (r : Run s0) (ho : msiApart o) (n : Nat) : (r.aplicEdge n).rest o = r.rest o := by
  unfold Run.aplicEdge Run.aplicPend Run.aplicDeliver
  simp only
  split
  · split
    · rfl
    · split
      · rw [Run.rest_msiTo _ ho]
        rfl
      · rfl
  · rfl

/-! ### Rings and banks -/

/-- An offset outside a die's ring, its registers and the summary of the rings (R457). -/
def ringApart (d o : Nat) : Prop := o ≠ ERR_SUMMARY.off ∧ (o < errBase d ∨ errBase d + 0x800 ≤ o)

theorem ringApart.entry {d i k : Nat} (h : ringApart d o) (hi : i < 16) (hk : k < 8) : o ≠ (ERR_RING d i k).off := by
  obtain ⟨-, h⟩ := h
  simp only [ERR_RING]
  omega

theorem ringApart.stat {d : Nat} (h : ringApart d o) : o ≠ (ERR_RINGSTAT d).off := by
  obtain ⟨-, h⟩ := h
  simp only [ERR_RINGSTAT]
  omega

theorem Run.rest_putRing (r : Run s0) {d : Nat} (h : ringApart d o) (t : Nat) (es : List (List Word)) (len : ∀ e ∈ es, e.length = 8) :
    (r.putRing d t es).rest o = r.rest o := by
  induction es generalizing r t with
  | nil => rfl
  | cons e es ih =>
    obtain ⟨he, len⟩ := List.forall_mem_cons.1 len
    rw [Run.putRing, ih _ _ len]
    exact Run.rest_putWords r _ 0 e fun j _ hj => h.entry (Nat.mod_lt _ (by decide)) (by omega)

theorem Run.rest_ringRaise (r : Run s0) (ho : msiApart o) (d cls : Nat) : (r.ringRaise d cls).rest o = r.rest o := by
  unfold Run.ringRaise
  split
  · exact Run.rest_aplicEdge r ho 145
  · rfl

theorem Run.ringList_length (r : Run s0) (d : Nat) : ∀ e ∈ r.ringList d, e.length = 8 := by
  simp only [Run.ringList, Run.ringEntry, List.mem_map]
  rintro e ⟨i, -, rfl⟩
  simp

theorem Run.rest_ringPush (r : Run s0) {d : Nat} (hr : ringApart d o) (ho : msiApart o) {ws : List Word} (len : ws.length = 8) :
    (r.ringPush d ws).rest o = r.rest o := by
  unfold Run.ringPush
  simp only
  split
  · rw [Run.rest_ringRaise _ ho, Run.rest_setFld _ _ hr.stat, Run.rest_putWords _ _ _ _ fun j _ hj => hr.entry (Nat.mod_lt _ (by decide)) (by omega),
      Run.rest_setBit _ _ _ hr.1]
  · split
    · rw [Run.rest_addSat _ _ hr.stat, Run.rest_setBit _ _ _ hr.1]
    · rw [Run.rest_ringRaise _ ho, Run.rest_putRing _ hr, Run.rest_addSat _ _ hr.stat, Run.rest_setBit _ _ _ hr.1]
      intro e he
      rcases List.mem_append.1 he with he | he
      · exact Run.ringList_length _ _ e (List.mem_of_mem_eraseIdx he)
      · rw [List.mem_singleton.1 he, len]

/-- An offset that a record in a bank does not write (R454 to R457): it lies outside the bank and its die's ring. -/
structure Bank.apart (b : Bank) (o : Nat) : Prop where
  bank : o < b.base ∨ b.base + 0x100 ≤ o
  ring : ringApart b.die o
  msi : msiApart o

theorem Bank.apart.stat {b : Bank} (h : b.apart o) : o ≠ (EB_STAT b.base).off := by
  obtain ⟨h, -, -⟩ := h
  simp only [EB_STAT]
  omega

theorem Bank.apart.slotWord {b : Bank} {i k : Nat} (h : b.apart o) (hi : i < 3) (hk : k < 8) : o ≠ (EB_REC b.base i k).off := by
  obtain ⟨h, -, -⟩ := h
  simp only [EB_REC]
  omega

theorem Cls.slot_lt (c : Cls) : c.slot < 3 := by cases c <;> decide

theorem Run.recWords_length (r : Run s0) (b : Bank) (x : Rec) : (r.recWords b x).length = 8 := rfl

theorem Run.rest_putSlot (r : Run s0) {b : Bank} (h : b.apart o) {i : Nat} (hi : i < 3) {ws : List Word} (len : ws.length = 8) :
    (r.putSlot b i ws).rest o = r.rest o := by
  unfold Run.putSlot
  simp only
  rw [Run.rest_putWords _ _ _ _ fun j _ hj => h.slotWord hi (by omega), Run.rest_setBit _ _ _ h.stat]
  split
  · exact Run.rest_setBit r _ _ h.stat
  · rfl

theorem Run.rest_limitTake (r : Run s0) (key now : Nat) : (r.limitTake key now).1.rest o = r.rest o := by
  unfold Run.limitTake
  simp only
  split <;> rfl

/-- A record leaves every register outside its bank and ring, the accesses of its command and the messages in flight. -/
theorem Run.rest_logRec (r : Run s0) {b : Bank} (h : b.apart o) (x : Rec) (ring : Option Bool) : (r.logRec b x ring).rest o = r.rest o := by
  unfold Run.logRec
  simp only
  split
  · rw [Run.rest_setReg _ _ (h.slotWord x.cls.slot_lt (by decide)), Run.rest_setReg _ _ (h.slotWord x.cls.slot_lt (by decide))]
  · have slot : ∀ (c : Prop) [Decidable c], (if c then r else r.putSlot b x.cls.slot (r.recWords b x)).rest o = r.rest o := by
      intro c _
      split
      · rfl
      · exact Run.rest_putSlot r h x.cls.slot_lt (Run.recWords_length r b x)
    suffices limit : ∀ p : Run s0 × Bool, p.1.rest o = r.rest o → (if p.2 then p.1.ringPush b.die (r.recWords b x) else p.1).rest o = r.rest o by
      apply limit
      split
      · rw [Run.rest_limitTake, slot]
      · split
        · split
          · exact slot _
          · exact slot _
        · rw [Run.rest_limitTake, slot]
        · exact slot _
    intro p hp
    split
    · rw [Run.rest_ringPush _ h.ring h.msi (Run.recWords_length r b x), hp]
    · exact hp

/-! ### The ranges of the system address decoder -/

/-- What the register file lists for the BASE of each range of the system address decoder (R20). -/
def Run.sad (r : Run s0) : Fin 32 → Option Word := fun i => r.1.regs.find? (SAD_RANGE_BASE i).off

/-- A register that is no range's BASE. -/
def Reg.notSad (g : Reg) : Prop := ∀ i : Fin 32, (SAD_RANGE_BASE i).off ≠ g.off

theorem Run.sad_setReg (r : Run s0) {g : Reg} (v : Word) (h : g.notSad) : (r.setReg g v).sad = r.sad :=
  funext fun i => Sparse.find?_upd_other _ _ (h i)

theorem Run.sad_setFld (r : Run s0) {f : FRef} (v : Nat) (h : f.reg.notSad) : (r.setFld f v).sad = r.sad := Run.sad_setReg r _ h

theorem Run.sad_addSat (r : Run s0) {f : FRef} (n : Nat) (h : f.reg.notSad) : (r.addSat f n).sad = r.sad := Run.sad_setReg r _ h

theorem Run.sad_setBit (r : Run s0) {f : FRef} (i : Nat) (b : Bool) (h : f.reg.notSad) : (r.setBit f i b).sad = r.sad := Run.sad_setReg r _ h

/-- A fold of steps that leave the ranges leaves them. -/
theorem Run.sad_foldl {α : Type} (f : Run s0 → α → Run s0) (h : ∀ r x, (f r x).sad = r.sad) (xs : List α) (r : Run s0) :
    (xs.foldl f r).sad = r.sad := by
  induction xs generalizing r with
  | nil => rfl
  | cons x xs ih => exact (ih (f r x)).trans (h r x)

theorem Run.sad_foldl_fst {α β : Type} (f : Run s0 × β → α → Run s0 × β) (h : ∀ p x, (f p x).1.sad = p.1.sad) (xs : List α) (p : Run s0 × β) :
    (xs.foldl f p).1.sad = p.1.sad := by
  induction xs generalizing p with
  | nil => rfl
  | cons x xs ih => exact (ih (f p x)).trans (h p x)

@[simp] theorem Run.sad_setHart (r : Run s0) (k : Nat) (v : Hart) : (r.setHart k v).sad = r.sad := rfl
@[simp] theorem Run.sad_modHart (r : Run s0) (k : Nat) (f : Hart → Hart) : (r.modHart k f).sad = r.sad := rfl
@[simp] theorem Run.sad_setX (r : Run s0) (k : Nat) (v : Word) : (r.setX k v).sad = r.sad := rfl
@[simp] theorem Run.sad_setF (r : Run s0) (k : Nat) (v : Word) : (r.setF k v).sad = r.sad := rfl
@[simp] theorem Run.sad_setV (r : Run s0) (k : Nat) (v : BitVec 256) : (r.setV k v).sad = r.sad := rfl
@[simp] theorem Run.sad_modV (r : Run s0) (k : Nat) (f : BitVec 256 → BitVec 256) : (r.modV k f).sad = r.sad := rfl
@[simp] theorem Run.sad_setL1iSlot (r : Run s0) (k : Nat) (v : Option L1Slot) : (r.setL1iSlot k v).sad = r.sad := rfl
@[simp] theorem Run.sad_setL1dSlot (r : Run s0) (k : Nat) (v : Option L1Slot) : (r.setL1dSlot k v).sad = r.sad := rfl
@[simp] theorem Run.sad_setL2Slot (r : Run s0) (k : Nat) (v : Option L2Slot) : (r.setL2Slot k v).sad = r.sad := rfl
@[simp] theorem Run.sad_setL3Slot (r : Run s0) (k : Nat) (v : Option L3Slot) : (r.setL3Slot k v).sad = r.sad := rfl
@[simp] theorem Run.sad_setPlruBits (r : Run s0) (k : Nat) (v : Nat) : (r.setPlruBits k v).sad = r.sad := rfl
@[simp] theorem Run.sad_modPlruBits (r : Run s0) (k : Nat) (f : Nat → Nat) : (r.modPlruBits k f).sad = r.sad := rfl
@[simp] theorem Run.sad_setTile (r : Run s0) (k : Nat) (v : Tile) : (r.setTile k v).sad = r.sad := rfl
@[simp] theorem Run.sad_modTile (r : Run s0) (k : Nat) (f : Tile → Tile) : (r.modTile k f).sad = r.sad := rfl
@[simp] theorem Run.sad_setQuad (r : Run s0) (k : Nat) (v : Quad) : (r.setQuad k v).sad = r.sad := rfl
@[simp] theorem Run.sad_modQuad (r : Run s0) (k : Nat) (f : Quad → Quad) : (r.modQuad k f).sad = r.sad := rfl
@[simp] theorem Run.sad_setSeq (r : Run s0) (k : Nat) (v : Nat) : (r.setSeq k v).sad = r.sad := rfl
@[simp] theorem Run.sad_setDline (r : Run s0) (k : Nat) (v : Option DLine) : (r.setDline k v).sad = r.sad := rfl
@[simp] theorem Run.sad_setDie (r : Run s0) (k : Nat) (v : Die) : (r.setDie k v).sad = r.sad := rfl
@[simp] theorem Run.sad_modDie (r : Run s0) (k : Nat) (f : Die → Die) : (r.modDie k f).sad = r.sad := rfl
@[simp] theorem Run.sad_fresh (r : Run s0) : r.fresh.1.sad = r.sad := rfl
@[simp] theorem Run.sad_send (r : Run s0) (m : Msg) : (r.send m).sad = r.sad := rfl
@[simp] theorem Run.sad_emit (r : Run s0) (o : Out) : (r.emit o).sad = r.sad := rfl

@[simp] theorem Run.sad_act_ops (r : Run s0) (v : List Op) : (r.act (.ops v)).sad = r.sad := rfl
@[simp] theorem Run.sad_act_net (r : Run s0) (v : List Msg) : (r.act (.net v)).sad = r.sad := rfl
@[simp] theorem Run.sad_act_pins (r : Run s0) (v : Pins) : (r.act (.pins v)).sad = r.sad := rfl
@[simp] theorem Run.sad_act_weir (r : Run s0) (v : Weir) : (r.act (.weir v)).sad = r.sad := rfl
@[simp] theorem Run.sad_act_poke (r : Run s0) (v : List Nat) : (r.act (.poke v)).sad = r.sad := rfl

/-- A change that leaves the rest of a state leaves the ranges. -/
theorem Run.sad_of_rest {r q : Run s0} (h : ∀ i : Fin 32, q.rest (SAD_RANGE_BASE i).off = r.rest (SAD_RANGE_BASE i).off) : q.sad = r.sad :=
  funext fun i => congrArg Prod.fst (h i)

theorem msiApart_sad (i : Fin 32) : msiApart (SAD_RANGE_BASE i).off := by
  refine ⟨?_, fun d => ?_⟩
  · simp only [SAD_RANGE_BASE, SEC_DENY]
    omega
  · simp only [SAD_RANGE_BASE, RLINK_ERRCNT]
    omega

/-- A bank that names a quadrant names one of a die's four. -/
def Bank.quadrant : Bank → Prop
  | .l3 _ q => q < 4
  | _ => True

/-- No bank and no ring lies among the ranges. -/
theorem Bank.apart_sad {b : Bank} (hb : b.quadrant) (i : Fin 32) : b.apart (SAD_RANGE_BASE i).off := by
  refine ⟨?_, ⟨?_, ?_⟩, msiApart_sad i⟩
  · cases b <;> simp only [Bank.quadrant] at hb <;> simp only [Bank.base, SAD_RANGE_BASE, tileBase, dieBase] <;> omega
  · simp only [SAD_RANGE_BASE, ERR_SUMMARY]
    omega
  · simp only [SAD_RANGE_BASE, errBase]
    split <;> omega

theorem quadOf_lt (l : LineAddr) : quadOf l < 4 := by
  unfold quadOf
  generalize List.range 23 = js
  suffices ∀ a < 4, js.foldl (fun a j => a ^^^ (l.toNat / 4 ^ j % 4)) a < 4 from this 0 (by decide)
  induction js with
  | nil => exact fun a ha => ha
  | cons j js ih =>
    intro a ha
    exact ih _ (Nat.xor_lt_two_pow (n := 2) ha (Nat.mod_lt _ (by decide)))

@[simp] theorem Bank.quadrant_l3 (d : Nat) (l : LineAddr) : (Bank.l3 d (quadOf l)).quadrant := quadOf_lt l
@[simp] theorem Bank.quadrant_tile (n : Nat) : (Bank.tile n).quadrant := trivial
@[simp] theorem Bank.quadrant_mc (c : Nat) : (Bank.mc c).quadrant := trivial
@[simp] theorem Bank.quadrant_rlink (d : Nat) : (Bank.rlink d).quadrant := trivial

@[simp] theorem Run.sad_logRec (r : Run s0) {b : Bank} (hb : b.quadrant) (x : Rec) (ring : Option Bool) : (r.logRec b x ring).sad = r.sad :=
  Run.sad_of_rest fun i => Run.rest_logRec r (Bank.apart_sad hb i) x ring

@[simp] theorem Run.sad_aplicEdge (r : Run s0) (n : Nat) : (r.aplicEdge n).sad = r.sad :=
  Run.sad_of_rest fun i => Run.rest_aplicEdge r (msiApart_sad i) n

@[simp] theorem Run.sad_pokeHart (r : Run s0) (h : Nat) : (r.pokeHart h).sad = r.sad :=
  Run.sad_of_rest fun _ => Run.rest_pokeHart r h _

/-! ### Arrays -/

theorem notSad_HART_STAT (n h : Nat) : (HART_STAT n (h % 4)).notSad := fun i => by
  simp only [SAD_RANGE_BASE, HART_STAT, tileBase]
  omega

theorem notSad_ARR {d a : Nat} (ha : a < 256) : (ARR_CECNT d a).notSad ∧ (ARR_FLIP d a).notSad ∧ ∀ j < 8, (ARR_ADDR d a j).notSad := by
  refine ⟨fun i => ?_, fun i => ?_, fun j hj i => ?_⟩ <;> simp only [SAD_RANGE_BASE, ARR_CECNT, ARR_FLIP, ARR_ADDR, errBase] <;> split <;> omega

theorem Run.ceEntry_lt (r : Run s0) (d a kind loc : Nat) : (r.ceEntry d a kind loc).1 < 8 := by
  unfold Run.ceEntry
  simp only
  split
  next j h => simpa using List.mem_of_find?_eq_some h
  · split
    next j h => simpa using List.mem_of_find?_eq_some h
    · generalize hf : (fun (b j : Nat) => _) = f
      have step : ∀ b j, b < 8 → j < 8 → f b j < 8 := by
        intro b j hb hj
        rw [← hf]
        dsimp only
        split
        · exact hj
        · exact hb
      exact List.foldlRecOn (motive := (· < 8)) _ f (by decide) fun b hb j hj => step b j hb (by simpa using hj)

theorem Run.sad_countCe (r : Run s0) {d a : Nat} (ha : a < 256) (kind loc : Nat) : (r.countCe d a kind loc).1.sad = r.sad := by
  obtain ⟨count, -, entry⟩ := notSad_ARR (d := d) ha
  unfold Run.countCe
  simp only
  rw [Run.sad_setReg _ _ (entry _ (Run.ceEntry_lt r d a kind loc)), Run.sad_addSat _ _ count]

theorem Run.sad_logCe (r : Run s0) {b : Bank} {d a : Nat} (hb : b.quadrant) (ha : a < 256) (kind loc : Nat) (x : Rec) :
    (r.logCe b d a kind loc x).sad = r.sad := by
  unfold Run.logCe
  simp only
  rw [Run.sad_logRec _ hb, Run.sad_countCe _ ha]

theorem Run.sad_armTake (r : Run s0) {d a : Nat} (ha : a < 256) : (r.armTake d a).1.sad = r.sad := by
  unfold Run.armTake
  split
  · exact Run.sad_setFld r _ (notSad_ARR ha).2.1
  · rfl

theorem Run.sad_victCheck (r : Run s0) {b : Bank} {a : Nat} (hb : b.quadrant) (ha : a < 256) (ce ucna : Nat) (v : Victim) :
    (r.victCheck b a ce ucna v).1.sad = r.sad := by
  unfold Run.victCheck
  split
  · rfl
  · simp only
    split
    · rw [Run.sad_logCe _ hb ha, Run.sad_fresh]
    · rw [Run.sad_logRec _ hb, Run.sad_fresh]

/-! ### FATAL -/

@[simp] theorem Run.sad_haltAll (r : Run s0) : r.haltAll.sad = r.sad := by
  unfold Run.haltAll
  refine Run.sad_foldl _ (fun r p => ?_) _ r
  split
  · rw [Run.sad_setFld _ _ (notSad_HART_STAT _ _), Run.sad_modHart]
  · rfl

theorem notSad_const {g : Reg} (h : g.off < 0x1000040000 ∨ 0x1000040200 ≤ g.off) : g.notSad := fun i => by
  simp only [SAD_RANGE_BASE]
  omega

@[simp] theorem Run.sad_fatal (r : Run s0) {b : Bank} (hb : b.quadrant) (x : Rec) : (r.fatal b x).sad = r.sad := by
  unfold Run.fatal
  simp only
  have v : ERR_FATAL.notSad := notSad_const (.inr (by decide))
  rw [Run.sad_foldl, Run.sad_foldl, Run.sad_haltAll, Run.sad_setFld _ _ (notSad_const (.inr (by decide))), Run.sad_act_pins, Run.sad_logRec _ hb]
  · have first : ∀ c : Prop, ∀ [Decidable c],
        (if c then r else ((r.setFld ERR_FATAL_V 1).setFld ERR_FATAL_DIE b.die).setFld ERR_FATAL_EVENT x.event).sad = r.sad := by
      intro c _
      split
      · rfl
      · rw [Run.sad_setFld _ _ v, Run.sad_setFld _ _ v, Run.sad_setFld _ _ v]
    split
    · rw [Run.sad_setFld _ _ v, first]
    · exact first _
  · intro r g
    split <;> rfl
  · intro r c
    split
    · refine Run.sad_setFld r _ (notSad_const (.inr ?_))
      simp only [MC_STATUS_SR, MC_STATUS]
      omega
    · rfl

end Sys2Proof.Machine

/-! Settling a hart leaves the ranges of the system address decoder (R20), as does every operation it is made of: each lemma
names the operations that its function calls. -/
namespace Sys2Proof.Machine

variable {s0 : State}

/-! #### Cache slots, sharers and stored errors -/

@[simp] theorem Run.sad_l2Touch (r : Run s0) (n : Nat) (l : LineAddr) (w : Nat) : (r.l2Touch n l w).sad = r.sad := by
  unfold Run.l2Touch
  grind [Run.sad_modPlruBits]

@[simp] theorem Run.sad_l1Drop (r : Run s0) (n : Nat) (l : LineAddr) : (r.l1Drop n l).sad = r.sad := by
  unfold Run.l1Drop
  grind [Run.sad_setL1iSlot, Run.sad_setL1dSlot]

@[simp] theorem Run.sad_cvWrite (r : Run s0) (d w : Nat) (s : L3Slot) (cv : BitVec 16) : (r.cvWrite d w s cv).sad = r.sad := by
  unfold Run.cvWrite
  grind [Run.sad_armTake, Run.sad_setL3Slot, quadOf_lt]

@[simp] theorem Run.sad_cvClear (r : Run s0) (d : Nat) (l : LineAddr) (t : Nat) : (r.cvClear d l t).sad = r.sad := by
  unfold Run.cvClear
  grind [Run.sad_cvWrite]

@[simp] theorem Run.sad_l2Forget (r : Run s0) (n : Nat) (l : LineAddr) : (r.l2Forget n l).sad = r.sad := by
  unfold Run.l2Forget
  grind [Run.sad_cvClear, Run.sad_setL2Slot, Run.sad_l1Drop]

@[simp] theorem Run.sad_l2Check (r : Run s0) (n : Nat) (l : LineAddr) : (r.l2Check n l).sad = r.sad := by
  unfold Run.l2Check
  grind [Run.sad_setL2Slot, Run.sad_logRec, Run.sad_l1Drop, Run.sad_fresh, Run.sad_l2Forget, Run.sad_logCe, Bank.quadrant_tile]

@[simp] theorem Run.sad_l3Check (r : Run s0) (d : Nat) (l : LineAddr) : (r.l3Check d l).sad = r.sad := by
  unfold Run.l3Check
  grind [Run.sad_setL3Slot, Run.sad_logRec, Run.sad_fresh, Run.sad_logCe, Bank.quadrant_l3, quadOf_lt]

@[simp] theorem Run.sad_poisonOwned (r : Run s0) (d t set : Nat) : (r.poisonOwned d t set).sad = r.sad := by
  unfold Run.poisonOwned
  refine Run.sad_foldl _ (fun r e => ?_) _ r
  grind [Run.sad_setL3Slot, Run.sad_setL2Slot, Run.sad_l1Drop]

@[simp] theorem Run.sad_l2TagCheck (r : Run s0) (n : Nat) (l : LineAddr) : (r.l2TagCheck n l).sad = r.sad := by
  unfold Run.l2TagCheck
  refine Run.sad_foldl _ (fun r w => ?_) _ r
  grind [Run.sad_setL2Slot, Run.sad_l1Drop, Run.sad_poisonOwned, Run.sad_logRec, Run.sad_logCe, Bank.quadrant_tile]

@[simp] theorem Run.sad_l2Look (r : Run s0) (n : Nat) (l : LineAddr) : (r.l2Look n l).sad = r.sad := by
  rw [Run.l2Look, Run.sad_l2Check, Run.sad_l2TagCheck]

@[simp] theorem Run.sad_l3TagCheck (r : Run s0) (d : Nat) (l : LineAddr) : (r.l3TagCheck d l).sad = r.sad := by
  unfold Run.l3TagCheck
  refine Run.sad_foldl _ (fun r w => ?_) _ r
  grind [Run.sad_setL3Slot, Run.sad_logCe, Bank.quadrant_l3, quadOf_lt]

@[simp] theorem Run.sad_l2Write (r : Run s0) (n : Nat) (w : Nat) (s : L2Slot) (idx : Nat) (tag : Bool) : (r.l2Write n w s idx tag).sad = r.sad := by
  unfold Run.l2Write
  grind [Run.sad_setL2Slot, Run.sad_armTake]

@[simp] theorem Run.sad_l3Write (r : Run s0) (d : Nat) (w : Nat) (s : L3Slot) (tag : Bool) : (r.l3Write d w s tag).sad = r.sad := by
  unfold Run.l3Write
  grind [Run.sad_setL3Slot, Run.sad_armTake, quadOf_lt]

/-! #### Memory -/

@[simp] theorem Run.sad_dramStored (r : Run s0) (c la : Nat) : (r.dramStored c la).1.sad = r.sad := by
  unfold Run.dramStored
  grind [Run.sad_fresh]

theorem notSad_MC_CECNT (c k : Nat) : (MC_CECNT c k).notSad := notSad_const (.inr (by simp only [MC_CECNT]; omega))

@[simp] theorem Run.sad_mcLog (r : Run s0) (c la event : Nat) (cls : Cls) (sys : Option Nat) (syn dev : Nat) (poisoned : Bool) :
    (r.mcLog c la event cls sys syn dev poisoned).sad = r.sad := Run.sad_logRec r (Bank.quadrant_mc c) _ _

@[simp] theorem Run.sad_mcCorrected (r : Run s0) (c la : Nat) (sys : Option Nat) (dev : Nat) : (r.mcCorrected c la sys dev).sad = r.sad := by
  unfold Run.mcCorrected
  simp only
  rw [Run.sad_mcLog, Run.sad_setFld _ _ (notSad_MC_CECNT _ _), Run.sad_addSat _ _ (notSad_MC_CECNT _ _)]

theorem Run.sad_dramTry (r : Run s0) {c la : Nat} {sys : Option Nat} {d : DLine} {x : Code × List (Nat × BitVec 16)} {q : Run s0 × DLine}
    (h : r.dramTry c la sys d x = some q) : q.1.sad = r.sad := by
  unfold Run.dramTry at h
  grind [Run.sad_mcCorrected, Run.sad_setDline]

@[simp] theorem Run.sad_dramCode (r : Run s0) (c la : Nat) (sys : Option Nat) : (r.dramCode c la sys).1.sad = r.sad := by
  unfold Run.dramCode
  grind [Run.sad_mcLog, Run.sad_dramTry, Run.sad_setDline, Run.sad_dramStored]

@[simp] theorem Run.sad_dramRead (r : Run s0) (c la a : Nat) (k : KeySlot) : (r.dramRead c la a k).1.sad = r.sad := by
  unfold Run.dramRead
  grind [Run.sad_mcLog, Run.sad_fresh, Run.sad_dramCode]

@[simp] theorem Run.sad_dramWrite (r : Run s0) (c la a : Nat) (data : LineData) (poison : Bool) (dir : Nat) (k : KeySlot) :
    (r.dramWrite c la a data poison dir k).sad = r.sad := by
  unfold Run.dramWrite
  grind [Run.sad_setDline]

/-! #### A hart's registers, triggers and retirement -/

@[simp] theorem Run.sad_setXr (r : Run s0) (h i : Nat) (v : Word) : (r.setXr h i v).sad = r.sad := by
  unfold Run.setXr
  grind [Run.sad_setX]

@[simp] theorem Run.sad_setCsr (r : Run s0) (h n : Nat) (v : Word) : (r.setCsr h n v).sad = r.sad := rfl

@[simp] theorem Run.sad_setCf (r : Run s0) (h n hi lo v : Nat) : (r.setCf h n hi lo v).sad = r.sad := by
  unfold Run.setCf
  grind [Run.sad_setCsr]

@[simp] theorem Run.sad_setTrig (r : Run s0) (h i : Nat) (v : Word × Word) : (r.setTrig h i v).sad = r.sad := by
  unfold Run.setTrig
  grind [Run.sad_modHart]

@[simp] theorem Run.sad_dueHalt (r : Run s0) (h cause : Nat) : (r.dueHalt h cause).sad = r.sad := by
  unfold Run.dueHalt
  grind [Run.sad_pokeHart, Run.sad_modHart]

@[simp] theorem Run.sad_dueTrig (r : Run s0) (h i : Nat) : (r.dueTrig h i).sad = r.sad := by
  unfold Run.dueTrig
  grind [Run.sad_pokeHart, Run.sad_modHart, Run.sad_dueHalt]

@[simp] theorem Run.sad_icount (r : Run s0) (h : Nat) : (r.icount h).sad = r.sad := by
  unfold Run.icount
  simp only
  split
  · rfl
  · refine Run.sad_foldl _ (fun r i => ?_) _ r
    grind [Run.sad_setTrig, Run.sad_dueTrig]

@[simp] theorem Run.sad_clearRegs (r : Run s0) (h : Nat) : (r.clearRegs h).sad = r.sad := by
  unfold Run.clearRegs
  refine Run.sad_foldl _ (fun r i => ?_) _ r
  rw [Run.sad_setV, Run.sad_setF, Run.sad_setX]

@[simp] theorem Run.sad_tally (r : Run s0) (h ev k : Nat) : (r.tally h ev k).sad = r.sad := by
  unfold Run.tally
  grind [Run.sad_modHart]

@[simp] theorem Run.sad_tallyTile (r : Run s0) (n ev : Nat) : (r.tallyTile n ev).sad = r.sad := by
  unfold Run.tallyTile
  grind [Run.sad_modTile]

@[simp] theorem Run.sad_moveOn (r : Run s0) (h : Nat) : (r.moveOn h).sad = r.sad := by
  unfold Run.moveOn
  grind [Run.sad_pokeHart, Run.sad_setCsr, Run.sad_modHart, Run.sad_tally]

@[simp] theorem Run.sad_retire (r : Run s0) (h : Nat) : (r.retire h).sad = r.sad := by
  unfold Run.retire
  grind [Run.sad_icount, Run.sad_moveOn, Run.sad_dueHalt]

theorem Run.sad_showHart (r : Run s0) (h : Nat) : (r.showHart h).sad = r.sad := by
  unfold Run.showHart
  simp only
  rw [Run.sad_setFld _ _ (notSad_HART_STAT _ _), Run.sad_setFld _ _ (notSad_HART_STAT _ _)]

@[simp] theorem Run.sad_setRun (r : Run s0) (h : Nat) (x : HRun) : (r.setRun h x).sad = r.sad := by
  unfold Run.setRun
  grind [Run.sad_showHart, Run.sad_modHart]

/-! #### Messages, reservations and lines lost -/

@[simp] theorem Run.sad_take (r : Run s0) (m : Msg) : (r.take m).sad = r.sad := by
  unfold Run.take
  grind [Run.sad_setSeq, Run.sad_act_net]

@[simp] theorem Run.sad_loseOf (r : Run s0) (l : LineAddr) (f : Nat → Bool) : (r.loseOf l f).sad = r.sad := by
  unfold Run.loseOf
  grind [Run.sad_pokeHart, Run.sad_modHart, Run.sad_foldl]

@[simp] theorem Run.sad_loseResv (r : Run s0) (l : LineAddr) : (r.loseResv l).sad = r.sad := by
  unfold Run.loseResv
  grind [Run.sad_loseOf]

@[simp] theorem Run.sad_tileDrop (r : Run s0) (n : Nat) (l : LineAddr) : (r.tileDrop n l).sad = r.sad := by
  unfold Run.tileDrop
  grind [Run.sad_setL2Slot, Run.sad_l1Drop]

@[simp] theorem Run.sad_wrMem (r : Run s0) (c la : Nat) (l : LineAddr) (w : Wr) : (r.wrMem c la l w).sad = r.sad := by
  unfold Run.wrMem
  grind [Run.sad_dramWrite, Run.sad_dramRead, Run.sad_loseResv]

@[simp] theorem Run.sad_dropOps (r : Run s0) (f : Op → Bool) : (r.dropOps f).sad = r.sad := by
  unfold Run.dropOps
  grind [Run.sad_act_ops]

/-! #### Enclave contexts and traps -/

@[simp] theorem Run.sad_zeroContext (r : Run s0) (h : Nat) : (r.zeroContext h).sad = r.sad := by
  unfold Run.zeroContext
  refine (Run.sad_foldl _ (fun r n => ?_) _ _).trans (Run.sad_clearRegs r h)
  exact Run.sad_setCsr r h n 0

theorem Run.sad_setThread_susp (r : Run s0) (e t : Nat) (b : Bool) : (r.setThread ENC_STAT_TSUSP e t b).sad = r.sad :=
  Run.sad_setBit r _ _ (notSad_const (.inr (by simp only [ENC_STAT_TSUSP, ENC_STAT]; omega)))

theorem Run.sad_setThread_busy (r : Run s0) (e t : Nat) (b : Bool) : (r.setThread ENC_STAT_TBUSY e t b).sad = r.sad :=
  Run.sad_setBit r _ _ (notSad_const (.inr (by simp only [ENC_STAT_TBUSY, ENC_STAT]; omega)))

@[simp] theorem Run.sad_saveLine (r : Run s0) (h : Nat) (l : LineAddr) (data : LineData) : (r.saveLine h l data).sad = r.sad := by
  unfold Run.saveLine
  grind [Run.sad_wrMem, Run.sad_act_ops, Run.sad_send]

@[simp] theorem Run.sad_saveContext (r : Run s0) (h : Nat) : (r.saveContext h).sad = r.sad := by
  unfold Run.saveContext
  simp only
  generalize (List.range 64).map _ = lines
  refine Run.sad_foldl _ (fun r e => ?_) lines r
  exact Run.sad_saveLine r h _ e.2

@[simp] theorem Run.sad_restoreCaller (r : Run s0) (h st : Nat) (x11 : Word) : (r.restoreCaller h st x11).sad = r.sad := by
  unfold Run.restoreCaller
  split
  · rfl
  · simp only [Run.sad_showHart, Run.sad_modHart, Run.sad_setXr]
    refine (Run.sad_foldl _ (fun r e => ?_) _ _).trans (Run.sad_zeroContext r h)
    exact Run.sad_setXr r h e.1 e.2

@[simp] theorem Run.sad_depart (r : Run s0) (h : Nat) : (r.depart h).sad = r.sad := by
  unfold Run.depart
  simp only [Run.sad_restoreCaller, Run.sad_setThread_busy, Run.sad_setThread_susp, Run.sad_saveContext]

@[simp] theorem Run.sad_startSwitch (r : Run s0) (n ceid : Nat) : (r.startSwitch n ceid).sad = r.sad := by
  unfold Run.startSwitch
  grind [Run.sad_modTile]

@[simp] theorem Run.sad_leaveCore (r : Run s0) (n e : Nat) : (r.leaveCore n e).sad = r.sad := by
  unfold Run.leaveCore
  simp only [Run.sad_startSwitch]
  refine Run.sad_foldl _ (fun r i => ?_) _ r
  split
  · simp only [Run.sad_showHart, Run.sad_depart, Run.sad_modHart]
  · rfl

@[simp] theorem Run.sad_enter (r : Run s0) (h : Nat) (md : Mode) (epc : Word) (x : Exc) : (r.enter h md epc x).sad = r.sad := by
  unfold Run.enter
  simp only
  split <;> simp only [Run.sad_modHart, Run.sad_setCf, Run.sad_setCsr]

@[simp] theorem Run.sad_noteKeyFault (r : Run s0) (h : Nat) (x : Exc) : (r.noteKeyFault h x).sad = r.sad := by
  unfold Run.noteKeyFault
  grind [Run.sad_setCsr]

@[simp] theorem Run.sad_trapTriggers (r : Run s0) (h : Nat) (md : Mode) (x : Exc) : (r.trapTriggers h md x).sad = r.sad := by
  unfold Run.trapTriggers
  grind [Run.sad_dueTrig, Run.sad_dueHalt]

@[simp] theorem Run.sad_trap (r : Run s0) (h : Nat) (x : Exc) : (r.trap h x).sad = r.sad := by
  unfold Run.trap
  simp only
  split
  · simp only [Run.sad_modHart, Run.sad_noteKeyFault, Run.sad_dropOps]
  · split <;> simp only [Run.sad_trapTriggers, Run.sad_pokeHart, Run.sad_leaveCore, Run.sad_enter, Run.sad_depart, Run.sad_modHart,
      Run.sad_noteKeyFault, Run.sad_dropOps]

@[simp] theorem Run.sad_fire (r : Run s0) (h i : Nat) (va : Word) : (r.fire h i va).sad = r.sad := by
  unfold Run.fire
  grind [Run.sad_setTrig, Run.sad_trap, Run.sad_dueHalt]

@[simp] theorem Run.sad_consume (r : Run s0) (h src : Nat) (l : LineAddr) (va : Word) : (r.consume h src l va).sad = r.sad := by
  unfold Run.consume
  simp only
  split
  · rw [Run.sad_modHart, Run.sad_logRec _ (Bank.quadrant_tile _)]
  · split
    · exact Run.sad_fatal r (Bank.quadrant_tile _) _
    · rw [Run.sad_trap, Run.sad_logRec _ (Bank.quadrant_tile _), Run.sad_setCsr, Run.sad_setCsr]

/-! #### Evictions and fills -/

@[simp] theorem Run.sad_keepOut (r : Run s0) (d w : Nat) (s : L3Slot) : (r.keepOut d w s).sad = r.sad := by
  unfold Run.keepOut
  grind [Run.sad_send, Run.sad_modQuad]

@[simp] theorem Run.sad_keepStale (r : Run s0) (d : Nat) (l : LineAddr) : (r.keepStale d l).sad = r.sad := by
  unfold Run.keepStale
  grind [Run.sad_modQuad]

@[simp] theorem Run.sad_l3TakeDirty (r : Run s0) (d : Nat) (l : LineAddr) (data : LineData) (poison : Bool) :
    (r.l3TakeDirty d l data poison).sad = r.sad := by
  unfold Run.l3TakeDirty
  grind [Run.sad_l3Write, Run.sad_keepStale]

@[simp] theorem Run.sad_tileEvict (r : Run s0) (m : Msg) (n : Nat) : (r.tileEvict m n).sad = r.sad := by
  unfold Run.tileEvict
  grind [Run.sad_cvClear, Run.sad_keepOut, Run.sad_take, Run.sad_l3TakeDirty, Run.sad_modTile]

@[simp] theorem Run.sad_flushEv (r : Run s0) (n : Nat) (l : LineAddr) : (r.flushEv n l).sad = r.sad := by
  unfold Run.flushEv
  grind [Run.sad_tileEvict]

@[simp] theorem Run.sad_flushDie (r : Run s0) (d : Nat) (l : LineAddr) : (r.flushDie d l).sad = r.sad := by
  unfold Run.flushDie
  exact Run.sad_foldl _ (fun r t => Run.sad_flushEv r _ l) _ r

@[simp] theorem Run.sad_l2Evict (r : Run s0) (n w : Nat) (s : L2Slot) : (r.l2Evict n w s).sad = r.sad := by
  unfold Run.l2Evict
  grind [Run.sad_send, Run.sad_setL2Slot, Run.sad_l1Drop, Run.sad_victCheck, Run.sad_l2Check, Run.sad_armTake, Run.sad_modTile, Run.sad_flushEv,
    Bank.quadrant_tile]

@[simp] theorem Run.sad_l2Fill (r : Run s0) (n : Nat) (l : LineAddr) (st : St) (data : LineData) (poison : Bool) :
    (r.l2Fill n l st data poison).sad = r.sad := by
  unfold Run.l2Fill
  grind [Run.sad_l2Evict, Run.sad_l2Write, Run.sad_setL2Slot, Run.sad_l2Touch]

@[simp] theorem Run.sad_l1Fill (r : Run s0) (n : Nat) (l : LineAddr) (inst : Bool) : (r.l1Fill n l inst).sad = r.sad := by
  unfold Run.l1Fill
  grind [Run.sad_setL1iSlot, Run.sad_armTake, Run.sad_modPlruBits, Run.sad_setL1dSlot]

@[simp] theorem Run.sad_l1dCheck (r : Run s0) (n : Nat) (l : LineAddr) : (r.l1dCheck n l).sad = r.sad := by
  unfold Run.l1dCheck
  grind [Run.sad_setL1dSlot, Run.sad_logCe, Bank.quadrant_tile]

@[simp] theorem Run.sad_l1Store (r : Run s0) (n : Nat) (l : LineAddr) (mask : BitVec 64) : (r.l1Store n l mask).sad = r.sad := by
  unfold Run.l1Store
  grind [Run.sad_setL1iSlot, Run.sad_armTake, Run.sad_setL1dSlot]

@[simp] theorem Run.sad_l2Store (r : Run s0) (n : Nat) (l : LineAddr) (data : LineData) (mask : BitVec 64) (zero : Bool) (poison : Bool) :
    (r.l2Store n l data mask zero poison).sad = r.sad := by
  unfold Run.l2Store
  grind [Run.sad_l2Write, Run.sad_l1Drop, Run.sad_loseResv, Run.sad_l3TakeDirty, Run.sad_l1Store]

/-! #### Accesses and the merging buffer -/

@[simp] theorem Run.sad_miss (r : Run s0) (n : Nat) (l : LineAddr) (own claim : Bool) (w : Want) : (r.miss n l own claim w).sad = r.sad := by
  unfold Run.miss
  grind [Run.sad_tally, Run.sad_modTile]

@[simp] theorem Run.sad_doLaunch (r : Run s0) (n : Nat) (l : LineAddr) : (r.doLaunch n l).1.sad = r.sad := by
  unfold Run.doLaunch
  grind [Run.sad_modTile, Run.sad_flushEv]

@[simp] theorem Run.sad_writeDest (r : Run s0) (h : Nat) (rd : Dest) (v : BitVec 128) (lg : Nat) (uns : Bool) :
    (r.writeDest h rd v lg uns).sad = r.sad := by
  unfold Run.writeDest
  grind [Run.sad_setXr, Run.sad_setF, Run.sad_modV]

@[simp] theorem Run.sad_writeAmo (r : Run s0) (h rd lg : Nat) (old : BitVec 128) : (r.writeAmo h rd lg old).sad = r.sad := by
  unfold Run.writeAmo
  grind [Run.sad_setXr]

@[simp] theorem Run.sad_reserve (r : Run s0) (h : Nat) (l : LineAddr) : (r.reserve h l).sad = r.sad := by
  unfold Run.reserve
  grind [Run.sad_modHart]

@[simp] theorem Run.sad_finishAcc (r : Run s0) (h : Nat) (a : Acc) (l : LineAddr) : (r.finishAcc h a l).sad = r.sad := by
  unfold Run.finishAcc
  grind [Run.sad_setXr, Run.sad_writeDest, Run.sad_reserve, Run.sad_retire]

@[simp] theorem Run.sad_perform (r : Run s0) (n h : Nat) (a : Acc) (p : Part) (rest : List Part) : (r.perform n h a p rest).1.sad = r.sad := by
  have check := Run.sad_l1dCheck r n p.line
  unfold Run.perform
  generalize r.l1dCheck n p.line = c at check ⊢
  simp only
  generalize hq : (if ((c.l1dFind n p.line).isSome && !a.op.owns) = true then c else c.l2Look n p.line) = q
  have look : q.sad = r.sad := by
    rw [← hq, ← check]
    split
    · rfl
    · exact Run.sad_l2Look c n p.line
  split
  · rw [Run.sad_miss, look]
  · split
    · split <;> simp only [Run.sad_retire, Run.sad_tally, Run.sad_modHart, Run.sad_setXr, Run.sad_l2Store, Run.sad_l2Touch, look]
    · split <;> simp only [Run.sad_consume, Run.sad_retire, Run.sad_tally, Run.sad_writeAmo, Run.sad_l2Store, Run.sad_l2Touch, look]
    · split
      · simp only [Run.sad_consume, Run.sad_l2Touch, look]
      · split <;> simp only [Run.sad_finishAcc, Run.sad_modHart, Run.sad_l1Fill, apply_ite Run.sad, Run.sad_tally, ite_self, Run.sad_l2Touch, look]

@[simp] theorem Run.sad_smbCheck (r : Run s0) (n : Nat) (e : SmbEntry) : (r.smbCheck n e).1.sad = r.sad := by
  unfold Run.smbCheck
  grind [Run.sad_logRec, Run.sad_logCe, Bank.quadrant_tile]

@[simp] theorem Run.sad_drainEntry (r : Run s0) (n : Nat) (e : SmbEntry) : (r.drainEntry n e).sad = r.sad := by
  unfold Run.drainEntry
  grind [Run.sad_modTile, Run.sad_smbCheck, Run.sad_l2Store]

@[simp] theorem Run.sad_smbPut (r : Run s0) (n : Nat) (e : SqEntry) : (r.smbPut n e).sad = r.sad := by
  unfold Run.smbPut
  grind [Run.sad_armTake, Run.sad_modTile]

@[simp] theorem Run.sad_doSmb (r : Run s0) (n : Nat) : (r.doSmb n).1.sad = r.sad := by
  have entries : ∀ (p : Run s0 × List Todo) (e : SmbEntry), (if (p.1.l2Look n e.line).l2Has n e.line true = true then
      ((p.1.l2Look n e.line).drainEntry n e, p.2 ++ [.hart e.hart])
      else ((p.1.l2Look n e.line).miss n e.line true e.zero (.drain e.hart), p.2 ++ [.launch n e.line])).1.sad = p.1.sad := by
    intro p e
    split <;> simp only [Run.sad_drainEntry, Run.sad_miss, Run.sad_l2Look]
  have drained := Run.sad_foldl_fst _ entries ((r.tile n).smb.filter (·.draining)) (r, [])
  unfold Run.doSmb
  simp only
  generalize List.foldl _ _ _ = p at drained ⊢
  grind [Run.sad_smbPut, Run.sad_modTile]

@[simp] theorem Run.sad_fetched_ (r : Run s0) (n : Nat) (l : LineAddr) : (r.fetched_ n l).sad = r.sad := by
  have look := Run.sad_l2Look r n l
  unfold Run.fetched_
  generalize r.l2Look n l = q at look ⊢
  grind [Run.sad_l1Fill]

@[simp] theorem Run.sad_walked (r : Run s0) (n h : Nat) (l : LineAddr) : (r.walked n h l).sad = r.sad := by
  have look := Run.sad_l2Look r n l
  unfold Run.walked
  generalize r.l2Look n l = q at look ⊢
  grind [Run.sad_act_ops]

@[simp] theorem Run.sad_doServe (r : Run s0) (n : Nat) (l : LineAddr) : (r.doServe n l).1.sad = r.sad := by
  unfold Run.doServe
  split
  · rfl
  next m _ =>
    generalize hf : (fun (p : Run s0 × List Todo × List Want) (w : Want) => _) = f
    have step : ∀ p w, (f p w).1.sad = p.1.sad := by
      intro p w
      rw [← hf]
      cases w <;> dsimp only
      case prefetch i =>
        split
        · exact Run.sad_l1Fill p.1 n l true
        · rfl
      case stride => exact Run.sad_l1Fill p.1 n l false
      case fetch h => exact Run.sad_fetched_ p.1 n l
      case walk h => exact Run.sad_walked p.1 n h l
      case drain h =>
        split
        · rfl
        · split
          · rw [Run.sad_drainEntry, Run.sad_l2Look]
          · rw [Run.sad_l2Look]
      case hart h =>
        split
        · split
          · split
            · split
              · exact Run.sad_perform p.1 n h _ _ _
              · rfl
            · rfl
          · rfl
        · rfl
    extract_lets taken p served again next free
    have all : p.1.sad = r.sad := Run.sad_foldl_fst f step m.want (taken, [], [])
    clear_value p
    grind [Run.sad_modTile, Run.sad_l2Evict, Run.sad_flushEv]

/-! #### Snoops and the quadrants -/

@[simp] theorem Run.sad_snoopTile (r : Run s0) (n : Nat) (l : LineAddr) (k : MsgKind) : (r.snoopTile n l k).1.sad = r.sad := by
  have look : ((r.tallyTile n 0x0060).l2Look n l).sad = r.sad := by rw [Run.sad_l2Look, Run.sad_tallyTile]
  unfold Run.snoopTile
  generalize (r.tallyTile n 0x0060).l2Look n l = q at look ⊢
  simp only
  split
  · exact look
  · split <;> simp only [Run.sad_setL2Slot, Run.sad_tileDrop, look]

@[simp] theorem Run.sad_snoopTiles (r : Run s0) (d : Nat) (l : LineAddr) (k : MsgKind) (ts : List Nat) : (r.snoopTiles d l k ts).sad = r.sad := by
  unfold Run.snoopTiles
  refine Run.sad_foldl _ (fun r t => ?_) _ r
  have snooped := Run.sad_snoopTile r (d * 16 + t) l k
  generalize r.snoopTile (d * 16 + t) l k = p at snooped ⊢
  simp only [apply_ite Run.sad, Run.sad_cvClear, ite_self]
  split
  · rw [Run.sad_l3TakeDirty, snooped]
  · exact snooped

@[simp] theorem Run.sad_l3Evict (r : Run s0) (d w : Nat) (s : L3Slot) : (r.l3Evict d w s).1.sad = r.sad := by
  unfold Run.l3Evict
  simp only
  generalize hq : Run.snoopTiles _ d s.line .snpX _ = q
  have recalled : q.sad = r.sad := by rw [← hq, Run.sad_snoopTiles, Run.sad_flushDie]
  generalize hc : q.l3Check d s.line = c
  have checked : c.sad = r.sad := by rw [← hc, Run.sad_l3Check, recalled]
  have a : 128 + quadOf s.line * 3 + 2 < 256 := by
    have := quadOf_lt s.line
    omega
  split
  · rw [Run.sad_send, Run.sad_modQuad, Run.sad_victCheck _ (Bank.quadrant_l3 _ _) a, Run.sad_armTake _ a, Run.sad_setL3Slot, checked]
  · rw [Run.sad_setL3Slot, checked]

@[simp] theorem Run.sad_l3Age (r : Run s0) (d : Nat) (l : LineAddr) (by_ : Nat) : (r.l3Age d l by_).sad = r.sad := by
  unfold Run.l3Age
  split
  · rfl
  · refine Run.sad_foldl _ (fun r w => ?_) _ r
    split
    · exact Run.sad_setL3Slot r _ _
    · rfl

@[simp] theorem Run.sad_l3Touch (r : Run s0) (d : Nat) (l : LineAddr) : (r.l3Touch d l).sad = r.sad := by
  unfold Run.l3Touch
  grind [Run.sad_setL3Slot]

@[simp] theorem Run.sad_quadWait (r : Run s0) (q n : Nat) (l : LineAddr) (k : MsgKind) : (r.quadWait q n l k).sad = r.sad := by
  unfold Run.quadWait
  grind [Run.sad_modQuad]

@[simp] theorem Run.sad_modMiss (r : Run s0) (qk : Nat) (l : LineAddr) (f : QMiss → QMiss) : (r.modMiss qk l f).sad = r.sad := by
  unfold Run.modMiss
  grind [Run.sad_modQuad]

@[simp] theorem Run.sad_quadSend (r : Run s0) (d : Nat) (x : QMiss) (w : Nat) (st : St) : (r.quadSend d x w st).sad = r.sad := by
  unfold Run.quadSend
  grind [Run.sad_send, Run.sad_modMiss]

@[simp] theorem Run.sad_quadPlace (r : Run s0) (d : Nat) (x : QMiss) : (r.quadPlace d x).sad = r.sad := by
  unfold Run.quadPlace
  grind [Run.sad_l3Age, Run.sad_quadSend, Run.sad_l3Evict]

@[simp] theorem Run.sad_quadMiss (r : Run s0) (d n : Nat) (l : LineAddr) (k kind : MsgKind) : (r.quadMiss d n l k kind).sad = r.sad := by
  unfold Run.quadMiss
  grind [Run.sad_quadWait, Run.sad_quadPlace, Run.sad_quadSend, Run.sad_modQuad]

@[simp] theorem Run.sad_doQuad (r : Run s0) (n : Nat) (l : LineAddr) (k : MsgKind) : (r.doQuad n l k).1.sad = r.sad := by
  unfold Run.doQuad
  extract_lets d t qk tagged named broken checked
  have tag : tagged.sad = r.sad := by rw [Run.sad_l3TagCheck, Run.sad_flushDie]
  have check : checked.sad = r.sad := by
    rw [Run.sad_l3Check, ← tag]
    split
    · exact Run.sad_snoopTiles tagged d l .snpX named
    · rfl
  clear_value tagged checked
  split
  · exact Run.sad_modMiss r qk l _
  · split
    · exact Run.sad_quadWait r qk n l k
    · split
      · rw [Run.sad_quadWait, tag]
      · split
        · rw [Run.sad_quadMiss, check]
        next w s _ =>
          extract_lets others excl shared owned
          split
          · split
            · rw [Run.sad_quadWait, check]
            · have snoop : shared.sad = r.sad := by
                rw [← check]
                by_cases c : excl
                · rw [show shared = _ from if_pos c]
                  exact Run.sad_snoopTiles checked d l .snpS _
                · rw [show shared = _ from if_neg c]
              clear_value shared
              split
              · exact snoop
              · simp only [Run.sad_l2Fill, Run.sad_cvWrite, Run.sad_l3Touch, snoop]
          · split
            · split
              · rw [Run.sad_quadWait, check]
              · have snoop : owned.sad = r.sad := by rw [Run.sad_snoopTiles, check]
                clear_value owned
                split
                · exact snoop
                · simp only [apply_ite Run.sad, Run.sad_l2Fill, ite_self, Run.sad_cvWrite, Run.sad_l3Touch, snoop]
            · rw [Run.sad_quadMiss, check]

/-! #### What goes on of itself -/

@[simp] theorem Run.sad_swop (r : Run s0) (h op level set way : Nat) : (r.swop h op level set way).1.sad = r.sad := by
  unfold Run.swop
  extract_lets n d slot1 slot2 q slot3 vict
  split
  · split
    · rfl
    · simp only [apply_ite Run.sad, Run.sad_setL1dSlot, Run.sad_setL1iSlot, ite_self]
  · split
    · split
      · rfl
      · split
        · rfl
        next s _ =>
          extract_lets looked
          have look : looked.sad = r.sad := Run.sad_l2Look r n s.line
          clear_value looked
          grind [Run.sad_l2Evict, Run.sad_flushEv, Run.sad_setL2Slot, Run.sad_l3TakeDirty]
    · split
      · rfl
      · split
        · rfl
        next s _ =>
          extract_lets l tagged
          have tag : tagged.sad = r.sad := by rw [Run.sad_l3TagCheck, Run.sad_flushDie]
          clear_value tagged
          split
          · rfl
          · split
            · exact tag
            next s _ =>
              extract_lets evicted snooped checked
              have snoop : snooped.sad = r.sad := by rw [Run.sad_snoopTiles, tag]
              have check : checked.sad = r.sad := by
                rw [← snoop]
                clear_value snooped
                subst checked
                split
                · split
                  · exact Run.sad_l3Check snooped d l
                  · rfl
                · rfl
              clear_value checked
              split
              · rw [Run.sad_l3Evict, tag]
              · split
                · exact check
                · split
                  · rw [Run.sad_keepOut, check]
                  · exact check

@[simp] theorem Run.sad_wake (r : Run s0) (h target rd : Nat) : (r.wake h target rd).sad = r.sad := by
  unfold Run.wake
  grind [Run.sad_setXr, Run.sad_pokeHart, Run.sad_retire, Run.sad_modHart]

@[simp] theorem Run.sad_goOn (r : Run s0) (h : Nat) (x : Next) : (r.goOn h x).1.sad = r.sad := by
  unfold Run.goOn
  grind [Run.sad_send, Run.sad_wake, Run.sad_retire, Run.sad_modHart, Run.sad_foldl]

@[simp] theorem Run.sad_doHart (r : Run s0) (h : Nat) : (r.doHart h).1.sad = r.sad := by
  unfold Run.doHart
  grind [Run.sad_perform, Run.sad_setXr, Run.sad_miss, Run.sad_retire, Run.sad_finishAcc, Run.sad_modHart, Run.sad_swop, Run.sad_goOn]

@[simp] theorem Run.sad_doRetry (r : Run s0) (q : Nat) : (r.doRetry q).1.sad = r.sad := by
  unfold Run.doRetry
  grind [Run.sad_quadPlace, Run.sad_modQuad, Run.sad_foldl]

@[simp] theorem Run.sad_doRelease (r : Run s0) (d : Nat) (l : LineAddr) : (r.doRelease d l).1.sad = r.sad := by
  unfold Run.doRelease
  grind [Run.sad_l3Evict]

@[simp] theorem Run.sad_drive (r : Run s0) (k : Nat) (ts : List Todo) : (r.drive k ts).sad = r.sad := by
  induction k generalizing r ts with
  | zero => rfl
  | succ k ih =>
    cases ts with
    | nil => rfl
    | cons t ts =>
      unfold Run.drive
      rw [ih]
      cases t with
      | launch n l => exact Run.sad_doLaunch r n l
      | quad n l m => exact Run.sad_doQuad r n l m
      | serve n l => exact Run.sad_doServe r n l
      | hart h => exact Run.sad_doHart r h
      | smb n => exact Run.sad_doSmb r n
      | retry q => exact Run.sad_doRetry r q
      | release d l => exact Run.sad_doRelease r d l

@[simp] theorem Run.sad_go (r : Run s0) (ts : List Todo) : (r.go ts).sad = r.sad := Run.sad_drive r _ ts

/-! #### Parks, wakes and the settling of a hart -/

theorem notSad_DOM_STAT (dom : Nat) : (DOM_STAT dom).notSad := notSad_const (.inr (by simp only [DOM_STAT]; omega))

theorem Run.sad_domEnd (r : Run s0) (st : Nat) : (r.domEnd st).sad = r.sad := by
  have cmd : WEIR_DOMCMD.notSad := notSad_const (.inr (by decide))
  have evt : WEIR_EVT.notSad := notSad_const (.inr (by decide))
  unfold Run.domEnd Run.weirEvt
  simp only [Run.sad_act_weir, apply_ite Run.sad, Run.sad_aplicEdge, ite_self]
  rw [Run.sad_setFld _ _ evt, Run.sad_setFld _ _ cmd, Run.sad_setFld _ _ cmd]

theorem Run.sad_endClean (r : Run s0) (dom : Nat) : (r.endClean dom).sad = r.sad := by
  unfold Run.endClean
  simp only
  split
  · rw [Run.sad_domEnd, Run.sad_setFld _ _ (notSad_DOM_STAT _)]
  · exact Run.sad_setFld r _ (notSad_DOM_STAT _)

theorem Run.sad_wakeTile (r : Run s0) (n : Nat) : (r.wakeTile n).sad = r.sad := by
  unfold Run.wakeTile
  simp only
  split
  · split
    · rfl
    · exact Run.sad_setFld r _ (notSad_DOM_STAT _)
  · exact Run.sad_endClean r _
  · rfl

@[simp] theorem Run.sad_leavePark (r : Run s0) (h : Nat) (p : Park) (bits : Nat) : (r.leavePark h p bits).sad = r.sad := by
  unfold Run.leavePark
  grind [Run.sad_setXr, Run.sad_setRun, Run.sad_retire, Run.sad_modHart, Run.sad_modTile]

@[simp] theorem Run.sad_reportWake (r : Run s0) (h bits : Nat) : (r.reportWake h bits).sad = r.sad := by
  unfold Run.reportWake
  grind [Run.sad_modHart]

@[simp] theorem Run.sad_endPark (r : Run s0) (h : Nat) (p : Park) (bits : Nat) : (r.endPark h p bits).sad = r.sad := by
  unfold Run.endPark
  grind [Run.sad_reportWake, Run.sad_leavePark]

@[simp] theorem Run.sad_markEnd (r : Run s0) (h : Nat) (p : Park) (bits : Nat) : (r.markEnd h p bits).sad = r.sad := by
  unfold Run.markEnd
  grind [Run.sad_reportWake, Run.sad_modHart]

@[simp] theorem Run.sad_enterDebug (r : Run s0) (h : Nat) : (r.enterDebug h).sad = r.sad := by
  unfold Run.enterDebug
  grind [Run.sad_leavePark, Run.sad_setRun, Run.sad_setCsr, Run.sad_modHart]

@[simp] theorem Run.sad_settleHart (r : Run s0) (h : Nat) : (r.settleHart h).sad = r.sad := by
  unfold Run.settleHart
  extract_lets n retried t ce left going fired
  have retry : retried.sad = r.sad := by
    refine Run.sad_foldl _ (fun r q => ?_) _ r
    split
    · rfl
    · exact Run.sad_go r _
  clear_value retried
  split
  · exact retry
  · split
    · rw [Run.sad_enterDebug, retry]
    · split
      · extract_lets b
        have leave : left.sad = r.sad := by
          rw [← retry]
          by_cases c : t.eid = 0 ∧ ce ≠ 0
          · rw [show left = _ from if_pos c, Run.sad_leaveCore]
          · rw [show left = _ from if_neg c]
        clear_value left
        split
        · exact retry
        · split
          · rw [Run.sad_pokeHart, Run.sad_endPark, Run.sad_wakeTile, retry]
          · split
            · rw [Run.sad_wakeTile, Run.sad_markEnd, retry]
            · simp only [Run.sad_pokeHart, apply_ite Run.sad, Run.sad_leavePark, Run.sad_endPark, ite_self, leave]
      · have go : going.sad = r.sad := by
          rw [← retry]
          by_cases c : (t.pause && retried.wfiHolds h) = true
          · rw [show going = _ from if_pos c, Run.sad_modHart]
          · rw [show going = _ from if_neg c]
        have fire : fired.sad = r.sad := by rw [Run.sad_modHart, go]
        clear_value going fired
        split
        · split
          · split
            · rw [Run.sad_fire, fire]
            · exact fire
          · split
            · rw [Run.sad_trap, go]
            · exact go
        · exact go

end Sys2Proof.Machine

/-! ### A write of a range's BASE (R20) -/
namespace Sys2Proof.Machine

variable {s0 : State}

/-! #### What follows from a command of itself leaves the ranges -/

theorem Run.sad_settleDrops (r : Run s0) : r.settleDrops.sad = r.sad := by
  unfold Run.settleDrops
  refine Run.sad_foldl _ (fun r p => ?_) _ r
  split
  · rw [Run.sad_logRec _ (Bank.quadrant_rlink _), Run.sad_modDie]
  · rfl

theorem Run.sad_settleLoop (r : Run s0) (k : Nat) : (r.settleLoop k).sad = r.sad := by
  induction k generalizing r with
  | zero => rfl
  | succ k ih =>
    rw [Run.settleLoop]
    split
    · rfl
    · rw [ih, Run.sad_settleHart, Run.sad_act_poke]

/-- A register of the file reads what the file lists for it. -/
theorem Run.reg_of_sad {r q : Run s0} (h : q.sad = r.sad) (n : Fin 32) : q.1.reg (SAD_RANGE_BASE n) = r.1.reg (SAD_RANGE_BASE n) := by
  have listed : q.1.regs.find? (SAD_RANGE_BASE n).off = r.1.regs.find? (SAD_RANGE_BASE n).off := congrFun h n
  rw [State.reg, State.reg, Sparse.get, Sparse.get, listed]

/-! #### Where BASE lies -/

/-- The family of the ranges' BASE registers. -/
abbrev sadBaseFamily : Family := ⟨.SAD_RANGE_BASE, 0x1000040000, [(32, 0x10)], fields_SAD_RANGE_BASE⟩

theorem findReg_SAD_RANGE_BASE : ∀ n : Fin 32, findReg (SAD_RANGE_BASE n).off = some (sadBaseFamily, [n.val]) := by decide +kernel

theorem reg_SAD_RANGE_BASE (n : Nat) : sadBaseFamily.reg (SAD_RANGE_BASE n).off = SAD_RANGE_BASE n := by
  have mask : fieldsMask fields_SAD_RANGE_BASE = (SAD_RANGE_BASE n).mask := by simp [fieldsMask, fields_SAD_RANGE_BASE, SAD_RANGE_BASE]
  have reset : fieldsRst (SAD_RANGE_BASE n).off fields_SAD_RANGE_BASE = (SAD_RANGE_BASE n).rst := by
    simp [fieldsRst, fields_SAD_RANGE_BASE, SAD_RANGE_BASE]
  rw [Family.reg, mask, reset]

/-- The two accesses that reach KIND and TARGET of a range's BASE: of the whole register, and of its high half. -/
def sadAccess (n : Fin 32) (o m : Nat) : Prop := o = (SAD_RANGE_BASE n).off ∧ m = 8 ∨ o = (SAD_RANGE_BASE n).off + 4 ∧ m = 4

variable {n : Fin 32} {o m : Nat}

theorem sadAccess.bounds (h : sadAccess n o m) :
    0x1000040000 ≤ o ∧ o < 0x1000040200 ∧ o / 8 * 8 = (SAD_RANGE_BASE n).off ∧ 4 ≤ m := by
  simp only [sadAccess, SAD_RANGE_BASE] at h ⊢
  omega

theorem sadAccess.decoded (h : sadAccess n o m) : decoded o = true := by
  obtain ⟨lo, hi, -, -⟩ := h.bounds
  have iod : ¬ o < 0x1000000000 := by omega
  have window : o < 0x2000000000 := by omega
  have block : (o - 0x1000000000) / 0x1000 = 0x40 := by omega
  unfold Machine.decoded
  simp only [if_neg iod, if_pos window, block]
  simp

theorem sadAccess.imsicPage (h : sadAccess n o m) : imsicPage o = none := by
  obtain ⟨lo, hi, -, -⟩ := h.bounds
  unfold Machine.imsicPage
  exact if_pos (.inl (by omega))

theorem sadAccess.msiDst (h : sadAccess n o m) (r : Run s0) : r.msiDst (0xFFF0000000000 + o) = none := by
  obtain ⟨lo, hi, -, -⟩ := h.bounds
  unfold Run.msiDst
  simp only
  split
  · rfl
  · rw [if_neg (by omega), if_neg (by omega)]

theorem sadAccess.secHeld (h : sadAccess n o m) (r : Run s0) : r.secHeld o = false := by
  obtain ⟨lo, hi, -, -⟩ := h.bounds
  unfold Run.secHeld
  simp only
  rw [if_neg (by omega), if_neg (by omega), if_neg (by omega)]
  simp only [SEC_GRPWORLD, SEC_IDRANGE, WDOG_CTL, MBX_STAT, List.mem_cons, List.not_mem_nil, or_false, decide_eq_false_iff_not]
  omega

/-! #### Where the write goes -/

/-- The write of an agent behind the IOMMU is turned away with a record (R338); of any other it faults or finds its block held, or reaches BASE. -/
theorem Run.regStore_sadBase (r : Run s0) (q : Requester) (h : sadAccess n o m) (x : Nat) :
    (r.regStore q o m x).1 = r ∨ (¬ r.1.writer q ∧ ∃ y, (r.regStore q o m x).1 = r.logRec .iommu y) ∨
      (r.regStore q o m x).1 = r.regPut q sadBaseFamily [n.val] (SAD_RANGE_BASE n).off (laneMask o m) (BitVec.ofNat 64 (x * 256 ^ (o % 8))) := by
  obtain ⟨lo, hi, whole, size⟩ := h.bounds
  have noMsi : (if m = 4 then r.msiDst (0xFFF0000000000 + o) else none) = none := by rw [h.msiDst, ite_self]
  unfold Run.regStore
  simp only [noMsi]
  cases q with
  | group g p | phlox f | peer p => exact .inr (.inl ⟨fun ⟨_, _, may⟩ => Bool.false_ne_true may, _, rfl⟩)
  | hart _ | lark _ | fox =>
    simp only [Bool.false_eq_true, if_false]
    rw [if_neg (by omega), if_neg (by omega), h.decoded, h.imsicPage, h.secHeld]
    simp only [Bool.not_true, Bool.false_eq_true, if_false, Option.isSome_none, Bool.false_and]
    split
    · exact .inl rfl
    · rw [if_neg (by omega), if_neg (by omega), if_neg (by omega), if_neg (by omega), if_neg (by omega), whole, findReg_SAD_RANGE_BASE n]
      exact .inr (.inr rfl)

/-- A write that reaches BASE is under the configuration lock and the rule of R20 alone. -/
theorem Run.regPut_sadBase (r : Run s0) (q : Requester) (n : Fin 32) (mask v : Word) :
    r.regPut q sadBaseFamily [n.val] (SAD_RANGE_BASE n).off mask v =
      r.wSadBase n (applyFields fields_SAD_RANGE_BASE (r.reg (SAD_RANGE_BASE n)) v mask (!r.locked) true) := by
  have iod : decide ((SAD_RANGE_BASE n).off < 2 ^ 36) = false := decide_eq_false (by simp only [SAD_RANGE_BASE]; omega)
  unfold Run.regPut
  simp only [reg_SAD_RANGE_BASE, iod]
  simp [Run.regRefuse, actionReg, Run.blockIdle]

/-! #### What the write leaves -/

/-- A value of BASE with KIND 3, or with a TARGET reserved for its KIND (R19). -/
def sadReserved (v : Word) : Prop :=
  Word.bits v 62 61 = 3 ∨ Word.bits v 62 61 = 0 ∧ 16 ≤ Word.bits v 60 56 ∨ Word.bits v 62 61 = 1 ∧ 4 ≤ Word.bits v 60 56

theorem Run.wSadBase_reserved (r : Run s0) (n : Nat) {v : Word} (h : sadReserved v) : r.wSadBase n v = r := if_pos h

/-- While the configuration lock is set, no field takes a new value. -/
theorem applyFields_locked (fs : List Field) (old v mask : Word) (rwq : Bool) (h : ∀ x ∈ fs, x.acc.l = true) :
    applyFields fs old v mask false rwq = old := by
  induction fs generalizing old with
  | nil => rfl
  | cons x xs ih =>
    obtain ⟨lx, h⟩ := List.forall_mem_cons.1 h
    have one : applyFields [x] old v mask false rwq = old := by
      simp only [applyFields, List.foldl_cons, List.foldl_nil, lx, Bool.not_false, Bool.and_self, Bool.true_or, if_true]
      cases x.acc.kind <;> simp only [BitVec.ofNat_eq_ofNat, BitVec.and_zero, BitVec.or_zero, BitVec.not_zero, BitVec.and_allOnes]
    rw [applyFields_cons, one, ih old h]

/-- A write whose bytes hold a whole read-write field gives the field its value, where nothing keeps it from being written (R6, R497). -/
theorem applyFields_bits_of_mask {fs : List Field} (old v mask : Word) {rwq : Bool} (hp : fs.Pairwise Field.apart)
    (ok : ∀ y ∈ fs, y.lo ≤ y.hi ∧ y.hi < 64) {x : Field} (hx : x ∈ fs) (kind : x.acc.kind = .rw) (hq : x.acc.q = false ∨ rwq = true)
    (hm : ∀ i, x.lo ≤ i → i ≤ x.hi → mask.getLsbD i = true) :
    Word.bits (applyFields fs old v mask true rwq) x.hi x.lo = Word.bits v x.hi x.lo := by
  induction fs generalizing old with
  | nil => exact absurd hx List.not_mem_nil
  | cons y ys ih =>
    obtain ⟨apart, hp⟩ := List.pairwise_cons.1 hp
    obtain ⟨⟨yl, yh⟩, oks⟩ := List.forall_mem_cons.1 ok
    rw [applyFields_cons]
    rcases List.mem_cons.1 hx with rfl | hx
    · have may : ((x.acc.l && !true) || (x.acc.q && !rwq)) = false := by rcases hq with h | h <;> simp [h]
      rw [applyFields_bits_apart x ys _ v mask true rwq yl yh apart oks]
      refine (Word.bits_eq_iff yl).2 fun i lo hi => ?_
      have inside : (fieldMask x.hi x.lo).getLsbD i = true := by simp [fieldMask_bit yh yl, lo, hi]
      have h64 : i < 64 := by omega
      simp only [applyFields, List.foldl_cons, List.foldl_nil, may, kind, Bool.false_eq_true, if_false]
      simp [inside, hm i lo hi, h64, -BitVec.getLsbD_eq_getElem]
    · exact ih _ hp oks hx

/-- KIND and TARGET of BASE take those of a write whose bytes hold them. -/
theorem sadReserved_applyFields {v w mask : Word} (old : Word) (rwq : Bool) (hm : ∀ i, 32 ≤ i → i < 64 → mask.getLsbD i = true)
    (hw : ∀ i, 32 ≤ i → i < 64 → w.getLsbD i = v.getLsbD i) (h : sadReserved v) :
    sadReserved (applyFields fields_SAD_RANGE_BASE old w mask true rwq) := by
  have field : ∀ x ∈ fields_SAD_RANGE_BASE, 32 ≤ x.lo →
      Word.bits (applyFields fields_SAD_RANGE_BASE old w mask true rwq) x.hi x.lo = Word.bits v x.hi x.lo := by
    have apart : fields_SAD_RANGE_BASE.Pairwise Field.apart := by decide
    have ok : ∀ x ∈ fields_SAD_RANGE_BASE, x.lo ≤ x.hi ∧ x.hi < 64 := by decide
    have plain : ∀ x ∈ fields_SAD_RANGE_BASE, x.acc.kind = .rw ∧ x.acc.q = false := by decide
    intro x hx high
    obtain ⟨xl, xh⟩ := ok x hx
    obtain ⟨kind, notRwq⟩ := plain x hx
    rw [applyFields_bits_of_mask old w mask apart ok hx kind (.inl notRwq) fun i lo hi => hm i (by omega) (by omega)]
    exact (Word.bits_eq_iff xl).2 fun i lo hi => hw i (by omega) (by omega)
  have kind := field ⟨"KIND", 62, 61, .rwl, some 0⟩ (by decide) (by decide)
  have target := field ⟨"TARGET", 60, 56, .rwl, some 0⟩ (by decide) (by decide)
  rw [sadReserved, kind, target]
  exact h

/-- The full and the high write name the bytes above bit 31, with their values. -/
theorem sadAccess_halfOf (n : Fin 32) {half : Half} (hh : half = .full ∨ half = .high) (v : Word) :
    ∃ o m x, halfOf (SAD_RANGE_BASE n).off half v = (o, m, x) ∧ sadAccess n o m ∧
      (∀ i, 32 ≤ i → i < 64 → (laneMask o m).getLsbD i = true) ∧
        ∀ i, 32 ≤ i → i < 64 → (BitVec.ofNat 64 (x * 256 ^ (o % 8))).getLsbD i = v.getLsbD i := by
  have lanes : (SAD_RANGE_BASE n).off % 8 = 0 ∧ ((SAD_RANGE_BASE n).off + 4) % 8 = 4 ∧
      (SAD_RANGE_BASE n).off / 8 * 8 = (SAD_RANGE_BASE n).off := by
    simp only [SAD_RANGE_BASE]
    omega
  obtain ⟨full, high, whole⟩ := lanes
  rcases hh with rfl | rfl
  · refine ⟨(SAD_RANGE_BASE n).off, 8, v.toNat, by rw [halfOf, whole], .inl ⟨rfl, rfl⟩, fun i _ hi => ?_, fun i _ _ => ?_⟩
    · have mask : laneMask (SAD_RANGE_BASE n).off 8 = BitVec.allOnes 64 := by
        rw [laneMask, full]
        decide
      rw [mask, BitVec.getLsbD_allOnes, decide_eq_true hi]
    · rw [full, pow_zero, Nat.mul_one, BitVec.ofNat_toNat, BitVec.setWidth_eq]
  · refine ⟨(SAD_RANGE_BASE n).off + 4, 4, Word.bits v 63 32, by rw [halfOf, whole], .inr ⟨rfl, rfl⟩, fun i lo hi => ?_, fun i lo hi => ?_⟩
    · have mask : laneMask ((SAD_RANGE_BASE n).off + 4) 4 = fieldMask 63 32 := by
        rw [laneMask, high]
        decide
      rw [mask, fieldMask_bit (by decide) (by decide), decide_eq_true lo, decide_eq_true (Nat.le_of_lt_succ hi), Bool.and_self]
    · have bytes : 256 ^ 4 = 2 ^ 32 := by decide
      have inside : i - 32 < 63 - 32 + 1 := by omega
      rw [high, bytes, BitVec.getLsbD_ofNat, Nat.testBit_mul_two_pow, Word.bits_bit, decide_eq_true hi, decide_eq_true lo, decide_eq_true inside,
        Nat.add_sub_cancel' lo, Bool.true_and, Bool.true_and, Bool.true_and]

/-- What the write of a reserved value does: nothing; or a record, of an agent behind the IOMMU; or, under the lock, the write of what BASE holds. -/
theorem Run.regWrite_sadReserved (r : Run s0) (q : Requester) (n : Fin 32) {half : Half} (hh : half = .full ∨ half = .high) {v : Word}
    (hv : sadReserved v) :
    r.regWrite q (SAD_RANGE_BASE n).off half v = r ∨
      (¬ r.1.writer q ∧ ∃ y, r.regWrite q (SAD_RANGE_BASE n).off half v = r.logRec .iommu y) ∨
      (r.locked = true ∧ r.regWrite q (SAD_RANGE_BASE n).off half v = r.wSadBase n (r.reg (SAD_RANGE_BASE n))) := by
  obtain ⟨o, m, x, access, reach, mask, value⟩ := sadAccess_halfOf n hh v
  unfold Run.regWrite
  split
  · exact .inl rfl
  · simp only [access]
    rcases r.regStore_sadBase q reach x with e | e | e
    · exact .inl e
    · exact .inr (.inl e)
    · rw [e, Run.regPut_sadBase]
      cases lock : r.locked with
      | false => exact .inl (Run.wSadBase_reserved r n (sadReserved_applyFields _ true mask value hv))
      | true =>
        refine .inr (.inr ⟨rfl, ?_⟩)
        rw [Bool.not_true, applyFields_locked _ _ _ _ _ (by decide)]

/-! #### The end of the command -/

/-- The write of what BASE holds leaves it, and nothing to settle. -/
theorem Run.wSadBase_same (r : Run s0) (n : Fin 32) (st : r.1.still) :
    (r.wSadBase n (r.reg (SAD_RANGE_BASE n))).1.still ∧
      (r.wSadBase n (r.reg (SAD_RANGE_BASE n))).1.reg (SAD_RANGE_BASE n) = r.1.reg (SAD_RANGE_BASE n) := by
  unfold Run.wSadBase
  simp only
  split
  · exact ⟨st, rfl⟩
  · have ⟨need, poke, _, _⟩ := st
    refine ⟨State.still_of_online st (by simp [Run.setReg, need]) (by simp [Run.setReg, poke]) (fun d hd => ?_) (by simp [Run.setReg])
      (by simp [Run.setReg]), ?_⟩
    · have apart : (RLINK_STAT d).off ≠ (SAD_RANGE_BASE n).off := by
        simp only [RLINK_STAT, SAD_RANGE_BASE]
        omega
      rw [State.online, State.online, Run.fld_setReg_other r _ (RLINK_STAT_STATE d) _ apart]
    · rw [Run.reg_setReg_same, Run.reg, State.reg, BitVec.and_assoc, BitVec.and_self]

/-- No record of the IOMMU touches STATE of a die (R192, R454). -/
theorem Bank.iommu_apart_RLINK_STAT {d : Nat} (hd : d < 16) : Bank.iommu.apart (RLINK_STAT d).off := by
  refine ⟨?_, ⟨?_, ?_⟩, ?_, fun d' => ?_⟩
  · simp only [Bank.base, RLINK_STAT]
    omega
  · simp only [ERR_SUMMARY, RLINK_STAT]
    omega
  · simp only [Bank.die, errBase, RLINK_STAT]
    split <;> omega
  · simp only [SEC_DENY, RLINK_STAT]
    omega
  · simp only [RLINK_ERRCNT, RLINK_STAT]
    omega

/-- A record of the IOMMU leaves the accesses of the command, the messages in flight and whom they are for. -/
theorem Run.logRec_iommu_quiet (r : Run s0) (x : Rec) (st : r.1.still) :
    (r.logRec .iommu x).1.need = {} ∧ ∀ m ∈ (r.logRec .iommu x).1.net, (r.logRec .iommu x).1.fencedDie m = none := by
  obtain ⟨need, -, fence, -⟩ := st
  have rest {d : Nat} (hd : d < 16) := Run.rest_logRec r (Bank.iommu_apart_RLINK_STAT hd) x none
  simp only [Run.rest, Prod.mk.injEq] at rest
  obtain ⟨-, hneed, hnet⟩ := rest (d := 0) (by decide)
  have online : ∀ d < 16, (r.logRec .iommu x).1.online d = r.1.online d := by
    intro d hd
    obtain ⟨listed, -, -⟩ := rest hd
    simp only [State.online, State.fld, RLINK_STAT_STATE, State.reg, Sparse.get, listed]
  refine ⟨hneed.trans need, fun m hm => ?_⟩
  rw [← fence m (hnet ▸ hm), State.fencedDie, State.fencedDie]
  cases e : Agent.onDie m.dst with
  | none => rfl
  | some d => simp only [online d (Agent.onDie_lt e)]

/-- A command that ends in a record of the IOMMU leaves every range. -/
theorem Run.done_logRec_iommu (r : Run s0) (x : Rec) (st : r.1.still) :
    ∃ t, (r.logRec .iommu x).done = .next t ∧ ∀ n : Fin 32, t.reg (SAD_RANGE_BASE n) = r.1.reg (SAD_RANGE_BASE n) := by
  obtain ⟨need, fence⟩ := Run.logRec_iommu_quiet r x st
  rw [Run.done_plain _ need, Run.settle, Run.settleFence_none _ _ fence]
  refine ⟨_, Run.finish_eq _, fun n => Run.reg_of_sad ?_ n⟩
  rw [Run.sad_settleLoop, Run.sad_settleDrops, Run.sad_logRec _ (b := .iommu) trivial]

/-- Settles O57: the write does nothing, ends in a record of the IOMMU, or under the configuration lock writes what BASE holds. -/
theorem reservedSadTargetsAreIgnored : Obligations.ReservedSadTargetsAreIgnored := by
  unfold Obligations.ReservedSadTargetsAreIgnored
  have address : ∀ n : Fin 32, (BitVec.ofNat 40 (SAD_RANGE_BASE n).off).toNat = (SAD_RANGE_BASE n).off := by decide +kernel
  constructor
  · intro q n half v s st w lock hh hv
    have unlocked : (Run.start s).locked = false := by simp [Run.locked, Run.on, Run.fld, lock]
    show ((Run.start s).regWrite q _ half v).done = _
    rw [address]
    rcases Run.regWrite_sadReserved (Run.start s) q n hh hv with e | ⟨outside, -⟩ | ⟨locked, -⟩
    · rw [e, Run.done_still _ st]
      rfl
    · exact absurd w outside
    · exact absurd locked (by simp [unlocked])
  · intro q n half v s st _ hh hv
    show ∃ t, ((Run.start s).regWrite q _ half v).done = _ ∧ _
    rw [address]
    rcases Run.regWrite_sadReserved (Run.start s) q n hh hv with e | ⟨-, x, e⟩ | ⟨-, e⟩
    · exact ⟨s, by rw [e, Run.done_still _ st]; rfl, rfl⟩
    · obtain ⟨t, ends, kept⟩ := Run.done_logRec_iommu (Run.start s) x st
      exact ⟨t, by rw [e, ends], kept n⟩
    · obtain ⟨quiet, kept⟩ := Run.wSadBase_same (Run.start s) n st
      exact ⟨_, by rw [e, Run.done_still _ quiet], kept⟩

end Sys2Proof.Machine

/-! Runs that write registers and tiles alone, such as a record of an error while no interrupt source is configured (R454 to R458). -/
namespace Sys2Proof.Machine

variable {s0 : State}

/-! ### Runs that write registers and tiles alone -/

/-- A run has gone on by writes of registers, at offsets of `W` alone, of tiles, and of the limits of the rings (R458). -/
def Run.marks (W : Nat → Prop) (r q : Run s0) : Prop :=
  ∃ rs ts ls, q.1 = { r.1 with regs := rs, tiles := ts, limits := ls } ∧ ∀ o, ¬ W o → Sparse.find? rs o = r.1.regs.find? o

variable {W : Nat → Prop} {r p q : Run s0}

theorem Run.marks.refl (r : Run s0) : Run.marks W r r := ⟨_, _, _, rfl, fun _ _ => rfl⟩

theorem Run.marks.trans (h : Run.marks W r p) (h' : Run.marks W p q) : Run.marks W r q := by
  obtain ⟨rs, ts, ls, e, same⟩ := h
  obtain ⟨rs', ts', ls', e', same'⟩ := h'
  exact ⟨rs', ts', ls', by rw [e', e], fun o ho => (same' o ho).trans (by rw [e]; exact same o ho)⟩

theorem Run.marks_setReg (r : Run s0) {g : Reg} (v : Word) (h : W g.off) : Run.marks W r (r.setReg g v) :=
  ⟨_, _, _, rfl, fun _ ho => Sparse.find?_upd_other _ _ fun e => ho (e ▸ h)⟩

theorem Run.marks_setFld (r : Run s0) {f : FRef} (v : Nat) (h : W f.reg.off) : Run.marks W r (r.setFld f v) := Run.marks_setReg r _ h

theorem Run.marks_addSat (r : Run s0) {f : FRef} (n : Nat) (h : W f.reg.off) : Run.marks W r (r.addSat f n) := Run.marks_setReg r _ h

theorem Run.marks_setBit (r : Run s0) {f : FRef} (i : Nat) (b : Bool) (h : W f.reg.off) : Run.marks W r (r.setBit f i b) := Run.marks_setReg r _ h

theorem Run.marks_setLimit (r : Run s0) (k v : Nat) : Run.marks W r (r.setLimit k v) := ⟨_, _, _, rfl, fun _ _ => rfl⟩

theorem Run.marks_modTile (r : Run s0) (n : Nat) (f : Tile → Tile) : Run.marks W r (r.modTile n f) := ⟨_, _, _, rfl, fun _ _ => rfl⟩

theorem Run.marks.reg (h : Run.marks W r q) {g : Reg} (hg : ¬ W g.off) : q.1.reg g = r.1.reg g := by
  obtain ⟨rs, ts, ls, e, same⟩ := h
  simp only [e, State.reg, Sparse.get, same _ hg]

theorem Run.marks.fld (h : Run.marks W r q) {f : FRef} (hf : ¬ W f.reg.off) : q.1.fld f = r.1.fld f := by
  rw [State.fld, State.fld, h.reg hf]

/-- The dies online are those of before a write that reaches no die's STATE. -/
theorem Run.marks.online (h : Run.marks W r q) {d : Nat} (off : ¬ W (RLINK_STAT d).off) : q.1.online d = r.1.online d := by
  rw [State.online, State.online, h.fld (f := RLINK_STAT_STATE d) off]

theorem Run.marks.noSources (h : Run.marks W r q) (ns : r.1.noSources) : q.1.noSources := by
  obtain ⟨rs, ts, ls, e, -⟩ := h
  rw [State.noSources, e]
  exact ns

theorem Run.marks_putWords (r : Run s0) (f : Nat → Reg) (k : Nat) (ws : List Word) (h : ∀ j, k ≤ j → j < k + ws.length → W (f j).off) :
    Run.marks W r (r.putWords f k ws) := by
  induction ws generalizing r k with
  | nil => exact .refl r
  | cons w ws ih =>
    rw [List.length_cons] at h
    exact (Run.marks_setReg r w (h k (by omega) (by omega))).trans (ih _ _ fun j lo hi => h j (by omega) (by omega))

/-! ### Rings -/

/-- The offsets that an entry of a die's ring may write (R457): the ring, its state and the summary of the rings. -/
def ringArea (d o : Nat) : Prop := o = ERR_SUMMARY.off ∨ o = (ERR_RINGSTAT d).off ∨ errBase d + 0x400 ≤ o ∧ o < errBase d + 0x800

/-- The offsets that a record in a bank may write (R454 to R457): the bank, and those of an entry of its die's ring. -/
def Bank.area (b : Bank) (o : Nat) : Prop := b.base ≤ o ∧ o < b.base + 0x100 ∨ ringArea b.die o

theorem ringArea_entry (d : Nat) {i k : Nat} (hi : i < 16) (hk : k < 8) : ringArea d (ERR_RING d i k).off := by
  simp only [ringArea, ERR_RING]
  omega

/-- With no source configured, no wire becomes an interrupt. -/
theorem Run.aplicEdge_noSources (r : Run s0) (ns : r.1.noSources) (n : Nat) : r.aplicEdge n = r := by
  have none : ∀ k, (r.aplicCfg k).sm = 0 := fun k => by simp [Run.aplicCfg, State.aplicCfg, show r.1.aplicSrc = [] from ns, Sparse.get]
  rw [Run.aplicEdge, none, if_neg (by decide)]

theorem Run.ringRaise_noSources (r : Run s0) (ns : r.1.noSources) (d cls : Nat) : r.ringRaise d cls = r := by
  rw [Run.ringRaise, Run.aplicEdge_noSources r ns, ite_self]

theorem Run.marks.ringRaise {d cls : Nat} (h : Run.marks W r q) (ns : r.1.noSources) : Run.marks W r (q.ringRaise d cls) := by
  rwa [Run.ringRaise_noSources q (h.noSources ns)]

theorem Run.marks_putRing (r : Run s0) (d t : Nat) (es : List (List Word)) (len : ∀ e ∈ es, e.length = 8) :
    Run.marks (ringArea d) r (r.putRing d t es) := by
  induction es generalizing r t with
  | nil => exact .refl r
  | cons e es ih =>
    obtain ⟨he, len⟩ := List.forall_mem_cons.1 len
    exact (Run.marks_putWords r _ 0 e fun j _ hj => ringArea_entry d (Nat.mod_lt _ (by decide)) (by omega)).trans (ih _ _ len)

theorem Run.marks_ringPush (r : Run s0) (ns : r.1.noSources) (d : Nat) {ws : List Word} (len : ws.length = 8) :
    Run.marks (ringArea d) r (r.ringPush d ws) := by
  have raised : Run.marks (ringArea d) r (r.setBit ERR_SUMMARY_RING d true) := Run.marks_setBit r d true (.inl rfl)
  have stat : ringArea d (ERR_RINGSTAT d).off := .inr (.inl rfl)
  unfold Run.ringPush
  simp only
  split
  · exact ((raised.trans (Run.marks_putWords _ _ 0 ws fun j _ hj => ringArea_entry d (Nat.mod_lt _ (by decide)) (by omega))).trans
      (Run.marks_setFld _ _ stat)).ringRaise ns
  · have lost := raised.trans (Run.marks_addSat (f := ERR_RINGSTAT_LOST d) _ 1 stat)
    split
    · exact lost
    · refine (lost.trans (Run.marks_putRing _ d _ _ fun e he => ?_)).ringRaise ns
      rcases List.mem_append.1 he with he | he
      · exact Run.ringList_length _ _ e (List.mem_of_mem_eraseIdx he)
      · rw [List.mem_singleton.1 he, len]

/-! ### Banks -/

theorem Bank.area_stat (b : Bank) : b.area (EB_STAT b.base).off := .inl ⟨Nat.le_refl _, by simp only [EB_STAT]; omega⟩

theorem Bank.area_rec (b : Bank) {i k : Nat} (hi : i < 3) (hk : k < 8) : b.area (EB_REC b.base i k).off := by
  refine .inl ?_
  simp only [EB_REC]
  omega

theorem Run.marks.mono {V : Nat → Prop} (h : Run.marks V r q) (sub : ∀ o, V o → W o) : Run.marks W r q := by
  obtain ⟨rs, ts, ls, e, same⟩ := h
  exact ⟨rs, ts, ls, e, fun o ho => same o fun v => ho (sub o v)⟩

theorem Run.marks_putSlot (r : Run s0) (b : Bank) {i : Nat} (hi : i < 3) {ws : List Word} (len : ws.length = 8) :
    Run.marks b.area r (r.putSlot b i ws) := by
  have words : ∀ q : Run s0, Run.marks b.area q ((q.setBit (EB_STAT_V b.base) i true).putWords (fun k => EB_REC b.base i k) 0 ws) := fun q =>
    (Run.marks_setBit q i true b.area_stat).trans (Run.marks_putWords _ _ 0 ws fun j _ hj => b.area_rec hi (by omega))
  unfold Run.putSlot
  simp only
  split
  · exact (Run.marks_setBit (f := EB_STAT_OVF b.base) r i true b.area_stat).trans (words _)
  · exact words r

theorem Run.marks_limitTake (r : Run s0) (key now : Nat) : Run.marks W r (r.limitTake key now).1 := by
  unfold Run.limitTake
  simp only
  split
  · exact Run.marks_setLimit r _ _
  · exact .refl r

/-- A record writes registers of its bank and of its die's ring alone, while no source is configured. -/
theorem Run.marks_logRec (r : Run s0) (ns : r.1.noSources) (b : Bank) (x : Rec) (ring : Option Bool) :
    Run.marks b.area r (r.logRec b x ring) := by
  unfold Run.logRec
  simp only
  split
  · exact (Run.marks_setReg r _ (b.area_rec x.cls.slot_lt (by decide))).trans (Run.marks_setReg _ _ (b.area_rec x.cls.slot_lt (by decide)))
  · have slot : ∀ (c : Prop) [Decidable c], Run.marks b.area r (if c then r else r.putSlot b x.cls.slot (r.recWords b x)) := by
      intro c _
      split
      · exact .refl r
      · exact Run.marks_putSlot r b x.cls.slot_lt (Run.recWords_length r b x)
    suffices limit : ∀ p : Run s0 × Bool, Run.marks b.area r p.1 → Run.marks b.area r (if p.2 then p.1.ringPush b.die (r.recWords b x) else p.1) by
      apply limit
      split
      · exact (slot _).trans (Run.marks_limitTake _ _ _)
      · split
        · split
          · exact (slot _).trans (Run.marks_setLimit _ _ _)
          · exact slot _
        · exact (slot _).trans (Run.marks_limitTake _ _ _)
        · exact slot _
    intro p hp
    split
    · exact hp.trans ((Run.marks_ringPush p.1 (hp.noSources ns) b.die (Run.recWords_length r b x)).mono fun o => .inr)
    · exact hp

end Sys2Proof.Machine

/-! Tile monitors and rings: where their fields lie, and what a write of CLRMAX, of CLR or of a pop leaves (R45, R46, R457). -/
namespace Sys2Proof.Machine

variable {s0 : State}

/-! ### Where fields lie -/

theorem FRef.fits_iff (f : FRef) :
    f.fits = true ↔ (f.hi < 64 ∧ f.lo ≤ f.hi) ∧ fieldMask f.hi f.lo &&& f.reg.mask = fieldMask f.hi f.lo := by
  simp only [FRef.fits, Bool.and_eq_true, decide_eq_true_eq]

@[simp] theorem TMON_PROC_LAPS_place (n : Nat) :
    (TMON_PROC_LAPS n).reg = TMON_PROC n ∧ (TMON_PROC_LAPS n).hi = 15 ∧ (TMON_PROC_LAPS n).lo = 0 ∧ (TMON_PROC_LAPS n).fits = true :=
  ⟨rfl, rfl, rfl, by simp only [FRef.fits_iff, TMON_PROC_LAPS, TMON_PROC]; decide⟩

@[simp] theorem TMON_RATE_TOKENS_place (n : Nat) :
    (TMON_RATE_TOKENS n).reg = TMON_RATE n ∧ (TMON_RATE_TOKENS n).hi = 15 ∧ (TMON_RATE_TOKENS n).lo = 0 ∧ (TMON_RATE_TOKENS n).fits = true :=
  ⟨rfl, rfl, rfl, by simp only [FRef.fits_iff, TMON_RATE_TOKENS, TMON_RATE]; decide⟩

@[simp] theorem TMON_TEMP_TJ_place (n : Nat) :
    (TMON_TEMP_TJ n).reg = TMON_TEMP n ∧ (TMON_TEMP_TJ n).hi = 15 ∧ (TMON_TEMP_TJ n).lo = 0 ∧ (TMON_TEMP_TJ n).fits = true :=
  ⟨rfl, rfl, rfl, by simp only [FRef.fits_iff, TMON_TEMP_TJ, TMON_TEMP]; decide⟩

@[simp] theorem TMON_TEMP_TJMAX_place (n : Nat) :
    (TMON_TEMP_TJMAX n).reg = TMON_TEMP n ∧ (TMON_TEMP_TJMAX n).hi = 31 ∧ (TMON_TEMP_TJMAX n).lo = 16 ∧ (TMON_TEMP_TJMAX n).fits = true :=
  ⟨rfl, rfl, rfl, by simp only [FRef.fits_iff, TMON_TEMP_TJMAX, TMON_TEMP]; decide⟩

@[simp] theorem TMON_DROOP_THRESH_place (n : Nat) :
    (TMON_DROOP_THRESH n).reg = TMON_DROOP n ∧ (TMON_DROOP_THRESH n).hi = 57 ∧ (TMON_DROOP_THRESH n).lo = 48 ∧ (TMON_DROOP_THRESH n).fits = true :=
  ⟨rfl, rfl, rfl, by simp only [FRef.fits_iff, TMON_DROOP_THRESH, TMON_DROOP]; decide⟩

@[simp] theorem TMON_DROOP_DCOUNT_place (n : Nat) :
    (TMON_DROOP_DCOUNT n).reg = TMON_DROOP n ∧ (TMON_DROOP_DCOUNT n).hi = 47 ∧ (TMON_DROOP_DCOUNT n).lo = 32 ∧ (TMON_DROOP_DCOUNT n).fits = true :=
  ⟨rfl, rfl, rfl, by simp only [FRef.fits_iff, TMON_DROOP_DCOUNT, TMON_DROOP]; decide⟩

@[simp] theorem TMON_DROOP_VNOW_place (n : Nat) :
    (TMON_DROOP_VNOW n).reg = TMON_DROOP n ∧ (TMON_DROOP_VNOW n).hi = 25 ∧ (TMON_DROOP_VNOW n).lo = 16 ∧ (TMON_DROOP_VNOW n).fits = true :=
  ⟨rfl, rfl, rfl, by simp only [FRef.fits_iff, TMON_DROOP_VNOW, TMON_DROOP]; decide⟩

@[simp] theorem TMON_DROOP_VMIN_place (n : Nat) :
    (TMON_DROOP_VMIN n).reg = TMON_DROOP n ∧ (TMON_DROOP_VMIN n).hi = 9 ∧ (TMON_DROOP_VMIN n).lo = 0 ∧ (TMON_DROOP_VMIN n).fits = true :=
  ⟨rfl, rfl, rfl, by simp only [FRef.fits_iff, TMON_DROOP_VMIN, TMON_DROOP]; decide⟩

@[simp] theorem TMON_off (n : Nat) :
    (TMON_PROC n).off = tileBase n + 0x300000 ∧ (TMON_TEMP n).off = tileBase n + 0x300008 ∧ (TMON_DROOP n).off = tileBase n + 0x300010 ∧
      (TMON_RATE n).off = tileBase n + 0x300018 := ⟨rfl, rfl, rfl, rfl⟩

@[simp] theorem ERR_RINGSTAT_COUNT_place (d : Nat) :
    (ERR_RINGSTAT_COUNT d).reg = ERR_RINGSTAT d ∧ (ERR_RINGSTAT_COUNT d).hi = 20 ∧ (ERR_RINGSTAT_COUNT d).lo = 16 ∧
      (ERR_RINGSTAT_COUNT d).fits = true :=
  ⟨rfl, rfl, rfl, by simp only [FRef.fits_iff, ERR_RINGSTAT_COUNT, ERR_RINGSTAT]; decide⟩

@[simp] theorem ERR_RINGSTAT_TAIL_place (d : Nat) :
    (ERR_RINGSTAT_TAIL d).reg = ERR_RINGSTAT d ∧ (ERR_RINGSTAT_TAIL d).hi = 3 ∧ (ERR_RINGSTAT_TAIL d).lo = 0 ∧ (ERR_RINGSTAT_TAIL d).fits = true :=
  ⟨rfl, rfl, rfl, by simp only [FRef.fits_iff, ERR_RINGSTAT_TAIL, ERR_RINGSTAT]; decide⟩

@[simp] theorem ERR_SUMMARY_RING_place :
    ERR_SUMMARY_RING.reg = ERR_SUMMARY ∧ ERR_SUMMARY_RING.hi = 16 ∧ ERR_SUMMARY_RING.lo = 0 ∧ ERR_SUMMARY_RING.fits = true :=
  ⟨rfl, rfl, rfl, by simp only [FRef.fits_iff, ERR_SUMMARY_RING, ERR_SUMMARY]; decide⟩

/-- The summary of the rings is no ring's state. -/
theorem ERR_SUMMARY_off_ne (d : Nat) : ERR_SUMMARY.off ≠ (ERR_RINGSTAT d).off := by
  simp only [ERR_SUMMARY, ERR_RINGSTAT, errBase]
  split <;> omega

/-- No die's ring and no summary is an entry of a ring. -/
theorem ERR_RING_off_ne (d : Nat) {k j : Nat} (hk : k < 16) (hj : j < 8) :
    (ERR_RING d k j).off ≠ (ERR_RINGSTAT d).off ∧ (ERR_RING d k j).off ≠ ERR_SUMMARY.off := by
  simp only [ERR_SUMMARY, ERR_RINGSTAT, ERR_RING, errBase]
  split <;> omega

/-! ### Fields after a write -/

theorem State.fld_lt (s : State) (f : FRef) : s.fld f < 2 ^ (f.hi - f.lo + 1) := Nat.mod_lt _ (Nat.two_pow_pos _)

/-- A field reads the value last written to it, where that fits. -/
theorem Run.fld_setFld_lt (r : Run s0) {f : FRef} {v : Nat} (h : f.fits = true) (hv : v < 2 ^ (f.hi - f.lo + 1)) : (r.setFld f v).1.fld f = v := by
  rw [Run.fld_setFld_same r f v h, Nat.mod_eq_of_lt hv]

theorem natBit_eq_testBit (n i : Nat) : natBit n i = n.testBit i := by
  rw [natBit, Nat.testBit_eq_decide_div_mod_eq]
  rfl

/-- A bit of a number after a write of one. -/
theorem natBit_natSetBits_bit (n i j : Nat) (b : Bool) :
    natBit (natSetBits n i i (if b then 1 else 0)) j = if j = i then b else natBit n j := by
  have parts : natSetBits n i i (if b then 1 else 0) = 2 ^ i * (2 * (n / 2 ^ (i + 1)) + b.toNat) + n % 2 ^ i := by
    cases b <;> simp [natSetBits] <;> ring
  rw [natBit_eq_testBit, natBit_eq_testBit, parts, Nat.testBit_two_pow_mul_add _ (Nat.mod_lt _ (Nat.two_pow_pos i))]
  rcases Nat.lt_trichotomy j i with lo | rfl | hi
  · rw [if_pos lo, if_neg lo.ne, Nat.testBit_mod_two_pow, decide_eq_true lo, Bool.true_and]
  · rw [if_neg (lt_irrefl j), if_pos rfl, Nat.sub_self]
    cases b <;> simp [Nat.testBit_zero]
  · obtain ⟨k, rfl⟩ := Nat.exists_eq_add_of_lt hi
    have half : (2 * (n / 2 ^ (i + 1)) + b.toNat) / 2 = n / 2 ^ (i + 1) := by
      have := b.toNat_lt
      omega
    rw [if_neg (by omega), if_neg (by omega), show i + k + 1 - i = k + 1 by omega, Nat.testBit_succ, half, Nat.testBit_div_two_pow,
      show k + (i + 1) = i + k + 1 by omega]

/-- A bit of a field after a write of one. -/
theorem Run.natBit_setBit (r : Run s0) {f : FRef} (i j : Nat) (b : Bool) (h : f.fits = true) (hj : j < f.hi - f.lo + 1) :
    natBit ((r.setBit f i b).1.fld f) j = if j = i then b else natBit (r.1.fld f) j := by
  rw [Run.setBit, Run.fld_setFld_same r f _ h, natBit_eq_testBit, Nat.testBit_mod_two_pow, decide_eq_true hj, Bool.true_and, ← natBit_eq_testBit,
    natBit_natSetBits_bit]
  rfl

/-! ### The three actions -/

theorem Run.fld_clrMax (r : Run s0) (n : Nat) :
    (r.clrMax n).1.fld (TMON_TEMP_TJMAX n) = r.1.fld (TMON_TEMP_TJ n) ∧ (r.clrMax n).1.fld (TMON_TEMP_TJ n) = r.1.fld (TMON_TEMP_TJ n) := by
  have fits : r.fld (TMON_TEMP_TJ n) < 2 ^ 16 := r.1.fld_lt _
  constructor
  · exact Run.fld_setFld_lt r (by simp) fits
  · simp [Run.clrMax, Run.fld_setFld_apart]

theorem Run.fld_droopClr (r : Run s0) (n : Nat) :
    (r.droopClr n).1.fld (TMON_DROOP_VMIN n) = r.1.fld (TMON_DROOP_VNOW n) ∧ (r.droopClr n).1.fld (TMON_DROOP_DCOUNT n) = 0 ∧
      (r.droopClr n).1.fld (TMON_DROOP_THRESH n) = r.1.fld (TMON_DROOP_THRESH n) := by
  have fits : r.fld (TMON_DROOP_VNOW n) < 2 ^ 10 := r.1.fld_lt _
  refine ⟨?_, ?_, ?_⟩
  · rw [Run.droopClr, Run.fld_setFld_apart _ _ _ _ (by simp) (by simp) (by simp) (by simp)]
    exact Run.fld_setFld_lt r (by simp) fits
  · exact Run.fld_setFld_lt _ (by simp) (by simp)
  · simp [Run.droopClr, Run.fld_setFld_apart]

/-- A pop of a ring that is not empty takes its oldest entry: TAIL moves on, COUNT falls, and the summary's bit clears with the last entry. -/
theorem Run.fld_ringPop (r : Run s0) {d : Nat} (hd : d < 17) (some_ : r.1.fld (ERR_RINGSTAT_COUNT d) ≠ 0) :
    (r.ringPop d).1.fld (ERR_RINGSTAT_COUNT d) = r.1.fld (ERR_RINGSTAT_COUNT d) - 1 ∧
      (r.ringPop d).1.fld (ERR_RINGSTAT_TAIL d) = (r.1.fld (ERR_RINGSTAT_TAIL d) + 1) % 16 ∧
      natBit ((r.ringPop d).1.fld ERR_SUMMARY_RING) d =
        (if r.1.fld (ERR_RINGSTAT_COUNT d) = 1 then false else natBit (r.1.fld ERR_SUMMARY_RING) d) := by
  have count : r.fld (ERR_RINGSTAT_COUNT d) - 1 < 2 ^ 5 := Nat.lt_of_le_of_lt (Nat.sub_le _ _) (r.1.fld_lt (ERR_RINGSTAT_COUNT d))
  set p := (r.setFld (ERR_RINGSTAT_TAIL d) ((r.fld (ERR_RINGSTAT_TAIL d) + 1) % 16)).setFld (ERR_RINGSTAT_COUNT d) (r.fld (ERR_RINGSTAT_COUNT d) - 1) with hp
  have popped : r.ringPop d = if r.fld (ERR_RINGSTAT_COUNT d) = 1 then p.setBit ERR_SUMMARY_RING d false else p := if_neg some_
  have stat : p.1.fld (ERR_RINGSTAT_COUNT d) = r.1.fld (ERR_RINGSTAT_COUNT d) - 1 ∧
      p.1.fld (ERR_RINGSTAT_TAIL d) = (r.1.fld (ERR_RINGSTAT_TAIL d) + 1) % 16 := by
    constructor
    · exact Run.fld_setFld_lt _ (by simp) count
    · rw [hp, Run.fld_setFld_apart _ _ _ _ (by simp) (by simp) (by simp) (by simp), Run.fld_setFld_same _ _ _ (by simp)]
      simp [Run.fld]
  have summary : p.1.fld ERR_SUMMARY_RING = r.1.fld ERR_SUMMARY_RING := by
    simp [hp, Run.fld_setFld_other, ERR_SUMMARY_off_ne]
  rw [popped]
  by_cases last : r.fld (ERR_RINGSTAT_COUNT d) = 1
  · have same : ∀ f : FRef, f.reg = ERR_RINGSTAT d → (p.setBit ERR_SUMMARY_RING d false).1.fld f = p.1.fld f := fun f hf =>
      Run.fld_setFld_other p _ f _ (by simp [hf, (ERR_SUMMARY_off_ne d).symm])
    rw [if_pos last, same _ (by simp), same _ (by simp), Run.natBit_setBit p d d false (by simp) (by simpa using hd), if_pos rfl]
    exact ⟨stat.1, stat.2, (if_pos last).symm⟩
  · rw [if_neg last, summary]
    exact ⟨stat.1, stat.2, (if_neg last).symm⟩

/-! ### Which registers the actions write -/

theorem Run.marks_clrMax (r : Run s0) (n : Nat) : Run.marks (· = (TMON_TEMP n).off) r (r.clrMax n) := Run.marks_setFld r _ rfl

theorem Run.marks_droopClr (r : Run s0) (n : Nat) : Run.marks (· = (TMON_DROOP n).off) r (r.droopClr n) :=
  (Run.marks_setFld (W := (· = (TMON_DROOP n).off)) (f := TMON_DROOP_VMIN n) r _ rfl).trans (Run.marks_setFld (f := TMON_DROOP_DCOUNT n) _ 0 rfl)

theorem Run.marks_ringPop (r : Run s0) (d : Nat) :
    Run.marks (fun o => o = (ERR_RINGSTAT d).off ∨ o = ERR_SUMMARY.off) r (r.ringPop d) := by
  unfold Run.ringPop
  simp only
  split
  · exact .refl r
  · have popped := (Run.marks_setFld (W := fun o => o = (ERR_RINGSTAT d).off ∨ o = ERR_SUMMARY.off) (f := ERR_RINGSTAT_TAIL d) r
      ((r.fld (ERR_RINGSTAT_TAIL d) + 1) % 16) (.inl rfl)).trans
      (Run.marks_setFld (f := ERR_RINGSTAT_COUNT d) _ (r.fld (ERR_RINGSTAT_COUNT d) - 1) (.inl rfl))
    split
    · exact popped.trans (Run.marks_setBit _ _ _ (.inr rfl))
    · exact popped

/-! ### The write reaches its register -/

/-- A register of the window at which a full write of its requester acts, for its family and number (R493 to R497). -/
def Reg.placed (g : Reg) (f : Family) (ix : List Nat) : Prop :=
  findReg g.off = some (f, ix) ∧ g.off % 8 = 0 ∧ decoded g.off = true ∧ imsicPage g.off = none

/-- The family of TMON.TEMP. -/
abbrev tempFamily : Family := ⟨.TMON_TEMP, 0x300008, [(16, 0x100000000), (16, 0x1000000)], fields_TMON_TEMP⟩

/-- The family of TMON.DROOP. -/
abbrev droopFamily : Family := ⟨.TMON_DROOP, 0x300010, [(16, 0x100000000), (16, 0x1000000)], fields_TMON_DROOP⟩

/-- The family of ERR.RINGPOP of a compute die, or of the IOD, 16. -/
def popFamily (d : Nat) : Family :=
  if d < 16 then ⟨.ERR_RINGPOP, 0x10100008, [(16, 0x100000000)], fields_ERR_RINGPOP⟩ else ⟨.ERR_RINGPOP, 0x10000c0008, [], fields_ERR_RINGPOP⟩

theorem TMON_TEMP_placed : ∀ n : Fin 256, (TMON_TEMP n).placed tempFamily [n / 16, n % 16] := by
  unfold Reg.placed
  decide +kernel

theorem TMON_DROOP_placed : ∀ n : Fin 256, (TMON_DROOP n).placed droopFamily [n / 16, n % 16] := by
  unfold Reg.placed
  decide +kernel

theorem ERR_RINGPOP_placed : ∀ d : Fin 17, (ERR_RINGPOP d).placed (popFamily d) (if d.val < 16 then [d.val] else []) := by
  unfold Reg.placed
  decide +kernel

/-- The registers of compute dies and those of the IOD's error block are not secure-held (R392). -/
theorem Run.secHeld_of_off (r : Run s0) {off : Nat} (h : off < 2 ^ 36 ∨ 0x10000C0000 ≤ off ∧ off < 0x10000E0000) : r.secHeld off = false := by
  unfold Run.secHeld
  simp only
  rw [if_neg (by omega), if_neg (by omega), if_neg (by omega)]
  simp only [SEC_GRPWORLD, SEC_IDRANGE, WDOG_CTL, MBX_STAT, List.mem_cons, List.not_mem_nil, or_false, decide_eq_false_iff_not]
  omega

/-- A full write of a register without secure fields reaches it. -/
theorem Run.write_placed (r : Run s0) (q : Requester) {g : Reg} {f : Family} {ix : List Nat} (v : Word) (w : r.1.writer q) (at_ : g.placed f ix)
    (on : g.off < 2 ^ 36 → r.online (g.off / 2 ^ 32) = true) (sec : g.off < 2 ^ 36 ∨ 0x10000C0000 ≤ g.off ∧ g.off < 0x10000E0000) :
    r.write q g v = r.regPut q f ix g.off (BitVec.allOnes 64) v := by
  obtain ⟨find, whole, dec, page⟩ := at_
  exact Run.regWrite_full r q v w find whole dec page on (by rw [Run.secHeld_of_off r sec, Bool.false_and])

theorem Run.regPut_clrmax (r : Run s0) (q : Requester) (n : Nat) (off : Nat) :
    r.regPut q tempFamily [n / 16, n % 16] off (BitVec.allOnes 64) (1#64 <<< 32) = r.clrMax n := by
  have notRwq : ∀ old v mask, changesRwq fields_TMON_TEMP old v mask = false := fun old v mask => changesRwq_of_notRwq old v mask (by decide)
  have number : n / 16 * 16 + n % 16 = n := Nat.div_add_mod' n 16
  unfold Run.regPut
  simp [Run.regRefuse, actionReg, notRwq, number]

theorem Run.regPut_droopClr (r : Run s0) (q : Requester) (n : Nat) (off : Nat) :
    r.regPut q droopFamily [n / 16, n % 16] off (BitVec.allOnes 64) (1#64 <<< 63) = r.droopClr n := by
  have notRwq : ∀ old v mask, changesRwq fields_TMON_DROOP old v mask = false := fun old v mask => changesRwq_of_notRwq old v mask (by decide)
  have number : n / 16 * 16 + n % 16 = n := Nat.div_add_mod' n 16
  unfold Run.regPut
  simp [Run.regRefuse, actionReg, notRwq, number]

theorem Run.regPut_ringPop (r : Run s0) (q : Requester) (d : Fin 17) (ix : List Nat) :
    r.regPut q (popFamily d) ix (ERR_RINGPOP d).off (BitVec.allOnes 64) 1 = r.ringPop d := by
  have named : (popFamily d).name = .ERR_RINGPOP ∧ (popFamily d).fields = fields_ERR_RINGPOP := by
    unfold popFamily
    split <;> exact ⟨rfl, rfl⟩
  have notRwq : ∀ old v mask, changesRwq fields_ERR_RINGPOP old v mask = false := fun old v mask => changesRwq_of_notRwq old v mask (by decide)
  have die : errDie (ERR_RINGPOP d).off = d := by
    simp only [errDie, ERR_RINGPOP, errBase]
    split <;> split <;> omega
  unfold Run.regPut
  simp [Run.regRefuse, actionReg, named, notRwq, die]

/-! ### The commands -/

/-- An offset at which no die's STATE lies (R192). -/
def noLink (o : Nat) : Prop := ∀ d < 16, (RLINK_STAT d).off ≠ o

/-- A command that writes registers and tiles alone, and no die's STATE, leaves what its run has written. -/
theorem Run.done_marks {s : State} {r : Run s} (st : s.still) (h : Run.marks noLink (Run.start s) r) : r.done = .next r.1 := by
  have ⟨need, poke, _, _⟩ := st
  have on : ∀ d < 16, r.1.online d = s.online d := fun d hd => h.online fun no => no d hd rfl
  obtain ⟨rs, ts, ls, e, -⟩ := h
  exact Run.done_still r (State.still_of_online st (by simp [e, need]) (by simp [e, poke]) on (by simp [e]) (by simp [e]))

/-- An offset of a tile's register lies on its die, and at no die's STATE. -/
def onTile (n o : Nat) : Prop := o / 2 ^ 32 = dieOf n ∧ o < 2 ^ 36 ∧ noLink o

theorem onTile_add {n x : Nat} (hn : n < 256) (hx : x < 0x1000000) : onTile n (tileBase n + x) := by
  simp only [onTile, noLink, tileBase, dieOf, RLINK_STAT]
  exact ⟨by omega, by omega, fun d _ => by omega⟩

theorem onTile_TMON (n : Fin 256) :
    onTile n (TMON_PROC n).off ∧ onTile n (TMON_TEMP n).off ∧ onTile n (TMON_DROOP n).off ∧ onTile n (TMON_RATE n).off := by
  simp only [TMON_off]
  exact ⟨onTile_add n.isLt (by decide), onTile_add n.isLt (by decide), onTile_add n.isLt (by decide), onTile_add n.isLt (by decide)⟩

/-- Settles O26: each write reaches its register, and performs its action alone. -/
theorem actionWritesComplete : Obligations.ActionWritesComplete := by
  unfold Obligations.ActionWritesComplete
  refine ⟨fun q n s st w on => ?_, fun q n s st w on => ?_, fun q d s st w on some_ => ?_⟩
  · obtain ⟨-, ⟨die, low, link⟩, -⟩ := onTile_TMON n
    have acts : (Run.start s).write q (TMON_TEMP n) (1#64 <<< 32) = (Run.start s).clrMax n :=
      (Run.write_placed _ q _ w (TMON_TEMP_placed n) (fun _ => by rw [die]; exact on) (.inl low)).trans (Run.regPut_clrmax _ q n _)
    have marks := (Run.marks_clrMax (Run.start s) n).mono (W := noLink) fun o e => e ▸ link
    obtain ⟨max, now⟩ := Run.fld_clrMax (Run.start s) n
    refine ⟨_, (congrArg Run.done acts).trans (Run.done_marks st marks), max, now, rfl⟩
  · obtain ⟨-, -, ⟨die, low, link⟩, -⟩ := onTile_TMON n
    have acts : (Run.start s).write q (TMON_DROOP n) (1#64 <<< 63) = (Run.start s).droopClr n :=
      (Run.write_placed _ q _ w (TMON_DROOP_placed n) (fun _ => by rw [die]; exact on) (.inl low)).trans (Run.regPut_droopClr _ q n _)
    have marks := (Run.marks_droopClr (Run.start s) n).mono (W := noLink) fun o e => e ▸ link
    obtain ⟨min, count, thresh⟩ := Run.fld_droopClr (Run.start s) n
    exact ⟨_, (congrArg Run.done acts).trans (Run.done_marks st marks), min, count, thresh, rfl⟩
  · have place : (ERR_RINGPOP d).off < 2 ^ 36 ∧ (ERR_RINGPOP d).off / 2 ^ 32 = d ∧ d.val < 16 ∨
        0x10000C0000 ≤ (ERR_RINGPOP d).off ∧ (ERR_RINGPOP d).off < 0x10000E0000 := by
      simp only [ERR_RINGPOP, errBase]
      split <;> omega
    have acts : (Run.start s).write q (ERR_RINGPOP d) 1 = (Run.start s).ringPop d := by
      refine (Run.write_placed _ q 1 w (ERR_RINGPOP_placed d) (fun low => ?_) ?_).trans (Run.regPut_ringPop _ q d _)
      · obtain ⟨-, die, hd⟩ | ⟨high, -⟩ := place
        · rw [die]
          exact on hd
        · omega
      · exact place.imp_left And.left
    have marks := Run.marks_ringPop (Run.start s) d
    have link : ∀ o, o = (ERR_RINGSTAT d).off ∨ o = ERR_SUMMARY.off → noLink o := by
      rintro o (rfl | rfl) k hk
      · simp only [RLINK_STAT, ERR_RINGSTAT, errBase]
        split <;> omega
      · simp only [RLINK_STAT, ERR_SUMMARY]
        omega
    obtain ⟨count, tail, summary⟩ := Run.fld_ringPop (Run.start s) d.isLt some_
    refine ⟨_, (congrArg Run.done acts).trans (Run.done_marks st (marks.mono link)), count, tail, summary, fun k hk j hj => marks.reg ?_⟩
    exact not_or.2 (ERR_RING_off_ne d hk hj)

end Sys2Proof.Machine

/-! Tile monitors: the end of a measurement window and the droop detector (R44 to R46). -/
namespace Sys2Proof.Machine

variable {s0 : State}

/-! ### Tiles -/

@[simp] theorem Run.tile_setFld (r : Run s0) (f : FRef) (v n : Nat) : (r.setFld f v).1.tile n = r.1.tile n := by
  simp [Run.setFld, Run.setReg, State.tile]

@[simp] theorem Run.tile_addSat (r : Run s0) (f : FRef) (v n : Nat) : (r.addSat f v).1.tile n = r.1.tile n := Run.tile_setFld r f _ n

@[simp] theorem Run.tile_modTile_same (r : Run s0) (n : Nat) (f : Tile → Tile) : (r.modTile n f).1.tile n = f (r.1.tile n) := by
  simp [Run.modTile, Run.setTile, Run.tile]

@[simp] theorem Run.fld_modTile (r : Run s0) (n : Nat) (f : Tile → Tile) (k : FRef) : (r.modTile n f).1.fld k = r.1.fld k := by
  simp [Run.modTile, Run.setTile]

/-- A field that saturates reads the sum, or its largest value. -/
theorem Run.fld_addSat (r : Run s0) {f : FRef} (k : Nat) (h : f.fits = true) : (r.addSat f k).1.fld f = min (r.1.fld f + k) f.top :=
  Run.fld_setFld_lt r h (Nat.lt_of_le_of_lt (Nat.min_le_right _ _) (Nat.sub_lt (Nat.two_pow_pos _) Nat.one_pos))

/-! ### The droop detector -/

/-- An excursion below THRESH counts as it begins (R46). -/
def Run.countDroop (r : Run s0) (n : Nat) (low : Bool) : Run s0 := if low && !(r.tile n).below then r.addSat (TMON_DROOP_DCOUNT n) 1 else r

/-- The droop detector notes whether VCORE is below THRESH (R46). -/
def Run.noteDroop (r : Run s0) (n : Nat) (low : Bool) : Run s0 :=
  if (r.tile n).below = low then r else r.modTile n fun t => { t with below := low }

/-- Where VCORE is not below 0.48 V, no tile halts. -/
theorem Run.readVcore_eq (r : Run s0) (n : Nat) {v : Nat} (hv : 480 ≤ v) :
    let q := (r.countDroop n (decide (v < r.fld (TMON_DROOP_THRESH n)))).noteDroop n (decide (v < r.fld (TMON_DROOP_THRESH n)))
    r.readVcore n v = (q.setFld (TMON_DROOP_VNOW n) v).setFld (TMON_DROOP_VMIN n) (min v (q.fld (TMON_DROOP_VMIN n))) := by
  unfold Run.readVcore
  simp only
  rw [if_neg (Nat.not_lt.2 hv)]
  rfl

theorem Run.tile_countDroop (r : Run s0) (n : Nat) (low : Bool) : (r.countDroop n low).1.tile n = r.1.tile n := by
  unfold Run.countDroop
  split <;> rfl

theorem Run.tile_noteDroop (r : Run s0) (n : Nat) (low : Bool) : (r.noteDroop n low).1.tile n = { r.1.tile n with below := low } := by
  unfold Run.noteDroop
  split
  next same => rw [← same, Run.tile]
  next => exact Run.tile_modTile_same r n _

theorem Run.fld_noteDroop (r : Run s0) (n : Nat) (low : Bool) (f : FRef) : (r.noteDroop n low).1.fld f = r.1.fld f := by
  unfold Run.noteDroop
  split <;> rfl

theorem Run.fld_countDroop (r : Run s0) (n : Nat) (low : Bool) :
    (r.countDroop n low).1.fld (TMON_DROOP_DCOUNT n) = (if (low && !(r.1.tile n).below) = true then
        min (r.1.fld (TMON_DROOP_DCOUNT n) + 1) 65535 else r.1.fld (TMON_DROOP_DCOUNT n)) ∧
      (r.countDroop n low).1.fld (TMON_DROOP_VMIN n) = r.1.fld (TMON_DROOP_VMIN n) := by
  unfold Run.countDroop Run.tile
  constructor
  · split
    · simpa [FRef.top] using Run.fld_addSat r (f := TMON_DROOP_DCOUNT n) 1 (by simp)
    · rfl
  · split
    · exact Run.fld_setFld_apart r _ _ _ (by simp) (by simp) (by simp) (by simp)
    · rfl

theorem Run.marks_countDroop (r : Run s0) (n : Nat) (low : Bool) : Run.marks (· = (TMON_DROOP n).off) r (r.countDroop n low) := by
  unfold Run.countDroop
  split
  · exact Run.marks_addSat r 1 rfl
  · exact .refl r

theorem Run.marks_noteDroop {W : Nat → Prop} (r : Run s0) (n : Nat) (low : Bool) : Run.marks W r (r.noteDroop n low) := by
  unfold Run.noteDroop
  split
  · exact .refl r
  · exact Run.marks_modTile r n _

/-- What a reading of VCORE leaves (R46), where the tile does not halt. -/
theorem Run.readVcore_reads (r : Run s0) (n : Nat) {v : Nat} (hv : 480 ≤ v) (top : v < 1024) :
    Run.marks (· = (TMON_DROOP n).off) r (r.readVcore n v) ∧ (r.readVcore n v).1.fld (TMON_DROOP_VNOW n) = v ∧
      (r.readVcore n v).1.fld (TMON_DROOP_VMIN n) = min v (r.1.fld (TMON_DROOP_VMIN n)) ∧
      (r.readVcore n v).1.fld (TMON_DROOP_DCOUNT n) = (if (decide (v < r.1.fld (TMON_DROOP_THRESH n)) && !(r.1.tile n).below) = true then
        min (r.1.fld (TMON_DROOP_DCOUNT n) + 1) 65535 else r.1.fld (TMON_DROOP_DCOUNT n)) ∧
      (r.readVcore n v).1.tile n = { r.1.tile n with below := decide (v < r.1.fld (TMON_DROOP_THRESH n)) } := by
  have eq := r.readVcore_eq n hv
  rw [Run.fld] at eq
  generalize decide (v < r.1.fld (TMON_DROOP_THRESH n)) = low at eq ⊢
  obtain ⟨count, min_⟩ := r.fld_countDroop n low
  rw [eq]
  refine ⟨?_, ?_, ?_, ?_, ?_⟩
  · exact (((r.marks_countDroop n low).trans (Run.marks_noteDroop _ n low)).trans (Run.marks_setFld (f := TMON_DROOP_VNOW n) _ v rfl)).trans
      (Run.marks_setFld (f := TMON_DROOP_VMIN n) _ _ rfl)
  · rw [Run.fld_setFld_apart _ _ _ _ (by simp) (by simp) (by simp) (by simp), Run.fld_setFld_lt _ (by simp) (by simpa using top)]
  · rw [Run.fld_setFld_lt _ (by simp) (by simp [top]), Run.fld, Run.fld_noteDroop, min_]
  · rw [Run.fld_setFld_apart _ _ _ _ (by simp) (by simp) (by simp) (by simp), Run.fld_setFld_apart _ _ _ _ (by simp) (by simp) (by simp) (by simp),
      Run.fld_noteDroop, count]
  · simp only [Run.tile_setFld, Run.tile_noteDroop, Run.tile_countDroop]

/-! ### The end of a window -/

/-- What the end of a measurement window writes of what it has measured, and the next window begins (R44, R45, R47). -/
def Run.closeWindow (r : Run s0) (n : Nat) (laps tj : BitVec 16) (now : Word) : Run s0 :=
  let r := (r.setFld (TMON_PROC_LAPS n) laps.toNat).setFld (TMON_RATE_TOKENS n) (min (r.tile n).tokens 0xFFFF)
  (r.modTile n fun t => { t with tokens := 0, window := now }).setFld (TMON_TEMP_TJ n) tj.toNat

/-- TJMAX keeps the highest TJ as a signed value (R45). -/
def Run.keepMax (r : Run s0) (n : Nat) (tj : BitVec 16) : Run s0 :=
  if (BitVec.ofNat 16 (r.fld (TMON_TEMP_TJMAX n))).slt tj then r.setFld (TMON_TEMP_TJMAX n) tj.toNat else r

theorem Run.marks_closeWindow (r : Run s0) (n : Nat) (laps tj : BitVec 16) (now : Word) :
    Run.marks (fun o => o = (TMON_PROC n).off ∨ o = (TMON_RATE n).off ∨ o = (TMON_TEMP n).off) r (r.closeWindow n laps tj now) :=
  (((Run.marks_setFld (W := fun o => o = (TMON_PROC n).off ∨ o = (TMON_RATE n).off ∨ o = (TMON_TEMP n).off)
    (f := TMON_PROC_LAPS n) r laps.toNat (.inl rfl)).trans (Run.marks_setFld (f := TMON_RATE_TOKENS n) _ (min (r.tile n).tokens 0xFFFF)
      (.inr (.inl rfl)))).trans (Run.marks_modTile _ n fun t => { t with tokens := 0, window := now })).trans
      (Run.marks_setFld (f := TMON_TEMP_TJ n) _ tj.toNat (.inr (.inr rfl)))

/-- A window that ends leaves what the monitors have measured. -/
theorem Run.closeWindow_reads (r : Run s0) (n : Nat) (laps tj : BitVec 16) (now : Word) :
    (r.closeWindow n laps tj now).1.fld (TMON_PROC_LAPS n) = laps.toNat ∧
      (r.closeWindow n laps tj now).1.fld (TMON_RATE_TOKENS n) = min (r.1.tile n).tokens 65535 ∧
      (r.closeWindow n laps tj now).1.fld (TMON_TEMP_TJ n) = tj.toNat ∧
      (r.closeWindow n laps tj now).1.fld (TMON_TEMP_TJMAX n) = r.1.fld (TMON_TEMP_TJMAX n) ∧
      (r.closeWindow n laps tj now).1.tile n = { r.1.tile n with tokens := 0, window := now } := by
  have fits : laps.toNat % 65536 = laps.toNat ∧ tj.toNat % 65536 = tj.toNat ∧ min (r.1.tile n).tokens 65535 % 65536 = min (r.1.tile n).tokens 65535 := by
    have := laps.isLt
    have := tj.isLt
    omega
  simp [Run.closeWindow, Run.tile, Run.fld_setFld_same, Run.fld_setFld_apart, Run.fld_setFld_other, fits]

theorem Run.marks_keepMax (r : Run s0) (n : Nat) (tj : BitVec 16) : Run.marks (· = (TMON_TEMP n).off) r (r.keepMax n tj) := by
  unfold Run.keepMax
  split
  · exact Run.marks_setFld r _ rfl
  · exact .refl r

theorem Run.keepMax_reads (r : Run s0) (n : Nat) (tj : BitVec 16) :
    (r.keepMax n tj).1.fld (TMON_TEMP_TJMAX n) =
        (if (BitVec.ofNat 16 (r.1.fld (TMON_TEMP_TJMAX n))).slt tj then tj.toNat else r.1.fld (TMON_TEMP_TJMAX n)) ∧
      (r.keepMax n tj).1.fld (TMON_TEMP_TJ n) = r.1.fld (TMON_TEMP_TJ n) ∧ (r.keepMax n tj).1.tile n = r.1.tile n := by
  unfold Run.keepMax Run.fld
  split
  · exact ⟨Run.fld_setFld_lt r (by simp) (by simpa using tj.isLt), Run.fld_setFld_apart r _ _ _ (by simp) (by simp) (by simp) (by simp), rfl⟩
  · exact ⟨rfl, rfl, rfl⟩

/-- A window ends at a multiple of 1,024 of its die's time, once. -/
theorem execTmonWindowEnd_eq {n : Fin 256} {laps tj : BitVec 16} {v : BitVec 10} {s : State} (valid : s.fld (TBRX_STATUS_LOST (dieOf n)) = 0)
    (whole : (s.rx (dieOf n)).time.toNat % 1024 = 0) (new : (s.rx (dieOf n)).time ≠ (s.tile n).window) :
    execTmonWindowEnd n laps tj v s =
      ((((Run.start s).closeWindow n laps tj (s.rx (dieOf n)).time).keepMax n tj).readVcore n v.toNat).done := by
  have open_ : ¬ ((Run.start s).on (TBRX_STATUS_LOST (dieOf n)) = true ∨ ((Run.start s).rx (dieOf n)).time.toNat % 1024 ≠ 0 ∨
      ((Run.start s).rx (dieOf n)).time = ((Run.start s).tile n).window) := by
    simp [Run.on, Run.fld, Run.rx, Run.tile, valid, whole, new]
  unfold execTmonWindowEnd
  simp only
  rw [if_neg open_]
  rfl

/-- R44 to R46: a window ends. -/
theorem tmonWindowEnd_completes (n : Fin 256) (laps tj : BitVec 16) (v : BitVec 10) (s : State) (st : s.still)
    (valid : s.fld (TBRX_STATUS_LOST (dieOf n)) = 0) (whole : (s.rx (dieOf n)).time.toNat % 1024 = 0)
    (new : (s.rx (dieOf n)).time ≠ (s.tile n).window) (high : 480 ≤ v.toNat) :
    ∃ t, execTmonWindowEnd n laps tj v s = .next t ∧ t.fld (TMON_PROC_LAPS n) = laps.toNat ∧
      t.fld (TMON_RATE_TOKENS n) = min (s.tile n).tokens 65535 ∧ t.fld (TMON_TEMP_TJ n) = tj.toNat ∧
      t.fld (TMON_TEMP_TJMAX n) = (if (BitVec.ofNat 16 (s.fld (TMON_TEMP_TJMAX n))).slt tj then tj.toNat else s.fld (TMON_TEMP_TJMAX n)) ∧
      t.fld (TMON_DROOP_VNOW n) = v.toNat ∧ t.fld (TMON_DROOP_VMIN n) = min v.toNat (s.fld (TMON_DROOP_VMIN n)) ∧ (t.tile n).tokens = 0 ∧
      (t.tile n).window = (s.rx (dieOf n)).time := by
  set r := Run.start s
  set q := r.closeWindow n laps tj (s.rx (dieOf n)).time with hq
  set p := q.keepMax n tj with hp
  have closes := r.marks_closeWindow n laps tj (s.rx (dieOf n)).time
  obtain ⟨hlaps, tokens, now, max, tile⟩ := r.closeWindow_reads n laps tj (s.rx (dieOf n)).time
  have keeps := q.marks_keepMax n tj
  obtain ⟨max', now', tile'⟩ := q.keepMax_reads n tj
  obtain ⟨reads, vnow, vmin, -, tile''⟩ := p.readVcore_reads n high v.isLt
  have least : p.1.fld (TMON_DROOP_VMIN n) = s.fld (TMON_DROOP_VMIN n) := (keeps.fld (by simp)).trans (closes.fld (by simp))
  obtain ⟨⟨-, -, proc⟩, ⟨-, -, temp⟩, ⟨-, -, droop⟩, ⟨-, -, rate⟩⟩ := onTile_TMON n
  have window : Run.marks noLink r q := closes.mono fun o => by
    rintro (rfl | rfl | rfl)
    · exact proc
    · exact rate
    · exact temp
  have all : Run.marks noLink r (p.readVcore n v.toNat) :=
    (window.trans (keeps.mono fun o e => e ▸ temp)).trans (reads.mono fun o e => e ▸ droop)
  refine ⟨_, (execTmonWindowEnd_eq valid whole new).trans (Run.done_marks st all), ?_, ?_, ?_, ?_, vnow, ?_, ?_, ?_⟩
  · rw [reads.fld (by simp), keeps.fld (by simp), hlaps]
  · rw [reads.fld (by simp), keeps.fld (by simp), tokens]
    rfl
  · rw [reads.fld (by simp), now', now]
  · rw [reads.fld (by simp), max', max]
    rfl
  · rw [vmin, least]
  · rw [tile'', tile', tile]
  · rw [tile'', tile', tile]

/-- R46: an excursion below THRESH begins. -/
theorem droopExcursion_completes (n : Fin 256) (v : BitVec 10) (s : State) (st : s.still) (low : v.toNat < s.fld (TMON_DROOP_THRESH n))
    (new : (s.tile n).below = false) (high : 480 ≤ v.toNat) :
    ∃ t, execDroopExcursion n v s = .next t ∧ t.fld (TMON_DROOP_DCOUNT n) = min (s.fld (TMON_DROOP_DCOUNT n) + 1) 65535 ∧
      t.fld (TMON_DROOP_VNOW n) = v.toNat ∧ t.fld (TMON_DROOP_VMIN n) = min v.toNat (s.fld (TMON_DROOP_VMIN n)) ∧ (t.tile n).below = true := by
  obtain ⟨reads, vnow, vmin, count, tile⟩ := (Run.start s).readVcore_reads n high v.isLt
  obtain ⟨-, -, ⟨-, -, droop⟩, -⟩ := onTile_TMON n
  have marks := reads.mono (W := noLink) fun o e => e ▸ droop
  refine ⟨_, Run.done_marks st marks, ?_, vnow, vmin, ?_⟩
  · rw [count, Run.start_val, new, decide_eq_true low]
    rfl
  · rw [tile]
    exact decide_eq_true low

end Sys2Proof.Machine

/-! The end of a command that touches many harts for which nothing waits (R81). -/
namespace Sys2Proof.Machine

variable {s0 : State}

/-! ### Settling of idle harts -/

theorem Run.settleLoop_idle (r : Run s0) (k : Nat) (idle : ∀ h ∈ r.1.poke, r.1.undisturbed h) : (r.settleLoop k).1 = r.over := by
  induction k generalizing r with
  | zero => rfl
  | succ k ih =>
    rw [Run.settleLoop]
    split
    next none => exact (Run.over_eq r none).symm
    next h hs more =>
      have first : (r.act (.poke hs)).settleHart h = r.act (.poke hs) := Run.settleHart_idle _ h (idle h (by simp [more]))
      rw [first]
      exact ih _ fun h' hh => idle h' (by simpa [more] using .inr hh)

/-- A state differs from another in nothing that settling looks at, but for the registers: a hart may have changed what it does, and the harts
that are to be looked at again beside the other's stand with nothing waiting for them. -/
structure State.calm (s t : State) : Prop where
  need : t.need = s.need
  net : t.net = s.net
  dies : t.dies = s.dies
  quads : t.quads = s.quads
  csrs : t.csrs = s.csrs
  hart : ∀ h, ∃ x, t.hart h = { s.hart h with run := x }
  poke : ∀ h ∈ t.poke, h ∈ s.poke ∨ s.undisturbed h

variable {s t u : State}

theorem State.calm.refl (s : State) : s.calm s := ⟨rfl, rfl, rfl, rfl, rfl, fun _ => ⟨_, rfl⟩, fun _ => .inl⟩

theorem State.calm.undisturbed (c : s.calm t) (h : Nat) : t.undisturbed h ↔ s.undisturbed h := by
  obtain ⟨x, hart⟩ := c.hart h
  simp only [State.undisturbed, State.unwatched, State.quad, State.csr, c.quads, c.csrs, hart]

theorem State.calm.trans (c : s.calm t) (c' : t.calm u) : s.calm u where
  need := c'.need.trans c.need
  net := c'.net.trans c.net
  dies := c'.dies.trans c.dies
  quads := c'.quads.trans c.quads
  csrs := c'.csrs.trans c.csrs
  hart h := by
    obtain ⟨x, hx⟩ := c.hart h
    obtain ⟨y, hy⟩ := c'.hart h
    exact ⟨y, by rw [hy, hx]⟩
  poke h hh := (c'.poke h hh).elim (c.poke h) fun i => .inr ((c.undisturbed h).1 i)

/-- A command whose run leaves the state calm, with the dies online that were, ends with what it has done. -/
theorem Run.done_calm (r : Run s0) (st : s.still) (c : s.calm r.1) (on : ∀ d < 16, r.1.online d = s.online d) : r.done = .next r.over := by
  have ⟨need, poke, _, drop⟩ := st
  have quiet : (r.act (.poke [])).1.still := State.still_of_online st (c.need.trans need) rfl on c.net c.dies
  obtain ⟨-, -, fence, -⟩ := quiet
  have idle : ∀ h ∈ r.1.poke, r.1.undisturbed h := fun h hh => by
    rcases c.poke h hh with no | yes
    · simp [poke] at no
    · exact (c.undisturbed h).2 yes
  rw [Run.done_plain r (c.need.trans need), Run.settle, Run.settleFence_none r _ fence, Run.settleDrops_none r (c.dies ▸ drop), Run.finish_eq,
    Run.settleLoop_idle r _ idle]

/-! ### What leaves a state calm -/

variable {W : Nat → Prop} {r q : Run s0}

theorem Run.marks.calm (h : Run.marks W r q) : r.1.calm q.1 := by
  obtain ⟨rs, ts, ls, e, -⟩ := h
  rw [e]
  exact ⟨rfl, rfl, rfl, rfl, rfl, fun _ => ⟨_, rfl⟩, fun _ => .inl⟩

/-- A run has gone on by marking harts of a die that are to be looked at again. -/
def Run.marksDie (d : Nat) (r q : Run s0) : Prop :=
  ∃ ps, q.1 = { r.1 with poke := ps } ∧ ∀ h ∈ ps, h ∈ r.1.poke ∨ ∃ e ∈ r.1.harts, e.1 = h ∧ dieOf (tileOf h) = d

theorem Run.marksDie_pokeDie (r : Run s0) (d : Nat) : Run.marksDie d r (r.pokeDie d) := by
  unfold Run.pokeDie
  refine List.foldlRecOn (motive := Run.marksDie d r) _ _ ⟨_, rfl, fun _ => .inl⟩ fun q ⟨ps, val, mine⟩ e he => ?_
  split
  next here =>
    unfold Run.pokeHart
    split
    · exact ⟨ps, val, mine⟩
    · refine ⟨ps ++ [e.1], by simp [val, Act.apply], fun h hh => ?_⟩
      rcases List.mem_append.1 hh with old | new
      · exact mine h old
      · cases List.mem_singleton.1 new
        exact .inr ⟨e, he, rfl, here⟩
  next => exact ⟨ps, val, mine⟩

/-- Beside the harts to be looked at again, a die's harts stay. -/
theorem Run.pokeDie_over (r : Run s0) (d : Nat) : (r.pokeDie d).over = r.over := by
  obtain ⟨ps, val, -⟩ := r.marksDie_pokeDie d
  simp [Run.over, val, Act.apply]

theorem Run.pokeDie_calm (r : Run s0) {d : Nat} (idle : r.1.dieIdle d) : r.1.calm (r.pokeDie d).1 := by
  obtain ⟨ps, val, mine⟩ := r.marksDie_pokeDie d
  rw [val]
  refine ⟨rfl, rfl, rfl, rfl, rfl, fun _ => ⟨_, rfl⟩, fun h hh => (mine h hh).imp_right ?_⟩
  rintro ⟨e, he, rfl, here⟩
  exact idle e he here

end Sys2Proof.Machine

/-! A token whose slot carries an instruction on registers alone (R36, R39, R477 to R487). -/
namespace Sys2Proof.Machine

variable {s0 : State}

/-! ### Counters that count nothing but cycles -/

/-- mcycle of a hart takes a token (R39). -/
def Run.cycles (r : Run s0) (h : Nat) : Bool := r.awake h && !r.cb h 0x320 0 && r.counting h

/-- mcycle of a hart takes a token, where it counts. -/
def Run.cycle (r : Run s0) (h : Nat) : Run s0 := if r.cycles h then r.setCsr h 0xB00 (r.csr h 0xB00 + 1) else r

/-- A programmable counter without an event, whose condition did not hold in the last token, stays as it is (R479). -/
theorem Run.hpmToken_off (r : Run s0) (c : List (Nat × Nat × Nat)) (n h i : Nat) (off : r.1.csr h (0x320 + i) = 0) (edge : (r.1.hart h).edge = 0) :
    r.hpmToken c n h i = r := by
  have none : r.counted c n h 0 = 0 := by simp [Run.counted, Word.bits]
  unfold Run.hpmToken
  simp only [Run.csr, Run.hart, off, edge, none]
  simp [countMode, Word.bits]

theorem Run.hartToken_off (r : Run s0) (c : List (Nat × Nat × Nat)) (n h : Nat) (off : ∀ j < 8, r.1.csr h (0x323 + j) = 0)
    (edge : (r.1.hart h).edge = 0) : r.hartToken c n h = r.cycle h := by
  have still_off : ∀ j < 8, (r.cycle h).1.csr h (0x323 + j) = 0 := by
    intro j hj
    unfold Run.cycle
    split
    · rw [Run.csr_setCsr_other _ _ (hartCsr_ne (by omega)), off j hj]
    · exact off j hj
  have still_edge : ((r.cycle h).1.hart h).edge = 0 := by
    unfold Run.cycle
    split
    · exact edge
    · exact edge
  have each : ∀ j ∈ List.range 8, (r.cycle h).hpmToken c n h (j + 3) = r.cycle h := fun j hj =>
    Run.hpmToken_off _ c n h (j + 3) (by simpa [Nat.add_comm j 3, ← Nat.add_assoc] using still_off j (List.mem_range.1 hj)) still_edge
  have all : ∀ js : List Nat, (∀ j ∈ js, (r.cycle h).hpmToken c n h (j + 3) = r.cycle h) →
      js.foldl (fun r j => r.hpmToken c n h (j + 3)) (r.cycle h) = r.cycle h := by
    intro js hjs
    induction js with
    | nil => rfl
    | cons j js ih =>
      obtain ⟨first, rest⟩ := List.forall_mem_cons.1 hjs
      rw [List.foldl_cons, first, ih rest]
  exact all _ each

/-- A run has gone on by counting cycles alone. -/
structure Run.counts (r q : Run s0) : Prop where
  only : ∃ cs, q.1 = { r.1 with csrs := cs }
  csr : ∀ h m, m < 4096 → m ≠ 0xB00 → q.1.csr h m = r.1.csr h m

variable {r p q : Run s0}

theorem Run.counts.refl (r : Run s0) : Run.counts r r := ⟨⟨_, rfl⟩, fun _ _ _ _ => rfl⟩

theorem Run.counts.trans (a : Run.counts r p) (b : Run.counts p q) : Run.counts r q := by
  obtain ⟨cs, hp⟩ := a.only
  obtain ⟨cs', hq⟩ := b.only
  exact ⟨⟨cs', by rw [hq, hp]⟩, fun h m hm he => (b.csr h m hm he).trans (a.csr h m hm he)⟩

theorem Run.counts_cycle (r : Run s0) (h : Nat) : Run.counts r (r.cycle h) := by
  unfold Run.cycle
  split
  · exact ⟨⟨_, rfl⟩, fun k m hm he => Run.csr_setCsr_other r _ (by omega)⟩
  · exact .refl r

theorem Run.counts.cycles (c : Run.counts r q) (h : Nat) : q.cycles h = r.cycles h := by
  have stop := c.csr h 0x320 (by decide) (by decide)
  have debug := c.csr h 0x7B0 (by decide) (by decide)
  obtain ⟨cs, e⟩ := c.only
  simp only [Run.cycles, Run.awake, Run.counting, Run.cb, Run.csr, stop, debug, Run.hart, Run.tile]
  simp only [e, State.hart, State.tile]

/-- What a core's cycles leave in mcycle of one of its harts. -/
theorem Run.cycle_fold (r : Run s0) (n k : Nat) (is : List Nat) (once : is.Nodup) (on : r.cycles (n * 4 + k) = true) :
    Run.counts r (is.foldl (fun r i => r.cycle (n * 4 + i)) r) ∧
      (is.foldl (fun r i => r.cycle (n * 4 + i)) r).1.csr (n * 4 + k) 0xB00 =
        if k ∈ is then r.1.csr (n * 4 + k) 0xB00 + 1 else r.1.csr (n * 4 + k) 0xB00 := by
  induction is generalizing r with
  | nil => exact ⟨.refl r, rfl⟩
  | cons i is ih =>
    obtain ⟨notIn, once⟩ := List.nodup_cons.1 once
    have one := r.counts_cycle (n * 4 + i)
    obtain ⟨rest, count⟩ := ih (r.cycle (n * 4 + i)) once (by rw [one.cycles, on])
    refine ⟨one.trans rest, ?_⟩
    rw [List.foldl_cons, count]
    by_cases e : k = i
    · subst e
      have took : (r.cycle (n * 4 + k)).1.csr (n * 4 + k) 0xB00 = r.1.csr (n * 4 + k) 0xB00 + 1 := by
        rw [Run.cycle, if_pos on, Run.csr_setCsr_same]
        rfl
      simp [notIn, took]
    · have kept : (r.cycle (n * 4 + i)).1.csr (n * 4 + k) 0xB00 = r.1.csr (n * 4 + k) 0xB00 := by
        unfold Run.cycle
        split
        · exact Run.csr_setCsr_other r _ (by omega)
        · rfl
      simp [e, kept]

/-- The counters of a core take a token, where no event is selected at its harts. -/
theorem Run.hartTokens_off (r : Run s0) (c : List (Nat × Nat × Nat)) (n : Nat)
    (off : ∀ i < 4, (r.1.hart (n * 4 + i)).edge = 0 ∧ ∀ j < 8, r.1.csr (n * 4 + i) (0x323 + j) = 0) (is : List Nat) (core : ∀ i ∈ is, i < 4) :
    is.foldl (fun r i => r.hartToken c n (n * 4 + i)) r = is.foldl (fun r i => r.cycle (n * 4 + i)) r := by
  induction is generalizing r with
  | nil => rfl
  | cons i is ih =>
    obtain ⟨hi, core⟩ := List.forall_mem_cons.1 core
    obtain ⟨edge, none⟩ := off i hi
    have one := r.counts_cycle (n * 4 + i)
    rw [List.foldl_cons, List.foldl_cons, Run.hartToken_off r c n _ none edge]
    refine ih _ (fun j hj => ?_) core
    obtain ⟨edge, none⟩ := off j hj
    refine ⟨?_, fun m hm => ?_⟩
    · obtain ⟨cs, e⟩ := one.only
      rw [e]
      exact edge
    · rw [one.csr _ _ (by omega) (by omega), none m hm]

end Sys2Proof.Machine

/-! The rest of such a token: what it leaves of its core's harts, and its slot (R36, R39, R64, R485, R486). -/
namespace Sys2Proof.Machine

variable {s0 : State}

/-! ### Runs that change harts alone -/

/-- A run has gone on by changes of harts alone, each as `P` says. -/
structure Run.turns (P : Hart → Hart → Prop) (r q : Run s0) : Prop where
  only : ∃ hs, q.1 = { r.1 with harts := hs }
  hart : ∀ h, P (r.1.hart h) (q.1.hart h)

/-- A hart differs from another in its place in the order of fetches alone (R64). -/
def Hart.refetched (t u : Hart) : Prop := u = { t with lag := u.lag, dry := u.dry }

@[simp] theorem Run.hart_setHart (r : Run s0) (h k : Nat) (v : Hart) : (r.setHart h v).1.hart k = if k = h then v else r.1.hart k := by
  simp [Run.setHart]

theorem Run.turns_setHart {P : Hart → Hart → Prop} (same : ∀ t, P t t) (r : Run s0) (h : Nat) (v : Hart) (new : P (r.1.hart h) v) :
    Run.turns P r (r.setHart h v) := by
  refine ⟨⟨_, rfl⟩, fun k => ?_⟩
  rw [Run.hart_setHart]
  split
  next e => exact e ▸ new
  next => exact same _

theorem Run.turns_giveFetch (r : Run s0) (n : Nat) (hs : List Nat) (turn : Option Nat) :
    Run.turns Hart.refetched r (r.giveFetch n hs turn) := by
  unfold Run.giveFetch
  refine List.foldlRecOn (motive := Run.turns Hart.refetched r) _ _ ⟨⟨_, rfl⟩, fun _ => rfl⟩ fun q ⟨⟨hs, only⟩, hart⟩ p _ => ?_
  dsimp only
  split
  · exact ⟨⟨hs, only⟩, hart⟩
  · obtain ⟨⟨hs', only'⟩, hart'⟩ := Run.turns_setHart (P := Hart.refetched) (fun _ => rfl) q (n * 4 + p.1)
      { q.hart (n * 4 + p.1) with lag := p.2.1, dry := p.2.2 } rfl
    refine ⟨⟨hs', by rw [only', only]⟩, fun h => ?_⟩
    rw [Hart.refetched, hart' h, hart h]

/-- A pass over harts of a core that changes each in its turn, as `f` says. -/
theorem Run.foldl_harts {g : Run s0 → Nat → Run s0} {f : Nat → Hart → Hart} {n : Nat}
    (step : ∀ r i, (∃ hs, (g r i).1 = { r.1 with harts := hs }) ∧
      ∀ h, (g r i).1.hart h = if h = n * 4 + i then f i (r.1.hart h) else r.1.hart h)
    (r : Run s0) (is : List Nat) (once : is.Nodup) :
    (∃ hs, (is.foldl g r).1 = { r.1 with harts := hs }) ∧
      ∀ k, (is.foldl g r).1.hart (n * 4 + k) = if k ∈ is then f k (r.1.hart (n * 4 + k)) else r.1.hart (n * 4 + k) := by
  induction is generalizing r with
  | nil => exact ⟨⟨_, rfl⟩, fun _ => rfl⟩
  | cons i is ih =>
    obtain ⟨notIn, once⟩ := List.nodup_cons.1 once
    obtain ⟨⟨hs, first⟩, turn⟩ := step r i
    obtain ⟨⟨hs', only⟩, hart⟩ := ih (g r i) once
    refine ⟨⟨hs', by rw [List.foldl_cons, only, first]⟩, fun k => ?_⟩
    rw [List.foldl_cons, hart k, turn]
    by_cases e : k = i
    · subst e
      simp [notIn]
    · simp [e]

/-! ### Occurrences -/

/-- The occurrences at a hart have been counted, and are over (R479). -/
def Run.clearTally (r : Run s0) (h : Nat) : Run s0 := if (r.hart h).tally.isEmpty then r else r.modHart h fun t => { t with tally := [] }

theorem Run.clearTally_hart (r : Run s0) (h : Nat) : (∃ hs, (r.clearTally h).1 = { r.1 with harts := hs }) ∧
    ∀ k, (r.clearTally h).1.hart k = if k = h then { r.1.hart k with tally := [] } else r.1.hart k := by
  unfold Run.clearTally
  split
  next none =>
    refine ⟨⟨_, rfl⟩, fun k => ?_⟩
    split
    next e =>
      subst e
      rw [← List.isEmpty_iff.1 none]
      rfl
    next => rfl
  next =>
    refine ⟨⟨_, rfl⟩, fun k => (Run.hart_setHart r h k _).trans ?_⟩
    split
    next e => exact e ▸ rfl
    next => rfl

/-- The occurrences at a tile have been counted, and are over (R479). -/
def Run.endTally (r : Run s0) (n : Nat) : Run s0 := if (r.tile n).tally.isEmpty then r else r.modTile n fun t => { t with tally := [] }

theorem Run.endTally_tile (r : Run s0) (n : Nat) :
    (∃ ts, (r.endTally n).1 = { r.1 with tiles := ts }) ∧ (r.endTally n).1.tile n = { r.1.tile n with tally := [] } := by
  unfold Run.endTally
  split
  next none =>
    refine ⟨⟨_, rfl⟩, ?_⟩
    rw [← List.isEmpty_iff.1 none]
    rfl
  next => exact ⟨⟨_, rfl⟩, Run.tile_modTile_same r n _⟩

/-! ### What a token leaves -/

/-- What a token leaves of the hart at place k of a core n whose operation retires in it, before that operation: the hart's place in the order
of fetches may have moved, it has recovered, its occurrences are over and its cycles counted. -/
structure Run.passed (n k : Nat) (r q : Run s0) : Prop where
  only : ∃ hs cs ts, q.1 = { r.1 with harts := hs, csrs := cs, tiles := ts }
  hart : ∃ a b, q.1.hart (n * 4 + k) = { r.1.hart (n * 4 + k) with lag := a, dry := b, recover := false, tally := [] }
  csr : ∀ m, m < 4096 → m ≠ 0xB00 → q.1.csr (n * 4 + k) m = r.1.csr (n * 4 + k) m
  cycle : q.1.csr (n * 4 + k) 0xB00 = r.1.csr (n * 4 + k) 0xB00 + 1
  tile : ∃ a b, q.1.tile n = { r.1.tile n with tally := a, dealt := b }

theorem Run.countToken_eq (r : Run s0) (n : Nat) (t : Token) (cs es : List (Nat × Bool)) (free : List Nat)
    (off : ∀ i < 4, (r.1.hart (n * 4 + i)).edge = 0 ∧ ∀ j < 8, r.1.csr (n * 4 + i) (0x323 + j) = 0) :
    r.countToken n t cs es free =
      (((List.range 4).foldl (fun r i => r.clearTally (n * 4 + i)) ((List.range 4).foldl (fun r i => r.cycle (n * 4 + i)) r))).endTally n := by
  rw [← Run.hartTokens_off r _ n off (List.range 4) fun i hi => List.mem_range.1 hi]
  rfl

/-- The hart at place i of a core has recovered, where it is the one at place k (R486). -/
def Run.recovers (r : Run s0) (n k i : Nat) : Run s0 :=
  if i = k ∧ (r.hart (n * 4 + i)).recover = true then r.setHart (n * 4 + i) { r.hart (n * 4 + i) with recover := false } else r

theorem Run.recovers_hart (r : Run s0) (n k i : Nat) : (∃ hs, (r.recovers n k i).1 = { r.1 with harts := hs }) ∧
    ∀ h, (r.recovers n k i).1.hart h =
      if h = n * 4 + i then (if i = k then { r.1.hart h with recover := false } else r.1.hart h) else r.1.hart h := by
  unfold Run.recovers
  split
  next c =>
    refine ⟨⟨_, rfl⟩, fun h => (Run.hart_setHart r _ h _).trans ?_⟩
    rw [if_pos c.1]
    split
    next e => exact e ▸ rfl
    next => rfl
  next c =>
    refine ⟨⟨_, rfl⟩, fun h => ?_⟩
    split
    next e =>
      split
      next e' =>
        have recovered : (r.1.hart h).recover = false := by
          subst e
          exact Bool.not_eq_true _ ▸ fun on => c ⟨e', on⟩
        rw [← recovered]
      next => rfl
    next => rfl

/-- With one slot in use, the pass over the reorder window ends the recovery of its hart alone (R62, R486). -/
theorem Run.moveWindow_eq (r : Run s0) (n k : Nat) :
    r.moveWindow n [(k, true)] [] = (List.range 4).foldl (fun r i => r.recovers n k i) r := by
  unfold Run.moveWindow
  congr 1
  funext r i
  by_cases e : k = i
  · cases on : (r.hart (n * 4 + i)).recover <;> simp [Run.recovers, e, on]
  · simp [Run.recovers, e, Ne.symm e]

theorem Run.moveWindow_one (r : Run s0) (n k : Nat) (hk : k < 4) :
    (∃ hs, (r.moveWindow n [(k, true)] []).1 = { r.1 with harts := hs }) ∧
      (r.moveWindow n [(k, true)] []).1.hart (n * 4 + k) = { r.1.hart (n * 4 + k) with recover := false } := by
  rw [Run.moveWindow_eq]
  obtain ⟨only, hart⟩ := Run.foldl_harts (f := fun i t => if i = k then { t with recover := false } else t)
    (fun r i => Run.recovers_hart r n k i) r (List.range 4) List.nodup_range
  exact ⟨only, (hart k).trans (by simp [hk])⟩

/-- The tile deals its empty slots on after the hart at place i (R485). -/
def Run.dealtTo (r : Run s0) (n : Nat) (i : Option Nat) : Run s0 :=
  match i with
  | some i => if (r.tile n).dealt = i then r else r.modTile n fun x => { x with dealt := i }
  | none => r

theorem Run.dealtTo_tile (r : Run s0) (n : Nat) (i : Option Nat) :
    (∃ ts, (r.dealtTo n i).1 = { r.1 with tiles := ts }) ∧ ∃ d, (r.dealtTo n i).1.tile n = { r.1.tile n with dealt := d } := by
  unfold Run.dealtTo
  split
  next =>
    split
    · exact ⟨⟨_, rfl⟩, _, rfl⟩
    · exact ⟨⟨_, rfl⟩, _, Run.tile_modTile_same r n _⟩
  next => exact ⟨⟨_, rfl⟩, _, rfl⟩

/-- The counters, the window, the empty slots and the fetch opportunity of a token with one slot in use. -/
theorem Run.passed_token (r : Run s0) {n k : Nat} (hk : k < 4) (t : Token) (es : List (Nat × Bool)) (free : List Nat) (last : Option Nat)
    (hs : List Nat) (turn : Option Nat) (on : r.cycles (n * 4 + k) = true)
    (off : ∀ i < 4, (r.1.hart (n * 4 + i)).edge = 0 ∧ ∀ j < 8, r.1.csr (n * 4 + i) (0x323 + j) = 0) :
    Run.passed n k r ((((r.countToken n t [(k, true)] es free).moveWindow n [(k, true)] []).dealtTo n last).giveFetch n hs turn) := by
  have member : k ∈ List.range 4 := List.mem_range.2 hk
  rw [r.countToken_eq n t [(k, true)] es free off]
  obtain ⟨⟨⟨cs, counts⟩, csr⟩, cycle⟩ := r.cycle_fold n k (List.range 4) List.nodup_range on
  rw [if_pos member] at cycle
  generalize (List.range 4).foldl (fun r i => r.cycle (n * 4 + i)) r = q₁ at counts csr cycle ⊢
  obtain ⟨⟨hs₁, clears⟩, cleared⟩ := Run.foldl_harts (f := fun _ t => { t with tally := [] }) (fun r i => Run.clearTally_hart r (n * 4 + i))
    q₁ (List.range 4) List.nodup_range
  have cleared := (cleared k).trans (if_pos member)
  generalize (List.range 4).foldl (fun r i => r.clearTally (n * 4 + i)) q₁ = q₂ at clears cleared ⊢
  obtain ⟨⟨ts₁, ends⟩, ended⟩ := q₂.endTally_tile n
  generalize q₂.endTally n = q₃ at ends ended ⊢
  obtain ⟨⟨hs₂, moves⟩, moved⟩ := q₃.moveWindow_one n k hk
  generalize q₃.moveWindow n [(k, true)] [] = q₄ at moves moved ⊢
  obtain ⟨⟨ts₂, deals⟩, x, dealt⟩ := q₄.dealtTo_tile n last
  generalize q₄.dealtTo n last = q₅ at deals dealt ⊢
  obtain ⟨⟨hs₃, fetches⟩, fetched⟩ := q₅.turns_giveFetch n hs turn
  have fetched := fetched (n * 4 + k)
  generalize q₅.giveFetch n hs turn = q at fetches fetched ⊢
  have hart₁ : q₁.1.hart (n * 4 + k) = r.1.hart (n * 4 + k) := by rw [counts]; rfl
  have hart₃ : q₃.1.hart (n * 4 + k) = q₂.1.hart (n * 4 + k) := by rw [ends]; rfl
  have hart₅ : q₅.1.hart (n * 4 + k) = q₄.1.hart (n * 4 + k) := by rw [deals]; rfl
  have tile₂ : q₂.1.tile n = r.1.tile n := by rw [clears, counts]; rfl
  have tile₄ : q₄.1.tile n = q₃.1.tile n := by rw [moves]; rfl
  have tile : q.1.tile n = q₅.1.tile n := by rw [fetches]; rfl
  have csrs : ∀ h m, q.1.csr h m = q₁.1.csr h m := fun h m => by rw [fetches, deals, moves, ends, clears]; rfl
  refine ⟨⟨_, _, _, by rw [fetches, deals, moves, ends, clears, counts]⟩,
    ⟨(q.1.hart (n * 4 + k)).lag, (q.1.hart (n * 4 + k)).dry, ?_⟩, fun m hm he => ?_, ?_, ⟨[], x, ?_⟩⟩
  · rw [hart₅, moved, hart₃, cleared, hart₁] at fetched
    exact fetched
  · rw [csrs, csr _ m hm he]
  · rw [csrs, cycle]
  · rw [tile, dealt, tile₄, ended, tile₂]

/-! ### The slot -/

/-- A hart that is as it was, but for what a token counts and how it fetches. -/
def Hart.awaits (t u : Hart) : Prop := u = { t with lag := u.lag, dry := u.dry, recover := u.recover, tally := u.tally }

/-- A tile that is as it was, but for what a token counts and how it deals empty slots. -/
def Tile.awaits (t u : Tile) : Prop := u = { t with tokens := u.tokens, tally := u.tally, dealt := u.dealt }

section
variable {s1 : State} {r : Run s0} {q : Run s1} {h : Nat} (hart : (r.1.hart h).awaits (q.1.hart h)) (tile : (r.1.tile (tileOf h)).awaits (q.1.tile (tileOf h)))
include hart tile

theorem Run.ready_awaits (regs : q.1.regs = r.1.regs) : q.ready h = r.ready h := by
  have on : q.tileOn (tileOf h) = r.tileOn (tileOf h) := by simp only [Run.tileOn, Run.fld, State.fld, State.reg, regs]
  simp only [Run.ready, on, Run.hart, Run.tile]
  rw [hart, tile]

theorem Run.counting_awaits (csr : q.1.csr h 0x7B0 = r.1.csr h 0x7B0) : q.counting h = r.counting h := by
  simp only [Run.counting, Run.cb, Run.csr, csr, Run.hart, Run.tile]
  rw [hart, tile]

theorem Run.cycles_awaits (csr : q.1.csr h 0x7B0 = r.1.csr h 0x7B0) (stop : q.1.csr h 0x320 = r.1.csr h 0x320) : q.cycles h = r.cycles h := by
  have counting := Run.counting_awaits hart tile csr
  simp only [Run.cycles, counting, Run.awake, Run.cb, Run.csr, stop, Run.hart]
  rw [hart]

end

theorem Run.carried_one (r : Run s0) (n : Nat) (k : Fin 4) (op : SlotOp) (ready : r.ready (n * 4 + k) = true) :
    r.carried n [.run k op] = [(k.val, true)] := by
  simp [Run.carried, ready]

theorem Run.tokenPass_one {n : Fin 256} {k : Fin 4} {op : SlotOp} {s : State} (passes : (Run.start s).tokenPasses n = true)
    (valid : s.fld (TBRX_STATUS_LOST (dieOf n)) = 0) (ready : (Run.start s).ready (n * 4 + k) = true)
    (on : (Run.start s).cycles (n * 4 + k) = true)
    (off : ∀ i < 4, (s.hart (n * 4 + i)).edge = 0 ∧ ∀ j < 8, s.csr (n * 4 + i) (0x323 + j) = 0) :
    ∃ q : Run s, Run.passed n k ((Run.start s).modTile n fun x => { x with tokens := x.tokens + 1 }) q ∧
      execTokenPass n [.run k op] ⟨false, [], [], [], 0, [], [], []⟩ s = (q.slot (Fin.ofNat 1024 (n * 4 + k)) op).done := by
  have timed : (Run.start s).on (TBRX_STATUS_LOST (dieOf n)) = false := by simp [Run.on, Run.fld, valid]
  have home : tileOf (n * 4 + k) = n := by simp only [tileOf]; omega
  have counted := Run.tile_modTile_same (Run.start s) n fun x => { x with tokens := x.tokens + 1 }
  have kept : ∃ ts, ((Run.start s).modTile n fun x => { x with tokens := x.tokens + 1 }).1 = { (Run.start s).1 with tiles := ts } := ⟨_, rfl⟩
  unfold execTokenPass
  simp only [passes, timed, Bool.not_true, Bool.false_eq_true, if_false, List.foldl_nil]
  generalize (Run.start s).modTile n (fun x => { x with tokens := x.tokens + 1 }) = r at counted kept ⊢
  obtain ⟨ts, kept⟩ := kept
  have hart : ((Run.start s).1.hart (n * 4 + k)).awaits (r.1.hart (n * 4 + k)) := by rw [kept]; rfl
  have tile : ((Run.start s).1.tile (tileOf (n * 4 + k))).awaits (r.1.tile (tileOf (n * 4 + k))) := by rw [home, counted]; rfl
  have ready' : r.ready (n * 4 + k) = true := (Run.ready_awaits hart tile (by rw [kept])).trans ready
  have on' : r.cycles (n * 4 + k) = true := (Run.cycles_awaits hart tile (by rw [kept]; rfl) (by rw [kept]; rfl)).trans on
  have off' : ∀ i < 4, (r.1.hart (n * 4 + i)).edge = 0 ∧ ∀ j < 8, r.1.csr (n * 4 + i) (0x323 + j) = 0 := by
    rw [kept]
    exact off
  rw [Run.carried_one r n k op ready']
  have noEnd : r.ended n [] = [] := rfl
  rw [noEnd]
  have passed := fun hs turn => r.passed_token k.isLt ⟨false, [], [], [], 0, [], [], []⟩ [] (dealSlots (r.awakeOf n) (r.tile n).dealt 5)
    (dealSlots (r.awakeOf n) (r.tile n).dealt 5).getLast? hs turn on' off'
  simp only [List.length_singleton, Nat.add_one_sub_one]
  generalize dealSlots (r.awakeOf n) (r.tile n).dealt 5 = free at passed ⊢
  generalize Run.moveWindow _ n [(k.val, true)] [] = p at passed ⊢
  generalize Run.fetchTurn _ _ _ = turn
  simp only [Bool.false_and, Bool.false_eq_true, if_false]
  generalize fetched : Run.giveFetch _ _ _ turn = q
  refine ⟨q, fetched ▸ passed _ turn, congrArg Run.done ?_⟩
  cases turn with
  | none => rfl
  | some i => rfl

end Sys2Proof.Machine

/-! An instruction on registers alone retires in its slot of a token (R39, R55). -/
namespace Sys2Proof.Machine

variable {s0 : State}

/-- What an instruction that retires leaves: its hart has moved on, and minstret has counted it where it counts. -/
theorem Run.retire_leaves (r : Run s0) (h : Nat) (w : r.1.unwatched h) :
    (r.retire h).1.hart h = { r.1.hart h with pc := (r.1.hart h).pc + 4, wait := none }.told 2 ∧
      (r.retire h).1.csr h 0xB02 = (if r.cb h 0x320 2 || !r.counting h then r.1.csr h 0xB02 else r.1.csr h 0xB02 + 1) ∧
      (r.retire h).1.csr h 0xB00 = r.1.csr h 0xB00 := by
  have other : ∀ v, (r.setCsr h 0xB02 v).1.csr h 0xB00 = r.1.csr h 0xB00 := fun v => Run.csr_setCsr_other _ _ (hartCsr_ne (by decide))
  have same : ∀ v, (r.setCsr h 0xB02 v).1.csr h 0xB02 = v := Run.csr_setCsr_same r h 0xB02
  rw [Run.retire_plain r h w]
  simp only [Run.moveOn, Run.pokeHart]
  split <;> split <;> simp_all [Run.tally, Run.modHart, Run.setHart, Run.setCsr, Run.hart, Hart.told, State.csr, Run.csr]

theorem Run.xr_retire (r : Run s0) (h i : Nat) (w : r.1.unwatched h) : (r.retire h).xr h i = r.xr h i := by
  obtain ⟨-, xs, -⟩ := r.retire_frame h w
  simp only [Run.xr, Run.x, State.x, xs]

theorem Run.slot_compute (r : Run s0) (h : Fin 1024) (rd : Fin 32) (v : Word) (ready : r.ready h = true) :
    r.slot h (.compute rd v) = (r.setXr h rd v).retire h := by
  simp [Run.slot, ready]

/-- A register of a hart's is all that a write of it changes. -/
theorem Run.setXr_only (r : Run s0) (h i : Nat) (v : Word) : ∃ xs, (r.setXr h i v).1 = { r.1 with xs := xs } := by
  unfold Run.setXr
  split
  · exact ⟨_, rfl⟩
  · exact ⟨_, rfl⟩

/-- A state with a hart that stands as in another in which it can execute an instruction and nothing else happens with it. -/
theorem State.free_of_awaits {s t : State} {h : Nat} (free : s.free_ h) (only : ∃ hs cs ts, t = { s with harts := hs, csrs := cs, tiles := ts })
    (hart : (s.hart h).awaits (t.hart h)) (tile : (s.tile (tileOf h)).awaits (t.tile (tileOf h)))
    (debug : t.csr h 0x7B0 = s.csr h 0x7B0) (enabled : t.csr h 0x304 = s.csr h 0x304) : t.free_ h := by
  obtain ⟨still, undisturbed, ready⟩ := free
  obtain ⟨hs, cs, ts, only⟩ := only
  refine ⟨?_, ?_, ?_⟩
  · rw [only]
    exact still
  · refine State.undisturbed_of undisturbed (by rw [only]) (by rw [hart]) (by rw [hart]) (by rw [hart]) enabled ?_
    obtain ⟨-, -, -, -, -, trigs, pend, step⟩ := undisturbed
    exact ⟨by rw [hart, trigs], by rw [hart, pend], by rw [debug, step]⟩
  · exact (Run.ready_awaits (r := Run.start s) (q := Run.start t) hart tile (by rw [Run.start, Run.start]; rw [only])).trans ready

/-- A hart in M-mode at CEID 0 that can execute an instruction counts cycles and instructions, where it does not inhibit them. -/
theorem State.free_counts {s : State} {h : Nat} (free : s.free_ h) (none : s.csr h 0x320 = 0) (mode : (s.hart h).mode = .m)
    (ceid : (s.tile (tileOf h)).ceid = 0) : (Run.start s).counting h = true ∧ (Run.start s).cycles h = true := by
  obtain ⟨-, -, ready⟩ := free
  simp only [Run.ready, Bool.and_eq_true] at ready
  obtain ⟨⟨⟨⟨⟨runs, -⟩, -⟩, -⟩, -⟩, switching⟩ := ready
  have mode : ((Run.start s).hart h).mode = .m := mode
  have ceid : ((Run.start s).tile (tileOf h)).ceid = 0 := ceid
  have none : (Run.start s).csr h 0x320 = 0 := none
  have counting : (Run.start s).counting h = true := by
    simp only [Run.counting, mode, ceid, switching]
    rfl
  refine ⟨counting, ?_⟩
  simp only [Run.cycles, Run.awake, runs, counting, Run.cb, none]
  rfl

theorem State.free_wait {s : State} {h : Nat} (free : s.free_ h) : (s.hart h).wait = none := by
  obtain ⟨-, -, ready⟩ := free
  simp only [Run.ready, Bool.and_eq_true] at ready
  obtain ⟨⟨⟨⟨⟨-, waits⟩, -⟩, -⟩, -⟩, -⟩ := ready
  exact Option.isNone_iff_eq_none.1 waits

/-- An instruction on registers alone, in a slot of a hart that can execute it, ends its command. -/
theorem Run.done_compute (q : Run s0) (h : Fin 1024) {rd : Fin 32} (v : Word) (free : q.1.free_ h) (rd0 : rd ≠ 0) :
    ∃ t, (q.slot h (.compute rd v)).done = .next t ∧ t.tiles = q.1.tiles ∧ (Run.start t).xr h rd = v ∧
      t.hart h = { q.1.hart h with pc := (q.1.hart h).pc + 4, wait := none }.told 2 ∧
      t.csr h 0xB02 = (if q.cb h 0x320 2 || !q.counting h then q.1.csr h 0xB02 else q.1.csr h 0xB02 + 1) ∧ t.csr h 0xB00 = q.1.csr h 0xB00 := by
  obtain ⟨still, undisturbed, ready⟩ := free
  rw [q.slot_compute h rd v ready]
  obtain ⟨xs, only⟩ := q.setXr_only h rd v
  have wrote := q.xr_setXr h rd v fun zero => rd0 (Fin.ext zero)
  have cb : (q.setXr h rd v).cb h 0x320 2 = q.cb h 0x320 2 := by simp only [Run.cb, Run.csr, only]; rfl
  have counting : (q.setXr h rd v).counting h = q.counting h := Run.counting_awaits (by rw [only]; rfl) (by rw [only]; rfl) (by rw [only]; rfl)
  generalize q.setXr h rd v = p at only wrote cb counting ⊢
  have still : p.1.still := by rw [only]; exact still
  have undisturbed : p.1.undisturbed h := by rw [only]; exact undisturbed
  obtain ⟨-, -, -, -, -, unwatched⟩ := id undisturbed
  obtain ⟨hart, instret, cycle⟩ := p.retire_leaves h unwatched
  obtain ⟨-, -, -, -, tiles⟩ := p.retire_frame h unwatched
  have read := p.xr_retire h rd unwatched
  rw [cb, counting] at instret
  have ends := p.done_retire h still undisturbed
  generalize p.retire h = e at hart instret cycle tiles read ends ⊢
  refine ⟨e.over, ends, tiles.trans (by rw [only]), read.trans wrote, ?_, ?_, ?_⟩
  · exact hart.trans (by rw [only]; rfl)
  · exact instret.trans (by rw [only]; rfl)
  · exact cycle.trans (by rw [only]; rfl)

/-- A token counts, and an instruction on registers alone retires in a slot of it. -/
theorem tokenPass_compute (n : Fin 256) (k : Fin 4) (rd : Fin 32) (v : Word) (s : State) (free : s.free_ (n * 4 + k))
    (none : s.csr (n * 4 + k) 0x320 = 0) (mode : (s.hart (n * 4 + k)).mode = .m) (ceid : (s.tile n).ceid = 0)
    (passes : (Run.start s).tokenPasses n = true) (valid : s.fld (TBRX_STATUS_LOST (dieOf n)) = 0)
    (off : ∀ i < 4, (s.hart (n * 4 + i)).edge = 0 ∧ ∀ j < 8, s.csr (n * 4 + i) (0x323 + j) = 0) (rd0 : rd ≠ 0) :
    ∃ t, execTokenPass n [.run k (.compute rd v)] ⟨false, [], [], [], 0, [], [], []⟩ s = .next t ∧ (t.tile n).tokens = (s.tile n).tokens + 1 ∧
      { t.hart (n * 4 + k) with lag := (s.hart (n * 4 + k)).lag, dry := (s.hart (n * 4 + k)).dry } =
        Hart.told { s.hart (n * 4 + k) with pc := (s.hart (n * 4 + k)).pc + 4, recover := false, tally := [] } 2 ∧ (Run.start t).xr (n * 4 + k) rd = v ∧
      t.csr (n * 4 + k) 0xB00 = s.csr (n * 4 + k) 0xB00 + 1 ∧ t.csr (n * 4 + k) 0xB02 = s.csr (n * 4 + k) 0xB02 + 1 := by
  have home : tileOf (n * 4 + k) = n := by simp only [tileOf]; omega
  have place : (Fin.ofNat 1024 (n * 4 + k)).val = n * 4 + k := by simp only [Fin.val_ofNat]; omega
  obtain ⟨counting, cycles⟩ := State.free_counts free none mode (by rw [home]; exact ceid)
  obtain ⟨q, ⟨⟨hs, cs, ts, only⟩, ⟨lag, dry, hart⟩, csr, cycle, tally, dealt, tile⟩, carries⟩ :=
    Run.tokenPass_one (op := .compute rd v) passes valid free.2.2 cycles off
  rw [Run.tile_modTile_same] at tile
  rw [carries]
  have hart : q.1.hart (n * 4 + k) = { s.hart (n * 4 + k) with lag := lag, dry := dry, recover := false, tally := [] } := hart
  have csr : ∀ m, m < 4096 → m ≠ 0xB00 → q.1.csr (n * 4 + k) m = s.csr (n * 4 + k) m := csr
  have cycle : q.1.csr (n * 4 + k) 0xB00 = s.csr (n * 4 + k) 0xB00 + 1 := cycle
  have awaits : (s.hart (n * 4 + k)).awaits (q.1.hart (n * 4 + k)) := by rw [hart]; rfl
  have core : (s.tile (tileOf (n * 4 + k))).awaits (q.1.tile (tileOf (n * 4 + k))) := by rw [home, tile]; rfl
  have debug := csr 0x7B0 (by decide) (by decide)
  have able := State.free_of_awaits free ⟨hs, cs, ts, only⟩ awaits core debug (csr 0x304 (by decide) (by decide))
  have counting : q.counting (n * 4 + k) = true := (Run.counting_awaits (r := Run.start s) awaits core debug).trans counting
  have stop : q.cb (n * 4 + k) 0x320 2 = false := by
    rw [Run.cb, show q.csr (n * 4 + k) 0x320 = 0 from (csr 0x320 (by decide) (by decide)).trans none]
    rfl
  obtain ⟨t, ends, tiles, wrote, moved, instret, cycled⟩ := q.done_compute (Fin.ofNat 1024 (n * 4 + k)) (rd := rd) v (by rw [place]; exact able) rd0
  rw [place] at wrote moved instret cycled
  refine ⟨t, ends, ?_, ?_, wrote, cycled.trans cycle, ?_⟩
  · rw [State.tile, tiles]
    exact congrArg Tile.tokens tile
  · have wait := State.free_wait free
    rw [moved, hart]
    generalize s.hart (n * 4 + k) = x at wait ⊢
    cases x
    cases wait
    rfl
  · rw [instret, stop, counting, csr 0xB02 (by decide) (by decide)]
    rfl

/-- Settles O23: a token's counters and window leave the hart of its one slot able to execute, and what the slot carries retires; the readings
at a window's end and at an excursion reach the tile's monitors. -/
theorem tokensAndMonitors : Obligations.TokensAndMonitors := by
  unfold Obligations.TokensAndMonitors
  exact ⟨tokenPass_compute, tmonWindowEnd_completes, droopExcursion_completes⟩

end Sys2Proof.Machine

/-! The timebase: the master count, a die's copy of time, its stream of ticks (R48 to R53, R221). -/
namespace Sys2Proof.Machine

variable {s0 : State}

/-! ### Where fields lie -/

@[simp] theorem TBASE_COUNT_COUNT_place :
    TBASE_COUNT_COUNT.reg = TBASE_COUNT ∧ TBASE_COUNT_COUNT.hi = 63 ∧ TBASE_COUNT_COUNT.lo = 0 ∧ TBASE_COUNT_COUNT.fits = true :=
  ⟨rfl, rfl, rfl, by simp only [FRef.fits_iff, TBASE_COUNT_COUNT, TBASE_COUNT]; decide⟩

@[simp] theorem TBASE_STAT_REFOK_place :
    TBASE_STAT_REFOK.reg = TBASE_STAT ∧ TBASE_STAT_REFOK.hi = 0 ∧ TBASE_STAT_REFOK.lo = 0 ∧ TBASE_STAT_REFOK.fits = true :=
  ⟨rfl, rfl, rfl, by simp only [FRef.fits_iff, TBASE_STAT_REFOK, TBASE_STAT]; decide⟩

@[simp] theorem TBASE_STAT_REFLOSS_place :
    TBASE_STAT_REFLOSS.reg = TBASE_STAT ∧ TBASE_STAT_REFLOSS.hi = 1 ∧ TBASE_STAT_REFLOSS.lo = 1 ∧ TBASE_STAT_REFLOSS.fits = true :=
  ⟨rfl, rfl, rfl, by simp only [FRef.fits_iff, TBASE_STAT_REFLOSS, TBASE_STAT]; decide⟩

@[simp] theorem TBASE_STAT_DIE_LOST_place :
    TBASE_STAT_DIE_LOST.reg = TBASE_STAT ∧ TBASE_STAT_DIE_LOST.hi = 31 ∧ TBASE_STAT_DIE_LOST.lo = 16 ∧ TBASE_STAT_DIE_LOST.fits = true :=
  ⟨rfl, rfl, rfl, by simp only [FRef.fits_iff, TBASE_STAT_DIE_LOST, TBASE_STAT]; decide⟩

@[simp] theorem TBRX_STATUS_LOST_place (d : Nat) :
    (TBRX_STATUS_LOST d).reg = TBRX_STATUS d ∧ (TBRX_STATUS_LOST d).hi = 0 ∧ (TBRX_STATUS_LOST d).lo = 0 ∧ (TBRX_STATUS_LOST d).fits = true :=
  ⟨rfl, rfl, rfl, by simp only [FRef.fits_iff, TBRX_STATUS_LOST, TBRX_STATUS]; decide⟩

@[simp] theorem TBRX_STATUS_TIME_INVALID_place (d : Nat) :
    (TBRX_STATUS_TIME_INVALID d).reg = TBRX_STATUS d ∧ (TBRX_STATUS_TIME_INVALID d).hi = 1 ∧ (TBRX_STATUS_TIME_INVALID d).lo = 1 ∧
      (TBRX_STATUS_TIME_INVALID d).fits = true :=
  ⟨rfl, rfl, rfl, by simp only [FRef.fits_iff, TBRX_STATUS_TIME_INVALID, TBRX_STATUS]; decide⟩

@[simp] theorem TBRX_STATUS_SLIP_place (d : Nat) :
    (TBRX_STATUS_SLIP d).reg = TBRX_STATUS d ∧ (TBRX_STATUS_SLIP d).hi = 2 ∧ (TBRX_STATUS_SLIP d).lo = 2 ∧ (TBRX_STATUS_SLIP d).fits = true :=
  ⟨rfl, rfl, rfl, by simp only [FRef.fits_iff, TBRX_STATUS_SLIP, TBRX_STATUS]; decide⟩

@[simp] theorem TBRX_STATUS_LOSS_CNT_place (d : Nat) :
    (TBRX_STATUS_LOSS_CNT d).reg = TBRX_STATUS d ∧ (TBRX_STATUS_LOSS_CNT d).hi = 31 ∧ (TBRX_STATUS_LOSS_CNT d).lo = 16 ∧
      (TBRX_STATUS_LOSS_CNT d).fits = true :=
  ⟨rfl, rfl, rfl, by simp only [FRef.fits_iff, TBRX_STATUS_LOSS_CNT, TBRX_STATUS]; decide⟩

/-- No register of the timebase is a die's STATE. -/
theorem noLink_TBASE : noLink TBASE_COUNT.off ∧ noLink TBASE_STAT.off := by
  simp only [noLink, RLINK_STAT, TBASE_COUNT, TBASE_STAT]
  exact ⟨fun d _ => by omega, fun d _ => by omega⟩

/-- What a receiver of the timebase writes: its status, its bank and its die's ring. -/
def rxArea (d o : Nat) : Prop := o = (TBRX_STATUS d).off ∨ (Bank.tbrx d).area o

theorem noLink_rxArea {d o : Nat} (hd : d < 16) (h : rxArea d o) : noLink o := by
  simp only [rxArea, Bank.area, ringArea, Bank.base, Bank.die] at h
  simp only [dieBase, errBase, if_neg hd.ne, TBRX_STATUS, ERR_SUMMARY, ERR_RINGSTAT] at h
  simp only [noLink, RLINK_STAT]
  intro k hk
  omega

/-- The bank and the ring of a receiver's records hold neither its status nor the timebase. -/
theorem not_area_tbrx {d o : Nat} (hd : d < 16) (h : o = (TBRX_STATUS d).off ∨ o = TBASE_STAT.off ∨ o = TBASE_COUNT.off ∨ o = ERR_FATAL.off) :
    ¬ (Bank.tbrx d).area o := by
  simp only [Bank.area, ringArea, Bank.base, Bank.die]
  simp only [dieBase, errBase, if_neg hd.ne, TBRX_STATUS, ERR_SUMMARY, ERR_RINGSTAT, TBASE_STAT, TBASE_COUNT, ERR_FATAL] at h ⊢
  omega

/-! ### The master count -/

/-- The count fills its register. -/
theorem State.reg_TBASE_COUNT (s : State) : s.reg TBASE_COUNT = BitVec.ofNat 64 (s.fld TBASE_COUNT_COUNT) := by
  have whole : s.fld TBASE_COUNT_COUNT = (s.reg TBASE_COUNT).toNat % 2 ^ 64 := by
    simp [State.fld, Word.bits]
  rw [whole]
  exact BitVec.eq_of_toNat_eq (by simpa using (Nat.mod_eq_of_lt (s.reg TBASE_COUNT).isLt).symm)

theorem Run.pmuTick_off (r : Run s0) {b : Nat} (u : List UContrib) (world : Bool) (who : Option Nat) (off : r.1.fld (PMU_CTL_EN b) = 0) :
    r.pmuTick b u world who = r := by
  have off : r.on (PMU_CTL_EN b) = false := by simp [Run.on, Run.fld, off]
  unfold Run.pmuTick
  rw [off]
  rfl

theorem iodPmus_off : ∀ b ∈ iodPmus, (PMU_CTL_EN b.1).reg.off ≠ TBASE_COUNT.off := by
  simp only [PMU_CTL_EN, PMU_CTL, TBASE_COUNT]
  decide

/-- The watchdog counts down, where FATAL# is not asserted (R395). -/
def Run.wdogTick (r : Run s0) : Run s0 :=
  match r.1.wdog with
  | some k => if r.1.pins.fatal then r else r.act (.wdog (some (k - 1)))
  | none => r

/-- The uncore counters of the IOD take a tick (R488). -/
def Run.iodTick (r : Run s0) (u : List UContrib) : Run s0 :=
  iodPmus.foldl (fun r b => r.pmuTick b.1 u ((b.2.map r.groupSecure).getD false) (b.2.map (· * 16))) r

theorem Run.iodTick_off (r : Run s0) (u : List UContrib) (off : ∀ b ∈ iodPmus, r.1.fld (PMU_CTL_EN b.1) = 0) : r.iodTick u = r :=
  List.foldlRecOn (motive := (· = r)) _ _ rfl fun q hq b hb => by
    subst hq
    exact Run.pmuTick_off _ u _ _ (off b hb)

theorem execTimebaseTick_eq (u : List UContrib) {s : State} (refok : s.fld TBASE_STAT_REFOK = 1) :
    execTimebaseTick u s =
      ((((Run.start s).setFld TBASE_COUNT_COUNT ((Run.start s).fld TBASE_COUNT_COUNT + 1)).ioTick.wdogTick).iodTick u).done := by
  have present : (Run.start s).on TBASE_STAT_REFOK = true := by simp [Run.on, Run.fld, refok]
  unfold execTimebaseTick
  simp only [present, Bool.not_true, Bool.false_eq_true, if_false]
  rfl

/-- R48, R395: a period of REFCLK. -/
theorem timebaseTick_completes (u : List UContrib) (k : Nat) (s : State) (st : s.still) (refok : s.fld TBASE_STAT_REFOK = 1) (wdog : s.wdog = some k)
    (runs : s.pins.fatal = false) (inhibited : (Run.start s).ioBit 0x5C 0 = true) (off : ∀ b ∈ iodPmus, s.fld (PMU_CTL_EN b.1) = 0) :
    ∃ t, execTimebaseTick u s = .next t ∧ t.reg TBASE_COUNT = s.reg TBASE_COUNT + 1 ∧ t.wdog = some (k - 1) ∧ t.harts = s.harts ∧
      t.tbrx = s.tbrx := by
  have count : ((Run.start s).setFld TBASE_COUNT_COUNT ((Run.start s).fld TBASE_COUNT_COUNT + 1)).1.reg TBASE_COUNT = s.reg TBASE_COUNT + 1 := by
    rw [State.reg_TBASE_COUNT, State.reg_TBASE_COUNT s, Run.fld_setFld_same _ _ _ (by simp), Run.fld, Run.start_val]
    refine BitVec.eq_of_toNat_eq ?_
    simp
  have marks := Run.marks_setFld (W := (· = TBASE_COUNT.off)) (f := TBASE_COUNT_COUNT) (Run.start s) ((Run.start s).fld TBASE_COUNT_COUNT + 1) rfl
  rw [execTimebaseTick_eq u refok]
  generalize (Run.start s).setFld TBASE_COUNT_COUNT ((Run.start s).fld TBASE_COUNT_COUNT + 1) = r at count marks ⊢
  have off : ∀ b ∈ iodPmus, r.1.fld (PMU_CTL_EN b.1) = 0 := fun b hb => (marks.fld (iodPmus_off b hb)).trans (off b hb)
  obtain ⟨rs, ts, ls, only, -⟩ := id marks
  have tick : r.ioTick = r := by
    have still : r.ioBit 0x5C 0 = true := by
      rw [← inhibited, Run.ioBit, Run.io32, only]
      rfl
    rw [Run.ioTick, if_pos still]
  have counting : r.1.wdog = some k ∧ r.1.pins.fatal = false := by
    rw [only]
    exact ⟨wdog, runs⟩
  obtain ⟨counting, runs⟩ := counting
  have counts : r.wdogTick = r.act (.wdog (some (k - 1))) := by
    simp only [Run.wdogTick, counting, runs, Bool.false_eq_true, if_false]
  rw [tick, counts, Run.iodTick_off (r.act (.wdog (some (k - 1)))) u off]
  have ⟨need, poke, _, _⟩ := st
  have on : ∀ d < 16, (r.act (.wdog (some (k - 1)))).1.online d = s.online d := fun d hd => marks.online (noLink_TBASE.1 d hd)
  refine ⟨_, Run.done_still _ (State.still_of_online st ?_ ?_ on ?_ ?_), count, rfl, ?_, ?_⟩ <;> simp [only, need, poke]

/-! ### A die's copy of time -/

/-- A run has gone on within a die: it has written registers at offsets of `W` alone, and left its harts and the sources of interrupts as they
were, though it may look at harts again for which nothing waits. -/
structure Run.stays (W : Nat → Prop) (r q : Run s0) : Prop where
  calm : r.1.calm q.1
  kept : ∀ o, ¬ W o → Sparse.find? q.1.regs o = r.1.regs.find? o
  harts : q.1.harts = r.1.harts
  sources : q.1.aplicSrc = r.1.aplicSrc

variable {W : Nat → Prop} {r p q : Run s0}

theorem Run.stays.trans (a : Run.stays W r p) (b : Run.stays W p q) : Run.stays W r q :=
  ⟨a.calm.trans b.calm, fun o ho => (b.kept o ho).trans (a.kept o ho), b.harts.trans a.harts, b.sources.trans a.sources⟩

theorem Run.stays.mono {V : Nat → Prop} (a : Run.stays V r q) (sub : ∀ o, V o → W o) : Run.stays W r q :=
  ⟨a.calm, fun o ho => a.kept o fun v => ho (sub o v), a.harts, a.sources⟩

theorem Run.stays.fld (a : Run.stays W r q) {f : FRef} (hf : ¬ W f.reg.off) : q.1.fld f = r.1.fld f := by
  simp only [State.fld, State.reg, Sparse.get, a.kept _ hf]

theorem Run.stays.dieIdle (a : Run.stays W r q) {d : Nat} (idle : r.1.dieIdle d) : q.1.dieIdle d := fun e he here =>
  (a.calm.undisturbed e.1).2 (idle e (a.harts ▸ he) here)

theorem Run.stays.noSources (a : Run.stays W r q) (ns : r.1.noSources) : q.1.noSources := a.sources.trans ns

theorem Run.marks.stays (h : Run.marks W r q) : Run.stays W r q := by
  have calm := h.calm
  obtain ⟨rs, ts, ls, e, same⟩ := h
  refine ⟨calm, ?_, ?_, ?_⟩
  all_goals rw [e]
  exact same

theorem Run.stays_setRx (r : Run s0) (d : Nat) (x : TbRx) : Run.stays W r (r.setRx d x) :=
  ⟨⟨rfl, rfl, rfl, rfl, rfl, fun _ => ⟨_, rfl⟩, fun _ => .inl⟩, fun _ _ => rfl, rfl, rfl⟩

theorem Run.stays_pokeDie (r : Run s0) {d : Nat} (idle : r.1.dieIdle d) : Run.stays W r (r.pokeDie d) := by
  obtain ⟨ps, only, -⟩ := r.marksDie_pokeDie d
  refine ⟨r.pokeDie_calm idle, ?_, ?_, ?_⟩
  all_goals rw [only]
  exact fun _ _ => rfl

/-- A command that stays within dies, and writes no die's STATE, ends with what it has done. -/
theorem Run.done_stays {s : State} {r : Run s} (st : s.still) (a : Run.stays noLink (Run.start s) r) : r.done = .next r.over := by
  refine r.done_calm st a.calm fun d hd => ?_
  rw [State.online, State.online, a.fld (f := RLINK_STAT_STATE d) fun no => no d hd rfl]
  rfl

theorem execTick_eq (d : Fin 16) (u : List UContrib) {s : State} (refok : s.fld TBASE_STAT_REFOK = 1) (pair : s.fld (RLINK_FAULTMAP_TICKP d) = 0)
    (valid : s.fld (TBRX_STATUS_LOST d) = 0) (due : (s.rx d).withhold = 0) (behind : (s.rx d).time.toNat + 1 < (Run.start s).count) :
    execTick d u s = ((diePmus d).foldl (fun r b => r.pmuTick b u false none)
      (((Run.start s).setRx d { s.rx d with time := (s.rx d).time + 1 }).pokeDie d)).done := by
  have present : (Run.start s).on TBASE_STAT_REFOK = true := by simp [Run.on, Run.fld, refok]
  have pair : (Run.start s).on (RLINK_FAULTMAP_TICKP d) = false := by simp [Run.on, Run.fld, pair]
  have valid : (Run.start s).on (TBRX_STATUS_LOST d) = false := by simp [Run.on, Run.fld, valid]
  have due : ((Run.start s).rx d).withhold = 0 := due
  have behind : ¬ (Run.start s).count ≤ ((Run.start s).rx d).time.toNat + 1 := Nat.not_le.2 behind
  unfold execTick
  simp only
  rw [if_neg (by simp [present, pair]), if_neg (by simp [valid]), if_neg fun late => behind late.2, if_neg (not_not.2 due)]
  rfl

/-- R49, R50: a tick reaches a die. -/
theorem tick_completes (d : Fin 16) (u : List UContrib) (s : State) (st : s.still) (idle : s.dieIdle d) (refok : s.fld TBASE_STAT_REFOK = 1)
    (pair : s.fld (RLINK_FAULTMAP_TICKP d) = 0) (valid : s.fld (TBRX_STATUS_LOST d) = 0) (due : (s.rx d).withhold = 0)
    (behind : (s.rx d).time.toNat + 1 < (Run.start s).count) (off : ∀ b ∈ diePmus d, s.fld (PMU_CTL_EN b) = 0) :
    execTick d u s = .next ((Run.start s).setRx d { s.rx d with time := (s.rx d).time + 1 }).1 := by
  have moves := Run.stays_setRx (W := fun _ => False) (Run.start s) d { s.rx d with time := (s.rx d).time + 1 }
  have quiet : ((Run.start s).setRx d { s.rx d with time := (s.rx d).time + 1 }).1.poke = [] := st.2.1
  rw [execTick_eq d u refok pair valid due behind]
  generalize (Run.start s).setRx d { s.rx d with time := (s.rx d).time + 1 } = r at moves quiet ⊢
  have looks := Run.stays_pokeDie (W := fun _ => False) r (moves.dieIdle idle)
  have ends := r.pokeDie_over d
  generalize r.pokeDie d = q at looks ends ⊢
  have off : ∀ b ∈ diePmus d, q.1.fld (PMU_CTL_EN b) = 0 := fun b hb => by
    rw [looks.fld id, moves.fld id]
    exact off b hb
  rw [List.foldlRecOn (motive := (· = q)) _ _ rfl fun p hp b hb => ?_]
  · rw [Run.done_stays st ((moves.trans looks).mono fun _ => False.elim), ends, r.over_eq quiet]
  · subst hp
    exact Run.pmuTick_off _ u _ _ (off b hb)

end Sys2Proof.Machine

/-! Sync words, and the loss of a die's stream of ticks (R50, R51, R53, R221). -/
namespace Sys2Proof.Machine

variable {s0 : State}

/-- What a command's end reads of what its run has done. -/
theorem Run.over_reads (r : Run s0) :
    (∀ f, r.over.fld f = r.1.fld f) ∧ (∀ d, r.over.rx d = r.1.rx d) ∧ r.over.harts = r.1.harts ∧ r.over.pins = r.1.pins :=
  ⟨fun _ => rfl, fun _ => rfl, rfl, rfl⟩

theorem Run.rx_setRx_same (r : Run s0) (d : Nat) (x : TbRx) : (r.setRx d x).1.rx d = x := by
  simp [Run.setRx, State.rx]

theorem Run.rx_pokeDie (r : Run s0) (d k : Nat) : (r.pokeDie d).1.rx k = r.1.rx k := by
  obtain ⟨ps, only, -⟩ := r.marksDie_pokeDie d
  rw [only]
  rfl

theorem Run.fld_pokeDie (r : Run s0) (d : Nat) (f : FRef) : (r.pokeDie d).1.fld f = r.1.fld f := by
  obtain ⟨ps, only, -⟩ := r.marksDie_pokeDie d
  rw [only]
  rfl

theorem Run.marks.rx {W : Nat → Prop} {r q : Run s0} (h : Run.marks W r q) (d : Nat) : q.1.rx d = r.1.rx d := by
  obtain ⟨rs, ts, ls, e, -⟩ := h
  rw [e]
  rfl

/-! ### Sync words -/

theorem execSyncWord_eq (d : Fin 16) (c : Word) {s : State} (valid : s.fld (TBRX_STATUS_LOST d) = 0) (late : (s.rx d).time < c + 72)
    (whole : c.toNat % 1024 = 0) (behind : (c + 72).toNat < (Run.start s).count) :
    execSyncWord d c s =
      (((((Run.start s).setFld (TBRX_STATUS_SLIP d) 1).logRec (.tbrx d)
        { event := 0x0400, cls := .ce, detail := tbDetail d (s.rx d).time.toNat (c + 72).toNat }).setRx d { s.rx d with time := c + 72 }).pokeDie
          d).done := by
  have valid : (Run.start s).on (TBRX_STATUS_LOST d) = false := by simp [Run.on, Run.fld, valid]
  have apart : ¬ ((Run.start s).rx d).time = c + 72 := fun same => absurd (same ▸ late : c + 72 < c + 72) (BitVec.lt_irrefl _)
  have late : ((Run.start s).rx d).time < c + 72 := late
  have due : ¬ (c.toNat % 1024 ≠ 0 ∨ (Run.start s).count ≤ (c + 72).toNat) := not_or.2 ⟨not_not.2 whole, Nat.not_le.2 behind⟩
  unfold execSyncWord
  simp only
  rw [if_neg due, if_neg (by simp [valid]), if_neg apart, if_pos late]
  rfl

/-- R50, R53: an intact sync word reaches a die whose copy is behind. -/
theorem syncWord_completes (d : Fin 16) (c : Word) (s : State) (st : s.still) (idle : s.dieIdle d) (ns : s.noSources)
    (valid : s.fld (TBRX_STATUS_LOST d) = 0) (late : (s.rx d).time < c + 72) (whole : c.toNat % 1024 = 0)
    (behind : (c + 72).toNat < (Run.start s).count) :
    ∃ t, execSyncWord d c s = .next t ∧ (t.rx d).time = c + 72 ∧ t.fld (TBRX_STATUS_SLIP d) = 1 ∧ t.harts = s.harts := by
  rw [execSyncWord_eq d c valid late whole behind]
  have slips := Run.marks_setFld (W := rxArea d) (f := TBRX_STATUS_SLIP d) (Run.start s) 1 (.inl rfl)
  have slip : ((Run.start s).setFld (TBRX_STATUS_SLIP d) 1).1.fld (TBRX_STATUS_SLIP d) = 1 := Run.fld_setFld_lt _ (by simp) (by simp)
  generalize (Run.start s).setFld (TBRX_STATUS_SLIP d) 1 = p at slips slip ⊢
  have logs := p.marks_logRec (slips.noSources ns) (.tbrx d) { event := 0x0400, cls := .ce, detail := tbDetail d (s.rx d).time.toNat (c + 72).toNat } none
  have slip := (logs.fld (f := TBRX_STATUS_SLIP d) (not_area_tbrx d.isLt (.inl rfl))).trans slip
  have logs := slips.trans (logs.mono fun o => .inr)
  generalize p.logRec (.tbrx d) { event := 0x0400, cls := .ce, detail := tbDetail d (s.rx d).time.toNat (c + 72).toNat } = q at logs slip ⊢
  have moves := logs.stays.trans (q.stays_setRx d { s.rx d with time := c + 72 })
  have time := q.rx_setRx_same d { s.rx d with time := c + 72 }
  have slip : (q.setRx d { s.rx d with time := c + 72 }).1.fld (TBRX_STATUS_SLIP d) = 1 := slip
  generalize q.setRx d { s.rx d with time := c + 72 } = r at moves time slip ⊢
  have all := moves.trans (r.stays_pokeDie (moves.dieIdle idle))
  obtain ⟨fld, rx, harts, -⟩ := (r.pokeDie d).over_reads
  refine ⟨_, Run.done_stays st (all.mono fun o => noLink_rxArea d.isLt), ?_, ?_, ?_⟩
  · rw [rx, r.rx_pokeDie, time]
  · rw [fld, r.fld_pokeDie, slip]
  · rw [harts, all.harts]
    rfl

/-! ### The loss of a stream -/

/-- A die notes the loss of its stream of ticks in its status (R51). -/
def Run.noteLoss (r : Run s0) (d : Nat) : Run s0 :=
  ((r.setFld (TBRX_STATUS_LOST d) 1).setFld (TBRX_STATUS_TIME_INVALID d) 1).addSat (TBRX_STATUS_LOSS_CNT d) 1

theorem Run.marks_noteLoss (r : Run s0) (d : Nat) : Run.marks (· = (TBRX_STATUS d).off) r (r.noteLoss d) :=
  ((Run.marks_setFld (W := (· = (TBRX_STATUS d).off)) (f := TBRX_STATUS_LOST d) r 1 rfl).trans
    (Run.marks_setFld (f := TBRX_STATUS_TIME_INVALID d) _ 1 rfl)).trans (Run.marks_addSat (f := TBRX_STATUS_LOSS_CNT d) _ 1 rfl)

theorem Run.noteLoss_reads (r : Run s0) (d : Nat) :
    (r.noteLoss d).1.fld (TBRX_STATUS_LOST d) = 1 ∧ (r.noteLoss d).1.fld (TBRX_STATUS_TIME_INVALID d) = 1 ∧
      (r.noteLoss d).1.fld (TBRX_STATUS_LOSS_CNT d) = min (r.1.fld (TBRX_STATUS_LOSS_CNT d) + 1) 65535 := by
  unfold Run.noteLoss
  refine ⟨?_, ?_, ?_⟩
  · rw [Run.addSat, Run.fld_setFld_apart _ _ _ _ (by simp) (by simp) (by simp) (by simp),
      Run.fld_setFld_apart _ _ _ _ (by simp) (by simp) (by simp) (by simp), Run.fld_setFld_lt _ (by simp) (by simp)]
  · rw [Run.addSat, Run.fld_setFld_apart _ _ _ _ (by simp) (by simp) (by simp) (by simp), Run.fld_setFld_lt _ (by simp) (by simp)]
  · rw [Run.fld_addSat _ _ (by simp), Run.fld_setFld_apart _ _ _ _ (by simp) (by simp) (by simp) (by simp),
      Run.fld_setFld_apart _ _ _ _ (by simp) (by simp) (by simp) (by simp)]
    simp [FRef.top]

/-- A die's time freezes (R51). -/
def Run.freezeTime (r : Run s0) (d : Nat) : Run s0 := r.modRx d fun x => { x with withhold := 0, relock := none }

/-- A die records the loss of its stream (R51, R454). -/
def Run.logLoss (r : Run s0) (d : Nat) : Run s0 :=
  r.logRec (.tbrx d) { event := 0x0401, cls := .ucna, detail := tbDetail d (r.rx d).time.toNat 0 }

theorem Run.streamLost_eq (r : Run s0) {d : Nat} (valid : r.1.fld (TBRX_STATUS_LOST d) = 0) :
    r.streamLost d = ((((r.noteLoss d).freezeTime d).logLoss d).setBit TBASE_STAT_DIE_LOST d true).pokeDie d := by
  have valid : ¬ r.on (TBRX_STATUS_LOST d) = true := by simp [Run.on, Run.fld, valid]
  unfold Run.streamLost
  rw [if_neg valid]
  rfl

/-- What the loss of a die's stream writes: its receiver's area, and the IOD's note of it. -/
def lossArea (d o : Nat) : Prop := rxArea d o ∨ o = TBASE_STAT.off

/-- What the IOD's note of a loss leaves of its status. -/
theorem Run.fld_setBit_DIE_LOST (r : Run s0) {d : Nat} (hd : d < 16) :
    natBit ((r.setBit TBASE_STAT_DIE_LOST d true).1.fld TBASE_STAT_DIE_LOST) d = true ∧
      (r.setBit TBASE_STAT_DIE_LOST d true).1.fld TBASE_STAT_REFOK = r.1.fld TBASE_STAT_REFOK ∧
      (r.setBit TBASE_STAT_DIE_LOST d true).1.fld TBASE_STAT_REFLOSS = r.1.fld TBASE_STAT_REFLOSS := by
  refine ⟨?_, ?_, ?_⟩
  · rw [Run.natBit_setBit r d d true (by simp) (by simpa using hd), if_pos rfl]
  · exact Run.fld_setFld_apart r _ _ _ (by simp) (by simp) (by simp) (by simp)
  · exact Run.fld_setFld_apart r _ _ _ (by simp) (by simp) (by simp) (by simp)

/-- What a die's loss of its stream leaves (R51). -/
theorem Run.streamLost_leaves (r : Run s0) {d : Nat} (hd : d < 16) (idle : r.1.dieIdle d) (ns : r.1.noSources)
    (valid : r.1.fld (TBRX_STATUS_LOST d) = 0) :
    Run.stays (lossArea d) r (r.streamLost d) ∧
      ((r.streamLost d).1.fld (TBRX_STATUS_LOST d) = 1 ∧ (r.streamLost d).1.fld (TBRX_STATUS_TIME_INVALID d) = 1 ∧
        (r.streamLost d).1.fld (TBRX_STATUS_LOSS_CNT d) = min (r.1.fld (TBRX_STATUS_LOSS_CNT d) + 1) 65535 ∧
        natBit ((r.streamLost d).1.fld TBASE_STAT_DIE_LOST) d = true ∧ ((r.streamLost d).1.rx d).time = (r.1.rx d).time) ∧
      (r.streamLost d).1.fld TBASE_STAT_REFOK = r.1.fld TBASE_STAT_REFOK ∧
      (r.streamLost d).1.fld TBASE_STAT_REFLOSS = r.1.fld TBASE_STAT_REFLOSS := by
  have status : (TBRX_STATUS d).off ≠ TBASE_STAT.off := by
    simp only [TBASE_STAT, TBRX_STATUS]
    omega
  rw [r.streamLost_eq valid]
  obtain ⟨lost, invalid, count⟩ := r.noteLoss_reads d
  have notes := r.marks_noteLoss d
  have own := notes.rx d
  generalize r.noteLoss d = p at lost invalid count notes own ⊢
  have freezes : Run.stays (fun _ => False) p (p.freezeTime d) := p.stays_setRx d _
  have time : ((p.freezeTime d).1.rx d).time = (r.1.rx d).time := by
    rw [Run.freezeTime, Run.modRx, Run.rx_setRx_same, ← own]
    rfl
  generalize p.freezeTime d = q at freezes time ⊢
  have before := (notes.stays.mono (W := rxArea d) fun o => .inl).trans (freezes.mono fun _ => False.elim)
  have logs : Run.marks (Bank.tbrx d).area q (q.logLoss d) := q.marks_logRec (before.noSources ns) _ _ none
  generalize q.logLoss d = u at logs ⊢
  have before := before.trans (logs.stays.mono fun o => .inr)
  have kept : ∀ f : FRef, f.reg.off = (TBRX_STATUS d).off → u.1.fld f = p.1.fld f := fun f hf => by
    rw [logs.fld (not_area_tbrx hd (.inl hf)), freezes.fld id]
  have base : ∀ f : FRef, f.reg.off = TBASE_STAT.off → u.1.fld f = r.1.fld f := fun f hf => by
    rw [logs.fld (not_area_tbrx hd (.inr (.inl hf))), freezes.fld id, notes.fld (hf ▸ status.symm)]
  have time := (congrArg TbRx.time (logs.rx d)).trans time
  obtain ⟨noted, refok, refloss⟩ := u.fld_setBit_DIE_LOST hd
  have reports : Run.marks (· = TBASE_STAT.off) u (u.setBit TBASE_STAT_DIE_LOST d true) := Run.marks_setBit (f := TBASE_STAT_DIE_LOST) u d true rfl
  generalize u.setBit TBASE_STAT_DIE_LOST d true = v at noted refok refloss reports ⊢
  have before := (before.mono (W := lossArea d) fun o => .inl).trans (reports.stays.mono fun o => .inr)
  have kept : ∀ f : FRef, f.reg.off = (TBRX_STATUS d).off → v.1.fld f = p.1.fld f := fun f hf =>
    (reports.fld (hf ▸ status)).trans (kept f hf)
  refine ⟨before.trans (v.stays_pokeDie (before.dieIdle idle)), ⟨?_, ?_, ?_, ?_, ?_⟩, ?_, ?_⟩
  · rw [v.fld_pokeDie, kept _ rfl, lost]
  · rw [v.fld_pokeDie, kept _ rfl, invalid]
  · rw [v.fld_pokeDie, kept _ rfl, count]
  · rw [v.fld_pokeDie, noted]
  · rw [v.rx_pokeDie, reports.rx, time]
  · rw [v.fld_pokeDie, refok, base _ rfl]
  · rw [v.fld_pokeDie, refloss, base _ rfl]

theorem noLink_lossArea {d o : Nat} (hd : d < 16) (h : lossArea d o) : noLink o := by
  rcases h with own | rfl
  · exact noLink_rxArea hd own
  · exact noLink_TBASE.2

/-- R51: a die declares its stream lost. -/
theorem tickStreamLoss_completes (d : Fin 16) (s : State) (st : s.still) (idle : s.dieIdle d) (ns : s.noSources)
    (valid : s.fld (TBRX_STATUS_LOST d) = 0) :
    ∃ t, execTickStreamLoss d s = .next t ∧ t.fld (TBRX_STATUS_LOST d) = 1 ∧ t.fld (TBRX_STATUS_TIME_INVALID d) = 1 ∧
      t.fld (TBRX_STATUS_LOSS_CNT d) = min (s.fld (TBRX_STATUS_LOSS_CNT d) + 1) 65535 ∧ natBit (t.fld TBASE_STAT_DIE_LOST) d = true ∧
      (t.rx d).time = (s.rx d).time := by
  obtain ⟨stays, leaves, -⟩ := (Run.start s).streamLost_leaves d.isLt idle ns valid
  rw [execTickStreamLoss]
  generalize (Run.start s).streamLost d = r at stays leaves ⊢
  obtain ⟨fld, rx, -⟩ := r.over_reads
  refine ⟨_, Run.done_stays st (stays.mono fun o => noLink_lossArea d.isLt), ?_⟩
  simp only [fld, rx]
  exact leaves

end Sys2Proof.Machine

/-! The repair of a die's stream of ticks onto its spare pair (R221). -/
namespace Sys2Proof.Machine

variable {s0 : State}

@[simp] theorem RLINK_FAULTMAP_TICKP_place (d : Nat) :
    (RLINK_FAULTMAP_TICKP d).reg = RLINK_FAULTMAP d ∧ (RLINK_FAULTMAP_TICKP d).hi = 56 ∧ (RLINK_FAULTMAP_TICKP d).lo = 56 ∧
      (RLINK_FAULTMAP_TICKP d).fits = true :=
  ⟨rfl, rfl, rfl, by simp only [FRef.fits_iff, RLINK_FAULTMAP_TICKP, RLINK_FAULTMAP]; decide⟩

@[simp] theorem RLINK_FAULTMAP_TICKS_place (d : Nat) :
    (RLINK_FAULTMAP_TICKS d).reg = RLINK_FAULTMAP d ∧ (RLINK_FAULTMAP_TICKS d).hi = 57 ∧ (RLINK_FAULTMAP_TICKS d).lo = 57 ∧
      (RLINK_FAULTMAP_TICKS d).fits = true :=
  ⟨rfl, rfl, rfl, by simp only [FRef.fits_iff, RLINK_FAULTMAP_TICKS, RLINK_FAULTMAP]; decide⟩

@[simp] theorem RLINK_STAT_TICKSPARE_place (d : Nat) :
    (RLINK_STAT_TICKSPARE d).reg = RLINK_STAT d ∧ (RLINK_STAT_TICKSPARE d).hi = 11 ∧ (RLINK_STAT_TICKSPARE d).lo = 11 ∧
      (RLINK_STAT_TICKSPARE d).fits = true :=
  ⟨rfl, rfl, rfl, by simp only [FRef.fits_iff, RLINK_STAT_TICKSPARE, RLINK_STAT]; decide⟩

@[simp] theorem RLINK_STAT_STATE_place (d : Nat) :
    (RLINK_STAT_STATE d).reg = RLINK_STAT d ∧ (RLINK_STAT_STATE d).hi = 3 ∧ (RLINK_STAT_STATE d).lo = 0 ∧ (RLINK_STAT_STATE d).fits = true :=
  ⟨rfl, rfl, rfl, by simp only [FRef.fits_iff, RLINK_STAT_STATE, RLINK_STAT]; decide⟩

/-- The map of a link, its state and the die's copy of the map are three registers. -/
theorem RLINK_off_ne {d : Nat} (hd : d < 16) (k : Nat) :
    (RLINK_FAULTMAP d).off ≠ (RLINK_STAT k).off ∧ (RLINK_FAULTMAP d).off ≠ (RILL_FAULTMAP k).off ∧ (RLINK_STAT d).off ≠ (RILL_FAULTMAP k).off := by
  simp only [RLINK_FAULTMAP, RLINK_STAT, RILL_FAULTMAP]
  omega

theorem Run.tickPairFault_eq (r : Run s0) {d : Nat} (spare : r.1.fld (RLINK_STAT_TICKSPARE d) = 0) (pair : r.1.fld (RLINK_FAULTMAP_TICKS d) = 0) :
    r.tickPairFault d = ((r.setFld (RLINK_FAULTMAP_TICKP d) 1).setFld (RLINK_STAT_TICKSPARE d) 1).copyMap d := by
  have spare : ¬ r.on (RLINK_STAT_TICKSPARE d) = true := by simp [Run.on, Run.fld, spare]
  have pair : ¬ r.on (RLINK_FAULTMAP_TICKS d) = true := by simp [Run.on, Run.fld, pair]
  rw [Run.tickPairFault, if_neg spare, if_neg pair]

theorem Run.marks_copyMap (r : Run s0) (d : Nat) : Run.marks (· = (RILL_FAULTMAP d).off) r (r.copyMap d) := by
  unfold Run.copyMap
  split
  · exact Run.marks_setReg r _ rfl
  · exact .refl r

/-- A stream moves to its spare pair: what its link's registers read, and no die comes or goes. -/
theorem Run.tickPairFault_leaves (r : Run s0) {d : Nat} (hd : d < 16) (spare : r.1.fld (RLINK_STAT_TICKSPARE d) = 0)
    (pair : r.1.fld (RLINK_FAULTMAP_TICKS d) = 0) :
    (∃ W, Run.marks W r (r.tickPairFault d)) ∧ (∀ k < 16, (r.tickPairFault d).1.online k = r.1.online k) ∧
      (r.tickPairFault d).1.fld (RLINK_FAULTMAP_TICKP d) = 1 ∧ (r.tickPairFault d).1.fld (RLINK_STAT_TICKSPARE d) = 1 ∧
      (r.tickPairFault d).1.fld (RLINK_FAULTMAP_TICKS d) = 0 := by
  rw [r.tickPairFault_eq spare pair]
  obtain ⟨mapStat, mapCopy, statCopy⟩ := RLINK_off_ne hd d
  have lost : (r.setFld (RLINK_FAULTMAP_TICKP d) 1).1.fld (RLINK_FAULTMAP_TICKP d) = 1 := Run.fld_setFld_lt r (by simp) (by simp)
  have pair : (r.setFld (RLINK_FAULTMAP_TICKP d) 1).1.fld (RLINK_FAULTMAP_TICKS d) = 0 := by
    rw [Run.fld_setFld_apart r _ _ _ (by simp) (by simp) (by simp) (by simp), pair]
  have first := Run.marks_setFld (W := (· = (RLINK_FAULTMAP d).off)) (f := RLINK_FAULTMAP_TICKP d) r 1 rfl
  generalize r.setFld (RLINK_FAULTMAP_TICKP d) 1 = p at lost pair first ⊢
  have moved : (p.setFld (RLINK_STAT_TICKSPARE d) 1).1.fld (RLINK_STAT_TICKSPARE d) = 1 := Run.fld_setFld_lt p (by simp) (by simp)
  have states : ∀ k, (p.setFld (RLINK_STAT_TICKSPARE d) 1).1.fld (RLINK_STAT_STATE k) = p.1.fld (RLINK_STAT_STATE k) := fun k => by
    by_cases e : k = d
    · subst e
      exact Run.fld_setFld_apart p _ _ _ (by simp) (by simp) (by simp) (by simp)
    · refine Run.fld_setFld_other p _ _ _ ?_
      simp only [RLINK_STAT_STATE_place, RLINK_STAT_TICKSPARE_place, RLINK_STAT]
      omega
  have second := Run.marks_setFld (W := (· = (RLINK_STAT d).off)) (f := RLINK_STAT_TICKSPARE d) p 1 rfl
  generalize p.setFld (RLINK_STAT_TICKSPARE d) 1 = q at moved states second ⊢
  have third := q.marks_copyMap d
  generalize q.copyMap d = u at third ⊢
  refine ⟨⟨fun o => o = (RLINK_FAULTMAP d).off ∨ o = (RLINK_STAT d).off ∨ o = (RILL_FAULTMAP d).off,
    ((first.mono fun o => .inl).trans (second.mono fun o => .inr ∘ .inl)).trans (third.mono fun o => .inr ∘ .inr)⟩, fun k hk => ?_, ?_, ?_, ?_⟩
  · have copy := (RLINK_off_ne hk d).2.2
    have map := (RLINK_off_ne hd k).1
    rw [State.online, State.online, third.fld (f := RLINK_STAT_STATE k) copy, states, first.fld (f := RLINK_STAT_STATE k) map.symm]
  · rw [third.fld (f := RLINK_FAULTMAP_TICKP d) mapCopy, second.fld (f := RLINK_FAULTMAP_TICKP d) mapStat, lost]
  · rw [third.fld (f := RLINK_STAT_TICKSPARE d) statCopy, moved]
  · rw [third.fld (f := RLINK_FAULTMAP_TICKS d) mapCopy, second.fld (f := RLINK_FAULTMAP_TICKS d) mapStat, pair]

/-- R221: the IOD moves a die's stream to its spare pair. -/
theorem tickLossReport_completes (d : Fin 16) (s : State) (st : s.still) (lost : natBit (s.fld TBASE_STAT_DIE_LOST) d = true)
    (refok : s.fld TBASE_STAT_REFOK = 1) (spare : s.fld (RLINK_STAT_TICKSPARE d) = 0) (pair : s.fld (RLINK_FAULTMAP_TICKS d) = 0) :
    ∃ t, execTickLossReport d s = .next t ∧ t.fld (RLINK_FAULTMAP_TICKP d) = 1 ∧ t.fld (RLINK_STAT_TICKSPARE d) = 1 ∧
      t.fld (RLINK_FAULTMAP_TICKS d) = 0 := by
  have reported : ((Run.start s).bit TBASE_STAT_DIE_LOST d && (Run.start s).on TBASE_STAT_REFOK) = true := by
    simp [Run.bit, Run.on, Run.fld, lost, refok]
  have acts : execTickLossReport d s = ((Run.start s).tickPairFault d).done := by
    rw [execTickLossReport]
    exact if_pos reported
  obtain ⟨⟨W, rs, ts, ls, only, -⟩, on, leaves⟩ := (Run.start s).tickPairFault_leaves d.isLt spare pair
  rw [acts]
  generalize (Run.start s).tickPairFault d = r at only on leaves ⊢
  have ⟨need, poke, _, _⟩ := st
  exact ⟨_, Run.done_still r (State.still_of_online st (by simp [only, need]) (by simp [only, poke]) on (by simp [only]) (by simp [only])), leaves⟩

end Sys2Proof.Machine

/-! The loss of REFCLK: every die's stream is lost, and FATAL is raised (R54, R472, R512). -/
namespace Sys2Proof.Machine

variable {s0 : State}

@[simp] theorem ERR_FATAL_V_place : ERR_FATAL_V.reg = ERR_FATAL ∧ ERR_FATAL_V.hi = 63 ∧ ERR_FATAL_V.lo = 63 ∧ ERR_FATAL_V.fits = true :=
  ⟨rfl, rfl, rfl, by simp only [FRef.fits_iff, ERR_FATAL_V, ERR_FATAL]; decide⟩

@[simp] theorem ERR_FATAL_COLD_place :
    ERR_FATAL_COLD.reg = ERR_FATAL ∧ ERR_FATAL_COLD.hi = 62 ∧ ERR_FATAL_COLD.lo = 62 ∧ ERR_FATAL_COLD.fits = true :=
  ⟨rfl, rfl, rfl, by simp only [FRef.fits_iff, ERR_FATAL_COLD, ERR_FATAL]; decide⟩

@[simp] theorem ERR_FATAL_DIE_place :
    ERR_FATAL_DIE.reg = ERR_FATAL ∧ ERR_FATAL_DIE.hi = 36 ∧ ERR_FATAL_DIE.lo = 32 ∧ ERR_FATAL_DIE.fits = true :=
  ⟨rfl, rfl, rfl, by simp only [FRef.fits_iff, ERR_FATAL_DIE, ERR_FATAL]; decide⟩

@[simp] theorem ERR_FATAL_EVENT_place :
    ERR_FATAL_EVENT.reg = ERR_FATAL ∧ ERR_FATAL_EVENT.hi = 15 ∧ ERR_FATAL_EVENT.lo = 0 ∧ ERR_FATAL_EVENT.fits = true :=
  ⟨rfl, rfl, rfl, by simp only [FRef.fits_iff, ERR_FATAL_EVENT, ERR_FATAL]; decide⟩

/-! ### Every die's stream is lost -/

/-- What the loss of every die's stream writes. -/
def lossAreas (o : Nat) : Prop := ∃ d < 16, lossArea d o

theorem not_lossAreas {o : Nat} (h : o = TBASE_COUNT.off ∨ o = ERR_FATAL.off) : ¬ lossAreas o := by
  rintro ⟨d, hd, (own | bank) | rfl⟩
  · simp only [TBASE_COUNT, ERR_FATAL, TBRX_STATUS] at h own
    omega
  · exact not_area_tbrx hd (.inr (.inr h)) bank
  · simp only [TBASE_COUNT, TBASE_STAT, ERR_FATAL] at h
    omega

/-- A run has gone on by losses of dies' streams. -/
structure Run.losesStreams (r q : Run s0) : Prop where
  stays : Run.stays lossAreas r q
  refok : q.1.fld TBASE_STAT_REFOK = r.1.fld TBASE_STAT_REFOK
  refloss : q.1.fld TBASE_STAT_REFLOSS = r.1.fld TBASE_STAT_REFLOSS

theorem Run.losesStreams.refl (r : Run s0) : Run.losesStreams r r := ⟨(Run.marks.refl r).stays, rfl, rfl⟩

theorem Run.losesStreams.trans {r p q : Run s0} (a : Run.losesStreams r p) (b : Run.losesStreams p q) : Run.losesStreams r q :=
  ⟨a.stays.trans b.stays, b.refok.trans a.refok, b.refloss.trans a.refloss⟩

theorem Run.losesStreams_streamLost (r : Run s0) {d : Nat} (hd : d < 16) (idle : r.1.dieIdle d) (ns : r.1.noSources) :
    Run.losesStreams r (r.streamLost d) := by
  by_cases valid : r.1.fld (TBRX_STATUS_LOST d) = 0
  · obtain ⟨stays, -, refok, refloss⟩ := r.streamLost_leaves hd idle ns valid
    exact ⟨stays.mono fun o ho => ⟨d, hd, ho⟩, refok, refloss⟩
  · have lost : r.on (TBRX_STATUS_LOST d) = true := by simpa [Run.on, Run.fld] using valid
    rw [Run.streamLost, if_pos lost]
    exact .refl r

theorem Run.losesStreams_fold (r : Run s0) (idle : ∀ d < 16, r.1.dieIdle d) (ns : r.1.noSources) :
    Run.losesStreams r ((List.range 16).foldl (fun r d => r.streamLost d) r) :=
  List.foldlRecOn (motive := Run.losesStreams r) _ _ (.refl r) fun q loses d hd =>
    loses.trans (q.losesStreams_streamLost (List.mem_range.1 hd) (loses.stays.dieIdle (idle d (List.mem_range.1 hd))) (loses.stays.noSources ns))

/-! ### What FATAL does beside its cause -/

/-- A run has gone on by stops of harts, writes of registers at offsets of `W` and notices to peers. -/
structure Run.falls (W : Nat → Prop) (r q : Run s0) : Prop where
  calm : r.1.calm q.1
  kept : ∀ o, ¬ W o → Sparse.find? q.1.regs o = r.1.regs.find? o
  pins : q.1.pins = r.1.pins

variable {W : Nat → Prop} {r p q : Run s0}

theorem Run.falls.refl (r : Run s0) : Run.falls W r r := ⟨.refl _, fun _ _ => rfl, rfl⟩

theorem Run.falls.trans (a : Run.falls W r p) (b : Run.falls W p q) : Run.falls W r q :=
  ⟨a.calm.trans b.calm, fun o ho => (b.kept o ho).trans (a.kept o ho), b.pins.trans a.pins⟩

theorem Run.falls_setFld (r : Run s0) {f : FRef} (v : Nat) (h : W f.reg.off) : Run.falls W r (r.setFld f v) := by
  have marks := Run.marks_setFld (W := W) r v h
  exact ⟨marks.calm, marks.stays.kept, rfl⟩

/-- Where a hart's state, the state of a channel and Foxglove's step are shown. -/
def fallArea (o : Nat) : Prop := (∃ n h, h < 4 ∧ o = (HART_STAT n h).off) ∨ (∃ c < 24, o = (MC_STATUS c).off) ∨ o = FOX_START.off

theorem Run.falls_haltAll (r : Run s0) : Run.falls fallArea r r.haltAll := by
  unfold Run.haltAll
  refine List.foldlRecOn (motive := Run.falls fallArea r) _ _ (.refl r) fun q falls e _ => ?_
  split
  next =>
    refine falls.trans (Run.falls.trans (p := q.modHart e.1 fun t => { t with run := .fatal }) ⟨⟨rfl, rfl, rfl, rfl, rfl, fun h => ?_, fun _ => .inl⟩,
      fun _ _ => rfl, rfl⟩ (Run.falls_setFld _ 5 (.inl ⟨_, _, Nat.mod_lt _ (by decide), rfl⟩)))
    rw [Run.modHart, Run.hart_setHart]
    split
    next same => exact ⟨.fatal, by rw [same]; rfl⟩
    next => exact ⟨_, rfl⟩
  next => exact falls

/-- The coherent peers are told of a FATAL (R472). -/
def Run.tellPeers (r : Run s0) : Run s0 :=
  (List.range 32).foldl (fun r g =>
    if (r.fld (G_CFG_PERS g) == 3 || r.fld (G_CFG_PERS g) == 4) && (r.fld (G_STAT_STATE g) == 4 || r.fld (G_STAT_STATE g) == 5)
    then r.emit (.fatalNotice (Fin.ofNat 4 (r.fld (G_CFG_PEER g)))) else r) r

theorem Run.falls_tellPeers (r : Run s0) : Run.falls W r r.tellPeers := by
  refine List.foldlRecOn (motive := Run.falls W r) _ _ (.refl r) fun q falls g _ => ?_
  split
  · exact falls.trans ⟨⟨rfl, rfl, rfl, rfl, rfl, fun _ => ⟨_, rfl⟩, fun _ => .inl⟩, fun _ _ => rfl, rfl⟩
  · exact falls

/-- Every channel that runs puts its DRAM into self-refresh (R472). -/
def Run.refreshAll (r : Run s0) : Run s0 :=
  (List.range 24).foldl (fun r c => if r.fld (MC_STATUS_INIT c) == 3 then r.setFld (MC_STATUS_SR c) 1 else r) r

theorem Run.falls_refreshAll (r : Run s0) : Run.falls fallArea r r.refreshAll := by
  refine List.foldlRecOn (motive := Run.falls fallArea r) _ _ (.refl r) fun q falls c hc => ?_
  split
  · exact falls.trans (Run.falls_setFld q 1 (.inr (.inl ⟨c, List.mem_range.1 hc, rfl⟩)))
  · exact falls

/-- FATAL# is asserted, at status 0xC (R472). -/
def Run.assertFatal (r : Run s0) : Run s0 := r.act (.pins { r.1.pins with fatal := true, status := 0xC })

/-- The cause of the FATAL that the loss of REFCLK raises (R472, R512). -/
def Run.refclkCause (r : Run s0) : Run s0 :=
  (((r.setFld ERR_FATAL_V 1).setFld ERR_FATAL_DIE 16).setFld ERR_FATAL_EVENT 0x0A00).setFld ERR_FATAL_COLD 1

theorem Run.fatal_eq (r : Run s0) (first : r.1.fld ERR_FATAL_V = 0) :
    r.fatal .weir { event := 0x0A00, cls := .fatal } =
      ((((r.refclkCause.logRec .weir { event := 0x0A00, cls := .fatal }).assertFatal).setFld FOX_START_STEP 0xC).haltAll.tellPeers).refreshAll := by
  have first : ¬ r.on ERR_FATAL_V = true := by simp [Run.on, Run.fld, first]
  unfold Run.fatal
  simp only
  rw [if_neg first]
  rfl

theorem Run.refclkCause_reads (r : Run s0) :
    r.refclkCause.1.fld ERR_FATAL_V = 1 ∧ r.refclkCause.1.fld ERR_FATAL_COLD = 1 ∧ r.refclkCause.1.fld ERR_FATAL_EVENT = 0x0A00 := by
  unfold Run.refclkCause
  refine ⟨?_, ?_, ?_⟩
  · rw [Run.fld_setFld_apart _ _ _ _ (by simp) (by simp) (by simp) (by simp), Run.fld_setFld_apart _ _ _ _ (by simp) (by simp) (by simp) (by simp),
      Run.fld_setFld_apart _ _ _ _ (by simp) (by simp) (by simp) (by simp), Run.fld_setFld_lt _ (by simp) (by simp)]
  · rw [Run.fld_setFld_lt _ (by simp) (by simp)]
  · rw [Run.fld_setFld_apart _ _ _ _ (by simp) (by simp) (by simp) (by simp), Run.fld_setFld_lt _ (by simp) (by simp)]

end Sys2Proof.Machine

/-! What the loss of REFCLK leaves, and the commands of the timebase together (R48 to R54, R221, R395, R472, R512). -/
namespace Sys2Proof.Machine

variable {s0 : State}

/-- What a FATAL of Weir's writes: its cause, its record, and the states of what stops. -/
def fatalArea (o : Nat) : Prop := o = ERR_FATAL.off ∨ Bank.weir.area o ∨ fallArea o

/-- No record of Weir's, and no state of what a FATAL stops, is its cause, the timebase or a link's state. -/
theorem not_fallen {o : Nat} (h : o = ERR_FATAL.off ∨ o = TBASE_STAT.off ∨ o = TBASE_COUNT.off ∨ ∃ d < 16, o = (RLINK_STAT d).off) :
    ¬ (Bank.weir.area o ∨ fallArea o) := by
  have place : o = 0x10000C0020 ∨ o = 0x1000020008 ∨ o = 0x1000020000 ∨ 0x10000B0000 ≤ o ∧ o < 0x10000C0000 := by
    rcases h with rfl | rfl | rfl | ⟨d, hd, rfl⟩
    · exact .inl rfl
    · exact .inr (.inl rfl)
    · exact .inr (.inr (.inl rfl))
    · simp only [RLINK_STAT]
      omega
  rintro (weir | ⟨n, k, hk, rfl⟩ | ⟨c, hc, rfl⟩ | rfl)
  · simp only [Bank.area, ringArea, Bank.base, Bank.die] at weir
    simp only [errBase, if_pos, ERR_SUMMARY, ERR_RINGSTAT] at weir
    omega
  · simp only [HART_STAT, tileBase] at place
    omega
  · simp only [MC_STATUS] at place
    omega
  · simp only [FOX_START] at place
    omega

theorem not_fatalArea {o : Nat} (h : o = TBASE_STAT.off ∨ o = TBASE_COUNT.off ∨ ∃ d < 16, o = (RLINK_STAT d).off) : ¬ fatalArea o := by
  rintro (rfl | fallen)
  · simp only [TBASE_STAT, TBASE_COUNT, RLINK_STAT, ERR_FATAL] at h
    omega
  · exact not_fallen (.inr h) fallen

theorem Run.marks_refclkCause (r : Run s0) : Run.marks (· = ERR_FATAL.off) r r.refclkCause :=
  (((Run.marks_setFld (W := (· = ERR_FATAL.off)) (f := ERR_FATAL_V) r 1 rfl).trans (Run.marks_setFld (f := ERR_FATAL_DIE) _ 16 rfl)).trans
    (Run.marks_setFld (f := ERR_FATAL_EVENT) _ 0x0A00 rfl)).trans (Run.marks_setFld (f := ERR_FATAL_COLD) _ 1 rfl)

/-- What FATAL does beside its cause and its record. -/
theorem Run.falls_fatal (r : Run s0) : Run.falls fallArea r.assertFatal (((r.assertFatal.setFld FOX_START_STEP 0xC).haltAll.tellPeers).refreshAll) :=
  (((Run.falls_setFld (f := FOX_START_STEP) _ 0xC (.inr (.inr rfl))).trans (Run.falls_haltAll _)).trans (Run.falls_tellPeers _)).trans
    (Run.falls_refreshAll _)

/-- What the FATAL of the loss of REFCLK leaves (R54, R472, R512). -/
theorem Run.fatal_leaves (r : Run s0) (ns : r.1.noSources) (first : r.1.fld ERR_FATAL_V = 0) {q : Run s0}
    (e : r.fatal .weir { event := 0x0A00, cls := .fatal } = q) :
    r.1.calm q.1 ∧ (∀ f : FRef, ¬ fatalArea f.reg.off → q.1.fld f = r.1.fld f) ∧ q.1.pins.fatal = true ∧ q.1.fld ERR_FATAL_V = 1 ∧
      q.1.fld ERR_FATAL_COLD = 1 ∧ q.1.fld ERR_FATAL_EVENT = 0x0A00 := by
  rw [r.fatal_eq first] at e
  obtain ⟨v, cold, event⟩ := r.refclkCause_reads
  have causes := r.marks_refclkCause
  generalize r.refclkCause = p at e v cold event causes
  have logs := p.marks_logRec (causes.noSources ns) .weir { event := 0x0A00, cls := .fatal } none
  generalize p.logRec .weir { event := 0x0A00, cls := .fatal } = u at e logs
  have falls := u.falls_fatal
  have pins : u.assertFatal.1.pins.fatal = true := rfl
  have asserts : u.1.calm u.assertFatal.1 := ⟨rfl, rfl, rfl, rfl, rfl, fun _ => ⟨_, rfl⟩, fun _ => .inl⟩
  have same : ∀ f, u.assertFatal.1.fld f = u.1.fld f := fun _ => rfl
  rw [e] at falls
  generalize u.assertFatal = w at falls pins asserts same
  have kept : ∀ f : FRef, ¬ (Bank.weir.area f.reg.off ∨ fallArea f.reg.off) → q.1.fld f = p.1.fld f := fun f hf => by
    rw [← logs.fld fun weir => hf (.inl weir), ← same f]
    simp only [State.fld, State.reg, Sparse.get, falls.kept _ fun fallen => hf (.inr fallen)]
  have cause : ∀ f : FRef, f.reg.off = ERR_FATAL.off → q.1.fld f = p.1.fld f := fun f hf => kept f (not_fallen (.inl hf))
  refine ⟨((causes.calm.trans logs.calm).trans asserts).trans falls.calm, fun f hf => ?_, by rw [falls.pins, pins], ?_, ?_, ?_⟩
  · rw [kept f fun fallen => hf (.inr fallen), causes.fld fun own => hf (.inl own)]
  · rw [cause _ rfl, v]
  · rw [cause _ rfl, cold]
  · rw [cause _ rfl, event]

/-- REFCLK is marked as lost in the timebase's status (R54). -/
def Run.markLoss (r : Run s0) : Run s0 := (r.setFld TBASE_STAT_REFOK 0).setFld TBASE_STAT_REFLOSS 1

theorem Run.markLoss_leaves (r : Run s0) :
    Run.marks (· = TBASE_STAT.off) r r.markLoss ∧ r.markLoss.1.fld TBASE_STAT_REFOK = 0 ∧ r.markLoss.1.fld TBASE_STAT_REFLOSS = 1 := by
  unfold Run.markLoss
  refine ⟨(Run.marks_setFld (W := (· = TBASE_STAT.off)) (f := TBASE_STAT_REFOK) r 0 rfl).trans (Run.marks_setFld (f := TBASE_STAT_REFLOSS) _ 1 rfl),
    ?_, ?_⟩
  · rw [Run.fld_setFld_apart _ _ _ _ (by simp) (by simp) (by simp) (by simp), Run.fld_setFld_lt _ (by simp) (by simp)]
  · rw [Run.fld_setFld_lt _ (by simp) (by simp)]

theorem Run.refclkLost_eq (r : Run s0) (refok : r.1.fld TBASE_STAT_REFOK = 1) :
    r.refclkLost = ((List.range 16).foldl (fun r d => r.streamLost d) r.markLoss).fatal .weir { event := 0x0A00, cls := .fatal } := by
  have present : ¬ (!r.on TBASE_STAT_REFOK) = true := by simp [Run.on, Run.fld, refok]
  rw [Run.refclkLost, if_neg present]
  rfl

/-- R54, R512: REFCLK is judged lost. -/
theorem refclkLost_completes (s : State) (st : s.still) (ns : s.noSources) (idle : ∀ d < 16, s.dieIdle d) (refok : s.fld TBASE_STAT_REFOK = 1)
    (first : s.fld ERR_FATAL_V = 0) :
    ∃ t, (Run.start s).refclkLost.done = .next t ∧ t.fld TBASE_STAT_REFOK = 0 ∧ t.fld TBASE_STAT_REFLOSS = 1 ∧
      t.fld TBASE_COUNT_COUNT = s.fld TBASE_COUNT_COUNT ∧ t.pins.fatal = true ∧ t.fld ERR_FATAL_V = 1 ∧ t.fld ERR_FATAL_COLD = 1 ∧
      t.fld ERR_FATAL_EVENT = 0x0A00 := by
  rw [(Run.start s).refclkLost_eq refok]
  obtain ⟨marks, refok, refloss⟩ := (Run.start s).markLoss_leaves
  generalize (Run.start s).markLoss = p at marks refok refloss ⊢
  have loses := p.losesStreams_fold (fun d hd => marks.stays.dieIdle (idle d hd)) (marks.noSources ns)
  generalize (List.range 16).foldl (fun r d => r.streamLost d) p = q at loses ⊢
  have refok := loses.refok.trans refok
  have refloss := loses.refloss.trans refloss
  have cause : q.1.fld ERR_FATAL_V = 0 := by
    rw [loses.stays.fld (f := ERR_FATAL_V) (not_lossAreas (.inr rfl)), marks.fld (f := ERR_FATAL_V) (by decide)]
    exact first
  have count : q.1.fld TBASE_COUNT_COUNT = s.fld TBASE_COUNT_COUNT := by
    rw [loses.stays.fld (f := TBASE_COUNT_COUNT) (not_lossAreas (.inl rfl)), marks.fld (f := TBASE_COUNT_COUNT) (by decide)]
    rfl
  have link : ∀ d < 16, q.1.fld (RLINK_STAT_STATE d) = s.fld (RLINK_STAT_STATE d) := fun d hd => by
    rw [loses.stays.fld (f := RLINK_STAT_STATE d) fun ⟨k, hk, own⟩ => noLink_lossArea hk own d hd rfl,
      marks.fld (f := RLINK_STAT_STATE d) fun own => noLink_TBASE.2 d hd own]
    rfl
  have before := marks.calm.trans loses.stays.calm
  generalize e : q.fatal .weir { event := 0x0A00, cls := .fatal } = r
  obtain ⟨calm, kept, pins, cause⟩ := q.fatal_leaves (loses.stays.noSources (marks.noSources ns)) cause e
  have on : ∀ d < 16, r.1.online d = s.online d := fun d hd => by
    rw [State.online, State.online, kept (RLINK_STAT_STATE d) (not_fatalArea (.inr (.inr ⟨d, hd, rfl⟩))), link d hd]
  obtain ⟨fld, -, -, pins'⟩ := r.over_reads
  refine ⟨_, r.done_calm st (before.trans calm) on, ?_⟩
  rw [fld, fld, fld, fld, fld, fld, pins', kept TBASE_STAT_REFOK (not_fatalArea (.inl rfl)), kept TBASE_STAT_REFLOSS (not_fatalArea (.inl rfl)),
    kept TBASE_COUNT_COUNT (not_fatalArea (.inr (.inl rfl)))]
  exact ⟨refok, refloss, count, pins, cause⟩

/-- Settles O22: each command of the timebase reaches the registers and copies of time that its rule names, and what it makes look again finds
nothing waiting. -/
theorem timeAdvances : Obligations.TimeAdvances := by
  unfold Obligations.TimeAdvances
  refine ⟨timebaseTick_completes, tick_completes, syncWord_completes, tickStreamLoss_completes, tickLossReport_completes,
    fun s st ns idle refok first c hc => ?_⟩
  have lost := refclkLost_completes s st ns idle refok first
  rcases List.mem_cons.1 hc with rfl | hc
  · exact lost
  · cases List.mem_singleton.1 hc
    exact lost

end Sys2Proof.Machine

/-! The end of the delay after an LR lets a recall go on, and what the recall meets may reach a hart that waits (R59, R136, R186, R457). -/
namespace Sys2Proof.Machine

/-- Hart 0 has reserved line 0 and pauses until an interrupt is pending that it enables; its tile delays snoops of the line, whose L2 slot holds
an address-parity error. A miss of tile 1 waits for the one way of its partition, where line 0 lies, and die 0 reports corrected errors to
hart 0. -/
def recallState : State :=
  { State.reset with
    regs := [((L3_PARTWAYS 0 0).off, 1), ((ERR_CFG 0).off, 1), ((DOM_STAT 0).off, 0), ((RLINK_STAT 0).off, 4)]
    harts := [(0, { run := .running, pause := true, resv := some 0, lrDelay := some 0 })]
    csrs := [(0x304, 0x800)]
    imsic := [(0, { enab := 2, delivery := 1 })]
    aplic := [(0, { ie := true, enab := 1#256 <<< 145 })]
    aplicSrc := [(145, { sm := 4, eiid := 1 })]
    l2 := [(l2Key 0 0 0, { line := 0, st := .E, data := 0, tagFlip := true })]
    l3 := [(l3Key 0 0 0, { line := 0, st := .E, cv := 1, part := 0, data := 0 })]
    quads := [(0, { miss := [{ line := 0xA000, way := 0, kind := .rdS, tiles := [(1, .rdS)], placed := false }] })]
    pins := { porst := false } }

/-- The recall that the end of the delay sets off finds the error; its record sends an interrupt to hart 0, whose PAUSE ends. -/
theorem recallState_pause_ends {t : State} (e : exec (.lrSnoopDelayEnd 0) recallState = .next t) : (t.hart 0).pause = false := by
  have ends : (match exec (.lrSnoopDelayEnd 0) recallState with | .next t => (t.hart 0).pause | _ => true) = false := by decide +kernel
  rw [e] at ends
  exact ends

/-- Refutes O3: its last clause lets the hart whose delay ends lose nothing else, but in `recallState` the recall that had waited for the delay
reports a corrected error, and the interrupt of that report ends the hart's PAUSE. -/
theorem not_waitsComplete : ¬ Obligations.WaitsComplete := by
  unfold Obligations.WaitsComplete
  rintro ⟨-, -, -, -, -, -, -, -, delayEnds⟩
  obtain ⟨t, e, hart⟩ := delayEnds 0 0 recallState (by decide +kernel) rfl rfl rfl
  have pauses : (t.hart 0).pause = true := congrArg Hart.pause hart
  rw [recallState_pause_ends e] at pauses
  exact Bool.false_ne_true pauses

end Sys2Proof.Machine

/-! The state after reset (R7, R66, R348, R424, R500). -/
namespace Sys2Proof.Machine

/-- After reset every field reads what its register's reset value gives it. -/
theorem State.fld_reset (f : FRef) : State.reset.fld f = Word.bits (f.reg.rst &&& f.reg.mask) f.hi f.lo := rfl

/-- After reset a die's stream of ticks is lost (R51), every power domain is gated (R424), and a tile's monitor has no cap and no droop on record
(R44, R46). -/
theorem State.reset_families :
    (∀ d, State.reset.fld (TBRX_STATUS_LOST d) = 1) ∧ (∀ d, State.reset.fld (DOM_STAT_STATE d) = 3) ∧
      ∀ n, State.reset.fld (TMON_RATE_CAP n) = 0xFFFF ∧ State.reset.fld (TMON_DROOP_VMIN n) = 0x3FF := by
  simp only [State.fld_reset, TBRX_STATUS_LOST, TBRX_STATUS, DOM_STAT_STATE, DOM_STAT, TMON_RATE_CAP, TMON_RATE, TMON_DROOP_VMIN, TMON_DROOP,
    forall_const]
  decide

/-- After reset every store is empty, so that nothing is left to settle. -/
theorem State.reset_still : State.reset.still := ⟨rfl, rfl, List.forall_mem_nil _, List.forall_mem_nil _⟩

/-- Settles O55: every store is empty, so that what an unlisted key holds, and the register map's reset values, are what is read. -/
theorem resetState : Obligations.ResetState := by
  unfold Obligations.ResetState
  obtain ⟨lost, gated, monitors⟩ := State.reset_families
  exact ⟨by decide, State.reset_still, rfl, rfl, rfl, fun _ => ⟨rfl, rfl⟩, fun _ => rfl, by decide, by decide, lost, gated, monitors, by decide⟩

end Sys2Proof.Machine

/-! What an instruction that retires changes beside its hart (R39, R477, R479). -/
namespace Sys2Proof.Machine

variable {s0 : State}

/-! ### Retirement -/

/-- The instruction that a hart has executed counts in minstret, where it counts (R477). -/
def Run.countRetired (r : Run s0) (h : Nat) : Run s0 := if r.cb h 0x320 2 || !r.counting h then r else r.setCsr h 0xB02 (r.csr h 0xB02 + 1)

/-- A run has gone on by changes of CSRs alone, minstret of one hart among them. -/
theorem Run.countRetired_only (r : Run s0) (h : Nat) : (∃ cs, (r.countRetired h).1 = { r.1 with csrs := cs }) ∧
    ∀ k n, n < 4096 → (k ≠ h ∨ n ≠ 0xB02) → (r.countRetired h).1.csr k n = r.1.csr k n := by
  unfold Run.countRetired
  split
  · exact ⟨⟨_, rfl⟩, fun _ _ _ _ => rfl⟩
  · exact ⟨⟨_, rfl⟩, fun k n hn other => Run.csr_setCsr_other r _ (by omega)⟩

theorem Run.pokeHart_only (r : Run s0) (h : Nat) : ∃ ps, (r.pokeHart h).1 = { r.1 with poke := ps } := by
  unfold Run.pokeHart
  split <;> exact ⟨_, rfl⟩

/-- A retired instruction changes its hart, minstret of it and the list of harts to be looked at again, and nothing else. -/
theorem Run.retire_only (r : Run s0) (h : Nat) (w : r.1.unwatched h) :
    (∃ hs cs ps, (r.retire h).1 = { r.1 with harts := hs, csrs := cs, poke := ps }) ∧ (∀ k, k ≠ h → (r.retire h).1.hart k = r.1.hart k) ∧
      ∀ k n, n < 4096 → (k ≠ h ∨ n ≠ 0xB02) → (r.retire h).1.csr k n = r.1.csr k n := by
  obtain ⟨⟨cs, counts⟩, csr⟩ := r.countRetired_only h
  set q := ((r.countRetired h).modHart h fun t => { t with pc := t.pc + 4, wait := none }).tally h 0x0002 1 with hq
  obtain ⟨ps, pokes⟩ := q.pokeHart_only h
  rw [r.retire_plain h w, show (r.moveOn h).1 = _ from pokes]
  have turns : q.1 = { (r.countRetired h).1 with harts := q.1.harts } := rfl
  refine ⟨⟨q.1.harts, cs, ps, by rw [turns, counts]⟩, fun k other => ?_, csr⟩
  have moved : q.1.hart k = (r.countRetired h).1.hart k := by simp [hq, Run.tally, Run.modHart, other]
  exact moved.trans (by rw [counts]; rfl)

/-- Settles O2: what `retire_leaves` says of the hart and its minstret, and `retire_only` of everything else. -/
theorem retireMovesPcAndCount : Obligations.RetireMovesPcAndCount := by
  unfold Obligations.RetireMovesPcAndCount
  intro h s w
  obtain ⟨moved, instret, -⟩ := (Run.start s).retire_leaves h w
  obtain ⟨⟨hs, cs, ps, only⟩, others, csrs⟩ := (Run.start s).retire_only h w
  have counted : ((Run.start s).retire h).1.csr h 0xB02 =
      if (s.csr h 0x320).getLsbD 2 then s.csr h 0xB02 else if (Run.start s).counting h then s.csr h 0xB02 + 1 else s.csr h 0xB02 := by
    rw [instret, show (Run.start s).cb h 0x320 2 = (s.csr h 0x320).getLsbD 2 from rfl]
    cases (s.csr h 0x320).getLsbD 2 <;> cases (Run.start s).counting h <;> rfl
  refine ⟨moved, others, counted, csrs, ?_⟩
  simp [Run.over, only]

end Sys2Proof.Machine

/-! The end of a command whose last instruction retires, with harts to be looked at again for which nothing waits (R81). -/
namespace Sys2Proof.Machine

variable {s0 : State}

theorem Run.mem_pokeHart {r : Run s0} {h k : Nat} (hk : k ∈ (r.pokeHart h).1.poke) : k = h ∨ k ∈ r.1.poke := by
  unfold Run.pokeHart at hk
  split at hk
  · exact .inr hk
  · exact (List.mem_append.1 hk).symm.imp_left List.mem_singleton.1

/-- A retired instruction marks its hart alone to be looked at again. -/
theorem Run.mem_retire_poke {r : Run s0} {h k : Nat} (w : r.1.unwatched h) (hk : k ∈ (r.retire h).1.poke) : k = h ∨ k ∈ r.1.poke := by
  rw [r.retire_plain h w] at hk
  refine (Run.mem_pokeHart hk).imp_right fun before => ?_
  obtain ⟨⟨cs, counts⟩, -⟩ := r.countRetired_only h
  have same : (r.countRetired h).1.poke = r.1.poke := by rw [counts]
  exact same ▸ before

/-- A hart for which nothing waits stands so after an instruction of any hart has retired. -/
theorem Run.undisturbed_after_retire (r : Run s0) (h k : Nat) (w : r.1.unwatched h) (u : r.1.undisturbed k) : (r.retire h).1.undisturbed k := by
  by_cases own : k = h
  · subst own
    exact r.undisturbed_retire k u
  · obtain ⟨⟨hs, cs, ps, only⟩, others, csr⟩ := r.retire_only h w
    have debug := csr k 0x7B0 (by decide) (.inr (by decide))
    refine State.undisturbed_of u (by rw [only]) ?_ ?_ ?_ (csr k 0x304 (by decide) (.inr (by decide))) ?_
    iterate 3 rw [others k own]
    obtain ⟨-, -, -, -, -, unwatched⟩ := u
    rw [State.unwatched, others k own, debug]
    exact unwatched

/-- A command ends with what it has done, where nothing is left to settle but harts for which nothing waits. -/
theorem Run.done_idle (r : Run s0) (quiet : (r.act (.poke [])).1.still) (idle : ∀ h ∈ r.1.poke, r.1.undisturbed h) : r.done = .next r.over := by
  obtain ⟨need, -, fence, drop⟩ := quiet
  rw [Run.done_plain r need, Run.settle, Run.settleFence_none r _ fence, Run.settleDrops_none r drop, Run.finish_eq, Run.settleLoop_idle r _ idle]

/-- An instruction that retires ends its command, where nothing waits for its hart and those that it has marked. -/
theorem Run.done_retire_idle (r : Run s0) (h : Nat) (quiet : (r.act (.poke [])).1.still) (own : r.1.undisturbed h)
    (idle : ∀ k ∈ r.1.poke, r.1.undisturbed k) : (r.retire h).done = .next (r.retire h).over := by
  obtain ⟨-, -, -, -, -, w⟩ := id own
  obtain ⟨⟨hs, cs, ps, only⟩, -, -⟩ := r.retire_only h w
  refine Run.done_idle _ ?_ fun k hk => r.undisturbed_after_retire h k w ?_
  · rw [Run.act_val, only]
    exact quiet
  · rcases Run.mem_retire_poke w hk with rfl | before
    · exact own
    · exact idle k before

end Sys2Proof.Machine

/-! A read of seed, DW.KEYSW and DW.WAKE (R60, R86, R109). -/
namespace Sys2Proof.Machine

variable {s0 : State}

/-! ### Instructions on a hart's own registers and CSRs -/

/-- An instruction that has written registers, CSRs other than mie and dcsr, and used free values ends its command by retiring. -/
theorem Run.done_retire_own {s : State} {h : Nat} (q : Run s) (free : s.free_ h) (only : ∃ xs cs n, q.1 = { s with xs := xs, csrs := cs, free := n })
    (enabled : q.1.csr h 0x304 = s.csr h 0x304) (debug : q.1.csr h 0x7B0 = s.csr h 0x7B0) : (q.retire h).done = .next (q.retire h).over := by
  obtain ⟨still, undisturbed, -⟩ := free
  obtain ⟨xs, cs, n, only⟩ := only
  refine q.done_retire h (by rw [only]; exact still) ?_
  refine State.undisturbed_of undisturbed (by rw [only]) (by rw [only]; rfl) (by rw [only]; rfl) (by rw [only]; rfl) enabled ?_
  obtain ⟨-, -, -, -, -, unwatched⟩ := undisturbed
  rw [State.unwatched, debug, show q.1.hart h = s.hart h by rw [only]; rfl]
  exact unwatched

/-- A read of seed in M-mode while the DRBG does not deliver gives WAIT (R60). -/
theorem seedRead_waits (h : Fin 1024) (rd : Fin 32) (s : State) (free : s.free_ h) (mode : (s.hart h).mode = .m) (off : s.fld FOX_TRNG_STAT_DRBGOK = 0) :
    exec (.seedRead h rd true) s = .next (((Run.start s).fresh.1.setXr h rd 0x40000000).retire h).over := by
  have ready : (Run.start s).ready h = true := free.2.2
  have mode : ((Run.start s).hart h).mode = .m := mode
  have off : (Run.start s).on FOX_TRNG_STAT_DRBGOK = false := by simp [Run.on, Run.fld, off]
  have gives : (Run.start s).seedRead h rd true = ((Run.start s).fresh.1.setXr h rd 0x40000000).retire h := by
    simp [Run.seedRead, mode, off]
  obtain ⟨xs, only⟩ := (Run.start s).fresh.1.setXr_only h rd 0x40000000
  show execSeedRead h rd true s = _
  rw [execSeedRead]
  simp only [ready, gives, Bool.not_true, Bool.false_eq_true, if_false]
  exact Run.done_retire_own _ free ⟨xs, _, _, only⟩ (by rw [only]; rfl) (by rw [only]; rfl)

/-- DW.KEYSW in M-mode or S-mode swaps rs1 with the rights of every key (R109). -/
theorem dwKeysw_swaps (h : Fin 1024) (rd rs1 : Fin 32) (s : State) (free : s.free_ h) (mode : (s.hart h).mode = .m ∨ (s.hart h).mode = .s) :
    exec (.dwKeysw h rd rs1 0) s = .next ((((Run.start s).setXr h rd (s.csr h 0x5C8)).setCsr h 0x5C8
      ((s.csr h 0x5C8 &&& ~~~ 0x7777777777777777) ||| ((Run.start s).xr h rs1 &&& 0x7777777777777777))).retire h).over := by
  have ready : (Run.start s).ready h = true := free.2.2
  have plain : ((Run.start s).hart h).mode.virt = false ∧ ((Run.start s).hart h).mode ≠ .u := by
    rcases mode with m | m <;> rw [show ((Run.start s).hart h).mode = _ from m] <;> decide
  obtain ⟨real, notU⟩ := plain
  have swaps : (Run.start s).dwKeysw h rd rs1 0 = (((Run.start s).setXr h rd (s.csr h 0x5C8)).setCsr h 0x5C8
      ((s.csr h 0x5C8 &&& ~~~ 0x7777777777777777) ||| ((Run.start s).xr h rs1 &&& 0x7777777777777777))).retire h := by
    simp [Run.dwKeysw, ready, real, notU, Run.csr]
  obtain ⟨xs, only⟩ := (Run.start s).setXr_only h rd (s.csr h 0x5C8)
  have before : ∀ n, ((Run.start s).setXr h rd (s.csr h 0x5C8)).1.csr h n = s.csr h n := fun n => by rw [only]; rfl
  show ((Run.start s).dwKeysw h rd rs1 0).done = _
  rw [swaps]
  refine Run.done_retire_own _ free ⟨xs, _, _, by rw [Run.setCsr, Run.act_val, only]; rfl⟩ ?_ ?_
  · rw [Run.csr_setCsr_other _ _ (hartCsr_ne (by decide)), before]
  · rw [Run.csr_setCsr_other _ _ (hartCsr_ne (by decide)), before]

/-! ### DW.WAKE -/

/-- A hart's wake flag is set, and the hart is to be looked at again. -/
def Run.wakeFlag (r : Run s0) (k : Nat) : Run s0 := (r.modHart k fun x => { x with wake := true }).pokeHart k

theorem Run.wakeFlag_only (r : Run s0) (k : Nat) : (∃ hs ps, (r.wakeFlag k).1 = { r.1 with harts := hs, poke := ps }) ∧
    (∀ j, (r.wakeFlag k).1.hart j = if j = k then { r.1.hart j with wake := true } else r.1.hart j) ∧
      ∀ j ∈ (r.wakeFlag k).1.poke, j = k ∨ j ∈ r.1.poke := by
  obtain ⟨ps, pokes⟩ := (r.modHart k fun x => { x with wake := true }).pokeHart_only k
  refine ⟨⟨_, ps, pokes⟩, fun j => ?_, fun j => Run.mem_pokeHart⟩
  rw [Run.wakeFlag, pokes]
  refine (Run.hart_setHart r k j _).trans ?_
  split
  next e => exact e ▸ rfl
  next => rfl

/-- A hart in M-mode whose stores are visible wakes a hart of a die that is online (R86, R87). -/
theorem Run.dwWake_wakes (r : Run s0) (h k : Fin 1024) (rd rs1 : Fin 32) (ready : r.ready h = true) (drained : r.1.drained h)
    (mode : (r.hart h).mode = .m) (names : r.xr h rs1 = BitVec.ofNat 64 k) (on : r.online (dieOf (tileOf k)) = true) :
    r.dwWake h rd rs1 0 = ((r.wakeFlag k).setXr h rd 0).retire h := by
  have number : (BitVec.ofNat 64 k.val).toNat = k := by
    rw [BitVec.toNat_ofNat]
    omega
  have delivers : r.wake h k rd = ((r.wakeFlag k).setXr h rd 0).retire h := by
    simp [Run.wake, Run.wakeFlag, mode, on]
  simp [Run.dwWake, ready, Run.parkCause, mode, Run.after_drained r h none _ drained, Run.goOn, Run.go_nil, names, number, delivers]

/-- DW.WAKE in M-mode sets the wake flag of another hart, for which nothing waits, gives rd 0 and retires (R86). -/
theorem dwWake_completes (h k : Fin 1024) (rd rs1 : Fin 32) (s : State) (free : s.free_ h) (drained : s.drained h) (idle : s.undisturbed k)
    (other : h ≠ k) (mode : (s.hart h).mode = .m) (names : (Run.start s).xr h rs1 = BitVec.ofNat 64 k) (on : s.online (dieOf (tileOf k)) = true) :
    ∃ t, exec (.dwWake h rd rs1 0) s = .next t ∧ (t.hart k).wake = true ∧ (rd ≠ 0 → (Run.start t).xr h rd = 0) ∧ (t.hart h).pc = (s.hart h).pc + 4 := by
  obtain ⟨still, undisturbed, ready⟩ := free
  have apart : h.val ≠ k.val := fun e => other (Fin.ext e)
  obtain ⟨⟨hs, ps, only⟩, harts, pokes⟩ := (Run.start s).wakeFlag_only k
  obtain ⟨xs, wrote⟩ := ((Run.start s).wakeFlag k).setXr_only h rd 0
  have reads : rd ≠ 0 → (((Run.start s).wakeFlag k).setXr h rd 0).xr h rd = 0 := fun rd0 => Run.xr_setXr _ h rd 0 fun zero => rd0 (Fin.ext zero)
  rw [only] at wrote
  have hart : ∀ j, (((Run.start s).wakeFlag k).setXr h rd 0).1.hart j = if j = k then { s.hart j with wake := true } else s.hart j := fun j => by
    refine Eq.trans ?_ (harts j)
    rw [wrote, only]
    rfl
  have ends : exec (.dwWake h rd rs1 0) s = ((((Run.start s).wakeFlag k).setXr h rd 0).retire h).done :=
    congrArg Run.done ((Run.start s).dwWake_wakes h k rd rs1 ready drained mode names on)
  have marked : ∀ j ∈ (((Run.start s).wakeFlag k).setXr h rd 0).1.poke, j = k := fun j hj => by
    have := pokes j (by rw [only]; rw [wrote] at hj; exact hj)
    simpa [still.2.1] using this
  generalize ((Run.start s).wakeFlag k).setXr h rd 0 = q at wrote reads hart ends marked
  have csr : ∀ j n, q.1.csr j n = s.csr j n := fun j n => by rw [wrote]; rfl
  have stands : ∀ j, s.undisturbed j → q.1.undisturbed j := fun j u => by
    have keeps : ∃ b, q.1.hart j = { s.hart j with wake := b } := by
      rw [hart j]
      split <;> exact ⟨_, rfl⟩
    obtain ⟨b, keeps⟩ := keeps
    refine State.undisturbed_of u (by rw [wrote]; rfl) (by rw [keeps]) (by rw [keeps]) (by rw [keeps]) (csr j _) ?_
    obtain ⟨-, -, -, -, -, unwatched⟩ := u
    rw [State.unwatched, keeps, csr]
    exact unwatched
  have quiet : (q.act (.poke [])).1.still := by
    refine State.still_of still ?_ rfl ?_ ?_ ?_
    · rw [Run.act_val, wrote]
      exact still.1
    all_goals
      rw [Run.act_val, wrote]
      rfl
  have own := stands h undisturbed
  obtain ⟨-, -, -, -, -, w⟩ := id own
  obtain ⟨pc, -⟩ := q.retire_frame h w
  obtain ⟨-, others, -⟩ := q.retire_only h w
  refine ⟨_, ends.trans (q.done_retire_idle h quiet own fun j hj => ?_), ?_, fun rd0 => ?_, ?_⟩
  · rw [marked j hj]
    exact stands k idle
  · refine (congrArg Hart.wake ((others k apart.symm).trans (hart k))).trans ?_
    rw [if_pos rfl]
  · exact (q.xr_retire h rd w).trans (reads rd0)
  · refine pc.trans ?_
    rw [hart h, if_neg apart]

/-- Settles O4: each of the three instructions writes what its rule says and retires, and the hart that is woken has nothing waiting for it. -/
theorem seedKeysWakeComplete : Obligations.SeedKeysWakeComplete := by
  unfold Obligations.SeedKeysWakeComplete
  exact ⟨seedRead_waits, dwKeysw_swaps, dwWake_completes⟩

end Sys2Proof.Machine

/-! AMO, LR and SC of a line that the L2 owns (R89, R186, R528). -/
namespace Sys2Proof.Machine

variable {s0 : State}

/-! ### What an access leaves -/

/-- A hart differs from another in its access alone: in what it waits for, in its reservation, and in what has been counted for it. -/
def Hart.accessed (t u : Hart) : Prop := u = { t with wait := u.wait, resv := u.resv, lrDelay := u.lrDelay, tally := u.tally }

/-- A state differs from another in nothing that settling looks at, but for the access of one hart, which alone is to be looked at again. -/
structure State.accessed (h : Nat) (s t : State) : Prop where
  need : t.need = s.need
  net : t.net = s.net
  dies : t.dies = s.dies
  quads : t.quads = s.quads
  csrs : t.csrs = s.csrs
  online : ∀ d < 16, t.online d = s.online d
  hart : (s.hart h).accessed (t.hart h)
  poke : ∀ k ∈ t.poke, k = h ∨ k ∈ s.poke

variable {h : Nat} {s t u : State}

theorem State.accessed.trans (c : s.accessed h t) (c' : t.accessed h u) : s.accessed h u where
  need := c'.need.trans c.need
  net := c'.net.trans c.net
  dies := c'.dies.trans c.dies
  quads := c'.quads.trans c.quads
  csrs := c'.csrs.trans c.csrs
  online d hd := (c'.online d hd).trans (c.online d hd)
  hart := by
    have first := c.hart
    have second := c'.hart
    rw [Hart.accessed] at first second ⊢
    rw [second, first]
  poke k hk := (c'.poke k hk).elim .inl (c.poke k)

/-- A state in which a hart has its access changed, and caches and integer registers are other ones. -/
theorem State.accessed_of {hs l1i l1d l2 plru xs} (only : t = { s with harts := hs, l1i := l1i, l1d := l1d, l2 := l2, plru := plru, xs := xs })
    (hart : (s.hart h).accessed (t.hart h)) : s.accessed h t := by
  subst only
  exact ⟨rfl, rfl, rfl, rfl, rfl, fun _ _ => rfl, hart, fun _ => .inr⟩

theorem Run.accessed_modHart (r : Run s0) (h : Nat) {f : Hart → Hart} (turn : (r.1.hart h).accessed (f (r.1.hart h))) :
    r.1.accessed h (r.modHart h f).1 := by
  refine State.accessed_of (hs := (r.modHart h f).1.harts) (l1i := r.1.l1i) (l1d := r.1.l1d) (l2 := r.1.l2) (plru := r.1.plru) (xs := r.1.xs) rfl ?_
  rw [Run.modHart, Run.hart_setHart, if_pos rfl]
  exact turn

theorem Run.accessed_setXr (r : Run s0) (h i : Nat) (v : Word) : r.1.accessed h (r.setXr h i v).1 := by
  obtain ⟨xs, only⟩ := r.setXr_only h i v
  refine State.accessed_of (hs := r.1.harts) (l1i := r.1.l1i) (l1d := r.1.l1d) (l2 := r.1.l2) (plru := r.1.plru) only ?_
  rw [only]
  rfl

theorem Run.accessed_l2Touch (r : Run s0) (n : Nat) (l : LineAddr) (w h : Nat) : r.1.accessed h (r.l2Touch n l w).1 :=
  State.accessed_of (hs := r.1.harts) (l1i := r.1.l1i) (l1d := r.1.l1d) (l2 := r.1.l2) (xs := r.1.xs) rfl rfl

theorem Run.l2Slot_setXr (r : Run s0) (h i : Nat) (v : Word) (k : Nat) : (r.setXr h i v).1.l2Slot k = r.1.l2Slot k := by
  obtain ⟨xs, only⟩ := r.setXr_only h i v
  rw [only]
  rfl

theorem State.usesOnly.accessed (uses : s.usesOnly t) (h : Nat) : s.accessed h t := by
  refine State.accessed_of (hs := s.harts) (l1i := s.l1i) (l1d := s.l1d) (l2 := s.l2) (xs := s.xs) uses ?_
  rw [uses]
  rfl

theorem State.accessed.undisturbed (c : s.accessed h t) (u : s.undisturbed h) : t.undisturbed h := by
  have hart := c.hart
  rw [Hart.accessed] at hart
  have csr : ∀ n, t.csr h n = s.csr h n := fun n => by rw [State.csr, c.csrs, State.csr]
  refine State.undisturbed_of u c.quads (by rw [hart]) (by rw [hart]) (by rw [hart]) (csr _) ?_
  obtain ⟨-, -, -, -, -, unwatched⟩ := u
  rw [State.unwatched, hart, csr]
  exact unwatched

/-- An instruction that has accessed memory ends its command by retiring, where nothing waited for its hart. -/
theorem State.accessed.done_retire {q : Run s} (c : s.accessed h q.1) (still : s.still) (u : s.undisturbed h) :
    (q.retire h).done = .next (q.retire h).over ∧ ((q.retire h).1.hart h).pc = (s.hart h).pc + 4 ∧
      ((q.retire h).1.hart h).resv = (q.1.hart h).resv ∧ ((q.retire h).1.hart h).lrDelay = (q.1.hart h).lrDelay := by
  have own := c.undisturbed u
  obtain ⟨-, -, -, -, -, unwatched⟩ := id own
  obtain ⟨moved, -⟩ := q.retire_leaves h unwatched
  have quiet : (q.act (.poke [])).1.still := State.still_of_online still (c.need.trans still.1) rfl c.online c.net c.dies
  have hart := c.hart
  rw [Hart.accessed] at hart
  refine ⟨q.done_retire_idle h quiet own fun k hk => ?_, ?_, ?_, ?_⟩
  · rcases c.poke k hk with rfl | before
    · exact own
    · simp [still.2.1] at before
  · rw [moved, hart]
    rfl
  · rw [moved]
    rfl
  · rw [moved]
    rfl

/-! ### The store of an owned line -/

/-- The reservations of the one hart that may have one on a line are lost. -/
theorem Run.loseResv_own (r : Run s0) {h : Nat} {l : LineAddr} (own : ∀ e ∈ r.1.harts, e.1 ≠ h → e.2.resv ≠ some l) :
    (∃ hs ps, (r.loseResv l).1 = { r.1 with harts := hs, poke := ps }) ∧ r.1.accessed h (r.loseResv l).1 := by
  unfold Run.loseResv Run.loseOf
  refine List.foldlRecOn (motive := fun q : Run s0 => (∃ hs ps, q.1 = { r.1 with harts := hs, poke := ps }) ∧ r.1.accessed h q.1) _ _
    ⟨⟨_, _, rfl⟩, State.accessed_of (xs := r.1.xs) rfl rfl⟩ fun q ⟨⟨hs, ps, only⟩, acc⟩ e he => ?_
  split
  next lost =>
    obtain rfl : e.1 = h := Decidable.byContradiction fun other => own e he other lost.1
    set turned := q.modHart e.1 fun t => { t with resv := none, lrDelay := none } with ht
    have turn : q.1.accessed e.1 turned.1 := q.accessed_modHart e.1 rfl
    obtain ⟨ps', pokes⟩ := turned.pokeHart_only e.1
    refine ⟨⟨turned.1.harts, ps', ?_⟩, acc.trans (turn.trans ?_)⟩
    · rw [pokes, show turned.1 = { q.1 with harts := turned.1.harts } from rfl, only]
    · refine ⟨?_, ?_, ?_, ?_, ?_, fun _ _ => ?_, ?_, fun k => Run.mem_pokeHart⟩ <;> rw [pokes] <;> rfl
  next => exact ⟨⟨hs, ps, only⟩, acc⟩

/-- The registers of a tile's arrays are no die's STATE, and apart from the control registers of its L2. -/
theorem noLink_ARR_FLIP {d : Nat} (hd : d < 16) (a : Nat) : noLink (ARR_FLIP d a).off := by
  simp only [noLink, RLINK_STAT, ARR_FLIP, errBase, if_neg hd.ne]
  omega

theorem ARR_FLIP_apart {n a b : Nat} (hn : n < 256) (hb : b < 8) (other : a ≠ b) :
    (ARR_FLIP (dieOf n) (n % 16 * 8 + a)).off ≠ (ARR_FLIP (dieOf n) (n % 16 * 8 + b)).off ∧
      (L2CTL_STATUS n).off ≠ (ARR_FLIP (dieOf n) (n % 16 * 8 + b)).off := by
  have die : dieOf n = n / 16 := rfl
  have compute : dieOf n ≠ 16 := by omega
  simp only [L2CTL_STATUS, tileBase, ARR_FLIP, errBase, if_neg compute]
  omega

/-- A first write of an array takes the injection that is armed in it. -/
theorem Run.armTake_only (r : Run s0) (d a : Nat) :
    ∃ rs, (r.armTake d a).1.1 = { r.1 with regs := rs } ∧ ∀ o, o ≠ (ARR_FLIP d a).off → Sparse.find? rs o = r.1.regs.find? o := by
  unfold Run.armTake
  split
  · exact ⟨_, rfl, fun o ho => Sparse.find?_upd_other _ _ ho⟩
  · exact ⟨_, rfl, fun _ _ => rfl⟩

/-- A store's bytes change the L1 copies of its line, and take the injection that is armed in the L1D. -/
theorem Run.l1Store_only (r : Run s0) (n : Nat) (l : LineAddr) (mask : BitVec 64) :
    ∃ rs i d, (r.l1Store n l mask).1 = { r.1 with regs := rs, l1i := i, l1d := d } ∧
      ∀ o, o ≠ (ARR_FLIP (dieOf n) (n % 16 * 8 + 2)).off → Sparse.find? rs o = r.1.regs.find? o := by
  have copies : ∃ i, (match r.l1iFind n l with
      | some w => r.setL1iSlot (l1Key n l w) none
      | none => r).1 = { r.1 with l1i := i } := by
    split <;> exact ⟨_, rfl⟩
  obtain ⟨i, copies⟩ := copies
  unfold Run.l1Store
  extract_lets q
  have copies : q.1 = { r.1 with l1i := i } := copies
  split
  · exact ⟨_, _, _, copies, fun _ _ => rfl⟩
  · split
    · exact ⟨_, _, _, copies, fun _ _ => rfl⟩
    · obtain ⟨rs, takes, same⟩ := q.armTake_only (dieOf n) (n % 16 * 8 + 2)
      refine ⟨rs, i, _, by rw [Run.setL1dSlot, Run.act_val, takes, copies]; rfl, fun o ho => (same o ho).trans (by rw [copies])⟩

/-- No injection is armed in an L2's data: a line's slot is written as it is. -/
theorem Run.l2Write_unarmed (r : Run s0) {n : Nat} (w : Nat) (x : L2Slot) (i : Nat) (arm : r.1.unarmed n 5) :
    r.l2Write n w x i false = r.setL2Slot (l2Key n x.line w) (some x) := by
  have takes : r.armTake (dieOf n) (n % 16 * 8 + 5) = (r, none) := by
    rw [Run.armTake, if_neg]
    simpa [Run.on, Run.fld] using arm
  simp only [Run.l2Write, takes, mkFlip, Bool.false_eq_true, if_false, Option.isSome_none, Bool.or_false]

/-- A line that an L2 finds is the slot's. -/
theorem Run.l2Find_line (r : Run s0) {n w : Nat} {l : LineAddr} {x : L2Slot} (find : r.l2Find n l = some (w, x)) : x.line = l := by
  obtain ⟨v, -, hv⟩ := List.exists_of_findSome?_eq_some find
  split at hv
  · split at hv
    next c =>
      cases hv
      exact c.1
    · cases hv
  · cases hv

/-- A slot of an L2 with the bytes of a store in it. -/
def L2Slot.stored (x : L2Slot) (data : LineData) (mask : BitVec 64) : L2Slot := { x with st := .M, data := mergeBytes x.data data mask }

/-- A store to a line that the L2 owns writes its bytes into the slot; beside it only the hart that may have reserved the line changes. -/
theorem Run.l2Store_hit (r : Run s0) {n h w : Nat} {l : LineAddr} {x : L2Slot} (hn : n < 256) (find : r.l2Find n l = some (w, x))
    (clean : x.poison = false) (arm : r.1.unarmed n 5) (enabled : r.1.fld (L2CTL_STATUS_CACHE_DISABLE_PENDING n) = 0)
    (own : ∀ e ∈ r.1.harts, e.1 ≠ h → e.2.resv ≠ some l) (data : LineData) (mask : BitVec 64) :
    r.1.accessed h (r.l2Store n l data mask false false).1 ∧ (r.l2Store n l data mask false false).1.xs = r.1.xs ∧
      (r.l2Store n l data mask false false).1.l2Slot (l2Key n l w) = some (x.stored data mask) := by
  obtain ⟨⟨hs, ps, lost⟩, acc⟩ := r.loseResv_own own
  obtain ⟨rs, i, d, copies, same⟩ := (r.loseResv l).l1Store_only n l mask
  set q := (r.loseResv l).l1Store n l mask with hq
  have die : dieOf n < 16 := by
    rw [dieOf]
    omega
  have kept : ∀ f : FRef, f.reg.off ≠ (ARR_FLIP (dieOf n) (n % 16 * 8 + 2)).off → q.1.fld f = r.1.fld f := fun f hf => by
    simp only [State.fld, State.reg, Sparse.get, copies, same _ hf, lost]
  have apart := ARR_FLIP_apart (a := 5) (b := 2) hn (by decide) (by decide)
  have arm : q.1.unarmed n 5 := (kept (ARR_FLIP_ARM _ _) apart.1).trans arm
  have enabled : q.on (L2CTL_STATUS_CACHE_DISABLE_PENDING n) = false := by
    rw [Run.on, Run.fld, kept _ apart.2, enabled]
    rfl
  have online : ∀ k < 16, q.1.online k = r.1.online k := fun k hk => by
    rw [State.online, State.online, kept (RLINK_STAT_STATE k) (noLink_ARR_FLIP die _ k hk)]
  have stores : r.l2Store n l data mask false false = q.setL2Slot (l2Key n l w) (some (x.stored data mask)) := by
    simp only [Run.l2Store, find, clean, ← hq, enabled, Run.l2Write_unarmed q w _ _ arm, Run.l2Find_line r find, L2Slot.stored,
      Bool.not_false, Bool.or_self, Bool.false_and, Bool.false_eq_true, if_false]
  rw [stores]
  set z := q.setL2Slot (l2Key n l w) (some (x.stored data mask)) with hz
  have only : z.1 = { (r.loseResv l).1 with regs := rs, l1i := i, l1d := d, l2 := z.1.l2 } := by
    rw [hz, Run.setL2Slot, Run.act_val, copies]
    rfl
  refine ⟨acc.trans ⟨?_, ?_, ?_, ?_, ?_, fun k hk => ?_, ?_, fun k hk => .inr ?_⟩, ?_, ?_⟩
  case refine_6 => exact (online k hk).trans (acc.online k hk).symm
  case refine_8 =>
    rw [only] at hk
    exact hk
  case refine_9 => rw [only, lost]
  case refine_10 => simp [hz, Run.setL2Slot, State.l2Slot]
  case refine_7 =>
    rw [only]
    rfl
  all_goals rw [only]

/-- The L2 is read for a line that hits: no error is found. -/
theorem Run.l2Look_hit (r : Run s0) {n w : Nat} {l : LineAddr} {x : L2Slot} (hit : r.1.l2Hit n l w x) : r.l2Look n l = r := by
  obtain ⟨find, sound, tags, -⟩ := hit
  have find : r.l2Find n l = some (w, x) := find
  have tagged : r.l2TagCheck n l = r := by
    unfold Run.l2TagCheck
    refine List.foldlRecOn (motive := (· = r)) _ _ rfl fun q hq v hv => ?_
    subst hq
    split
    · rfl
    next y hy => simp [tags v (List.mem_range.1 hv) y hy]
  simp only [Run.l2Look, tagged, Run.l2Check, find, sound]

/-! ### The three accesses of a line that hits -/

/-- The want of a hart is done in one pass that leaves nothing to do. -/
theorem Run.go_hart (r : Run s0) {q : Run s0} {h : Nat} (step : r.doHart h = (q, [])) : r.go [.hart h] = q := by
  have bound : driveBound = 19998 + 1 + 1 := rfl
  rw [Run.go, bound, Run.drive]
  simp only [step, List.append_nil, Run.drive]

/-- The L2 holds a line with the permission to write it, where its state is not a shared one. -/
theorem Run.l2Has_owned (r : Run s0) {n w : Nat} {l : LineAddr} {x : L2Slot} (hit : r.1.l2Hit n l w x) (notS : x.st ≠ .S) (notO : x.st ≠ .O) :
    r.l2Has n l true = true := by
  have valid := r.l2Has_hit hit
  have find : r.l2Find n l = some (w, x) := hit.1
  simp only [Run.l2Has, Run.l2St, find, Option.map_some, Option.getD_some] at valid ⊢
  cases st : x.st <;> simp_all

/-- What an AMO or SC of a line that hits does before it retires: a value enters the line, rd is written, and its hart's access goes on as f says. -/
def Run.stores (r : Run s0) (n h w : Nat) (p : Part) (new : BitVec 128) (rd : Fin 32) (v : Word) (f : Hart → Hart) : Run s0 :=
  (((r.l2Touch n p.line w).l2Store n p.line (lineBytes p.off p.len new.toNat) (spanMask p.off p.len) false false).setXr h rd v).modHart h f

theorem Run.stores_leaves (r : Run s0) {h : Fin 1024} {w : Nat} {p : Part} {x : L2Slot} (new : BitVec 128) (rd : Fin 32) (v : Word) {f : Hart → Hart}
    (turn : ∀ t : Hart, t.accessed (f t)) (hit : r.1.l2Hit (tileOf h) p.line w x) (clean : x.poison = false) (arm : r.1.unarmed (tileOf h) 5)
    (enabled : r.1.fld (L2CTL_STATUS_CACHE_DISABLE_PENDING (tileOf h)) = 0) (own : ∀ e ∈ r.1.harts, e.1 ≠ h → e.2.resv ≠ some p.line) :
    r.1.accessed h (r.stores (tileOf h) h w p new rd v f).1 ∧ (∃ t, (r.stores (tileOf h) h w p new rd v f).1.hart h = f t) ∧
      (rd ≠ 0 → (r.stores (tileOf h) h w p new rd v f).xr h rd = v) ∧
      (r.stores (tileOf h) h w p new rd v f).1.l2Slot (l2Key (tileOf h) p.line w) = some (x.stored (lineBytes p.off p.len new.toNat) (spanMask p.off p.len)) := by
  have tile : tileOf h < 256 := by
    rw [tileOf]
    omega
  unfold Run.stores
  obtain ⟨acc, -, slot⟩ := (r.l2Touch (tileOf h) p.line w).l2Store_hit (h := h) tile hit.1 clean arm enabled own
    (lineBytes p.off p.len new.toNat) (spanMask p.off p.len)
  generalize (r.l2Touch (tileOf h) p.line w).l2Store (tileOf h) p.line (lineBytes p.off p.len new.toNat) (spanMask p.off p.len) false false = q
    at acc slot ⊢
  have turned := (q.setXr h rd v).accessed_modHart h (turn ((q.setXr h rd v).1.hart h))
  refine ⟨(r.accessed_l2Touch _ _ w h).trans (acc.trans ((q.accessed_setXr h rd v).trans turned)), ⟨(q.setXr h rd v).1.hart h, ?_⟩, fun rd0 => ?_, ?_⟩
  · rw [Run.modHart, Run.hart_setHart, if_pos rfl]
    rfl
  · exact q.xr_setXr h rd v fun zero => rd0 (Fin.ext zero)
  · exact (q.l2Slot_setXr h rd v _).trans slot

theorem Run.go_amo_hit (r : Run s0) {h w : Nat} {a : Acc} {p : Part} {x : L2Slot} {rd : Fin 32} {op : AmoOp} {y z : BitVec 128}
    (is : a.op = .amo rd op y z) (size : a.lg < 4) (parts : a.parts = [p]) (wait : (r.hart h).wait = some (.line a))
    (hit : r.1.l2Hit (tileOf h) p.line w x) (notS : x.st ≠ .S) (notO : x.st ≠ .O) (clean : x.poison = false) :
    r.go [.hart h] = (r.stores (tileOf h) h w p (amoResult op a.lg (gather 0 0 p x.data) y z) rd (extend (gather 0 0 p x.data) a.lg false)
      fun t => t.told 0x50).retire h := by
  have find : r.l2Find (tileOf h) p.line = some (w, x) := hit.1
  have writes : ∀ q : Run s0, q.writeAmo h rd a.lg (gather 0 0 p x.data) = q.setXr h rd (extend (gather 0 0 p x.data) a.lg false) := fun q => by
    rw [Run.writeAmo, if_neg size.ne]
  refine r.go_hart ?_
  simp only [Run.doHart, wait, parts, is, MemOp.owns, Bool.not_true, Bool.and_false, Bool.false_eq_true, if_false, r.l2Has_owned hit notS notO,
    if_true, Run.perform, r.l1dCheck_hit hit, r.l2Look_hit hit, find, clean, writes]
  rfl

theorem Run.go_sc_hit (r : Run s0) {h w : Nat} {a : Acc} {p : Part} {x : L2Slot} {rd : Fin 32} {v : BitVec 128}
    (is : a.op = .sc rd v) (parts : a.parts = [p]) (wait : (r.hart h).wait = some (.line a)) (held : (r.hart h).resv = some p.line)
    (hit : r.1.l2Hit (tileOf h) p.line w x) (notS : x.st ≠ .S) (notO : x.st ≠ .O) :
    r.go [.hart h] = (r.stores (tileOf h) h w p v rd 0 fun t => { t with resv := none, lrDelay := none }).retire h := by
  have find : r.l2Find (tileOf h) p.line = some (w, x) := hit.1
  have touched : ((r.l2Touch (tileOf h) p.line w).hart h).resv = some p.line := held
  refine r.go_hart ?_
  simp only [Run.doHart, wait, parts, is, held, MemOp.owns, Bool.not_true, Bool.and_false, Bool.false_eq_true, if_false,
    r.l2Has_owned hit notS notO, if_true, Run.perform, r.l1dCheck_hit hit, r.l2Look_hit hit, find, touched, Run.stores]

/-- An LR of a line that hits reads it and reserves it. -/
theorem Run.go_lr_hit (r : Run s0) {h w : Nat} {a : Acc} {p : Part} {x : L2Slot} {rd : Fin 32} (is : a.op = .lr rd) (parts : a.parts = [p])
    (wait : (r.hart h).wait = some (.line a)) (hit : r.1.l2Hit (tileOf h) p.line w x) (clean : x.poison = false) :
    ∃ q : Run s0, r.1.usesOnly q.1 ∧
      r.go [.hart h] = ((q.setXr h rd (extend (gather a.got a.fwd p x.data) a.lg false)).reserve h p.line).retire h := by
  obtain ⟨find, -, -, v, -, l1, -⟩ := id hit
  have find : r.l2Find (tileOf h) p.line = some (w, x) := find
  have held : (r.l1dFind (tileOf h) p.line).isSome = true := Option.isSome_of_mem l1
  have touched : ((r.l2Touch (tileOf h) p.line w).l1dFind (tileOf h) p.line).isSome = true := held
  refine ⟨(r.l2Touch (tileOf h) p.line w).l1Fill (tileOf h) p.line false, ?_, r.go_hart ?_⟩
  · rw [State.usesOnly, Run.l1Fill_held _ touched]
    rfl
  · simp only [Run.doHart, wait, parts, is, MemOp.owns, Bool.not_true, Bool.not_false, Bool.and_false, Bool.and_self, Bool.false_eq_true, if_false,
      r.l2Has_hit hit, if_true, Run.perform, r.l1dCheck_hit hit, held, find, clean, Bool.false_and, Run.finishAcc]

theorem Run.reserves (r : Run s0) (h : Nat) (rd : Fin 32) (v : Word) (l : LineAddr) :
    r.1.accessed h ((r.setXr h rd v).reserve h l).1 ∧ (rd ≠ 0 → ((r.setXr h rd v).reserve h l).xr h rd = v) ∧
      (((r.setXr h rd v).reserve h l).1.hart h).resv = some l ∧ (((r.setXr h rd v).reserve h l).1.hart h).lrDelay = some l := by
  have turned := (r.setXr h rd v).accessed_modHart h (f := fun t => { t with resv := some l, lrDelay := some l }) rfl
  refine ⟨(r.accessed_setXr h rd v).trans turned, fun rd0 => ?_, ?_, ?_⟩
  · exact r.xr_setXr h rd v fun zero => rd0 (Fin.ext zero)
  · simp [Run.reserve, Run.modHart]
  · simp [Run.reserve, Run.modHart]

/-! ### The three instructions -/

/-- Beside a hart whose own entry has been written, the harts are those of before. -/
theorem Run.others_modHart (r : Run s0) {h : Nat} {P : Hart → Prop} (f : Hart → Hart) (all : ∀ e ∈ r.1.harts, e.1 ≠ h → P e.2) :
    ∀ e ∈ (r.modHart h f).1.harts, e.1 ≠ h → P e.2 := by
  intro e he other
  have he : e ∈ r.1.harts.upd h (listed {} (f (r.hart h))) := he
  unfold Sparse.upd at he
  split at he
  · rcases Sparse.mem_put he with own | before
    · exact absurd (congrArg Prod.fst own) other
    · exact all e before other
  · exact all e (Sparse.mem_del he) other

/-- A hart waits for a line that its instruction accesses. -/
def Run.awaitLine (r : Run s0) (h : Nat) (a : Acc) : Run s0 := r.modHart h fun t => { t with wait := some (.line a) }

theorem Run.awaitLine_leaves (r : Run s0) (h : Nat) (a : Acc) :
    r.1.accessed h (r.awaitLine h a).1 ∧ (r.awaitLine h a).hart h = { r.hart h with wait := some (.line a) } := by
  refine ⟨r.accessed_modHart h rfl, ?_⟩
  rw [Run.hart, Run.awaitLine, Run.modHart, Run.hart_setHart, if_pos rfl]

theorem Run.awaitLine_hit (r : Run s0) (h : Nat) (a : Acc) {n w : Nat} {l : LineAddr} {x : L2Slot} (hit : r.1.l2Hit n l w x) :
    (r.awaitLine h a).1.l2Hit n l w x := State.l2Hit_of hit rfl rfl

theorem Run.awaitLine_others (r : Run s0) {h : Nat} {l : LineAddr} (a : Acc) (own : ∀ e ∈ r.1.harts, e.1 ≠ h → e.2.resv ≠ some l) :
    ∀ e ∈ (r.awaitLine h a).1.harts, e.1 ≠ h → e.2.resv ≠ some l :=
  r.others_modHart (P := fun t => t.resv ≠ some l) _ own

/-- A hart with no store left waits for its line and goes on at once. -/
theorem Run.after_line (r : Run s0) (h : Nat) (ls : Option (List LineAddr)) (a : Acc) (d : r.1.drained h) :
    r.after h ls (.line a) = (r.awaitLine h a).go [.hart h] := r.after_drained h ls _ d

/-- An AMO of at most eight bytes of memory, which its hart does not hand to the home, waits for its line. -/
theorem execAmo_line {h : Fin 1024} {op : AmoOp} {lg : Fin 5} {rd rs1 rs2 : Fin 32} {aq : Bool} {pa : Nat} {s : State} (free : s.free_ h)
    (drained : s.drained h) (size : lg.val < 4) (within : ((Run.start s).xr h rs1).toNat % 16 + 2 ^ lg.val ≤ 16)
    (translates : (Run.start s).translate h .store ((Run.start s).effective h false).1 ((Run.start s).effective h false).2 false false
      (amoTinst (amoFunct op) lg rd rs2 aq false) ((Run.start s).xr h rs1) (2 ^ lg.val) = (Run.start s, .ok pa 0))
    (mem : (regionOf pa).device = false) (near : (Run.start s).homePath h pa (2 ^ lg.val) = false) :
    let a : Acc := { op := .amo rd op ((Run.start s).xPair h rs2 lg) ((Run.start s).xPair h rd lg), lg := lg,
                     parts := [{ line := BitVec.ofNat 46 (pa / 64), off := pa % 64, len := 2 ^ lg.val, pos := 0 }], va := (Run.start s).xr h rs1 }
    exec (.amo h op lg rd rs1 rs2 aq false) s = (((Run.start s).awaitLine h a).go [.hart h]).done := by
  obtain ⟨-, ⟨-, -, -, -, -, unwatched⟩, ready⟩ := free
  have narrow : lg ≠ 4 := fun e => by simp [e] at size
  have noTrig := fun k n => (Run.start s).trigHit_unwatched h k ((Run.start s).xr h rs1).toNat n unwatched
  intro a
  show execAmo h op lg rd rs1 rs2 aq false s = _
  rw [← (Run.start s).after_line h (some [BitVec.ofNat 46 (pa / 64)]) a drained]
  simp [execAmo, ready, narrow, noTrig, Nat.not_lt.2 within, translates, PPart.atomic, PPart.dev, mem, near, PPart.part, a]

/-- An LR whose translation gives memory begins to read. -/
theorem execLr_line {h : Fin 1024} {lg : Fin 4} {rd rs1 : Fin 32} {aq : Bool} {pa : Nat} {s : State} (free : s.free_ h) (drained : s.drained h)
    (size : 2 ≤ lg.val) (aligned : ((Run.start s).xr h rs1).toNat % 2 ^ lg.val = 0)
    (translates : (Run.start s).translate h .load ((Run.start s).effective h false).1 ((Run.start s).effective h false).2 false false
      (amoTinst 2 lg rd 0 aq false) ((Run.start s).xr h rs1) (2 ^ lg.val) = (Run.start s, .ok pa 0)) (mem : (regionOf pa).device = false) :
    let a : Acc := { op := .lr rd, lg := lg, parts := [{ line := BitVec.ofNat 46 (pa / 64), off := pa % 64, len := 2 ^ lg.val, pos := 0 }], got := 0, fwd := 0,
                     va := (Run.start s).xr h rs1 }
    exec (.lr h lg rd rs1 aq false) s = (((Run.start s).awaitLine h a).go [.hart h]).done := by
  obtain ⟨-, ⟨-, -, -, -, -, unwatched⟩, ready⟩ := free
  have noTrig := fun k n => (Run.start s).trigHit_unwatched h k ((Run.start s).xr h rs1).toNat n unwatched
  have forward := fun p => (Run.start s).forward_drained h p drained
  intro a
  show execLr h lg rd rs1 aq false s = _
  simp [execLr, ready, Nat.not_lt.2 size, noTrig, aligned, translates, PPart.atomic, PPart.dev, mem, PPart.part, Run.beginRead, forward, Run.awaitLine, a]

/-- An SC whose translation gives memory, for a hart that delays no snoop, waits for its line. -/
theorem execSc_line {h : Fin 1024} {lg : Fin 4} {rd rs1 rs2 : Fin 32} {aq : Bool} {pa : Nat} {s : State} (free : s.free_ h) (drained : s.drained h)
    (size : 2 ≤ lg.val) (aligned : ((Run.start s).xr h rs1).toNat % 2 ^ lg.val = 0)
    (translates : (Run.start s).translate h .store ((Run.start s).effective h false).1 ((Run.start s).effective h false).2 false false
      (amoTinst 3 lg rd rs2 aq false) ((Run.start s).xr h rs1) (2 ^ lg.val) = (Run.start s, .ok pa 0)) (mem : (regionOf pa).device = false)
    (calm : (s.hart h).lrDelay = none) :
    let a : Acc := { op := .sc rd (((Run.start s).xr h rs2).zeroExtend 128), lg := lg,
                     parts := [{ line := BitVec.ofNat 46 (pa / 64), off := pa % 64, len := 2 ^ lg.val, pos := 0 }], va := (Run.start s).xr h rs1 }
    exec (.sc h lg rd rs1 rs2 aq false) s = ((((Run.start s).modHart h fun t => { t with lrDelay := none }).awaitLine h a).go [.hart h]).done := by
  obtain ⟨-, ⟨-, -, -, -, -, unwatched⟩, ready⟩ := free
  obtain ⟨smb, sq, ncOut⟩ := drained
  have noTrig := fun k n => (Run.start s).trigHit_unwatched h k ((Run.start s).xr h rs1).toNat n unwatched
  have calm : ((Run.start s).hart h).lrDelay = none := calm
  intro a
  have drained : ((Run.start s).modHart h fun t => { t with lrDelay := none }).1.drained h := by
    refine ⟨smb, sq, ?_⟩
    simp [Run.modHart, Run.hart, ncOut]
  show execSc h lg rd rs1 rs2 aq false s = _
  rw [← Run.after_line _ h (some [BitVec.ofNat 46 (pa / 64)]) a drained]
  simp [execSc, ready, Nat.not_lt.2 size, noTrig, aligned, translates, PPart.atomic, PPart.dev, mem, calm, PPart.part, a]

/-- What an access that retires leaves, by what it has left before. -/
theorem State.accessed.retires {q : Run s} {k : Nat} {y : Option L2Slot} {rd : Fin 32} {v : Word} (c : s.accessed h q.1) (still : s.still) (u : s.undisturbed h)
    (value : rd ≠ 0 → q.xr h rd = v) (slot : q.1.l2Slot k = y) :
    ∃ t, (q.retire h).done = .next t ∧ (t.hart h).pc = (s.hart h).pc + 4 ∧ (t.hart h).resv = (q.1.hart h).resv ∧
      (t.hart h).lrDelay = (q.1.hart h).lrDelay ∧ (rd ≠ 0 → (Run.start t).xr h rd = v) ∧ t.l2Slot k = y := by
  obtain ⟨-, -, -, -, -, unwatched⟩ := c.undisturbed u
  obtain ⟨-, -, -, l2, -⟩ := q.retire_frame h unwatched
  obtain ⟨ends, pc, resv, delay⟩ := c.done_retire still u
  refine ⟨_, ends, pc, resv, delay, fun rd0 => (q.xr_retire h rd unwatched).trans (value rd0), ?_⟩
  rw [← slot]
  exact congrArg (fun m => Sparse.find? m k) l2

/-- Settles O8: each of the three waits for its line, which hits, and is performed and retires; nothing that it changes beside its hart's access is
looked at as the command ends. -/
theorem atomicsComplete : Obligations.AtomicsComplete := by
  unfold Obligations.AtomicsComplete
  refine ⟨?_, ?_, ?_⟩
  · intro h op lg rd rs1 rs2 aq w pa x s free drained size within translates mem near hit notS notO clean arm enabled noResv p old
    obtain ⟨still, undisturbed, -⟩ := id free
    rw [execAmo_line free drained size within translates mem near]
    set a : Acc := { op := .amo rd op ((Run.start s).xPair h rs2 lg) ((Run.start s).xPair h rd lg), lg := lg, parts := [p], va := (Run.start s).xr h rs1 }
    obtain ⟨acc, waits⟩ := (Run.start s).awaitLine_leaves h a
    have hit := (Run.start s).awaitLine_hit h a hit
    have own := (Run.start s).awaitLine_others (h := h) (l := p.line) a fun e he _ => noResv e he
    set r := (Run.start s).awaitLine h a with hr
    have arm : r.1.unarmed (tileOf h) 5 := arm
    have enabled : r.1.fld (L2CTL_STATUS_CACHE_DISABLE_PENDING (tileOf h)) = 0 := enabled
    clear_value r
    obtain ⟨stored, -, value, slot⟩ := r.stores_leaves (p := p)
      (amoResult op lg old ((Run.start s).xPair h rs2 lg) ((Run.start s).xPair h rd lg)) rd (extend old lg false) (f := fun t => t.told 0x50)
      (fun _ => rfl) hit clean arm enabled own
    obtain ⟨t, ends, pc, -, -, read, line⟩ := (acc.trans stored).retires still undisturbed value slot
    rw [r.go_amo_hit (a := a) (p := p) rfl size rfl (congrArg Hart.wait waits) hit notS notO clean]
    exact ⟨t, ends, pc, read, line⟩
  · intro h lg rd rs1 aq w pa x s free drained size aligned translates mem hit clean
    obtain ⟨still, undisturbed, -⟩ := id free
    rw [execLr_line free drained size aligned translates mem]
    set p : Part := { line := BitVec.ofNat 46 (pa / 64), off := pa % 64, len := 2 ^ lg.val, pos := 0 }
    set a : Acc := { op := .lr rd, lg := lg, parts := [p], got := 0, fwd := 0, va := (Run.start s).xr h rs1 }
    obtain ⟨acc, waits⟩ := (Run.start s).awaitLine_leaves h a
    have hit := (Run.start s).awaitLine_hit h a hit
    set r := (Run.start s).awaitLine h a with hr
    clear_value r
    obtain ⟨q, uses, goes⟩ := r.go_lr_hit (a := a) (p := p) rfl rfl (congrArg Hart.wait waits) hit clean
    obtain ⟨read, value, resv, delay⟩ := q.reserves h rd (extend (gather 0 0 p x.data) lg false) p.line
    obtain ⟨t, ends, pc, kept, delays, read, -⟩ := (acc.trans ((uses.accessed h).trans read)).retires (k := 0) still undisturbed value rfl
    rw [goes]
    exact ⟨t, ends, pc, kept.trans resv, delays.trans delay, read⟩
  · intro h lg rd rs1 rs2 aq w pa x s free drained size aligned translates mem hit notS notO clean arm enabled held calm noResv
    obtain ⟨still, undisturbed, -⟩ := id free
    rw [execSc_line free drained size aligned translates mem calm]
    set p : Part := { line := BitVec.ofNat 46 (pa / 64), off := pa % 64, len := 2 ^ lg.val, pos := 0 }
    set a : Acc := { op := .sc rd (((Run.start s).xr h rs2).zeroExtend 128), lg := lg, parts := [p], va := (Run.start s).xr h rs1 }
    have ended := (Run.start s).accessed_modHart h (f := fun t => { t with lrDelay := none }) rfl
    have held : (((Run.start s).modHart h fun t => { t with lrDelay := none }).hart h).resv = some p.line := by
      simpa [Run.hart, Run.modHart] using held
    have own := (Run.start s).others_modHart (h := h) (P := fun t => t.resv ≠ some p.line) (fun t => { t with lrDelay := none }) noResv
    have hit : ((Run.start s).modHart h fun t => { t with lrDelay := none }).1.l2Hit (tileOf h) p.line w x := State.l2Hit_of hit rfl rfl
    set r' := (Run.start s).modHart h fun t => { t with lrDelay := none } with hr'
    obtain ⟨acc, waits⟩ := r'.awaitLine_leaves h a
    have hit := r'.awaitLine_hit h a hit
    have own := r'.awaitLine_others a own
    set r := r'.awaitLine h a with hr
    have arm : r.1.unarmed (tileOf h) 5 := arm
    have enabled : r.1.fld (L2CTL_STATUS_CACHE_DISABLE_PENDING (tileOf h)) = 0 := enabled
    clear_value r r'
    obtain ⟨stored, ⟨_, gone⟩, value, slot⟩ := r.stores_leaves (p := p) (((Run.start s).xr h rs2).zeroExtend 128) rd 0
      (f := fun t => { t with resv := none, lrDelay := none }) (fun _ => rfl) hit clean arm enabled own
    obtain ⟨t, ends, pc, resv, -, read, line⟩ := ((ended.trans acc).trans stored).retires still undisturbed value slot
    have whole : (((Run.start s).xr h rs2).zeroExtend 128).toNat = ((Run.start s).xr h rs2).toNat :=
      BitVec.toNat_setWidth_of_le (by omega)
    rw [whole] at line
    rw [r.go_sc_hit (a := a) (p := p) rfl rfl (congrArg Hart.wait waits) (by rw [waits]; exact held) hit notS notO]
    exact ⟨t, ends, pc, resv.trans (congrArg Hart.resv gone), read, line⟩

end Sys2Proof.Machine

/-! Writes of interrupt identities to the page of a file (R69, R70). -/
namespace Sys2Proof.Machine

variable {s0 : State}

/-! ### The page of a file -/

/-- The die, the tile and the rest that an offset of a tile's space names (R5). -/
theorem tileBase_add {n x : Nat} (hx : x < 2 ^ 24) :
    (tileBase n + x) / 2 ^ 32 = n / 16 ∧ (tileBase n + x) % 2 ^ 32 = n % 16 * 2 ^ 24 + x ∧ (tileBase n + x) % 2 ^ 24 = x := by
  rw [tileBase]
  omega

/-- Where the page of a file lies in the space of its hart's tile (R69). -/
def fileSpan (h f : Nat) : Nat := if f = 0 then 0x200000 + h % 4 * 0x1000 else 0x280000 + h % 4 * 0x8000 + (f - 1) * 0x1000

theorem filePage_eq (h f : Nat) : filePage h f = tileBase (tileOf h) + fileSpan h f := by
  unfold filePage fileSpan tileOf
  split <;> omega

theorem fileSpan_place (h : Nat) (f : Fin 6) : fileSpan h f % 4096 = 0 ∧
    (f.val = 0 ∧ 0x200000 ≤ fileSpan h f ∧ fileSpan h f < 0x204000 ∨ f.val ≠ 0 ∧ 0x280000 ≤ fileSpan h f ∧ fileSpan h f < 0x2A0000) := by
  unfold fileSpan
  split <;> omega

/-- The page of a file names its hart and file, at either of its two words. -/
theorem imsicPage_filePage (h : Fin 1024) (f : Fin 6) {c : Nat} (hc : c < 8) : imsicPage (filePage h f + c) = some (h.val, f.val) := by
  obtain ⟨page, place⟩ := fileSpan_place h f
  obtain ⟨die, tile, rest⟩ := tileBase_add (n := tileOf h) (x := fileSpan h f + c) (by omega)
  have tile : (tileBase (tileOf h) + (fileSpan h f + c)) % 2 ^ 32 / 2 ^ 24 = tileOf h % 16 := by omega
  have low : ¬ (2 ^ 36 ≤ tileBase (tileOf h) + (fileSpan h f + c) ∨ 16 ≤ tileOf h % 16) := by
    rw [tileOf] at die ⊢
    omega
  have hart : (tileOf h / 16 * 16 + tileOf h % 16) * 4 + h % 4 = h := by
    rw [tileOf]
    omega
  rw [filePage_eq, Nat.add_assoc, imsicPage]
  simp only [die, tile, rest, if_neg low]
  by_cases machine : f.val = 0
  · simp only [fileSpan, machine, if_true] at place ⊢
    rw [if_pos (by omega)]
    congr 2
    omega
  · simp only [fileSpan, if_neg machine] at place ⊢
    rw [if_neg (by omega), if_pos (by omega)]
    congr 2 <;> omega

theorem filePage_place (h : Fin 1024) (f : Fin 6) : filePage h f % 4096 = 0 ∧ filePage h f + 8 ≤ 2 ^ 36 ∧
    ∀ c < 8, (filePage h f + c) / 2 ^ 32 = dieOf (tileOf h) := by
  obtain ⟨page, place⟩ := fileSpan_place h f
  rw [filePage_eq]
  have tile : tileBase (tileOf h) % 4096 = 0 := by
    rw [tileBase]
    omega
  obtain ⟨die, -, -⟩ := tileBase_add (n := tileOf h) (x := fileSpan h f + 7) (by omega)
  refine ⟨by omega, ?_, fun c hc => ?_⟩
  · rw [tileOf] at die ⊢
    omega
  · rw [Nat.add_assoc]
    exact (tileBase_add (by omega)).1

theorem decoded_filePage (h : Fin 1024) (f : Fin 6) {c : Nat} (hc : c < 8) : decoded (filePage h f + c) = true := by
  obtain ⟨-, top, -⟩ := filePage_place h f
  obtain ⟨page, place⟩ := fileSpan_place h f
  obtain ⟨-, tile, rest⟩ := tileBase_add (n := tileOf h) (x := fileSpan h f + c) (by omega)
  have rest : (tileBase (tileOf h) + (fileSpan h f + c)) % 2 ^ 32 % 2 ^ 24 = fileSpan h f + c := by omega
  rw [filePage_eq, Nat.add_assoc] at *
  unfold decoded
  simp only
  rw [if_pos (by omega), if_pos (by omega), rest]
  simp only [Bool.or_eq_true, Bool.and_eq_true, decide_eq_true_eq]
  omega

/-- The bytes of an identity, at the word of their order, name it (R70). -/
theorem msiId_msiBytes (h : Fin 1024) (f : Fin 6) (big : Bool) (n : BitVec 11) :
    msiId (filePage h f + if big then 4 else 0) (msiBytes big n.toNat).toNat = n.toNat := by
  obtain ⟨page, -⟩ := filePage_place h f
  have small := n.isLt
  cases big
  · simp only [Bool.false_eq_true, if_false, msiId, msiBytes]
    rw [if_neg (by omega), BitVec.toNat_ofNat]
    omega
  · have swap : swap32 n.toNat = n.toNat % 256 * 2 ^ 24 + n.toNat / 256 * 2 ^ 16 := by
      rw [swap32]
      omega
    simp only [if_true, msiId, msiBytes, swap, BitVec.toNat_ofNat]
    rw [if_pos (by omega)]
    have low : n.toNat % 256 < 256 := Nat.mod_lt _ (by decide)
    have high : n.toNat / 256 < 8 := by omega
    conv_rhs => rw [← Nat.mod_add_div n.toNat 256]
    generalize n.toNat % 256 = a at low ⊢
    generalize n.toNat / 256 = b at high ⊢
    omega

/-! ### The write -/

/-- A 32-bit write to the page of a file is an interrupt write to it (R70, R338). -/
theorem Run.msiDst_filePage (r : Run s0) (h : Fin 1024) (f : Fin 6) (big : Bool) :
    r.msiDst (0xFFF0000000000 + (filePage h f + if big then 4 else 0)) = some (.file h f) := by
  obtain ⟨page, top, -⟩ := filePage_place h f
  have word : (if big then 4 else 0) = 0 ∨ (if big then 4 else 0) = 4 := by cases big <;> decide
  generalize (if big then 4 else 0) = c at word
  have window : regionOf (0xFFF0000000000 + (filePage h f + c)) = .window := by
    unfold regionOf
    rw [if_neg (by omega), if_neg (by omega), if_neg (by omega), if_neg (by omega), if_pos (by omega)]
  have names := imsicPage_filePage h f (c := c) (by omega)
  have off : 0xFFF0000000000 + (filePage h f + c) - 0xFFF0000000000 = filePage h f + c := by omega
  simp only [Run.msiDst, window, off, names]
  rw [if_neg (by simp only [ne_eq, not_true, false_or, not_not]; omega), if_pos (by omega)]
  rfl

/-- A 32-bit write to the page of a file of a hart whose die is online is the requester's interrupt write. -/
theorem Run.regStore_filePage (r : Run s0) (q : Requester) (h : Fin 1024) (f : Fin 6) (big : Bool) (v : Nat)
    (on : r.online (dieOf (tileOf h)) = true) :
    (r.regStore q (filePage h f + if big then 4 else 0) 4 v).1 = r.msiBy q h f (msiId (filePage h f + if big then 4 else 0) v) := by
  have word : (if big then 4 else 0) < 8 := by cases big <;> decide
  obtain ⟨page, top, die⟩ := filePage_place h f
  have low : ¬ 0x4000000000 ≤ filePage h f + if big then 4 else 0 := by omega
  have msi := r.msiDst_filePage h f big
  have dec := decoded_filePage h f word
  have names := imsicPage_filePage h f word
  have answers : ∀ q, r.dieAnswers ((filePage h f + if big then 4 else 0) / 2 ^ 32) q = true := fun q => by
    simp only [Run.dieAnswers, die _ word, on, Bool.true_or]
  generalize (filePage h f + if big then 4 else 0) = o at *
  cases q <;> simp only [Run.regStore, msi, answers, low, dec, names, Run.msiWrite, if_true, if_false, Bool.not_true, and_false, Bool.false_eq_true,
    Option.isSome_some]

/-- An identity that is not kept from the requester becomes pending, and the hart is to be looked at again. -/
theorem Run.msiTo_pends (r : Run s0) (secure : Bool) (die who h f i : Nat) (here : i ≠ 0 ∧ i < 2048) (on : r.online (dieOf (tileOf h)) = true)
    (may : r.idReserved i = false ∨ secure = true) :
    r.msiTo secure die who h f i = (r.modFile (h * 8 + f) fun x => { x with pend := x.pend ||| (1#2048 <<< i) }).pokeHart h := by
  have clear : (!secure && r.idReserved i) = false := by rcases may with e | e <;> simp [e]
  simp only [Run.msiTo, clear, on, if_true, Bool.false_eq_true, if_false]
  rw [Run.setPending, if_neg (by omega)]

/-- A requester's interrupt write uses a free value at most before it reaches the file. -/
theorem Run.msiBy_pends (r : Run s0) (q : Requester) (h f i : Nat) (here : i ≠ 0 ∧ i < 2048) (on : r.online (dieOf (tileOf h)) = true)
    (may : r.idReserved i = false ∨ r.secure q = true) :
    ∃ u : Run s0, (∃ n, u.1 = { r.1 with free := n }) ∧
      r.msiBy q h f i = (u.modFile (h * 8 + f) fun x => { x with pend := x.pend ||| (1#2048 <<< i) }).pokeHart h := by
  cases q with
  | hart | group | phlox => exact ⟨r, ⟨_, rfl⟩, r.msiTo_pends _ _ _ h f i here on may⟩
  | lark | fox | peer => exact ⟨r.fresh.1, ⟨_, rfl⟩, r.fresh.1.msiTo_pends _ 16 (r.fresh.2.toNat % 65536) h f i here on may⟩

/-- A write of an identity to the page of a file makes it pending there and changes nothing else that lasts, where nothing waits for the hart. -/
theorem imsicSetPending_pends (q : Requester) (h : Fin 1024) (f : Fin 6) (big : Bool) (n : BitVec 11) (s : State) (still : s.still)
    (idle : s.undisturbed h) (acts : (Run.start s).acts q = true) (named : n ≠ 0) (on : s.online (dieOf (tileOf h)) = true)
    (may : (Run.start s).idReserved n.toNat = false ∨ (Run.start s).secure q = true) :
    ∃ t, exec (.imsicSetPending q (BitVec.ofNat 40 (filePage h f + if big then 4 else 0)) (msiBytes big n.toNat)) s = .next t ∧
      t.file (h * 8 + f) = { s.file (h * 8 + f) with pend := (s.file (h * 8 + f)).pend ||| (1#2048 <<< n.toNat) } ∧ t.harts = s.harts ∧ t.regs = s.regs := by
  obtain ⟨page, top, -⟩ := filePage_place h f
  have word : (if big then 4 else 0) = 0 ∨ (if big then 4 else 0) = 4 := by cases big <;> decide
  have offset : (BitVec.ofNat 40 (filePage h f + if big then 4 else 0)).toNat = filePage h f + if big then 4 else 0 := by
    rw [BitVec.toNat_ofNat]
    omega
  have aligned : (filePage h f + if big then 4 else 0) % 4 = 0 := by omega
  have small : n.toNat ≠ 0 ∧ n.toNat < 2048 := ⟨fun e => named (BitVec.eq_of_toNat_eq e), n.isLt⟩
  obtain ⟨v, ⟨m, fresh⟩, pends⟩ := (Run.start s).msiBy_pends q h f n.toNat small on may
  set u := v.modFile (h * 8 + f) fun x => { x with pend := x.pend ||| (1#2048 <<< n.toNat) } with hu
  obtain ⟨ps, pokes⟩ := u.pokeHart_only h
  have does : exec (.imsicSetPending q (BitVec.ofNat 40 (filePage h f + if big then 4 else 0)) (msiBytes big n.toNat)) s = (u.pokeHart h).done := by
    show execImsicSetPending _ _ _ s = _
    rw [← pends, execImsicSetPending, offset]
    simp only [acts, aligned, BEq.rfl, Bool.and_self, if_true]
    rw [(Run.start s).regStore_filePage q h f big _ on, msiId_msiBytes]
  have only : (u.pokeHart h).1 = { s with imsic := s.imsic.upd (h * 8 + f) (listed {} { s.file (h * 8 + f) with
      pend := (s.file (h * 8 + f)).pend ||| (1#2048 <<< n.toNat) }), free := m, poke := ps } := by
    rw [pokes, hu, Run.modFile, Run.setFile, Run.act_val, Run.file, fresh]
    rfl
  have quiet : ((u.pokeHart h).act (.poke [])).1.still := by
    rw [Run.act_val, only]
    exact State.still_of still still.1 rfl rfl rfl rfl
  have left : (u.pokeHart h).over = { (u.pokeHart h).1 with poke := [] } := rfl
  rw [only] at left
  refine ⟨_, does.trans (Run.done_idle _ quiet fun k hk => ?_), ?_, ?_, ?_⟩
  · rcases Run.mem_pokeHart hk with rfl | before
    · rw [only]
      exact idle
    · rw [show u.1.poke = v.1.poke from rfl, fresh, show (Run.start s).1.poke = [] from still.2.1] at before
      exact absurd before List.not_mem_nil
  · rw [left]
    simp [State.file]
  · rw [left]
  · rw [left]

end Sys2Proof.Machine

/-! A write of RUN starts a held hart (R66, R67, R83). -/
namespace Sys2Proof.Machine

variable {s0 : State}

/-! ### The CSRs of a hart that takes its reset values -/

theorem Sparse.find?_eq_none_of_unlisted {α : Type} {m : Sparse α} {k : Nat} (h : ∀ e ∈ m, e.1 ≠ k) : m.find? k = none := by
  induction m with
  | nil => rfl
  | cons e m ih =>
    obtain ⟨first, rest⟩ := List.forall_mem_cons.1 h
    rw [show Sparse.find? (e :: m) k = if k = e.1 then some e.2 else Sparse.find? m k from rfl, if_neg first.symm, ih rest]

/-- The CSRs of a hart that a list names are unlisted. -/
def Run.unlistCsrs (r : Run s0) (h : Nat) (l : Sparse Word) : Run s0 :=
  l.foldl (fun r p => if p.1 / 4096 = h then r.act (.csrs p.1 none) else r) r

theorem Run.unlistCsrs_only (r : Run s0) (h : Nat) (l : Sparse Word) : ∃ cs, (r.unlistCsrs h l).1 = { r.1 with csrs := cs } := by
  refine List.foldlRecOn (motive := fun q : Run s0 => ∃ cs, q.1 = { r.1 with csrs := cs }) _ _ ⟨_, rfl⟩ fun q ⟨cs, only⟩ e _ => ?_
  split
  · exact ⟨_, by rw [Run.act_val, only]; rfl⟩
  · exact ⟨cs, only⟩

/-- What is unlisted stays so, and what the list names of the hart becomes so. -/
theorem Run.unlistCsrs_unlisted (r : Run s0) {h k : Nat} (l : Sparse Word) (own : k / 4096 = h)
    (named : (∃ e ∈ l, e.1 = k) ∨ r.1.csrs.find? k = none) : (r.unlistCsrs h l).1.csrs.find? k = none := by
  induction l generalizing r with
  | nil => exact named.elim (fun ⟨_, no, _⟩ => absurd no List.not_mem_nil) id
  | cons e l ih =>
    refine ih (if e.1 / 4096 = h then r.act (.csrs e.1 none) else r) ?_
    have drops : (r.act (.csrs e.1 none)).1.csrs = r.1.csrs.upd e.1 none := rfl
    by_cases this : e.1 = k
    · right
      rw [if_pos (this ▸ own), drops, this, Sparse.find?_upd_same]
    · rcases named with ⟨e', mem, eq⟩ | gone
      · rcases List.mem_cons.1 mem with rfl | mem
        · exact absurd eq this
        · exact .inl ⟨e', mem, eq⟩
      · right
        split
        · rw [drops, Sparse.find?_upd_other _ _ (Ne.symm this), gone]
        · exact gone

/-- Every CSR of a hart whose CSRs take their reset values is unlisted. -/
theorem Run.resetCsrs_unlisted (r : Run s0) (h : Nat) {n : Nat} (hn : n < 4096) : (r.resetCsrs h).1.csrs.find? (h * 4096 + n) = none := by
  refine r.unlistCsrs_unlisted r.1.csrs (by omega) ?_
  by_cases listed : ∃ e ∈ r.1.csrs, e.1 = h * 4096 + n
  · exact .inl listed
  · exact .inr (Sparse.find?_eq_none_of_unlisted fun e he own => listed ⟨e, he, own⟩)

theorem Run.clearRegs_only (r : Run s0) (h : Nat) : ∃ xs fs vs, (r.clearRegs h).1 = { r.1 with xs := xs, fs := fs, vs := vs } := by
  unfold Run.clearRegs
  refine List.foldlRecOn (motive := fun q : Run s0 => ∃ xs fs vs, q.1 = { r.1 with xs := xs, fs := fs, vs := vs }) _ _ ⟨_, _, _, rfl⟩
    fun q ⟨xs, fs, vs, only⟩ i _ => ?_
  exact ⟨_, _, _, by rw [Run.setV, Run.act_val, Run.setF, Run.act_val, Run.setX, Run.act_val, only]; rfl⟩

/-! ### The write reaches START -/

/-- The family of HART.START. -/
abbrev startFamily : Family := ⟨.HART_START, 0x0, [(16, 0x100000000), (16, 0x1000000), (4, 0x10)], fields_HART_START⟩

theorem HART_START_placed : ∀ (n : Fin 256) (k : Fin 4), (HART_START n k).placed startFamily [n.val / 16, n.val % 16, k.val] := by
  unfold Reg.placed
  decide +kernel

theorem startFamily_reg (n k : Nat) : startFamily.reg (HART_START n k).off = HART_START n k := by
  have mask : fieldsMask fields_HART_START = (HART_START n k).mask := by simp [fieldsMask, fields_HART_START, HART_START]
  have reset : fieldsRst (HART_START n k).off fields_HART_START = (HART_START n k).rst := by simp [fieldsRst, fields_HART_START, HART_START]
  rw [Family.reg, mask, reset]

/-- What a write of START leaves in it while its block is idle: the start vector, and RUN set where it was or the write sets it (R66). -/
def startedWord (old v : Word) : Word := applyFields fields_HART_START old v (BitVec.allOnes 64) true true

/-- The write reaches START of a hart. -/
def Run.writeStart (r : Run s0) (n k : Nat) (v : Word) : Run s0 := r.setReg (HART_START n k) (startedWord (r.reg (HART_START n k)) v)

theorem Run.regPut_start (r : Run s0) (q : Requester) (h : Fin 1024) (v : Word) (stopped : r.1.fld (HART_START_RUN (tileOf h) (h % 4)) = 0)
    (run : v.getLsbD 0 = true) :
    r.regPut q startFamily [tileOf h / 16, tileOf h % 16, h % 4] (HART_START (tileOf h) (h % 4)).off (BitVec.allOnes 64) v =
      (r.writeStart (tileOf h) (h % 4) v).runHart h := by
  have idle : r.on (HART_START_RUN (tileOf h) (h % 4)) = false := by simp [Run.on, Run.fld, stopped]
  have tile : tileOf h / 16 * 16 + tileOf h % 16 = tileOf h := Nat.div_add_mod' _ 16
  have hart : tileOf h * 4 + h.val % 4 = h := Nat.div_add_mod' _ 4
  have old : (r.reg (HART_START (tileOf h) (h % 4))).getLsbD 0 = false := by
    have bit := congrArg (fun n => Nat.testBit n 0) stopped
    simpa only [Run.reg, State.fld, Word.bits_bit, HART_START_RUN, Nat.zero_testBit, Nat.sub_self, Nat.zero_add, Nat.lt_one_iff, decide_true, Bool.true_and] using bit
  have fields : ∀ b, applyFields fields_HART_START (r.reg (HART_START (tileOf h) (h % 4))) v (BitVec.allOnes 64) b true =
      startedWord (r.reg (HART_START (tileOf h) (h % 4))) v := fun b => by cases b <;> rfl
  unfold Run.regPut
  simp only [Run.regRefuse, startFamily_reg, Run.blockIdle, tile, hart, idle, fields, actionReg, BitVec.and_allOnes, run, old, bne_self_eq_false,
    Bool.not_false, Bool.not_true, Bool.and_false, Bool.false_and, Bool.or_self, Bool.and_self, Bool.false_eq_true, if_false, if_true, Run.writeStart]

theorem startedWord_bits (old v : Word) (run : v.getLsbD 0 = true) :
    Word.bits (startedWord old v) 51 2 = Word.bits v 51 2 ∧ Word.bits (startedWord old v) 0 0 = 1 := by
  obtain ⟨apart, places⟩ := families_fields startFamily (by decide +kernel)
  have fields := applyFields_bits old v true apart (fun x hx => ⟨(places x hx).1, (places x hx).2.1⟩) fun _ _ => .inr rfl
  refine ⟨fields ⟨"VEC", 51, 2, .rwq, some 0⟩ (by decide), (fields ⟨"RUN", 0, 0, .w1s, some 0⟩ (by decide)).trans ?_⟩
  refine Nat.eq_of_testBit_eq fun i => ?_
  show (Word.bits (old ||| v) 0 0).testBit i = _
  rw [Word.bits_bit]
  rcases i with _ | i
  · simp [run]
  · simp [Nat.testBit_succ]

/-- The register holds what the write leaves in it, and every other field stays. -/
theorem Run.writeStart_leaves (r : Run s0) (n k : Nat) {v : Word} (run : v.getLsbD 0 = true) :
    let q := r.writeStart n k v
    q.1.fld (HART_START_VEC n k) = Word.bits v 51 2 ∧ q.1.fld (HART_START_RUN n k) = 1 ∧
      ∀ f : FRef, f.reg.off ≠ (HART_START n k).off → q.1.fld f = r.1.fld f := by
  intro q
  obtain ⟨vec, runs⟩ := startedWord_bits (r.reg (HART_START n k)) v run
  have written : ∀ hi lo, hi < 64 → lo ≤ hi → fieldMask hi lo &&& 0xffffffffffffd = fieldMask hi lo →
      q.1.fld ⟨HART_START n k, hi, lo⟩ = Word.bits (startedWord (r.reg (HART_START n k)) v) hi lo := fun hi lo hh hl fits => by
    rw [State.fld, show q = r.setReg _ _ from rfl, Run.reg_setReg_same]
    exact Word.bits_and _ _ hh hl fits
  exact ⟨(written 51 2 (by decide) (by decide) (by decide)).trans vec, (written 0 0 (by decide) (by decide) (by decide)).trans runs,
    fun f other => r.fld_setReg_other _ f _ other⟩

/-! ### The start -/

/-- With the configuration lock set, a hart of a core that no enclave holds and that is not under reset is released at once. -/
theorem Run.runHart_locked (r : Run s0) (h : Nat) (lock : r.1.fld FOX_CFGLOCK_LOCK = 1) (reset : (r.die (dieOf (tileOf h))).tileRst = [])
    (own : (r.tile (tileOf h)).ceid = 0) : r.runHart h = r.releaseHart h := by
  have locked : r.locked = true := by simp [Run.locked, Run.on, Run.fld, lock]
  simp [Run.runHart, locked, reset, own]

theorem Run.xr_setXr_other (r : Run s0) (h : Nat) {i j : Nat} (v : Word) (other : j ≠ i) : (r.setXr h i v).xr h j = r.xr h j := by
  unfold Run.setXr
  split
  · rfl
  · simp only [Run.xr, Run.x, Run.setX, State.x, Run.act_val, Act.apply_xs, Sparse.get_upd_other _ _ _ (show h * 32 + j ≠ h * 32 + i by omega)]

/-- The registers with which a hart starts (R67): those of reset, and its number in a0 and 0 in a1. -/
def Run.startRegs (r : Run s0) (h : Nat) : Run s0 := (((r.clearRegs h).resetCsrs h).setXr h 10 (BitVec.ofNat 64 h)).setXr h 11 0

theorem Run.startRegs_leaves (r : Run s0) (h : Nat) :
    (∃ xs fs vs cs, (r.startRegs h).1 = { r.1 with xs := xs, fs := fs, vs := vs, csrs := cs }) ∧
      (∀ n < 4096, (r.startRegs h).1.csrs.find? (h * 4096 + n) = none) ∧
      (r.startRegs h).xr h 10 = BitVec.ofNat 64 h ∧ (r.startRegs h).xr h 11 = 0 := by
  obtain ⟨xs, fs, vs, cleared⟩ := r.clearRegs_only h
  obtain ⟨cs, reset⟩ := (r.clearRegs h).unlistCsrs_only h (r.clearRegs h).1.csrs
  set u := (r.clearRegs h).resetCsrs h with hu
  have reset : u.1 = { (r.clearRegs h).1 with csrs := cs } := reset
  obtain ⟨xs10, ten⟩ := u.setXr_only h 10 (BitVec.ofNat 64 h)
  obtain ⟨xs11, eleven⟩ := (u.setXr h 10 (BitVec.ofNat 64 h)).setXr_only h 11 0
  refine ⟨⟨xs11, fs, vs, cs, ?_⟩, fun n hn => ?_, ?_, Run.xr_setXr _ h 11 0 (by decide)⟩
  · rw [Run.startRegs, ← hu, eleven, ten, reset, cleared]
  · rw [Run.startRegs, ← hu, eleven, ten]
    exact (r.clearRegs h).resetCsrs_unlisted h hn
  · rw [← u.xr_setXr h 10 (BitVec.ofNat 64 h) (by decide)]
    exact Run.xr_setXr_other _ h 0 (by decide)

/-- A hart as its first instruction finds it (R67, R83). -/
def Hart.started (t : Hart) (vec : Nat) : Hart := { run := .running, mode := .m, pc := BitVec.ofNat 64 (vec * 4), wake := t.wake }

theorem HART_STAT_fits (n k : Nat) : (HART_STAT_STATE n k).fits = true ∧ (HART_STAT_EID_ZERO n k).fits = true := by
  simp only [FRef.fits_iff, HART_STAT_STATE, HART_STAT_EID_ZERO, HART_STAT]
  decide

theorem DOM_STAT_fits (n : Nat) : (DOM_STAT_STATE n).fits = true ∧ (DOM_STAT_HOLD n).fits = true := by
  simp only [FRef.fits_iff, DOM_STAT_STATE, DOM_STAT_HOLD, DOM_STAT]
  decide

/-- Where the registers that a start writes lie: HART.START and STAT, and STAT of the tile's domain. -/
theorem startArea_apart (h : Fin 1024) {d : Nat} (hd : d < 16) :
    (HART_STAT (tileOf h) (h % 4)).off ≠ (HART_START (tileOf h) (h % 4)).off ∧ (DOM_STAT (domTile (tileOf h))).off ≠ (HART_START (tileOf h) (h % 4)).off ∧
      (DOM_STAT (domTile (tileOf h))).off ≠ (HART_STAT (tileOf h) (h % 4)).off ∧ (RLINK_STAT d).off ≠ (HART_START (tileOf h) (h % 4)).off ∧
      (RLINK_STAT d).off ≠ (HART_STAT (tileOf h) (h % 4)).off ∧ (RLINK_STAT d).off ≠ (DOM_STAT (domTile (tileOf h))).off ∧
      FOX_CFGLOCK.off ≠ (HART_START (tileOf h) (h % 4)).off := by
  have tile : tileBase (tileOf h) + 0x1000 < 2 ^ 36 := by
    rw [tileBase, tileOf]
    omega
  have dom : domTile (tileOf h) < 336 := by
    rw [domTile, tileOf]
    omega
  have hart : h.val % 4 < 4 := Nat.mod_lt _ (by decide)
  simp only [HART_STAT, HART_START, DOM_STAT, RLINK_STAT, FOX_CFGLOCK]
  generalize tileBase (tileOf h) = b at tile
  generalize domTile (tileOf h) = n at dom
  generalize h.val % 4 = k at hart
  omega

/-- STAT of a hart shows that it runs, and the domain of its tile is held no more; the tile is on, so that nothing wakes it. -/
theorem Run.showStart_leaves (r : Run s0) (h : Fin 1024) (runs : (r.1.hart h).run = .running) :
    let q := (r.showHart h).setFld (DOM_STAT_HOLD (domTile (tileOf h))) 0
    (∃ rs, q.1 = { r.1 with regs := rs }) ∧ q.1.fld (HART_STAT_STATE (tileOf h) (h % 4)) = 1 ∧
      q.1.fld (DOM_STAT_STATE (domTile (tileOf h))) = r.1.fld (DOM_STAT_STATE (domTile (tileOf h))) ∧
      ∀ f : FRef, f.reg.off ≠ (HART_STAT (tileOf h) (h % 4)).off → f.reg.off ≠ (DOM_STAT (domTile (tileOf h))).off → q.1.fld f = r.1.fld f := by
  intro q
  obtain ⟨-, -, dom, -⟩ := startArea_apart h (d := 0) (by decide)
  obtain ⟨state, eid⟩ := HART_STAT_fits (tileOf h) (h % 4)
  obtain ⟨domState, hold⟩ := DOM_STAT_fits (domTile (tileOf h))
  have runs : (r.hart h).run = .running := runs
  have shows : r.showHart h = (r.setFld (HART_STAT_STATE (tileOf h) (h % 4)) 1).setFld (HART_STAT_EID_ZERO (tileOf h) (h % 4))
      (if (r.hart h).eid = 0 then 0 else 1) := by
    simp only [Run.showHart, runs]
  refine ⟨⟨q.1.regs, rfl⟩, ?_, ?_, fun f hart domain => ?_⟩
  · rw [Run.fld_setFld_other _ (DOM_STAT_HOLD _) _ _ dom.symm, shows]
    rw [Run.fld_setFld_apart _ (HART_STAT_EID_ZERO _ _) (HART_STAT_STATE _ _) _ eid state rfl (.inl (by decide : (3 : Nat) < 4))]
    exact Run.fld_setFld_lt r state (by decide : 1 < 2 ^ (3 - 0 + 1))
  · rw [Run.fld_setFld_apart _ (DOM_STAT_HOLD _) (DOM_STAT_STATE _) _ hold domState rfl (.inl (by decide : (2 : Nat) < 8)), shows]
    rw [Run.fld_setFld_other _ (HART_STAT_EID_ZERO _ _) _ _ dom, Run.fld_setFld_other _ (HART_STAT_STATE _ _) _ _ dom]
  · rw [Run.fld_setFld_other _ (DOM_STAT_HOLD _) _ _ domain, shows]
    rw [Run.fld_setFld_other _ (HART_STAT_EID_ZERO _ _) _ _ hart, Run.fld_setFld_other _ (HART_STAT_STATE _ _) _ _ hart]

/-- A run in which a hart has been started, but for the note that it is to be looked at again. -/
structure Run.starts (h : Fin 1024) (r q : Run s0) : Prop where
  only : ∃ rs hs xs fs vs cs, q.1 = { r.1 with regs := rs, harts := hs, xs := xs, fs := fs, vs := vs, csrs := cs }
  hart : q.1.hart h = (r.1.hart h).started (r.1.fld (HART_START_VEC (tileOf h) (h % 4)))
  csrs : ∀ n < 4096, q.1.csrs.find? (h * 4096 + n) = none
  a0 : q.xr h 10 = BitVec.ofNat 64 h
  a1 : q.xr h 11 = 0
  stat : q.1.fld (HART_STAT_STATE (tileOf h) (h % 4)) = 1
  fld : ∀ f : FRef, f.reg.off ≠ (HART_STAT (tileOf h) (h % 4)).off → f.reg.off ≠ (DOM_STAT (domTile (tileOf h))).off → q.1.fld f = r.1.fld f

theorem Run.releaseHart_held (r : Run s0) (h : Nat) (held : (r.1.hart h).run = .held) :
    r.releaseHart h = (((((r.startRegs h).setHart h (((r.startRegs h).hart h).started ((r.startRegs h).fld (HART_START_VEC (tileOf h) (h % 4))))).showHart h).setFld
      (DOM_STAT_HOLD (domTile (tileOf h))) 0).wakeTile (tileOf h)).pokeHart h :=
  if_neg (not_not.2 held)

/-- A held hart of a tile that is on starts (R67). -/
theorem Run.releaseHart_starts (r : Run s0) (h : Fin 1024) (held : (r.1.hart h).run = .held) (on : r.1.fld (DOM_STAT_STATE (domTile (tileOf h))) = 0) :
    ∃ q : Run s0, Run.starts h r q ∧ r.releaseHart h = q.pokeHart h := by
  obtain ⟨⟨xs, fs, vs, cs, regs⟩, unlisted, a0, a1⟩ := r.startRegs_leaves h
  set u := r.startRegs h with hu
  have sameHart : u.hart h = r.1.hart h := by
    rw [Run.hart, regs]
    rfl
  have sameFld : ∀ f, u.1.fld f = r.1.fld f := fun f => by
    rw [regs]
    rfl
  set v := u.setHart h ((u.hart h).started (u.fld (HART_START_VEC (tileOf h) (h % 4)))) with hv
  have hart : v.1.hart h = (u.hart h).started (u.fld (HART_START_VEC (tileOf h) (h % 4))) := by rw [hv, Run.hart_setHart, if_pos rfl]
  have vRegs : v.1.regs = u.1.regs := rfl
  have vFld : ∀ f, v.1.fld f = r.1.fld f := fun f => by
    rw [← sameFld f]
    simp only [State.fld, State.reg, vRegs]
  obtain ⟨⟨rs, shows⟩, stat, dom, fld⟩ := v.showStart_leaves h (by rw [hart]; rfl)
  set q := (v.showHart h).setFld (DOM_STAT_HOLD (domTile (tileOf h))) 0 with hq
  have awake : q.wakeTile (tileOf h) = q := by
    have state : q.fld (DOM_STAT_STATE (domTile (tileOf h))) = 0 := dom.trans ((vFld _).trans on)
    simp [Run.wakeTile, state]
  have only : q.1 = { u.1 with regs := rs, harts := v.1.harts } := by rw [shows, show v.1 = { u.1 with harts := v.1.harts } from rfl]
  have csrs : q.1.csrs = u.1.csrs := by rw [only]
  have xs' : q.1.xs = u.1.xs := by rw [only]
  have sameXr : ∀ i, q.xr h i = u.xr h i := fun i => by simp only [Run.xr, Run.x, State.x, xs']
  refine ⟨q, ⟨⟨rs, v.1.harts, xs, fs, vs, cs, ?_⟩, ?_, fun n hn => ?_, ?_, ?_, stat, fun f h1 h2 => (fld f h1 h2).trans (vFld f)⟩, ?_⟩
  · rw [only, regs]
  · rw [shows, ← sameHart, ← sameFld]
    exact hart
  · rw [csrs]
    exact unlisted n hn
  · exact (sameXr 10).trans a0
  · exact (sameXr 11).trans a1
  · rw [r.releaseHart_held h held, ← hu, ← hv, ← hq, awake]

/-- What a start leaves of the settling of its command: nothing, where no request waits at a quadrant of the hart's die. -/
theorem Run.starts.done {s : State} {h : Fin 1024} {r q : Run s} (c : Run.starts h r q) (still : s.still) (from_ : ∃ rs, r.1 = { s with regs := rs })
    (online : ∀ d < 16, r.1.online d = s.online d) (waiting : ∀ k < 4, (s.quad (dieOf (tileOf h) * 4 + k)).waiting = []) :
    (q.pokeHart h).done = .next (q.pokeHart h).over := by
  obtain ⟨base, from_⟩ := from_
  obtain ⟨⟨rs, hs, xs, fs, vs, cs, only⟩, hart, csrs, -, -, -, fld⟩ := c
  rw [from_] at only
  obtain ⟨ps, pokes⟩ := q.pokeHart_only h
  have on : ∀ d < 16, q.1.online d = s.online d := fun d hd => by
    obtain ⟨-, -, -, -, stat, dom, -⟩ := startArea_apart h hd
    rw [← online d hd, State.online, State.online, fld (RLINK_STAT_STATE d) stat dom]
  have own : (q.pokeHart h).1.undisturbed h := by
    have unlisted : ∀ n < 4096, (q.pokeHart h).1.csr h n = (match csrInfo n with | some p => p.2 | none => 0) := fun n hn => by
      rw [pokes, State.csr, csrs n hn]
      rfl
    have started : (q.pokeHart h).1.hart h = (r.1.hart h).started (r.1.fld (HART_START_VEC (tileOf h) (h % 4))) := by
      rw [pokes]
      exact hart
    refine ⟨fun k hk => ?_, ?_, ?_, ?_, unlisted 0x304 (by decide), ?_, ?_, ?_⟩
    · rw [pokes, only]
      exact waiting k hk
    iterate 5 rw [started]; rfl
    · rw [unlisted 0x7B0 (by decide)]
      rfl
  have quiet : ((q.pokeHart h).act (.poke [])).1.still := by
    rw [Run.act_val, pokes]
    refine State.still_of_online still ?_ rfl on ?_ ?_
    · rw [only]
      exact still.1
    · rw [only]
      rfl
    · rw [only]
      rfl
  refine Run.done_idle _ quiet fun k hk => ?_
  rcases Run.mem_pokeHart hk with rfl | before
  · exact own
  · rw [only, show State.poke _ = s.poke from rfl, still.2.1] at before
    exact absurd before List.not_mem_nil

/-- A write of RUN of a held hart, with the configuration lock set and its tile on, starts the hart (R66, R67, R83). -/
theorem hartRelease_starts (q : Requester) (h : Fin 1024) (v : Word) (s : State) (still : s.still) (w : s.writer q)
    (on : s.online (dieOf (tileOf h)) = true) (lock : s.fld FOX_CFGLOCK_LOCK = 1) (reset : (s.die (dieOf (tileOf h))).tileRst = [])
    (own : (s.tile (tileOf h)).ceid = 0) (held : (s.hart h).run = .held) (stopped : s.fld (HART_START_RUN (tileOf h) (h % 4)) = 0)
    (run : v.getLsbD 0 = true) (awake : s.fld (DOM_STAT_STATE (domTile (tileOf h))) = 0)
    (waiting : ∀ k < 4, (s.quad (dieOf (tileOf h) * 4 + k)).waiting = []) :
    ∃ t, exec (.hartRelease q h v) s = .next t ∧ t.hart h = { run := .running, mode := .m, pc := BitVec.ofNat 64 (Word.bits v 51 2 * 4), wake := (s.hart h).wake } ∧
      (Run.start t).xr h 10 = BitVec.ofNat 64 h ∧ (Run.start t).xr h 11 = 0 ∧ t.fld (HART_START_RUN (tileOf h) (h % 4)) = 1 ∧
      t.fld (HART_STAT_STATE (tileOf h) (h % 4)) = 1 := by
  obtain ⟨stat, dom, -, -, -, -, cfgLock⟩ := startArea_apart h (d := 0) (by decide)
  have tile : tileOf h < 256 := by
    rw [tileOf]
    omega
  have hart : h.val % 4 < 4 := Nat.mod_lt _ (by decide)
  have low : (HART_START (tileOf h) (h % 4)).off < 2 ^ 36 ∧ (HART_START (tileOf h) (h % 4)).off / 2 ^ 32 = dieOf (tileOf h) := by
    simp only [HART_START, tileBase, tileOf, dieOf]
    omega
  obtain ⟨vec, runs, kept⟩ := (Run.start s).writeStart_leaves (tileOf h) (h % 4) run
  set r := (Run.start s).writeStart (tileOf h) (h % 4) v with hr
  obtain ⟨u, starts, releases⟩ := r.releaseHart_starts h held ((kept (DOM_STAT_STATE _) dom).trans awake)
  have online : ∀ d < 16, r.1.online d = s.online d := fun d hd => by
    obtain ⟨-, -, -, link, -⟩ := startArea_apart h hd
    rw [State.online, State.online, kept (RLINK_STAT_STATE d) link]
    rfl
  have does : exec (.hartRelease q h v) s = (u.pokeHart h).done := by
    show ((Run.start s).write q (HART_START (tileOf h) (h % 4)) v).done = _
    rw [(Run.start s).write_placed q v w (HART_START_placed ⟨tileOf h, tile⟩ ⟨h % 4, hart⟩) (fun _ => by rw [low.2]; exact on) (.inl low.1),
      (Run.start s).regPut_start q h v stopped run, ← releases]
    exact congrArg Run.done (r.runHart_locked h ((kept FOX_CFGLOCK_LOCK cfgLock).trans lock) reset own)
  obtain ⟨ps, pokes⟩ := u.pokeHart_only h
  have left : (u.pokeHart h).over = { u.1 with poke := [] } := by
    rw [show (u.pokeHart h).over = { (u.pokeHart h).1 with poke := [] } from rfl, pokes]
  refine ⟨_, does.trans (starts.done still ⟨_, rfl⟩ online waiting), ?_⟩
  rw [left]
  refine ⟨starts.hart.trans ?_, starts.a0, starts.a1, ?_, starts.stat⟩
  · rw [vec]
    rfl
  · exact (starts.fld (HART_START_RUN _ _) stat.symm dom.symm).trans runs

/-- Settles O25: the write of an identity ends in the file that its page names, and the write of RUN in the release of the hart; what either
leaves to be looked at again finds nothing waiting. -/
theorem hartsAreReached : Obligations.HartsAreReached := by
  unfold Obligations.HartsAreReached
  exact ⟨imsicSetPending_pends, hartRelease_starts⟩

end Sys2Proof.Machine

/-! CSR writes in M-mode (R71, R88, R99, R100, R104, R105, R110, R121, R123). -/
namespace Sys2Proof.Machine

variable {s0 : State}

/-! ### Which CSR a write reaches, and what its rule leaves there -/

/-- A number that a write in M-mode reaches whatever the state: its CSR exists and can be written, and no field of mstatus, no indirect
select, no VGEIN and no debug mode decides over the access; seed is left out, whose accesses have their own form (R60). -/
def openToMachine (n : Nat) : Bool :=
  csrExists n && n / 1024 != 3 && !decide (0x7B0 ≤ n ∧ n ≤ 0x7B3) &&
    !decide (n ∈ [0x001, 0x002, 0x003, 0x008, 0x009, 0x00A, 0x00F, 0x015, 0xC20, 0xC21, 0xC22, 0x251, 0x25C, 0x351])

theorem Run.csrCheck_open (r : Run s0) (h n : Nat) (write : Bool) (mode : (r.hart h).mode = .m) (opens : openToMachine n = true) :
    r.csrCheck h n write = .inr n := by
  simp only [openToMachine, Bool.and_eq_true, bne_iff_ne, Bool.not_eq_true', decide_eq_false_iff_not, List.mem_cons, List.not_mem_nil, or_false,
    not_or] at opens
  obtain ⟨⟨⟨exist, writable⟩, debug⟩, n1, n2, n3, n8, n9, nA, nF, -, nC20, nC21, nC22, n251, n25C, n351⟩ := opens
  simp [Run.csrCheck, *]

/-- The run after rd has been written and the instruction has retired: where the CSR's own rule begins. -/
def Run.written (r : Run s0) (h rd : Nat) (old : Word) : Run s0 := (r.setXr h rd old).retire h

/-- A write in M-mode of a CSR that is open to it: rd takes what is read, the instruction retires, and the CSR's own rule follows (R110, R121). -/
theorem Run.csrOp_open (r : Run s0) (h n rd : Nat) (rs1 : Fin 32) (mode : (r.hart h).mode = .m) (opens : openToMachine n = true) :
    r.csrOp h n rd .rw (.reg rs1) = (r.written h rd (r.readCsr h n)).putCsr h n (r.xr h rs1) := by
  have notSeed : n ≠ 0x015 := by
    rintro rfl
    exact absurd opens (by decide)
  have reads : r.csrValue h n = r.readCsr h n := if_pos (.inr (.inl mode))
  simp only [Run.csrOp, if_neg notSeed, r.csrCheck_open h n _ mode opens, reads]
  rfl

/-- The CSRs of keys and Reach attributes, mdwhar and satp read as they are stored. -/
theorem Run.readCsr_stored (r : Run s0) (h n : Nat) (stored : n = 0x5C8 ∨ (0x5E0 ≤ n ∧ n ≤ 0x5E7) ∨ (0x7C4 ≤ n ∧ n ≤ 0x7C7) ∨ n = 0x180) :
    r.readCsr h n = r.csr h n := by
  simp (disch := omega) only [Run.readCsr, if_neg]

/-- A write of a CSR that neither claims nor marks FS or VS dirty is what `writeCsr` makes of it. -/
theorem Run.putCsr_plain (r : Run s0) (h n : Nat) (v : Word) (claims : n ≠ 0x35C ∧ n ≠ 0x15C ∧ n ≠ 0x25C) (context : 0x00F < n) :
    r.putCsr h n v = r.writeCsr h n v := by
  obtain ⟨m, s, vs⟩ := claims
  have floats : n ∉ [1, 2, 3] := fun mem => Nat.not_le_of_lt context ((by decide : ∀ m ∈ [1, 2, 3], m ≤ 0x00F) n mem)
  have vectors : n ∉ [0x008, 0x009, 0x00A, 0x00F] := fun mem =>
    Nat.not_le_of_lt context ((by decide : ∀ m ∈ [0x008, 0x009, 0x00A, 0x00F], m ≤ 0x00F) n mem)
  rw [Run.putCsr, if_neg m, if_neg s, if_neg vs]
  simp only [if_neg floats, if_neg vectors]

/-- satp takes what is written, where its MODE is one that the machine has (R55). -/
theorem Run.writeCsr_satp (r : Run s0) (h : Nat) (v : Word) (legal : Word.bits v 63 60 ∈ [0, 8, 9, 10]) :
    r.writeCsr h 0x180 v = (r.setCsr h 0x180 v).pokeHart h := by
  have takes : legalSatp (r.csr h 0x180) v = v := if_pos legal
  simp (disch := omega) only [Run.writeCsr, if_neg, takes]
  rfl

theorem Run.writeCsr_sdwkey (r : Run s0) (h : Nat) (v : Word) :
    r.writeCsr h 0x5C8 v = (r.setCsr h 0x5C8 (legal 0x7777777777777777 (r.csr h 0x5C8) v)).pokeHart h := by
  simp (disch := omega) only [Run.writeCsr, if_neg]
  rfl

theorem Run.writeCsr_sdwrattr (r : Run s0) (h n : Nat) (v : Word) (attr : 0x5E0 ≤ n ∧ n ≤ 0x5E7) :
    r.writeCsr h n v = (r.setCsr h n (legalAttr (r.csr h n) v)).pokeHart h := by
  simp (disch := omega) only [Run.writeCsr, if_neg, if_pos]

theorem Run.writeCsr_mdwhar (r : Run s0) (h n : Nat) (v : Word) (har : 0x7C4 ≤ n ∧ n ≤ 0x7C7) :
    r.writeCsr h n v = (r.setCsr h n (legalHar (r.csr h n) v)).pokeHart h := by
  simp (disch := omega) only [Run.writeCsr, if_neg, if_pos]

/-- The last pmpaddr, with no entry above it, changes while its own entry is not locked (R123). -/
theorem Run.writeCsr_pmpaddr63 (r : Run s0) (h : Nat) (v : Word) (unlocked : r.pmpLocked h 63 = false) :
    r.writeCsr h 0x3EF v = (r.setCsr h 0x3EF
      (legal (if natBits (r.pmpcfg h 63) 4 3 = 3 then 0x3FFFFFFFFFE00 else 0x3FFFFFFFFFC00) (r.csr h 0x3EF) v)).pokeHart h := by
  simp (disch := omega) only [Run.writeCsr, if_neg, if_pos]
  simp [Run.writePmpaddr, unlocked]

theorem Run.readCsr_pmpaddr63 (r : Run s0) (h : Nat) : r.readCsr h 0x3EF = BitVec.ofNat 64 (r.pmpaddr h 63) := by
  simp (disch := omega) only [Run.readCsr, if_neg, if_pos]

theorem Run.readCsr_mtopei (r : Run s0) (h : Nat) : r.readCsr h 0x35C = BitVec.ofNat 64 (r.topId h 0 * 65537) := by
  simp (disch := omega) only [Run.readCsr, if_neg]
  rfl

/-- A write of mtopei claims the identity at the top of the machine file (R71). -/
theorem Run.putCsr_mtopei (r : Run s0) (h : Nat) (v : Word) (top : r.topId h 0 ≠ 0) :
    r.putCsr h 0x35C v = (r.modFile (h * 8) fun x => { x with pend := x.pend &&& ~~~ (1#2048 <<< r.topId h 0) }).pokeHart h := by
  rw [Run.putCsr, if_pos rfl, Run.claimId]
  exact if_neg top

/-! ### The end of a CSR write -/

/-- What the rule finds: only rd, the hart's place and its minstret have changed. -/
theorem Run.written_leaves (r : Run s0) (h rd : Nat) (old : Word) (w : r.1.unwatched h) (calm : r.1.poke = []) :
    (∃ xs hs cs, (r.written h rd old).1 = { r.1 with xs := xs, harts := hs, csrs := cs, poke := [h] }) ∧
      ∀ n, n < 4096 → n ≠ 0xB02 → (r.written h rd old).1.csr h n = r.1.csr h n := by
  obtain ⟨xs, wrote⟩ := r.setXr_only h rd old
  have w' : (r.setXr h rd old).1.unwatched h := by rw [wrote]; exact w
  obtain ⟨⟨hs, cs, ps, only⟩, -, csr⟩ := (r.setXr h rd old).retire_only h w'
  have pokes : ps = [h] := by
    have marks := (r.setXr h rd old).retire_poke h (by rw [wrote]; exact calm) w'
    rwa [only] at marks
  refine ⟨⟨xs, hs, cs, by rw [Run.written, only, wrote, pokes]⟩, fun n hn other => ?_⟩
  rw [Run.written, csr h n hn (.inr other), wrote]
  rfl

theorem Run.undisturbed_written (r : Run s0) (h rd : Nat) (old : Word) (u : r.1.undisturbed h) : (r.written h rd old).1.undisturbed h := by
  obtain ⟨xs, wrote⟩ := r.setXr_only h rd old
  have before : (r.setXr h rd old).1.undisturbed h := by rw [wrote]; exact u
  obtain ⟨-, -, -, -, -, unwatched⟩ := id before
  exact (r.setXr h rd old).undisturbed_after_retire h h unwatched before

/-- A command that has written rd, retired, and then changed CSRs other than mie and dcsr, or an IMSIC file, ends with what it has done. -/
theorem Run.done_written {s : State} {h rd : Nat} {old : Word} (t : Run s) (free : s.free_ h)
    (only : ∃ cs fs, t.1 = { ((Run.start s).written h rd old).1 with csrs := cs, imsic := fs })
    (enabled : t.1.csr h 0x304 = s.csr h 0x304) (halts : t.1.csr h 0x7B0 = s.csr h 0x7B0) : (t.pokeHart h).done = .next t.over := by
  obtain ⟨still, undisturbed, -⟩ := free
  obtain ⟨-, -, -, -, -, unwatched⟩ := id undisturbed
  obtain ⟨cs', fs, only⟩ := only
  obtain ⟨⟨xs, hs, cs, leaves⟩, csr⟩ := (Run.start s).written_leaves h rd old unwatched still.2.1
  have poke : t.1.poke = [h] := by rw [only, leaves]
  have marked : t.pokeHart h = t := if_pos (by rw [poke]; exact List.mem_singleton_self h)
  have quiet : (t.act (.poke [])).1.still := by
    refine State.still_of still ?_ rfl ?_ ?_ ?_
    · rw [Run.act_val, only, leaves]
      exact still.1
    all_goals
      rw [Run.act_val, only, leaves]
      rfl
  have stands : t.1.undisturbed h := by
    have retired := (Run.start s).undisturbed_written h rd old undisturbed
    have hart : t.1.hart h = ((Run.start s).written h rd old).1.hart h := by rw [only]; rfl
    refine State.undisturbed_of retired (by rw [only]) (by rw [hart]) (by rw [hart]) (by rw [hart])
      (enabled.trans (csr 0x304 (by decide) (by decide)).symm) ?_
    obtain ⟨-, -, -, -, -, w⟩ := retired
    rw [State.unwatched, hart, halts.trans (csr 0x7B0 (by decide) (by decide)).symm]
    exact w
  rw [marked]
  refine t.done_idle quiet fun k hk => ?_
  obtain rfl : k = h := List.mem_singleton.1 (poke ▸ hk)
  exact stands

/-- The command of a CSR instruction that writes in M-mode, where all that the CSR's own rule does is to go on to t. -/
theorem Run.csrOp_ends {s : State} (t : Run s) (h : Fin 1024) (n : Nat) (rd rs1 : Fin 32) (free : s.free_ h) (mode : (s.hart h).mode = .m)
    (opens : openToMachine n = true)
    (rule : ((Run.start s).written h rd ((Run.start s).readCsr h n)).putCsr h n ((Run.start s).xr h rs1) = t.pokeHart h)
    (only : ∃ cs fs, t.1 = { ((Run.start s).written h rd ((Run.start s).readCsr h n)).1 with csrs := cs, imsic := fs })
    (enabled : t.1.csr h 0x304 = s.csr h 0x304) (halts : t.1.csr h 0x7B0 = s.csr h 0x7B0) :
    (if !(Run.start s).ready h then (Run.start s).done else ((Run.start s).csrOp h n rd .rw (.reg rs1)).done) = .next t.over := by
  have ready : (Run.start s).ready h = true := free.2.2
  rw [ready, (Run.start s).csrOp_open h n rd rs1 mode opens]
  exact (congrArg Run.done rule).trans (t.done_written free only enabled halts)

/-- A CSR instruction that writes in M-mode ends with rd and the CSR written, where the CSR's rule, which sees every CSR but minstret as it was,
makes v of rs1. -/
theorem csrWrite_ends {s : State} {h : Fin 1024} {n : Nat} {rd rs1 : Fin 32} {old v : Word} (free : s.free_ h) (mode : (s.hart h).mode = .m)
    (opens : openToMachine n = true) (plain : 0x00F < n ∧ n < 4096 ∧ n ∉ [0x15C, 0x25C, 0x304, 0x35C, 0x7B0])
    (reads : (Run.start s).readCsr h n = old)
    (rule : ∀ q : Run s, (∀ m, m < 4096 → m ≠ 0xB02 → q.csr h m = s.csr h m) →
      q.writeCsr h n ((Run.start s).xr h rs1) = (q.setCsr h n v).pokeHart h) :
    (if !(Run.start s).ready h then (Run.start s).done else ((Run.start s).csrOp h n rd .rw (.reg rs1)).done) =
      .next (((Run.start s).written h rd old).setCsr h n v).over := by
  subst reads
  obtain ⟨still, ⟨-, -, -, -, -, unwatched⟩, -⟩ := id free
  obtain ⟨context, low, others⟩ := plain
  simp only [List.mem_cons, List.not_mem_nil, or_false, not_or] at others
  obtain ⟨sClaim, vsClaim, mie, mClaim, dcsr⟩ := others
  obtain ⟨-, csr⟩ := (Run.start s).written_leaves h rd ((Run.start s).readCsr h n) unwatched still.2.1
  have kept : ∀ m, m < 4096 → m ≠ n → m ≠ 0xB02 →
      (((Run.start s).written h rd ((Run.start s).readCsr h n)).setCsr h n v).1.csr h m = s.csr h m := fun m hm other count => by
    rw [Run.csr_setCsr_other _ _ (hartCsr_ne other), csr m hm count]
    rfl
  refine Run.csrOp_ends _ h n rd rs1 free mode opens ?_ ⟨_, _, rfl⟩ (kept _ (by decide) (Ne.symm mie) (by decide))
    (kept _ (by decide) (Ne.symm dcsr) (by decide))
  rw [Run.putCsr_plain _ h n _ ⟨mClaim, sClaim, vsClaim⟩ context]
  exact rule _ csr

/-! ### The CSRs of the statement -/

theorem sdwkeyWrite_ends (h : Fin 1024) (rd rs1 : Fin 32) (s : State) (free : s.free_ h) (mode : (s.hart h).mode = .m) :
    exec (.sdwkeyWrite h rd .rw (.reg rs1)) s = .next ((((Run.start s).setXr h rd (s.csr h 0x5C8)).retire h).setCsr h 0x5C8
      ((s.csr h 0x5C8 &&& ~~~ 0x7777777777777777) ||| ((Run.start s).xr h rs1 &&& 0x7777777777777777))).over := by
  refine csrWrite_ends free mode (by decide) (by decide) (Run.readCsr_stored _ h _ (.inl rfl)) fun q same => ?_
  rw [q.writeCsr_sdwkey, same 0x5C8 (by decide) (by decide)]
  rfl

theorem sdwrattrWrite_ends (h : Fin 1024) (j : Fin 8) (rd rs1 : Fin 32) (s : State) (free : s.free_ h) (mode : (s.hart h).mode = .m) :
    exec (.reachCsrWrite h 2 j rd .rw (.reg rs1)) s = .next ((((Run.start s).setXr h rd (s.csr h (0x5E0 + j.val))).retire h).setCsr h (0x5E0 + j.val)
      (legalAttr (s.csr h (0x5E0 + j.val)) ((Run.start s).xr h rs1))).over := by
  have attr : 0x5E0 ≤ 0x5E0 + j.val ∧ 0x5E0 + j.val ≤ 0x5E7 := by omega
  have opens : ∀ j : Fin 8, openToMachine (0x5E0 + j.val) = true := by decide
  have plain : ∀ j : Fin 8, 0x00F < 0x5E0 + j.val ∧ 0x5E0 + j.val < 4096 ∧ 0x5E0 + j.val ∉ [0x15C, 0x25C, 0x304, 0x35C, 0x7B0] := by decide
  refine csrWrite_ends (n := 0x5E0 + j.val) free mode (opens j) (plain j) (Run.readCsr_stored _ h _ (.inr (.inl attr))) fun q same => ?_
  rw [q.writeCsr_sdwrattr h _ _ attr, same _ (by omega) (by omega)]

theorem mdwharWrite_ends (h : Fin 1024) (j : Fin 4) (rd rs1 : Fin 32) (s : State) (free : s.free_ h) (mode : (s.hart h).mode = .m) :
    exec (.mdwharWrite h j rd .rw (.reg rs1)) s = .next ((((Run.start s).setXr h rd (s.csr h (0x7C4 + j.val))).retire h).setCsr h (0x7C4 + j.val)
      (legalHar (s.csr h (0x7C4 + j.val)) ((Run.start s).xr h rs1))).over := by
  have har : 0x7C4 ≤ 0x7C4 + j.val ∧ 0x7C4 + j.val ≤ 0x7C7 := by omega
  have opens : ∀ j : Fin 4, openToMachine (0x7C4 + j.val) = true := by decide
  have plain : ∀ j : Fin 4, 0x00F < 0x7C4 + j.val ∧ 0x7C4 + j.val < 4096 ∧ 0x7C4 + j.val ∉ [0x15C, 0x25C, 0x304, 0x35C, 0x7B0] := by decide
  refine csrWrite_ends free mode (opens j) (plain j) (Run.readCsr_stored _ h _ (.inr (.inr (.inl har)))) fun q same => ?_
  rw [q.writeCsr_mdwhar h _ _ har, same _ (by omega) (by omega)]

theorem pmpaddr63Write_ends (h : Fin 1024) (rd rs1 : Fin 32) (s : State) (free : s.free_ h) (mode : (s.hart h).mode = .m)
    (unlocked : (Run.start s).pmpLocked h 63 = false) :
    exec (.pmpCsrWrite h 0x3EF rd .rw (.reg rs1)) s = .next ((((Run.start s).setXr h rd (BitVec.ofNat 64 ((Run.start s).pmpaddr h 63))).retire h).setCsr h 0x3EF
      (legal (if natBits ((Run.start s).pmpcfg h 63) 4 3 = 3 then 0x3FFFFFFFFFE00 else 0x3FFFFFFFFFC00) (s.csr h 0x3EF) ((Run.start s).xr h rs1))).over := by
  refine csrWrite_ends (n := 0x3EF) free mode (by decide) (by decide) (Run.readCsr_pmpaddr63 _ h) fun q same => ?_
  have cfg : q.pmpcfg h 63 = (Run.start s).pmpcfg h 63 := congrArg (Word.bits · 63 56) (same 0x3AE (by decide) (by decide))
  have rlb : q.cb h 0x747 2 = (Run.start s).cb h 0x747 2 := congrArg (BitVec.getLsbD · 2) (same 0x747 (by decide) (by decide))
  rw [q.writeCsr_pmpaddr63 h _ (by rw [Run.pmpLocked, cfg, rlb]; exact unlocked), cfg, same 0x3EF (by decide) (by decide)]

theorem satpWrite_ends (h : Fin 1024) (rd rs1 : Fin 32) (s : State) (free : s.free_ h) (mode : (s.hart h).mode = .m)
    (has : Word.bits ((Run.start s).xr h rs1) 63 60 ∈ [0, 8, 9, 10]) :
    exec (.csrWrite h 0x180 rd .rw (.reg rs1)) s = .next ((((Run.start s).setXr h rd (s.csr h 0x180)).retire h).setCsr h 0x180
      ((Run.start s).xr h rs1)).over :=
  csrWrite_ends free mode (by decide) (by decide) (Run.readCsr_stored _ h _ (by decide)) fun q _ => q.writeCsr_satp h _ has

/-- A claim of the machine file gives rd its top identity and ends that identity's being pending (R71). -/
theorem imsicClaim_ends (h : Fin 1024) (rd : Fin 32) (s : State) (free : s.free_ h) (mode : (s.hart h).mode = .m) (top : (Run.start s).topId h 0 ≠ 0) :
    exec (.imsicClaim h 0 rd) s = .next ((((Run.start s).setXr h rd (BitVec.ofNat 64 ((Run.start s).topId h 0 * 65537))).retire h).modFile (h * 8)
      fun x => { x with pend := x.pend &&& ~~~ (1#2048 <<< (Run.start s).topId h 0) }).over := by
  rw [← Run.readCsr_mtopei]
  obtain ⟨still, ⟨-, -, -, -, -, unwatched⟩, -⟩ := id free
  obtain ⟨⟨xs, hs, cs, leaves⟩, csr⟩ := (Run.start s).written_leaves h rd ((Run.start s).readCsr h 0x35C) unwatched still.2.1
  have sameTop : ((Run.start s).written h rd ((Run.start s).readCsr h 0x35C)).topId h 0 = (Run.start s).topId h 0 := by
    have file : ((Run.start s).written h rd ((Run.start s).readCsr h 0x35C)).file (h * 8) = (Run.start s).file (h * 8) := by
      rw [Run.file, State.file, leaves]
      rfl
    simp only [Run.topId, Nat.add_zero, file]
  refine Run.csrOp_ends _ h 0x35C rd 0 free mode (by decide) ?_ ⟨_, _, rfl⟩ (csr 0x304 (by decide) (by decide)) (csr 0x7B0 (by decide) (by decide))
  rw [Run.putCsr_mtopei _ h _ (sameTop ▸ top), sameTop]
  rfl

/-- Settles O5: M-mode reaches each of these CSRs, the instruction writes rd and retires, and the CSR's own rule then finds the CSRs and the
machine file as they were. -/
theorem csrWritesComplete : Obligations.CsrWritesComplete := by
  unfold Obligations.CsrWritesComplete
  exact ⟨sdwkeyWrite_ends, sdwrattrWrite_ends, mdwharWrite_ends, pmpaddr63Write_ends, satpWrite_ends, imsicClaim_ends⟩

end Sys2Proof.Machine

/-! Maintenance of memory by address: a CBO goes to the home of its line (R139 to R143). -/
namespace Sys2Proof.Machine

variable {s0 : State}

/-- A message that no die receives leaves nothing to settle. -/
theorem Run.still_send (r : Run s0) (m : Msg) (still : r.1.still) (outside : Agent.onDie m.dst = none) : (r.send m).1.still := by
  obtain ⟨need, poke, fence, drop⟩ := still
  refine ⟨need, poke, fun x hx => ?_, drop⟩
  rcases List.mem_append.1 hx with before | new
  · exact fence x before
  · simp [List.mem_singleton.1 new, State.fencedDie, outside]

/-- A hart has sent the operation of each of some lines to the line's home, and waits for Done. -/
def Run.sendCbos (r : Run s0) (h : Fin 1024) (k : MsgKind) (ls : List LineAddr) (rd : Option (Nat × Word)) : Run s0 :=
  ls.foldl (fun r l => r.send { kind := k, src := .hart h, dst := homeOf l, line := l }) (r.modHart h fun t => { t with wait := some (.cbo ls rd) })

theorem Run.still_sendCbos (r : Run s0) (h : Fin 1024) (k : MsgKind) (ls : List LineAddr) (rd : Option (Nat × Word)) (still : r.1.still) :
    (r.sendCbos h k ls rd).1.still :=
  List.foldlRecOn (motive := fun q : Run s0 => q.1.still) _ _ (State.still_of still still.1 still.2.1 rfl rfl rfl) fun q hq _ _ => q.still_send _ hq rfl

/-- A hart with no store left sends its operations at once. -/
theorem Run.after_cbo (r : Run s0) (h : Fin 1024) (k : MsgKind) (on ls : List LineAddr) (rd : Option (Nat × Word)) (drained : r.1.drained h) :
    r.after h (some on) (.cbo k ls rd) = r.sendCbos h k ls rd := by
  rw [r.after_drained h _ _ drained]
  simp only [Run.goOn, Run.go_nil, Run.sendCbos, Fin.ofNat_eq_cast, Fin.cast_val_eq_self]

/-- M-mode is held back by none of the enabling fields (R138). -/
theorem Run.cboEnable_machine (r : Run s0) (h : Nat) (k : Cbo) (mode : (r.hart h).mode = .m) : r.cboEnable h k = .inr k := by
  simp [Run.cboEnable, mode, Mode.user, Mode.virt]

/-- An operation in M-mode on a line of memory, other than CBO.ZERO, is sent to the line's home. -/
theorem Run.cbo_sends (r : Run s0) {h : Fin 1024} {rs1 : Fin 32} {k : Cbo} {pa mt : Nat} (drained : r.1.drained h) (mode : (r.hart h).mode = .m)
    (other : k ≠ .zero)
    (translates : r.translate h k.acs (r.effective h false).1 (r.effective h false).2 false false k.tinst (r.xr h rs1) 1 = (r, .ok pa mt))
    (mem : (regionOf pa).device = false) : r.cbo h rs1 k = r.sendCbos h k.msg [BitVec.ofNat 46 (pa / 64)] none := by
  simp only [Run.cbo, r.cboEnable_machine h k mode, translates, mem, Bool.false_eq_true, if_false, if_neg other, r.after_cbo _ _ _ _ _ drained]

/-- A DW.CMORNG that cleans, of a range that is not empty, in M-mode and on memory, sends an operation for each of its lines. -/
theorem Run.dwCmorng_sends (r : Run s0) {h : Fin 1024} {rd rs1 rs2 : Fin 32} {a : Word} {pa mt : Nat} (ready : r.ready h = true) (drained : r.1.drained h)
    (mode : (r.hart h).mode = .m) (start : a = r.xr h rs1 &&& ~~~ 0x3F) (some_ : a < r.xr h rs2)
    (translates : r.translate h .clean (r.effective h false).1 (r.effective h false).2 false false 0 a 1 = (r, .ok pa mt))
    (mem : (regionOf pa).device = false) :
    let k := rangeLines a.toNat (r.xr h rs2).toNat
    r.dwCmorng h rd rs1 rs2 0 = r.sendCbos h .cboC ((List.range k).map fun i => BitVec.ofNat 46 (pa / 64 + i)) (some (rd, a + BitVec.ofNat 64 (64 * k))) := by
  subst start
  have clean : cmoOf (0 : BitVec 7).toNat = .clean := rfl
  have nonempty : ¬ r.xr h rs2 ≤ r.xr h rs1 &&& ~~~ 0x3F := BitVec.not_le.2 some_
  have code : ¬ 2 < (0 : BitVec 7).toNat := by decide
  intro k
  simp only [Run.dwCmorng, clean, ready, Bool.not_true, Bool.false_eq_true, if_false, if_neg code, if_neg nonempty, r.cboEnable_machine h _ mode, Cbo.acs,
    translates, r.startDrain_drained h drained, mem, r.after_cbo _ _ _ _ _ drained, Cbo.msg, k]

/-- Settles O10: an operation that M-mode's checks let pass is sent to the homes of its lines, and no die receives what it sends. -/
theorem maintenanceIsSentHome : Obligations.MaintenanceIsSentHome := by
  unfold Obligations.MaintenanceIsSentHome
  have ends : ∀ (h : Fin 1024) (k : MsgKind) (ls : List LineAddr) (rd : Option (Nat × Word)) (s : State), s.still →
      ((Run.start s).sendCbos h k ls rd).done = .next ((Run.start s).sendCbos h k ls rd).1 :=
    fun h k ls rd s still => Run.done_still _ (Run.still_sendCbos _ h k ls rd still)
  have one : ∀ (h : Fin 1024) (rs1 : Fin 32) (pa mt : Nat) (s : State) (k : Cbo), s.free_ h → s.drained h → (s.hart h).mode = .m → k ≠ .zero →
      (Run.start s).translate h k.acs ((Run.start s).effective h false).1 ((Run.start s).effective h false).2 false false k.tinst ((Run.start s).xr h rs1) 1 =
        (Run.start s, .ok pa mt) → (regionOf pa).device = false →
      (if !(Run.start s).ready h then (Run.start s).done else ((Run.start s).cbo h rs1 k).done) =
        .next ((Run.start s).sendCbos h k.msg [BitVec.ofNat 46 (pa / 64)] none).1 := by
    intro h rs1 pa mt s k free drained mode other translates mem
    obtain ⟨still, -, ready⟩ := free
    rw [ready, (Run.start s).cbo_sends drained mode other translates mem, ends _ _ _ _ _ still]
    rfl
  refine ⟨?_, ?_, ?_, ?_⟩
  · exact fun h rs1 pa mt s free drained mode translates mem => one h rs1 pa mt s .clean free drained mode (by decide) translates mem
  · exact fun h rs1 pa mt s free drained mode translates mem => one h rs1 pa mt s .flush free drained mode (by decide) translates mem
  · exact fun h rs1 pa mt s free drained mode translates mem => one h rs1 pa mt s .inval free drained mode (by decide) translates mem
  · intro h rd rs1 rs2 pa mt s free drained mode a some_ translates mem k ls
    obtain ⟨still, -, ready⟩ := free
    exact (congrArg Run.done ((Run.start s).dwCmorng_sends ready drained mode rfl some_ translates mem)).trans (ends _ _ _ _ _ still)

end Sys2Proof.Machine

/-! Drains of the merging buffer into a line that the L2 owns, and CBO.ZERO (R26, R130, R139). -/
namespace Sys2Proof.Machine

variable {s0 : State}

/-! ### A property of every listed hart -/

theorem Sparse.mem_of_find? {α : Type} {m : Sparse α} {k : Nat} {v : α} (h : m.find? k = some v) : (k, v) ∈ m := by
  induction m with
  | nil => simp at h
  | cons e m ih =>
    rw [Sparse.find?] at h
    split at h
    next own =>
      cases h
      exact own ▸ List.mem_cons_self
    next => exact List.mem_cons_of_mem _ (ih h)

/-- What holds of every listed hart, and of one that is not listed, holds of every hart. -/
theorem State.hart_of_listed {P : Hart → Prop} {s : State} (unlisted : P {}) (all : ∀ e ∈ s.harts, P e.2) (h : Nat) : P (s.hart h) := by
  rw [State.hart, Sparse.get]
  cases found : s.harts.find? h with
  | none => exact unlisted
  | some t => exact all _ (Sparse.mem_of_find? found)

theorem Run.listed_modHart (r : Run s0) (h : Nat) {P : Hart → Prop} {f : Hart → Hart} (unlisted : P {}) (keeps : ∀ t, P t → P (f t))
    (all : ∀ e ∈ r.1.harts, P e.2) : ∀ e ∈ (r.modHart h f).1.harts, P e.2 := by
  intro e he
  have he : e ∈ r.1.harts.upd h (listed {} (f (r.hart h))) := he
  unfold Sparse.upd at he
  split at he
  next v lists =>
    rcases Sparse.mem_put he with rfl | before
    · have new : v = f (r.hart h) := by
        rw [listed] at lists
        split at lists
        · cases lists
        · exact (Option.some.inj lists).symm
      exact new ▸ keeps _ (State.hart_of_listed unlisted all h)
    · exact all e before
  next => exact all e (Sparse.mem_del he)

/-- No hart has reserved a line. -/
def State.unreserved (s : State) (l : LineAddr) : Prop := ∀ e ∈ s.harts, e.2.resv ≠ some l

/-- An instruction that retires reserves nothing. -/
theorem Run.unreserved_retire (r : Run s0) (h : Nat) {l : LineAddr} (w : r.1.unwatched h) (noResv : r.1.unreserved l) : (r.retire h).1.unreserved l := by
  obtain ⟨⟨cs, counts⟩, -⟩ := r.countRetired_only h
  have noResv : (r.countRetired h).1.unreserved l := by
    rw [counts]
    exact noResv
  rw [r.retire_plain h w]
  set moved := (r.countRetired h).modHart h fun t => { t with pc := t.pc + 4, wait := none } with hm
  have kept : moved.1.unreserved l := Run.listed_modHart (P := fun t => t.resv ≠ some l) _ h (by simp) (fun _ => id) noResv
  obtain ⟨ps, pokes⟩ := (moved.tally h 0x0002 1).pokeHart_only h
  rw [show (r.moveOn h).1 = _ from pokes]
  exact Run.listed_modHart (P := fun t => t.resv ≠ some l) (f := fun t => { t with tally := t.tally.upd 2 (some (Sparse.get 0 t.tally 2 + 1)) }) moved h
    (by simp) (fun _ => id) kept

/-- A write of a line that no hart has reserved takes no reservation. -/
theorem Run.loseResv_none (r : Run s0) {l : LineAddr} (noResv : r.1.unreserved l) : r.loseResv l = r := by
  unfold Run.loseResv Run.loseOf
  refine List.foldlRecOn (motive := (· = r)) _ _ rfl fun q hq e he => ?_
  rw [hq, if_neg fun lost => noResv e he lost.1]

/-! ### A drain -/

/-- The slot of a line that an L2 owns, with the bytes of a merging-buffer entry in it: zeros make it whole again (R139). -/
def L2Slot.drained (x : L2Slot) (e : SmbEntry) : L2Slot := { x with st := .M, data := mergeBytes x.data e.data e.mask, poison := x.poison && !e.zero }

/-- What a drain into an owned line leaves: registers, L1 copies and tiles that may have changed, and the line's slot with the entry's bytes. -/
structure Run.drains (n : Nat) (e : SmbEntry) (w : Nat) (x : L2Slot) (r q : Run s0) : Prop where
  only : ∃ rs i d l2 ts, q.1 = { r.1 with regs := rs, l1i := i, l1d := d, l2 := l2, tiles := ts }
  online : ∀ k < 16, q.1.online k = r.1.online k
  smb : (q.1.tile n).smb = (r.1.tile n).smb.filter fun y => !(y.hart == e.hart && y.line == e.line)
  sq : (q.1.tile n).sq = (r.1.tile n).sq
  slot : q.1.l2Slot (l2Key n e.line w) = some (x.drained e)

theorem Run.drains_drainEntry (r : Run s0) {n w : Nat} {e : SmbEntry} {x : L2Slot} (hn : n < 256) (sound : e.flip = none) (hit : r.1.l2Hit n e.line w x)
    (arm : r.1.unarmed n 5) (enabled : r.1.fld (L2CTL_STATUS_CACHE_DISABLE_PENDING n) = 0) (noResv : r.1.unreserved e.line) :
    Run.drains n e w x r (r.drainEntry n e) := by
  have find : r.l2Find n e.line = some (w, x) := hit.1
  obtain ⟨rs, i, d, copies, same⟩ := r.l1Store_only n e.line e.mask
  set q := r.l1Store n e.line e.mask with hq
  have die : dieOf n < 16 := by
    rw [dieOf]
    omega
  have kept : ∀ f : FRef, f.reg.off ≠ (ARR_FLIP (dieOf n) (n % 16 * 8 + 2)).off → q.1.fld f = r.1.fld f := fun f hf => by
    simp only [State.fld, State.reg, Sparse.get, copies, same _ hf]
  have apart := ARR_FLIP_apart (a := 5) (b := 2) hn (by decide) (by decide)
  have arm : q.1.unarmed n 5 := (kept (ARR_FLIP_ARM _ _) apart.1).trans arm
  have enabled : q.on (L2CTL_STATUS_CACHE_DISABLE_PENDING n) = false := by
    rw [Run.on, Run.fld, kept _ apart.2, enabled]
    rfl
  have noNew : ((x.poison && !e.zero) && !x.poison) = false := by cases x.poison <;> simp
  have stores : r.l2Store n e.line e.data e.mask e.zero false = q.setL2Slot (l2Key n e.line w) (some (x.drained e)) := by
    simp only [Run.l2Store, find, Bool.or_false, noNew, r.loseResv_none noResv, ← hq, enabled, Run.l2Write_unarmed q w _ _ arm, Run.l2Find_line r find,
      L2Slot.drained, Bool.false_eq_true, if_false]
  have entry : r.drainEntry n e =
      (q.setL2Slot (l2Key n e.line w) (some (x.drained e))).modTile n fun t => { t with smb := t.smb.filter fun y => !(y.hart == e.hart && y.line == e.line) } := by
    simp only [Run.drainEntry, Run.smbCheck, sound, stores]
  have tile : (q.setL2Slot (l2Key n e.line w) (some (x.drained e))).1.tile n = r.1.tile n := by
    rw [Run.setL2Slot, Run.act_val, copies]
    rfl
  rw [entry]
  refine ⟨?_, fun k hk => ?_, ?_, ?_, ?_⟩
  · set z := Run.modTile (q.setL2Slot (l2Key n e.line w) (some (x.drained e))) n _
    exact ⟨rs, i, d, z.1.l2, z.1.tiles, by rw [show z.1 = { q.1 with l2 := z.1.l2, tiles := z.1.tiles } from rfl, copies]⟩
  · exact congrArg₂ (fun a b => a == 4 || b == 5) (kept (RLINK_STAT_STATE k) (noLink_ARR_FLIP die _ k hk))
      (kept (RLINK_STAT_STATE k) (noLink_ARR_FLIP die _ k hk))
  · rw [Run.tile_modTile_same, tile]
  · rw [Run.tile_modTile_same, tile]
  · simp [Run.modTile, Run.setTile, Run.setL2Slot]

/-- A tile whose one store drains into a line that its L2 owns has none left, where its hart waits for nothing. -/
theorem Run.drains_go (r : Run s0) {n w : Nat} {e : SmbEntry} {x : L2Slot} (hn : n < 256) (smb : (r.1.tile n).smb = [e]) (sq : (r.1.tile n).sq = [])
    (draining : e.draining = true) (sound : e.flip = none) (hit : r.1.l2Hit n e.line w x) (notS : x.st ≠ .S) (notO : x.st ≠ .O) (arm : r.1.unarmed n 5)
    (enabled : r.1.fld (L2CTL_STATUS_CACHE_DISABLE_PENDING n) = 0) (noResv : r.1.unreserved e.line) (idle : (r.1.hart e.hart).wait = none) :
    Run.drains n e w x r (r.go [.smb n]) ∧ ((r.go [.smb n]).1.tile n).smb = [] := by
  have done := r.drains_drainEntry hn sound hit arm enabled noResv
  have emptied : ((r.drainEntry n e).1.tile n).smb = [] := by simp [done.smb, smb]
  have queue : ((r.drainEntry n e).tile n).sq = [] := done.sq.trans sq
  have entries : (r.tile n).smb.filter (·.draining) = [e] := by simp [Run.tile, smb, draining]
  have drains : r.doSmb n = (r.drainEntry n e, [.hart e.hart]) := by
    simp only [Run.doSmb, entries, List.foldl_cons, List.foldl_nil, r.l2Look_hit hit, r.l2Has_owned hit notS notO, if_true, queue, List.nil_append]
  have waits : ((r.drainEntry n e).hart e.hart).wait = none := by
    obtain ⟨rs, i, d, l2, ts, only⟩ := done.only
    rw [Run.hart, only]
    exact idle
  have rests : (r.drainEntry n e).doHart e.hart = (r.drainEntry n e, []) := by simp only [Run.doHart, waits]
  have goes : r.go [.smb n] = r.drainEntry n e := by
    have bound : driveBound = 19997 + 1 + 1 + 1 := rfl
    rw [Run.go, bound, Run.drive]
    simp only [drains, List.append_nil, Run.drive, rests]
  rw [goes]
  exact ⟨done, emptied⟩

/-- What a drain leaves is settled where its run was. -/
theorem Run.drains.still {n w : Nat} {e : SmbEntry} {x : L2Slot} {r q : Run s0} (c : Run.drains n e w x r q) (still : r.1.still) : q.1.still := by
  obtain ⟨rs, i, d, l2, ts, only⟩ := c.only
  exact State.still_of_online still (by rw [only]; exact still.1) (by rw [only]; exact still.2.1) c.online (by rw [only]) (by rw [only])

/-- An entry that has stood for 64 tokens drains into a line that the L2 owns. -/
theorem smbIdleTimeout_drains (n : Fin 256) (e : SmbEntry) (w : Nat) (x : L2Slot) (s : State) (still : s.still) (smb : (s.tile n).smb = [e])
    (sq : (s.tile n).sq = []) (sound : e.flip = none) (hit : s.l2Hit n e.line w x) (notS : x.st ≠ .S) (notO : x.st ≠ .O) (arm : s.unarmed n 5)
    (enabled : s.fld (L2CTL_STATUS_CACHE_DISABLE_PENDING n) = 0) (noResv : s.unreserved e.line) (idle : (s.hart e.hart).wait = none) :
    ∃ t, exec (.smbIdleTimeout n 0) s = .next t ∧ (t.tile n).smb = [] ∧ t.l2Slot (l2Key n e.line w) = some (x.drained e) := by
  set r := (Run.start s).modTile n fun t => { t with smb := t.smb.set 0 { e with draining := true } } with hr
  have tile : r.1.tile n = { s.tile n with smb := [{ e with draining := true }] } := by
    rw [hr, Run.tile_modTile_same]
    simp [smb]
  obtain ⟨done, emptied⟩ := r.drains_go (e := { e with draining := true }) n.isLt (by rw [tile]) (by rw [tile]; exact sq) rfl sound
    (State.l2Hit_of hit rfl rfl) notS notO arm enabled noResv idle
  have first : ((Run.start s).tile n).smb[(0 : Fin 16).val]? = some e := by
    rw [show ((Run.start s).tile n).smb = [e] from smb]
    rfl
  refine ⟨_, ?_, emptied, done.slot⟩
  show execSmbIdleTimeout n 0 s = _
  rw [← Run.done_still _ (done.still (State.still_of still still.1 still.2.1 rfl rfl rfl))]
  simp only [execSmbIdleTimeout, first]
  rfl

/-! ### CBO.ZERO -/

/-- The entry of a CBO.ZERO. -/
def zeroEntry (h : Nat) (l : LineAddr) : SmbEntry := { hart := h, line := l, data := 0, mask := BitVec.allOnes 64, zero := true, draining := true }

theorem byteMask_allOnes : byteMask (BitVec.allOnes 64) = BitVec.allOnes 512 := by decide +kernel

/-- A line that takes the bytes of a CBO.ZERO holds zeros, and its poison is gone. -/
theorem L2Slot.drained_zeroEntry (x : L2Slot) (h : Nat) (l : LineAddr) : x.drained (zeroEntry h l) = { x with st := .M, data := 0, poison := false } := by
  simp only [L2Slot.drained, zeroEntry, mergeBytes, byteMask_allOnes]
  simp

/-- An instruction retires whose own entry is the one store of its tile and drains: it leaves the line's slot with the entry's bytes, and what it
changes beside its hart settles at once. -/
theorem Run.drains_retired (r : Run s0) {n h w : Nat} {e : SmbEntry} {x : L2Slot} (hn : n < 256) (still : r.1.still) (undisturbed : r.1.undisturbed h)
    (smb : (r.1.tile n).smb = [e]) (sq : (r.1.tile n).sq = []) (own : e.hart = h) (draining : e.draining = true) (sound : e.flip = none)
    (hit : r.1.l2Hit n e.line w x) (notS : x.st ≠ .S) (notO : x.st ≠ .O) (arm : r.1.unarmed n 5)
    (enabled : r.1.fld (L2CTL_STATUS_CACHE_DISABLE_PENDING n) = 0) (noResv : r.1.unreserved e.line) :
    ∃ t, ((r.retire h).go [.smb n]).done = .next t ∧ (t.hart h).pc = (r.1.hart h).pc + 4 ∧ (t.tile n).smb = [] ∧
      t.l2Slot (l2Key n e.line w) = some (x.drained e) := by
  obtain ⟨-, -, -, -, -, unwatched⟩ := id undisturbed
  obtain ⟨⟨hs, cs, ps, only⟩, -, -⟩ := r.retire_only h unwatched
  obtain ⟨moved, -⟩ := r.retire_leaves h unwatched
  have noResv := r.unreserved_retire h unwatched noResv
  have after := r.undisturbed_after_retire h h unwatched undisturbed
  have marked : ∀ k ∈ (r.retire h).1.poke, k = h := fun k hk =>
    (Run.mem_retire_poke unwatched hk).resolve_right fun before => by simp [still.2.1] at before
  have quiet : ((r.retire h).act (.poke [])).1.still := by
    rw [Run.act_val, only]
    exact State.still_of still still.1 rfl rfl rfl rfl
  generalize r.retire h = p at only moved noResv after marked quiet ⊢
  have tile : p.1.tile n = r.1.tile n := by rw [only]; rfl
  have flds : ∀ f, p.1.fld f = r.1.fld f := fun f => by rw [only]; rfl
  obtain ⟨done, emptied⟩ := p.drains_go hn (by rw [tile]; exact smb) (by rw [tile]; exact sq) draining sound
    (State.l2Hit_of hit (by rw [only]) (by rw [only])) notS notO ((flds _).trans arm) ((flds _).trans enabled) noResv (by rw [own, moved]; rfl)
  generalize p.go [.smb n] = q at done emptied ⊢
  obtain ⟨rs, i, d, l2, ts, goes⟩ := done.only
  refine ⟨q.over, q.done_idle ?_ fun k hk => ?_, ?_, emptied, done.slot⟩
  · obtain ⟨need, -, fence, drop⟩ := quiet
    refine State.still_of_online ⟨need, rfl, fence, drop⟩ ?_ rfl done.online ?_ ?_
    · rw [Run.act_val, goes]
      exact need
    · rw [Run.act_val, goes]
      rfl
    · rw [Run.act_val, goes]
      rfl
  · rw [marked k (by rw [goes] at hk; exact hk), goes]
    exact after
  · show (q.1.hart h).pc = _
    rw [goes]
    exact congrArg Hart.pc moved

/-- A CBO.ZERO in M-mode, of a line of memory and with no store left: its entry alone enters the merging buffer, and drains as it retires. -/
theorem execCboZero_enters {h : Fin 1024} {rs1 : Fin 32} {pa : Nat} {s : State} (free : s.free_ h) (drained : s.drained h) (mode : (s.hart h).mode = .m)
    (translates : (Run.start s).translate h .store ((Run.start s).effective h false).1 ((Run.start s).effective h false).2 false false
      (Cbo.tinst .zero) ((Run.start s).xr h rs1) 1 = (Run.start s, .ok pa 0))
    (mem : (regionOf pa).device = false) (room : (Run.start s).sqFree (tileOf h) h 1 = true) (arm : s.unarmed (tileOf h) 4) :
    exec (.cboZero h rs1) s = ((((Run.start s).modTile (tileOf h) fun t => { t with smb := [zeroEntry h (BitVec.ofNat 46 (pa / 64))] }).retire h).go
      [.smb (tileOf h)]).done := by
  obtain ⟨-, -, ready⟩ := free
  obtain ⟨smb, sq, -⟩ := drained
  have enters := (Run.start s).putStore_empty { hart := h, line := BitVec.ofNat 46 (pa / 64), data := 0, mask := BitVec.allOnes 64, zero := true, draining := true }
    smb sq arm
  show execCboZero h rs1 s = _
  simp only [execCboZero, ready, Bool.not_true, Bool.false_eq_true, if_false, Run.cbo, (Run.start s).cboEnable_machine h _ mode, Cbo.acs, translates,
    mem, if_true, Run.cboZeroLine, room, enters, Bool.true_or, zeroEntry]

/-- Settles O9: the entry, aged or of a CBO.ZERO, is the one of its tile; its line hits, so that the drain writes it at once, and no hart had
reserved the line or waits for the entry. -/
theorem drainsComplete : Obligations.DrainsComplete := by
  unfold Obligations.DrainsComplete
  refine ⟨?_, ?_⟩
  · intro n e w x s still smb sq sound hit notS notO arm enabled noResv idle
    exact smbIdleTimeout_drains n e w x s still smb sq sound hit notS notO arm enabled noResv idle
  · intro h rs1 w pa x s free drained mode translates mem room arm4 arm hit notS notO enabled noResv
    obtain ⟨still, undisturbed, -⟩ := id free
    obtain ⟨-, sq, -⟩ := id drained
    rw [execCboZero_enters free drained mode translates mem room arm4, ← x.drained_zeroEntry h (BitVec.ofNat 46 (pa / 64))]
    set r := (Run.start s).modTile (tileOf h) fun t => { t with smb := [zeroEntry h (BitVec.ofNat 46 (pa / 64))] } with hr
    have tile : r.1.tile (tileOf h) = _ := Run.tile_modTile_same (Run.start s) (tileOf h) _
    exact r.drains_retired (e := zeroEntry h (BitVec.ofNat 46 (pa / 64))) (h := h) (by rw [tileOf]; omega)
      (State.still_of still still.1 still.2.1 rfl rfl rfl) undisturbed (by rw [tile]) (by rw [tile]; exact sq) rfl rfl rfl (State.l2Hit_of hit rfl rfl)
      notS notO arm enabled noResv

end Sys2Proof.Machine

/-! Prefetches (R133), and DW.SWOP of the L1 caches (R144, R145). -/
namespace Sys2Proof.Machine

variable {s0 : State}

/-! ### A die without a line, and with nothing in flight -/

theorem Run.flushEv_none (r : Run s0) (n : Nat) (l : LineAddr) (net : r.1.net = []) : r.flushEv n l = r := by simp only [Run.flushEv, net, List.find?_nil]

theorem Run.flushDie_none (r : Run s0) (d : Nat) (l : LineAddr) (net : r.1.net = []) : r.flushDie d l = r :=
  List.foldlRecOn (motive := (· = r)) _ _ rfl fun q hq t _ => by rw [hq, r.flushEv_none _ l net]

/-- No slot of a line's set in a die's L3 holds anything. -/
def State.emptySet (s : State) (d : Nat) (l : LineAddr) : Prop := ∀ v < 16, s.l3Slot (l3Key d l v) = none

theorem Run.l3Find_emptySet (r : Run s0) {d : Nat} {l : LineAddr} (empty : r.1.emptySet d l) : r.l3Find d l = none := by
  rw [Run.l3Find, List.findSome?_eq_none_iff]
  intro v hv
  rw [Run.l3Slot, empty v (List.mem_range.1 hv)]

theorem Run.l3TagCheck_emptySet (r : Run s0) {d : Nat} {l : LineAddr} (empty : r.1.emptySet d l) : r.l3TagCheck d l = r := by
  unfold Run.l3TagCheck
  refine List.foldlRecOn (motive := (· = r)) _ _ rfl fun q hq v hv => ?_
  rw [hq, Run.l3Slot, empty v (List.mem_range.1 hv)]

/-- A slot that holds nothing has no request in flight, unless a miss register names it. -/
theorem Run.slotBusy_emptySet (r : Run s0) {d w : Nat} {l : LineAddr} (empty : r.1.emptySet d l) (hw : w < 16)
    (unplaced : ∀ m ∈ (r.quad (d * 4 + quadOf l)).miss, m.placed = false) : r.slotBusy d l w = false := by
  have slot : r.l3Slot (l3Key d l w) = none := empty w hw
  simp only [Run.slotBusy, slot, Bool.or_false, List.any_eq_false]
  intro m hm
  simp [unplaced m hm]

/-- The choice of a way rests on registers, slots and which of them are busy. -/
theorem Run.l3Pick_congr {r q : Run s0} {d p : Nat} {l : LineAddr} (regs : q.1.regs = r.1.regs) (l3 : q.1.l3 = r.1.l3)
    (busy : ∀ w < 16, q.slotBusy d l w = r.slotBusy d l w) : q.l3Pick d l p false = r.l3Pick d l p false := by
  have fld : ∀ f, q.fld f = r.fld f := fun f => by simp only [Run.fld, State.fld, State.reg, regs]
  have owner : ∀ w, q.wayOwner d w = r.wayOwner d w := fun w => by simp only [Run.wayOwner, Run.reg, State.reg, regs]
  have slot : ∀ k, q.l3Slot k = r.l3Slot k := fun k => by simp only [Run.l3Slot, State.l3Slot, l3]
  have ways : ((List.range 16).filter fun w => !q.slotBusy d l w) = (List.range 16).filter fun w => !r.slotBusy d l w :=
    List.filter_congr fun w hw => by rw [busy w (List.mem_range.1 hw)]
  unfold Run.l3Pick
  simp only [ways, fld, owner, slot, Bool.false_and]

/-- The way that a die chooses is one of its sixteen. -/
theorem Run.l3Pick_lt (r : Run s0) {d p w : Nat} {l : LineAddr} {clean : Bool} (pick : r.l3Pick d l p clean = some w) : w < 16 := by
  have free : ∀ {f g : Nat → Bool} {v : Nat}, v ∈ ((List.range 16).filter f).filter g → v < 16 :=
    fun hv => List.mem_range.1 (List.mem_of_mem_filter (List.mem_of_mem_filter hv))
  unfold Run.l3Pick at pick
  dsimp only at pick
  split at pick
  next v first =>
    cases pick
    exact free (List.mem_of_find?_eq_some first)
  next =>
    split at pick
    next v second =>
      cases pick
      exact free (List.mem_of_find?_eq_some second)
    next =>
      split at pick
      next => cases pick
      next v vs old =>
        cases pick
        refine free (Eq.mpr (congrArg (_ ∈ ·) old) ?_)
        exact List.foldlRecOn (motive := (· ∈ v :: vs)) _ _ List.mem_cons_self fun b hb x hx => by split <;> assumption

/-! ### A first miss of a line on its die -/

/-- A line has been asked for: beside one message sent, only miss registers of tiles and quadrants have changed. -/
structure Run.asked (m : Msg) (r q : Run s0) : Prop where
  only : ∃ ts qs, q.1 = { r.1 with tiles := ts, quads := qs, net := r.1.net ++ [m] }
  waiting : ∀ k, (q.1.quad k).waiting = (r.1.quad k).waiting

/-- A change of tiles before a line is asked for is part of asking for it. -/
theorem Run.asked.after {m : Msg} {r q t : Run s0} (c : Run.asked m q t) {ts : Sparse Tile} (only : q.1 = { r.1 with tiles := ts }) : Run.asked m r t := by
  obtain ⟨⟨ts', qs, asks⟩, kept⟩ := c
  exact ⟨⟨ts', qs, by rw [asks, only]⟩, fun k => by rw [kept, only]; rfl⟩

/-- The request of a die for a line, with the way that it names. -/
def askMsg (d : Nat) (l : LineAddr) (w : Nat) (k : MsgKind) : Msg :=
  { kind := k, src := .die (Fin.ofNat 16 d), dst := homeOf l, line := l, way := Fin.ofNat 16 w }

/-- The one miss register of a tile sends its request to the quadrant. -/
theorem Run.doLaunch_one (r : Run s0) {n : Nat} {l : LineAddr} {own : Bool} {ws : List Want}
    (miss : (r.tile n).miss = [{ line := l, own := own, want := ws }]) (net : r.1.net = []) (absent : r.l2Find n l = none) :
    r.doLaunch n l = (r.modTile n fun t => { t with miss := [{ line := l, own := own, sent := true, want := ws }] }, [.quad n l (if own then .rdX else .rdS)]) := by
  have noState : (r.modTile n fun t => { t with miss := [{ line := l, own := own, sent := true, want := ws }] }).l2St n l = .I := by
    have same : (r.modTile n fun t => { t with miss := [{ line := l, own := own, sent := true, want := ws }] }).l2Find n l = none := absent
    simp only [Run.l2St, same, Option.map_none, Option.getD_none]
  have sends : (r.modTile n fun t => { t with miss := t.miss.map fun x => if x.line = l then { x with sent := true } else x }) =
      r.modTile n fun t => { t with miss := [{ line := l, own := own, sent := true, want := ws }] } := by
    simp only [Run.modTile, miss, List.map_cons, List.map_nil, if_true]
  unfold Run.doLaunch
  simp only [miss, List.find?_cons_of_pos, decide_true, Bool.false_or, r.flushEv_none n l net, sends, noState]
  cases own <;> simp

theorem Run.quad_modQuad (r : Run s0) (j k : Nat) (f : Quad → Quad) : (r.modQuad j f).quad k = if k = j then f (r.quad j) else r.quad k := by
  split
  next own => simp [own, Run.modQuad, Run.quad, Run.setQuad, State.quad]
  next other => exact Sparse.get_upd_other _ _ _ other

/-- A change of a quadrant that keeps what waits at it keeps what waits at each. -/
theorem Run.waiting_modQuad (r : Run s0) (j k : Nat) {f : Quad → Quad} (keeps : (f (r.quad j)).waiting = (r.quad j).waiting) :
    ((r.modQuad j f).1.quad k).waiting = (r.1.quad k).waiting := by
  refine (congrArg Quad.waiting (r.quad_modQuad j k f)).trans ?_
  split
  next own => rw [keeps, own]; rfl
  next => rfl

/-- A miss register sends its request to the home of its line. -/
theorem Run.quadSend_asked (r : Run s0) (d w : Nat) (x : QMiss) (noOne : ∀ p ∈ x.tiles, r.asker p.1 x.line = none) :
    Run.asked (askMsg d x.line w x.kind) r (r.quadSend d x w .I) := by
  have who : (x.tiles.findSome? fun p => r.asker p.1 x.line) = none := List.findSome?_eq_none_iff.2 noOne
  have kept : ∀ v, ((r.modMiss (d * 4 + quadOf x.line) x.line fun m => { m with way := w, placed := true }).1.quad v).waiting = (r.1.quad v).waiting :=
    fun v => r.waiting_modQuad _ v rfl
  simp only [Run.quadSend, who]
  exact ⟨⟨_, _, rfl⟩, kept⟩

/-- A quadrant with no miss register in use takes a request for a line whose set is empty to the line's home, with a way of its own choice. -/
theorem Run.quadMiss_asked (r : Run s0) {d n w : Nat} {l : LineAddr} {k : MsgKind} (miss : (r.quad (d * 4 + quadOf l)).miss = [])
    (empty : r.1.emptySet d l) (on : r.l3Off d l = false) (pick : r.l3Pick d l (r.partOf d (l.toNat * 64)) false = some w)
    (noOne : r.asker n l = none) : Run.asked (askMsg d l w k) r (r.quadMiss d n l k k) := by
  have hw := r.l3Pick_lt pick
  set x : QMiss := { line := l, way := 0, kind := k, tiles := [(n, k)], alloc := true, part := r.partOf d (l.toNat * 64), placed := false } with hx
  set q := r.modQuad (d * 4 + quadOf l) fun q => { q with miss := q.miss ++ [x] } with hq
  have emptyQ : q.1.emptySet d l := empty
  have slot : q.l3Slot (l3Key d l w) = none := emptyQ w hw
  have busy : ∀ v < 16, q.slotBusy d l v = r.slotBusy d l v := fun v hv => by
    have one : (q.quad (d * 4 + quadOf l)).miss = [x] := by rw [hq, Run.quad_modQuad, if_pos rfl, miss, List.nil_append]
    rw [q.slotBusy_emptySet emptyQ hv (by simp [one, hx]), r.slotBusy_emptySet empty hv (by simp [miss])]
  have picks : q.l3Pick d l (r.partOf d (l.toNat * 64)) false = some w := (Run.l3Pick_congr (r := r) (q := q) rfl rfl busy).trans pick
  have noOneQ : ∀ p ∈ x.tiles, q.asker p.1 x.line = none := fun p hp => by
    rw [List.mem_singleton.1 hp]
    exact noOne
  have find : q.l3Find d l = none := q.l3Find_emptySet emptyQ
  have sends : r.quadMiss d n l k k = q.quadSend d x w .I := by
    unfold Run.quadMiss
    simp only [miss, List.length_nil, on, Bool.not_false, ← hx, ← hq, find, Run.quadPlace, picks, slot, if_true]
    rfl
  obtain ⟨⟨ts, qs, only⟩, kept⟩ := q.quadSend_asked d w x noOneQ
  rw [sends]
  exact ⟨⟨ts, qs, only⟩, fun v => (kept v).trans (r.waiting_modQuad _ v rfl)⟩

/-- A request for a line that its quadrant does not hold, and has not asked for, goes to the line's home. -/
theorem Run.doQuad_asked (r : Run s0) {n w : Nat} {l : LineAddr} {k : MsgKind} (net : r.1.net = []) (miss : (r.quad (dieOf n * 4 + quadOf l)).miss = [])
    (vict : (r.quad (dieOf n * 4 + quadOf l)).vict = []) (empty : r.1.emptySet (dieOf n) l) (on : r.l3Off (dieOf n) l = false)
    (pick : r.l3Pick (dieOf n) l (r.partOf (dieOf n) (l.toNat * 64)) false = some w) (noOne : r.asker n l = none) (other : k ≠ .upg) :
    (r.doQuad n l k).2 = [] ∧ Run.asked (askMsg (dieOf n) l w k) r (r.doQuad n l k).1 := by
  have find : r.l3Find (dieOf n) l = none := r.l3Find_emptySet empty
  have sends : r.doQuad n l k = (r.quadMiss (dieOf n) n l k k, []) := by
    simp only [Run.doQuad, miss, vict, List.any_nil, Bool.false_eq_true, if_false, r.flushDie_none _ l net, r.l3TagCheck_emptySet empty, find, Run.l3Broken,
      Bool.false_and, Run.l3Check, if_neg other]
  rw [sends]
  exact ⟨rfl, r.quadMiss_asked miss empty on pick noOne⟩

/-- The kind of a request for a line, to own it or to share it. -/
def askKind (own : Bool) : MsgKind := if own then .rdX else .rdS

/-- A run in which a prefetch has one miss register of a tile. -/
def Run.prefetchMiss (r : Run s0) (n : Nat) (l : LineAddr) (own sent : Bool) : Run s0 :=
  r.modTile n fun t => { t with miss := [{ line := l, own := own, sent := sent, want := [.prefetch false] }] }

theorem Run.miss_prefetchMiss (r : Run s0) (n : Nat) (l : LineAddr) (own sent : Bool) :
    ((r.prefetchMiss n l own sent).tile n).miss = [{ line := l, own := own, sent := sent, want := [.prefetch false] }] := by
  rw [Run.prefetchMiss, Run.tile, Run.tile_modTile_same]

/-- A prefetch of a line that is not in its tile, nor in its die, sends its request to the line's home. -/
theorem Run.prefetch_asked (s : State) {n w : Nat} {l : LineAddr} (own : Bool) (net : s.net = []) (can : s.canMiss n l w) :
    Run.asked (askMsg (dieOf n) l w (askKind own)) (Run.start s) (((Run.start s).miss n l own false (.prefetch false)).go [.launch n l]) := by
  obtain ⟨absent, noMiss, miss, vict, empty, on, pick⟩ := can
  have opens : (Run.start s).miss n l own false (.prefetch false) = (Run.start s).prefetchMiss n l own false := by
    simp only [Run.miss, Want.who, Run.prefetchMiss, Run.modTile, show ((Run.start s).tile n).miss = [] from noMiss, List.any_nil, Bool.false_eq_true, if_false,
      List.nil_append]
  set p := (Run.start s).prefetchMiss n l own false with hp
  set q := p.prefetchMiss n l own true with hq
  have launches : p.doLaunch n l = (q, [.quad n l (askKind own)]) := p.doLaunch_one ((Run.start s).miss_prefetchMiss n l own false) net absent
  have noOne : q.asker n l = none := by
    simp [Run.asker, hq, Run.miss_prefetchMiss, Want.who]
  have emptyQ : q.1.emptySet (dieOf n) l := empty
  have busy : ∀ v < 16, q.slotBusy (dieOf n) l v = (Run.start s).slotBusy (dieOf n) l v := fun v hv => rfl
  have picks : q.l3Pick (dieOf n) l (q.partOf (dieOf n) (l.toNat * 64)) false = some w := (Run.l3Pick_congr (q := q) (r := Run.start s) rfl rfl busy).trans pick
  obtain ⟨rest, asks⟩ := q.doQuad_asked (k := askKind own) net miss vict emptyQ on picks noOne (by cases own <;> decide)
  have goes : p.go [.launch n l] = (q.doQuad n l (askKind own)).1 := by
    have bound : driveBound = 19997 + 1 + 1 + 1 := rfl
    rw [Run.go, bound, Run.drive]
    simp only [launches, List.append_nil, Run.drive]
    rw [rest, Run.drive]
  rw [opens, goes]
  exact asks.after (ts := q.1.tiles) rfl

/-- A request to a home leaves nothing to settle on the die. -/
theorem Run.asked.still {m : Msg} {r q : Run s0} (c : Run.asked m r q) (still : r.1.still) (outside : Agent.onDie m.dst = none) : q.1.still := by
  obtain ⟨ts, qs, only⟩ := c.only
  have sent := r.still_send m still outside
  rw [only]
  exact State.still_of sent sent.1 sent.2.1 rfl rfl rfl

theorem Run.asked.undisturbed {m : Msg} {r q : Run s0} (c : Run.asked m r q) {h : Nat} (u : r.1.undisturbed h) : q.1.undisturbed h := by
  obtain ⟨idle, rest⟩ := u
  refine ⟨fun k hk => (c.waiting _).trans (idle k hk), ?_⟩
  obtain ⟨ts, qs, only⟩ := c.only
  rw [only]
  exact rest

/-- A prefetch that is not for execution ends its command with its request sent, and its hart moves on. -/
theorem prefetch_sends {h : Fin 1024} {rs1 : Fin 32} {imm : BitVec 12} {w pa : Nat} {s : State} {acc : Acs} (free : s.free_ h) (net : s.net = [])
    (can : s.canMiss (tileOf h) (BitVec.ofNat 46 (pa / 64)) w) (data : acc ≠ .fetch)
    (translates : (Run.start s).translate h acc ((Run.start s).effective h false).1 ((Run.start s).effective h false).2 false false 0
      ((Run.start s).xr h rs1 + (imm &&& 0xFE0).signExtend 64) 1 = (Run.start s, .ok pa 0)) (mem : regionOf pa = .memory) :
    ∃ t, ((Run.start s).prefetch h rs1 imm acc).done = .next t ∧ (t.hart h).pc = (s.hart h).pc + 4 ∧
      t.net = [askMsg (dieOf (tileOf h)) (BitVec.ofNat 46 (pa / 64)) w (askKind (acc == .store))] := by
  obtain ⟨still, undisturbed, -⟩ := free
  obtain ⟨absent, noMiss, -⟩ := id can
  have asks := Run.prefetch_asked s (acc == .store) net can
  have noLine : (Run.start s).l2Has (tileOf h) (BitVec.ofNat 46 (pa / 64)) (acc == .store) = false := by
    simp only [Run.l2Has, Run.l2St, absent, Option.map_none, Option.getD_none]
  have misses : (Run.start s).prefetch h rs1 imm acc = ((((Run.start s).miss (tileOf h) (BitVec.ofNat 46 (pa / 64)) (acc == .store) false (.prefetch false)).go
      [.launch (tileOf h) (BitVec.ofNat 46 (pa / 64))]).retire h) := by
    simp only [Run.prefetch, translates, mem, noLine, beq_eq_false_iff_ne.2 data, show ((Run.start s).tile (tileOf h)).miss = [] from noMiss, List.any_nil,
      List.length_nil, Bool.false_and, Bool.false_eq_true, if_false, ne_eq, not_true_eq_false]
    rw [if_neg (by decide)]
  rw [misses]
  generalize ((Run.start s).miss (tileOf h) _ _ _ _).go _ = q at asks ⊢
  obtain ⟨-, -, -, -, -, unwatched⟩ := id (asks.undisturbed undisturbed)
  obtain ⟨moved, -⟩ := q.retire_leaves h unwatched
  obtain ⟨-, -, sent, -⟩ := q.retire_keeps h unwatched
  obtain ⟨ts, qs, only⟩ := asks.only
  refine ⟨_, q.done_retire h (asks.still still rfl) (asks.undisturbed undisturbed), ?_, ?_⟩
  · show ((q.retire h).1.hart h).pc = _
    rw [moved, only]
    rfl
  · show (q.retire h).1.net = _
    rw [sent, only]
    exact congrArg (· ++ _) net

/-- What an access that retires leaves of the L1 caches and of the integer registers. -/
theorem State.accessed.retires_l1 {s : State} {h : Nat} {q : Run s} (c : s.accessed h q.1) (still : s.still) (u : s.undisturbed h) :
    ∃ t, (q.retire h).done = .next t ∧ (t.hart h).pc = (s.hart h).pc + 4 ∧ t.l1i = q.1.l1i ∧ t.l1d = q.1.l1d ∧ ∀ i, (Run.start t).xr h i = q.xr h i := by
  obtain ⟨-, -, -, -, -, unwatched⟩ := c.undisturbed u
  obtain ⟨⟨hs, cs, ps, only⟩, -, -⟩ := q.retire_only h unwatched
  obtain ⟨ends, pc, -, -⟩ := c.done_retire still u
  have l1i : (q.retire h).1.l1i = q.1.l1i := by rw [only]
  have l1d : (q.retire h).1.l1d = q.1.l1d := by rw [only]
  exact ⟨_, ends, pc, l1i, l1d, fun i => q.xr_retire h i unwatched⟩

/-! ### A fill of the L1I, and DW.SWOP of the L1 caches -/

theorem Run.armTake_unarmed (r : Run s0) {d a : Nat} (arm : r.1.fld (ARR_FLIP_ARM d a) = 0) : r.armTake d a = (r, none) := by
  rw [Run.armTake, if_neg]
  simpa [Run.on, Run.fld] using arm

/-- A line that the L1I does not hold fills one of its ways. -/
theorem Run.l1Fill_inst (r : Run s0) {n : Nat} {l : LineAddr} (l2 : r.l2Off n = false) (l3 : r.l3Off (dieOf n) l = false) (absent : r.l1iFind n l = none)
    (data : r.1.unarmed n 0) (tags : r.1.unarmed n 1) :
    ∃ w k f, r.l1Fill n l true = (r.modPlruBits k f).setL1iSlot (l1Key n l w) (some { line := l }) := by
  have first : ∀ k f, (r.modPlruBits k f).armTake (dieOf n) (n % 16 * 8) = (r.modPlruBits k f, none) := fun k f => Run.armTake_unarmed _ data
  have second : ∀ k f, (r.modPlruBits k f).armTake (dieOf n) (n % 16 * 8 + 1) = (r.modPlruBits k f, none) := fun k f => Run.armTake_unarmed _ tags
  simp only [Run.l1Fill, l2, l3, absent, Bool.or_false, Bool.false_eq_true, if_false, if_true, Option.isSome_none, Nat.add_zero, first, second, mkFlip]
  exact ⟨_, _, _, rfl⟩

/-- A prefetch to be executed, of a line that the L2 holds, fills the L1I and retires. -/
theorem prefetchI_fills (h : Fin 1024) (rs1 : Fin 32) (imm : BitVec 12) (pa : Nat) (s : State) (free : s.free_ h)
    (translates : (Run.start s).translate h .fetch ((Run.start s).effective h false).1 ((Run.start s).effective h false).2 false false 0
      ((Run.start s).xr h rs1 + (imm &&& 0xFE0).signExtend 64) 1 = (Run.start s, .ok pa 0)) (mem : regionOf pa = .memory)
    (has : (Run.start s).l2Has (tileOf h) (BitVec.ofNat 46 (pa / 64)) false = true) (absent : (Run.start s).l1iFind (tileOf h) (BitVec.ofNat 46 (pa / 64)) = none)
    (l2 : (Run.start s).l2Off (tileOf h) = false) (l3 : (Run.start s).l3Off (dieOf (tileOf h)) (BitVec.ofNat 46 (pa / 64)) = false)
    (data : s.unarmed (tileOf h) 0) (tags : s.unarmed (tileOf h) 1) :
    ∃ t w, exec (.prefetchI h rs1 imm) s = .next t ∧ (t.hart h).pc = (s.hart h).pc + 4 ∧
      t.l1iSlot (l1Key (tileOf h) (BitVec.ofNat 46 (pa / 64)) w) = some { line := BitVec.ofNat 46 (pa / 64) } := by
  obtain ⟨still, undisturbed, ready⟩ := free
  obtain ⟨w, k, f, fills⟩ := (Run.start s).l1Fill_inst l2 l3 absent data tags
  have retires : execPrefetchI h rs1 imm s = (((Run.start s).l1Fill (tileOf h) (BitVec.ofNat 46 (pa / 64)) true).retire h).done := by
    have shared : (Acs.fetch == Acs.store) = false := rfl
    simp only [execPrefetchI, ready, Run.prefetch, translates, mem, shared, has, beq_self_eq_true, Bool.not_true, Bool.false_eq_true, if_false, if_true, ne_eq,
      not_true_eq_false]
  set q := (Run.start s).l1Fill (tileOf h) (BitVec.ofNat 46 (pa / 64)) true with hq
  have filled : q.1.l1iSlot (l1Key (tileOf h) (BitVec.ofNat 46 (pa / 64)) w) = some { line := BitVec.ofNat 46 (pa / 64) } := by
    rw [fills]
    simp [Run.setL1iSlot]
  have acc : s.accessed h q.1 := by
    rw [fills]
    exact State.accessed_of (hs := s.harts) (l1d := s.l1d) (l2 := s.l2) (xs := s.xs) rfl rfl
  clear_value q
  obtain ⟨t, ends, pc, l1i, -⟩ := acc.retires_l1 still undisturbed
  refine ⟨t, w, retires.trans ends, pc, ?_⟩
  rw [← filled, State.l1iSlot, l1i]
  rfl

/-- A hart performs a DW.SWOP of the L1 caches, with invalidation, as it is executed: both slots are empty, and its result is 0. -/
theorem Run.go_swop (r : Run s0) {h : Fin 1024} {set way rd : Nat} (waits : (r.hart h).wait = some (.swop 1 0 set way rd)) (hset : set < 64) (hway : way < 16) :
    r.go [.hart h] =
      ((((r.setL1iSlot ((tileOf h * 64 + set) * 16 + way) none).setL1dSlot ((tileOf h * 64 + set) * 16 + way) none).setXr h rd 0).retire h) := by
  refine r.go_hart ?_
  simp [Run.doHart, waits, Run.swop, Nat.not_le.2 hset, Nat.not_le.2 hway]

/-- A DW.SWOP of level 0 with invalidation, in M-mode and with no store left, empties the named slot of each L1 cache. -/
theorem dwSwop_empties (h : Fin 1024) (rd rs1 : Fin 32) (s : State) (free : s.free_ h) (drained : s.drained h) (mode : (s.hart h).mode = .m)
    (hset : Word.bits ((Run.start s).xr h rs1) 14 0 < 64) (zeros : (Run.start s).xr h rs1 &&& ~~~ 0xF00007FFF = 0) :
    let k := (tileOf h * 64 + Word.bits ((Run.start s).xr h rs1) 14 0) * 16 + Word.bits ((Run.start s).xr h rs1) 35 32
    ∃ t, exec (.dwSwop h rd rs1 1) s = .next t ∧ (t.hart h).pc = (s.hart h).pc + 4 ∧ (rd ≠ 0 → (Run.start t).xr h rd = 0) ∧
      t.l1iSlot k = none ∧ t.l1dSlot k = none := by
  intro k
  obtain ⟨still, undisturbed, ready⟩ := free
  set slot_ := Word.bits ((Run.start s).xr h rs1) 14 0 with hs
  set way := Word.bits ((Run.start s).xr h rs1) 35 32 with hw
  set r := (Run.start s).modHart h fun t => { t with wait := some (.swop 1 0 slot_ way rd) } with hr
  have waits : (r.hart h).wait = some (.swop 1 0 slot_ way rd) := by
    simp [hr, Run.modHart, Run.hart]
  have acc : s.accessed h r.1 := (Run.start s).accessed_modHart h rfl
  have begins : execDwSwop h rd rs1 1 s = (r.go [.hart h]).done := by
    have op : natBits (1 : BitVec 12).toNat 1 0 = 1 := rfl
    have level : natBits (1 : BitVec 12).toNat 3 2 = 0 := rfl
    have small : ¬ 16 ≤ (1 : BitVec 12).toNat := by decide
    have machine : ((Run.start s).hart h).mode = .m := mode
    simp only [execDwSwop, Run.dwSwop, ready, machine, op, level, small, zeros, Mode.virt]
    simp [(Run.start s).after_drained h _ _ drained, Run.goOn, hr, hs, hw]
  have hway : way < 16 := by
    rw [hw, Word.bits]
    omega
  set q := (r.setL1iSlot k none).setL1dSlot k none with hq
  have emptied : q.1.l1iSlot k = none ∧ q.1.l1dSlot k = none := by
    simp [hq, Run.setL1iSlot, Run.setL1dSlot]
  have acc : s.accessed h q.1 := acc.trans (State.accessed_of (hs := r.1.harts) (l2 := r.1.l2) (plru := r.1.plru) (xs := r.1.xs) rfl rfl)
  obtain ⟨t, ends, pc, l1i, l1d, xr⟩ := (acc.trans (q.accessed_setXr h rd 0)).retires_l1 still undisturbed
  obtain ⟨xs, only⟩ := q.setXr_only h rd 0
  refine ⟨t, ?_, pc, fun rd0 => ?_, ?_, ?_⟩
  · show execDwSwop h rd rs1 1 s = _
    rw [begins, r.go_swop waits hset hway]
    exact ends
  · rw [xr, q.xr_setXr]
    exact fun zero => rd0 (Fin.ext zero)
  · rw [State.l1iSlot, l1i, only]
    exact emptied.1
  · rw [State.l1dSlot, l1d, only]
    exact emptied.2

/-- Settles O11: a first miss of a line asks its home, a fill takes a free or chosen way, and a DW.SWOP of the L1 caches is performed as it is executed. -/
theorem prefetchAndSlotComplete : Obligations.PrefetchAndSlotComplete := by
  unfold Obligations.PrefetchAndSlotComplete
  refine ⟨?_, ?_, prefetchI_fills, dwSwop_empties⟩
  · intro h rs1 imm w pa s free net can translates mem
    obtain ⟨-, -, ready⟩ := id free
    show ∃ t, execPrefetchR h rs1 imm s = _ ∧ _
    rw [execPrefetchR, ready]
    exact prefetch_sends free net can (by decide) translates mem
  · intro h rs1 imm w pa s free net can translates mem
    obtain ⟨-, -, ready⟩ := id free
    show ∃ t, execPrefetchW h rs1 imm s = _ ∧ _
    rw [execPrefetchW, ready]
    exact prefetch_sends free net can (by decide) translates mem

end Sys2Proof.Machine

/-! Writes of the registers of caches: CTL of an L2 and of an L3, PARTWAYS, WAYLOCK and WAYOWNER (R148 to R151, R154). -/
namespace Sys2Proof.Machine

variable {s0 : State}

/-! ### The registers -/

/-- The family of L2CTL.CTL. -/
abbrev l2ctlFamily : Family := ⟨.L2CTL_CTL, 0x400000, [(16, 0x100000000), (16, 0x1000000)], fields_L2CTL_CTL⟩

/-- The family of L3.CTL. -/
abbrev l3ctlFamily : Family := ⟨.L3_CTL, 0x10000000, [(16, 0x100000000)], fields_L3_CTL⟩

/-- The family of L3.PARTWAYS. -/
abbrev partwaysFamily : Family := ⟨.L3_PARTWAYS, 0x10000100, [(16, 0x100000000), (16, 0x8)], fields_L3_PARTWAYS⟩

/-- The family of L3.WAYLOCK. -/
abbrev waylockFamily : Family := ⟨.L3_WAYLOCK, 0x10000010, [(16, 0x100000000)], fields_L3_WAYLOCK⟩

/-- The family of L3.WAYOWNER. -/
abbrev wayownerFamily : Family := ⟨.L3_WAYOWNER, 0x10000018, [(16, 0x100000000)], fields_L3_WAYOWNER⟩

theorem L2CTL_CTL_placed : ∀ n : Fin 256, (L2CTL_CTL n).placed l2ctlFamily [n / 16, n % 16] := by
  unfold Reg.placed
  decide +kernel

theorem L3_CTL_placed : ∀ d : Fin 16, (L3_CTL d).placed l3ctlFamily [d.val] := by
  unfold Reg.placed
  decide +kernel

theorem L3_PARTWAYS_placed : ∀ d p : Fin 16, (L3_PARTWAYS d p).placed partwaysFamily [d.val, p.val] := by
  unfold Reg.placed
  decide +kernel

theorem L3_WAYLOCK_placed : ∀ d : Fin 16, (L3_WAYLOCK d).placed waylockFamily [d.val] := by
  unfold Reg.placed
  decide +kernel

theorem L3_WAYOWNER_placed : ∀ d : Fin 16, (L3_WAYOWNER d).placed wayownerFamily [d.val] := by
  unfold Reg.placed
  decide +kernel

theorem l2ctlFamily_reg (n : Nat) : l2ctlFamily.reg (L2CTL_CTL n).off = L2CTL_CTL n := by
  simp [Family.reg, fieldsMask, fieldsRst, fields_L2CTL_CTL, L2CTL_CTL]

theorem l3ctlFamily_reg (d : Nat) : l3ctlFamily.reg (L3_CTL d).off = L3_CTL d := by
  simp [Family.reg, fieldsMask, fieldsRst, fields_L3_CTL, L3_CTL]

theorem partwaysFamily_reg (d p : Nat) : partwaysFamily.reg (L3_PARTWAYS d p).off = L3_PARTWAYS d p := by
  simp [Family.reg, fieldsMask, fieldsRst, fields_L3_PARTWAYS, L3_PARTWAYS]

theorem waylockFamily_reg (d : Nat) : waylockFamily.reg (L3_WAYLOCK d).off = L3_WAYLOCK d := by
  simp [Family.reg, fieldsMask, fieldsRst, fields_L3_WAYLOCK, L3_WAYLOCK]

theorem wayownerFamily_reg (d : Nat) : wayownerFamily.reg (L3_WAYOWNER d).off = L3_WAYOWNER d := by
  simp [Family.reg, fieldsMask, fieldsRst, fields_L3_WAYOWNER, L3_WAYOWNER]

/-- The offsets of an L3's block. -/
def l3Area (d o : Nat) : Prop := 0x10000000 + d * 0x100000000 ≤ o ∧ o < 0x10001000 + d * 0x100000000

theorem l3Area_regs {d p : Nat} (hp : p < 16) :
    l3Area d (L3_CTL d).off ∧ l3Area d (L3_STATUS d).off ∧ l3Area d (L3_PARTWAYS d p).off ∧ l3Area d (L3_WAYLOCK d).off ∧ l3Area d (L3_WAYOWNER d).off := by
  simp only [l3Area, L3_CTL, L3_STATUS, L3_PARTWAYS, L3_WAYLOCK, L3_WAYOWNER]
  omega

theorem noLink_l3Area {d o : Nat} (hd : d < 16) (h : l3Area d o) : o < 2 ^ 36 ∧ o / 2 ^ 32 = d ∧ noLink o := by
  simp only [l3Area] at h
  refine ⟨by omega, by omega, fun k _ => ?_⟩
  simp only [RLINK_STAT]
  omega

/-- A full write of a register in an L3's block reaches it. -/
theorem Run.write_l3 (r : Run s0) (q : Requester) {g : Reg} {f : Family} {ix : List Nat} (d : Fin 16) (v : Word) (w : r.1.writer q) (on : r.1.online d = true)
    (at_ : g.placed f ix) (area : l3Area d g.off) : r.write q g v = r.regPut q f ix g.off (BitVec.allOnes 64) v := by
  obtain ⟨low, die, -⟩ := noLink_l3Area d.isLt area
  exact r.write_placed q v w at_ (fun _ => by rw [die]; exact on) (.inl low)

/-! ### What a write leaves in its register -/

/-- What a full write leaves in a register whose block is idle, where the configuration lock keeps none of its fields. -/
def Run.fullWrite (r : Run s0) (g : Reg) (fs : List Field) (v : Word) : Word := applyFields fs (r.reg g) v (BitVec.allOnes 64) true true

/-- A configuration lock keeps only the fields that are under it. -/
theorem applyFields_unlocked {fs : List Field} (old v mask : Word) (b rwq : Bool) (h : ∀ x ∈ fs, x.acc.l = false) :
    applyFields fs old v mask b rwq = applyFields fs old v mask true rwq := by
  induction fs generalizing old with
  | nil => rfl
  | cons x xs ih =>
    obtain ⟨lx, h⟩ := List.forall_mem_cons.1 h
    have one : applyFields [x] old v mask b rwq = applyFields [x] old v mask true rwq := by
      simp only [applyFields, List.foldl_cons, List.foldl_nil, lx, Bool.false_and]
    rw [applyFields_cons, one, ih _ h, ← applyFields_cons]

/-- The block of an L3 is idle while it sweeps nothing and no disable is pending (R498). -/
def Run.l3Idle (r : Run s0) (d : Nat) : Prop := r.1.fld (L3_STATUS_SWEEP d) = 0 ∧ r.1.fld (L3_STATUS_CACHE_DISABLE_PENDING d) = 0

theorem Run.l3Idle.off {r : Run s0} {d : Nat} (h : r.l3Idle d) :
    r.on (L3_STATUS_SWEEP d) = false ∧ r.on (L3_STATUS_CACHE_DISABLE_PENDING d) = false := by
  obtain ⟨sweep, pending⟩ := h
  simp [Run.on, Run.fld, sweep, pending]

theorem Run.regPut_l2ctl (r : Run s0) (q : Requester) (n : Nat) (v : Word) (idle : r.1.fld (L2CTL_STATUS_CACHE_DISABLE_PENDING n) = 0) :
    r.regPut q l2ctlFamily [n / 16, n % 16] (L2CTL_CTL n).off (BitVec.allOnes 64) v = r.wL2ctl n (r.fullWrite (L2CTL_CTL n) fields_L2CTL_CTL v) := by
  have idle : r.on (L2CTL_STATUS_CACHE_DISABLE_PENDING n) = false := by simp [Run.on, Run.fld, idle]
  have number : n / 16 * 16 + n % 16 = n := Nat.div_add_mod' n 16
  have fields : ∀ b, applyFields fields_L2CTL_CTL (r.reg (L2CTL_CTL n)) v (BitVec.allOnes 64) b true = r.fullWrite (L2CTL_CTL n) fields_L2CTL_CTL v :=
    fun b => applyFields_unlocked _ _ _ b true (by decide)
  unfold Run.regPut
  simp only [Run.regRefuse, l2ctlFamily_reg, Run.blockIdle, number, idle, fields, actionReg, Bool.not_false, Bool.not_true, Bool.false_and, Bool.or_self,
    Bool.false_eq_true, if_false]

theorem Run.regPut_l3ctl (r : Run s0) (q : Requester) (d : Nat) (v : Word) (idle : r.l3Idle d) :
    r.regPut q l3ctlFamily [d] (L3_CTL d).off (BitVec.allOnes 64) v = r.wL3ctl d (r.fullWrite (L3_CTL d) fields_L3_CTL v) := by
  obtain ⟨sweep, pending⟩ := idle.off
  have fields : ∀ b, applyFields fields_L3_CTL (r.reg (L3_CTL d)) v (BitVec.allOnes 64) b true = r.fullWrite (L3_CTL d) fields_L3_CTL v :=
    fun b => applyFields_unlocked _ _ _ b true (by decide)
  unfold Run.regPut
  simp only [Run.regRefuse, l3ctlFamily_reg, Run.blockIdle, sweep, pending, fields, actionReg, Bool.not_false, Bool.not_true, Bool.false_and, Bool.or_self,
    Bool.and_self, Bool.false_eq_true, if_false]

theorem Run.regPut_waylock (r : Run s0) (q : Requester) (d : Nat) (v : Word) (idle : r.l3Idle d) :
    r.regPut q waylockFamily [d] (L3_WAYLOCK d).off (BitVec.allOnes 64) v =
      r.wLock d (r.fullWrite (L3_WAYLOCK d) fields_L3_WAYLOCK v).toNat (r.reg (L3_WAYOWNER d)).toNat := by
  obtain ⟨sweep, pending⟩ := idle.off
  have fields : ∀ b, applyFields fields_L3_WAYLOCK (r.reg (L3_WAYLOCK d)) v (BitVec.allOnes 64) b true = r.fullWrite (L3_WAYLOCK d) fields_L3_WAYLOCK v :=
    fun b => applyFields_unlocked _ _ _ b true (by decide)
  unfold Run.regPut
  simp only [Run.regRefuse, waylockFamily_reg, Run.blockIdle, sweep, pending, fields, actionReg, Bool.not_false, Bool.not_true, Bool.false_and, Bool.or_self,
    Bool.and_self, Bool.false_eq_true, if_false, if_true]

theorem Run.regPut_wayowner (r : Run s0) (q : Requester) (d : Nat) (v : Word) (idle : r.l3Idle d) :
    r.regPut q wayownerFamily [d] (L3_WAYOWNER d).off (BitVec.allOnes 64) v =
      r.wLock d (r.fld (L3_WAYLOCK_LOCK d)) (r.fullWrite (L3_WAYOWNER d) fields_L3_WAYOWNER v).toNat := by
  obtain ⟨sweep, pending⟩ := idle.off
  have fields : ∀ b, applyFields fields_L3_WAYOWNER (r.reg (L3_WAYOWNER d)) v (BitVec.allOnes 64) b true = r.fullWrite (L3_WAYOWNER d) fields_L3_WAYOWNER v :=
    fun b => applyFields_unlocked _ _ _ b true (by decide)
  unfold Run.regPut
  simp only [Run.regRefuse, wayownerFamily_reg, Run.blockIdle, sweep, pending, fields, actionReg, Bool.not_false, Bool.not_true, Bool.false_and, Bool.or_self,
    Bool.and_self, Bool.false_eq_true, if_false, if_true]

/-- A write that does not set FROZEN leaves it, whether or not the configuration lock is set. -/
theorem applyFields_frozen (old : Word) {v : Word} (b : Bool) (thaw : v.getLsbD 63 = false) :
    applyFields [⟨"FROZEN", 63, 63, .w1sRwl, some 0⟩] old v (BitVec.allOnes 64) b true = old := by
  have sets : v &&& fieldMask 63 63 = 0#64 := by
    refine BitVec.eq_of_getLsbD_eq fun i hi => ?_
    rw [BitVec.getLsbD_and, fieldMask_bit (by decide) (by decide), BitVec.getLsbD_zero]
    by_cases top : i = 63
    · simp [top, thaw, -BitVec.getLsbD_eq_getElem]
    · simp only [Bool.and_eq_false_iff, decide_eq_false_iff_not]
      omega
  cases b
  · show old ||| (v &&& 0#64) = old
    simp
  · show old ||| (v &&& (fieldMask 63 63 &&& BitVec.allOnes 64)) = old
    rw [BitVec.and_allOnes, sets, BitVec.or_zero]

/-- A write of PARTWAYS that leaves FROZEN as it is writes WAYS, whether or not the configuration lock is set. -/
theorem Run.regPut_partways (r : Run s0) (q : Requester) (d p : Nat) (v : Word) (thaw : v.getLsbD 63 = false) :
    r.regPut q partwaysFamily [d, p] (L3_PARTWAYS d p).off (BitVec.allOnes 64) v = r.wPartways d p (r.fullWrite (L3_PARTWAYS d p) fields_L3_PARTWAYS v) := by
  have fields : ∀ b, applyFields fields_L3_PARTWAYS (r.reg (L3_PARTWAYS d p)) v (BitVec.allOnes 64) b true = r.fullWrite (L3_PARTWAYS d p) fields_L3_PARTWAYS v := by
    intro b
    rw [Run.fullWrite, fields_L3_PARTWAYS, applyFields_cons, applyFields_cons _ _ _ _ _ true, applyFields_frozen _ b thaw, applyFields_frozen _ true thaw]
    exact applyFields_unlocked _ _ _ b true (by decide)
  unfold Run.regPut
  simp only [Run.regRefuse, partwaysFamily_reg, Run.blockIdle, fields, actionReg, Bool.not_true, Bool.false_and, Bool.or_self, Bool.false_eq_true, if_false]

/-- Each field of a register reads, after such a write, what its access code says. -/
theorem Run.fld_fullWrite (r : Run s0) {f : Family} {g : Reg} (v : Word) (hf : f ∈ families) (at_ : f.reg g.off = g) :
    ∀ x ∈ f.fields, (r.setReg g (r.fullWrite g f.fields v)).1.fld ⟨g, x.hi, x.lo⟩ = newField x (r.1.reg g) v := by
  have fields := r.fld_setReg_applyFields g.off v true hf fun _ _ => .inr rfl
  rw [at_] at fields
  exact fields

/-! ### CTL of an L2 (R154) -/

theorem L2CTL_STATUS_fits (n : Nat) : (L2CTL_STATUS_DISABLED n).fits = true ∧ (L2CTL_STATUS_CACHE_DISABLE_PENDING n).fits = true := by
  simp only [FRef.fits_iff, L2CTL_STATUS_DISABLED, L2CTL_STATUS_CACHE_DISABLE_PENDING, L2CTL_STATUS]
  decide

theorem L2CTL_apart (n : Nat) : (L2CTL_CTL n).off ≠ (L2CTL_STATUS n).off := by
  simp only [L2CTL_CTL, L2CTL_STATUS]
  omega

/-- CTL reads what was written to it. -/
theorem Run.fld_L2CTL_CTL (r : Run s0) (n : Nat) (v : Word) :
    let q := r.setReg (L2CTL_CTL n) (r.fullWrite (L2CTL_CTL n) fields_L2CTL_CTL v)
    q.1.fld (L2CTL_CTL_DISABLE n) = Word.bits v 0 0 ∧ q.1.fld (L2CTL_CTL_L2PF n) = Word.bits v 2 2 := by
  have fields := r.fld_fullWrite v (f := l2ctlFamily) (by decide +kernel) (l2ctlFamily_reg n)
  exact ⟨fields ⟨"DISABLE", 0, 0, .rwq, some 0⟩ (by decide), fields ⟨"L2PF", 2, 2, .rw, some 1⟩ (by decide)⟩

/-- A write of CTL of an L2 reaches it while no disable is pending. -/
theorem Run.write_l2ctl (r : Run s0) (q : Requester) (n : Fin 256) (v : Word) (w : r.1.writer q) (on : r.1.online (dieOf n) = true)
    (idle : r.1.fld (L2CTL_STATUS_CACHE_DISABLE_PENDING n) = 0) :
    r.write q (L2CTL_CTL n) v = r.wL2ctl n (r.fullWrite (L2CTL_CTL n) fields_L2CTL_CTL v) := by
  obtain ⟨die, low, -⟩ := onTile_add n.isLt (x := 0x400000) (by decide)
  exact (r.write_placed q v w (L2CTL_CTL_placed n) (fun _ => (congrArg (r.1.online ·) die).trans on) (.inl low)).trans (r.regPut_l2ctl q n v idle)

theorem noLink_L2CTL (n : Fin 256) : noLink (L2CTL_CTL n).off ∧ noLink (L2CTL_STATUS n).off :=
  ⟨(onTile_add n.isLt (by decide)).2.2, (onTile_add n.isLt (by decide)).2.2⟩

/-- A disable of an L2 is pending from its write on. -/
theorem l2Disable_begins (q : Requester) (n : Fin 256) (s : State) (still : s.still) (w : s.writer q) (on : s.online (dieOf n) = true)
    (idle : s.fld (L2CTL_STATUS_CACHE_DISABLE_PENDING n) = 0) (off : s.fld (L2CTL_CTL_DISABLE n) = 0) :
    ∃ t, exec (.l2Disable q n) s = .next t ∧ t.fld (L2CTL_CTL_DISABLE n) = 1 ∧ t.fld (L2CTL_STATUS_CACHE_DISABLE_PENDING n) = 1 ∧
      t.fld (L2CTL_CTL_L2PF n) = s.fld (L2CTL_CTL_L2PF n) ∧ t.l2 = s.l2 := by
  set r := Run.start s with hr
  set v := r.reg (L2CTL_CTL n) ||| 1 with hv
  obtain ⟨disable, l2pf⟩ := r.fld_L2CTL_CTL n v
  obtain ⟨ctl, status⟩ := noLink_L2CTL n
  obtain ⟨-, fits⟩ := L2CTL_STATUS_fits n
  have one : Word.bits v 0 0 = 1 := (Word.bits_eq_iff (w' := 1) (le_refl _)).2 fun i _ hi => by simp [hv, Nat.le_zero.1 hi]
  have kept : Word.bits v 2 2 = s.fld (L2CTL_CTL_L2PF n) := (Word.bits_eq_iff (le_refl _)).2 fun i lo hi => by
    simp [hv, le_antisymm hi lo, hr, Run.reg, Run.start, L2CTL_CTL_L2PF]
  set u := r.setReg (L2CTL_CTL n) (r.fullWrite (L2CTL_CTL n) fields_L2CTL_CTL v) with hu
  have begins : r.write q (L2CTL_CTL n) v = u.setFld (L2CTL_STATUS_CACHE_DISABLE_PENDING n) 1 := by
    rw [r.write_l2ctl q n v w on idle, Run.wL2ctl, ← hu]
    simp [Run.on, Run.fld, disable, one, show r.1.fld (L2CTL_CTL_DISABLE n) = 0 from off]
  have marks : Run.marks noLink r (u.setFld (L2CTL_STATUS_CACHE_DISABLE_PENDING n) 1) := (Run.marks_setReg r _ ctl).trans (Run.marks_setFld u 1 status)
  refine ⟨_, (congrArg Run.done begins).trans (Run.done_marks still marks), ?_, Run.fld_setFld_lt u fits Nat.one_lt_two, ?_, rfl⟩
  · exact (u.fld_setFld_other _ _ 1 (L2CTL_apart n)).trans (disable.trans one)
  · exact (u.fld_setFld_other _ _ 1 (L2CTL_apart n)).trans (l2pf.trans kept)

/-- An enable of an L2 is at once. -/
theorem l2Enable_ends (q : Requester) (n : Fin 256) (s : State) (still : s.still) (w : s.writer q) (online : s.online (dieOf n) = true)
    (idle : s.fld (L2CTL_STATUS_CACHE_DISABLE_PENDING n) = 0) (on : s.fld (L2CTL_CTL_DISABLE n) = 1) :
    ∃ t, exec (.l2Enable q n) s = .next t ∧ t.fld (L2CTL_CTL_DISABLE n) = 0 ∧ t.fld (L2CTL_STATUS_DISABLED n) = 0 := by
  set r := Run.start s with hr
  set v := r.reg (L2CTL_CTL n) &&& ~~~ 1#64 with hv
  obtain ⟨disable, -⟩ := r.fld_L2CTL_CTL n v
  obtain ⟨ctl, status⟩ := noLink_L2CTL n
  obtain ⟨fits, -⟩ := L2CTL_STATUS_fits n
  have zero : Word.bits v 0 0 = 0 := (Word.bits_eq_iff (w' := 0) (le_refl _)).2 fun i _ hi => by simp [hv, Nat.le_zero.1 hi]
  set u := r.setReg (L2CTL_CTL n) (r.fullWrite (L2CTL_CTL n) fields_L2CTL_CTL v) with hu
  have ends : r.write q (L2CTL_CTL n) v = u.setFld (L2CTL_STATUS_DISABLED n) 0 := by
    rw [r.write_l2ctl q n v w online idle, Run.wL2ctl, ← hu]
    simp [Run.on, Run.fld, disable, zero, show r.1.fld (L2CTL_CTL_DISABLE n) = 1 from on]
  have marks : Run.marks noLink r (u.setFld (L2CTL_STATUS_DISABLED n) 0) := (Run.marks_setReg r _ ctl).trans (Run.marks_setFld u 0 status)
  refine ⟨_, (congrArg Run.done ends).trans (Run.done_marks still marks), ?_, Run.fld_setFld_lt u fits Nat.zero_lt_two⟩
  exact (u.fld_setFld_other _ _ 0 (L2CTL_apart n)).trans (disable.trans zero)

/-! ### CTL of an L3 (R154) -/

theorem L3_STATUS_fits (d : Nat) :
    (L3_STATUS_SWEEP d).fits = true ∧ (L3_STATUS_DISABLED d).fits = true ∧ (L3_STATUS_CACHE_DISABLE_PENDING d).fits = true := by
  simp only [FRef.fits_iff, L3_STATUS_SWEEP, L3_STATUS_DISABLED, L3_STATUS_CACHE_DISABLE_PENDING, L3_STATUS]
  decide

theorem L3_CTL_apart (d : Nat) : (L3_CTL d).off ≠ (L3_STATUS d).off := by
  simp only [L3_CTL, L3_STATUS]
  omega

theorem Run.fld_L3_CTL (r : Run s0) (d : Nat) (v : Word) :
    (r.setReg (L3_CTL d) (r.fullWrite (L3_CTL d) fields_L3_CTL v)).1.fld (L3_CTL_QDISABLE d) = Word.bits v 3 0 :=
  r.fld_fullWrite v (f := l3ctlFamily) (by decide +kernel) (l3ctlFamily_reg d) ⟨"QDISABLE", 3, 0, .rwq, some 0⟩ (by decide)

theorem Run.write_l3ctl (r : Run s0) (q : Requester) (d : Fin 16) (v : Word) (w : r.1.writer q) (on : r.1.online d = true) (idle : r.l3Idle d) :
    r.write q (L3_CTL d) v = r.wL3ctl d (r.fullWrite (L3_CTL d) fields_L3_CTL v) := by
  obtain ⟨area, -⟩ := l3Area_regs (d := d) (p := 0) (by decide)
  exact (r.write_l3 q d v w on (L3_CTL_placed d) area).trans (r.regPut_l3ctl q d v idle)

/-- A fold over a range whose steps do nothing but for one is that step. -/
theorem foldl_range_only {α : Type} {f : α → Nat → α} {n k : Nat} (hk : k < n) (other : ∀ a, ∀ q < n, q ≠ k → f a q = a) (a : α) :
    (List.range n).foldl f a = f a k := by
  induction n with
  | zero => exact absurd hk (Nat.not_lt_zero k)
  | succ n ih =>
    rw [List.range_succ, List.foldl_append, List.foldl_cons, List.foldl_nil]
    by_cases last : k = n
    · subst last
      rw [List.foldlRecOn (motive := (· = a)) (List.range k) f rfl fun b hb q hq => ?_]
      rw [hb]
      have below := List.mem_range.1 hq
      exact other a q (by omega) (by omega)
    · rw [ih (by omega) fun b q hq => other b q (by omega)]
      exact other _ n (by omega) (Ne.symm last)

theorem getLsbD_one_shift {k j : Nat} (hj : j < 64) : (1#64 <<< k).getLsbD j = decide (j = k) := by
  by_cases own : j = k
  · simp [own, own ▸ hj]
  · rw [BitVec.getLsbD_shiftLeft, BitVec.getLsbD_one]
    simp [hj, own]
    omega

/-- Setting one quadrant's bit of QDISABLE changes that bit alone. -/
theorem natBit_bits_or (w : Word) {k j : Nat} (hj : j < 4) : natBit (Word.bits (w ||| 1#64 <<< k) 3 0) j = (natBit (Word.bits w 3 0) j || decide (j = k)) := by
  simp only [natBit_eq_testBit, Word.bits_bit, BitVec.getLsbD_or, Nat.zero_add, getLsbD_one_shift (show j < 64 by omega), decide_eq_true hj, Bool.true_and]

theorem natBit_bits_and_not (w : Word) {k j : Nat} (hj : j < 4) :
    natBit (Word.bits (w &&& ~~~ (1#64 <<< k)) 3 0) j = (natBit (Word.bits w 3 0) j && !decide (j = k)) := by
  have below : j < 64 := by omega
  simp only [natBit_eq_testBit, Word.bits_bit, BitVec.getLsbD_and, BitVec.getLsbD_not, Nat.zero_add, getLsbD_one_shift below, decide_eq_true hj,
    decide_eq_true below, Bool.true_and]

/-- A write of QDISABLE that changes one quadrant's bit acts on that quadrant alone. -/
theorem Run.wL3ctl_one (r : Run s0) {d k : Nat} (hk : k < 4) {new : Word} (b : Bool)
    (bits : ∀ j < 4, natBit ((r.setReg (L3_CTL d) new).1.fld (L3_CTL_QDISABLE d)) j = if j = k then b else natBit (r.1.fld (L3_CTL_QDISABLE d)) j)
    (was : natBit (r.1.fld (L3_CTL_QDISABLE d)) k = !b) :
    let u := r.setReg (L3_CTL d) new
    r.wL3ctl d new = if b then u.setBit (L3_STATUS_CACHE_DISABLE_PENDING d) k true
      else ((u.setBit (L3_STATUS_DISABLED d) k false).setFld (DOM_STAT_HOLD (domQuad d k)) 0).wakeQuad d k := by
  intro u
  unfold Run.wL3ctl
  dsimp only [Run.fld]
  rw [foldl_range_only hk]
  · rw [bits k hk, was, if_pos rfl]
    cases b <;> rfl
  · intro a j hj other
    rw [bits j hj, if_neg other]
    simp

/-- A disable of a quadrant is pending from its write on. -/
theorem l3QuadrantDisable_begins (q : Requester) (d : Fin 16) (k : Fin 4) (s : State) (still : s.still) (w : s.writer q) (on : s.online d = true)
    (sweep : s.fld (L3_STATUS_SWEEP d) = 0) (pending : s.fld (L3_STATUS_CACHE_DISABLE_PENDING d) = 0) (off : natBit (s.fld (L3_CTL_QDISABLE d)) k = false) :
    ∃ t, exec (.l3QuadrantDisable q d k) s = .next t ∧ natBit (t.fld (L3_CTL_QDISABLE d)) k = true ∧
      natBit (t.fld (L3_STATUS_CACHE_DISABLE_PENDING d)) k = true ∧ t.l3 = s.l3 := by
  set r := Run.start s with hr
  set v := r.reg (L3_CTL d) ||| (1#64 <<< k.val) with hv
  obtain ⟨area, areaStatus, -⟩ := l3Area_regs (d := d) (p := 0) (by decide)
  obtain ⟨-, -, ctl⟩ := noLink_l3Area d.isLt area
  obtain ⟨-, -, status⟩ := noLink_l3Area d.isLt areaStatus
  obtain ⟨-, -, fits⟩ := L3_STATUS_fits d
  set u := r.setReg (L3_CTL d) (r.fullWrite (L3_CTL d) fields_L3_CTL v) with hu
  have bits : ∀ j < 4, natBit (u.1.fld (L3_CTL_QDISABLE d)) j = if j = k.val then true else natBit (s.fld (L3_CTL_QDISABLE d)) j := fun j hj => by
    rw [hu, r.fld_L3_CTL d v, hv, natBit_bits_or _ hj]
    by_cases own : j = k.val
    · simp [own]
    · simp only [own, decide_false, Bool.or_false, if_false]
      rfl
  have begins : r.write q (L3_CTL d) v = u.setBit (L3_STATUS_CACHE_DISABLE_PENDING d) k true := by
    rw [r.write_l3ctl q d v w on ⟨sweep, pending⟩, r.wL3ctl_one k.isLt true bits off]
    rfl
  have marks : Run.marks noLink r (u.setBit (L3_STATUS_CACHE_DISABLE_PENDING d) k true) := (Run.marks_setReg r _ ctl).trans (Run.marks_setBit u k true status)
  refine ⟨_, (congrArg Run.done begins).trans (Run.done_marks still marks), ?_, ?_, rfl⟩
  · rw [Run.setBit, u.fld_setFld_other _ _ _ (L3_CTL_apart d), bits k k.isLt, if_pos rfl]
  · rw [u.natBit_setBit _ _ _ fits k.isLt, if_pos rfl]

theorem DOM_STAT_apart {d k : Nat} (hd : d < 16) (hk : k < 4) :
    (L3_CTL d).off ≠ (DOM_STAT (domQuad d k)).off ∧ (L3_STATUS d).off ≠ (DOM_STAT (domQuad d k)).off ∧
      (DOM_STAT (400 + k)).off ≠ (DOM_STAT (domQuad d k)).off ∧ (DOM_STAT (domQuad d k)).off ≠ (L3_CTL d).off ∧
      (DOM_STAT (domQuad d k)).off ≠ (L3_STATUS d).off ∧ (DOM_STAT (400 + k)).off ≠ (L3_CTL d).off ∧ (DOM_STAT (400 + k)).off ≠ (L3_STATUS d).off ∧
      noLink (DOM_STAT (domQuad d k)).off := by
  simp only [L3_CTL, L3_STATUS, DOM_STAT, domQuad, noLink, RLINK_STAT]
  refine ⟨?_, ?_, ?_, ?_, ?_, ?_, ?_, fun _ _ => ?_⟩ <;> omega

/-- A gated quadrant that nothing holds is woken, where the snoop-filter quarter of its lines runs. -/
theorem Run.wakeQuad_gated (r : Run s0) {d k : Nat} (hd : d < 16) (hk : k < 4) (gated : r.1.fld (DOM_STAT_STATE (domQuad d k)) = 3)
    (free : r.1.fld (DOM_STAT_HOLD (domQuad d k)) = 0) (runs : r.1.fld (DOM_STAT_STATE (400 + k)) = 0) :
    r.wakeQuad d k = r.setFld (DOM_STAT_STATE (domQuad d k)) 1 := by
  obtain ⟨-, -, filter, -⟩ := DOM_STAT_apart hd hk
  have first : r.wakeDom (domQuad d k) = r.setFld (DOM_STAT_STATE (domQuad d k)) 1 := by
    simp [Run.wakeDom, Run.on, Run.fld, gated, free]
  have runs : (r.setFld (DOM_STAT_STATE (domQuad d k)) 1).1.fld (DOM_STAT_STATE (400 + k)) = 0 := (r.fld_setFld_other _ _ 1 filter).trans runs
  rw [Run.wakeQuad, first]
  simp [Run.wakeDom, Run.fld, runs]

/-- An enable of a quadrant is at once, and wakes it where it is gated. -/
theorem l3QuadrantEnable_ends (q : Requester) (d : Fin 16) (k : Fin 4) (s : State) (still : s.still) (w : s.writer q) (online : s.online d = true)
    (sweep : s.fld (L3_STATUS_SWEEP d) = 0) (pending : s.fld (L3_STATUS_CACHE_DISABLE_PENDING d) = 0) (on : natBit (s.fld (L3_CTL_QDISABLE d)) k = true)
    (gated : s.fld (DOM_STAT_STATE (domQuad d k)) = 3) (runs : s.fld (DOM_STAT_STATE (400 + k)) = 0) :
    ∃ t, exec (.l3QuadrantEnable q d k) s = .next t ∧ natBit (t.fld (L3_CTL_QDISABLE d)) k = false ∧ natBit (t.fld (L3_STATUS_DISABLED d)) k = false ∧
      t.fld (DOM_STAT_HOLD (domQuad d k)) = 0 ∧ t.fld (DOM_STAT_STATE (domQuad d k)) = 1 := by
  set r := Run.start s with hr
  set v := r.reg (L3_CTL d) &&& ~~~ (1#64 <<< k.val) with hv
  obtain ⟨area, areaStatus, -⟩ := l3Area_regs (d := d) (p := 0) (by decide)
  obtain ⟨-, -, ctl⟩ := noLink_l3Area d.isLt area
  obtain ⟨-, -, status⟩ := noLink_l3Area d.isLt areaStatus
  obtain ⟨-, fits, -⟩ := L3_STATUS_fits d
  obtain ⟨fitsState, fitsHold⟩ := DOM_STAT_fits (domQuad d k)
  obtain ⟨ctlDom, statusDom, filterDom, domCtl, domStatus, filterCtl, filterStatus, dom⟩ := DOM_STAT_apart d.isLt k.isLt
  set u := r.setReg (L3_CTL d) (r.fullWrite (L3_CTL d) fields_L3_CTL v) with hu
  set u1 := u.setBit (L3_STATUS_DISABLED d) k false with hu1
  set u2 := u1.setFld (DOM_STAT_HOLD (domQuad d k)) 0 with hu2
  have bits : ∀ j < 4, natBit (u.1.fld (L3_CTL_QDISABLE d)) j = if j = k.val then false else natBit (s.fld (L3_CTL_QDISABLE d)) j := fun j hj => by
    rw [hu, r.fld_L3_CTL d v, hv, natBit_bits_and_not _ hj]
    by_cases own : j = k.val
    · simp [own]
    · simp only [own, decide_false, Bool.not_false, Bool.and_true, if_false]
      rfl
  have before : ∀ f : FRef, f.reg.off ≠ (L3_CTL d).off → f.reg.off ≠ (L3_STATUS d).off → u1.1.fld f = s.fld f := fun f hc hs =>
    (u.fld_setFld_other _ f _ hs).trans (r.fld_setReg_other _ f _ hc)
  have hold : u2.1.fld (DOM_STAT_HOLD (domQuad d k)) = 0 := u1.fld_setFld_lt fitsHold Nat.zero_lt_two
  have state : u2.1.fld (DOM_STAT_STATE (domQuad d k)) = 3 :=
    (u1.fld_setFld_apart _ _ 0 fitsHold fitsState rfl (.inl (show 2 < 8 by decide))).trans ((before _ domCtl domStatus).trans gated)
  have filter : u2.1.fld (DOM_STAT_STATE (400 + k)) = 0 := (u1.fld_setFld_other _ _ 0 filterDom).trans ((before _ filterCtl filterStatus).trans runs)
  have ends : r.write q (L3_CTL d) v = u2.setFld (DOM_STAT_STATE (domQuad d k)) 1 := by
    rw [r.write_l3ctl q d v w online ⟨sweep, pending⟩, r.wL3ctl_one k.isLt false bits on, if_neg Bool.false_ne_true]
    exact u2.wakeQuad_gated d.isLt k.isLt state hold filter
  have marks : Run.marks noLink r (u2.setFld (DOM_STAT_STATE (domQuad d k)) 1) :=
    (((Run.marks_setReg r _ ctl).trans (Run.marks_setBit u k false status)).trans (Run.marks_setFld u1 0 dom)).trans (Run.marks_setFld u2 1 dom)
  have kept : ∀ f : FRef, f.reg.off ≠ (DOM_STAT (domQuad d k)).off → (u2.setFld (DOM_STAT_STATE (domQuad d k)) 1).1.fld f = u1.1.fld f := fun f hf =>
    (u2.fld_setFld_other _ f 1 hf).trans (u1.fld_setFld_other _ f 0 hf)
  refine ⟨_, (congrArg Run.done ends).trans (Run.done_marks still marks), ?_, ?_, ?_, u2.fld_setFld_lt fitsState (show 1 < 2 ^ 3 by decide)⟩
  · rw [kept _ ctlDom, hu1, Run.setBit, u.fld_setFld_other _ _ _ (L3_CTL_apart d), bits k k.isLt, if_pos rfl]
  · rw [kept _ statusDom, hu1, u.natBit_setBit _ _ _ fits k.isLt, if_pos rfl]
  · exact (u2.fld_setFld_apart _ _ 1 fitsState fitsHold rfl (.inr (show 2 < 8 by decide))).trans hold

/-! ### PARTWAYS, WAYLOCK and WAYOWNER (R148, R149, R151) -/

/-- A word with the bits of a mask taken from another one. -/
def mixed (old v m : Word) : Word := (old &&& ~~~ m) ||| (v &&& m)

theorem mixed_mixed (old v m m' : Word) : mixed (mixed old v m) v m' = mixed old v (m ||| m') := by
  refine BitVec.eq_of_getLsbD_eq fun i hi => ?_
  simp only [mixed, BitVec.getLsbD_or, BitVec.getLsbD_and, BitVec.getLsbD_not, hi, decide_true, Bool.true_and]
  cases old.getLsbD i <;> cases v.getLsbD i <;> cases m.getLsbD i <;> cases m'.getLsbD i <;> rfl

/-- A full write of read-write fields takes the bits of those fields. -/
theorem applyFields_rw {fs : List Field} (old v : Word) (rw_ : ∀ x ∈ fs, x.acc.kind = .rw) :
    applyFields fs old v (BitVec.allOnes 64) true true = mixed old v (fieldsMask fs) := by
  suffices from_ : ∀ m, applyFields fs (mixed old v m) v (BitVec.allOnes 64) true true =
      mixed old v (fs.foldl (fun m f => m ||| (BitVec.ofNat 64 (2 ^ (f.hi - f.lo + 1) - 1) <<< f.lo)) m) by
    have unmixed : mixed old v 0#64 = old := by rw [mixed, BitVec.and_zero, BitVec.or_zero, BitVec.not_zero, BitVec.and_allOnes]
    calc applyFields fs old v (BitVec.allOnes 64) true true = applyFields fs (mixed old v 0#64) v (BitVec.allOnes 64) true true := by rw [unmixed]
      _ = _ := from_ _
  induction fs with
  | nil => exact fun _ => rfl
  | cons x xs ih =>
    intro m
    obtain ⟨kind, rest⟩ := List.forall_mem_cons.1 rw_
    have one : applyFields [x] (mixed old v m) v (BitVec.allOnes 64) true true = mixed old v (m ||| fieldMask x.hi x.lo) := by
      rw [← mixed_mixed]
      simp only [applyFields, List.foldl_cons, List.foldl_nil, kind, Bool.not_true, Bool.and_false, Bool.or_self, Bool.false_eq_true, if_false,
        BitVec.and_allOnes, mixed]
    rw [applyFields_cons, one]
    exact ih rest _

theorem Run.fullWrite_waylock (r : Run s0) (d : Nat) (v : Word) :
    (r.fullWrite (L3_WAYLOCK d) fields_L3_WAYLOCK v).toNat = Word.bits v 15 0 := by
  have mask : fieldsMask fields_L3_WAYLOCK = 0xffff#64 := by decide
  have rest : (0xffff#64) &&& ~~~ 0xffff#64 = 0#64 := by decide
  have held : r.reg (L3_WAYLOCK d) &&& ~~~ 0xffff#64 = 0#64 := by
    rw [Run.reg, State.reg, L3_WAYLOCK, BitVec.and_assoc]
    exact (congrArg _ rest).trans BitVec.and_zero
  rw [Run.fullWrite, applyFields_rw _ _ (by decide), mask, mixed, held, BitVec.zero_or, BitVec.toNat_and, Word.bits, BitVec.ushiftRight_zero]
  exact Nat.and_two_pow_sub_one_eq_mod _ 16

theorem Run.fullWrite_wayowner (r : Run s0) (d : Nat) (v : Word) : r.fullWrite (L3_WAYOWNER d) fields_L3_WAYOWNER v = v := by
  have mask : fieldsMask fields_L3_WAYOWNER = BitVec.allOnes 64 := by decide
  rw [Run.fullWrite, applyFields_rw _ _ (by decide), mask, mixed, BitVec.not_allOnes, BitVec.and_zero, BitVec.zero_or, BitVec.and_allOnes]

/-- A write of PARTWAYS under which every partition keeps a way takes effect, where the partition is not frozen. -/
theorem Run.wPartways_takes (r : Run s0) {d p : Nat} {new : Word} (thawed : r.1.fld (L3_PARTWAYS_FROZEN d p) = 0)
    (rule : wayRule (fun k => if k = p then Word.bits new 15 0 else r.1.fld (L3_PARTWAYS_WAYS d k)) (r.1.fld (L3_WAYLOCK_LOCK d)) = true) :
    r.wPartways d p new = r.setReg (L3_PARTWAYS d p) new := by
  have open_ : r.on (L3_PARTWAYS_FROZEN d p) = false := by simp [Run.on, Run.fld, thawed]
  have rule : wayRule (fun k => if k = p then Word.bits new 15 0 else r.fld (L3_PARTWAYS_WAYS d k)) (r.fld (L3_WAYLOCK_LOCK d)) = true := rule
  simp only [Run.wPartways, open_, rule, Bool.not_true, Bool.false_and, Bool.or_self, Bool.false_eq_true, if_false]

/-- PARTWAYS is written where every partition keeps a way and it is not frozen. -/
theorem partwaysWrite_takes (q : Requester) (d p : Fin 16) (v : Word) (s : State) (still : s.still) (w : s.writer q) (on : s.online d = true)
    (thawed : s.fld (L3_PARTWAYS_FROZEN d p) = 0) (thaw : v.getLsbD 63 = false)
    (rule : wayRule (fun k => if k = p.val then Word.bits v 15 0 else s.fld (L3_PARTWAYS_WAYS d k)) (s.fld (L3_WAYLOCK_LOCK d)) = true) :
    ∃ t, exec (.partwaysWrite q d p .full v) s = .next t ∧ t.fld (L3_PARTWAYS_WAYS d p) = Word.bits v 15 0 ∧ t.fld (L3_PARTWAYS_FROZEN d p) = 0 ∧
      t.fld (L3_STATUS_CFG_REJECT d) = s.fld (L3_STATUS_CFG_REJECT d) ∧ t.l3 = s.l3 := by
  set r := Run.start s with hr
  obtain ⟨-, areaStatus, area, -⟩ := l3Area_regs (d := d) p.isLt
  obtain ⟨-, -, link⟩ := noLink_l3Area d.isLt area
  set new := r.fullWrite (L3_PARTWAYS d p) fields_L3_PARTWAYS v with hnew
  have fields := r.fld_fullWrite v (f := partwaysFamily) (by decide +kernel) (partwaysFamily_reg d p)
  have ways : Word.bits new 15 0 = Word.bits v 15 0 := by
    obtain ⟨apart, ok⟩ := families_fields partwaysFamily (by decide +kernel)
    exact applyFields_bits _ v true apart (fun x hx => ⟨(ok x hx).1, (ok x hx).2.1⟩) (fun _ _ => .inr rfl) ⟨"WAYS", 15, 0, .rw, some 65535⟩ (by decide)
  have takes : r.write q (L3_PARTWAYS d p) v = r.setReg (L3_PARTWAYS d p) new := by
    rw [r.write_l3 q d v w on (L3_PARTWAYS_placed d p) area, r.regPut_partways q d p v thaw]
    exact r.wPartways_takes thawed (ways ▸ rule)
  have frozen : Word.bits (r.1.reg (L3_PARTWAYS d p) ||| v) 63 63 = Word.bits (r.1.reg (L3_PARTWAYS d p)) 63 63 :=
    (Word.bits_eq_iff (le_refl _)).2 fun i lo hi => by simp [le_antisymm hi lo, thaw, -BitVec.getLsbD_eq_getElem]
  refine ⟨_, (congrArg Run.done takes).trans (Run.done_marks still (Run.marks_setReg r _ link)), ?_, ?_, ?_, rfl⟩
  · exact fields ⟨"WAYS", 15, 0, .rw, some 65535⟩ (by decide)
  · exact (fields ⟨"FROZEN", 63, 63, .w1sRwl, some 0⟩ (by decide)).trans (frozen.trans thawed)
  · refine r.fld_setReg_other _ _ _ ?_
    simp only [L3_STATUS_CFG_REJECT, L3_STATUS, L3_PARTWAYS]
    omega

theorem natBits_way_lt (o w : Nat) : natBits o (4 * w + 3) (4 * w) < 16 := by
  have width : 4 * w + 3 - 4 * w + 1 = 4 := by omega
  rw [natBits, width]
  exact Nat.mod_lt _ (by decide)

/-- Where no partition is frozen, no change of a way touches a frozen one. -/
theorem Run.frozenWay_thawed (r : Run s0) {d : Nat} (thawed : ∀ k < 16, r.1.fld (L3_PARTWAYS_FROZEN d k) = 0) (w lock owner lock' owner' : Nat) :
    r.frozenWay d w lock owner lock' owner' = false := by
  have off : ∀ k < 16, r.on (L3_PARTWAYS_FROZEN d k) = false := fun k hk => by simp [Run.on, Run.fld, thawed k hk]
  have all : ((List.range 16).any fun p => r.on (L3_PARTWAYS_FROZEN d p) && natBit (r.fld (L3_PARTWAYS_WAYS d p)) w) = false :=
    List.any_eq_false.2 fun p hp => by simp [off p (List.mem_range.1 hp)]
  simp only [Run.frozenWay, all, off _ (natBits_way_lt _ _), Bool.and_false, Bool.or_self]

/-- The ways that a write of LOCK and OWNER sweeps: those locked anew, or with a new owner. -/
def Run.sweptWays (r : Run s0) (d lock' owner' : Nat) : Bool :=
  (List.range 16).any fun w => natBit lock' w && (!natBit (r.1.fld (L3_WAYLOCK_LOCK d)) w ||
    natBits (r.reg (L3_WAYOWNER d)).toNat (4 * w + 3) (4 * w) != natBits owner' (4 * w + 3) (4 * w))

/-- What a write of LOCK and OWNER leaves, before a sweep begins. -/
def Run.putWays (r : Run s0) (d lock' owner' : Nat) : Run s0 :=
  (r.setFld (L3_WAYLOCK_LOCK d) lock').setReg (L3_WAYOWNER d) (BitVec.ofNat 64 owner')

/-- A write of LOCK and OWNER under which every partition keeps a way takes effect, where none is frozen. -/
theorem Run.wLock_takes (r : Run s0) {d lock' owner' : Nat} (thawed : ∀ k < 16, r.1.fld (L3_PARTWAYS_FROZEN d k) = 0)
    (rule : wayRule (fun k => r.1.fld (L3_PARTWAYS_WAYS d k)) lock' = true) :
    r.wLock d lock' owner' = if r.sweptWays d lock' owner' then (r.putWays d lock' owner').setFld (L3_STATUS_SWEEP d) 1 else r.putWays d lock' owner' := by
  have rule : wayRule (fun k => r.fld (L3_PARTWAYS_WAYS d k)) lock' = true := rule
  have thawed : ((List.range 16).any fun w => r.frozenWay d w (r.fld (L3_WAYLOCK_LOCK d)) (r.reg (L3_WAYOWNER d)).toNat lock' owner') = false :=
    List.any_eq_false.2 fun w _ => by simp [r.frozenWay_thawed thawed]
  simp only [Run.wLock, rule, thawed, Bool.not_true, Bool.or_self, Bool.false_eq_true, if_false]
  rfl

theorem L3_WAYLOCK_fits (d : Nat) : (L3_WAYLOCK_LOCK d).fits = true := by
  simp only [FRef.fits_iff, L3_WAYLOCK_LOCK, L3_WAYLOCK]
  decide

/-- The registers of ways and STATUS lie apart. -/
theorem L3_ways_apart (d : Nat) : (L3_WAYLOCK d).off ≠ (L3_WAYOWNER d).off ∧ (L3_WAYLOCK d).off ≠ (L3_STATUS d).off ∧
    (L3_WAYOWNER d).off ≠ (L3_STATUS d).off ∧ (L3_STATUS d).off ≠ (L3_WAYOWNER d).off ∧ (L3_STATUS d).off ≠ (L3_WAYLOCK d).off := by
  simp only [L3_WAYLOCK, L3_WAYOWNER, L3_STATUS]
  omega

/-- LOCK and OWNER read what was written, and STATUS is left. -/
theorem Run.putWays_leaves (r : Run s0) (d lock' : Nat) (owner' : Word) (hlock : lock' < 2 ^ 16) :
    let q := r.putWays d lock' owner'.toNat
    q.1.fld (L3_WAYLOCK_LOCK d) = lock' ∧ q.1.reg (L3_WAYOWNER d) = owner' ∧ q.1.fld (L3_STATUS_SWEEP d) = r.1.fld (L3_STATUS_SWEEP d) := by
  obtain ⟨lockOwner, -, -, statusOwner, statusLock⟩ := L3_ways_apart d
  refine ⟨?_, ?_, ?_⟩
  · rw [Run.putWays, Run.fld_setReg_other _ _ _ _ lockOwner, r.fld_setFld_lt (L3_WAYLOCK_fits d) hlock]
  · rw [Run.putWays, Run.reg_setReg_same, BitVec.ofNat_toNat, BitVec.setWidth_eq]
    exact BitVec.and_allOnes
  · rw [Run.putWays, Run.fld_setReg_other _ _ _ _ statusOwner, r.fld_setFld_other _ _ _ statusLock]

theorem Run.marks_putWays (r : Run s0) (d : Fin 16) (lock' owner' : Nat) : Run.marks noLink r (r.putWays d lock' owner') := by
  obtain ⟨-, -, -, lock, owner⟩ := l3Area_regs (d := d) (p := 0) (by decide)
  obtain ⟨-, -, lock⟩ := noLink_l3Area d.isLt lock
  obtain ⟨-, -, owner⟩ := noLink_l3Area d.isLt owner
  exact (Run.marks_setFld r _ lock).trans (Run.marks_setReg _ _ owner)

/-- A write of WAYLOCK that locks a way anew begins its sweep. -/
theorem waylockWrite_sweeps (q : Requester) (d : Fin 16) (v : Word) (s : State) (still : s.still) (w : s.writer q) (on : s.online d = true)
    (sweep : s.fld (L3_STATUS_SWEEP d) = 0) (pending : s.fld (L3_STATUS_CACHE_DISABLE_PENDING d) = 0)
    (thawed : ∀ k < 16, s.fld (L3_PARTWAYS_FROZEN d k) = 0) (rule : wayRule (fun k => s.fld (L3_PARTWAYS_WAYS d k)) (Word.bits v 15 0) = true)
    (anew : ((List.range 16).any fun w => natBit (Word.bits v 15 0) w && !natBit (s.fld (L3_WAYLOCK_LOCK d)) w) = true) :
    ∃ t, exec (.waylockWrite q d .full v) s = .next t ∧ t.fld (L3_WAYLOCK_LOCK d) = Word.bits v 15 0 ∧ t.fld (L3_STATUS_SWEEP d) = 1 ∧
      t.reg (L3_WAYOWNER d) = s.reg (L3_WAYOWNER d) ∧ t.l3 = s.l3 := by
  set r := Run.start s with hr
  obtain ⟨-, status, -, area, -⟩ := l3Area_regs (d := d) (p := 0) (by decide)
  obtain ⟨-, -, status⟩ := noLink_l3Area d.isLt status
  obtain ⟨lockOwner, lockStatus, ownerStatus, -⟩ := L3_ways_apart d
  obtain ⟨fits, -⟩ := L3_STATUS_fits d
  obtain ⟨lock, owner, -⟩ := r.putWays_leaves d (Word.bits v 15 0) (r.reg (L3_WAYOWNER d)) (Nat.mod_lt _ (by decide))
  have sweeps : r.sweptWays d (Word.bits v 15 0) (r.reg (L3_WAYOWNER d)).toNat = true := by
    obtain ⟨k, hk, new⟩ := List.any_eq_true.1 anew
    exact List.any_eq_true.2 ⟨k, hk, by simp_all⟩
  set u := r.putWays d (Word.bits v 15 0) (r.reg (L3_WAYOWNER d)).toNat with hu
  have takes : r.write q (L3_WAYLOCK d) v = u.setFld (L3_STATUS_SWEEP d) 1 := by
    rw [r.write_l3 q d v w on (L3_WAYLOCK_placed d) area, r.regPut_waylock q d v ⟨sweep, pending⟩, r.fullWrite_waylock, r.wLock_takes thawed rule, if_pos sweeps]
  refine ⟨_, (congrArg Run.done takes).trans (Run.done_marks still ((r.marks_putWays d _ _).trans (Run.marks_setFld u 1 status))), ?_,
    u.fld_setFld_lt fits Nat.one_lt_two, ?_, rfl⟩
  · exact (u.fld_setFld_other _ _ 1 lockStatus).trans lock
  · exact (u.reg_setReg_other _ ownerStatus).trans owner

/-- A write of WAYOWNER sweeps nothing while no way is locked. -/
theorem wayownerWrite_takes (q : Requester) (d : Fin 16) (v : Word) (s : State) (still : s.still) (w : s.writer q) (on : s.online d = true)
    (sweep : s.fld (L3_STATUS_SWEEP d) = 0) (pending : s.fld (L3_STATUS_CACHE_DISABLE_PENDING d) = 0)
    (thawed : ∀ k < 16, s.fld (L3_PARTWAYS_FROZEN d k) = 0)
    (rule : wayRule (fun k => s.fld (L3_PARTWAYS_WAYS d k)) (s.fld (L3_WAYLOCK_LOCK d)) = true) (unlocked : s.fld (L3_WAYLOCK_LOCK d) = 0) :
    ∃ t, exec (.wayownerWrite q d .full v) s = .next t ∧ t.reg (L3_WAYOWNER d) = v ∧ t.fld (L3_STATUS_SWEEP d) = 0 ∧ t.fld (L3_WAYLOCK_LOCK d) = 0 ∧
      t.l3 = s.l3 := by
  set r := Run.start s with hr
  obtain ⟨-, -, -, -, area⟩ := l3Area_regs (d := d) (p := 0) (by decide)
  obtain ⟨lock, owner, status⟩ := r.putWays_leaves d 0 v (by decide)
  have rests : r.sweptWays d 0 v.toNat = false := List.any_eq_false.2 fun k _ => by simp [natBit_eq_testBit]
  have takes : r.write q (L3_WAYOWNER d) v = r.putWays d 0 v.toNat := by
    rw [r.write_l3 q d v w on (L3_WAYOWNER_placed d) area, r.regPut_wayowner q d v ⟨sweep, pending⟩, r.fullWrite_wayowner,
      show r.fld (L3_WAYLOCK_LOCK d) = 0 from unlocked, r.wLock_takes thawed (unlocked ▸ rule), rests, if_neg Bool.false_ne_true]
  exact ⟨_, (congrArg Run.done takes).trans (Run.done_marks still (r.marks_putWays d _ _)), owner, status.trans sweep, lock, rfl⟩

end Sys2Proof.Machine

/-! Sweeps of an L2 and of an L3, and what their end leaves (R151, R155). -/
namespace Sys2Proof.Machine

variable {s0 : State}

/-! ### The sweep of an L2 -/

/-- An offset at which no injection into an array of a die is armed (R474). -/
def noArr (d o : Nat) : Prop := ∀ a < 256, o ≠ (ARR_FLIP d a).off

/-- What the delivery of a clean line's eviction leaves: its core-valid bit may have changed, and an injection been taken. -/
theorem Run.cvClear_only (r : Run s0) (d : Nat) (l : LineAddr) (t : Nat) :
    ∃ rs l3, (r.cvClear d l t).1 = { r.1 with regs := rs, l3 := l3 } ∧ ∀ o, noArr d o → Sparse.find? rs o = r.1.regs.find? o := by
  have same : ∃ rs l3, r.1 = { r.1 with regs := rs, l3 := l3 } ∧ ∀ o, noArr d o → Sparse.find? rs o = r.1.regs.find? o := ⟨_, _, rfl, fun _ _ => rfl⟩
  unfold Run.cvClear
  split
  next w s _ =>
    unfold Run.cvWrite
    split
    · exact same
    · obtain ⟨rs, takes, kept⟩ := r.armTake_only d (128 + quadOf s.line * 3 + 1)
      have quad := quadOf_lt s.line
      exact ⟨rs, _, by rw [Run.setL3Slot, Run.act_val, takes]; rfl, fun o ho => kept o (ho _ (by omega))⟩
  next => exact same

theorem Run.take_only (r : Run s0) (m : Msg) : ∃ sq, (r.take m).1 = { r.1 with net := r.1.net.erase m, seqs := sq } := by
  unfold Run.take
  dsimp only
  split
  · split <;> exact ⟨_, rfl⟩
  · exact ⟨_, rfl⟩

theorem Run.l1Drop_only (r : Run s0) (n : Nat) (l : LineAddr) : ∃ i d, (r.l1Drop n l).1 = { r.1 with l1i := i, l1d := d } := by
  unfold Run.l1Drop
  dsimp only
  split <;> split <;> exact ⟨_, _, rfl⟩

/-- The slot that an L2 finds is one of those listed. -/
theorem Run.l2Find_mem (r : Run s0) {n w : Nat} {l : LineAddr} {x : L2Slot} (find : r.l2Find n l = some (w, x)) : ∃ k, (k, x) ∈ r.1.l2 := by
  obtain ⟨v, -, found⟩ := List.exists_of_findSome?_eq_some find
  split at found
  next y at_ =>
    obtain ⟨-, same⟩ := Option.ite_none_right_eq_some.1 found
    cases same
    exact ⟨_, Sparse.mem_of_find? at_⟩
  next => cases found

/-- An L2 without a stored error is read as it is. -/
theorem Run.l2Check_sound (r : Run s0) (n : Nat) (l : LineAddr) (sound : ∀ e ∈ r.1.l2, e.2.flip = none) : r.l2Check n l = r := by
  unfold Run.l2Check
  split
  next => rfl
  next w x find =>
    obtain ⟨k, mem⟩ := r.l2Find_mem find
    rw [sound _ mem]

/-- The eviction of a clean line from an L2, still in flight, is delivered. -/
theorem Run.flushEv_clean (r : Run s0) (n : Nat) {m : Msg} (kind : m.kind = .evC) (src : m.src = .tile (Fin.ofNat 256 n)) (net : r.1.net = [m]) :
    ∃ rs l3 sq, (r.flushEv n m.line).1 = { r.1 with regs := rs, l3 := l3, seqs := sq, net := [] } ∧
      ∀ o, noArr (dieOf n) o → Sparse.find? rs o = r.1.regs.find? o := by
  obtain ⟨sq, takes⟩ := r.take_only m
  obtain ⟨rs, l3, clears, kept⟩ := (r.take m).cvClear_only (dieOf n) m.line (n % 16)
  have evicts : r.flushEv n m.line = (r.take m).cvClear (dieOf n) m.line (n % 16) := by
    simp [Run.flushEv, net, kind, src, Run.tileEvict]
  have empty : r.1.net.erase m = [] := by simp [net]
  refine ⟨rs, l3, sq, ?_, fun o ho => (kept o ho).trans (by rw [takes])⟩
  rw [evicts, clears, takes, empty]

/-- The sweep of an L2 with one line, which is clean, leaves none, whose L1 copies and core-valid bit are gone. -/
theorem Run.sweepL2_one (r : Run s0) {n w : Nat} {x : L2Slot} (hw : w < 8) (net : r.1.net = []) (l2 : r.1.l2 = [(l2Key n x.line w, x)])
    (clean : x.st ≠ .M) (sound : x.flip = none) :
    ∃ rs i d l3 sq, (r.sweepL2 n).1 = { r.1 with regs := rs, l1i := i, l1d := d, l2 := [], l3 := l3, seqs := sq } ∧
      ∀ o, noArr (dieOf n) o → Sparse.find? rs o = r.1.regs.find? o := by
  have tile : l2Key n x.line w / 8 / 2048 = n ∧ l2Key n x.line w % 8 = w := by
    rw [l2Key]
    omega
  have slot : r.l2Slot (l2Key n x.line w) = some x := by simp [Run.l2Slot, State.l2Slot, l2, Sparse.find?]
  have checks : r.l2Check n x.line = r := r.l2Check_sound n x.line fun e he => by
    rw [l2, List.mem_singleton] at he
    rw [he]
    exact sound
  have sweeps : r.sweepL2 n = (r.l2Evict n w x).flushEv n x.line := by
    simp only [Run.sweepL2, l2, List.foldl_cons, List.foldl_nil, tile.1, tile.2, slot, if_true]
  obtain ⟨i, d, drops⟩ := r.l1Drop_only n x.line
  set u := (r.l1Drop n x.line).setL2Slot (l2Key n x.line w) none with hu
  have empties : u.1 = { r.1 with l1i := i, l1d := d, l2 := [] } := by
    rw [hu, Run.setL2Slot, Run.act_val, drops]
    simp [Act.apply, l2, Sparse.upd, Sparse.del]
  set m : Msg := { kind := .evC, src := .tile (Fin.ofNat 256 n), dst := .die (Fin.ofNat 16 (dieOf n)), line := x.line } with hm
  have evicts : r.l2Evict n w x = if x.st = .I then u else u.send m := by
    simp only [Run.l2Evict, checks, slot, Option.getD_some, if_neg clean, ← hu, ← hm]
  rw [sweeps, evicts]
  split
  · refine ⟨r.1.regs, i, d, r.1.l3, r.1.seqs, ?_, fun _ _ => rfl⟩
    rw [u.flushEv_none n x.line (by rw [empties]; exact net), empties]
  · obtain ⟨rs, l3, sq, flushes, kept⟩ := (u.send m).flushEv_clean n rfl rfl (show u.1.net ++ [m] = [m] by rw [empties, net]; rfl)
    refine ⟨rs, i, d, l3, sq, ?_, fun o ho => (kept o ho).trans (by rw [Run.send, Run.act_val, empties]; rfl)⟩
    rw [flushes, Run.send, Run.act_val, empties]
    simp [Act.apply, net]

theorem noArr_RLINK_STAT {d k : Nat} (hd : d < 16) (hk : k < 16) : noArr d (RLINK_STAT k).off := fun a _ => noLink_ARR_FLIP hd a k hk

/-- A die is online by its STATE alone. -/
theorem State.online_of_find? {s t : State} {k : Nat} (same : t.regs.find? (RLINK_STAT k).off = s.regs.find? (RLINK_STAT k).off) : t.online k = s.online k := by
  simp only [State.online, State.fld, State.reg, RLINK_STAT_STATE, Sparse.get, same]

/-- Writes of registers, and of no die's STATE, leave nothing to settle. -/
theorem Run.marks.still {q p : Run s0} (marks : Run.marks noLink q p) (still : q.1.still) : p.1.still := by
  have online : ∀ k < 16, p.1.online k = q.1.online k := fun k hk => marks.online fun no => no k hk rfl
  obtain ⟨rs, ts, ls, only, -⟩ := marks
  exact State.still_of_online still (by rw [only]; exact still.1) (by rw [only]; exact still.2.1) online (by rw [only]) (by rw [only])

/-- The end of an L2's sweep (R155): no line is left, and the L2 reads DISABLED. -/
theorem l2DisableDone_empties (n : Fin 256) (w : Fin 8) (x : L2Slot) (s : State) (still : s.still) (net : s.net = [])
    (pending : s.fld (L2CTL_STATUS_CACHE_DISABLE_PENDING n) = 1) (miss : (s.tile n).miss = []) (l2 : s.l2 = [(l2Key n x.line w, x)]) (clean : x.st ≠ .M)
    (sound : x.flip = none) :
    ∃ t, exec (.l2DisableDone n) s = .next t ∧ t.l2 = [] ∧ t.fld (L2CTL_STATUS_CACHE_DISABLE_PENDING n) = 0 ∧ t.fld (L2CTL_STATUS_DISABLED n) = 1 ∧
      t.harts = s.harts := by
  obtain ⟨rs, i, d, l3, sq, sweeps, kept⟩ := (Run.start s).sweepL2_one w.isLt net l2 clean sound
  have begins : exec (.l2DisableDone n) s =
      ((((Run.start s).sweepL2 n).setFld (L2CTL_STATUS_CACHE_DISABLE_PENDING n) 0).setFld (L2CTL_STATUS_DISABLED n) 1).done := by
    have on : (Run.start s).on (L2CTL_STATUS_CACHE_DISABLE_PENDING n) = true := by simp [Run.on, Run.fld, pending]
    have idle : ((Run.start s).tile n).miss = [] := miss
    show execL2DisableDone n s = _
    simp [execL2DisableDone, on, idle]
  rw [begins]
  generalize (Run.start s).sweepL2 n = q at sweeps
  obtain ⟨disabled, pend⟩ := L2CTL_STATUS_fits n
  obtain ⟨-, link⟩ := noLink_L2CTL n
  set u := q.setFld (L2CTL_STATUS_CACHE_DISABLE_PENDING n) 0 with hu
  have marks : Run.marks noLink q (u.setFld (L2CTL_STATUS_DISABLED n) 1) := (Run.marks_setFld q 0 link).trans (Run.marks_setFld u 1 link)
  have online : ∀ k < 16, q.1.online k = s.online k := fun k hk =>
    State.online_of_find? (by rw [sweeps]; exact kept _ (noArr_RLINK_STAT (by rw [dieOf]; omega) hk))
  have swept : q.1.still :=
    State.still_of_online still (by rw [sweeps]; exact still.1) (by rw [sweeps]; exact still.2.1) online (by rw [sweeps]; rfl) (by rw [sweeps]; rfl)
  refine ⟨_, Run.done_still _ (marks.still swept), ?_, ?_, u.fld_setFld_lt disabled Nat.one_lt_two, ?_⟩
  · show q.1.l2 = []
    rw [sweeps]
  · exact (u.fld_setFld_apart _ _ 1 disabled pend rfl (.inl Nat.zero_lt_one)).trans (q.fld_setFld_lt pend Nat.zero_lt_two)
  · show q.1.harts = s.harts
    rw [sweeps]
    rfl

/-! ### The sweep of an L3 -/

/-- A line that alone is in an L3, with room in its quadrant's victim buffer: no tile holds it, no error is stored with it, and no request for it
is in flight. -/
structure Run.l3Alone (r : Run s0) (d w : Nat) (x : L3Slot) : Prop where
  way : w < 16
  net : r.1.net = []
  l3 : r.1.l3 = [(l3Key d x.line w, x)]
  cv : x.cv = 0
  sound : x.flip = none
  miss : (r.1.quad (d * 4 + quadOf x.line)).miss = []
  room : (r.1.quad (d * 4 + quadOf x.line)).vict.length < 32
  fresh : (r.1.quad (d * 4 + quadOf x.line)).vict.all (fun v => v.line != x.line) = true

/-- The slot that an L3 finds is one of those listed. -/
theorem Run.l3Find_mem (r : Run s0) {d w : Nat} {l : LineAddr} {x : L3Slot} (find : r.l3Find d l = some (w, x)) : ∃ k, (k, x) ∈ r.1.l3 := by
  obtain ⟨v, -, found⟩ := List.exists_of_findSome?_eq_some find
  split at found
  next y at_ =>
    obtain ⟨-, same⟩ := Option.ite_none_right_eq_some.1 found
    cases same
    exact ⟨_, Sparse.mem_of_find? at_⟩
  next => cases found

/-- An L3 without a stored error is read as it is. -/
theorem Run.l3Check_sound (r : Run s0) (d : Nat) (l : LineAddr) (sound : ∀ e ∈ r.1.l3, e.2.flip = none) : r.l3Check d l = r := by
  unfold Run.l3Check
  split
  next => rfl
  next w x find =>
    obtain ⟨k, mem⟩ := r.l3Find_mem find
    rw [sound _ mem]

theorem l3Place_l3Key {d w : Nat} (l : LineAddr) (hw : w < 16) : l3Place (l3Key d l w) = (d, quadOf l, w) := by
  have quad := quadOf_lt l
  have set_ : l.toNat % 8192 < 8192 := Nat.mod_lt _ (by decide)
  simp only [l3Place, l3Key, Prod.mk.injEq]
  omega

/-- The entry of a victim buffer for a line that leaves an L3. -/
def L3Slot.victim (x : L3Slot) : Victim := { line := x.line, st := x.st, data := x.data, poison := x.poison }

/-- The message with which a dirty line leaves an L3 (R127). -/
def L3Slot.leave (x : L3Slot) (d : Nat) : Msg :=
  { kind := if x.st = .O then .evO else .evM, src := .die (Fin.ofNat 16 d), dst := homeOf x.line, line := x.line, data := x.data, poison := x.poison, st := x.st }

/-- A run after a line has left an L3. -/
def Run.leaves (r : Run s0) (d w : Nat) (x : L3Slot) : Run s0 :=
  let u := r.setL3Slot (l3Key d x.line w) none
  if x.st.dirty then (u.modQuad (d * 4 + quadOf x.line) fun q => { q with vict := q.vict ++ [x.victim] }).send (x.leave d) else u

theorem namedTiles_zero : namedTiles 0 none = [] := by decide

/-- The line leaves clean without a message, dirty through the victim buffer. -/
theorem Run.l3Evict_alone (r : Run s0) {d w : Nat} {x : L3Slot} (alone : r.l3Alone d w x)
    (arm : x.st.dirty = true → r.1.fld (ARR_FLIP_ARM d (128 + quadOf x.line * 3 + 2)) = 0) : (r.l3Evict d w x).1 = r.leaves d w x := by
  have slot : r.l3Slot (l3Key d x.line w) = some x := by simp [Run.l3Slot, State.l3Slot, alone.l3, Sparse.find?]
  have checks : r.l3Check d x.line = r := r.l3Check_sound d x.line fun e he => by
    rw [alone.l3, List.mem_singleton] at he
    rw [he]
    exact alone.sound
  simp only [Run.l3Evict, r.flushDie_none d x.line alone.net, slot, Option.getD_some, alone.cv, namedTiles_zero, Run.snoopTiles, List.foldl_nil, checks]
  cases dirty : x.st.dirty
  · simp only [Run.leaves, dirty, Bool.false_eq_true, if_false]
  · have takes := (r.setL3Slot (l3Key d x.line w) none).armTake_unarmed (arm dirty)
    simp only [Run.leaves, dirty, if_true, takes, mkFlip, Run.victCheck, L3Slot.victim, L3Slot.leave, homeOf]

/-- The sweep of such a line ends with its leaving. -/
theorem Run.sweepL3_alone (r : Run s0) {d w : Nat} {x : L3Slot} {f : Nat → Nat → L3Slot → Bool} (alone : r.l3Alone d w x)
    (arm : x.st.dirty = true → r.1.fld (ARR_FLIP_ARM d (128 + quadOf x.line * 3 + 2)) = 0) (swept : f (quadOf x.line) w x = true) :
    r.sweepL3 d f = (r.leaves d w x, true) := by
  have slot : r.l3Slot (l3Key d x.line w) = some x := by simp [Run.l3Slot, State.l3Slot, alone.l3, Sparse.find?]
  have place := l3Place_l3Key (d := d) x.line alone.way
  have fresh : ∀ v ∈ (r.quad (d * 4 + quadOf x.line)).vict, v.line ≠ x.line := fun v hv => by simpa using List.all_eq_true.1 alone.fresh v hv
  have miss : (r.quad (d * 4 + quadOf x.line)).miss = [] := alone.miss
  have absent : (r.quad (d * 4 + quadOf x.line)).vict.any (·.line = x.line) = false := List.any_eq_false.2 fun v hv => by simp [fresh v hv]
  have keeps : (r.quad (d * 4 + quadOf x.line)).vict.any (fun v => v.line = x.line ∧ v.keep = true) = false :=
    List.any_eq_false.2 fun v hv => by simp [fresh v hv]
  have free : r.slotBusy d x.line w = false := by simp only [Run.slotBusy, miss, slot, List.any_nil, Bool.false_or, keeps]
  have calm : r.recallWaits d x = false := by simp only [Run.recallWaits, alone.cv, namedTiles_zero, List.any_nil]
  have room : ¬ 32 ≤ (r.quad (d * 4 + quadOf x.line)).vict.length := Nat.not_le.2 alone.room
  have only : (r.1.l3.filter fun e => (l3Place e.1).1 == d && f (l3Place e.1).2.1 (l3Place e.1).2.2 e.2) = [(l3Key d x.line w, x)] := by
    simp [alone.l3, place, swept]
  simp only [Run.sweepL3, only, List.foldl_cons, List.foldl_nil, slot, place, free, absent, calm, room, decide_false, Bool.or_self, Bool.false_eq_true, if_false,
    r.l3Evict_alone alone arm]

theorem Run.setL3Slot_alone (r : Run s0) {d w : Nat} {x : L3Slot} (alone : r.l3Alone d w x) : (r.setL3Slot (l3Key d x.line w) none).1 = { r.1 with l3 := [] } := by
  rw [Run.setL3Slot, Run.act_val]
  simp [Act.apply, alone.l3, Sparse.upd, Sparse.del]

theorem Run.leaves_clean (r : Run s0) {d w : Nat} {x : L3Slot} (alone : r.l3Alone d w x) (clean : x.st.dirty = false) :
    (r.leaves d w x).1 = { r.1 with l3 := [] } := by
  simp only [Run.leaves, clean, Bool.false_eq_true, if_false, r.setL3Slot_alone alone]

/-- A dirty line that leaves is in the victim buffer of its quadrant and on its way home. -/
theorem Run.leaves_dirty (r : Run s0) {d w : Nat} {x : L3Slot} (alone : r.l3Alone d w x) (dirty : x.st.dirty = true) :
    ∃ qs, (r.leaves d w x).1 = { r.1 with l3 := [], quads := qs, net := [x.leave d] } ∧
      ((r.leaves d w x).1.quad (d * 4 + quadOf x.line)).vict = (r.1.quad (d * 4 + quadOf x.line)).vict ++ [x.victim] ∧
      ∀ k, ((r.leaves d w x).1.quad k).miss = (r.1.quad k).miss ∧ ((r.leaves d w x).1.quad k).waiting = (r.1.quad k).waiting := by
  set u := r.setL3Slot (l3Key d x.line w) none with hu
  have emptied : u.1 = { r.1 with l3 := [] } := r.setL3Slot_alone alone
  set v := u.modQuad (d * 4 + quadOf x.line) fun q => { q with vict := q.vict ++ [x.victim] } with hv
  have leaves : r.leaves d w x = v.send (x.leave d) := by rw [Run.leaves, if_pos dirty]
  have quad : ∀ k, (v.send (x.leave d)).1.quad k =
      if k = d * 4 + quadOf x.line then { r.quad k with vict := (r.quad k).vict ++ [x.victim] } else r.quad k := fun k => by
    show v.quad k = _
    rw [hv, u.quad_modQuad]
    split
    next own => rw [own]; rfl
    next => rfl
  rw [leaves]
  refine ⟨v.1.quads, ?_, ?_, fun k => ?_⟩
  · rw [Run.send, Run.act_val, show v.1 = { u.1 with quads := v.1.quads } from rfl, emptied]
    simp [Act.apply, alone.net]
  · rw [quad, if_pos rfl]
    rfl
  · rw [quad]
    split <;> exact ⟨rfl, rfl⟩

/-- The end of a quadrant's sweep (R155): its line is gone, and it reads DISABLED. -/
theorem l3QuadrantDisableDone_empties (d : Fin 16) (k : Fin 4) (w : Fin 16) (x : L3Slot) (s : State) (still : s.still)
    (pending : natBit (s.fld (L3_STATUS_CACHE_DISABLE_PENDING d)) k = true) (own : quadOf x.line = k.val) (clean : x.st.dirty = false)
    (alone : (Run.start s).l3Alone d w x) :
    ∃ t, exec (.l3QuadrantDisableDone d k) s = .next t ∧ t.l3 = [] ∧ natBit (t.fld (L3_STATUS_CACHE_DISABLE_PENDING d)) k = false ∧
      natBit (t.fld (L3_STATUS_DISABLED d)) k = true := by
  set q := (Run.start s).leaves d w x with hq
  set u := q.setBit (L3_STATUS_CACHE_DISABLE_PENDING d) k false with hu
  have left : q.1 = { s with l3 := [] } := (Run.start s).leaves_clean alone clean
  have begins : exec (.l3QuadrantDisableDone d k) s = (u.setBit (L3_STATUS_DISABLED d) k true).done := by
    have on : (Run.start s).bit (L3_STATUS_CACHE_DISABLE_PENDING d) k = true := pending
    have sweeps := (Run.start s).sweepL3_alone (f := fun q _ _ => q == k.val) alone (by simp [clean]) (by simp [own])
    show execL3QuadrantDisableDone d k s = _
    simp only [execL3QuadrantDisableDone, on, sweeps, Bool.not_true, Bool.false_eq_true, if_false, if_true]
    rfl
  obtain ⟨-, status, -⟩ := l3Area_regs (d := d) (p := 0) (by decide)
  obtain ⟨-, -, link⟩ := noLink_l3Area d.isLt status
  obtain ⟨-, disabled, pend⟩ := L3_STATUS_fits d
  have marks : Run.marks noLink q (u.setBit (L3_STATUS_DISABLED d) k true) := (Run.marks_setBit q k false link).trans (Run.marks_setBit u k true link)
  have swept : q.1.still := by
    rw [left]
    exact State.still_of still still.1 still.2.1 rfl rfl rfl
  refine ⟨_, begins.trans (Run.done_still _ (marks.still swept)), ?_, ?_, ?_⟩
  · show q.1.l3 = []
    rw [left]
  · rw [Run.setBit, u.fld_setFld_apart _ _ _ disabled pend rfl (.inl (show 3 < 4 by decide)), q.natBit_setBit _ _ _ pend k.isLt, if_pos rfl]
  · rw [u.natBit_setBit _ _ _ disabled k.isLt, if_pos rfl]

/-- Settles O28: a write of CTL begins a disable or ends it at once; the end of a sweep leaves no line and STATUS with DISABLED set. -/
theorem cachesDisable : Obligations.CachesDisable := by
  unfold Obligations.CachesDisable
  refine ⟨l2Disable_begins, ?_, l2Enable_ends, l3QuadrantDisable_begins, ?_, l3QuadrantEnable_ends⟩
  · intro n w x s still net pending miss l2 clean sound _ _
    exact l2DisableDone_empties n w x s still net pending miss l2 clean sound
  · intro d k w x s still net pending l3 own clean cv sound _ _ miss room fresh
    exact l3QuadrantDisableDone_empties d k w x s still pending own clean
      { way := w.isLt, net := net, l3 := l3, cv := cv, sound := sound, miss := own ▸ miss, room := own ▸ room, fresh := own ▸ fresh }

/-! ### The end of a sweep of locked ways (R151) -/

/-- Where nothing waits at a quadrant or for its die, and the die's L3 is empty, a retry does nothing. -/
theorem Run.doRetry_idle (r : Run s0) (q : Nat) (waiting : (r.quad q).waiting = []) (miss : (r.quad q).miss = []) (noSwop : r.1.noSwop) (l3 : r.1.l3 = []) :
    r.doRetry q = (r, []) := by
  simp only [Run.doRetry, waiting, miss, List.isEmpty_nil, if_true, List.foldl_nil, l3, List.filterMap_nil, ite_self, List.map_nil, List.nil_append, List.append_nil]
  refine congrArg (Prod.mk r) (List.filterMap_eq_nil_iff.2 fun p hp => ?_)
  have calm := List.all_eq_true.1 noSwop p hp
  split
  · split
    next swops => simp [swops] at calm
    next => rfl
  · rfl

/-- Where the four quadrants of a die have nothing to try again, nothing is done. -/
theorem Run.go_retries (r : Run s0) (d : Nat) (idle : ∀ k < 4, r.doRetry (d * 4 + k) = (r, [])) :
    r.go ((List.range 4).map fun k => Todo.retry (d * 4 + k)) = r := by
  have bound : driveBound = 19995 + 1 + 1 + 1 + 1 + 1 := rfl
  have range : List.range 4 = [0, 1, 2, 3] := rfl
  rw [Run.go, bound, range]
  simp only [List.map_cons, List.map_nil, Run.drive, idle 0 (by decide), idle 1 (by decide), idle 2 (by decide), idle 3 (by decide), List.nil_append]

/-- A line that leaves changes only the L3, a victim buffer and the messages, and leaves nothing to settle. -/
theorem Run.leaves_calm (r : Run s0) {d w : Nat} {x : L3Slot} (alone : r.l3Alone d w x) (still : r.1.still) :
    let q := r.leaves d w x
    q.1.still ∧ q.1.l3 = [] ∧ q.1.harts = r.1.harts ∧ ∀ k, (q.1.quad k).miss = (r.1.quad k).miss ∧ (q.1.quad k).waiting = (r.1.quad k).waiting := by
  intro q
  cases dirty : x.st.dirty
  · have left : q.1 = { r.1 with l3 := [] } := r.leaves_clean alone dirty
    rw [left]
    exact ⟨State.still_of still still.1 still.2.1 rfl rfl rfl, rfl, rfl, fun _ => ⟨rfl, rfl⟩⟩
  · obtain ⟨qs, left, -, kept⟩ := r.leaves_dirty alone dirty
    have left : q.1 = { r.1 with l3 := [], quads := qs, net := [x.leave d] } := left
    have sent := r.still_send (x.leave d) still rfl
    refine ⟨?_, by rw [left], by rw [left], kept⟩
    rw [left]
    exact State.still_of sent sent.1 sent.2.1 rfl (by rw [Run.send, Run.act_val]; simp [Act.apply, alone.net]) rfl

/-- The end of a sweep of locked ways: the line of another partition has left. -/
theorem lockSweepDone_empties (d w : Fin 16) (x : L3Slot) (s : State) (still : s.still) (sweep : s.fld (L3_STATUS_SWEEP d) = 1)
    (locked : natBit (s.fld (L3_WAYLOCK_LOCK d)) w = true) (foreign : x.part ≠ (Run.start s).wayOwner d w)
    (arm : s.fld (ARR_FLIP_ARM d (128 + quadOf x.line * 3 + 2)) = 0) (idle : ∀ k < 4, (s.quad (d * 4 + k)).waiting = [] ∧ (s.quad (d * 4 + k)).miss = [])
    (noSwop : s.noSwop) (alone : (Run.start s).l3Alone d w x) :
    ∃ t, exec (.lockSweepDone d) s = .next t ∧ t.l3 = [] ∧ t.fld (L3_STATUS_SWEEP d) = 0 ∧
      t.quads = ((Run.start s).leaves d w x).1.quads ∧ t.net = ((Run.start s).leaves d w x).1.net := by
  obtain ⟨swept, l3, harts, kept⟩ := (Run.start s).leaves_calm alone still
  have sweeps := (Run.start s).sweepL3_alone (f := fun _ w x => natBit ((Run.start s).fld (L3_WAYLOCK_LOCK d)) w && x.part != (Run.start s).wayOwner d w)
    alone (fun _ => arm) (by simpa [foreign, Run.fld] using locked)
  set q := (Run.start s).leaves d w x with hq
  set u := q.setFld (L3_STATUS_SWEEP d) 0 with hu
  have noFill : (Run.start s).fillsLocked d = false := List.any_eq_false.2 fun k hk => by
    have miss : ((Run.start s).quad (d * 4 + k)).miss = [] := (idle k (List.mem_range.1 hk)).2
    simp [miss]
  have rests : ∀ k < 4, u.doRetry (d * 4 + k) = (u, []) := fun k hk => by
    obtain ⟨waiting, miss⟩ := idle k hk
    obtain ⟨keptMiss, keptWaiting⟩ := kept (d * 4 + k)
    refine u.doRetry_idle _ (keptWaiting.trans waiting) (keptMiss.trans miss) ?_ l3
    rw [State.noSwop, show u.1.harts = s.harts from harts]
    exact noSwop
  have ends : exec (.lockSweepDone d) s = u.done := by
    have on : (Run.start s).on (L3_STATUS_SWEEP d) = true := by simp [Run.on, Run.fld, sweep]
    show execLockSweepDone d s = _
    simp only [execLockSweepDone, on, sweeps, noFill, Bool.not_true, Bool.not_false, Bool.and_self, Bool.false_eq_true, if_false, if_true]
    rw [← hu, u.go_retries d rests]
  obtain ⟨-, status, -⟩ := l3Area_regs (d := d) (p := 0) (by decide)
  obtain ⟨-, -, link⟩ := noLink_l3Area d.isLt status
  obtain ⟨fits, -⟩ := L3_STATUS_fits d
  have marks : Run.marks noLink q u := Run.marks_setFld q 0 link
  exact ⟨_, ends.trans (Run.done_still _ (marks.still swept)), l3, q.fld_setFld_lt fits Nat.zero_lt_two, rfl, rfl⟩

/-- Settles O27: each write reaches its register and takes effect, where every partition keeps a way and none is frozen; the end of a sweep leaves no
line of another partition in a locked way. -/
theorem partitionsComplete : Obligations.PartitionsComplete := by
  unfold Obligations.PartitionsComplete
  refine ⟨partwaysWrite_takes, waylockWrite_sweeps, wayownerWrite_takes, ?_⟩
  intro d w x s still net sweep l3 locked foreign cv sound _ _ arm idle noSwop room fresh
  have alone : (Run.start s).l3Alone d w x :=
    { way := w.isLt, net := net, l3 := l3, cv := cv, sound := sound, miss := (idle _ (quadOf_lt x.line)).2, room := room, fresh := fresh }
  obtain ⟨t, ends, empty, swept, quads, sent⟩ := lockSweepDone_empties d w x s still sweep locked foreign arm idle noSwop alone
  refine ⟨t, ends, empty, swept, fun dirty => ?_, fun clean => ?_⟩
  · obtain ⟨qs, left, vict, -⟩ := (Run.start s).leaves_dirty alone dirty
    refine ⟨?_, ?_⟩
    · rw [State.quad, quads]
      exact vict
    · rw [sent, left]
      simp [L3Slot.leave]
  · have left := (Run.start s).leaves_clean alone clean
    rw [quads, sent, left]
    exact ⟨rfl, net⟩

end Sys2Proof.Machine

/-! Fences of a hart without stores (R58, R116 to R118, R130, R187). -/
namespace Sys2Proof.Machine

variable {s0 : State}

/-- Entries of a hart's translations that are dropped leave the hart able to execute, and its stores as they are. -/
theorem Run.dropTlb_leaves (r : Run s0) (h : Nat) (f : TlbEntry → Bool) (still : r.1.still) (undisturbed : r.1.undisturbed h) (drained : r.1.drained h) :
    (r.dropTlb h f).1.still ∧ (r.dropTlb h f).1.undisturbed h ∧ (r.dropTlb h f).1.drained h := by
  set q := r.modHart h fun t => { t with tlb := t.tlb.filter fun e => !f e } with hq
  have own : q.1.hart h = { r.1.hart h with tlb := (r.1.hart h).tlb.filter fun e => !f e } := by rw [hq, Run.modHart, Run.hart_setHart, if_pos rfl]; rfl
  obtain ⟨ops, only⟩ : ∃ ops, (r.dropTlb h f).1 = { q.1 with ops := ops } := by
    rw [Run.dropTlb, Run.dropOps]
    split <;> exact ⟨_, rfl⟩
  have own' : (r.dropTlb h f).1.hart h = _ := (congrArg (fun t => State.hart t h) only).trans own
  have same : (r.dropTlb h f).1.csrs = r.1.csrs ∧ (r.dropTlb h f).1.quads = r.1.quads ∧ (r.dropTlb h f).1.tiles = r.1.tiles := by
    rw [only]
    exact ⟨rfl, rfl, rfl⟩
  obtain ⟨csrs, quads, tiles⟩ := same
  refine ⟨?_, ?_, ?_⟩
  · rw [only]
    exact State.still_of still still.1 still.2.1 rfl rfl rfl
  · simp only [State.undisturbed, State.unwatched, State.quad, State.csr, own', csrs, quads]
    exact undisturbed
  · simp only [State.drained, State.tile, own', tiles]
    exact drained

/-- A fence that waits for the hart's stores, of which there are none, retires its hart. -/
theorem Run.done_after_retire (r : Run s0) (h : Nat) (still : r.1.still) (undisturbed : r.1.undisturbed h) (drained : r.1.drained h) :
    (r.after h none .retire).done = .next (r.retire h).over := by
  rw [r.after_retire h none drained, r.done_retire h still undisturbed]

/-- So does one that only starts to drain them. -/
theorem Run.done_drain_retire (r : Run s0) (h : Nat) (still : r.1.still) (undisturbed : r.1.undisturbed h) (drained : r.1.drained h) :
    ((r.startDrain h).retire h).done = .next (r.retire h).over := by
  rw [r.startDrain_drained h drained, r.done_retire h still undisturbed]

/-- Only U-mode and VU-mode raise an exception at SFENCE.W.INVAL and SFENCE.INVAL.IR. -/
theorem Run.invalCause_none (r : Run s0) {h : Nat} (mode : (r.1.hart h).mode.user = false) : r.invalCause h = none := by
  rw [Run.invalCause, show r.hart h = r.1.hart h from rfl]
  split
  next user => simp [user, Mode.user] at mode
  next user => simp [user, Mode.user] at mode
  next => rfl

/-- A fence of translation drops the entries that it names and completes, where its hart has no store left. -/
theorem dropTlb_completes {h : Nat} {s : State} (free : s.free_ h) (drained : s.drained h) (f : TlbEntry → Bool) :
    (((Run.start s).dropTlb h f).after h none .retire).done = .next (((Run.start s).dropTlb h f).retire h).over ∧
    ((((Run.start s).dropTlb h f).startDrain h).retire h).done = .next (((Run.start s).dropTlb h f).retire h).over := by
  obtain ⟨still, undisturbed, -⟩ := free
  obtain ⟨still, undisturbed, drained⟩ := (Run.start s).dropTlb_leaves h f still undisturbed drained
  exact ⟨Run.done_after_retire _ h still undisturbed drained, Run.done_drain_retire _ h still undisturbed drained⟩

/-- Settles O1: with no store left a fence retires at once; a fence of translation, and an invalidation of the same scope, drops its entries first. -/
theorem fencesCompleteWhenDrained : Obligations.FencesCompleteWhenDrained := by
  unfold Obligations.FencesCompleteWhenDrained
  refine ⟨?_, ?_, ?_, ?_, ?_, ?_, ?_, ?_, ?_, ?_⟩
  · intro h p u tso s ⟨still, undisturbed, ready⟩ drained
    show execFence h p u tso s = _
    simp only [execFence, ready, Bool.not_true, Bool.false_eq_true, if_false]
    split
    · exact Run.done_after_retire _ h still undisturbed drained
    · split
      · exact Run.done_drain_retire _ h still undisturbed drained
      · exact Run.done_retire _ h still undisturbed
  · intro h s ⟨still, undisturbed, ready⟩ drained
    show execFenceI h s = _
    rw [execFenceI, ready]
    exact Run.done_after_retire _ h still undisturbed drained
  · intro h s ⟨still, undisturbed, ready⟩ drained mode
    show execSfenceWInval h s = _
    rw [execSfenceWInval, ready, Run.invalCause_none _ mode]
    exact Run.done_after_retire _ h still undisturbed drained
  · intro h s ⟨still, undisturbed, ready⟩ drained mode
    show execSfenceInvalIr h s = _
    rw [execSfenceInvalIr, ready, Run.invalCause_none _ mode]
    exact Run.done_drain_retire _ h still undisturbed drained
  · intro h rs1 rs2 s free drained legal
    obtain ⟨-, -, ready⟩ := id free
    show execSfenceVma h rs1 rs2 s = _
    rw [execSfenceVma, ready, legal]
    exact (dropTlb_completes free drained _).1
  · intro h rs1 rs2 s free drained legal
    obtain ⟨-, -, ready⟩ := id free
    show execHfenceVvma h rs1 rs2 s = _
    rw [execHfenceVvma, ready, legal]
    exact (dropTlb_completes free drained _).1
  · intro h rs1 rs2 s free drained legal
    obtain ⟨-, -, ready⟩ := id free
    show execHfenceGvma h rs1 rs2 s = _
    rw [execHfenceGvma, ready, legal]
    exact (dropTlb_completes free drained _).1
  · intro h rs1 rs2 s free drained legal
    obtain ⟨-, -, ready⟩ := id free
    show execSinvalVma h rs1 rs2 s = _
    rw [execSinvalVma, ready, legal]
    exact (dropTlb_completes free drained _).2
  · intro h rs1 rs2 s free drained legal
    obtain ⟨-, -, ready⟩ := id free
    show execHinvalVvma h rs1 rs2 s = _
    rw [execHinvalVvma, ready, legal]
    exact (dropTlb_completes free drained _).2
  · intro h rs1 rs2 s free drained legal
    obtain ⟨-, -, ready⟩ := id free
    show execHinvalGvma h rs1 rs2 s = _
    rw [execHinvalGvma, ready, legal]
    exact (dropTlb_completes free drained _).2

end Sys2Proof.Machine

/-! A message arrives: its packet passes the check of its destination, leaves the buffer of its link, and is taken (R34, R165, R189, R190, R206, R460). -/
namespace Sys2Proof.Machine

variable {s0 : State}

/-! ### Runs that write registers alone -/

/-- A run has gone on by writes of registers at offsets of `W` alone. -/
def Run.rewrites (W : Nat → Prop) (r q : Run s0) : Prop :=
  ∃ rs, q.1 = { r.1 with regs := rs } ∧ ∀ o, ¬ W o → Sparse.find? rs o = r.1.regs.find? o

variable {W : Nat → Prop} {r p q : Run s0}

theorem Run.rewrites.refl (r : Run s0) : Run.rewrites W r r := ⟨_, rfl, fun _ _ => rfl⟩

theorem Run.rewrites.trans (h : Run.rewrites W r p) (h' : Run.rewrites W p q) : Run.rewrites W r q := by
  obtain ⟨rs, only, same⟩ := h
  obtain ⟨rs', only', same'⟩ := h'
  exact ⟨rs', by rw [only', only], fun o ho => (same' o ho).trans (by rw [only]; exact same o ho)⟩

theorem Run.rewrites_setReg (r : Run s0) {g : Reg} (v : Word) (h : W g.off) : Run.rewrites W r (r.setReg g v) :=
  ⟨_, rfl, fun _ ho => Sparse.find?_upd_other _ _ fun e => ho (e ▸ h)⟩

theorem Run.rewrites_setFld (r : Run s0) {f : FRef} (v : Nat) (h : W f.reg.off) : Run.rewrites W r (r.setFld f v) := Run.rewrites_setReg r _ h

theorem Run.rewrites_armTake (r : Run s0) {d a : Nat} (h : W (ARR_FLIP d a).off) : Run.rewrites W r (r.armTake d a).1 := by
  obtain ⟨rs, only, same⟩ := r.armTake_only d a
  exact ⟨rs, only, fun o ho => same o fun e => ho (e ▸ h)⟩

theorem Run.rewrites_countCe (r : Run s0) {d a : Nat} (kind loc : Nat) (count : W (ARR_CECNT d a).off) (entry : ∀ j < 8, W (ARR_ADDR d a j).off) :
    Run.rewrites W r (r.countCe d a kind loc).1 :=
  (Run.rewrites_setFld (f := ARR_CECNT_COUNT d a) r _ count).trans (Run.rewrites_setReg _ _ (entry _ (r.ceEntry_lt d a kind loc)))

/-- A buffer without events writes registers of its own array alone. -/
theorem Run.rewrites_bufferPass (r : Run s0) {d a : Nat} (l : Option LineAddr) (flip : W (ARR_FLIP d a).off) (count : W (ARR_CECNT d a).off)
    (entry : ∀ j < 8, W (ARR_ADDR d a j).off) : Run.rewrites W r (r.bufferPass d a l) := by
  have takes : Run.rewrites W r (r.armTake d a).1 := r.rewrites_armTake flip
  unfold Run.bufferPass
  dsimp only
  split
  next => exact takes
  next =>
    split
    · exact takes
    · exact takes.trans (Run.rewrites_countCe _ _ _ count entry)
  next =>
    split
    · exact takes
    · exact takes.trans (Run.rewrites_countCe _ _ _ count entry)

/-! ### The registers that an arrival writes -/

/-- The arrays of the class buffers of the links, on the IOD and on a die (R460). -/
def linkArea (o : Nat) : Prop :=
  (0x10000D2200 ≤ o ∧ o < 0x10000D2A00) ∨ (o < 0x1000000000 ∧ 0x10114600 ≤ o % 0x100000000 ∧ o % 0x100000000 < 0x10114680)

/-- The counts of the home slices' trackers (R165). -/
def trackArea (o : Nat) : Prop := 0x10000A0100 ≤ o ∧ o < 0x10000A0140

/-- What the arrival of a message may write. -/
def arrivalArea (o : Nat) : Prop := linkArea o ∨ trackArea o

theorem linkArea_iod {d : Nat} (hd : d < 16) :
    linkArea (ARR_FLIP 16 (68 + d)).off ∧ linkArea (ARR_CECNT 16 (68 + d)).off ∧ ∀ j < 8, linkArea (ARR_ADDR 16 (68 + d) j).off := by
  refine ⟨?_, ?_, fun j hj => ?_⟩ <;> simp only [linkArea, ARR_FLIP, ARR_CECNT, ARR_ADDR, errBase, if_true] <;> omega

theorem linkArea_die {d : Nat} (hd : d < 16) :
    linkArea (ARR_FLIP d 140).off ∧ linkArea (ARR_CECNT d 140).off ∧ ∀ j < 8, linkArea (ARR_ADDR d 140 j).off := by
  refine ⟨?_, ?_, fun j hj => ?_⟩ <;> simp only [linkArea, ARR_FLIP, ARR_CECNT, ARR_ADDR, errBase, if_neg hd.ne] <;> omega

theorem linkOf_lt {m : Msg} {d : Nat} (h : linkOf m = some d) : d < 16 := by
  unfold linkOf at h
  split at h
  next a b src dst =>
    split at h
    · cases h
    · cases h
      exact Agent.onDie_lt src
  next a src dst =>
    cases h
    exact Agent.onDie_lt src
  next src => exact Agent.onDie_lt h

/-- The class buffer of a link counts an error of its own at most. -/
theorem Run.rewrites_linkBuffer (r : Run s0) (m : Msg) : Run.rewrites linkArea r (r.linkBuffer m) := by
  unfold Run.linkBuffer
  split
  next d link =>
    obtain ⟨flip, count, entry⟩ := linkArea_die (linkOf_lt link)
    obtain ⟨flip', count', entry'⟩ := linkArea_iod (linkOf_lt link)
    split
    · exact r.rewrites_bufferPass _ flip count entry
    · exact r.rewrites_bufferPass _ flip' count' entry'
  next => exact .refl r

/-- A tracker taken or freed is counted. -/
theorem Run.rewrites_trackers (r : Run s0) {k : Nat} (hk : k < 4) (m : Msg) (up : Bool) : Run.rewrites trackArea r (r.trackers k m up) := by
  have area : trackArea (HOME_TRKSTAT k).off := by
    simp only [trackArea, HOME_TRKSTAT]
    omega
  unfold Run.trackers
  dsimp only
  split
  · exact (Run.rewrites_setFld (f := HOME_TRKSTAT_INUSE k) r _ area).trans (Run.rewrites_setFld (f := HOME_TRKSTAT_EVCUSE k) _ _ area)
  · exact (Run.rewrites_setFld (f := HOME_TRKSTAT_INUSE k) r _ area).trans (Run.rewrites_setFld (f := HOME_TRKSTAT_PEERUSE k) _ _ area)
  · exact (Run.rewrites_setFld (f := HOME_TRKSTAT_INUSE k) r _ area).trans (Run.rewrites_setFld (f := HOME_TRKSTAT_IOUSE k) _ _ area)
  · exact Run.rewrites_setFld (f := HOME_TRKSTAT_INUSE k) r _ area

/-! ### The packet -/

/-- The number of a sequence's next packet is the one expected. -/
theorem Run.behind_packet (s : State) (m : Msg) {k : Nat} (key : seqKey m = some k) : (Run.start s).behind k (s.packet m) = 0 := by
  have number : (s.packet m).num.toNat = s.seq k % 4096 := by simp [State.packet, key]
  show (s.seq k + 4096 - (s.packet m).num.toNat) % 4096 = 0
  omega

/-- The packet of the one message in flight is delivered, from the buffer of its link. -/
theorem Run.message_packet {s : State} {m : Msg} (one : s.oneMsg m) : (Run.start s).message m.kind (s.packet m) = ((Run.start s).linkBuffer m).deliver m := by
  obtain ⟨-, -, -, num, intact, arrives⟩ := one
  have same : { s.packet m with kind := m.kind, num := 0, intact := true } = m := by
    cases m
    simp_all [State.packet]
  have whole : (s.packet m).intact = true := intact
  have accepts : (Run.start s).accept m = ((Run.start s).linkBuffer m).deliver m := by rw [Run.accept, if_pos arrives]
  unfold Run.message
  rw [same]
  dsimp only
  split
  next k u key stop => rw [whole, Run.behind_packet s m key, if_pos (by rfl), accepts]
  next => exact accepts

/-- A message that can pass has its die online, at both ends of a link. -/
theorem State.oneMsg.online {s : State} {m : Msg} (one : s.oneMsg m) {d : Nat} (link : linkOf m = some d) : s.online d = true := by
  obtain ⟨-, -, -, -, -, arrives⟩ := one
  simp only [Run.arrives, Run.passes, link, Bool.and_eq_true] at arrives
  obtain ⟨⟨-, up⟩, -⟩ := arrives
  rw [State.online, show (s.fld (RLINK_STAT_STATE d) == 4) = true from up, Bool.true_or]

/-! ### What is left of the state -/

/-- The one message in flight has been taken: registers that its arrival may write, and the number of its sequence, have changed. -/
structure State.arrived (s t : State) : Prop where
  only : ∃ rs sq, t = { s with regs := rs, seqs := sq, net := [] }
  regs : ∀ o, ¬ arrivalArea o → t.regs.find? o = s.regs.find? o

/-- Registers read the same where nothing has been written. -/
theorem State.reg_same {s t : State} {g : Reg} (same : t.regs.find? g.off = s.regs.find? g.off) : t.reg g = s.reg g := by
  simp only [State.reg, Sparse.get, same]

theorem Run.rewrites.reg (h : Run.rewrites W r q) {g : Reg} (off : ¬ W g.off) : q.1.reg g = r.1.reg g := by
  obtain ⟨rs, only, same⟩ := h
  exact State.reg_same (by rw [only]; exact same _ off)

theorem Run.rewrites.fld (h : Run.rewrites W r q) {f : FRef} (off : ¬ W f.reg.off) : q.1.fld f = r.1.fld f := by
  rw [State.fld, State.fld, h.reg off]

theorem State.arrived.reg {s t : State} (h : s.arrived t) {g : Reg} (off : ¬ arrivalArea g.off) : t.reg g = s.reg g := State.reg_same (h.regs _ off)

theorem State.arrived.fld {s t : State} (h : s.arrived t) {f : FRef} (off : ¬ arrivalArea f.reg.off) : t.fld f = s.fld f := by
  rw [State.fld, State.fld, h.reg off]

/-- Once taken, the one message in flight has gone. -/
theorem State.oneMsg.arrived_take {s : State} {m : Msg} (one : s.oneMsg m) : s.arrived (((Run.start s).linkBuffer m).take m).1 := by
  obtain ⟨-, -, net, -⟩ := one
  obtain ⟨rs, only, same⟩ := (Run.start s).rewrites_linkBuffer m
  obtain ⟨sq, takes⟩ := ((Run.start s).linkBuffer m).take_only m
  have empty : s.net.erase m = [] := by simp [net]
  refine ⟨⟨rs, sq, ?_⟩, fun o ho => ?_⟩
  · rw [takes, only]
    simp only [Run.start_val, empty]
  · rw [takes, only]
    exact same o fun link => ho (.inl link)

/-- Counting trackers leaves the message taken. -/
theorem State.arrived.trackers {s : State} {q : Run s0} (h : s.arrived q.1) {k : Nat} (hk : k < 4) (m : Msg) (up : Bool) : s.arrived (q.trackers k m up).1 := by
  obtain ⟨⟨rs, sq, only⟩, same⟩ := h
  obtain ⟨rs', only', same'⟩ := q.rewrites_trackers hk m up
  refine ⟨⟨rs', sq, by rw [only', only]⟩, fun o ho => ?_⟩
  rw [only']
  exact (same' o fun track => ho (.inr track)).trans (same o ho)

theorem arrivalArea_RLINK_STAT {d : Nat} (hd : d < 16) : ¬ arrivalArea (RLINK_STAT d).off := by
  simp only [arrivalArea, linkArea, trackArea, RLINK_STAT]
  omega

/-- A message in flight is for no die that is not online by the dies online alone. -/
theorem State.fencedDie_online {s t : State} (online : ∀ d < 16, t.online d = s.online d) (m : Msg) : t.fencedDie m = s.fencedDie m := by
  rw [State.fencedDie, State.fencedDie]
  cases e : Agent.onDie m.dst with
  | none => rfl
  | some d => simp only [online d (Agent.onDie_lt e)]

/-- A message to an agent on no die, or on one that is online, reaches it. -/
theorem State.fencedDie_none {s : State} {m : Msg} (reach : ∀ d, Agent.onDie m.dst = some d → s.online d = true) : s.fencedDie m = none := by
  rw [State.fencedDie]
  cases e : Agent.onDie m.dst with
  | none => rfl
  | some d => simp [reach d e]

/-- Two states show what is left to settle the same, beside messages in flight: no register that tells which dies are online differs. -/
structure State.settledLike (s t : State) : Prop where
  need : t.need = s.need
  poke : t.poke = s.poke
  dies : t.dies = s.dies
  regs : ∀ o, ¬ arrivalArea o → t.regs.find? o = s.regs.find? o

theorem State.arrived.settledLike {s t : State} (h : s.arrived t) : s.settledLike t := by
  obtain ⟨rs, sq, only⟩ := h.only
  exact ⟨by rw [only], by rw [only], by rw [only], h.regs⟩

/-- Counting trackers leaves nothing to settle. -/
theorem State.settledLike.trackers {s : State} {q : Run s0} (h : s.settledLike q.1) {k : Nat} (hk : k < 4) (m : Msg) (up : Bool) :
    s.settledLike (q.trackers k m up).1 := by
  obtain ⟨rs, only, same⟩ := q.rewrites_trackers hk m up
  rw [only]
  exact ⟨h.need, h.poke, h.dies, fun o ho => (same o fun track => ho (.inr track)).trans (h.regs o ho)⟩

theorem State.settledLike.setQueue {s : State} {q : Run s0} (h : s.settledLike q.1) (k : Nat) (v : List HReq) : s.settledLike (q.setQueue k v).1 :=
  ⟨h.need, h.poke, h.dies, h.regs⟩

theorem State.settledLike.setFiltEntry {s : State} {q : Run s0} (h : s.settledLike q.1) (k : Nat) (v : Option FEntry) : s.settledLike (q.setFiltEntry k v).1 :=
  ⟨h.need, h.poke, h.dies, h.regs⟩

theorem State.settledLike.setL3Slot {s : State} {q : Run s0} (h : s.settledLike q.1) (k : Nat) (v : Option L3Slot) : s.settledLike (q.setL3Slot k v).1 :=
  ⟨h.need, h.poke, h.dies, h.regs⟩

theorem State.settledLike.modQuad {s : State} {q : Run s0} (h : s.settledLike q.1) (k : Nat) (f : Quad → Quad) : s.settledLike (q.modQuad k f).1 :=
  ⟨h.need, h.poke, h.dies, h.regs⟩

theorem State.settledLike.send {s : State} {q : Run s0} (h : s.settledLike q.1) (m : Msg) : s.settledLike (q.send m).1 := ⟨h.need, h.poke, h.dies, h.regs⟩

theorem State.settledLike.online {s t : State} (h : s.settledLike t) {d : Nat} (hd : d < 16) : t.online d = s.online d :=
  State.online_of_find? (h.regs _ (arrivalArea_RLINK_STAT hd))

/-- The end of the command of an arrival: nothing is left to settle where every message sent reaches its receiver. -/
theorem State.settledLike.done_sent {s : State} {q : Run s0} (h : s.settledLike q.1) (still : s.still) (reach : ∀ m ∈ q.1.net, s.fencedDie m = none) :
    q.done = .next q.1 := by
  obtain ⟨noNeed, noPoke, -, drops⟩ := still
  refine q.done_still ⟨h.need.trans noNeed, h.poke.trans noPoke, fun m hm => ?_, h.dies ▸ drops⟩
  rw [State.fencedDie_online fun d hd => h.online hd]
  exact reach m hm

/-- The same, where one message has been sent. -/
theorem State.settledLike.done_one {s : State} {q : Run s0} (h : s.settledLike q.1) (still : s.still) {m : Msg} (net : q.1.net = [m])
    (reach : ∀ d, Agent.onDie m.dst = some d → s.online d = true) : q.done = .next q.1 :=
  h.done_sent still fun x hx => by
    rw [net, List.mem_singleton] at hx
    rw [hx]
    exact State.fencedDie_none reach

/-! ### What operations on queues, filters, slots and messages leave -/

@[simp] theorem State.net_setQueue (r : Run s0) (k : Nat) (v : List HReq) : (r.setQueue k v).1.net = r.1.net := rfl
@[simp] theorem State.net_setFiltEntry (r : Run s0) (k : Nat) (v : Option FEntry) : (r.setFiltEntry k v).1.net = r.1.net := rfl
@[simp] theorem State.net_setL3Slot (r : Run s0) (k : Nat) (v : Option L3Slot) : (r.setL3Slot k v).1.net = r.1.net := rfl
@[simp] theorem State.net_modQuad (r : Run s0) (k : Nat) (f : Quad → Quad) : (r.modQuad k f).1.net = r.1.net := rfl
@[simp] theorem State.net_send (r : Run s0) (m : Msg) : (r.send m).1.net = r.1.net ++ [m] := rfl

@[simp] theorem State.queue_setQueue_same (r : Run s0) (k : Nat) (v : List HReq) : (r.setQueue k v).1.queue k = v := by simp [Run.setQueue, State.queue]
@[simp] theorem State.queue_send (r : Run s0) (m : Msg) (j : Nat) : (r.send m).1.queue j = r.1.queue j := rfl

@[simp] theorem State.filtEntry_setQueue (r : Run s0) (k j : Nat) (v : List HReq) : (r.setQueue k v).1.filtEntry j = r.1.filtEntry j := rfl
@[simp] theorem State.filtEntry_setFiltEntry_same (r : Run s0) (k : Nat) (v : Option FEntry) : (r.setFiltEntry k v).1.filtEntry k = v :=
  Sparse.find?_upd_same _ _ _
@[simp] theorem State.filtEntry_send (r : Run s0) (m : Msg) (j : Nat) : (r.send m).1.filtEntry j = r.1.filtEntry j := rfl

@[simp] theorem State.l3Slot_setL3Slot_same (r : Run s0) (k : Nat) (v : Option L3Slot) : (r.setL3Slot k v).1.l3Slot k = v := Sparse.find?_upd_same _ _ _
@[simp] theorem State.l3Slot_send (r : Run s0) (m : Msg) (j : Nat) : (r.send m).1.l3Slot j = r.1.l3Slot j := rfl

end Sys2Proof.Machine

/-! A home slice orders a request for a line that nobody holds, and begins it (R161 to R163, R165, R170). -/
namespace Sys2Proof.Machine

variable {s0 : State}

/-! ### What a home reads -/

/-- Two states show a home the same, beside queues and messages: the filters, and registers that no arrival writes. -/
structure State.homeLike (s t : State) : Prop where
  filt : t.filt = s.filt
  slices : t.slices = s.slices
  regs : ∀ o, ¬ arrivalArea o → t.regs.find? o = s.regs.find? o

theorem State.arrived.homeLike {s t : State} (h : s.arrived t) : s.homeLike t := by
  obtain ⟨rs, sq, only⟩ := h.only
  exact ⟨by rw [only], by rw [only], h.regs⟩

theorem State.homeLike.fld {s t : State} (h : s.homeLike t) {f : FRef} (off : ¬ arrivalArea f.reg.off) : t.fld f = s.fld f := by
  rw [State.fld, State.fld, State.reg_same (h.regs _ off)]

theorem arrivalArea_DOM_STAT {k : Nat} (hk : k < 1024) : ¬ arrivalArea (DOM_STAT k).off := by
  simp only [arrivalArea, linkArea, trackArea, DOM_STAT]
  omega

theorem arrivalArea_HOME_CFG : ¬ arrivalArea HOME_CFG.off := by
  simp only [arrivalArea, linkArea, trackArea, HOME_CFG]
  omega

/-- The arrays of the home slices (R475) are apart from those of the links. -/
theorem arrivalArea_home_array {a : Nat} (ha : a < 68) : ¬ arrivalArea (ARR_FLIP 16 a).off := by
  simp only [arrivalArea, linkArea, trackArea, ARR_FLIP, errBase, if_true]
  omega

theorem State.homeLike.slice {s t : State} (h : s.homeLike t) (k : Nat) : t.slice k = s.slice k := by simp only [State.slice, h.slices]

theorem State.homeLike.filtEntry {s t : State} (h : s.homeLike t) (k : Nat) : t.filtEntry k = s.filtEntry k := by simp only [State.filtEntry, h.filt]

theorem State.homeLike.filtOf {s : State} {q : Run s0} (h : s.homeLike q.1) (d : Nat) (l : LineAddr) : q.filtOf d l = (Run.start s).filtOf d l := by
  have quarter := quadOf_lt l
  have gated : q.gated (400 + quadOf l) = (Run.start s).gated (400 + quadOf l) :=
    congrArg (· == 3) (h.fld (f := DOM_STAT_STATE (400 + quadOf l)) (arrivalArea_DOM_STAT (by omega)))
  have entries : ∀ k, q.filtEntry k = (Run.start s).filtEntry k := h.filtEntry
  have slice : q.slice (quadOf l) = (Run.start s).slice (quadOf l) := h.slice _
  have all : q.filtAll d l = (Run.start s).filtAll d l := by simp only [Run.filtAll, entries, slice]
  rw [Run.filtOf, Run.filtOf, gated, all]

/-- No injection is armed in the home slices, and no filter entry holds an error. -/
theorem State.homeLike.uninjected {s t : State} (h : s.homeLike t) (sound : s.uninjected) : t.uninjected := by
  obtain ⟨unarmed, flips⟩ := sound
  exact ⟨fun a ha => (h.fld (f := ARR_FLIP_ARM 16 a) (arrivalArea_home_array ha)).trans (unarmed a ha), h.filt ▸ flips⟩

/-! ### Filters and queues -/

/-- The filter without a stored error is read as it is. -/
theorem Run.filtCheck_sound (r : Run s0) (l : LineAddr) (sound : r.1.uninjected) : r.filtCheck l = r :=
  List.foldlRecOn (motive := (· = r)) _ _ rfl fun q hq e he => by rw [hq, sound.2 e he]

/-- An entry of the filter is written as it is named, where no injection is armed. -/
theorem Run.filtWrite_unarmed (r : Run s0) {d : Nat} (hd : d < 16) (l : LineAddr) (w : Nat) (x : Option FSt)
    (unarmed : ∀ a < 68, r.1.fld (ARR_FLIP_ARM 16 a) = 0) :
    r.filtWrite d l w x = r.setFiltEntry (l3Key d l w) (x.map fun st => ⟨l, st, none⟩) := by
  have quarter := quadOf_lt l
  rw [Run.filtWrite, r.armTake_unarmed (unarmed _ (by omega))]
  rfl

theorem Sparse.del_absent {α : Type} {m : Sparse α} {k : Nat} (absent : m.find? k = none) : m.del k = m := by
  induction m with
  | nil => rfl
  | cons e m ih =>
    obtain ⟨j, v⟩ := e
    simp only [Sparse.find?] at absent
    split at absent
    next => cases absent
    next other => rw [Sparse.del, if_neg other, ih absent]

/-- An entry that records no line is cleared. -/
theorem Run.filtWrite_absent (r : Run s0) {d : Nat} (hd : d < 16) (l : LineAddr) (w : Nat) (sound : r.1.uninjected)
    (absent : r.1.filtEntry (l3Key d l w) = none) : r.filtWrite d l w none = r := by
  rw [r.filtWrite_unarmed hd l w none sound.1]
  refine Subtype.ext ?_
  show { r.1 with filt := r.1.filt.del (l3Key d l w) } = r.1
  rw [Sparse.del_absent absent]

theorem Run.queue_setQueue_same (r : Run s0) (k : Nat) (v : List HReq) : (r.setQueue k v).queue k = v := State.queue_setQueue_same r k v

theorem Run.setHead_one (r : Run s0) {l : LineAddr} {q : HReq} (one : r.queue l.toNat = [q]) (q' : HReq) : r.setHead l q' = r.setQueue l.toNat [q'] := by
  rw [Run.setHead, one, List.tail_cons]

/-- A request waits for an answer: it goes on only when that comes. -/
def HReq.waits (q : HReq) : Prop := q.phase ≠ .queued ∧ ¬ (q.phase = .snooping ∧ q.snooped.isEmpty ∧ !q.needMem)

/-- A queue whose head, if it has one, waits stays as it is. -/
theorem Run.homeLoop_waits (r : Run s0) (l : LineAddr) (k : Nat) (waits : ∀ q ∈ (r.queue l.toNat).head?, q.waits) : r.homeLoop l k = r := by
  cases k with
  | zero => rfl
  | succ k =>
    rw [Run.homeLoop]
    split
    next => rfl
    next q rest queue =>
      obtain ⟨begun, ready⟩ := waits q (by rw [queue]; rfl)
      rw [if_neg begun, if_neg ready]

/-- A head whose answers have all come takes effect, and waits for the next. -/
theorem Run.homeLoop_ends (r : Run s0) {l : LineAddr} {q : HReq} (queue : r.queue l.toNat = [q]) (phase : q.phase = .snooping) (snooped : q.snooped = [])
    (needMem : q.needMem = false) (k : Nat) (waits : ∀ x ∈ ((r.homeEnd l q).queue l.toNat).head?, x.waits) : r.homeLoop l (k + 1) = r.homeEnd l q := by
  rw [Run.homeLoop, queue]
  simp only [phase, snooped, needMem, List.isEmpty_nil, Bool.not_false, and_self, reduceCtorEq, if_true, if_false]
  exact Run.homeLoop_waits _ l k waits

/-! ### A line that nobody holds -/

/-- Nobody holds a line, as its home's filters show; no directory is kept, and nothing is injected. -/
structure Run.vacant (r : Run s0) (l : LineAddr) : Prop where
  filt : ∀ d < 16, r.filtOf d l = none
  devs : (r.slice (quadOf l)).devs = []
  sound : r.1.uninjected
  diren : r.1.fld HOME_CFG_DIREN = 0

theorem State.homeLike.vacant {s : State} {q : Run s0} (h : s.homeLike q.1) {l : LineAddr} (unheld : s.unheld l) (sound : s.uninjected)
    (diren : s.fld HOME_CFG_DIREN = 0) : q.vacant l := by
  obtain ⟨filt, devs⟩ := unheld
  refine ⟨fun d hd => (h.filtOf d l).trans (filt d hd), ?_, h.uninjected sound, (h.fld (f := HOME_CFG_DIREN) arrivalArea_HOME_CFG).trans diren⟩
  rw [Run.slice, h.slice]
  exact devs

/-- The directory's field reads off. -/
theorem Run.direnOff (r : Run s0) (diren : r.1.fld HOME_CFG_DIREN = 0) : r.on HOME_CFG_DIREN = false := by simp [Run.on, Run.fld, diren]

/-- Nobody is snooped for a line that nobody holds. -/
theorem Run.localSnoops_vacant (r : Run s0) {l : LineAddr} (vacant : r.vacant l) (m : Msg) (owner sharer : Option MsgKind) (spare : Bool) :
    r.localSnoops l m owner sharer spare = [] := by
  have dies : ∀ d ∈ List.range 16, r.filtOf d l = none := fun d hd => vacant.filt d (List.mem_range.1 hd)
  simp only [Run.localSnoops, vacant.devs, List.filterMap_nil, List.append_nil]
  refine List.filterMap_eq_nil_iff.2 fun d hd => ?_
  rw [dies d hd]
  exact ite_self _

/-- A request as its home begins it, where nobody holds its line. -/
def HReq.begun (q : HReq) : HReq := { q with phase := .snooping, snooped := [], needMem := needsData q }

/-- How the requester holds a line, as its home shows it (R170). -/
def Run.heldBy (r : Run s0) (l : LineAddr) (a : Agent) : Option FSt :=
  match a with
  | .die d => r.filtOf d l
  | .cxl g => ((r.slice (quadOf l)).devs.find? fun e => e.1 = g.val ∧ e.2.1 = l).map fun e => if e.2.2 = .S then .S else if e.2.2 = .O then .O else .X
  | _ => none

theorem Run.heldBy_vacant (r : Run s0) {l : LineAddr} (vacant : r.vacant l) (a : Agent) : r.heldBy l a = none := by
  unfold Run.heldBy
  split
  next d => exact vacant.filt d d.isLt
  next => rw [vacant.devs, List.find?_nil, Option.map_none]
  next => rfl

/-- A request, no eviction, of a line in DRAM of this socket begins: with no directory, memory is asked where its data is needed. -/
theorem Run.homeStart_dram (r : Run s0) {l : LineAddr} {q : HReq} {c la : Nat} (checks : (r.filtCheck l).trackerCheck l q = (r, q)) (to_ : q.to_ = .dram c la)
    (request : msgClass q.msg.kind = 0) (diren : r.on HOME_CFG_DIREN = false) :
    r.homeStart l q =
      let x := { q with held := r.heldBy l q.msg.src }
      let ss := r.localSnoops l q.msg (ownerSnoop q.msg.kind) (sharerSnoop q.msg.kind) (sparesOwn q.msg.kind)
      let p := (r.setHead l { x with phase := .snooping, snooped := ss.map (·.1), needMem := needsData x }).sendSnoops l ss
      if needsData x then p.askMem l (.dram c la) else p := by
  unfold Run.homeStart
  simp only [checks, to_, request, diren, Bool.false_or, if_neg Nat.zero_ne_one]
  rw [← to_]
  rfl

/-- The home begins a request for a line that nobody holds: it asks memory where it needs its data. -/
theorem Run.homeStart_vacant (r : Run s0) {l : LineAddr} {q : HReq} {c la : Nat} (vacant : r.vacant l) (to_ : q.to_ = .dram c la) (flip : q.flip = none)
    (held : q.held = none) (request : msgClass q.msg.kind = 0) :
    r.homeStart l q = if needsData q then (r.setHead l q.begun).askMem l (.dram c la) else r.setHead l q.begun := by
  have checks : (r.filtCheck l).trackerCheck l q = (r, q) := by rw [r.filtCheck_sound l vacant.sound, Run.trackerCheck, flip]
  have same : { q with held := none } = q := by rw [← held]
  rw [r.homeStart_dram checks to_ request (r.direnOff vacant.diren), r.heldBy_vacant vacant, same, r.localSnoops_vacant vacant]
  rfl

/-! ### The request takes its place -/

/-- A request of a line that nobody holds takes a tracker and becomes the head of its line's queue. -/
theorem Run.homeArrive_orders (r : Run s0) {m : Msg} {c la : Nat} (q : Run s0) (takes : q = (r.take m).trackers (quadOf m.line) m true)
    (running : r.1.pins.fatal = false) (region : regionOf (m.line.toNat * 64) = .memory) (decodes : r.decodeLine m.line = .dram c la)
    (noPeer : ∀ p, m.src ≠ .peer p) (free : r.trackerFree (quadOf m.line) m = true) (queue : q.queue m.line.toNat = []) (sound : q.1.uninjected)
    (slot : ∀ d, m.src = .die d → sparesOwn m.kind = true → q.1.filtEntry (l3Key d m.line m.way) = none) (noResv : q.1.unreserved m.line)
    (request : msgClass m.kind = 0) (whole : ¬ (m.kind = .wrPart ∧ m.mask = BitVec.allOnes 64)) :
    r.homeArrive m = (q.setQueue m.line.toNat [{ msg := m, to_ := .dram c la }]).homeGo m.line := by
  have quarter := quadOf_lt m.line
  have arms : q.armTake 16 (64 + quadOf m.line) = (q, none) := q.armTake_unarmed (sound.1 _ (by omega))
  have evicts : ¬ (Agent.outer m.src = true ∧ msgClass m.kind = 1 ∧ m.kind ≠ .evC) := fun ⟨_, evc, _⟩ => by rw [request] at evc; cases evc
  unfold Run.homeArrive
  simp only [running, region, decodes, free, ← takes, q.filtCheck_sound m.line sound, if_neg whole, if_neg evicts, Bool.false_eq_true, Bool.not_true, ne_eq,
    not_true_eq_false, reduceCtorEq, false_or, if_false]
  cases src : m.src with
  | peer p => exact absurd src (noPeer p)
  | die d =>
    cases spares : sparesOwn m.kind with
    | false =>
      simp only [q.loseResv_none noResv, arms, queue, mkFlip, ite_self, Bool.not_false, Bool.false_eq_true, if_true, if_false, List.nil_append]
    | true =>
      have absent : q.filtEntry (l3Key d m.line m.way) = none := slot d src spares
      have kept := q.filtWrite_absent d.isLt m.line m.way sound absent
      simp only [absent, kept, q.loseResv_none noResv, arms, queue, mkFlip, ite_self, Bool.not_true, Bool.false_eq_true, if_false, List.nil_append]
  | _ => simp only [q.loseResv_none noResv, arms, queue, mkFlip, ite_self, Bool.false_eq_true, if_false, List.nil_append]

/-! ### The decoder and the trackers after a link's buffer -/

theorem linkArea_SAD {n : Nat} (hn : n < 32) : ¬ linkArea (SAD_RANGE_BASE n).off ∧ ¬ linkArea (SAD_RANGE_LIMIT n).off ∧ ¬ linkArea SOCK_CFG.off := by
  simp only [linkArea, SAD_RANGE_BASE, SAD_RANGE_LIMIT, SOCK_CFG]
  omega

theorem linkArea_target {t : Nat} (ht : t < 32) : ¬ linkArea (ILV_SET_BASE t).off ∧ ¬ linkArea (ILV_SET_CFG t).off ∧ ¬ linkArea (G_CFG t).off := by
  simp only [linkArea, ILV_SET_BASE, ILV_SET_CFG, G_CFG]
  omega

variable {r q : Run s0}

theorem Run.rewrites.fldR {W : Nat → Prop} (h : Run.rewrites W r q) {f : FRef} (off : ¬ W f.reg.off) : q.fld f = r.fld f := h.fld off

theorem Run.rewrites.on {W : Nat → Prop} (h : Run.rewrites W r q) {f : FRef} (off : ¬ W f.reg.off) : q.on f = r.on f := congrArg (· != 0) (h.fldR off)

/-- A range that matches is one of the 32. -/
theorem Run.sadMatch_lt (r : Run s0) {a n : Nat} (found : r.sadMatch a = some n) : n < 32 := by
  unfold Run.sadMatch at found
  exact List.mem_range.1 (List.mem_of_find?_eq_some found)

theorem Run.rewrites.sadMatch (h : Run.rewrites linkArea r q) (a : Nat) : q.sadMatch a = r.sadMatch a := by
  unfold Run.sadMatch
  refine List.find?_congr fun n hn => ?_
  obtain ⟨base, limit, sock⟩ := linkArea_SAD (List.mem_range.1 hn)
  rw [h.on (f := SAD_RANGE_BASE_EN n) base, h.fldR (f := SAD_RANGE_BASE_BASE n) base, h.fldR (f := SAD_RANGE_LIMIT_LIMIT n) limit,
    h.fldR (f := SAD_RANGE_BASE_KIND n) base, h.fldR (f := SAD_RANGE_BASE_TARGET n) base, h.fldR (f := SOCK_CFG_ID) sock]

theorem Run.rewrites.ilvDecode (h : Run.rewrites linkArea r q) {t : Nat} (ht : t < 32) (a : Nat) : q.ilvDecode t a = r.ilvDecode t a := by
  obtain ⟨base, cfg, -⟩ := linkArea_target ht
  rw [Run.ilvDecode, Run.ilvDecode, h.fldR (f := ILV_SET_BASE_BASE t) base, h.fldR (f := ILV_SET_CFG_SIZE t) cfg, h.fldR (f := ILV_SET_CFG_CHMASK t) cfg,
    h.fldR (f := ILV_SET_CFG_GRAIN t) cfg, h.fldR (f := ILV_SET_CFG_LOCALBASE t) cfg]

/-- The buffer of a link leaves what the system address decoder answers. -/
theorem Run.rewrites.decodeLine (h : Run.rewrites linkArea r q) (l : LineAddr) : q.decodeLine l = r.decodeLine l := by
  rw [Run.decodeLine, Run.decodeLine, Run.decode, Run.decode, h.sadMatch]
  cases found : r.sadMatch (l.toNat * 64) with
  | none => rfl
  | some n =>
    obtain ⟨base, -⟩ := linkArea_SAD (r.sadMatch_lt found)
    have target : r.fld (SAD_RANGE_BASE_TARGET n) < 32 := r.1.fld_lt (SAD_RANGE_BASE_TARGET n)
    obtain ⟨set, -, cfg⟩ := linkArea_target target
    have carries : q.carriesCxl (r.fld (SAD_RANGE_BASE_TARGET n)) = r.carriesCxl (r.fld (SAD_RANGE_BASE_TARGET n)) := by
      rw [Run.carriesCxl, Run.carriesCxl, h.fldR (f := G_CFG_PERS _) cfg, h.on (f := G_CFG_EN _) cfg]
    simp only [h.fldR (f := SAD_RANGE_BASE_TARGET n) base, h.fldR (f := SAD_RANGE_BASE_KIND n) base, h.on (f := ILV_SET_BASE_EN _) set, carries,
      h.ilvDecode target]

theorem Run.rewrites.trackerFree (h : Run.rewrites linkArea r q) {k : Nat} (hk : k < 4) (m : Msg) : q.trackerFree k m = r.trackerFree k m := by
  have off : ¬ linkArea (HOME_TRKSTAT k).off := by
    simp only [linkArea, HOME_TRKSTAT]
    omega
  rw [Run.trackerFree, Run.trackerFree, h.fldR (f := HOME_TRKSTAT_PEERUSE k) off, h.fldR (f := HOME_TRKSTAT_INUSE k) off,
    h.fldR (f := HOME_TRKSTAT_EVCUSE k) off, h.fldR (f := HOME_TRKSTAT_IOUSE k) off]

/-! ### A request for a line that nobody holds -/

/-- What a message leaves beside its flight. -/
theorem State.arrived.rest {s t : State} (h : s.arrived t) :
    t.net = [] ∧ t.lineq = s.lineq ∧ t.harts = s.harts ∧ t.dram = s.dram ∧ t.filt = s.filt ∧ t.quads = s.quads ∧ t.l3 = s.l3 := by
  obtain ⟨rs, sq, only⟩ := h.only
  rw [only]
  exact ⟨rfl, rfl, rfl, rfl, rfl, rfl, rfl⟩

/-- A request for a line of DRAM that nobody holds is taken, and becomes the head of its line's queue. -/
theorem request_ordered {s : State} {m : Msg} {c la : Nat} (one : s.oneMsg m) (free : s.freeHome m c la) (unheld : s.unheld m.line)
    (noResv : s.unreserved m.line) (request : msgClass m.kind = 0) (whole : ¬ (m.kind = .wrPart ∧ m.mask = BitVec.allOnes 64)) :
    ∃ q : Run s, s.arrived q.1 ∧ q.vacant m.line ∧
      (Run.start s).message m.kind (s.packet m) = (q.setQueue m.line.toNat [{ msg := m, to_ := .dram c la }]).homeGo m.line := by
  obtain ⟨dst, noPeer, slot, running, region, decodes, -, queue, tracker, diren⟩ := free
  obtain ⟨-, sound, -⟩ := id one
  have quarter := quadOf_lt m.line
  have buffered := (Run.start s).rewrites_linkBuffer m
  set r := (Run.start s).linkBuffer m with hr
  obtain ⟨rs, only, -⟩ := id buffered
  set q := (r.take m).trackers (quadOf m.line) m true with hq
  have arrived : s.arrived q.1 := one.arrived_take.trackers quarter m true
  have like := arrived.homeLike
  obtain ⟨-, lineq, harts, -⟩ := arrived.rest
  have vacant : q.vacant m.line := like.vacant unheld sound diren
  have delivers : r.deliver m = r.homeArrive m := by simp only [Run.deliver, dst, homeOf, request]
  refine ⟨q, arrived, vacant, ?_⟩
  rw [Run.message_packet one, ← hr, delivers]
  refine r.homeArrive_orders q hq ?_ region ?_ noPeer ?_ ?_ vacant.sound ?_ ?_ request whole
  · rw [only]
    exact running
  · exact (buffered.decodeLine _).trans decodes
  · exact (buffered.trackerFree quarter m).trans tracker
  · rw [Run.queue, State.queue, lineq]
    exact queue
  · intro d src spares
    rw [like.filtEntry]
    exact slot d src spares
  · rw [State.unreserved, harts]
    exact noResv

/-- The head of a queue that needs memory's data has asked its channel, and waits. -/
theorem Run.homeGo_asks (r : Run s0) {l : LineAddr} {x : HReq} {c la : Nat} (vacant : r.vacant l) (phase : x.phase = .queued) (to_ : x.to_ = .dram c la)
    (flip : x.flip = none) (held : x.held = none) (request : msgClass x.msg.kind = 0) (needs : needsData x = true) :
    (r.setQueue l.toNat [x]).homeGo l = ((r.setQueue l.toNat [x]).setQueue l.toNat [x.begun]).askMem l (.dram c la) := by
  have queue := r.queue_setQueue_same l.toNat [x]
  set q := r.setQueue l.toNat [x] with hq
  have vacantQ : q.vacant l := ⟨vacant.filt, vacant.devs, vacant.sound, vacant.diren⟩
  have starts : q.homeStart l x = (q.setQueue l.toNat [x.begun]).askMem l (.dram c la) := by
    rw [q.homeStart_vacant vacantQ to_ flip held request, if_pos needs, q.setHead_one queue]
  have waits : ∀ y ∈ (((q.setQueue l.toNat [x.begun]).askMem l (.dram c la)).queue l.toNat).head?, y.waits := by
    intro y hy
    rw [show ((q.setQueue l.toNat [x.begun]).askMem l (.dram c la)).queue l.toNat = [x.begun] from q.queue_setQueue_same l.toNat [x.begun]] at hy
    cases hy
    refine ⟨by simp [HReq.begun], fun ready => ?_⟩
    simp [HReq.begun, needs] at ready
  rw [Run.homeGo, Run.homeLoop, queue]
  simp only [phase, if_true, starts]
  exact Run.homeLoop_waits _ l _ waits

/-! ### The command of a message -/

/-- The requests of a home (R167). -/
theorem exec_request {s : State} {m : Msg} : ∀ p ∈ [(Instr.rds m, MsgKind.rdS), (.rdx m, .rdX), (.upg m, .upg), (.rdonce m, .rdOnce), (.wrpart m, .wrPart), (.atomh m, .atomH)],
    exec p.1 s = ((Run.start s).message p.2 m).done ∧ msgClass p.2 = 0 := by
  simp only [List.forall_mem_cons]
  exact ⟨⟨rfl, rfl⟩, ⟨rfl, rfl⟩, ⟨rfl, rfl⟩, ⟨rfl, rfl⟩, ⟨rfl, rfl⟩, ⟨rfl, rfl⟩, by simp⟩

end Sys2Proof.Machine

/-! Requests that need memory's data (R170). -/
namespace Sys2Proof.Machine

/-- A request for a line that nobody holds needs memory's data, unless it writes every byte. -/
theorem needsData_unheld {q : HReq} (held : q.held = none) (mask : q.msg.mask ≠ BitVec.allOnes 64)
    (kind : q.msg.kind ∈ [MsgKind.rdS, .rdX, .upg, .rdOnce, .wrPart, .atomH]) : needsData q = true := by
  unfold needsData
  simp only [List.mem_cons, List.not_mem_nil, or_false] at kind
  rcases kind with kind | kind | kind | kind | kind | kind <;> simp only [kind, held, Option.isNone_none, bne_iff_ne, ne_eq, mask, not_false_eq_true]

/-- Settles O13: the request is ordered first in its line's queue; with no holder to snoop, memory is asked for its data. -/
theorem requestsAskMemory : Obligations.RequestsAskMemory := by
  unfold Obligations.RequestsAskMemory
  intro m c la s one free unheld mask noResv p hp kind
  obtain ⟨begins, request⟩ := exec_request (s := s) (m := s.packet m) p hp
  have asks : m.kind ∈ [MsgKind.rdS, .rdX, .upg, .rdOnce, .wrPart, .atomH] := kind ▸ List.mem_map_of_mem (f := Prod.snd) hp
  rw [← kind] at begins request
  have needs : needsData { msg := m, to_ := .dram c la } = true := needsData_unheld rfl mask asks
  obtain ⟨q, arrived, vacant, ordered⟩ := request_ordered one free unheld noResv request fun whole => mask whole.2
  obtain ⟨net, -, -, dram, -⟩ := arrived.rest
  obtain ⟨still, -⟩ := one
  obtain ⟨dst, -⟩ := free
  set x : HReq := { msg := m, to_ := .dram c la } with hx
  set ask : Msg := { kind := .mRd, src := homeOf m.line, dst := .chan (Fin.ofNat 24 c), line := m.line, la := la } with hask
  set t := ((q.setQueue m.line.toNat [x]).setQueue m.line.toNat [x.begun]).send ask with ht
  have goes : (Run.start s).message m.kind (s.packet m) = t := ordered.trans (q.homeGo_asks vacant rfl rfl rfl rfl request needs)
  have sent : t.1.net = [ask] := by simp [ht, net]
  have queue : t.1.queue m.line.toNat = [x.begun] := by simp [ht]
  have ends : t.done = .next t.1 := (((arrived.settledLike.setQueue _ _).setQueue _ _).send _).done_one still sent fun k hk => by cases hk
  refine ⟨t.1, by rw [begins, goes, ends], by rw [sent, hask, dst], ?_, dram⟩
  rw [queue, HReq.begun, needs]

end Sys2Proof.Machine

/-! What a request does once its home has every answer: a grant to a die, a write of memory, and its end (R165, R170, R179). -/
namespace Sys2Proof.Machine

variable {s0 : State}

/-- Without a CXL device to give up a line first, a request of a line in DRAM of this socket takes effect. -/
theorem Run.homeEnd_dram (r : Run s0) {l : LineAddr} {q : HReq} {c la : Nat} (to_ : q.to_ = .dram c la)
    (room : sparesOwn q.msg.kind = true → r.devRecall l q.msg.src = none) : r.homeEnd l q = r.homeFinish l q := by
  have none_ : (if sparesOwn q.msg.kind then r.devRecall l q.msg.src else none) = none := ite_eq_right_iff.2 room
  unfold Run.homeEnd
  simp only [to_, Option.isNone_none, Bool.true_or, Bool.and_true, none_]

/-- A grant to a die is recorded in the filter, sent, and its Ack waited for. -/
theorem Run.grantTo_die (r : Run s0) {l : LineAddr} {q : HReq} {d : Fin 16} {st : St} {f : FSt} (src : q.msg.src = .die d) (queue : r.queue l.toNat = [q])
    (sound : r.1.uninjected) (filt : filtSt st = some f) (k : MsgKind) (data : LineData) (poison : Bool) :
    r.grantTo l q k st data poison = ((r.setFiltEntry (l3Key d l q.msg.way) (some ⟨l, f, none⟩)).send
      { kind := k, src := homeOf l, dst := .die d, line := l, data := data, poison := poison, way := q.msg.way }).setQueue l.toNat [{ q with phase := .waitAck }] := by
  have notes : r.noteGrant l q.msg.src q.msg.way st = r.setFiltEntry (l3Key d l q.msg.way) (some ⟨l, f, none⟩) := by
    simp only [Run.noteGrant, src, filt]
    exact r.filtWrite_unarmed d.isLt l q.msg.way (some f) sound.1
  rw [Run.grantTo, notes, src, Run.setHead_one _ (q := q)]
  exact queue

/-- A write of memory that leaves its directory clear. -/
theorem Run.putMem_dram (r : Run s0) (l : LineAddr) (c la : Nat) (data : LineData) (poison : Bool) :
    r.putMem l (.dram c la) data poison 0 =
      r.send { kind := .mWr, src := homeOf l, dst := .chan (Fin.ofNat 24 c), line := l, data := data, poison := poison, la := la } := by
  rw [Run.putMem, ite_self]
  rfl

/-- The only request of a queue leaves it, with its tracker. -/
theorem Run.popHead_one (r : Run s0) {l : LineAddr} {q : HReq} (queue : r.queue l.toNat = [q]) (own : q.own = false) :
    r.popHead l = (r.setQueue l.toNat []).trackers (quadOf l) q.msg false := by
  rw [Run.popHead, queue]
  simp [own]

/-- Trackers do not concern queues and messages. -/
theorem Run.trackers_rest (r : Run s0) {k : Nat} (hk : k < 4) (m : Msg) (up : Bool) :
    (r.trackers k m up).1.lineq = r.1.lineq ∧ (r.trackers k m up).1.net = r.1.net := by
  obtain ⟨rs, only, -⟩ := r.rewrites_trackers hk m up
  rw [only]
  exact ⟨rfl, rfl⟩

/-- The head of a queue that needs no data from memory takes effect at once. -/
theorem Run.homeGo_acts (r : Run s0) {l : LineAddr} {x : HReq} {c la : Nat} (vacant : r.vacant l) (phase : x.phase = .queued) (to_ : x.to_ = .dram c la)
    (flip : x.flip = none) (held : x.held = none) (request : msgClass x.msg.kind = 0) (needs : needsData x = false)
    (waits : ∀ y ∈ ((((r.setQueue l.toNat [x]).setQueue l.toNat [x.begun]).homeEnd l x.begun).queue l.toNat).head?, y.waits) :
    (r.setQueue l.toNat [x]).homeGo l = ((r.setQueue l.toNat [x]).setQueue l.toNat [x.begun]).homeEnd l x.begun := by
  have queue := r.queue_setQueue_same l.toNat [x]
  set q := r.setQueue l.toNat [x] with hq
  have vacantQ : q.vacant l := ⟨vacant.filt, vacant.devs, vacant.sound, vacant.diren⟩
  have starts : q.homeStart l x = q.setQueue l.toNat [x.begun] := by
    rw [q.homeStart_vacant vacantQ to_ flip held request, needs, q.setHead_one queue]
    rfl
  rw [Run.homeGo, Run.homeLoop, queue]
  simp only [phase, if_true, starts]
  exact Run.homeLoop_ends _ (q.queue_setQueue_same _ _) rfl rfl needs _ waits

/-! ### Requests that need no data -/

/-- A Claim of a die for a line that nobody holds is granted M without data. -/
theorem claim_granted (m : Msg) (d : Fin 16) (c la : Nat) (s : State) (one : s.oneMsg m) (free : s.freeHome m c la) (unheld : s.unheld m.line)
    (noResv : s.unreserved m.line) (kind : m.kind = .claim) (src : m.src = .die d) :
    ∃ t, exec (.claim (s.packet m)) s = .next t ∧ t.net = [{ kind := .gntM, src := m.dst, dst := m.src, line := m.line, way := m.way }] ∧
      t.queue m.line.toNat = [{ msg := m, to_ := .dram c la, phase := .waitAck }] ∧ t.filtEntry (l3Key d m.line m.way) = some ⟨m.line, .X, none⟩ := by
  obtain ⟨q, arrived, vacant, ordered⟩ := request_ordered one free unheld noResv (by rw [kind]; rfl) (by simp [kind])
  have online : s.online d = true := one.online (by rw [linkOf, src, free.1]; rfl)
  obtain ⟨net, -⟩ := arrived.rest
  obtain ⟨still, -⟩ := one
  obtain ⟨dst, -⟩ := free
  set x : HReq := { msg := m, to_ := .dram c la } with hx
  have needs : needsData x = false := by simp only [needsData, hx, kind]
  set u := (q.setQueue m.line.toNat [x]).setQueue m.line.toNat [x.begun] with hu
  have queue : u.queue m.line.toNat = [x.begun] := (q.setQueue m.line.toNat [x]).queue_setQueue_same m.line.toNat [x.begun]
  set grant : Msg := { kind := .gntM, src := homeOf m.line, dst := .die d, line := m.line, way := m.way } with hgrant
  set t := ((u.setFiltEntry (l3Key d m.line m.way) (some ⟨m.line, .X, none⟩)).send grant).setQueue m.line.toNat [{ x.begun with phase := .waitAck }] with ht
  have queueT : t.1.queue m.line.toNat = [{ x.begun with phase := .waitAck }] := by simp [ht]
  have takes : u.homeEnd m.line x.begun = t := by
    have noRecall : u.devRecall m.line x.begun.msg.src = none := by simp only [Run.devRecall, HReq.begun, hx, src]
    have kindX : x.begun.msg.kind = .claim := kind
    have noMem : x.begun.mem = none := rfl
    rw [u.homeEnd_dram (c := c) (la := la) rfl fun _ => noRecall]
    simp only [Run.homeFinish, kindX, Run.rewriteDir, noMem]
    exact u.grantTo_die src queue vacant.sound rfl .gntM 0 false
  have goes : (Run.start s).message m.kind (s.packet m) = t := by
    rw [ordered, q.homeGo_acts vacant rfl rfl rfl rfl (by rw [kind]; rfl) needs, takes]
    rw [takes, Run.queue, queueT]
    rintro y ⟨⟩
    exact ⟨by simp, by simp⟩
  have sent : t.1.net = [grant] := by simp [ht, hu, net]
  have ends : t.done = .next t.1 :=
    (((((arrived.settledLike.setQueue _ _).setQueue _ _).setFiltEntry _ _).send _).setQueue _ _).done_one still sent fun k hk => by
      cases hk
      exact online
  refine ⟨t.1, ?_, by rw [sent, hgrant, dst, src], ?_, by simp [ht]⟩
  · show ((Run.start s).message .claim (s.packet m)).done = _
    rw [← kind, goes, ends]
  · rw [queueT, HReq.begun, needs]

/-- A WrLine with no stash target of a line that nobody holds is written to memory. -/
theorem wrLine_written (m : Msg) (c la : Nat) (s : State) (one : s.oneMsg m) (free : s.freeHome m c la) (unheld : s.unheld m.line)
    (noResv : s.unreserved m.line) (kind : m.kind = .wrLine) (stash : m.stash = none) :
    ∃ t, exec (.wrline (s.packet m)) s = .next t ∧
      t.net = [{ kind := .mWr, src := m.dst, dst := .chan (Fin.ofNat 24 c), line := m.line, data := m.data, poison := m.poison, la := la }] ∧
      t.queue m.line.toNat = [{ msg := m, to_ := .dram c la, phase := .waitMAck, dirty := some (m.data, m.poison) }] := by
  obtain ⟨q, arrived, vacant, ordered⟩ := request_ordered one free unheld noResv (by rw [kind]; rfl) (by simp [kind])
  obtain ⟨net, -⟩ := arrived.rest
  obtain ⟨still, -⟩ := one
  obtain ⟨dst, -⟩ := free
  set x : HReq := { msg := m, to_ := .dram c la } with hx
  have needs : needsData x = false := by simp only [needsData, hx, kind]
  set u := (q.setQueue m.line.toNat [x]).setQueue m.line.toNat [x.begun] with hu
  have queue : u.queue m.line.toNat = [x.begun] := (q.setQueue m.line.toNat [x]).queue_setQueue_same m.line.toNat [x.begun]
  set write : Msg :=
    { kind := .mWr, src := homeOf m.line, dst := .chan (Fin.ofNat 24 c), line := m.line, data := m.data, poison := m.poison, la := la } with hwrite
  set y : HReq := { x.begun with phase := .waitMAck, dirty := some (m.data, m.poison) } with hy
  set t := (u.setQueue m.line.toNat [y]).send write with ht
  have queueT : t.1.queue m.line.toNat = [y] := by simp [ht]
  have takes : u.homeEnd m.line x.begun = t := by
    have kindX : x.begun.msg.kind = .wrLine := kind
    have stashX : x.begun.msg.stash = none := stash
    rw [u.homeEnd_dram (c := c) (la := la) rfl fun spares => by rw [kindX] at spares; cases spares]
    simp only [Run.homeFinish, kindX, Run.finishWrite, stashX, u.setHead_one queue]
    exact Run.putMem_dram _ _ _ _ _ _
  have goes : (Run.start s).message m.kind (s.packet m) = t := by
    rw [ordered, q.homeGo_acts vacant rfl rfl rfl rfl (by rw [kind]; rfl) needs, takes]
    rw [takes, Run.queue, queueT]
    rintro z ⟨⟩
    exact ⟨by simp [hy], by simp [hy]⟩
  have sent : t.1.net = [write] := by simp [ht, hu, net]
  have ends : t.done = .next t.1 :=
    ((((arrived.settledLike.setQueue _ _).setQueue _ _).setQueue _ _).send _).done_one still sent fun k hk => by cases hk
  refine ⟨t.1, ?_, by rw [sent, hwrite, dst], ?_⟩
  · show ((Run.start s).message .wrLine (s.packet m)).done = _
    rw [← kind, goes, ends]
  · rw [queueT, hy, HReq.begun, needs]

/-- The CBOs (R167). -/
theorem exec_cbo {s : State} {m : Msg} : ∀ p ∈ [(Instr.cboc m, MsgKind.cboC), (.cbof m, .cboF), (.cboi m, .cboI)],
    exec p.1 s = ((Run.start s).message p.2 m).done ∧ msgClass p.2 = 0 := by
  simp only [List.forall_mem_cons]
  exact ⟨⟨rfl, rfl⟩, ⟨rfl, rfl⟩, ⟨rfl, rfl⟩, by simp⟩

/-- A CBO without dirty data, and without a line of a directory, is done. -/
theorem Run.homeFinish_cbo (r : Run s0) {l : LineAddr} {q : HReq} (kind : q.msg.kind ∈ [MsgKind.cboC, .cboF, .cboI]) (dirty : q.dirty = none)
    (mem : q.mem = none) : r.homeFinish l q = (r.reply l q .done).popHead l := by
  simp only [List.mem_cons, List.not_mem_nil, or_false] at kind
  rcases kind with kind | kind | kind <;>
    simp only [Run.homeFinish, kind, dirty, mem, Option.isSome_none, Bool.false_eq_true, false_and, if_false]

/-- A CBO of a line that nobody holds is done. -/
theorem cbo_done (m : Msg) (c la : Nat) (s : State) (one : s.oneMsg m) (free : s.freeHome m c la) (unheld : s.unheld m.line)
    (noResv : s.unreserved m.line) :
    ∀ p ∈ [(Instr.cboc (s.packet m), MsgKind.cboC), (.cbof (s.packet m), .cboF), (.cboi (s.packet m), .cboI)], m.kind = p.2 →
      ∃ t, exec p.1 s = .next t ∧ t.net = [{ kind := .done, src := m.dst, dst := m.src, line := m.line }] ∧ t.queue m.line.toNat = [] := by
  intro p hp kind
  obtain ⟨begins, request⟩ := exec_cbo (s := s) (m := s.packet m) p hp
  have asks : m.kind ∈ [MsgKind.cboC, .cboF, .cboI] := kind ▸ List.mem_map_of_mem (f := Prod.snd) hp
  rw [← kind] at begins request
  obtain ⟨noPart, noData, keeps⟩ : m.kind ≠ .wrPart ∧ needsData { msg := m, to_ := .dram c la } = false ∧ sparesOwn m.kind = false := by
    simp only [List.mem_cons, List.not_mem_nil, or_false] at asks
    rcases asks with asks | asks | asks <;> simp [needsData, sparesOwn, asks]
  obtain ⟨q, arrived, vacant, ordered⟩ := request_ordered one free unheld noResv request fun whole => noPart whole.1
  have online : ∀ d, Agent.onDie m.src = some d → s.online d = true := fun d src => one.online (by rw [linkOf, src, free.1]; rfl)
  obtain ⟨net, -⟩ := arrived.rest
  obtain ⟨still, -⟩ := one
  obtain ⟨dst, -⟩ := free
  set x : HReq := { msg := m, to_ := .dram c la } with hx
  set u := (q.setQueue m.line.toNat [x]).setQueue m.line.toNat [x.begun] with hu
  have queue : u.queue m.line.toNat = [x.begun] := (q.setQueue m.line.toNat [x]).queue_setQueue_same m.line.toNat [x.begun]
  set answer : Msg := { kind := .done, src := homeOf m.line, dst := m.src, line := m.line } with hanswer
  set v := (u.send answer).setQueue m.line.toNat [] with hv
  have quarter := quadOf_lt m.line
  obtain ⟨lineqT, netT⟩ := v.trackers_rest quarter m false
  have likeT : s.settledLike (v.trackers (quadOf m.line) m false).1 :=
    ((((arrived.settledLike.setQueue _ _).setQueue _ _).send _).setQueue _ _).trackers quarter m false
  have takes : u.homeEnd m.line x.begun = v.trackers (quadOf m.line) m false := by
    have kindX : x.begun.msg.kind ∈ [MsgKind.cboC, .cboF, .cboI] := asks
    rw [u.homeEnd_dram (c := c) (la := la) rfl fun spares => absurd spares (by rw [HReq.begun, keeps]; decide), u.homeFinish_cbo kindX rfl rfl]
    exact (u.send answer).popHead_one queue rfl
  set t := v.trackers (quadOf m.line) m false with ht
  have queueT : t.1.queue m.line.toNat = [] := by
    rw [State.queue, lineqT]
    exact State.queue_setQueue_same _ _ _
  have goes : (Run.start s).message m.kind (s.packet m) = t := by
    rw [ordered, q.homeGo_acts vacant rfl rfl rfl rfl request noData, takes]
    rw [takes, Run.queue, queueT]
    rintro z ⟨⟩
  have sent : t.1.net = [answer] := by
    rw [netT]
    simp [hv, hu, net]
  refine ⟨t.1, by rw [begins, goes, likeT.done_one still sent online], by rw [sent, hanswer, dst], queueT⟩

/-- Settles O14: with no holder to snoop and no data to read, a Claim is granted, a WrLine written and a CBO done as the request is begun. -/
theorem requestsWithoutData : Obligations.RequestsWithoutData := ⟨claim_granted, wrLine_written, cbo_done⟩

end Sys2Proof.Machine

/-! Answers of dies, of memory and of requesters reach the head of their line's queue (R161, R170). -/
namespace Sys2Proof.Machine

variable {s0 : State}

/-! ### The filter's entries of a die for a line -/

/-- An entry X of a die for a line shows in the filter, unless its quarter is gated. -/
theorem Run.filtOf_owner (r : Run s0) {d w : Nat} {l : LineAddr} {f : Option Flip} (on : r.gated (400 + quadOf l) = false) (hw : w < 16)
    (entry : r.1.filtEntry (l3Key d l w) = some ⟨l, .X, f⟩) : r.filtOf d l = some .X := by
  have shown : FSt.X ∈ r.filtAll d l := by
    refine List.mem_append_left _ (List.mem_filterMap.2 ⟨w, List.mem_range.2 hw, ?_⟩)
    rw [show r.filtEntry (l3Key d l w) = _ from entry]
    simp
  simp [Run.filtOf, on, shown]

/-- A way of a die whose entry records a line takes its new state. -/
def Run.refilt (d : Nat) (l : LineAddr) (x : Option FSt) (r : Run s0) (w : Nat) : Run s0 :=
  if (r.filtEntry (l3Key d l w)).any fun e => e.line = l ∧ e.st ≠ .I then r.filtWrite d l w x else r

theorem l3Key_inj {d v w : Nat} {l : LineAddr} (other : v ≠ w) : l3Key d l v ≠ l3Key d l w := by
  simp only [l3Key]
  omega

/-- What one way's write leaves of the filter. -/
theorem Run.refilt_only (r : Run s0) {d : Nat} (hd : d < 16) (l : LineAddr) (x : Option FSt) (w : Nat) (unarmed : ∀ a < 68, r.1.fld (ARR_FLIP_ARM 16 a) = 0) :
    (∃ fs, (r.refilt d l x w).1 = { r.1 with filt := fs }) ∧ (∀ k, k ≠ l3Key d l w → (r.refilt d l x w).1.filtEntry k = r.1.filtEntry k) ∧
      ∀ e, r.1.filtEntry (l3Key d l w) = some e → e.line = l → e.st ≠ .I →
        (r.refilt d l x w).1.filtEntry (l3Key d l w) = x.map fun st => ⟨l, st, none⟩ := by
  have writes := r.filtWrite_unarmed hd l w x unarmed
  refine ⟨?_, fun k hk => ?_, fun e entry line st => ?_⟩
  · unfold Run.refilt
    split
    · rw [writes]
      exact ⟨_, rfl⟩
    · exact ⟨_, rfl⟩
  · unfold Run.refilt
    split
    · rw [writes]
      exact Sparse.find?_upd_other _ _ hk
    · rfl
  · have named : (r.filtEntry (l3Key d l w)).any (fun e => e.line = l ∧ e.st ≠ .I) = true := by
      rw [show r.filtEntry (l3Key d l w) = _ from entry]
      simp [line, st]
    rw [Run.refilt, if_pos named, writes]
    exact State.filtEntry_setFiltEntry_same r _ _

/-- Ways take their new state one after another. -/
theorem Run.foldl_refilt_only {d : Nat} (hd : d < 16) (l : LineAddr) (x : Option FSt) (ws : List Nat) (once : ws.Nodup) (r : Run s0)
    (unarmed : ∀ a < 68, r.1.fld (ARR_FLIP_ARM 16 a) = 0) :
    (∃ fs, (ws.foldl (Run.refilt d l x) r).1 = { r.1 with filt := fs }) ∧
      (∀ k, (∀ w ∈ ws, k ≠ l3Key d l w) → (ws.foldl (Run.refilt d l x) r).1.filtEntry k = r.1.filtEntry k) ∧
      ∀ w ∈ ws, ∀ e, r.1.filtEntry (l3Key d l w) = some e → e.line = l → e.st ≠ .I →
        (ws.foldl (Run.refilt d l x) r).1.filtEntry (l3Key d l w) = x.map fun st => ⟨l, st, none⟩ := by
  induction ws generalizing r with
  | nil => exact ⟨⟨_, rfl⟩, fun _ _ => rfl, fun w hw => absurd hw List.not_mem_nil⟩
  | cons v ws ih =>
    obtain ⟨fresh, once⟩ := List.nodup_cons.1 once
    obtain ⟨⟨fs, only⟩, kept, takes⟩ := r.refilt_only hd l x v unarmed
    obtain ⟨⟨fs', only'⟩, kept', takes'⟩ := ih once (r.refilt d l x v) fun a ha => by
      rw [only]
      exact unarmed a ha
    rw [List.foldl_cons]
    refine ⟨⟨fs', by rw [only', only]⟩, fun k hk => ?_, fun w hw e entry line st => ?_⟩
    · obtain ⟨head, tail⟩ := List.forall_mem_cons.1 hk
      exact (kept' k tail).trans (kept k head)
    · rcases List.mem_cons.1 hw with rfl | hw
      · exact (kept' _ fun u hu => l3Key_inj fun same : w = u => fresh (same ▸ hu)).trans (takes e entry line st)
      · exact takes' w hw e ((kept _ (l3Key_inj fun same : w = v => fresh (same ▸ hw))).trans entry) line st

theorem Run.modSlice_only (r : Run s0) (k : Nat) (f : Slice → Slice) : ∃ sl, (r.modSlice k f).1 = { r.1 with slices := sl } := ⟨_, rfl⟩

/-- The filter's entries of a die for a line take a state; its shadow entries too. -/
theorem Run.setFilt_only (r : Run s0) {d : Nat} (hd : d < 16) (l : LineAddr) (x : Option FSt) (unarmed : ∀ a < 68, r.1.fld (ARR_FLIP_ARM 16 a) = 0) :
    (∃ fs sl, (r.setFilt d l x).1 = { r.1 with filt := fs, slices := sl }) ∧
      ∀ w < 16, ∀ e, r.1.filtEntry (l3Key d l w) = some e → e.line = l → e.st ≠ .I →
        (r.setFilt d l x).1.filtEntry (l3Key d l w) = x.map fun st => ⟨l, st, none⟩ := by
  obtain ⟨⟨fs, only⟩, -, takes⟩ := Run.foldl_refilt_only hd l x (List.range 16) List.nodup_range r unarmed
  have folds : (List.range 16).foldl (fun r w => if (r.filtEntry (l3Key d l w)).any fun e => e.line = l ∧ e.st ≠ .I then r.filtWrite d l w x else r) r =
      (List.range 16).foldl (Run.refilt d l x) r := rfl
  unfold Run.setFilt
  rw [folds]
  generalize (List.range 16).foldl (Run.refilt d l x) r = q at only takes ⊢
  dsimp only
  split
  · obtain ⟨sl, slices⟩ := q.modSlice_only (quadOf l) fun s => { s with shadow := s.shadow.filterMap fun e =>
      if e.1 = d ∧ e.2.1 = l then (x.map fun st => (e.1, e.2.1, st)) else some e }
    exact ⟨⟨fs, sl, by rw [slices, only]⟩, fun w hw => takes w (List.mem_range.2 hw)⟩
  · exact ⟨⟨fs, _, only⟩, fun w hw => takes w (List.mem_range.2 hw)⟩

/-! ### Answers of dies -/

/-- The head of a queue with a die's answer recorded, whose next answer it waits for. -/
def HReq.answered (q : HReq) (m : Msg) (d : Fin 16) (a : Agent) : HReq :=
  { q with snooped := [a], answers := q.answers ++ [(.die d, m.st)], dirty := if m.kind = .datSnp then some (m.data, m.poison) else q.dirty }

/-- A queue whose only request waits stays as it is. -/
theorem Run.homeGo_waits (r : Run s0) {l : LineAddr} {x : HReq} (waits : x.waits) : (r.setQueue l.toNat [x]).homeGo l = r.setQueue l.toNat [x] :=
  Run.homeLoop_waits _ l _ fun y hy => by
    rw [r.queue_setQueue_same] at hy
    cases hy
    exact waits

/-- A snoop's answer from the owning die is recorded at the head of its line's queue. -/
theorem Run.homeAnswer_recorded (r : Run s0) {m : Msg} {d : Fin 16} {a : Agent} {q : HReq} (src : m.src = .die d) (queue : (r.take m).queue m.line.toNat = [q])
    (phase : q.phase = .snooping) (snooped : q.snooped = [.die d, a]) (tag : m.la = 0) (owner : r.filtOf d m.line = some .X)
    (unarmed : ∀ k < 68, (r.take m).1.fld (ARR_FLIP_ARM 16 k) = 0) :
    r.homeAnswer m = ((r.take m).setFilt d m.line (filtSt m.st)).setQueue m.line.toNat [q.answered m d a] := by
  obtain ⟨⟨fs, sl, only⟩, -⟩ := (r.take m).setFilt_only d.isLt m.line (filtSt m.st) unarmed
  generalize hp : (r.take m).setFilt d m.line (filtSt m.st) = p at only ⊢
  have queueP : p.queue m.line.toNat = [q] := by
    rw [← queue, Run.queue, only]
    rfl
  have noO : ((some FSt.X : Option FSt) == some .O) = false := rfl
  have inner : Agent.outer (.die d) = false := rfl
  have named : Agent.die d ∈ q.snooped := by simp [snooped]
  have left : q.snooped.erase (.die d) = [a] := by simp [snooped]
  have dirty : (if (if m.kind = .datSnp then some (m.data, m.poison) else none).isSome then
      (if m.kind = .datSnp then some (m.data, m.poison) else none) else q.dirty) = if m.kind = .datSnp then some (m.data, m.poison) else q.dirty := by
    split <;> rfl
  unfold Run.homeAnswer
  simp only [src, owner, noO, Run.noteAnswer, hp, inner, queueP, tag, named, left, dirty, Bool.false_and, Bool.or_false, Bool.false_eq_true, and_self, if_true,
    if_false]
  exact p.homeGo_waits (x := q.answered m d a) ⟨by simp [HReq.answered, phase], by simp [HReq.answered]⟩

/-- The answers to a snoop (R167). -/
theorem exec_answer {s : State} {m : Msg} : ∀ p ∈ [(Instr.rsp m, MsgKind.rsp), (.datsnp m, .datSnp)],
    exec p.1 s = ((Run.start s).message p.2 m).done := by
  simp only [List.forall_mem_cons]
  exact ⟨rfl, rfl, by simp⟩

/-- A home's filters and queues show before a message is taken what they show after. -/
theorem State.homeLike_linkBuffer (s : State) (m : Msg) : s.homeLike ((Run.start s).linkBuffer m).1 := by
  obtain ⟨rs, only, same⟩ := (Run.start s).rewrites_linkBuffer m
  rw [only]
  exact ⟨rfl, rfl, fun o ho => same o fun link => ho (.inl link)⟩

/-- A snoop's answer from the die that owns the line. -/
theorem snoop_answered (m : Msg) (d : Fin 16) (a : Agent) (w : Nat) (q : HReq) (s : State) (one : s.oneMsg m) (src : m.src = .die d) (dst : m.dst = homeOf m.line)
    (queue : s.queue m.line.toNat = [q]) (phase : q.phase = .snooping) (snooped : q.snooped = [m.src, a]) (tag : m.la = 0)
    (on : (Run.start s).gated (400 + quadOf m.line) = false)
    (found : (List.range 16).find? (fun v => (s.filtEntry (l3Key d m.line v)).any (·.line = m.line)) = some w)
    (entry : s.filtEntry (l3Key d m.line w) = some ⟨m.line, .X, none⟩) :
    ∀ p ∈ [(Instr.rsp (s.packet m), MsgKind.rsp), (.datsnp (s.packet m), .datSnp)], m.kind = p.2 →
      ∃ t, exec p.1 s = .next t ∧ t.net = [] ∧ t.filtEntry (l3Key d m.line w) = (filtSt m.st).map (fun x => ⟨m.line, x, none⟩) ∧
        t.queue m.line.toNat = [{ q with snooped := [a], answers := q.answers ++ [(m.src, m.st)], dirty := if m.kind = .datSnp then some (m.data, m.poison) else q.dirty }] := by
  intro p hp kind
  have begins := exec_answer (s := s) (m := s.packet m) p hp
  have asks : m.kind ∈ [MsgKind.rsp, .datSnp] := kind ▸ List.mem_map_of_mem (f := Prod.snd) hp
  rw [← kind] at begins
  have hw := List.mem_range.1 (List.mem_of_find?_eq_some found)
  obtain ⟨still, sound, -⟩ := id one
  have buffered := s.homeLike_linkBuffer m
  have arrived := one.arrived_take
  set r := (Run.start s).linkBuffer m with hr
  obtain ⟨net, lineq, -, -, filt, -⟩ := arrived.rest
  have owner : r.filtOf d m.line = some .X := (buffered.filtOf _ _).trans ((Run.start s).filtOf_owner on hw entry)
  have unarmed := (arrived.homeLike.uninjected sound).1
  obtain ⟨⟨fs, sl, only⟩, takes⟩ := (r.take m).setFilt_only d.isLt m.line (filtSt m.st) unarmed
  have queueR : (r.take m).queue m.line.toNat = [q] := by
    rw [Run.queue, State.queue, lineq]
    exact queue
  have delivers : r.deliver m = r.homeAnswer m := by
    simp only [List.mem_cons, List.not_mem_nil, or_false] at asks
    rcases asks with asks | asks <;> simp only [Run.deliver, dst, homeOf, asks, src, msgClass]
  have records := r.homeAnswer_recorded src queueR phase (snooped.trans (by rw [src])) tag owner unarmed
  have recorded := takes w hw _ ((arrived.homeLike.filtEntry _).trans entry) rfl (show FSt.X ≠ .I by decide)
  generalize (r.take m).setFilt d m.line (filtSt m.st) = u at only records recorded
  have like : s.settledLike u.1 := by
    have like := arrived.settledLike
    rw [only]
    exact ⟨like.need, like.poke, like.dies, like.regs⟩
  have netU : u.1.net = [] := by
    rw [only]
    exact net
  set t := u.setQueue m.line.toNat [q.answered m d a] with ht
  have sent : t.1.net = [] := netU
  have goes : (Run.start s).message m.kind (s.packet m) = t := by rw [Run.message_packet one, ← hr, delivers, records]
  have ends : t.done = .next t.1 := (like.setQueue _ _).done_sent still fun x hx => by
    rw [sent] at hx
    cases hx
  refine ⟨t.1, by rw [begins, goes, ends], sent, recorded, ?_⟩
  rw [src]
  exact State.queue_setQueue_same u _ _

/-! ### Answers of memory -/

/-- Nobody else holds a line that nobody holds. -/
theorem Run.otherHolder_vacant (r : Run s0) {l : LineAddr} (vacant : r.vacant l) (q : HReq) (dir : Nat) : r.otherHolder l q dir = false := by
  have dies : (List.range 16).any (fun d => q.msg.src != .die (Fin.ofNat 16 d) && (r.filtOf d l).isSome) = false := by
    refine List.any_eq_false.2 fun d hd => ?_
    rw [vacant.filt d (List.mem_range.1 hd), Option.isSome_none, Bool.and_false]
    exact Bool.false_ne_true
  rw [Run.otherHolder, dies, vacant.devs, r.direnOff vacant.diren, List.any_nil, Bool.false_and]
  rfl

/-- A read to share of a line that nobody holds is granted E, with the data that memory gave. -/
theorem Run.homeFinish_rdS (r : Run s0) {l : LineAddr} {q : HReq} {x : LineData × Bool × Fin 4} (vacant : r.vacant l) (egrant : r.on HOME_CFG_EGRANT = true)
    (kind : q.msg.kind = .rdS) (mem : q.mem = some x) (dirty : q.dirty = none) : r.homeFinish l q = r.grantTo l q .datE .E x.1 x.2.1 := by
  have keeps : ∀ dir, r.rewriteDir l q dir = r := fun dir => by
    unfold Run.rewriteDir
    simp only [mem, r.direnOff vacant.diren, Bool.false_eq_true, false_and, if_false]
  unfold Run.homeFinish
  simp only [kind, mem, dirty, r.otherHolder_vacant vacant, egrant, keeps, Bool.not_false, Bool.and_self, if_true, Option.getD_none]

/-- Memory's data grants a line that nobody holds to the die that asked to share it, in E. -/
theorem Run.homeMem_grants (r : Run s0) {m : Msg} {d : Fin 16} {q : HReq} {c la : Nat} (queue : (r.take m).queue m.line.toNat = [q])
    (vacant : (r.take m).vacant m.line) (egrant : (r.take m).on HOME_CFG_EGRANT = true) (to_ : q.to_ = .dram c la) (memory : m.src = .chan (Fin.ofNat 24 c))
    (kind : q.msg.kind = .rdS) (src : q.msg.src = .die d) (phase : q.phase = .snooping) (snooped : q.snooped = []) (needMem : q.needMem = true)
    (dirty : q.dirty = none) :
    let x := { q with needMem := false, mem := some (m.data, m.poison, m.dir) }
    r.homeMem m = ((((r.take m).setQueue m.line.toNat [x]).setFiltEntry (l3Key d m.line q.msg.way) (some ⟨m.line, .X, none⟩)).send
      { kind := .datE, src := homeOf m.line, dst := .die d, line := m.line, data := m.data, poison := m.poison, way := q.msg.way }).setQueue m.line.toNat
        [{ x with phase := .waitAck }] := by
  intro x
  generalize hu : r.take m = u at *
  have off := u.direnOff vacant.diren
  have takes : r.homeMem m = (u.setQueue m.line.toNat [x]).homeGo m.line := by
    unfold Run.homeMem
    simp only [hu, queue, needMem, to_, Target.agent, memory, off, Bool.not_true, Bool.false_eq_true, ne_eq, not_true_eq_false, or_self, if_false, List.map_nil,
      List.append_nil]
    rw [← to_]
    rfl
  have vacantQ : (u.setQueue m.line.toNat [x]).vacant m.line := ⟨vacant.filt, vacant.devs, vacant.sound, vacant.diren⟩
  have queueQ := u.queue_setQueue_same m.line.toNat [x]
  have onQ : (u.setQueue m.line.toNat [x]).on HOME_CFG_EGRANT = true := egrant
  rw [takes]
  generalize u.setQueue m.line.toNat [x] = v at *
  have grants : v.homeEnd m.line x = ((v.setFiltEntry (l3Key d m.line q.msg.way) (some ⟨m.line, .X, none⟩)).send
      { kind := .datE, src := homeOf m.line, dst := .die d, line := m.line, data := m.data, poison := m.poison, way := q.msg.way }).setQueue m.line.toNat
        [{ x with phase := .waitAck }] := by
    have noRecall : v.devRecall m.line x.msg.src = none := by simp only [Run.devRecall, x, src]
    rw [v.homeEnd_dram (q := x) to_ fun _ => noRecall, v.homeFinish_rdS vacantQ onQ (q := x) kind rfl dirty]
    exact v.grantTo_die (q := x) src queueQ vacantQ.sound rfl .datE m.data m.poison
  rw [← grants]
  refine v.homeLoop_ends queueQ phase snooped rfl _ fun y hy => ?_
  rw [grants, Run.queue_setQueue_same] at hy
  cases hy
  exact ⟨by simp, by simp⟩

/-- Memory's data reaches the head of a queue whose other answers have come. -/
theorem data_granted (m : Msg) (d : Fin 16) (q : HReq) (c la : Nat) (s : State) (one : s.oneMsg m) (kindM : m.kind = .mDat) (to_ : q.to_ = .dram c la)
    (memory : m.src = .chan (Fin.ofNat 24 c)) (dst : m.dst = homeOf m.line) (queue : s.queue m.line.toNat = [q]) (kind : q.msg.kind = .rdS)
    (src : q.msg.src = .die d) (_ : q.msg.line = m.line) (phase : q.phase = .snooping) (snooped : q.snooped = []) (needMem : q.needMem = true)
    (dirty : q.dirty = none) (_ : q.answers = []) (diren : s.fld HOME_CFG_DIREN = 0) (egrant : s.fld HOME_CFG_EGRANT = 1) (unheld : s.unheld m.line)
    (online : s.online d = true) :
    ∃ t, exec (.mdat (s.packet m)) s = .next t ∧ t.filtEntry (l3Key d m.line q.msg.way) = some ⟨m.line, .X, none⟩ ∧
      t.queue m.line.toNat = [{ q with phase := .waitAck, needMem := false, mem := some (m.data, m.poison, m.dir) }] ∧
      t.net = [{ kind := .datE, src := m.dst, dst := .die d, line := m.line, data := m.data, poison := m.poison, way := q.msg.way }] := by
  obtain ⟨still, sound, -⟩ := id one
  have arrived := one.arrived_take
  set r := (Run.start s).linkBuffer m with hr
  obtain ⟨net, lineq, -⟩ := arrived.rest
  have like := arrived.homeLike
  have vacant : (r.take m).vacant m.line := like.vacant unheld sound diren
  have grantsE : (r.take m).on HOME_CFG_EGRANT = true := by
    have same : (r.take m).fld HOME_CFG_EGRANT = 1 := (like.fld (f := HOME_CFG_EGRANT) arrivalArea_HOME_CFG).trans egrant
    rw [Run.on, same]
    rfl
  have queueR : (r.take m).queue m.line.toNat = [q] := by
    rw [Run.queue, State.queue, lineq]
    exact queue
  have delivers : r.deliver m = r.homeMem m := by simp only [Run.deliver, dst, homeOf, kindM, memory, msgClass]
  have grants := r.homeMem_grants queueR vacant grantsE to_ memory kind src phase snooped needMem dirty
  set x : HReq := { q with needMem := false, mem := some (m.data, m.poison, m.dir) } with hx
  set grant : Msg := { kind := .datE, src := homeOf m.line, dst := .die d, line := m.line, data := m.data, poison := m.poison, way := q.msg.way } with hgrant
  set t := ((((r.take m).setQueue m.line.toNat [x]).setFiltEntry (l3Key d m.line q.msg.way) (some ⟨m.line, .X, none⟩)).send grant).setQueue m.line.toNat
    [{ x with phase := .waitAck }] with ht
  have goes : (Run.start s).message m.kind (s.packet m) = t := by rw [Run.message_packet one, ← hr, delivers, grants]
  have sent : t.1.net = [grant] := by simp [ht, net]
  have ends : t.done = .next t.1 := ((((arrived.settledLike.setQueue _ _).setFiltEntry _ _).send _).setQueue _ _).done_one still sent fun k hk => by
    cases hk
    exact online
  refine ⟨t.1, ?_, by simp [ht], by simp [ht, hx], by rw [sent, hgrant, dst]⟩
  show ((Run.start s).message .mDat (s.packet m)).done = _
  rw [← kindM, goes, ends]

/-! ### A request ends -/

/-- A queue that has become empty stays so. -/
theorem Run.homeGo_empty (r : Run s0) {l : LineAddr} (empty : r.1.queue l.toNat = []) : r.homeGo l = r :=
  Run.homeLoop_waits r l _ fun y hy => by
    rw [Run.queue, empty] at hy
    cases hy

/-- The only request of a queue leaves it; its tracker may be counted. -/
theorem Run.popHead_leaves (r : Run s0) {s : State} {l : LineAddr} {q : HReq} (queue : r.queue l.toNat = [q]) (like : s.settledLike r.1) :
    s.settledLike (r.popHead l).1 ∧ (r.popHead l).1.queue l.toNat = [] ∧ (r.popHead l).1.net = r.1.net := by
  have quarter := quadOf_lt l
  cases own : q.own with
  | true =>
    have pops : r.popHead l = r.setQueue l.toNat [] := by
      rw [Run.popHead, queue]
      simp [own]
    rw [pops]
    exact ⟨like.setQueue _ _, State.queue_setQueue_same r _ _, rfl⟩
  | false =>
    obtain ⟨lineq, net⟩ := (r.setQueue l.toNat []).trackers_rest quarter q.msg false
    rw [r.popHead_one queue own, State.queue, lineq]
    exact ⟨(like.setQueue _ _).trackers quarter _ _, State.queue_setQueue_same r _ _, net⟩

/-- A requester's Ack ends a request. -/
theorem ack_ends (m : Msg) (q : HReq) (c la : Nat) (s : State) (one : s.oneMsg m) (kindM : m.kind = .ack) (dst : m.dst = homeOf m.line)
    (queue : s.queue m.line.toNat = [q]) (phase : q.phase = .waitAck) (kind : q.msg.kind = .rdS) (src : q.msg.src = m.src) (to_ : q.to_ = .dram c la) :
    ∃ t, exec (.ack (s.packet m)) s = .next t ∧ t.queue m.line.toNat = [] ∧ t.net = [] := by
  obtain ⟨still, -⟩ := id one
  have arrived := one.arrived_take
  set r := (Run.start s).linkBuffer m with hr
  obtain ⟨net, lineq, -⟩ := arrived.rest
  have queueR : (r.take m).queue m.line.toNat = [q] := by
    rw [Run.queue, State.queue, lineq]
    exact queue
  obtain ⟨like, empty, netP⟩ := (r.take m).popHead_leaves queueR arrived.settledLike
  have delivers : r.deliver m = r.homeAck m := by simp only [Run.deliver, dst, homeOf, kindM, msgClass]
  have acks : r.homeAck m = ((r.take m).popHead m.line).homeGo m.line := by
    unfold Run.homeAck
    simp [queueR, phase, kind, src, to_]
  set t := (r.take m).popHead m.line with ht
  have goes : (Run.start s).message m.kind (s.packet m) = t := by rw [Run.message_packet one, ← hr, delivers, acks, t.homeGo_empty empty]
  have ends : t.done = .next t.1 := like.done_sent still fun x hx => by
    rw [netP, net] at hx
    cases hx
  refine ⟨t.1, ?_, empty, netP.trans net⟩
  show ((Run.start s).message .ack (s.packet m)).done = _
  rw [← kindM, goes, ends]

/-- Memory's acknowledgement of a write ends the hart's store. -/
theorem write_ends (m : Msg) (h : Fin 1024) (q : HReq) (s : State) (one : s.oneMsg m) (kindM : m.kind = .mAck) (memory : q.to_.agent = some m.src)
    (own : q.own = false) (noLoose : m.line ∉ (s.slice (quadOf m.line)).loose) (dst : m.dst = homeOf m.line) (queue : s.queue m.line.toNat = [q])
    (phase : q.phase = .waitMAck) (kind : q.msg.kind = .wrLine) (src : q.msg.src = .hart h) (online : s.online (dieOf (tileOf h)) = true) :
    ∃ t, exec (.mack (s.packet m)) s = .next t ∧ t.queue m.line.toNat = [] ∧ t.net = [{ kind := .done, src := m.dst, dst := .hart h, line := m.line }] := by
  obtain ⟨still, -⟩ := id one
  have arrived := one.arrived_take
  set r := (Run.start s).linkBuffer m with hr
  obtain ⟨net, lineq, -⟩ := arrived.rest
  have queueR : (r.take m).queue m.line.toNat = [q] := by
    rw [Run.queue, State.queue, lineq]
    exact queue
  have noLooseR : m.line ∉ ((r.take m).slice (quadOf m.line)).loose := by
    rw [Run.slice, arrived.homeLike.slice]
    exact noLoose
  set answer : Msg := { kind := .done, src := homeOf m.line, dst := .hart h, line := m.line } with hanswer
  obtain ⟨like, empty, netP⟩ := ((r.take m).send answer).popHead_leaves queueR (arrived.settledLike.send answer)
  have delivers : r.deliver m = r.homeWritten m := by simp only [Run.deliver, dst, homeOf, kindM, msgClass]
  have writes : r.homeWritten m = (((r.take m).send answer).popHead m.line).homeGo m.line := by
    unfold Run.homeWritten
    simp [queueR, noLooseR, phase, memory, kind, msgClass, Run.reply, own, src, hanswer]
  set t := ((r.take m).send answer).popHead m.line with ht
  have goes : (Run.start s).message m.kind (s.packet m) = t := by rw [Run.message_packet one, ← hr, delivers, writes, t.homeGo_empty empty]
  have sent : t.1.net = [answer] := netP.trans (by simp [net])
  have ends : t.done = .next t.1 := like.done_one still sent fun k hk => by
    have die : dieOf (tileOf h) = h.val / 64 := by
      simp only [dieOf, tileOf]
      omega
    cases hk
    rw [← die]
    exact online
  refine ⟨t.1, ?_, empty, by rw [sent, hanswer, dst]⟩
  show ((Run.start s).message .mAck (s.packet m)).done = _
  rw [← kindM, goes, ends]

/-- Settles O18: an answer is recorded where others are still to come; the last one lets the head take effect, and its Ack or write ends it. -/
theorem answersReachTheHome : Obligations.AnswersReachTheHome := ⟨snoop_answered, data_granted, ack_ends, write_ends⟩

end Sys2Proof.Machine

/-! What a die's L3 answers to a snoop of a line that no tile of the die holds (R169). -/
namespace Sys2Proof.Machine

variable {s0 : State}

/-! ### The line in the L3 -/

/-- The slot that an L3 finds is in the way that it names. -/
theorem Run.l3Find_slot (r : Run s0) {d w : Nat} {l : LineAddr} {x : L3Slot} (find : r.l3Find d l = some (w, x)) : r.l3Slot (l3Key d l w) = some x := by
  obtain ⟨v, -, found⟩ := List.exists_of_findSome?_eq_some find
  split at found
  next y slot =>
    obtain ⟨-, same⟩ := Option.ite_none_right_eq_some.1 found
    cases same
    exact slot
  next => cases found

/-- The tags of a set without stored errors are read as they are. -/
theorem Run.l3TagCheck_sound (r : Run s0) {d : Nat} {l : LineAddr} (sound : ∀ v < 16, ∀ y ∈ r.1.l3Slot (l3Key d l v), y.tagFlip = false ∧ y.cvFlip = false) :
    r.l3TagCheck d l = r := by
  unfold Run.l3TagCheck
  refine List.foldlRecOn (motive := (· = r)) _ _ rfl fun q hq v hv => ?_
  rw [hq]
  split
  next => rfl
  next y slot =>
    obtain ⟨tag, cv⟩ := sound v (List.mem_range.1 hv) y slot
    simp [tag, cv]

/-- A line without a stored error is read as it is. -/
theorem Run.l3Check_found (r : Run s0) {d w : Nat} {l : LineAddr} {x : L3Slot} (find : r.l3Find d l = some (w, x)) (flip : x.flip = none) : r.l3Check d l = r := by
  simp only [Run.l3Check, find, flip]

/-- A WbKeep that is out of date changes a victim buffer alone. -/
theorem Run.keepStale_only (r : Run s0) (d : Nat) (l : LineAddr) : ∃ qs, (r.keepStale d l).1 = { r.1 with quads := qs } := by
  unfold Run.keepStale
  split <;> exact ⟨_, rfl⟩

/-! ### The answer -/

/-- The answer to a snoop, in the state that the L3 keeps, with the line's data where the snoop calls for it. -/
def snoopAnswer (m : Msg) (d : Fin 16) (x : L3Slot) (st : St) (data : Bool) : Msg :=
  { kind := if data then .datSnp else .rsp, src := .die d, dst := m.src, line := m.line, st := st, data := if data then x.data else 0,
    poison := data && x.poison, la := m.la }

/-- The slot of a snooped line. -/
def L3Slot.snooped (x : L3Slot) (st : St) : Option L3Slot := if st = .I then none else some { x with st := st }

/-- An L3 answers a snoop of a line that no tile holds: the slot takes its next state, and a WbKeep may become out of date. -/
theorem Run.dieSnoop_alone (r : Run s0) {m : Msg} {d : Fin 16} {w : Nat} {x : L3Slot} (prompt : ∀ t < 16, r.lrDelayed (d * 16 + t) m.line = false)
    (net : (r.take m).1.net = []) (find : (r.take m).l3Find d m.line = some (w, x)) (cv : x.cv = 0) (flip : x.flip = none)
    (sound : ∀ v < 16, ∀ y ∈ (r.take m).1.l3Slot (l3Key d m.line v), y.tagFlip = false ∧ y.cvFlip = false) :
    ∃ q : Run s0, (∃ qs, q.1 = { (r.take m).1 with quads := qs }) ∧
      r.dieSnoop d m = (q.setL3Slot (l3Key d m.line w) (x.snooped (snoopNext m.kind x.st))).send
        (snoopAnswer m d x (snoopNext m.kind x.st) (snoopData m.kind x.st)) := by
  have noDelay : ((List.range 16).any fun t => r.lrDelayed (d * 16 + t) m.line && r.l2St (d * 16 + t) m.line != .I) = false :=
    List.any_eq_false.2 fun t ht => by simp [prompt t (List.mem_range.1 ht)]
  generalize hu : r.take m = u at *
  have slot : u.l3Slot (l3Key d m.line w) = some x := u.l3Find_slot find
  have check : (if snoopData m.kind x.st then u.l3Check d m.line else u) = u := by rw [u.l3Check_found find flip, ite_self]
  have noTiles : (if m.kind = .snpX ∨ m.kind = .snpInv then namedTiles x.cv none else if x.st = .E ∨ x.st = .M then namedTiles x.cv none else []) = [] := by
    rw [cv, namedTiles_zero, ite_self, ite_self]
  refine ⟨if snoopNext m.kind x.st = x.st then u else u.keepStale d m.line, ?_, ?_⟩
  · split
    · exact ⟨_, rfl⟩
    · exact u.keepStale_only d m.line
  · unfold Run.dieSnoop
    simp only [noDelay, Bool.false_and, Bool.false_eq_true, if_false, hu, u.flushDie_none d m.line net, u.l3TagCheck_sound sound, find, noTiles,
      Run.snoopTiles, List.foldl_nil, slot, Option.getD_some, check]
    generalize (if snoopNext m.kind x.st = x.st then u else u.keepStale d m.line) = p
    have die : Fin.ofNat 16 d.val = d := Fin.ofNat_val_eq_self d
    have slots : p.setL3Slot (l3Key d m.line w) (x.snooped (snoopNext m.kind x.st)) = if snoopNext m.kind x.st = .I then p.setL3Slot (l3Key d m.line w) none
        else p.setL3Slot (l3Key d m.line w) (some { x with st := snoopNext m.kind x.st }) := apply_ite _ _ _ _
    rw [slots, die]
    cases snoopData m.kind x.st <;> rfl

/-! ### The command -/

/-- The snoops of a home (R169). -/
def isSnoop (k : MsgKind) : Bool := k ∈ [MsgKind.snpS, .snpX, .snpInv, .snpCln, .snpCur]

/-- A row of R169: a snoop, the state that it finds, the state that it leaves and whether it returns data. -/
def snoopRow (s : State) (m : Msg) (p : Instr × MsgKind × St × St × Bool) : Prop :=
  exec p.1 s = ((Run.start s).message p.2.1 (s.packet m)).done ∧ isSnoop p.2.1 = true ∧ snoopNext p.2.1 p.2.2.1 = p.2.2.2.1 ∧
    snoopData p.2.1 p.2.2.1 = p.2.2.2.2

theorem Run.deliver_snoop (r : Run s0) {m : Msg} {d : Fin 16} {k : Fin 4} (src : m.src = .home k) (dst : m.dst = .die d) (snoop : isSnoop m.kind = true) :
    r.deliver m = r.dieSnoop d m := by
  simp only [isSnoop, decide_eq_true_eq, List.mem_cons, List.not_mem_nil, or_false] at snoop
  rcases snoop with kind | kind | kind | kind | kind <;> simp only [Run.deliver, src, dst, kind]

/-- A snoop of a home is answered as its row says. -/
theorem snoop_answers {m : Msg} {d : Fin 16} {k : Fin 4} {w : Nat} {x : L3Slot} {s : State} (one : s.oneMsg m) (src : m.src = .home k) (dst : m.dst = .die d)
    (alone : s.l3Alone d m.line w x) (p : Instr × MsgKind × St × St × Bool) (row : snoopRow s m p) (kind : m.kind = p.2.1) (st : x.st = p.2.2.1) :
    ∃ t, exec p.1 s = .next t ∧
      t.l3Slot (l3Key d m.line w) = (if p.2.2.2.1 = .I then none else some { x with st := p.2.2.2.1 }) ∧
      t.net = [{ kind := if p.2.2.2.2 then .datSnp else .rsp, src := .die d, dst := .home k, line := m.line, st := p.2.2.2.1, data := if p.2.2.2.2 then x.data else 0, poison := p.2.2.2.2 && x.poison, la := m.la }] := by
  obtain ⟨begins, snoop, next, data⟩ := row
  rw [← kind, ← st] at next data
  rw [← kind] at begins snoop
  obtain ⟨find, cv, flip, sound, prompt⟩ := alone
  obtain ⟨still, -⟩ := id one
  have arrived := one.arrived_take
  have harts : ((Run.start s).linkBuffer m).1.harts = s.harts := by
    obtain ⟨rs, only, -⟩ := (Run.start s).rewrites_linkBuffer m
    rw [only]
    rfl
  set r := (Run.start s).linkBuffer m with hr
  obtain ⟨net, -, -, -, -, -, l3⟩ := arrived.rest
  have slots : ∀ v, (r.take m).1.l3Slot v = s.l3Slot v := fun v => by rw [State.l3Slot, State.l3Slot, l3]
  have findR : (r.take m).l3Find d m.line = some (w, x) := by
    rw [← find]
    simp only [Run.l3Find, Run.l3Slot, slots, Run.start_val]
  have promptR : ∀ t < 16, r.lrDelayed (d * 16 + t) m.line = false := fun t ht => by
    rw [← prompt t ht]
    simp only [Run.lrDelayed, Run.hart, State.hart, harts, Run.start_val]
  obtain ⟨q, ⟨qs, only⟩, answers⟩ := r.dieSnoop_alone promptR net findR cv flip fun v hv y hy => sound v hv y (slots _ ▸ hy)
  rw [next, data] at answers
  have like : s.settledLike q.1 := by
    have like := arrived.settledLike
    rw [only]
    exact ⟨like.need, like.poke, like.dies, like.regs⟩
  have netQ : q.1.net = [] := by
    rw [only]
    exact net
  set answer := snoopAnswer m d x p.2.2.2.1 p.2.2.2.2 with hanswer
  set t := (q.setL3Slot (l3Key d m.line w) (x.snooped p.2.2.2.1)).send answer with ht
  have goes : (Run.start s).message m.kind (s.packet m) = t := by rw [Run.message_packet one, ← hr, r.deliver_snoop src dst snoop, answers]
  have sent : t.1.net = [answer] := by simp [ht, netQ]
  have ends : t.done = .next t.1 := ((like.setL3Slot _ _).send _).done_one still sent fun j hj => by
    rw [hanswer, snoopAnswer, src] at hj
    cases hj
  refine ⟨t.1, by rw [begins, goes, ends], by simp [ht, L3Slot.snooped], by rw [sent, hanswer, snoopAnswer, src]⟩

/-- Settles O16: the row of R169 for each snoop and state gives the answer and the state kept. -/
theorem snoopsComplete : Obligations.SnoopsComplete := by
  unfold Obligations.SnoopsComplete
  intro m d k w x s one src dst alone p hp
  refine snoop_answers one src dst alone p (List.forall_mem_cons.2 ?_ p hp)
  simp only [List.forall_mem_cons, List.not_mem_nil, IsEmpty.forall_iff, implies_true, and_true, snoopRow]
  and_intros <;> rfl

end Sys2Proof.Machine

/-! An answer of a home ends the instruction of the hart that waits for it (R170, R182, R187). -/
namespace Sys2Proof.Machine

variable {s0 : State}

/-- An instruction that retires with nothing else to do, and no message in flight, ends its command. -/
theorem Run.retire_ends (q : Run s0) {h : Nat} (still : q.1.still) (undisturbed : q.1.undisturbed h) (net : q.1.net = []) :
    ∃ t, (q.retire h).done = .next t ∧ t.net = [] ∧ t.hart h = Hart.told { q.1.hart h with pc := (q.1.hart h).pc + 4, wait := none } 2 ∧
      ∀ i, (Run.start t).xr h i = q.xr h i := by
  obtain ⟨-, -, -, -, -, unwatched⟩ := id undisturbed
  obtain ⟨moved, -⟩ := q.retire_leaves h unwatched
  obtain ⟨-, -, sent, -⟩ := q.retire_keeps h unwatched
  exact ⟨_, q.done_retire h still undisturbed, sent.trans net, moved, fun i => q.xr_retire h i unwatched⟩

/-- A hart stands as before its answer came, and nothing is left to settle. -/
structure State.handed (s t : State) (h : Nat) : Prop where
  still : t.still
  undisturbed : t.undisturbed h
  net : t.net = []
  hart : t.hart h = s.hart h

/-- The one message in flight leaves its hart as it stands when it is taken. -/
theorem State.oneMsg.handed_take {s : State} {m : Msg} (one : s.oneMsg m) {h : Nat} (undisturbed : s.undisturbed h) :
    s.handed (((Run.start s).linkBuffer m).take m).1 h := by
  obtain ⟨still, -⟩ := id one
  have arrived := one.arrived_take
  have like := arrived.settledLike
  obtain ⟨net, -⟩ := arrived.rest
  obtain ⟨noNeed, noPoke, -, drops⟩ := still
  refine ⟨⟨like.need.trans noNeed, like.poke.trans noPoke, fun x hx => ?_, like.dies ▸ drops⟩, ?_, net, ?_⟩
  · rw [net] at hx
    cases hx
  · obtain ⟨rs, sq, only⟩ := arrived.only
    rw [only]
    exact undisturbed
  · obtain ⟨rs, sq, only⟩ := arrived.only
    rw [only]
    rfl

/-- A register written leaves the hart as it stands. -/
theorem State.handed.setXr {s : State} {q : Run s0} {h : Nat} (c : s.handed q.1 h) (i : Nat) (v : Word) : s.handed (q.setXr h i v).1 h := by
  obtain ⟨xs, only⟩ := q.setXr_only h i v
  rw [only]
  exact ⟨c.still, c.undisturbed, c.net, c.hart⟩

/-- The answer to a hart is no answer to an access of an agent without a cache. -/
theorem Run.deliver_hart (r : Run s0) {m : Msg} {h : Fin 1024} (dst : m.dst = .hart h) : r.deliver m = r.hartArrive h m := by
  simp only [Run.deliver, dst]

/-- The accesses under way are those of before the buffer of a link. -/
theorem opOn_linkBuffer (s : State) (m : Msg) (a : Agent) (l : LineAddr) (w : Bool) :
    ((Run.start s).linkBuffer m).opOn a l w = (Run.start s).opOn a l w := by
  obtain ⟨rs, only, -⟩ := (Run.start s).rewrites_linkBuffer m
  rw [Run.opOn, Run.opOn, only]

/-! ### The three answers -/

/-- A CBO that waits for its last line retires. -/
theorem cbo_answered (m : Msg) (h : Fin 1024) (s : State) (one : s.oneMsg m) (kind : m.kind = .done) (dst : m.dst = .hart h)
    (noOp : (Run.start s).opOn m.dst m.line true = false) (undisturbed : s.undisturbed h) (noStore : (s.hart h).ncOut = [])
    (wait : (s.hart h).wait = some (.cbo [m.line] none)) :
    ∃ t, exec (.done (s.packet m)) s = .next t ∧ t.net = [] ∧ t.hart h = Hart.told { s.hart h with pc := (s.hart h).pc + 4, wait := none } 2 := by
  have handed := one.handed_take undisturbed
  have noOpR := (opOn_linkBuffer s m m.dst m.line true).trans noOp
  have goes := Run.message_packet one
  set r := (Run.start s).linkBuffer m with hr
  have hart : (r.take m).hart h = s.hart h := handed.hart
  have arrives : r.hartArrive h m = (r.take m).retire h := by
    have last : [m.line].erase m.line = [] := by simp
    have isDone : (MsgKind.done == MsgKind.done) = true := rfl
    unfold Run.hartArrive
    simp only [kind, isDone, noOpR, Bool.false_eq_true, and_false, if_false, Run.hartDone, hart, noStore, List.not_mem_nil, wait, last, List.isEmpty_nil, if_true]
  obtain ⟨t, ends, net, moved, -⟩ := (r.take m).retire_ends handed.still handed.undisturbed handed.net
  refine ⟨t, ?_, net, by rw [moved, handed.hart]⟩
  show ((Run.start s).message .done (s.packet m)).done = _
  rw [← kind, goes, r.deliver_hart dst, arrives, ends]

/-- A load on the home path that waits for its last part writes its register and retires. -/
theorem load_answered (m : Msg) (h : Fin 1024) (rd : Fin 32) (uns : Bool) (a : Acc) (p : Part) (s : State) (one : s.oneMsg m) (kind : m.kind = .datCur)
    (dst : m.dst = .hart h) (noOp : (Run.start s).opOn m.dst m.line false = false) (undisturbed : s.undisturbed h) (wait : (s.hart h).wait = some (.home a))
    (op : a.op = .load (.x rd) uns) (parts : a.parts = [p]) (clean : m.poison = false) (rd0 : rd ≠ 0) :
    ∃ t, exec (.datcur (s.packet m)) s = .next t ∧ t.net = [] ∧ t.hart h = Hart.told { s.hart h with pc := (s.hart h).pc + 4, wait := none } 2 ∧
      (Run.start t).xr h rd = extend (gather a.got a.fwd p m.data) a.lg uns := by
  have handed := one.handed_take undisturbed
  have noOpR := (opOn_linkBuffer s m m.dst m.line false).trans noOp
  have goes := Run.message_packet one
  set r := (Run.start s).linkBuffer m with hr
  have hart : (r.take m).hart h = s.hart h := handed.hart
  set v := extend (gather a.got a.fwd p m.data) a.lg uns with hv
  have arrives : r.hartArrive h m = ((r.take m).setXr h rd v).retire h := by
    have noDone : (MsgKind.datCur == MsgKind.done) = false := rfl
    unfold Run.hartArrive
    simp only [kind, noDone, noOpR, Bool.false_eq_true, and_false, if_false, hart, wait, parts, clean, Bool.false_and, Run.finishAcc, op, Run.writeDest, hv]
  have written := handed.setXr (q := r.take m) rd v
  obtain ⟨t, ends, net, moved, regs⟩ := ((r.take m).setXr h rd v).retire_ends written.still written.undisturbed written.net
  have some_ : rd.val ≠ 0 := fun zero => rd0 (Fin.ext zero)
  refine ⟨t, ?_, net, by rw [moved, written.hart], (regs rd).trans ((r.take m).xr_setXr h rd v some_)⟩
  show ((Run.start s).message .datCur (s.packet m)).done = _
  rw [← kind, goes, r.deliver_hart dst, arrives, ends]

/-- An event counted for the next token leaves nothing else changed. -/
theorem Run.tally_one (q : Run s0) {h ev : Nat} (still : q.1.still) (undisturbed : q.1.undisturbed h) :
    (q.tally h ev 1).1.still ∧ (q.tally h ev 1).1.undisturbed h ∧ (q.tally h ev 1).1.hart h = (q.1.hart h).told ev := by
  have own : (q.tally h ev 1).1.hart h = (q.1.hart h).told ev := by simp [Run.tally, Run.modHart, Run.hart_setHart, Hart.told, Run.hart]
  obtain ⟨hs, only⟩ : ∃ hs, (q.tally h ev 1).1 = { q.1 with harts := hs } := ⟨_, rfl⟩
  obtain ⟨-, -, -, -, -, trigs, pend, step⟩ := id undisturbed
  refine ⟨?_, ?_, own⟩
  · rw [only]
    exact still
  · exact State.undisturbed_of undisturbed rfl (by rw [own]; rfl) (by rw [own]; rfl) (by rw [own]; rfl) rfl ⟨by rw [own]; exact trigs, by rw [own]; exact pend, step⟩

/-- An AMO on the home path writes its register, counts and retires. -/
theorem amo_answered (m : Msg) (h : Fin 1024) (rd : Fin 32) (op : AmoOp) (x y : BitVec 128) (a : Acc) (s : State) (one : s.oneMsg m) (kind : m.kind = .datAtom)
    (dst : m.dst = .hart h) (undisturbed : s.undisturbed h) (wait : (s.hart h).wait = some (.home a)) (amo : a.op = .amo rd op x y) (narrow : a.lg < 4)
    (clean : m.poison = false) (rd0 : rd ≠ 0) :
    ∃ t, exec (.datatom (s.packet m)) s = .next t ∧ t.net = [] ∧
      t.hart h = Hart.told { (s.hart h).told 0x51 with pc := (s.hart h).pc + 4, wait := none } 2 ∧
      (Run.start t).xr h rd = extend (m.data.extractLsb' 0 128) a.lg false := by
  have handed := one.handed_take undisturbed
  have goes := Run.message_packet one
  set r := (Run.start s).linkBuffer m with hr
  have hart : (r.take m).hart h = s.hart h := handed.hart
  set v := extend (m.data.extractLsb' 0 128) a.lg false with hv
  set q := (r.take m).setXr h rd v with hq
  have arrives : r.hartArrive h m = (q.tally h 0x51 1).retire h := by
    unfold Run.hartArrive
    simp only [kind, reduceCtorEq, or_self, false_and, if_false, hart, wait, clean, Bool.false_eq_true, amo, Run.writeAmo, if_neg narrow.ne, hq, hv]
  have written : s.handed q.1 h := handed.setXr (q := r.take m) rd v
  obtain ⟨still, calm, counted⟩ := q.tally_one (ev := 0x51) written.still written.undisturbed
  obtain ⟨t, ends, net, moved, regs⟩ := (q.tally h 0x51 1).retire_ends still calm written.net
  have some_ : rd.val ≠ 0 := fun zero => rd0 (Fin.ext zero)
  refine ⟨t, ?_, net, ?_, (regs rd).trans ((r.take m).xr_setXr h rd v some_)⟩
  · show ((Run.start s).message .datAtom (s.packet m)).done = _
    rw [← kind, goes, r.deliver_hart dst, arrives, ends]
  · rw [moved, counted, written.hart]
    rfl

/-- Settles O20: the answer is taken, its value written, and the instruction retires with nothing left to settle. -/
theorem hartAnswersComplete : Obligations.HartAnswersComplete := ⟨cbo_answered, load_answered, amo_answered⟩

end Sys2Proof.Machine

/-! A stash of a written line is offered to a die, accepted or declined, sent and installed (R153, R177). -/
namespace Sys2Proof.Machine

variable {s0 : State}

/-! ### What a die reads -/

/-- The registers of an L3's block are apart from what an arrival writes. -/
theorem arrivalArea_l3 {d p : Nat} (hp : p < 16) :
    ¬ arrivalArea (L3_STATUS d).off ∧ ¬ arrivalArea (L3_WAYLOCK d).off ∧ ¬ arrivalArea (L3_PARTWAYS d p).off ∧ ¬ arrivalArea (L3_WAYOWNER d).off := by
  refine ⟨?_, ?_, ?_, ?_⟩ <;> simp only [arrivalArea, linkArea, trackArea, L3_STATUS, L3_WAYLOCK, L3_PARTWAYS, L3_WAYOWNER] <;> omega

theorem arrivalArea_partRange {d n : Nat} (hn : n < 8) : ¬ arrivalArea (L3_PARTRANGE_BASE d n).off ∧ ¬ arrivalArea (L3_PARTRANGE_LIMIT d n).off := by
  refine ⟨?_, ?_⟩ <;> simp only [arrivalArea, linkArea, trackArea, L3_PARTRANGE_BASE, L3_PARTRANGE_LIMIT] <;> omega

theorem arrivalArea_ERT {n : Nat} (hn : n < 128) : ¬ arrivalArea (ERT_BASE n).off ∧ ¬ arrivalArea (ERT_LIMIT n).off := by
  refine ⟨?_, ?_⟩ <;> simp only [arrivalArea, linkArea, trackArea, ERT_BASE, ERT_LIMIT] <;> omega

/-- The arrays of an L3 (R475) are apart from those of the links. -/
theorem arrivalArea_die_array {d a : Nat} (hd : d < 16) (ha : a < 140) : ¬ arrivalArea (ARR_FLIP d a).off := by
  simp only [arrivalArea, linkArea, trackArea, ARR_FLIP, errBase, if_neg hd.ne]
  omega

/-- A range that holds an address is one of the 128. -/
theorem Run.ertOf_lt (r : Run s0) {a n : Nat} (found : r.ertOf a = some n) : n < 128 := by
  unfold Run.ertOf at found
  exact List.mem_range.1 (List.mem_of_find?_eq_some found)

/-- The range of a die's partitions that holds an address (R147). -/
def Run.partRange (r : Run s0) (d a : Nat) : Option Nat :=
  (List.range 8).find? fun n => r.on (L3_PARTRANGE_BASE_EN d n) && decide (r.fld (L3_PARTRANGE_BASE_BASE d n) ≤ a / 2 ^ 21)
    && decide (a / 2 ^ 21 ≤ r.fld (L3_PARTRANGE_LIMIT_LIMIT d n))

/-- Where no enclave's range holds an address, its partition is its range's, unless that one is an enclave's. -/
theorem Run.partOf_plain (r : Run s0) {d a : Nat} (plain : r.ertOf a = none) :
    r.partOf d a = ((r.partRange d a).map fun n =>
      if (List.range 128).any fun e => r.on (ERT_BASE_EN e) && r.fld (ERT_BASE_PART e) == r.fld (L3_PARTRANGE_BASE_PART d n) then 0
      else r.fld (L3_PARTRANGE_BASE_PART d n)).getD 0 := by
  unfold Run.partOf Run.partRange
  simp only [plain]
  split
  next none_ =>
    rw [none_]
    rfl
  next n some_ =>
    rw [some_]
    rfl

theorem Run.partOf_enclave (r : Run s0) {d a n : Nat} (enclave : r.ertOf a = some n) : r.partOf d a = r.fld (ERT_BASE_PART n) := by
  unfold Run.partOf
  simp only [enclave]

/-- A partition is one of 16. -/
theorem Run.partOf_lt (r : Run s0) (d a : Nat) : r.partOf d a < 16 := by
  cases found : r.ertOf a with
  | some n =>
    rw [r.partOf_enclave found]
    exact r.1.fld_lt (ERT_BASE_PART n)
  | none =>
    rw [r.partOf_plain found]
    cases r.partRange d a with
    | none => exact Nat.zero_lt_succ _
    | some n =>
      rw [Option.map_some, Option.getD_some]
      split
      · exact Nat.zero_lt_succ _
      · exact r.1.fld_lt (L3_PARTRANGE_BASE_PART d n)

section

variable {s : State} {q : Run s0} (h : s.arrived q.1)
include h

theorem State.arrived.fldR {f : FRef} (off : ¬ arrivalArea f.reg.off) : q.fld f = (Run.start s).fld f := h.fld off

theorem State.arrived.on {f : FRef} (off : ¬ arrivalArea f.reg.off) : q.on f = (Run.start s).on f := congrArg (· != 0) (h.fldR off)

theorem State.arrived.quad (k : Nat) : q.quad k = s.quad k := by
  obtain ⟨-, -, -, -, -, quads, -⟩ := h.rest
  rw [Run.quad, State.quad, State.quad, quads]

theorem State.arrived.l3Slot (k : Nat) : q.l3Slot k = s.l3Slot k := by
  obtain ⟨-, -, -, -, -, -, l3⟩ := h.rest
  rw [Run.l3Slot, State.l3Slot, State.l3Slot, l3]

theorem State.arrived.l3Off (d : Nat) (l : LineAddr) : q.l3Off d l = (Run.start s).l3Off d l := by
  obtain ⟨status, -⟩ := arrivalArea_l3 (d := d) (p := 0) (by decide)
  rw [Run.l3Off, Run.l3Off, Run.bit, Run.bit, Run.bit, Run.bit, h.fldR (f := L3_STATUS_DISABLED d) status,
    h.fldR (f := L3_STATUS_CACHE_DISABLE_PENDING d) status]

theorem State.arrived.ertOf (a : Nat) : q.ertOf a = (Run.start s).ertOf a := by
  unfold Run.ertOf
  refine List.find?_congr fun n hn => ?_
  obtain ⟨base, limit⟩ := arrivalArea_ERT (List.mem_range.1 hn)
  rw [h.on (f := ERT_BASE_EN n) base, h.fldR (f := ERT_BASE_BASE n) base, h.fldR (f := ERT_LIMIT_LIMIT n) limit]

/-- The partition of a line is that of before the arrival. -/
theorem State.arrived.partOf (d a : Nat) : q.partOf d a = (Run.start s).partOf d a := by
  have same := h.ertOf a
  cases found : (Run.start s).ertOf a with
  | some n =>
    obtain ⟨base, -⟩ := arrivalArea_ERT ((Run.start s).ertOf_lt found)
    rw [q.partOf_enclave (same.trans found), (Run.start s).partOf_enclave found, h.fldR (f := ERT_BASE_PART n) base]
  | none =>
    have ranges : q.partRange d a = (Run.start s).partRange d a := List.find?_congr fun n hn => by
      obtain ⟨base, limit⟩ := arrivalArea_partRange (d := d) (List.mem_range.1 hn)
      rw [h.on (f := L3_PARTRANGE_BASE_EN d n) base, h.fldR (f := L3_PARTRANGE_BASE_BASE d n) base, h.fldR (f := L3_PARTRANGE_LIMIT_LIMIT d n) limit]
    rw [q.partOf_plain (same.trans found), (Run.start s).partOf_plain found, ranges]
    cases range : (Run.start s).partRange d a with
    | none => rfl
    | some n =>
      have hn : n < 8 := List.mem_range.1 (List.mem_of_find?_eq_some range)
      obtain ⟨base, -⟩ := arrivalArea_partRange (d := d) hn
      have enclaves : ((List.range 128).any fun e => q.on (ERT_BASE_EN e) && q.fld (ERT_BASE_PART e) == (Run.start s).fld (L3_PARTRANGE_BASE_PART d n)) =
          (List.range 128).any fun e => (Run.start s).on (ERT_BASE_EN e) && (Run.start s).fld (ERT_BASE_PART e) == (Run.start s).fld (L3_PARTRANGE_BASE_PART d n) :=
        Bool.eq_iff_iff.2 <| List.any_eq_true.trans <| (exists_congr fun e => and_congr_right fun he => by
          obtain ⟨entry, -⟩ := arrivalArea_ERT (List.mem_range.1 he)
          rw [h.on (f := ERT_BASE_EN e) entry, h.fldR (f := ERT_BASE_PART e) entry]).trans List.any_eq_true.symm
      rw [Option.map_some, Option.map_some, h.fldR (f := L3_PARTRANGE_BASE_PART d n) base, enclaves]

theorem State.arrived.l3Pick (d p : Nat) (hp : p < 16) (l : LineAddr) (clean : Bool) : q.l3Pick d l p clean = (Run.start s).l3Pick d l p clean := by
  obtain ⟨-, lock, ways, owner⟩ := arrivalArea_l3 (d := d) hp
  have busy : ∀ w, q.slotBusy d l w = (Run.start s).slotBusy d l w := fun w => by
    simp only [Run.slotBusy, h.quad, h.l3Slot]
    rfl
  have owns : ∀ w, q.wayOwner d w = (Run.start s).wayOwner d w := fun w => congrArg (fun v => Word.bits v (4 * w + 3) (4 * w)) (h.reg owner)
  have slot : ∀ k, q.l3Slot k = (Run.start s).l3Slot k := h.l3Slot
  have tiles : ∀ n l, q.l2St n l = (Run.start s).l2St n l := fun n l => by
    obtain ⟨rs, sq, only⟩ := h.only
    simp only [Run.l2St, Run.l2Find, Run.l2Slot, only]
    rfl
  unfold Run.l3Pick
  simp only [busy, owns, slot, tiles, h.fldR (f := L3_WAYLOCK_LOCK d) lock, h.fldR (f := L3_PARTWAYS_WAYS d p) ways]

end

/-! ### The offer -/

/-- A die with an empty way for a line accepts its stash. -/
theorem Run.dieStash_accepts (r : Run s0) {m : Msg} {d : Fin 16} {w : Nat} {u : Run s0} (takes : r.take m = u) (stash : m.stash = some (.die d))
    (miss : (u.quad (d * 4 + quadOf m.line)).miss = []) (on : u.l3Off d m.line = false) (online : u.online d = true)
    (awake : u.gated (domQuad d (quadOf m.line)) = false) (pick : u.l3Pick d m.line (u.partOf d (m.line.toNat * 64)) true = some w)
    (slot : u.l3Slot (l3Key d m.line w) = none) :
    r.dieStash d m = (u.modQuad (d * 4 + quadOf m.line) fun x => { x with miss := x.miss ++
      [{ line := m.line, way := w, kind := .stashOffer, tiles := [], part := u.partOf d (m.line.toNat * 64) }] }).send
        { kind := .stashAcc, src := .die d, dst := m.src, line := m.line, way := Fin.ofNat 16 w } := by
  have die : Fin.ofNat 16 d.val = d := Fin.ofNat_val_eq_self d
  have room : decide (128 ≤ 0) = false := rfl
  unfold Run.dieStash
  simp only [takes, stash, miss, on, online, awake, pick, slot, die, room, List.any_nil, List.length_nil, Option.all_none, Option.any_none, Bool.not_true,
    Bool.or_false, Bool.false_eq_true, if_false]

/-- A stash offer is accepted, and its way reserved. -/
theorem offer_accepted (m : Msg) (d : Fin 16) (k : Fin 4) (w : Nat) (s : State) (one : s.oneMsg m) (kind : m.kind = .stashOffer) (src : m.src = .home k)
    (dst : m.dst = .die d) (stash : m.stash = some (.die d)) (miss : (s.quad (d * 4 + quadOf m.line)).miss = []) (on : (Run.start s).l3Off d m.line = false)
    (awake : (Run.start s).gated (domQuad d (quadOf m.line)) = false)
    (pick : (Run.start s).l3Pick d m.line ((Run.start s).partOf d (m.line.toNat * 64)) true = some w) (slot : s.l3Slot (l3Key d m.line w) = none) :
    ∃ t, exec (.stashoffer (s.packet m)) s = .next t ∧ t.net = [{ kind := .stashAcc, src := .die d, dst := .home k, line := m.line, way := Fin.ofNat 16 w }] ∧
      (t.quad (d * 4 + quadOf m.line)).miss = [{ line := m.line, way := w, kind := .stashOffer, tiles := [], part := (Run.start s).partOf d (m.line.toNat * 64) }] := by
  obtain ⟨still, -⟩ := id one
  have quarter := quadOf_lt m.line
  have online := one.online (d := d) (by rw [linkOf, src, dst]; rfl)
  have arrived := one.arrived_take
  have goes := Run.message_packet one
  set r := (Run.start s).linkBuffer m with hr
  obtain ⟨net, -⟩ := arrived.rest
  have part := arrived.partOf d (m.line.toNat * 64)
  have awakeR : (r.take m).gated (domQuad d (quadOf m.line)) = false := by
    have dom : domQuad d (quadOf m.line) < 1024 := by
      simp only [domQuad]
      omega
    rw [← awake, Run.gated, Run.gated, arrived.fldR (f := DOM_STAT_STATE _) (arrivalArea_DOM_STAT dom)]
  have pickR := (arrived.l3Pick d _ ((Run.start s).partOf_lt d (m.line.toNat * 64)) m.line true).trans pick
  rw [← part] at pickR
  have accepts := r.dieStash_accepts rfl stash ((congrArg Quad.miss (arrived.quad _)).trans miss) ((arrived.l3Off d m.line).trans on)
    ((arrived.settledLike.online d.isLt).trans online) awakeR pickR ((arrived.l3Slot _).trans slot)
  have delivers : r.deliver m = r.dieStash d m := by simp only [Run.deliver, dst, src, kind]
  rw [part, src] at accepts
  set x : QMiss := { line := m.line, way := w, kind := .stashOffer, tiles := [], part := (Run.start s).partOf d (m.line.toNat * 64) } with hx
  set answer : Msg := { kind := .stashAcc, src := .die d, dst := .home k, line := m.line, way := Fin.ofNat 16 w } with hanswer
  set u := (r.take m).modQuad (d * 4 + quadOf m.line) fun y => { y with miss := y.miss ++ [x] } with hu
  have reserved : (u.quad (d * 4 + quadOf m.line)).miss = [x] := by
    rw [hu, Run.quad_modQuad, if_pos rfl, arrived.quad, miss, List.nil_append]
  have sent : (u.send answer).1.net = [answer] := by simp [hu, net]
  have ends : (u.send answer).done = .next (u.send answer).1 := ((arrived.settledLike.modQuad _ _).send _).done_one still sent fun j hj => by cases hj
  refine ⟨(u.send answer).1, ?_, sent, reserved⟩
  show ((Run.start s).message .stashOffer (s.packet m)).done = _
  rw [← kind, goes, delivers, accepts, ends]

/-! ### The answer to the offer -/

/-- A head that waits for a stash target's answer, once it has accepted. -/
theorem stash_sent (m : Msg) (d : Fin 16) (q : HReq) (s : State) (one : s.oneMsg m) (kind : m.kind = .stashAcc) (src : m.src = .die d)
    (dst : m.dst = homeOf m.line) (queue : s.queue m.line.toNat = [q]) (phase : q.phase = .waitStash) (target : stashDie q.msg.stash = some m.src)
    (diren : s.fld HOME_CFG_DIREN = 0) :
    ∃ t, exec (.stashacc (s.packet m)) s = .next t ∧ t.filtEntry (l3Key d m.line m.way) = some ⟨m.line, .X, none⟩ ∧
      t.queue m.line.toNat = [{ q with phase := .waitAck }] ∧
      t.net = [{ kind := .datStash, src := m.dst, dst := .die d, line := m.line, data := (q.dirty.getD (0, false)).1, poison := (q.dirty.getD (0, false)).2, stash := q.msg.stash, way := m.way }] := by
  obtain ⟨still, sound, -⟩ := id one
  have online := one.online (d := d) (by rw [linkOf, src, dst]; rfl)
  have arrived := one.arrived_take
  have goes := Run.message_packet one
  set r := (Run.start s).linkBuffer m with hr
  obtain ⟨net, lineq, -⟩ := arrived.rest
  have like := arrived.homeLike
  have queueR : (r.take m).queue m.line.toNat = [q] := by
    rw [Run.queue, State.queue, lineq]
    exact queue
  have off := (r.take m).direnOff ((like.fld (f := HOME_CFG_DIREN) arrivalArea_HOME_CFG).trans diren)
  have delivers : r.deliver m = r.homeStash m := by simp only [Run.deliver, dst, homeOf, kind, msgClass]
  set u := (r.take m).setFiltEntry (l3Key d m.line m.way) (some ⟨m.line, .X, none⟩) with hu
  have writes : (r.take m).filtWrite d m.line m.way (some .X) = u := (r.take m).filtWrite_unarmed d.isLt m.line m.way (some .X) (like.uninjected sound).1
  have keeps : u.rewriteDir m.line q 0 = u := by
    have offU : u.on HOME_CFG_DIREN = false := off
    unfold Run.rewriteDir
    simp only [offU, Bool.false_eq_true, false_and, if_false]
    split <;> rfl
  set send : Msg :=
    { kind := .datStash, src := homeOf m.line, dst := .die d, line := m.line, data := (q.dirty.getD (0, false)).1, poison := (q.dirty.getD (0, false)).2,
      stash := q.msg.stash, way := m.way } with hsend
  set t := (u.setQueue m.line.toNat [{ q with phase := .waitAck }]).send send with ht
  have accepts : r.homeStash m = t := by
    have heads : u.setHead m.line { q with phase := .waitAck } = u.setQueue m.line.toNat [{ q with phase := .waitAck }] := u.setHead_one queueR _
    unfold Run.homeStash
    simp only [queueR, phase, target, kind, src, writes, keeps, heads, ne_eq, not_true_eq_false, or_self, if_false, ht, hsend]
  have sent : t.1.net = [send] := by simp [ht, hu, net]
  have ends : t.done = .next t.1 := (((arrived.settledLike.setFiltEntry _ _).setQueue _ _).send _).done_one still sent fun j hj => by
    cases hj
    exact online
  refine ⟨t.1, ?_, by simp [ht, hu], by simp [ht], by rw [sent, hsend, dst]⟩
  show ((Run.start s).message .stashAcc (s.packet m)).done = _
  rw [← kind, goes, delivers, accepts, ends]

/-- A declined line goes to memory. -/
theorem stash_declined (m : Msg) (q : HReq) (c : Fin 24) (la : Nat) (s : State) (one : s.oneMsg m) (kind : m.kind = .stashDec) (dst : m.dst = homeOf m.line)
    (queue : s.queue m.line.toNat = [q]) (phase : q.phase = .waitStash) (target : stashDie q.msg.stash = some m.src) (to_ : q.to_ = .dram c la) :
    ∃ t, exec (.stashdec (s.packet m)) s = .next t ∧ t.queue m.line.toNat = [{ q with phase := .waitMAck }] ∧
      t.net = [{ kind := .mWr, src := m.dst, dst := .chan c, line := m.line, data := (q.dirty.getD (0, false)).1, poison := (q.dirty.getD (0, false)).2, la := la }] := by
  obtain ⟨still, -⟩ := id one
  have arrived := one.arrived_take
  have goes := Run.message_packet one
  set r := (Run.start s).linkBuffer m with hr
  obtain ⟨net, lineq, -⟩ := arrived.rest
  have queueR : (r.take m).queue m.line.toNat = [q] := by
    rw [Run.queue, State.queue, lineq]
    exact queue
  have delivers : r.deliver m = r.homeStash m := by simp only [Run.deliver, dst, homeOf, kind, msgClass]
  set write : Msg :=
    { kind := .mWr, src := homeOf m.line, dst := .chan c, line := m.line, data := (q.dirty.getD (0, false)).1, poison := (q.dirty.getD (0, false)).2,
      la := la } with hwrite
  set t := ((r.take m).setQueue m.line.toNat [{ q with phase := .waitMAck }]).send write with ht
  have declines : r.homeStash m = t := by
    have chan : Fin.ofNat 24 c.val = c := Fin.ofNat_val_eq_self c
    unfold Run.homeStash
    simp only [queueR, phase, target, kind, to_, (r.take m).setHead_one queueR, Run.putMem_dram, chan, ne_eq, not_true_eq_false, or_self, if_false]
    rw [← to_]
  have sent : t.1.net = [write] := by simp [ht, net]
  have ends : t.done = .next t.1 := ((arrived.settledLike.setQueue _ _).send _).done_one still sent fun j hj => by cases hj
  refine ⟨t.1, ?_, by simp [ht], by rw [sent, hwrite, dst]⟩
  show ((Run.start s).message .stashDec (s.packet m)).done = _
  rw [← kind, goes, delivers, declines, ends]

/-! ### The data -/

/-- A quadrant that is not disabled, with nothing waiting, has nothing to give up and nothing to try again. -/
theorem Run.go_release_retry (r : Run s0) {d : Nat} {l : LineAddr} (on : r.l3Off d l = false) (waiting : (r.quad (d * 4 + quadOf l)).waiting = [])
    (miss : (r.quad (d * 4 + quadOf l)).miss = []) (noSwop : r.1.noSwop) : r.go [.release d l, .retry (d * 4 + quadOf l)] = r := by
  have quarter := quadOf_lt l
  obtain ⟨die, place⟩ : (d * 4 + quadOf l) / 4 = d ∧ (d * 4 + quadOf l) % 4 = quadOf l := by omega
  have keeps : r.doRelease d l = (r, []) := by simp only [Run.doRelease, on, Bool.not_false, Bool.true_or, if_true]
  have rests : r.doRetry (d * 4 + quadOf l) = (r, []) := by
    have off : (r.bit (L3_STATUS_DISABLED d) (quadOf l) || r.bit (L3_STATUS_CACHE_DISABLE_PENDING d) (quadOf l)) = false := on
    simp only [Run.doRetry, waiting, miss, die, place, off, List.isEmpty_nil, if_true, List.foldl_nil, Bool.false_eq_true, if_false, List.map_nil,
      List.nil_append, List.append_nil]
    refine congrArg (Prod.mk r) (List.filterMap_eq_nil_iff.2 fun p hp => ?_)
    have calm := List.all_eq_true.1 noSwop p hp
    split
    · split
      next swops => simp [swops] at calm
      next => rfl
    · rfl
  have bound : driveBound = 19997 + 1 + 1 + 1 := rfl
  rw [Run.go, bound]
  simp only [Run.drive, keeps, rests, List.nil_append]

/-- A line goes into a slot of an L3 as it is, where no injection is armed. -/
theorem Run.l3Write_unarmed (r : Run s0) {d w : Nat} {x : L3Slot} (data : r.1.fld (ARR_FLIP_ARM d (128 + quadOf x.line * 3)) = 0)
    (tag : r.1.fld (ARR_FLIP_ARM d (128 + quadOf x.line * 3 + 1)) = 0) : r.l3Write d w x true = r.setL3Slot (l3Key d x.line w) (some x) := by
  unfold Run.l3Write
  simp only [r.armTake_unarmed data, r.armTake_unarmed tag, if_true, mkFlip, Option.isSome_none, Bool.or_false]

/-- A die installs stash data in the way that it has reserved, and acknowledges it. -/
theorem Run.dieStashData_installs (u : Run s0) {m : Msg} {d : Fin 16} {x : QMiss} (stash : m.stash = some (.die d))
    (quad : u.quad (d * 4 + quadOf m.line) = { miss := [x], vict := [], waiting := [] }) (line : x.line = m.line) (noTiles : x.tiles = [])
    (noSwop : u.1.noSwop) (on : u.l3Off d m.line = false) (data : u.1.fld (ARR_FLIP_ARM d (128 + quadOf m.line * 3)) = 0)
    (tag : u.1.fld (ARR_FLIP_ARM d (128 + quadOf m.line * 3 + 1)) = 0) :
    let q := u.modQuad (d * 4 + quadOf m.line) fun y => { y with miss := y.miss.filter (·.line ≠ m.line) }
    u.dieStashData d m = (q.setL3Slot (l3Key d m.line x.way) (some { line := m.line, st := .M, cv := 0, part := x.part, data := m.data, poison := m.poison })).send
        { kind := .ack, src := .die d, dst := m.src, line := m.line } ∧
      (q.quad (d * 4 + quadOf m.line)).miss = [] := by
  intro q
  have die : Fin.ofNat 16 d.val = d := Fin.ofNat_val_eq_self d
  have found : (u.quad (d * 4 + quadOf m.line)).miss.find? (·.line = m.line) = some x := by simp [quad, line]
  have after_ : q.quad (d * 4 + quadOf m.line) = { miss := [], vict := [], waiting := [] } := by
    rw [Run.quad_modQuad, if_pos rfl, quad]
    simp [line]
  set slot : L3Slot := { line := m.line, st := .M, cv := 0, part := x.part, data := m.data, poison := m.poison } with hslot
  have writes : q.l3Write d x.way slot true = q.setL3Slot (l3Key d m.line x.way) (some slot) := q.l3Write_unarmed (x := slot) data tag
  set t := (q.setL3Slot (l3Key d m.line x.way) (some slot)).send { kind := .ack, src := .die d, dst := m.src, line := m.line } with ht
  have rests : t.go [.release d m.line, .retry (d * 4 + quadOf m.line)] = t :=
    t.go_release_retry on (congrArg Quad.waiting after_) (congrArg Quad.miss after_) noSwop
  refine ⟨?_, congrArg Quad.miss after_⟩
  unfold Run.dieStashData
  simp only [found, stash, noTiles, die, List.map_nil, List.nil_append]
  rw [← hslot, writes, ← ht, rests]

/-- Stash data is installed in M and acknowledged. -/
theorem stash_installed (m : Msg) (d : Fin 16) (k : Fin 4) (x : QMiss) (s : State) (one : s.oneMsg m) (kind : m.kind = .datStash) (src : m.src = .home k)
    (dst : m.dst = .die d) (stash : m.stash = some (.die d)) (quad : s.quad (d * 4 + quadOf m.line) = { miss := [x], vict := [], waiting := [] })
    (line : x.line = m.line) (noTiles : x.tiles = []) (_ : x.way < 16) (noSwop : s.noSwop) (on : (Run.start s).l3Off d m.line = false)
    (data : s.fld (ARR_FLIP_ARM d (128 + quadOf m.line * 3)) = 0) (tag : s.fld (ARR_FLIP_ARM d (128 + quadOf m.line * 3 + 1)) = 0) :
    ∃ t, exec (.datstash (s.packet m)) s = .next t ∧ (t.quad (d * 4 + quadOf m.line)).miss = [] ∧
      t.l3Slot (l3Key d m.line x.way) = some { line := m.line, st := .M, cv := 0, part := x.part, data := m.data, poison := m.poison } ∧
      t.net = [{ kind := .ack, src := .die d, dst := .home k, line := m.line }] := by
  obtain ⟨still, -⟩ := id one
  have quarter := quadOf_lt m.line
  have arrived := one.arrived_take
  have goes := Run.message_packet one
  set r := (Run.start s).linkBuffer m with hr
  obtain ⟨net, -, harts, -⟩ := arrived.rest
  have calm : (r.take m).1.noSwop := by
    rw [State.noSwop, harts]
    exact noSwop
  have dataR := (arrived.fld (f := ARR_FLIP_ARM d (128 + quadOf m.line * 3)) (arrivalArea_die_array d.isLt (by omega))).trans data
  have tagR := (arrived.fld (f := ARR_FLIP_ARM d (128 + quadOf m.line * 3 + 1)) (arrivalArea_die_array d.isLt (by omega))).trans tag
  have delivers : r.deliver m = (r.take m).dieStashData d m := by simp only [Run.deliver, dst, src, kind]
  obtain ⟨installs, empty⟩ := (r.take m).dieStashData_installs stash ((arrived.quad _).trans quad) line noTiles calm ((arrived.l3Off d m.line).trans on) dataR tagR
  have like := arrived.settledLike.modQuad (d * 4 + quadOf m.line) fun y => { y with miss := y.miss.filter (·.line ≠ m.line) }
  have netQ := State.net_modQuad (r.take m) (d * 4 + quadOf m.line) fun y => { y with miss := y.miss.filter (·.line ≠ m.line) }
  generalize (r.take m).modQuad (d * 4 + quadOf m.line) (fun y => { y with miss := y.miss.filter (·.line ≠ m.line) }) = q at installs empty like netQ
  set answer : Msg := { kind := .ack, src := .die d, dst := .home k, line := m.line } with hanswer
  set t := (q.setL3Slot (l3Key d m.line x.way) (some { line := m.line, st := .M, cv := 0, part := x.part, data := m.data, poison := m.poison })).send answer with ht
  have sent : t.1.net = [answer] := by simp [ht, netQ, net]
  have ends : t.done = .next t.1 := ((like.setL3Slot _ _).send _).done_one still sent fun j hj => by cases hj
  refine ⟨t.1, ?_, empty, by simp [ht], sent⟩
  show ((Run.start s).message .datStash (s.packet m)).done = _
  rw [← kind, goes, delivers, installs, src, ← hanswer, ← ht, ends]

/-- Settles O17: an offer reserves a way; its acceptance sends the data, which is installed and acknowledged; a declined line goes to memory. -/
theorem stashesComplete : Obligations.StashesComplete := ⟨offer_accepted, stash_sent, stash_declined, stash_installed⟩

end Sys2Proof.Machine

/-! An acknowledgement that frees a victim buffer on which a miss waits, and a grant to a tile whose copy holds an error (R127, R134, R135, R150, R475). -/
namespace Sys2Proof.Machine

/-- Die 0 is online. -/
def die0State : State := { State.reset with regs := [((RLINK_STAT 0).off, 4)], pins := { porst := false } }

/-- The home's acknowledgement of an eviction of line 0 by die 0. -/
def evAckMsg : Msg := { kind := .evAck, src := .home 0, dst := .die 0, line := 0 }

/-- The acknowledgement arrives while a miss of line 0xA000 waits in the same quadrant for a slot (R134). -/
def evAckState : State :=
  { die0State with
    net := [evAckMsg]
    quads := [(0, { miss := [{ line := 0xA000, way := 0, kind := .rdS, tiles := [(1, .rdS)], placed := false }],
                    vict := [{ line := 0, st := .M, data := 0, poison := false }] })] }

/-- The miss that waited finds a slot, and its request is sent. -/
theorem evAckState_sends {t : State} (e : exec (.evack (evAckState.packet evAckMsg)) evAckState = .next t) : t.net.isEmpty = false := by
  have sends : (match exec (.evack (evAckState.packet evAckMsg)) evAckState with | .next t => t.net.isEmpty | _ => true) = false := by decide +kernel
  rw [e] at sends
  exact sends

/-- Refutes O15: its second clause lets the acknowledgement of an eviction leave no message in flight, but in `evAckState` a miss has waited for a slot,
and its request for the line goes out with the retry that the acknowledgement sets off. -/
theorem not_evictionsComplete : ¬ Obligations.EvictionsComplete := by
  unfold Obligations.EvictionsComplete
  rintro ⟨-, acknowledged, -⟩
  obtain ⟨t, e, net, -⟩ := acknowledged evAckMsg 0 evAckState (by decide +kernel) rfl rfl (fun _ => nofun) rfl (by decide +kernel)
  have sends := evAckState_sends e
  rw [net] at sends
  exact Bool.false_ne_true sends.symm

/-- A grant of E without data, of line 0 to die 0. -/
def gntEMsg : Msg := { kind := .gntE, src := .home 0, dst := .die 0, line := 0 }

/-- The L3 slot of line 0 in die 0, with tile 0 named. -/
def sharedSlot : L3Slot := { line := 0, st := .S, cv := 1, part := 0, data := 0 }

/-- The copy of line 0 in the L2 of tile 0: one of its stored bits has flipped (R475). -/
def flippedCopy : L2Slot := { line := 0, st := .S, data := 0, flip := some ⟨0, 1, 0⟩ }

/-- The grant arrives for a prefetch of tile 0, which asked to own its copy. -/
def gntEState : State :=
  { die0State with
    net := [gntEMsg]
    quads := [(0, { miss := [{ line := 0, way := 0, kind := .upg, tiles := [(0, .upg)] }] })]
    tiles := [(0, { miss := [{ line := 0, own := true, sent := true, want := [.prefetch false] }] })]
    l2 := [(l2Key 0 0 0, flippedCopy)]
    l3 := [(l3Key 0 0 0, sharedSlot)] }

/-- The L2 takes the line's data from the L3, so that its copy holds no error. -/
theorem gntEState_mends {t : State} (e : exec (.gnte (gntEState.packet gntEMsg)) gntEState = .next t) :
    (t.l2Slot (l2Key 0 0 0)).bind (·.flip) = none := by
  have mends : (match exec (.gnte (gntEState.packet gntEMsg)) gntEState with | .next t => (t.l2Slot (l2Key 0 0 0)).bind (·.flip) | _ => some ⟨0, 0, 0⟩) = none := by
    decide +kernel
  rw [e] at mends
  exact mends

/-- Refutes O19: its second clause keeps the error stored with the copy of the tile that is granted ownership, but in `gntEState` the copy is written anew
with the data of the L3, which ends the error. -/
theorem not_grantsComplete : ¬ Obligations.GrantsComplete := by
  unfold Obligations.GrantsComplete
  rintro ⟨-, owned⟩
  obtain ⟨t, e, -, -, -, -, copy⟩ := owned gntEMsg 0 0 0 0 0 { line := 0, way := 0, kind := .upg, tiles := [(0, .upg)] } sharedSlot flippedCopy gntEState
    (by decide +kernel) rfl rfl rfl (by decide +kernel) (by decide +kernel) rfl rfl (by decide +kernel) (.gnte (gntEState.packet gntEMsg), .gntE, .E)
    List.mem_cons_self rfl
  have mends := gntEState_mends e
  rw [show t.l2Slot (l2Key 0 0 0) = _ from copy] at mends
  exact nomatch mends

end Sys2Proof.Machine

/-! A die reset may reach a hart that waits on a reservation, and a hart beyond the package's last has its power domain elsewhere in the window
(R81, R212, R216, R425, R528). -/
namespace Sys2Proof.Machine

/-- Die 0 owes the home of line 0 an Ack, behind which Foxglove's CBO.INVAL for a peer's line waits. Hart 46832 is parked until it loses its
reservation on the line; its tile, 11708, is of no die of the package, and the offset of its domain's DOM.STAT is that of RLINK[0].RESET. -/
def lostReservationState : State :=
  { State.reset with
    harts := [(46832, { run := .parked, resv := some 0, park := some { kind := .wrsNto, mon := true, rd := 0, depth := 0, deadline := none, delta := 0 } })]
    lineq := [(0, [{ msg := { kind := .rdS, src := .die 0, dst := homeOf 0, line := 0 }, to_ := .dram 0 0, phase := .waitAck },
      { msg := { kind := .cboI, src := .fox, dst := homeOf 0, line := 0 }, to_ := .peer 0 }])]
    pins := { porst := false } }

/-- A die reset of die 0 with TILES 3: the fence gives the Ack, the CBO.INVAL ends the reservation, and the hart's tile, which TILES shows as gated,
is woken, so that TILES is 1. -/
theorem lostReservationState_tiles {t : State}
    (e : exec (.registerWrite .fox (BitVec.ofNat 40 (RLINK_RESET 0).off) .full 0x8000000000000003) lostReservationState = .next t) :
    t.fld (RLINK_RESET_TILES 0) = 1 := by
  have ends : (match exec (.registerWrite .fox (BitVec.ofNat 40 (RLINK_RESET 0).off) .full 0x8000000000000003) lostReservationState with
      | .next t => t.fld (RLINK_RESET_TILES 0)
      | _ => 0) = 1 := by decide +kernel
  rw [e] at ends
  exact ends

/-- Refutes O59: its second clause bounds no hart's number, and in `lostReservationState` the die reset that it starts wakes a tile whose domain lies
on RLINK[0].RESET, so that TILES is not what was written. -/
theorem not_resetRequestsAreJudged : ¬ Obligations.ResetRequestsAreJudged := by
  unfold Obligations.ResetRequestsAreJudged
  rintro ⟨-, proceeds⟩
  obtain ⟨t, e, -, -, tiles, -⟩ := proceeds .fox 0 0x8000000000000003 lostReservationState ⟨rfl, rfl, List.forall_mem_nil _, List.forall_mem_nil _⟩
    ⟨rfl, rfl, rfl⟩ rfl (by decide +kernel) (by decide) (by decide +kernel) (by decide) (fun kind => absurd kind (by decide)) (by decide)
  have written : Word.bits (0x8000000000000003 : Word) 15 0 = 3 := by decide
  exact absurd ((lostReservationState_tiles e).symm.trans (tiles.trans written)) (by decide)

end Sys2Proof.Machine

/-! A check unit under test (R204, R208, R496): where its registers lie, and what bytes do to its running code. -/
namespace Sys2Proof.Machine

variable {s0 : State}

/-! ### The running code -/

theorem crcBit_lt {poly c : Nat} (b : Bool) (hc : c < 2 ^ 32) : crcBit poly c b < 2 ^ 32 := by
  have half : c / 2 < 2 ^ 32 := Nat.lt_of_le_of_lt (Nat.div_le_self c 2) hc
  unfold crcBit
  dsimp only
  split
  · exact Nat.xor_lt_two_pow half (by split <;> decide)
  · split
    · exact Nat.xor_lt_two_pow half (by split <;> decide)
    · exact Nat.xor_lt_two_pow (Nat.lt_of_lt_of_le (Nat.mod_lt _ (by decide)) (by decide)) (by split <;> decide)

/-- A running code stays one of 32 bits. -/
theorem crcByte_lt {poly c : Nat} (byte : Nat) (hc : c < 2 ^ 32) : crcByte poly c byte < 2 ^ 32 :=
  List.foldlRecOn (motive := (· < 2 ^ 32)) _ _ hc fun _ hc _ _ => crcBit_lt _ hc

theorem crcBytes_lt {poly c : Nat} (bytes : List Nat) (hc : c < 2 ^ 32) : bytes.foldl (crcByte poly) c < 2 ^ 32 :=
  List.foldlRecOn (motive := (· < 2 ^ 32)) _ _ hc fun _ hc _ _ => crcByte_lt _ hc

/-! ### Where the registers of a check unit lie -/

/-- A unit that exists is that of a tile, of a stop of a compute die, or of the IOD. -/
theorem chkUnit_cases {die stop : Nat} {u : ChkUnit} (unit : chkUnit die stop = some u) :
    (∃ n < 256, u = .tile n ∧ n / 16 = die) ∨ (∃ n < 22, die < 16 ∧ u = .die die n) ∨ (∃ n < 122, u = .iod n) := by
  unfold chkUnit at unit
  split at unit
  · split at unit
    · cases unit
      exact .inl ⟨_, by omega, rfl, by omega⟩
    · split at unit
      · cases unit
        exact .inr (.inl ⟨_, ‹_›, ‹_›, rfl⟩)
      · cases unit
  · split at unit
    · cases unit
      exact .inr (.inr ⟨_, by omega, rfl⟩)
    · cases unit

/-- Each register of a unit of a compute die or of the IOD lies in the unit's 8 KiB. -/
theorem ChkUnit.off_within (k : Nat) : ∃ o ≤ 0x1008, (∀ d n, (ChkUnit.die d n).off k = dieBase d + 0x10200000 + n * 0x2000 + o) ∧
    ∀ n, (ChkUnit.iod n).off k = 0x1000100000 + n * 0x2000 + o := by
  refine ⟨match k with | 0 => 0xFF0 | 1 => 0xFF8 | 2 => 0x1000 | _ => 0x1008, ?_, fun _ _ => rfl, fun _ => rfl⟩
  split <;> decide

/-- Each register of a unit lies on the unit's die, or on the IOD behind the links' registers. -/
theorem chkUnit_off {die stop : Nat} {u : ChkUnit} (unit : chkUnit die stop = some u) {k : Nat} (hk : k < 4) :
    (u.off k < 2 ^ 36 ∧ u.off k / 2 ^ 32 = die ∧ die < 16 ∨ 0x1000100000 ≤ u.off k ∧ u.off k < 0x1000400000) ∧ noLink (u.off k) := by
  obtain ⟨o, ho, dies, iods⟩ := ChkUnit.off_within k
  rcases chkUnit_cases unit with ⟨n, hn, rfl, rfl⟩ | ⟨n, hn, hd, rfl⟩ | ⟨n, hn, rfl⟩
  · have at_ : (ChkUnit.tile n).off k = tileBase n + 0x500000 + k * 8 := rfl
    rw [at_, tileBase]
    refine ⟨.inl (by omega), fun d hd => ?_⟩
    simp only [RLINK_STAT]
    omega
  · rw [dies, dieBase]
    refine ⟨.inl (by omega), fun d hd => ?_⟩
    simp only [RLINK_STAT]
    omega
  · rw [iods]
    refine ⟨.inr (by omega), fun d hd => ?_⟩
    simp only [RLINK_STAT]
    omega

/-- A register of a check unit at which a full write acts: of a family named so, and the unit's own. -/
def ChkUnit.answers (u : ChkUnit) (k : Nat) (nm : RegName) : Bool :=
  (findReg (u.off k)).any (·.1.name == nm) && u.off k % 8 == 0 && Machine.decoded (u.off k) && (imsicPage (u.off k)).isNone && chkAt (u.off k) == some u

/-- DATA and DATAN of every unit are where the register map has them (R496). -/
theorem chkUnit_answers : ∀ die : Fin 17, ∀ stop : Fin 256, ∀ u ∈ chkUnit die stop, u.answers 2 .CHK_DATA = true ∧ u.answers 3 .CHK_DATAN = true := by
  decide +kernel

/-- The registers of the IOD between the group's and those of the secure blocks are not secure-held (R392). -/
theorem Run.secHeld_chk (r : Run s0) {off : Nat} (h : off < 2 ^ 36 ∨ 0x1000100000 ≤ off ∧ off < 0x1000400000) : r.secHeld off = false := by
  unfold Run.secHeld
  dsimp only
  rw [if_neg (by omega), if_neg (by omega), if_neg (by omega)]
  simp only [SEC_GRPWORLD, SEC_IDRANGE, WDOG_CTL, MBX_STAT, List.mem_cons, List.not_mem_nil, or_false, decide_eq_false_iff_not]
  omega

/-! ### The write reaches the unit -/

theorem chkFamilies_notRwq : ∀ f ∈ families, f.name ∈ [RegName.CHK_DATA, .CHK_DATAN] → ∀ x ∈ f.fields, x.acc.q = false := by decide +kernel

/-- A write that reaches DATA or DATAN feeds its bytes. -/
theorem Run.regPut_chk (r : Run s0) (q : Requester) {f : Family} (ix : List Nat) {off : Nat} {u : ChkUnit} (v : Word) (member : f ∈ families)
    (unit : chkAt off = some u) :
    (f.name = .CHK_DATA → r.regPut q f ix off (BitVec.allOnes 64) v = r.wChkData u v) ∧
      (f.name = .CHK_DATAN → r.regPut q f ix off (BitVec.allOnes 64) v = r.wChkDatan u v) := by
  have idle : f.name ∈ [RegName.CHK_DATA, .CHK_DATAN] → ∀ old mask, changesRwq f.fields old v mask = false := fun named old mask =>
    changesRwq_of_notRwq old v mask (chkFamilies_notRwq f member named)
  constructor
  · intro name
    have idle := idle (by simp [name])
    unfold Run.regPut Run.regRefuse
    simp [name, idle, unit]
  · intro name
    have idle := idle (by simp [name])
    unfold Run.regPut Run.regRefuse
    simp [name, idle, unit]

/-- A full write of DATA or DATAN of a unit feeds its bytes, where the unit's die is online. -/
theorem Run.write_chk (r : Run s0) (q : Requester) {die : Fin 17} {stop : BitVec 8} {u : ChkUnit} (v : Word) (w : r.1.writer q)
    (unit : chkUnit die stop.toNat = some u) (online : die.val < 16 → r.1.online die = true) :
    r.write q (CHK_DATA u) v = r.wChkData u v ∧ r.write q (CHK_DATAN u) v = r.wChkDatan u v := by
  obtain ⟨data, datan⟩ := chkUnit_answers die ⟨stop.toNat, stop.isLt⟩ u unit
  have reach : ∀ k < 4, ∀ nm, u.answers k nm = true →
      ∃ f ix, f ∈ families ∧ f.name = nm ∧ chkAt (u.off k) = some u ∧ r.regWrite q (u.off k) .full v = r.regPut q f ix (u.off k) (BitVec.allOnes 64) v := by
    intro k hk nm answers
    obtain ⟨place, -⟩ := chkUnit_off unit hk
    simp only [ChkUnit.answers, Bool.and_eq_true, Option.any_eq_true, beq_iff_eq, Option.isNone_iff_eq_none] at answers
    obtain ⟨⟨⟨⟨⟨⟨f, ix⟩, find, name⟩, whole⟩, decodes⟩, page⟩, at_⟩ := answers
    refine ⟨f, ix, (findReg_mem find).1, name, at_, r.regWrite_full q v w find whole decodes page (fun low => ?_) ?_⟩
    · obtain ⟨-, here, hd⟩ | ⟨high, -⟩ := place
      · rw [here]
        exact online hd
      · omega
    · rw [r.secHeld_chk (place.imp_left And.left), Bool.false_and]
  constructor
  · obtain ⟨f, ix, member, name, at_, put⟩ := reach 2 (by decide) _ data
    exact put.trans ((r.regPut_chk q ix v member at_).1 name)
  · obtain ⟨f, ix, member, name, at_, put⟩ := reach 3 (by decide) _ datan
    exact put.trans ((r.regPut_chk q ix v member at_).2 name)

/-! ### The bytes enter the code -/

@[simp] theorem CHK_RUN_RUN_place (u : ChkUnit) :
    (CHK_RUN_RUN u).reg = CHK_RUN u ∧ (CHK_RUN_RUN u).hi = 31 ∧ (CHK_RUN_RUN u).lo = 0 ∧ (CHK_RUN_RUN u).fits = true :=
  ⟨rfl, rfl, rfl, by simp only [FRef.fits_iff, CHK_RUN_RUN, CHK_RUN]; decide⟩

theorem CHK_CTL_off_ne (u : ChkUnit) : (CHK_CTL u).off ≠ (CHK_RUN u).off := by
  cases u <;> simp [CHK_CTL, CHK_RUN, ChkUnit.off]

/-- Bytes fed to a unit under test enter its running code, and nothing else changes. -/
theorem chkFeed_completes {die stop : Nat} {u : ChkUnit} (bytes : List Nat) (s : State) (still : s.still) (unit : chkUnit die stop = some u)
    (test : s.fld (CHK_CTL_TEST u) = 1) :
    ∃ t, ((Run.start s).chkFeed u bytes).done = .next t ∧
      t.fld (CHK_RUN_RUN u) = bytes.foldl (crcByte ((Run.start s).polyOf u)) (s.fld (CHK_RUN_RUN u)) ∧ t.fld (CHK_CTL_TEST u) = 1 ∧ t.net = s.net := by
  have on : (Run.start s).on (CHK_CTL_TEST u) = true := by simp [Run.on, Run.fld, test]
  have feeds : (Run.start s).chkFeed u bytes =
      (Run.start s).setFld (CHK_RUN_RUN u) (bytes.foldl (crcByte ((Run.start s).polyOf u)) (s.fld (CHK_RUN_RUN u))) := if_pos on
  have marks : Run.marks noLink (Run.start s) ((Run.start s).chkFeed u bytes) := feeds ▸ Run.marks_setFld _ _ (chkUnit_off unit (by decide)).2
  refine ⟨_, Run.done_marks still marks, ?_, ?_, by rw [feeds]; rfl⟩
  · rw [feeds]
    exact Run.fld_setFld_lt _ (by simp) (crcBytes_lt bytes (s.fld_lt (CHK_RUN_RUN u)))
  · rw [feeds, Run.fld_setFld_other _ (CHK_RUN_RUN u) (CHK_CTL_TEST u) _ (CHK_CTL_off_ne u)]
    exact test

/-- Settles O30: the write reaches the unit that the stop names, whose running code takes the bytes one after another. -/
theorem checkUnitsComplete : Obligations.CheckUnitsComplete := by
  unfold Obligations.CheckUnitsComplete
  constructor <;> intro q die stop u v s still w unit online test _
  · have begins : exec (.chkData q die stop v) s = ((Run.start s).wChkData u v).done := by
      show execChkData q die stop v s = _
      simp only [execChkData, unit, ((Run.start s).write_chk q v w unit online).1]
    rw [begins]
    exact chkFeed_completes _ s still unit test
  · have begins : exec (.chkDatan q die stop v) s = ((Run.start s).wChkDatan u v).done := by
      show execChkDatan q die stop v s = _
      simp only [execChkDatan, unit, ((Run.start s).write_chk q v w unit online).2]
    rw [begins]
    exact chkFeed_completes _ s still unit test

end Sys2Proof.Machine

/-! The registers of a link and the state of its dies (R192 to R203, R211 to R221): where fields lie, what a write of one leaves, and how a command on
a link ends. -/
namespace Sys2Proof.Machine

variable {s0 : State}

/-! ### Where fields lie -/

@[simp] theorem RLINK_FAULTMAP_UP_place (d : Nat) :
    (RLINK_FAULTMAP_UP d).reg = RLINK_FAULTMAP d ∧ (RLINK_FAULTMAP_UP d).hi = 17 ∧ (RLINK_FAULTMAP_UP d).lo = 0 ∧ (RLINK_FAULTMAP_UP d).fits = true :=
  ⟨rfl, rfl, rfl, by simp only [FRef.fits_iff, RLINK_FAULTMAP_UP, RLINK_FAULTMAP]; decide⟩

@[simp] theorem RLINK_FAULTMAP_DN_place (d : Nat) :
    (RLINK_FAULTMAP_DN d).reg = RLINK_FAULTMAP d ∧ (RLINK_FAULTMAP_DN d).hi = 49 ∧ (RLINK_FAULTMAP_DN d).lo = 32 ∧ (RLINK_FAULTMAP_DN d).fits = true :=
  ⟨rfl, rfl, rfl, by simp only [FRef.fits_iff, RLINK_FAULTMAP_DN, RLINK_FAULTMAP]; decide⟩

@[simp] theorem RLINK_FAULTMAP_RSTA_place (d : Nat) :
    (RLINK_FAULTMAP_RSTA d).reg = RLINK_FAULTMAP d ∧ (RLINK_FAULTMAP_RSTA d).hi = 62 ∧ (RLINK_FAULTMAP_RSTA d).lo = 62 ∧
      (RLINK_FAULTMAP_RSTA d).fits = true :=
  ⟨rfl, rfl, rfl, by simp only [FRef.fits_iff, RLINK_FAULTMAP_RSTA, RLINK_FAULTMAP]; decide⟩

@[simp] theorem RLINK_STAT_LASTCAUSE_place (d : Nat) :
    (RLINK_STAT_LASTCAUSE d).reg = RLINK_STAT d ∧ (RLINK_STAT_LASTCAUSE d).hi = 35 ∧ (RLINK_STAT_LASTCAUSE d).lo = 32 ∧
      (RLINK_STAT_LASTCAUSE d).fits = true :=
  ⟨rfl, rfl, rfl, by simp only [FRef.fits_iff, RLINK_STAT_LASTCAUSE, RLINK_STAT]; decide⟩

@[simp] theorem RLINK_STAT_JOINS_place (d : Nat) :
    (RLINK_STAT_JOINS d).reg = RLINK_STAT d ∧ (RLINK_STAT_JOINS d).hi = 63 ∧ (RLINK_STAT_JOINS d).lo = 48 ∧ (RLINK_STAT_JOINS d).fits = true :=
  ⟨rfl, rfl, rfl, by simp only [FRef.fits_iff, RLINK_STAT_JOINS, RLINK_STAT]; decide⟩

@[simp] theorem RLINK_STAT_UPW_place (d : Nat) :
    (RLINK_STAT_UPW d).reg = RLINK_STAT d ∧ (RLINK_STAT_UPW d).hi = 23 ∧ (RLINK_STAT_UPW d).lo = 19 ∧ (RLINK_STAT_UPW d).fits = true :=
  ⟨rfl, rfl, rfl, by simp only [FRef.fits_iff, RLINK_STAT_UPW, RLINK_STAT]; decide⟩

@[simp] theorem RLINK_STAT_DNW_place (d : Nat) :
    (RLINK_STAT_DNW d).reg = RLINK_STAT d ∧ (RLINK_STAT_DNW d).hi = 18 ∧ (RLINK_STAT_DNW d).lo = 14 ∧ (RLINK_STAT_DNW d).fits = true :=
  ⟨rfl, rfl, rfl, by simp only [FRef.fits_iff, RLINK_STAT_DNW, RLINK_STAT]; decide⟩

@[simp] theorem RLINK_ERRCNT_REPLAYS_place (d : Nat) :
    (RLINK_ERRCNT_REPLAYS d).reg = RLINK_ERRCNT d ∧ (RLINK_ERRCNT_REPLAYS d).hi = 31 ∧ (RLINK_ERRCNT_REPLAYS d).lo = 0 ∧
      (RLINK_ERRCNT_REPLAYS d).fits = true :=
  ⟨rfl, rfl, rfl, by simp only [FRef.fits_iff, RLINK_ERRCNT_REPLAYS, RLINK_ERRCNT]; decide⟩

@[simp] theorem RLINK_ERRCNT_RETRAINS_place (d : Nat) :
    (RLINK_ERRCNT_RETRAINS d).reg = RLINK_ERRCNT d ∧ (RLINK_ERRCNT_RETRAINS d).hi = 47 ∧ (RLINK_ERRCNT_RETRAINS d).lo = 32 ∧
      (RLINK_ERRCNT_RETRAINS d).fits = true :=
  ⟨rfl, rfl, rfl, by simp only [FRef.fits_iff, RLINK_ERRCNT_RETRAINS, RLINK_ERRCNT]; decide⟩

@[simp] theorem RLINK_RESET_BUSY_place (d : Nat) :
    (RLINK_RESET_BUSY d).reg = RLINK_RESET d ∧ (RLINK_RESET_BUSY d).hi = 62 ∧ (RLINK_RESET_BUSY d).lo = 62 ∧ (RLINK_RESET_BUSY d).fits = true :=
  ⟨rfl, rfl, rfl, by simp only [FRef.fits_iff, RLINK_RESET_BUSY, RLINK_RESET]; decide⟩

@[simp] theorem RLINK_RESET_KIND_place (d : Nat) :
    (RLINK_RESET_KIND d).reg = RLINK_RESET d ∧ (RLINK_RESET_KIND d).hi = 57 ∧ (RLINK_RESET_KIND d).lo = 56 ∧ (RLINK_RESET_KIND d).fits = true :=
  ⟨rfl, rfl, rfl, by simp only [FRef.fits_iff, RLINK_RESET_KIND, RLINK_RESET]; decide⟩

@[simp] theorem RLINK_RESET_ST_place (d : Nat) :
    (RLINK_RESET_ST d).reg = RLINK_RESET d ∧ (RLINK_RESET_ST d).hi = 23 ∧ (RLINK_RESET_ST d).lo = 16 ∧ (RLINK_RESET_ST d).fits = true :=
  ⟨rfl, rfl, rfl, by simp only [FRef.fits_iff, RLINK_RESET_ST, RLINK_RESET]; decide⟩

@[simp] theorem RLINK_RESET_TILES_place (d : Nat) :
    (RLINK_RESET_TILES d).reg = RLINK_RESET d ∧ (RLINK_RESET_TILES d).hi = 15 ∧ (RLINK_RESET_TILES d).lo = 0 ∧ (RLINK_RESET_TILES d).fits = true :=
  ⟨rfl, rfl, rfl, by simp only [FRef.fits_iff, RLINK_RESET_TILES, RLINK_RESET]; decide⟩

@[simp] theorem RLINK_CTL_ADMIT_place (d : Nat) :
    (RLINK_CTL_ADMIT d).reg = RLINK_CTL d ∧ (RLINK_CTL_ADMIT d).hi = 0 ∧ (RLINK_CTL_ADMIT d).lo = 0 ∧ (RLINK_CTL_ADMIT d).fits = true :=
  ⟨rfl, rfl, rfl, by simp only [FRef.fits_iff, RLINK_CTL_ADMIT, RLINK_CTL]; decide⟩

/-- The registers of a link lie in its page of the IOD; the copies that its die has of some lie on the die. -/
@[simp] theorem RLINK_offs (d : Nat) :
    (RLINK_STAT d).off = 0x10000b0000 + d * 0x1000 ∧ (RLINK_ERRCNT d).off = 0x10000b0008 + d * 0x1000 ∧
      (RLINK_FAULTMAP d).off = 0x10000b0010 + d * 0x1000 ∧ (RLINK_RESET d).off = 0x10000b0018 + d * 0x1000 ∧
      (RLINK_CTL d).off = 0x10000b0020 + d * 0x1000 := ⟨rfl, rfl, rfl, rfl, rfl⟩

/-- The lane map of a direction lies in the map of the link. -/
@[simp] theorem laneMap_place (d : Nat) (up : Bool) : (laneMap d up).reg = RLINK_FAULTMAP d ∧ (laneMap d up).hi = (laneMap d up).lo + 17 ∧
    (laneMap d up).lo = (if up then 0 else 32) ∧ (laneMap d up).fits = true := by
  cases up <;> simp [laneMap]

/-- A field of a register at another offset, or another field of the same register, keeps its value (R6). -/
theorem Run.fld_setFld_ne (r : Run s0) {f k : FRef} (v : Nat) (hf : f.fits = true) (hk : k.fits = true)
    (ne : k.reg.off ≠ f.reg.off ∨ k.reg = f.reg ∧ (k.hi < f.lo ∨ f.hi < k.lo)) : (r.setFld f v).1.fld k = r.1.fld k := by
  rcases ne with off | ⟨same, apart⟩
  · exact r.fld_setFld_other f k v off
  · exact r.fld_setFld_apart f k v hf hk same apart

/-- A die is online by its STATE alone, which a write at another offset leaves. -/
theorem Run.online_setFld_other (r : Run s0) {f : FRef} {k : Nat} (v : Nat) (h : (RLINK_STAT k).off ≠ f.reg.off) : (r.setFld f v).1.online k = r.1.online k := by
  rw [State.online, State.online, r.fld_setFld_other f (RLINK_STAT_STATE k) v h]

/-- A change of a die's own state leaves the registers. -/
@[simp] theorem Run.fld_modDie (r : Run s0) (d : Nat) (f : Die → Die) (k : FRef) : (r.modDie d f).1.fld k = r.1.fld k := rfl

@[simp] theorem Run.reg_modDie (r : Run s0) (d : Nat) (f : Die → Die) (g : Reg) : (r.modDie d f).1.reg g = r.1.reg g := rfl

/-! ### What a store lists after a write -/

theorem Sparse.mem_upd {α : Type} {m : Sparse α} {k : Nat} {v : Option α} {e : Nat × α} (h : e ∈ m.upd k v) : (e.1 = k ∧ v = some e.2) ∨ e ∈ m := by
  cases v with
  | none => exact .inr (Sparse.mem_del h)
  | some x =>
    rcases Sparse.mem_put h with rfl | h
    · exact .inl ⟨rfl, rfl⟩
    · exact .inr h

/-- No discarded interrupt write waits for its record (R218). -/
def State.noDrop (s : State) : Prop := ∀ e ∈ s.dies, e.2.drop ≠ 1

theorem State.noDrop.die {s : State} (h : s.noDrop) (d : Nat) : (s.die d).drop ≠ 1 := by
  rw [State.die, Sparse.get]
  cases find : s.dies.find? d with
  | none => decide
  | some x => exact h _ (Sparse.mem_of_find? find)

theorem State.noDrop.setDie {r : Run s0} (h : r.1.noDrop) (d : Nat) {x : Die} (hx : x.drop ≠ 1) : (r.setDie d x).1.noDrop := by
  intro e he
  rcases Sparse.mem_upd he with ⟨-, same⟩ | he
  · unfold listed at same
    split at same
    · cases same
    · cases same
      exact hx
  · exact h e he

/-! ### Runs that leave nothing more to settle -/

/-- A run has gone on by writes of registers at offsets of `W` alone, and has given settling nothing to look at beside them. -/
structure Run.orderly (W : Nat → Prop) (r q : Run s0) : Prop where
  need : q.1.need = r.1.need
  poke : q.1.poke = r.1.poke
  net : q.1.net = r.1.net
  sources : q.1.aplicSrc = r.1.aplicSrc
  regs : ∀ o, ¬ W o → Sparse.find? q.1.regs o = r.1.regs.find? o
  drops : r.1.noDrop → q.1.noDrop

variable {W : Nat → Prop} {r p q : Run s0}

theorem Run.orderly.refl (r : Run s0) : Run.orderly W r r := ⟨rfl, rfl, rfl, rfl, fun _ _ => rfl, id⟩

theorem Run.orderly.trans (a : Run.orderly W r p) (b : Run.orderly W p q) : Run.orderly W r q :=
  ⟨b.need.trans a.need, b.poke.trans a.poke, b.net.trans a.net, b.sources.trans a.sources, fun o ho => (b.regs o ho).trans (a.regs o ho), b.drops ∘ a.drops⟩

theorem Run.orderly.mono {V : Nat → Prop} (a : Run.orderly V r q) (sub : ∀ o, V o → W o) : Run.orderly W r q :=
  { a with regs := fun o ho => a.regs o fun v => ho (sub o v) }

theorem Run.marks.orderly (h : Run.marks W r q) : Run.orderly W r q := by
  obtain ⟨rs, ts, ls, only, same⟩ := h
  constructor
  case drops => exact fun drops => by rwa [State.noDrop, only]
  all_goals rw [only]
  exact same

theorem Run.marks.dies (h : Run.marks W r q) : q.1.dies = r.1.dies := by
  obtain ⟨rs, ts, ls, only, -⟩ := h
  rw [only]

theorem Run.orderly_setReg (r : Run s0) {g : Reg} (v : Word) (h : W g.off) : Run.orderly W r (r.setReg g v) := (Run.marks_setReg r v h).orderly

theorem Run.orderly_setFld (r : Run s0) {f : FRef} (v : Nat) (h : W f.reg.off) : Run.orderly W r (r.setFld f v) := Run.orderly_setReg r _ h

theorem Run.orderly_setDie (r : Run s0) (d : Nat) {x : Die} (h : r.1.noDrop → x.drop ≠ 1) : Run.orderly W r (r.setDie d x) :=
  ⟨rfl, rfl, rfl, rfl, fun _ _ => rfl, fun drops => drops.setDie d (h drops)⟩

theorem Run.orderly_modDie (r : Run s0) (d : Nat) {f : Die → Die} (h : ∀ x, x.drop ≠ 1 → (f x).drop ≠ 1) : Run.orderly W r (r.modDie d f) :=
  r.orderly_setDie d fun drops => h _ (drops.die d)

theorem Run.orderly.noSources (h : Run.orderly W r q) (ns : r.1.noSources) : q.1.noSources := h.sources.trans ns

theorem Run.orderly.reg (h : Run.orderly W r q) {g : Reg} (hg : ¬ W g.off) : q.1.reg g = r.1.reg g := State.reg_same (h.regs _ hg)

theorem Run.orderly.fld (h : Run.orderly W r q) {f : FRef} (hf : ¬ W f.reg.off) : q.1.fld f = r.1.fld f := by rw [State.fld, State.fld, h.reg hf]

theorem Run.orderly.online (h : Run.orderly W r q) {k : Nat} (hk : ¬ W (RLINK_STAT k).off) : q.1.online k = r.1.online k := by
  rw [State.online, State.online, h.fld (f := RLINK_STAT_STATE k) hk]

/-- A command that leaves nothing more to settle ends with what it has done, where every die online stays so or no message is in flight. -/
theorem Run.orderly.done {s : State} {r : Run s} (h : Run.orderly W (Run.start s) r) (still : s.still)
    (on : s.net = [] ∨ ∀ k < 16, s.online k = true → r.1.online k = true) : r.done = .next r.1 := by
  obtain ⟨need, poke, fence, drops⟩ := still
  refine r.done_still ⟨h.need.trans need, h.poke.trans poke, fun m hm => ?_, h.drops drops⟩
  have sent : m ∈ s.net := h.net ▸ hm
  rcases on with none | on
  · rw [none] at sent
    cases sent
  · have reach := fence m sent
    unfold State.fencedDie at reach ⊢
    cases dst : Agent.onDie m.dst with
    | none => rfl
    | some k =>
      simp only [dst] at reach ⊢
      split at reach
      next free =>
        refine if_pos ?_
        simp only [Bool.or_eq_true] at free ⊢
        exact free.imp_left (on k (Agent.onDie_lt dst))
      next => cases reach

/-- The same, where no die's STATE is written. -/
theorem Run.orderly.done_apart {s : State} {r : Run s} (h : Run.orderly W (Run.start s) r) (still : s.still) (off : ∀ k < 16, ¬ W (RLINK_STAT k).off) :
    r.done = .next r.1 := h.done still (.inr fun k hk on => (h.online (off k hk)).trans on)

/-! ### Records beside the links' registers -/

/-- The offsets of the links' registers (R192, R193, R212, R220). -/
def linkPage (o : Nat) : Prop := ∃ d < 16, ∃ x < 0x100, o = 0x10000b0000 + d * 0x1000 + x

theorem linkPage_regs {d : Nat} (hd : d < 16) : linkPage (RLINK_STAT d).off ∧ linkPage (RLINK_ERRCNT d).off ∧ linkPage (RLINK_FAULTMAP d).off ∧
    linkPage (RLINK_RESET d).off ∧ linkPage (RLINK_CTL d).off :=
  ⟨⟨d, hd, 0, by decide, rfl⟩, ⟨d, hd, 8, by decide, by simp; omega⟩, ⟨d, hd, 0x10, by decide, by simp; omega⟩, ⟨d, hd, 0x18, by decide, by simp; omega⟩,
    ⟨d, hd, 0x20, by decide, by simp; omega⟩⟩

/-- A bank of a block that the package has. -/
def Bank.ofPackage : Bank → Prop
  | .tile n => n < 256
  | .l3 d q => d < 16 ∧ q < 4
  | .rill d | .tbrx d => d < 16
  | .home s => s < 4
  | _ => True

/-- No bank and no ring lies among the links' registers (R454 to R457). -/
theorem Bank.area_not_linkPage {b : Bank} (hb : b.ofPackage) {o : Nat} (page : linkPage o) : ¬ b.area o := by
  obtain ⟨d, hd, x, hx, rfl⟩ := page
  rintro (⟨lo, hi⟩ | summary | stat | ⟨lo, hi⟩)
  · cases b <;> simp only [Bank.ofPackage] at hb <;> simp only [Bank.base, tileBase, dieBase] at lo hi <;> omega
  · simp only [ERR_SUMMARY] at summary
    omega
  · have die : b.die ≤ 16 := by cases b <;> simp only [Bank.ofPackage] at hb <;> simp only [Bank.die] <;> omega
    simp only [ERR_RINGSTAT, errBase] at stat
    split at stat <;> omega
  · have die : b.die ≤ 16 := by cases b <;> simp only [Bank.ofPackage] at hb <;> simp only [Bank.die] <;> omega
    unfold errBase at lo hi
    split at lo
    next iod =>
      rw [if_pos iod] at hi
      omega
    next iod =>
      rw [if_neg iod] at hi
      omega

/-- A record leaves the links' registers, and gives settling nothing to look at, while no source is configured. -/
theorem Run.orderly_logRec (r : Run s0) (ns : r.1.noSources) {b : Bank} (hb : b.ofPackage) (x : Rec) (ring : Option Bool) :
    Run.orderly (fun o => ¬ linkPage o) r (r.logRec b x ring) :=
  ((r.marks_logRec ns b x ring).mono fun _ area page => b.area_not_linkPage hb page area).orderly

/-! ### Writes of a link's registers -/

/-- The families of the registers of a link that a write acts on. -/
abbrev faultmapFamily : Family := ⟨.RLINK_FAULTMAP, 0x10000b0010, [(16, 0x1000)], fields_RLINK_FAULTMAP⟩

/-- The family of RLINK.RESET. -/
abbrev linkResetFamily : Family := ⟨.RLINK_RESET, 0x10000b0018, [(16, 0x1000)], fields_RLINK_RESET⟩

/-- The family of RLINK.CTL. -/
abbrev linkCtlFamily : Family := ⟨.RLINK_CTL, 0x10000b0020, [(16, 0x1000)], fields_RLINK_CTL⟩

theorem RLINK_placed : ∀ d : Fin 16, (RLINK_FAULTMAP d).placed faultmapFamily [d.val] ∧ (RLINK_RESET d).placed linkResetFamily [d.val] ∧
    (RLINK_CTL d).placed linkCtlFamily [d.val] := by
  unfold Reg.placed
  decide +kernel

theorem faultmapFamily_reg (d : Nat) : faultmapFamily.reg (RLINK_FAULTMAP d).off = RLINK_FAULTMAP d := by
  simp [Family.reg, fieldsMask, fieldsRst, fields_RLINK_FAULTMAP, RLINK_FAULTMAP]

theorem linkResetFamily_reg (d : Nat) : linkResetFamily.reg (RLINK_RESET d).off = RLINK_RESET d := by
  simp [Family.reg, fieldsMask, fieldsRst, fields_RLINK_RESET, RLINK_RESET]

theorem linkCtlFamily_reg (d : Nat) : linkCtlFamily.reg (RLINK_CTL d).off = RLINK_CTL d := by
  simp [Family.reg, fieldsMask, fieldsRst, fields_RLINK_CTL, RLINK_CTL]

/-- The links' registers are not secure-held (R392). -/
theorem Run.secHeld_linkPage (r : Run s0) {o : Nat} (page : linkPage o) : r.secHeld o = false := by
  obtain ⟨d, hd, x, hx, rfl⟩ := page
  unfold Run.secHeld
  dsimp only
  rw [if_neg (by omega), if_neg (by omega), if_neg (by omega)]
  simp only [SEC_GRPWORLD, SEC_IDRANGE, WDOG_CTL, MBX_STAT, List.mem_cons, List.not_mem_nil, or_false, decide_eq_false_iff_not]
  omega

/-- A full write of a register of a link reaches it. -/
theorem Run.write_link (r : Run s0) (q : Requester) {g : Reg} {f : Family} {ix : List Nat} (v : Word) (w : r.1.writer q) (at_ : g.placed f ix)
    (page : linkPage g.off) : r.regWrite q g.off .full v = r.regPut q f ix g.off (BitVec.allOnes 64) v := by
  obtain ⟨find, whole, dec, noFile⟩ := at_
  refine r.regWrite_full q v w find whole dec noFile (fun low => ?_) (by rw [r.secHeld_linkPage page, Bool.false_and])
  obtain ⟨d, hd, x, hx, off⟩ := page
  omega

/-- What a full write leaves in a register of a link: what the access codes of its fields say. -/
theorem Run.regPut_link (r : Run s0) (q : Requester) (d : Nat) (v : Word) :
    r.regPut q faultmapFamily [d] (RLINK_FAULTMAP d).off (BitVec.allOnes 64) v = r.wFaultmap d (r.fullWrite (RLINK_FAULTMAP d) fields_RLINK_FAULTMAP v) ∧
      r.regPut q linkResetFamily [d] (RLINK_RESET d).off (BitVec.allOnes 64) v = r.wRlinkReset q d (r.fullWrite (RLINK_RESET d) fields_RLINK_RESET v) v ∧
      r.regPut q linkCtlFamily [d] (RLINK_CTL d).off (BitVec.allOnes 64) v = r.wRlinkCtl d (r.fullWrite (RLINK_CTL d) fields_RLINK_CTL v) := by
  refine ⟨?_, ?_, ?_⟩
  · unfold Run.regPut Run.regRefuse
    rw [faultmapFamily_reg]
    simp only [actionReg, Run.blockIdle, Bool.false_and, Bool.not_true, Bool.or_self, Bool.false_eq_true, if_false]
    rw [applyFields_unlocked _ _ _ _ _ (by decide)]
    rfl
  · unfold Run.regPut Run.regRefuse
    rw [linkResetFamily_reg]
    simp only [actionReg, Run.blockIdle, bne_self_eq_false, Bool.and_false, Bool.false_and, Bool.not_true, Bool.or_self, Bool.false_eq_true, if_false]
    rw [applyFields_unlocked _ _ _ _ _ (by decide)]
    rfl
  · unfold Run.regPut Run.regRefuse
    rw [linkCtlFamily_reg]
    simp only [actionReg, Run.blockIdle, bne_self_eq_false, Bool.and_false, Bool.false_and, Bool.not_true, Bool.or_self, Bool.false_eq_true, if_false]
    rw [applyFields_unlocked _ _ _ _ _ (by decide)]
    rfl

end Sys2Proof.Machine

/-! Flits of a link and the lanes that carry them (R192 to R200). -/
namespace Sys2Proof.Machine

variable {s0 : State}

/-! ### Directions of a link -/

theorem Run.die_modDie (r : Run s0) (d : Nat) (f : Die → Die) : (r.modDie d f).1.die d = f (r.1.die d) := by simp [Run.modDie, Run.setDie, Run.die]

/-- A direction that changes, and the other. -/
theorem Run.dir_modDir (r : Run s0) (d : Nat) (up side : Bool) (f : LinkDir → LinkDir) :
    ((r.modDir d up f).1.die d).dir side = if side = up then f ((r.1.die d).dir up) else (r.1.die d).dir side := by
  rw [Run.modDir, Run.die_modDie]
  cases up <;> cases side <;> rfl

@[simp] theorem Run.dir_modDir_same (r : Run s0) (d : Nat) (up : Bool) (f : LinkDir → LinkDir) :
    ((r.modDir d up f).1.die d).dir up = f ((r.1.die d).dir up) := by rw [Run.dir_modDir, if_pos rfl]

@[simp] theorem Run.dir_modDir_other (r : Run s0) (d : Nat) (up : Bool) (f : LinkDir → LinkDir) :
    ((r.modDir d up f).1.die d).dir (!up) = (r.1.die d).dir (!up) := by rw [Run.dir_modDir, if_neg (Bool.not_ne_self up)]

@[simp] theorem Run.dir_modDir_across (r : Run s0) (d : Nat) (up : Bool) (f : LinkDir → LinkDir) :
    ((r.modDir d (!up) f).1.die d).dir up = (r.1.die d).dir up := by rw [Run.dir_modDir, if_neg (Bool.not_ne_self up).symm]

theorem Run.orderly_modDir {W : Nat → Prop} (r : Run s0) (d : Nat) (up : Bool) (f : LinkDir → LinkDir) : Run.orderly W r (r.modDir d up f) :=
  r.orderly_modDie d fun x hx => by cases up <;> exact hx

@[simp] theorem Run.regs_modDir (r : Run s0) (d : Nat) (up : Bool) (f : LinkDir → LinkDir) : (r.modDir d up f).1.regs = r.1.regs := rfl

/-! ### A flit is accepted, or rejected -/

/-- A lane that shows a code violation for the first time within its window is not tired: each flit notes a lane once (R197). -/
theorem none_tired {lanes : List Nat} (nodup : lanes.Nodup) (now : Nat) :
    (lanes.filter fun i => decide (4 ≤ ((lanes.map fun i => (i, now)).filter (·.1 == i)).length)) = [] := by
  refine List.filter_eq_nil_iff.2 fun i _ => ?_
  have once : ((lanes.map fun i => (i, now)).filter (·.1 == i)).length = lanes.count i := by
    rw [List.filter_map, List.length_map, List.count_eq_length_filter]
    rfl
  rw [once, decide_eq_true_eq]
  have := List.nodup_iff_count_le_one.1 nodup i
  omega

@[simp] theorem Run.retire_lanes_nil (r : Run s0) (d : Nat) (up : Bool) : r.retire_lanes d up [] = r := rfl

/-- What a flit that comes to a direction in which no code violation is remembered leaves of its lanes: the place of the next one, the lanes' wires
of acknowledgement and the violations that it showed. -/
def LinkDir.received (y : LinkDir) (pos : Nat) (viol : List (Nat × Nat)) (acks : BitVec 18) : LinkDir := { y with viol := viol, pos := pos, acks := acks }

/-- The next flit has been accepted: nothing that went before it is asked for again (R197). -/
def LinkDir.accepted (y : LinkDir) : LinkDir := { y with exp := y.exp + 1, resend := none, asked := none, fails := 0, counts := [] }

/-- A flit comes to a link that is up: it is accepted where its CRC is right and its number is the next, and else rejected. -/
theorem exec_rillFlit (d : Fin 16) (up : Bool) (payload : List (BitVec 64)) (header crc : BitVec 64) (s : State) (up_ : s.fld (RLINK_STAT_STATE d) = 4)
    (length : payload.length = 16) (whole : (payload ++ [header, crc]).all wordWhole = true) (lanes : (Run.start s).lanesOf d up ≠ [])
    (viol : ((s.die d).dir up).viol = []) :
    ∃ seen acks shown, ∃ r : Run s,
      r = (Run.start s).modDir d up (·.received ((((s.die d).dir up).pos + 18) % ((Run.start s).lanesOf d up).length) seen acks) ∧
      exec (.rillFlit d up payload header crc) s =
        if (flitOf (payload ++ [header, crc])).intact ∧ (flitOf (payload ++ [header, crc])).seq = ((s.die d).dir up).exp then
          (if (flitOf (payload ++ [header, crc])).ackValid then
            (r.modDir d up LinkDir.accepted).modDir d (!up) fun y => { y with acked := some (flitOf (payload ++ [header, crc])).ack }
          else r.modDir d up LinkDir.accepted).done
        else (r.rejectFlit d up ((Run.start s).lanesOf d up) shown []).done := by
  have start : (Run.start s).fld (RLINK_STAT_STATE d) = 4 := up_
  have eighteen : (payload ++ [header, crc]).length = 18 := by simp [length]
  have viol : (((Run.start s).die d).dir up).viol = [] := viol
  have begins : exec (.rillFlit d up payload header crc) s = execRillFlit d up payload header crc s := rfl
  rw [begins]
  unfold execRillFlit
  simp only [start, eighteen, whole, lanes, viol, ne_eq, not_true_eq_false, Bool.true_eq_false, or_self, if_false, List.filter_nil, List.nil_append]
  generalize hls : (payload ++ [header, crc]).zipIdx.map _ = ls
  have rested := none_tired (((ls.filter fun w => wordBroken w.1).map (·.2)).nodup_dedup) ((Run.start s).dieTime (if up = true then 16 else d.val))
  rw [rested]
  exact ⟨_, _, _, _, rfl, rfl⟩

/-- R192, R195: the flit that was expected is accepted, and with it what it acknowledges. -/
theorem rillFlit_accepts (d : Fin 16) (up : Bool) (payload : List (BitVec 64)) (header crc : BitVec 64) (s : State) (still : s.still)
    (up_ : s.fld (RLINK_STAT_STATE d) = 4) (length : payload.length = 16) (whole : (payload ++ [header, crc]).all wordWhole = true)
    (lanes : (Run.start s).lanesOf d up ≠ []) (viol : ((s.die d).dir up).viol = []) (intact : (flitOf (payload ++ [header, crc])).intact = true)
    (seq : (flitOf (payload ++ [header, crc])).seq = ((s.die d).dir up).exp) :
    ∃ t, exec (.rillFlit d up payload header crc) s = .next t ∧ ((t.die d).dir up).exp = ((s.die d).dir up).exp + 1 ∧ ((t.die d).dir up).resend = none ∧
      ((t.die d).dir up).asked = none ∧ ((t.die d).dir up).fails = 0 ∧ ((t.die d).dir up).counts = [] ∧
      ((t.die d).dir up).pos = (((s.die d).dir up).pos + 18) % ((Run.start s).lanesOf d up).length ∧
      (t.die d).dir (!up) = (if (flitOf (payload ++ [header, crc])).ackValid then { (s.die d).dir (!up) with acked := some (flitOf (payload ++ [header, crc])).ack }
        else (s.die d).dir (!up)) ∧ t.regs = s.regs := by
  obtain ⟨seen, acks, shown, r, hr, begins⟩ := exec_rillFlit d up payload header crc s up_ length whole lanes viol
  rw [begins, if_pos ⟨intact, seq⟩]
  generalize flitOf (payload ++ [header, crc]) = f
  have received : Run.orderly (fun _ => False) (Run.start s) r := hr ▸ (Run.start s).orderly_modDir d up _
  have accepted := received.trans (r.orderly_modDir d up LinkDir.accepted)
  have regs : r.1.regs = s.regs := by rw [hr]; rfl
  have same : (r.1.die d).dir up = ((s.die d).dir up).received ((((s.die d).dir up).pos + 18) % ((Run.start s).lanesOf d up).length) seen acks := by simp [hr]
  have other : (r.1.die d).dir (!up) = (s.die d).dir (!up) := by simp [hr]
  cases f.ackValid with
  | false => exact ⟨_, accepted.done_apart still fun _ _ => id, by simp [LinkDir.accepted, LinkDir.received, same, other, regs]⟩
  | true =>
    simp only [if_true]
    exact ⟨_, (accepted.trans (Run.orderly_modDir _ d (!up) _)).done_apart still fun _ _ => id,
      by simp [LinkDir.accepted, LinkDir.received, same, other, regs]⟩

/-- A receiver that has rejected fewer than fifteen flits in succession counts one more, and asks for it again. -/
theorem Run.rejectFlit_few (r : Run s0) (d : Nat) (up : Bool) (active lanes : List Nat) (few : ((r.1.die d).dir up).fails < 15) :
    r.rejectFlit d up active lanes [] = ((r.addSat (RLINK_ERRCNT_REPLAYS d) 1).linkCe d up 0xFF).modDir d up fun y =>
      { y with fails := ((r.1.die d).dir up).fails + 1, counts := countUp ((r.1.die d).dir up).counts lanes, asked := some ((r.1.die d).dir up).exp } :=
  if_pos (Nat.succ_lt_succ few)

theorem rxBank_ofPackage {d : Nat} (hd : d < 16) (up : Bool) : (rxBank d up).ofPackage := by
  cases up
  · exact hd
  · exact trivial

/-- A record of a link's receiver leaves the links' registers and the dies. -/
theorem Run.linkCe_leaves (r : Run s0) (ns : r.1.noSources) {d : Nat} (hd : d < 16) (up : Bool) (lane : Nat) :
    Run.orderly (fun o => ¬ linkPage o) r (r.linkCe d up lane) ∧ (r.linkCe d up lane).1.dies = r.1.dies :=
  ⟨r.orderly_logRec ns (rxBank_ofPackage hd up) _ _, (r.marks_logRec ns _ _ _).dies⟩

/-- R195, R197: any other flit is rejected, and counted as a replay, and it is asked for again. -/
theorem rillFlit_rejects (d : Fin 16) (up : Bool) (payload : List (BitVec 64)) (header crc : BitVec 64) (s : State) (still : s.still) (ns : s.noSources)
    (up_ : s.fld (RLINK_STAT_STATE d) = 4) (length : payload.length = 16) (whole : (payload ++ [header, crc]).all wordWhole = true)
    (lanes : (Run.start s).lanesOf d up ≠ []) (viol : ((s.die d).dir up).viol = [])
    (wrong : (flitOf (payload ++ [header, crc])).intact = true → (flitOf (payload ++ [header, crc])).seq ≠ ((s.die d).dir up).exp)
    (few : ((s.die d).dir up).fails < 15) :
    ∃ t, exec (.rillFlit d up payload header crc) s = .next t ∧ ((t.die d).dir up).exp = ((s.die d).dir up).exp ∧
      ((t.die d).dir up).fails = ((s.die d).dir up).fails + 1 ∧ ((t.die d).dir up).asked = some ((s.die d).dir up).exp ∧
      t.fld (RLINK_ERRCNT_REPLAYS d) = min (s.fld (RLINK_ERRCNT_REPLAYS d) + 1) 0xFFFFFFFF ∧ t.fld (RLINK_STAT_STATE d) = 4 := by
  obtain ⟨seen, acks, shown, r, hr, begins⟩ := exec_rillFlit d up payload header crc s up_ length whole lanes viol
  rw [if_neg fun ⟨intact, seq⟩ => wrong intact seq] at begins
  have dir : (r.1.die d).dir up = ((s.die d).dir up).received ((((s.die d).dir up).pos + 18) % ((Run.start s).lanesOf d up).length) seen acks := by simp [hr]
  have rejects := r.rejectFlit_few d up ((Run.start s).lanesOf d up) shown (by rw [dir]; exact few)
  obtain ⟨stat, errcnt, -⟩ := linkPage_regs d.isLt
  set c := r.addSat (RLINK_ERRCNT_REPLAYS d) 1 with hc
  have received : Run.orderly (fun o => o = (RLINK_ERRCNT d).off ∨ ¬ linkPage o) (Run.start s) r :=
    hr ▸ (Run.start s).orderly_modDir d up _
  have counts : Run.orderly (fun o => o = (RLINK_ERRCNT d).off ∨ ¬ linkPage o) r c := r.orderly_setFld _ (.inl (by simp))
  obtain ⟨records, dies⟩ := c.linkCe_leaves ((received.trans counts).noSources ns) d.isLt up 0xFF
  have counted : c.1.fld (RLINK_ERRCNT_REPLAYS d) = min (s.fld (RLINK_ERRCNT_REPLAYS d) + 1) 0xFFFFFFFF := by
    rw [hc, r.fld_addSat 1 (by simp), hr]
    rfl
  generalize c.linkCe d up 0xFF = p at records dies rejects
  have all : Run.orderly (fun o => o = (RLINK_ERRCNT d).off ∨ ¬ linkPage o) (Run.start s) p :=
    (received.trans counts).trans (records.mono fun o => .inr)
  have off : ∀ k < 16, ¬ ((RLINK_STAT k).off = (RLINK_ERRCNT d).off ∨ ¬ linkPage (RLINK_STAT k).off) := fun k hk =>
    not_or.2 ⟨by simp only [RLINK_offs]; omega, not_not.2 (linkPage_regs hk).1⟩
  have dirP : (p.1.die d).dir up = (r.1.die d).dir up := by
    rw [State.die, dies]
    rfl
  rw [begins, rejects]
  refine ⟨_, (all.trans (p.orderly_modDir d up _)).done_apart still off, ?_⟩
  refine ⟨?_, ?_, ?_, ?_, ?_⟩
  · rw [Run.dir_modDir_same, dirP, dir]
    rfl
  · rw [Run.dir_modDir_same, dir]
    rfl
  · rw [Run.dir_modDir_same, dir]
    rfl
  · exact (records.fld (f := RLINK_ERRCNT_REPLAYS d) (not_not.2 errcnt)).trans counted
  · exact (all.fld (f := RLINK_STAT_STATE d) (off d d.isLt)).trans up_

/-- R197: the request that a rejection sent reaches the sender, which resends from that flit on. -/
theorem rillRetryRequest_resends (d : Fin 16) (up : Bool) (seq : BitVec 12) (s : State) (still : s.still) (online : s.online d = true)
    (asked : ((s.die d).dir up).asked = some seq) :
    ∃ t, exec (.rillRetryRequest d up seq) s = .next t ∧ ((t.die d).dir up).resend = some seq ∧ ((t.die d).dir up).asked = none ∧
      ((t.die d).dir up).exp = ((s.die d).dir up).exp ∧ t.regs = s.regs := by
  have begins : exec (.rillRetryRequest d up seq) s = ((Run.start s).modDir d up fun x => { x with resend := some seq, asked := none }).done :=
    if_pos ⟨online, asked⟩
  have resends : Run.orderly (fun _ => False) (Run.start s) ((Run.start s).modDir d up fun x => { x with resend := some seq, asked := none }) :=
    (Run.start s).orderly_modDir d up _
  exact ⟨_, begins.trans (resends.done_apart still fun _ _ => id), by simp⟩

/-! ### A link retrains -/

theorem linkWidth_lt (n : Nat) : linkWidth n < 32 := by
  unfold linkWidth
  split_ifs <;> decide

theorem linkWidth_ne_zero {n : Nat} (enough : 4 ≤ n) : linkWidth n ≠ 0 := by
  unfold linkWidth
  split_ifs <;> decide

/-- The width of a direction is that of the lanes that its map leaves healthy (R200). -/
theorem Run.dirWidth_eq (r : Run s0) (d : Nat) (up : Bool) : r.dirWidth d up = linkWidth (healthy (r.1.fld (laneMap d up))) := rfl

theorem Run.dirWidth_of_reg {r q : Run s0} {d : Nat} (same : q.1.reg (RLINK_FAULTMAP d) = r.1.reg (RLINK_FAULTMAP d)) (up : Bool) :
    q.dirWidth d up = r.dirWidth d up := by
  rw [Run.dirWidth_eq, Run.dirWidth_eq, State.fld, State.fld, (laneMap_place d up).1, same]

/-- Both ends of a link take the widths that its map leaves, and no other register changes. -/
theorem Run.setWidths_leaves (r : Run s0) (d : Nat) :
    Run.orderly (· = (RLINK_STAT d).off) r (r.setWidths d) ∧ (r.setWidths d).1.fld (RLINK_STAT_UPW d) = r.dirWidth d true ∧
      (r.setWidths d).1.fld (RLINK_STAT_DNW d) = r.dirWidth d false ∧
      ∀ f : FRef, f.fits = true → f.reg = RLINK_STAT d → f.hi < 14 ∨ 23 < f.lo → (r.setWidths d).1.fld f = r.1.fld f := by
  have up : Run.orderly (· = (RLINK_STAT d).off) r (r.setFld (RLINK_STAT_UPW d) (r.dirWidth d true)) := r.orderly_setFld _ (by simp)
  refine ⟨up.trans (Run.orderly_setFld (f := RLINK_STAT_DNW d) _ _ (by simp)), ?_, ?_, fun f fits reg apart => ?_⟩
  · rw [Run.setWidths, Run.fld_setFld_ne _ _ (by simp) (by simp) (by simp)]
    exact Run.fld_setFld_lt r (by simp) (linkWidth_lt _)
  · exact Run.fld_setFld_lt _ (by simp) (linkWidth_lt _)
  · have apart : (f.hi < 14 ∨ 18 < f.lo) ∧ (f.hi < 19 ∨ 23 < f.lo) := by omega
    rw [Run.setWidths, Run.fld_setFld_ne _ _ (by simp) fits (by simp [reg, apart.1]), Run.fld_setFld_ne _ _ (by simp) fits (by simp [reg, apart.2])]

/-- A link that is up, with lanes enough in both directions, retrains at the widths of its map. -/
theorem Run.retrain_leaves (r : Run s0) {d : Nat} (on : r.1.online d = true) (enough : ∀ up, 4 ≤ healthy (r.1.fld (laneMap d up))) :
    Run.orderly (fun o => o = (RLINK_STAT d).off ∨ o = (RLINK_ERRCNT d).off) r (r.retrain d) ∧ (r.retrain d).1.fld (RLINK_STAT_STATE d) = 5 ∧
      (r.retrain d).1.fld (RLINK_STAT_UPW d) = linkWidth (healthy (r.1.fld (RLINK_FAULTMAP_UP d))) ∧
      (r.retrain d).1.fld (RLINK_STAT_DNW d) = linkWidth (healthy (r.1.fld (RLINK_FAULTMAP_DN d))) ∧
      (r.retrain d).1.fld (RLINK_ERRCNT_RETRAINS d) = min (r.1.fld (RLINK_ERRCNT_RETRAINS d) + 1) 65535 := by
  set c := r.addSat (RLINK_ERRCNT_RETRAINS d) 1 with hc
  have counts : Run.orderly (fun o => o = (RLINK_STAT d).off ∨ o = (RLINK_ERRCNT d).off) r c := r.orderly_setFld _ (.inr (by simp))
  have counted : c.1.fld (RLINK_ERRCNT_RETRAINS d) = min (r.1.fld (RLINK_ERRCNT_RETRAINS d) + 1) 65535 := r.fld_addSat 1 (by simp)
  have map : c.1.reg (RLINK_FAULTMAP d) = r.1.reg (RLINK_FAULTMAP d) := counts.reg (by simp)
  have widths : ∀ up, c.dirWidth d up = linkWidth (healthy (r.1.fld (laneMap d up))) := fun up => Run.dirWidth_of_reg map up
  obtain ⟨takes, upw, dnw, -⟩ := c.setWidths_leaves d
  set w := c.setWidths d with hw
  set p := w.modDie d fun x => { x with up := { x.up with pos := 0 }, dn := { x.dn with pos := 0 } } with hp
  have pauses : Run.orderly (fun o => o = (RLINK_STAT d).off ∨ o = (RLINK_ERRCNT d).off) w p := w.orderly_modDie d fun _ => id
  have whole : ∀ up, p.dirWidth d up ≠ 0 := fun up => by
    have same : p.dirWidth d up = c.dirWidth d up := Run.dirWidth_of_reg ((w.reg_modDie d _ _).trans (takes.reg (by simp))) up
    rw [same, widths]
    exact linkWidth_ne_zero (enough up)
  have retrains : r.retrain d = p.setFld (RLINK_STAT_STATE d) 5 := by
    have on : r.online d = true := on
    have ready : ¬ (p.dirWidth d true = 0 ∨ p.dirWidth d false = 0) := not_or.2 ⟨whole true, whole false⟩
    unfold Run.retrain
    rw [on, Bool.not_true, if_neg Bool.false_ne_true]
    exact if_neg ready
  have steps := (counts.trans (takes.mono fun _ => .inl)).trans pauses
  rw [retrains]
  refine ⟨steps.trans (p.orderly_setFld _ (.inl (by simp))), p.fld_setFld_lt (by simp) (by simp), ?_, ?_, ?_⟩
  · rw [p.fld_setFld_ne _ (by simp) (by simp) (by simp), hp, Run.fld_modDie, upw, widths]
    rfl
  · rw [p.fld_setFld_ne _ (by simp) (by simp) (by simp), hp, Run.fld_modDie, dnw, widths]
    rfl
  · rw [p.fld_setFld_ne _ (by simp) (by simp) (by simp), hp, Run.fld_modDie, takes.fld (f := RLINK_ERRCNT_RETRAINS d) (by simp), counted]

/-- R198: a link whose retraining ends is up. -/
theorem rillRetrainDone_up (d : Fin 16) (s : State) (still : s.still) (retrains : s.fld (RLINK_STAT_STATE d) = 5) :
    ∃ t, exec (.rillRetrainDone d) s = .next t ∧ t.fld (RLINK_STAT_STATE d) = 4 ∧ t.dies = s.dies ∧ t.net = s.net := by
  have begins : exec (.rillRetrainDone d) s = ((Run.start s).setFld (RLINK_STAT_STATE d) 4).done := if_pos retrains
  have up : ((Run.start s).setFld (RLINK_STAT_STATE d) 4).1.fld (RLINK_STAT_STATE d) = 4 := Run.fld_setFld_lt _ (by simp) (by simp)
  have comes : Run.orderly (· = (RLINK_STAT d).off) (Run.start s) ((Run.start s).setFld (RLINK_STAT_STATE d) 4) := Run.orderly_setFld _ _ rfl
  refine ⟨_, begins.trans (comes.done still (.inr fun k _ on => ?_)), up, rfl, rfl⟩
  by_cases own : k = d
  · subst own
    rw [State.online, up]
    rfl
  · rw [Run.online_setFld_other _ _ (by simp; omega)]
    exact on

/-! ### Lanes retire -/

/-- One lane of a direction retires, with its record (R197). -/
def Run.retireLane (r : Run s0) (d : Nat) (up : Bool) (i : Nat) : Run s0 := (r.setBit (laneMap d up) i true).linkCe d up i

/-- The offsets that the retirement of lanes may write: the map of the link, and those of records. -/
def retireArea (d o : Nat) : Prop := o = (RLINK_FAULTMAP d).off ∨ ¬ linkPage o

theorem Run.retireLane_leaves (r : Run s0) (ns : r.1.noSources) {d : Nat} (hd : d < 16) (up : Bool) (i : Nat) :
    Run.orderly (retireArea d) r (r.retireLane d up i) ∧
      (∀ j < 18, natBit ((r.retireLane d up i).1.fld (laneMap d up)) j = if j = i then true else natBit (r.1.fld (laneMap d up)) j) ∧
      (r.retireLane d up i).1.fld (laneMap d (!up)) = r.1.fld (laneMap d (!up)) := by
  have map := not_not.2 (linkPage_regs hd).2.2.1
  have sets : Run.orderly (retireArea d) r (r.setBit (laneMap d up) i true) := r.orderly_setFld _ (.inl (by simp))
  obtain ⟨records, -⟩ := (r.setBit (laneMap d up) i true).linkCe_leaves (sets.noSources ns) hd up i
  refine ⟨sets.trans (records.mono fun _ => .inr), fun j hj => ?_, ?_⟩
  · rw [Run.retireLane, records.fld (f := laneMap d up) (by simpa using map), r.natBit_setBit i j true (by simp) (by simp; omega)]
  · rw [Run.retireLane, records.fld (f := laneMap d (!up)) (by simpa using map)]
    exact r.fld_setFld_ne _ (by simp) (by simp) (.inr (by cases up <;> simp))

/-- Each of some lanes has retired. -/
theorem Run.retireLanes_leaves (r : Run s0) (ns : r.1.noSources) {d : Nat} (hd : d < 16) (up : Bool) (lanes : List Nat) :
    Run.orderly (retireArea d) r (lanes.foldl (fun r i => r.retireLane d up i) r) ∧
      (∀ j < 18, natBit ((lanes.foldl (fun r i => r.retireLane d up i) r).1.fld (laneMap d up)) j = (decide (j ∈ lanes) || natBit (r.1.fld (laneMap d up)) j)) ∧
      (lanes.foldl (fun r i => r.retireLane d up i) r).1.fld (laneMap d (!up)) = r.1.fld (laneMap d (!up)) := by
  induction lanes generalizing r with
  | nil => exact ⟨.refl r, fun j _ => by simp, rfl⟩
  | cons i lanes ih =>
    obtain ⟨first, bit, other⟩ := r.retireLane_leaves ns hd up i
    obtain ⟨rest, bits, others⟩ := ih (r.retireLane d up i) (first.noSources ns)
    rw [List.foldl_cons]
    refine ⟨first.trans rest, fun j hj => ?_, others.trans other⟩
    rw [bits j hj, bit j hj]
    by_cases same : j = i <;> simp [same]

/-- Bits of a lane map are those of a number of 18 bits. -/
theorem State.laneMap_eq (s : State) (d : Nat) (up : Bool) {n : Nat} (hn : n < 2 ^ 18) (bits : ∀ j < 18, natBit (s.fld (laneMap d up)) j = natBit n j) :
    s.fld (laneMap d up) = n := by
  have width : (laneMap d up).hi - (laneMap d up).lo + 1 = 18 := by simp
  have fits : s.fld (laneMap d up) < 2 ^ 18 := width ▸ s.fld_lt (laneMap d up)
  refine Nat.eq_of_testBit_eq fun j => ?_
  by_cases inside : j < 18
  · simpa only [natBit_eq_testBit] using bits j inside
  · have above : 2 ^ 18 ≤ 2 ^ j := Nat.pow_le_pow_right (by decide) (Nat.le_of_not_lt inside)
    rw [Nat.testBit_lt_two_pow (Nat.lt_of_lt_of_le fits above), Nat.testBit_lt_two_pow (Nat.lt_of_lt_of_le hn above)]

/-- R194, R197, R198, R200: lanes that stall retire, and the link retrains at the width of those that are left. -/
theorem rillLaneStall_retires (d : Fin 16) (up : Bool) (lanes : BitVec 18) (s : State) (still : s.still) (ns : s.noSources) (up_ : s.fld (RLINK_STAT_STATE d) = 4)
    (some_ : ((List.range 18).any fun i => lanes.getLsbD i && !natBit (s.fld (laneMap d up)) i) = true)
    (enough : 4 ≤ healthy (s.fld (laneMap d up) ||| lanes.toNat)) (other : 4 ≤ healthy (s.fld (laneMap d (!up)))) :
    ∃ t, exec (.rillLaneStall d up lanes) s = .next t ∧ t.fld (laneMap d up) = s.fld (laneMap d up) ||| lanes.toNat ∧ t.fld (RLINK_STAT_STATE d) = 5 ∧
      t.fld (RLINK_STAT_UPW d) = linkWidth (healthy (t.fld (laneMap d true))) ∧ t.fld (RLINK_STAT_DNW d) = linkWidth (healthy (t.fld (laneMap d false))) ∧
      t.fld (RLINK_ERRCNT_RETRAINS d) = min (s.fld (RLINK_ERRCNT_RETRAINS d) + 1) 65535 := by
  set ls := (List.range 18).filter fun i => lanes.getLsbD i && !natBit (s.fld (laneMap d up)) i with hls
  have stalled : ls.isEmpty = false := by
    obtain ⟨i, hi, stalls⟩ := List.any_eq_true.1 some_
    exact List.isEmpty_eq_false_iff_exists_mem.2 ⟨i, List.mem_filter.2 ⟨hi, stalls⟩⟩
  set r := (Run.start s).modDir d up fun x => if ls.isEmpty then x else { x with stalls := countUp x.stalls ls } with hr
  have counts : Run.orderly (retireArea d) (Run.start s) r := (Run.start s).orderly_modDir d up _
  have new : (ls.filter fun i => !r.bit (laneMap d up) i) = ls := by
    rw [hls, List.filter_filter]
    refine List.filter_congr fun i _ => ?_
    have same : r.bit (laneMap d up) i = natBit (s.fld (laneMap d up)) i := rfl
    rw [same]
    cases natBit (s.fld (laneMap d up)) i <;> simp
  obtain ⟨retires, bits, others⟩ := r.retireLanes_leaves (counts.noSources ns) d.isLt up ls
  have begins : exec (.rillLaneStall d up lanes) s = (((ls.foldl (fun r i => r.retireLane d up i) r).copyMap d).retrain d).done := by
    have start : (Run.start s).fld (RLINK_STAT_STATE d) = 4 := up_
    show execRillLaneStall d up lanes s = _
    unfold execRillLaneStall
    rw [if_neg (not_not.2 start)]
    show (r.retire_lanes d up ls).done = _
    rw [Run.retire_lanes, new, stalled]
    rfl
  set p := ls.foldl (fun r i => r.retireLane d up i) r
  have copies := (p.marks_copyMap d).orderly
  set c := p.copyMap d
  obtain ⟨stat, errcnt, map, -⟩ := linkPage_regs d.isLt
  have retired := counts.trans retires
  have apart : ∀ o, linkPage o → o ≠ (RILL_FAULTMAP d).off := by
    rintro o ⟨k, hk, x, hx, rfl⟩
    simp only [RILL_FAULTMAP]
    omega
  have kept : ∀ f : FRef, linkPage f.reg.off → f.reg.off ≠ (RLINK_FAULTMAP d).off → c.1.fld f = s.fld f := fun f page off => by
    rw [copies.fld (apart _ page), retired.fld (not_or.2 ⟨off, not_not.2 page⟩)]
    rfl
  have state : ∀ k < 16, c.1.online k = s.online k := fun k hk => by
    rw [State.online, State.online, kept (RLINK_STAT_STATE k) (linkPage_regs hk).1 (by simp; omega)]
  have mapOf : ∀ side, c.1.fld (laneMap d side) = p.1.fld (laneMap d side) := fun side => copies.fld (by simpa using apart _ map)
  have own : c.1.fld (laneMap d up) = s.fld (laneMap d up) ||| lanes.toNat := by
    have width : (laneMap d up).hi - (laneMap d up).lo + 1 = 18 := by simp
    have fits : s.fld (laneMap d up) < 2 ^ 18 := width ▸ s.fld_lt (laneMap d up)
    refine c.1.laneMap_eq d up (Nat.or_lt_two_pow fits lanes.isLt) fun j hj => ?_
    have listed : decide (j ∈ ls) = (lanes.getLsbD j && !natBit (s.fld (laneMap d up)) j) := by simp [hls, hj]
    have was : r.1.fld (laneMap d up) = s.fld (laneMap d up) := rfl
    rw [mapOf, bits j hj, listed, was, natBit_eq_testBit, natBit_eq_testBit, Nat.testBit_or, BitVec.testBit_toNat]
    cases Nat.testBit (s.fld (laneMap d up)) j <;> simp
  have across : c.1.fld (laneMap d (!up)) = s.fld (laneMap d (!up)) := (mapOf _).trans others
  have whole : ∀ side, 4 ≤ healthy (c.1.fld (laneMap d side)) := fun side => by
    rcases Bool.eq_or_eq_not side up with rfl | rfl
    · rwa [own]
    · rwa [across]
  have on : c.1.online d = true := (state d d.isLt).trans (by simp [State.online, up_])
  obtain ⟨trains, state5, upw, dnw, count⟩ := c.retrain_leaves on whole
  have maps : ∀ side, (c.retrain d).1.fld (laneMap d side) = c.1.fld (laneMap d side) := fun side => trains.fld (by simp)
  have steps : Run.orderly (fun _ => True) (Run.start s) (c.retrain d) :=
    (retired.mono fun _ _ => trivial).trans ((copies.mono fun _ _ => trivial).trans (trains.mono fun _ _ => trivial))
  refine ⟨_, begins.trans (steps.done still (.inr fun k hk was => ?_)), (maps up).trans own, state5, ?_, ?_, ?_⟩
  · by_cases same : k = d
    · subst same
      rw [State.online, state5]
      rfl
    · rw [trains.online (by simp; omega), state k hk]
      exact was
  · rw [upw, maps]
    rfl
  · rw [dnw, maps]
    rfl
  · rw [count, kept (RLINK_ERRCNT_RETRAINS d) (by simpa using errcnt) (by simp)]

/-! ### A write of the map -/

/-- Bits of lanes alone (R199). -/
def lanesOnly : Word := 0x3FFFF0003FFFF

/-- A write of the map with bits of lanes alone sets them, and the link retrains where one of them is new. -/
theorem Run.wFaultmap_lanes (r : Run s0) (d : Nat) {new : Word} (kept : new &&& ~~~ lanesOnly = r.reg (RLINK_FAULTMAP d) &&& ~~~ lanesOnly)
    (more : new &&& ~~~ r.reg (RLINK_FAULTMAP d) ≠ 0) :
    r.wFaultmap d new = ((r.setReg (RLINK_FAULTMAP d) new).copyMap d).retrain d := by
  have same : ∀ i, lanesOnly.getLsbD i = false → new.getLsbD i = (r.reg (RLINK_FAULTMAP d)).getLsbD i := fun i hi => by
    have bit := congrArg (·.getLsbD i) kept
    by_cases small : i < 64
    · simpa [hi, small, -BitVec.getLsbD_eq_getElem] using bit
    · rw [BitVec.getLsbD_of_ge _ _ (by omega), BitVec.getLsbD_of_ge _ _ (by omega)]
  have unset : ∀ i, lanesOnly.getLsbD i = false → (new.getLsbD i && !(r.reg (RLINK_FAULTMAP d)).getLsbD i) = false := fun i hi => by
    rw [same i hi, Bool.and_not_self]
  have lanes : (new &&& ~~~ r.reg (RLINK_FAULTMAP d)) &&& lanesOnly ≠ 0 := fun none => more (BitVec.eq_of_getLsbD_eq fun i hi => by
    have bit := congrArg (·.getLsbD i) none
    by_cases lane : lanesOnly.getLsbD i = true
    · simpa [lane, hi, -BitVec.getLsbD_eq_getElem] using bit
    · simpa [hi, -BitVec.getLsbD_eq_getElem] using unset i (by simpa using lane))
  unfold Run.wFaultmap
  simp only [unset 56 (by decide), unset 58 (by decide), unset 59 (by decide), unset 60 (by decide), unset 61 (by decide), Bool.false_eq_true, false_and, or_self,
    and_false, if_false]
  exact if_pos lanes

/-- A full write sets the bits of fields that are set by a write of 1 (R6, R497). -/
theorem applyFields_w1s {fs : List Field} (old v : Word) (kind : ∀ x ∈ fs, x.acc.kind = .w1s) :
    applyFields fs old v (BitVec.allOnes 64) true true = old ||| (v &&& fieldsMask fs) := by
  have all : ∀ m : Word, applyFields fs (old ||| (v &&& m)) v (BitVec.allOnes 64) true true =
      old ||| (v &&& fs.foldl (fun m f => m ||| (BitVec.ofNat 64 (2 ^ (f.hi - f.lo + 1) - 1) <<< f.lo)) m) := by
    induction fs with
    | nil => exact fun _ => rfl
    | cons x xs ih =>
      obtain ⟨kx, kind⟩ := List.forall_mem_cons.1 kind
      intro m
      have one : applyFields [x] (old ||| (v &&& m)) v (BitVec.allOnes 64) true true = old ||| (v &&& (m ||| fieldMask x.hi x.lo)) := by
        simp only [applyFields, List.foldl_cons, List.foldl_nil, kx, Bool.not_true, Bool.and_false, Bool.or_self, Bool.false_eq_true, if_false,
          BitVec.and_allOnes]
        rw [BitVec.or_assoc, BitVec.and_or_distrib_left]
      rw [applyFields_cons, one, ih kind]
      rfl
  have start := all 0
  simp only [BitVec.ofNat_eq_ofNat, BitVec.and_zero, BitVec.or_zero] at start
  exact start

theorem Word.bits_or (a b : Word) (hi lo : Nat) : Word.bits (a ||| b) hi lo = Word.bits a hi lo ||| Word.bits b hi lo := by
  refine Nat.eq_of_testBit_eq fun i => ?_
  simp only [Nat.testBit_or, Word.bits, Nat.testBit_mod_two_pow, BitVec.testBit_toNat, BitVec.getLsbD_ushiftRight, BitVec.getLsbD_or]
  rw [Bool.and_or_distrib_left]

/-- R199, R200: lanes that a write of the map retires are gone, and the link retrains at the width of those that are left. -/
theorem faultmapWrite_retires (q : Requester) (d : Fin 16) (v : Word) (s : State) (still : s.still) (w : s.writer q) (online : s.online d = true)
    (lanes : v &&& ~~~ 0x3FFFF0003FFFF#64 = 0) (more : v &&& ~~~ s.reg (RLINK_FAULTMAP d) ≠ 0)
    (upEnough : 4 ≤ healthy (s.fld (RLINK_FAULTMAP_UP d) ||| Word.bits v 17 0)) (dnEnough : 4 ≤ healthy (s.fld (RLINK_FAULTMAP_DN d) ||| Word.bits v 49 32)) :
    ∃ t, exec (.faultmapWrite q d .full v) s = .next t ∧ t.reg (RLINK_FAULTMAP d) = s.reg (RLINK_FAULTMAP d) ||| v ∧ t.fld (RLINK_STAT_STATE d) = 5 ∧
      t.fld (RLINK_STAT_UPW d) = linkWidth (healthy (t.fld (RLINK_FAULTMAP_UP d))) ∧ t.fld (RLINK_STAT_DNW d) = linkWidth (healthy (t.fld (RLINK_FAULTMAP_DN d))) := by
  have apart : v &&& ~~~ lanesOnly = 0 := lanes
  have within : v &&& lanesOnly = v := by
    have parts : (v &&& lanesOnly) ||| (v &&& ~~~ lanesOnly) = v := by
      rw [← BitVec.and_or_distrib_left, BitVec.or_not_self, BitVec.and_allOnes]
    rwa [apart, BitVec.ofNat_eq_ofNat, BitVec.or_zero] at parts
  have held : lanesOnly &&& (RLINK_FAULTMAP d).mask = lanesOnly := by
    simp only [RLINK_FAULTMAP]
    decide
  have masked : v &&& (RLINK_FAULTMAP d).mask = v := by rw [← within, BitVec.and_assoc, held]
  have new : (Run.start s).fullWrite (RLINK_FAULTMAP d) fields_RLINK_FAULTMAP v = s.reg (RLINK_FAULTMAP d) ||| v := by
    have mask : fieldsMask fields_RLINK_FAULTMAP = (RLINK_FAULTMAP d).mask := by simp [fieldsMask, fields_RLINK_FAULTMAP, RLINK_FAULTMAP]
    rw [Run.fullWrite, applyFields_w1s _ _ (by decide), mask, masked]
    rfl
  have retires := (Run.start s).wFaultmap_lanes d (new := s.reg (RLINK_FAULTMAP d) ||| v)
    (by rw [BitVec.and_or_distrib_right, apart]; simp [Run.reg]) (by rw [BitVec.and_or_distrib_right]; simpa [Run.reg] using more)
  have begins : exec (.faultmapWrite q d .full v) s =
      ((((Run.start s).setReg (RLINK_FAULTMAP d) (s.reg (RLINK_FAULTMAP d) ||| v)).copyMap d).retrain d).done := by
    show ((Run.start s).regWrite q (RLINK_FAULTMAP d).off .full v).done = _
    rw [(Run.start s).write_link q v w (RLINK_placed d).1 (linkPage_regs d.isLt).2.2.1, ((Run.start s).regPut_link q d v).1, new, retires]
  set r := (Run.start s).setReg (RLINK_FAULTMAP d) (s.reg (RLINK_FAULTMAP d) ||| v) with hr
  have writes : Run.orderly (· = (RLINK_FAULTMAP d).off) (Run.start s) r := Run.orderly_setReg _ _ rfl
  have map : r.1.reg (RLINK_FAULTMAP d) = s.reg (RLINK_FAULTMAP d) ||| v := by
    rw [hr, Run.reg_setReg_same, BitVec.and_or_distrib_right, masked, State.reg, BitVec.and_assoc, BitVec.and_self]
  have copies := (r.marks_copyMap d).orderly
  set c := r.copyMap d
  have state : ∀ k < 16, c.1.online k = s.online k := fun k hk => by
    rw [copies.online (by simp only [RLINK_STAT, RILL_FAULTMAP]; omega), writes.online (by simp; omega)]
    rfl
  have mapC : c.1.reg (RLINK_FAULTMAP d) = s.reg (RLINK_FAULTMAP d) ||| v := (copies.reg (by simp only [RLINK_FAULTMAP, RILL_FAULTMAP]; omega)).trans map
  have whole : ∀ side, 4 ≤ healthy (c.1.fld (laneMap d side)) := fun side => by
    rw [State.fld, (laneMap_place d side).1, mapC, Word.bits_or]
    cases side
    · exact dnEnough
    · exact upEnough
  obtain ⟨trains, state5, upw, dnw, -⟩ := c.retrain_leaves ((state d d.isLt).trans online) whole
  have mapT : (c.retrain d).1.reg (RLINK_FAULTMAP d) = c.1.reg (RLINK_FAULTMAP d) := trains.reg (by simp)
  have steps : Run.orderly (fun _ => True) (Run.start s) (c.retrain d) :=
    (writes.mono fun _ _ => trivial).trans ((copies.mono fun _ _ => trivial).trans (trains.mono fun _ _ => trivial))
  refine ⟨_, begins.trans (steps.done still (.inr fun k hk was => ?_)), mapT.trans mapC, state5, ?_, ?_⟩
  · by_cases same : k = d
    · subst same
      rw [State.online, state5]
      rfl
    · rw [trains.online (by simp; omega), state k hk]
      exact was
  · rw [upw, State.fld, State.fld]
    simp only [RLINK_FAULTMAP_UP_place, mapT]
  · rw [dnw, State.fld, State.fld]
    simp only [RLINK_FAULTMAP_DN_place, mapT]

/-- Settles O29: a flit is accepted or rejected by its check code and its number, a rejection is answered by resending, and lanes that stall or that the
map names retire, at which the link retrains at the width of those that are left. -/
theorem linksComplete : Obligations.LinksComplete := by
  unfold Obligations.LinksComplete
  exact ⟨rillFlit_accepts, rillFlit_rejects, rillRetryRequest_resends, rillLaneStall_retires, rillRetrainDone_up, faultmapWrite_retires⟩

end Sys2Proof.Machine

/-! Resets of tiles and dies take their state (R215, R216, R219): which primitive changes they are made of. -/
namespace Sys2Proof.Machine

variable {s0 : State}

@[simp] theorem DOM_STAT_STATE_place (D : Nat) :
    (DOM_STAT_STATE D).reg = DOM_STAT D ∧ (DOM_STAT_STATE D).hi = 2 ∧ (DOM_STAT_STATE D).lo = 0 ∧ (DOM_STAT_STATE D).fits = true :=
  ⟨rfl, rfl, rfl, (DOM_STAT_fits D).1⟩

@[simp] theorem DOM_STAT_HOLD_place (D : Nat) :
    (DOM_STAT_HOLD D).reg = DOM_STAT D ∧ (DOM_STAT_HOLD D).hi = 8 ∧ (DOM_STAT_HOLD D).lo = 8 ∧ (DOM_STAT_HOLD D).fits = true :=
  ⟨rfl, rfl, rfl, (DOM_STAT_fits D).2⟩

@[simp] theorem DOM_STAT_off (D : Nat) : (DOM_STAT D).off = 0x1000092000 + D * 8 := rfl

/-! ### Runs by primitive changes of a kind -/

/-- A run has gone on by primitive changes that `P` names alone. -/
def Run.does (P : Act → Prop) (r q : Run s0) : Prop := ∃ as : List Act, q.1 = replay as r.1 ∧ ∀ a ∈ as, P a

variable {P : Act → Prop} {r p q : Run s0}

theorem Run.does.refl (r : Run s0) : Run.does P r r := ⟨[], rfl, List.forall_mem_nil _⟩

theorem Run.does.trans (a : Run.does P r p) (b : Run.does P p q) : Run.does P r q := by
  obtain ⟨as, ea, ha⟩ := a
  obtain ⟨bs, eb, hb⟩ := b
  exact ⟨as ++ bs, by rw [eb, ea, replay_append], List.forall_mem_append.2 ⟨ha, hb⟩⟩

theorem Run.does.mono {Q : Act → Prop} (a : Run.does P r q) (sub : ∀ a, P a → Q a) : Run.does Q r q := by
  obtain ⟨as, e, h⟩ := a
  exact ⟨as, e, fun a ha => sub a (h a ha)⟩

theorem Run.does.act (h : Run.does P r q) {a : Act} (ha : P a) : Run.does P r (q.act a) :=
  h.trans ⟨[a], rfl, List.forall_mem_singleton.2 ha⟩

theorem Run.does.foldl {α : Type} {f : Run s0 → α → Run s0} {xs : List α} (h : Run.does P r q) (step : ∀ p, ∀ x ∈ xs, Run.does P p (f p x)) :
    Run.does P r (xs.foldl f q) :=
  h.trans (List.foldlRecOn (motive := Run.does P q) xs f (.refl q) fun p hp x hx => hp.trans (step p x hx))

/-- What every change keeps, the run keeps. -/
theorem Run.does.keeps (h : Run.does P r q) (C : State → Prop) (each : ∀ a, P a → ∀ s, C s → C (a.apply s)) : C r.1 → C q.1 := by
  obtain ⟨as, e, ha⟩ := h
  rw [e]
  clear e
  generalize r.1 = s
  induction as generalizing s with
  | nil => exact id
  | cons a as ih =>
    obtain ⟨first, rest⟩ := List.forall_mem_cons.1 ha
    exact fun hs => ih rest (a.apply s) (each a first s hs)

/-- What no change touches, the run leaves. -/
theorem Run.does.same {β : Type} (h : Run.does P r q) (g : State → β) (each : ∀ a, P a → ∀ s, g (a.apply s) = g s) : g q.1 = g r.1 :=
  h.keeps (g · = g r.1) (fun a ha s hs => (each a ha s).trans hs) rfl

/-! ### Operations of resets -/

theorem Run.does.dropKeys {α : Type} {xs : Sparse α} {n : Nat → Bool} {f : Nat → Act} (h : Run.does P r q) (each : ∀ k, n k = true → P (f k)) :
    Run.does P r (q.dropKeys xs n f) :=
  h.foldl fun p e _ => by
    split
    next named => exact (Run.does.refl p).act (each e.1 named)
    next => exact .refl p

theorem Run.does.dropOps {n : Op → Bool} (h : Run.does P r q) (each : ∀ v, P (.ops v)) : Run.does P r (q.dropOps n) := by
  unfold Run.dropOps
  split
  · exact h.act (each _)
  · exact h

theorem Run.does.resetRegs {n : Nat → Bool} {cold : Bool} (h : Run.does P r q) (each : ∀ o v, n o = true → P (.regs o v)) :
    Run.does P r (q.resetRegs n cold) :=
  h.foldl fun p e _ => by
    split
    next => exact .refl p
    next named =>
      split
      · exact (Run.does.refl p).act (each e.1 _ (by simpa using named))
      · exact .refl p

/-- A store from which every key that is named is dropped lists none of them. -/
theorem Run.dropKeys_clears {α : Type} (r : Run s0) (xs : Sparse α) {n : Nat → Bool} {f : Nat → Act} {k : Nat} (C : State → Prop) (named : n k = true)
    (sets : ∀ s, C ((f k).apply s)) (keeps : ∀ j s, C s → C ((f j).apply s)) (unlisted : (∀ e ∈ xs, e.1 ≠ k) → C r.1) : C (r.dropKeys xs n f).1 := by
  unfold Run.dropKeys
  induction xs generalizing r with
  | nil => exact unlisted (List.forall_mem_nil _)
  | cons e xs ih =>
    refine ih _ fun rest => ?_
    by_cases same : e.1 = k
    · subst same
      dsimp only
      rw [if_pos named]
      exact sets r.1
    · have before : C r.1 := unlisted (List.forall_mem_cons.2 ⟨same, rest⟩)
      dsimp only
      by_cases other : n e.1 = true
      · rw [if_pos other]
        exact keeps e.1 r.1 before
      · rwa [if_neg other]

/-! ### What a reset of a part of a die changes -/

/-- The offsets of a compute die (R5). -/
def dieArea (d o : Nat) : Prop := dieBase d ≤ o ∧ o < dieBase d + 0x100000000

theorem dieArea_of_tile {n o : Nat} (lo : tileBase n ≤ o) (hi : o < tileBase n + 0x1000000) : dieArea (dieOf n) o := by
  unfold tileBase at lo hi
  unfold dieArea dieBase dieOf
  omega

theorem errBase_of_die {d : Nat} (hd : d < 16) : errBase d = dieBase d + 0x10100000 := if_neg (by omega)

/-- A change that a reset makes: registers of `W`, harts of `H`, tiles and lines of an L3, which are cleared, and other state that is not shared with
the rest of the package. -/
def Act.wipes (W H : Nat → Prop) : Act → Prop
  | .regs k _ => W k
  | .harts k v => H k ∧ v = {}
  | .tiles _ v => v = {}
  | .l3 _ v => v = none
  | .net _ | .need _ | .poke _ | .dies _ _ | .filt _ _ | .slices _ _ | .lineq _ _ | .limits _ _ | .aplicSrc _ _ | .dram _ _ | .fox _ | .pins _ => False
  | _ => True

variable {W H : Nat → Prop}

theorem Act.wipes_mono {V G : Nat → Prop} (regs : ∀ o, V o → W o) (harts : ∀ k, G k → H k) (a : Act) (h : a.wipes V G) : a.wipes W H := by
  cases a with
  | regs k v => exact regs k h
  | harts k v => exact ⟨harts k h.1, h.2⟩
  | _ => exact h

theorem Act.wipes_regs {k : Nat} {v : Option Word} (h : W k) : Act.wipes W H (.regs k v) := h

theorem Run.does.orderly (h : Run.does (Act.wipes W H) r q) : Run.orderly W r q where
  need := h.same State.need fun a ha s => by
    cases a with
    | need v => exact ha.elim
    | _ => rfl
  poke := h.same State.poke fun a ha s => by
    cases a with
    | poke v => exact ha.elim
    | _ => rfl
  net := h.same State.net fun a ha s => by
    cases a with
    | net v => exact ha.elim
    | _ => rfl
  sources := h.same State.aplicSrc fun a ha s => by
    cases a with
    | aplicSrc k v => exact ha.elim
    | _ => rfl
  regs o ho := h.same (Sparse.find? ·.regs o) fun a ha s => by
    cases a with
    | regs k v => exact Sparse.find?_upd_other _ _ fun same => ho (same ▸ ha)
    | _ => rfl
  drops := h.keeps State.noDrop fun a ha s hs => by
    cases a with
    | dies k v => exact ha.elim
    | _ => exact hs

/-- The steps of a reset of a tile: its harts, what lies between, the tile itself, and the rest. -/
theorem Run.wipeTile_steps (r : Run s0) {n : Nat} (hn : n < 256) (cold : Bool) :
    ∃ p, Run.does (Act.wipes (dieArea (dieOf n)) H) (r.dropKeys r.1.harts (fun k => k / 1 / 4 == n) (.harts · {})) p ∧
      Run.does (Act.wipes (dieArea (dieOf n)) H) (p.setTile n {}) (r.wipeTile n cold) := by
  unfold Run.wipeTile
  extract_lets hs r1 r2 r3 r4 r5 r6 r7 r8 r9 r10 r11 r12 r13 r14 r15
  have hartState : Run.does (Act.wipes (dieArea (dieOf n)) H) r1 r6 := by
    refine .dropOps ?_ fun _ => trivial
    iterate 4 refine .dropKeys ?_ fun _ _ => trivial
    exact .refl r1
  have caches : Run.does (Act.wipes (dieArea (dieOf n)) H) r1 r11 := by
    iterate 5 refine .dropKeys ?_ fun _ _ => trivial
    exact hartState
  have groups : Run.does (Act.wipes (dieArea (dieOf n)) H) r12 r13 :=
    (Run.does.refl r12).foldl fun p e _ => (Run.does.refl p).act (a := .groups _ _) trivial
  have arrays : Run.does (Act.wipes (dieArea (dieOf n)) H) r12 r14 := groups.foldl fun p k hk => by
    have small : k < 8 := List.mem_range.1 hk
    refine ((Run.does.refl p).act (Act.wipes_regs ?_)).act (Act.wipes_regs ?_)
    all_goals
      simp only [dieArea, ARR_FLIP, ARR_FLIPD]
      rw [errBase_of_die (d := dieOf n) (by unfold dieOf; omega)]
      omega
  have regs : Run.does (Act.wipes (dieArea (dieOf n)) H) r12 r15 := arrays.resetRegs fun o v named => by
    rw [Bool.and_eq_true, Bool.and_eq_true, decide_eq_true_eq, decide_eq_true_eq] at named
    exact Act.wipes_regs (dieArea_of_tile named.1.1 named.1.2)
  refine ⟨r11, caches, ?_⟩
  split
  · exact regs
  · refine regs.act (Act.wipes_regs (dieArea_of_tile ?_ ?_))
    all_goals
      simp only [TMON_PROC_LAPS, TMON_PROC]
      omega

/-- A reset of a tile changes registers of its die and its own harts alone (R215). -/
theorem Run.does_wipeTile (r : Run s0) {n : Nat} (hn : n < 256) (cold : Bool) :
    Run.does (Act.wipes (dieArea (dieOf n)) (tileOf · = n)) r (r.wipeTile n cold) := by
  obtain ⟨p, first, rest⟩ := r.wipeTile_steps hn cold
  have harts : Run.does (Act.wipes (dieArea (dieOf n)) (tileOf · = n)) r _ :=
    (Run.does.refl r).dropKeys (xs := r.1.harts) (n := fun k => k / 1 / 4 == n) (f := (.harts · {})) fun k hk => ⟨by simpa [tileOf] using hk, rfl⟩
  exact ((harts.trans first).act (a := .tiles n {}) rfl).trans rest

/-- The steps of a reset of a die: its tiles, its L3, and the rest. -/
theorem Run.wipeDie_steps (r : Run s0) {d : Nat} (hd : d < 16) (cold : Bool) (p : Run s0)
    (tiles : p = (List.range 16).foldl (fun r t => r.wipeTile (d * 16 + t) cold) r) :
    Run.does (Act.wipes (dieArea d) H) (p.dropKeys p.1.l3 (fun k => (l3Place k).1 == d) (.l3 · none)) (r.wipeDie d cold) := by
  subst tiles
  unfold Run.wipeDie
  extract_lets r1 r2 r3 r4 r5 cfg r6
  have quads : Run.does (Act.wipes (dieArea d) H) r2 r3 := (Run.does.refl r2).dropKeys fun _ _ => trivial
  have clock : Run.does (Act.wipes (dieArea d) H) r2 r5 :=
    (quads.foldl fun p b _ => (Run.does.refl p).act (a := .pmuEdge b 0) trivial).act (a := .tbrx d {}) trivial
  have regs : Run.does (Act.wipes (dieArea d) H) r2 r6 := clock.resetRegs fun o v named => by
    rw [Bool.and_eq_true, Bool.and_eq_true, decide_eq_true_eq, decide_eq_true_eq] at named
    exact Act.wipes_regs named.1
  refine regs.act (Act.wipes_regs ?_)
  simp only [ERR_CFG, errBase_of_die hd, dieArea]
  omega

theorem Run.does_wipeTiles (r : Run s0) {d : Nat} (hd : d < 16) (cold : Bool) :
    Run.does (Act.wipes (dieArea d) (· / 64 = d)) r ((List.range 16).foldl (fun r t => r.wipeTile (d * 16 + t) cold) r) :=
  (Run.does.refl r).foldl fun p t ht => by
    have small : t < 16 := List.mem_range.1 ht
    have die : dieOf (d * 16 + t) = d := by unfold dieOf; omega
    have all := p.does_wipeTile (n := d * 16 + t) (by omega) cold
    rw [die] at all
    exact all.mono (Act.wipes_mono (fun _ => id) fun k hk => by unfold tileOf at hk; omega)

/-- A reset of a die changes registers of the die and its own harts alone (R219). -/
theorem Run.does_wipeDie (r : Run s0) {d : Nat} (hd : d < 16) (cold : Bool) : Run.does (Act.wipes (dieArea d) (· / 64 = d)) r (r.wipeDie d cold) := by
  refine ((r.does_wipeTiles hd cold).trans ?_).trans (r.wipeDie_steps hd cold _ rfl)
  exact (Run.does.refl _).dropKeys fun _ _ => by exact rfl

/-- The domains of a die (R424). -/
def dieDomain (d o : Nat) : Prop := ∃ i < 21, o = (DOM_STAT (d * 21 + i)).off

/-- The domains of a die are gated with registers of theirs alone (R216). -/
theorem Run.does_gateDie (r : Run s0) (d : Nat) : Run.does (Act.wipes (dieDomain d) H) r (r.gateDie d) :=
  (Run.does.refl r).foldl fun p i hi =>
    ((Run.does.refl p).act (Act.wipes_regs ⟨i, List.mem_range.1 hi, rfl⟩)).act (Act.wipes_regs ⟨i, List.mem_range.1 hi, rfl⟩)

/-- A die held in reset loses its own state, and its domains are gated (R216). -/
theorem Run.does_holdDie (r : Run s0) {d : Nat} (hd : d < 16) :
    Run.does (Act.wipes (fun o => dieArea d o ∨ dieDomain d o) (· / 64 = d)) r (r.holdDie d) := by
  unfold Run.holdDie
  split
  · exact .refl r
  · exact ((r.does_wipeDie hd false).mono (Act.wipes_mono (fun _ => .inl) fun _ => id)).trans
      (((r.wipeDie d false).does_gateDie d).mono (Act.wipes_mono (fun _ => .inr) fun _ => id))

/-! ### What resets clear -/

theorem State.hart_write (s : State) (j k : Nat) (v : Hart) : ((Act.harts j v).apply s).hart k = if k = j then v else s.hart k :=
  Run.hart_setHart (Run.start s) j k v

theorem State.tile_write (s : State) (j k : Nat) (v : Tile) : ((Act.tiles j v).apply s).tile k = if k = j then v else s.tile k := by
  split
  next same =>
    subst same
    exact Sparse.get_upd_same _ _ _ _
  next other => exact Sparse.get_upd_other _ _ _ other

theorem State.l3Slot_write (s : State) (j k : Nat) (v : Option L3Slot) : ((Act.l3 j v).apply s).l3Slot k = if k = j then v else s.l3Slot k := by
  split
  next same =>
    subst same
    exact Sparse.find?_upd_same _ _ _
  next other => exact Sparse.find?_upd_other _ _ other

/-- A hart that is reset stays so under what resets do. -/
theorem Run.does.hart_reset (h : Run.does (Act.wipes W H) r q) {k : Nat} (reset : r.1.hart k = {}) : q.1.hart k = {} :=
  h.keeps (State.hart · k = {}) (fun a ha s hs => by
    cases a with
    | harts j v =>
      obtain ⟨-, rfl⟩ := ha
      rw [State.hart_write]
      split
      · rfl
      · exact hs
    | _ => exact hs) reset

/-- A hart that no change names is as it was. -/
theorem Run.does.hart_other (h : Run.does (Act.wipes W H) r q) {k : Nat} (other : ¬ H k) : q.1.hart k = r.1.hart k :=
  h.same (State.hart · k) fun a ha s => by
    cases a with
    | harts j v => rw [State.hart_write, if_neg fun same : k = j => other (same ▸ ha.1)]
    | _ => rfl

/-- A tile that is reset stays so. -/
theorem Run.does.tile_reset (h : Run.does (Act.wipes W H) r q) {n : Nat} (reset : r.1.tile n = {}) : q.1.tile n = {} :=
  h.keeps (State.tile · n = {}) (fun a ha s hs => by
    cases a with
    | tiles j v =>
      cases ha
      rw [State.tile_write]
      split
      · rfl
      · exact hs
    | _ => exact hs) reset

/-- A line that an L3 does not hold stays so. -/
theorem Run.does.l3_none (h : Run.does (Act.wipes W H) r q) {k : Nat} (none_ : r.1.l3Slot k = none) : q.1.l3Slot k = none :=
  h.keeps (State.l3Slot · k = none) (fun a ha s hs => by
    cases a with
    | l3 j v =>
      cases ha
      rw [State.l3Slot_write]
      split
      · rfl
      · exact hs
    | _ => exact hs) none_

/-- The harts of a tile that is reset, and the tile, take their reset state (R215). -/
theorem Run.wipeTile_clears (r : Run s0) {n : Nat} (hn : n < 256) (cold : Bool) :
    (r.wipeTile n cold).1.tile n = {} ∧ ∀ i < 4, (r.wipeTile n cold).1.hart (n * 4 + i) = {} := by
  obtain ⟨p, first, rest⟩ := r.wipeTile_steps (H := fun _ => False) hn cold
  refine ⟨rest.tile_reset ((State.tile_write p.1 n n {}).trans (if_pos rfl)), fun i hi => rest.hart_reset (first.hart_reset ?_)⟩
  refine r.dropKeys_clears r.1.harts (State.hart · (n * 4 + i) = {}) (k := n * 4 + i) ?_ (fun s => ?_) (fun j s hs => ?_) fun unlisted => ?_
  · simp only [Nat.div_one, beq_iff_eq]
    omega
  · rw [State.hart_write, if_pos rfl]
  · rw [State.hart_write]
    split
    · rfl
    · exact hs
  · rw [State.hart, Sparse.get, Sparse.find?_eq_none_of_unlisted unlisted]
    rfl

/-- What each of the steps brings about and the others keep stands after all of them. -/
theorem Run.foldl_brings {α : Type} {f : Run s0 → α → Run s0} {C : α → Run s0 → Prop} {xs : List α} (r : Run s0) (brings : ∀ p, ∀ x ∈ xs, C x (f p x))
    (keeps : ∀ p, ∀ x ∈ xs, ∀ y, C y p → C y (f p x)) : ∀ y, C y r ∨ y ∈ xs → C y (xs.foldl f r) := by
  induction xs generalizing r with
  | nil => exact fun y hy => hy.resolve_right List.not_mem_nil
  | cons x xs ih =>
    refine fun y hy => ih (f r x) (fun p z hz => brings p z (.tail _ hz)) (fun p z hz => keeps p z (.tail _ hz)) y ?_
    rcases hy with before | here
    · exact .inl (keeps r x (.head _) y before)
    · rcases List.mem_cons.1 here with rfl | later
      · exact .inl (brings r y (.head _))
      · exact .inr later

/-- The harts of a die that is reset take their reset state, and its L3 holds nothing (R219). -/
theorem Run.wipeDie_clears (r : Run s0) {d : Nat} (hd : d < 16) (cold : Bool) :
    (∀ j < 64, (r.wipeDie d cold).1.hart (d * 64 + j) = {}) ∧ ∀ k, (l3Place k).1 = d → (r.wipeDie d cold).1.l3Slot k = none := by
  have rest := r.wipeDie_steps (H := fun _ => False) hd cold _ rfl
  generalize tiles : (List.range 16).foldl (fun r t => r.wipeTile (d * 16 + t) cold) r = p at rest
  refine ⟨fun j hj => rest.hart_reset ?_, fun k hk => rest.l3_none ?_⟩
  · have dropped : Run.does (Act.wipes (dieArea d) fun _ => False) p (p.dropKeys p.1.l3 (fun k => (l3Place k).1 == d) (.l3 · none)) :=
      (Run.does.refl p).dropKeys fun _ _ => by exact rfl
    refine dropped.hart_reset ?_
    have all := Run.foldl_brings (f := fun r t => r.wipeTile (d * 16 + t) cold) (xs := List.range 16)
      (C := fun t q => ∀ i < 4, q.1.hart ((d * 16 + t) * 4 + i) = {}) r
      (fun p t ht => (p.wipeTile_clears (by have := List.mem_range.1 ht; omega) cold).2)
      (fun p t ht u reset i hi => (p.does_wipeTile (by have := List.mem_range.1 ht; omega) cold).hart_reset (reset i hi))
      (j / 4) (.inr (List.mem_range.2 (by omega))) (j % 4) (by omega)
    rw [tiles] at all
    rwa [show d * 64 + j = (d * 16 + j / 4) * 4 + j % 4 by omega]
  · refine p.dropKeys_clears p.1.l3 (State.l3Slot · k = none) (k := k) (beq_iff_eq.2 hk) (fun s => ?_) (fun j s hs => ?_) fun unlisted => ?_
    · rw [State.l3Slot_write, if_pos rfl]
    · rw [State.l3Slot_write]
      split
      · rfl
      · exact hs
    · exact Sparse.find?_eq_none_of_unlisted unlisted

theorem Run.gateDomain_state (r : Run s0) (D : Nat) : ((r.setFld (DOM_STAT_STATE D) 3).setFld (DOM_STAT_HOLD D) 0).1.fld (DOM_STAT_STATE D) = 3 := by
  rw [Run.fld_setFld_ne _ _ (by simp) (by simp) (by simp), Run.fld_setFld_lt _ (by simp) (by simp)]

/-- A die whose first reset wire works is held in reset: its harts take their reset state, its L3 holds nothing and its domains are gated (R216). -/
theorem Run.holdDie_clears (r : Run s0) {d : Nat} (hd : d < 16) (wire : r.1.fld (RLINK_FAULTMAP_RSTA d) = 0) :
    (∀ j < 64, (r.holdDie d).1.hart (d * 64 + j) = {}) ∧ (∀ k, (l3Place k).1 = d → (r.holdDie d).1.l3Slot k = none) ∧
      ∀ i < 21, (r.holdDie d).1.fld (DOM_STAT_STATE (d * 21 + i)) = 3 := by
  have works : r.holdDie d = (r.wipeDie d false).gateDie d := by
    unfold Run.holdDie Run.on Run.fld
    rw [wire]
    rfl
  obtain ⟨harts, lines⟩ := r.wipeDie_clears hd false
  have gated : Run.does (Act.wipes (dieDomain d) fun _ => False) _ _ := (r.wipeDie d false).does_gateDie d
  rw [works]
  refine ⟨fun j hj => gated.hart_reset (harts j hj), fun k hk => gated.l3_none (lines k hk), fun i hi => ?_⟩
  refine Run.foldl_brings (C := fun i q => q.1.fld (DOM_STAT_STATE (d * 21 + i)) = 3) (xs := List.range 21) _ (fun p i _ => ?_) (fun p i _ k before => ?_)
    i (.inr (List.mem_range.2 hi))
  · exact p.gateDomain_state (d * 21 + i)
  · by_cases same : k = i
    · rw [same]
      exact p.gateDomain_state (d * 21 + i)
    · rwa [Run.fld_setFld_other, Run.fld_setFld_other]
      all_goals
        simp
        omega

end Sys2Proof.Machine

/-! A die rejoins (R201, R203, R219, R220). -/
namespace Sys2Proof.Machine

variable {s0 : State}

@[simp] theorem FABRIC_COPY_POLY_place (d : Nat) : (FABRIC_COPY_POLY d).reg.off = 0x10030000 + d * 0x100000000 ∧ (FABRIC_COPY_POLY d).hi = 1 ∧
    (FABRIC_COPY_POLY d).lo = 0 ∧ (FABRIC_COPY_POLY d).fits = true :=
  ⟨rfl, rfl, rfl, by simp only [FRef.fits_iff, FABRIC_COPY_POLY, FABRIC_COPY]; decide⟩

/-! ### What a rejoin writes -/

/-- The registers of a die: those of its link, its own, and its domains'. -/
def dieRelated (d o : Nat) : Prop := (0x10000b0000 + d * 0x1000 ≤ o ∧ o < 0x10000b0000 + d * 0x1000 + 0x1000) ∨ dieArea d o ∨ dieDomain d o

/-- Neither the die nor its domains lie among the links' registers. -/
theorem linkPage_apart {d o : Nat} (hd : d < 16) (page : linkPage o) : ¬ (dieArea d o ∨ dieDomain d o) := by
  obtain ⟨k, hk, x, hx, rfl⟩ := page
  rintro (⟨lo, hi⟩ | ⟨i, hi, off⟩)
  · unfold dieBase at hi
    omega
  · rw [DOM_STAT_off] at off
    omega

theorem dieRelated_other {d k : Nat} (hd : d < 16) (hk : k < 16) (ne : k ≠ d) : ¬ dieRelated d (RLINK_STAT k).off := by
  rintro (own | other)
  · rw [(RLINK_offs k).1] at own
    omega
  · exact linkPage_apart hd (linkPage_regs hk).1 other

theorem dieRelated_link (d : Nat) : dieRelated d (RLINK_STAT d).off ∧ dieRelated d (RLINK_FAULTMAP d).off ∧ dieRelated d (RLINK_RESET d).off ∧
    dieRelated d (RLINK_CTL d).off := by
  refine ⟨.inl ?_, .inl ?_, .inl ?_, .inl ?_⟩
  all_goals
    simp only [RLINK_offs]
    omega

/-- A command on a die that was not online ends with what it has done. -/
theorem Run.orderly.done_offline {s : State} {r : Run s} {d : Nat} (h : Run.orderly (dieRelated d) (Run.start s) r) (hd : d < 16) (still : s.still)
    (off : s.online d = false) : r.done = .next r.1 := by
  refine h.done still (.inr fun k hk on => ?_)
  have ne : k ≠ d := fun same => by simp [same, off] at on
  exact (h.online (dieRelated_other hd hk ne)).trans on

theorem State.not_online {s : State} {d : Nat} (four : s.fld (RLINK_STAT_STATE d) ≠ 4) (five : s.fld (RLINK_STAT_STATE d) ≠ 5) : s.online d = false := by
  simp [State.online, four, five]

/-- A join that fails leaves STATE 7 with cause 3 and no widths, and the die in reset where its first reset wire works (R220). -/
theorem Run.joinFails_leaves (r : Run s0) {d : Nat} (hd : d < 16) :
    Run.orderly (dieRelated d) r (r.joinFails d) ∧ (r.joinFails d).1.fld (RLINK_STAT_STATE d) = 7 ∧ (r.joinFails d).1.fld (RLINK_STAT_LASTCAUSE d) = 3 ∧
      (r.joinFails d).1.fld (RLINK_STAT_UPW d) = 0 ∧ (r.joinFails d).1.fld (RLINK_STAT_DNW d) = 0 ∧
      (r.1.fld (RLINK_FAULTMAP_RSTA d) = 0 → ∀ j < 64, (r.joinFails d).1.hart (d * 64 + j) = {}) := by
  obtain ⟨stat, -, -, -⟩ := dieRelated_link d
  set f := (r.setFld (RLINK_STAT_STATE d) 7).setFld (RLINK_STAT_LASTCAUSE d) 3 with hf
  set w := (f.setFld (RLINK_STAT_UPW d) 0).setFld (RLINK_STAT_DNW d) 0 with hw
  have writes : Run.orderly (· = (RLINK_STAT d).off) r w :=
    (((r.orderly_setFld _ (by simp)).trans (Run.orderly_setFld (f := RLINK_STAT_LASTCAUSE d) _ _ (by simp))).trans
      (f.orderly_setFld (f := RLINK_STAT_UPW d) _ (by simp))).trans (Run.orderly_setFld (f := RLINK_STAT_DNW d) _ _ (by simp))
  have holds := (w.does_holdDie hd).orderly
  have ends : r.joinFails d = (w.holdDie d).modDie d fun x => { x with trained := false, opened := true } := rfl
  have page : ¬ (dieArea d (RLINK_STAT d).off ∨ dieDomain d (RLINK_STAT d).off) := linkPage_apart hd (linkPage_regs hd).1
  rw [ends]
  refine ⟨?_, ?_, ?_, ?_, ?_, fun wire => ?_⟩
  · exact ((writes.mono fun o same => by rwa [same]).trans (holds.mono fun o => .inr)).trans (Run.orderly_modDie _ d fun _ => id)
  · rw [Run.fld_modDie, holds.fld page, hw, Run.fld_setFld_ne _ _ (by simp) (by simp) (by simp), Run.fld_setFld_ne _ _ (by simp) (by simp) (by simp),
      hf, Run.fld_setFld_ne _ _ (by simp) (by simp) (by simp), Run.fld_setFld_lt _ (by simp) (by simp)]
  · rw [Run.fld_modDie, holds.fld page, hw, Run.fld_setFld_ne _ _ (by simp) (by simp) (by simp), Run.fld_setFld_ne _ _ (by simp) (by simp) (by simp),
      hf, Run.fld_setFld_lt _ (by simp) (by simp)]
  · rw [Run.fld_modDie, holds.fld page, hw, Run.fld_setFld_ne _ _ (by simp) (by simp) (by simp), Run.fld_setFld_lt _ (by simp) (by simp)]
  · rw [Run.fld_modDie, holds.fld page, hw, Run.fld_setFld_lt _ (by simp) (by simp)]
  · exact (w.holdDie_clears hd ((writes.fld (by simp)).trans wire)).1

/-! ### The map at training -/

/-- The lanes that a test finds are those of the map that it brings (R203). -/
theorem Run.found_lanes (r : Run s0) (d : Nat) (map : Word) :
    Word.bits (r.found d map) 17 0 = Word.bits map 17 0 ∧ Word.bits (r.found d map) 49 32 = Word.bits map 49 32 := by
  unfold Run.found
  split
  · exact ⟨rfl, rfl⟩
  · split
    · exact ⟨Word.bits_and _ _ (by decide) (by decide) (by decide), Word.bits_and _ _ (by decide) (by decide) (by decide)⟩
    · exact ⟨Word.bits_and _ _ (by decide) (by decide) (by decide), Word.bits_and _ _ (by decide) (by decide) (by decide)⟩

/-- A map gains at both ends what the test found, and no STATE changes (R199, R201). -/
theorem Run.orMap_leaves (r : Run s0) (d : Nat) (map : Word) :
    Run.orderly (dieRelated d) r (r.orMap d map) ∧
      (r.orMap d map).1.reg (RLINK_FAULTMAP d) = r.1.reg (RLINK_FAULTMAP d) ||| (r.found d map &&& (RLINK_FAULTMAP d).mask) ∧
      (r.orMap d map).1.reg (RILL_FAULTMAP d) = (r.orMap d map).1.reg (RLINK_FAULTMAP d) ∧
      (r.orMap d map).1.fld (RLINK_STAT_STATE d) = r.1.fld (RLINK_STAT_STATE d) := by
  obtain ⟨stat, faultmap, -, -⟩ := dieRelated_link d
  have copy : dieRelated d (RILL_FAULTMAP d).off := .inr (.inl (by simp only [dieArea, dieBase, RILL_FAULTMAP]; omega))
  unfold Run.orMap
  extract_lets m p
  have map_ : m.1.reg (RLINK_FAULTMAP d) = r.1.reg (RLINK_FAULTMAP d) ||| (r.found d map &&& (RLINK_FAULTMAP d).mask) := by
    rw [Run.reg_setReg_same, BitVec.and_or_distrib_right, Run.reg, State.reg, BitVec.and_assoc, BitVec.and_self]
  have ticks : Run.orderly (· = (RLINK_STAT d).off) m p ∧ p.1.fld (RLINK_STAT_STATE d) = m.1.fld (RLINK_STAT_STATE d) := by
    unfold p
    split
    · exact ⟨m.orderly_setFld _ (by simp), m.fld_setFld_ne _ (by simp) (by simp) (by simp)⟩
    · exact ⟨.refl m, rfl⟩
  obtain ⟨ticks, state⟩ := ticks
  have apart : (RLINK_FAULTMAP d).off ≠ (RILL_FAULTMAP d).off := by simp only [RLINK_FAULTMAP, RILL_FAULTMAP]; omega
  have takes : Run.orderly (· = (RILL_FAULTMAP d).off) p (p.setReg (RILL_FAULTMAP d) (p.reg (RLINK_FAULTMAP d))) := p.orderly_setReg _ rfl
  refine ⟨((Run.orderly_setReg r _ faultmap).trans (ticks.mono fun o same => by rwa [same])).trans (takes.mono fun o same => by rwa [same]), ?_, ?_, ?_⟩
  · rw [takes.reg apart, ticks.reg (by simp), map_]
  · rw [takes.reg apart, Run.reg_setReg_same]
    exact BitVec.and_assoc _ _ _ ▸ congrArg _ (BitVec.and_self (x := (RLINK_FAULTMAP d).mask))
  · rw [takes.fld (f := RLINK_STAT_STATE d) (by simp only [RLINK_STAT_STATE, RLINK_STAT, RILL_FAULTMAP]; omega), state]
    exact (Run.orderly_setReg (W := (· = (RLINK_FAULTMAP d).off)) r _ rfl).fld (by simp)

/-- The lanes of a map that has gained what a test found. -/
theorem Run.orMap_lanes (r : Run s0) (d : Nat) (map : Word) :
    (r.orMap d map).1.fld (RLINK_FAULTMAP_UP d) = r.1.fld (RLINK_FAULTMAP_UP d) ||| Word.bits map 17 0 ∧
      (r.orMap d map).1.fld (RLINK_FAULTMAP_DN d) = r.1.fld (RLINK_FAULTMAP_DN d) ||| Word.bits map 49 32 := by
  obtain ⟨-, map_, -, -⟩ := r.orMap_leaves d map
  obtain ⟨up, dn⟩ := r.found_lanes d map
  simp only [State.fld, RLINK_FAULTMAP_UP_place, RLINK_FAULTMAP_DN_place, map_, Word.bits_or]
  rw [Word.bits_and _ (RLINK_FAULTMAP d).mask (by decide) (by decide) (by simp only [RLINK_FAULTMAP]; decide),
    Word.bits_and _ (RLINK_FAULTMAP d).mask (by decide) (by decide) (by simp only [RLINK_FAULTMAP]; decide), up, dn]
  exact ⟨rfl, rfl⟩

/-- R203, R220: after its self-test a die trains, with the faults found in its map at both ends. -/
theorem dieSelfTestDone_trains (d : Fin 16) (map : Word) (s : State) (still : s.still) (tests : s.fld (RLINK_STAT_STATE d) = 1) :
    ∃ t, exec (.dieSelfTestDone d map) s = .next t ∧ t.fld (RLINK_STAT_STATE d) = 2 ∧
      t.reg (RLINK_FAULTMAP d) = s.reg (RLINK_FAULTMAP d) ||| ((Run.start s).found d map &&& (RLINK_FAULTMAP d).mask) ∧
      t.reg (RILL_FAULTMAP d) = t.reg (RLINK_FAULTMAP d) := by
  have begins : exec (.dieSelfTestDone d map) s = (((Run.start s).orMap d map).setFld (RLINK_STAT_STATE d) 2).done := if_pos tests
  obtain ⟨finds, map_, copy, -⟩ := (Run.start s).orMap_leaves d map
  set m := (Run.start s).orMap d map
  have trains : Run.orderly (· = (RLINK_STAT d).off) m (m.setFld (RLINK_STAT_STATE d) 2) := m.orderly_setFld _ (by simp)
  have faultmap : (m.setFld (RLINK_STAT_STATE d) 2).1.reg (RLINK_FAULTMAP d) = m.1.reg (RLINK_FAULTMAP d) := trains.reg (by simp)
  have steps := finds.trans (trains.mono fun o same => by rw [same]; exact (dieRelated_link d).1)
  refine ⟨_, begins.trans (steps.done_offline d.isLt still (State.not_online (by omega) (by omega))), m.fld_setFld_lt (by simp) (by simp),
    faultmap.trans map_, ?_⟩
  rw [faultmap, trains.reg (by simp only [RLINK_STAT, RILL_FAULTMAP]; omega), copy]

/-- Training takes the widths of the map with what it found, and leaves STATE (R201). -/
theorem Run.trains_leaves (r : Run s0) (d : Nat) (map : Word) :
    Run.orderly (dieRelated d) r ((r.orMap d map).setWidths d) ∧
      ((r.orMap d map).setWidths d).1.fld (RLINK_STAT_STATE d) = r.1.fld (RLINK_STAT_STATE d) ∧
      ((r.orMap d map).setWidths d).1.reg (RLINK_FAULTMAP d) = (r.orMap d map).1.reg (RLINK_FAULTMAP d) ∧
      ∀ up, ((r.orMap d map).setWidths d).dirWidth d up = linkWidth (healthy ((r.orMap d map).1.fld (laneMap d up))) := by
  obtain ⟨finds, -, -, state⟩ := r.orMap_leaves d map
  obtain ⟨takes, -, -, rest⟩ := (r.orMap d map).setWidths_leaves d
  have faultmap := takes.reg (g := RLINK_FAULTMAP d) (by simp)
  exact ⟨finds.trans (takes.mono fun o same => by rw [same]; exact (dieRelated_link d).1), (rest _ (by simp) (by simp) (by simp)).trans state, faultmap,
    fun up => (Run.dirWidth_of_reg faultmap up).trans (Run.dirWidth_eq _ d up)⟩

theorem exec_linkTrainingDone (d : Fin 16) (map : Word) (s : State) (w : Run s) (trained : w = ((Run.start s).orMap d map).setWidths d)
    (training : s.fld (RLINK_STAT_STATE d) = 2) :
    exec (.linkTrainingDone d map) s =
      if w.dirWidth d true = 0 ∨ w.dirWidth d false = 0 ∨ w.sideDown d = true then (w.joinFails d).done
      else (w.modDie d fun x => { x with trained := true, up := {}, dn := {} }).done := by
  subst trained
  exact if_neg (not_not.2 training)

/-- R201, R220: a link with lanes enough trains, at the widths of its map. -/
theorem linkTrainingDone_trains (d : Fin 16) (map : Word) (s : State) (still : s.still) (training : s.fld (RLINK_STAT_STATE d) = 2)
    (upEnough : 4 ≤ healthy (s.fld (RLINK_FAULTMAP_UP d) ||| Word.bits map 17 0))
    (dnEnough : 4 ≤ healthy (s.fld (RLINK_FAULTMAP_DN d) ||| Word.bits map 49 32)) (side : ((Run.start s).orMap d map).sideDown d = false) :
    ∃ t, exec (.linkTrainingDone d map) s = .next t ∧ t.fld (RLINK_STAT_STATE d) = 2 ∧ (t.die d).trained = true ∧ (t.die d).up = {} ∧ (t.die d).dn = {} ∧
      t.fld (RLINK_STAT_UPW d) = linkWidth (healthy (t.fld (RLINK_FAULTMAP_UP d))) ∧ t.fld (RLINK_STAT_DNW d) = linkWidth (healthy (t.fld (RLINK_FAULTMAP_DN d))) := by
  obtain ⟨steps, state, faultmap, widths⟩ := (Run.start s).trains_leaves d map
  obtain ⟨-, upw, dnw, -⟩ := ((Run.start s).orMap d map).setWidths_leaves d
  obtain ⟨up, dn⟩ := (Run.start s).orMap_lanes d map
  have begins := exec_linkTrainingDone d map s _ rfl training
  generalize (Run.start s).orMap d map = m at *
  generalize m.setWidths d = w at *
  have mapped (f : FRef) (reg : f.reg = RLINK_FAULTMAP d) : w.1.fld f = m.1.fld f := by rw [State.fld, State.fld, reg, faultmap]
  have enough : ∀ up, w.dirWidth d up ≠ 0 := fun side => by
    rw [widths]
    refine linkWidth_ne_zero ?_
    cases side
    · exact dn ▸ dnEnough
    · exact up ▸ upEnough
  have both : w.sideDown d = false := by
    rw [← side]
    simp only [Run.sideDown, Run.on, Run.fld]
    rw [mapped (RLINK_FAULTMAP_SBUPP d) rfl, mapped (RLINK_FAULTMAP_SBUPS d) rfl, mapped (RLINK_FAULTMAP_SBDNP d) rfl, mapped (RLINK_FAULTMAP_SBDNS d) rfl]
  rw [if_neg (by simp [enough, both])] at begins
  have ends : Run.orderly (dieRelated d) w (w.modDie d fun x => { x with trained := true, up := {}, dn := {} }) := w.orderly_modDie d fun _ => id
  refine ⟨_, begins.trans ((steps.trans ends).done_offline d.isLt still (State.not_online (by omega) (by omega))),
    (Run.fld_modDie _ _ _ _).trans (state.trans training), by rw [Run.die_modDie], by rw [Run.die_modDie], by rw [Run.die_modDie], ?_, ?_⟩
  · rw [Run.fld_modDie, Run.fld_modDie, upw, mapped _ (RLINK_FAULTMAP_UP_place d).1]
    exact m.dirWidth_eq d true
  · rw [Run.fld_modDie, Run.fld_modDie, dnw, mapped _ (RLINK_FAULTMAP_DN_place d).1]
    exact m.dirWidth_eq d false

/-- R201, R220: with too few lanes the attempt ends. -/
theorem linkTrainingDone_fails (d : Fin 16) (map : Word) (s : State) (still : s.still) (training : s.fld (RLINK_STAT_STATE d) = 2)
    (few : healthy (s.fld (RLINK_FAULTMAP_UP d) ||| Word.bits map 17 0) < 4) :
    ∃ t, exec (.linkTrainingDone d map) s = .next t ∧ t.fld (RLINK_STAT_STATE d) = 7 ∧ t.fld (RLINK_STAT_LASTCAUSE d) = 3 := by
  obtain ⟨steps, -, -, widths⟩ := (Run.start s).trains_leaves d map
  obtain ⟨up, -⟩ := (Run.start s).orMap_lanes d map
  have none : (((Run.start s).orMap d map).setWidths d).dirWidth d true = 0 := by
    have lanes : ((Run.start s).orMap d map).1.fld (laneMap d true) = s.fld (RLINK_FAULTMAP_UP d) ||| Word.bits map 17 0 := up
    rw [widths, lanes, linkWidth, if_neg (by omega), if_neg (by omega), if_neg (by omega), if_neg (by omega)]
  have begins := (exec_linkTrainingDone d map s _ rfl training).trans (if_pos (.inl none))
  obtain ⟨fails, state, cause, -, -, -⟩ := (((Run.start s).orMap d map).setWidths d).joinFails_leaves d.isLt
  exact ⟨_, begins.trans ((steps.trans fails).done_offline d.isLt still (State.not_online (by omega) (by omega))), state, cause⟩

/-! ### Joins -/

/-- What a die needs to ask for its join: a trained link and its clock (R220 step 4). -/
theorem exec_joinRequest (d : Fin 16) (baseline : Word) (s : State) (training : s.fld (RLINK_STAT_STATE d) = 2) (trained : (s.die d).trained = true)
    (clock : s.fld (TBRX_STATUS_LOST d) = 0) :
    exec (.joinRequest d baseline) s =
      if baseline ≠ s.reg ID_BASELINE then ((Run.start s).joinFails d).done
      else ((((Run.start s).dropKeys s.seqs (fun k => k / 8 / 8192 / 256 == d.val || k / 8 % 8192 / 256 == d.val) (.seqs · 0)).setFld (FABRIC_COPY_POLY d)
        (((Run.start s).dropKeys s.seqs (fun k => k / 8 / 8192 / 256 == d.val || k / 8 % 8192 / 256 == d.val) (.seqs · 0)).fld FABRIC_CHKCFG_POLY)).setFld
        (RLINK_STAT_STATE d) 3).done := by
  refine if_neg ?_
  simp only [not_or, not_not, not_and]
  refine ⟨training, by simp [Run.die, trained, Run.start], fun lost => ?_⟩
  simp [Run.on, Run.fld, Run.start, clock] at lost

/-- R220: a die whose baseline is the package's joins, and takes the polynomial of the check units. -/
theorem joinRequest_joins (d : Fin 16) (s : State) (still : s.still) (training : s.fld (RLINK_STAT_STATE d) = 2) (trained : (s.die d).trained = true)
    (clock : s.fld (TBRX_STATUS_LOST d) = 0) :
    ∃ t, exec (.joinRequest d (s.reg ID_BASELINE)) s = .next t ∧ t.fld (RLINK_STAT_STATE d) = 3 ∧ t.fld (FABRIC_COPY_POLY d) = s.fld FABRIC_CHKCFG_POLY := by
  have begins := exec_joinRequest d (s.reg ID_BASELINE) s training trained clock
  rw [if_neg (not_not.2 rfl)] at begins
  have forgets : Run.does (Act.wipes (dieRelated d) fun _ => False) (Run.start s)
      ((Run.start s).dropKeys s.seqs (fun k => k / 8 / 8192 / 256 == d.val || k / 8 % 8192 / 256 == d.val) (.seqs · 0)) :=
    (Run.does.refl _).dropKeys fun _ _ => trivial
  generalize (Run.start s).dropKeys s.seqs (fun k => k / 8 / 8192 / 256 == d.val || k / 8 % 8192 / 256 == d.val) (.seqs · 0) = p at begins forgets
  have own : dieRelated d (FABRIC_COPY_POLY d).reg.off := .inr (.inl (by simp only [dieArea, dieBase, FABRIC_COPY_POLY_place]; omega))
  have far : ¬ dieRelated d FABRIC_CHKCFG_POLY.reg.off := by
    simp only [dieRelated, dieArea, dieBase, dieDomain, FABRIC_CHKCFG_POLY, FABRIC_CHKCFG, DOM_STAT_off]
    omega
  have steps := (forgets.orderly.trans (p.orderly_setFld (p.fld FABRIC_CHKCFG_POLY) own)).trans
    (Run.orderly_setFld (f := RLINK_STAT_STATE d) _ 3 (dieRelated_link d).1)
  refine ⟨_, begins.trans (steps.done_offline d.isLt still (State.not_online (by omega) (by omega))), Run.fld_setFld_lt _ (by simp) (by simp), ?_⟩
  rw [Run.fld_setFld_other, Run.fld_setFld_lt]
  · exact forgets.orderly.fld far
  · simp
  · exact p.1.fld_lt FABRIC_CHKCFG_POLY
  · simp
    omega

/-- R220: with another baseline the attempt ends. -/
theorem joinRequest_fails (d : Fin 16) (baseline : Word) (s : State) (still : s.still) (training : s.fld (RLINK_STAT_STATE d) = 2)
    (trained : (s.die d).trained = true) (clock : s.fld (TBRX_STATUS_LOST d) = 0) (differs : baseline ≠ s.reg ID_BASELINE) :
    ∃ t, exec (.joinRequest d baseline) s = .next t ∧ t.fld (RLINK_STAT_STATE d) = 7 ∧ t.fld (RLINK_STAT_LASTCAUSE d) = 3 := by
  obtain ⟨fails, state, cause, -, -, -⟩ := (Run.start s).joinFails_leaves d.isLt
  have begins := (exec_joinRequest d baseline s training trained clock).trans (if_pos differs)
  exact ⟨_, begins.trans (fails.done_offline d.isLt still (State.not_online (by omega) (by omega))), state, cause⟩

/-- A die that ADMIT unfences (R219). -/
def Run.unfence (r : Run s0) (d : Nat) : Run s0 :=
  (((r.setFld (RLINK_CTL_ADMIT d) 1).setFld (RLINK_STAT_STATE d) 4).addSat (RLINK_STAT_JOINS d) 1).modDie d fun x =>
    { x with late := false, opened := false, drop := 0 }

theorem Run.unfence_leaves (r : Run s0) (d : Nat) :
    (r.unfence d).1.fld (RLINK_STAT_STATE d) = 4 ∧ (r.unfence d).1.fld (RLINK_CTL_ADMIT d) = 1 ∧
      (r.unfence d).1.fld (RLINK_STAT_JOINS d) = min (r.1.fld (RLINK_STAT_JOINS d) + 1) 65535 ∧
      (r.unfence d).1.die d = { r.1.die d with late := false, opened := false, drop := 0 } := by
  unfold Run.unfence
  refine ⟨?_, ?_, ?_, ?_⟩
  · rw [Run.fld_modDie, Run.addSat, Run.fld_setFld_ne _ _ (by simp) (by simp) (by simp), Run.fld_setFld_lt _ (by simp) (by simp)]
  · rw [Run.fld_modDie, Run.addSat, Run.fld_setFld_ne _ _ (by simp) (by simp) (by simp), Run.fld_setFld_ne _ _ (by simp) (by simp) (by simp),
      Run.fld_setFld_lt _ (by simp) (by simp)]
  · rw [Run.fld_modDie, Run.fld_addSat _ _ (by simp), Run.fld_setFld_ne _ _ (by simp) (by simp) (by simp),
      Run.fld_setFld_ne _ _ (by simp) (by simp) (by simp)]
    rfl
  · rw [Run.die_modDie]
    rfl

theorem Run.wRlinkCtl_admits (r : Run s0) {d : Nat} {new : Word} (joined : r.1.fld (RLINK_STAT_STATE d) = 3) (ns : r.1.noSources)
    (unfences : new.getLsbD 0 = true) : r.wRlinkCtl d new = r.unfence d := by
  have joined : r.fld (RLINK_STAT_STATE d) = 3 := joined
  unfold Run.wRlinkCtl
  rw [if_neg (by simp [unfences]), if_neg (not_not.2 joined)]
  extract_lets late p u
  split
  · exact Run.aplicEdge_noSources u ns _
  · rfl

/-- R219, R220: ADMIT unfences a die that has joined, and counts the join. -/
theorem admitDie_unfences (q : Requester) (d : Fin 16) (s : State) (still : s.still) (ns : s.noSources) (w : s.writer q) (joined : s.fld (RLINK_STAT_STATE d) = 3) :
    ∃ t, exec (.admitDie q d) s = .next t ∧ t.fld (RLINK_STAT_STATE d) = 4 ∧ t.fld (RLINK_CTL_ADMIT d) = 1 ∧
      t.fld (RLINK_STAT_JOINS d) = min (s.fld (RLINK_STAT_JOINS d) + 1) 65535 ∧ (t.die d).drop = 0 ∧ (t.die d).late = false ∧ t.harts = s.harts := by
  have write : (Run.start s).write q (RLINK_CTL d) 1 = (Run.start s).wRlinkCtl d ((Run.start s).fullWrite (RLINK_CTL d) fields_RLINK_CTL 1) :=
    ((Run.start s).write_link q 1 w (RLINK_placed d).2.2 (linkPage_regs d.isLt).2.2.2.2).trans ((Run.start s).regPut_link q d 1).2.2
  have unfences : ((Run.start s).fullWrite (RLINK_CTL d) fields_RLINK_CTL 1).getLsbD 0 = true := by
    rw [Run.fullWrite, applyFields_w1s _ _ (by decide), BitVec.getLsbD_or]
    exact Bool.or_eq_true_iff.2 (.inr (by decide))
  have begins := (congrArg Run.done write).trans (congrArg Run.done ((Run.start s).wRlinkCtl_admits joined ns unfences))
  obtain ⟨stat, -, -, ctl⟩ := dieRelated_link d
  have lift : Run.orderly (dieRelated d) (Run.start s) ((Run.start s).unfence d) :=
    ((((Run.start s).orderly_setFld (f := RLINK_CTL_ADMIT d) _ ctl).trans (Run.orderly_setFld (f := RLINK_STAT_STATE d) _ _ stat)).trans
      (Run.orderly_setFld (f := RLINK_STAT_JOINS d) _ _ stat)).trans (Run.orderly_modDie _ d fun _ _ => Nat.zero_ne_one)
  have ends := lift.done_offline d.isLt still (State.not_online (by omega) (by omega))
  obtain ⟨state, admitted, joins, die⟩ := (Run.start s).unfence_leaves d
  exact ⟨_, begins.trans ends, state, admitted, joins, by rw [die], by rw [die], rfl⟩

/-- R220: a step that takes too long ends the attempt. -/
theorem rejoinStepTimeout_fails (d : Fin 16) (s : State) (still : s.still) (lo : 1 ≤ s.fld (RLINK_STAT_STATE d)) (hi : s.fld (RLINK_STAT_STATE d) ≤ 3)
    (wire : s.fld (RLINK_FAULTMAP_RSTA d) = 0) :
    ∃ t, exec (.rejoinStepTimeout d) s = .next t ∧ t.fld (RLINK_STAT_STATE d) = 7 ∧ t.fld (RLINK_STAT_LASTCAUSE d) = 3 ∧ t.fld (RLINK_STAT_UPW d) = 0 ∧
      t.fld (RLINK_STAT_DNW d) = 0 ∧ ∀ j < 64, t.hart (d * 64 + j) = {} := by
  have begins : exec (.rejoinStepTimeout d) s = ((Run.start s).joinFails d).done := if_pos (.inl ⟨lo, hi⟩)
  obtain ⟨fails, state, cause, upw, dnw, harts⟩ := (Run.start s).joinFails_leaves d.isLt
  exact ⟨_, begins.trans (fails.done_offline d.isLt still (State.not_online (by omega) (by omega))), state, cause, upw, dnw, harts wire⟩

/-- A rejoin begins by waking the bridge, where it is gated (R220 step 1). -/
theorem Run.rejoin_gated (r : Run s0) {d : Nat} (gated : r.1.fld (DOM_STAT_STATE (d * 21 + 20)) = 3) :
    Run.orderly (dieRelated d) r (r.rejoin d) ∧ (r.rejoin d).1.fld (RLINK_STAT_STATE d) = 0 ∧ (r.rejoin d).1.fld (DOM_STAT_STATE (d * 21 + 20)) = 1 ∧
      (r.rejoin d).1.die d = { r.1.die d with trained := false } := by
  have begins : r.rejoin d = ((r.modDie d fun x => { x with trained := false }).setFld (RLINK_STAT_STATE d) 0).setFld (DOM_STAT_STATE (d * 21 + 20)) 1 :=
    if_pos gated
  rw [begins]
  have waits : Run.orderly (dieRelated d) r (r.modDie d fun x => { x with trained := false }) := r.orderly_modDie d fun _ => id
  have bridge : dieRelated d (DOM_STAT_STATE (d * 21 + 20)).reg.off := .inr (.inr ⟨20, by decide, rfl⟩)
  refine ⟨(waits.trans (Run.orderly_setFld _ _ (dieRelated_link d).1)).trans (Run.orderly_setFld _ _ bridge), ?_, Run.fld_setFld_lt _ (by simp) (by simp),
    r.die_modDie d fun x => { x with trained := false }⟩
  rw [Run.fld_setFld_other _ _ _ _ (by simp; omega), Run.fld_setFld_lt _ (by simp) (by simp)]

/-- R220: the next attempt begins. -/
theorem rejoinRetry_begins (d : Fin 16) (s : State) (still : s.still) (failed : s.fld (RLINK_STAT_STATE d) = 7)
    (gated : s.fld (DOM_STAT_STATE (d * 21 + 20)) = 3) :
    ∃ t, exec (.rejoinRetry d) s = .next t ∧ t.fld (RLINK_STAT_STATE d) = 0 ∧ t.fld (DOM_STAT_STATE (d * 21 + 20)) = 1 ∧ (t.die d).late = true := by
  have begins : exec (.rejoinRetry d) s = (((Run.start s).modDie d fun x => { x with late := true }).rejoin d).done := if_pos failed
  obtain ⟨wakes, state, bridge, die⟩ := ((Run.start s).modDie d fun x => { x with late := true }).rejoin_gated (d := d) gated
  have again : Run.orderly (dieRelated d) (Run.start s) ((Run.start s).modDie d fun x => { x with late := true }) := Run.orderly_modDie _ d fun _ => id
  refine ⟨_, begins.trans ((again.trans wakes).done_offline d.isLt still (State.not_online (by omega) (by omega))),
    state, bridge, ?_⟩
  rw [die, Run.die_modDie]

/-- Settles O32: a die comes back by self-test, training, its join and ADMIT, and an attempt that fails ends until the next. -/
theorem rejoinCompletes : Obligations.RejoinCompletes := by
  unfold Obligations.RejoinCompletes
  exact ⟨dieSelfTestDone_trains, linkTrainingDone_trains, linkTrainingDone_fails, joinRequest_joins, joinRequest_fails, admitDie_unfences,
    rejoinStepTimeout_fails, rejoinRetry_begins⟩

end Sys2Proof.Machine

/-! A die reset ends a tile reset, whatever it interrupts (R214): STATE and RESET of a link are written by nothing that homes do for a die that is
fenced. Each lemma names the operations that its function calls. -/
namespace Sys2Proof.Machine

variable {s0 : State}

/-! ### STATE and RESET of the links -/

/-- What the register file lists for STAT and RESET of each link. -/
def Run.linkCells (r : Run s0) : Fin 16 → Option Word × Option Word := fun d => (r.1.regs.find? (RLINK_STAT d).off, r.1.regs.find? (RLINK_RESET d).off)

/-- A register that is no link's STAT or RESET. -/
def Reg.notLink (g : Reg) : Prop := ∀ d : Fin 16, (RLINK_STAT d).off ≠ g.off ∧ (RLINK_RESET d).off ≠ g.off

theorem notLink_beside {g : Reg} (h : g.off < 0x10000b0000 ∨ 0x10000c0000 ≤ g.off) : g.notLink := fun d => by
  rw [(RLINK_offs d).1, (RLINK_offs d).2.2.2.1]
  omega

theorem Run.linkCells_fld {q r : Run s0} (same : q.linkCells = r.linkCells) (d : Fin 16) {f : FRef} (own : f.reg = RLINK_STAT d ∨ f.reg = RLINK_RESET d) :
    q.1.fld f = r.1.fld f := by
  have at_ := congrFun same d
  have cells : q.1.reg f.reg = r.1.reg f.reg := by
    rcases own with own | own
    · rw [own]
      exact State.reg_same (congrArg Prod.fst at_)
    · rw [own]
      exact State.reg_same (congrArg Prod.snd at_)
  rw [State.fld, State.fld, cells]

theorem Run.linkCells_of_find? {q r : Run s0} (same : ∀ o, linkPage o → msiApart o → q.1.regs.find? o = r.1.regs.find? o) : q.linkCells = r.linkCells := by
  have apart (d : Fin 16) : msiApart (RLINK_STAT d).off ∧ msiApart (RLINK_RESET d).off := by
    refine ⟨⟨?_, fun k => ?_⟩, ⟨?_, fun k => ?_⟩⟩
    all_goals
      simp only [RLINK_offs, SEC_DENY]
      omega
  refine funext fun d => Prod.ext ?_ ?_
  · exact same _ (linkPage_regs d.isLt).1 (apart d).1
  · exact same _ (linkPage_regs d.isLt).2.2.2.1 (apart d).2

theorem Run.linkCells_setReg (r : Run s0) {g : Reg} (v : Word) (h : g.notLink) : (r.setReg g v).linkCells = r.linkCells :=
  funext fun d => Prod.ext (Sparse.find?_upd_other _ _ (h d).1) (Sparse.find?_upd_other _ _ (h d).2)

theorem Run.linkCells_setFld (r : Run s0) {f : FRef} (v : Nat) (h : f.reg.notLink) : (r.setFld f v).linkCells = r.linkCells := Run.linkCells_setReg r _ h

theorem Run.linkCells_foldl {α : Type} (f : Run s0 → α → Run s0) (h : ∀ r x, (f r x).linkCells = r.linkCells) (xs : List α) (r : Run s0) :
    (xs.foldl f r).linkCells = r.linkCells :=
  List.foldlRecOn (motive := fun q : Run s0 => q.linkCells = r.linkCells) xs f rfl fun q same x _ => (h q x).trans same

@[simp] theorem Run.linkCells_modHart (r : Run s0) (k : Nat) (f : Hart → Hart) : (r.modHart k f).linkCells = r.linkCells := rfl
@[simp] theorem Run.linkCells_setSeq (r : Run s0) (k v : Nat) : (r.setSeq k v).linkCells = r.linkCells := rfl
@[simp] theorem Run.linkCells_setQueue (r : Run s0) (k : Nat) (v : List HReq) : (r.setQueue k v).linkCells = r.linkCells := rfl
@[simp] theorem Run.linkCells_setHead (r : Run s0) (l : LineAddr) (q : HReq) : (r.setHead l q).linkCells = r.linkCells := rfl
@[simp] theorem Run.linkCells_modSlice (r : Run s0) (k : Nat) (f : Slice → Slice) : (r.modSlice k f).linkCells = r.linkCells := rfl
@[simp] theorem Run.linkCells_setFiltEntry (r : Run s0) (k : Nat) (v : Option FEntry) : (r.setFiltEntry k v).linkCells = r.linkCells := rfl
@[simp] theorem Run.linkCells_send (r : Run s0) (m : Msg) : (r.send m).linkCells = r.linkCells := rfl
@[simp] theorem Run.linkCells_emit (r : Run s0) (o : Out) : (r.emit o).linkCells = r.linkCells := rfl
@[simp] theorem Run.linkCells_fresh (r : Run s0) : r.fresh.1.linkCells = r.linkCells := rfl
@[simp] theorem Run.linkCells_setDie (r : Run s0) (k : Nat) (v : Die) : (r.setDie k v).linkCells = r.linkCells := rfl
@[simp] theorem Run.linkCells_net (r : Run s0) (v : List Msg) : (r.act (.net v)).linkCells = r.linkCells := rfl
@[simp] theorem Run.linkCells_pins (r : Run s0) (v : Pins) : (r.act (.pins v)).linkCells = r.linkCells := rfl

@[simp] theorem Run.linkCells_pokeHart (r : Run s0) (h : Nat) : (r.pokeHart h).linkCells = r.linkCells :=
  Run.linkCells_of_find? fun _ _ _ => congrArg Prod.fst (r.rest_pokeHart h _)

/-- A record in a bank of the package leaves every register of a link but its error counts. -/
theorem Bank.apart_link {b : Bank} (hb : b.ofPackage) {o : Nat} (page : linkPage o) (msi : msiApart o) : b.apart o := by
  obtain ⟨d, hd, x, hx, rfl⟩ := page
  refine ⟨?_, ⟨?_, ?_⟩, msi⟩
  · cases b <;> simp only [Bank.ofPackage] at hb <;> simp only [Bank.base, tileBase, dieBase] <;> omega
  · simp only [ERR_SUMMARY]
    omega
  · have die : b.die ≤ 16 := by cases b <;> simp only [Bank.ofPackage] at hb <;> simp only [Bank.die] <;> omega
    unfold errBase
    split <;> omega

theorem Run.linkCells_logRec (r : Run s0) {b : Bank} (hb : b.ofPackage) (x : Rec) (ring : Option Bool) : (r.logRec b x ring).linkCells = r.linkCells :=
  Run.linkCells_of_find? fun _ page msi => congrArg Prod.fst (r.rest_logRec (Bank.apart_link hb page msi) x ring)

theorem Run.linkCells_aplicEdge (r : Run s0) (n : Nat) : (r.aplicEdge n).linkCells = r.linkCells :=
  Run.linkCells_of_find? fun _ _ msi => congrArg Prod.fst (r.rest_aplicEdge msi n)

/-! ### Errors that a home finds -/

theorem notLink_ARR (a j : Nat) : (ARR_CECNT 16 a).notLink ∧ (ARR_FLIP 16 a).notLink ∧ (ARR_ADDR 16 a j).notLink := by
  refine ⟨notLink_beside (.inr ?_), notLink_beside (.inr ?_), notLink_beside (.inr ?_)⟩
  all_goals
    simp only [ARR_CECNT, ARR_FLIP, ARR_ADDR, errBase, if_pos]
    omega

theorem notLink_HART_STAT (n h : Nat) : (HART_STAT n (h % 4)).notLink := fun d => by
  simp only [RLINK_offs, HART_STAT, tileBase]
  omega

theorem Run.linkCells_logCe (r : Run s0) (s a kind loc : Nat) (hs : s < 4) (x : Rec) : (r.logCe (.home s) 16 a kind loc x).linkCells = r.linkCells := by
  unfold Run.logCe Run.countCe
  rw [Run.linkCells_logRec _ (b := .home s) hs, Run.linkCells_setReg _ _ (notLink_ARR a _).2.2]
  exact Run.linkCells_setFld r _ (notLink_ARR a 0).1

@[simp] theorem Run.linkCells_armTake (r : Run s0) (a : Nat) : (r.armTake 16 a).1.linkCells = r.linkCells := by
  unfold Run.armTake
  split
  · exact Run.linkCells_setFld r _ (notLink_ARR a 0).2.1
  · rfl

@[simp] theorem Run.linkCells_haltAll (r : Run s0) : r.haltAll.linkCells = r.linkCells := by
  unfold Run.haltAll
  refine Run.linkCells_foldl _ (fun r p => ?_) _ r
  split
  · rw [Run.linkCells_setFld _ _ (notLink_HART_STAT _ _), Run.linkCells_modHart]
  · rfl

/-- The cause of a FATAL as it is ordered (R472). -/
theorem Run.linkCells_fatal (r : Run s0) {b : Bank} (hb : b.ofPackage) (x : Rec) : (r.fatal b x).linkCells = r.linkCells := by
  have fatal : ERR_FATAL.notLink := notLink_beside (.inr (by decide))
  unfold Run.fatal
  extract_lets first cold recorded pins step shown halted noted
  have ordered : first.linkCells = r.linkCells := by
    unfold first
    split
    · rfl
    · rw [Run.linkCells_setFld _ _ fatal, Run.linkCells_setFld _ _ fatal, Run.linkCells_setFld _ _ fatal]
  have colds : cold.linkCells = first.linkCells := by
    unfold cold
    split
    · exact Run.linkCells_setFld _ _ fatal
    · rfl
  have halts : halted.linkCells = cold.linkCells :=
    (Run.linkCells_haltAll shown).trans ((Run.linkCells_setFld step _ (notLink_beside (.inl (by decide)))).trans (Run.linkCells_logRec cold hb _ none))
  have notes : noted.linkCells = halted.linkCells := Run.linkCells_foldl _ (fun q g => by split <;> rfl) _ halted
  refine Eq.trans (Run.linkCells_foldl _ (fun q c => ?_) _ noted) (notes.trans (halts.trans (colds.trans ordered)))
  split
  · refine Run.linkCells_setFld q _ (notLink_beside (.inr ?_))
    simp only [MC_STATUS_SR, MC_STATUS]
    omega
  · rfl

/-! ### The filter and the trackers -/

@[simp] theorem Run.linkCells_filtFound (r : Run s0) (k : Nat) (e : FEntry) (f : Flip) : (r.filtFound k e f).linkCells = r.linkCells := by
  unfold Run.filtFound
  simp only
  split
  · rw [Run.linkCells_fatal _ (b := .home _) (quadOf_lt _), Run.linkCells_setFiltEntry, Run.linkCells_fresh]
  · rw [Run.linkCells_logCe _ _ _ _ _ (quadOf_lt _), Run.linkCells_setFiltEntry, Run.linkCells_fresh]

@[simp] theorem Run.linkCells_filtCheck (r : Run s0) (l : LineAddr) : (r.filtCheck l).linkCells = r.linkCells := by
  unfold Run.filtCheck
  refine Run.linkCells_foldl _ (fun r e => ?_) _ r
  split
  · split
    · exact r.linkCells_filtFound _ _ _
    · rfl
  · rfl

@[simp] theorem Run.linkCells_filtWrite (r : Run s0) (d : Nat) (l : LineAddr) (w : Nat) (x : Option FSt) : (r.filtWrite d l w x).linkCells = r.linkCells := by
  rw [Run.filtWrite, Run.linkCells_setFiltEntry, Run.linkCells_armTake]

@[simp] theorem Run.linkCells_setFilt (r : Run s0) (d : Nat) (l : LineAddr) (x : Option FSt) : (r.setFilt d l x).linkCells = r.linkCells := by
  unfold Run.setFilt
  extract_lets q
  have ways : q.linkCells = r.linkCells := Run.linkCells_foldl _ (fun r w => by split <;> simp only [Run.linkCells_filtWrite]) _ r
  split
  · rw [Run.linkCells_modSlice, ways]
  · exact ways

@[simp] theorem Run.linkCells_setDev (r : Run s0) (g : Nat) (l : LineAddr) (st : St) : (r.setDev g l st).linkCells = r.linkCells := rfl

theorem Run.linkCells_trackers (r : Run s0) {s : Nat} (hs : s < 4) (m : Msg) (up : Bool) : (r.trackers s m up).linkCells = r.linkCells := by
  have apart : (HOME_TRKSTAT s).notLink := notLink_beside (.inl (by simp only [HOME_TRKSTAT]; omega))
  have bump (q : Run s0) (f : FRef) (own : f.reg = HOME_TRKSTAT s) (v w : Nat) : (q.setFld f (if up then v else w)).linkCells = q.linkCells :=
    Run.linkCells_setFld q _ (own ▸ apart)
  unfold Run.trackers
  extract_lets b q
  have first : q.linkCells = r.linkCells := bump r _ rfl _ _
  split
  · exact (bump q _ rfl _ _).trans first
  · exact (bump q _ rfl _ _).trans first
  · exact (bump q _ rfl _ _).trans first
  · exact first

@[simp] theorem Run.linkCells_loseResv (r : Run s0) (l : LineAddr) : (r.loseResv l).linkCells = r.linkCells := by
  unfold Run.loseResv Run.loseOf
  refine Run.linkCells_foldl _ (fun r p => ?_) _ r
  split
  · rw [Run.linkCells_pokeHart, Run.linkCells_modHart]
  · rfl

@[simp] theorem Run.linkCells_take (r : Run s0) (m : Msg) : (r.take m).linkCells = r.linkCells := by
  unfold Run.take
  split
  · simp only
    split <;> rfl
  · rfl

/-! ### What homes do -/

@[simp] theorem Run.linkCells_putMem (r : Run s0) (l : LineAddr) (t : Target) (data : LineData) (poison : Bool) (dir : Nat) :
    (r.putMem l t data poison dir).linkCells = r.linkCells := by
  unfold Run.putMem
  simp only
  split <;> rfl

@[simp] theorem Run.linkCells_askMem (r : Run s0) (l : LineAddr) (t : Target) : (r.askMem l t).linkCells = r.linkCells := by
  unfold Run.askMem
  split <;> rfl

@[simp] theorem Run.linkCells_reply (r : Run s0) (l : LineAddr) (q : HReq) (k : MsgKind) : (r.reply l q k).linkCells = r.linkCells := by
  unfold Run.reply
  split <;> rfl

@[simp] theorem Run.linkCells_popHead (r : Run s0) (l : LineAddr) : (r.popHead l).linkCells = r.linkCells := by
  unfold Run.popHead
  split
  · rfl
  · split
    · rfl
    · rw [Run.linkCells_trackers _ (quadOf_lt l), Run.linkCells_setQueue]

@[simp] theorem Run.linkCells_noteGrant (r : Run s0) (l : LineAddr) (a : Agent) (way : Nat) (st : St) : (r.noteGrant l a way st).linkCells = r.linkCells := by
  unfold Run.noteGrant
  split
  · split
    · exact Run.linkCells_filtWrite _ _ _ _ _
    · rfl
  · rfl
  · rfl

@[simp] theorem Run.linkCells_grantTo (r : Run s0) (l : LineAddr) (q : HReq) (k : MsgKind) (st : St) (data : LineData) (poison : Bool) :
    (r.grantTo l q k st data poison).linkCells = r.linkCells := by
  rw [Run.grantTo, Run.linkCells_setHead, Run.linkCells_send, Run.linkCells_noteGrant]

@[simp] theorem Run.linkCells_rewriteDir (r : Run s0) (l : LineAddr) (q : HReq) (dir : Nat) : (r.rewriteDir l q dir).linkCells = r.linkCells := by
  unfold Run.rewriteDir
  split
  · split
    · rw [Run.linkCells_putMem, Run.linkCells_modSlice]
    · rfl
  · rfl

@[simp] theorem Run.linkCells_finishWrite (r : Run s0) (l : LineAddr) (q : HReq) (data : LineData) (poison : Bool) :
    (r.finishWrite l q data poison).linkCells = r.linkCells := by
  unfold Run.finishWrite
  simp only
  split
  · rfl
  · rw [Run.linkCells_putMem, Run.linkCells_setHead]

@[simp] theorem Run.linkCells_dropShadow (r : Run s0) (l : LineAddr) (a : Agent) : (r.dropShadow l a).linkCells = r.linkCells := by
  unfold Run.dropShadow
  split
  · split <;> rfl
  · rfl

@[simp] theorem Run.linkCells_noteEviction (r : Run s0) (l : LineAddr) (m : Msg) : (r.noteEviction l m).linkCells = r.linkCells := by
  unfold Run.noteEviction
  split
  · split
    · exact Run.linkCells_setFilt _ _ _ _
    · split
      · exact Run.linkCells_setFilt _ _ _ _
      · rfl
  · rfl
  · rfl

@[simp] theorem Run.linkCells_homeFinish (r : Run s0) (l : LineAddr) (q : HReq) : (r.homeFinish l q).linkCells = r.linkCells := by
  unfold Run.homeFinish
  extract_lets dir memData cur
  split
  all_goals
    grind [Run.linkCells_rewriteDir, Run.linkCells_grantTo, Run.linkCells_popHead, Run.linkCells_finishWrite, Run.linkCells_putMem, Run.linkCells_send,
      Run.linkCells_setHead, Run.linkCells_reply, Run.linkCells_noteEviction, Run.linkCells_dropShadow, Run.linkCells_setDev]

@[simp] theorem Run.linkCells_sendSnoops (r : Run s0) (l : LineAddr) (ss : List (Agent × MsgKind)) (tag : Nat) :
    (r.sendSnoops l ss tag).linkCells = r.linkCells := Run.linkCells_foldl _ (fun r _ => r.linkCells_send _) ss r

@[simp] theorem Run.linkCells_toPeer (r : Run s0) (l : LineAddr) (p : Nat) (q : HReq) (ph : Phase) (m : Msg) :
    (r.toPeer l p q ph m).linkCells = r.linkCells := rfl

@[simp] theorem Run.linkCells_proxyEvict (r : Run s0) (l : LineAddr) (p : Nat) (q : HReq) : (r.proxyEvict l p q).linkCells = r.linkCells := by
  unfold Run.proxyEvict
  grind [Run.linkCells_popHead, Run.linkCells_setDev, Run.linkCells_reply, Run.linkCells_dropShadow, Run.linkCells_noteEviction, Run.linkCells_loseResv,
    Run.linkCells_toPeer]

@[simp] theorem Run.linkCells_trackerCheck (r : Run s0) (l : LineAddr) (q : HReq) : (r.trackerCheck l q).1.linkCells = r.linkCells := by
  unfold Run.trackerCheck
  split
  · rfl
  · simp only
    split
    · rw [Run.linkCells_fatal _ (b := .home _) (quadOf_lt l), Run.linkCells_fresh]
    · rw [Run.linkCells_logCe _ _ _ _ _ (quadOf_lt l), Run.linkCells_fresh]

@[simp] theorem Run.linkCells_homeStart (r : Run s0) (l : LineAddr) (q : HReq) : (r.homeStart l q).linkCells = r.linkCells := by
  have checked : ((r.filtCheck l).trackerCheck l q).1.linkCells = r.linkCells := by rw [Run.linkCells_trackerCheck, Run.linkCells_filtCheck]
  unfold Run.homeStart
  generalize (r.filtCheck l).trackerCheck l q = p at checked ⊢
  simp only
  split
  · grind [Run.linkCells_toPeer, Run.linkCells_proxyEvict, Run.linkCells_sendSnoops, Run.linkCells_setHead, Run.linkCells_loseResv]
  · simp only [apply_ite Run.linkCells, Run.linkCells_askMem, Run.linkCells_sendSnoops, Run.linkCells_setHead, ite_self, checked]

@[simp] theorem Run.linkCells_proxyFinish (r : Run s0) (l : LineAddr) (p : Nat) (q : HReq) : (r.proxyFinish l p q).linkCells = r.linkCells := by
  unfold Run.proxyFinish
  split
  · grind [Run.linkCells_popHead, Run.linkCells_send, Run.linkCells_grantTo]
  · extract_lets back
    split <;> rfl

@[simp] theorem Run.linkCells_homeEnd (r : Run s0) (l : LineAddr) (q : HReq) : (r.homeEnd l q).linkCells = r.linkCells := by
  unfold Run.homeEnd
  extract_lets peer
  split
  · rfl
  · cases peer with
    | some p => exact r.linkCells_proxyFinish l p q
    | none => exact r.linkCells_homeFinish l q

@[simp] theorem Run.linkCells_homeLoop (r : Run s0) (l : LineAddr) (n : Nat) : (r.homeLoop l n).linkCells = r.linkCells := by
  induction n generalizing r with
  | zero => rfl
  | succ k ih =>
    unfold Run.homeLoop
    split
    · rfl
    · split
      · rw [ih, Run.linkCells_homeStart]
      · split
        · rw [ih, Run.linkCells_homeEnd]
        · rfl

@[simp] theorem Run.linkCells_homeGo (r : Run s0) (l : LineAddr) : (r.homeGo l).linkCells = r.linkCells := r.linkCells_homeLoop l _

@[simp] theorem Run.linkCells_homeAck (r : Run s0) (m : Msg) : (r.homeAck m).linkCells = r.linkCells := by
  have taken := r.linkCells_take m
  unfold Run.homeAck
  generalize r.take m = q at taken ⊢
  grind [Run.linkCells_homeGo, Run.linkCells_popHead, Run.linkCells_reply, Run.linkCells_send]

@[simp] theorem Run.linkCells_homeStash (r : Run s0) (m : Msg) : (r.homeStash m).linkCells = r.linkCells := by
  have taken := r.linkCells_take m
  unfold Run.homeStash
  generalize r.take m = q at taken ⊢
  grind [Run.linkCells_setHead, Run.linkCells_send, Run.linkCells_rewriteDir, Run.linkCells_filtWrite, Run.linkCells_putMem]

/-! ### A die reset -/

@[simp] theorem Run.linkCells_orphan (r : Run s0) (n : Nat) : (r.orphan n).linkCells = r.linkCells := by
  unfold Run.orphan
  refine Run.linkCells_foldl _ (fun r e => ?_) _ r
  split <;> rfl

/-- What homes do for a die that is fenced writes no link's STATE or RESET (R216, R217). -/
@[simp] theorem Run.linkCells_fenceDie (r : Run s0) (d : Nat) : (r.fenceDie d).linkCells = r.linkCells := by
  unfold Run.fenceDie
  extract_lets die orphans coming served
  have left : orphans.linkCells = r.linkCells := Run.linkCells_foldl _ (fun r t => r.linkCells_orphan _) _ _
  have serves : served.linkCells = orphans.linkCells := by
    refine Run.linkCells_foldl _ (fun r e => ?_) _ _
    dsimp only
    split
    · split
      · rfl
      · split
        · exact r.linkCells_send _
        · split
          · exact r.linkCells_homeAck _
          · split
            · exact r.linkCells_homeStash _
            · rfl
    · rfl
  refine Eq.trans (Run.linkCells_foldl _ (fun r s => Run.linkCells_foldl _ (fun r p => ?_) _ r) _ served) (serves.trans left)
  split <;> rfl

theorem Run.linkCells_holdDie (r : Run s0) {d : Nat} (hd : d < 16) : (r.holdDie d).linkCells = r.linkCells :=
  Run.linkCells_of_find? fun o page _ => (r.does_holdDie hd).orderly.regs o (linkPage_apart hd page)

@[simp] theorem Run.fld_setDie (r : Run s0) (d : Nat) (x : Die) (k : FRef) : (r.setDie d x).1.fld k = r.1.fld k := rfl

/-- A die reset is ordered: a tile reset of its die ends, and its cause stands (R214, R216 step 1). -/
def Run.condemn (r : Run s0) (d cause : Nat) : Run s0 :=
  ((((((if r.on (RLINK_RESET_BUSY d) ∧ r.fld (RLINK_RESET_KIND d) = 1 then (r.setFld (RLINK_RESET_BUSY d) 0).setFld (RLINK_RESET_ST d) stAborted
    else r).setFld (RLINK_STAT_LASTCAUSE d) cause).setFld (RLINK_STAT_STATE d) 6).setFld (RLINK_CTL_ADMIT d) 0).setFld (RLINK_STAT_UPW d) 0).setFld
    (RLINK_STAT_DNW d) 0).setDie d { late := true, opened := true }

theorem Run.dieReset_eq (r : Run s0) {d : Nat} (cause : Nat) (first : r.1.fld (RLINK_STAT_STATE d) ≠ 6) :
    r.dieReset d cause = ((((r.condemn d cause).fenceDie d).holdDie d).logRec (.rlink d) { event := 0x0B00, cls := .ucna, detail := dieDetail d cause 0 }).aplicEdge
      (129 + d) := if_neg first

theorem Run.dieReset_again (r : Run s0) {d : Nat} (cause : Nat) (again : r.1.fld (RLINK_STAT_STATE d) = 6) : r.dieReset d cause = r := if_pos again

/-- The registers that the order of a die reset writes. -/
def condemnArea (d o : Nat) : Prop := o = (RLINK_STAT d).off ∨ o = (RLINK_RESET d).off ∨ o = (RLINK_CTL d).off

theorem Run.condemn_leaves (r : Run s0) (d : Nat) {cause : Nat} (hc : cause < 16) :
    Run.orderly (condemnArea d) r (r.condemn d cause) ∧ (r.condemn d cause).1.fld (RLINK_STAT_STATE d) = 6 ∧
      (r.condemn d cause).1.fld (RLINK_STAT_LASTCAUSE d) = cause ∧ (r.condemn d cause).1.fld (RLINK_STAT_UPW d) = 0 ∧
      (r.condemn d cause).1.fld (RLINK_STAT_DNW d) = 0 ∧
      (r.condemn d cause).1.reg (RLINK_RESET d) = (if r.on (RLINK_RESET_BUSY d) ∧ r.fld (RLINK_RESET_KIND d) = 1 then
        (r.setFld (RLINK_RESET_BUSY d) 0).setFld (RLINK_RESET_ST d) stAborted else r).1.reg (RLINK_RESET d) := by
  unfold Run.condemn
  generalize hq : (if r.on (RLINK_RESET_BUSY d) ∧ r.fld (RLINK_RESET_KIND d) = 1 then
    (r.setFld (RLINK_RESET_BUSY d) 0).setFld (RLINK_RESET_ST d) stAborted else r) = q
  have ends : Run.orderly (condemnArea d) r q := by
    rw [← hq]
    split
    · exact (r.orderly_setFld _ (.inr (.inl rfl))).trans (Run.orderly_setFld (f := RLINK_RESET_ST d) _ _ (.inr (.inl rfl)))
    · exact .refl r
  have writes : Run.orderly (fun o => o = (RLINK_STAT d).off ∨ o = (RLINK_CTL d).off) q
      ((((((q.setFld (RLINK_STAT_LASTCAUSE d) cause).setFld (RLINK_STAT_STATE d) 6).setFld (RLINK_CTL_ADMIT d) 0).setFld (RLINK_STAT_UPW d) 0).setFld
        (RLINK_STAT_DNW d) 0).setDie d { late := true, opened := true }) :=
    ((((((q.orderly_setFld (f := RLINK_STAT_LASTCAUSE d) _ (.inl rfl)).trans (Run.orderly_setFld (f := RLINK_STAT_STATE d) _ _ (.inl rfl))).trans
      (Run.orderly_setFld (f := RLINK_CTL_ADMIT d) _ _ (.inr rfl))).trans (Run.orderly_setFld (f := RLINK_STAT_UPW d) _ _ (.inl rfl))).trans
      (Run.orderly_setFld (f := RLINK_STAT_DNW d) _ _ (.inl rfl))).trans (Run.orderly_setDie _ d fun _ => Nat.zero_ne_one))
  refine ⟨ends.trans (writes.mono fun o h => h.imp_right .inr), ?_, ?_, ?_, ?_, writes.reg (by simp)⟩
  · rw [Run.fld_setDie, Run.fld_setFld_ne _ _ (by simp) (by simp) (by simp), Run.fld_setFld_ne _ _ (by simp) (by simp) (by simp),
      Run.fld_setFld_ne _ _ (by simp) (by simp) (by simp), Run.fld_setFld_lt _ (by simp) (by simp)]
  · rw [Run.fld_setDie, Run.fld_setFld_ne _ _ (by simp) (by simp) (by simp), Run.fld_setFld_ne _ _ (by simp) (by simp) (by simp),
      Run.fld_setFld_ne _ _ (by simp) (by simp) (by simp), Run.fld_setFld_ne _ _ (by simp) (by simp) (by simp), Run.fld_setFld_lt _ (by simp) (by simpa using hc)]
  · rw [Run.fld_setDie, Run.fld_setFld_ne _ _ (by simp) (by simp) (by simp), Run.fld_setFld_lt _ (by simp) (by simp)]
  · rw [Run.fld_setDie, Run.fld_setFld_lt _ (by simp) (by simp)]

/-- STATE and RESET of a link once a die reset has begun are those that its order left (R214, R216). -/
theorem Run.linkCells_dieReset (r : Run s0) {d : Nat} (hd : d < 16) (cause : Nat) (first : r.1.fld (RLINK_STAT_STATE d) ≠ 6) :
    (r.dieReset d cause).linkCells = (r.condemn d cause).linkCells := by
  rw [r.dieReset_eq cause first, Run.linkCells_aplicEdge, Run.linkCells_logRec _ (b := .rlink d) trivial, Run.linkCells_holdDie _ hd, Run.linkCells_fenceDie]

/-- R214: a die reset, from any cause, ends a tile reset of its die. -/
theorem dieReset_endsTileReset (d : Fin 16) (cause : Fin 8) (s : State) (first : s.fld (RLINK_STAT_STATE d) ≠ 6) (busy : s.fld (RLINK_RESET_BUSY d) = 1)
    (kind : s.fld (RLINK_RESET_KIND d) = 1) :
    ((Run.start s).dieReset d cause).1.fld (RLINK_RESET_BUSY d) = 0 ∧ ((Run.start s).dieReset d cause).1.fld (RLINK_RESET_ST d) = stAborted ∧
      ((Run.start s).dieReset d cause).1.fld (RLINK_STAT_STATE d) = 6 ∧ ((Run.start s).dieReset d cause).1.fld (RLINK_STAT_LASTCAUSE d) = cause := by
  have same := (Run.start s).linkCells_dieReset d.isLt cause first
  have tile : (Run.start s).on (RLINK_RESET_BUSY d) = true ∧ (Run.start s).fld (RLINK_RESET_KIND d) = 1 := ⟨bne_iff_ne.2 (ne_of_eq_of_ne busy (by decide)), kind⟩
  obtain ⟨-, state, last, -, -, reset⟩ := (Run.start s).condemn_leaves d (cause := cause) (by omega)
  rw [if_pos tile] at reset
  have aborted (f : FRef) (own : f.reg = RLINK_RESET d) : ((Run.start s).condemn d cause).1.fld f =
      (((Run.start s).setFld (RLINK_RESET_BUSY d) 0).setFld (RLINK_RESET_ST d) stAborted).1.fld f := by rw [State.fld, State.fld, own, reset]
  refine ⟨?_, ?_, ?_, ?_⟩
  · rw [Run.linkCells_fld same d (.inr rfl), aborted _ rfl, Run.fld_setFld_ne _ _ (by simp) (by simp) (by simp), Run.fld_setFld_lt _ (by simp) (by simp)]
  · rw [Run.linkCells_fld same d (.inr rfl), aborted _ rfl, Run.fld_setFld_lt _ (by simp) (by simp [stAborted])]
  · rw [Run.linkCells_fld same d (.inl rfl), state]
  · rw [Run.linkCells_fld same d (.inl rfl), last]

/-- R214: what triggers a die reset again while one is in progress changes nothing. -/
theorem dieReset_joined (d : Fin 16) (k : Fin 4) (s : State) (still : s.still) (again : s.fld (RLINK_STAT_STATE d) = 6) :
    exec (.vcoreCollapse d) s = .next s ∧ exec (.dieReset d .link) s = .next s ∧
      ∀ e ∈ [0x0202#16, 0x0203#16, 0x0502#16], exec (.dieReset d (.scope k e)) s = .next s := by
  have quiet : (Run.start s).done = .next s := (Run.start s).done_still still
  have off : (Run.start s).online d = false := State.not_online (s := s) (by omega) (by omega)
  have collapse : exec (.vcoreCollapse d) s = ((Run.start s).dieReset d 2).done := rfl
  have link : exec (.dieReset d .link) s = (if (Run.start s).online d then (Run.start s).linkDown d else Run.start s).done := rfl
  refine ⟨?_, ?_, fun e _ => ?_⟩
  · rw [collapse, (Run.start s).dieReset_again 2 again, quiet]
  · rw [link, off, if_neg Bool.false_ne_true, quiet]
  · exact (if_pos (.inl (by simp [off]))).trans quiet

/-! ### Resets of the package -/

/-- A change that a reset of the package makes: it lists no die, message or poked hart, and writes registers as `R` says. -/
def Act.clears (R : Nat → Option Word → Prop) : Act → Prop
  | .regs k v => R k v
  | .dies _ v => v = {}
  | .net v => v = []
  | .poke v => v = []
  | .need _ => False
  | _ => True

variable {R : Nat → Option Word → Prop} {r q : Run s0}

/-- Nothing is left for settling but what the command itself asked for. -/
structure State.emptied (s : State) : Prop where
  dies : s.dies = []
  net : s.net = []
  poke : s.poke = []

theorem Run.does.emptied (h : Run.does (Act.clears R) r q) (before : r.1.emptied) : q.1.emptied :=
  h.keeps State.emptied (fun a ha s hs => by
    obtain ⟨dies, net, poke⟩ := hs
    cases a with
    | dies k v =>
      cases ha
      exact ⟨by rw [Act.apply, dies]; rfl, net, poke⟩
    | net v => exact ⟨dies, ha, poke⟩
    | poke v => exact ⟨dies, net, ha⟩
    | _ => exact ⟨dies, net, poke⟩) before

theorem Run.does.needs (h : Run.does (Act.clears R) r q) : q.1.need = r.1.need :=
  h.same State.need fun a ha s => by
    cases a with
    | need v => exact ha.elim
    | _ => rfl

theorem Sparse.not_mem_del {α : Type} (m : Sparse α) (k : Nat) (v : α) : (k, v) ∉ m.del k := by
  induction m with
  | nil => exact List.not_mem_nil
  | cons e m ih =>
    obtain ⟨j, w⟩ := e
    rw [Sparse.del]
    split
    · exact ih
    next other => exact List.not_mem_cons_of_ne_of_not_mem (fun same => other (congrArg Prod.fst same)) ih

/-- A store every key of which is dropped lists nothing. -/
theorem Run.dropKeys_all {α : Type} {r q : Run s0} {xs : Sparse α} {f : Nat → Act} (all : q = r.dropKeys xs (fun _ => true) f)
    (store : State → Sparse α) (own : store r.1 = xs) (drops : ∀ k s, store ((f k).apply s) = (store s).del k) : store q.1 = [] := by
  subst all
  refine List.eq_nil_iff_forall_not_mem.2 fun e he => ?_
  refine r.dropKeys_clears xs (k := e.1) (fun s => ∀ v, (e.1, v) ∉ store s) rfl (fun s v hv => ?_) (fun j s hs v hv => ?_) (fun unlisted v hv => ?_) e.2 he
  · rw [drops] at hv
    exact Sparse.not_mem_del _ _ v hv
  · rw [drops] at hv
    exact hs v (Sparse.mem_del hv)
  · rw [own] at hv
    exact unlisted _ hv rfl

/-- The stores that a reset of the package clears, the dies, the network and the poked harts among them. -/
theorem Run.clearBlocks_clears (r : Run s0) : Run.does (Act.clears fun _ _ => False) r r.clearBlocks ∧ r.clearBlocks.1.emptied := by
  unfold Run.clearBlocks
  extract_lets all r1 r2 r3 r4 r5 r6 r7 r8 r9 r10 r11 r12 r13 r14 r15 r16 r17 r18 r19 r20 r21 r22 r23 r24 r25 r26 r27 r28 r29 r30 r31 r32
  have first : Run.does (Act.clears fun _ _ => False) r r20 := by
    iterate 20 refine .dropKeys ?_ fun _ _ => trivial
    exact .refl r
  clear_value r20
  have dies : Run.does (Act.clears fun _ _ => False) r r21 := first.dropKeys fun _ _ => by exact rfl
  have none_ : r21.1.dies = [] := Run.dropKeys_all (r := r20) (q := r21) rfl State.dies rfl fun _ _ => rfl
  clear_value r21
  have rest : Run.does (Act.clears fun _ _ => False) r21 r32 := by
    iterate 11 refine .dropKeys ?_ fun _ _ => trivial
    exact .refl r21
  clear_value r32
  have last := ((((((Run.does.refl (P := Act.clears fun _ _ => False) r32).act (a := .iommu {}) trivial).act (a := .weir {}) trivial).act (a := .wdog none)
    trivial).act (a := .net []) rfl).act (a := .ops []) trivial).act (a := .poke []) rfl
  have stays := (rest.trans last).keeps (·.dies = []) (fun a ha s hs => by
    cases a with
    | dies k v =>
      cases ha
      rw [Act.apply, hs]
      rfl
    | _ => exact hs) none_
  exact ⟨(dies.trans rest).trans last, stays, rfl, rfl⟩

/-- A run that empties what settling looks at ends with what it has done. -/
theorem State.emptied.done {s : State} {r : Run s} (empty : r.1.emptied) (need : r.1.need = {}) : r.done = .next r.1 := by
  obtain ⟨dies, net, poke⟩ := empty
  refine r.done_still ⟨need, poke, fun m hm => ?_, fun e he => ?_⟩
  · rw [net] at hm
    cases hm
  · rw [dies] at he
    cases he

/-- A cold reset leaves no register but at its reset value (R500, R514). -/
theorem Run.coldReset_clears (r : Run s0) : Run.does (Act.clears fun _ v => v = none) r r.coldReset ∧ r.coldReset.1.emptied ∧ r.coldReset.1.regs = [] := by
  obtain ⟨clears, empty⟩ := r.clearBlocks_clears
  unfold Run.coldReset
  extract_lets all fox r1 r2 r3 r4 r5
  have first : Run.does (Act.clears fun _ v => v = none) r r1 := clears.mono fun a ha => by
    cases a with
    | regs k v => exact ha.elim
    | _ => exact ha
  have regs : Run.does (Act.clears fun _ v => v = none) r1 r2 := (Run.does.refl r1).dropKeys fun _ _ => by exact rfl
  have none_ : r2.1.regs = [] := Run.dropKeys_all (r := r1) (q := r2) rfl State.regs rfl fun _ _ => rfl
  have rest : Run.does (Act.clears fun _ v => v = none) r2 ((r5.act (.pins { thermtrip := r5.1.pins.thermtrip })).act (.fox { svn := fox.svn, epoch := fox.epoch })) := by
    refine .act (.act ?_ trivial) trivial
    iterate 3 refine .dropKeys ?_ fun _ _ => trivial
    exact .refl r2
  refine ⟨(first.trans regs).trans rest, (regs.trans rest).emptied empty, ?_⟩
  exact rest.keeps (·.regs = []) (fun a ha s hs => by
    cases a with
    | regs k v =>
      cases ha
      rw [Act.apply, hs]
      rfl
    | _ => exact hs) none_

theorem State.fld_unlisted {s : State} (none_ : s.regs = []) (f : FRef) : s.fld f = Word.bits (f.reg.rst &&& f.reg.mask) f.hi f.lo := by
  rw [State.fld, State.reg, none_]
  rfl

/-- R214: a cold reset ends a tile reset and a die reset. -/
theorem porstAssert_endsResets (d : Nat) (s : State) (need : s.need = {}) :
    ∃ t, exec .porstAssert s = .next t ∧ t.fld (RLINK_RESET_BUSY d) = 0 ∧ t.fld (RLINK_STAT_STATE d) = 0 := by
  obtain ⟨clears, empty, regs⟩ := (Run.start s).coldReset_clears
  have begins : exec .porstAssert s = (Run.start s).coldReset.done := rfl
  refine ⟨_, begins.trans (empty.done (clears.needs.trans need)), ?_, ?_⟩
  · rw [State.fld_unlisted regs]
    simp only [RLINK_RESET_BUSY_place, RLINK_RESET]
    decide
  · rw [State.fld_unlisted regs]
    simp only [RLINK_STAT_STATE_place, RLINK_STAT]
    decide

/-- A field that a mask leaves out. -/
theorem Word.bits_and_apart (w m : Word) {hi lo : Nat} (hh : hi < 64) (hl : lo ≤ hi) (c : fieldMask hi lo &&& m = 0) : Word.bits (w &&& m) hi lo = 0 := by
  refine Nat.eq_of_testBit_eq fun i => ?_
  rw [Word.bits_bit, BitVec.getLsbD_and, Nat.zero_testBit]
  by_cases inside : i < hi - lo + 1
  · have bit := congrArg (·.getLsbD (lo + i)) c
    have le : lo + i ≤ hi := by omega
    simp only [BitVec.getLsbD_and, fieldMask_bit hh hl, le, Nat.le_add_right, decide_true, Bool.true_and, BitVec.ofNat_eq_ofNat, BitVec.getLsbD_zero] at bit
    rw [bit, Bool.and_false, Bool.and_false]
  · rw [decide_eq_false inside, Bool.false_and]

/-- A field whose register resets to zeros reads 0 after a reset that is not cold, where it is not sticky (R500). -/
theorem Run.resetRegs_field (r : Run s0) {n : Nat → Bool} {f : Family} {ix : List Nat} {k : FRef} (find : findReg k.reg.off = some (f, ix))
    (named : n k.reg.off = true) (own : f.reg k.reg.off = k.reg) (zeros : k.reg.rst = 0) (fits : k.fits = true)
    (plain : fieldMask k.hi k.lo &&& stickyMask f.fields = 0) : (r.resetRegs n false).1.fld k = 0 := by
  obtain ⟨⟨hi, lo⟩, inside⟩ : (k.hi < 64 ∧ k.lo ≤ k.hi) ∧ fieldMask k.hi k.lo &&& k.reg.mask = fieldMask k.hi k.lo := by simpa [FRef.fits] using fits
  have resets (p : Run s0) (v : Word) : (p.setReg k.reg ((v &&& stickyMask f.fields) ||| (k.reg.rst &&& ~~~ stickyMask f.fields))).1.fld k = 0 := by
    rw [State.fld, Run.reg_setReg_same, Word.bits_and _ _ hi lo inside, zeros, BitVec.ofNat_eq_ofNat, BitVec.zero_and, BitVec.or_zero,
      Word.bits_and_apart _ _ hi lo plain]
  have unlisted : (∀ e ∈ r.1.regs, e.1 ≠ k.reg.off) → r.1.fld k = 0 := fun none_ => by
    rw [State.fld, State.reg, Sparse.get, Sparse.find?_eq_none_of_unlisted none_, Option.getD_none, zeros, BitVec.ofNat_eq_ofNat, BitVec.zero_and]
    simp [Word.bits]
  unfold Run.resetRegs
  generalize r.1.regs = xs at unlisted
  induction xs generalizing r with
  | nil => exact unlisted (List.forall_mem_nil _)
  | cons e xs ih =>
    refine ih _ fun rest => ?_
    dsimp only
    by_cases same : e.1 = k.reg.off
    · rw [same, named, find]
      simp only [own]
      exact resets r e.2
    · have before : r.1.fld k = 0 := unlisted (List.forall_mem_cons.2 ⟨same, rest⟩)
      split
      · exact before
      · split
        · exact (r.fld_setReg_other _ k _ (Ne.symm same)).trans before
        · exact before

theorem State.fld_same {s t : State} {f : FRef} (same : t.regs.find? f.reg.off = s.regs.find? f.reg.off) : t.fld f = s.fld f := by
  rw [State.fld, State.fld, State.reg_same same]

/-- The register that no change writes is as it was. -/
theorem Run.does.unwritten (h : Run.does (Act.clears R) r q) {o : Nat} (off : ∀ v, ¬ R o v) : Sparse.find? q.1.regs o = r.1.regs.find? o :=
  h.same (Sparse.find? ·.regs o) fun a ha s => by
    cases a with
    | regs k v => exact Sparse.find?_upd_other _ _ fun same => off v (same ▸ ha)
    | _ => rfl

theorem Run.does_setReg {g : Reg} (h : Run.does (Act.clears R) r q) (v : Word) (hr : ∀ w, R g.off w) : Run.does (Act.clears R) r (q.setReg g v) :=
  h.act (a := .regs _ _) (hr _)

theorem Run.does_setFld {f : FRef} (h : Run.does (Act.clears R) r q) (v : Nat) (hr : ∀ w, R f.reg.off w) : Run.does (Act.clears R) r (q.setFld f v) :=
  Run.does_setReg h _ hr

/-- An offset that is neither of a link nor the timebase's state. -/
def warmTail (o : Nat) (_ : Option Word) : Prop := ¬ linkPage o ∧ o ≠ TBASE_STAT.off

theorem warmTail_of_low {o : Nat} (lo : 0x1000030000 ≤ o) (hi : o < 0x1000090000) (v : Option Word) : warmTail o v := by
  refine ⟨?_, fun same => ?_⟩
  · rintro ⟨d, hd, x, hx, rfl⟩
    omega
  · have off : TBASE_STAT.off = 0x1000020008 := rfl
    omega

theorem Run.does_showStep (r : Run s0) (n : Nat) : Run.does (Act.clears warmTail) r (r.showStep n) := by
  unfold Run.showStep
  refine Run.does_setFld ?_ n (warmTail_of_low (by decide) (by decide))
  exact (Run.does.refl r).act (a := .pins _) trivial

theorem Run.does_measObject (r : Run s0) {n : Nat} (hn : n < 64) (x : List Byte) : Run.does (Act.clears warmTail) r (r.measObject n x) :=
  (Run.does.refl r).foldl fun p k hk => by
    have small := List.mem_range.1 hk
    refine Run.does_setReg (.refl p) _ (warmTail_of_low ?_ ?_)
    all_goals
      simp only [FOX_MEAS]
      omega

/-- The first step of a start writes registers of Foxglove alone (R406). -/
theorem Run.does_startStep1 (r : Run s0) : Run.does (Act.clears warmTail) r r.startStep1 := by
  unfold Run.startStep1 Run.modFox
  extract_lets m
  have measured : Run.does (Act.clears warmTail) r m := (r.does_showStep 1).trans (Run.does_measObject _ (by decide) _)
  exact (measured.trans (m.does_showStep 2)).act (a := .fox _) trivial

/-- A warm reset: the blocks are cleared, the registers reset, and the first step of the start follows (R407). -/
theorem Run.warmReset_steps (r : Run s0) :
    ∃ p, Run.does (Act.clears fun _ _ => False) r p ∧ p.1.emptied ∧ Run.does (Act.clears warmTail) (p.resetRegs (warmRegion true) false) r.warmReset := by
  obtain ⟨clears, empty⟩ := r.clearBlocks_clears
  have keys : Run.does (Act.clears fun _ _ => False) r.clearBlocks r.clearBlocks.warmKeys :=
    ((Run.does.foldl (.refl _) fun p k _ => (Run.does.refl p).act (a := .keys _ _) trivial).act (a := .fox _) trivial).act (a := .keys _ _) trivial
  refine ⟨_, clears.trans keys, keys.emptied empty, ?_⟩
  have rings : ∀ w, warmTail ERR_SUMMARY.off w := fun w => ⟨by rintro ⟨d, hd, x, hx, off⟩; simp only [ERR_SUMMARY] at off; omega, by decide⟩
  have threads : ∀ w, warmTail (ENC_STAT (r.fld SEC_CFG_MONEID)).off w := by
    have small : r.fld SEC_CFG_MONEID < 128 := State.fld_lt _ _
    refine warmTail_of_low ?_ ?_
    all_goals
      simp only [ENC_STAT]
      omega
  have blocks : Run.does (Act.clears warmTail) (r.clearBlocks.warmKeys.resetRegs (warmRegion true) false) (r.warmBlocks true) := by
    unfold Run.warmBlocks
    extract_lets e mon summary p codes s t u
    have summed : Run.does (Act.clears warmTail) (p.resetRegs (warmRegion true) false) s := Run.does_setReg (.refl _) _ rings
    refine Run.does.act (a := .pins _) ?_ trivial
    unfold u
    clear_value mon
    cases mon with
    | some w => exact Run.does_setReg summed _ threads
    | none => exact summed
  unfold Run.warmReset
  extract_lets x b f
  exact ((blocks.act (a := .fox _) trivial).act (a := .pins _) trivial).trans (Run.does_startStep1 _)

/-- What a warm reset leaves: no STATE of a link, nothing busy, nothing to settle, and the timebase as it was (R407). -/
theorem Run.warmReset_clears (r : Run s0) (d : Fin 16) :
    r.warmReset.1.emptied ∧ r.warmReset.1.need = r.1.need ∧ r.warmReset.1.fld TBASE_STAT_REFOK = r.1.fld TBASE_STAT_REFOK ∧
      r.warmReset.1.fld (RLINK_RESET_BUSY d) = 0 ∧ r.warmReset.1.fld (RLINK_STAT_STATE d) = 0 := by
  obtain ⟨p, clears, empty, tail⟩ := r.warmReset_steps
  have resets : Run.does (Act.clears fun o _ => warmRegion true o = true) p (p.resetRegs (warmRegion true) false) :=
    (Run.does.refl p).resetRegs fun o v named => named
  have timebase : Sparse.find? r.warmReset.1.regs TBASE_STAT.off = r.1.regs.find? TBASE_STAT.off :=
    (tail.unwritten fun _ h => h.2 rfl).trans ((resets.unwritten fun _ => by decide).trans (clears.unwritten fun _ => id))
  obtain ⟨stat, -, -, reset, -⟩ := linkPage_regs d.isLt
  have named : ∀ o, linkPage o → warmRegion true o = true := by
    rintro o ⟨k, hk, x, hx, rfl⟩
    simp [warmRegion]
    omega
  obtain ⟨-, found, -⟩ := RLINK_placed d
  refine ⟨tail.emptied (resets.emptied empty), tail.needs.trans (resets.needs.trans clears.needs), ?_, ?_, ?_⟩
  · exact State.fld_same timebase
  · rw [State.fld_same (tail.unwritten fun _ h => h.1 reset)]
    exact p.resetRegs_field found.1 (named _ reset) (linkResetFamily_reg d) rfl (by simp)
      (by simp only [RLINK_RESET_BUSY_place]; decide)
  · rw [State.fld_same (tail.unwritten fun _ h => h.1 stat)]
    exact p.resetRegs_field (findReg_RLINK_STAT d d.isLt) (named _ stat) (reg_RLINK_STAT d) rfl (by simp)
      (by simp only [RLINK_STAT_STATE_place]; decide)

/-- A Larkspur core's write of WARM begins a warm reset, unless the last FATAL calls for a cold one (R412, R471). -/
theorem Run.wFoxStart_warm (r : Run s0) (k : Fin 4) (cold : r.1.fld ERR_FATAL_COLD = 0) :
    ∃ p, r.wFoxStart (.lark k) (r.reg FOX_START) (1#64 <<< 34) = (p, true) ∧ Run.does (Act.clears fun o _ => o = FOX_START.off) r p := by
  set p := (r.setFld FOX_START_PREFB (Word.bits (r.reg FOX_START) 10 10)).setFld FOX_START_MCODE (Word.bits (r.reg FOX_START) 47 40) with hp
  have writes : Run.does (Act.clears fun o _ => o = FOX_START.off) r p := Run.does_setFld (Run.does_setFld (.refl r) _ fun _ => rfl) _ fun _ => rfl
  have warm : (1#64 <<< 34).getLsbD 34 = true := by decide
  have may : p.on ERR_FATAL_COLD = false := by
    have same : p.1.fld ERR_FATAL_COLD = 0 := (State.fld_same (writes.unwritten fun _ => by decide)).trans cold
    simp [Run.on, Run.fld, same]
  refine ⟨p, ?_, writes⟩
  unfold Run.wFoxStart
  simp only [isLark, warm, Bool.not_true, Bool.and_false, Bool.false_and, Bool.or_self, Bool.false_eq_true, if_false, ← hp, may, Bool.not_false, Bool.and_self, if_true]

/-- A start waits for the reference clock (R407). -/
theorem Run.warmStart_waits (r : Run s0) (env : StartEnv) (clock : r.warmReset.1.fld TBASE_STAT_REFOK = 0) : r.warmStart env = r.warmReset := by
  have off : ¬ r.warmReset.on TBASE_STAT_REFOK = true := by simp [Run.on, Run.fld, clock]
  exact if_neg off

theorem exec_warmReset (k : Fin 4) (env : StartEnv) (s : State) (w : s.writer (.lark k)) {p : Run s}
    (asked : (Run.start s).wFoxStart (.lark k) ((Run.start s).reg FOX_START) (1#64 <<< 34) = (p, true)) :
    exec (.warmReset (.lark k) env) s = (p.warmStart env).done := by
  have acts : (Run.start s).acts (.lark k) = true := (Run.start s).acts_of_writer (.lark k) w
  have held : s.pins.iodHeld = false := w.2.1
  have begins : exec (.warmReset (.lark k) env) s = execWarmReset (.lark k) env s := rfl
  rw [begins, execWarmReset]
  dsimp only
  rw [asked, if_neg (by simp [acts, held]), if_pos rfl]

/-- R214: a warm reset ends a tile reset and a die reset. -/
theorem warmReset_endsResets (d : Fin 16) (k : Fin 4) (env : StartEnv) (s : State) (need : s.need = {}) (w : s.writer (.lark k))
    (cold : s.fld ERR_FATAL_COLD = 0) (clock : s.fld TBASE_STAT_REFOK = 0) :
    ∃ t, exec (.warmReset (.lark k) env) s = .next t ∧ t.fld (RLINK_RESET_BUSY d) = 0 ∧ t.fld (RLINK_STAT_STATE d) = 0 := by
  obtain ⟨p, asked, writes⟩ := (Run.start s).wFoxStart_warm k cold
  obtain ⟨empty, needs, refok, busy, state⟩ := p.warmReset_clears d
  have begins := exec_warmReset k env s w asked
  have same : p.1.fld TBASE_STAT_REFOK = s.fld TBASE_STAT_REFOK := State.fld_same (writes.unwritten fun _ => by decide)
  rw [p.warmStart_waits env (refok.trans (same.trans clock))] at begins
  exact ⟨_, begins.trans (empty.done (needs.trans (writes.needs.trans need))), busy, state⟩

/-- Settles O58: what homes do for a fenced die leaves STATE and RESET of its link, a die reset in progress is joined, and the resets of the package
bring both registers to zeros. -/
theorem dieResetSupersedes : Obligations.DieResetSupersedes := by
  unfold Obligations.DieResetSupersedes
  exact ⟨dieReset_endsTileReset, fun d cause s again => (Run.start s).dieReset_again cause again, dieReset_joined, fun d k env s need w _ cold clock =>
    ⟨porstAssert_endsResets d s need, warmReset_endsResets d k env s need w cold clock⟩⟩

end Sys2Proof.Machine

/-! Records of events in free slots, and what records leave beside registers (R454 to R457). -/
namespace Sys2Proof.Machine

variable {s0 : State} {W : Nat → Prop} {r q : Run s0}

@[simp] theorem EB_STAT_V_place (b : Nat) : (EB_STAT_V b).reg = EB_STAT b ∧ (EB_STAT_V b).hi = 2 ∧ (EB_STAT_V b).lo = 0 ∧ (EB_STAT_V b).fits = true :=
  ⟨rfl, rfl, rfl, by simp only [FRef.fits_iff, EB_STAT_V, EB_STAT]; decide⟩

/-- The stores that a run by writes of registers, tiles and limits leaves. -/
theorem Run.marks.stores (h : Run.marks W r q) : q.1.harts = r.1.harts ∧ q.1.l3 = r.1.l3 ∧ q.1.lineq = r.1.lineq ∧ q.1.slices = r.1.slices ∧
    q.1.filt = r.1.filt ∧ q.1.dram = r.1.dram ∧ q.1.net = r.1.net := by
  obtain ⟨rs, ts, ls, only, -⟩ := h
  rw [only]
  exact ⟨rfl, rfl, rfl, rfl, rfl, rfl, rfl⟩

/-- A bank of the package lies apart from the rings and their summary (R455, R457). -/
theorem Bank.bank_not_ringArea {b : Bank} (hb : b.ofPackage) {o : Nat} (lo : b.base ≤ o) (hi : o < b.base + 0x100) : ¬ ringArea b.die o := by
  have die : b.die ≤ 16 := by cases b <;> simp only [Bank.ofPackage] at hb <;> simp only [Bank.die] <;> omega
  have apart : b.base + 0x100 ≤ errBase b.die ∨ errBase b.die + 0x800 ≤ b.base := by
    by_cases iod : b.die = 16
    · rw [errBase, if_pos iod]
      cases b <;> simp only [Bank.ofPackage] at hb <;> simp only [Bank.base, Bank.die] at iod ⊢ <;> omega
    · rw [errBase, if_neg iod]
      cases b <;> simp only [Bank.ofPackage] at hb <;> simp only [Bank.base, Bank.die, tileBase, dieBase] at iod ⊢ <;> omega
  have summary : b.base + 0x100 ≤ ERR_SUMMARY.off ∨ ERR_SUMMARY.off < b.base := by
    simp only [ERR_SUMMARY]
    cases b <;> simp only [Bank.ofPackage] at hb <;> simp only [Bank.base, tileBase, dieBase] <;> omega
  have stat : (ERR_RINGSTAT b.die).off = errBase b.die := rfl
  rintro (at_ | at_ | ⟨from_, to_⟩)
  all_goals omega

/-- What a slot that is free takes (R456). -/
theorem Run.putSlot_free (r : Run s0) (b : Bank) {i : Nat} (hi : i < 3) (w : Word) (ws : List Word) (len : ws.length = 7) (free : r.1.freeSlot b i) :
    natBit ((r.putSlot b i (w :: ws)).1.fld (EB_STAT_V b.base)) i = true ∧ (r.putSlot b i (w :: ws)).1.reg (EB_REC b.base i 0) = w := by
  have first : r.putSlot b i (w :: ws) = ((r.setBit (EB_STAT_V b.base) i true).setReg (EB_REC b.base i 0) w).putWords (fun k => EB_REC b.base i k) 1 ws := by
    have none_ : ¬ natBit (r.fld (EB_STAT_V b.base)) i = true := by simp only [Run.fld, free, Bool.false_eq_true, not_false_eq_true]
    unfold Run.putSlot
    dsimp only
    rw [if_neg none_]
    rfl
  have rest := Run.marks_putWords (W := fun o => (EB_REC b.base i 0).off < o) ((r.setBit (EB_STAT_V b.base) i true).setReg (EB_REC b.base i 0) w)
    (fun k => EB_REC b.base i k) 1 ws fun j lo _ => by
      simp only [EB_REC]
      omega
  rw [first]
  refine ⟨?_, ?_⟩
  · rw [rest.fld (f := EB_STAT_V b.base) (by simp only [EB_STAT_V, EB_STAT, EB_REC]; omega),
      Run.fld_setReg_other _ _ _ _ (by simp only [EB_STAT_V, EB_STAT, EB_REC]; omega), Run.natBit_setBit _ _ _ _ (by simp) (by simpa using hi), if_pos rfl]
  · rw [rest.reg (g := EB_REC b.base i 0) (Nat.lt_irrefl _), Run.reg_setReg_same]
    simp only [EB_REC]
    exact BitVec.and_allOnes

/-- EVENT of the first word of a record (R454). -/
theorem Run.recWords_event (r : Run s0) (b : Bank) (x : Rec) (fits : x.event < 2 ^ 16) :
    ∃ w ws, r.recWords b x = w :: ws ∧ ws.length = 7 ∧ Word.bits w 15 0 = x.event := by
  refine ⟨_, _, rfl, rfl, ?_⟩
  generalize (if x.addr.isSome then 1 else 0) + (if x.req.isSome then 2 else 0) + (if r.timeInv b.die then 4 else 0) + (if x.poisoned then 8 else 0) +
    (if x.dieScope then 16 else 0) = flags
  simp only [Word.bits, BitVec.ushiftRight_zero, BitVec.toNat_ofNat]
  omega

/-- A record of what cannot go on takes a slot that is free (R454 to R456). -/
theorem Run.logRec_recorded (r : Run s0) (ns : r.1.noSources) {b : Bank} (hb : b.ofPackage) {x : Rec} (cls : x.cls = .ucna) (fits : x.event < 2 ^ 16)
    (other : x.event ≠ 0x0903) (free : r.1.freeSlot b 1) : (r.logRec b x).1.recorded b 1 x.event := by
  obtain ⟨w, ws, words, len, event⟩ := r.recWords_event b x fits
  have slot : Cls.ucna.slot = 1 := rfl
  have enters : r.logRec b x = (r.putSlot b 1 (w :: ws)).ringPush b.die (w :: ws) := by
    have none_ : natBit (r.fld (EB_STAT_V b.base)) 1 = false := free
    unfold Run.logRec
    simp only [words, cls, slot, none_, other, Bool.false_and, Bool.false_eq_true, false_and, and_false, or_self, if_false, if_true, reduceCtorEq]
  obtain ⟨valid, first⟩ := r.putSlot_free b (i := 1) (by decide) w ws len free
  have slots := r.marks_putSlot b (i := 1) (by decide) (ws := w :: ws) (by rw [List.length_cons, len])
  have ring := (r.putSlot b 1 (w :: ws)).marks_ringPush (slots.noSources ns) b.die (ws := w :: ws) (by rw [List.length_cons, len])
  rw [enters]
  refine ⟨?_, ?_⟩
  · rw [ring.fld (f := EB_STAT_V b.base)]
    · exact valid
    · exact Bank.bank_not_ringArea hb (Nat.le_refl _) (by simp only [EB_STAT_V, EB_STAT]; omega)
  · rw [ring.reg (g := EB_REC b.base 1 0), first, event]
    refine Bank.bank_not_ringArea hb ?_ ?_
    all_goals
      simp only [EB_REC]
      omega

end Sys2Proof.Machine

/-! Resets of a die while no home serves a request (R211, R213, R216, R469). -/
namespace Sys2Proof.Machine

variable {s0 : State}

/-! ### A fence with nothing to answer -/

/-- Steps that each leave a run leave it. -/
theorem Run.foldl_idle {α : Type} (r : Run s0) (f : Run s0 → α → Run s0) (xs : List α) (idle : ∀ x ∈ xs, f r x = r) : xs.foldl f r = r :=
  List.foldlRecOn (motive := (· = r)) xs f rfl fun q same x hx => by rw [same, idle x hx]

/-- No home has a request, no message is in flight, and no snoop of a peer waits. -/
structure State.homesIdle (s : State) : Prop where
  net : s.net = []
  lineq : s.lineq = []
  slices : s.slices = []

theorem Run.orphan_idle (r : Run s0) (lineq : r.1.lineq = []) (n : Nat) : r.orphan n = r := by
  unfold Run.orphan
  extract_lets mine
  rw [lineq]
  rfl

theorem Run.act_net_idle (r : Run s0) (net : r.1.net = []) (p : Msg → Bool) : r.act (.net (r.1.net.filter p)) = r := by
  refine Subtype.ext ?_
  show { r.1 with net := r.1.net.filter p } = r.1
  rw [net, List.filter_nil, ← net]

/-- A die that owes nothing and is owed nothing is fenced at once (R216, R217). -/
theorem Run.fenceDie_idle (r : Run s0) (idle : r.1.homesIdle) (d : Nat) : r.fenceDie d = r := by
  obtain ⟨net, lineq, slices⟩ := idle
  have none_ (k : Nat) : (r.slice k).peerSnoops = [] := by
    rw [Run.slice, State.slice, slices]
    rfl
  unfold Run.fenceDie
  extract_lets die orphans coming served
  have left : orphans = r := by
    unfold orphans
    rw [r.act_net_idle net]
    exact r.foldl_idle _ _ fun t _ => r.orphan_idle lineq _
  have serves : served = r := by
    unfold served
    rw [left, lineq]
    rfl
  rw [serves]
  refine r.foldl_idle _ _ fun k _ => ?_
  rw [none_]
  rfl

/-! ### A die reset -/

/-- The stores that the order of a die reset leaves. -/
theorem Run.condemn_stores (r : Run s0) (d cause : Nat) : (r.condemn d cause).1.harts = r.1.harts ∧ (r.condemn d cause).1.l3 = r.1.l3 ∧
    (r.condemn d cause).1.lineq = r.1.lineq ∧ (r.condemn d cause).1.slices = r.1.slices ∧ (r.condemn d cause).1.net = r.1.net := by
  unfold Run.condemn
  split
  · exact ⟨rfl, rfl, rfl, rfl, rfl⟩
  · exact ⟨rfl, rfl, rfl, rfl, rfl⟩

/-- What a die reset writes: registers of its link, of the die and its domains, and those of its record. -/
def dieResetArea (d o : Nat) : Prop := condemnArea d o ∨ (dieArea d o ∨ dieDomain d o) ∨ (Bank.rlink d).area o

theorem domain_not_area (d i : Nat) (hi : i < 404) : ¬ (Bank.rlink d).area (DOM_STAT i).off := by
  simp only [Bank.area, ringArea, Bank.base, Bank.die, DOM_STAT_off, ERR_SUMMARY, ERR_RINGSTAT, errBase, if_true]
  omega

/-- The bank of a link lies apart from its die and from STAT, RESET and CTL of the link. -/
theorem rlinkBank_apart {d : Nat} (hd : d < 16) {o : Nat} (lo : (Bank.rlink d).base ≤ o) (hi : o < (Bank.rlink d).base + 0x100) :
    ¬ (dieArea d o ∨ dieDomain d o) ∧ ¬ condemnArea d o := by
  simp only [Bank.base] at lo hi
  refine ⟨?_, ?_⟩
  · rintro (⟨-, area⟩ | ⟨i, small, off⟩)
    · unfold dieBase at area
      omega
    · rw [DOM_STAT_off] at off
      omega
  · simp only [condemnArea, RLINK_offs]
    omega

/-- What a die reset brings about while no home serves a request (R216). -/
structure Run.dieResets (d cause : Nat) (r q : Run s0) : Prop where
  orderly : Run.orderly (dieResetArea d) r q
  state : q.1.fld (RLINK_STAT_STATE d) = 6
  lastCause : q.1.fld (RLINK_STAT_LASTCAUSE d) = cause
  widths : q.1.fld (RLINK_STAT_UPW d) = 0 ∧ q.1.fld (RLINK_STAT_DNW d) = 0
  harts : ∀ j < 64, q.1.hart (d * 64 + j) = {}
  lines : ∀ k, (l3Place k).1 = d → q.1.l3Slot k = none
  domains : ∀ i < 21, q.1.fld (DOM_STAT_STATE (d * 21 + i)) = 3
  recorded : r.1.freeSlot (.rlink d) 1 → q.1.recorded (.rlink d) 1 0x0B00
  request : ¬ (r.1.fld (RLINK_RESET_BUSY d) ≠ 0 ∧ r.1.fld (RLINK_RESET_KIND d) = 1) → q.1.reg (RLINK_RESET d) = r.1.reg (RLINK_RESET d)

theorem Run.dieReset_idle (r : Run s0) {d cause : Nat} (hd : d < 16) (hc : cause < 16) (ns : r.1.noSources) (idle : r.1.homesIdle)
    (first : r.1.fld (RLINK_STAT_STATE d) ≠ 6) (wire : r.1.fld (RLINK_FAULTMAP_RSTA d) = 0) : Run.dieResets d cause r (r.dieReset d cause) := by
  obtain ⟨orders, state, last, upw, dnw, request⟩ := r.condemn_leaves d hc
  obtain ⟨-, -, lineq, slices, net⟩ := r.condemn_stores d cause
  have still : (r.condemn d cause).1.homesIdle := ⟨net.trans idle.net, lineq.trans idle.lineq, slices.trans idle.slices⟩
  have begins := r.dieReset_eq cause first
  rw [Run.fenceDie_idle _ still] at begins
  generalize r.condemn d cause = c at *
  have holds := (c.does_holdDie hd)
  obtain ⟨harts, lines, domains⟩ := c.holdDie_clears hd ((orders.fld (by simp [condemnArea])).trans wire)
  generalize c.holdDie d = h at *
  have steps : Run.orderly (dieResetArea d) r h := (orders.mono fun _ => .inl).trans (holds.orderly.mono fun _ own => .inr (.inl own))
  have logs := h.marks_logRec (steps.noSources ns) (.rlink d) { event := 0x0B00, cls := .ucna, detail := dieDetail d cause 0 } none
  have records (free : h.1.freeSlot (.rlink d) 1) := h.logRec_recorded (steps.noSources ns) (b := .rlink d) trivial
    (x := { event := 0x0B00, cls := .ucna, detail := dieDetail d cause 0 }) rfl (show 0x0B00 < 2 ^ 16 by decide) (show 0x0B00 ≠ 0x0903 by decide) free
  rw [Run.aplicEdge_noSources _ (logs.noSources (steps.noSources ns))] at begins
  generalize h.logRec (.rlink d) { event := 0x0B00, cls := .ucna, detail := dieDetail d cause 0 } = t at *
  obtain ⟨sameHarts, sameL3, -⟩ := logs.stores
  obtain ⟨stat, -, -, reset, -⟩ := linkPage_regs hd
  have link {f : FRef} (page : linkPage f.reg.off) : t.1.fld f = c.1.fld f :=
    (logs.fld (Bank.area_not_linkPage (b := .rlink d) trivial page)).trans (holds.orderly.fld (linkPage_apart hd page))
  rw [begins]
  exact
    { orderly := steps.trans (logs.orderly.mono fun _ own => .inr (.inr own))
      state := (link stat).trans state
      lastCause := (link stat).trans last
      widths := ⟨(link stat).trans upw, (link stat).trans dnw⟩
      harts := fun j hj => by
        rw [State.hart, sameHarts]
        exact harts j hj
      lines := fun k hk => by
        rw [State.l3Slot, sameL3]
        exact lines k hk
      domains := fun i hi => (logs.fld (domain_not_area d _ (by omega))).trans (domains i hi)
      recorded := fun free => records (by
        obtain ⟨die, own⟩ := rlinkBank_apart hd (o := (EB_STAT (Bank.rlink d).base).off) (Nat.le_refl _) (Nat.lt_add_of_pos_right (by decide))
        rw [State.freeSlot, holds.orderly.fld (f := EB_STAT_V _) die, orders.fld (f := EB_STAT_V _) own]
        exact free)
      request := fun none_ => by
        have plain : ¬ (r.on (RLINK_RESET_BUSY d) = true ∧ r.fld (RLINK_RESET_KIND d) = 1) := fun h => none_ ⟨bne_iff_ne.1 h.1, h.2⟩
        rw [if_neg plain] at request
        exact ((logs.reg (Bank.area_not_linkPage (b := .rlink d) trivial reset)).trans (holds.orderly.reg (linkPage_apart hd reset))).trans request }

/-! ### What a die reset is triggered by -/

theorem State.not_reset {s : State} {d : Nat} (online : s.online d = true) : s.fld (RLINK_STAT_STATE d) ≠ 6 := fun six => by
  simp [State.online, six] at online

/-- R198, R216: a link that is down resets its die, with cause 2. -/
theorem dieReset_link (d : Fin 16) (s : State) (still : s.still) (ns : s.noSources) (net : s.net = []) (lineq : s.lineq = []) (slices : s.slices = [])
    (online : s.online d = true) (busy : s.fld (RLINK_RESET_BUSY d) = 0) (wire : s.fld (RLINK_FAULTMAP_RSTA d) = 0) :
    ∃ t, exec (.dieReset d .link) s = .next t ∧ t.fld (RLINK_STAT_STATE d) = 6 ∧ t.fld (RLINK_STAT_LASTCAUSE d) = 2 ∧ t.fld (RLINK_RESET_BUSY d) = 0 ∧
      ∀ j < 64, t.hart (d * 64 + j) = {} := by
  have resets := (Run.start s).dieReset_idle (cause := 2) d.isLt (by decide) ns ⟨net, lineq, slices⟩ (State.not_reset online) wire
  have begins : exec (.dieReset d .link) s = ((Run.start s).dieReset d 2).done := by
    have on : (Run.start s).online d = true := online
    have link : exec (.dieReset d .link) s = (if (Run.start s).online d then (Run.start s).linkDown d else Run.start s).done := rfl
    rw [link, if_pos on, Run.linkDown]
  have request := resets.request fun tile => tile.1 busy
  refine ⟨_, begins.trans (resets.orderly.done still (.inl net)), resets.state, resets.lastCause, ?_, resets.harts⟩
  rw [State.fld, (RLINK_RESET_BUSY_place d).1, request]
  exact busy

/-- What a record before the reset leaves of what the reset looks at. -/
theorem Run.dieScope_idle (r : Run s0) {d : Nat} (hd : d < 16) {b : Bank} (hb : b.ofPackage) (event : Nat) (ns : r.1.noSources) (idle : r.1.homesIdle)
    (first : r.1.fld (RLINK_STAT_STATE d) ≠ 6) (wire : r.1.fld (RLINK_FAULTMAP_RSTA d) = 0) :
    ∃ p, Run.marks b.area r p ∧ p = r.logRec b { event := event, cls := .ucna, dieScope := true } ∧ Run.dieResets d 4 p (r.dieScope d b event) := by
  have logs := r.marks_logRec ns b { event := event, cls := .ucna, dieScope := true } none
  obtain ⟨-, -, lineq, slices, -, -, net⟩ := logs.stores
  obtain ⟨stat, -, map, -, -⟩ := linkPage_regs hd
  refine ⟨_, logs, rfl, Run.dieReset_idle _ hd (by decide) (logs.noSources ns) ⟨net.trans idle.net, lineq.trans idle.lineq, slices.trans idle.slices⟩ ?_ ?_⟩
  · rwa [logs.fld (f := RLINK_STAT_STATE d) (Bank.area_not_linkPage hb stat)]
  · rwa [logs.fld (f := RLINK_FAULTMAP_RSTA d) (Bank.area_not_linkPage hb map)]

/-- R469: an error of die scope that a quadrant of its L3 finds resets the die, with cause 4. -/
theorem dieReset_scope (d : Fin 16) (k : Fin 4) (s : State) (still : s.still) (ns : s.noSources) (net : s.net = []) (lineq : s.lineq = []) (slices : s.slices = [])
    (online : s.online d = true) (_busy : s.fld (RLINK_RESET_BUSY d) = 0) (wire : s.fld (RLINK_FAULTMAP_RSTA d) = 0) :
    ∃ t, exec (.dieReset d (.scope k 0x0202)) s = .next t ∧ t.fld (RLINK_STAT_STATE d) = 6 ∧ t.fld (RLINK_STAT_LASTCAUSE d) = 4 ∧
      ∀ j < 64, t.hart (d * 64 + j) = {} := by
  obtain ⟨p, logs, -, resets⟩ := (Run.start s).dieScope_idle d.isLt (b := .l3 d k) ⟨d.isLt, k.isLt⟩ 0x0202 ns ⟨net, lineq, slices⟩ (State.not_reset online) wire
  have begins : exec (.dieReset d (.scope k 0x0202)) s = ((Run.start s).dieScope d (.l3 d k) 0x0202).done := by
    have on : (Run.start s).online d = true := online
    exact if_neg (by simp [on])
  have steps : Run.orderly (fun o => (Bank.l3 d k).area o ∨ dieResetArea d o) (Run.start s) _ :=
    (logs.orderly.mono fun _ => .inl).trans (resets.orderly.mono fun _ => .inr)
  exact ⟨_, begins.trans (steps.done still (.inl net)), resets.state, resets.lastCause, resets.harts⟩

/-- A full write of RLINK.RESET leaves KIND and TILES as written (R212). -/
theorem Run.fullWrite_linkReset (r : Run s0) (d : Nat) (v : Word) :
    Word.bits (r.fullWrite (RLINK_RESET d) fields_RLINK_RESET v) 57 56 = Word.bits v 57 56 ∧
      Word.bits (r.fullWrite (RLINK_RESET d) fields_RLINK_RESET v) 15 0 = Word.bits v 15 0 := by
  have fields := applyFields_bits (fs := fields_RLINK_RESET) (r.reg (RLINK_RESET d)) v true (by decide) (by decide) (by decide)
  exact ⟨fields ⟨"KIND", 57, 56, .rw, some 0⟩ (by decide), fields ⟨"TILES", 15, 0, .rw, some 0⟩ (by decide)⟩

/-- A request is taken: its KIND and TILES stand, and BUSY is set (R212). -/
def Run.takeRequest (r : Run s0) (d : Nat) (new : Word) : Run s0 := (r.setReg (RLINK_RESET d) new).setFld (RLINK_RESET_BUSY d) 1

theorem Run.takeRequest_leaves (r : Run s0) (d : Nat) (new : Word) :
    Run.orderly (· = (RLINK_RESET d).off) r (r.takeRequest d new) ∧ (r.takeRequest d new).1.fld (RLINK_RESET_BUSY d) = 1 ∧
      (r.takeRequest d new).1.fld (RLINK_RESET_KIND d) = Word.bits new 57 56 ∧ (r.takeRequest d new).1.fld (RLINK_RESET_TILES d) = Word.bits new 15 0 := by
  have takes : Run.orderly (· = (RLINK_RESET d).off) r (r.setReg (RLINK_RESET d) new) := r.orderly_setReg new rfl
  have field (f : FRef) (fits : f.fits = true) (own : f.reg = RLINK_RESET d) : (r.setReg (RLINK_RESET d) new).1.fld f = Word.bits new f.hi f.lo := by
    obtain ⟨⟨hi, lo⟩, inside⟩ := f.fits_iff.1 fits
    rw [State.fld, own, Run.reg_setReg_same, Word.bits_and _ _ hi lo (own ▸ inside)]
  unfold Run.takeRequest
  refine ⟨takes.trans (Run.orderly_setFld _ _ (by simp)), Run.fld_setFld_lt _ (by simp) (by simp), ?_, ?_⟩
  · rw [Run.fld_setFld_ne _ _ (by simp) (by simp) (by simp), field _ (by simp) (by simp)]
    simp
  · rw [Run.fld_setFld_ne _ _ (by simp) (by simp) (by simp), field _ (by simp) (by simp)]
    simp

/-- A request for a die reset, where no hart of the die is at an enclave's ID (R212, R213). -/
theorem Run.wRlinkReset_die (r : Run s0) (q : Requester) (d : Nat) {new v : Word} (go : v.getLsbD 63 = true) (free : r.1.fld (RLINK_RESET_BUSY d) = 0)
    (kind : Word.bits new 57 56 = 0) (eids : ∀ e ∈ r.1.harts, e.2.eid = 0) :
    r.wRlinkReset q d new v = (r.takeRequest d new).dieReset d 1 := by
  have idle : r.on (RLINK_RESET_BUSY d) = false := by simp [Run.on, Run.fld, free]
  have none_ (h : Nat) : ((r.setReg (RLINK_RESET d) new).hart h).eid = 0 := State.hart_of_listed (s := r.1) (P := fun t => t.eid = 0) rfl eids h
  have noHeld (xs : List Nat) : (xs.any fun t => (List.range 4).any fun i => ((r.setReg (RLINK_RESET d) new).hart ((d * 16 + t) * 4 + i)).eid != 0) = false := by
    simp [none_]
  unfold Run.wRlinkReset
  simp only [go, idle, kind, noHeld, Bool.not_true, Bool.false_eq_true, false_or, Nat.reduceLeDiff, Nat.zero_ne_one, false_and, and_false, if_false]
  rfl

/-- R211, R213, R216, R470: a die reset that is asked for takes the state of the die, with cause 1, and records it. -/
theorem dieReset_request (q : Requester) (d : Fin 16) (s : State) (still : s.still) (ns : s.noSources) (net : s.net = []) (lineq : s.lineq = [])
    (slices : s.slices = []) (w : s.writer q) (online : s.online d = true) (free : s.fld (RLINK_RESET_BUSY d) = 0) (wire : s.fld (RLINK_FAULTMAP_RSTA d) = 0)
    (slot : s.freeSlot (.rlink d) 1) (eids : ∀ e ∈ s.harts, e.2.eid = 0) :
    ∃ t, exec (.dieReset d (.request q)) s = .next t ∧ t.fld (RLINK_RESET_BUSY d) = 1 ∧ t.fld (RLINK_STAT_STATE d) = 6 ∧ t.fld (RLINK_STAT_LASTCAUSE d) = 1 ∧
      t.fld (RLINK_STAT_UPW d) = 0 ∧ t.fld (RLINK_STAT_DNW d) = 0 ∧ t.recorded (.rlink d) 1 0x0B00 ∧ (∀ j < 64, t.hart (d * 64 + j) = {}) ∧
      (∀ e ∈ s.l3, (l3Place e.1).1 = d.val → t.l3Slot e.1 = none) ∧ ∀ i < 21, t.fld (DOM_STAT_STATE (d * 21 + i)) = 3 := by
  have kind := ((Run.start s).fullWrite_linkReset d (1#64 <<< 63)).1.trans (by decide : _ = 0)
  have write := ((Run.start s).write_link q (1#64 <<< 63) w (RLINK_placed d).2.1 (linkPage_regs d.isLt).2.2.2.1).trans
    (((Run.start s).regPut_link q d (1#64 <<< 63)).2.1.trans ((Run.start s).wRlinkReset_die q d (by decide) free kind eids))
  have begins : exec (.dieReset d (.request q)) s = ((Run.start s).regWrite q (RLINK_RESET d).off .full (1#64 <<< 63)).done := rfl
  rw [write] at begins
  obtain ⟨takes, busy, shown, -⟩ := (Run.start s).takeRequest_leaves d ((Run.start s).fullWrite (RLINK_RESET d) fields_RLINK_RESET (1#64 <<< 63))
  rw [kind] at shown
  have resets := Run.dieReset_idle ((Run.start s).takeRequest d ((Run.start s).fullWrite (RLINK_RESET d) fields_RLINK_RESET (1#64 <<< 63)))
    (cause := 1) d.isLt (by decide) ns ⟨net, lineq, slices⟩ (by rw [takes.fld (f := RLINK_STAT_STATE d) (by simp)]; exact State.not_reset online)
    ((takes.fld (f := RLINK_FAULTMAP_RSTA d) (by simp)).trans wire)
  generalize (Run.start s).takeRequest d ((Run.start s).fullWrite (RLINK_RESET d) fields_RLINK_RESET (1#64 <<< 63)) = p at *
  have steps : Run.orderly (dieResetArea d) (Run.start s) (p.dieReset d 1) := (takes.mono fun o own => .inl (.inr (.inl own))).trans resets.orderly
  have request := resets.request fun tile => absurd (shown.symm.trans tile.2) (by decide)
  refine ⟨_, begins.trans (steps.done still (.inl net)), ?_, resets.state, resets.lastCause, resets.widths.1, resets.widths.2, resets.recorded ?_,
    resets.harts, fun e _ => resets.lines e.1, resets.domains⟩
  · rw [State.fld, (RLINK_RESET_BUSY_place d).1, request]
    exact busy
  · rw [State.freeSlot, takes.fld (f := EB_STAT_V _) (by simp only [EB_STAT_V, EB_STAT, Bank.base, RLINK_RESET]; omega)]
    exact slot

end Sys2Proof.Machine

/-! Tile resets (R211, R212, R215). -/
namespace Sys2Proof.Machine

variable {s0 : State} {r q : Run s0}

/-! ### What surrounds a tile that is reset -/

/-- A change of the homes' queues, of a quadrant or of a line of an L3. -/
def Act.around : Act → Prop
  | .lineq _ _ | .quads _ _ | .l3 _ _ => True
  | _ => False

theorem Run.does.around_only (h : Run.does Act.around r q) : ∃ qs us ls, q.1 = { r.1 with lineq := qs, quads := us, l3 := ls } :=
  h.keeps (fun s => ∃ qs us ls, s = { r.1 with lineq := qs, quads := us, l3 := ls }) (fun a ha s ⟨qs, us, ls, only⟩ => by
    subst only
    cases a with
    | lineq k v => exact ⟨_, _, _, rfl⟩
    | quads k v => exact ⟨_, _, _, rfl⟩
    | l3 k v => exact ⟨_, _, _, rfl⟩
    | _ => exact ha.elim) ⟨_, _, _, rfl⟩

theorem Run.does_orphan (r : Run s0) (n : Nat) : Run.does Act.around r (r.orphan n) :=
  (Run.does.refl r).foldl fun p e _ => by
    split
    · exact (Run.does.refl p).act (a := .lineq _ _) trivial
    · exact .refl p

theorem Run.does_forgetTile (r : Run s0) (n : Nat) : Run.does Act.around r (r.forgetTile n) :=
  (Run.does.refl r).foldl fun p k _ => by
    dsimp only
    split
    · exact (Run.does.refl p).act (a := .quads _ _) trivial
    · exact .refl p

theorem Run.does_cvPurge (r : Run s0) (n : Nat) : Run.does Act.around r (r.cvPurge n).1 :=
  List.foldlRecOn (motive := fun p : Run s0 × Nat => Run.does Act.around r p.1) _ _ (.refl r) fun p before e _ => by
    split
    · split
      · split
        · exact before
        · split
          · exact before.act (a := .l3 _ _) trivial
          · exact before.act (a := .l3 _ _) trivial
      · exact before
    · exact before

theorem Run.flushTile_idle (r : Run s0) (net : r.1.net = []) (n : Nat) : r.flushTile n = r :=
  r.foldl_idle _ _ fun v _ => by
    unfold Run.flushEv
    rw [net]
    rfl

/-- What a reset of a tile does for it outside the tile, while no message is in flight (R215 steps 2 and 3). -/
theorem Run.tileReset_around (r : Run s0) (net : r.1.net = []) (n : Nat) :
    Run.does Act.around r ((((r.flushTile n).dropHartMsgs n).forgetTile n).cvPurge n).1 := by
  rw [r.flushTile_idle net]
  have drops : Run.does Act.around r (r.dropHartMsgs n) := by
    unfold Run.dropHartMsgs
    extract_lets mine
    rw [r.act_net_idle net]
    exact r.does_orphan n
  exact (drops.trans (Run.does_forgetTile _ n)).trans (Run.does_cvPurge _ n)

/-! ### One tile -/

/-- What a reset of a tile brings about (R215). -/
structure Run.tileTaken (n : Nat) (r q : Run s0) : Prop where
  orderly : Run.orderly (fun o => dieArea (dieOf n) o ∨ o = (DOM_STAT (domTile n)).off) r q
  tile : q.1.tile n = {}
  harts : ∀ i < 4, q.1.hart (n * 4 + i) = {}
  awake : q.1.fld (DOM_STAT_HOLD (domTile n)) = 0
  otherTiles : ∀ m, r.1.tile m = {} → q.1.tile m = {}
  otherHarts : ∀ h, tileOf h ≠ n → q.1.hart h = r.1.hart h
  listed : ∃ k, (q.1.die (dieOf n)).tileRst = (r.1.die (dieOf n)).tileRst ++ [(n, k)]

theorem Run.does.dies {W H : Nat → Prop} (h : Run.does (Act.wipes W H) r q) : q.1.dies = r.1.dies :=
  h.same State.dies fun a ha s => by
    cases a with
    | dies k v => exact ha.elim
    | _ => rfl

/-- The end of a tile's reset: the tile is held no more, and its die lists it. -/
def Run.listTile (r : Run s0) (n k : Nat) : Run s0 :=
  (r.setFld (DOM_STAT_HOLD (domTile n)) 0).modDie (dieOf n) fun x => { x with tileRst := x.tileRst ++ [(n, k)] }

theorem Run.orderly_listTile (r : Run s0) (n k : Nat) : Run.orderly (· = (DOM_STAT (domTile n)).off) r (r.listTile n k) :=
  (r.orderly_setFld _ (by simp)).trans (Run.orderly_modDie _ _ fun _ => id)

theorem Run.listTile_stores (r : Run s0) (n k : Nat) : (r.listTile n k).1.tiles = r.1.tiles ∧ (r.listTile n k).1.harts = r.1.harts := ⟨rfl, rfl⟩

theorem Run.listTile_awake (r : Run s0) (n k : Nat) : (r.listTile n k).1.fld (DOM_STAT_HOLD (domTile n)) = 0 := by
  unfold Run.listTile
  rw [Run.fld_modDie]
  exact Run.fld_setFld_lt _ (by simp) (by simp)

theorem Run.listTile_listed (r : Run s0) (n k : Nat) :
    ((r.listTile n k).1.die (dieOf n)).tileRst = (r.1.die (dieOf n)).tileRst ++ [(n, k)] := by
  unfold Run.listTile
  rw [Run.die_modDie]
  rfl

theorem Run.tileReset_takes (r : Run s0) {n : Nat} (hn : n < 256) (net : r.1.net = []) : Run.tileTaken n r (r.tileReset n) := by
  have around := r.tileReset_around net n
  have ends : r.tileReset n = (((((r.flushTile n).dropHartMsgs n).forgetTile n).cvPurge n).1.wipeTile n false).listTile n
      ((((r.flushTile n).dropHartMsgs n).forgetTile n).cvPurge n).2 := rfl
  generalize (((r.flushTile n).dropHartMsgs n).forgetTile n).cvPurge n = p at around ends
  obtain ⟨qs, us, ls, only⟩ := around.around_only
  have beside : Run.orderly (fun _ => False) r p.1 := by
    constructor
    case drops => exact fun drops => by rwa [State.noDrop, only]
    all_goals rw [only]
    exact fun _ _ => rfl
  have wipes := p.1.does_wipeTile hn false
  obtain ⟨tile, harts⟩ := p.1.wipeTile_clears hn false
  have dies := wipes.dies
  have otherHarts : ∀ h, tileOf h ≠ n → (p.1.wipeTile n false).1.hart h = r.1.hart h := fun h other => by
    rw [wipes.hart_other other, only]
    rfl
  have otherTiles : ∀ m, r.1.tile m = {} → (p.1.wipeTile n false).1.tile m = {} := fun m reset => wipes.tile_reset (by
    rw [only]
    exact reset)
  have taken : Run.orderly (dieArea (dieOf n)) r (p.1.wipeTile n false) := (beside.mono fun _ => False.elim).trans wipes.orderly
  rw [only] at dies
  rw [ends]
  generalize p.1.wipeTile n false = w at *
  have lists := w.orderly_listTile n p.2
  obtain ⟨sameTiles, sameHarts⟩ := w.listTile_stores n p.2
  have awake := w.listTile_awake n p.2
  have listed := w.listTile_listed n p.2
  generalize w.listTile n p.2 = q at *
  exact
    { orderly := (taken.mono fun _ => .inl).trans (lists.mono fun _ => .inr)
      tile := by rw [State.tile, sameTiles]; exact tile
      harts := fun i hi => by rw [State.hart, sameHarts]; exact harts i hi
      awake := awake
      otherTiles := fun m reset => by rw [State.tile, sameTiles]; exact otherTiles m reset
      otherHarts := fun h other => by rw [State.hart, sameHarts]; exact otherHarts h other
      listed := ⟨p.2, by rw [listed, State.die, dies]; rfl⟩ }

/-! ### The tiles that a request names -/

/-- A tile is as at reset, its harts with it, and is not held. -/
def State.tileCleared (s : State) (m : Nat) : Prop := s.tile m = {} ∧ (∀ i < 4, s.hart (m * 4 + i) = {}) ∧ s.fld (DOM_STAT_HOLD (domTile m)) = 0

theorem Run.tileTaken.clears {n m : Nat} (h : Run.tileTaken n r q) (hn : n < 256) (die : dieOf m = dieOf n) (before : m = n ∨ r.1.tileCleared m) :
    q.1.tileCleared m := by
  by_cases same : m = n
  · subst same
    exact ⟨h.tile, h.harts, h.awake⟩
  · obtain ⟨tile, harts, awake⟩ := before.resolve_left same
    refine ⟨h.otherTiles m tile, fun i hi => ?_, ?_⟩
    · rw [h.otherHarts _ (by unfold tileOf; omega)]
      exact harts i hi
    · rw [h.orderly.fld (f := DOM_STAT_HOLD (domTile m)) ?_, awake]
      unfold dieOf at die
      simp only [DOM_STAT_HOLD_place, DOM_STAT_off, domTile, dieArea, dieBase, dieOf]
      omega

/-- Tiles of a die go back to reset, one after the other. -/
def Run.tileResets (r : Run s0) (d : Nat) (ts : List Nat) : Run s0 := ts.foldl (fun r t => r.tileReset (d * 16 + t)) r

/-- What the resets of tiles of a die bring about (R215). -/
structure Run.tilesTaken (d : Nat) (ts : List Nat) (r q : Run s0) : Prop where
  orderly : Run.orderly (fun o => dieArea d o ∨ dieDomain d o) r q
  cleared : ∀ m, dieOf m = d → (∃ t ∈ ts, m = d * 16 + t) ∨ r.1.tileCleared m → q.1.tileCleared m
  otherHarts : ∀ h, (∀ t ∈ ts, tileOf h ≠ d * 16 + t) → q.1.hart h = r.1.hart h
  listed : (q.1.die d).tileRst.map (·.1) = (r.1.die d).tileRst.map (·.1) ++ ts.map (d * 16 + ·)

theorem Run.tileResets_take (r : Run s0) {d : Nat} (hd : d < 16) (ts : List Nat) (small : ∀ t ∈ ts, t < 16) (net : r.1.net = []) :
    Run.tilesTaken d ts r (r.tileResets d ts) := by
  induction ts generalizing r with
  | nil => exact ⟨.refl r, fun m _ h => h.elim (fun ⟨_, none_, _⟩ => (List.not_mem_nil none_).elim) id, fun _ _ => rfl, (List.append_nil _).symm⟩
  | cons t ts ih =>
    obtain ⟨ht, small⟩ := List.forall_mem_cons.1 small
    have die : dieOf (d * 16 + t) = d := by unfold dieOf; omega
    have takes := r.tileReset_takes (n := d * 16 + t) (by omega) net
    have area : ∀ o, dieArea (dieOf (d * 16 + t)) o ∨ o = (DOM_STAT (domTile (d * 16 + t))).off → dieArea d o ∨ dieDomain d o := by
      rw [die]
      refine fun o own => own.imp_right fun at_ => ⟨t, by omega, ?_⟩
      rw [at_, domTile, show (d * 16 + t) / 16 = d by omega, show (d * 16 + t) % 16 = t by omega]
    obtain ⟨k, listed⟩ := takes.listed
    have rest := ih (r.tileReset (d * 16 + t)) small (takes.orderly.net.trans net)
    rw [die] at listed
    have same : r.tileResets d (t :: ts) = (r.tileReset (d * 16 + t)).tileResets d ts := rfl
    rw [same]
    exact
      { orderly := (takes.orderly.mono area).trans rest.orderly
        cleared := fun m own before => by
          refine rest.cleared m own ?_
          rcases before with ⟨u, mem, rfl⟩ | before
          · rcases List.mem_cons.1 mem with rfl | mem
            · exact .inr (takes.clears (by omega) rfl (.inl rfl))
            · exact .inl ⟨u, mem, rfl⟩
          · exact .inr (takes.clears (by omega) (own.trans die.symm) (.inr before))
        otherHarts := fun h other => by
          obtain ⟨first, others⟩ := List.forall_mem_cons.1 other
          exact (rest.otherHarts h others).trans (takes.otherHarts h first)
        listed := by
          rw [rest.listed, listed, List.map_append, List.append_assoc]
          rfl }

/-- A request for the reset of tiles, where no hart of the die is at an enclave's ID (R212, R213). -/
theorem Run.wRlinkReset_tiles (r : Run s0) (q : Requester) (d : Nat) {new v : Word} {ts : List Nat} (go : v.getLsbD 63 = true)
    (free : r.1.fld (RLINK_RESET_BUSY d) = 0) (kind : Word.bits new 57 56 = 1)
    (tiles : ((List.range 16).filter fun t => natBit (Word.bits new 15 0) t) = ts) (some_ : ts ≠ []) (online : r.1.fld (RLINK_STAT_STATE d) = 4)
    (eids : ∀ e ∈ r.1.harts, e.2.eid = 0) :
    r.wRlinkReset q d new v = ((r.takeRequest d new).modDie d fun x => { x with tileRst := [] }).tileResets d ts := by
  have idle : r.on (RLINK_RESET_BUSY d) = false := by simp [Run.on, Run.fld, free]
  have stat : r.fld (RLINK_STAT_STATE d) = 4 := online
  have none_ (h : Nat) : ((r.setReg (RLINK_RESET d) new).hart h).eid = 0 := State.hart_of_listed (s := r.1) (P := fun t => t.eid = 0) rfl eids h
  have noHeld (xs : List Nat) : (xs.any fun t => (List.range 4).any fun i => ((r.setReg (RLINK_RESET d) new).hart ((d * 16 + t) * 4 + i)).eid != 0) = false := by
    simp [none_]
  have named : ts.isEmpty = false := by simpa using some_
  unfold Run.wRlinkReset
  simp only [go, idle, kind, tiles, stat, named, noHeld, Bool.not_true, Bool.false_eq_true, Nat.reduceLeDiff, ne_eq, not_true_eq_false, or_self,
    and_false, if_false, if_true]
  rfl

theorem tilesNamed (v : Word) (tiles : BitVec 16) (h : Word.bits v 15 0 = tiles.toNat) :
    ((List.range 16).filter fun t => natBit (Word.bits v 15 0) t) = (List.range 16).filter fun i => tiles.getLsbD i := by
  rw [h]
  refine List.filter_congr fun i _ => ?_
  rw [natBit_eq_testBit, BitVec.testBit_toNat]

/-- The word that asks for the reset of tiles: GO, KIND 1 and TILES (R211, R212). -/
theorem tileRequest_bits (tiles : BitVec 16) : (BitVec.ofNat 64 (2 ^ 63 + 2 ^ 56 + tiles.toNat)).getLsbD 63 = true ∧
    Word.bits (BitVec.ofNat 64 (2 ^ 63 + 2 ^ 56 + tiles.toNat)) 57 56 = 1 ∧ Word.bits (BitVec.ofNat 64 (2 ^ 63 + 2 ^ 56 + tiles.toNat)) 15 0 = tiles.toNat := by
  have small := tiles.isLt
  have value : (BitVec.ofNat 64 (2 ^ 63 + 2 ^ 56 + tiles.toNat)).toNat = 2 ^ 63 + 2 ^ 56 + tiles.toNat := by
    rw [BitVec.toNat_ofNat]
    omega
  refine ⟨?_, ?_, ?_⟩
  · rw [BitVec.getLsbD, value, Nat.testBit_eq_decide_div_mod_eq, decide_eq_true_eq]
    omega
  · rw [Word.bits, BitVec.toNat_ushiftRight, Nat.shiftRight_eq_div_pow, value]
    omega
  · rw [Word.bits, BitVec.toNat_ushiftRight, Nat.shiftRight_eq_div_pow, value]
    omega

/-- R211, R212, R215: a tile reset that is asked for takes the state of the tiles that it names, and of no other tile. -/
theorem tileReset_request (q : Requester) (d : Fin 16) (tiles : BitVec 16) (s : State) (still : s.still) (net : s.net = []) (w : s.writer q)
    (online : s.fld (RLINK_STAT_STATE d) = 4) (free : s.fld (RLINK_RESET_BUSY d) = 0) (some_ : tiles ≠ 0) (eids : ∀ e ∈ s.harts, e.2.eid = 0) :
    ∃ t, exec (.tileReset q d tiles) s = .next t ∧ t.fld (RLINK_RESET_BUSY d) = 1 ∧ t.fld (RLINK_RESET_KIND d) = 1 ∧ t.fld (RLINK_RESET_TILES d) = tiles.toNat ∧
      (t.die d).tileRst.map (·.1) = ((List.range 16).filter fun i => tiles.getLsbD i).map (d.val * 16 + ·) ∧
      (∀ i < 16, tiles.getLsbD i = true → t.tile (d * 16 + i) = {} ∧ t.fld (DOM_STAT_HOLD (domTile (d * 16 + i))) = 0) ∧
      (∀ i < 16, tiles.getLsbD i = true → ∀ j < 4, t.hart ((d * 16 + i) * 4 + j) = {}) ∧
      ∀ e ∈ s.harts, (dieOf (tileOf e.1) ≠ d ∨ tiles.getLsbD (tileOf e.1 % 16) = false) → t.hart e.1 = s.hart e.1 := by
  obtain ⟨go, kindBits, tileBits⟩ := tileRequest_bits tiles
  have begins : exec (.tileReset q d tiles) s =
      ((Run.start s).regWrite q (RLINK_RESET d).off .full (BitVec.ofNat 64 (2 ^ 63 + 2 ^ 56 + tiles.toNat))).done := rfl
  generalize BitVec.ofNat 64 (2 ^ 63 + 2 ^ 56 + tiles.toNat) = v at go kindBits tileBits begins
  obtain ⟨kind, named⟩ := (Run.start s).fullWrite_linkReset d v
  rw [kindBits] at kind
  rw [tileBits] at named
  have list := tilesNamed _ tiles named
  have nonempty : ((List.range 16).filter fun i => tiles.getLsbD i) ≠ [] := fun none_ => some_ (by
    refine BitVec.eq_of_getLsbD_eq fun i hi => ?_
    rw [List.filter_eq_nil_iff] at none_
    simpa using none_ i (List.mem_range.2 hi))
  have mem {i : Nat} : i ∈ ((List.range 16).filter fun i => tiles.getLsbD i) ↔ i < 16 ∧ tiles.getLsbD i = true := by
    rw [List.mem_filter, List.mem_range]
  have write := ((Run.start s).write_link q v w (RLINK_placed d).2.1 (linkPage_regs d.isLt).2.2.2.1).trans
    (((Run.start s).regPut_link q d v).2.1.trans ((Run.start s).wRlinkReset_tiles q d go free kind list nonempty online eids))
  rw [write] at begins
  obtain ⟨takes, busy, kept, shown⟩ := (Run.start s).takeRequest_leaves d ((Run.start s).fullWrite (RLINK_RESET d) fields_RLINK_RESET v)
  rw [kind] at kept
  rw [named] at shown
  generalize (List.range 16).filter (fun i => tiles.getLsbD i) = ts at *
  have harts : ((Run.start s).takeRequest d ((Run.start s).fullWrite (RLINK_RESET d) fields_RLINK_RESET v)).1.harts = s.harts := rfl
  generalize (Run.start s).takeRequest d ((Run.start s).fullWrite (RLINK_RESET d) fields_RLINK_RESET v) = p at *
  have lists : Run.orderly (fun _ => False) p (p.modDie d fun x => { x with tileRst := [] }) := Run.orderly_modDie _ _ fun _ => id
  have empty := congrArg Die.tileRst (p.die_modDie d fun x => { x with tileRst := [] })
  have sameHarts : (p.modDie d fun x => { x with tileRst := [] }).1.harts = s.harts := harts
  generalize p.modDie d (fun x => { x with tileRst := [] }) = o at *
  have resets := o.tileResets_take d.isLt ts (fun t ht => (mem.1 ht).1) (lists.net.trans (takes.net.trans net))
  generalize o.tileResets d ts = t at *
  have steps : Run.orderly (fun o => o = (RLINK_RESET d).off ∨ dieArea d o ∨ dieDomain d o) (Run.start s) t :=
    ((takes.mono fun _ => .inl).trans (lists.mono fun _ => False.elim)).trans (resets.orderly.mono fun _ => .inr)
  have request {f : FRef} (own : f.reg = RLINK_RESET d) : t.1.fld f = p.1.fld f :=
    (resets.orderly.fld (linkPage_apart d.isLt (own ▸ (linkPage_regs d.isLt).2.2.2.1))).trans (lists.fld id)
  have cleared (i : Nat) (hi : i < 16) (named : tiles.getLsbD i = true) : t.1.tileCleared (d * 16 + i) :=
    resets.cleared _ (by unfold dieOf; omega) (.inl ⟨i, mem.2 ⟨hi, named⟩, rfl⟩)
  refine ⟨_, begins.trans (steps.done still (.inl net)), (request (by simp)).trans busy, (request (by simp)).trans kept, (request (by simp)).trans shown, ?_,
    fun i hi named => ⟨(cleared i hi named).1, (cleared i hi named).2.2⟩, fun i hi named => (cleared i hi named).2.1, fun e _ other => ?_⟩
  · rw [resets.listed, empty]
    rfl
  · rw [resets.otherHarts e.1 fun i hi same => ?_, State.hart, sameHarts]
    · rfl
    · obtain ⟨lt, bit⟩ := mem.1 hi
      rw [same] at other
      rcases other with far | unnamed
      · exact far (by unfold dieOf; omega)
      · rw [show (d.val * 16 + i) % 16 = i by omega, bit] at unnamed
        cases unnamed

end Sys2Proof.Machine

/-! The end of a tile reset (R215). -/
namespace Sys2Proof.Machine

variable {s0 : State}

/-- What the records of tiles' resets write: neither a link's registers nor those by which harts are started. -/
def tileRecordArea (o : Nat) : Prop := ∃ n < 256, (Bank.tile n).area o

theorem tileRecordArea_apart {o : Nat} (area : tileRecordArea o) : ¬ linkPage o ∧ ∀ n < 256, ∀ i < 4, o ≠ (HART_START n i).off := by
  obtain ⟨m, hm, area⟩ := area
  refine ⟨fun page => Bank.area_not_linkPage (b := .tile m) hm page area, fun n hn i hi at_ => ?_⟩
  subst at_
  have bank : (Bank.tile m).base = m / 16 * 0x100000000 + m % 16 * 0x1000000 + 0x600E00 := rfl
  have ring : errBase (Bank.tile m).die = m / 16 * 0x100000000 + 0x10100000 := errBase_of_die (by simp only [Bank.die]; omega)
  simp only [Bank.area, ringArea, bank, ring, ERR_SUMMARY, ERR_RINGSTAT, HART_START, tileBase] at area
  omega

/-- The records of the resets of a die's tiles. -/
def Run.recordTiles (r : Run s0) (d : Nat) (ts : List (Nat × Nat)) : Run s0 :=
  ts.foldl (fun r p => r.logRec (.tile p.1) { event := 0x0120, cls := .ucna, poisoned := p.2 != 0, detail := dieDetail d 0 p.2 }) r

theorem Run.marks_recordTiles (r : Run s0) (ns : r.1.noSources) (d : Nat) (ts : List (Nat × Nat)) (own : ∀ p ∈ ts, p.1 < 256) :
    Run.marks tileRecordArea r (r.recordTiles d ts) :=
  List.foldlRecOn (motive := Run.marks tileRecordArea r) ts _ (.refl r) fun p before e he =>
    before.trans ((p.marks_logRec (before.noSources ns) _ _ none).mono fun _ area => ⟨e.1, own e he, area⟩)

/-- A tile reset ends: BUSY clears with ST_OK (R215). -/
def Run.endTiles (r : Run s0) (d : Nat) : Run s0 :=
  ((r.setFld (RLINK_RESET_BUSY d) 0).setFld (RLINK_RESET_ST d) stOk).modDie d fun x => { x with tileRst := [] }

theorem Run.endTiles_leaves (r : Run s0) (d : Nat) : Run.orderly (· = (RLINK_RESET d).off) r (r.endTiles d) ∧ (r.endTiles d).1.harts = r.1.harts ∧
    (r.endTiles d).1.fld (RLINK_RESET_BUSY d) = 0 ∧ (r.endTiles d).1.fld (RLINK_RESET_ST d) = stOk ∧ ((r.endTiles d).1.die d).tileRst = [] := by
  have lists : Run.orderly (· = (RLINK_RESET d).off) ((r.setFld (RLINK_RESET_BUSY d) 0).setFld (RLINK_RESET_ST d) stOk) (r.endTiles d) :=
    Run.orderly_modDie _ _ fun _ => id
  refine ⟨((r.orderly_setFld _ (by simp)).trans (Run.orderly_setFld _ _ (by simp))).trans lists, rfl, ?_, ?_, ?_⟩
  · unfold Run.endTiles
    rw [Run.fld_modDie, Run.fld_setFld_ne _ _ (by simp) (by simp) (by simp)]
    exact Run.fld_setFld_lt _ (by simp) (by simp)
  · unfold Run.endTiles
    rw [Run.fld_modDie]
    exact Run.fld_setFld_lt _ (by simp) (by simp [stOk])
  · exact congrArg Die.tileRst (Run.die_modDie _ _ _)

/-- R215: the end of a tile reset clears BUSY with ST_OK, and no hart runs that was not released. -/
theorem tileReset_done (d : Fin 16) (s : State) (still : s.still) (ns : s.noSources) (busy : s.fld (RLINK_RESET_BUSY d) = 1)
    (kind : s.fld (RLINK_RESET_KIND d) = 1) (stopped : ∀ p ∈ (s.die d).tileRst, ∀ i < 4, s.fld (HART_START_RUN p.1 i) = 0)
    (own : ∀ p ∈ (s.die d).tileRst, p.1 / 16 = d.val) :
    ∃ t, exec (.tileResetDone d) s = .next t ∧ t.fld (RLINK_RESET_BUSY d) = 0 ∧ t.fld (RLINK_RESET_ST d) = stOk ∧ (t.die d).tileRst = [] ∧
      t.harts = s.harts := by
  have small : ∀ p ∈ (s.die d).tileRst, p.1 < 256 := fun p hp => by
    have := own p hp
    omega
  have begins : exec (.tileResetDone d) s = (((s.die d).tileRst.foldl (fun r p => (List.range 4).foldl (fun r i =>
      if r.on (HART_START_RUN p.1 i) then r.releaseHart (p.1 * 4 + i) else r) r) (((Run.start s).recordTiles d (s.die d).tileRst).endTiles d))).done := by
    have on : (Run.start s).on (RLINK_RESET_BUSY d) = true := by simp [Run.on, Run.fld, Run.start, busy]
    have tile : (Run.start s).fld (RLINK_RESET_KIND d) = 1 := kind
    exact if_neg (by simp [on, tile])
  have logs := (Run.start s).marks_recordTiles ns d (s.die d).tileRst small
  obtain ⟨sameHarts, -⟩ := logs.stores
  generalize (Run.start s).recordTiles d (s.die d).tileRst = l at *
  obtain ⟨ends, harts, free, ok, none_⟩ := l.endTiles_leaves d
  generalize l.endTiles d = t at *
  have held (p : Nat × Nat) (hp : p ∈ (s.die d).tileRst) (i : Nat) (hi : i < 4) : t.on (HART_START_RUN p.1 i) = false := by
    rw [Run.on, Run.fld, ends.fld, logs.fld (f := HART_START_RUN p.1 i)]
    · simp [Run.start, stopped p hp i hi]
    · exact fun area => (tileRecordArea_apart area).2 p.1 (small p hp) i hi rfl
    · have := small p hp
      simp only [HART_START_RUN, HART_START, tileBase, RLINK_offs]
      omega
  have idle := t.foldl_idle (fun r p => (List.range 4).foldl (fun r i => if r.on (HART_START_RUN p.1 i) then r.releaseHart (p.1 * 4 + i) else r) r)
    (s.die d).tileRst fun p hp => t.foldl_idle _ _ fun i hi => by simp only [held p hp i (List.mem_range.1 hi), Bool.false_eq_true, if_false]
  rw [idle] at begins
  have steps : Run.orderly (fun o => tileRecordArea o ∨ o = (RLINK_RESET d).off) (Run.start s) t :=
    (logs.orderly.mono fun _ => .inl).trans (ends.mono fun _ => .inr)
  refine ⟨_, begins.trans (steps.done_apart still fun k hk => ?_), free, ok, none_, harts.trans sameHarts⟩
  rintro (area | at_)
  · exact (tileRecordArea_apart area).1 (linkPage_regs hk).1
  · simp only [RLINK_offs] at at_
    omega

end Sys2Proof.Machine

/-! The end of the sweep of a die that is reset (R216, R217, R470). -/
namespace Sys2Proof.Machine

variable {s0 : State}

/-- A sweep waits for nothing while no home has a request. -/
theorem Run.sweepBusy_idle (r : Run s0) (lineq : r.1.lineq = []) (d : Nat) : r.sweepBusy d = false := by
  unfold Run.sweepBusy
  rw [lineq]
  rfl

/-- The lines of a die are those of its filter entries, while no slice holds an entry besides. -/
theorem Run.dieLines_noShadow (r : Run s0) (slices : r.1.slices = []) (d : Nat) : r.dieLines d =
    r.1.filt.filterMap fun e => if (l3Place e.1).1 = d ∧ e.2.st ≠ .I then some (e.2.line, e.2.st) else none := by
  have none_ (k : Nat) : (r.slice k).shadow = [] := by
    rw [Run.slice, State.slice, slices]
    rfl
  simp [Run.dieLines, none_]

/-- The request of a die reset ends, where there is one (R216). -/
def Run.endDie (r : Run s0) (d : Nat) : Run s0 :=
  if r.on (RLINK_RESET_BUSY d) then (r.setFld (RLINK_RESET_BUSY d) 0).setFld (RLINK_RESET_ST d) stOk else r

theorem Run.endDie_leaves (r : Run s0) (d : Nat) : Run.orderly (· = (RLINK_RESET d).off) r (r.endDie d) ∧ (r.endDie d).1.dram = r.1.dram ∧
    (r.endDie d).1.fld (RLINK_RESET_BUSY d) = 0 := by
  unfold Run.endDie
  split
  next =>
    refine ⟨(r.orderly_setFld _ (by simp)).trans (Run.orderly_setFld _ _ (by simp)), rfl, ?_⟩
    rw [Run.fld_setFld_ne _ _ (by simp) (by simp) (by simp)]
    exact Run.fld_setFld_lt _ (by simp) (by simp)
  next free => exact ⟨.refl r, rfl, by simpa [Run.on, Run.fld] using free⟩

/-- What a rejoin of a die whose bridge is gated leaves (R220 step 1). -/
theorem Run.rejoin_writes (r : Run s0) {d : Nat} (gated : r.1.fld (DOM_STAT_STATE (d * 21 + 20)) = 3) :
    Run.orderly (fun o => o = (RLINK_STAT d).off ∨ o = (DOM_STAT (d * 21 + 20)).off) r (r.rejoin d) ∧ (r.rejoin d).1.dram = r.1.dram := by
  have begins : r.rejoin d = ((r.modDie d fun x => { x with trained := false }).setFld (RLINK_STAT_STATE d) 0).setFld (DOM_STAT_STATE (d * 21 + 20)) 1 :=
    if_pos gated
  rw [begins]
  have waits : Run.orderly (fun o => o = (RLINK_STAT d).off ∨ o = (DOM_STAT (d * 21 + 20)).off) r (r.modDie d fun x => { x with trained := false }) :=
    r.orderly_modDie d fun _ => id
  exact ⟨(waits.trans (Run.orderly_setFld _ _ (.inl (by simp)))).trans (Run.orderly_setFld _ _ (.inr (by simp))), rfl⟩

/-- A slot's record stands while its bank is not written. -/
theorem State.recorded_same {s t : State} {b : Bank} {event : Nat} (same : ∀ o, b.base ≤ o → o < b.base + 0x100 → t.regs.find? o = s.regs.find? o)
    (before : s.recorded b 1 event) : t.recorded b 1 event := by
  obtain ⟨valid, first⟩ := before
  refine ⟨?_, ?_⟩
  · rwa [State.fld_same (f := EB_STAT_V b.base) (same _ (Nat.le_refl _) (by simp only [EB_STAT_V, EB_STAT]; omega))]
  · rwa [State.reg_same (g := EB_REC b.base 1 0)]
    refine same _ ?_ ?_
    all_goals
      simp only [EB_REC]
      omega

theorem Run.orderly.recorded {W : Nat → Prop} {r q : Run s0} {b : Bank} {event : Nat} (h : Run.orderly W r q)
    (apart : ∀ o, b.base ≤ o → o < b.base + 0x100 → ¬ W o) (before : r.1.recorded b 1 event) : q.1.recorded b 1 event :=
  State.recorded_same (fun o lo hi => h.regs o (apart o lo hi)) before

/-- The record of a sweep's end (R470). -/
def Run.sweepRec (r : Run s0) (d : Nat) : Rec :=
  { event := 0x0B02, cls := .ucna, poisoned := (r.die d).poisoned != 0, detail := dieDetail d (r.fld (RLINK_STAT_LASTCAUSE d)) (r.die d).poisoned }

/-- R216, R470: a sweep that finds nothing ends at once, and the die comes back. -/
theorem dieReset_swept (d : Fin 16) (s : State) (still : s.still) (ns : s.noSources) (net : s.net = []) (lineq : s.lineq = [])
    (reset : s.fld (RLINK_STAT_STATE d) = 6) (filt : s.filt = []) (slices : s.slices = []) (slot : s.freeSlot (.rlink d) 1)
    (gated : s.fld (DOM_STAT_STATE (d * 21 + 20)) = 3) :
    ∃ t, exec (.dieResetSweepDone d) s = .next t ∧ t.recorded (.rlink d) 1 0x0B02 ∧ t.fld (RLINK_RESET_BUSY d) = 0 ∧ t.fld (RLINK_STAT_STATE d) = 0 ∧
      t.fld (DOM_STAT_STATE (d * 21 + 20)) = 1 ∧ t.dram = s.dram := by
  have idle := (Run.start s).sweepBusy_idle lineq d
  have nothing : (Run.start s).sweepDie d = Run.start s := by
    have none_ : (Run.start s).1.filt = [] := filt
    rw [Run.sweepDie, (Run.start s).dieLines_noShadow slices, none_]
    rfl
  have begins : exec (.dieResetSweepDone d) s = ((((Run.start s).logRec (.rlink d) ((Run.start s).sweepRec d)).endDie d).rejoin d).done := by
    have six : (Run.start s).fld (RLINK_STAT_STATE d) = 6 := reset
    have goes : ¬ ((Run.start s).fld (RLINK_STAT_STATE d) ≠ 6 ∨ (Run.start s).sweepBusy d = true) := by simp [six, idle]
    refine (if_neg goes).trans ?_
    rw [nothing]
    exact if_neg (by simp [idle])
  have event : ((Run.start s).sweepRec d).event = 0x0B02 := rfl
  have cls : ((Run.start s).sweepRec d).cls = .ucna := rfl
  generalize (Run.start s).sweepRec d = x at *
  have logs := (Run.start s).marks_logRec ns (.rlink d) x none
  have records := (Run.start s).logRec_recorded ns (b := .rlink d) trivial cls (event ▸ by decide) (event ▸ by decide) slot
  rw [event] at records
  obtain ⟨-, -, -, -, -, dram, -⟩ := logs.stores
  generalize (Run.start s).logRec (.rlink d) x = l at *
  obtain ⟨ends, sameDram, free⟩ := l.endDie_leaves d
  generalize l.endDie d = e at *
  have bridge : e.1.fld (DOM_STAT_STATE (d * 21 + 20)) = 3 := by
    rw [ends.fld (by simp; omega), logs.fld (domain_not_area d (d * 21 + 20) (by omega))]
    exact gated
  obtain ⟨-, state, wakes, -⟩ := e.rejoin_gated bridge
  obtain ⟨begun, keepsDram⟩ := e.rejoin_writes bridge
  generalize e.rejoin d = t at *
  have steps : Run.orderly (fun o => (Bank.rlink d).area o ∨ o = (RLINK_RESET d).off ∨ o = (RLINK_STAT d).off ∨ o = (DOM_STAT (d * 21 + 20)).off)
      (Run.start s) t := ((logs.orderly.mono fun _ => .inl).trans (ends.mono fun _ own => .inr (.inl own))).trans (begun.mono fun _ own => .inr (.inr own))
  refine ⟨_, begins.trans (steps.done still (.inl net)), ?_, ?_, state, wakes, keepsDram.trans (sameDram.trans dram)⟩
  · refine begun.recorded (fun o lo hi => ?_) (ends.recorded (fun o lo hi => ?_) records)
    all_goals
      simp only [Bank.base] at lo hi
      simp only [RLINK_offs, DOM_STAT_off]
      omega
  · rw [begun.fld (by simp; omega)]
    exact free

end Sys2Proof.Machine

/-! The sweep of a die that is reset writes a line that the die owned poisoned to memory (R217). -/
namespace Sys2Proof.Machine

variable {s0 : State}

/-- The system address decoder reads registers alone (R21). -/
theorem Run.decodeLine_regs {r q : Run s0} (same : q.1.regs = r.1.regs) (l : LineAddr) : q.decodeLine l = r.decodeLine l := by
  have fld (f : FRef) : q.fld f = r.fld f := State.fld_same (congrArg (Sparse.find? · f.reg.off) same)
  have on (f : FRef) : q.on f = r.on f := congrArg (· != 0) (fld f)
  have matches_ (a : Nat) : q.sadMatch a = r.sadMatch a := by
    unfold Run.sadMatch
    exact List.find?_congr fun n _ => by rw [on, fld, fld, fld, fld, fld]
  have decodes (t a : Nat) : q.ilvDecode t a = r.ilvDecode t a := by rw [Run.ilvDecode, Run.ilvDecode, fld, fld, fld, fld, fld]
  have carries (t : Nat) : q.carriesCxl t = r.carriesCxl t := by rw [Run.carriesCxl, Run.carriesCxl, fld, on]
  rw [Run.decodeLine, Run.decodeLine, Run.decode, Run.decode, matches_]
  cases r.sadMatch (l.toNat * 64) with
  | none => rfl
  | some n => simp only [fld, on, carries, decodes]

theorem Run.refilt_absent (r : Run s0) {d w : Nat} {l : LineAddr} (x : Option FSt) (absent : r.1.filtEntry (l3Key d l w) = none) : r.refilt d l x w = r := by
  rw [Run.refilt, show r.filtEntry (l3Key d l w) = none from absent]
  rfl

/-- The only entry of the filter. -/
theorem State.filtEntry_one {s : State} {k : Nat} {e : FEntry} (filt : s.filt = [(k, e)]) (j : Nat) : s.filtEntry j = if j = k then some e else none := by
  rw [State.filtEntry, filt]
  rfl

theorem State.filtEntry_empty {s : State} (filt : s.filt = []) (k : Nat) : s.filtEntry k = none := by
  rw [State.filtEntry, filt]
  rfl

/-- The only entry of the filter, which names a line of a die, is cleared. -/
theorem Run.setFilt_clears (r : Run s0) {d w : Nat} (hw : w < 16) {l : LineAddr} {x : FSt} (st : x ≠ .I) (filt : r.1.filt = [(l3Key d l w, ⟨l, x, none⟩)])
    (slices : r.1.slices = []) (unarmed : r.1.fld (ARR_FLIP_ARM 16 (quadOf l * 16 + d)) = 0) :
    (r.setFilt d l none).1 = { r.1 with filt := [] } := by
  have clears : r.refilt d l none w = r.setFiltEntry (l3Key d l w) none := by
    rw [Run.refilt, show r.filtEntry (l3Key d l w) = _ from State.filtEntry_one filt _, if_pos rfl, if_pos (by simp [st]), Run.filtWrite, r.armTake_unarmed unarmed]
    rfl
  have only : (r.setFiltEntry (l3Key d l w) none).1 = { r.1 with filt := [] } := by
    show { r.1 with filt := r.1.filt.del (l3Key d l w) } = _
    rw [filt, Sparse.del, if_pos rfl]
    rfl
  have folds (ws : List Nat) (mem : w ∈ ws) : ws.foldl (Run.refilt d l none) r = r.setFiltEntry (l3Key d l w) none := by
    induction ws with
    | nil => cases mem
    | cons v ws ih =>
      rw [List.foldl_cons]
      by_cases same : v = w
      · subst same
        rw [clears]
        exact Run.foldl_idle _ _ _ fun u _ => Run.refilt_absent _ none (State.filtEntry_empty (by rw [only]) _)
      · rw [r.refilt_absent none (by rw [State.filtEntry_one filt, if_neg (l3Key_inj same)])]
        exact ih ((List.mem_cons.1 mem).resolve_left fun e => same e.symm)
  have all : (List.range 16).foldl (fun r w => if (r.filtEntry (l3Key d l w)).any fun e => e.line = l ∧ e.st ≠ .I then r.filtWrite d l w none else r) r =
    r.setFiltEntry (l3Key d l w) none := folds _ (List.mem_range.2 hw)
  have noShadow : ((r.setFiltEntry (l3Key d l w) none).slice (quadOf l)).shadow = [] := by
    rw [Run.slice, State.slice, only, slices]
    rfl
  unfold Run.setFilt
  rw [all]
  dsimp only
  rw [noShadow]
  exact only

/-! ### A write of the slice itself, of a line that nobody holds any more -/

/-- The home slices list no holder of any line. -/
structure Run.bare (r : Run s0) : Prop where
  filt : r.1.filt = []
  slices : r.1.slices = []

theorem Run.bare.slice {r : Run s0} (h : r.bare) (k : Nat) : r.slice k = {} := by
  rw [Run.slice, State.slice, h.slices]
  rfl

theorem Run.bare.filtOf {r : Run s0} (h : r.bare) (d : Nat) (l : LineAddr) : r.filtOf d l = none := by
  have entries : r.filtAll d l = [] := by
    have none_ (k : Nat) : r.filtEntry k = none := State.filtEntry_empty h.filt k
    simp [Run.filtAll, none_, h.slice]
  simp [Run.filtOf, entries]

theorem Run.bare.localSnoops {r : Run s0} (h : r.bare) (l : LineAddr) (m : Msg) (owner sharer : Option MsgKind) (spare : Bool) :
    r.localSnoops l m owner sharer spare = [] := by
  simp [Run.localSnoops, h.filtOf, h.slice]

theorem Run.bare.heldBy {r : Run s0} (h : r.bare) (l : LineAddr) (a : Agent) : r.heldBy l a = none := by
  unfold Run.heldBy
  split
  next d => exact h.filtOf d l
  next => rw [h.slice, List.find?_nil, Option.map_none]
  next => rfl

/-- A write that a slice orders of itself, as its memory has been asked to take it. -/
def HReq.writing (x : HReq) : HReq := { x.begun with phase := .waitMAck, dirty := some (x.msg.data, x.msg.poison) }

/-- What the memory is asked to take. -/
def HReq.write (x : HReq) (c la : Nat) : Msg :=
  { kind := .mWr, src := homeOf x.msg.line, dst := .chan (Fin.ofNat 24 c), line := x.msg.line, data := x.msg.data, poison := x.msg.poison, la := la }

/-- A WrLine that a slice orders for a line that nobody holds goes to its channel at once (R170, R217). -/
theorem Run.homeGo_writes (r : Run s0) (bare : r.bare) (diren : r.1.fld HOME_CFG_DIREN = 0) {l : LineAddr} {x : HReq} {c la : Nat} (phase : x.phase = .queued) (to_ : x.to_ = .dram c la)
    (flip : x.flip = none) (held : x.held = none) (line : x.msg.line = l) (kind : x.msg.kind = .wrLine) (stash : x.msg.stash = none) :
    (r.setQueue l.toNat [x]).homeGo l =
      (((r.setQueue l.toNat [x]).setQueue l.toNat [x.begun]).setQueue l.toNat [x.writing]).send (x.write c la) := by
  have queue := r.queue_setQueue_same l.toNat [x]
  have bareQ : (r.setQueue l.toNat [x]).bare := ⟨bare.filt, bare.slices⟩
  have direnQ := (r.setQueue l.toNat [x]).direnOff (show r.1.fld HOME_CFG_DIREN = 0 from diren)
  generalize r.setQueue l.toNat [x] = q at *
  have needs : needsData x = false := by simp only [needsData, kind]
  have checks : (q.filtCheck l).trackerCheck l x = (q, x) := by
    rw [Run.filtCheck, bareQ.filt, Run.trackerCheck, flip]
    rfl
  have same : { x with held := none } = x := by rw [← held]
  have starts : q.homeStart l x = q.setQueue l.toNat [x.begun] := by
    rw [q.homeStart_dram checks to_ (by rw [kind]; rfl) direnQ, bareQ.heldBy, same, bareQ.localSnoops, ← q.setHead_one queue]
    simp only [needs, HReq.begun]
    rfl
  have begun := q.queue_setQueue_same l.toNat [x.begun]
  generalize q.setQueue l.toNat [x.begun] = u at *
  have takes : u.homeEnd l x.begun = (u.setQueue l.toNat [x.writing]).send (x.write c la) := by
    have kindX : x.begun.msg.kind = .wrLine := kind
    have stashX : x.begun.msg.stash = none := stash
    have toX : x.begun.to_ = .dram c la := to_
    rw [u.homeEnd_dram (q := x.begun) (c := c) (la := la) toX fun spares => by rw [kindX] at spares; cases spares]
    simp only [Run.homeFinish, kindX, Run.finishWrite, stashX, u.setHead_one begun, toX]
    rw [Run.putMem_dram, HReq.write, line, ← toX]
    rfl
  rw [Run.homeGo, Run.homeLoop, queue]
  simp only [phase, if_true, starts]
  rw [← takes]
  refine Run.homeLoop_ends _ begun rfl rfl needs _ ?_
  rw [takes]
  intro y hy
  have only : ((u.setQueue l.toNat [x.writing]).send (x.write c la)).queue l.toNat = [x.writing] := u.queue_setQueue_same l.toNat [x.writing]
  rw [only] at hy
  cases hy
  exact ⟨by simp [HReq.writing], by simp [HReq.writing]⟩

theorem Run.modDie_only (r : Run s0) (d : Nat) (f : Die → Die) : ∃ ds, (r.modDie d f).1 = { r.1 with dies := ds } := ⟨_, rfl⟩

/-- The write that the sweep of die `d` orders for a line that it owned (R217). -/
def sweepWrite (d : Nat) (l : LineAddr) (t : Target) : HReq :=
  { msg := { kind := .wrLine, src := .die (Fin.ofNat 16 d), dst := homeOf l, line := l, mask := BitVec.allOnes 64, poison := true }, to_ := t, own := true }

/-- The sweep of a die that owned one line. -/
theorem Run.sweepDie_one (r : Run s0) {d w : Nat} (hw : w < 16) {l : LineAddr} {c la : Nat} (lineq : r.1.lineq = [])
    (filt : r.1.filt = [(l3Key d l w, ⟨l, .X, none⟩)]) (slices : r.1.slices = []) (decodes : r.decodeLine l = .dram c la) (noResv : r.1.unreserved l)
    (diren : r.1.fld HOME_CFG_DIREN = 0) (unarmed : r.1.fld (ARR_FLIP_ARM 16 (quadOf l * 16 + d)) = 0) :
    ∃ p : Run s0, Run.orderly (fun _ => False) r p ∧ p.1.filt = [] ∧ (p.1.die d).poisoned = (r.1.die d).poisoned + 1 ∧ p.1.lineq = [] ∧
      r.sweepDie d = (((p.setQueue l.toNat [sweepWrite d l (.dram c la)]).setQueue l.toNat [(sweepWrite d l (.dram c la)).begun]).setQueue l.toNat
        [(sweepWrite d l (.dram c la)).writing]).send ((sweepWrite d l (.dram c la)).write c la) := by
  have lines : r.dieLines d = [(l, .X)] := by
    rw [r.dieLines_noShadow slices, filt]
    simp [l3Place_l3Key l hw]
  have clears := r.setFilt_clears hw (x := .X) (by decide) filt slices unarmed
  have begins : r.sweepDie d =
      (let p := (r.setFilt d l none).modDie d fun x => { x with poisoned := x.poisoned + 1 }
      if p.decodeLine l = .none_ then p
      else ((p.loseResv l).setQueue l.toNat (p.queue l.toNat ++ [sweepWrite d l (p.decodeLine l)])).homeGo l) := by
    rw [Run.sweepDie, lines]
    rfl
  generalize r.setFilt d l none = f at clears begins
  have cleared : Run.orderly (fun _ => False) r f := by
    constructor
    case drops => exact fun drops => by rwa [State.noDrop, clears]
    all_goals rw [clears]
    exact fun _ _ => rfl
  have counts : Run.orderly (fun _ => False) f (f.modDie d fun x => { x with poisoned := x.poisoned + 1 }) := Run.orderly_modDie _ _ fun _ => id
  have poisoned : ((f.modDie d fun x => { x with poisoned := x.poisoned + 1 }).1.die d).poisoned = (r.1.die d).poisoned + 1 := by
    rw [Run.die_modDie, State.die, clears]
    rfl
  have only : ∃ ds, (f.modDie d fun x => { x with poisoned := x.poisoned + 1 }).1 = { r.1 with filt := [], dies := ds } := by
    obtain ⟨ds, only⟩ := f.modDie_only d fun x => { x with poisoned := x.poisoned + 1 }
    exact ⟨ds, by rw [only, clears]⟩
  generalize (f.modDie d fun x => { x with poisoned := x.poisoned + 1 }) = p at *
  obtain ⟨ds, only⟩ := only
  have bare : p.bare := ⟨by rw [only], by rw [only]; exact slices⟩
  have direnP : p.1.fld HOME_CFG_DIREN = 0 := by rw [only]; exact diren
  have decoded : p.decodeLine l = .dram c la := (Run.decodeLine_regs (by rw [only]) l).trans decodes
  have loses : p.loseResv l = p := p.loseResv_none (by rw [State.unreserved, only]; exact noResv)
  have empty : p.1.lineq = [] := by rw [only]; exact lineq
  have queue : p.queue l.toNat = [] := by
    rw [Run.queue, State.queue, empty]
    rfl
  refine ⟨p, cleared.trans counts, bare.filt, poisoned, empty, ?_⟩
  rw [begins]
  simp only [decoded, loses, queue, List.nil_append, reduceCtorEq, if_false]
  exact p.homeGo_writes bare direnP rfl rfl rfl rfl rfl rfl rfl

theorem State.filt_setQueue (r : Run s0) (k : Nat) (v : List HReq) : (r.setQueue k v).1.filt = r.1.filt := rfl

theorem State.filt_send (r : Run s0) (m : Msg) : (r.send m).1.filt = r.1.filt := rfl

/-- A sweep waits while a home has a request of the die (R217). -/
theorem Run.sweepBusy_queued (r : Run s0) {d k : Nat} {q : HReq} (queue : r.1.queue k = [q]) (src : Agent.onDie q.msg.src = some d) : r.sweepBusy d = true := by
  have listed : r.1.lineq.find? k = some [q] := by
    unfold State.queue Sparse.get at queue
    cases found : r.1.lineq.find? k with
    | none => simp [found] at queue
    | some v => simpa [found] using queue
  exact List.any_eq_true.2 ⟨_, Sparse.mem_of_find? listed, List.any_eq_true.2 ⟨q, List.mem_singleton_self q, by simp [src]⟩⟩

/-- R217: the sweep of a die that is reset writes a line that the die owned poisoned to memory, and waits for it. -/
theorem dieReset_sweeps (d w : Fin 16) (l : LineAddr) (c la : Nat) (s : State) (still : s.still) (net : s.net = []) (lineq : s.lineq = [])
    (reset : s.fld (RLINK_STAT_STATE d) = 6) (filt : s.filt = [(l3Key d l w, ⟨l, .X, none⟩)]) (slices : s.slices = [])
    (decodes : (Run.start s).decodeLine l = .dram c la) (noResv : ∀ e ∈ s.harts, e.2.resv ≠ some l) (diren : s.fld HOME_CFG_DIREN = 0)
    (unarmed : s.fld (ARR_FLIP_ARM 16 (quadOf l * 16 + d)) = 0) :
    ∃ t, exec (.dieResetSweepDone d) s = .next t ∧ t.filt = [] ∧ (t.die d).poisoned = (s.die d).poisoned + 1 ∧ t.fld (RLINK_STAT_STATE d) = 6 ∧
      t.net = [{ kind := .mWr, src := homeOf l, dst := .chan (Fin.ofNat 24 c), line := l, poison := true, la := la }] ∧
      (t.queue l.toNat).map (fun q => (q.phase, q.own)) = [(.waitMAck, true)] := by
  obtain ⟨p, counts, empty, poisoned, queues, sweeps⟩ := (Run.start s).sweepDie_one w.isLt lineq filt slices decodes noResv diren unarmed
  have begins : exec (.dieResetSweepDone d) s =
      (if ((Run.start s).sweepDie d).sweepBusy d = true then ((Run.start s).sweepDie d).done else
        (((((Run.start s).sweepDie d).logRec (.rlink d) (((Run.start s).sweepDie d).sweepRec d)).endDie d).rejoin d).done) := by
    have six : (Run.start s).fld (RLINK_STAT_STATE d) = 6 := reset
    have idle := (Run.start s).sweepBusy_idle lineq d
    exact if_neg (by simp [six, idle])
  rw [sweeps] at begins
  generalize hx : sweepWrite d l (.dram c la) = x at begins
  have queue : ((((p.setQueue l.toNat [x]).setQueue l.toNat [x.begun]).setQueue l.toNat [x.writing]).send (x.write c la)).1.queue l.toNat = [x.writing] := by
    simp
  have sent : ((((p.setQueue l.toNat [x]).setQueue l.toNat [x.begun]).setQueue l.toNat [x.writing]).send (x.write c la)).1.net = [x.write c la] := by
    simp [counts.net, net]
  have same : p.1.settledLike p.1 := ⟨rfl, rfl, rfl, fun _ _ => rfl⟩
  have like : p.1.settledLike ((((p.setQueue l.toNat [x]).setQueue l.toNat [x.begun]).setQueue l.toNat [x.writing]).send (x.write c la)).1 :=
    (((same.setQueue _ _).setQueue _ _).setQueue _ _).send _
  have kept : ((((p.setQueue l.toNat [x]).setQueue l.toNat [x.begun]).setQueue l.toNat [x.writing]).send (x.write c la)).1.filt = p.1.filt := by
    rw [State.filt_send, State.filt_setQueue, State.filt_setQueue, State.filt_setQueue]
  generalize (((p.setQueue l.toNat [x]).setQueue l.toNat [x.begun]).setQueue l.toNat [x.writing]).send (x.write c la) = t at *
  rw [if_pos (t.sweepBusy_queued queue (by rw [← hx]; simp [HReq.writing, HReq.begun, sweepWrite, Agent.onDie]))] at begins
  obtain ⟨need, poke, -, drops⟩ := still
  have dropped : t.1.noDrop := by
    rw [State.noDrop, like.dies]
    exact counts.drops drops
  have reach : ∀ m ∈ t.1.net, t.1.fencedDie m = none := fun m hm => by
    rw [sent, List.mem_singleton] at hm
    rw [hm]
    exact State.fencedDie_none fun k hk => by cases hk
  have ends : t.done = .next t.1 := t.done_still ⟨like.need.trans (counts.need.trans need), like.poke.trans (counts.poke.trans poke), reach, dropped⟩
  refine ⟨t.1, begins.trans ends, kept.trans empty, ?_, ?_, ?_, ?_⟩
  · rw [State.die, like.dies]
    exact poisoned
  · rw [State.fld_same (like.regs _ (arrivalArea_RLINK_STAT d.isLt)), counts.fld id]
    exact reset
  · rw [sent, ← hx]
    rfl
  · rw [queue, ← hx]
    rfl

end Sys2Proof.Machine

/-! A home that has waited too long for a die resets it, and the fence answers the snoop (R216, R217, R469). -/
namespace Sys2Proof.Machine

variable {s0 : State}

/-- A command ends once its home has treated the only message in flight, which is for a die that is not online. -/
theorem Run.done_fenced (r : Run s0) {d : Nat} {m : Msg} (need : r.1.need = {}) (net : r.1.net = [m]) (fenced : r.1.fencedDie m = some d)
    (still : (r.fencedMsg d m).1.still) : r.done = .next (r.fencedMsg d m).1 := by
  obtain ⟨-, poke, fences, drops⟩ := still
  have treats : r.settleFence settleBound = r.fencedMsg d m := by
    have found : (r.1.net.findSome? fun m => (r.fencedDie m).map fun d => (d, m)) = some (d, m) := by
      rw [net, List.findSome?_cons, show r.fencedDie m = some d from fenced]
      rfl
    rw [show settleBound = 16383 + 1 from rfl, Run.settleFence, found]
    exact Run.settleFence_none _ _ fences
  rw [r.done_plain need, Run.settle, treats, Run.finish_eq, Run.settleDrops_none _ drops, Run.settleLoop_nil _ _ poke]

/-! ### The fence of a die whose answer a home waits for -/

/-- A request for a copy of its own of another die, whose home waits for answers of two dies. -/
structure HReq.awaits (q : HReq) (d e : Fin 16) (l : LineAddr) : Prop where
  line : q.msg.line = l
  phase : q.phase = .snooping
  snooped : q.snooped = [.die d, .die e]
  src : q.msg.src = .die e
  kind : q.msg.kind = .rdX

/-- The only line with a request, and nothing that the filters hold. -/
structure State.onlyRequest (s : State) (l : LineAddr) (q : HReq) : Prop where
  lineq : s.lineq = [(l.toNat, [q])]
  filt : s.filt = []
  slices : s.slices = []

/-- The snoop that the fence of a die answers in its place (R217). -/
def fenceSnoop (d : Fin 16) (l : LineAddr) : Msg := { kind := .snpX, src := homeOf l, dst := .die d, line := l }

theorem Run.orphan_die (r : Run s0) {l : LineAddr} {q : HReq} {e : Fin 16} (lineq : r.1.lineq = [(l.toNat, [q])]) (src : q.msg.src = .die e) (n : Nat) :
    r.orphan n = r := by
  unfold Run.orphan
  extract_lets mine
  have none_ : mine q = false := by simp only [mine, src]
  rw [lineq, List.foldl_cons, List.foldl_nil]
  simp [none_]

/-- The fence sends the snoop again that its die has not answered (R217). -/
theorem Run.fenceDie_snoops (r : Run s0) {d e : Fin 16} {l : LineAddr} {q : HReq} (net : r.1.net = []) (only : r.1.onlyRequest l q) (waits : q.awaits d e l) :
    r.fenceDie d = r.send (fenceSnoop d l) := by
  obtain ⟨lineq, -, slices⟩ := only
  obtain ⟨line, phase, snooped, src, kind⟩ := waits
  have die : Agent.die (Fin.ofNat 16 d.val) = .die d := by simp
  have none_ (k : Nat) : ((r.send (fenceSnoop d l)).slice k).peerSnoops = [] := by
    rw [Run.slice, State.slice, show (r.send (fenceSnoop d l)).1.slices = [] from slices]
    rfl
  unfold Run.fenceDie
  extract_lets die_ orphans coming served
  have left : orphans = r := by
    unfold orphans
    rw [r.act_net_idle net]
    exact r.foldl_idle _ _ fun t _ => r.orphan_die lineq src _
  have serves : served = r.send (fenceSnoop d l) := by
    have quiet : coming r l 0 = false := by simp only [coming, net, List.any_nil]
    unfold served
    rw [left, lineq, List.foldl_cons, List.foldl_nil]
    simp [line, quiet, phase, snooped, kind, die_, die, ownerSnoop, fenceSnoop]
  rw [serves]
  refine Run.foldl_idle _ _ _ fun k _ => ?_
  rw [none_]
  rfl

/-- A filter without an entry stays so when a die's copies of a line end. -/
theorem Run.setFilt_bare (r : Run s0) (bare : r.bare) (d : Nat) (l : LineAddr) (x : Option FSt) : r.setFilt d l x = r := by
  have ways := r.foldl_idle (Run.refilt d l x) (List.range 16) fun w _ => r.refilt_absent x (State.filtEntry_empty bare.filt _)
  have all : (List.range 16).foldl (fun r w => if (r.filtEntry (l3Key d l w)).any fun e => e.line = l ∧ e.st ≠ .I then r.filtWrite d l w x else r) r = r := ways
  unfold Run.setFilt
  rw [all]
  dsimp only
  rw [bare.slice]
  rfl

/-- The answer that the fence gives to a snoop of a line that its die does not own (R217). -/
def fenceAnswer (d : Fin 16) (l : LineAddr) : Msg := { kind := .rsp, src := .die d, dst := homeOf l, line := l, st := .I }

theorem Run.setQueue_only (r : Run s0) (k : Nat) (v : List HReq) : ∃ qs, (r.setQueue k v).1 = { r.1 with lineq := qs } := ⟨_, rfl⟩

theorem Run.homeAnswer_fence (r : Run s0) {d e : Fin 16} {l : LineAddr} {q : HReq} (bare : r.bare) (lineq : r.1.lineq = [(l.toNat, [q])])
    (waits : q.awaits d e l) (net : r.1.net = []) :
    ∃ sq qs, (r.homeAnswer (fenceAnswer d l)).1 = { r.1 with net := [], seqs := sq, lineq := qs } := by
  obtain ⟨sq, only⟩ := r.take_only (fenceAnswer d l)
  have bareP : (r.take (fenceAnswer d l)).bare := ⟨by rw [only]; exact bare.filt, by rw [only]; exact bare.slices⟩
  have queue : (r.take (fenceAnswer d l)).queue l.toNat = [q] := by
    rw [Run.queue, State.queue, only, lineq]
    simp [Sparse.get, Sparse.find?]
  obtain ⟨-, phase, snooped, -, -⟩ := waits
  have notes : (r.take (fenceAnswer d l)).noteAnswer l (.die d) .I = r.take (fenceAnswer d l) := Run.setFilt_bare _ bareP d l none
  have left : q.snooped.erase (.die d) = [.die e] := by rw [snooped, List.erase_cons_head]
  have mem : Agent.die d ∈ q.snooped := by simp [snooped]
  have shown : (r.filtOf d l == some FSt.O) = false := by rw [bare.filtOf]; rfl
  have records : ∃ x : HReq, x.waits ∧ r.homeAnswer (fenceAnswer d l) = ((r.take (fenceAnswer d l)).setQueue l.toNat [x]).homeGo l := by
    refine ⟨{ q with snooped := [.die e], answers := q.answers ++ [(.die d, .I)] }, ⟨by simp [phase], by simp⟩, ?_⟩
    have line : (fenceAnswer d l).line = l := rfl
    have src : (fenceAnswer d l).src = .die d := rfl
    have kind : (fenceAnswer d l).kind = .rsp := rfl
    have st : (fenceAnswer d l).st = .I := rfl
    have tag : (fenceAnswer d l).la = 0 := rfl
    unfold Run.homeAnswer
    simp [line, src, kind, st, tag, notes, queue, mem, left, shown]
  obtain ⟨x, waiting, records⟩ := records
  rw [records, Run.homeGo_waits _ waiting]
  obtain ⟨qs, orders⟩ := (r.take (fenceAnswer d l)).setQueue_only l.toNat [x]
  exact ⟨sq, qs, by rw [orders, only, net, List.erase_nil]⟩

/-- The fence answers for its die, and the home waits for the other one alone (R217). -/
theorem Run.fencedMsg_snoop (r : Run s0) {d e : Fin 16} {l : LineAddr} {q : HReq} (net : r.1.net = [fenceSnoop d l]) (only : r.1.onlyRequest l q)
    (waits : q.awaits d e l) : ∃ sq qs, (r.fencedMsg d (fenceSnoop d l)).1 = { r.1 with net := [], seqs := sq, lineq := qs } := by
  obtain ⟨lineq, filt, slices⟩ := only
  obtain ⟨sq, taken⟩ := r.take_only (fenceSnoop d l)
  rw [net, List.erase_cons_head] at taken
  have bare : (r.take (fenceSnoop d l)).bare := ⟨by rw [taken]; exact filt, by rw [taken]; exact slices⟩
  have answers : r.fencedMsg d (fenceSnoop d l) = (r.take (fenceSnoop d l)).homeAnswer (fenceAnswer d l) := by
    have none_ : ((r.take (fenceSnoop d l)).filtOf d l).any FSt.owns = false := by rw [bare.filtOf]; rfl
    have unfolds : r.fencedMsg d (fenceSnoop d l) =
        ((if ((r.take (fenceSnoop d l)).filtOf d l).any FSt.owns = true ∧ (fenceSnoop d l).kind ≠ .snpInv then
          (r.take (fenceSnoop d l)).modDie d fun x => { x with poisoned := x.poisoned + 1 } else r.take (fenceSnoop d l)).homeAnswer
          { kind := if ((r.take (fenceSnoop d l)).filtOf d l).any FSt.owns then .datSnp else .rsp, src := .die d, dst := homeOf l, line := l, st := .I,
            poison := ((r.take (fenceSnoop d l)).filtOf d l).any FSt.owns }) := rfl
    rw [unfolds, none_]
    rfl
  rw [answers]
  obtain ⟨sq', qs, only⟩ := (r.take (fenceSnoop d l)).homeAnswer_fence (d := d) bare (by rw [taken]; exact lineq) waits (by rw [taken])
  exact ⟨sq', qs, by rw [only, taken]⟩

/-! ### The reset of a die that a home waits for -/

theorem Run.condemn_filt (r : Run s0) (d cause : Nat) : (r.condemn d cause).1.filt = r.1.filt := by
  unfold Run.condemn
  split <;> rfl

theorem Run.does.homes {W H : Nat → Prop} {r q : Run s0} (h : Run.does (Act.wipes W H) r q) :
    q.1.lineq = r.1.lineq ∧ q.1.filt = r.1.filt ∧ q.1.slices = r.1.slices := by
  refine ⟨h.same State.lineq fun a ha s => ?_, h.same State.filt fun a ha s => ?_, h.same State.slices fun a ha s => ?_⟩
  all_goals
    cases a with
    | lineq k v => exact ha.elim
    | filt k v => exact ha.elim
    | slices k v => exact ha.elim
    | _ => rfl

theorem State.onlyRequest.send {r : Run s0} {l : LineAddr} {q : HReq} (h : r.1.onlyRequest l q) (m : Msg) : (r.send m).1.onlyRequest l q :=
  ⟨h.lineq, h.filt, h.slices⟩

theorem State.noSources_send {r : Run s0} (ns : r.1.noSources) (m : Msg) : (r.send m).1.noSources := ns

/-- A die reset whose fence answers for the die (R216, R217). -/
theorem Run.dieReset_snoops (r : Run s0) {d e : Fin 16} {l : LineAddr} {q : HReq} {cause : Nat} (hc : cause < 16) (ns : r.1.noSources)
    (net : r.1.net = [])    (only : r.1.onlyRequest l q) (waits : q.awaits d e l) (first : r.1.fld (RLINK_STAT_STATE d) ≠ 6) :
    Run.orderly (dieResetArea d) ((r.condemn d cause).send (fenceSnoop d l)) (r.dieReset d cause) ∧ (r.dieReset d cause).1.onlyRequest l q := by
  obtain ⟨-, -, lineq, slices, sameNet⟩ := r.condemn_stores d cause
  have begins := r.dieReset_eq cause first
  have sources := (r.condemn_leaves d hc).1.noSources ns
  have kept : (r.condemn d cause).1.onlyRequest l q := ⟨lineq.trans only.lineq, (r.condemn_filt d cause).trans only.filt, slices.trans only.slices⟩
  rw [Run.fenceDie_snoops _ (sameNet.trans net) kept waits] at begins
  replace kept := kept.send (fenceSnoop d l)
  replace sources := State.noSources_send sources (fenceSnoop d l)
  generalize (r.condemn d cause).send (fenceSnoop d l) = c at *
  have holds := c.does_holdDie d.isLt
  obtain ⟨holdLineq, holdFilt, holdSlices⟩ := holds.homes
  generalize c.holdDie d = h at *
  have nsH := holds.orderly.noSources sources
  have logs := h.marks_logRec nsH (.rlink d) { event := 0x0B00, cls := .ucna, detail := dieDetail d cause 0 } none
  obtain ⟨-, -, logLineq, logSlices, logFilt, -⟩ := logs.stores
  rw [Run.aplicEdge_noSources _ (logs.noSources nsH)] at begins
  rw [begins]
  exact ⟨(holds.orderly.mono fun _ own => .inr (.inl own)).trans (logs.orderly.mono fun _ own => .inr (.inr own)),
    logLineq.trans (holdLineq.trans kept.lineq), logFilt.trans (holdFilt.trans kept.filt), logSlices.trans (holdSlices.trans kept.slices)⟩

theorem Run.send_rest (r : Run s0) (m : Msg) :
    (r.send m).1.need = r.1.need ∧ (r.send m).1.poke = r.1.poke ∧ (r.send m).1.dies = r.1.dies ∧ (r.send m).1.regs = r.1.regs := ⟨rfl, rfl, rfl, rfl⟩

/-- The bank of a home lies apart from all that the reset of a die writes. -/
theorem homeBank_apart {d k o : Nat} (hd : d < 16) (hk : k < 4) (lo : (Bank.home k).base ≤ o) (hi : o < (Bank.home k).base + 0x100) : ¬ dieResetArea d o := by
  simp only [Bank.base] at lo hi
  rintro (own | (⟨-, area⟩ | ⟨i, small, off⟩) | rec_)
  · simp only [condemnArea, RLINK_offs] at own
    omega
  · unfold dieBase at area
    omega
  · rw [DOM_STAT_off] at off
    omega
  · simp only [Bank.area, ringArea, Bank.base, Bank.die, ERR_SUMMARY, ERR_RINGSTAT, errBase, if_true] at rec_
    omega

/-- R216, R217, R469: a home that has waited too long for the answer of a die resets it, with cause 4, and records it. -/
theorem snoopTimeout_resets (d e : Fin 16) (l : LineAddr) (q : HReq) (s : State) (still : s.still) (ns : s.noSources) (net : s.net = [])
    (slices : s.slices = []) (lineq : s.lineq = [(l.toNat, [q])]) (waits : q.awaits d e l) (online : s.online d = true)
    (slot : s.freeSlot (.home (quadOf l)) 1) (filt : s.filt = []) (running : ∀ i < 16, (s.tile (d * 16 + i)).halted = false) :
    ∃ t, exec (.snoopResponseTimeout d l) s = .next t ∧ t.recorded (.home (quadOf l)) 1 0x0502 ∧ t.fld (RLINK_STAT_STATE d) = 6 ∧
      t.fld (RLINK_STAT_LASTCAUSE d) = 4 := by
  have quarter : (Bank.home (quadOf l)).ofPackage := quadOf_lt l
  have begins : exec (.snoopResponseTimeout d l) s = ((Run.start s).dieScope d (.home (quadOf l)) 0x0502).done := by
    have queue : (Run.start s).queue l.toNat = [q] := by
      rw [Run.queue, State.queue, Run.start_val, lineq]
      simp [Sparse.get, Sparse.find?]
    have tiles : ((List.range 16).any fun t => ((Run.start s).tile (d * 16 + t)).halted) = false :=
      List.any_eq_false.2 fun t ht => Bool.eq_false_iff.1 (running t (List.mem_range.1 ht))
    have named : Agent.die d ∈ q.snooped := by simp [waits.snooped]
    have unfolds : exec (.snoopResponseTimeout d l) s = execSnoopResponseTimeout d l s := rfl
    rw [unfolds, execSnoopResponseTimeout]
    simp only [queue, tiles, waits.phase, named, decide_true, Bool.and_self, Bool.not_false, if_true]
  have logs := (Run.start s).marks_logRec ns (.home (quadOf l)) { event := 0x0502, cls := .ucna, dieScope := true } none
  have records := (Run.start s).logRec_recorded ns quarter (x := { event := 0x0502, cls := .ucna, dieScope := true }) rfl (show 0x0502 < 2 ^ 16 by decide)
    (show 0x0502 ≠ 0x0903 by decide) slot
  unfold Run.dieScope at begins
  generalize (Run.start s).logRec (.home (quadOf l)) { event := 0x0502, cls := .ucna, dieScope := true } = p at *
  obtain ⟨-, -, logLineq, logSlices, logFilt, -, logNet⟩ := logs.stores
  have first : p.1.fld (RLINK_STAT_STATE d) ≠ 6 := by
    rw [logs.fld (f := RLINK_STAT_STATE d) (Bank.area_not_linkPage quarter (linkPage_regs d.isLt).1)]
    exact State.not_reset online
  obtain ⟨orders, state, last, -⟩ := p.condemn_leaves d (show 4 < 16 by decide)
  obtain ⟨resets, only⟩ := p.dieReset_snoops (show 4 < 16 by decide) (logs.noSources ns) (logNet.trans net)
    ⟨logLineq.trans lineq, logFilt.trans filt, logSlices.trans slices⟩ waits first
  have cells := p.linkCells_dieReset d.isLt 4 first
  rw [← Run.linkCells_fld cells d (.inl rfl)] at state last
  have sent := resets.net
  rw [State.net_send, orders.net, logNet, Run.start_val, net, List.nil_append] at sent
  obtain ⟨sendNeed, sendPoke, sendDies, sendRegs⟩ := (p.condemn d 4).send_rest (fenceSnoop d l)
  have need := resets.need.trans (sendNeed.trans (orders.need.trans logs.orderly.need))
  have poke := resets.poke.trans (sendPoke.trans (orders.poke.trans logs.orderly.poke))
  have drops : (p.dieReset d 4).1.noDrop := resets.drops (by
    rw [State.noDrop, sendDies]
    exact orders.drops (logs.orderly.drops still.2.2.2))
  have recorded : (p.dieReset d 4).1.recorded (.home (quadOf l)) 1 0x0502 := State.recorded_same (fun o lo hi => by
    have apart := homeBank_apart d.isLt quarter lo hi
    rw [resets.regs o apart, sendRegs, orders.regs o fun own => apart (.inl own)]) records
  generalize p.dieReset d 4 = t at *
  have fenced : t.1.fencedDie (fenceSnoop d l) = some d.val := by
    have off : t.1.online d = false := State.not_online (by omega) (by omega)
    have home : Agent.onDie (fenceSnoop d l).src = none := rfl
    have die : Agent.onDie (fenceSnoop d l).dst = some d.val := rfl
    simp [State.fencedDie, home, die, off]
  obtain ⟨sq, qs, answered⟩ := t.fencedMsg_snoop sent only waits
  obtain ⟨noNeed, noPoke, -, -⟩ := still
  have settled : (t.fencedMsg d (fenceSnoop d l)).1.still := by
    rw [answered]
    exact ⟨need.trans noNeed, poke.trans noPoke, List.forall_mem_nil _, drops⟩
  refine ⟨_, begins.trans (t.done_fenced (need.trans noNeed) sent fenced settled), State.recorded_same (fun o _ _ => by rw [answered]) recorded, ?_, ?_⟩
  · rw [State.fld_same (s := t.1) (by rw [answered])]
    exact state
  · rw [State.fld_same (s := t.1) (by rw [answered])]
    exact last

/-- Settles O31: what a reset of tiles or of a die takes, and how its sweep ends, clause by clause. -/
theorem resetsComplete : Obligations.ResetsComplete := by
  unfold Obligations.ResetsComplete
  exact ⟨tileReset_request, tileReset_done, dieReset_request, dieReset_link, dieReset_scope, dieReset_sweeps, dieReset_swept,
    fun d e l q s still ns net slices lineq line phase snooped _ src kind online _ slot filt running =>
      snoopTimeout_resets d e l q s still ns net slices lineq ⟨line, phase, snooped, src, kind⟩ online slot filt running⟩

end Sys2Proof.Machine
